-- ==== Sys2Proof/Word.lean ====
section
/-! DEFINITION. Word.lean: the machine's byte, word and double word (00, R6: little-endian 32-bit registers; 03, R57). -/

namespace Sys2Proof

/-- One byte of a memory. -/
abbrev Byte := BitVec 8
/-- A 32-bit value, as every Bilpor port carries (03, R57). -/
abbrev Word := BitVec 32
/-- A 64-bit quantity: two words, an instruction word, a farm time. -/
abbrev DWord := BitVec 64

end Sys2Proof
end

