-- ==== Sys2Proof/Syntax.lean ====
section
/-! DEFINITION. Syntax.lean: the commands of the block, one constructor per row of spec/opcode_table.json, in the table's order. An operand is
what the outside supplies: the engine, die, channel or port addressed, the value moved or written, a measured quantity, the bytes of a frame. -/

namespace Sys2Proof

/-- A command. Each docstring gives the row's mnemonic and rule. -/
inductive Instr where
  /-- TICK (R41). -/
  | tick
  /-- LATCH_END (R149). -/
  | latchEnd
  /-- PPS_EDGE (R31). -/
  | ppsEdge (t : Nat) (falling : Bool)
  /-- PPS_LOSS (R34). -/
  | ppsLoss
  /-- TIME_SETCMD_GO (R36). -/
  | timeSetcmdGo
  /-- TURN_PERIOD_WRITE (R37). -/
  | turnPeriodWrite (v : Word)
  /-- TURN_PHASE_WRITE (R37). -/
  | turnPhaseWrite (v : Word)
  /-- RTC_SYNC (R48). -/
  | rtcSync
  /-- RTC_SETGO (R48). -/
  | rtcSetgo
  /-- RTC_SEC_READ (R49). -/
  | rtcSecRead
  /-- HI_LATCHING_READ (R49). -/
  | hiLatchingRead (a : Nat)
  /-- COUNTDOWN_ENABLE (R50). -/
  | countdownEnable
  /-- COUNTDOWN_EXPIRY (R50). -/
  | countdownExpiry
  /-- GLINT_REQUEST (R51). -/
  | glintRequest
  /-- GLINT_CAPTURE_COMPLETE (R51): `d` × 10 ns after the instant of the capture. -/
  | glintCaptureComplete (d : Nat)
  /-- BUNDLE_ISSUE (R64). -/
  | bundleIssue (e : Fin 5)
  /-- IMM_HI (R63). -/
  | immHi (e : Fin 5) (v : Word)
  /-- PIPELINED_RESULT (R68). -/
  | pipelinedResult (e : Fin 5)
  /-- DIV_RESULT (R105). -/
  | divResult (e : Fin 5)
  /-- FPU_DIVIDE_RESULT (R106). -/
  | fpuDivideResult (e : Fin 5)
  /-- FAR_ACCESS_COMPLETE (R112). -/
  | farAccessComplete (e : Fin 5) (answered : Bool)
  /-- BU_LD (R96). -/
  | buLd (e : Fin 5) (v : Word)
  /-- BU_LDN (R96). -/
  | buLdn (e : Fin 5) (v : Word)
  /-- BU_AND (R96). -/
  | buAnd (e : Fin 5) (v : Word)
  /-- BU_ANDN (R96). -/
  | buAndn (e : Fin 5) (v : Word)
  /-- BU_OR (R96). -/
  | buOr (e : Fin 5) (v : Word)
  /-- BU_ORN (R96). -/
  | buOrn (e : Fin 5) (v : Word)
  /-- BU_XOR (R96). -/
  | buXor (e : Fin 5) (v : Word)
  /-- BU_ST (R100). -/
  | buSt (e : Fin 5) (v : Word)
  /-- BU_STN (R100). -/
  | buStn (e : Fin 5) (v : Word)
  /-- BU_SET (R100). -/
  | buSet (e : Fin 5) (v : Word)
  /-- BU_RST (R100). -/
  | buRst (e : Fin 5) (v : Word)
  /-- BU_PUSH (R98). -/
  | buPush (e : Fin 5) (v : Word)
  /-- BU_POP (R98). -/
  | buPop (e : Fin 5) (v : Word)
  /-- BU_NOT (R96). -/
  | buNot (e : Fin 5) (v : Word)
  /-- BU_ACCW (R96). -/
  | buAccw (e : Fin 5) (v : Word)
  /-- BU_REDGE (R99). -/
  | buRedge (e : Fin 5) (v : Word)
  /-- BU_FEDGE (R99). -/
  | buFedge (e : Fin 5) (v : Word)
  /-- ALU_ADD (R103). -/
  | aluAdd (e : Fin 5) (v : Word)
  /-- ALU_SUB (R103). -/
  | aluSub (e : Fin 5) (v : Word)
  /-- ALU_AND (R103). -/
  | aluAnd (e : Fin 5) (v : Word)
  /-- ALU_OR (R103). -/
  | aluOr (e : Fin 5) (v : Word)
  /-- ALU_XOR (R103). -/
  | aluXor (e : Fin 5) (v : Word)
  /-- ALU_ANDN (R103). -/
  | aluAndn (e : Fin 5) (v : Word)
  /-- ALU_SHL (R103). -/
  | aluShl (e : Fin 5) (v : Word)
  /-- ALU_SHR (R103). -/
  | aluShr (e : Fin 5) (v : Word)
  /-- ALU_SAR (R103). -/
  | aluSar (e : Fin 5) (v : Word)
  /-- ALU_ROL (R103). -/
  | aluRol (e : Fin 5) (v : Word)
  /-- ALU_MIN (R103). -/
  | aluMin (e : Fin 5) (v : Word)
  /-- ALU_MAX (R103). -/
  | aluMax (e : Fin 5) (v : Word)
  /-- ALU_MINU (R103). -/
  | aluMinu (e : Fin 5) (v : Word)
  /-- ALU_MAXU (R103). -/
  | aluMaxu (e : Fin 5) (v : Word)
  /-- ALU_ADDS (R103). -/
  | aluAdds (e : Fin 5) (v : Word)
  /-- ALU_SUBS (R103). -/
  | aluSubs (e : Fin 5) (v : Word)
  /-- ALU_ABS (R103). -/
  | aluAbs (e : Fin 5) (v : Word)
  /-- ALU_NEG (R103). -/
  | aluNeg (e : Fin 5) (v : Word)
  /-- ALU_SXT (R103). -/
  | aluSxt (e : Fin 5) (v : Word)
  /-- ALU_CLZ (R103). -/
  | aluClz (e : Fin 5) (v : Word)
  /-- CMP_EQ (R89). -/
  | cmpEq (e : Fin 5) (v : Word)
  /-- CMP_NE (R89). -/
  | cmpNe (e : Fin 5) (v : Word)
  /-- CMP_LT (R89). -/
  | cmpLt (e : Fin 5) (v : Word)
  /-- CMP_LE (R89). -/
  | cmpLe (e : Fin 5) (v : Word)
  /-- CMP_GT (R89). -/
  | cmpGt (e : Fin 5) (v : Word)
  /-- CMP_GE (R89). -/
  | cmpGe (e : Fin 5) (v : Word)
  /-- CMP_LTU (R89). -/
  | cmpLtu (e : Fin 5) (v : Word)
  /-- CMP_GEU (R89). -/
  | cmpGeu (e : Fin 5) (v : Word)
  /-- CMP_EQA (R97). -/
  | cmpEqa (e : Fin 5) (v : Word)
  /-- CMP_LTA (R97). -/
  | cmpLta (e : Fin 5) (v : Word)
  /-- CMP_LEA (R97). -/
  | cmpLea (e : Fin 5) (v : Word)
  /-- CMP_LTUA (R97). -/
  | cmpLtua (e : Fin 5) (v : Word)
  /-- CMP_LEUA (R97). -/
  | cmpLeua (e : Fin 5) (v : Word)
  /-- MUL_MULS (R104). -/
  | mulMuls (e : Fin 5) (v : Word)
  /-- MUL_MULU (R104). -/
  | mulMulu (e : Fin 5) (v : Word)
  /-- MUL_MULQ31 (R104). -/
  | mulMulq31 (e : Fin 5) (v : Word)
  /-- DIV_DIVS (R105). -/
  | divDivs (e : Fin 5) (v : Word)
  /-- DIV_DIVU (R105). -/
  | divDivu (e : Fin 5) (v : Word)
  /-- FPU_FADD (R106). -/
  | fpuFadd (e : Fin 5) (v : Word)
  /-- FPU_FSUB (R106). -/
  | fpuFsub (e : Fin 5) (v : Word)
  /-- FPU_FMUL (R106). -/
  | fpuFmul (e : Fin 5) (v : Word)
  /-- FPU_FDIV (R106). -/
  | fpuFdiv (e : Fin 5) (v : Word)
  /-- FPU_FSQRT (R106). -/
  | fpuFsqrt (e : Fin 5) (v : Word)
  /-- FPU_FCMP (R107). -/
  | fpuFcmp (e : Fin 5) (v : Word)
  /-- FPU_FTOI (R107). -/
  | fpuFtoi (e : Fin 5) (v : Word)
  /-- FPU_ITOF (R106). -/
  | fpuItof (e : Fin 5) (v : Word)
  /-- FPU_DADD (R106). -/
  | fpuDadd (e : Fin 5) (v : Word)
  /-- FPU_DSUB (R106). -/
  | fpuDsub (e : Fin 5) (v : Word)
  /-- FPU_DMUL (R106). -/
  | fpuDmul (e : Fin 5) (v : Word)
  /-- FPU_DDIV (R106). -/
  | fpuDdiv (e : Fin 5) (v : Word)
  /-- FPU_DSQRT (R106). -/
  | fpuDsqrt (e : Fin 5) (v : Word)
  /-- FPU_DCMP (R107). -/
  | fpuDcmp (e : Fin 5) (v : Word)
  /-- FPU_DTOI (R107). -/
  | fpuDtoi (e : Fin 5) (v : Word)
  /-- FPU_ITOD (R106). -/
  | fpuItod (e : Fin 5) (v : Word)
  /-- FPU_FTOD (R106). -/
  | fpuFtod (e : Fin 5) (v : Word)
  /-- FPU_DTOF (R106). -/
  | fpuDtof (e : Fin 5) (v : Word)
  /-- FPU_FCLR (R106). -/
  | fpuFclr (e : Fin 5) (v : Word)
  /-- TMR_TON (R109). -/
  | tmrTon (e : Fin 5) (v : Word)
  /-- TMR_TOF (R109). -/
  | tmrTof (e : Fin 5) (v : Word)
  /-- TMR_TP (R109). -/
  | tmrTp (e : Fin 5) (v : Word)
  /-- TMR_RESET (R109). -/
  | tmrReset (e : Fin 5) (v : Word)
  /-- LSU_LD32 (R111). -/
  | lsuLd32 (e : Fin 5) (v : Word)
  /-- LSU_LD16S (R111). -/
  | lsuLd16s (e : Fin 5) (v : Word)
  /-- LSU_LD16U (R111). -/
  | lsuLd16u (e : Fin 5) (v : Word)
  /-- LSU_LD8S (R111). -/
  | lsuLd8s (e : Fin 5) (v : Word)
  /-- LSU_LD8U (R111). -/
  | lsuLd8u (e : Fin 5) (v : Word)
  /-- LSU_ST32 (R113). -/
  | lsuSt32 (e : Fin 5) (v : Word)
  /-- LSU_ST16 (R113). -/
  | lsuSt16 (e : Fin 5) (v : Word)
  /-- LSU_ST8 (R113). -/
  | lsuSt8 (e : Fin 5) (v : Word)
  /-- IMG_RD32 (R115). -/
  | imgRd32 (e : Fin 5) (v : Word)
  /-- IMG_RD16S (R115). -/
  | imgRd16s (e : Fin 5) (v : Word)
  /-- IMG_RD16U (R115). -/
  | imgRd16u (e : Fin 5) (v : Word)
  /-- IMG_RD8U (R115). -/
  | imgRd8u (e : Fin 5) (v : Word)
  /-- IMG_WR32 (R115). -/
  | imgWr32 (e : Fin 5) (v : Word)
  /-- IMG_WR16 (R115). -/
  | imgWr16 (e : Fin 5) (v : Word)
  /-- IMG_WR8 (R115). -/
  | imgWr8 (e : Fin 5) (v : Word)
  /-- PC_JMP (R72). -/
  | pcJmp (e : Fin 5) (v : Word)
  /-- PC_REL (R72). -/
  | pcRel (e : Fin 5) (v : Word)
  /-- PC_CALL (R72). -/
  | pcCall (e : Fin 5) (v : Word)
  /-- PC_CALLR (R72). -/
  | pcCallr (e : Fin 5) (v : Word)
  /-- PC_RET (R72). -/
  | pcRet (e : Fin 5) (v : Word)
  /-- SYS_YIELD (R116). -/
  | sysYield (e : Fin 5) (v : Word)
  /-- SYS_CALL (R79). -/
  | sysCall (e : Fin 5) (v : Word)
  /-- SYS_ERET (R84). -/
  | sysEret (e : Fin 5) (v : Word)
  /-- SYS_SYNC (R117). -/
  | sysSync (e : Fin 5) (v : Word)
  /-- SYS_EVT (R117). -/
  | sysEvt (e : Fin 5) (v : Word)
  /-- SYS_SETCSP (R118). -/
  | sysSetcsp (e : Fin 5) (v : Word)
  /-- SYS_SETCSP_LO (R118). -/
  | sysSetcspLo (e : Fin 5) (v : Word)
  /-- SYS_SETCSP_HI (R118). -/
  | sysSetcspHi (e : Fin 5) (v : Word)
  /-- LOCK_OPEN (R119). -/
  | lockOpen (e : Fin 5) (v : Word)
  /-- LOCK_ST (R119). -/
  | lockSt (e : Fin 5) (v : Word)
  /-- LOCK_END (R119). -/
  | lockEnd (e : Fin 5) (v : Word)
  /-- LOCK_FAULT (R121). -/
  | lockFault (e : Fin 4)
  /-- MACRO_T (R128). -/
  | macroT (e : Fin 4) (n : Fin 64) (v : Word)
  /-- MICRO_MOVE (R129). -/
  | microMove (e : Fin 4)
  /-- SVC_ICINV (R123). -/
  | svcIcinv (v : Word)
  /-- SVC_DCCLEAN (R123). -/
  | svcDcclean (v : Word)
  /-- SVC_DCINV (R123). -/
  | svcDcinv (v : Word)
  /-- SVC_DCFLUSH (R123). -/
  | svcDcflush (v : Word)
  /-- EVENT_OCCURRENCE (R201). -/
  | eventOccurrence (src : Fin 288) (cond : Bool) (pay : Nat)
  /-- EVENT_RECORD_UPDATE (R203). -/
  | eventRecordUpdate
  /-- ROUTED_EVENT_ENTRY (R207). -/
  | routedEventEntry (e : Fin 5)
  /-- EVT_PEND_CLEAR (R203). -/
  | evtPendClear (w : Fin 9) (v : Word)
  /-- EVT_ENA_WRITE (R205). -/
  | evtEnaWrite (w : Fin 9) (v : Word)
  /-- EVT_INJECT (R210). -/
  | evtInject (src : Nat) (pay : Nat)
  /-- TASK_DISPATCH (R154). -/
  | taskDispatch (e : Fin 4)
  /-- PREEMPTION (R153). -/
  | preemption (e : Fin 4)
  /-- INSTANCE_COMPLETE (R116). -/
  | instanceComplete (n : Fin 48)
  /-- BUDGET_EXHAUSTED (R157). -/
  | budgetExhausted (n : Fin 48)
  /-- ABORT_LIMIT (R158). -/
  | abortLimit (n : Fin 48)
  /-- SHED_START (R162). -/
  | shedStart (e : Fin 4)
  /-- SHED_END (R163). -/
  | shedEnd (e : Fin 4)
  /-- TSK_DESCRIPTOR_WRITE (R146). -/
  | tskDescriptorWrite (n : Fin 48) (k : Fin 10) (v : Word)
  /-- TASK_ENABLE_WRITE (R164). -/
  | taskEnableWrite (n : Fin 48) (en : Bool)
  /-- TSK_CLRSTAT (R170). -/
  | tskClrstat
  /-- TSK_SHED_CLEAR (R163). -/
  | tskShedClear (e : Fin 4)
  /-- EXC_CMD_ENTER (R190). -/
  | excCmdEnter (scope : Fin 8)
  /-- EXC_CMD_RELEASE (R194). -/
  | excCmdRelease (scope : Fin 8)
  /-- EXC_CMD_PENENTER (R196). -/
  | excCmdPenenter (scope : Fin 8)
  /-- EXC_CMD_PENLEAVE (R196). -/
  | excCmdPenleave (scope : Fin 8)
  /-- ENGINE_WATCHDOG_EXPIRY (R184). -/
  | engineWatchdogExpiry (e : Fin 4)
  /-- SV_WATCHDOG_KICK (R185). -/
  | svWatchdogKick (v : Byte)
  /-- SV_WATCHDOG_EXPIRY (R185). -/
  | svWatchdogExpiry
  /-- MIRROR_WRITE (R186). -/
  | mirrorWrite (m01 : Bool) (m23 : Bool)
  /-- AUTO_RESET (R193). -/
  | autoReset
  /-- ECC_WRITE_BACK (R221). -/
  | eccWriteBack (a : Nat)
  /-- SCRUB_STEP (R225). -/
  | scrubStep (array : Nat)
  /-- ECC_INJECT (R226). -/
  | eccInject (array : Nat) (mode : Nat)
  /-- LAST_WORD_COPY (R234). -/
  | lastWordCopy (lantern : Bool)
  /-- DMA_START (R238). -/
  | dmaStart (a : Fin 4)
  /-- DMA_STOP (R239). -/
  | dmaStop (a : Fin 4)
  /-- DMA_DISABLE (R239). -/
  | dmaDisable (a : Fin 4)
  /-- DMA_BURST_COMPLETE (R238). -/
  | dmaBurstComplete (a : Fin 4)
  /-- CHK_COMMIT (R261). -/
  | chkCommit
  /-- CHK_DISCARD (R260). -/
  | chkDiscard
  /-- PRG_CHECK (R270). -/
  | prgCheck (e : Fin 4)
  /-- PRG_CHECK_COMPLETE (R270). -/
  | prgCheckComplete (e : Fin 4)
  /-- PRG_SCHED (R272). -/
  | prgSched (e : Fin 4)
  /-- PRG_CANCEL (R273). -/
  | prgCancel (e : Fin 4)
  /-- PRG_SWITCHNOW (R279). -/
  | prgSwitchnow (e : Fin 4)
  /-- PROGRAM_SWITCH_COMPLETE (R275). -/
  | programSwitchComplete (e : Fin 4)
  /-- SWITCH_WAIT_REFUSED (R274). -/
  | switchWaitRefused (e : Fin 4)
  /-- DEC_CHECK (R136). -/
  | decCheck (e : Fin 4)
  /-- DEC_CHECK_COMPLETE (R136). -/
  | decCheckComplete (e : Fin 4)
  /-- DEC_ACTIVATE (R137). -/
  | decActivate (e : Fin 4)
  /-- DEC_ARM (R138). -/
  | decArm (e : Fin 4)
  /-- DEC_DISARM (R138). -/
  | decDisarm (e : Fin 4)
  /-- RFL_CFG_WRITE (R286). -/
  | rflCfgWrite (v : Word)
  /-- OWNERSHIP_CLAIM (R288). -/
  | ownershipClaim
  /-- OWNERSHIP_SAMPLE (R288). -/
  | ownershipSample
  /-- TAKEOVER (R292). -/
  | takeover
  /-- OWNERSHIP_CONFLICT (R293). -/
  | ownershipConflict
  /-- LINK_UP (R294). -/
  | linkUp
  /-- LINK_DOWN (R294). -/
  | linkDown
  /-- RELEASE_ORDERED_SET (R292). -/
  | releaseOrderedSet
  /-- NAK_ORDERED_SET (R296). -/
  | nakOrderedSet (seq : Nat) (idx : Nat)
  /-- REFLECT_FRAME_CRC_ERROR (R296). -/
  | reflectFrameCrcError
  /-- HEAD (R297). -/
  | headFrame (seq : Nat) (idx : Nat) (d : List Byte)
  /-- IMAGE (R297). -/
  | imageFrame (seq : Nat) (idx : Nat) (d : List Byte)
  /-- REL (R301). -/
  | relFrame (seq : Nat) (idx : Nat) (d : List Byte)
  /-- FAR (R304). -/
  | farFrame (seq : Nat) (idx : Nat) (d : List Byte)
  /-- CTRL (R305). -/
  | ctrlFrame (seq : Nat) (idx : Nat) (d : List Byte)
  /-- END (R297). -/
  | endFrame (seq : Nat) (idx : Nat) (d : List Byte)
  /-- PAGE (R316). -/
  | pageFrame (seq : Nat) (idx : Nat) (d : List Byte) (bad : List Nat)
  /-- STATE (R315). -/
  | stateFrame (seq : Nat) (idx : Nat) (d : List Byte)
  /-- DIGEST (R307). -/
  | digestFrame (a : Nat) (crc : Nat)
  /-- STATUS (R297). -/
  | statusFrame (role : Nat) (disc : Nat) (reports : List Nat)
  /-- HELLO (R312). -/
  | helloFrame (items : List Nat)
  /-- LOG (R319). -/
  | logFrame (time : Nat) (code : Nat) (data : Nat) (cls : Nat)
  /-- BRICK (R455). -/
  | brickFrame (d : List Byte)
  /-- SHADOW_REL_RELEASE (R303). -/
  | shadowRelRelease (e : Fin 4)
  /-- SWITCHOVER (R308). -/
  | switchover
  /-- DIGEST_COMPLETE (R307). -/
  | digestComplete
  /-- RFL_REJOIN (R311). -/
  | rflRejoin
  /-- RFL_STOP (R309). -/
  | rflStop
  /-- RFL_SWAP (R310). -/
  | rflSwap
  /-- RFL_CANCEL (R310). -/
  | rflCancel
  /-- RFL_REPAIR (R316). -/
  | rflRepair
  /-- ROLE_SWAP (R310). -/
  | roleSwap
  /-- SYNC_TURN (R316). -/
  | syncTurn
  /-- REJOIN_FAILURE (R317). -/
  | rejoinFailure
  /-- REJOIN_RETRY (R309). -/
  | rejoinRetry
  /-- ISAIL_READ (R343). -/
  | isailRead (p : Fin 6)
  /-- ISAIL_WRITE (R342). -/
  | isailWrite (p : Fin 6)
  /-- USER_READ_TAKEN (R343). -/
  | userReadTaken
  /-- STORE (R345). -/
  | storeGroup (p : Fin 6)
  /-- DEFAULTS (R345). -/
  | defaultsGroup (p : Fin 6)
  /-- RELOAD (R345). -/
  | reloadGroup (p : Fin 6)
  /-- POLICY_ACTION (R351). -/
  | policyAction (k : Fin 16)
  /-- ETHERNET_FRAME_RECEIVED (R354). -/
  | ethernetFrameReceived (p : Fin 6) (f : List Byte)
  /-- ARP_REQUEST_RECEIVED (R355). -/
  | arpRequestReceived (p : Fin 6) (f : List Byte)
  /-- ARP_REFRESH (R355). -/
  | arpRefresh (p : Fin 6)
  /-- ICMP_ECHO_REQUEST (R355). -/
  | icmpEchoRequest (p : Fin 6) (f : List Byte)
  /-- PHY_LINK_POLL (R354). -/
  | phyLinkPoll (p : Fin 6) (up : Bool)
  /-- CAN_FRAME_RECEIVED (R361). -/
  | canFrameReceived (p : Fin 6) (id : Nat) (ext : Bool) (fd : Bool) (d : List Byte)
  /-- CAN_REASSEMBLY_TIMEOUT (R361). -/
  | canReassemblyTimeout (p : Fin 6) (cls : Nat)
  /-- CAN_BUS_OFF_RECOVERY (R359). -/
  | canBusOffRecovery (p : Fin 6)
  /-- TRANSMIT_DONE (R382). -/
  | transmitDone (p : Fin 6)
  /-- MAP (R376). -/
  | mapMessage (p : Fin 6)
  /-- NOTIFY_ACK (R377). -/
  | notifyAck (p : Fin 6)
  /-- NOTIFY_SEND (R377). -/
  | notifySend (j : Fin 16) (k : Fin 2) (src : Nat)
  /-- NOTIFY_REPEAT (R377). -/
  | notifyRepeat (j : Fin 16) (k : Fin 2) (src : Nat)
  /-- SUBSCRIBE_CREATE (R374). -/
  | subscribeCreate (p : Fin 6)
  /-- SUBSCRIBE_DELETE (R374). -/
  | subscribeDelete (p : Fin 6)
  /-- SUBSCRIBE_NOTIFICATIONS (R374). -/
  | subscribeNotifications (p : Fin 6)
  /-- SUBSCRIBE_LIST (R374). -/
  | subscribeList (p : Fin 6)
  /-- BULK_WRITE_START (R378). -/
  | bulkWriteStart (p : Fin 6)
  /-- BULK_WRITE_SEGMENT (R378). -/
  | bulkWriteSegment (p : Fin 6)
  /-- BULK_READ_START (R378). -/
  | bulkReadStart (p : Fin 6)
  /-- BULK_ACK (R378). -/
  | bulkAck (p : Fin 6)
  /-- BULK_ABORT (R378). -/
  | bulkAbort (p : Fin 6)
  /-- BULK_TIMEOUT (R378). -/
  | bulkTimeout (j : Fin 16)
  /-- OPEN (R368). -/
  | openSession (p : Fin 6)
  /-- REKEY (R373). -/
  | rekeySession (p : Fin 6)
  /-- CLOSE (R371). -/
  | closeSession (p : Fin 6)
  /-- KEEPALIVE (R371). -/
  | keepAlive (p : Fin 6)
  /-- UNKNOWN_SERVICE (R364). -/
  | unknownService (p : Fin 6)
  /-- SESSION_IDLE_TIMEOUT (R371). -/
  | sessionIdleTimeout (j : Fin 16)
  /-- OPEN_LOCKOUT_END (R370). -/
  | openLockoutEnd (p : Fin 6)
  /-- REKEY_OLD_KEY_EXPIRY (R373). -/
  | rekeyOldKeyExpiry (j : Fin 16)
  /-- PARTNER_LOST (R379). -/
  | partnerLost (p : Fin 6)
  /-- FP_EN_WRITE (R381). -/
  | fpEnWrite (p : Fin 6) (en : Bool)
  /-- CRYPTO_SUBMIT (R386). -/
  | cryptoSubmit (a : Nat)
  /-- CRYPTO_JOB_COMPLETE (R386). -/
  | cryptoJobComplete
  /-- CRYPTO_KEYDATA (R385). -/
  | cryptoKeydata (v : Word)
  /-- CRYPTO_KEYCLR (R385). -/
  | cryptoKeyclr (m : Nat)
  /-- CRYPTO_RNG_READ (R387). -/
  | cryptoRngRead
  /-- GATE_EDGE_COMMAND (R396). -/
  | gateEdgeCommand (n : Fin 8)
  /-- PHASE_A_END (R396). -/
  | phaseAEnd (n : Fin 8)
  /-- PLATEAU_EXIT (R396). -/
  | plateauExit (n : Fin 8) (t : Nat)
  /-- PLATEAU_TIMEOUT (R397). -/
  | plateauTimeout (n : Fin 8)
  /-- DESATURATION (R402). -/
  | desaturation (n : Fin 8)
  /-- UVLO_ENTRY (R391). -/
  | uvloEntry (n : Fin 8) (vddg : Bool)
  /-- UVLO_EXIT (R391). -/
  | uvloExit (n : Fin 8) (vddg : Bool)
  /-- DIE_CHANNEL_LOSS (R392). -/
  | dieChannelLoss (n : Fin 8)
  /-- CORE_CHANNEL_LOSS (R392). -/
  | coreChannelLoss (n : Fin 8)
  /-- DIE_CONFIG_TRANSFER_COMPLETE (R393). -/
  | dieConfigTransferComplete (n : Fin 8)
  /-- GDRV_EN_WRITE (R394). -/
  | gdrvEnWrite (n : Fin 8) (en : Bool)
  /-- GDRV_LOAD (R399). -/
  | gdrvLoad (n : Fin 8)
  /-- GDRV_FCLR (R403). -/
  | gdrvFclr (n : Fin 8)
  /-- ACTIVE_SHORT (R404). -/
  | activeShort
  /-- CARRIER_PEAK (R406). -/
  | carrierPeak
  /-- CARRIER_VALLEY (R422). -/
  | carrierValley
  /-- LEG_REFERENCE_CHANGE (R408). -/
  | legReferenceChange (l : Fin 5) (t : Nat)
  /-- DEAD_TIME_EXPIRY (R408). -/
  | deadTimeExpiry (l : Fin 3)
  /-- GDRV_CP_WRITE (R405). -/
  | gdrvCpWrite (v : Word)
  /-- GDRV_DT_WRITE (R408). -/
  | gdrvDtWrite (v : Word)
  /-- GDRV_BIND_WRITE (R409). -/
  | gdrvBindWrite (k : Fin 5) (v : Word)
  /-- GDRV_DUTY_WRITE (R409). -/
  | gdrvDutyWrite (k : Fin 4) (v : Word)
  /-- SVBEN_WRITE (R410). -/
  | svbenWrite (en : Bool)
  /-- DLNK_COMPARATOR_CHANGE (R417): voltages that have stood at the inputs of the three comparators, in units of 2.5 V / 4 096 000. -/
  | dlnkComparatorChange (von voff vtrip : Nat)
  /-- CHOPPER_CAP_REACHED (R422). -/
  | chopperCapReached
  /-- DLNK_CHBIND_WRITE (R421). -/
  | dlnkChbindWrite (v : Word)
  /-- ROLL (R428). -/
  | rollRequest (comp : Fin 32)
  /-- ROLL_CHECKPOINT (R429). -/
  | rollCheckpoint (out : Bool)
  /-- BRICK_READ (R440). -/
  | brickRead
  /-- BRICK_READ_COMPLETE (R440). -/
  | brickReadComplete (err : Fin 4) (d : List Byte)
  /-- BRICK_WB (R448). -/
  | brickWb
  /-- WRITE_BACK_INTERVAL (R448). -/
  | writeBackInterval
  /-- WRITE_BACK_COMPLETE (R448). -/
  | writeBackComplete (err : Fin 8) (id : List Byte) (bad : Fin 3)
  /-- BRICK_TRANSFER_RETRY (R436). -/
  | brickTransferRetry
  /-- ADC_WINDOW_END (R459): the input averaged over the window, in pV, and whether it left ±1.2 times full scale. -/
  | adcWindowEnd (n : Fin 16) (t : Nat) (vin : Int) (unstable : Bool)
  /-- SADC_CFG_WRITE (R461). -/
  | sadcCfgWrite (n : Fin 16) (k : Fin 3) (v : Word)
  /-- SADC_IMG_WRITE (R465). -/
  | sadcImgWrite (v : Word)
  /-- SADC_FIFO_POP (R466). -/
  | sadcFifoPop (n : Fin 16)
  /-- OVERCURRENT_COMPARATOR_CHANGE (R468, R469): the magnitude that has stood at the input, in units of 1.25 V / 4 096 000. -/
  | overcurrentComparatorChange (k : Fin 3) (v : Nat)
  /-- OC_LATCH_CLEAR (R470). -/
  | ocLatchClear (m : Nat)
  /-- AOUT_SRC_WRITE (R477). -/
  | aoutSrcWrite (n : Fin 8) (v : Word)
  /-- AOUT_CODE_WRITE (R477). -/
  | aoutCodeWrite (n : Fin 8) (v : Word)
  /-- DAC_LATCH (R475). -/
  | dacLatch (n : Fin 8)
  /-- WAVE_ARM (R486). -/
  | waveArm (k : Fin 8)
  /-- WAVE_STOP (R487). -/
  | waveStop (k : Fin 8)
  /-- WAVE_SAMPLE (R484). -/
  | waveSample (k : Fin 8)
  /-- DI_DEBOUNCED_CHANGE (R491, R492): the pins take the levels `raw` at farm time `a`, and are sampled up to farm time `t`. -/
  | diDebouncedChange (a t : Nat) (raw : Word)
  /-- DI_TYPE_WRITE (R490). -/
  | diTypeWrite (v : Word)
  /-- WIRE_BREAK_CHANGE (R494). -/
  | wireBreakChange (n : Fin 32) (broken : Bool)
  /-- DIO_IBIND_WRITE (R493). -/
  | dioIbindWrite (v : Word)
  /-- DO_SOURCE_WRITE (R495). -/
  | doSourceWrite (k : Fin 16) (v : Word)
  /-- DO_SV_WRITE (R495). -/
  | doSvWrite (v : Word)
  /-- DO_OVERLOAD (R497). -/
  | doOverload (k : Fin 16)
  /-- DO_THERMAL_SHUTDOWN (R497). -/
  | doThermalShutdown (k : Fin 16)
  /-- DIO_CLR (R498). -/
  | dioClr (hot : Nat)
  /-- DIO_AUTOCLR (R498). -/
  | dioAutoclr (hot : Nat)
  /-- VFLD_UNDERVOLTAGE (R500). -/
  | vfldUndervoltage (uv : Bool)
  /-- WALK_GO (R504). -/
  | walkGo (hot : Nat)
  /-- WALK_ABORT (R506). -/
  | walkAbort
  /-- WALK_STEP_END (R505). -/
  | walkStepEnd (hot : Nat)
  /-- KEEP_WINDOW_WRITE (R512). -/
  | keepWindowWrite (a : Nat) (d : List Byte)
  /-- KEEP_REQUEST_SERVED (R530). -/
  | keepRequestServed (fail : Nat)
  /-- KEEP_SAVE (R516). -/
  | keepSave
  /-- RETAIN_SAVE_COMPLETE (R517). -/
  | retainSaveComplete
  /-- RETAIN_BANK_ERASE_COMPLETE (R517). -/
  | retainBankEraseComplete
  /-- RING_READ (R521). -/
  | ringRead (r : Fin 32)
  /-- RING_WRITE (R521). -/
  | ringWrite (r : Fin 32) (v : Nat)
  /-- RING_DEFINE (R520). -/
  | ringDefine (r : Fin 32) (row : Nat) (n : Nat) (dflt : Nat)
  /-- RING_UNDEFINE (R520). -/
  | ringUndefine (r : Fin 32)
  /-- SC_INC (R523). -/
  | scInc (c : Fin 64)
  /-- SC_SET (R523). -/
  | scSet (c : Fin 64) (v : Word)
  /-- REC_STORE (R526). -/
  | recStore (k5 : Bool) (hdr : Word) (d : List Byte)
  /-- REC_FIND (R535). -/
  | recFind (k5 : Bool) (key : Word)
  /-- REC_FIND_COMPLETE (R535). -/
  | recFindComplete
  /-- REC_DROP (R525). -/
  | recDrop (k5 : Bool) (hdr : Word)
  /-- KEEP_UNLOCK (R529). -/
  | keepUnlock (k : Fin 8) (write : Bool) (pw : Nat)
  /-- KEEP_RELOCK (R529). -/
  | keepRelock (k : Fin 8)
  /-- PASSWORD_BLOCK_END (R529). -/
  | passwordBlockEnd
  /-- KEEP_RECALL_COMPLETE (R532). -/
  | keepRecallComplete
  /-- LOG_APPEND (R550). -/
  | logAppend (code : Nat) (data : Nat) (cls : Nat) (pin : Bool)
  /-- LOG_UNPIN (R545). -/
  | logUnpin
  /-- LOG_CLRBAD (R548). -/
  | logClrbad (good : List Nat)
  /-- POWER_FAIL_WARNING_START (R571). -/
  | powerFailWarningStart (cycle : Bool)
  /-- POWER_FAIL_WARNING_END (R570). -/
  | powerFailWarningEnd
  /-- SUPPLY_WINDOW_CHANGE (R566). -/
  | supplyWindowChange (k : Fin 4) (out : Bool) (mv : Nat)
  /-- POWER_ON_RESET_ASSERT (R567). -/
  | powerOnResetAssert
  /-- POWER_ON_RESET_RELEASE (R585). -/
  | powerOnResetRelease (cold : Bool) (mv : Nat)
  /-- SRAM_INIT_COMPLETE (R227). -/
  | sramInitComplete
  /-- SV_FIRMWARE_START (R629). -/
  | svFirmwareStart
  /-- START_UP_END (R585). -/
  | startUpEnd
  /-- TEMPERATURE_SAMPLE (R572). -/
  | temperatureSample (t : Int)
  /-- DOMAIN_SWITCH (R574). -/
  | domainSwitch (n : Fin 52) (off : Bool)
  /-- REFERENCE_FAULT (R577). -/
  | referenceFault
  /-- DIE_LINK_LOSS (R578). -/
  | dieLinkLoss
  /-- NRST_LOW (R580). -/
  | nrstLow
  /-- RST_CMD (R581). -/
  | rstCmd (v : Byte)
  /-- RST_ENG (R582). -/
  | rstEng (m : Nat)
  /-- BOOTCFG_STORE (R587). -/
  | bootcfgStore
  /-- MODE_REQUEST (R588). -/
  | modeRequest (m : Nat)
  /-- STANDBY_ENTRY (R589). -/
  | standbyEntry
  /-- WAKE_PATTERN (R597). -/
  | wakePattern
  /-- LANTERN_OPEN (R597). -/
  | lanternOpen (f : List Byte)
  /-- LANTERN_CLOSE (R594). -/
  | lanternClose (f : List Byte)
  /-- LANTERN_PING (R598). -/
  | lanternPing (f : List Byte)
  /-- LANTERN_READ (R603). -/
  | lanternRead (f : List Byte)
  /-- LANTERN_WRITE (R598). -/
  | lanternWrite (f : List Byte)
  /-- LANTERN_MONITOR (R598). -/
  | lanternMonitor (f : List Byte)
  /-- LANTERN_MONPOLL (R598). -/
  | lanternMonpoll (f : List Byte)
  /-- LANTERN_RESET (R620). -/
  | lanternReset (f : List Byte)
  /-- LANTERN_BREAK (R595). -/
  | lanternBreak
  /-- LANTERN_FRAME_TIMEOUT (R596). -/
  | lanternFrameTimeout
  /-- LANTERN_IDLE_TIMEOUT (R594). -/
  | lanternIdleTimeout
  /-- ACC_GO (R601). -/
  | accGo
  /-- HALT (R608). -/
  | haltRequest (mask : Fin 32) (force : Bool)
  /-- DEFERRED_HALT (R608). -/
  | deferredHalt (e : Fin 5)
  /-- RESUME (R611). -/
  | resumeRequest (mask : Fin 32)
  /-- STEP (R610). -/
  | stepRequest (mask : Fin 32)
  /-- LANTERN_SYSRST (R620). -/
  | lanternSysrst
  /-- EE_DATA_WRITE (R614). -/
  | eeDataWrite (e : Fin 5) (v : Word)
  /-- MREAD (R621). -/
  | monRead (p : Fin 7)
  /-- MWRITE (R621). -/
  | monWrite (p : Fin 7)
  /-- MONITOR_HALT (R621). -/
  | monitorHalt (p : Fin 7)
  /-- MONITOR_RESUME (R621). -/
  | monitorResume (p : Fin 7)
  /-- MONITOR_STEP (R621). -/
  | monitorStep (p : Fin 7)
  /-- STATE_READ (R621). -/
  | monStateRead (p : Fin 7)
  /-- STATE_WRITE (R621). -/
  | monStateWrite (p : Fin 7)
  /-- BREAK (R621). -/
  | monBreak (p : Fin 7)
  /-- SESSION (R621). -/
  | monSession (p : Fin 7)
  /-- MONITOR_RESET (R621). -/
  | monitorReset (p : Fin 7)
  /-- START_MODE (R621). -/
  | monStartMode (p : Fin 7)
  /-- MONITOR_STATUS (R621). -/
  | monitorStatus (p : Fin 7)
  /-- UPD_SECTOR_ERASE (R625). -/
  | updSectorErase (a : Nat)
  /-- UPD_BLOCK_ERASE (R625). -/
  | updBlockErase (a : Nat)
  /-- UPD_PROGRAM (R625). -/
  | updProgram (a : Nat) (d : List Byte)
  /-- UPD_CRC (R625). -/
  | updCrc (a : Nat) (n : Nat)
  /-- FLASH_OPERATION_COMPLETE (R625). -/
  | flashOperationComplete (ok : Bool)
  /-- VERIFY (R633). -/
  | fwVerify (p : Fin 6)
  /-- DRYRUN (R642). -/
  | fwDryrun (p : Fin 6)
  /-- SCHEDULE (R634). -/
  | fwSchedule (p : Fin 6)
  /-- CANCEL (R634). -/
  | fwCancel (p : Fin 6)
  /-- ACTIVATE (R643). -/
  | fwActivate (p : Fin 6)
  /-- CONFIRM (R631). -/
  | fwConfirm (p : Fin 6)
  /-- ROLLBACK (R643). -/
  | fwRollback (p : Fin 6)
  /-- CLEAR_RESET_LIST (R641). -/
  | fwClearResetList (p : Fin 6)
  /-- HANDOVER_COMPLETE (R635). -/
  | handoverComplete
  /-- CONFIRMATION_TIME (R631). -/
  | confirmationTime
  /-- REGISTER_WRITE (R7). -/
  | registerWrite (r : Fin 8) (a : Nat) (v : Word)
  /-- OWN_IN_CHANGE (R287). -/
  | ownInChange (high : Bool)
  /-- CAN_BUS_ERROR (R359). -/
  | canBusError (p : Fin 6) (tx : Bool) (heavy : Bool) (crc : Bool)
  /-- MILLER_CLAMP_ENGAGE (R401). -/
  | millerClampEngage (n : Fin 8)
  /-- VFLD_CUTOFF (R500). -/
  | vfldCutoff (off : Bool)
  /-- PLL_LOCK (R585). -/
  | pllLock (xok : Bool)
  /-- LANTERN_INVALID_CELL (R595). -/
  | lanternInvalidCell
  /-- LANTERN_FRAME_ERROR (R596). -/
  | lanternFrameError (f : List Byte)
  /-- LANTERN_LOCKOUT_END (R597). -/
  | lanternLockoutEnd
  /-- RTC_WRAP (R47). -/
  | rtcWrap
  /-- DRIVE_CHANNEL_RETURN (R392). -/
  | driveChannelReturn (n : Fin 8)
  deriving DecidableEq, Repr

end Sys2Proof
end

