-- ==== Sys2Proof/WellFormed.lean ====
section
/-! DEFINITION. WellFormed.lean: the operands a command can have. What the constructor's types do not bound is bounded here: register fields and
bus addresses by their widths (00, R3-R7), frames by their layouts (12, R296; 14, R360; 25, R596), instants as 64-bit farm times (02, R26). -/

namespace Sys2Proof

/-- The addresses whose read latches the upper word of a pair (02, R49; 06; 08). -/
def hiLatching : List Nat := [0x10005004, 0x10006024, 0x10006038, 0x10004100, 0x1000D014, 0x1000D01C]

/-- The operands are of a kind that the outside can supply. -/
def Instr.wf : Instr → Bool
  | .tick => true
  | .latchEnd => true
  | .ppsEdge t _ => decide (t < 2 ^ 64)
  | .ppsLoss => true
  | .timeSetcmdGo => true
  | .turnPeriodWrite _ => true
  | .turnPhaseWrite _ => true
  | .rtcSync => true
  | .rtcSetgo => true
  | .rtcSecRead => true
  | .hiLatchingRead a => hiLatching.contains a
  | .countdownEnable => true
  | .countdownExpiry => true
  | .glintRequest => true
  | .glintCaptureComplete d => decide (d ≤ 20)
  | .bundleIssue _ => true
  | .immHi _ _ => true
  | .pipelinedResult _ => true
  | .divResult _ => true
  | .fpuDivideResult _ => true
  | .farAccessComplete _ _ => true
  | .buLd _ _ => true
  | .buLdn _ _ => true
  | .buAnd _ _ => true
  | .buAndn _ _ => true
  | .buOr _ _ => true
  | .buOrn _ _ => true
  | .buXor _ _ => true
  | .buSt _ _ => true
  | .buStn _ _ => true
  | .buSet _ _ => true
  | .buRst _ _ => true
  | .buPush _ _ => true
  | .buPop _ _ => true
  | .buNot _ _ => true
  | .buAccw _ _ => true
  | .buRedge _ _ => true
  | .buFedge _ _ => true
  | .aluAdd _ _ => true
  | .aluSub _ _ => true
  | .aluAnd _ _ => true
  | .aluOr _ _ => true
  | .aluXor _ _ => true
  | .aluAndn _ _ => true
  | .aluShl _ _ => true
  | .aluShr _ _ => true
  | .aluSar _ _ => true
  | .aluRol _ _ => true
  | .aluMin _ _ => true
  | .aluMax _ _ => true
  | .aluMinu _ _ => true
  | .aluMaxu _ _ => true
  | .aluAdds _ _ => true
  | .aluSubs _ _ => true
  | .aluAbs _ _ => true
  | .aluNeg _ _ => true
  | .aluSxt _ _ => true
  | .aluClz _ _ => true
  | .cmpEq _ _ => true
  | .cmpNe _ _ => true
  | .cmpLt _ _ => true
  | .cmpLe _ _ => true
  | .cmpGt _ _ => true
  | .cmpGe _ _ => true
  | .cmpLtu _ _ => true
  | .cmpGeu _ _ => true
  | .cmpEqa _ _ => true
  | .cmpLta _ _ => true
  | .cmpLea _ _ => true
  | .cmpLtua _ _ => true
  | .cmpLeua _ _ => true
  | .mulMuls _ _ => true
  | .mulMulu _ _ => true
  | .mulMulq31 _ _ => true
  | .divDivs _ _ => true
  | .divDivu _ _ => true
  | .fpuFadd _ _ => true
  | .fpuFsub _ _ => true
  | .fpuFmul _ _ => true
  | .fpuFdiv _ _ => true
  | .fpuFsqrt _ _ => true
  | .fpuFcmp _ _ => true
  | .fpuFtoi _ _ => true
  | .fpuItof _ _ => true
  | .fpuDadd _ _ => true
  | .fpuDsub _ _ => true
  | .fpuDmul _ _ => true
  | .fpuDdiv _ _ => true
  | .fpuDsqrt _ _ => true
  | .fpuDcmp _ _ => true
  | .fpuDtoi _ _ => true
  | .fpuItod _ _ => true
  | .fpuFtod _ _ => true
  | .fpuDtof _ _ => true
  | .fpuFclr _ _ => true
  | .tmrTon _ _ => true
  | .tmrTof _ _ => true
  | .tmrTp _ _ => true
  | .tmrReset _ _ => true
  | .lsuLd32 _ _ => true
  | .lsuLd16s _ _ => true
  | .lsuLd16u _ _ => true
  | .lsuLd8s _ _ => true
  | .lsuLd8u _ _ => true
  | .lsuSt32 _ _ => true
  | .lsuSt16 _ _ => true
  | .lsuSt8 _ _ => true
  | .imgRd32 _ _ => true
  | .imgRd16s _ _ => true
  | .imgRd16u _ _ => true
  | .imgRd8u _ _ => true
  | .imgWr32 _ _ => true
  | .imgWr16 _ _ => true
  | .imgWr8 _ _ => true
  | .pcJmp _ _ => true
  | .pcRel _ _ => true
  | .pcCall _ _ => true
  | .pcCallr _ _ => true
  | .pcRet _ _ => true
  | .sysYield _ _ => true
  | .sysCall _ _ => true
  | .sysEret _ _ => true
  | .sysSync _ _ => true
  | .sysEvt _ _ => true
  | .sysSetcsp _ _ => true
  | .sysSetcspLo _ _ => true
  | .sysSetcspHi _ _ => true
  | .lockOpen _ _ => true
  | .lockSt _ _ => true
  | .lockEnd _ _ => true
  | .lockFault _ => true
  | .macroT _ _ _ => true
  | .microMove _ => true
  | .svcIcinv _ => true
  | .svcDcclean _ => true
  | .svcDcinv _ => true
  | .svcDcflush _ => true
  | .eventOccurrence _ _ pay => decide (pay < 65536)
  | .eventRecordUpdate => true
  | .routedEventEntry _ => true
  | .evtPendClear _ _ => true
  | .evtEnaWrite _ _ => true
  | .evtInject src pay => decide (src < 512) && decide (pay < 65536)
  | .taskDispatch _ => true
  | .preemption _ => true
  | .instanceComplete _ => true
  | .budgetExhausted _ => true
  | .abortLimit _ => true
  | .shedStart _ => true
  | .shedEnd _ => true
  | .tskDescriptorWrite _ _ _ => true
  | .taskEnableWrite _ _ => true
  | .tskClrstat => true
  | .tskShedClear _ => true
  | .excCmdEnter _ => true
  | .excCmdRelease _ => true
  | .excCmdPenenter _ => true
  | .excCmdPenleave _ => true
  | .engineWatchdogExpiry _ => true
  | .svWatchdogKick _ => true
  | .svWatchdogExpiry => true
  | .mirrorWrite _ _ => true
  | .autoReset => true
  | .eccWriteBack a => decide (a < 3 * 2 ^ 32) && a % 4 == 0
  | .scrubStep array => decide (array < 256)
  | .eccInject array mode => decide (array < 256) && decide (mode < 4)
  | .lastWordCopy _ => true
  | .dmaStart _ => true
  | .dmaStop _ => true
  | .dmaDisable _ => true
  | .dmaBurstComplete _ => true
  | .chkCommit => true
  | .chkDiscard => true
  | .prgCheck _ => true
  | .prgCheckComplete _ => true
  | .prgSched _ => true
  | .prgCancel _ => true
  | .prgSwitchnow _ => true
  | .programSwitchComplete _ => true
  | .switchWaitRefused _ => true
  | .decCheck _ => true
  | .decCheckComplete _ => true
  | .decActivate _ => true
  | .decArm _ => true
  | .decDisarm _ => true
  | .rflCfgWrite _ => true
  | .ownershipClaim => true
  | .ownershipSample => true
  | .takeover => true
  | .ownershipConflict => true
  | .linkUp => true
  | .linkDown => true
  | .releaseOrderedSet => true
  | .nakOrderedSet seq idx => decide (seq < 65536) && decide (idx < 65536)
  | .reflectFrameCrcError => true
  | .headFrame seq idx d => decide (seq < 65536) && decide (idx < 65536) && decide (d.length ≤ 4112)
  | .imageFrame seq idx d => decide (seq < 65536) && decide (idx < 65536) && decide (d.length ≤ 4112)
  | .relFrame seq idx d => decide (seq < 65536) && decide (idx < 65536) && decide (d.length ≤ 4112)
  | .farFrame seq idx d => decide (seq < 65536) && decide (idx < 65536) && decide (d.length ≤ 4112)
  | .ctrlFrame seq idx d => decide (seq < 65536) && decide (idx < 65536) && decide (d.length ≤ 4112)
  | .endFrame seq idx d => decide (seq < 65536) && decide (idx < 65536) && decide (d.length ≤ 4112)
  | .pageFrame seq idx d bad => decide (seq < 65536) && decide (idx < 65536) && decide (d.length ≤ 4112) && bad.all fun o => decide (o < d.length)
  | .stateFrame seq idx d => decide (seq < 65536) && decide (idx < 65536) && decide (d.length ≤ 4112)
  | .digestFrame a crc => decide (a < 2 ^ 32) && decide (crc < 2 ^ 32)
  | .statusFrame role _ reports => decide (role < 4) && reports.length == 12
  | .helloFrame items => items.length == 27
  | .logFrame time code data cls => decide (time < 2 ^ 64) && decide (code < 65536) && decide (data < 65536) && decide (cls < 5)
  | .brickFrame d => d.length == 320
  | .shadowRelRelease _ => true
  | .switchover => true
  | .digestComplete => true
  | .rflRejoin => true
  | .rflStop => true
  | .rflSwap => true
  | .rflCancel => true
  | .rflRepair => true
  | .roleSwap => true
  | .syncTurn => true
  | .rejoinFailure => true
  | .rejoinRetry => true
  | .isailRead _ => true
  | .isailWrite _ => true
  | .userReadTaken => true
  | .storeGroup _ => true
  | .defaultsGroup _ => true
  | .reloadGroup _ => true
  | .policyAction _ => true
  | .ethernetFrameReceived _ _ => true
  | .arpRequestReceived _ _ => true
  | .arpRefresh _ => true
  | .icmpEchoRequest _ _ => true
  | .phyLinkPoll _ _ => true
  | .canFrameReceived _ id ext fd d => decide (id < (if ext then 2 ^ 29 else 2 ^ 11)) && decide (d.length ≤ (if fd then 64 else 8))
  | .canReassemblyTimeout _ cls => decide (cls < 32)
  | .canBusOffRecovery _ => true
  | .transmitDone _ => true
  | .mapMessage _ => true
  | .notifyAck _ => true
  | .notifySend _ k src => decide (src < (if k = 0 then 288 else 16))
  | .notifyRepeat _ k src => decide (src < (if k = 0 then 288 else 16))
  | .subscribeCreate _ => true
  | .subscribeDelete _ => true
  | .subscribeNotifications _ => true
  | .subscribeList _ => true
  | .bulkWriteStart _ => true
  | .bulkWriteSegment _ => true
  | .bulkReadStart _ => true
  | .bulkAck _ => true
  | .bulkAbort _ => true
  | .bulkTimeout _ => true
  | .openSession _ => true
  | .rekeySession _ => true
  | .closeSession _ => true
  | .keepAlive _ => true
  | .unknownService _ => true
  | .sessionIdleTimeout _ => true
  | .openLockoutEnd _ => true
  | .rekeyOldKeyExpiry _ => true
  | .partnerLost _ => true
  | .fpEnWrite _ _ => true
  | .cryptoSubmit a => decide (a < 2 ^ 32)
  | .cryptoJobComplete => true
  | .cryptoKeydata _ => true
  | .cryptoKeyclr m => decide (m < 2 ^ 24)
  | .cryptoRngRead => true
  | .gateEdgeCommand _ => true
  | .phaseAEnd _ => true
  | .plateauExit _ t => decide (t < 2 ^ 64)
  | .plateauTimeout _ => true
  | .desaturation _ => true
  | .uvloEntry _ _ => true
  | .uvloExit _ _ => true
  | .dieChannelLoss _ => true
  | .coreChannelLoss _ => true
  | .dieConfigTransferComplete _ => true
  | .gdrvEnWrite _ _ => true
  | .gdrvLoad _ => true
  | .gdrvFclr _ => true
  | .activeShort => true
  | .carrierPeak => true
  | .carrierValley => true
  | .legReferenceChange _ t => decide (t < 2 ^ 64)
  | .deadTimeExpiry _ => true
  | .gdrvCpWrite _ => true
  | .gdrvDtWrite _ => true
  | .gdrvBindWrite _ _ => true
  | .gdrvDutyWrite _ _ => true
  | .svbenWrite _ => true
  | .dlnkComparatorChange von voff vtrip => decide (von ≤ 4096000) && decide (voff ≤ 4096000) && decide (vtrip ≤ 4096000)
  | .chopperCapReached => true
  | .dlnkChbindWrite _ => true
  | .rollRequest _ => true
  | .rollCheckpoint _ => true
  | .brickRead => true
  | .brickReadComplete _ d => decide (d.length ≤ 1024)
  | .brickWb => true
  | .writeBackInterval => true
  | .writeBackComplete _ id _ => decide (id.length ≤ 20)
  | .brickTransferRetry => true
  | .adcWindowEnd _ t _ _ => decide (t < 2 ^ 64)
  | .sadcCfgWrite _ _ _ => true
  | .sadcImgWrite _ => true
  | .sadcFifoPop _ => true
  | .overcurrentComparatorChange _ _ => true
  | .ocLatchClear m => decide (m < 8)
  | .aoutSrcWrite _ _ => true
  | .aoutCodeWrite _ _ => true
  | .dacLatch _ => true
  | .waveArm _ => true
  | .waveStop _ => true
  | .waveSample _ => true
  | .diDebouncedChange a t _ => decide (a < 2 ^ 64 ∧ t < 2 ^ 64)
  | .diTypeWrite _ => true
  | .wireBreakChange _ _ => true
  | .dioIbindWrite _ => true
  | .doSourceWrite _ _ => true
  | .doSvWrite _ => true
  | .doOverload _ => true
  | .doThermalShutdown _ => true
  | .dioClr hot => decide (hot < 65536)
  | .dioAutoclr hot => decide (hot < 65536)
  | .vfldUndervoltage _ => true
  | .walkGo hot => decide (hot < 65536)
  | .walkAbort => true
  | .walkStepEnd hot => decide (hot < 65536)
  | .keepWindowWrite a d => decide (0x20000000 ≤ a) && decide (a + d.length ≤ 0x20040000) && !d.isEmpty
  | .keepRequestServed fail => decide (fail < 256)
  | .keepSave => true
  | .retainSaveComplete => true
  | .retainBankEraseComplete => true
  | .ringRead _ => true
  | .ringWrite _ v => decide (v < 2 ^ 64)
  | .ringDefine _ row n dflt => decide (row < 65536) && decide (n < 65536) && decide (dflt < 2 ^ 64)
  | .ringUndefine _ => true
  | .scInc _ => true
  | .scSet _ _ => true
  | .recStore _ _ d => decide (d.length ≤ 2048)
  | .recFind _ _ => true
  | .recFindComplete => true
  | .recDrop _ _ => true
  | .keepUnlock _ _ pw => decide (pw < 2 ^ 64)
  | .keepRelock _ => true
  | .passwordBlockEnd => true
  | .keepRecallComplete => true
  | .logAppend code data cls _ => decide (code < 65536) && decide (data < 65536) && decide (cls < 8)
  | .logUnpin => true
  | .logClrbad good => good.all fun p => decide (p < 256)
  | .powerFailWarningStart _ => true
  | .powerFailWarningEnd => true
  | .supplyWindowChange _ _ mv => decide (mv < 65536)
  | .powerOnResetAssert => true
  | .powerOnResetRelease _ mv => decide (mv < 65536)
  | .sramInitComplete => true
  | .svFirmwareStart => true
  | .startUpEnd => true
  | .temperatureSample t => decide (-2048 ≤ t) && decide (t < 4096)
  | .domainSwitch _ _ => true
  | .referenceFault => true
  | .dieLinkLoss => true
  | .nrstLow => true
  | .rstCmd _ => true
  | .rstEng m => decide (m < 16)
  | .bootcfgStore => true
  | .modeRequest m => decide (m < 4)
  | .standbyEntry => true
  | .wakePattern => true
  | .lanternOpen f => decide (5 ≤ f.length) && decide (f.length ≤ 260)
  | .lanternClose f => decide (5 ≤ f.length) && decide (f.length ≤ 260)
  | .lanternPing f => decide (5 ≤ f.length) && decide (f.length ≤ 260)
  | .lanternRead f => decide (5 ≤ f.length) && decide (f.length ≤ 260)
  | .lanternWrite f => decide (5 ≤ f.length) && decide (f.length ≤ 260)
  | .lanternMonitor f => decide (5 ≤ f.length) && decide (f.length ≤ 260)
  | .lanternMonpoll f => decide (5 ≤ f.length) && decide (f.length ≤ 260)
  | .lanternReset f => decide (5 ≤ f.length) && decide (f.length ≤ 260)
  | .lanternBreak => true
  | .lanternFrameTimeout => true
  | .lanternIdleTimeout => true
  | .accGo => true
  | .haltRequest _ _ => true
  | .deferredHalt _ => true
  | .resumeRequest _ => true
  | .stepRequest _ => true
  | .lanternSysrst => true
  | .eeDataWrite _ _ => true
  | .monRead _ => true
  | .monWrite _ => true
  | .monitorHalt _ => true
  | .monitorResume _ => true
  | .monitorStep _ => true
  | .monStateRead _ => true
  | .monStateWrite _ => true
  | .monBreak _ => true
  | .monSession _ => true
  | .monitorReset _ => true
  | .monStartMode _ => true
  | .monitorStatus _ => true
  | .updSectorErase a => decide (a < 2 ^ 32)
  | .updBlockErase a => decide (a < 2 ^ 32)
  | .updProgram a d => decide (a < 2 ^ 32) && decide (d.length ≤ 256) && !d.isEmpty
  | .updCrc a n => decide (a < 2 ^ 32) && decide (n < 2 ^ 32)
  | .flashOperationComplete _ => true
  | .fwVerify _ => true
  | .fwDryrun _ => true
  | .fwSchedule _ => true
  | .fwCancel _ => true
  | .fwActivate _ => true
  | .fwConfirm _ => true
  | .fwRollback _ => true
  | .fwClearResetList _ => true
  | .handoverComplete => true
  | .confirmationTime => true
  | .registerWrite _ a _ => decide (a < 2 ^ 32) && a % 4 == 0
  | .ownInChange _ => true
  | .canBusError _ _ _ _ => true
  | .millerClampEngage _ => true
  | .vfldCutoff _ => true
  | .pllLock _ => true
  | .lanternInvalidCell => true
  | .lanternFrameError _ => true
  | .lanternLockoutEnd => true
  | .rtcWrap => true
  | .driveChannelReturn _ => true

end Sys2Proof
end

