-- ==== Sys2Proof/Config.lean ====
section
/-! DEFINITION. Config.lean: the free values: what the spec leaves open. Each is an opaque constant with no body, so nothing
can be proved about the value it has. The assumption log names every one. -/

namespace Sys2Proof.Config

/-- Whether underflow is detected after rounding (true) or before (false): R106 (04) names IEEE 754, which leaves the
choice open. Log entry 5. -/
opaque tinyAfterRounding : Bool

/-- The `n`-th 32-bit word of the random generator (14, R387). Log entry 6. -/
opaque rngWord : Nat → BitVec 32

/-- The `n`-th value the spec leaves undefined, as a number; its user cuts it to the width it needs. Log entry 7. -/
opaque freeNat : Nat → Nat

/-- The unique identifier words `SYS.UID0`-`UID3` (24, PS0 table: "see text"). Log entry 8. -/
opaque uid : Nat → BitVec 32

/-- The contents of the boot ROM, byte by byte (09, R213: Veinaund's, not in the spec). Log entry 9. -/
opaque romByte : Nat → BitVec 8

/-- Whether an Ed25519ph signature verifies (26, R628): key index, message bytes, signature bytes. The two keys are in
the ROM and not in the spec. Log entry 10. -/
opaque signatureOk : Nat → List (BitVec 8) → List (BitVec 8) → Bool

/-- binary64 exponential and power as R446 (17) uses them; the spec does not fix their rounding. Log entry 11. -/
opaque exp64 : BitVec 64 → BitVec 64
opaque pow64 : BitVec 64 → BitVec 64 → BitVec 64

/-- The message codes of the warnings that the spec raises by name without a code (R101 in 04, R157 and R160 in 06, R631 in 26
...); SV's message codes are 0x0100-0xFFFF (22, R540). Log entry 12. -/
opaque warnCode : Nat → BitVec 16

/-- The ECC syndrome a read reports (09, `SYS.ECC_CEINFO.SYN`): the check matrix is not in the spec. Log entry 7. -/
opaque syndrome : Nat → BitVec 8

/-- The time in microseconds that the log gives an entry of K1 whose mark stood in a row erased since (22, R542, R543): by its slot. Log entry 188. -/
opaque markless : Nat → Nat

/-- SV's texts for its message codes (22, R551; P51.0009): UTF-8, of SV firmware and not in the spec. Log entry 13. -/
opaque codeText : Nat → List (BitVec 8)

/-- What the flash's JESD216 table reports (26, R623): the size in MiB, and whether the flash meets R623. The flash is a part of the board
that the spec does not give. Log entry 15. -/
opaque flashMiB : Nat
opaque flashOk : Bool

end Sys2Proof.Config
end

