-- ==== Sys2Proof/Machine/Bits.lean ====
section
/-! DEFINITION. Machine/Bits.lean: bit fields, byte order (00, R6), two's complement, sparse tables, and the CRCs of the spec. -/

namespace Sys2Proof.Machine

/-- Bits `[lsb + width - 1 : lsb]` of a number. -/
def bits (w lsb width : Nat) : Nat := w / 2 ^ lsb % 2 ^ width

/-- One bit of a number as a Boolean. -/
def bit (w i : Nat) : Bool := Nat.testBit w i

/-- A number with bit `i` set or cleared. -/
def setBit (w i : Nat) (b : Bool) : Nat :=
  if b then w ||| 2 ^ i else if Nat.testBit w i then w - 2 ^ i else w

def b2n (b : Bool) : Nat := if b then 1 else 0

/-- Round `x` up to a multiple of `k`. -/
def ceilDiv (x k : Nat) : Nat := (x + k - 1) / k

/-- The number a two's complement field of `n` bits stands for. -/
def toSigned (n x : Nat) : Int := if x % 2 ^ n < 2 ^ (n - 1) then (x % 2 ^ n : Nat) else (x % 2 ^ n : Nat) - (2 ^ n : Nat)

/-- The two's complement field of `n` bits that stands for an integer (wrapping). -/
def ofSigned (n : Nat) (i : Int) : Nat := (i % (2 ^ n : Nat)).toNat

/-- Saturate an integer to the signed range of `n` bits. -/
def satSigned (n : Nat) (i : Int) : Int :=
  if i < -(2 ^ (n - 1) : Nat) then -(2 ^ (n - 1) : Nat) else if (2 ^ (n - 1) : Nat) - 1 < i then (2 ^ (n - 1) : Nat) - 1 else i

/-- Add to a saturating counter of `n` bits. -/
def satAdd (n x k : Nat) : Nat := min (2 ^ n - 1) (x + k)

/-- The little-endian number that bytes spell (00, R6). -/
def leNat : List Byte → Nat
  | [] => 0
  | b :: r => b.toNat + 256 * leNat r

/-- A number as `n` little-endian bytes (00, R6). -/
def leBytes : Nat → Nat → List Byte
  | 0, _ => []
  | n + 1, x => BitVec.ofNat 8 x :: leBytes n (x / 256)

/-- The big-endian number that bytes spell. -/
def beNat (l : List Byte) : Nat := leNat l.reverse

/-- A number as `n` big-endian bytes. -/
def beBytes (n x : Nat) : List Byte := (leBytes n x).reverse

/-- `n` bytes of `l` from offset `o`. -/
def slice (l : List α) (o n : Nat) : List α := (l.drop o).take n

/-- The little-endian number of `n` bytes of `l` from offset `o`. -/
def leAt (l : List Byte) (o n : Nat) : Nat := leNat (slice l o n)

/-- Replace the bytes of `l` from offset `o` by `r`. -/
def patch (l : List α) (o : Nat) (r : List α) : List α := l.take o ++ r ++ l.drop (o + r.length)

/-- Indices of the set bits of a number, below `n`, rising. -/
def setBits (n w : Nat) : List Nat := (List.range n).filter fun i => Nat.testBit w i

/-! ## Sparse tables: sorted lists of keyed entries; what is not listed has the value its reader gives it. -/

/-- A sparse table: entries in strictly rising key order. -/
abbrev Store (α : Type) := List (Nat × α)

/-- The entry of a key. -/
def Store.find (k : Nat) : Store α → Option α
  | [] => none
  | (j, v) :: r => if j = k then some v else Store.find k r

/-- Set the entry of a key, keeping the order. -/
def Store.put (k : Nat) (v : α) : Store α → Store α
  | [] => [(k, v)]
  | (j, w) :: r => if k < j then (k, v) :: (j, w) :: r else if j = k then (k, v) :: r else (j, w) :: Store.put k v r

/-- Drop the entry of a key. -/
def Store.del (k : Nat) (t : Store α) : Store α := t.filter fun e => e.1 != k

/-- Keys rise strictly. -/
def Store.sorted : Store α → Bool
  | [] => true
  | [_] => true
  | (j, _) :: (k, w) :: r => decide (j < k) && Store.sorted ((k, w) :: r)

/-- Read with a value for what is not listed. -/
def Store.getD (t : Store α) (k : Nat) (d : α) : α := (Store.find k t).getD d

/-! ## CRCs -/

/-- One bit of a reflected CRC. -/
def crcReflBit (poly c : Nat) : Nat := if c % 2 = 1 then (c / 2) ^^^ poly else c / 2

/-- One byte of a reflected CRC. -/
def crcReflByte (poly c : Nat) (b : Byte) : Nat :=
  let s := crcReflBit poly
  s (s (s (s (s (s (s (s (c ^^^ b.toNat))))))))

/-- The CRC-32 of IEEE 802.3 (05, R125): reflected, initial value and final XOR 0xFFFF_FFFF. -/
def crc32 (l : List Byte) : Nat := (l.foldl (crcReflByte 0xEDB88320) 0xFFFFFFFF) ^^^ 0xFFFFFFFF

/-- One bit of an unreflected CRC of `n` bits. -/
def crcBit (n poly c : Nat) : Nat := if Nat.testBit c (n - 1) then ((c * 2) % 2 ^ n) ^^^ poly else c * 2

/-- One byte of an unreflected CRC of `n` bits. -/
def crcByte (n poly c : Nat) (b : Byte) : Nat :=
  let s := crcBit n poly
  s (s (s (s (s (s (s (s (c ^^^ (b.toNat * 2 ^ (n - 8))))))))))

/-- CRC-16/CCITT-FALSE (21, R520; 25, R596): polynomial 0x1021, initial value 0xFFFF. -/
def crc16 (l : List Byte) : Nat := l.foldl (crcByte 16 0x1021) 0xFFFF

end Sys2Proof.Machine
end

