-- ==== Sys2Proof/Machine/Sha.lean ====
section
/-! DEFINITION. Machine/Sha.lean: SHA-256, SHA-512 and HMAC-SHA-256, which the spec names as the functions of the
crypto accelerator (14, R384) and of the sessions (14, R362, R368) without repeating their standard (FIPS 180-4, RFC 2104). -/

namespace Sys2Proof.Machine

/-- Integer `k`-th root of `n`, by bits from the top; `b` bits are tried. -/
def iroot (k n : Nat) : Nat → Nat → Nat
  | 0, r => r
  | b + 1, r => iroot k n b (if (r + 2 ^ b) ^ k ≤ n then r + 2 ^ b else r)

/-- The first 80 primes, in two parts. -/
def primes1 : List Nat :=
  [2, 3, 5, 7, 11, 13, 17, 19, 23, 29, 31, 37, 41, 43, 47, 53, 59, 61, 67, 71, 73, 79, 83, 89, 97, 101, 103, 107, 109, 113,
   127, 131, 137, 139, 149, 151, 157, 163, 167, 173]
def primes2 : List Nat :=
  [179, 181, 191, 193, 197, 199, 211, 223, 227, 229, 233, 239, 241, 251, 257, 263, 269, 271, 277, 281, 283, 293, 307, 311,
   313, 317, 331, 337, 347, 349, 353, 359, 367, 373, 379, 383, 389, 397, 401, 409]

/-- The round constant of a prime: the first 64 bits of the fraction of its cube root. -/
def shaK (p : Nat) : Nat := iroot 3 (p * 2 ^ 192) 68 0 % 2 ^ 64
/-- The initial value of a prime: the first 64 bits of the fraction of its square root. -/
def shaH (p : Nat) : Nat := iroot 2 (p * 2 ^ 128) 68 0 % 2 ^ 64

/-- What distinguishes SHA-256 from SHA-512: word width and rotation amounts. -/
structure ShaKind where
  /-- word width in bits -/
  w : Nat
  /-- rotations of the two large sums -/
  s0 : Nat × Nat × Nat
  s1 : Nat × Nat × Nat
  /-- rotations and, last, the shift of the two small sums -/
  t0 : Nat × Nat × Nat
  t1 : Nat × Nat × Nat
  /-- the round constants -/
  ks : List Nat
  deriving DecidableEq, Repr

def sha256Kind : ShaKind :=
  ⟨32, (2, 13, 22), (6, 11, 25), (7, 18, 3), (17, 19, 10), ((primes1 ++ primes2).take 64).map fun p => shaK p / 2 ^ 32⟩
def sha512Kind : ShaKind :=
  ⟨64, (28, 34, 39), (14, 18, 41), (1, 8, 7), (19, 61, 6), (primes1 ++ primes2).map shaK⟩

/-- Rotate right in `w` bits. -/
def rotr (w n x : Nat) : Nat := x / 2 ^ n + x % 2 ^ n * 2 ^ (w - n)

def bigSum (w : Nat) (r : Nat × Nat × Nat) (x : Nat) : Nat := rotr w r.1 x ^^^ rotr w r.2.1 x ^^^ rotr w r.2.2 x
def smallSum (w : Nat) (r : Nat × Nat × Nat) (x : Nat) : Nat := rotr w r.1 x ^^^ rotr w r.2.1 x ^^^ x / 2 ^ r.2.2

/-- The rounds: `ws` is the sliding window of 16 schedule words, `v` the eight working variables. -/
def shaRounds (K : ShaKind) : List Nat → List Nat → List Nat → List Nat
  | [], _, v => v
  | k :: ks, ws, v =>
    let M := 2 ^ K.w
    let g (i : Nat) := v.getD i 0
    let wt := ws.headD 0
    let wn := (smallSum K.w K.t1 (ws.getD 14 0) + ws.getD 9 0 + smallSum K.w K.t0 (ws.getD 1 0) + wt) % M
    let e := g 4
    let ch := (e &&& g 5) ^^^ ((M - 1 - e) &&& g 6)
    let x1 := g 7 + bigSum K.w K.s1 e + ch + k + wt
    let maj := (g 0 &&& g 1) ^^^ (g 0 &&& g 2) ^^^ (g 1 &&& g 2)
    let x2 := bigSum K.w K.s0 (g 0) + maj
    shaRounds K ks (ws.drop 1 ++ [wn]) [(x1 + x2) % M, g 0, g 1, g 2, (g 3 + x1) % M, g 4, g 5, g 6]

/-- Split bytes into big-endian words of `n` bytes; `fuel` words at most. -/
def beWords (n : Nat) : Nat → List Byte → List Nat
  | 0, _ => []
  | f + 1, l => if l.isEmpty then [] else beNat (l.take n) :: beWords n f (l.drop n)

/-- The blocks of a padded message folded into the hash value. -/
def shaBlocks (K : ShaKind) : Nat → List Nat → List Nat → List Nat
  | 0, _, h => h
  | f + 1, ws, h =>
    if ws.isEmpty then h
    else
      let v := shaRounds K K.ks (ws.take 16) h
      shaBlocks K f (ws.drop 16) (List.zipWith (fun a b => (a + b) % 2 ^ K.w) h v)

/-- The digest of a message. -/
def sha (K : ShaKind) (m : List Byte) : List Byte :=
  let nb := K.w / 8
  let blk := 16 * nb
  let padn := (blk - (m.length + 1 + 2 * nb) % blk) % blk
  let padded := m ++ [0x80#8] ++ List.replicate padn 0#8 ++ beBytes (2 * nb) (8 * m.length)
  let ws := beWords nb padded.length padded
  let h0 := (primes1.take 8).map fun p => shaH p / 2 ^ (64 - K.w)
  ((shaBlocks K ws.length ws h0).map (beBytes nb)).flatten

def sha256 (m : List Byte) : List Byte := sha sha256Kind m
def sha512 (m : List Byte) : List Byte := sha sha512Kind m

/-- HMAC-SHA-256 (14, R362). -/
def hmac256 (key msg : List Byte) : List Byte :=
  let k := if key.length ≤ 64 then key else sha256 key
  let k := k ++ List.replicate (64 - k.length) 0#8
  sha256 (k.map (· ^^^ 0x5C#8) ++ sha256 (k.map (· ^^^ 0x36#8) ++ msg))

end Sys2Proof.Machine
end

