-- ==== Sys2Proof/Machine/Flt.lean ====
section
/-! DEFINITION. Machine/Flt.lean: IEEE 754 binary32 and binary64 (04, R106, R107): exact arithmetic on integers, one rounding at
the end. Flags are the bits of `FPU.FLAGS`: 0 invalid, 1 divide by zero, 2 overflow, 3 underflow, 4 inexact. -/

namespace Sys2Proof.Machine

/-- A binary format: fraction bits and exponent bits. -/
structure FFmt where
  mw : Nat
  ew : Nat
  deriving DecidableEq, Repr

def b32 : FFmt := ⟨23, 8⟩
def b64 : FFmt := ⟨52, 11⟩

def FFmt.bias (f : FFmt) : Nat := 2 ^ (f.ew - 1) - 1
/-- Exponent of the least quantum. -/
def FFmt.emin (f : FFmt) : Int := 1 - f.bias - f.mw
def FFmt.inf (f : FFmt) (neg : Bool) : Nat := b2n neg * 2 ^ (f.mw + f.ew) + (2 ^ f.ew - 1) * 2 ^ f.mw
/-- The default quiet NaN (R106). -/
def FFmt.qnan (f : FFmt) : Nat := f.inf false + 2 ^ (f.mw - 1)
def FFmt.zero (f : FFmt) (neg : Bool) : Nat := b2n neg * 2 ^ (f.mw + f.ew)
def FFmt.maxFin (f : FFmt) (neg : Bool) : Nat := f.inf neg - 1

/-- What a bit pattern stands for; a finite value is `m * 2 ^ e` with a sign. -/
inductive FVal where
  | nan (signalling : Bool)
  | inf (neg : Bool)
  | fin (neg : Bool) (m : Nat) (e : Int)
  deriving DecidableEq, Repr

def unpackF (f : FFmt) (x : Nat) : FVal :=
  let s := bit x (f.mw + f.ew)
  let e := bits x f.mw f.ew
  let m := bits x 0 f.mw
  if e = 2 ^ f.ew - 1 then (if m = 0 then .inf s else .nan (m < 2 ^ (f.mw - 1)))
  else if e = 0 then .fin s m f.emin
  else .fin s (m + 2 ^ f.mw) (f.emin + e - 1)

/-- Number of significant bits. -/
def blen (m : Nat) : Nat := if m = 0 then 0 else Nat.log2 m + 1

/-- Whether a remainder below `2 ^ sh` rounds the magnitude up (R106: 0 nearest even, 1 to zero, 2 up, 3 down). -/
def roundUp (rm : Nat) (neg odd : Bool) (rem sh : Nat) : Bool :=
  if rm = 0 then decide (2 ^ sh < 2 * rem) || (decide (2 * rem = 2 ^ sh) && odd)
  else if rm = 1 then false
  else if rm = 2 then !neg && decide (rem ≠ 0)
  else neg && decide (rem ≠ 0)

/-- `m * 2 ^ e` as a multiple of `2 ^ q`, rounded; and whether that was inexact. -/
def roundAt (rm : Nat) (neg : Bool) (m : Nat) (e q : Int) : Nat × Bool :=
  if q ≤ e then (m * 2 ^ (e - q).toNat, false)
  else
    let sh := (q - e).toNat
    let r := m % 2 ^ sh
    let t := m / 2 ^ sh
    (if roundUp rm neg (decide (t % 2 = 1)) r sh then t + 1 else t, decide (r ≠ 0))

/-- Round a finite value into a format: the bit pattern and the flags. -/
def packF (f : FFmt) (rm : Nat) (neg : Bool) (m : Nat) (e : Int) : Nat × Nat :=
  if m = 0 then (f.zero neg, 0)
  else
    let p := f.mw + 1
    let q0 : Int := e + blen m - p
    let q := if q0 < f.emin then f.emin else q0
    let (t, inex) := roundAt rm neg m e q
    let (t, q) := if t = 2 ^ p then (2 ^ (p - 1), q + 1) else (t, q)
    let ix := if inex then 16 else 0
    if t < 2 ^ (p - 1) then (f.zero neg + t, if inex then 8 + ix else 0)
    else
      let be := (q - f.emin).toNat + 1
      if 2 ^ f.ew - 1 ≤ be then
        (if rm = 0 || (rm = 2 && !neg) || (rm = 3 && neg) then f.inf neg else f.maxFin neg, 4 + 16)
      else
        let tinyBefore := decide (q0 < f.emin)
        let uf := inex && tinyBefore &&
          (!Config.tinyAfterRounding || decide ((roundAt rm neg m e q0).1 < 2 ^ p))
        (f.zero neg + be * 2 ^ f.mw + (t - 2 ^ (p - 1)), ix + (if uf then 8 else 0))

/-- The NaN result and the invalid flag (set by a signalling operand or by the operation itself). -/
def nanF (f : FFmt) (inv : Bool) : Nat × Nat := (f.qnan, b2n inv)

def isSNaN : FVal → Bool
  | .nan s => s
  | _ => false

/-- Signed magnitude of a finite value at exponent `k ≤ e`. -/
def scaledF (neg : Bool) (m : Nat) (e k : Int) : Int :=
  let v : Int := (m * 2 ^ (e - k).toNat : Nat)
  if neg then -v else v

/-- Sum of two values of which the second may have its sign turned (`sub`). -/
def addF (f : FFmt) (rm : Nat) (sub : Bool) (x y : Nat) : Nat × Nat :=
  match unpackF f x, unpackF f y with
  | .nan s, v => nanF f (s || isSNaN v)
  | u, .nan s => nanF f (s || isSNaN u)
  | .inf s, .inf t => if s = (t != sub) then (f.inf s, 0) else nanF f true
  | .inf s, _ => (f.inf s, 0)
  | _, .inf t => (f.inf (t != sub), 0)
  | .fin s m e, .fin t n g =>
    let t := t != sub
    let k := min e g
    let z := scaledF s m e k + scaledF t n g k
    if z = 0 then
      (if m = 0 && n = 0 && s = t then f.zero s else f.zero (rm = 3), 0)
    else packF f rm (decide (z < 0)) z.natAbs k

def mulF (f : FFmt) (rm x y : Nat) : Nat × Nat :=
  match unpackF f x, unpackF f y with
  | .nan s, v => nanF f (s || isSNaN v)
  | u, .nan s => nanF f (s || isSNaN u)
  | .inf s, .inf t => (f.inf (s != t), 0)
  | .inf s, .fin t n _ => if n = 0 then nanF f true else (f.inf (s != t), 0)
  | .fin s m _, .inf t => if m = 0 then nanF f true else (f.inf (s != t), 0)
  | .fin s m e, .fin t n g => packF f rm (s != t) (m * n) (e + g)

def divF (f : FFmt) (rm x y : Nat) : Nat × Nat :=
  match unpackF f x, unpackF f y with
  | .nan s, v => nanF f (s || isSNaN v)
  | u, .nan s => nanF f (s || isSNaN u)
  | .inf _, .inf _ => nanF f true
  | .inf s, .fin t _ _ => (f.inf (s != t), 0)
  | .fin s _ _, .inf t => (f.zero (s != t), 0)
  | .fin s m e, .fin t n g =>
    if n = 0 then (if m = 0 then nanF f true else (f.inf (s != t), 2))
    else
      let k := f.mw + 4 + blen n
      let a := m * 2 ^ k
      packF f rm (s != t) (2 * (a / n) + b2n (decide (a % n ≠ 0))) (e - g - k - 1)

def sqrtF (f : FFmt) (rm x : Nat) : Nat × Nat :=
  match unpackF f x with
  | .nan s => nanF f s
  | .inf s => if s then nanF f true else (f.inf false, 0)
  | .fin s m e =>
    if m = 0 then (f.zero s, 0)
    else if s then nanF f true
    else
      let k0 := 2 * (f.mw + 4)
      let k := if (e - k0) % 2 = 0 then k0 else k0 + 1
      let a := m * 2 ^ k
      let r := iroot 2 a (f.mw * 2 + 8) 0
      packF f rm false (2 * r + b2n (decide (r * r ≠ a))) ((e - k) / 2 - 1)

/-- Comparison (R107): 0 equal, 1 less, 2 greater, 3 unordered; invalid only for a signalling NaN. -/
def cmpF (f : FFmt) (x y : Nat) : Nat × Nat :=
  match unpackF f x, unpackF f y with
  | .nan s, v => (3, b2n (s || isSNaN v))
  | u, .nan s => (3, b2n (s || isSNaN u))
  | .inf s, .inf t => (if s = t then 0 else if s then 1 else 2, 0)
  | .inf s, _ => (if s then 1 else 2, 0)
  | _, .inf t => (if t then 2 else 1, 0)
  | .fin s m e, .fin t n g =>
    let k := min e g
    let a := scaledF s m e k
    let b := scaledF t n g k
    (if a = b then 0 else if a < b then 1 else 2, 0)

/-- To a signed integer of `n` bits, saturating (R107). -/
def toIntF (f : FFmt) (n rm x : Nat) : Nat × Nat :=
  match unpackF f x with
  | .nan _ => (0, 1)
  | .inf s => (if s then 2 ^ (n - 1) else 2 ^ (n - 1) - 1, 1)
  | .fin s m e =>
    let (t, inex) := roundAt rm s m e 0
    let v : Int := if s then -(t : Int) else t
    if satSigned n v = v then (ofSigned n v, if inex then 16 else 0) else (ofSigned n (satSigned n v), 1)

/-- From an integer. -/
def ofIntF (f : FFmt) (rm : Nat) (i : Int) : Nat × Nat := packF f rm (decide (i < 0)) i.natAbs 0

/-- From one format to another. -/
def convF (f g : FFmt) (rm x : Nat) : Nat × Nat :=
  match unpackF f x with
  | .nan s => nanF g s
  | .inf s => (g.inf s, 0)
  | .fin s m e => packF g rm s m e

/-! Nearest-even results alone, for the blocks that compute in binary32 or binary64 (16, 17, 18). -/

def fadd (f : FFmt) (x y : Nat) : Nat := (addF f 0 false x y).1
def fsub (f : FFmt) (x y : Nat) : Nat := (addF f 0 true x y).1
def fmul (f : FFmt) (x y : Nat) : Nat := (mulF f 0 x y).1
def fdiv (f : FFmt) (x y : Nat) : Nat := (divF f 0 x y).1
def flt (f : FFmt) (x y : Nat) : Bool := (cmpF f x y).1 = 1
def fle (f : FFmt) (x y : Nat) : Bool := (cmpF f x y).1 = 0 || (cmpF f x y).1 = 1
def fofInt (f : FFmt) (i : Int) : Nat := (ofIntF f 0 i).1

end Sys2Proof.Machine
end

