-- ==== Sys2Proof/Machine/Reg.lean ====
section
/-! DEFINITION. Machine/Reg.lean: what a software-visible register field is (00, R3-R8): where it stands, how wide it is, what a write
does to it and what it holds after reset. -/

namespace Sys2Proof.Machine

/-- Access codes (00, R7). -/
inductive Acc where
  | rw | ro | wo | w1c | rc | rs
  deriving DecidableEq, Repr

/-- A field, or a family of fields of indexed registers: register address `base + s1 * i + s2 * j`. -/
structure Fam where
  base : Nat
  n1 : Nat
  s1 : Nat
  n2 : Nat
  s2 : Nat
  lsb : Nat
  width : Nat
  acc : Acc
  reset : Nat
  deriving DecidableEq, Repr

/-- Address of the register that holds the field. -/
def Fam.addr (f : Fam) (i j : Nat) : Nat := f.base + f.s1 * i + f.s2 * j

/-- The key of a field in `State.flds`. -/
def Fam.key (f : Fam) (i j : Nat) : Nat := f.addr i j * 32 + f.lsb

/-- A field of a register that stands alone. -/
def fld (base lsb width : Nat) (acc : Acc) (reset : Nat) : Fam := ⟨base, 1, 0, 1, 0, lsb, width, acc, reset⟩
/-- A field of one index. -/
def fld1 (base n1 s1 lsb width : Nat) (acc : Acc) (reset : Nat) : Fam := ⟨base, n1, s1, 1, 0, lsb, width, acc, reset⟩
/-- A field of two indices. -/
def fld2 (base n1 s1 n2 s2 lsb width : Nat) (acc : Acc) (reset : Nat) : Fam := ⟨base, n1, s1, n2, s2, lsb, width, acc, reset⟩

/-- The indices with which a family stands at a register address. -/
def Fam.at? (f : Fam) (a : Nat) : Option (Nat × Nat) :=
  if a < f.base then none
  else
    let d := a - f.base
    let i := if f.s1 = 0 then 0 else min (d / f.s1) (f.n1 - 1)
    let d := d - f.s1 * i
    let j := if f.s2 = 0 then 0 else min (d / f.s2) (f.n2 - 1)
    if f.addr i j = a then some (i, j) else none

end Sys2Proof.Machine
end

