-- ==== Sys2Proof/Machine/Regs.lean ====
section
/-! DEFINITION. Machine/Regs.lean: every register field of the spec, from the register tables of spec/02-26 (written by a script from those
tables: name, offset, bits, access, reset). A family carries its index counts and strides. -/

namespace Sys2Proof.Machine.R

/-! SYS (09, 24) -/
def SYS_ECC_CTL_SCRUB : Fam := fld 0x10000400 0 1 .rw 1
def SYS_ECC_CTL_STEP : Fam := fld 0x10000400 8 8 .rw 1
def SYS_ECC_STAT_INIT : Fam := fld 0x10000404 0 1 .ro 0
def SYS_ECC_STAT_INJERR : Fam := fld 0x10000404 1 1 .w1c 0
def SYS_ECC_STAT_PASS : Fam := fld 0x10000404 16 16 .ro 0
def SYS_ECC_CNT_CE : Fam := fld 0x10000408 0 16 .w1c 0
def SYS_ECC_CNT_UE : Fam := fld 0x10000408 16 16 .w1c 0
def SYS_ECC_CEADDR_A : Fam := fld 0x1000040C 0 32 .ro 0
def SYS_ECC_UEADDR_A : Fam := fld 0x10000414 0 32 .ro 0
def SYS_ECC_CEINFO_CODE : Fam := fld 0x10000410 0 16 .ro 0
def SYS_ECC_UEINFO_CODE : Fam := fld 0x10000418 0 16 .ro 0
def SYS_ECC_CEINFO_SYN : Fam := fld 0x10000410 16 8 .ro 0
def SYS_ECC_UEINFO_SYN : Fam := fld 0x10000418 16 8 .ro 0
def SYS_ECC_INJ_ARRAY : Fam := fld 0x1000041C 0 8 .wo 0
def SYS_ECC_INJ_MODE : Fam := fld 0x1000041C 8 2 .wo 0
def SYS_ECC_INJ_ARMED : Fam := fld 0x1000041C 16 1 .ro 0
def SYS_ID_PART : Fam := fld 0x10000000 0 16 .ro 37984
def SYS_ID_REV : Fam := fld 0x10000000 16 8 .ro 2
def SYS_UID_U : Fam := fld1 0x10000004 4 0x4 0 32 .ro 0
def SYS_MODE_MODE : Fam := fld 0x10000014 0 1 .ro 1
def SYS_MODEREQ_REQ : Fam := fld 0x10000018 0 2 .wo 0
def SYS_MODEREQ_PEND : Fam := fld 0x10000018 8 1 .ro 0
def SYS_MODEREQ_REASON : Fam := fld 0x10000018 16 8 .ro 0
def SYS_BOOTCFG_STARTRUN : Fam := fld 0x1000001C 0 1 .rw 0
def SYS_BOOTCFG_HOLDAFT : Fam := fld 0x1000001C 1 1 .rw 0
def SYS_BOOTCFG_STORE : Fam := fld 0x1000001C 8 1 .wo 0
def SYS_BOOTSTAT_STEP : Fam := fld 0x10000020 0 4 .ro 1
def SYS_BOOTSTAT_ERR : Fam := fld 0x10000020 8 8 .ro 0
def SYS_UPTIME_S : Fam := fld 0x10000024 0 32 .ro 0

def block0 : List Fam :=
  [SYS_ECC_CTL_SCRUB, SYS_ECC_CTL_STEP, SYS_ECC_STAT_INIT, SYS_ECC_STAT_INJERR, SYS_ECC_STAT_PASS, SYS_ECC_CNT_CE, SYS_ECC_CNT_UE, SYS_ECC_CEADDR_A, SYS_ECC_UEADDR_A, SYS_ECC_CEINFO_CODE, SYS_ECC_UEINFO_CODE, SYS_ECC_CEINFO_SYN] ++
  [SYS_ECC_UEINFO_SYN, SYS_ECC_INJ_ARRAY, SYS_ECC_INJ_MODE, SYS_ECC_INJ_ARMED, SYS_ID_PART, SYS_ID_REV, SYS_UID_U, SYS_MODE_MODE, SYS_MODEREQ_REQ, SYS_MODEREQ_PEND, SYS_MODEREQ_REASON, SYS_BOOTCFG_STARTRUN] ++
  [SYS_BOOTCFG_HOLDAFT, SYS_BOOTCFG_STORE, SYS_BOOTSTAT_STEP, SYS_BOOTSTAT_ERR, SYS_UPTIME_S]

/-! PWR (24) -/
def PWR_CTL_PFSRC : Fam := fld 0x10001000 0 2 .rw 1
def PWR_CTL_PFTH : Fam := fld 0x10001000 4 5 .rw 4
def PWR_CTL_TJWARN : Fam := fld 0x10001000 16 8 .rw 115
def PWR_CTL_TJCRIT : Fam := fld 0x10001000 24 8 .rw 125
def PWR_STAT_PFW : Fam := fld 0x10001004 0 1 .ro 0
def PWR_STAT_OUTWIN : Fam := fld 0x10001004 1 3 .ro 0
def PWR_STAT_VBAKLOW : Fam := fld 0x10001004 4 1 .ro 0
def PWR_STAT_TJW : Fam := fld 0x10001004 5 1 .ro 0
def PWR_STAT_TJC : Fam := fld 0x10001004 6 1 .ro 0
def PWR_STAT_PD0SRC : Fam := fld 0x10001004 7 1 .ro 0
def PWR_STAT_DOMERR : Fam := fld 0x10001004 8 1 .w1c 0
def PWR_TEMP_T : Fam := fld 0x10001008 0 16 .ro 0
def PWR_VBAK_MV : Fam := fld 0x1000100C 0 12 .ro 0
def PWR_DOMOFF_LO_M : Fam := fld 0x10001010 0 32 .rw 0
def PWR_DOMOFF_HI_M : Fam := fld 0x10001014 0 20 .rw 0
def PWR_DOMSTAT_LO_S : Fam := fld 0x10001018 0 32 .ro 0
def PWR_DOMSTAT_HI_S : Fam := fld 0x1000101C 0 20 .ro 0

def block1 : List Fam :=
  [PWR_CTL_PFSRC, PWR_CTL_PFTH, PWR_CTL_TJWARN, PWR_CTL_TJCRIT, PWR_STAT_PFW, PWR_STAT_OUTWIN, PWR_STAT_VBAKLOW, PWR_STAT_TJW, PWR_STAT_TJC, PWR_STAT_PD0SRC, PWR_STAT_DOMERR, PWR_TEMP_T] ++
  [PWR_VBAK_MV, PWR_DOMOFF_LO_M, PWR_DOMOFF_HI_M, PWR_DOMSTAT_LO_S, PWR_DOMSTAT_HI_S]

/-! CLK (24) -/
def CLK_STAT_XOK : Fam := fld 0x10002000 0 1 .ro 0
def CLK_STAT_LOCK : Fam := fld 0x10002000 1 1 .ro 0
def CLK_STAT_RCREF : Fam := fld 0x10002000 2 1 .ro 0
def CLK_STAT_LOSS : Fam := fld 0x10002000 3 1 .w1c 0
def CLK_RUN_LO_R : Fam := fld 0x10002004 0 32 .ro 0
def CLK_RUN_HI_R : Fam := fld 0x10002008 0 32 .ro 0

def block2 : List Fam :=
  [CLK_STAT_XOK, CLK_STAT_LOCK, CLK_STAT_RCREF, CLK_STAT_LOSS, CLK_RUN_LO_R, CLK_RUN_HI_R]

/-! RST (24) -/
def RST_CAUSE_CODE : Fam := fld 0x10003000 0 8 .ro 0
def RST_CAUSE_PREV : Fam := fld 0x10003000 8 8 .ro 0
def RST_CMD_KEY : Fam := fld 0x10003004 0 8 .wo 0
def RST_ENG_MASK : Fam := fld 0x10003008 0 4 .wo 0
def RST_STAT_ENGERR : Fam := fld 0x1000300C 0 1 .w1c 0
def RST_COUNT_SYS : Fam := fld 0x10003010 0 16 .ro 0
def RST_COUNT_ENG : Fam := fld 0x10003010 16 16 .ro 0

def block3 : List Fam :=
  [RST_CAUSE_CODE, RST_CAUSE_PREV, RST_CMD_KEY, RST_ENG_MASK, RST_STAT_ENGERR, RST_COUNT_SYS, RST_COUNT_ENG]

/-! TURN (02, 06) -/
def TURN_CTL_EN : Fam := fld 0x10004000 0 1 .rw 0
def TURN_PERIOD_P : Fam := fld 0x10004004 0 24 .rw 25000
def TURN_PHASE_PHI : Fam := fld 0x10004008 0 24 .rw 0
def TURN_COUNT_COUNT : Fam := fld 0x1000400C 0 32 .ro 0
def TURN_STAT_RUN : Fam := fld 0x10004010 0 1 .ro 0
def TURN_STAT_PERR : Fam := fld 0x10004010 1 1 .w1c 0
def TURN_STAT_SVLATE : Fam := fld 0x10004010 2 1 .w1c 0
def TURN_STAT_STEPPED : Fam := fld 0x10004010 3 1 .w1c 0
def TURN_NEXT_LO_T : Fam := fld 0x10004014 0 32 .ro 0
def TURN_NEXT_HI_T : Fam := fld 0x10004018 0 32 .ro 0
def TURN_ABS_LO_A : Fam := fld 0x10004100 0 32 .rs 0
def TURN_ABS_HI_A : Fam := fld 0x10004104 0 32 .ro 0
def TURN_UTIL_CYC : Fam := fld1 0x10004110 4 0x4 0 32 .ro 0
def TURN_PEAK_CYC : Fam := fld1 0x10004120 4 0x4 0 32 .rw 0
def TURN_COMMIT_NCOMMIT : Fam := fld 0x10004130 0 8 .ro 0
def TURN_COMMIT_NLATE : Fam := fld 0x10004130 8 8 .ro 0
def TURN_COMMIT_NDISC : Fam := fld 0x10004130 16 8 .ro 0

def block4 : List Fam :=
  [TURN_CTL_EN, TURN_PERIOD_P, TURN_PHASE_PHI, TURN_COUNT_COUNT, TURN_STAT_RUN, TURN_STAT_PERR, TURN_STAT_SVLATE, TURN_STAT_STEPPED, TURN_NEXT_LO_T, TURN_NEXT_HI_T, TURN_ABS_LO_A, TURN_ABS_HI_A] ++
  [TURN_UTIL_CYC, TURN_PEAK_CYC, TURN_COMMIT_NCOMMIT, TURN_COMMIT_NLATE, TURN_COMMIT_NDISC]

/-! TIME (02) -/
def TIME_CTL_DISC : Fam := fld 0x10005000 0 1 .rw 1
def TIME_CTL_EDGE : Fam := fld 0x10005000 1 1 .rw 0
def TIME_CTL_STEPMODE : Fam := fld 0x10005000 2 2 .rw 0
def TIME_CTL_GAIN : Fam := fld 0x10005000 4 3 .rw 3
def TIME_CTL_CONFIRM : Fam := fld 0x10005000 8 4 .rw 2
def TIME_NOW_LO_T : Fam := fld 0x10005004 0 32 .rs 0
def TIME_NOW_HI_T : Fam := fld 0x10005008 0 32 .ro 0
def TIME_SET_LO_T : Fam := fld 0x1000500C 0 32 .rw 0
def TIME_SET_HI_T : Fam := fld 0x10005010 0 32 .rw 0
def TIME_SETCMD_GO : Fam := fld 0x10005014 0 1 .wo 0
def TIME_ERR_E : Fam := fld 0x10005018 0 32 .ro 0
def TIME_FREQ_Y : Fam := fld 0x1000501C 0 32 .ro 0
def TIME_CORR_C : Fam := fld 0x10005020 0 32 .ro 0
def TIME_STAT_STATE : Fam := fld 0x10005024 0 2 .ro 0
def TIME_STAT_SAT : Fam := fld 0x10005024 2 1 .ro 0
def TIME_STAT_LOSS : Fam := fld 0x10005024 3 1 .w1c 0
def TIME_STAT_STEP : Fam := fld 0x10005024 4 1 .w1c 0
def TIME_STAT_SETERR : Fam := fld 0x10005024 5 1 .w1c 0
def TIME_STAT_SOURCE : Fam := fld 0x10005024 6 2 .ro 0
def TIME_LOSSTO_MS : Fam := fld 0x10005028 0 16 .rw 1500
def TIME_OFFSET_NS : Fam := fld 0x1000502C 0 32 .rw 0
def TIME_CNT_STEPS : Fam := fld 0x10005030 0 16 .ro 0
def TIME_CNT_SPUR : Fam := fld 0x10005030 16 16 .ro 0

def block5 : List Fam :=
  [TIME_CTL_DISC, TIME_CTL_EDGE, TIME_CTL_STEPMODE, TIME_CTL_GAIN, TIME_CTL_CONFIRM, TIME_NOW_LO_T, TIME_NOW_HI_T, TIME_SET_LO_T, TIME_SET_HI_T, TIME_SETCMD_GO, TIME_ERR_E, TIME_FREQ_Y] ++
  [TIME_CORR_C, TIME_STAT_STATE, TIME_STAT_SAT, TIME_STAT_LOSS, TIME_STAT_STEP, TIME_STAT_SETERR, TIME_STAT_SOURCE, TIME_LOSSTO_MS, TIME_OFFSET_NS, TIME_CNT_STEPS, TIME_CNT_SPUR]

/-! RTC (02, 09) -/
def RTC_SEC_S : Fam := fld 0x10006000 0 32 .rs 0
def RTC_SUB_SS : Fam := fld 0x10006004 0 15 .ro 0
def RTC_SET_SEC_S : Fam := fld 0x10006008 0 32 .rw 0
def RTC_CTL_SETGO : Fam := fld 0x1000600C 0 1 .wo 0
def RTC_CTL_AUTOSYNC : Fam := fld 0x1000600C 1 1 .rw 1
def RTC_CTL_SYNCINT : Fam := fld 0x1000600C 16 16 .rw 60
def RTC_STAT_INVALID : Fam := fld 0x10006010 0 1 .ro 1
def RTC_CDN_LOAD_V : Fam := fld 0x10006014 0 32 .rw 0
def RTC_CDN_VAL_V : Fam := fld 0x10006018 0 32 .ro 0
def RTC_CDN_CTL_EN : Fam := fld 0x1000601C 0 1 .rw 0
def RTC_CDN_CTL_CLK : Fam := fld 0x1000601C 1 1 .rw 0
def RTC_CDN_CTL_RELOAD : Fam := fld 0x1000601C 2 1 .rw 0
def RTC_CDN_CTL_WAKE : Fam := fld 0x1000601C 3 1 .rw 0
def RTC_CDN_CTL_EXP : Fam := fld 0x1000601C 4 1 .w1c 0
def RTC_GLINT_GO : Fam := fld 0x10006020 0 1 .wo 0
def RTC_GLINT_BUSY : Fam := fld 0x10006020 1 1 .ro 0
def RTC_GLINT_AUTO : Fam := fld 0x10006020 2 1 .rw 0
def RTC_GLINT_MISS : Fam := fld 0x10006020 3 1 .w1c 0
def RTC_GLINT_SEQ : Fam := fld 0x10006020 8 8 .ro 0
def RTC_GL_FT_LO_T : Fam := fld 0x10006024 0 32 .rs 0
def RTC_GL_EDGE_LO_T : Fam := fld 0x10006038 0 32 .rs 0
def RTC_GL_FT_HI_T : Fam := fld 0x10006028 0 32 .ro 0
def RTC_GL_TURN_T : Fam := fld 0x1000602C 0 32 .ro 0
def RTC_GL_SEC_S : Fam := fld 0x10006030 0 32 .ro 0
def RTC_GL_SUB_SS : Fam := fld 0x10006034 0 32 .ro 0
def RTC_GL_EDGE_HI_T : Fam := fld 0x1000603C 0 32 .ro 0
def RTC_BKP_V : Fam := fld1 0x10006100 64 0x4 0 32 .rw 0
def RTC_LW_V : Fam := fld1 0x10006200 4 0x4 0 32 .ro 0
def RTC_LWS0_CODE : Fam := fld 0x10006210 0 16 .rw 0
def RTC_LWS1_DATA : Fam := fld 0x10006214 0 32 .rw 0
def RTC_LWCMD_GO : Fam := fld 0x1000621C 0 1 .wo 0
def RTC_BKSTAT_COLD : Fam := fld 0x10006220 0 1 .w1c 1
def RTC_BKSTAT_LWVALID : Fam := fld 0x10006220 1 1 .w1c 0
def RTC_BKSTAT_LWOVW : Fam := fld 0x10006220 2 1 .w1c 0
def RTC_BKSTAT_LWBUSY : Fam := fld 0x10006220 3 1 .ro 0

def block6 : List Fam :=
  [RTC_SEC_S, RTC_SUB_SS, RTC_SET_SEC_S, RTC_CTL_SETGO, RTC_CTL_AUTOSYNC, RTC_CTL_SYNCINT, RTC_STAT_INVALID, RTC_CDN_LOAD_V, RTC_CDN_VAL_V, RTC_CDN_CTL_EN, RTC_CDN_CTL_CLK, RTC_CDN_CTL_RELOAD] ++
  [RTC_CDN_CTL_WAKE, RTC_CDN_CTL_EXP, RTC_GLINT_GO, RTC_GLINT_BUSY, RTC_GLINT_AUTO, RTC_GLINT_MISS, RTC_GLINT_SEQ, RTC_GL_FT_LO_T, RTC_GL_EDGE_LO_T, RTC_GL_FT_HI_T, RTC_GL_TURN_T, RTC_GL_SEC_S] ++
  [RTC_GL_SUB_SS, RTC_GL_EDGE_HI_T, RTC_BKP_V, RTC_LW_V, RTC_LWS0_CODE, RTC_LWS1_DATA, RTC_LWCMD_GO, RTC_BKSTAT_COLD, RTC_BKSTAT_LWVALID, RTC_BKSTAT_LWOVW, RTC_BKSTAT_LWBUSY]

/-! TSK (06) -/
def TSK_CFG_EN : Fam := fld1 0x10007000 48 0x40 0 1 .rw 0
def TSK_CFG_ENG : Fam := fld1 0x10007000 48 0x40 1 2 .rw 0
def TSK_CFG_SLOT : Fam := fld1 0x10007000 48 0x40 3 4 .rw 0
def TSK_CFG_PRIO : Fam := fld1 0x10007000 48 0x40 8 4 .rw 0
def TSK_CFG_TRIG : Fam := fld1 0x10007000 48 0x40 12 1 .rw 0
def TSK_CFG_SHEDDABLE : Fam := fld1 0x10007000 48 0x40 13 1 .rw 0
def TSK_CFG_BACT : Fam := fld1 0x10007000 48 0x40 14 1 .rw 0
def TSK_CFG_ABORT : Fam := fld1 0x10007000 48 0x40 16 8 .rw 8
/-- `TSK.TRGn` whole: PERIOD [12:0] and PHASE [28:16], or SRC [8:0] and GUARD [31:12], by `TSK.CFGn.TRIG` (06, R170). -/
def TSK_TRG_W : Fam := fld1 0x10007004 48 0x40 0 32 .rw 0
def TSK_ENTRY_IDX : Fam := fld1 0x10007008 48 0x40 0 16 .rw 0
def TSK_BUD_CYC : Fam := fld1 0x1000700C 48 0x40 0 32 .rw 0
def TSK_ST_STATE : Fam := fld1 0x10007010 48 0x40 0 3 .ro 0
def TSK_ST_LATE : Fam := fld1 0x10007010 48 0x40 3 1 .ro 0
def TSK_ST_SHED : Fam := fld1 0x10007010 48 0x40 4 1 .ro 0
def TSK_ST_CONSEC : Fam := fld1 0x10007010 48 0x40 8 8 .ro 0
def TSK_ST_BEXH : Fam := fld1 0x10007010 48 0x40 16 1 .w1c 0
def TSK_ST_TFAULT : Fam := fld1 0x10007010 48 0x40 17 1 .w1c 0
def TSK_CNT_OVR : Fam := fld1 0x10007014 48 0x40 0 16 .ro 0
def TSK_CNT_GREJ : Fam := fld1 0x10007014 48 0x40 16 16 .ro 0
def TSK_WCET_CYC : Fam := fld1 0x10007018 48 0x40 0 32 .ro 0
def TSK_LAST_CYC : Fam := fld1 0x1000701C 48 0x40 0 32 .ro 0
def TSK_QRNG_START : Fam := fld1 0x10007020 48 0x40 0 11 .rw 0
def TSK_QRNG_COUNT : Fam := fld1 0x10007020 48 0x40 16 12 .rw 0
def TSK_WRNG_START : Fam := fld1 0x10007024 48 0x40 0 12 .rw 0
def TSK_WRNG_COUNT : Fam := fld1 0x10007024 48 0x40 16 13 .rw 0
def TSK_STAT_ERR : Fam := fld 0x10007C00 0 8 .ro 0
def TSK_STAT_ERRTASK : Fam := fld 0x10007C00 8 6 .ro 0
def TSK_STAT_CFGREF : Fam := fld 0x10007C00 16 1 .w1c 0
def TSK_SHED_WATCH : Fam := fld1 0x10007C10 4 0x4 0 6 .rw 0
def TSK_SHED_K : Fam := fld1 0x10007C10 4 0x4 8 8 .rw 0
def TSK_SHED_RECOV : Fam := fld1 0x10007C10 4 0x4 16 8 .rw 0
def TSK_SHED_ACTIVE : Fam := fld1 0x10007C10 4 0x4 24 1 .ro 0
def TSK_SHED_CLEAR : Fam := fld1 0x10007C10 4 0x4 25 1 .wo 0
def TSK_RUN_TASK : Fam := fld1 0x10007C20 4 0x4 0 6 .ro 0
def TSK_RUN_VALID : Fam := fld1 0x10007C20 4 0x4 6 1 .ro 0
def TSK_RUN_PRIV : Fam := fld1 0x10007C20 4 0x4 7 2 .ro 0
def TSK_READY_LO_T : Fam := fld 0x10007C30 0 32 .ro 0
def TSK_READY_HI_T : Fam := fld 0x10007C34 0 16 .ro 0
def TSK_CLRSTAT_GO : Fam := fld 0x10007C40 0 1 .wo 0

def block7 : List Fam :=
  [TSK_CFG_EN, TSK_CFG_ENG, TSK_CFG_SLOT, TSK_CFG_PRIO, TSK_CFG_TRIG, TSK_CFG_SHEDDABLE, TSK_CFG_BACT, TSK_CFG_ABORT, TSK_TRG_W] ++
  [TSK_ENTRY_IDX, TSK_BUD_CYC, TSK_ST_STATE, TSK_ST_LATE, TSK_ST_SHED, TSK_ST_CONSEC, TSK_ST_BEXH, TSK_ST_TFAULT, TSK_CNT_OVR, TSK_CNT_GREJ, TSK_WCET_CYC, TSK_LAST_CYC] ++
  [TSK_QRNG_START, TSK_QRNG_COUNT, TSK_WRNG_START, TSK_WRNG_COUNT, TSK_STAT_ERR, TSK_STAT_ERRTASK, TSK_STAT_CFGREF, TSK_SHED_WATCH, TSK_SHED_K, TSK_SHED_RECOV, TSK_SHED_ACTIVE, TSK_SHED_CLEAR] ++
  [TSK_RUN_TASK, TSK_RUN_VALID, TSK_RUN_PRIV, TSK_READY_LO_T, TSK_READY_HI_T, TSK_CLRSTAT_GO]

/-! LEn (05, 11) -/
def LE_DEC_CTL_CHECK : Fam := fld1 0x10008300 4 0x1000 0 1 .wo 0
def LE_DEC_CTL_ACTIVATE : Fam := fld1 0x10008300 4 0x1000 1 1 .wo 0
def LE_DEC_CTL_ARM : Fam := fld1 0x10008300 4 0x1000 2 1 .wo 0
def LE_DEC_CTL_DISARM : Fam := fld1 0x10008300 4 0x1000 3 1 .wo 0
def LE_DEC_STAT_ACT : Fam := fld1 0x10008304 4 0x1000 0 1 .ro 0
def LE_DEC_STAT_SVALID : Fam := fld1 0x10008304 4 0x1000 1 1 .ro 0
def LE_DEC_STAT_ARMED : Fam := fld1 0x10008304 4 0x1000 2 1 .ro 0
def LE_DEC_STAT_BUSY : Fam := fld1 0x10008304 4 0x1000 3 1 .ro 0
def LE_DEC_STAT_ERR : Fam := fld1 0x10008304 4 0x1000 4 4 .w1c 0
def LE_DEC_STAT_ERRENT : Fam := fld1 0x10008304 4 0x1000 8 6 .ro 0
def LE_DEC_STAT_ERRMOV : Fam := fld1 0x10008304 4 0x1000 14 5 .ro 0
def LE_DEC_ID_ID : Fam := fld1 0x10008308 4 0x1000 0 32 .ro 0
def LE_DEC_SID_ID : Fam := fld1 0x1000830C 4 0x1000 0 32 .ro 0
def LE_PRG_CTL_CHECK : Fam := fld1 0x10008200 4 0x1000 0 1 .wo 0
def LE_PRG_CTL_SCHED : Fam := fld1 0x10008200 4 0x1000 1 1 .wo 0
def LE_PRG_CTL_CANCEL : Fam := fld1 0x10008200 4 0x1000 2 1 .wo 0
def LE_PRG_CTL_SWITCHNOW : Fam := fld1 0x10008200 4 0x1000 3 1 .wo 0
def LE_PRG_STAT_ACT : Fam := fld1 0x10008204 4 0x1000 0 1 .ro 0
def LE_PRG_STAT_IVALID : Fam := fld1 0x10008204 4 0x1000 1 1 .ro 0
def LE_PRG_STAT_SCHEDULED : Fam := fld1 0x10008204 4 0x1000 2 1 .ro 0
def LE_PRG_STAT_BUSY : Fam := fld1 0x10008204 4 0x1000 3 1 .ro 0
def LE_PRG_STAT_SWDONE : Fam := fld1 0x10008204 4 0x1000 4 1 .w1c 0
def LE_PRG_STAT_WAITING : Fam := fld1 0x10008204 4 0x1000 5 1 .ro 0
def LE_PRG_STAT_ERR : Fam := fld1 0x10008204 4 0x1000 8 8 .w1c 0
def LE_PRG_STAT_ERRIDX : Fam := fld1 0x10008204 4 0x1000 16 8 .ro 0
def LE_PRG_STAT_SUB : Fam := fld1 0x10008204 4 0x1000 24 8 .ro 0
def LE_PRG_REC_OFS : Fam := fld1 0x10008208 4 0x1000 0 19 .rw 0
def LE_PRG_AT_LO_A : Fam := fld1 0x1000820C 4 0x1000 0 32 .rw 0
def LE_PRG_AT_HI_A : Fam := fld1 0x10008210 4 0x1000 0 32 .rw 0
def LE_PRG_BUD_US : Fam := fld1 0x10008214 4 0x1000 0 10 .rw 20
def LE_PRG_BUD_WAIT : Fam := fld1 0x10008214 4 0x1000 16 8 .rw 4
def LE_PRG_INFO_W : Fam := fld1 0x10008218 4 0x1000 0 20 .ro 0
def LE_PRG_ID_ID : Fam := fld1 0x1000821C 4 0x1000 0 32 .ro 0
def LE_PRG_SID_ID : Fam := fld1 0x10008220 4 0x1000 0 32 .ro 0
def LE_PRG_CNT_SWITCHES : Fam := fld1 0x10008224 4 0x1000 0 16 .ro 0
def LE_PRG_CNT_REFUSED : Fam := fld1 0x10008224 4 0x1000 16 16 .ro 0

def block8 : List Fam :=
  [LE_DEC_CTL_CHECK, LE_DEC_CTL_ACTIVATE, LE_DEC_CTL_ARM, LE_DEC_CTL_DISARM, LE_DEC_STAT_ACT, LE_DEC_STAT_SVALID, LE_DEC_STAT_ARMED, LE_DEC_STAT_BUSY, LE_DEC_STAT_ERR, LE_DEC_STAT_ERRENT, LE_DEC_STAT_ERRMOV, LE_DEC_ID_ID] ++
  [LE_DEC_SID_ID, LE_PRG_CTL_CHECK, LE_PRG_CTL_SCHED, LE_PRG_CTL_CANCEL, LE_PRG_CTL_SWITCHNOW, LE_PRG_STAT_ACT, LE_PRG_STAT_IVALID, LE_PRG_STAT_SCHEDULED, LE_PRG_STAT_BUSY, LE_PRG_STAT_SWDONE, LE_PRG_STAT_WAITING, LE_PRG_STAT_ERR] ++
  [LE_PRG_STAT_ERRIDX, LE_PRG_STAT_SUB, LE_PRG_REC_OFS, LE_PRG_AT_LO_A, LE_PRG_AT_HI_A, LE_PRG_BUD_US, LE_PRG_BUD_WAIT, LE_PRG_INFO_W, LE_PRG_ID_ID, LE_PRG_SID_ID, LE_PRG_CNT_SWITCHES, LE_PRG_CNT_REFUSED]

/-! EXC (07) -/
def EXC_CTL_BRMODE : Fam := fld 0x1000C000 0 2 .rw 0
def EXC_CTL_MIR01 : Fam := fld 0x1000C000 2 1 .rw 0
def EXC_CTL_MIR23 : Fam := fld 0x1000C000 3 1 .rw 0
def EXC_CTL_AUTORST : Fam := fld 0x1000C000 4 1 .rw 0
def EXC_CTL_ARDELAY : Fam := fld 0x1000C000 8 8 .rw 10
def EXC_STAT_DUMB : Fam := fld 0x1000C004 0 1 .ro 0
def EXC_STAT_DPEN : Fam := fld 0x1000C004 1 1 .ro 0
def EXC_STAT_BUMB : Fam := fld 0x1000C004 2 1 .ro 0
def EXC_STAT_BPEN : Fam := fld 0x1000C004 3 1 .ro 0
def EXC_STAT_CUMB : Fam := fld 0x1000C004 4 1 .ro 0
def EXC_STAT_CPEN : Fam := fld 0x1000C004 5 1 .ro 0
def EXC_STAT_EUMB : Fam := fld 0x1000C004 6 4 .ro 0
def EXC_STAT_EPEN : Fam := fld 0x1000C004 10 4 .ro 0
def EXC_STAT_MIRERR : Fam := fld 0x1000C004 14 1 .w1c 0
def EXC_STAT_RELERR : Fam := fld 0x1000C004 15 1 .w1c 0
def EXC_STAT_PENERR : Fam := fld 0x1000C004 16 1 .w1c 0
def EXC_STAT_DEVCAUSE : Fam := fld 0x1000C004 24 8 .ro 0
def EXC_CMD_SCOPE : Fam := fld 0x1000C008 0 3 .wo 0
def EXC_CMD_ENTER : Fam := fld 0x1000C008 8 1 .wo 0
def EXC_CMD_RELEASE : Fam := fld 0x1000C008 9 1 .wo 0
def EXC_CMD_PENENTER : Fam := fld 0x1000C008 10 1 .wo 0
def EXC_CMD_PENLEAVE : Fam := fld 0x1000C008 11 1 .wo 0
def EXC_PEN_ILIM : Fam := fld 0x1000C00C 0 8 .rw 192
def EXC_PEN_FSWDIV : Fam := fld 0x1000C00C 8 3 .rw 2
def EXC_PEN_CHOPMAX : Fam := fld 0x1000C00C 16 8 .rw 192
def EXC_SVWDT_MS : Fam := fld 0x1000C010 0 16 .rw 100
def EXC_SVWDT_KICK : Fam := fld 0x1000C010 16 8 .wo 0
def EXC_UCAUSE_BRIDGE : Fam := fld 0x1000C014 0 8 .ro 0
def EXC_UCAUSE_CHOP : Fam := fld 0x1000C014 8 8 .ro 0
def EXC_UCAUSE_DEV : Fam := fld 0x1000C014 16 8 .ro 0
def EXC_UCAUSE_ENG : Fam := fld 0x1000C014 24 8 .ro 0
def EXC_UCSET_BRIDGE : Fam := fld 0x1000C01C 0 5 .ro 0
def EXC_UCSET_CHOP : Fam := fld 0x1000C01C 8 3 .ro 0
def EXC_UCSET_DEV : Fam := fld 0x1000C01C 16 2 .ro 0
def EXC_UCSET_ENG : Fam := fld 0x1000C01C 24 8 .ro 0
def EXC_SVVEC_ADDR : Fam := fld 0x1000C018 0 29 .rw 0
def EXC_VEC_IDX : Fam := fld1 0x1000C040 4 0x20 0 16 .rw 0
def EXC_CFG_TFH : Fam := fld1 0x1000C044 4 0x20 0 1 .rw 0
def EXC_CFG_TFN : Fam := fld1 0x1000C044 4 0x20 4 4 .rw 0
def EXC_CFG_WDT : Fam := fld1 0x1000C044 4 0x20 8 10 .rw 10
def EXC_FAULT_CAUSE : Fam := fld1 0x1000C048 4 0x20 0 16 .ro 0
def EXC_FAULT_CLASS : Fam := fld1 0x1000C048 4 0x20 16 3 .ro 0
def EXC_FAULT_DOUBLE : Fam := fld1 0x1000C048 4 0x20 19 1 .w1c 0
def EXC_FAULT_OCC : Fam := fld1 0x1000C048 4 0x20 20 1 .w1c 0
def EXC_FAULT_FROZEN : Fam := fld1 0x1000C048 4 0x20 21 1 .w1c 0
def EXC_FAULT_WDTEXP : Fam := fld1 0x1000C048 4 0x20 22 1 .w1c 0
def EXC_FAULT_TASK : Fam := fld1 0x1000C048 4 0x20 24 6 .ro 0
def EXC_FAULT_TVALID : Fam := fld1 0x1000C048 4 0x20 30 1 .ro 0
def EXC_DET_DETAIL : Fam := fld1 0x1000C04C 4 0x20 0 32 .ro 0
def EXC_RESUME_IDX : Fam := fld1 0x1000C050 4 0x20 0 16 .ro 0
def EXC_CNT_TFRUN : Fam := fld1 0x1000C054 4 0x20 0 8 .ro 0
def EXC_CNT_ENGF : Fam := fld1 0x1000C054 4 0x20 8 16 .ro 0

def block12 : List Fam :=
  [EXC_CTL_BRMODE, EXC_CTL_MIR01, EXC_CTL_MIR23, EXC_CTL_AUTORST, EXC_CTL_ARDELAY, EXC_STAT_DUMB, EXC_STAT_DPEN, EXC_STAT_BUMB, EXC_STAT_BPEN, EXC_STAT_CUMB, EXC_STAT_CPEN, EXC_STAT_EUMB] ++
  [EXC_STAT_EPEN, EXC_STAT_MIRERR, EXC_STAT_RELERR, EXC_STAT_PENERR, EXC_STAT_DEVCAUSE, EXC_CMD_SCOPE, EXC_CMD_ENTER, EXC_CMD_RELEASE, EXC_CMD_PENENTER, EXC_CMD_PENLEAVE, EXC_PEN_ILIM, EXC_PEN_FSWDIV] ++
  [EXC_PEN_CHOPMAX, EXC_SVWDT_MS, EXC_SVWDT_KICK, EXC_UCAUSE_BRIDGE, EXC_UCAUSE_CHOP, EXC_UCAUSE_DEV, EXC_UCAUSE_ENG, EXC_UCSET_BRIDGE, EXC_UCSET_CHOP, EXC_UCSET_DEV, EXC_UCSET_ENG, EXC_SVVEC_ADDR] ++
  [EXC_VEC_IDX, EXC_CFG_TFH, EXC_CFG_TFN, EXC_CFG_WDT, EXC_FAULT_CAUSE, EXC_FAULT_CLASS, EXC_FAULT_DOUBLE, EXC_FAULT_OCC, EXC_FAULT_FROZEN, EXC_FAULT_WDTEXP, EXC_FAULT_TASK, EXC_FAULT_TVALID] ++
  [EXC_DET_DETAIL, EXC_RESUME_IDX, EXC_CNT_TFRUN, EXC_CNT_ENGF]

/-! EVT (08) -/
def EVT_STAT_FILL : Fam := fld 0x1000D000 0 9 .ro 0
def EVT_STAT_OVF : Fam := fld 0x1000D000 16 1 .w1c 0
def EVT_STAT_RTDROP : Fam := fld 0x1000D000 17 1 .w1c 0
def EVT_STAT_INJERR : Fam := fld 0x1000D000 18 1 .w1c 0
def EVT_LOST_N : Fam := fld 0x1000D004 0 16 .w1c 0
def EVT_TOP_SRC : Fam := fld 0x1000D008 0 9 .ro 0
def EVT_TOP_VALID : Fam := fld 0x1000D008 15 1 .ro 0
def EVT_TOP_PRIO : Fam := fld 0x1000D008 16 2 .ro 0
def EVT_SEL_SRC : Fam := fld 0x1000D00C 0 9 .rw 0
def EVT_SCNT_COUNT : Fam := fld 0x1000D010 0 8 .ro 0
def EVT_SCNT_LOSTREC : Fam := fld 0x1000D010 8 1 .ro 0
def EVT_SFIRST_LO_T : Fam := fld 0x1000D014 0 32 .rs 0
def EVT_SFIRST_HI_T : Fam := fld 0x1000D018 0 32 .ro 0
def EVT_SLAST_LO_T : Fam := fld 0x1000D01C 0 32 .rs 0
def EVT_SLAST_HI_T : Fam := fld 0x1000D020 0 32 .ro 0
def EVT_SPAY_PAY : Fam := fld 0x1000D024 0 16 .ro 0
def EVT_SPAY_INJ : Fam := fld 0x1000D024 16 1 .ro 0
def EVT_INJECT_SRC : Fam := fld 0x1000D028 0 9 .wo 0
def EVT_INJECT_PAY : Fam := fld 0x1000D028 16 16 .wo 0
def EVT_PEND_P : Fam := fld1 0x1000D100 9 0x4 0 32 .w1c 0
def EVT_ENA_E : Fam := fld1 0x1000D140 9 0x4 0 32 .rw 0
def EVT_LVL_L : Fam := fld1 0x1000D180 9 0x4 0 32 .ro 0
def EVT_LOGE_E : Fam := fld1 0x1000D1C0 9 0x4 0 32 .rw 0
def EVT_CFG_PRIO : Fam := fld1 0x1000D400 288 0x4 0 2 .rw 2
def EVT_CFG_RTEN : Fam := fld1 0x1000D400 288 0x4 2 1 .rw 0
def EVT_CFG_RENG : Fam := fld1 0x1000D400 288 0x4 3 2 .rw 0
def EVT_CFG_KIND : Fam := fld1 0x1000D400 288 0x4 8 1 .ro 0
def EVT_CFG_NMI : Fam := fld1 0x1000D400 288 0x4 9 1 .ro 0
def EVT_CFG_NOTIFY : Fam := fld1 0x1000D400 288 0x4 10 1 .ro 0
def EVT_CFG_WAKE : Fam := fld1 0x1000D400 288 0x4 11 1 .ro 0

def block13 : List Fam :=
  [EVT_STAT_FILL, EVT_STAT_OVF, EVT_STAT_RTDROP, EVT_STAT_INJERR, EVT_LOST_N, EVT_TOP_SRC, EVT_TOP_VALID, EVT_TOP_PRIO, EVT_SEL_SRC, EVT_SCNT_COUNT, EVT_SCNT_LOSTREC, EVT_SFIRST_LO_T] ++
  [EVT_SFIRST_HI_T, EVT_SLAST_LO_T, EVT_SLAST_HI_T, EVT_SPAY_PAY, EVT_SPAY_INJ, EVT_INJECT_SRC, EVT_INJECT_PAY, EVT_PEND_P, EVT_ENA_E, EVT_LVL_L, EVT_LOGE_E, EVT_CFG_PRIO] ++
  [EVT_CFG_RTEN, EVT_CFG_RENG, EVT_CFG_KIND, EVT_CFG_NMI, EVT_CFG_NOTIFY, EVT_CFG_WAKE]

/-! CHK (10) -/
def CHK_CTL_SVBG : Fam := fld 0x1000E000 0 1 .rw 1
def CHK_CTL_LNBG : Fam := fld 0x1000E000 1 1 .rw 1
def CHK_CTL_VIEW : Fam := fld 0x1000E000 8 1 .rw 0
def CHK_STAT_PEND : Fam := fld 0x1000E004 0 1 .ro 0
def CHK_STAT_CFGERR : Fam := fld 0x1000E004 1 1 .w1c 0
def CHK_STAT_VIOL : Fam := fld 0x1000E004 2 1 .w1c 0
def CHK_STAT_ERRCODE : Fam := fld 0x1000E004 4 4 .ro 0
def CHK_STAT_ERRIDX : Fam := fld 0x1000E004 8 7 .ro 0
def CHK_COMMIT_GO : Fam := fld 0x1000E008 0 1 .wo 0
def CHK_COMMIT_DISCARD : Fam := fld 0x1000E008 1 1 .wo 0
def CHK_RQPRIV_DMA : Fam := fld 0x1000E00C 0 2 .rw 0
def CHK_RQPRIV_RFL : Fam := fld 0x1000E00C 2 2 .rw 0
def CHK_RQPRIV_LAN : Fam := fld 0x1000E00C 4 2 .rw 0
def CHK_RG_BASE_BASE : Fam := fld1 0x1000E100 24 0x10 8 24 .rw 0
def CHK_RG_CFG_EN : Fam := fld1 0x1000E104 24 0x10 0 1 .rw 0
def CHK_RG_CFG_SIZE : Fam := fld1 0x1000E104 24 0x10 1 6 .rw 8
def CHK_RG_CFG_SUBDIS : Fam := fld1 0x1000E104 24 0x10 8 8 .rw 0
def CHK_RG_CFG_CACHE : Fam := fld1 0x1000E104 24 0x10 16 2 .rw 0
def CHK_RG_CFG_ORDER : Fam := fld1 0x1000E104 24 0x10 18 2 .rw 0
def CHK_RG_ACC0_LE0 : Fam := fld1 0x1000E108 24 0x10 0 8 .rw 0
def CHK_RG_ACC0_LE1 : Fam := fld1 0x1000E108 24 0x10 8 8 .rw 0
def CHK_RG_ACC0_LE2 : Fam := fld1 0x1000E108 24 0x10 16 8 .rw 0
def CHK_RG_ACC0_LE3 : Fam := fld1 0x1000E108 24 0x10 24 8 .rw 0
def CHK_RG_ACC1_SV : Fam := fld1 0x1000E10C 24 0x10 0 8 .rw 0
def CHK_RG_ACC1_DMA : Fam := fld1 0x1000E10C 24 0x10 8 8 .rw 0
def CHK_RG_ACC1_RFL : Fam := fld1 0x1000E10C 24 0x10 16 8 .rw 0
def CHK_RG_ACC1_LAN : Fam := fld1 0x1000E10C 24 0x10 24 8 .rw 0
def CHK_SLOT_RMASK : Fam := fld1 0x1000E400 96 0x4 0 8 .rw 144
def CHK_SLOT_WMASK : Fam := fld1 0x1000E400 96 0x4 8 8 .rw 144
def CHK_SLOT_PRIV : Fam := fld1 0x1000E400 96 0x4 16 2 .rw 0
def CHK_VIO_ADDR_A : Fam := fld1 0x1000E600 8 0x10 0 32 .ro 0
def CHK_VIO_INFO_KIND : Fam := fld1 0x1000E604 8 0x10 0 2 .ro 0
def CHK_VIO_INFO_PRIV : Fam := fld1 0x1000E604 8 0x10 2 2 .ro 0
def CHK_VIO_INFO_SLOT : Fam := fld1 0x1000E604 8 0x10 4 1 .ro 0
def CHK_VIO_INFO_MATCH : Fam := fld1 0x1000E604 8 0x10 8 7 .ro 0
def CHK_VIO_INFO_LEN : Fam := fld1 0x1000E604 8 0x10 16 8 .ro 0
def CHK_VIO_CNT_N : Fam := fld1 0x1000E608 8 0x10 0 16 .w1c 0

def block14 : List Fam :=
  [CHK_CTL_SVBG, CHK_CTL_LNBG, CHK_CTL_VIEW, CHK_STAT_PEND, CHK_STAT_CFGERR, CHK_STAT_VIOL, CHK_STAT_ERRCODE, CHK_STAT_ERRIDX, CHK_COMMIT_GO, CHK_COMMIT_DISCARD, CHK_RQPRIV_DMA, CHK_RQPRIV_RFL] ++
  [CHK_RQPRIV_LAN, CHK_RG_BASE_BASE, CHK_RG_CFG_EN, CHK_RG_CFG_SIZE, CHK_RG_CFG_SUBDIS, CHK_RG_CFG_CACHE, CHK_RG_CFG_ORDER, CHK_RG_ACC0_LE0, CHK_RG_ACC0_LE1, CHK_RG_ACC0_LE2, CHK_RG_ACC0_LE3, CHK_RG_ACC1_SV] ++
  [CHK_RG_ACC1_DMA, CHK_RG_ACC1_RFL, CHK_RG_ACC1_LAN, CHK_SLOT_RMASK, CHK_SLOT_WMASK, CHK_SLOT_PRIV, CHK_VIO_ADDR_A, CHK_VIO_INFO_KIND, CHK_VIO_INFO_PRIV, CHK_VIO_INFO_SLOT, CHK_VIO_INFO_MATCH, CHK_VIO_INFO_LEN] ++
  [CHK_VIO_CNT_N]

/-! KEEP (21) -/
def KEEP_CTL_RAW0 : Fam := fld 0x1000F000 0 1 .rw 0
def KEEP_CTL_RAW2 : Fam := fld 0x1000F000 1 1 .rw 0
def KEEP_CTL_RAW3 : Fam := fld 0x1000F000 2 1 .rw 0
def KEEP_CTL_RTEN : Fam := fld 0x1000F000 8 1 .rw 0
def KEEP_CTL_STBYSAVE : Fam := fld 0x1000F000 9 1 .rw 0
def KEEP_CTL_SAVE : Fam := fld 0x1000F000 16 1 .wo 0
def KEEP_STAT_RECALL : Fam := fld 0x1000F004 0 1 .ro 1
def KEEP_STAT_QFULL : Fam := fld 0x1000F004 1 1 .ro 0
def KEEP_STAT_QREF : Fam := fld 0x1000F004 2 1 .w1c 0
def KEEP_STAT_CFGERR : Fam := fld 0x1000F004 3 1 .w1c 0
def KEEP_STAT_WEARHI : Fam := fld 0x1000F004 4 1 .ro 0
def KEEP_STAT_QLEN : Fam := fld 0x1000F004 8 7 .ro 0
def KEEP_QSEQ_N : Fam := fld 0x1000F008 0 32 .ro 0
def KEEP_WSEQ_N : Fam := fld 0x1000F00C 0 32 .ro 0
def KEEP_UNLOCK_PART : Fam := fld 0x1000F010 0 3 .wo 0
def KEEP_UNLOCK_KIND : Fam := fld 0x1000F010 3 1 .wo 0
def KEEP_UNLOCK_GO : Fam := fld 0x1000F010 8 1 .wo 0
def KEEP_UNLOCK_RELOCK : Fam := fld 0x1000F010 9 1 .wo 0
def KEEP_PW_LO_P : Fam := fld 0x1000F014 0 32 .wo 0
def KEEP_PW_HI_P : Fam := fld 0x1000F018 0 32 .wo 0
def KEEP_LOCKST_RD : Fam := fld 0x1000F01C 0 5 .ro 0
def KEEP_LOCKST_WR : Fam := fld 0x1000F01C 8 5 .ro 0
def KEEP_LOCKST_PWBLOCK : Fam := fld 0x1000F01C 16 1 .ro 0
def KEEP_RT_STAT_READY : Fam := fld 0x1000F020 0 1 .ro 0
def KEEP_RT_STAT_BANK : Fam := fld 0x1000F020 1 1 .ro 0
def KEEP_RT_STAT_VALID : Fam := fld 0x1000F020 2 1 .ro 0
def KEEP_RT_STAT_LISTDIFF : Fam := fld 0x1000F020 3 1 .w1c 0
def KEEP_RT_STAT_INCOMPLETE : Fam := fld 0x1000F020 4 1 .w1c 0
def KEEP_RT_ADDR_A : Fam := fld1 0x1000F040 16 0x8 0 32 .rw 0
def KEEP_RT_LEN_L : Fam := fld1 0x1000F044 16 0x8 0 32 .rw 0
def KEEP_RING_SEL_R : Fam := fld 0x1000F100 0 5 .rw 0
def KEEP_RING_CFG_ROW : Fam := fld 0x1000F104 0 11 .rw 0
def KEEP_RING_CFG_SLOTS : Fam := fld 0x1000F104 16 9 .rw 0
def KEEP_RING_VAL_LO_V : Fam := fld 0x1000F108 0 32 .rw 0
def KEEP_RING_VAL_HI_V : Fam := fld 0x1000F10C 0 32 .rw 0
def KEEP_RING_CMD_OP : Fam := fld 0x1000F110 0 3 .wo 0
def KEEP_RING_STAT_EMPTY : Fam := fld 0x1000F114 0 1 .ro 0
def KEEP_RING_STAT_DEF : Fam := fld 0x1000F114 1 1 .ro 0
def KEEP_RING_STAT_BUSY : Fam := fld 0x1000F114 2 1 .ro 0
def KEEP_RING_STAT_ERR : Fam := fld 0x1000F114 3 1 .w1c 0
def KEEP_RING_STAT_CRCERR : Fam := fld 0x1000F114 8 8 .ro 0
def KEEP_RING_SEQ_N : Fam := fld 0x1000F118 0 32 .ro 0
def KEEP_SC_SEL_C : Fam := fld 0x1000F180 0 6 .rw 0
def KEEP_SC_CMD_OP : Fam := fld 0x1000F184 0 2 .wo 0
def KEEP_SC_VAL_V : Fam := fld 0x1000F188 0 32 .rw 0
def KEEP_SC_GEN_G : Fam := fld 0x1000F18C 0 32 .ro 0
def KEEP_SC_STAT_ENDUR : Fam := fld 0x1000F190 0 1 .ro 0
def KEEP_SC_STAT_BUSY : Fam := fld 0x1000F190 1 1 .ro 0
def KEEP_SC_STAT_ERR : Fam := fld 0x1000F190 2 1 .w1c 0
def KEEP_WEAR_N : Fam := fld1 0x1000F1C0 6 0x4 0 32 .ro 0
def KEEP_REC_CTL_PART : Fam := fld 0x1000F200 0 1 .rw 0
def KEEP_REC_KEY_K : Fam := fld 0x1000F204 0 32 .rw 0
def KEEP_REC_LEN_L : Fam := fld 0x1000F208 0 12 .rw 0
def KEEP_REC_CMD_OP : Fam := fld 0x1000F20C 0 2 .wo 0
def KEEP_REC_STAT_BUSY : Fam := fld 0x1000F210 0 1 .ro 0
def KEEP_REC_STAT_FOUND : Fam := fld 0x1000F210 1 1 .ro 0
def KEEP_REC_STAT_ERR : Fam := fld 0x1000F210 2 1 .w1c 0
def KEEP_REC_STAT_FULL : Fam := fld 0x1000F210 3 1 .w1c 0

def block15 : List Fam :=
  [KEEP_CTL_RAW0, KEEP_CTL_RAW2, KEEP_CTL_RAW3, KEEP_CTL_RTEN, KEEP_CTL_STBYSAVE, KEEP_CTL_SAVE, KEEP_STAT_RECALL, KEEP_STAT_QFULL, KEEP_STAT_QREF, KEEP_STAT_CFGERR, KEEP_STAT_WEARHI, KEEP_STAT_QLEN] ++
  [KEEP_QSEQ_N, KEEP_WSEQ_N, KEEP_UNLOCK_PART, KEEP_UNLOCK_KIND, KEEP_UNLOCK_GO, KEEP_UNLOCK_RELOCK, KEEP_PW_LO_P, KEEP_PW_HI_P, KEEP_LOCKST_RD, KEEP_LOCKST_WR, KEEP_LOCKST_PWBLOCK, KEEP_RT_STAT_READY] ++
  [KEEP_RT_STAT_BANK, KEEP_RT_STAT_VALID, KEEP_RT_STAT_LISTDIFF, KEEP_RT_STAT_INCOMPLETE, KEEP_RT_ADDR_A, KEEP_RT_LEN_L, KEEP_RING_SEL_R, KEEP_RING_CFG_ROW, KEEP_RING_CFG_SLOTS, KEEP_RING_VAL_LO_V, KEEP_RING_VAL_HI_V, KEEP_RING_CMD_OP] ++
  [KEEP_RING_STAT_EMPTY, KEEP_RING_STAT_DEF, KEEP_RING_STAT_BUSY, KEEP_RING_STAT_ERR, KEEP_RING_STAT_CRCERR, KEEP_RING_SEQ_N, KEEP_SC_SEL_C, KEEP_SC_CMD_OP, KEEP_SC_VAL_V, KEEP_SC_GEN_G, KEEP_SC_STAT_ENDUR, KEEP_SC_STAT_BUSY] ++
  [KEEP_SC_STAT_ERR, KEEP_WEAR_N, KEEP_REC_CTL_PART, KEEP_REC_KEY_K, KEEP_REC_LEN_L, KEEP_REC_CMD_OP, KEEP_REC_STAT_BUSY, KEEP_REC_STAT_FOUND, KEEP_REC_STAT_ERR, KEEP_REC_STAT_FULL]

/-! LOG (22) -/
def LOG_CTL_EN : Fam := fld 0x10010000 0 1 .rw 1
def LOG_CTL_PINFAULT : Fam := fld 0x10010000 1 1 .rw 1
def LOG_CTL_MINCLS : Fam := fld 0x10010000 4 3 .rw 0
def LOG_CTL_UNPIN : Fam := fld 0x10010000 8 1 .wo 0
def LOG_CTL_CLRBAD : Fam := fld 0x10010000 9 1 .wo 0
def LOG_STAT_RECALL : Fam := fld 0x10010004 0 1 .ro 1
def LOG_STAT_FAILED : Fam := fld 0x10010004 1 1 .ro 0
def LOG_STAT_PINFULL : Fam := fld 0x10010004 2 1 .w1c 0
def LOG_STAT_APERR : Fam := fld 0x10010004 3 1 .w1c 0
def LOG_STAT_QLEN : Fam := fld 0x10010004 8 7 .ro 0
def LOG_STAT_BAD : Fam := fld 0x10010004 16 9 .ro 0
def LOG_HEAD_SLOT : Fam := fld 0x10010008 0 13 .ro 0
def LOG_COUNT_N : Fam := fld 0x1001000C 0 14 .ro 0
def LOG_COUNT_PINS : Fam := fld 0x1001000C 16 9 .ro 0
def LOG_LOST_N : Fam := fld 0x10010010 0 16 .w1c 0
def LOG_PINLIM_N : Fam := fld 0x10010014 0 9 .rw 128
def LOG_APPEND0_CODE : Fam := fld 0x10010018 0 16 .wo 0
def LOG_APPEND0_DATA : Fam := fld 0x10010018 16 16 .wo 0
def LOG_APPEND1_CLASS : Fam := fld 0x1001001C 0 3 .wo 0
def LOG_APPEND1_PIN : Fam := fld 0x1001001C 3 1 .wo 0
def LOG_APPEND1_GO : Fam := fld 0x1001001C 8 1 .wo 0
def LOG_SEQ_N : Fam := fld 0x10010020 0 32 .ro 0
def LOG_RBSEL_I : Fam := fld 0x10010024 0 8 .rw 0
def LOG_RBDATA_W : Fam := fld1 0x10010028 4 0x4 0 32 .ro 0

def block16 : List Fam :=
  [LOG_CTL_EN, LOG_CTL_PINFAULT, LOG_CTL_MINCLS, LOG_CTL_UNPIN, LOG_CTL_CLRBAD, LOG_STAT_RECALL, LOG_STAT_FAILED, LOG_STAT_PINFULL, LOG_STAT_APERR, LOG_STAT_QLEN, LOG_STAT_BAD, LOG_HEAD_SLOT] ++
  [LOG_COUNT_N, LOG_COUNT_PINS, LOG_LOST_N, LOG_PINLIM_N, LOG_APPEND0_CODE, LOG_APPEND0_DATA, LOG_APPEND1_CLASS, LOG_APPEND1_PIN, LOG_APPEND1_GO, LOG_SEQ_N, LOG_RBSEL_I, LOG_RBDATA_W]

/-! RFL (12) -/
def RFL_CFG_EN : Fam := fld 0x10011000 0 1 .rw 0
def RFL_CFG_MODE : Fam := fld 0x10011000 1 1 .rw 0
def RFL_CFG_UNIT : Fam := fld 0x10011000 2 1 .rw 0
def RFL_CFG_AUTOREJOIN : Fam := fld 0x10011000 3 1 .rw 1
def RFL_CFG_M : Fam := fld 0x10011000 4 4 .rw 2
def RFL_CFG_CLAIMWAIT : Fam := fld 0x10011000 8 8 .rw 20
def RFL_STAT_ROLE : Fam := fld 0x10011004 0 2 .ro 0
def RFL_STAT_OWN : Fam := fld 0x10011004 2 1 .ro 0
def RFL_STAT_OWNIN : Fam := fld 0x10011004 3 1 .ro 0
def RFL_STAT_LINK : Fam := fld 0x10011004 4 1 .ro 0
def RFL_STAT_READY : Fam := fld 0x10011004 5 1 .ro 0
def RFL_STAT_REJ : Fam := fld 0x10011004 6 3 .ro 0
def RFL_STAT_MISSED : Fam := fld 0x10011004 9 4 .ro 0
def RFL_STAT_REASON : Fam := fld 0x10011004 16 8 .ro 0
def RFL_STAT_CONFLICT : Fam := fld 0x10011004 24 1 .w1c 0
def RFL_STAT_DWFULL : Fam := fld 0x10011004 25 1 .w1c 0
def RFL_STAT_DISCPERS : Fam := fld 0x10011004 26 1 .ro 0
def RFL_STAT_CFGERR : Fam := fld 0x10011004 27 1 .w1c 0
def RFL_STAT_CMDERR : Fam := fld 0x10011004 28 1 .w1c 0
def RFL_CMD_REJOIN : Fam := fld 0x10011008 0 1 .wo 0
def RFL_CMD_STOP : Fam := fld 0x10011008 1 1 .wo 0
def RFL_CMD_SWAP : Fam := fld 0x10011008 2 1 .wo 0
def RFL_CMD_CANCEL : Fam := fld 0x10011008 3 1 .wo 0
def RFL_CMD_REPAIR : Fam := fld 0x10011008 4 1 .wo 0
def RFL_SWAPAT_LO_A : Fam := fld 0x1001100C 0 32 .rw 0
def RFL_SWAPAT_HI_A : Fam := fld 0x10011010 0 32 .rw 0
def RFL_SEQ_TX : Fam := fld 0x10011014 0 16 .ro 0
def RFL_SEQ_RX : Fam := fld 0x10011014 16 16 .ro 0
def RFL_SWEEP_BG : Fam := fld 0x10011018 0 4 .rw 1
def RFL_SWEEP_PPT : Fam := fld 0x10011018 8 6 .rw 4
def RFL_SWEEP_SYNCMAX : Fam := fld 0x10011018 16 8 .rw 8
def RFL_SWEEP_WAIT : Fam := fld 0x10011018 24 8 .rw 8
def RFL_SWLIM_LIMIT : Fam := fld 0x1001101C 0 16 .rw 4000
def RFL_SWLIM_RETRY : Fam := fld 0x1001101C 16 16 .rw 10
def RFL_RJSTAT_ROUND : Fam := fld 0x10011020 0 8 .ro 0
def RFL_RJSTAT_DIRTY : Fam := fld 0x10011020 8 16 .ro 0
def RFL_DIG_N : Fam := fld 0x10011024 0 16 .rw 4000
def RFL_DIG_EN : Fam := fld 0x10011024 16 1 .rw 1
def RFL_DIGSTAT_MATCH : Fam := fld 0x10011028 0 16 .ro 0
def RFL_DIGSTAT_MISMATCH : Fam := fld 0x10011028 16 16 .ro 0
def RFL_CNT_MISSED : Fam := fld 0x1001102C 0 16 .ro 0
def RFL_CNT_RETRY : Fam := fld 0x1001102C 16 16 .ro 0
def RFL_DISCCNT_N : Fam := fld 0x10011030 0 16 .ro 0
def RFL_DISCCFG_PERSIST : Fam := fld 0x10011034 0 8 .rw 10
def RFL_DISC_EN : Fam := fld1 0x10011040 16 0x4 0 1 .rw 0
def RFL_DISC_AREA : Fam := fld1 0x10011040 16 0x4 1 1 .rw 0
def RFL_DISC_START : Fam := fld1 0x10011040 16 0x4 2 12 .rw 0
def RFL_DISC_COUNT : Fam := fld1 0x10011040 16 0x4 14 13 .rw 0
def RFL_DISC_TOL : Fam := fld1 0x10011040 16 0x4 27 5 .rw 0

def block17 : List Fam :=
  [RFL_CFG_EN, RFL_CFG_MODE, RFL_CFG_UNIT, RFL_CFG_AUTOREJOIN, RFL_CFG_M, RFL_CFG_CLAIMWAIT, RFL_STAT_ROLE, RFL_STAT_OWN, RFL_STAT_OWNIN, RFL_STAT_LINK, RFL_STAT_READY, RFL_STAT_REJ] ++
  [RFL_STAT_MISSED, RFL_STAT_REASON, RFL_STAT_CONFLICT, RFL_STAT_DWFULL, RFL_STAT_DISCPERS, RFL_STAT_CFGERR, RFL_STAT_CMDERR, RFL_CMD_REJOIN, RFL_CMD_STOP, RFL_CMD_SWAP, RFL_CMD_CANCEL, RFL_CMD_REPAIR] ++
  [RFL_SWAPAT_LO_A, RFL_SWAPAT_HI_A, RFL_SEQ_TX, RFL_SEQ_RX, RFL_SWEEP_BG, RFL_SWEEP_PPT, RFL_SWEEP_SYNCMAX, RFL_SWEEP_WAIT, RFL_SWLIM_LIMIT, RFL_SWLIM_RETRY, RFL_RJSTAT_ROUND, RFL_RJSTAT_DIRTY] ++
  [RFL_DIG_N, RFL_DIG_EN, RFL_DIGSTAT_MATCH, RFL_DIGSTAT_MISMATCH, RFL_CNT_MISSED, RFL_CNT_RETRY, RFL_DISCCNT_N, RFL_DISCCFG_PERSIST, RFL_DISC_EN, RFL_DISC_AREA, RFL_DISC_START, RFL_DISC_COUNT] ++
  [RFL_DISC_TOL]

/-! FPp (14) -/
def FP_CFG_EN : Fam := fld1 0x10012000 6 0x1000 0 1 .rw 0
def FP_CFG_ICMPEN : Fam := fld1 0x10012000 6 0x1000 1 1 .rw 0
def FP_CFG_AUTOREC : Fam := fld1 0x10012000 6 0x1000 2 1 .rw 1
def FP_CFG_MAXSESS : Fam := fld1 0x10012000 6 0x1000 4 4 .rw 4
def FP_CFG_ROLES : Fam := fld1 0x10012000 6 0x1000 8 4 .rw 15
def FP_CFG_KIND : Fam := fld1 0x10012000 6 0x1000 31 1 .ro 0
def FP_STAT_LINK : Fam := fld1 0x10012004 6 0x1000 0 1 .ro 0
def FP_STAT_PLOST : Fam := fld1 0x10012004 6 0x1000 1 1 .ro 0
def FP_STAT_ERRPASS : Fam := fld1 0x10012004 6 0x1000 2 1 .ro 0
def FP_STAT_BUSOFF : Fam := fld1 0x10012004 6 0x1000 3 1 .ro 0
def FP_STAT_ARPOK : Fam := fld1 0x10012004 6 0x1000 4 1 .ro 0
def FP_STAT_LOCKOUT : Fam := fld1 0x10012004 6 0x1000 5 1 .ro 0
def FP_STAT_MAPLATE : Fam := fld1 0x10012004 6 0x1000 6 1 .w1c 0
def FP_STAT_CFGERR : Fam := fld1 0x10012004 6 0x1000 7 1 .w1c 0
def FP_STAT_SESS : Fam := fld1 0x10012004 6 0x1000 8 4 .ro 0
def FP_STAT_LASTERR : Fam := fld1 0x10012004 6 0x1000 16 8 .ro 0
def FP_OWN_ID : Fam := fld1 0x10012008 6 0x1000 0 32 .rw 0
def FP_PARTNER_ID : Fam := fld1 0x1001200C 6 0x1000 0 32 .rw 0
def FP_MAC_LO_M : Fam := fld1 0x10012010 6 0x1000 0 32 .rw 0
def FP_MAC_HI_M : Fam := fld1 0x10012014 6 0x1000 0 16 .rw 0
def FP_UDPPORT_PORT : Fam := fld1 0x10012018 6 0x1000 0 16 .rw 24946
def FP_UDPPORT_DSCP : Fam := fld1 0x10012018 6 0x1000 16 6 .rw 0
def FP_NBT_BRP : Fam := fld1 0x1001201C 6 0x1000 0 8 .rw 1
def FP_NBT_TSEG1 : Fam := fld1 0x1001201C 6 0x1000 8 8 .rw 127
def FP_NBT_TSEG2 : Fam := fld1 0x1001201C 6 0x1000 16 7 .rw 32
def FP_NBT_SJW : Fam := fld1 0x1001201C 6 0x1000 24 7 .rw 32
def FP_DBT_BRP : Fam := fld1 0x10012020 6 0x1000 0 5 .rw 1
def FP_DBT_TSEG1 : Fam := fld1 0x10012020 6 0x1000 8 5 .rw 29
def FP_DBT_TSEG2 : Fam := fld1 0x10012020 6 0x1000 16 4 .rw 10
def FP_DBT_SJW : Fam := fld1 0x10012020 6 0x1000 24 4 .rw 10
def FP_LOSSTO_MS : Fam := fld1 0x10012024 6 0x1000 0 16 .rw 0
def FP_CNT0_RX : Fam := fld1 0x10012028 6 0x1000 0 16 .ro 0
def FP_CNT0_TX : Fam := fld1 0x10012028 6 0x1000 16 16 .ro 0
def FP_CNT1_DROP : Fam := fld1 0x1001202C 6 0x1000 0 16 .ro 0
def FP_CNT1_AUTH : Fam := fld1 0x1001202C 6 0x1000 16 16 .ro 0
def FP_CANERR_TEC : Fam := fld1 0x10012030 6 0x1000 0 8 .ro 0
def FP_CANERR_REC : Fam := fld1 0x10012030 6 0x1000 8 8 .ro 0
def FP_RMAP_A_EN : Fam := fld2 0x10012040 6 0x1000 4 0x8 0 1 .rw 0
def FP_RMAP_A_AREA : Fam := fld2 0x10012040 6 0x1000 4 0x8 1 1 .rw 0
def FP_RMAP_A_LOSSZERO : Fam := fld2 0x10012040 6 0x1000 4 0x8 2 1 .rw 0
def FP_RMAP_A_ROLES : Fam := fld2 0x10012040 6 0x1000 4 0x8 4 4 .rw 2
def FP_RMAP_A_ID : Fam := fld2 0x10012040 6 0x1000 4 0x8 8 8 .rw 0
def FP_RMAP_B_START : Fam := fld2 0x10012044 6 0x1000 4 0x8 0 12 .rw 0
def FP_RMAP_B_COUNT : Fam := fld2 0x10012044 6 0x1000 4 0x8 16 10 .rw 1

def block18 : List Fam :=
  [FP_CFG_EN, FP_CFG_ICMPEN, FP_CFG_AUTOREC, FP_CFG_MAXSESS, FP_CFG_ROLES, FP_CFG_KIND, FP_STAT_LINK, FP_STAT_PLOST, FP_STAT_ERRPASS, FP_STAT_BUSOFF, FP_STAT_ARPOK, FP_STAT_LOCKOUT] ++
  [FP_STAT_MAPLATE, FP_STAT_CFGERR, FP_STAT_SESS, FP_STAT_LASTERR, FP_OWN_ID, FP_PARTNER_ID, FP_MAC_LO_M, FP_MAC_HI_M, FP_UDPPORT_PORT, FP_UDPPORT_DSCP, FP_NBT_BRP, FP_NBT_TSEG1] ++
  [FP_NBT_TSEG2, FP_NBT_SJW, FP_DBT_BRP, FP_DBT_TSEG1, FP_DBT_TSEG2, FP_DBT_SJW, FP_LOSSTO_MS, FP_CNT0_RX, FP_CNT0_TX, FP_CNT1_DROP, FP_CNT1_AUTH, FP_CANERR_TEC] ++
  [FP_CANERR_REC, FP_RMAP_A_EN, FP_RMAP_A_AREA, FP_RMAP_A_LOSSZERO, FP_RMAP_A_ROLES, FP_RMAP_A_ID, FP_RMAP_B_START, FP_RMAP_B_COUNT]

/-! GDRVn (15) -/
def GD_CTL_EN : Fam := fld1 0x10018000 8 0x1000 0 1 .rw 0
def GD_CTL_CLAMPEN : Fam := fld1 0x10018000 8 0x1000 1 1 .rw 1
def GD_CTL_UVLOSEL : Fam := fld1 0x10018000 8 0x1000 2 2 .rw 1
def GD_CTL_VEEGCHK : Fam := fld1 0x10018000 8 0x1000 4 1 .rw 1
def GD_CTL_LOAD : Fam := fld1 0x10018000 8 0x1000 8 1 .wo 0
def GD_CTL_FCLR : Fam := fld1 0x10018000 8 0x1000 9 1 .wo 0
def GD_STAT_CFGOK : Fam := fld1 0x10018004 8 0x1000 0 1 .ro 0
def GD_STAT_VDDGOK : Fam := fld1 0x10018004 8 0x1000 1 1 .ro 0
def GD_STAT_VEEGOK : Fam := fld1 0x10018004 8 0x1000 2 1 .ro 0
def GD_STAT_CHOK : Fam := fld1 0x10018004 8 0x1000 3 1 .ro 0
def GD_STAT_ON : Fam := fld1 0x10018004 8 0x1000 4 1 .ro 0
def GD_STAT_PHASE : Fam := fld1 0x10018004 8 0x1000 5 2 .ro 0
def GD_STAT_SOFT : Fam := fld1 0x10018004 8 0x1000 7 1 .ro 0
def GD_STAT_DESATL : Fam := fld1 0x10018004 8 0x1000 8 1 .ro 0
def GD_STAT_CHLOSTL : Fam := fld1 0x10018004 8 0x1000 9 1 .ro 0
def GD_STAT_PTON : Fam := fld1 0x10018004 8 0x1000 10 1 .w1c 0
def GD_STAT_PTOFF : Fam := fld1 0x10018004 8 0x1000 11 1 .w1c 0
def GD_STAT_LOADPEND : Fam := fld1 0x10018004 8 0x1000 12 1 .ro 0
def GD_STAT_CLAMP : Fam := fld1 0x10018004 8 0x1000 13 1 .ro 0
def GD_STAT_RELEASED : Fam := fld1 0x10018004 8 0x1000 14 1 .ro 1
def GD_ON0_IA : Fam := fld1 0x10018008 8 0x1000 0 5 .rw 10
def GD_ON0_IB : Fam := fld1 0x10018008 8 0x1000 8 5 .rw 3
def GD_ON0_IC : Fam := fld1 0x10018008 8 0x1000 16 5 .rw 10
def GD_ON1_TA : Fam := fld1 0x1001800C 8 0x1000 0 8 .rw 0
def GD_ON1_TBMAX : Fam := fld1 0x1001800C 8 0x1000 8 8 .rw 255
def GD_ON1_VPL : Fam := fld1 0x1001800C 8 0x1000 16 8 .rw 150
def GD_OFF0_IA : Fam := fld1 0x10018010 8 0x1000 0 5 .rw 10
def GD_OFF0_IB : Fam := fld1 0x10018010 8 0x1000 8 5 .rw 3
def GD_OFF0_IC : Fam := fld1 0x10018010 8 0x1000 16 5 .rw 10
def GD_OFF1_TA : Fam := fld1 0x10018014 8 0x1000 0 8 .rw 0
def GD_OFF1_TBMAX : Fam := fld1 0x10018014 8 0x1000 8 8 .rw 255
def GD_OFF1_VPL : Fam := fld1 0x10018014 8 0x1000 16 8 .rw 120
def GD_SOFT0_IA : Fam := fld1 0x10018018 8 0x1000 0 5 .rw 2
def GD_SOFT0_IB : Fam := fld1 0x10018018 8 0x1000 8 5 .rw 1
def GD_SOFT0_IC : Fam := fld1 0x10018018 8 0x1000 16 5 .rw 5
def GD_SOFT1_TA : Fam := fld1 0x1001801C 8 0x1000 0 8 .rw 0
def GD_SOFT1_TBMAX : Fam := fld1 0x1001801C 8 0x1000 8 8 .rw 255
def GD_SOFT1_VPL : Fam := fld1 0x1001801C 8 0x1000 16 8 .rw 120
def GD_DSAT_BLANK : Fam := fld1 0x10018020 8 0x1000 0 8 .rw 200
def GD_DSAT_THR : Fam := fld1 0x10018020 8 0x1000 8 8 .rw 140
def GD_DSAT_FILT : Fam := fld1 0x10018020 8 0x1000 16 4 .rw 10
def GD_PLAT_ON : Fam := fld1 0x10018024 8 0x1000 0 8 .ro 0
def GD_PLAT_OFF : Fam := fld1 0x10018024 8 0x1000 8 8 .ro 0
def GD_CNT_PTCNT : Fam := fld1 0x10018028 8 0x1000 0 16 .ro 0
def GD_CNT_DESCNT : Fam := fld1 0x10018028 8 0x1000 16 16 .ro 0

def block24 : List Fam :=
  [GD_CTL_EN, GD_CTL_CLAMPEN, GD_CTL_UVLOSEL, GD_CTL_VEEGCHK, GD_CTL_LOAD, GD_CTL_FCLR, GD_STAT_CFGOK, GD_STAT_VDDGOK, GD_STAT_VEEGOK, GD_STAT_CHOK, GD_STAT_ON, GD_STAT_PHASE] ++
  [GD_STAT_SOFT, GD_STAT_DESATL, GD_STAT_CHLOSTL, GD_STAT_PTON, GD_STAT_PTOFF, GD_STAT_LOADPEND, GD_STAT_CLAMP, GD_STAT_RELEASED, GD_ON0_IA, GD_ON0_IB, GD_ON0_IC, GD_ON1_TA] ++
  [GD_ON1_TBMAX, GD_ON1_VPL, GD_OFF0_IA, GD_OFF0_IB, GD_OFF0_IC, GD_OFF1_TA, GD_OFF1_TBMAX, GD_OFF1_VPL, GD_SOFT0_IA, GD_SOFT0_IB, GD_SOFT0_IC, GD_SOFT1_TA] ++
  [GD_SOFT1_TBMAX, GD_SOFT1_VPL, GD_DSAT_BLANK, GD_DSAT_THR, GD_DSAT_FILT, GD_PLAT_ON, GD_PLAT_OFF, GD_CNT_PTCNT, GD_CNT_DESCNT]

/-! GDRV (15) -/
def GDRV_PWM_CTL_BEN : Fam := fld 0x10020000 0 1 .ro 0
def GDRV_PWM_CTL_SVBEN : Fam := fld 0x10020000 1 1 .rw 0
def GDRV_PWM_CTL_RUN : Fam := fld 0x10020000 2 1 .ro 0
def GDRV_CP_CP : Fam := fld 0x10020004 0 18 .rw 6250
def GDRV_DT_DT : Fam := fld 0x10020008 0 9 .rw 200
def GDRV_DT_MINPW : Fam := fld 0x10020008 16 8 .rw 10
def GDRV_CPACT_CP : Fam := fld 0x1002000C 0 18 .ro 6250
def GDRV_DUTYU_D : Fam := fld 0x10020010 0 17 .rw 32768
def GDRV_DUTYV_D : Fam := fld 0x10020014 0 17 .rw 32768
def GDRV_DUTYW_D : Fam := fld 0x10020018 0 17 .rw 32768
def GDRV_DUTYAUX_D : Fam := fld 0x1002001C 0 17 .rw 0
def GDRV_BIND_WORD : Fam := fld1 0x10020020 5 0x4 0 12 .rw 0
def GDRV_BIND3_BIT : Fam := fld 0x1002002C 0 14 .rw 0
def GDRV_BIND_EN : Fam := fld1 0x10020020 5 0x4 15 1 .rw 0
def GDRV_AUXCTL_MODE : Fam := fld 0x10020034 0 1 .rw 0
def GDRV_STAT_CPERR : Fam := fld 0x10020038 0 1 .w1c 0
def GDRV_STAT_DUTYSAT : Fam := fld 0x10020038 1 1 .w1c 0
def GDRV_STAT_BINDREF : Fam := fld 0x10020038 2 1 .w1c 0
def GDRV_STAT_SHORTX : Fam := fld 0x10020038 3 1 .w1c 0

def block32 : List Fam :=
  [GDRV_PWM_CTL_BEN, GDRV_PWM_CTL_SVBEN, GDRV_PWM_CTL_RUN, GDRV_CP_CP, GDRV_DT_DT, GDRV_DT_MINPW, GDRV_CPACT_CP, GDRV_DUTYU_D, GDRV_DUTYV_D, GDRV_DUTYW_D, GDRV_DUTYAUX_D, GDRV_BIND_WORD] ++
  [GDRV_BIND3_BIT, GDRV_BIND_EN, GDRV_AUXCTL_MODE, GDRV_STAT_CPERR, GDRV_STAT_DUTYSAT, GDRV_STAT_BINDREF, GDRV_STAT_SHORTX]

/-! DLNK (16) -/
def DLNK_CTL_CHEN : Fam := fld 0x10021000 0 1 .rw 0
def DLNK_CTL_CHMODE : Fam := fld 0x10021000 1 1 .rw 0
def DLNK_CTL_ONSRC : Fam := fld 0x10021000 2 1 .rw 0
def DLNK_CTL_TRIPEN : Fam := fld 0x10021000 3 1 .rw 1
def DLNK_CTL_FILT : Fam := fld 0x10021000 8 5 .rw 10
def DLNK_STAT_CHON : Fam := fld 0x10021004 0 1 .ro 0
def DLNK_STAT_HYS : Fam := fld 0x10021004 1 1 .ro 0
def DLNK_STAT_CMPON : Fam := fld 0x10021004 2 1 .ro 0
def DLNK_STAT_CMPOFF : Fam := fld 0x10021004 3 1 .ro 0
def DLNK_STAT_CMPTRIP : Fam := fld 0x10021004 4 1 .ro 0
def DLNK_STAT_UV : Fam := fld 0x10021004 5 1 .ro 0
def DLNK_STAT_THW : Fam := fld 0x10021004 6 1 .ro 0
def DLNK_STAT_THL : Fam := fld 0x10021004 7 1 .ro 0
def DLNK_STAT_TRIPL : Fam := fld 0x10021004 8 1 .w1c 0
def DLNK_STAT_CAPPED : Fam := fld 0x10021004 9 1 .ro 0
def DLNK_STAT_BINDREF : Fam := fld 0x10021004 10 1 .w1c 0
def DLNK_THON_K : Fam := fld 0x10021008 0 12 .rw 4095
def DLNK_THOFF_K : Fam := fld 0x1002100C 0 12 .rw 4000
def DLNK_THTRIP_K : Fam := fld 0x10021010 0 12 .rw 4095
def DLNK_UV_TH : Fam := fld 0x10021014 0 24 .rw 0
def DLNK_UVHYS_H : Fam := fld 0x10021018 0 24 .rw 0
def DLNK_KV_V : Fam := fld 0x1002101C 0 32 .rw 0
def DLNK_CHDUTY_D : Fam := fld 0x10021020 0 17 .rw 0
def DLNK_CHBIND_WORD : Fam := fld 0x10021024 0 12 .rw 0
def DLNK_CHBIND_EN : Fam := fld 0x10021024 15 1 .rw 0
def DLNK_BRES_MOHM : Fam := fld 0x10021028 0 32 .rw 0
def DLNK_BRTH_MKW : Fam := fld 0x1002102C 0 32 .rw 0
def DLNK_BRTAU_MS : Fam := fld 0x10021030 0 32 .rw 0
def DLNK_BRLIM_WARN : Fam := fld 0x10021034 0 12 .rw 4095
def DLNK_BRLIM_LIM : Fam := fld 0x10021034 16 12 .rw 4095
def DLNK_BRCAP_LIMCAP : Fam := fld 0x10021038 0 8 .rw 32
def DLNK_BRCAP_HYS : Fam := fld 0x10021038 8 8 .rw 10
def DLNK_BRTEMP_MK : Fam := fld 0x1002103C 0 32 .rw 0
def DLNK_CHONT_T : Fam := fld 0x10021040 0 32 .ro 0
def DLNK_ROLL_COMP : Fam := fld 0x10021044 0 5 .wo 0
def DLNK_ROLL_GO : Fam := fld 0x10021044 8 1 .wo 0
def DLNK_ROLLST_BUSY : Fam := fld 0x10021048 0 1 .ro 0
def DLNK_ROLLST_COMP : Fam := fld 0x10021048 8 5 .ro 0
def DLNK_ROLLST_STATUS : Fam := fld 0x10021048 16 8 .ro 0
def DLNK_ROLLPASS_P : Fam := fld 0x1002104C 0 32 .ro 0
def DLNK_ROLLDLT_DELTA : Fam := fld 0x10021050 0 5 .rw 10
def DLNK_CNT_TRIPS : Fam := fld 0x10021054 0 16 .ro 0
def DLNK_CNT_RFAIL : Fam := fld 0x10021054 16 16 .ro 0

def block33 : List Fam :=
  [DLNK_CTL_CHEN, DLNK_CTL_CHMODE, DLNK_CTL_ONSRC, DLNK_CTL_TRIPEN, DLNK_CTL_FILT, DLNK_STAT_CHON, DLNK_STAT_HYS, DLNK_STAT_CMPON, DLNK_STAT_CMPOFF, DLNK_STAT_CMPTRIP, DLNK_STAT_UV, DLNK_STAT_THW] ++
  [DLNK_STAT_THL, DLNK_STAT_TRIPL, DLNK_STAT_CAPPED, DLNK_STAT_BINDREF, DLNK_THON_K, DLNK_THOFF_K, DLNK_THTRIP_K, DLNK_UV_TH, DLNK_UVHYS_H, DLNK_KV_V, DLNK_CHDUTY_D, DLNK_CHBIND_WORD] ++
  [DLNK_CHBIND_EN, DLNK_BRES_MOHM, DLNK_BRTH_MKW, DLNK_BRTAU_MS, DLNK_BRLIM_WARN, DLNK_BRLIM_LIM, DLNK_BRCAP_LIMCAP, DLNK_BRCAP_HYS, DLNK_BRTEMP_MK, DLNK_CHONT_T, DLNK_ROLL_COMP, DLNK_ROLL_GO] ++
  [DLNK_ROLLST_BUSY, DLNK_ROLLST_COMP, DLNK_ROLLST_STATUS, DLNK_ROLLPASS_P, DLNK_ROLLDLT_DELTA, DLNK_CNT_TRIPS, DLNK_CNT_RFAIL]

/-! LIFE (17) -/
def LIFE_CTL_EN : Fam := fld 0x10022000 0 1 .rw 0
def LIFE_CTL_SETTLE : Fam := fld 0x10022000 8 8 .rw 50
def LIFE_CTL_WBINT : Fam := fld 0x10022000 16 16 .rw 600
def LIFE_STAT_PEN : Fam := fld 0x10022004 0 1 .ro 0
def LIFE_STAT_N95 : Fam := fld 0x10022004 1 1 .ro 0
def LIFE_STAT_EOL : Fam := fld 0x10022004 2 1 .ro 0
def LIFE_STAT_BLOCK : Fam := fld 0x10022004 3 1 .ro 1
def LIFE_STAT_ENREF : Fam := fld 0x10022004 4 1 .w1c 0
def LIFE_STAT_NOREC : Fam := fld 0x10022004 5 1 .ro 1
def LIFE_STAT_TJHI : Fam := fld 0x10022004 6 1 .ro 0
def LIFE_STAT_WBERR : Fam := fld 0x10022004 7 1 .w1c 0
def LIFE_D_LO_V : Fam := fld 0x10022008 0 32 .rs 0
def LIFE_D_HI_V : Fam := fld 0x1002200C 0 32 .ro 0
def LIFE_DS_LO_V : Fam := fld1 0x10022010 6 0x8 0 32 .rs 0
def LIFE_DS_HI_V : Fam := fld1 0x10022014 6 0x8 0 32 .ro 0
def LIFE_TJ_T : Fam := fld1 0x10022040 6 0x4 0 32 .ro 0
def LIFE_KV_K : Fam := fld 0x10022058 0 32 .rw 0
def LIFE_KI_K : Fam := fld 0x1002205C 0 32 .rw 0
def LIFE_NTCC_C : Fam := fld1 0x10022060 4 0x4 0 32 .rw 0
def LIFE_NTCMAP_M : Fam := fld 0x10022070 0 6 .rw 48
def LIFE_CYC_N : Fam := fld 0x10022074 0 32 .ro 0

def block34 : List Fam :=
  [LIFE_CTL_EN, LIFE_CTL_SETTLE, LIFE_CTL_WBINT, LIFE_STAT_PEN, LIFE_STAT_N95, LIFE_STAT_EOL, LIFE_STAT_BLOCK, LIFE_STAT_ENREF, LIFE_STAT_NOREC, LIFE_STAT_TJHI, LIFE_STAT_WBERR, LIFE_D_LO_V] ++
  [LIFE_D_HI_V, LIFE_DS_LO_V, LIFE_DS_HI_V, LIFE_TJ_T, LIFE_KV_K, LIFE_KI_K, LIFE_NTCC_C, LIFE_NTCMAP_M, LIFE_CYC_N]

/-! SADC (18) -/
def SADC_IMG_EN : Fam := fld 0x10023000 0 1 .rw 0
def SADC_IMG_BASE : Fam := fld 0x10023000 4 12 .rw 0
def SADC_STAT_VLAST : Fam := fld 0x10023004 0 16 .ro 0
def SADC_STAT_CFGERR : Fam := fld 0x10023004 16 1 .w1c 0
def SADC_OCCTL_TRIPEN : Fam := fld 0x10023008 0 1 .rw 1
def SADC_OCCTL_FILT : Fam := fld 0x10023008 4 5 .rw 5
def SADC_OCSTAT_LATCH : Fam := fld 0x1002300C 0 3 .w1c 0
def SADC_OCSTAT_CMP : Fam := fld 0x1002300C 4 3 .ro 0
def SADC_OCSTAT_ENREF : Fam := fld 0x1002300C 8 1 .w1c 0
def SADC_OC_THR : Fam := fld1 0x10023010 3 0x4 0 12 .rw 4095
def SADC_OC_EN : Fam := fld1 0x10023010 3 0x4 15 1 .rw 0
def SADC_OC_THACT : Fam := fld1 0x10023010 3 0x4 16 12 .ro 4095
def SADC_CH_CFG_EN : Fam := fld1 0x10023040 16 0x10 0 1 .rw 0
def SADC_CH_CFG_MUX : Fam := fld1 0x10023040 16 0x10 1 2 .rw 0
def SADC_CH_CFG_GAIN : Fam := fld1 0x10023040 16 0x10 4 3 .rw 0
def SADC_CH_CFG_FIFOEN : Fam := fld1 0x10023040 16 0x10 8 1 .rw 0
def SADC_CH_CFG_OSR : Fam := fld1 0x10023040 16 0x10 16 11 .rw 256
def SADC_CH_PH_PH : Fam := fld1 0x10023044 16 0x10 0 10 .rw 0
def SADC_CH_OFS_OFS : Fam := fld1 0x10023048 16 0x10 0 24 .rw 0
def SADC_CH_LAST_W : Fam := fld1 0x1002304C 16 0x10 0 32 .ro 0
def SADC_FIFO_W : Fam := fld1 0x10023200 16 0x4 0 32 .rs 0
def SADC_FSTAT_FILL : Fam := fld1 0x10023240 16 0x4 0 6 .ro 0
def SADC_FSTAT_DROP : Fam := fld1 0x10023240 16 0x4 16 16 .w1c 0
def SADC_CNT_OVR : Fam := fld1 0x10023280 16 0x4 0 16 .ro 0
def SADC_CNT_INV : Fam := fld1 0x10023280 16 0x4 16 16 .ro 0

def block35 : List Fam :=
  [SADC_IMG_EN, SADC_IMG_BASE, SADC_STAT_VLAST, SADC_STAT_CFGERR, SADC_OCCTL_TRIPEN, SADC_OCCTL_FILT, SADC_OCSTAT_LATCH, SADC_OCSTAT_CMP, SADC_OCSTAT_ENREF, SADC_OC_THR, SADC_OC_EN, SADC_OC_THACT] ++
  [SADC_CH_CFG_EN, SADC_CH_CFG_MUX, SADC_CH_CFG_GAIN, SADC_CH_CFG_FIFOEN, SADC_CH_CFG_OSR, SADC_CH_PH_PH, SADC_CH_OFS_OFS, SADC_CH_LAST_W, SADC_FIFO_W, SADC_FSTAT_FILL, SADC_FSTAT_DROP, SADC_CNT_OVR] ++
  [SADC_CNT_INV]

/-! AOUT (19) -/
def AOUT_CH_CFG_SRC : Fam := fld1 0x10024000 8 0x10 0 2 .rw 0
def AOUT_CH_CFG_WORD : Fam := fld1 0x10024000 8 0x10 16 12 .rw 0
def AOUT_CH_CODE_C : Fam := fld1 0x10024004 8 0x10 0 16 .rw 0
def AOUT_CH_FB_C : Fam := fld1 0x10024008 8 0x10 0 16 .rw 0
def AOUT_CH_OUT_C : Fam := fld1 0x1002400C 8 0x10 0 16 .ro 0
def AOUT_CH_OUT_FBACT : Fam := fld1 0x1002400C 8 0x10 16 1 .ro 1
def AOUT_CH_OUT_SKIP : Fam := fld1 0x1002400C 8 0x10 24 8 .w1c 0
def AOUT_STAT_CFGERR : Fam := fld 0x10024080 0 1 .w1c 0
def AOUT_STAT_BINDREF : Fam := fld 0x10024080 1 1 .w1c 0

def block36 : List Fam :=
  [AOUT_CH_CFG_SRC, AOUT_CH_CFG_WORD, AOUT_CH_CODE_C, AOUT_CH_FB_C, AOUT_CH_OUT_C, AOUT_CH_OUT_FBACT, AOUT_CH_OUT_SKIP, AOUT_STAT_CFGERR, AOUT_STAT_BINDREF]

/-! WAVE (19) -/
def WAVE_CH_START_S : Fam := fld1 0x10025000 8 0x20 0 15 .rw 0
def WAVE_CH_LEN_L : Fam := fld1 0x10025004 8 0x20 0 16 .rw 0
def WAVE_CH_DIV_D : Fam := fld1 0x10025008 8 0x20 0 24 .rw 200
def WAVE_CH_CTL_TRIG : Fam := fld1 0x1002500C 8 0x20 0 2 .rw 0
def WAVE_CH_CTL_REARM : Fam := fld1 0x1002500C 8 0x20 2 1 .rw 0
def WAVE_CH_CTL_LOOPEV : Fam := fld1 0x1002500C 8 0x20 3 1 .rw 0
def WAVE_CH_CTL_ARM : Fam := fld1 0x1002500C 8 0x20 4 1 .wo 0
def WAVE_CH_CTL_STOP : Fam := fld1 0x1002500C 8 0x20 5 1 .wo 0
def WAVE_CH_CTL_EVSRC : Fam := fld1 0x1002500C 8 0x20 16 9 .rw 0
def WAVE_CH_PASS_N : Fam := fld1 0x10025010 8 0x20 0 16 .rw 1
def WAVE_CH_PASS_DONE : Fam := fld1 0x10025010 8 0x20 16 16 .ro 0
def WAVE_CH_STAT_STATE : Fam := fld1 0x10025014 8 0x20 0 2 .ro 0
def WAVE_CH_STAT_MISS : Fam := fld1 0x10025014 8 0x20 2 1 .w1c 0
def WAVE_CH_STAT_ERR : Fam := fld1 0x10025014 8 0x20 4 4 .w1c 0
def WAVE_CH_STAT_POS : Fam := fld1 0x10025014 8 0x20 16 15 .ro 0

def block37 : List Fam :=
  [WAVE_CH_START_S, WAVE_CH_LEN_L, WAVE_CH_DIV_D, WAVE_CH_CTL_TRIG, WAVE_CH_CTL_REARM, WAVE_CH_CTL_LOOPEV, WAVE_CH_CTL_ARM, WAVE_CH_CTL_STOP, WAVE_CH_CTL_EVSRC, WAVE_CH_PASS_N, WAVE_CH_PASS_DONE, WAVE_CH_STAT_STATE] ++
  [WAVE_CH_STAT_MISS, WAVE_CH_STAT_ERR, WAVE_CH_STAT_POS]

/-! DIO (20) -/
def DIO_CTL_CLR : Fam := fld 0x10026000 0 1 .wo 0
def DIO_CTL_AUTOCLR : Fam := fld 0x10026000 8 8 .rw 0
def DIO_STAT_FAULT : Fam := fld 0x10026004 0 1 .ro 0
def DIO_STAT_UV : Fam := fld 0x10026004 1 1 .ro 0
def DIO_STAT_CFGERR : Fam := fld 0x10026004 2 1 .w1c 0
def DIO_STAT_BINDREF : Fam := fld 0x10026004 3 1 .w1c 0
def DIO_STAT_WALKERR : Fam := fld 0x10026004 4 1 .w1c 0
def DIO_DI_STATE_S : Fam := fld 0x10026008 0 32 .ro 0
def DIO_DI_RAW_S : Fam := fld 0x1002600C 0 32 .ro 0
def DIO_DI_TYPE_T : Fam := fld 0x10026010 0 32 .rw 0
def DIO_DI_WBEN_E : Fam := fld 0x10026014 0 32 .rw 0
def DIO_DI_EDGE_LO_E : Fam := fld 0x10026018 0 32 .rw 4294967295
def DIO_DI_EDGE_HI_E : Fam := fld 0x1002601C 0 32 .rw 4294967295
def DIO_IBIND_EN : Fam := fld 0x10026020 0 1 .rw 0
def DIO_IBIND_BYTE : Fam := fld 0x10026020 16 11 .rw 0
def DIO_DO_SV_L : Fam := fld 0x10026024 0 16 .rw 0
def DIO_DO_FB_L : Fam := fld 0x10026028 0 16 .rw 0
def DIO_DO_STATE_CMD : Fam := fld 0x1002602C 0 16 .ro 0
def DIO_DO_STATE_FBACT : Fam := fld 0x1002602C 16 16 .ro 65535
def DIO_WALK_GO : Fam := fld 0x10026030 0 1 .wo 0
def DIO_WALK_ABORT : Fam := fld 0x10026030 1 1 .wo 0
def DIO_WALK_LEVEL : Fam := fld 0x10026030 2 1 .rw 0
def DIO_WALK_BASE : Fam := fld 0x10026030 3 1 .ro 0
def DIO_WALK_DWELL : Fam := fld 0x10026030 8 8 .rw 20
def DIO_WALK_STATE : Fam := fld 0x10026030 16 2 .ro 0
def DIO_WALK_CUR : Fam := fld 0x10026030 24 6 .ro 0
def DIO_WALK_OMASK_M : Fam := fld 0x10026034 0 16 .rw 0
def DIO_WALK_IMASK_M : Fam := fld 0x10026038 0 32 .rw 0
def DIO_WALK_ORES_R : Fam := fld 0x1002603C 0 16 .ro 0
def DIO_WALK_IRES_R : Fam := fld 0x10026040 0 32 .ro 0
def DIO_DB_US : Fam := fld1 0x10026100 32 0x4 0 16 .rw 1000
def DIO_ECNT_A : Fam := fld1 0x10026180 16 0x4 0 16 .ro 0
def DIO_ECNT_B : Fam := fld1 0x10026180 16 0x4 16 16 .ro 0
def DIO_DO_CFG_BIT : Fam := fld1 0x10026200 16 0x4 0 14 .rw 0
def DIO_DO_CFG_SRC : Fam := fld1 0x10026200 16 0x4 16 2 .rw 0

def block38 : List Fam :=
  [DIO_CTL_CLR, DIO_CTL_AUTOCLR, DIO_STAT_FAULT, DIO_STAT_UV, DIO_STAT_CFGERR, DIO_STAT_BINDREF, DIO_STAT_WALKERR, DIO_DI_STATE_S, DIO_DI_RAW_S, DIO_DI_TYPE_T, DIO_DI_WBEN_E, DIO_DI_EDGE_LO_E] ++
  [DIO_DI_EDGE_HI_E, DIO_IBIND_EN, DIO_IBIND_BYTE, DIO_DO_SV_L, DIO_DO_FB_L, DIO_DO_STATE_CMD, DIO_DO_STATE_FBACT, DIO_WALK_GO, DIO_WALK_ABORT, DIO_WALK_LEVEL, DIO_WALK_BASE, DIO_WALK_DWELL] ++
  [DIO_WALK_STATE, DIO_WALK_CUR, DIO_WALK_OMASK_M, DIO_WALK_IMASK_M, DIO_WALK_ORES_R, DIO_WALK_IRES_R, DIO_DB_US, DIO_ECNT_A, DIO_ECNT_B, DIO_DO_CFG_BIT, DIO_DO_CFG_SRC]

/-! LANT (25) -/
def LANT_CTL_TURNPOL : Fam := fld 0x10027000 0 2 .rw 0
def LANT_CTL_HALTRST : Fam := fld 0x10027000 8 5 .rw 0
def LANT_CTL_IDLETO : Fam := fld 0x10027000 16 8 .rw 30
def LANT_CTL_SYSRST : Fam := fld 0x10027000 24 1 .wo 0
def LANT_STAT_ATT : Fam := fld 0x10027004 0 1 .ro 0
def LANT_STAT_WIRE : Fam := fld 0x10027004 1 1 .ro 0
def LANT_STAT_MON : Fam := fld 0x10027004 2 1 .ro 0
def LANT_STAT_EMUSTBY : Fam := fld 0x10027004 3 1 .ro 0
def LANT_STAT_LOCKOUT : Fam := fld 0x10027004 4 1 .ro 0
def LANT_STAT_OWNREF : Fam := fld 0x10027004 5 1 .w1c 0
def LANT_STAT_STEPERR : Fam := fld 0x10027004 6 1 .w1c 0
def LANT_STAT_WERR : Fam := fld 0x10027004 8 8 .ro 0
def LANT_HALTREQ_HALT : Fam := fld 0x10027008 0 5 .wo 0
def LANT_HALTREQ_RESUME : Fam := fld 0x10027008 8 5 .wo 0
def LANT_HALTREQ_STEP : Fam := fld 0x10027008 16 5 .wo 0
def LANT_HALTREQ_FORCE : Fam := fld 0x10027008 24 1 .wo 0
def LANT_HALTST_HALTED : Fam := fld 0x1002700C 0 5 .ro 0
def LANT_HALTST_PENDING : Fam := fld 0x1002700C 8 5 .ro 0
def LANT_HGRP_G : Fam := fld 0x10027010 0 10 .rw 0
def LANT_ACC_ADDR_A : Fam := fld 0x10027014 0 32 .rw 0
def LANT_ACC_DATA_D : Fam := fld 0x10027018 0 32 .rw 0
def LANT_ACC_CTL_SIZE : Fam := fld 0x1002701C 0 2 .rw 2
def LANT_ACC_CTL_WRITE : Fam := fld 0x1002701C 4 1 .rw 0
def LANT_ACC_CTL_LOUD : Fam := fld 0x1002701C 5 1 .rw 0
def LANT_ACC_CTL_GO : Fam := fld 0x1002701C 8 1 .wo 0
def LANT_ACC_STAT_BUSY : Fam := fld 0x10027020 0 1 .ro 0
def LANT_ACC_STAT_STATUS : Fam := fld 0x10027020 1 3 .ro 0
def LANT_E_WHY_REASON : Fam := fld1 0x10027040 5 0x40 0 4 .ro 0
def LANT_E_WHY_INDEX : Fam := fld1 0x10027040 5 0x40 4 2 .ro 0
def LANT_E_WHY_DEFER : Fam := fld1 0x10027040 5 0x40 8 1 .ro 0
def LANT_E_PC_PC : Fam := fld1 0x10027044 5 0x40 0 29 .ro 0
def LANT_E_PC_BANK : Fam := fld1 0x10027044 5 0x40 31 1 .ro 0
def LANT_E_BP_IDX : Fam := fld2 0x10027048 5 0x40 4 0x4 0 29 .rw 0
def LANT_E_BP_BANK : Fam := fld2 0x10027048 5 0x40 4 0x4 30 1 .rw 0
def LANT_E_BP_EN : Fam := fld2 0x10027048 5 0x40 4 0x4 31 1 .rw 0
def LANT_E_WP_ADDR_A : Fam := fld2 0x10027058 5 0x40 2 0xC 0 32 .rw 0
def LANT_E_WP_CFG_KIND : Fam := fld2 0x1002705C 5 0x40 2 0xC 0 2 .rw 3
def LANT_E_WP_CFG_VALEN : Fam := fld2 0x1002705C 5 0x40 2 0xC 2 1 .rw 0
def LANT_E_WP_CFG_MASK : Fam := fld2 0x1002705C 5 0x40 2 0xC 4 4 .rw 0
def LANT_E_WP_CFG_EN : Fam := fld2 0x1002705C 5 0x40 2 0xC 31 1 .rw 0
def LANT_E_WP_VAL_V : Fam := fld2 0x10027060 5 0x40 2 0xC 0 32 .rw 0
def LANT_E_SEL_PORT : Fam := fld1 0x10027070 5 0x40 0 11 .rw 0
def LANT_E_SEL_BANK : Fam := fld1 0x10027070 5 0x40 12 4 .rw 15
def LANT_E_DATA_V : Fam := fld1 0x10027074 5 0x40 0 32 .rw 0
def LANT_E_CORE_PEND : Fam := fld1 0x10027078 5 0x40 0 1 .ro 0
def LANT_E_CORE_ACC : Fam := fld1 0x10027078 5 0x40 1 1 .ro 0
def LANT_E_CORE_BSD : Fam := fld1 0x10027078 5 0x40 2 6 .ro 0
def LANT_E_CORE_RSD : Fam := fld1 0x10027078 5 0x40 8 5 .ro 0
def LANT_E_CORE_UVALID : Fam := fld1 0x10027078 5 0x40 13 1 .ro 0
def LANT_E_CORE_U : Fam := fld1 0x10027078 5 0x40 14 14 .ro 0
def LANT_E_CORE_PRIV : Fam := fld1 0x10027078 5 0x40 28 2 .ro 0

def block39 : List Fam :=
  [LANT_CTL_TURNPOL, LANT_CTL_HALTRST, LANT_CTL_IDLETO, LANT_CTL_SYSRST, LANT_STAT_ATT, LANT_STAT_WIRE, LANT_STAT_MON, LANT_STAT_EMUSTBY, LANT_STAT_LOCKOUT, LANT_STAT_OWNREF, LANT_STAT_STEPERR, LANT_STAT_WERR] ++
  [LANT_HALTREQ_HALT, LANT_HALTREQ_RESUME, LANT_HALTREQ_STEP, LANT_HALTREQ_FORCE, LANT_HALTST_HALTED, LANT_HALTST_PENDING, LANT_HGRP_G, LANT_ACC_ADDR_A, LANT_ACC_DATA_D, LANT_ACC_CTL_SIZE, LANT_ACC_CTL_WRITE, LANT_ACC_CTL_LOUD] ++
  [LANT_ACC_CTL_GO, LANT_ACC_STAT_BUSY, LANT_ACC_STAT_STATUS, LANT_E_WHY_REASON, LANT_E_WHY_INDEX, LANT_E_WHY_DEFER, LANT_E_PC_PC, LANT_E_PC_BANK, LANT_E_BP_IDX, LANT_E_BP_BANK, LANT_E_BP_EN, LANT_E_WP_ADDR_A] ++
  [LANT_E_WP_CFG_KIND, LANT_E_WP_CFG_VALEN, LANT_E_WP_CFG_MASK, LANT_E_WP_CFG_EN, LANT_E_WP_VAL_V, LANT_E_SEL_PORT, LANT_E_SEL_BANK, LANT_E_DATA_V, LANT_E_CORE_PEND, LANT_E_CORE_ACC, LANT_E_CORE_BSD, LANT_E_CORE_RSD] ++
  [LANT_E_CORE_UVALID, LANT_E_CORE_U, LANT_E_CORE_PRIV]

/-! UPD (26) -/
def UPD_CTL_HOSCHED : Fam := fld 0x10028000 0 1 .rw 0
def UPD_STAT_BUSY : Fam := fld 0x10028004 0 1 .ro 0
def UPD_STAT_SUSP : Fam := fld 0x10028004 1 1 .ro 0
def UPD_STAT_OPERR : Fam := fld 0x10028004 2 1 .w1c 0
def UPD_STAT_ERR : Fam := fld 0x10028004 8 8 .ro 0
def UPD_FADDR_A : Fam := fld 0x10028008 0 32 .rw 0
def UPD_FCMD_OP : Fam := fld 0x1002800C 0 3 .wo 0
def UPD_FCMD_LEN : Fam := fld 0x1002800C 8 8 .wo 0
def UPD_CRC_LEN_N : Fam := fld 0x10028010 0 32 .rw 0
def UPD_CRC_VAL_C : Fam := fld 0x10028014 0 32 .ro 0
def UPD_AT_LO_A : Fam := fld 0x10028018 0 32 .rw 0
def UPD_AT_HI_A : Fam := fld 0x1002801C 0 32 .rw 0
def UPD_HREC_SIZE : Fam := fld 0x10028020 0 4 .rw 4
def UPD_HREC_BASE : Fam := fld 0x10028020 12 20 .rw 8572
def UPD_BOOT_BANK : Fam := fld 0x10028024 0 1 .ro 0
def UPD_BOOT_FALLBACK : Fam := fld 0x10028024 1 1 .w1c 0
def UPD_BOOT_FBREASON : Fam := fld 0x10028024 4 2 .ro 0
def UPD_BOOT_TRIAL : Fam := fld 0x10028024 8 1 .ro 0
def UPD_FINFO_MIB : Fam := fld 0x10028028 0 16 .ro 0
def UPD_FINFO_OK : Fam := fld 0x10028028 16 1 .ro 0

def block40 : List Fam :=
  [UPD_CTL_HOSCHED, UPD_STAT_BUSY, UPD_STAT_SUSP, UPD_STAT_OPERR, UPD_STAT_ERR, UPD_FADDR_A, UPD_FCMD_OP, UPD_FCMD_LEN, UPD_CRC_LEN_N, UPD_CRC_VAL_C, UPD_AT_LO_A, UPD_AT_HI_A] ++
  [UPD_HREC_SIZE, UPD_HREC_BASE, UPD_BOOT_BANK, UPD_BOOT_FALLBACK, UPD_BOOT_FBREASON, UPD_BOOT_TRIAL, UPD_FINFO_MIB, UPD_FINFO_OK]

/-! DMAa (09) -/
def DMA_CTL_EN : Fam := fld1 0x10029000 4 0x20 0 1 .rw 0
def DMA_CTL_START : Fam := fld1 0x10029000 4 0x20 1 1 .wo 0
def DMA_CTL_STOP : Fam := fld1 0x10029000 4 0x20 2 1 .wo 0
def DMA_CTL_BURST : Fam := fld1 0x10029000 4 0x20 4 4 .rw 6
def DMA_CTL_TRIGSRC : Fam := fld1 0x10029000 4 0x20 10 9 .rw 0
def DMA_CTL_ERRK : Fam := fld1 0x10029000 4 0x20 20 3 .rw 0
def DMA_STAT_IDLE : Fam := fld1 0x10029004 4 0x20 0 1 .ro 1
def DMA_STAT_BUSY : Fam := fld1 0x10029004 4 0x20 1 1 .ro 0
def DMA_STAT_WAITTRIG : Fam := fld1 0x10029004 4 0x20 2 1 .ro 0
def DMA_STAT_ERR : Fam := fld1 0x10029004 4 0x20 8 4 .w1c 0
def DMA_DESC_A : Fam := fld1 0x10029008 4 0x20 4 28 .rw 0
def DMA_CUR_A : Fam := fld1 0x1002900C 4 0x20 0 32 .ro 0
def DMA_ERRADDR_A : Fam := fld1 0x10029010 4 0x20 0 32 .ro 0
def DMA_CNT_DONE : Fam := fld1 0x10029014 4 0x20 0 16 .ro 0
def DMA_CNT_ERRS : Fam := fld1 0x10029014 4 0x20 16 16 .ro 0

def block41 : List Fam :=
  [DMA_CTL_EN, DMA_CTL_START, DMA_CTL_STOP, DMA_CTL_BURST, DMA_CTL_TRIGSRC, DMA_CTL_ERRK, DMA_STAT_IDLE, DMA_STAT_BUSY, DMA_STAT_WAITTRIG, DMA_STAT_ERR, DMA_DESC_A, DMA_CUR_A] ++
  [DMA_ERRADDR_A, DMA_CNT_DONE, DMA_CNT_ERRS]

/-! CRYPTO (14) -/
def CRYPTO_SUBMIT_ADDR : Fam := fld 0x1002A000 5 27 .wo 0
def CRYPTO_STAT_SVFREE : Fam := fld 0x1002A004 0 4 .ro 8
def CRYPTO_STAT_CMFREE : Fam := fld 0x1002A004 8 5 .ro 16
def CRYPTO_STAT_BUSY : Fam := fld 0x1002A004 16 1 .ro 0
def CRYPTO_DONECNT_N : Fam := fld 0x1002A008 0 32 .ro 0
def CRYPTO_KEYSEL_SLOT : Fam := fld 0x1002A00C 0 5 .rw 0
def CRYPTO_KEYSEL_WORD : Fam := fld 0x1002A00C 8 3 .rw 0
def CRYPTO_KEYDATA_W : Fam := fld 0x1002A010 0 32 .wo 0
def CRYPTO_KEYCLR_M : Fam := fld 0x1002A014 0 24 .wo 0
def CRYPTO_RNG_R : Fam := fld 0x1002A018 0 32 .rs 0

def block42 : List Fam :=
  [CRYPTO_SUBMIT_ADDR, CRYPTO_STAT_SVFREE, CRYPTO_STAT_CMFREE, CRYPTO_STAT_BUSY, CRYPTO_DONECNT_N, CRYPTO_KEYSEL_SLOT, CRYPTO_KEYSEL_WORD, CRYPTO_KEYDATA_W, CRYPTO_KEYCLR_M, CRYPTO_RNG_R]

/-! BRICK (17) -/
def BRICK_CTL_EN : Fam := fld 0x1002B000 0 1 .rw 1
def BRICK_CTL_ADDR : Fam := fld 0x1002B000 1 7 .rw 80
def BRICK_STAT_PRESENT : Fam := fld 0x1002B004 0 1 .ro 0
def BRICK_STAT_IDVALID : Fam := fld 0x1002B004 1 1 .ro 0
def BRICK_STAT_LIFEVALID : Fam := fld 0x1002B004 2 1 .ro 0
def BRICK_STAT_BUSY : Fam := fld 0x1002B004 3 1 .ro 0
def BRICK_STAT_ERR : Fam := fld 0x1002B004 8 4 .w1c 0
def BRICK_STAT_COPY : Fam := fld 0x1002B004 12 1 .ro 0
def BRICK_STAT_NOTE : Fam := fld 0x1002B004 13 1 .ro 0
def BRICK_CMD_READ : Fam := fld 0x1002B008 0 1 .wo 0
def BRICK_CMD_WB : Fam := fld 0x1002B008 1 1 .wo 0
def BRICK_SERIAL_S : Fam := fld1 0x1002B00C 4 0x4 0 32 .ro 0
def BRICK_IDCRC_C : Fam := fld 0x1002B01C 0 32 .ro 0
def BRICK_WCNT_N : Fam := fld 0x1002B020 0 32 .ro 0
def BRICK_ERRCNT_LINK : Fam := fld 0x1002B024 0 16 .ro 0
def BRICK_ERRCNT_VERIFY : Fam := fld 0x1002B024 16 16 .ro 0

def block43 : List Fam :=
  [BRICK_CTL_EN, BRICK_CTL_ADDR, BRICK_STAT_PRESENT, BRICK_STAT_IDVALID, BRICK_STAT_LIFEVALID, BRICK_STAT_BUSY, BRICK_STAT_ERR, BRICK_STAT_COPY, BRICK_STAT_NOTE, BRICK_CMD_READ, BRICK_CMD_WB, BRICK_SERIAL_S] ++
  [BRICK_IDCRC_C, BRICK_WCNT_N, BRICK_ERRCNT_LINK, BRICK_ERRCNT_VERIFY]

/-- The fields of peripheral slot PS `n`; the slots of one kind (LE0-LE3, FP0-FP5, GDRV0-GDRV7) share a list. -/
def slotFams (n : Nat) : List Fam :=
  if n = 0 then block0
  else if n = 1 then block1
  else if n = 2 then block2
  else if n = 3 then block3
  else if n = 4 then block4
  else if n = 5 then block5
  else if n = 6 then block6
  else if n = 7 then block7
  else if 8 ≤ n ∧ n ≤ 11 then block8
  else if n = 12 then block12
  else if n = 13 then block13
  else if n = 14 then block14
  else if n = 15 then block15
  else if n = 16 then block16
  else if n = 17 then block17
  else if 18 ≤ n ∧ n ≤ 23 then block18
  else if 24 ≤ n ∧ n ≤ 31 then block24
  else if n = 32 then block32
  else if n = 33 then block33
  else if n = 34 then block34
  else if n = 35 then block35
  else if n = 36 then block36
  else if n = 37 then block37
  else if n = 38 then block38
  else if n = 39 then block39
  else if n = 40 then block40
  else if n = 41 then block41
  else if n = 42 then block42
  else if n = 43 then block43
  else []

end Sys2Proof.Machine.R
end

