-- ==== Sys2Proof/Machine/State.lean ====
section
/-! DEFINITION. Machine/State.lean: everything the spec gives the machine, as plain data; the machine right after reset; the
reasons a step can stop. Each docstring names the chapter of spec/ (by its number) and the rule. -/

namespace Sys2Proof.Machine


/-! ## Bilpor engines (03, 04) -/

/-- The function units whose operations can be in flight (04, R89). -/
inductive UnitId where
  | bu | alu | cmp | mul | div | fpuAdd | fpuDiv | tmr | lsu | far | img | lock | sys | mac
  deriving DecidableEq, Repr

/-- A far access on its way (04, R112). -/
structure FarReq where
  /-- store (true) or load -/
  store : Bool
  /-- byte address of the access -/
  addr : Nat
  /-- bytes: 1, 2 or 4 -/
  size : Nat
  /-- the load extends the sign -/
  signed : Bool
  /-- the value to store -/
  data : Word
  /-- privilege code of the requester at the trigger -/
  priv : Nat
  /-- the task whose instance issued it, if any (R93) -/
  task : Option Nat
  /-- on a following Shadow: the forwarded value has not come yet (12, R304) -/
  waits : Bool
  /-- of an SV load: CACHE of its region when it was issued (10, R244, R261) -/
  cache : Nat := 0
  deriving DecidableEq, Repr

/-- One operation in flight: what it writes, and the engine cycle from which it is readable (03, R68). -/
structure Flight where
  /-- the unit that was triggered -/
  unit : UnitId
  /-- first engine cycle in which the result is readable (R68) -/
  due : Nat
  /-- result ports written -/
  outs : List (Nat × Word)
  /-- accumulator value that becomes visible (04, R96) -/
  acc : Option Bool
  /-- FPU flags ORed in (04, R106) -/
  flags : Nat
  /-- clears the FPU flags first (`FPU.FCLR`) -/
  clr : Bool
  /-- software event raised (`SYS.EVT`) -/
  ev : Option Nat
  /-- the far access that this operation stands for, if it is one -/
  far : Option FarReq
  deriving DecidableEq, Repr

/-- One level of exception handling (03, R83, R84; 07, R177). -/
structure Nest where
  /-- entered while the engine was idle -/
  fromIdle : Bool
  /-- address of the frame -/
  frame : Nat
  /-- branch-stack floor in force before the entry -/
  floor : Option Nat
  deriving DecidableEq, Repr

/-- An open locked sequence (04, R119-R121). -/
structure LockSt where
  /-- the locked word (R119) -/
  addr : Nat
  /-- bundles issued, the opening one included -/
  count : Nat
  /-- another requester has written the word -/
  lost : Bool
  deriving DecidableEq, Repr

/-- A running customer macro (05, R128). -/
structure MacroRun where
  /-- directory entry of the running macro (R126) -/
  entry : Nat
  /-- next micro-move -/
  k : Nat
  /-- number of micro-moves -/
  n : Nat
  /-- M0-M7 -/
  temps : List Word
  /-- the trigger bundle -/
  trig : Nat
  /-- `MACRO.Q` before the trigger (R134) -/
  q0 : Word
  /-- earliest cycle of the next program bundle -/
  until_ : Nat
  /-- what else the trigger bundle did, taking effect after the macro: 0 nothing, 1 yield, 2 service call with `arg`, 3 return -/
  after : Nat
  /-- argument of that service call -/
  arg : Nat
  deriving DecidableEq, Repr

/-- A hardware timer (04, R109, R110): behaviour 0 none, 1 TON, 2 TOF, 3 TP. -/
structure Timer where
  /-- behaviour: which of the timer types of R108 to R110 runs -/
  kind : Nat
  /-- IN at the last evaluation -/
  lastIn : Bool
  /-- output Q -/
  q : Bool
  /-- start time is valid: the timer is timing -/
  timing : Bool
  /-- timer clock at which the timing began -/
  start : Nat
  deriving DecidableEq, Repr

/-- Why an engine issues nothing (03, R55; 01, R14; 07, R182). -/
inductive Stop where
  /-- may issue -/
  | none
  /-- held: before release after a reset, in Hold, Standby or Off -/
  | held
  /-- stopped in Umbra or by an engine fault -/
  | umbra
  /-- frozen (07, R180) -/
  | frozen
  deriving DecidableEq, Repr

/-- An engine: LE0-LE3 are 0-3, SV is 4. -/
structure Eng where
  /-- index (SV: bundle address) of the next bundle -/
  pc : Nat
  /-- engine cycles since release; one bundle is one cycle (03, R55) -/
  cyc : Nat
  /-- privilege code (03, R78) -/
  priv : Nat
  /-- an instance or a handler is on the engine -/
  live : Bool
  /-- why the engine issues nothing, if it does not -/
  stop : Stop
  /-- G bank in use, 0-12 (03, R81) -/
  gbank : Nat
  /-- G registers: bank `k` register `r < 32` at `32 k + r`, shared register `r ≥ 32` at `1000 + r`; SV at `1000 + r` -/
  g : Store Word
  /-- operand latches and result ports by port number (03, R69) -/
  ports : Store Word
  /-- accumulator as guards see it, and as the last BU operation in trigger order left it (04, R96) -/
  acc : Bool
  /-- accumulator as the last BU operation in trigger order left it (04, R96) -/
  accO : Bool
  /-- pending upper value (03, R63) -/
  upper : Option Nat
  /-- return stack, top first -/
  rets : List Nat
  /-- branch stack, top first: accumulator and code (04, R98) -/
  branch : List (Bool × Nat)
  /-- branch-stack floor (03, R84) -/
  floor : Option Nat
  /-- exception nesting, innermost first -/
  nest : List Nest
  /-- operations in flight, in trigger order -/
  flights : List Flight
  /-- `CSP` (03, R83; 04, R118) -/
  csp : Word
  /-- lower bound of `CSP` (04, R118) -/
  cspLo : Word
  /-- upper bound of `CSP` (04, R118) -/
  cspHi : Word
  /-- an open locked sequence (04, R119) -/
  lock : Option LockSt
  /-- `LOCK.BROKEN` -/
  broken : Bool
  /-- a macro that runs (05) -/
  mac : Option MacroRun
  /-- timer instances by number (04, R108) -/
  timers : Store Timer
  /-- 64-bit timer clock (04, R108) -/
  tclk : Nat
  /-- pending routed events (08, R207) -/
  routes : List Nat
  /-- the task whose instance is on the engine -/
  task : Option Nat
  /-- a debug single step is under way (25, R610) -/
  stepping : Bool
  /-- the next bundle does not meet its breakpoint again: the engine was resumed there (25, R611) -/
  skip : Bool
  /-- the engine waits for a forwarded far value (12, R304) -/
  stalled : Bool
  /-- crystal time at which the engine watchdog restarted last (07, R183) -/
  wdAt : Nat
  deriving DecidableEq, Repr

/-- An engine after the reset that releases it (03, R69; 04, R110; 09, R217, R228): everything zero, CSP at the bounds of its block. -/
def Eng.reset (e : Nat) : Eng :=
  { pc := 0, cyc := 0, priv := if e = 4 then 0 else 2, live := false, stop := .held, gbank := 0, g := [], ports := [],
    acc := false, accO := false, upper := none, rets := [], branch := [], floor := none, nest := [], flights := [],
    csp := BitVec.ofNat 32 (0xE0004000 + e * 0x4000), cspLo := BitVec.ofNat 32 (0xE0001000 + e * 0x4000),
    cspHi := BitVec.ofNat 32 (0xE0004000 + e * 0x4000), lock := none, broken := false, mac := none, timers := [],
    tclk := 0, routes := [], task := none, stepping := false, skip := false, stalled := false, wdAt := 0 }

/-! ## Tasks (06) -/

/-- Where an instance stands (06, `TSK.STn.STATE`); `ended` is yielded with operations still in flight (04, R116). -/
inductive InstSt where
  | ready | running | preempted | ended | complete
  deriving DecidableEq, Repr

/-- A task instance (06, R152, R156). -/
structure Inst where
  /-- ready, running, preempted or complete (06, R153) -/
  st : InstSt
  /-- order in which instances became ready (R153) -/
  order : Nat
  /-- cycles it may use (06, R157) -/
  budget : Nat
  /-- cycles charged so far (06, R157) -/
  charged : Nat
  /-- ticks since release (R158) -/
  ticks : Nat
  /-- A, farm time and timer clock of the release tick -/
  relTurn : Nat
  /-- farm time of the release tick -/
  relTick : Nat
  /-- timer clock of the release tick -/
  relClk : Nat
  /-- a release fell due while it was incomplete (06, R160) -/
  late : Bool
  /-- the warning of R157 has been raised -/
  warned : Bool
  /-- farm time at which it completed -/
  doneAt : Nat
  /-- exception nesting and floor of a preempted instance -/
  nest : List Nest
  /-- branch-stack floor of a preempted instance (03, R84) -/
  floor : Option Nat
  deriving DecidableEq, Repr

/-- What the sequencer keeps of a task beside its registers. -/
structure TaskSt where
  /-- the instance of the task, if it has one (06, R150) -/
  inst : Option Inst
  /-- completed instances not committed yet whose task has been released again, oldest first -/
  done : List Inst
  /-- timestamp of the last occurrence that passed the guard (R150) -/
  guard : Option Nat
  /-- enable as the sequencer uses it (R164) -/
  enabled : Bool
  /-- the outputs wait for the first commit (R168) -/
  await : Bool
  deriving DecidableEq, Repr

def TaskSt.reset : TaskSt := { inst := none, done := [], guard := none, enabled := false, await := true }

/-- The turn sequencer (06). -/
structure SeqSt where
  /-- the state of each task, by number -/
  tasks : Store TaskSt
  /-- tasks to be released at latch end -/
  due : List Nat
  /-- next order stamp -/
  stamp : Nat
  /-- between a tick and its latch end, and the farm time of that end -/
  inLatch : Bool
  /-- farm time of the end of the latch that runs -/
  latchAt : Nat
  /-- per engine: shedding is to begin (R162) at the next tick -/
  shedStart : List Nat
  /-- engines on which shedding begins at the tick that has come (R162) -/
  shedTick : List Nat
  /-- engines on which shedding ends at the tick that has come (R163) -/
  endTick : List Nat
  /-- per engine: clean completions of the watch task (R163) -/
  clean : Store Nat
  /-- per engine: CLEAR was written (R163) -/
  shedClear : List Nat
  /-- per engine: cycles charged in this turn (`TURN.UTILe`) -/
  util : Store Nat
  /-- A of the last tick (R148) -/
  abs : Nat
  /-- instances discarded since the last tick -/
  ndisc : Nat
  /-- SV's turn-bound work of the running turn has not been done: SV was halted when it fell due (02, R44) -/
  svOwed : Bool
  /-- tasks whose EN 1 took effect at this tick: their cyclic releases start at the first due tick after it (06, R164) -/
  fresh : List Nat
  /-- outputs are to follow the new owners at step 5 of a program switch (11, R275, R278) -/
  swOut : Bool
  deriving DecidableEq, Repr

def SeqSt.reset : SeqSt :=
  { tasks := [], due := [], stamp := 0, inLatch := false, latchAt := 0, shedStart := [], shedTick := [], endTick := [], clean := [], shedClear := [], util := [],
    abs := 0, ndisc := 0, svOwed := false, fresh := [], swOut := false }

/-! ## Time (02) -/

/-- Farm time, its steering, the RTC and its companions (02), beside their registers. -/
structure TimeSt where
  /-- farm time in ns, a multiple of 10 (R26) -/
  farm : Nat
  /-- share of a corrected cycle already owed, in 10^-9 (R27) -/
  spread : Nat
  /-- crystal time in ns since the first power-up -/
  real : Nat
  /-- fraction of a CD0 cycle passed, in 10^-9 (R47) -/
  cd0 : Nat
  /-- farm and crystal time of the last accepted edge, none after loss (R30, R34) -/
  lastEdge : Option (Nat × Nat)
  /-- DISC has been set to 1 since the last accepted edge, so that the next edge is a first one (R30) -/
  first : Bool
  /-- a loss came since, so that the next edge returns (R34) -/
  lost : Bool
  /-- steps and sets applied since the last accepted edge, in ns added to farm time (R31) -/
  stepped : Int
  /-- phase errors of the last accepted edges, newest first (R32) -/
  errs : List Int
  /-- a step is pending, and the correction slews instead (R32) -/
  stepPend : Bool
  /-- the correction slews the pending phase error instead of a step (R32) -/
  slew : Bool
  /-- a farm-time set waits for the next accepted edge (R36) -/
  setReq : Option Nat
  /-- the difference that a set applies, at the first tick after this farm time (R36) -/
  setStep : Option (Int × Nat)
  /-- farm time of the next tick while ticks are generated (R33, R38, R39) -/
  nextTick : Option Nat
  /-- farm time of the last tick -/
  tick : Nat
  /-- a change of P or φ waits for its first tick (R39) -/
  change : Bool
  /-- `RTC.SUB` held by a read of `RTC.SEC` (R49) -/
  subHeld : Option Nat
  /-- Glint capture in progress: its instant (R51) -/
  glint : Option Nat
  /-- what the capture in progress has taken at its instant: turn, RTC seconds and subseconds, and the farm time of the CD0 edge (R51) -/
  glTaken : Option (Nat × Nat × Nat × Nat)
  /-- captured 64-bit values -/
  glFt : Nat
  /-- captured 64-bit value of the other pair (R51) -/
  glEdge : Nat
  /-- SETGO is pending (R48) -/
  setgo : Bool
  /-- a synchronisation of the RTC is due (R48) -/
  syncDue : Bool
  /-- farm-time second of the last synchronisation of the RTC (R48) -/
  syncSec : Nat
  /-- the countdown expired while EV 23 could not be raised (R50) -/
  cdnOwed : Bool
  /-- crystal time at which the copy into the last-word register ends (09, R234) -/
  lwUntil : Nat
  deriving DecidableEq, Repr

def TimeSt.reset : TimeSt :=
  { farm := 0, spread := 0, real := 0, cd0 := 0, lastEdge := none, first := false, lost := false, stepped := 0, errs := [],
    stepPend := false, slew := false, setReq := none, setStep := none, nextTick := none, tick := 0, change := false, subHeld := none,
    glint := none, glTaken := none, glFt := 0, glEdge := 0, setgo := false, syncDue := false, syncSec := 0, cdnOwed := false, lwUntil := 0 }

/-! ## Events (08) -/

/-- An occurrence (08, R198). -/
structure Occ where
  /-- event source number -/
  src : Nat
  /-- time stamp (R203) -/
  time : Nat
  /-- payload -/
  pay : Nat
  /-- it was injected (R210) -/
  inj : Bool
  deriving DecidableEq, Repr

/-- The record of a source (08, R203). -/
structure EvRec where
  /-- occurrences counted in the record (R203) -/
  count : Nat
  /-- the record has lost occurrences (R203) -/
  lostrec : Bool
  /-- time stamp of the first occurrence -/
  first : Nat
  /-- time stamp of the last occurrence -/
  last : Nat
  /-- payload of the last occurrence -/
  pay : Nat
  /-- the last occurrence was injected -/
  inj : Bool
  deriving DecidableEq, Repr

def EvRec.zero : EvRec := { count := 0, lostrec := false, first := 0, last := 0, pay := 0, inj := false }

/-- The event block (08). -/
structure EventSt where
  /-- the event FIFO, oldest first (R202) -/
  fifo : List Occ
  /-- the records by source (R203) -/
  recs : Store EvRec
  /-- place of the oldest entry among the 256 of the FIFO's RAM (09, R220) -/
  head : Nat
  deriving DecidableEq, Repr

def EventSt.reset : EventSt := { fifo := [], recs := [], head := 0 }

/-! ## Umbra and Penumbra (07) -/

/-- What EXC keeps beside its registers. -/
structure ExcSt where
  /-- scopes whose accepted release waits for the tick (R194) -/
  releases : List Nat
  /-- Penumbra causes: device command; bridge command and consumed life; chopper command and thermal warning (R196) -/
  dCmd : Bool
  /-- Penumbra cause of the bridge: command -/
  bCmd : Bool
  /-- Penumbra cause of the bridge: consumed life -/
  bLife : Bool
  /-- Penumbra cause of the chopper: command -/
  cCmd : Bool
  /-- Penumbra cause of the chopper: thermal warning -/
  cTherm : Bool
  /-- 0x5A has been written to KICK (R185) -/
  kick : Bool
  /-- crystal time of the last restart of the SV watchdog, and what it had counted when Lantern halted SV (R185) -/
  svAt : Nat
  /-- nanoseconds counted before the halt that suspends the SV watchdog (R185) -/
  svHeld : Option Nat
  /-- crystal time of the device fault that waits for its automatic reset (R193) -/
  autoRst : Option Nat
  /-- the bridge is held by the Umbra of these engines (R191, code 0x01), and the chopper -/
  bridgeBy : List Nat
  /-- the chopper is held by the Umbra of these engines (R191) -/
  chopBy : List Nat
  /-- a scope has been released and the task, owner of one of its locations, has not committed since (R194): scope and task -/
  waits : List (Nat × Nat)
  deriving DecidableEq, Repr

def ExcSt.reset : ExcSt :=
  { releases := [], dCmd := false, bCmd := false, bLife := false, cCmd := false, cTherm := false, kick := false,
    svAt := 0, svHeld := none, autoRst := none, bridgeBy := [], chopBy := [], waits := [] }

/-! ## Memory, checker, DMA (09, 10) -/

/-- A DMA agent beside its registers (09, R236-R239). -/
structure DmaSt where
  /-- words of the current descriptor: source, destination, control, next -/
  desc : Option (Nat × Nat × Nat × Nat)
  /-- bytes moved of the current descriptor -/
  moved : Nat
  /-- a stop was asked for -/
  stopReq : Bool
  /-- the set-up that the burst in flight was issued under, if a commit has replaced it since (10, R261) -/
  rules : Option (Store Nat)
  deriving DecidableEq, Repr

def DmaSt.reset : DmaSt := { desc := none, moved := 0, stopReq := false, rules := none }

/-- An access waiting in the SV write buffer (10, R254). -/
structure PostedWrite where
  /-- first address -/
  addr : Nat
  /-- the bytes to write -/
  bytes : List Byte
  deriving DecidableEq, Repr

/-- A write that waits for the end of the initialiser (09, R227). -/
structure HeldWrite where
  /-- requester code -/
  req : Nat
  /-- first address -/
  addr : Nat
  /-- the bytes to write -/
  bytes : List Byte
  deriving DecidableEq, Repr

/-- A line of the SV data cache (10, R255). -/
structure CacheLine where
  /-- the 32 bytes of the line -/
  data : List Byte
  /-- written and not yet in memory -/
  dirty : Bool
  deriving DecidableEq, Repr

/-- Memory beside the byte cells (09, 10). -/
structure MemSt where
  /-- ECC state of a word, by address (back copy of the image at +2^32, working copy at +2 * 2^32, SV's instruction and data cache at +3 * 2^32
  and +4 * 2^32, peripheral buffers at 5 * 2^32): 1 one bit wrong, 2 uncorrectable; unlisted: good -/
  ecc : Store Nat
  /-- injection armed: array code and mode (R226) -/
  inject : Option (Nat × Nat)
  /-- scrubber position per array code (R225), and the arrays that have finished this pass -/
  scrub : Store Nat
  /-- arrays that have finished this pass of the scrubber (R225) -/
  scrubDone : List Nat
  /-- the initialiser runs (R227) -/
  init : Bool
  /-- the active checker set-up, by field key; unlisted: the reset value (10, R259) -/
  chk : Store Nat
  /-- the DMA agents, by number (R236) -/
  dma : Store DmaSt
  /-- writes that wait for the initialiser, oldest first (R227) -/
  held : List HeldWrite
  /-- lines of the SV data cache, by line number, at most 1024 (10, R255; 01, R12) -/
  dcache : Store CacheLine
  /-- lines of the SV instruction cache, by line number, at most 1024 (10, R255; 01, R12) -/
  icache : Store (List Byte)
  /-- the SV write buffer, oldest first, at most 4 (10, R254) -/
  wbuf : List PostedWrite
  /-- next place of each queue in the peripheral buffer RAM (09, R220; log entry 144) -/
  qin : Store Nat
  deriving DecidableEq, Repr

def MemSt.reset : MemSt :=
  { ecc := [], inject := none, scrub := [], scrubDone := [], init := false, chk := [], dma := [], held := [], dcache := [], icache := [],
    wbuf := [], qin := [] }

/-! ## Event log (22) -/

/-- A log entry (22, R539, R551). Kind: 0 event, 1 fault, 2 message, 3 mark. -/
structure LogEntry where
  /-- farm time in microseconds -/
  time : Nat
  /-- 0 event, 1 fault, 2 message, 3 mark -/
  kind : Nat
  /-- event source, fault code or message code -/
  code : Nat
  /-- payload or detail -/
  data : Nat
  /-- class (R541) -/
  cls : Nat
  /-- pinned (R545) -/
  pin : Bool
  /-- origin bit of the entry (R539) -/
  origin : Bool
  /-- a copy of a pinned entry (R545) -/
  copy : Bool
  /-- held only in RAM -/
  ramOnly : Bool
  deriving DecidableEq, Repr

/-- The log block beside its registers and its slots in K1 (22). -/
structure LogSt where
  /-- the log queue (R546) -/
  queue : List LogEntry
  /-- the RAM log buffer, oldest first, at most 256 (R547) -/
  ram : List LogEntry
  /-- entries lost since the last message 0x0001 (R546) -/
  lostSince : Nat
  /-- time of the governing mark in microseconds (R542) -/
  mark : Option Nat
  /-- a new mark is needed: farm time was stepped or set, or copies were made (R542, R545) -/
  stale : Bool
  /-- slots of K1 that hold entries counted as pinned, with the times of the entries (R545) -/
  pins : List (Nat × Nat)
  /-- how many of the next pinned entries on their way to K1 no longer count as pinned (R545) -/
  loose : Nat
  /-- valid entries that recall found (R540) -/
  found : Nat
  /-- bad pages of K1 (R548) -/
  bad : List Nat
  /-- pages on which the entry at the front of the queue has failed (R549) -/
  failedOn : List Nat
  /-- requests of the log in the Keep queue (R546) -/
  outstanding : Nat
  /-- message 0x0004 has been appended for the present excess (R545) -/
  pinTold : Bool
  /-- entries logged since start-up, by class (P01.000B) -/
  counts : Store Nat
  deriving DecidableEq, Repr

def LogSt.reset : LogSt :=
  { queue := [], ram := [], lostSince := 0, mark := none, stale := true, pins := [], loose := 0, found := 0, bad := [], failedOn := [], outstanding := 0,
    pinTold := false, counts := [] }



/-! ## Power and start-up (01, 24) -/

/-- Where the device stands in its life (01, R13, R18; 24, R567, R585, R589). -/
inductive Phase where
  /-- main supplies below their thresholds (R18) -/
  | off
  /-- reset asserted -/
  | reset
  /-- start-up (R585) -/
  | starting
  /-- Run or Hold, by `SYS.MODE` -/
  | up
  /-- Standby (R17) -/
  | standby
  deriving DecidableEq, Repr

/-! ## Analogue outputs and waveforms (19) -/

/-- An output channel beside its registers. -/
structure AoSt where
  /-- a waiting latch request (R475): its code -/
  wait : Option Nat
  /-- crystal time at which the waiting request is latched (R475) -/
  due : Nat
  /-- crystal time of the previous latch, fallback latches not counted (R475) -/
  last : Option Nat
  /-- keeps its fallback until a first commit, CODE write or played sample (R480) -/
  hold : Bool
  /-- its waveform channel has been armed since the last fallback (R480) -/
  armed : Bool
  /-- changes of the code that lie ahead or less than 50 ns back, newest first: the code before, and the crystal time of the change (R477, R483) -/
  old : List (Nat × Nat)
  deriving DecidableEq, Repr

def AoSt.reset : AoSt := { wait := none, due := 0, last := none, hold := true, armed := false, old := [] }

/-- A waveform channel beside its registers (R484). -/
structure WaveSt where
  /-- trigger instant T0 -/
  t0 : Nat
  /-- next sample of the pass, and passes completed since T0 -/
  j : Nat
  /-- passes completed since T0 -/
  p : Nat
  /-- the next sample as read 100 ns before its latch, with the status of the read, when a write has followed that read (R484) -/
  pre : Option (List Byte × Nat)
  deriving DecidableEq, Repr

def WaveSt.reset : WaveSt := { t0 := 0, j := 0, p := 0, pre := none }


/-! ## Shadow pair and Reflect link (12) -/

/-- A frame of the Reflect link (R296); the Lead keeps those of its last two records. -/
structure RflFrame where
  /-- frame type (R296) -/
  type : Nat
  /-- sequence of its record -/
  seq : Nat
  /-- its index in the record -/
  idx : Nat
  /-- payload bytes -/
  payload : List Byte
  /-- payload offsets of words sent with the poison pattern (R318) -/
  bad : List Nat
  /-- it has been sent again after a NAK (R296) -/
  resent : Bool
  deriving DecidableEq, Repr

/-- A REL entry (R297, R301). -/
structure RelEnt where
  /-- task number -/
  task : Nat
  /-- cycle offset from the latch end (R301) -/
  ofs : Nat
  /-- time stamp of the event that released it -/
  ts : Nat
  deriving DecidableEq, Repr

/-- A CTRL entry (R297); kind 0 deferred write, 1 control write, 2 switch marker. -/
structure CtrlEnt where
  /-- register address -/
  addr : Nat
  /-- kind of the entry, as R299 numbers them -/
  kind : Nat
  /-- the bytes written -/
  data : List Byte
  /-- the requester of a memory write (09, R224): 6, the Reflect engine, in entries of the link -/
  req : Nat := 6
  deriving DecidableEq, Repr

/-- The content of END (R297). -/
structure EndRec where
  /-- cycle counts C by engine (R301) -/
  cyc : List Nat
  /-- far loads of the turn by engine (R301) -/
  fars : List Nat
  /-- tasks that END names -/
  names : List Nat
  deriving DecidableEq, Repr

/-- A page received (R316): A [31:0], page, block mask, data, poisoned offsets. -/
structure PageIn where
  /-- A of the turn it belongs to -/
  turn : Nat
  /-- page number (R316) -/
  page : Nat
  /-- which of its 64-byte blocks the page frame carries -/
  mask : Nat
  /-- the bytes of those blocks -/
  data : List Byte
  /-- offsets of words sent with the poison pattern (R318) -/
  bad : List Nat
  deriving DecidableEq, Repr

/-- A record being received (R299). -/
structure RecvRec where
  /-- sequence of the record -/
  seq : Nat
  /-- frame indices received; index of the CTRL frame -/
  idx : List Nat
  /-- index of its CTRL frame -/
  ctrlAt : Option Nat
  /-- payload of HEAD -/
  head : Option (List Byte)
  /-- IMAGE blocks by block number -/
  image : Store (List Byte)
  /-- REL entries in order of arrival -/
  rel : List RelEnt
  /-- per engine: status and value of far loads not taken yet -/
  far : Store (List (Nat × Nat))
  /-- CTRL entries in order -/
  ctrl : List CtrlEnt
  /-- bytes of STATE received so far (R315) -/
  state : List Byte
  /-- END of the turn before -/
  fin : Option EndRec
  deriving DecidableEq, Repr

def RecvRec.fresh (seq : Nat) : RecvRec :=
  { seq := seq, idx := [], ctrlAt := none, head := none, image := [], rel := [], far := [], ctrl := [], state := [], fin := none }

/-- The Reflect engine beside its registers. -/
structure RflSt where
  /-- OWN_OUT asserted by a claim that has not been sampled yet; unit 0 waits for OWN_IN to fall (R288) -/
  claim : Bool
  /-- unit 0 waits for OWN_IN to fall (R288) -/
  waitOwn : Bool
  /-- RELEASE received since the last turn record (R292) -/
  release : Bool
  /-- RELEASE ordered sets sent (R291) -/
  relSets : Nat
  /-- both OWN lines have been asserted for more than 4 µs (R293) -/
  both : Bool
  /-- frames sent, of the last two records (R296), oldest first; next frame index of the record -/
  frames : List RflFrame
  /-- index of the next frame of the record being sent -/
  nextIdx : Nat
  /-- the record whose turn is executed, and the one being assembled -/
  cur : Option RecvRec
  /-- the record being assembled -/
  nxt : Option RecvRec
  /-- END of the turn before the one executed -/
  last : Option EndRec
  /-- A and farm time of the turn being executed while following (R302) -/
  turnA : Nat
  /-- farm time of the turn being executed while following (R302) -/
  turnT : Nat
  /-- every input block goes into the next IMAGE (R299) -/
  allImage : Bool
  /-- crystal time of the latch end of the running turn, from which engine cycles count (R45, R301) -/
  latchT : Nat
  /-- REL entries of occurrences between a tick and its latch end, sent after HEAD (R299, R301) -/
  rels : List (List Byte)
  /-- REL entries of the turns before that an engine which is behind has not reached (R303) -/
  relOld : List RelEnt
  /-- FAR entries of the turns started, in arrival order, per engine (R304) -/
  farq : Store (List (Nat × Nat))
  /-- input blocks of the records received in a rejoin (R302, R315) -/
  image : Store (List Byte)
  /-- far loads of this turn, per engine (R304) -/
  fars : Store Nat
  /-- a Shadow's timelines, per engine: a count, and the engine's cycle at which it stood (R303) -/
  timeline : Store (Nat × Nat)
  /-- engines of a Shadow that have not come to the cycle C of the turn before, so that the turn has not started on them (R303) -/
  behind : List Nat
  /-- the record that gave way to a newer one before its turn started; its END counts for the next (R302) -/
  skipped : Option RecvRec
  /-- own snapshot of the tick before the last (R306) -/
  snapWas : List Host.Cell
  /-- items of the partner's HELLO that agreed (R312) -/
  peer : List Nat
  /-- the former Shadow of a swap is Lead and has not taken the pins yet (R292, R310) -/
  taking : Bool
  /-- frames that came with a bad CRC and have not come again; NAK ordered sets sent (R296) -/
  owed : Nat
  /-- NAK ordered sets sent (R295, R296) -/
  naks : Nat
  /-- the deferred-write buffer (R305; simplex: 13, R342) -/
  dw : List CtrlEnt
  /-- CTRL entries of this tick's record (R282, R299) -/
  marks : List CtrlEnt
  /-- a scheduled swap: A_w, ticks waited for an idle one, and the swap's turn W (R310) -/
  swap : Option Nat
  /-- ticks waited for an idle one (R310) -/
  swapWait : Nat
  /-- the turn W of the swap (R310) -/
  swapAt : Option Nat
  /-- a digest being computed (A, value); the last own and the partner's (R307) -/
  digRun : Option (Nat × Nat)
  /-- the last own digest: A and value (R307) -/
  digOwn : Option (Nat × Nat)
  /-- the partner's last digest: A and value (R307) -/
  digPeer : Option (Nat × Nat)
  /-- a repair pass has completed since the last digest -/
  repaired : Bool
  /-- dirty bits: 64-bit mask per page (R316) -/
  dirty : Store Nat
  /-- pages still to be sent in this round; next background page; next page of a repair pass -/
  round : List Nat
  /-- next page of the background sweep (R316) -/
  bgPage : Nat
  /-- next page of a repair pass (R316) -/
  repair : Option Nat
  /-- pages received that are applied at the start of their turn -/
  staged : List PageIn
  /-- turns since the first round, ticks of search for an idle tick (R317) -/
  turns : Nat
  /-- ticks of search for an idle tick (R317) -/
  idleWait : Nat
  /-- the record of the next tick is the sync record -/
  sync : Bool
  /-- per range: consecutive turns with a difference (R306) -/
  persist : Store Nat
  /-- differences in this turn; own snapshot of the last tick -/
  disc : Nat
  /-- own snapshot of the last tick, against which differences are looked for (R306) -/
  snap : List Host.Cell
  /-- STATUS has come in this turn; the reports of R283 by engine: program ID, code CRC, record CRC -/
  statusSeen : Bool
  /-- the reports of R283 by engine: program ID, code CRC, record CRC -/
  reports : Store (Nat × Nat × Nat)
  /-- farm time of the next retry (R309) -/
  retryAt : Option Nat
  /-- this unit has become Lead at this tick: it commits nothing (R308) -/
  fresh : Bool
  /-- flags of the HEAD of the turn (R297); a frame of the record has found no room in the record queue (23, R560) -/
  headFlags : Nat
  /-- a frame of the record has found no room in the record queue (23, R560) -/
  full : Bool
  deriving DecidableEq, Repr

def RflSt.reset : RflSt :=
  { claim := false, waitOwn := false, release := false, relSets := 0, both := false, frames := [], nextIdx := 0, cur := none, nxt := none, last := none,
    turnA := 0, turnT := 0, allImage := true, latchT := 0, rels := [], relOld := [], farq := [], image := [], fars := [], timeline := [], behind := [], skipped := none, snapWas := [],
    peer := [], taking := false, owed := 0, naks := 0, dw := [], marks := [], swap := none, swapWait := 0,
    swapAt := none, digRun := none, digOwn := none, digPeer := none, repaired := false, dirty := [], round := [], bgPage := 0, repair := none,
    staged := [], turns := 0, idleWait := 0, sync := false, persist := [], disc := 0, snap := [], statusSeen := false, reports := [], retryAt := none,
    fresh := false, headFlags := 0, full := false }


/-! ## Drive dies, bridge and chopper (15, 16) -/

/-- Why a die's profile runs (15, R396, R400). -/
inductive Edge where
  | on | off | soft
  deriving DecidableEq, Repr

/-- What the core die sends a drive die: an edge command (R392), or the enable (R394). -/
inductive DieMsg where
  | edge (e : Edge) | enable (on : Bool)
  deriving DecidableEq, Repr

/-- A drive die beside its registers (15). -/
structure DieSt where
  /-- edge commands and changes of EN decided on the core die that have not reached the die yet, oldest first, each with the crystal time at
  which it takes effect on the die (R392, R394) -/
  cmds : List (DieMsg × Nat)
  /-- the enable in force on the die (R394) -/
  en : Bool
  /-- the profile that runs or ran last, and its start -/
  edge : Edge
  /-- crystal time at which that profile started -/
  start : Nat
  /-- its Phase A time and Phase B limit, taken when it started, in 10 ns (R399) -/
  runA : Nat
  /-- its Phase B limit -/
  runB : Nat
  /-- the die's own copies of its settings: field by field as in `dieSettings` (R399) -/
  copy : List Nat
  /-- the copies the running edge took when it started (R399) -/
  use : List Nat
  /-- a transfer has been requested and waits for a carrier peak (R399) -/
  load : Bool
  /-- farm time at which Phase C began -/
  cAt : Nat
  /-- crystal time at which the die reached Phase C, entered UVLO, or ignored a command because it was off already (R404) -/
  quietAt : Nat
  deriving DecidableEq, Repr

def DieSt.reset : DieSt :=
  { cmds := [], en := false, edge := .off, start := 0, runA := 0, runB := 0, copy := [], use := [], load := false, cAt := 0, quietAt := 0 }

/-- The PWM block beside its registers (15, R405-R412; 16, R421, R422). Legs: 0 U, 1 V, 2 W, 3 GD7, 4 chopper. -/
structure PwmSt where
  /-- active compare values (R406) -/
  cmp : Store Nat
  /-- references of the legs -/
  ref : Store Bool
  /-- legs whose on command waits for the end of the dead time: the die, and the crystal time of that end (R408) -/
  dead : Store (Nat × Nat)
  /-- legs whose on command was not issued in this interval, because the interval is too short (R408) -/
  skip : List Nat
  /-- dead time and minimum on interval in force (R408) -/
  dt : Nat
  /-- an overcurrent trip keeps the enable from following until a carrier peak finds the latches clear (18, R469) -/
  ocHold : Bool
  /-- minimum on interval in force (R408) -/
  minpw : Nat
  /-- the bridge dies follow their references (R410) -/
  follow : Bool
  /-- chopper mode in force (R421) -/
  chmode : Nat
  /-- last command to GD6 (R423) -/
  chopOn : Bool
  /-- an active short is held (R404) -/
  short : Bool
  /-- a carrier period to be taken up at the next peak (R405, R411) -/
  cpNext : Option Nat
  /-- bridge dies with a desaturation, UVLO or channel loss since the bridge entered Umbra (R404) -/
  faulted : List Nat
  deriving DecidableEq, Repr

def PwmSt.reset : PwmSt :=
  { cmp := [], ref := [], dead := [], skip := [], dt := 200, ocHold := false, minpw := 10, follow := false, chmode := 0, chopOn := false, short := false,
    cpNext := none, faulted := [] }

/-- A running Roll (16, R429): the step reached, and what waits for its end (R431). -/
structure RollSt where
  /-- the comparator under Roll; `ROLLST.COMP` is that of the last request (R427) -/
  comp : Nat
  /-- next checkpoint of the Roll (R429) -/
  step : Nat
  /-- crystal time of acceptance -/
  start : Nat
  /-- what waits for the end of the Roll (R431): its status -/
  status : Nat
  /-- what waits for the end of the Roll: a desaturation -/
  desat : Bool
  /-- what waits for the end of the Roll: the DC-link comparator states -/
  cmp : Option (Bool × Bool × Bool)
  /-- what waits for the end of the Roll: the voltage at an overcurrent comparator -/
  oc : Option Nat
  deriving DecidableEq, Repr

/-- The DC-link block beside its registers (16). -/
structure DlnkSt where
  /-- crystal time since which GD6 is on (R423) -/
  onSince : Option Nat
  /-- GD6 on time in this carrier period, ns (R422) -/
  capNs : Nat
  /-- GD6 on time in this turn, ns (R425) -/
  turnNs : Nat
  /-- the two latest valid AI03 samples, newest first: 24-bit data and the farm time at which each is complete (R425; 18, R459) -/
  ai03 : List (Nat × Nat)
  /-- a tick has come since ticks began, so that a complete turn ends at the next (R423) -/
  ticked : Bool
  /-- θ as binary32 (R425) -/
  theta : Nat
  /-- a Roll that runs (R428) -/
  roll : Option RollSt
  deriving DecidableEq, Repr

def DlnkSt.reset : DlnkSt := { onSince := none, capNs := 0, turnNs := 0, ai03 := [], ticked := false, theta := 0, roll := none }

/-! ## Field I/O (20) -/

/-- One step of a walk: baseline, output k or input j (20, R505). -/
inductive WalkStep where
  | base
  | out (k : Nat)
  | inp (j : Nat)
  deriving DecidableEq, Repr

/-- The field I/O block beside its registers (20). -/
structure DioSt where
  /-- overload and thermal latches, by output -/
  ovl : Nat
  /-- outputs whose thermal latch is set, by bit (R497) -/
  thm : Nat
  /-- outputs that keep their fallback until a first commit or DO_SV write (R501) -/
  hold : Nat
  /-- broken inputs (R494) -/
  broken : Nat
  /-- every switch is off below 12 V (R500) -/
  cutoff : Bool
  /-- steps of the running walk still to end, the current one first (R505) -/
  walk : List WalkStep
  /-- farm time at which the current step began -/
  walkAt : Nat
  /-- consecutive samples that differ from the debounced state, by input (R491) -/
  cnt : Store Nat
  /-- farm time up to which the inputs have been sampled (R491) -/
  seen : Nat
  /-- farm time at which CLR was last applied by AUTOCLR, or AUTOCLR written (R498) -/
  clrAt : Nat
  deriving DecidableEq, Repr

def DioSt.reset : DioSt :=
  { ovl := 0, thm := 0, hold := 65535, broken := 0, cutoff := false, walk := [], walkAt := 0, cnt := [], seen := 0, clrAt := 0 }


/-! ## Program switches (11) -/

/-- The program switch of an engine beside its registers. -/
structure PrgSt where
  /-- A_s of the scheduled switch; SWITCHNOW waits for the next tick (R272, R279) -/
  at_ : Option Nat
  /-- SWITCHNOW waits for the next tick (R279) -/
  now : Bool
  /-- waiting ticks (R274) -/
  waited : Nat
  /-- between step 2 and step 4 of R275 -/
  switching : Bool
  /-- CRC words of the checked image (R282, R283) -/
  codeCrc : Nat
  /-- CRC word of the checked image's record (R282) -/
  recCrc : Nat
  /-- a program has been switched in since reset (24, R588) -/
  loaded : Bool
  /-- CRC words of the active image (12, R312) -/
  actCode : Nat
  /-- CRC word of the active image's record (12, R312) -/
  actRec : Nat
  /-- offset of the record of the image that became active at step 2 (R275) -/
  ofs : Nat
  /-- members of the group that switches with this engine, ascending, and the farm time of step 2 (R275) -/
  with_ : List Nat
  /-- farm time of step 2 (R275) -/
  since : Nat
  deriving DecidableEq, Repr

def PrgSt.reset : PrgSt :=
  { at_ := none, now := false, waited := 0, switching := false, codeCrc := 0, recCrc := 0, loaded := false, actCode := 0, actRec := 0, ofs := 0,
    with_ := [], since := 0 }



/-! ## Keep store (21) -/

/-- A request of the Keep write queue (R530). -/
inductive KeepReq where
  /-- a raw window write: Keep offset of the first byte, and the bytes (R512) -/
  | raw (ofs : Nat) (data : List Byte)
  /-- ring write, definition (first row, slots, default) and removal (R519-R521) -/
  | ringWrite (r v : Nat)
  | ringDefine (r row slots dflt : Nat)
  | ringUndefine (r : Nat)
  /-- counter commands (R523) -/
  | scInc (c : Nat)
  | scSet (c v : Nat)
  /-- record store: K5 or K4, key and version, data (none: tombstone) (R525) -/
  | store (k5 : Bool) (hdr : Nat) (data : List Byte)
  /-- retain save with its staged ranges and data, once it has begun (R516) -/
  | save (staged : Option (List (Nat × Nat) × List Byte))
  /-- erase of a retain bank (R517) -/
  | eraseBank (b : Nat)
  /-- a log entry (22, R546) -/
  | log (e : LogEntry)
  deriving DecidableEq, Repr

/-- The Keep controller beside its registers and its array (21). -/
structure KeepSt where
  /-- waiting requests, the one being served first; those entered since the power-fail warning (R531) -/
  queue : List KeepReq
  /-- requests entered since the power-fail warning (R531) -/
  late : List KeepReq
  /-- power-fail warning in force (R531) -/
  pfail : Bool
  /-- raw partitions in force: bit 0 K0, bit 1 K2, bit 2 K3 (R511) -/
  raw : Nat
  /-- consecutive password mismatches (R529) -/
  mism : Nat
  /-- the erased retain bank while `READY` is 1 (R516) -/
  readyBank : Nat
  /-- CRC errors per ring (R521); erases per row (R533) -/
  crcErr : Store Nat
  /-- erases per row (R533) -/
  wear : Store Nat
  /-- occurrences that recall owes to the end of start-up (R532): source and payload -/
  owed : List (Nat × Nat)
  /-- `KEEP.REC_BUF`; a FIND that runs: K5, key (R535) -/
  recBuf : Store Byte
  /-- a FIND that runs: K5 or K4, and the key (R535) -/
  find : Option (Bool × Nat)
  /-- requests of SV's own that wait for room (R530) -/
  waits : List KeepReq
  /-- the model's own, inside one command only: a request that is cut off is still granted so many program operations (blocks of 256 bytes) or
  words (of 4), and as many row erases (R510, R531; log entry 119) -/
  cut : Option (Nat × Nat)
  deriving DecidableEq, Repr

def KeepSt.reset : KeepSt :=
  { queue := [], late := [], pfail := false, raw := 0, mism := 0, readyBank := 0, crcErr := [], wear := [], owed := [], recBuf := [],
    find := none, waits := [], cut := none }



/-! ## Brick identity and life (17) -/

/-- The BRICK and LIFE blocks beside their registers. -/
structure BrickSt where
  /-- the identity part held, 256 bytes, while IDVALID (R437) -/
  id : List Byte
  /-- content of the brick memory as last read and written, by address; unlisted: 0xFF -/
  mem : List Host.Cell
  /-- transfer under way: 0 none, 1 read, 2 write-back; it has failed once; it waits for its retry (R436) -/
  xfer : Nat
  /-- the transfer has failed once (R436) -/
  failed : Bool
  /-- it waits for its retry (R436) -/
  waitRetry : Bool
  /-- D_s as binary64, six of them; at the last write-back (R451) -/
  ds : List Nat
  /-- D_s at the last write-back (R451) -/
  dsOld : List Nat
  /-- reversal detectors: last reversal, extreme, direction 0 unknown 1 up 2 down (R444) -/
  det : Store (Nat × Nat × Nat)
  /-- residue stacks, newest point first (R445) -/
  res : Store (List Nat)
  /-- estimates of each switch with the instants at which their samples completed (R442, R443) -/
  est : Store (List (Nat × Nat))
  /-- the last two valid samples of each leg current: data and completion, newest first (R442) -/
  cur : Store (List (Nat × Nat))
  /-- the last two valid samples of AI10 and AI11: data and completion, newest first (R443) -/
  ntc : Store (List (Nat × Nat))
  /-- farm time of the last write-back; write-backs made (P32.0014) -/
  wbAt : Nat
  /-- write-backs made (P32.0014) -/
  wbs : Nat
  /-- P32.000B, P32.000C, P32.0012 -/
  ovB : Bool
  /-- override P32.000C -/
  ovC : Bool
  /-- a write-back found another brick; the read that follows selects its record (R451) -/
  swapped : Bool
  /-- P32.0012 -/
  kept : List Byte
  /-- the next read keeps the larger D_s: the unit has taken ownership (R455) -/
  keepMax : Bool
  /-- a BRICK frame goes with the next record (R455) -/
  frameDue : Bool
  deriving DecidableEq, Repr

def BrickSt.reset : BrickSt :=
  { id := [], mem := [], xfer := 0, failed := false, waitRetry := false, ds := [0, 0, 0, 0, 0, 0], dsOld := [0, 0, 0, 0, 0, 0], det := [],
    res := [], est := [], cur := [], ntc := [], wbAt := 0, wbs := 0, ovB := false, ovC := false, swapped := false, kept := List.replicate 72 0#8,
    keepMax := false, frameDue := false }

/-! ## Sense ADC (18) -/

/-- A converter channel beside its registers. -/
structure AdcSt where
  /-- settings in force: EN, MUX, GAIN, OSR, PH (R461) -/
  en : Bool
  /-- MUX in force -/
  mux : Nat
  /-- GAIN in force -/
  gain : Nat
  /-- OSR in force -/
  osr : Nat
  /-- PH in force -/
  ph : Nat
  /-- samples still to be marked invalid, and the REASON (R462) -/
  bad : Nat
  /-- the REASON of those samples (R462) -/
  why : Nat
  /-- a word has been delivered since reset, and the previous word -/
  prev : Option Nat
  /-- newest word not counted as completed yet, with its completion; newest word completed since the previous tick (R465) -/
  fresh : Option (Nat × Nat)
  /-- newest word completed since the previous tick (R465) -/
  img : Option Nat
  /-- a word has been delivered since the image area was cleared (R465) -/
  imgOnce : Bool
  /-- the channel's FIFO, oldest first, at most 32 (R466) -/
  fifo : List Nat
  /-- words that have left the FIFO, modulo 32: where its head stands in the buffer RAM (R553) -/
  head : Nat
  /-- the previous word was discarded (R466) -/
  dropped : Bool
  deriving DecidableEq, Repr

def AdcSt.reset : AdcSt :=
  { en := false, mux := 0, gain := 0, osr := 256, ph := 0, bad := 0, why := 0, prev := none, fresh := none, img := none,
    imgOnce := false, fifo := [], head := 0, dropped := false }



/-! ## Power, clocks, resets and modes (24) -/

/-- What PWR, RST and SYS keep beside their registers. -/
structure PwrSt where
  /-- cause code of the last reset and of the one before it, latched in PD0 (R579) -/
  cause : Nat
  /-- cause code of the reset before (R579) -/
  prev : Nat
  /-- a mode request accepted and not yet in effect: 0 Run, 1 Hold, 2 Standby (R588) -/
  want : Option Nat
  /-- a Standby entry is in step 1 of R589; its write-back has not started yet (R450) -/
  standby : Bool
  /-- the write-back of that entry has not started yet (R450) -/
  wbDue : Bool
  /-- 0xC3 has been written to `RST.CMD.KEY` (R581) -/
  key : Bool
  /-- the die-to-die link is lost (R578) -/
  linkLost : Bool
  /-- held in reset by the junction temperature (R572) -/
  hot : Bool
  /-- a reference fault of start-up becomes a device fault at step 9 (R577) -/
  refDue : Bool
  /-- crystal time of the end of start-up (`SYS.UPTIME`) -/
  upAt : Nat
  /-- EV 14 has been raised since the end of start-up (R585) -/
  told : Bool
  deriving DecidableEq, Repr

def PwrSt.reset : PwrSt :=
  { cause := 1, prev := 0, want := none, standby := false, wbDue := false, key := false, linkLost := false, hot := false,
    refDue := false, upAt := 0, told := false }


/-! ## Firmware replacement (26) -/

/-- What UPD keeps beside its registers. -/
structure UpdSt where
  /-- A_H of a scheduled handover (R634) -/
  at_ : Option Nat
  /-- compatibility number of the running firmware (12, R312) -/
  compat : Nat
  /-- the running flash operation: 1 sector erase, 2 block erase, 3 program, 4 CRC; address and length (R625) -/
  op : Option (Nat × Nat × Nat)
  /-- `UPD.FBUF` -/
  fbuf : Store Byte
  /-- bit b: bank b is verified (R633); its signature passed at the last boot -/
  verified : Nat
  /-- bit b: the signature of bank b passed at the last boot -/
  signed : Nat
  /-- a handover is between steps 2 and 5 of R635; one has been completed since start-up -/
  hand : Bool
  /-- a handover has been completed since start-up (R635) -/
  done : Bool
  /-- crystal time at which the running firmware started (R631) -/
  since : Nat
  /-- the last dry-run result: groups, compatibility numbers, flags (R642) -/
  dry : Option (List Nat × Nat × Nat × Nat)
  deriving DecidableEq, Repr

def UpdSt.reset : UpdSt :=
  { at_ := none, compat := 0, op := none, fbuf := [], verified := 0, signed := 0, hand := false, done := false, since := 0, dry := none }


/-! ## Field ports and sessions (14) -/

/-- A message waiting for transmission (R382). -/
structure TxMsg where
  /-- service class (R366) -/
  svc : Nat
  /-- destination UDP port on an Ethernet port (R356) -/
  udp : Nat
  /-- the message -/
  bytes : List Byte
  /-- in the entry kept for SV's token (23, R557) -/
  token : Bool
  /-- being transmitted -/
  busy : Bool
  /-- its port was disabled while one of its frames was being sent: only that frame goes out (R381) -/
  cut : Bool
  deriving DecidableEq, Repr

/-- A CAN message being reassembled (R361): next segment, low sequence bits, bytes so far. -/
structure Reasm where
  /-- next segment index expected -/
  nxt : Nat
  /-- low sequence bits (R361) -/
  low : Nat
  /-- bytes collected so far -/
  bytes : List Byte
  deriving DecidableEq, Repr

/-- A staged MAP (R376). -/
structure RcvMap where
  /-- staged bytes of a receive map -/
  data : List Byte
  /-- staged as invalid -/
  inv : Bool
  deriving DecidableEq, Repr

/-- A field port beside its registers. -/
structure PortSt where
  /-- receive queue: source UDP port and message -/
  rx : List (Nat × List Byte)
  /-- crystal times at which the messages of the receive queue arrived (13, R337) -/
  rxAt : List Nat
  /-- transmit queue, oldest first -/
  tx : List TxMsg
  /-- the partner's MAC address; requests unanswered so far; resolution has failed (R355) -/
  mac : List Byte
  /-- address requests unanswered so far (R355) -/
  tries : Nat
  /-- resolution has failed (R355) -/
  dead : Bool
  /-- identification of the next datagram -/
  ident : Nat
  /-- reassemblies by service class -/
  reasm : Store Reasm
  /-- farm time of the last message that passed R364, or of the enable -/
  lastOk : Nat
  /-- farm times of the failed OPENs of the last 60 s, and of the lockout's start (R370) -/
  fails : List Nat
  /-- farm time at which the lockout started (R370) -/
  lockAt : Nat
  /-- staged receive maps; receive maps zeroed since a partner loss (R376, R380) -/
  maps : Store RcvMap
  /-- receive maps zeroed since a partner loss (R380) -/
  zeroed : List Nat
  /-- what the port put on its medium last: an Ethernet frame, or per CAN frame the identifier (4 bytes, most significant first) and data -/
  out : List (List Byte)
  deriving DecidableEq, Repr

def PortSt.reset : PortSt :=
  { rx := [], rxAt := [], tx := [], mac := [], tries := 0, dead := false, ident := 0, reasm := [], lastOk := 0, fails := [], lockAt := 0, maps := [],
    zeroed := [], out := [] }

/-- The NOTIFY state of one source or trigger in a session (R377). -/
structure NoteSt where
  /-- 0 event, 1 policy trigger -/
  kind : Nat
  /-- event source or trigger number -/
  src : Nat
  /-- occurrences waiting: count, payload, first and last timestamp -/
  count : Nat
  /-- payload of the newest occurrence waiting -/
  pay : Nat
  /-- time stamp of the first occurrence waiting -/
  first : Nat
  /-- time stamp of the newest occurrence waiting -/
  last : Nat
  /-- the unacknowledged NOTIFY: its sequence and body, and its repeats so far -/
  sent : Option (Nat × List Byte)
  /-- repeats of the unacknowledged NOTIFY so far (R377) -/
  tries : Nat
  deriving DecidableEq, Repr

/-- An open bulk transfer (R378). -/
structure BulkSt where
  /-- a write transfer (else a read) -/
  write : Bool
  /-- parameter number of the object -/
  pnum : Nat
  /-- element of the object -/
  elem : Nat
  /-- length of the object in bytes -/
  total : Nat
  /-- CRC-32 that the start message gave -/
  crc : Nat
  /-- bytes acknowledged; offset of the next segment the device sends -/
  acked : Nat
  /-- offset of the next segment the device sends -/
  sent : Nat
  /-- the object as received so far, or as it is sent -/
  data : List Byte
  /-- farm time of the last segment or acknowledgement -/
  at_ : Nat
  deriving DecidableEq, Repr

/-- A publish map (R374, R375). -/
structure PubMap where
  /-- map number (R374) -/
  id : Nat
  /-- the create body after the op byte -/
  body : List Byte
  /-- a replacement that waits for its next due turn -/
  next : Option (List Byte)
  /-- the message prepared in this turn: sequence, flags and A of the turn; the data as far as prepared -/
  prep : Option (Nat × Nat × List Byte)
  /-- due in this turn, and SV, halted, has not prepared it yet (R375) -/
  owed : Bool
  deriving DecidableEq, Repr

/-- A session (R368-R373). -/
structure Sess where
  /-- session identifier (R368) -/
  id : Nat
  /-- role of the session (R368) -/
  role : Nat
  /-- port it was opened on -/
  port : Nat
  /-- key epoch (R373) -/
  epoch : Bool
  /-- last sequence accepted, last sequence sent (R365) -/
  rx : Nat
  /-- last sequence sent (R365) -/
  tx : Nat
  /-- the old key after a rekey and its last accepted sequence (R373) -/
  old : Option (List Byte × Nat)
  /-- a REKEY of the device that waits for its reply: its sequence and nonce -/
  rekey : Option (Nat × List Byte)
  /-- farm time of the last accepted message (R371), and of the last rekey reply -/
  last : Nat
  /-- farm time of the last rekey reply (R373) -/
  rekeyAt : Nat
  /-- publish maps of the session (R374) -/
  maps : List PubMap
  /-- subscribed events (bit s for EV s) and triggers (R374) -/
  evs : Nat
  /-- subscribed triggers, by bit (R374) -/
  trigs : Nat
  /-- notifications waiting or unacknowledged (R377) -/
  notes : List NoteSt
  /-- a bulk transfer (R378) -/
  bulk : Option BulkSt
  /-- a monitor session (25, R592) -/
  mon : Bool
  deriving DecidableEq, Repr

/-- A MAP whose trailer the commit hardware has placed in the job queue (R375, R384). -/
structure CmJob where
  /-- number of its session -/
  sess : Nat
  /-- sequence of its message -/
  seq : Nat
  /-- the message body -/
  bytes : List Byte
  deriving DecidableEq, Repr

/-- The crypto accelerator beside its registers (R384-R387). -/
structure CryptoSt where
  /-- key slots; unlisted: zero -/
  keys : Store (List Byte)
  /-- jobs of MAP trailers, oldest first (R384) -/
  cm : List CmJob
  /-- SV's jobs by descriptor address; a store to SUBMIT that waits for an entry -/
  sv : List Nat
  /-- a store to SUBMIT that waits for an entry -/
  wait : Option Nat
  /-- words taken from the random generator -/
  rng : Nat
  deriving DecidableEq, Repr

def CryptoSt.reset : CryptoSt := { keys := [], cm := [], sv := [], wait := none, rng := 0 }



/-! ## Lantern (25) -/

/-- A Serys monitor request: the session, sequence and UDP port of its COMMAND, or the wire; code and argument (R621, R562). -/
structure MonReq where
  /-- session number, session identifier and sequence of the sender, none for the wire -/
  from_ : Option (Nat × Nat × Nat)
  /-- COMMAND code (R621) -/
  code : Nat
  /-- its argument -/
  arg : List Byte
  deriving DecidableEq, Repr

/-- The LANT block beside its registers. -/
structure LanSt where
  /-- wire session: 0 none, 1 open, 2 authenticated (R597) -/
  wire : Nat
  /-- N_l of the session -/
  nonce : List Byte
  /-- farm times of the failed OPENs of the last 60 s, and of the lockout's start -/
  fails : List Nat
  /-- farm time at which the wire lockout started -/
  lockAt : Nat
  /-- farm time of the last valid frame (R594) -/
  last : Nat
  /-- an OPEN that waits for the end of recall: TAG and payload -/
  waits : Option (Nat × List Byte)
  /-- the last response frame -/
  out : List Byte
  /-- the Serys monitor queue (R562) -/
  queue : List MonReq
  /-- the replies to wire requests, oldest first, as far as they have not been collected (R598) -/
  replies : List (List Byte)
  /-- a system reset that follows a write of SYSRST: cause and farm time of the write (R620) -/
  rst : Option (Nat × Nat)
  /-- copies of the _HI registers latched by quiet reads, by address (R603) -/
  hi : Store Nat
  deriving DecidableEq, Repr

def LanSt.reset : LanSt :=
  { wire := 0, nonce := [], fails := [], lockAt := 0, last := 0, waits := none, out := [], queue := [], replies := [],
    rst := none, hi := [] }


/-! ## The Isail dictionary (13) -/

/-- A bound user parameter (R340): bounds in the type's encoding, eight bytes each. -/
structure UEntry where
  /-- entry number -/
  num : Nat
  /-- type code (13) -/
  ty : Nat
  /-- elements -/
  count : Nat
  /-- access word, two bits per role -/
  acc : Nat
  /-- persistence: 0 volatile, 1 kept, 2 kept on command -/
  pers : Nat
  /-- address of the bound variable -/
  addr : Nat
  /-- number of the writer task, 0xFF for none (R340, R343) -/
  writer : Nat
  /-- a range is given -/
  ranged : Bool
  /-- lower bound of the range -/
  lo : Nat
  /-- upper bound of the range -/
  hi : Nat
  /-- bytes of the default -/
  dflt : List Byte
  deriving DecidableEq, Repr

/-- Where a waiting request stands (R337, R342, R343, R332). -/
inductive ReqWait where
  /-- for earlier requests of its entry, or for room in the Keep write queue -/
  | turn
  /-- a user write, for its latch to end -/
  | latch
  /-- a kept write, for its store: the count of accepted Keep requests after it -/
  | store (mark : Nat)
  /-- a write that its latch has applied, for that latch to end (R342) -/
  | applied
  /-- applied, for room for its store -/
  | room
  /-- a user read, for the latch end; and to be taken now -/
  | taken
  | due
  deriving DecidableEq, Repr

/-- A request of a session that has passed its checks and waits (R337). -/
structure DictReq where
  /-- number and ID of the session; sequence and UDP port of the request -/
  sess : Nat
  /-- identifier of the session -/
  sid : Nat
  /-- sequence of the request -/
  seq : Nat
  /-- UDP port the reply goes to -/
  udp : Nat
  /-- a write (else a read) -/
  write : Bool
  /-- entry number -/
  num : Nat
  /-- first element -/
  first : Nat
  /-- number of elements -/
  n : Nat
  /-- the data to write -/
  data : List Byte
  /-- what the request waits for -/
  wait : ReqWait
  deriving DecidableEq, Repr

/-- What the dictionary keeps (R331-R351). -/
structure DictSt where
  /-- values of firmware parameters, by parameter number -/
  vals : Store (List Byte)
  /-- the binding table in force: entries, layout versions of groups 0x80-0xBF, binding ID, its check result (P00.0011) -/
  user : List UEntry
  /-- layout versions of groups 0x80 to 0xBF -/
  vers : List Nat
  /-- binding ID in force -/
  bid : Nat
  /-- check result of the table (P00.0011) -/
  check : Nat
  /-- a checked table that has not taken effect yet (R341): entries, versions, ID -/
  staged : Option (List UEntry × List Nat × Nat)
  /-- kept user entries whose default goes into the variable in the latch of the next tick (R341) -/
  fresh : List Nat
  /-- requests of user entries that wait, oldest first (R341) -/
  reqs : List DictReq
  /-- stores that wait for room in the Keep write queue -/
  stores : List (Nat × List Byte)
  /-- stores of the writes that DEFAULTS makes at the next tick (R345) -/
  late : List (Nat × List Byte)
  /-- writes applied at the next tick (R339, R345): parameter, first element, data -/
  batch : List (Nat × Nat × List Byte)
  /-- edge triggers latched; occurrences not notified yet, by trigger; triggers whose action has been issued (R351) -/
  edge : Nat
  /-- occurrences not notified yet, by trigger (R351) -/
  hits : Store Nat
  /-- triggers whose action has been issued (R351) -/
  acted : Nat
  /-- device Penumbra has been entered for a trigger -/
  pen : Bool
  /-- the policy layer has asked for Hold, and the request is pending or was refused (R351) -/
  hold : Bool
  /-- PPS lost, since EV 19 and until EV 20 -/
  pps : Bool
  /-- full hours of this run already counted (P00.000D) -/
  hours : Nat
  deriving DecidableEq, Repr

def DictSt.reset : DictSt :=
  { vals := [], user := [], vers := [], bid := 0, check := 0, staged := none, fresh := [], reqs := [], stores := [], late := [], batch := [], edge := 0, hits := [],
    acted := 0, pen := false, hold := false, pps := false, hours := 0 }

/-! ## The machine -/

/-- The whole machine. -/
structure State where
  /-- software-visible register fields, by `Fam.key`; unlisted: the field's reset value -/
  flds : Store Nat
  /-- the SRAM of the core address space (09, R213), byte by byte; unlisted: 0 (R229) -/
  mem : List Host.Cell
  /-- back copy of the latched areas I, IW, S and T of the process image, by offset (06, R165); unlisted: 0 -/
  back : List Host.Cell
  /-- working copy of the areas Q and QW, by offset (06, R166); unlisted: 0 -/
  work : List Host.Cell
  /-- NOR flash, by offset; unlisted: 0xFF (09, R229) -/
  nor : List Host.Cell
  /-- Keep array, by offset in the Keep window; unlisted: 0xFF (09, R229) -/
  arr : List Host.Cell
  /-- memory beside its bytes, checker and DMA (09, 10) -/
  m : MemSt
  /-- farm time, RTC, countdown and Glint (02) -/
  time : TimeSt
  /-- the turn sequencer and the tasks (06) -/
  seq : SeqSt
  /-- event FIFO and records (08) -/
  evt : EventSt
  /-- Umbra and Penumbra beside their registers (07) -/
  exc : ExcSt
  /-- the engines LE0 to LE3 and SV, by number; unlisted: `Eng.reset` (03, 04) -/
  engs : Store Eng
  /-- the event log block (22) -/
  log : LogSt
  /-- off, in reset, starting, up or in Standby (01; 24) -/
  phase : Phase
  /-- the Reflect engine (12) -/
  rfl : RflSt
  /-- drive dies (15) -/
  dies : Store DieSt
  /-- carrier, duties and legs (15, 16) -/
  pwm : PwmSt
  /-- DC link, chopper and Rolls (16) -/
  dlnk : DlnkSt
  /-- field I/O (20) -/
  dio : DioSt
  /-- analogue output channels (19) -/
  ao : Store AoSt
  /-- waveform channels (19) -/
  wave : Store WaveSt
  /-- program switches, by engine (11) -/
  prg : Store PrgSt
  /-- the Keep controller (21) -/
  keep : KeepSt
  /-- brick link and life accounting (17) -/
  brick : BrickSt
  /-- converter channels (18) -/
  adc : Store AdcSt
  /-- power, resets and modes (24) -/
  pwr : PwrSt
  /-- firmware replacement (26) -/
  upd : UpdSt
  /-- field ports (14) -/
  ports : Store PortSt
  /-- open sessions by number, whose key is in key slot 4 more (14) -/
  sess : Store Sess
  /-- the crypto accelerator (14) -/
  crypto : CryptoSt
  /-- the Lantern debug block (25) -/
  lan : LanSt
  /-- the Isail dictionary (13) -/
  dict : DictSt
  /-- MODEL'S OWN: how many free values have been used (log entry 7); no statement rests on it -/
  freeCtr : Nat
  /-- commands waiting, first in, first out -/
  pending : List Instr
  deriving DecidableEq, Repr

/-- Why a step can stop with a fault. No command of this model ends in one: what the spec calls a fault is an effect on the state. -/
inductive Fault where
  /-- never raised: kept so that the type is inhabited by a named reason. Safe. -/
  | unused
  deriving DecidableEq, Repr

/-- Why a step can be refused. -/
inductive Refusal where
  /-- raised by the dispatch table for a command that has no meaning yet. Safe. -/
  | notModelled (mnemonic : String)
  deriving DecidableEq, Repr

/-- Register fields whose reset value differs within a table row: `EVT.ENAw`, `EVT.LOGEw` (08, R211), `EVT.CFGs.PRIO`; `FPp.CFG.KIND` and the MAC addresses, from the unique identifier (14). -/
def resetFlds : Store Nat :=
  [(8591648768, 519634943),
   (8591648896, 4294967295),
   (8591649024, 4294967295),
   (8591649152, 0),
   (8591649280, 4294901767),
   (8591649408, 8388607),
   (8591649536, 33488959),
   (8591649664, 4291611852),
   (8591649792, 16777087),
   (8591652864, 519634943),
   (8591652992, 4294967295),
   (8591653120, 4294967295),
   (8591653248, 0),
   (8591653376, 4294901767),
   (8591653504, 8388607),
   (8591653632, 33488959),
   (8591653760, 4291611852),
   (8591653888, 16777087),
   (8591671296, 0),
   (8591672192, 0),
   (8591672448, 0),
   (8592294400, (Config.uid 0).toNat % 2 ^ 24 * 256 + 2),
   (8592294528, (Config.uid 0).toNat / 2 ^ 24 + (Config.uid 1).toNat % 256 * 256),
   (8592425472, (Config.uid 0).toNat % 2 ^ 24 * 256 + 2),
   (8592425600, (Config.uid 0).toNat / 2 ^ 24 + (Config.uid 1).toNat % 256 * 256),
   (8592556063, 1),
   (8592687135, 1),
   (8592818207, 1),
   (8592949279, 1)]

/-- The machine right after power-on reset (24, R567, R585 step 1; COLD, 09 R233): every register at its reset value, every array cleared, nothing held. -/
def State.reset : State :=
  { flds := resetFlds,
    mem := [],
    back := [],
    work := [],
    nor := [],
    arr := [],
    m := MemSt.reset,
    time := TimeSt.reset,
    seq := SeqSt.reset,
    evt := EventSt.reset,
    exc := ExcSt.reset,
    engs := [],
    log := LogSt.reset,
    phase := .reset,
    rfl := RflSt.reset,
    dies := [],
    pwm := PwmSt.reset,
    dlnk := DlnkSt.reset,
    dio := DioSt.reset,
    ao := [],
    wave := [],
    prg := [],
    keep := KeepSt.reset,
    brick := BrickSt.reset,
    adc := [],
    pwr := PwrSt.reset,
    upd := UpdSt.reset,
    ports := [],
    sess := [],
    crypto := CryptoSt.reset,
    lan := LanSt.reset,
    dict := DictSt.reset,
    freeCtr := 0,
    pending := [] }


end Sys2Proof.Machine
end

