-- ==== Sys2Proof/Machine/Ops.lean ====
section
/-! DEFINITION. Machine/Ops.lean: the named operations every block uses: register fields, engines, tasks, memory bytes, the mode and the
scopes, and the append to the event log. -/

namespace Sys2Proof.Machine

/-! ## Register fields (00, R3-R7) -/

/-- Read a register field. -/
def State.get (s : State) (f : Fam) (i : Nat := 0) (j : Nat := 0) : Nat := s.flds.getD (f.key i j) f.reset

/-- Write a register field; the value is cut to the field's width. -/
def State.put (s : State) (f : Fam) (v : Nat) (i : Nat := 0) (j : Nat := 0) : State :=
  { s with flds := Store.put (f.key i j) (v % 2 ^ f.width) s.flds }

/-- A one-bit field as a Boolean. -/
def State.is (s : State) (f : Fam) (i : Nat := 0) (j : Nat := 0) : Bool := s.get f i j != 0

/-- Count in a field, saturating at its width. -/
def State.bump (s : State) (f : Fam) (i : Nat := 0) (k : Nat := 1) : State := s.put f (satAdd f.width (s.get f i) k) i

/-- Count in a field that wraps. -/
def State.wrapUp (s : State) (f : Fam) (i : Nat := 0) : State := s.put f (s.get f i + 1) i

/-- Set or clear one bit of a field. -/
def State.putBit (s : State) (f : Fam) (b : Nat) (v : Bool) (i : Nat := 0) : State := s.put f (setBit (s.get f i) b v) i

/-- A 64-bit value held in two 32-bit fields. -/
def State.get64 (s : State) (lo hi : Fam) (i : Nat := 0) : Nat := s.get lo i + 2 ^ 32 * s.get hi i

def State.put64 (s : State) (lo hi : Fam) (v : Nat) (i : Nat := 0) : State := (s.put lo v i).put hi (v / 2 ^ 32) i

/-- A value the spec leaves undefined: one nobody chose (log entry 7). -/
def State.free (s : State) : Nat × State := (Config.freeNat s.freeCtr, { s with freeCtr := s.freeCtr + 1 })

/-! ## Engines, tasks, agents -/

def State.eng (s : State) (e : Nat) : Eng := s.engs.getD e (Eng.reset e)
def State.setEng (s : State) (e : Nat) (x : Eng) : State := { s with engs := Store.put e x s.engs }
def State.upE (s : State) (e : Nat) (f : Eng → Eng) : State := s.setEng e (f (s.eng e))

def State.task (s : State) (n : Nat) : TaskSt := s.seq.tasks.getD n TaskSt.reset
def State.setTask (s : State) (n : Nat) (x : TaskSt) : State := { s with seq := { s.seq with tasks := Store.put n x s.seq.tasks } }
def State.upT (s : State) (n : Nat) (f : TaskSt → TaskSt) : State := s.setTask n (f (s.task n))
/-- Change the instance of a task, if it has one. -/
def State.upI (s : State) (n : Nat) (f : Inst → Inst) : State := s.upT n fun t => { t with inst := t.inst.map f }

/-- Apply an operation to a list of indices in turn. -/
def State.forAll (l : List α) (f : α → State → State) (s : State) : State := l.foldl (fun s x => f x s) s

/-! ## Ports and G registers of an engine (03, R69, R81) -/

/-- A number as a word. -/
def word (n : Nat) : Word := BitVec.ofNat 32 n

def Eng.port (x : Eng) (p : Nat) : Word := x.ports.getD p 0#32
def Eng.setPort (x : Eng) (p : Nat) (v : Word) : Eng := { x with ports := Store.put p v x.ports }

/-- Where a G register of a bank is kept: the SV file and G32-G127 have no banks (03, R81). -/
def gKey (sv : Bool) (bank r : Nat) : Nat := if r < 32 && !sv then 32 * bank + r else 1000 + r

def Eng.gReg (x : Eng) (sv : Bool) (r : Nat) : Word := x.g.getD (gKey sv x.gbank r) 0#32
def Eng.setG (x : Eng) (sv : Bool) (r : Nat) (v : Word) : Eng := { x with g := Store.put (gKey sv x.gbank r) v x.g }

/-! ## Memory bytes -/

/-- Read a byte cell; `d` is what an unlisted address reads as. -/
def cellGet (d : Byte) (t : List Host.Cell) (a : Nat) : Byte := Store.getD t a d
/-- Write a byte cell, keeping the form: no entry equals what an unlisted address reads as. -/
def cellPut (d : Byte) (a : Nat) (b : Byte) (t : List Host.Cell) : List Host.Cell := if b = d then Store.del a t else Store.put a b t

def cellsGet (d : Byte) (t : List Host.Cell) (a : Nat) : Nat → List Byte
  | 0 => []
  | n + 1 => cellGet d t a :: cellsGet d t (a + 1) n

def cellsPut (d : Byte) (a : Nat) : List Byte → List Host.Cell → List Host.Cell
  | [], t => t
  | b :: r, t => cellsPut d (a + 1) r (cellPut d a b t)

/-- The canonical form of a byte memory. -/
def cellsWf (d : Byte) (t : List Host.Cell) : Bool := Store.sorted t && t.all fun c => c.2 != d

/-- SRAM reads 0, the flash and the Keep array read 0xFF where nothing has been written (09, R229). -/
def State.mb (s : State) (a : Nat) : Byte := cellGet 0#8 s.mem a
def State.mbs (s : State) (a n : Nat) : List Byte := cellsGet 0#8 s.mem a n
def State.mw (s : State) (a : Nat) : Nat := leNat (s.mbs a 4)
def State.setMem (s : State) (a : Nat) (l : List Byte) : State := { s with mem := cellsPut 0#8 a l s.mem }
def State.norBytes (s : State) (a n : Nat) : List Byte := cellsGet 0xFF#8 s.nor a n
def State.setNor (s : State) (a : Nat) (l : List Byte) : State := { s with nor := cellsPut 0xFF#8 a l s.nor }
def State.arrBytes (s : State) (a n : Nat) : List Byte := cellsGet 0xFF#8 s.arr a n
def State.setArr (s : State) (a : Nat) (l : List Byte) : State := { s with arr := cellsPut 0xFF#8 a l s.arr }

/-! ## The SRAM arrays (09, R213, R220) -/

def inRange (a lo n : Nat) : Bool := decide (lo ≤ a) && decide (a < lo + n)

/-- The SRAM array of an address: its code and the bytes of its ECC word. -/
def arrayOf (a : Nat) : Option (Nat × Nat) :=
  if inRange a 0x01000000 0x400000 then some (0x10 + (a - 0x01000000) / 0x80000, 8)
  else if inRange a 0x02000000 0x100000 then some (0x20 + (a - 0x02000000) / 0x40000, 4)
  else if inRange a 0x02100000 0x100000 then some (0x24, 4)
  else if inRange a 0x03000000 0x10000 then some (0x30, 4)
  else if inRange a 0x05000000 0x20000 then some (0x40 + (a - 0x05000000) / 0x8000, 4)
  else if inRange a 0x06000000 0x10000 then some (0x50, 4)
  else if inRange a 0xE0000000 0x14000 then some (0x60 + (a - 0xE0000000) / 0x4000, 4)
  else none

/-- The copies of a word that check bits are kept for: 0 memory, 1 and 2 the back and the working copy of the image (06, R165, R166), 3 and 4
the instruction and the data cache of SV, 5 the peripheral buffers. The array and the bytes of a word of a copy at an address (R220). -/
def arrayIn (copy a : Nat) : Option (Nat × Nat) :=
  if copy = 3 then some (0x70, 4) else if copy = 4 then some (0x71, 4) else if copy = 5 then some (0x80, 4) else arrayOf a

/-- Key of a word in the table of check bits. -/
def eccKey (copy a : Nat) : Nat := copy * 2 ^ 32 + a

/-- Where the entries of a queue of the peripheral buffer RAM stand: base, places and bytes of a place (23, R553; DESIGN CHOICE, log entry 144). Queues:
0-5 and 6-11 the receive and transmit queues of the ports, 12 the log, 13 Keep, 14 and 15 the jobs of SV and of the commit, 16 the Reflect
records, 17 the deferred writes, 18 the monitor. -/
def queueAt (k : Nat) : Nat × Nat × Nat :=
  if k < 12 then (0x10000 + 0x10000 * k, 32, 0x800)
  else if k = 12 then (0xD0000, 128, 0x10)
  else if k = 13 then (0x100000, 64, 0x1000)
  else if k = 14 then (0xD1000, 8, 0x20)
  else if k = 15 then (0xD8000, 16, 0x800)
  else if k = 16 then (0x140000, 48, 0x1000)
  else if k = 17 then (0x170000, 64, 0x800)
  else (0x190000, 8, 0x400)

/-- Base key and size in bytes of an array by code; the caches are scrubbed over their 32 KiB, the peripheral buffers over all of them (log entry
144). -/
def arraySpan (c : Nat) : Option (Nat × Nat) :=
  if inRange c 0x10 8 then some (0x01000000 + (c - 0x10) * 0x80000, 0x80000)
  else if inRange c 0x20 4 then some (0x02000000 + (c - 0x20) * 0x40000, 0x40000)
  else if c = 0x24 then some (0x02100000, 0x100000)
  else if c = 0x30 then some (0x03000000, 0x10000)
  else if inRange c 0x40 4 then some (0x05000000 + (c - 0x40) * 0x8000, 0x8000)
  else if c = 0x50 then some (0x06000000, 0x10000)
  else if inRange c 0x60 5 then some (0xE0000000 + (c - 0x60) * 0x4000, 0x4000)
  else if c = 0x70 || c = 0x71 then some (0, 0x8000)
  else if c = 0x80 then some (0, 0x192000)
  else none

/-- Codes listed in R220. -/
def arrayCode (c : Nat) : Bool := (arraySpan c).isSome

def arrayCodes : List Nat :=
  (List.range 8).map (0x10 + ·) ++ [0x20, 0x21, 0x22, 0x23, 0x24, 0x30, 0x40, 0x41, 0x42, 0x43, 0x50, 0x60, 0x61, 0x62, 0x63, 0x64, 0x70, 0x71, 0x80]

/-- Word addresses that `n` bytes from `a` touch, for ECC words of `w` bytes. -/
def wordsOf (w a n : Nat) : List Nat :=
  (List.range ((a % w + n + w - 1) / w)).map fun i => a - a % w + w * i

/-- The line of a cache of SV that an address lies in: 32 bytes (04, R123). -/
def line (a : Nat) : Nat := a / 32

def State.setEcc (s : State) (key st : Nat) : State :=
  { s with m := { s.m with ecc := if st = 0 then Store.del key s.m.ecc else Store.put key st s.m.ecc } }

/-- The check bits that a whole-word write stores: armed injection spoils them once (R226). -/
def State.eccStore (key : Nat) (s : State) : State :=
  match s.m.inject, arrayIn (key / 2 ^ 32) (key % 2 ^ 32) with
  | some (c, mode), some (code, _) =>
    if c = code then ({ s with m := { s.m with inject := none } }.put R.SYS_ECC_INJ_ARMED 0).setEcc key mode else s.setEcc key 0
  | _, _ => s.setEcc key 0

/-- Places in the peripheral buffer RAM 0x80 (log entry 144); the event FIFO stands at 0. -/
def bufFlash : Nat := 0x1000
def bufRec : Nat := 0x2000
def bufAdc (ch word : Nat) : Nat := 0x3000 + 128 * ch + 4 * (word % 32)

/-- Words of the peripheral buffer RAM are written, check bits with them (R220, R226); without an error anywhere and none to be injected nothing
changes. -/
def State.bufStore (a n : Nat) (s : State) : State :=
  if s.m.inject.isNone && s.m.ecc.isEmpty then s else State.forAll (wordsOf 4 a n) (fun x s => s.eccStore (eccKey 5 x)) s

/-- An entry of `n` bytes enters queue `k` (23, R553). -/
def State.qStore (k n : Nat) (s : State) : State :=
  let q := queueAt k
  let c := s.m.qin.getD k 0
  State.bufStore (q.1 + q.2.2 * c) (min n q.2.2) { s with m := { s.m with qin := Store.put k ((c + 1) % q.2.1) s.m.qin } }

/-- A byte of a line of the data cache. -/
def State.cacheByte (s : State) (a : Nat) : Byte :=
  match Store.find (line a) s.m.dcache with
  | some c => c.data.getD (a % 32) 0#8
  | none => 0#8

/-- Change a byte of a line that the data cache holds. -/
def State.cachePut (a : Nat) (b : Byte) (s : State) : State :=
  match Store.find (line a) s.m.dcache with
  | some c => { s with m := { s.m with dcache := Store.put (line a) { c with data := c.data.set (a % 32) b } s.m.dcache } }
  | none => s

/-- Bytes of a copy: of the image, of memory, or of the data cache. -/
def State.copyBytes (s : State) (copy a n : Nat) : List Byte :=
  if copy = 1 then cellsGet 0#8 s.back (a - 0x03000000) n
  else if copy = 2 then cellsGet 0#8 s.work (a - 0x03000000) n
  else if copy = 4 then (List.range n).map fun i => s.cacheByte (a + i)
  else s.mbs a n

/-! ## The swept set and its dirty bits (12, R314, R316) -/

/-- Linear offset of an image offset in the working-copy part and the committed part of the swept set. -/
def imgSwept (work : Bool) (o : Nat) : Option Nat :=
  if inRange o 0x0800 0x0800 then some (if work then o - 0x0800 else 0x8800 + (o - 0x0800))
  else if inRange o 0x1000 0x4000 then some (0x0800 + (o - 0x1000))
  else if inRange o 0x9000 0x4000 then some (if work then 0x4800 + (o - 0x9000) else 0x9000 + (o - 0x9000))
  else none

/-- The 64-byte block of the swept set that holds an address, if any. -/
def sweptBlock (work : Bool) (a : Nat) : Option Nat :=
  if inRange a 0x02000000 0x200000 then some ((a - 0x02000000) / 64)
  else if inRange a 0xE0000000 0x10000 then some (512 * 64 + (a - 0xE0000000) / 64)
  else if inRange a 0x06000000 0x10000 then some (528 * 64 + (a - 0x06000000) / 64)
  else if inRange a 0x03000000 0x10000 then (imgSwept work (a - 0x03000000)).map fun o => 544 * 64 + o / 64
  else none

/-- The blocks that `n` bytes from `a` on lie in. -/
def sweptBlocks (work : Bool) (a n : Nat) : List Nat :=
  if n = 0 then [] else (List.range ((a % 64 + n + 63) / 64)).filterMap fun i => sweptBlock work (a - a % 64 + 64 * i)

/-- The blocks of a write are dirty while the Lead's rounds run (R316). -/
def State.markDirty (work : Bool) (a n : Nat) (s : State) : State :=
  if s.get R.RFL_STAT_ROLE == 1 && (s.get R.RFL_STAT_REJ == 2 || s.get R.RFL_STAT_REJ == 3) then
    State.forAll (sweptBlocks work a n)
      (fun b s => { s with rfl := { s.rfl with dirty := Store.put (b / 64) (s.rfl.dirty.getD (b / 64) 0 ||| 2 ^ (b % 64)) s.rfl.dirty } }) s
  else s

/-- Store bytes into a copy. -/
def State.setCopy (s : State) (copy a : Nat) (l : List Byte) : State :=
  if copy = 1 then { s with back := cellsPut 0#8 (a - 0x03000000) l s.back }
  else if copy = 2 then State.markDirty true a l.length { s with work := cellsPut 0#8 (a - 0x03000000) l s.work }
  else if copy = 4 then State.forAll ((List.range l.length).zip l) (fun p s => s.cachePut (a + p.1) p.2) s
  else (s.setMem a l).markDirty false a l.length

/-- Write whole words: they replace what stood there, errors included (R223). -/
def State.putWords (copy a : Nat) (l : List Byte) (s : State) : State :=
  State.forAll (wordsOf (((arrayIn copy a).map Prod.snd).getD 4) a l.length) (fun x s => s.eccStore (eccKey copy x)) (s.setCopy copy a l)

/-- Size of the flash in bytes (R623; 09, R218). -/
def State.flashSize (s : State) : Nat := s.get R.UPD_FINFO_MIB * 0x100000

/-! ## Mode and scopes (01, R13-R20; 07, R189) -/

/-- Ticks release and commit tasks: the device is in Run. -/
def State.inRun (s : State) : Bool := s.get R.SYS_MODE_MODE == 0

/-- Scope codes: 0 device, 1 bridge, 2 chopper, 4-7 engine LE0-LE3. -/
def State.umbraFlag (s : State) (scope : Nat) : Bool :=
  if scope = 0 then s.is R.EXC_STAT_DUMB
  else if scope = 1 then s.is R.EXC_STAT_BUMB
  else if scope = 2 then s.is R.EXC_STAT_CUMB
  else if 4 ≤ scope then bit (s.get R.EXC_STAT_EUMB) (scope - 4)
  else false

/-- The scope holds its Umbra content: its own Umbra, the device's (07, R189), or Hold (01, R15). -/
def State.umbra (s : State) (scope : Nat) : Bool := s.umbraFlag scope || s.umbraFlag 0

def State.dark (s : State) (scope : Nat) : Bool := s.umbra scope || !s.inRun

/-- Engine `e` is shedding (06, R162; 07, R196: device Penumbra sheds every engine with K not 0). -/
def State.shedding (s : State) (e : Nat) : Bool :=
  (if s.is R.TSK_SHED_ACTIVE e then !s.seq.endTick.contains e else s.seq.shedTick.contains e && s.get R.TSK_SHED_K e != 0) ||
    (s.is R.EXC_STAT_DPEN && s.get R.TSK_SHED_K e != 0)

/-- The engine is halted by Lantern (25, R607). -/
def State.halted (s : State) (e : Nat) : Bool := bit (s.get R.LANT_HALTST_HALTED) e

def State.now (s : State) : Nat := s.time.farm

/-- Turn period in CD2 cycles (02, R38). -/
def State.period (s : State) : Nat := s.get R.TURN_PERIOD_P

/-! ## The Reflect link (12) -/

/-- The unit is Lead of a pair (R287). -/
def State.lead (s : State) : Bool := s.get R.RFL_STAT_ROLE == 1

/-- Bytes of the frames that the record has so far (R296, R300). -/
def State.recordBytes (s : State) : Nat :=
  ((s.rfl.frames.filter fun f => f.seq == s.get R.RFL_SEQ_TX).map fun f => f.payload.length + 16).sum

/-- Engine cycles since the latch end of the running turn; none between its tick and that (R301). -/
def State.turnCycles (s : State) : Nat := if s.seq.inLatch then 0 else (s.time.real - s.rfl.latchT) * 2 / 5

/-- Put an entry into the deferred-write buffer: 64 descriptors and 1536 data bytes (R305; 13, R342). -/
def State.defer (c : CtrlEnt) (s : State) : State × Bool :=
  if 64 ≤ s.rfl.dw.length ∨ 1536 < (s.rfl.dw.map fun e => e.data.length).sum + c.data.length then (s.put R.RFL_STAT_DWFULL 1, false)
  else ({ s with rfl := { s.rfl with dw := s.rfl.dw ++ [c] } }.qStore 17 (16 + c.data.length), true)

/-- A register write of a Lead in Run that takes effect at the same tick on both units (R305). -/
def State.control (a v : Nat) (op : State → State) (s : State) : State :=
  if s.lead && s.inRun then (s.defer { addr := a, kind := 1, data := leBytes 4 v }).1 else op s

/-! ## Time passing (02, R27, R47, R50) -/

/-- CD0 cycles pass: the RTC counts, and the countdown down to 0, its 1 Hz at the carry into SEC (DESIGN CHOICE, log entry 168); what follows there is
a command (R47, R50). -/
def State.rtcPass (n : Nat) (s : State) : State :=
  if n = 0 then s
  else
    let sub := s.get R.RTC_SUB_SS + n
    let sec := s.get R.RTC_SEC_S + sub / 32768
    let k := if s.is R.RTC_CDN_CTL_CLK then n else sub / 32768
    let v := s.get R.RTC_CDN_VAL_V
    let s := (s.put R.RTC_SUB_SS (sub % 32768)).put R.RTC_SEC_S sec
    let s := if 2 ^ 32 ≤ sec then s.put R.RTC_STAT_INVALID 1 else s
    if s.is R.RTC_CDN_CTL_EN then s.put R.RTC_CDN_VAL_V (v - k) else s

/-- Farm time runs: the core die has its clocks (R27; 24, R585). -/
def State.farmRuns (s : State) : Bool := s.phase == .up || s.phase == .starting

/-- The copy into the last-word register ends (09, R234). -/
def State.lwPass (s : State) : State := if s.is R.RTC_BKSTAT_LWBUSY && decide (s.time.lwUntil ≤ s.time.real) then s.put R.RTC_BKSTAT_LWBUSY 0 else s

/-- `k` CD2 cycles pass; farm time runs with the correction of R27 while the core die runs. -/
def State.cyclesRun (k : Nat) (s : State) : State :=
  let c := toSigned 32 (s.get R.TIME_CORR_C)
  let a := s.time.spread + k * c.natAbs
  let n := a / 1000000000
  let r := s.time.cd0 + k * 327680
  let farm := if c < 0 then s.time.farm + 10 * k - 10 * n else s.time.farm + 10 * k + 10 * n
  let run := s.farmRuns
  { s with time := { s.time with farm := if run then farm else s.time.farm, spread := if run then a % 1000000000 else s.time.spread,
                                 real := s.time.real + 10 * k, cd0 := r % 1000000000 } }.lwPass.rtcPass (r / 1000000000)

/-- CD2 cycles until farm time first equals or passes an instant `d` units of 10 ns ahead (R27, R38). -/
def cyclesTo (c : Int) (spread d : Nat) : Nat :=
  if c < 0 then ((d - 1) * 1000000000 + spread) / (1000000000 - c.natAbs) + 1
  else ceilDiv (d * 1000000000 - spread) (1000000000 + c.natAbs)

/-- Farm time at the last CD0 edge: as many CD2 cycles back as the fraction of a CD0 cycle holds, with the corrections among them (R27, R51), as
the present correction and scale give them (DESIGN CHOICE, log entry 181). -/
def State.cd0Edge (s : State) : Nat :=
  let c := toSigned 32 (s.get R.TIME_CORR_C)
  let j := s.time.cd0 / 327680
  let n := ceilDiv (j * c.natAbs - s.time.spread) 1000000000
  s.now - (if c < 0 then 10 * j - 10 * n else 10 * j + 10 * n)

/-- The Glint capture in progress takes its values: farm time is at its instant (R51). The turn is the one that a
tick at that very instant begins. -/
def State.glintTake (s : State) : State :=
  let turn := match s.time.nextTick with
    | some t => if t ≤ s.now then (t / 10 - s.get R.TURN_PHASE_PHI) / max 1 (s.get R.TURN_PERIOD_P) else s.get R.TURN_COUNT_COUNT
    | none => s.get R.TURN_COUNT_COUNT
  { s with time := { s.time with glTaken := some (turn, s.get R.RTC_SEC_S, s.get R.RTC_SUB_SS, s.cd0Edge) } }

/-- CD2 cycles until the instant of a Glint capture that has not taken its values yet, while farm time runs. -/
def State.glintIn (s : State) : Option Nat :=
  match s.time.glint, s.time.glTaken with
  | some t, none =>
    if !s.farmRuns then none
    else some (if s.now < t then cyclesTo (toSigned 32 (s.get R.TIME_CORR_C)) s.time.spread (ceilDiv (t - s.now) 10) else 0)
  | _, _ => none

/-- `k` CD2 cycles pass; a Glint capture whose instant lies among them takes its values there (R51). -/
def State.cyclesPass (k : Nat) (s : State) : State :=
  match s.glintIn with
  | some j => if j ≤ k then ((s.cyclesRun j).glintTake).cyclesRun (k - j) else s.cyclesRun k
  | none => s.cyclesRun k

/-- Time moves forward to an instant of farm time. -/
def State.advance (s : State) (t : Nat) : State :=
  if s.time.farm < t then s.cyclesPass (cyclesTo (toSigned 32 (s.get R.TIME_CORR_C)) s.time.spread (ceilDiv (t - s.time.farm) 10)) else s

/-- Time moves forward to an instant of crystal time, which no step of farm time touches. -/
def State.advanceReal (s : State) (t : Nat) : State := if s.time.real < t then s.cyclesPass (ceilDiv (t - s.time.real) 10) else s

/-! ## Appending to the log (22, R545-R547) -/

/-- Pinned entries in a list of Keep requests. -/
def pinsIn (l : List KeepReq) : Nat := (l.filter fun r => match r with | .log e => e.pin | _ => false).length

/-- Present entries that count as pinned, those on their way to K1 included. -/
def State.pinCount (s : State) : Nat :=
  s.log.pins.length + ((s.log.queue.filter LogEntry.pin).length + pinsIn s.keep.queue + pinsIn s.keep.late - s.log.loose)

/-- The RAM buffer keeps the 256 newest (R547). -/
def keepLast (n : Nat) (l : List α) : List α := l.drop (l.length - n)

/-- Data bytes that a request holds in the Keep write queue (21, R530). -/
def KeepReq.bytes : KeepReq → Nat
  | .raw _ d => d.length
  | .ringWrite _ _ => 8
  | .ringDefine _ _ _ _ => 12
  | .ringUndefine _ => 0
  | .scInc _ => 0
  | .scSet _ _ => 4
  | .store _ _ d => d.length
  | .save _ => 0
  | .eraseBank _ => 0
  | .log _ => 8

/-- Entries and bytes in the Keep write queue. -/
def State.keepLen (s : State) : Nat := s.keep.queue.length + s.keep.late.length
def State.keepBytes (s : State) : Nat := ((s.keep.queue ++ s.keep.late).map KeepReq.bytes).sum

/-- There is room for all of several requests (R530; 23, R559). -/
def State.keepRooms (s : State) (l : List KeepReq) : Bool :=
  decide (s.keepLen + l.length ≤ if s.keep.pfail then 64 else 62) &&
    decide (s.keepBytes + (l.map KeepReq.bytes).sum ≤ if s.keep.pfail then 16384 else 15872)

/-- There is room: 64 requests and 16 KiB, of which 2 and 512 bytes are kept for requests after the power-fail warning (23, R559). -/
def State.keepRoom (s : State) (r : KeepReq) : Bool :=
  if s.keep.pfail then decide (s.keepLen < 64) && decide (s.keepBytes + r.bytes ≤ 16384)
  else decide (s.keepLen < 62) && decide (s.keepBytes + r.bytes ≤ 15872)

/-- A request enters the Keep write queue (R530, R531). -/
def State.keepPush (r : KeepReq) (s : State) : State :=
  let k := s.keep
  { s with keep := if k.pfail then { k with late := k.late ++ [r] } else { k with queue := k.queue ++ [r] } }.wrapUp R.KEEP_QSEQ_N |>.qStore 13 (16 + r.bytes)

/-- Entries of the log queue move into the Keep write queue, at most 8 outstanding there (R546). -/
def State.logPump : Nat → State → State
  | 0, s => s
  | k + 1, s =>
    match s.log.queue with
    | [] => s
    | e :: r =>
      if s.log.outstanding < 8 ∧ s.keepRoom (.log e) then
        State.logPump k ({ s with log := { s.log with queue := r, outstanding := s.log.outstanding + 1 } }.keepPush (.log e))
      else s

/-- Put an entry into the log queue and the RAM buffer, or into the RAM buffer alone (R546, R547). -/
def State.logQueue (ramOnly : Bool) (e : LogEntry) (s : State) : State :=
  let s := s.wrapUp R.LOG_SEQ_N
  let ram := keepLast 256 (s.log.ram ++ [{ e with ramOnly := ramOnly }])
  let s := { s with log := { s.log with ram := ram, counts := Store.put e.cls (Store.getD s.log.counts e.cls 0 + 1) s.log.counts } }
  if ramOnly then s else ({ s with log := { s.log with queue := s.log.queue ++ [e] } }.qStore 12 16).logPump 64

/-- When room has returned, message 0x0001 carries the count lost (R546); it takes no place that is kept for SV. -/
def State.logLost (s : State) : State :=
  if s.log.lostSince = 0 ∨ 63 ≤ s.log.queue.length ∨ s.is R.LOG_STAT_FAILED then s
  else
    { s with log := { s.log with lostSince := 0 } }.logQueue (decide (1 < s.get R.LOG_CTL_MINCLS))
      { time := s.now / 1000, kind := 2, code := 1, data := min 65535 s.log.lostSince, cls := 1, pin := false, origin := false,
        copy := false, ramOnly := false }

/-- The log queue drains; the message on what was lost follows as soon as there is room for it (R546). -/
def State.logDrain (s : State) : State := (s.logPump 64).logLost

/-- Append an entry whose pin has been decided; `sv` may use the last free place of the queue (R546). -/
def State.logPut (s : State) (sv : Bool) (e : LogEntry) : State :=
  if !s.is R.LOG_CTL_EN then s
  else
    let s := s.logLost
    let low := e.cls < s.get R.LOG_CTL_MINCLS && e.kind != 3
    let full := decide ((if sv then 64 else 63) ≤ s.log.queue.length)
    let failed := s.is R.LOG_STAT_FAILED
    let lost := full && !low && !failed
    let s := s.logQueue (low || full || failed) e
    if lost then { s with log := { s.log with lostSince := s.log.lostSince + 1 } }.bump R.LOG_LOST_N else s

/-- A message (R540). -/
def State.message (s : State) (code data cls : Nat) (pin : Bool) : LogEntry :=
  { time := s.now / 1000, kind := 2, code := code, data := data, cls := cls, pin := pin, origin := false, copy := false, ramOnly := false }

/-- A message entry of the block itself (R540). -/
def State.logMsg (s : State) (code data cls : Nat) : State := s.logPut false (s.message code data cls false)

/-- Append an entry; a pin beyond the limit is refused (R545). -/
def State.logAdd (s : State) (sv : Bool) (e : LogEntry) : State :=
  if e.pin && decide (s.get R.LOG_PINLIM_N ≤ s.pinCount) then
    let s := (s.put R.LOG_STAT_PINFULL 1).logPut sv { e with pin := false }
    if s.log.pinTold then s else { s with log := { s.log with pinTold := true } }.logMsg 4 0 1
  else s.logPut sv e

/-- Entries on their way to K1 (R546). -/
def State.logPending (s : State) : Nat := s.log.queue.length + s.log.outstanding

/-- The RAM buffer with its newest `n` entries that were bound for K1 marked as held only in RAM (R547, R551). -/
def markHeld (n : Nat) (l : List LogEntry) : List LogEntry :=
  (l.foldr (fun e (a : List LogEntry × Nat) =>
    if e.ramOnly then (e :: a.1, a.2) else if a.2 < n then ({ e with ramOnly := true } :: a.1, a.2 + 1) else (e :: a.1, a.2)) ([], 0)).1

/-- A fault entry (R540): classes 3 and 4 are pinned while PINFAULT is 1. -/
def State.logFault (s : State) (cause cls eng : Nat) (task : Option Nat) (t : Nat) : State :=
  s.logAdd false
    { time := t / 1000, kind := 1, code := cause, data := (task.getD 0) + (if task.isSome then 64 else 0) + 256 * eng, cls := cls,
      pin := decide (3 ≤ cls) && s.is R.LOG_CTL_PINFAULT, origin := false, copy := false, ramOnly := false }

/-- A warning or note that the spec raises by name (log entry 12): 1 branch stack left at task end, 2 budget exhausted,
3 overrun, 4 boot fell back, 5 group reset, 6 handover, 7 others. SV appends it, so it may use the place kept for SV (R546). -/
def State.warn (s : State) (k data : Nat) : State := s.logPut true (s.message (Config.warnCode k).toNat (data % 65536) 1 false)
def State.note (s : State) (k data : Nat) : State := s.logPut true (s.message (Config.warnCode k).toNat (data % 65536) 0 false)

/-- Payload of EV 12 and EV 13: array code and requester (09, R224). -/
def eccPay (req key : Nat) : Nat := ((arrayIn (key / 2 ^ 32) (key % 2 ^ 32)).map Prod.fst).getD 0 + 256 * req

/-- What a read that finds an error counts and records: a correctable one (`st` 1) with a note, or an uncorrectable one (09, R221, R222). -/
def State.eccCount (req key st : Nat) (s : State) : State :=
  let pay := eccPay req key
  if st = 1 then
    (((((s.bump R.SYS_ECC_CNT_CE).put R.SYS_ECC_CEADDR_A (key % 2 ^ 32)).put R.SYS_ECC_CEINFO_CODE pay).put R.SYS_ECC_CEINFO_SYN
      (Config.syndrome key).toNat).note 7 pay)
  else
    (((s.bump R.SYS_ECC_CNT_UE).put R.SYS_ECC_UEADDR_A (key % 2 ^ 32)).put R.SYS_ECC_UEINFO_CODE pay).put R.SYS_ECC_UEINFO_SYN
      (Config.syndrome key).toNat

/-- Bytes of the record queue that the frames kept take (23, R560). -/
def framesBytes (l : List RflFrame) : Nat := (l.map fun f => f.payload.length + 16).sum

/-- Frames of the record being sent and of the two before it (12, R296; 23, R560). -/
def State.keptFrames (s : State) : List RflFrame :=
  let q := s.get R.RFL_SEQ_TX
  s.rfl.frames.filter fun f => f.seq == q || (f.seq + 1) % 65536 == q || (f.seq + 2) % 65536 == q

/-- A frame of the present record is sent while the link is up; those of the last two records are kept (12, R296, R299). A frame that finds
no room in the record queue of 192 KiB is not queued, nor is any later one of its record but END, for which 64 bytes are kept (23, R560). -/
def State.rflSend (type : Nat) (d : List Byte) (s : State) (bad : List Nat := []) : State :=
  if !s.is R.RFL_STAT_LINK || (s.rfl.full && type != 6) then s
  else
    let q := s.get R.RFL_SEQ_TX
    let old := s.keptFrames
    if type ≠ 6 ∧ 196608 - 64 < framesBytes old + d.length + 16 then { s with rfl := { s.rfl with full := true } }.warn 7 0x11
    else
      let f : RflFrame := { type := type, seq := q, idx := s.rfl.nextIdx, payload := d, bad := bad, resent := false }
      let s : State := { s with rfl := { s.rfl with frames := old ++ [f], nextIdx := s.rfl.nextIdx + 1 } }
      s.qStore 16 (16 + d.length)

end Sys2Proof.Machine
end

