-- ==== Sys2Proof/Machine/Event.lean ====
section
/-! DEFINITION. Machine/Event.lean: how an occurrence reaches the release path, the FIFO, the engines and the records (08), the release of
tasks (06, R149-R152, R160), and the commands of the event block. -/

namespace Sys2Proof.Machine

/-! ## The sources (08, R200, R205, R208) -/

def evReserved (s : Nat) : Bool :=
  (29 ≤ s && s ≤ 31) || (131 ≤ s && s ≤ 143) || (183 ≤ s && s ≤ 191) || (198 ≤ s && s ≤ 207) || (217 ≤ s && s ≤ 223) ||
    s == 263 || 288 ≤ s

def evLevel (s : Nat) : Bool :=
  s ≤ 6 || s == 128 || s == 129 || (144 ≤ s && s ≤ 175 && s % 4 == 1) || s == 176 || s == 178 || s == 179 ||
    (224 ≤ s && s ≤ 247 && s % 4 == 3) || s == 254 || s == 255 || s == 262

/-- Sources that cannot be masked (R205). -/
def evNmi (s : Nat) : Bool := s == 8 || (81 ≤ s && s ≤ 95 && s % 4 != 0)

/-- Sources that may be subscribed for NOTIFY (R208). -/
def evNotify (s : Nat) : Bool :=
  !evReserved s && !(s == 16 || s == 17 || (224 ≤ s && s ≤ 247 && s % 4 ≤ 1))

def State.evEna (s : State) (src : Nat) : Bool := evNmi src || bit (s.get R.EVT_ENA_E (src / 32)) (src % 32)
def State.evLoge (s : State) (src : Nat) : Bool := bit (s.get R.EVT_LOGE_E (src / 32)) (src % 32)
def State.evPend (s : State) (src : Nat) : Bool := bit (s.get R.EVT_PEND_P (src / 32)) (src % 32)
def State.evLvl (s : State) (src : Nat) : Bool := bit (s.get R.EVT_LVL_L (src / 32)) (src % 32)
def State.evRec (s : State) (src : Nat) : EvRec := s.evt.recs.getD src EvRec.zero
def State.setRec (s : State) (src : Nat) (r : EvRec) : State := { s with evt := { s.evt with recs := Store.put src r s.evt.recs } }

/-- Power domain `n` is switched off by software (24, R574). -/
def State.domOff (s : State) (n : Nat) : Bool := if n < 32 then bit (s.get R.PWR_DOMOFF_LO_M) n else bit (s.get R.PWR_DOMOFF_HI_M) (n - 32)

/-- Every domain but PD0 is without power: Off, and Standby without an attached debugger (01, R17, R18; 25, R619). -/
def State.unpowered (s : State) : Bool := s.phase == .off || (s.phase == .standby && !s.is R.LANT_STAT_EMUSTBY)

/-- Power domain `n` has no power. -/
def State.domGone (s : State) (n : Nat) : Bool := s.domOff n || (s.unpowered && n != 0)

/-- Sources of the field die: they raise nothing once the die-to-die link is lost (24, R578). -/
def evField (s : Nat) : Bool :=
  s == 4 || s == 5 || s == 6 || s == 23 || s == 24 || s == 26 || (96 ≤ s && s ≤ 130) || (192 ≤ s && s ≤ 197) || (256 ≤ s && s ≤ 262)

/-- Sources are monitored (R211), but not those of a domain that is off or of a lost field die (24, R574, R578). -/
def State.monitored (s : State) (src : Nat) : Bool :=
  match s.phase with
  | .standby => false
  | .off => false
  | .reset => false
  | _ => !evReserved src && !(s.pwr.linkLost && evField src) && !(96 ≤ src && src ≤ 127 && s.domOff 33) && !(src == 130 && s.domOff 34)

/-- The unit is a following Shadow (12, R287). -/
def State.following (s : State) : Bool := s.get R.RFL_STAT_ROLE == 2

/-! ## Releases (06) -/

/-- Engine that a task's descriptor names. -/
def State.tEng (s : State) (n : Nat) : Nat := s.get R.TSK_CFG_ENG n

/-- Period, phase, source and guard of a task's trigger (06, R170). -/
def State.tPeriod (s : State) (n : Nat) : Nat := bits (s.get R.TSK_TRG_W n) 0 13
def State.tPhase (s : State) (n : Nat) : Nat := bits (s.get R.TSK_TRG_W n) 16 13
def State.tSrc (s : State) (n : Nat) : Nat := bits (s.get R.TSK_TRG_W n) 0 9
def State.tGuard (s : State) (n : Nat) : Nat := bits (s.get R.TSK_TRG_W n) 12 20

/-- Base of the engine-private block of an engine (09, R213). -/
def privBase (e : Nat) : Nat := 0xE0000000 + e * 0x4000

/-- Address of a task's context record (09). -/
def State.ctxAddr (s : State) (n : Nat) : Nat := privBase (s.tEng n) + 0x100 * s.get R.TSK_CFG_SLOT n

/-- A released instance is not complete (R160). -/
def Inst.open (i : Inst) : Bool := i.st != .complete

/-- The task has an instance that is not complete. -/
def State.busy (s : State) (n : Nat) : Bool := ((s.task n).inst.map Inst.open).getD false

/-- Frame word 0x04 of a fresh instance (06, R152): P2, accumulator 0, stacks empty; bank and pending upper value kept. -/
def freshStatus (w : Nat) : Nat := bits w 0 1 + 4 + 16 * bits w 4 15

/-- Create the instance and set up its context record (R152, R156). The word that keeps the bank and the pending upper value is written in part: a
correctable error is corrected and counted, and a word that is uncorrectable is left as it is (09, R221-R223); `releaseEv` says what that raises. -/
def State.release (s : State) (n : Nat) : State :=
  let t := s.task n
  let a := s.ctxAddr n
  let i : Inst :=
    { st := .ready, order := s.seq.stamp, budget := s.get R.TSK_BUD_CYC n, charged := 0, ticks := 0, relTurn := s.seq.abs,
      relTick := s.time.tick, relClk := (s.eng (s.tEng n)).tclk, late := false, warned := false, doneAt := 0, nest := [], floor := none }
  let s := { s with seq := { s.seq with stamp := s.seq.stamp + 1 } }
  let e := s.tEng n
  let idle := (s.eng e).nest.isEmpty && !(List.range 48).any fun m => s.tEng m == e && s.busy m
  let s := if idle then s.upE e fun x => { x with wdAt := s.time.real } else s
  let s := s.setTask n { t with inst := some i, done := t.done ++ t.inst.toList }
  let s := s.putWords 0 a (leBytes 4 (s.get R.TSK_ENTRY_IDX n))
  let st := s.m.ecc.getD (a + 4) 0
  let s := if st = 0 then s else s.eccCount 10 (a + 4) st
  if st = 2 then s else (s.setCopy 0 (a + 4) (leBytes 4 (freshStatus (s.mw (a + 4))))).setEcc (a + 4) 0

/-- The occurrence that a release raises: EV 12 or EV 13 of the word of the context record that it writes in part (09, R221-R224). -/
def State.releaseEv (s : State) (n : Nat) : Option (Nat × Nat) :=
  let a := s.ctxAddr n + 4
  match s.m.ecc.getD a 0 with
  | 0 => none
  | st => some (if st = 1 then 12 else 13, eccPay 10 a)

/-- A release falls due while the instance is incomplete (R160, R162), without its event. -/
def State.overrun (s : State) (n : Nat) : State :=
  let s := s.bump R.TSK_CNT_OVR n
  let s := s.upI n fun i => { i with late := true }
  let s := s.bump R.TSK_ST_CONSEC n
  let c := s.get R.TSK_ST_CONSEC n
  let start := (List.range 4).filter fun e => s.get R.TSK_SHED_WATCH e == n && s.get R.TSK_SHED_K e != 0 && s.get R.TSK_SHED_K e == c
  let s := { s with seq := { s.seq with shedStart := s.seq.shedStart ++ start } }
  s.warn 3 n

/-- The unit releases no task of its own (12, R309, R310): a Shadow that does not follow, or a Lead in the turn W of its swap. -/
def State.stands (s : State) : Bool := s.get R.RFL_STAT_ROLE == 3 || s.rfl.swapAt.any fun w => decide (w ≤ s.seq.abs)

/-- A release of task `n` may take effect: no Umbra of its engine (07, R189), not withheld by shedding (R162), not halted (25, R616), in a
unit that releases tasks. -/
def State.mayRelease (s : State) (n : Nat) : Bool :=
  let e := s.tEng n
  !s.umbra (4 + e) && !(s.is R.TSK_CFG_SHEDDABLE n && s.shedding e) && !s.halted e && !s.stands

/-- What becomes of an occurrence that passed the guard (R150, R160): one between a tick and its latch end becomes a release at latch end,
whatever the task is doing now. The state, and the occurrence that this raises: source and payload. -/
def State.consider (s : State) (n : Nat) : State × Option (Nat × Nat) :=
  if s.seq.inLatch || (s.prg.getD (s.tEng n) PrgSt.reset).switching then ({ s with seq := { s.seq with due := s.seq.due ++ [n] } }, none)
  else if s.busy n then
    let s := s.overrun n
    (s, some (32 + n, s.get R.TSK_CNT_OVR n))
  else (s.release n, s.releaseEv n)

/-- The guard of an event-triggered task (R150): the state with the rejection counted or the reference moved, and whether it passed. -/
def State.guardPass (s : State) (n time : Nat) : State × Bool :=
  let t := s.task n
  let reject :=
    match t.guard with
    | none => false
    | some g => decide (time < g + s.tGuard n * 1000)
  if reject then (s.bump R.TSK_CNT_GREJ n, false) else (s.setTask n { t with guard := some time }, true)

/-- One event-triggered task considers an occurrence (R150); a withheld release is no guard rejection (R162). On a Lead it becomes a REL entry; one
between a tick and its latch end goes out after HEAD (12, R299, R301). -/
def State.taskEvent (s : State) (o : Occ) (n : Nat) : State × Option (Nat × Nat) :=
  if s.inRun && (s.task n).enabled && s.mayRelease n && s.is R.TSK_CFG_TRIG n && s.tSrc n == o.src then
    let r := s.guardPass n o.time
    if r.2 then
      let d := leBytes 4 n ++ leBytes 4 r.1.turnCycles ++ leBytes 4 o.time
      let s := if !r.1.lead then r.1 else if r.1.seq.inLatch then { r.1 with rfl := { r.1.rfl with rels := r.1.rfl.rels ++ [d] } } else r.1.rflSend 3 d
      s.consider n
    else (r.1, none)
  else (s, none)

/-- Every task considers an occurrence; the overruns it causes are collected. -/
def State.taskEvents (s : State) (o : Occ) : State × List (Nat × Nat) :=
  (List.range 48).foldl
    (fun r n =>
      let q := r.1.taskEvent o n
      (q.1, r.2 ++ q.2.toList))
    (s, [])

/-! ## The other users of the release lines -/

def State.wv (s : State) (k : Nat) : WaveSt := s.wave.getD k WaveSt.reset
def State.setWv (s : State) (k : Nat) (w : WaveSt) : State := { s with wave := Store.put k w s.wave }

/-- A trigger instant starts an armed waveform channel; a playing one misses it (19, R485). -/
def State.waveTrigger (k : Nat) (s : State) : State :=
  let st := s.get R.WAVE_CH_STAT_STATE k
  if st = 1 then ((s.put R.WAVE_CH_STAT_STATE 2 k).put R.WAVE_CH_PASS_DONE 0 k).setWv k { t0 := s.now, j := 0, p := 0, pre := none }
  else if st = 2 then s.put R.WAVE_CH_STAT_MISS 1 k
  else s

/-- The waveform channels that an occurrence triggers (19, R485). -/
def State.waveEvent (src : Nat) (s : State) : State :=
  State.forAll ((List.range 8).filter fun k => s.get R.WAVE_CH_CTL_TRIG k == 2 && s.get R.WAVE_CH_CTL_EVSRC k == src) State.waveTrigger s

/-- DMA descriptors that wait for an occurrence start (09, R238). -/
def State.dmaEvent (src : Nat) (s : State) : State :=
  State.forAll ((List.range 4).filter fun a => s.is R.DMA_STAT_WAITTRIG a && s.get R.DMA_CTL_TRIGSRC a == src)
    (fun a s => s.put R.DMA_STAT_WAITTRIG 0 a) s

/-- The engine route of an unmasked source (08, R207). -/
def State.routeEvent (s : State) (src : Nat) : State :=
  if s.evEna src && s.is R.EVT_CFG_RTEN src then
    let e := s.get R.EVT_CFG_RENG src
    if s.umbra (4 + e) || !s.inRun || s.is R.EXC_FAULT_FROZEN e then s.put R.EVT_STAT_RTDROP 1
    else s.upE e fun x => if x.routes.contains src then x else { x with routes := x.routes ++ [src] }
  else s

/-- How many entries at the end of the FIFO came at the instant of an occurrence from a greater source (R202). -/
def State.eventAfter (o : Occ) (s : State) : Nat := (s.evt.fifo.reverse.takeWhile fun x => x.time == o.time && decide (o.src < x.src)).length

/-- Put an entry into the RAM of the FIFO, four words of it, among those of its instant in ascending source order (R202; 09, R226). -/
def State.eventPut (o : Occ) (s : State) : State :=
  let k := s.eventAfter o
  let n := s.evt.fifo.length - k
  let s : State := { s with evt := { s.evt with fifo := s.evt.fifo.take n ++ o :: s.evt.fifo.drop n } }
  State.forAll (List.range (k + 1)) (fun i s => s.bufStore (16 * ((s.evt.head + n + i) % 256)) 16) s

/-- Of the occurrences of one instant the one with the greatest source finds no room (R202, R204): the state and the source that loses its record. -/
def State.eventLoser (o : Occ) (s : State) : State × Nat :=
  match s.evt.fifo.getLast? with
  | some l =>
    if 0 < s.eventAfter o ∧ l.src ≠ 15 then ({ s with evt := { s.evt with fifo := s.evt.fifo.dropLast } }.eventPut o, l.src) else (s, o.src)
  | none => (s, o.src)

/-- Offer to the FIFO (R202, R204; the reserved entry is for the EV 15 of an overflow, not for an injected one): the state, and whether EV 15 is to be raised because a record was lost. -/
def State.offer (s : State) (o : Occ) : State × Bool :=
  if !s.evEna o.src then (s, false)
  else if o.src = 15 && !o.inj then (if s.evt.fifo.any (fun x => x.src == 15) then s else s.eventPut o, false)
  else if 255 ≤ s.evt.fifo.length then
    let s := (s.bump R.EVT_LOST_N).put R.EVT_STAT_OVF 1
    let r := s.eventLoser o
    (r.1.setRec r.2 { r.1.evRec r.2 with lostrec := true }, !(s.evt.fifo.any fun x => x.src == 15))
  else (s.eventPut o, false)

/-- Present an occurrence on the release lines and offer it to the FIFO (R201), then the occurrences this itself raises. A chain of
occurrences is followed 64 deep (DESIGN CHOICE, log entry 14). -/
def State.present : Nat → Occ → State → State
  | 0, o, s => (s.offer o).1
  | k + 1, o, s =>
    let r := if s.following then (s, []) else s.taskEvents o
    let s := ((r.1.dmaEvent o.src).waveEvent o.src).routeEvent o.src
    let q := s.offer o
    let s := State.forAll r.2 (fun x s => State.present k { src := x.1, time := s.now, pay := x.2, inj := false } s) q.1
    if q.2 then State.present k { src := 15, time := s.now, pay := s.get R.EVT_LOST_N, inj := false } s else s

/-- A source detects its condition: an edge (R199). -/
def State.raise (src pay : Nat) (s : State) : State :=
  if s.monitored src then State.present 64 { src := src, time := s.now, pay := pay % 65536, inj := false } s else s

/-- The condition of a level source changes (R199). -/
def State.level (src : Nat) (cond : Bool) (pay : Nat) (s : State) : State :=
  if !s.monitored src || s.evLvl src == cond then s
  else
    let s := s.putBit R.EVT_LVL_L (src % 32) cond (src / 32)
    if cond then s.raise src pay else s

/-! ## The event stage and its registers -/

/-- Apply an entry to the record of its source (R203). -/
def State.applyRecord (s : State) (o : Occ) : State :=
  let r := s.evRec o.src
  if s.evPend o.src then
    s.setRec o.src { r with count := satAdd 8 r.count 1, last := o.time, pay := o.pay, inj := o.inj }
  else
    (s.putBit R.EVT_PEND_P (o.src % 32) true (o.src / 32)).setRec o.src
      { count := 1, lostrec := r.lostrec, first := o.time, last := o.time, pay := o.pay, inj := o.inj }

/-- Class of an event entry (22, R541). -/
def evClass (s : Nat) : Nat :=
  b2n (s ≤ 8 || s == 12 || s == 13 || s == 15 || s == 19 || s == 25 || s == 128 || s == 129 ||
    (144 ≤ s && s ≤ 191 && s != 176) || s == 248 || s == 250 || s == 251 || (253 ≤ s && s ≤ 255) || (257 ≤ s && s ≤ 262) ||
    s == 264 || s == 265 || s == 268 || s == 270 || (272 ≤ s && s ≤ 279))

/-- Whether an occurrence makes a log entry (08, R208; 22, R540: never EV 80-95). -/
def State.logEvent (s : State) (o : Occ) : State :=
  if s.evLoge o.src && !(80 ≤ o.src && o.src ≤ 95) then
    s.logAdd false { time := o.time / 1000, kind := 0, code := o.src, data := o.pay, cls := evClass o.src, pin := false, origin := false,
                     copy := false, ramOnly := false }
  else s

/-- EVENT_OCCURRENCE (R201). -/
def opEventOccurrence (src : Nat) (cond : Bool) (pay : Nat) (s : State) : State :=
  if evLevel src then s.level src cond pay else s.raise src pay

/-- One more occurrence in a session's NOTIFY state of a source or trigger (14, R377). -/
def noteAdd (kind src pay time : Nat) : List NoteSt → List NoteSt
  | [] => [{ kind := kind, src := src, count := 1, pay := pay, first := time, last := time, sent := none, tries := 0 }]
  | n :: r =>
    if n.kind = kind ∧ n.src = src then { n with count := satAdd 8 n.count 1, pay := pay, first := if n.count = 0 then time else n.first, last := time } :: r
    else n :: noteAdd kind src pay time r

/-- A session is to be notified: EV 264 goes to every session that subscribes to anything (14, R377). -/
def Sess.wants (x : Sess) (kind src : Nat) : Bool :=
  if kind = 1 then bit x.trigs src else bit x.evs src || (src == 264 && (x.evs != 0 || x.trigs != 0))

/-- An updated record or an active trigger is owed to the sessions that want it (14, R377). -/
def State.noteFor (kind src pay time : Nat) (s : State) : State :=
  { s with sess := s.sess.map fun x => if x.2.wants kind src then (x.1, { x.2 with notes := noteAdd kind src pay time x.2.notes }) else x }

/-- The edge trigger of the policy layer that a source fires (13, R351). -/
def edgeTrigger (src : Nat) : Option Nat := if src = 25 then some 5 else if src = 251 then some 8 else if src = 264 then some 11 else if src = 13 then some 14 else none

/-- What the policy layer sees in an updated record (13, R351). -/
def State.policySee (src : Nat) (s : State) : State :=
  match edgeTrigger src with
  | some k => { s with dict := { s.dict with edge := setBit s.dict.edge k true, hits := Store.put k (satAdd 8 (s.dict.hits.getD k 0) 1) s.dict.hits } }
  | none => if src = 19 ∨ src = 20 then { s with dict := { s.dict with pps := src == 19 } } else s

/-- EVT_PEND_CLEAR (R203): acknowledged records start anew. -/
def opEvtPendClear (w v : Nat) (s : State) : State :=
  let s := s.put R.EVT_PEND_P (s.get R.EVT_PEND_P w &&& (2 ^ 32 - 1 - v % 2 ^ 32)) w
  State.forAll (setBits 32 v) (fun b s => s.setRec (32 * w + b) { s.evRec (32 * w + b) with lostrec := false }) s

/-- The bits of word `w` whose source is not reserved; the others read 0 (R211; 00, R4). -/
def evListed (w v : Nat) : Nat :=
  (List.range 32).foldl (fun v b => if evReserved (32 * w + b) then setBit v b false else v) (v % 2 ^ 32)

/-- Payload of EV 145 + 4n: [0] VDDG is bad (15, R391), [1] the channel is lost (15, R392). -/
def State.uvloPay (s : State) (n : Nat) : Nat := b2n (!s.is R.GD_STAT_VDDGOK n) + 2 * b2n (!s.is R.GD_STAT_CHOK n)

/-- Payload of a level source whose condition is true: the temperature of EV 5 and 6, which rail of a die is down (R200). -/
def State.levelPay (s : State) (src : Nat) : Nat :=
  if src = 5 ∨ src = 6 then ofSigned 16 (toSigned 16 (s.get R.PWR_TEMP_T) / 16)
  else if 144 ≤ src ∧ src ≤ 175 then s.uvloPay ((src - 144) / 4)
  else 0

/-- EVT_ENA_WRITE (R205): non-maskable bits stay 1; an unmasked source whose condition is true is raised. -/
def opEvtEnaWrite (w v : Nat) (s : State) : State :=
  let old := s.get R.EVT_ENA_E w
  let v := (List.range 32).foldl (fun v b => if evNmi (32 * w + b) then setBit v b true else if evReserved (32 * w + b) then setBit v b false else v) (v % 2 ^ 32)
  let s := s.put R.EVT_ENA_E v w
  State.forAll ((setBits 32 v).filter fun b => !bit old b && evLevel (32 * w + b) && s.evLvl (32 * w + b))
    (fun b s => s.raise (32 * w + b) (s.levelPay (32 * w + b))) s

/-- EVT_INJECT (R210). -/
def opEvtInject (src pay : Nat) (s : State) : State :=
  let s := (s.put R.EVT_INJECT_SRC src).put R.EVT_INJECT_PAY pay
  if evReserved src || evNmi src then s.put R.EVT_STAT_INJERR 1
  else State.present 64 { src := src, time := s.now, pay := pay % 65536, inj := true } s

/-- The source that `EVT.TOP` names (R206): the lowest PRIO, then the lowest number. -/
def State.evTop (s : State) : Option Nat :=
  let p := (List.range 288).filter s.evPend
  p.foldl (fun best x => match best with
    | none => some x
    | some b => if s.get R.EVT_CFG_PRIO x < s.get R.EVT_CFG_PRIO b then some x else best) none

/-- What SV's event request names (R206): a pending non-maskable source before every other, by number; else the source of `EVT.TOP`. -/
def State.svRequest (s : State) : Option Nat :=
  match (List.range 288).find? fun x => s.evPend x && evNmi x with
  | some x => some x
  | none => s.evTop

def execEventOccurrence (src : Fin 288) (cond : Bool) (pay : Nat) (s : State) : Host.Outcome State Fault Refusal :=
  .next (opEventOccurrence src cond pay s)
def execEvtPendClear (w : Fin 9) (v : Word) (s : State) : Host.Outcome State Fault Refusal := .next (opEvtPendClear w v.toNat s)
def execEvtEnaWrite (w : Fin 9) (v : Word) (s : State) : Host.Outcome State Fault Refusal := .next (opEvtEnaWrite w v.toNat s)
def execEvtInject (src pay : Nat) (s : State) : Host.Outcome State Fault Refusal := .next (opEvtInject src pay s)

end Sys2Proof.Machine
end

