-- ==== Sys2Proof/Machine/Mem.lean ====
section
/-! DEFINITION. Machine/Mem.lean: the SRAM arrays and their error correction (09, R213-R229), stores with what they set off (locks, dirty
bits, staging halves, inactive banks), and the ECC commands. -/

namespace Sys2Proof.Machine

/-! ## Reads through ECC (R221, R222) -/

/-- Report an error found in the word at `key`: 1 correctable, 2 not. -/
def State.eccReport (req key st : Nat) (s : State) : State := (s.eccCount req key st).raise (if st = 1 then 12 else 13) (eccPay req key)

/-- Pass the words of a read through ECC: the state with what is reported, and the first uncorrectable word. The copies are those of
`arrayIn`. -/
def State.eccRead (req copy a n : Nat) (s : State) : State × Option Nat :=
  match arrayIn copy a with
  | none => (s, none)
  | some (_, w) =>
    (wordsOf w a n).foldl
      (fun r x =>
        let key := eccKey copy x
        match s.m.ecc.find? (fun e => e.1 == key) with
        | none => r
        | some (_, st) => (r.1.eccReport req key st, if st = 2 && r.2.isNone then some x else r.2))
      (s, none)

/-- A block reads words of its own in the peripheral buffer RAM: an error is reported and goes no further (R222). -/
def State.bufRead (a n : Nat) (s : State) : State := if s.m.ecc.isEmpty then s else (s.eccRead 10 5 a n).1

/-- Entry `i` of the `len` in queue `k`, of `n` bytes, is read (23, R553). -/
def State.qRead (k len i n : Nat) (s : State) : State :=
  let q := queueAt k
  s.bufRead (q.1 + q.2.2 * ((s.m.qin.getD k 0 + q.2.1 - len % q.2.1 + i) % q.2.1)) (min n q.2.2)

/-- A word of memory holds an error that no read corrects. -/
def State.badAt (s : State) (copy x : Nat) : Bool := s.m.ecc.getD (eccKey copy x) 0 == 2

/-! ## Stores (R223, R226) -/

/-- Image bytes that the areas S and T leave reserved: they read 0, whatever is written (R230, R232). -/
def imgReserved (x : Nat) : Bool := inRange x 0x0300D024 0x1FDC || inRange x 0x0300F600 0xA00

/-- Store into one ECC word the bytes of `l` (from address `a`) that fall into it; a partial write to an uncorrectable word is discarded. -/
def State.storeWord (req copy w a : Nat) (l : List Byte) (x : Nat) (s : State) : State × Option Nat :=
  let lo := max a x
  let hi := min (a + l.length) (x + w)
  let part := slice l (lo - a) (hi - lo)
  let key := eccKey copy x
  let st := s.m.ecc.getD key 0
  if copy = 0 && imgReserved x then (s, none)
  else if hi - lo = w then ((s.setCopy copy lo part).eccStore key, none)
  else if st = 2 then (s.eccReport req key 2, some x)
  else
    let s := if st = 1 then s.eccReport req key 1 else s
    ((s.setCopy copy lo part).setEcc key 0, none)

/-- Store bytes into an SRAM array through ECC. -/
def State.eccWrite (req copy a : Nat) (l : List Byte) (s : State) : State × Option Nat :=
  match arrayIn copy a with
  | none => (s, none)
  | some (_, w) =>
    (wordsOf w a l.length).foldl
      (fun r x =>
        let q := r.1.storeWord req copy w a l x
        (q.1, if r.2.isNone then q.2 else r.2))
      (s, none)

/-! ## What a store sets off -/

/-- Another requester's write to the reserved word of an open locked sequence loses the reservation (04, R119). -/
def State.loseLocks (req a n : Nat) (s : State) : State :=
  State.forAll ((List.range 4).filter fun e => e != req)
    (fun e s => match (s.eng e).lock with
      | some l => if a < l.addr + 4 && l.addr < a + n then s.upE e fun x => { x with lock := some { l with lost := true } } else s
      | none => s) s

def State.prgSt (s : State) (e : Nat) : PrgSt := s.prg.getD e PrgSt.reset
def State.upPrg (s : State) (e : Nat) (f : PrgSt → PrgSt) : State := { s with prg := Store.put e (f (s.prgSt e)) s.prg }

/-- The schedule of an engine is dropped (11, R273). -/
def State.unschedule (e : Nat) (s : State) : State :=
  ((s.upPrg e fun p => { p with at_ := none, now := false, waited := 0 }).put R.LE_PRG_STAT_SCHEDULED 0 e).put R.LE_PRG_STAT_WAITING 0 e

/-- Record an error of the program block; checks, schedules and switches refused are counted (11, R270, R285). -/
def State.prgErr (e err : Nat) (s : State) : State := (s.put R.LE_PRG_STAT_ERR err e).bump R.LE_PRG_CNT_REFUSED e

/-- Cancel a scheduled program switch, a waiting SWITCHNOW included, with an error code (11, R265, R273). -/
def State.cancelSwitch (e err : Nat) (s : State) : State :=
  if s.is R.LE_PRG_STAT_SCHEDULED e || (s.prgSt e).now then (s.unschedule e).prgErr e err else s

/-- The other engine of a Mirror pair (R186). -/
def State.mirrorOf (s : State) (e : Nat) : Option Nat :=
  if e < 2 && s.is R.EXC_CTL_MIR01 then some (1 - e)
  else if 2 ≤ e && e < 4 && s.is R.EXC_CTL_MIR23 then some (5 - e)
  else none

/-- Engines that a write to one's decode registers reaches: both of a Mirror pair (05, R142). -/
def State.decPair (s : State) (e : Nat) : List Nat := match s.mirrorOf e with | some f => [e, f] | none => [e]

/-- The table of an engine is no longer armed, nor its Mirror partner's, whose switch exchanges both halves (05, R138, R142; 11, R281), and a switch
scheduled with it is cancelled (05, R139; 11, R273; DEDUCED, log entry 160). -/
def State.disarm (e : Nat) (s : State) : State := State.forAll (s.decPair e) (fun e s => (s.put R.LE_DEC_STAT_ARMED 0 e).cancelSwitch e 0x21) s

/-- The staging half of an engine has been written (05, R139). -/
def State.stagingWritten (e : Nat) (s : State) : State :=
  let s := if s.is R.LE_DEC_STAT_BUSY e then (s.put R.LE_DEC_STAT_BUSY 0 e).put R.LE_DEC_STAT_ERR 0xB e else s
  (s.put R.LE_DEC_STAT_SVALID 0 e).disarm e

/-- The inactive bank of an engine, or its record offset, has been written (11, R265, R270); a running check ends with ERR 0x0C. -/
def State.inactiveWritten (e : Nat) (s : State) : State :=
  let s := if s.is R.LE_PRG_STAT_BUSY e then (((s.put R.LE_PRG_STAT_BUSY 0 e).prgErr e 0x0C).put R.LE_PRG_STAT_ERRIDX 0 e).put R.LE_PRG_STAT_SUB 0 e else s
  (s.put R.LE_PRG_STAT_IVALID 0 e).cancelSwitch e 0x21

/-- A store that the target refuses (R214, R218): active banks (11, R265), active halves (05, R135), Q and QW from requesters other than
logic engines (06, R166; Lantern 7 is excepted, 25). -/
def State.storeRefused (req a : Nat) (s : State) : Bool :=
  if inRange a 0x01000000 0x400000 then s.get R.LE_PRG_STAT_ACT ((a - 0x01000000) / 0x100000) == (a - 0x01000000) / 0x80000 % 2
  else if inRange a 0x05000000 0x20000 then s.get R.LE_DEC_STAT_ACT ((a - 0x05000000) / 0x8000) == (a - 0x05000000) / 0x4000 % 2
  else if inRange a 0x03000000 0x10000 then
    4 ≤ req && req != 7 && (inRange a 0x03000800 0x800 || inRange a 0x03009000 0x4000)
  else (arrayOf a).isNone

/-! ## Waveform samples (19, R484) -/

/-- Farm time of the next sample of a playing channel (19, R484). -/
def State.waveAt (s : State) (k : Nat) : Nat :=
  let w := s.wv k
  w.t0 + 300 + (w.p * s.get R.WAVE_CH_LEN_L k + w.j) * s.get R.WAVE_CH_DIV_D k * 10

/-- Place in the waveform RAM of the next sample of a channel. -/
def State.waveIdx (s : State) (k : Nat) : Nat := (s.get R.WAVE_CH_START_S k + (s.wv k).j) % 32768

/-- The engine reads the next sample through ECC: the state, the bytes and the status. -/
def State.waveRead (k : Nat) (s : State) : State × List Byte × Nat :=
  let a := 0x06000000 + 2 * s.waveIdx k
  let r := s.eccRead 10 0 a 2
  if r.2.isSome then (r.1, [0#8, 0#8], 3) else (r.1, s.mbs a 2, 0)

/-- Before a write into the waveform RAM: samples whose read, 100 ns before their latch, lies before it have been read (19, R484). -/
def State.waveAhead (s : State) : State :=
  State.forAll (List.range 8)
    (fun k s =>
      if s.get R.WAVE_CH_STAT_STATE k = 2 && (s.wv k).pre.isNone && decide (s.waveAt k ≤ s.now + 100) then
        let r := s.waveRead k
        r.1.setWv k { r.1.wv k with pre := some r.2 }
      else s) s

/-- What a store into memory sets off once it has landed. -/
def State.stored (req a n : Nat) (s : State) : State :=
  let s := s.loseLocks req a n
  if inRange a 0x01000000 0x400000 then s.inactiveWritten ((a - 0x01000000) / 0x100000)
  else if inRange a 0x05000000 0x20000 then s.stagingWritten ((a - 0x05000000) / 0x8000)
  else s

/-- Store bytes into memory word by word; each word that takes its bytes sets off what follows from it (05, R139; 11, R265). The first
word that did not take them. -/
def State.storeWords (req a : Nat) (l : List Byte) (s : State) : State × Option Nat :=
  match arrayOf a with
  | none => (s, none)
  | some (_, w) =>
    let s := if inRange a 0x06000000 0x10000 then s.waveAhead else s
    (wordsOf w a l.length).foldl
      (fun r x =>
        let q := r.1.storeWord req 0 w a l x
        if q.2.isSome then (q.1, if r.2.isNone then q.2 else r.2)
        else (q.1.stored req (max a x) (min (a + l.length) (x + w) - max a x), r.2))
      (s, none)

/-- A write into the swept set by SV, a DMA agent or Lantern, which a Lead defers and a following Shadow refuses (12, R305). -/
def sweptBy (req a : Nat) : Bool := (req == 4 || req == 5 || req == 7) && ((sweptBlock true a).isSome || (sweptBlock false a).isSome)

/-- Bytes of a write that land: up to the first that is not mapped or that the target refuses (05, R135; 10, R245). -/
def State.landing (s : State) (req a : Nat) (l : List Byte) : List Byte :=
  l.take ((List.range l.length).takeWhile fun i => !s.storeRefused req (a + i)).length

/-- Status of an access: 0 success, 1 no response, 2 REFUSED, 3 uncorrectable ECC (04, R112). While the initialiser runs a write waits for
its end (R227). -/
def State.memWrite (req a : Nat) (l : List Byte) (s : State) : State × Nat :=
  let l := s.landing req a l
  if l.isEmpty then (s, 2)
  else if s.m.init then ({ s with m := { s.m with held := s.m.held ++ [(⟨req, a, l⟩ : HeldWrite)] } }, 0)
  else if sweptBy req a && s.following then (s, 2)
  else if sweptBy req a && s.lead then
    let r := s.defer { addr := a, kind := 0, data := l, req := req }
    (r.1, if r.2 then 0 else 2)
  else
    let r := s.storeWords req a l
    (r.1, if r.2.isSome then 3 else 0)

/-- A byte as it will be read once the initialiser is through: 0, or what a waiting write gives it (R227). -/
def State.heldByte (s : State) (a : Nat) : Byte :=
  s.m.held.foldl (fun b h => if inRange a h.addr h.bytes.length then h.bytes.getD (a - h.addr) 0#8 else b) 0#8

/-- Read bytes of memory through ECC; an uncorrectable word makes the value 0 (R222). -/
def State.memRead (req a n : Nat) (s : State) : State × List Byte × Nat :=
  if inRange a 0 0x10000 then (s, (List.range n).map fun i => Config.romByte (a + i), 0)
  else if (arrayOf a).isNone then (s, List.replicate n 0#8, 2)
  else if s.m.init then (s, (List.range n).map fun i => s.heldByte (a + i), 0)
  else
    let r := s.eccRead req 0 a n
    if r.2.isSome then (r.1, List.replicate n 0#8, 3) else (r.1, s.mbs a n, 0)

/-! ## Commands -/

/-- EVENT_RECORD_UPDATE (08, R203): the head of the FIFO, read through ECC, goes to its record and, if it is to be logged, to the log;
sessions and the policy layer see the record (13, R351; 14, R377). -/
def opEventRecordUpdate (s : State) : State :=
  let s := if s.evt.fifo.isEmpty then s else s.bufRead (16 * s.evt.head) 16
  match s.evt.fifo with
  | [] => s
  | o :: r =>
    let s : State := { s with evt := { s.evt with fifo := r, head := (s.evt.head + 1) % 256 } }
    (((s.applyRecord o).logEvent o).noteFor 0 o.src o.pay o.time).policySee o.src

/-- ECC_WRITE_BACK (R221): the corrected word is written back unless it has been written since. -/
def opEccWriteBack (a : Nat) (s : State) : State := if s.m.ecc.getD a 0 = 1 then s.setEcc a 0 else s

/-- The words that position `p` of an array stands for, with their keys: every copy of an image word; in a cache, words of the lines it
holds, in ascending order (log entry 144). -/
def State.scrubKeys (s : State) (c base w p : Nat) : List Nat :=
  if c = 0x70 then ((s.m.icache[p / 8]?).map fun l => eccKey 3 (32 * l.1 + 4 * (p % 8))).toList
  else if c = 0x71 then ((s.m.dcache[p / 8]?).map fun l => eccKey 4 (32 * l.1 + 4 * (p % 8))).toList
  else if c = 0x80 then [eccKey 5 (4 * p)]
  else if c = 0x30 then [eccKey 0 (base + w * p), eccKey 1 (base + w * p), eccKey 2 (base + w * p)]
  else [eccKey 0 (base + w * p)]

/-- SCRUB_STEP (R225): in Run and Hold the scrubber of an array reads its next word; a pass ends when every array has finished it. -/
def opScrubStep (c : Nat) (s : State) : State :=
  match arraySpan c with
  | none => s
  | some (base, size) =>
    if !s.is R.SYS_ECC_CTL_SCRUB || s.phase != .up then s
    else
      let w := ((arrayOf base).map Prod.snd).getD 4
      let p := s.m.scrub.getD c 0
      let s := State.forAll (s.scrubKeys c base w p)
        (fun k s =>
          let st := s.m.ecc.getD k 0
          if st = 0 then s else if st = 1 then (s.eccReport 8 k 1).setEcc k 0 else s.eccReport 8 k 2) s
      if w * (p + 1) < size then { s with m := { s.m with scrub := Store.put c (p + 1) s.m.scrub } }
      else
        let done := if s.m.scrubDone.contains c then s.m.scrubDone else s.m.scrubDone ++ [c]
        if arrayCodes.all done.contains then
          { s with m := { s.m with scrub := Store.put c 0 s.m.scrub, scrubDone := [] } }.wrapUp R.SYS_ECC_STAT_PASS
        else { s with m := { s.m with scrub := Store.put c 0 s.m.scrub, scrubDone := done } }

/-- ECC_INJECT (R226). -/
def opEccInject (array mode : Nat) (s : State) : State :=
  if !arrayCode (array % 256) then s.put R.SYS_ECC_STAT_INJERR 1
  else if mode % 4 = 3 then s
  else if mode % 4 = 0 then { s with m := { s.m with inject := none } }.put R.SYS_ECC_INJ_ARMED 0
  else ({ s with m := { s.m with inject := some (array % 256, mode % 4) } }.put R.SYS_ECC_INJ_ARRAY array |>.put R.SYS_ECC_INJ_MODE mode).put
    R.SYS_ECC_INJ_ARMED 1

/-- LAST_WORD_COPY (R234): the GO write copies the staging registers; a GO while the copy runs, 2 µs long (log entry 145), is ignored. -/
def opLastWordCopy (lantern : Bool) (s : State) : State :=
  if s.is R.RTC_BKSTAT_LWBUSY then s.put R.RTC_BKSTAT_LWOVW 1
  else
    let s := { s.put R.RTC_BKSTAT_LWBUSY 1 with time := { s.time with lwUntil := s.time.real + 2000 } }
    let seq := bits (s.get R.RTC_LW_V 0) 24 8 + 1
    let s := if s.is R.RTC_BKSTAT_LWVALID then s.put R.RTC_BKSTAT_LWOVW 1 else s
    ((((s.put R.RTC_LW_V (s.get R.RTC_LWS0_CODE + (if lantern then 0x10000 else 0) + 2 ^ 24 * (seq % 256)) 0).put R.RTC_LW_V s.now 1).put
      R.RTC_LW_V (s.now / 2 ^ 32) 2).put R.RTC_LW_V (s.get R.RTC_LWS1_DATA) 3).put R.RTC_BKSTAT_LWVALID 1

def execEventRecordUpdate (s : State) : Host.Outcome State Fault Refusal := .next (opEventRecordUpdate s)
def execEccWriteBack (a : Nat) (s : State) : Host.Outcome State Fault Refusal := .next (opEccWriteBack a s)
def execScrubStep (array : Nat) (s : State) : Host.Outcome State Fault Refusal := .next (opScrubStep array s)
def execEccInject (array mode : Nat) (s : State) : Host.Outcome State Fault Refusal := .next (opEccInject array mode s)
def execLastWordCopy (lantern : Bool) (s : State) : Host.Outcome State Fault Refusal := .next (opLastWordCopy lantern s)

end Sys2Proof.Machine
end

