-- ==== Sys2Proof/Machine/Keep.lean ====
section
/-! DEFINITION. Machine/Keep.lean: the Keep store (21): the array, the window, the retain image, wear rings, spread counters, the record
stores, passwords, the write queue and recall; and the event log's ring in K1 (22). -/

namespace Sys2Proof.Machine

/-! ## The array (R509, R510, R533) -/

/-- Partition of a Keep offset, its base and its size (09, R218). -/
def keepPart (o : Nat) : Nat :=
  if o < 0x10000 then 0 else if o < 0x20000 then 1 else if o < 0x30000 then 2 else if o < 0x34000 then 3 else if o < 0x3C000 then 4 else 5
def keepBase (k : Nat) : Nat := [0, 0x10000, 0x20000, 0x30000, 0x34000, 0x3C000, 0x40000].getD k 0x40000

/-- A partition is raw: K0, K2 or K3 with its bit in force (R511). -/
def State.keepRaw (s : State) (k : Nat) : Bool :=
  (k == 0 && bit s.keep.raw 0) || (k == 2 && bit s.keep.raw 1) || (k == 3 && bit s.keep.raw 2)

def State.arrNat (s : State) (o n : Nat) : Nat := leNat (s.arrBytes o n)

/-- The erase count of a row goes up, and with it its partition's `KEEP.WEAR` (R533). -/
def State.wearUp (row : Nat) (s : State) : State :=
  let n := s.keep.wear.getD row 0 + 1
  let k := keepPart (32 * row)
  let s := { s with keep := { s.keep with wear := Store.put row n s.keep.wear } }
  if s.keepRaw k || n ≤ s.get R.KEEP_WEAR_N k then s
  else
    let s := s.put R.KEEP_WEAR_N n k
    if 900000 ≤ n ∧ !s.is R.KEEP_STAT_WEARHI then (s.put R.KEEP_STAT_WEARHI 1).warn 7 k else s

/-- The request being served has been cut off: it is granted nothing more (R510, R531). -/
def State.cutOff (s : State) : Bool := match s.keep.cut with | some (_, 0) => true | _ => false

/-- Erase rows of 32 bytes of 0xFF each, as many as a request that is cut off is still granted. -/
def State.eraseRows (row n : Nat) (s : State) : State :=
  let m := match s.keep.cut with | some (_, k) => min k n | none => n
  State.forAll (List.range m) (fun i s => s.wearUp (row + i))
    { s with arr := s.arr.filter (fun c => !inRange c.1 (32 * row) (32 * m)),
             keep := { s.keep with cut := s.keep.cut.map fun p => (p.1, p.2 - m) } }

/-- Bytes from offset `o` on, in aligned blocks of `w` bytes. -/
def blocksOf (w : Nat) : Nat → Nat → List Byte → List (Nat × List Byte)
  | 0, _, _ => []
  | k + 1, o, l => if l.isEmpty then [] else (o, l.take (w - o % w)) :: blocksOf w k (o + (w - o % w)) (l.drop (w - o % w))

/-- Program bytes in ascending order, as far as a request that is cut off is still granted: page by page where the operation in progress
completes (R531), else word by word (R510). -/
def State.prog (o : Nat) (d : List Byte) (s : State) : State :=
  match s.keep.cut with
  | none => s.setArr o d
  | some (w, n) =>
    let l := (blocksOf w d.length o d).take n
    State.forAll l (fun p s => s.setArr p.1 p.2) { s with keep := { s.keep with cut := some (w, n - l.length) } }

def State.erasedAt (s : State) (o n : Nat) : Bool := (s.arrBytes o n).all (· == 0xFF#8)

/-! ## The window (R512, R513) -/

/-- Where byte `i` of a window write of offset `o` lands (R512). -/
def wrapPage (o i : Nat) : Nat := o / 256 * 256 + (o + i) % 256

/-- A raw write is carried out: rows that need an erase are counted (R513). -/
def State.rawServe (o : Nat) (d : List Byte) (s : State) : State :=
  let new := d.zipIdx.map fun p => (wrapPage o p.2, p.1)
  let rows := ((List.range 8).map fun i => o / 256 * 8 + i).filter fun r =>
    new.any fun p => p.1 / 32 == r && (p.2 &&& cellGet 0xFF#8 s.arr p.1) != p.2
  let s := State.forAll rows (fun r s => s.wearUp r) s
  State.forAll new (fun p s => s.setArr p.1 [p.2]) s

/-! ## The retain image (R514-R518) -/

/-- The used ranges of the list. -/
def State.retainList (s : State) : List (Nat × Nat) :=
  ((List.range 16).map fun k => (s.get R.KEEP_RT_ADDR_A k, s.get R.KEEP_RT_LEN_L k)).filter fun p => p.2 != 0

/-- The areas that may be retained: M and L of the image, private and shared data (R514). -/
def retainArea (a n : Nat) : Bool :=
  (inRange a 0x03001000 0x4000 && decide (a + n ≤ 0x03005000)) ||
    (inRange a 0x02000000 0x200000 && decide (a + n ≤ 0x02200000))

/-- A write of element `k` of the list (R514): refused if it breaks the rules. -/
def State.retainWrite (k : Nat) (len : Bool) (v : Nat) (s : State) : State :=
  let t := if len then s.put R.KEEP_RT_LEN_L v k else s.put R.KEEP_RT_ADDR_A v k
  let a := t.get R.KEEP_RT_ADDR_A k
  let n := t.get R.KEEP_RT_LEN_L k
  let ok := a % 4 == 0 && n % 4 == 0 && (n == 0 || retainArea a n) && decide ((t.retainList.map Prod.snd).sum ≤ 32512)
  if ok then t else s.put R.KEEP_STAT_CFGERR 1

def bankBase (b : Nat) : Nat := 0x8000 * b

/-- A header as R515 lays it out, without the commit word. -/
def retainHeader (seq : Nat) (rs : List (Nat × Nat)) (d : List Byte) : List Byte :=
  let h := [0x4B#8, 0x52#8, 0x54#8, 0x31#8] ++ leBytes 4 seq ++ leBytes 4 d.length ++ leBytes 4 rs.length ++ leBytes 4 (crc32 d) ++
    List.replicate 12 0#8 ++ (rs ++ List.replicate (16 - rs.length) (0, 0)).flatMap (fun (p : Nat × Nat) => leBytes 4 p.1 ++ leBytes 4 p.2) ++
    List.replicate 88 0#8
  h ++ leBytes 4 (crc32 h)

def State.headerOk (s : State) (b : Nat) : Bool :=
  s.arrBytes (bankBase b) 4 == [0x4B#8, 0x52#8, 0x54#8, 0x31#8] &&
    s.arrNat (bankBase b + 0xF8) 4 == crc32 (s.arrBytes (bankBase b) 0xF8)

/-- A bank whose header is good and whose commit word is programmed, and its sequence. -/
def State.committedBank (s : State) (b : Nat) : Option Nat :=
  if s.headerOk b && s.arrNat (bankBase b + 0xFC) 4 == 0 then some (s.arrNat (bankBase b + 4) 4) else none

/-- The data CRC of a bank is right. -/
def State.bankData (s : State) (b : Nat) : Bool :=
  let n := s.arrNat (bankBase b + 8) 4
  decide (n ≤ 0x7F00) && s.arrNat (bankBase b + 0x10) 4 == crc32 (s.arrBytes (bankBase b + 0x100) n)

/-- The newest image by its header (R518). -/
def State.newestBank (s : State) : Option Nat :=
  match s.committedBank 0, s.committedBank 1 with
  | some a, some b => some (if a < b then 1 else 0)
  | some _, none => some 0
  | none, some _ => some 1
  | none, none => none

/-- A bank with a save that was interrupted, and its data pages found programmed (R518). -/
def State.interrupted (s : State) (b : Nat) : Option Nat :=
  if s.headerOk b && s.arrNat (bankBase b + 0xFC) 4 == 0xFFFFFFFF then
    some ((List.range 127).filter fun p => !s.erasedAt (bankBase b + 0x100 + 256 * p) 256).length
  else none

/-- A save that does not complete (R516). -/
def State.saveFailed (s : State) : State := (s.put R.KEEP_RT_STAT_INCOMPLETE 1).raise 258 0

/-- A retain save is asked for (R516). -/
def State.saveRequest (s : State) : State :=
  if !s.is R.KEEP_RT_STAT_READY || s.keepRaw 0 || !s.keepRoom (.save none) then s.saveFailed
  else (s.put R.KEEP_RT_STAT_READY 0).keepPush (.save none)

/-- The ranges are copied into the staging buffer when a save begins (R516). -/
def State.stage (s : State) : State × (List (Nat × Nat) × List Byte) :=
  let rs := s.retainList
  let r := rs.foldl (fun (q : State × List Byte) p => let m := q.1.memRead 10 p.1 p.2; (m.1, q.2 ++ m.2.1)) (s, [])
  (r.1, (rs, r.2))

/-- A save is programmed from the staging buffer, the commit word last, and the other bank is to be erased (R515, R517); one that is cut off was
interrupted. -/
def State.saveServe (st : List (Nat × Nat) × List Byte) (s : State) : State :=
  let b := s.keep.readyBank
  let seq := (match s.newestBank with | some k => (s.committedBank k).getD 0 | none => 0) + 1
  let s := ((s.prog (bankBase b) (retainHeader seq st.1 st.2)).prog (bankBase b + 0x100) st.2).prog (bankBase b + 0xFC) [0#8, 0#8, 0#8, 0#8]
  if s.cutOff then s.put R.KEEP_RT_STAT_INCOMPLETE 1
  else ((s.put R.KEEP_RT_STAT_BANK b).keepPush (.eraseBank (1 - b))).raise 257 (st.2.length / 256)

/-- A bank erase completes (R517). -/
def State.bankErased (b : Nat) (s : State) : State :=
  let s := s.eraseRows (1024 * b) 1024
  if s.cutOff then s else { s with keep := { s.keep with readyBank := b } }.put R.KEEP_RT_STAT_READY 1

/-- Retained data goes back to memory in the program-load step (R518). -/
def State.retainRestore (s : State) : State :=
  if s.keepRaw 0 then s
  else
    let first := s.newestBank
    let use : Option Nat := match first with
      | none => none
      | some b => if s.bankData b then some b else if (s.committedBank (1 - b)).isSome && s.bankData (1 - b) then some (1 - b) else none
    match use with
    | none => ((s.put R.KEEP_RT_STAT_VALID 0).warn 7 0).keepPush (.eraseBank 0)
    | some b =>
      let n := s.arrNat (bankBase b + 0xC) 4
      let saved := (List.range (min n 16)).map fun k => (s.arrNat (bankBase b + 0x20 + 8 * k) 4, s.arrNat (bankBase b + 0x24 + 8 * k) 4)
      let list := s.retainList
      let r := saved.foldl
        (fun (q : State × Nat) p =>
          (if list.contains p then ((q.1.storeWords 4 p.1 (q.1.arrBytes (bankBase b + 0x100 + q.2) p.2)).1)
           else (q.1.put R.KEEP_RT_STAT_LISTDIFF 1).warn 7 0, q.2 + p.2)) (s, 0)
      ((r.1.put R.KEEP_RT_STAT_VALID 1).put R.KEEP_RT_STAT_BANK b).keepPush (.eraseBank (1 - b))

/-! ## Wear rings (R519-R521) -/

def ringDir (r : Nat) : Nat := 0x20000 + 32 * r
/-- Offset of slot `j` of a ring whose first row is `row`. -/
def slotOfs (row j : Nat) : Nat := 0x20000 + 32 * (row + j / 2) + 16 * (j % 2)

/-- Row, slots and default of a defined ring. -/
def State.ring (s : State) (r : Nat) : Option (Nat × Nat × Nat) :=
  let o := ringDir r
  if s.arrNat (o + 0x1C) 4 = crc32 (s.arrBytes o 0x1C) then some (s.arrNat o 2, s.arrNat (o + 2) 2, s.arrNat (o + 8) 8) else none

def State.slotOk (s : State) (o : Nat) : Bool := s.arrNat (o + 12) 4 == crc32 (s.arrBytes o 12)
/-- Programmed bits without a right CRC. -/
def State.slotBad (s : State) (o : Nat) : Bool := !s.erasedAt o 16 && !s.slotOk o

/-- Newest slot of a ring: index, value, sequence. -/
def State.ringNewest (s : State) (row n : Nat) : Option (Nat × Nat × Nat) :=
  (List.range n).foldl
    (fun b j =>
      let o := slotOfs row j
      if s.slotOk o then
        let q := s.arrNat (o + 8) 4
        match b with
        | some (_, _, q0) => if q0 < q then some (j, s.arrNat o 8, q) else b
        | none => some (j, s.arrNat o 8, q)
      else b) none

/-- A slot with a CRC error is passed over (R521). -/
def State.slotError (r : Nat) (s : State) : State :=
  { s with keep := { s.keep with crcErr := Store.put r (satAdd 8 (s.keep.crcErr.getD r 0) 1) s.keep.crcErr } }.raise 259 r

/-- Write a value to a ring (R521). A failed program leaves the slot unprogrammed. -/
def State.ringServe (r v : Nat) (fail : Bool) (s : State) : State :=
  match s.ring r with
  | none => s.put R.KEEP_RING_STAT_ERR 1
  | some (row, n, _) =>
    let newest := s.ringNewest row n
    let t := match newest with | some (j, _, _) => (j + 1) % n | none => 0
    let s := if s.slotBad (slotOfs row t) then s.slotError r else s
    let t := if t % 2 = 1 ∧ !s.erasedAt (slotOfs row t) 16 then (t + 1) % n else t
    let s := if t % 2 = 0 then s.eraseRows (0x1000 + row + t / 2) 1 else s
    if fail then s.put R.KEEP_RING_STAT_ERR 1
    else
      let q := match newest with | some (_, _, q) => q + 1 | none => 1
      let d := leBytes 8 v ++ leBytes 4 q
      s.prog (slotOfs row t) (d ++ leBytes 4 (crc32 d))

/-- Two row spans overlap. -/
def spansMeet (a n b m : Nat) : Bool := decide (a < b + m) && decide (b < a + n)

/-- A definition that R520 accepts. -/
def State.ringDefOk (s : State) (r row n : Nat) : Bool :=
  !s.inRun && !s.keepRaw 2 && n % 2 == 0 && decide (4 ≤ n) && decide (n ≤ 256) && decide (32 ≤ row) && decide (row + n / 2 ≤ 2048) &&
    (List.range 32).all fun k => k == r || match s.ring k with | some (a, m, _) => !spansMeet row (n / 2) a (m / 2) | none => true

def State.ringDefServe (r row n d : Nat) (fail : Bool) (s : State) : State :=
  let s := (s.eraseRows (0x1000 + row) (n / 2)).eraseRows (0x1000 + r) 1
  if fail then s.put R.KEEP_RING_STAT_ERR 1
  else
    let h := leBytes 2 row ++ leBytes 2 n ++ leBytes 4 0 ++ leBytes 8 d ++ List.replicate 12 0#8
    let s := s.prog (ringDir r) (h ++ leBytes 4 (crc32 h))
    { s with keep := { s.keep with crcErr := Store.put r 0 s.keep.crcErr } }

/-- A ring command is not served: K2 raw or the queue full sets ERR; a write-locked K2 refuses it (R520, R528, R530). -/
def State.ringCmd (q : KeepReq) (s : State) : State :=
  if bit (s.get R.KEEP_LOCKST_WR) 2 then s
  else if s.keepRaw 2 || !s.keepRoom q then s.put R.KEEP_RING_STAT_ERR 1
  else s.keepPush q

/-- RING_READ (R521): value, default or refusal; the directory reads back. -/
def opRingRead (r : Nat) (s : State) : State :=
  let s := s.put R.KEEP_RING_SEL_R r
  if bit (s.get R.KEEP_LOCKST_RD) 2 then s
  else
    match s.ring r with
    | none => s.put R.KEEP_RING_STAT_ERR 1
    | some (row, n, d) =>
      let s := (s.put R.KEEP_RING_CFG_ROW row).put R.KEEP_RING_CFG_SLOTS n
      match s.ringNewest row n with
      | some (_, v, q) => ((s.put64 R.KEEP_RING_VAL_LO_V R.KEEP_RING_VAL_HI_V v).put R.KEEP_RING_STAT_EMPTY 0).put R.KEEP_RING_SEQ_N q
      | none => ((s.put64 R.KEEP_RING_VAL_LO_V R.KEEP_RING_VAL_HI_V d).put R.KEEP_RING_STAT_EMPTY 1).put R.KEEP_RING_SEQ_N 0

/-- RING_WRITE (R521). -/
def opRingWrite (r v : Nat) (s : State) : State :=
  if (s.ring r).isNone then s.put R.KEEP_RING_STAT_ERR 1 else s.ringCmd (.ringWrite r (v % 2 ^ 64))

/-- RING_DEFINE (R520). -/
def opRingDefine (r row n d : Nat) (s : State) : State :=
  if s.ringDefOk r row n then s.ringCmd (.ringDefine r row n (d % 2 ^ 64)) else s.put R.KEEP_RING_STAT_ERR 1

/-- RING_UNDEFINE (R520). -/
def opRingUndefine (r : Nat) (s : State) : State := s.ringCmd (.ringUndefine r)

/-! ## Spread counters (R522-R524) -/

def scBase (c : Nat) : Nat := 0x30000 + 256 * c

/-- Base and generation of a group whose header is valid. -/
def State.scGroup (s : State) (c g : Nat) : Option (Nat × Nat) :=
  let o := scBase c + 64 * g
  if s.arrNat (o + 8) 4 = crc32 (s.arrBytes o 8) then some (s.arrNat o 4, s.arrNat (o + 4) 4) else none

/-- The active group: number, base, generation. -/
def State.scActive (s : State) (c : Nat) : Option (Nat × Nat × Nat) :=
  (List.range 4).foldl
    (fun b g => match s.scGroup c g with
      | some (x, q) => (match b with | some (_, _, q0) => if q0 < q then some (g, x, q) else b | none => some (g, x, q))
      | none => b) none

/-- Bits of a group still at 1, lowest first. -/
def State.scBits (s : State) (c g : Nat) : List Nat := setBits 256 (s.arrNat (scBase c + 64 * g + 32) 32)

/-- The value of a counter (R522). -/
def State.scValue (s : State) (c : Nat) : Nat :=
  match s.scActive c with
  | some (g, x, _) => (x + (256 - (s.scBits c g).length)) % 2 ^ 32
  | none => 0

def State.scHeader (c g base gen : Nat) (s : State) : State :=
  let h := leBytes 4 base ++ leBytes 4 gen
  let s := s.prog (scBase c + 64 * g) (h ++ leBytes 4 (crc32 h))
  if gen = 4000000 && !s.cutOff then s.raise 260 c else s

/-- Program increment bit `i` of a group. -/
def State.scBit (c g i : Nat) (s : State) : State :=
  let o := scBase c + 64 * g + 32 + i / 8
  s.prog o [BitVec.ofNat 8 (setBit (s.arrNat o 1) (i % 8) false)]

/-- Erase the two rows of a group. -/
def State.scErase (c g : Nat) (s : State) : State := s.eraseRows ((scBase c + 64 * g) / 32) 2

/-- INC is served (R523). -/
def State.scIncServe (c : Nat) (s : State) : State :=
  match s.scActive c with
  | none => (s.scHeader c 0 0 0).scBit c 0 0
  | some (g, x, q) =>
    match s.scBits c g with
    | i :: _ => s.scBit c g i
    | [] => ((s.scHeader c ((q + 1) % 4) ((x + 256) % 2 ^ 32) (q + 1)).scBit c ((q + 1) % 4) 0).scErase c ((q + 2) % 4)

/-- SET is served (R523); a page with no valid header starts with group 0 at generation 0. -/
def State.scSetServe (c v : Nat) (s : State) : State :=
  match s.scActive c with
  | none => s.scHeader c 0 v 0
  | some (_, _, q) => (s.scHeader c ((q + 1) % 4) v (q + 1)).scErase c ((q + 2) % 4)

/-- A counter command enters the queue, or is refused (R523, R528, R530). -/
def State.scCmd (q : KeepReq) (s : State) : State :=
  if bit (s.get R.KEEP_LOCKST_WR) 3 then s
  else if s.keepRaw 3 || !s.keepRoom q then s.put R.KEEP_SC_STAT_ERR 1
  else s.keepPush q

def opScInc (c : Nat) (s : State) : State := s.scCmd (.scInc c)
def opScSet (c v : Nat) (s : State) : State := s.scCmd (.scSet c (v % 2 ^ 32))

/-! ## Record stores K4 and K5 (R525-R527) -/

/-- A record of a half, as found (R525). -/
structure KeepRec where
  key : Nat
  ver : Nat
  len : Nat
  gen : Nat
  sealed : Bool
  data : List Byte
  /-- committed: word 0 programmed and the CRC right -/
  ok : Bool
  deriving DecidableEq, Repr

def pad4 (n : Nat) : Nat := ceilDiv n 4 * 4

/-- CRC of a record (R525). -/
def recCrc (w0 w1 : Nat) (d : List Byte) : Nat := crc16 (leBytes 4 w0 ++ leBytes 2 w1 ++ d)

def halfBase (k5 : Bool) (h : Nat) : Nat := if k5 then 0x3C000 + 0x2000 * h else 0x34000 + 0x4000 * h
def halfSize (k5 : Bool) : Nat := if k5 then 0x2000 else 0x4000

/-- The records of a half from offset `o`, and where its free space begins. -/
def State.walkRecs (s : State) (base size : Nat) : Nat → Nat → List KeepRec × Nat
  | 0, o => ([], o)
  | k + 1, o =>
    if size < o + 8 then ([], o)
    else
      let w0 := s.arrNat (base + o) 4
      let w1 := s.arrNat (base + o + 4) 4
      if w1 = 0xFFFFFFFF then ([], o)
      else
        let n := bits w1 0 12
        let d := s.arrBytes (base + o + 8) n
        let r : KeepRec :=
          { key := bits w0 0 24, ver := bits w0 24 8, len := n, gen := bits w1 12 3, sealed := bit w1 15, data := d,
            ok := w0 != 0xFFFFFFFF && bits w1 16 16 == recCrc w0 (w1 % 65536) d }
        let q := State.walkRecs s base size k (o + 8 + pad4 n)
        (r :: q.1, q.2)

def State.half (s : State) (k5 : Bool) (h : Nat) : List KeepRec × Nat := s.walkRecs (halfBase k5 h) (halfSize k5) (halfSize k5 / 8) 0

/-- Generation of a sealed half. -/
def sealedGen (l : List KeepRec) : Option Nat := (l.find? fun r => r.ok && r.sealed).map KeepRec.gen

/-- The active half (R525). -/
def State.activeHalf (s : State) (k5 : Bool) : Option Nat :=
  match sealedGen (s.half k5 0).1, sealedGen (s.half k5 1).1 with
  | some a, some b => some (if 1 ≤ (b + 8 - a) % 8 ∧ (b + 8 - a) % 8 ≤ 3 then 1 else 0)
  | some _, none => some 0
  | none, some _ => some 1
  | none, none => none

/-- The committed records of the active half, newest first. -/
def State.recs (s : State) (k5 : Bool) : List KeepRec :=
  match s.activeHalf k5 with
  | some h => ((s.half k5 h).1.filter KeepRec.ok).reverse
  | none => []

/-- The newest committed record of a key; a tombstone is no value (R525). -/
def State.recOf (s : State) (k5 : Bool) (key : Nat) : Option KeepRec :=
  match (s.recs k5).find? fun r => r.key == key with
  | some r => if r.len = 0 then none else some r
  | none => none

/-- Bytes of a record. -/
def recBytes (hdr gen : Nat) (sealed commit : Bool) (d : List Byte) : List Byte :=
  let w1 := d.length + 2 ^ 12 * (gen % 8) + 2 ^ 15 * b2n sealed
  (if commit then leBytes 4 hdr else List.replicate 4 0xFF#8) ++ leBytes 4 (w1 + 2 ^ 16 * recCrc hdr w1 d) ++ d ++
    List.replicate (pad4 d.length - d.length) 0xFF#8

/-- Keys whose records FIND does not serve (R527, R536; 22, R548; 24, R587; 26, R641). -/
def hiddenKey (key : Nat) : Bool :=
  (0xFF0000 ≤ key && key ≤ 0xFF0009) || key == 0xFF0010 || key == 0xFF0011 || key == 0xFF0020 || key == 0xFF0031 ||
    (0x210010 ≤ key && key ≤ 0x210013)

/-- The live records that a compaction copies, in append order (R526). -/
def State.liveRecs (s : State) (k5 : Bool) (key : Nat) : List KeepRec :=
  (s.recs k5).foldl (fun acc r => if r.key == key || acc.2.contains r.key then acc else ((if r.len = 0 then acc.1 else r :: acc.1), r.key :: acc.2))
    ([], []) |>.1

/-- Write records one after another, each with its commit word last (R525). -/
def State.layRecs (base o : Nat) (l : List (List Byte)) (s : State) : State :=
  (l.foldl (fun (q : State × Nat) b => ((q.1.prog (base + q.2 + 4) (b.drop 4)).prog (base + q.2) (b.take 4), q.2 + b.length)) (s, o)).1

/-- A half is erased unless it is (R526). -/
def State.freshHalf (k5 : Bool) (h : Nat) (s : State) : State :=
  if s.erasedAt (halfBase k5 h) (halfSize k5) then s else s.eraseRows (halfBase k5 h / 32) (halfSize k5 / 32)

/-- A store is carried out, `fail` attempts of the record failing (R526): the state, and 0 done, 1 no room, 2 failed. -/
def State.recServe (k5 : Bool) (hdr : Nat) (d : List Byte) (fail : Nat) (s : State) : State × Nat :=
  let key := hdr % 2 ^ 24
  let size := halfSize k5
  let one := 8 + pad4 d.length
  let bad := min fail 2
  let need := one * (if bad = 0 then 1 else 2)
  let act := s.activeHalf k5
  let free := match act with | some h => (s.half k5 h).2 | none => size
  let tries (gen : Nat) (sealed : Bool) : List (List Byte) :=
    if bad = 0 then [recBytes hdr gen sealed true d]
    else [recBytes hdr gen sealed false d, recBytes hdr gen sealed (bad == 1) d]
  match act with
  | some h =>
    if free + need ≤ size then
      let gen := (sealedGen (s.half k5 h).1).getD 0
      (s.layRecs (halfBase k5 h) free (tries gen false), if bad = 2 then 2 else 0)
    else
      let live := s.liveRecs k5 key
      let gen := (sealedGen (s.half k5 h).1).getD 0 + 1
      let copies := live.map fun r => recBytes (r.key + 2 ^ 24 * r.ver) gen false true r.data
      if size < (copies.map List.length).sum + need then (s, 1)
      else
        let o := 1 - h
        let s := (s.freshHalf k5 o).layRecs (halfBase k5 o) 0 (copies ++ tries gen true)
        if bad = 2 then (s.freshHalf k5 o, 2) else (s.freshHalf k5 h, 0)
  | none =>
    let s := s.freshHalf k5 0
    (s.layRecs (halfBase k5 0) 0 (tries 0 true), if bad = 2 then 2 else 0)

/-- The password of a partition: the K5 record of its key, 0 if none (R527, R528). -/
def State.password (s : State) (k : Nat) (write : Bool) : Nat :=
  match s.recOf true (0xFF0000 + 2 * k + b2n write) with
  | some r => leNat r.data
  | none => 0

/-- A committed store takes effect where its key is one of Keep's own (R529). -/
def State.keyStored (hdr : Nat) (s : State) : State :=
  let key := hdr % 2 ^ 24
  if 0xFF0000 ≤ key ∧ key ≤ 0xFF0009 then
    let k := (key - 0xFF0000) / 2
    let w := key % 2 == 1
    s.putBit (if w then R.KEEP_LOCKST_WR else R.KEEP_LOCKST_RD) k (s.password k w != 0)
  else s

/-- A store ends (R526, R530), whoever asked for it. -/
def State.storeServe (k5 : Bool) (hdr : Nat) (d : List Byte) (fail : Nat) (s : State) : State :=
  let r := s.recServe k5 hdr d fail
  if r.1.cutOff then r.1
  else if r.2 = 0 then r.1.keyStored hdr
  else if r.2 = 1 then (r.1.put R.KEEP_REC_STAT_FULL 1).put R.KEEP_REC_STAT_ERR 1
  else r.1.put R.KEEP_REC_STAT_ERR 1

/-- A store of the device's own enters the queue if there is room: the state and whether it did. -/
def State.keepStore (k5 : Bool) (key ver : Nat) (d : List Byte) (s : State) : State × Bool :=
  let q := KeepReq.store k5 (key + 2 ^ 24 * ver) d
  if s.keep.waits.isEmpty && s.keepRoom q then (s.keepPush q, true) else (s, false)

/-- A store of the device's own enters the queue, at once or when room returns (R530). -/
def State.keepWait (k5 : Bool) (key ver : Nat) (d : List Byte) (s : State) : State :=
  let r := s.keepStore k5 key ver d
  if r.2 then r.1 else { s with keep := { s.keep with waits := s.keep.waits ++ [.store k5 (key + 2 ^ 24 * ver) d] } }

/-- A store of the record interface. -/
def State.recCmd (k5 : Bool) (hdr : Nat) (d : List Byte) (s : State) : State :=
  let q := KeepReq.store k5 hdr d
  if s.keepRoom q then s.keepPush q else s.put R.KEEP_REC_STAT_ERR 1

/-- REC_STORE, REC_DROP and REC_FIND (R525, R535). -/
def opRecStore (k5 : Bool) (hdr : Nat) (d : List Byte) (s : State) : State := s.recCmd k5 hdr (d.take 2048)
def opRecDrop (k5 : Bool) (hdr : Nat) (s : State) : State := s.recCmd k5 hdr []
def opRecFind (k5 : Bool) (key : Nat) (s : State) : State :=
  { s with keep := { s.keep with find := some (k5, key % 2 ^ 24) } }.put R.KEEP_REC_STAT_BUSY 1

/-- Put data into `KEEP.REC_BUF`, from byte `o` on. -/
def State.putRecBuf (o : Nat) (d : List Byte) (s : State) : State :=
  State.bufStore (bufRec + o) d.length
    { s with keep := { s.keep with recBuf := d.zipIdx.foldl (fun t p => Store.put (o + p.2) p.1 t) s.keep.recBuf } }

/-- The first `n` bytes of `KEEP.REC_BUF`. -/
def State.recData (s : State) (n : Nat) : List Byte := (List.range n).map fun i => s.keep.recBuf.getD i 0#8

/-- REC_FIND_COMPLETE (R535, R536). -/
def opRecFindComplete (s : State) : State :=
  match s.keep.find with
  | none => s
  | some (k5, key) =>
    let s := { s with keep := { s.keep with find := none } }.put R.KEEP_REC_STAT_BUSY 0
    match (if hiddenKey key then none else s.recOf k5 key) with
    | some r => ((s.putRecBuf 0 r.data).put R.KEEP_REC_LEN_L r.len).put R.KEEP_REC_STAT_FOUND 1
    | none => s.put R.KEEP_REC_STAT_FOUND 0

/-! ## Passwords (R528, R529) -/

/-- KEEP_UNLOCK (R529). -/
def opKeepUnlock (k : Nat) (write : Bool) (pw : Nat) (s : State) : State :=
  if s.is R.KEEP_LOCKST_PWBLOCK || 4 < k then s
  else if s.password k write = pw % 2 ^ 64 then
    { s with keep := { s.keep with mism := 0 } }.putBit (if write then R.KEEP_LOCKST_WR else R.KEEP_LOCKST_RD) k false
  else
    let m := s.keep.mism + 1
    let s := { s with keep := { s.keep with mism := m } }.raise 261 k
    if 8 ≤ m then s.put R.KEEP_LOCKST_PWBLOCK 1 else s

/-- KEEP_RELOCK (R529). -/
def opKeepRelock (k : Nat) (s : State) : State :=
  if s.is R.KEEP_LOCKST_PWBLOCK || 4 < k then s
  else (s.putBit R.KEEP_LOCKST_RD k (s.password k false != 0)).putBit R.KEEP_LOCKST_WR k (s.password k true != 0)

/-- PASSWORD_BLOCK_END (R529). -/
def opPasswordBlockEnd (s : State) : State :=
  if s.is R.KEEP_LOCKST_PWBLOCK then { s with keep := { s.keep with mism := 0 } }.put R.KEEP_LOCKST_PWBLOCK 0 else s

/-! ## The event log in K1 (22, R539-R549) -/

def logOfs (slot : Nat) : Nat := 0x10000 + 8 * (slot % 8192)
def State.logW0 (s : State) (slot : Nat) : Nat := s.arrNat (logOfs slot) 4
def State.logW1 (s : State) (slot : Nat) : Nat := s.arrNat (logOfs slot + 4) 4
/-- A slot holds a valid entry (R539). -/
def State.slotValid (s : State) (slot : Nat) : Bool := s.logW0 slot != 0xFFFFFFFF && decide (bits (s.logW0 slot) 24 3 ≤ 4)

/-- The words of an entry, `ofs` microseconds after its mark; a mark holds its seconds in word 1 (R539). -/
def LogEntry.words (e : LogEntry) (mark : Nat) : Nat × Nat :=
  if e.kind = 3 then (e.time % 1000000 + 3 * 2 ^ 30, e.time / 1000000 % 2 ^ 32)
  else ((e.time - mark) + 2 ^ 24 * e.cls + 2 ^ 27 * b2n e.pin + 2 ^ 28 * b2n e.origin + 2 ^ 29 * b2n e.copy + 2 ^ 30 * e.kind,
        e.code + 65536 * e.data)

/-- The entry in a slot, its mark's time given. -/
def State.slotEntry (s : State) (slot mark : Nat) : LogEntry :=
  let w0 := s.logW0 slot
  let w1 := s.logW1 slot
  { time := if bits w0 30 2 = 3 then w1 * 1000000 + bits w0 0 24 else mark + bits w0 0 24, kind := bits w0 30 2, code := w1 % 65536,
    data := w1 / 65536, cls := bits w0 24 3, pin := bit w0 27, origin := bit w0 28, copy := bit w0 29, ramOnly := false }

def State.headSlot (s : State) : Nat := s.get R.LOG_HEAD_SLOT

/-- The time of the mark that governs a slot: the nearest preceding one in append order, which begins at the head; none is left of an entry whose
mark's row has been erased (R542, R543; log entry 188). -/
def State.markBefore (s : State) : Nat → Nat → Nat
  | 0, slot => Config.markless slot
  | k + 1, slot =>
    let p := (slot + 8191) % 8192
    if slot = s.headSlot then Config.markless slot
    else if s.slotValid p && bits (s.logW0 p) 30 2 == 3 then (s.slotEntry p 0).time else State.markBefore s k p

/-- The pages skipped by appends and erases (R548). -/
def State.badPage (s : State) (slot : Nat) : Bool := s.log.bad.contains (slot % 8192 / 32)

/-- The head moves past bad pages. -/
def State.skipBad : Nat → State → State
  | 0, s => s
  | k + 1, s => if s.badPage s.headSlot then State.skipBad k (s.put R.LOG_HEAD_SLOT ((s.headSlot / 32 + 1) * 32 % 8192)) else s

/-- The first slot at or after `i` outside the bad pages. -/
def State.goodSlot (s : State) : Nat → Nat → Nat
  | 0, i => i
  | k + 1, i => if s.badPage i then State.goodSlot s k ((i / 32 + 1) * 32 % 8192) else i

/-- The four slots of the row that a slot begins. -/
def rowSlots (next : Nat) : List Nat := [next, next + 1, next + 2, next + 3]

/-- The row of slot `next` is erased; entries lost with it raise EV 266 (R543). -/
def State.clearRow (next : Nat) (s : State) : State :=
  let old := (rowSlots next).any s.slotValid
  let s := s.eraseRows (0x800 + next / 4) 1
  if !s.erasedAt (logOfs next) 32 then s
  else
    let s := { s with log := { s.log with pins := s.log.pins.filter fun p => !(rowSlots next).contains p.1 } }
    if old then s.raise 266 0 else s

/-- The copies of the entries of a row that count as pinned, oldest first, their other fields unchanged (R545). -/
def State.rowCopies (s : State) (next : Nat) : List LogEntry :=
  (s.log.pins.filter fun p => (rowSlots next).contains p.1).map fun p => { s.slotEntry p.1 0 with time := p.2, copy := true }

/-- Program one slot, word 1 first, and move the head once word 0 is programmed (R543). A pinned entry counts as such unless it has been released on
its way (R545). -/
def State.putSlot (e : LogEntry) (s : State) : State :=
  let w := e.words (s.log.mark.getD 0)
  let h := s.headSlot
  let s := s.prog (logOfs h + 4) (leBytes 4 w.2)
  if s.cutOff then s
  else
    let s := s.prog (logOfs h) (leBytes 4 w.1)
    let s :=
      if e.kind = 3 then { s with log := { s.log with mark := some e.time, stale := false } }
      else if !e.pin then s
      else if !e.copy && 0 < s.log.loose then { s with log := { s.log with loose := s.log.loose - 1 } }
      else { s with log := { s.log with pins := s.log.pins ++ [(h, e.time)] } }
    s.put R.LOG_HEAD_SLOT ((h + 1) % 8192)

def markAt (t : Nat) : LogEntry :=
  { time := t, kind := 3, code := 0, data := 0, cls := 0, pin := false, origin := false, copy := false, ramOnly := false }

/-- A new mark is due before an entry (R542, R545). -/
def State.markDue (s : State) (e : LogEntry) : Bool :=
  s.headSlot % 32 == 0 || s.log.stale || e.copy ||
    match s.log.mark with | some m => decide (e.time < m) || decide (m + 2 ^ 24 ≤ e.time) | none => true

/-- What the log writes in K1: an entry, or the erase of the row of a slot. -/
inductive LogItem where
  | put (e : LogEntry)
  | erase (next : Nat)
  deriving DecidableEq, Repr

def LogItem.isCopy : LogItem → Bool
  | .put e => e.copy
  | .erase _ => false

/-- The head enters a row: the next row outside the bad pages is to be erased before the first entry, but its pinned entries are copied first, of which
the row takes two; the rest of them follow the erase, and a mark at the current time follows the copies (R543, R545, R548; log entry 180).
The head's own row is erased where a page left early left it full. -/
def State.enterRow (l : List LogItem) (s : State) : State × List LogItem :=
  let own := !s.erasedAt (logOfs s.headSlot) 32
  let next := s.goodSlot 256 ((s.headSlot + 4) % 8192)
  let kept := ((if own then s.rowCopies s.headSlot else []) ++ s.rowCopies next).map LogItem.put
  let cs := l.takeWhile LogItem.isCopy
  let all := cs ++ kept
  (if own then s.clearRow s.headSlot else s,
   all.take 2 ++ [.erase next] ++ all.drop 2 ++ (if cs.isEmpty && !kept.isEmpty then [.put (markAt (s.now / 1000))] else []) ++
     l.dropWhile LogItem.isCopy)

/-- Write items in order, each entry behind a mark where one is due (R542-R545). `entered`: the row of the head has been entered; `marked`: the
mark of the first entry stands right before the head. -/
def State.logWrite : Nat → Bool → Bool → List LogItem → State → State
  | 0, _, _, _, s => s
  | _ + 1, _, _, [], s => s
  | k + 1, entered, marked, .erase next :: r, s => State.logWrite k entered marked r (s.clearRow next)
  | k + 1, entered, marked, .put e :: r, s =>
    let s := s.skipBad 256
    if !entered && s.headSlot % 4 == 0 then
      let q := s.enterRow (.put e :: r)
      State.logWrite k true (marked && q.2.head? == some (.put e)) q.2 q.1
    else if e.kind ≠ 3 && !(marked && s.headSlot % 32 != 0) && s.markDue e then State.logWrite k false true (.put e :: r) (s.putSlot (markAt e.time))
    else State.logWrite k false false r (s.putSlot e)

/-- Steps enough for one entry: at most 256 entries are pinned, each copied in two slots (R545). -/
def logSteps : Nat := 4096

/-- `FAILED` (R549): the entries on their way to K1, `n` of them, are kept in the RAM buffer alone; EV 264; the last-word register takes code 0x0101;
each unit of a pair forwards its entry. -/
def State.logFail (n : Nat) (s : State) : State :=
  let good := 256 - s.log.bad.length
  let s := { s with log := { s.log with queue := [], loose := 0, ram := markHeld n s.log.ram } }.put R.LOG_STAT_FAILED 1
  let s := s.raise 264 0
  let s := if s.get R.RFL_STAT_ROLE != 0 then s.rflSend 0x0C (leBytes 8 (s.now / 1000) ++ leBytes 2 264 ++ leBytes 2 (s.get R.RFL_CFG_UNIT) ++ leBytes 1 (evClass 264)) else s
  opLastWordCopy false ((s.put R.RTC_LWS0_CODE 0x0101).put R.RTC_LWS1_DATA (good + 65536 * (s.log.failedOn.length % 256)))

/-- The map of bad pages is stored (R548). -/
def State.mapStore (s : State) : State :=
  s.keepWait true 0xFF0020 0 ((List.range 32).map fun i =>
    BitVec.ofNat 8 ((List.range 8).foldl (fun m b => if s.log.bad.contains (8 * i + b) then m + 2 ^ b else m) 0))

/-- A program of the page at the head fails (R548): the page is bad. -/
def State.pageBad (s : State) : State :=
  let p := s.headSlot / 32
  let bad := if s.log.bad.contains p then s.log.bad else s.log.bad ++ [p]
  ({ s with log := { s.log with bad := bad, failedOn := s.log.failedOn ++ [p], stale := true } }.mapStore).raise 265 p

/-- Serve a log write after `fail` page failures (R548, R549). -/
def State.logServe (e : LogEntry) (fail : Nat) (s : State) : State :=
  let n := s.logPending
  let s := s.qRead 12 n 0 16
  let s := { s with log := { s.log with outstanding := s.log.outstanding - 1, failedOn := [] } }
  if s.is R.LOG_STAT_FAILED then s
  else
    let s := State.forAll (List.range (min fail 3)) (fun _ s => (s.skipBad 256).pageBad) s
    if 3 ≤ fail ∨ 248 < s.log.bad.length then s.logFail n else s.logWrite logSteps false false [.put e]

/-! ## Serving the queue (R530, R531) -/

/-- `QFULL` and EV 262: fewer than 4 entries or 1 KiB free (R530). -/
def State.keepLevel (s : State) : State :=
  let full := decide (60 < s.keepLen) || decide (15360 < s.keepBytes)
  (s.put R.KEEP_STAT_QFULL (b2n full)).level 262 full 0

/-- The request being served: those entered since the warning come first while it lasts (R531). -/
def State.keepHead (s : State) : Option KeepReq :=
  match s.keep.late with
  | r :: _ => some r
  | [] => s.keep.queue.head?

/-- Replace the request at the head. -/
def State.keepSetHead (l : List KeepReq) (s : State) : State :=
  match s.keep.late with
  | _ :: r => { s with keep := { s.keep with late := l ++ r } }
  | [] => { s with keep := { s.keep with queue := l ++ s.keep.queue.drop 1 } }

/-- A save that comes to the head begins: its ranges are staged (R516). -/
def State.keepStart (s : State) : State :=
  match s.keepHead with
  | some (.save none) => let r := s.stage; r.1.keepSetHead [.save (some r.2)]
  | _ => s

/-- Requests of SV's own enter as far as there is room (R530). -/
def State.keepEnter : List KeepReq → State → State
  | [], s => { s with keep := { s.keep with waits := [] } }
  | q :: r, s => if s.keepRoom q then State.keepEnter r (s.keepPush q) else { s with keep := { s.keep with waits := q :: r } }

/-- After the queue has changed. -/
def State.keepSettle (s : State) : State := ((s.keepEnter s.keep.waits).keepStart.logDrain).keepLevel

/-- What a request does when it is served; `fail` of its programs fail to read back (R510). -/
def State.keepServe (q : KeepReq) (fail : Nat) (s : State) : State :=
  match q with
  | .raw o d => if fail = 0 then s.rawServe o d else s
  | .ringWrite r v => s.ringServe r v (fail != 0)
  | .ringDefine r row n d => s.ringDefServe r row n d (fail != 0)
  | .ringUndefine r => s.eraseRows (0x1000 + r) 1
  | .scInc c => if fail = 0 then s.scIncServe c else s.put R.KEEP_SC_STAT_ERR 1
  | .scSet c v => if fail = 0 then s.scSetServe c v else s.put R.KEEP_SC_STAT_ERR 1
  | .store k5 hdr d => s.storeServe k5 hdr d fail
  | .save st => if fail = 0 then s.saveServe (st.getD ([], [])) else s.saveFailed
  | .eraseBank b => s.bankErased b
  | .log e => s.logServe e fail

/-- The request at the head is read from its place. -/
def State.keepRead (q : KeepReq) (s : State) : State :=
  s.qRead 13 s.keepLen (if s.keep.late.isEmpty then 0 else s.keep.queue.length) (16 + q.bytes)

/-- The request at the head is served: `KEEP.WSEQ` counts it (R530). -/
def State.keepNext (fail : Nat) (s : State) : State :=
  match s.keepHead with
  | none => s
  | some q => ((((s.keepRead q).keepSetHead []).wrapUp R.KEEP_WSEQ_N).keepServe q fail).keepSettle

/-- KEEP_REQUEST_SERVED (R530). -/
def opKeepRequestServed (fail : Nat) (s : State) : State := if s.is R.KEEP_STAT_RECALL || s.pwr.linkLost then s else s.keepNext fail

/-- RETAIN_SAVE_COMPLETE (R517). -/
def opRetainSaveComplete (s : State) : State := if s.pwr.linkLost then s else match s.keepHead with | some (.save _) => s.keepNext 0 | _ => s

/-- RETAIN_BANK_ERASE_COMPLETE (R517). -/
def opRetainBankEraseComplete (s : State) : State := if s.pwr.linkLost then s else match s.keepHead with | some (.eraseBank _) => s.keepNext 0 | _ => s

/-- KEEP_SAVE (R516). -/
def opKeepSave (s : State) : State := s.saveRequest.keepSettle

/-- A window write (R512, R528, R530, R531): 0 accepted, 2 REFUSED. -/
def State.windowWrite (a : Nat) (d : List Byte) (s : State) : State × Nat :=
  let o := a - 0x20000000
  let k := keepPart o
  if d.isEmpty || 256 < d.length || s.is R.KEEP_STAT_RECALL || !s.keepRaw k || bit (s.get R.KEEP_LOCKST_WR) k || s.keep.pfail then (s, 2)
  else if !s.keepRoom (.raw o d) then (s.put R.KEEP_STAT_QREF 1, 2)
  else ((s.keepPush (.raw o d)).keepSettle, 0)

/-- A window read (R512, R528, R532): the bytes and the status. -/
def State.windowRead (s : State) (a n : Nat) : List Byte × Nat :=
  let o := a - 0x20000000
  let k := keepPart o
  if s.is R.KEEP_STAT_RECALL || k == 5 || bit (s.get R.KEEP_LOCKST_RD) k then (List.replicate n 0#8, 2)
  else
    let m := min n (keepBase (k + 1) - o)
    (s.arrBytes o m ++ List.replicate (n - m) 0#8, 0)

/-- KEEP_WINDOW_WRITE (R512). -/
def opKeepWindowWrite (a : Nat) (d : List Byte) (s : State) : State := if inRange a 0x20000000 0x40000 then (s.windowWrite a d).1 else s

/-! ## The power-fail warning and power loss (R531, R510) -/

/-- Free bytes in a span of the array. -/
def State.scramble (o n : Nat) (s : State) : State :=
  State.forAll (List.range n) (fun i s => let f := s.free; f.2.setArr (o + i) [BitVec.ofNat 8 f.1]) s

/-- The request at the head is cut off (R510, R513, R520, R531; log entry 119): a raw write leaves its rows undefined; any other request is carried out
in its order up to a step that nobody chose, by program operations and row erases where the one in progress completes (`w` 256), else by words
(`w` 4); a ring's definition or removal leaves the ring undefined. It counts as served. -/
def State.keepAbandon (w : Nat) (s : State) : State :=
  match s.keepHead with
  | none => s
  | some q =>
    let s := (s.keepSetHead []).wrapUp R.KEEP_WSEQ_N
    match q with
    | .raw o d =>
      let rows := ((List.range 8).map fun i => o / 256 * 8 + i).filter fun r => (List.range d.length).any fun i => wrapPage o i / 32 == r
      State.forAll rows (fun r s => s.scramble (32 * r) 32) s
    | q =>
      let f := s.free
      let t := { f.2 with keep := { f.2.keep with cut := some (w, f.1) } }.keepServe q 0
      let u := { t with keep := { t.keep with cut := none } }
      match q with
      | .ringDefine r _ _ _ => if t.cutOff then u.eraseRows (0x1000 + r) 1 else u
      | .ringUndefine r => if t.cutOff then u.eraseRows (0x1000 + r) 1 else u
      | _ => u

/-- The warning begins (R531): the request in progress is abandoned, the retain save is asked for. Log entries follow once the store of P32.0012
has entered too (23, R559). -/
def State.keepWarning (s : State) : State :=
  if s.pwr.linkLost then s
  else
  let s := s.keepAbandon 256
  let s := { s with keep := { s.keep with pfail := true } }
  if s.is R.KEEP_CTL_RTEN then s.saveRequest else s

/-- The warning ends while the supply holds: serving in order again (R531). -/
def State.keepWarningEnd (s : State) : State :=
  { s with keep := { s.keep with pfail := false, queue := s.keep.queue ++ s.keep.late, late := [] } }.keepSettle

/-! ## Recall (R532; 22, R544) -/

/-- The head of the log: after the last valid entry that lies before an erased row, both outside the bad pages (22, R544, R548; log entry 188). -/
def State.recallHead (s : State) : Nat :=
  let after (i : Nat) : Bool :=
    !s.badPage i && s.slotValid i && ((List.range (3 - i % 4)).all fun j => !s.slotValid (i + 1 + j)) &&
      s.erasedAt (logOfs (s.goodSlot 256 ((i / 4 * 4 + 4) % 8192))) 32
  match (List.range 8192).reverse.find? after with
  | some i => (i + 1) % 8192
  | none => 0

/-- K1 is read: head, pins, bad pages (22, R544, R545, R548). -/
def State.recallLog (s : State) : State :=
  let bad := match s.recOf true 0xFF0020 with
    | some r => (List.range 256).filter fun p => bit (r.data.getD (p / 8) 0#8).toNat (p % 8)
    | none => []
  let s := { s with log := { s.log with bad := bad, mark := none, stale := true, found := ((List.range 8192).filter s.slotValid).length } }
  let h := s.recallHead
  let s := (s.put R.LOG_HEAD_SLOT h).put R.LOG_STAT_RECALL 0
  let pins := (((List.range 8192).map fun i => (h + i) % 8192).filter fun i => s.slotValid i && bit (s.logW0 i) 27).map fun i => (i, s.markBefore 8192 i + bits (s.logW0 i) 0 24)
  let s := { s with log := { s.log with pins := pins } }
  if 248 < bad.length then s.logFail 0 else s

/-- Partitions whose passwords are set are locked; the raw bits take effect (R511, R528). -/
def State.recallKeys (s : State) : State :=
  let raw := match s.recOf true 0xFF0010 with | some r => leNat r.data % 8 | none => 0
  let s := { s with keep := { s.keep with raw := raw, mism := 0, find := none } }
  let s := ((s.put R.KEEP_CTL_RAW0 (bits raw 0 1)).put R.KEEP_CTL_RAW2 (bits raw 1 1)).put R.KEEP_CTL_RAW3 (bits raw 2 1)
  State.forAll (List.range 5) (fun k s => (s.putBit R.KEEP_LOCKST_RD k (s.password k false != 0)).putBit R.KEEP_LOCKST_WR k (s.password k true != 0)) s

/-- An unsealed half that holds records is erased (R525). -/
def State.eraseUnsealed (s : State) : State :=
  State.forAll [(false, 0), (false, 1), (true, 0), (true, 1)]
    (fun p s =>
      if (sealedGen (s.half p.1 p.2).1).isNone && !s.erasedAt (halfBase p.1 p.2) (halfSize p.1) then
        s.eraseRows (halfBase p.1 p.2 / 32) (halfSize p.1 / 32) else s) s

/-- K0 and K2 are read: interrupted saves and bad slots are owed as occurrences (R518, R521, R532). -/
def State.recallFound (s : State) : List (Nat × Nat) :=
  let saves := if s.keepRaw 0 then [] else ([0, 1].filterMap s.interrupted).map fun n => (258, n)
  let slots := if s.keepRaw 2 then [] else (List.range 32).flatMap fun r =>
    match s.ring r with
    | some (row, n, _) => ((List.range (min n 256)).filter fun j => s.slotBad (slotOfs row j)).map fun _ => (259, r)
    | none => []
  (256, 0) :: (saves ++ slots)

/-- The highest count of erases of a row of each managed partition is known again (R533; log entry 189). -/
def State.recallWear (s : State) : State :=
  State.forAll (List.range 6) (fun k s =>
    if s.keepRaw k then s
    else
      let n := ((s.keep.wear.filter fun p => keepPart (32 * p.1) == k).map Prod.snd).foldl max 0
      let s := s.put R.KEEP_WEAR_N n k
      if 900000 ≤ n ∧ !s.is R.KEEP_STAT_WEARHI then (s.put R.KEEP_STAT_WEARHI 1).warn 7 k else s) s

/-- KEEP_RECALL_COMPLETE (R532). A Keep that the lost die-to-die link leaves unreadable ends it with nothing found, and the log has failed (22, R549). -/
def opKeepRecallComplete (s : State) : State :=
  if !s.is R.KEEP_STAT_RECALL then s
  else if s.pwr.linkLost then ((s.put R.KEEP_STAT_RECALL 0).put R.LOG_STAT_RECALL 0).logFail 0
  else
    let s := s.recallKeys.recallWear.eraseUnsealed.recallLog
    let found := s.recallFound
    let crc := (found.filter fun p => p.1 == 259).foldl (fun t p => Store.put p.2 (satAdd 8 (t.getD p.2 0) 1) t) ([] : Store Nat)
    let s := { s with keep := { s.keep with owed := found, crcErr := crc } }.put R.KEEP_STAT_RECALL 0
    let s := if found.any fun p => p.1 == 258 then s.put R.KEEP_RT_STAT_INCOMPLETE 1 else s
    match s.newestBank with
    | some b => s.put R.KEEP_RT_STAT_BANK b
    | none => s

/-- What recall owes is raised at the end of start-up (R532). -/
def State.keepOwed (s : State) : State :=
  let l := s.keep.owed
  State.forAll l (fun p s => s.raise p.1 p.2) { s with keep := { s.keep with owed := [] } }

/-- `KEEP.CTL` is written (R511): the raw bits in Hold only, stored in K5. -/
def State.keepCtl (v : Nat) (s : State) : State :=
  let s := (s.put R.KEEP_CTL_RTEN (bits v 8 1)).put R.KEEP_CTL_STBYSAVE (bits v 9 1)
  let old := s.get R.KEEP_CTL_RAW0 + 2 * s.get R.KEEP_CTL_RAW2 + 4 * s.get R.KEEP_CTL_RAW3
  let s :=
    if bits v 0 3 = old then s
    else if s.inRun then s.put R.KEEP_STAT_CFGERR 1
    else
      let r := s.keepStore true 0xFF0010 0 [BitVec.ofNat 8 (bits v 0 3)]
      if r.2 then ((r.1.put R.KEEP_CTL_RAW0 (bits v 0 1)).put R.KEEP_CTL_RAW2 (bits v 1 1)).put R.KEEP_CTL_RAW3 (bits v 2 1)
      else r.1.put R.KEEP_STAT_CFGERR 1
  (if bit v 16 then s.saveRequest else s).keepSettle

/-! ## The log's commands (22, R545, R548, R550) -/

/-- LOG_APPEND by SV (R550). -/
def opLogAppend (code data cls : Nat) (pin : Bool) (s : State) : State :=
  if 5 ≤ cls then s.put R.LOG_STAT_APERR 1 else s.logAdd true (s.message (code % 65536) (data % 65536) cls pin)

/-- LOG_UNPIN (R545): no entry present counts as pinned any more, those on their way to K1 included. -/
def opLogUnpin (s : State) : State :=
  { s with log := { s.log with pins := [], pinTold := false,
                               loose := (s.log.queue.filter LogEntry.pin).length + pinsIn s.keep.queue + pinsIn s.keep.late } }

/-- LOG_CLRBAD (R548), in Hold: the pinned entries of the bad pages are copied, the pages erased and tested; those of `good` pass. -/
def opLogClrbad (good : List Nat) (s : State) : State :=
  if s.inRun then s
  else
    let rows := s.log.bad.flatMap fun p => (List.range 8).map fun i => 32 * p + 4 * i
    let kept := (rows.flatMap s.rowCopies).map LogItem.put
    let s := if kept.isEmpty || s.is R.LOG_STAT_FAILED then s else s.logWrite logSteps false false (kept ++ [.put (markAt (s.now / 1000))])
    let s := State.forAll rows (fun n s => s.clearRow n) s
    let s := { s with log := { s.log with bad := s.log.bad.filter fun p => !good.contains p } }
    (s.mapStore.logMsg 5 0 0).keepSettle

/-- A command of the `KEEP` registers is refused while recall runs (R532). -/
def State.keepOpen (s : State) (op : State → State) : State := if s.is R.KEEP_STAT_RECALL then s else op s

/-- So is one of the `LOG` registers (22, Corners). -/
def State.logOpen (s : State) (op : State → State) : State := if s.is R.LOG_STAT_RECALL then s else op s

def execKeepWindowWrite (a : Nat) (d : List Byte) (s : State) : Host.Outcome State Fault Refusal := .next (opKeepWindowWrite a d s)
def execKeepSave (s : State) : Host.Outcome State Fault Refusal := .next (s.keepOpen opKeepSave)
def execRingRead (r : Fin 32) (s : State) : Host.Outcome State Fault Refusal := .next (s.keepOpen (opRingRead r))
def execRingWrite (r : Fin 32) (v : Nat) (s : State) : Host.Outcome State Fault Refusal := .next (s.keepOpen fun s => (opRingWrite r v s).keepSettle)
def execRingDefine (r : Fin 32) (row : Nat) (n : Nat) (d : Nat) (s : State) : Host.Outcome State Fault Refusal :=
  .next (s.keepOpen fun s => (opRingDefine r row n d s).keepSettle)
def execRingUndefine (r : Fin 32) (s : State) : Host.Outcome State Fault Refusal := .next (s.keepOpen fun s => (opRingUndefine r s).keepSettle)
def execScInc (c : Fin 64) (s : State) : Host.Outcome State Fault Refusal := .next (s.keepOpen fun s => (opScInc c s).keepSettle)
def execScSet (c : Fin 64) (v : Word) (s : State) : Host.Outcome State Fault Refusal := .next (s.keepOpen fun s => (opScSet c v.toNat s).keepSettle)
def execRecStore (k5 : Bool) (hdr : Word) (d : List Byte) (s : State) : Host.Outcome State Fault Refusal :=
  .next (s.keepOpen fun s => (opRecStore k5 hdr.toNat d s).keepSettle)
def execRecFind (k5 : Bool) (key : Word) (s : State) : Host.Outcome State Fault Refusal := .next (s.keepOpen (opRecFind k5 key.toNat))
def execRecFindComplete (s : State) : Host.Outcome State Fault Refusal := .next (opRecFindComplete s)
def execRecDrop (k5 : Bool) (hdr : Word) (s : State) : Host.Outcome State Fault Refusal := .next (s.keepOpen fun s => (opRecDrop k5 hdr.toNat s).keepSettle)
def execKeepUnlock (k : Fin 8) (write : Bool) (pw : Nat) (s : State) : Host.Outcome State Fault Refusal := .next (s.keepOpen (opKeepUnlock k write pw))
def execKeepRelock (k : Fin 8) (s : State) : Host.Outcome State Fault Refusal := .next (s.keepOpen (opKeepRelock k))
def execPasswordBlockEnd (s : State) : Host.Outcome State Fault Refusal := .next (opPasswordBlockEnd s)
def execLogAppend (code data cls : Nat) (pin : Bool) (s : State) : Host.Outcome State Fault Refusal := .next (s.logOpen (opLogAppend code data cls pin))
def execLogUnpin (s : State) : Host.Outcome State Fault Refusal := .next (s.logOpen (opLogUnpin))
def execLogClrbad (good : List Nat) (s : State) : Host.Outcome State Fault Refusal := .next (s.logOpen (opLogClrbad good))

end Sys2Proof.Machine
end

