-- ==== Sys2Proof/Machine/Output.lean ====
section
/-! DEFINITION. Machine/Output.lean: the physical outputs: edges of the drive dies (15), the chopper's demand (16), the digital and analogue
outputs with their fallback levels (19, 20), and who owns an image location (06, R166). -/

namespace Sys2Proof.Machine

/-! ## Ownership of image locations (06, R166) -/

def State.ownsQ (s : State) (n b : Nat) : Bool := inRange b (s.get R.TSK_QRNG_START n) (s.get R.TSK_QRNG_COUNT n)
def State.ownsW (s : State) (n w : Nat) : Bool := inRange w (s.get R.TSK_WRNG_START n) (s.get R.TSK_WRNG_COUNT n)

/-- The first enabled task that satisfies a test, else the first task that does (DEDUCED, log entry 22). -/
def State.owner (s : State) (f : Nat → Bool) : Option Nat :=
  match (List.range 48).find? fun n => s.is R.TSK_CFG_EN n && f n with
  | some n => some n
  | none => (List.range 48).find? f

def State.ownerQ (s : State) (b : Nat) : Option Nat := s.owner (s.ownsQ · b)
def State.ownerW (s : State) (w : Nat) : Option Nat := s.owner (s.ownsW · w)

/-- The engine of the owner of a location is in Umbra (07, R189), or halted with the UMBRA turn policy (25, R616). -/
def State.ownerDark (s : State) (o : Option Nat) : Bool :=
  match o with
  | some n => s.umbraFlag (4 + s.tEng n) || (s.halted (s.tEng n) && s.get R.LANT_CTL_TURNPOL == 1)
  | none => false

/-- A committed Q byte, a Q bit (byte in [13:3], bit in [2:0]) and a committed QW word. -/
def State.qByte (s : State) (b : Nat) : Nat := (s.mb (0x03000800 + b)).toNat
def State.qBit (s : State) (x : Nat) : Bool := bit (s.qByte (x / 8 % 2048)) (x % 8)
def State.qWord (s : State) (w : Nat) : Nat := s.mw (0x03009000 + 4 * (w % 4096))

/-! ## Drive dies (15) -/

def State.die (s : State) (n : Nat) : DieSt := s.dies.getD n DieSt.reset
def State.upDie (s : State) (n : Nat) (f : DieSt → DieSt) : State := { s with dies := Store.put n (f (s.die n)) s.dies }

/-- The settings a transfer copies into a die (R393, R399). -/
def dieFields : List Fam :=
  [R.GD_ON0_IA, R.GD_ON0_IB, R.GD_ON0_IC, R.GD_ON1_TA, R.GD_ON1_TBMAX, R.GD_ON1_VPL, R.GD_OFF0_IA, R.GD_OFF0_IB, R.GD_OFF0_IC,
   R.GD_OFF1_TA, R.GD_OFF1_TBMAX, R.GD_OFF1_VPL, R.GD_SOFT0_IA, R.GD_SOFT0_IB, R.GD_SOFT0_IC, R.GD_SOFT1_TA, R.GD_SOFT1_TBMAX,
   R.GD_SOFT1_VPL, R.GD_DSAT_BLANK, R.GD_DSAT_THR, R.GD_DSAT_FILT, R.GD_CTL_CLAMPEN]

def State.dieSettings (s : State) (n : Nat) : List Nat := dieFields.map fun f => s.get f n

/-- `LOADPEND`: the pending settings differ from the die's (R399). -/
def State.loadPend (s : State) (n : Nat) : State :=
  s.put R.GD_STAT_LOADPEND (b2n (s.dieSettings n != (s.die n).copy)) n

/-- Transfer the pending settings into the die. -/
def State.dieTransfer (n : Nat) (s : State) : State :=
  (s.upDie n fun d => { d with copy := s.dieSettings n, load := false }).put R.GD_STAT_LOADPEND 0 n

/-- Phase A and Phase B limits of a profile from the die's copy (R395). -/
def DieSt.phases (d : DieSt) (e : Edge) : Nat × Nat :=
  let o := match e with | .on => 3 | .off => 9 | .soft => 15
  (d.copy.getD o 0, d.copy.getD (o + 1) 0)

/-- A die in UVLO (R391). -/
def State.uvlo (s : State) (n : Nat) : Bool := !s.is R.GD_STAT_VDDGOK n || !s.is R.GD_STAT_VEEGOK n

def State.released (s : State) (n : Nat) : Bool := s.is R.GD_STAT_RELEASED n

/-- GD6's on time is counted up to now (16, R422, R423). -/
def State.chopCount (s : State) : State :=
  match s.dlnk.onSince with
  | some t =>
    let d := s.time.real - t
    { s with dlnk := { s.dlnk with onSince := some s.time.real, capNs := s.dlnk.capNs + d, turnNs := s.dlnk.turnNs + d } }
  | none => s

/-- The on state of a die changes; GD6's shows in `DLNK` and EV 176 (16, R423). -/
def State.dieOn (n : Nat) (on : Bool) (s : State) : State :=
  let s := s.put R.GD_STAT_ON (b2n on) n
  if n = 6 then
    let s := s.chopCount
    let s := { s with dlnk := { s.dlnk with onSince := if on then some s.time.real else none } }
    (s.put R.DLNK_STAT_CHON (b2n on)).level 176 on 0
  else s

/-- A profile enters the given phase; the start of Phase C is kept (R404; 17, R442). -/
def State.diePhase (n k : Nat) (s : State) : State :=
  (if k = 3 then s.upDie n fun d => { d with cAt := s.now, quietAt := s.time.real } else s).put R.GD_STAT_PHASE k n

/-- Phase C of a turn-on ends: on-state samples of the switch that are not complete are not accepted (17, R442). -/
def State.lifeCut (n : Nat) (s : State) : State :=
  { s with brick := { s.brick with est := s.brick.est.map fun p => if p.1 = n then (p.1, p.2.filter fun q => decide (q.2 ≤ s.now)) else p } }

/-- Start a profile at Phase A (R396, R398). -/
def State.dieStart (n : Nat) (e : Edge) (s : State) : State :=
  let ph := (s.die n).phases e
  let s := (s.lifeCut n).upDie n fun d => { d with edge := e, start := s.time.real, runA := ph.1, runB := ph.2, use := d.copy }
  let s := s.dieOn n (e == .on)
  let s := if e = .on then s.put R.GD_STAT_CLAMP 0 n else s.put R.GD_STAT_SOFT (b2n (e == .soft)) n
  s.diePhase n (if ph.1 != 0 then 1 else if ph.2 != 0 then 2 else 3)

/-- A Roll of comparator `c` is running (16, R427). -/
def State.rolling (s : State) (c : Nat) : Bool := s.dlnk.roll.any fun r => r.comp == c

/-- A Roll of a comparator of die `n` is running. -/
def State.dieRoll (s : State) (n : Nat) : Bool := s.rolling n || s.rolling (8 + n)

/-- The enable in force on a die (R394). -/
def State.dieEn (s : State) (n : Nat) : Bool := (s.die n).en

/-- End the running Roll of comparator `c` with a status (16, R429, R431); `ROLLST` then shows it again. A disabled die raises nothing (R394). -/
def State.rollEnd (c status : Nat) (s : State) : State :=
  let s := { s with dlnk := { s.dlnk with roll := none } }
  let s := ((s.put R.DLNK_ROLLST_BUSY 0).put R.DLNK_ROLLST_STATUS status).put R.DLNK_ROLLST_COMP c
  let s := if status = 4 then s else s.putBit R.DLNK_ROLLPASS_P c (status == 0)
  let s := if status = 0 || status = 4 then s else (s.bump R.DLNK_CNT_RFAIL).warn 7 c
  if c < 16 then (if status = 0 || !s.dieEn (c % 8) then s else s.raise (147 + 4 * (c % 8)) status)
  else if status = 0 then s.raise 180 c else s.raise 181 c

/-- The Roll of a comparator of die `n`, if one runs, ends with a status (16, R431). -/
def State.rollStop (n status : Nat) (s : State) : State :=
  match s.dlnk.roll with
  | some r => if r.comp = n ∨ r.comp = 8 + n then s.rollEnd r.comp status else s
  | none => s

/-- What an edge command does when it reaches the die: on commands are ignored while the die is disabled, unconfigured, in UVLO, latched or
released; a repeated state is ignored (R391-R394, R398, R403, R413). -/
def State.dieEdge (n : Nat) (e : Edge) (s : State) : State :=
  let on := s.is R.GD_STAT_ON n
  match e with
  | .on =>
    let s := s.rollStop n 4
    if on || !s.dieEn n || !s.is R.GD_STAT_CFGOK n || s.uvlo n || s.is R.GD_STAT_DESATL n || s.is R.GD_STAT_CHLOSTL n || s.released n
    then s else s.dieStart n .on
  | .off => if on then s.dieStart n .off else s
  | .soft =>
    if on || ((s.die n).edge == .off && (s.get R.GD_STAT_PHASE n == 1 || s.get R.GD_STAT_PHASE n == 2)) then s.dieStart n .soft else s

/-- The core die decides an edge command; the die starts the profile 80 ns later (R392). None is sent while the pins are released (R413). -/
def State.dieCmd (n : Nat) (e : Edge) (s : State) : State :=
  if s.released n then s else s.upDie n fun d => { d with cmds := d.cmds ++ [(.edge e, s.time.real + 80)] }

/-- An edge command is on its way to the die. -/
def State.edgeSent (s : State) (n : Nat) : Bool := (s.die n).cmds.any fun c => match c.1 with | .edge _ => true | .enable _ => false

/-- The die stops at once and holds off: disabled, or its pins released (R394, R413). -/
def State.dieHold (n : Nat) (s : State) : State :=
  let s := ((s.lifeCut n).upDie n fun d => { d with edge := .off }).put R.GD_STAT_PHASE 0 n
  if s.is R.GD_STAT_ON n then s.dieOn n false else s

/-- The pins of a die are released: edge commands on their way are lost, and CLMP is at high impedance (R413). -/
def State.dieDrop (n : Nat) (s : State) : State :=
  ((s.upDie n fun d => { d with cmds := d.cmds.filter fun c => match c.1 with | .edge _ => false | .enable _ => true }).dieHold n).put
    R.GD_STAT_CLAMP 0 n

/-! ## Chopper (16, R419-R423) -/

def State.legRef (s : State) (l : Nat) : Bool := s.pwm.ref.getD l false

/-- The chopper's demand D (R421); held off when it entered Umbra through a fault of GD6 (07, R189). -/
def State.chopWant (s : State) : Bool :=
  let h := s.is R.DLNK_STAT_HYS
  if s.dark 2 then h && s.get R.EXC_UCAUSE_CHOP != 3
  else if s.pwm.chmode = 0 then h
  else h || (s.is R.GDRV_PWM_CTL_RUN && s.legRef 4)

/-- GD6 is to be on: D, CHEN (R419), and no cap that holds it off; without a carrier no cap applies (R422). -/
def State.chopDemand (s : State) : Bool :=
  s.is R.DLNK_CTL_CHEN && s.chopWant && !(s.is R.DLNK_STAT_CAPPED && s.is R.GDRV_PWM_CTL_RUN)

/-- Send GD6 the command that the demand gives (R423); `e` is the way in which it is turned off. -/
def State.chopAs (e : Edge) (s : State) : State :=
  let d := s.chopDemand
  if d == s.pwm.chopOn then s
  else { s with pwm := { s.pwm with chopOn := d } }.dieCmd 6 (if d then .on else e)

def State.chop (s : State) : State := s.chopAs .off

/-! ## Bridge (15, R400, R408, R410) -/

/-- Every bridge die receives a command. -/
def State.bridgeCmd (e : Edge) (s : State) : State := State.forAll (List.range 6) (fun n s => s.dieCmd n e) s

/-- The bridge stops following its references: off commands, pending on commands cancelled (R410). -/
def State.bridgeOff (e : Edge) (s : State) : State :=
  { s with pwm := { s.pwm with follow := false, dead := [], short := false } }.bridgeCmd e

/-- The owner of a location that an output of a scope is bound to drives it: there is one, its engine is not dark, and its first commit has come
since Run was entered, its ranges changed, or the scope was released (06, R166, R168; 07, R194). -/
def State.ownerLive (s : State) (scope : Nat) (o : Option Nat) : Bool :=
  match o with
  | some n => !(s.task n).await && !s.ownerDark o && !s.exc.waits.any fun p => p.2 == n && (p.1 == scope || p.1 == 0)
  | none => false

/-- The bridge enable that is asked for: the bound Q bit of the committed copy or SVBEN (R409), 0 before the owner's first commit and in
the dark. -/
def State.benAsked (s : State) : Bool :=
  let b := s.get R.GDRV_BIND3_BIT
  if s.is R.GDRV_BIND_EN 3 then s.ownerLive 1 (s.ownerQ (b / 8 % 2048)) && !s.dark 1 && s.qBit b else s.is R.GDRV_PWM_CTL_SVBEN

/-- The bridge enable in force changes (R410): off at once; on is taken up at the next carrier peak. -/
def State.setBen (v : Bool) (s : State) : State :=
  if s.is R.GDRV_PWM_CTL_BEN == v then s
  else
    let s := s.put R.GDRV_PWM_CTL_BEN (b2n v)
    if v then s else if s.dark 1 then s else s.bridgeOff .off

/-- The enable in force follows the request (R410), but for an overcurrent latch, after which it follows at a carrier peak (18, R469), and a blocked
brick (17, R453). -/
def State.benFollow (s : State) : State :=
  if !s.benAsked then s.setBen false
  else
    let oc := s.get R.SADC_OCSTAT_LATCH ≠ 0
    let blocked := s.is R.LIFE_STAT_BLOCK && !s.is R.GDRV_PWM_CTL_BEN
    let s := if oc then s.put R.SADC_OCSTAT_ENREF 1 else s
    let s := if blocked then s.put R.LIFE_STAT_ENREF 1 else s
    if oc || s.pwm.ocHold then s.setBen false else if blocked then s else s.setBen true

/-! ## Analogue outputs (19) -/

def State.aoSt (s : State) (n : Nat) : AoSt := s.ao.getD n AoSt.reset
def State.upAo (s : State) (n : Nat) (f : AoSt → AoSt) : State := { s with ao := Store.put n (f (s.aoSt n)) s.ao }

/-- The fallback condition of a channel holds (R479); an image-sourced one needs a live owner (06, R168; 07, R194). -/
def State.aoFallback (s : State) (n : Nat) : Bool :=
  s.dark 0 || s.get R.AOUT_CH_CFG_SRC n == 0 || (s.get R.AOUT_CH_CFG_SRC n == 1 && !s.ownerLive 0 (s.ownerW (s.get R.AOUT_CH_CFG_WORD n)))

/-- The code a 16-bit value stands for on a channel (R473). -/
def aoCode (n v : Nat) : Nat := if n < 4 then v % 65536 else v % 65536 / 16

/-- Minimum latch interval in ns (R474). -/
def aoInterval (n : Nat) : Nat := if n < 4 then 500 else 2000

/-- Stop a waveform channel: idle, and a sample that waits for its latch is not latched any more (R487). -/
def State.waveStop (k : Nat) (s : State) : State :=
  let s := s.put R.WAVE_CH_STAT_STATE 0 k
  if s.get R.AOUT_CH_CFG_SRC k = 3 then s.upAo k fun a => { a with wait := none } else s

/-- The code in force at crystal time `t`, of a channel whose newest code is `c`. -/
def codeAt (t : Nat) : List (Nat × Nat) → Nat → Nat
  | [], c => c
  | (b, at_) :: l, c => if t < at_ then codeAt t l b else c

/-- The code of a channel at crystal time `t`, up to 50 ns back. -/
def State.aoCodeAt (s : State) (n t : Nat) : Nat := codeAt t (s.aoSt n).old (s.get R.AOUT_CH_OUT_C n)

/-- The converter's output takes a code at crystal time `t`, in place of changes that lie after it; changes less than 50 ns back are kept, for the
string tap's delay (R483). -/
def State.aoLoad (n code t : Nat) (s : State) : State :=
  let l := (s.aoSt n).old.filter fun p => decide (p.2 ≤ t) && decide (s.time.real < p.2 + 50)
  let was := s.aoCodeAt n t
  (s.upAo n fun a => { a with old := if was = code then l else (was, t) :: l }).put R.AOUT_CH_OUT_C code n

/-- Bring a channel to its fallback while the condition holds (R479, R480). -/
def State.aoRefresh (n : Nat) (s : State) : State :=
  if s.aoFallback n then
    let s := (s.aoLoad n (s.get R.AOUT_CH_FB_C n) s.time.real).put R.AOUT_CH_OUT_FBACT 1 n
    let s := s.upAo n fun a => { a with wait := none, hold := true, armed := false }
    if s.dark 0 then s.waveStop n else s
  else s.put R.AOUT_CH_OUT_FBACT (b2n (s.aoSt n).hold) n

/-- Load a code into the converter at crystal time `t`. -/
def State.aoLatch (n code t : Nat) (s : State) : State :=
  (s.aoLoad n code t).upAo n fun a => { a with last := some t, wait := none }

/-- A latch request for crystal time `t` (R475): it waits for the minimum interval, replacing a waiting one. -/
def State.aoRequest (n code t : Nat) (s : State) : State :=
  if s.aoFallback n || (s.aoSt n).hold then s
  else
    let s := if (s.aoSt n).wait.isSome then s.bump R.AOUT_CH_OUT_SKIP n else s
    let due := match (s.aoSt n).last with | some u => u + aoInterval n | none => 0
    if t < due then s.upAo n fun a => { a with wait := some code, due := due } else s.aoLatch n code t

/-- The hold of R480 ends: first commit, CODE write or first played sample. -/
def State.aoFree (n : Nat) (s : State) : State :=
  if s.aoFallback n then s else (s.upAo n fun a => { a with hold := false }).put R.AOUT_CH_OUT_FBACT 0 n

/-! ## Digital outputs (20) -/

/-- The fallback condition of an output holds (R501); an image-sourced one needs a live owner (06, R168; 07, R194). -/
def State.doFallback (s : State) (k : Nat) : Bool :=
  s.dark 0 || s.get R.DIO_DO_CFG_SRC k == 0 ||
    (s.get R.DIO_DO_CFG_SRC k == 1 && !s.ownerLive 0 (s.ownerQ (s.get R.DIO_DO_CFG_BIT k / 8)))

/-- Level and fallback flag of an output by R495 and R501, or by the running walk (R505). -/
def State.doLevel (s : State) (k : Nat) : Bool × Bool :=
  match s.dio.walk with
  | .base :: _ => (false, false)
  | .out j :: _ => (j == k && s.is R.DIO_WALK_LEVEL, false)
  | .inp _ :: _ => (false, false)
  | [] =>
    if s.doFallback k || bit s.dio.hold k then (bit (s.get R.DIO_DO_FB_L) k, true)
    else if s.get R.DIO_DO_CFG_SRC k = 1 then (s.qBit (s.get R.DIO_DO_CFG_BIT k), false)
    else (bit (s.get R.DIO_DO_SV_L) k, false)

/-- Recompute the commanded levels. An output whose fallback condition holds will keep its fallback afterwards (R501). -/
def State.doRefresh (s : State) : State :=
  State.forAll (List.range 16)
    (fun k s =>
      let s := if s.doFallback k then { s with dio := { s.dio with hold := setBit s.dio.hold k true } } else s
      let l := s.doLevel k
      (s.putBit R.DIO_DO_STATE_CMD k l.1).putBit R.DIO_DO_STATE_FBACT k l.2) s

/-- Inputs with active wire-break detection (R494; during a walk R505). -/
def State.wbActive (s : State) : Nat :=
  match s.dio.walk with
  | .base :: _ => 0
  | .out _ :: _ => 0
  | .inp j :: _ => 2 ^ j
  | [] => s.get R.DIO_DI_WBEN_E &&& s.get R.DIO_DI_TYPE_T

/-- The common fault bit and EV 128 (R499). -/
def State.dioFault (s : State) : State :=
  let f := s.dio.ovl != 0 || s.dio.thm != 0 || (s.dio.broken &&& s.wbActive) != 0 || s.is R.DIO_STAT_UV
  (s.put R.DIO_STAT_FAULT (b2n f)).level 128 f 0

/-- Clear the output latches; a thermal latch stays while its switch is above 135 °C (R498). -/
def State.dioClear (hot : Nat) (s : State) : State :=
  { s with dio := { s.dio with ovl := 0, thm := s.dio.thm &&& hot } }.dioFault

/-- Inputs whose detection is not active forget that they were broken: it takes 50 ms again (R494). -/
def State.wbForget (s : State) : State := { s with dio := { s.dio with broken := s.dio.broken &&& s.wbActive } }.dioFault

/-- A walk ends: 2 done, 3 aborted; the outputs and the detection return, the results stand (R505, R506). -/
def State.walkEnd (st : Nat) (s : State) : State :=
  if s.dio.walk.isEmpty then s
  else (({ s with dio := { s.dio with walk := [] } }.put R.DIO_WALK_STATE st).doRefresh).wbForget

/-! ## Duties (15, R406, R409; 16, R421) -/

/-- Duty registers of the legs, and the binding of each (R409; 16, R421). -/
def dutyField (l : Nat) : Fam :=
  match l with
  | 0 => R.GDRV_DUTYU_D
  | 1 => R.GDRV_DUTYV_D
  | 2 => R.GDRV_DUTYW_D
  | 3 => R.GDRV_DUTYAUX_D
  | _ => R.DLNK_CHDUTY_D

def State.dutyBound (s : State) (l : Nat) : Option Nat :=
  if l = 4 then (if s.is R.DLNK_CHBIND_EN then some (s.get R.DLNK_CHBIND_WORD) else none)
  else
    let k := if l = 3 then 4 else l
    if s.is R.GDRV_BIND_EN k then some (s.get R.GDRV_BIND_WORD k % 4096) else none

/-- A duty is taken: above 100 % it saturates (R406). -/
def State.putDuty (l v : Nat) (s : State) : State :=
  let s := if 0x10000 < v then s.put R.GDRV_STAT_DUTYSAT 1 else s
  s.put (dutyField l) (min v 0x10000)

/-- Fallback duties (R410; 16, R421). -/
def dutyFallback (l : Nat) : Nat := if l < 3 then 0x8000 else 0

/-- The scope that a duty belongs to: the bridge, the chopper, or the device. -/
def dutyScope (l : Nat) : Nat := if l < 3 then 1 else if l = 4 then 2 else 0

/-- A bound duty follows the image: its scope is not dark, and its location has a live owner (06, R168; 07, R189). -/
def State.dutyLive (s : State) (l w : Nat) : Bool := s.ownerLive (dutyScope l) (s.ownerW w) && !s.dark (dutyScope l)

/-- Bound duties are taken from the committed copy at a commit (R409); a location without a live owner gives the fallback (06, R168). -/
def State.dutyCommit (l : Nat) (s : State) : State :=
  match s.dutyBound l with
  | none => s
  | some w => if s.dutyLive l w then s.putDuty l (s.qWord w) else s.put (dutyField l) (dutyFallback l)

/-- A bound duty whose location has no live owner takes its fallback at once (07, R189; 11, R278). -/
def State.dutyLapse (l : Nat) (s : State) : State :=
  match s.dutyBound l with
  | none => s
  | some w => if s.dutyLive l w then s else s.put (dutyField l) (dutyFallback l)

/-! ## All outputs -/

/-- A bound bridge enable whose owner does not drive it falls back to 0 (15, R410; 06, R168). -/
def State.benLapse (s : State) : State :=
  let b := s.get R.GDRV_BIND3_BIT
  if s.is R.GDRV_BIND_EN 3 && (!s.ownerLive 1 (s.ownerQ (b / 8 % 2048)) || s.dark 1) then s.setBen false else s

/-- Every physical output is brought in line with the scopes and the owners (07, R189; 15, R409; 19, R479; 20, R501). -/
def State.outRefresh (s : State) : State :=
  let s := if s.umbraFlag 0 || s.inRun then s.walkEnd 3 else s
  (State.forAll (List.range 5) State.dutyLapse (State.forAll (List.range 8) State.aoRefresh s.doRefresh)).benLapse.chop

/-- A transfer of the brick link ends (17, R436). -/
def State.xferEnd (s : State) : State :=
  { s with brick := { s.brick with xfer := 0, failed := false, waitRetry := false } }.put R.BRICK_STAT_BUSY 0

/-- Every die's outputs are released or driven (12, R290; 15, R413), and GD6 has no command from then on; with the release a walk ends (20, R506), and so does a transfer of the brick
link, whose pins are released with the others (01, R24; DEDUCED, log entry 157). -/
def State.setReleased (v : Bool) (s : State) : State :=
  let was := s.released 6
  let s := State.forAll (List.range 8)
    (fun n s => let s := s.put R.GD_STAT_RELEASED (b2n v) n; if v then s.dieDrop n else s) s
  let s := if was == v then s else { s with pwm := { s.pwm with chopOn := false, short := false } }
  if v then (s.walkEnd 3).xferEnd else s

end Sys2Proof.Machine
end

