-- ==== Sys2Proof/Machine/Checker.lean ====
section
/-! DEFINITION. Machine/Checker.lean: the access checker (10): the verdict on an access, the violation record, and the commit of a set-up. -/

namespace Sys2Proof.Machine

/-- A field of the active set-up (R259). -/
def State.act (s : State) (f : Fam) (i : Nat := 0) : Nat := s.m.chk.getD (f.key i 0) f.reset

/-- The fields of the set-up that belong to regions and slots, with their number of elements. -/
def chkFields : List (Fam × Nat) :=
  [(R.CHK_RQPRIV_DMA, 1), (R.CHK_RQPRIV_RFL, 1), (R.CHK_RQPRIV_LAN, 1), (R.CHK_RG_BASE_BASE, 24), (R.CHK_RG_CFG_EN, 24),
   (R.CHK_RG_CFG_SIZE, 24), (R.CHK_RG_CFG_SUBDIS, 24), (R.CHK_RG_CFG_CACHE, 24), (R.CHK_RG_CFG_ORDER, 24), (R.CHK_RG_ACC0_LE0, 24),
   (R.CHK_RG_ACC0_LE1, 24), (R.CHK_RG_ACC0_LE2, 24), (R.CHK_RG_ACC0_LE3, 24), (R.CHK_RG_ACC1_SV, 24), (R.CHK_RG_ACC1_DMA, 24),
   (R.CHK_RG_ACC1_RFL, 24), (R.CHK_RG_ACC1_LAN, 24), (R.CHK_SLOT_RMASK, 96), (R.CHK_SLOT_WMASK, 96), (R.CHK_SLOT_PRIV, 96)]

/-- `CHK.STAT.PEND` (R259): some pending field differs from the active one. -/
def State.chkPend (s : State) : Bool :=
  chkFields.any fun p => (List.range p.2).any fun i => s.get p.1 i != s.act p.1 i

/-- The privilege of a requester (R241). -/
def State.reqPriv (s : State) (r : Nat) : Nat :=
  if r < 4 then (s.eng r).priv
  else if r = 4 then 0
  else if r = 5 then s.act R.CHK_RQPRIV_DMA
  else if r = 6 then s.act R.CHK_RQPRIV_RFL
  else s.act R.CHK_RQPRIV_LAN

/-- A slot's masks and privilege: slot 14 is fixed, reserved slots read 0 (R248, R263). -/
def State.slotMask (s : State) (write : Bool) (k : Nat) : Nat :=
  if k = 14 then (if write then 0x10 else 0x90)
  else if 44 ≤ k then 0
  else s.act (if write then R.CHK_SLOT_WMASK else R.CHK_SLOT_RMASK) k

def State.slotPriv (s : State) (k : Nat) : Nat := if k = 14 || 44 ≤ k then 0 else s.act R.CHK_SLOT_PRIV k

/-- Region `n` matches an address (R249). -/
def State.regionMatches (s : State) (n a : Nat) : Bool :=
  let z := s.act R.CHK_RG_CFG_SIZE n
  let base := s.act R.CHK_RG_BASE_BASE n * 256
  s.act R.CHK_RG_CFG_EN n != 0 && 8 ≤ z && z ≤ 32 && inRange a base (2 ^ z) &&
    !bit (s.act R.CHK_RG_CFG_SUBDIS n) ((a - base) / 2 ^ (z - 3))

/-- The governing region: the highest enabled one that matches (R250). -/
def State.region (s : State) (a : Nat) : Option Nat := (List.range 24).reverse.find? fun n => s.regionMatches n a

/-- The rights byte of a requester in a region (R251). -/
def State.rights (s : State) (n r : Nat) : Nat :=
  s.act (match r with
    | 0 => R.CHK_RG_ACC0_LE0 | 1 => R.CHK_RG_ACC0_LE1 | 2 => R.CHK_RG_ACC0_LE2 | 3 => R.CHK_RG_ACC0_LE3
    | 4 => R.CHK_RG_ACC1_SV | 5 => R.CHK_RG_ACC1_DMA | 6 => R.CHK_RG_ACC1_RFL | _ => R.CHK_RG_ACC1_LAN) n

/-- A verdict: permitted or not, and what governed (slot?, number; 127 is the background rule). -/
structure Verdict where
  ok : Bool
  slot : Bool
  governs : Nat
  deriving DecidableEq, Repr

/-- Judge an access on its first byte (R244-R252). Kind: 0 read, 1 write, 2 execute. -/
def State.judge (s : State) (r priv kind a : Nat) : Verdict :=
  if inRange a 0x10000000 0x60000 then
    let k := (a - 0x10000000) / 0x1000
    if 44 ≤ k then { ok := true, slot := true, governs := k }
    else { ok := kind != 2 && bit (s.slotMask (kind == 1) k) r && decide (priv ≤ s.slotPriv k), slot := true, governs := k }
  else
    match s.region a with
    | some n => { ok := bit (s.rights n r) (kind + if priv = 2 then 0 else 3), slot := false, governs := n }
    | none =>
      { ok := (r == 4 && s.is R.CHK_CTL_SVBG) || (r == 7 && kind != 2 && s.is R.CHK_CTL_LNBG), slot := false, governs := 127 }

/-- Record a violation (R257). -/
def State.violation (r priv kind a len : Nat) (v : Verdict) (s : State) : State :=
  let s := (((s.put R.CHK_STAT_VIOL 1).put R.CHK_VIO_ADDR_A a r).put R.CHK_VIO_INFO_KIND kind r).put R.CHK_VIO_INFO_PRIV priv r
  let s := (((s.put R.CHK_VIO_INFO_SLOT (b2n v.slot) r).put R.CHK_VIO_INFO_MATCH v.governs r).put R.CHK_VIO_INFO_LEN (len - 1) r).bump R.CHK_VIO_CNT_N r
  s.raise (272 + r) (a % 65536)

/-- Judge, and record a refusal: the state and whether the access is permitted. -/
def State.check (r kind a len : Nat) (s : State) : State × Bool :=
  let v := s.judge r (s.reqPriv r) kind a
  if v.ok then (s, true) else (s.violation r (s.reqPriv r) kind a len v, false)

/-- The first rule a pending set-up breaks: error code and index (R260). -/
def State.chkBad (s : State) : Option (Nat × Nat) :=
  let en := (List.range 24).filter fun n => s.is R.CHK_RG_CFG_EN n
  let size := en.find? fun n => s.get R.CHK_RG_CFG_SIZE n < 8 || 32 < s.get R.CHK_RG_CFG_SIZE n
  let base := en.find? fun n => s.get R.CHK_RG_BASE_BASE n * 256 % 2 ^ s.get R.CHK_RG_CFG_SIZE n != 0
  let attr := en.find? fun n => s.get R.CHK_RG_CFG_CACHE n == 3 || s.get R.CHK_RG_CFG_ORDER n == 3
  let slot := (List.range 44).find? fun k => s.get R.CHK_SLOT_PRIV k == 3
  let rq := s.get R.CHK_RQPRIV_DMA == 3 || s.get R.CHK_RQPRIV_RFL == 3 || s.get R.CHK_RQPRIV_LAN == 3
  match size, base, attr, slot with
  | some n, _, _, _ => some (1, n)
  | none, some n, _, _ => some (2, n)
  | none, none, some n, _ => some (3, n)
  | none, none, none, some k => some (4, k)
  | none, none, none, none => if rq then some (5, 0) else none

/-- The active copy taken from the pending one (R261): exactly the fields that differ from their reset values are listed. -/
def State.chkCopy (s : State) : Store Nat :=
  chkFields.foldl
    (fun t p => (List.range p.2).foldl (fun t i => if s.get p.1 i = p.1.reset then t else Store.put (p.1.key i 0) (s.get p.1 i) t) t) []

/-- CHK_COMMIT (R260, R261): a burst in flight keeps the set-up it was issued under. -/
def opChkCommit (s : State) : State :=
  match s.chkBad with
  | some (c, i) => ((s.put R.CHK_STAT_CFGERR 1).put R.CHK_STAT_ERRCODE c).put R.CHK_STAT_ERRIDX i
  | none =>
    let old := (List.range 4).filter fun a => (s.m.dma.find? fun d => d.1 == a && d.2.desc.isSome && d.2.rules.isNone).isSome && !s.is R.DMA_STAT_WAITTRIG a
    { s with m := { s.m with chk := s.chkCopy,
                             dma := s.m.dma.map fun d => if old.contains d.1 then (d.1, { d.2 with rules := some s.m.chk }) else d } }

/-- CHK_DISCARD (R260). -/
def opChkDiscard (s : State) : State :=
  chkFields.foldl (fun s p => (List.range p.2).foldl (fun s i => s.put p.1 (s.act p.1 i) i) s) s

def execChkCommit (s : State) : Host.Outcome State Fault Refusal := .next (opChkCommit s)
def execChkDiscard (s : State) : Host.Outcome State Fault Refusal := .next (opChkDiscard s)

end Sys2Proof.Machine
end

