-- ==== Sys2Proof/Machine/Fault.lean ====
section
/-! DEFINITION. Machine/Fault.lean: Umbra and Penumbra, task, engine and device faults, engine reset (07; 09, R228), and the commands of
the EXC block. -/

namespace Sys2Proof.Machine

/-! ## Engine reset (09, R228) -/

/-- Zero a range of SRAM with good check bits. -/
def State.zeroMem (a n : Nat) (s : State) : State :=
  State.markDirty false a n
    { s with mem := s.mem.filter fun c => !inRange c.1 a n, m := { s.m with ecc := s.m.ecc.filter fun c => !inRange c.1 a n } }

/-- An engine may issue: Run, and no Umbra. -/
def State.mayIssue (s : State) (e : Nat) : Bool := s.phase == .up && s.inRun && !s.umbra (4 + e)

/-- Engine reset of LEe (R228): engine state, CSP registers and the context records. The EXC record and the refuge frame stay (R184). -/
def State.engineReset (e : Nat) (s : State) : State :=
  ((s.setEng e { Eng.reset e with wdAt := s.time.real, stop := if s.mayIssue e then .none else if s.umbra (4 + e) then .umbra else .held }).zeroMem (privBase e) 0xC00).bump
    R.RST_COUNT_ENG

/-! ## Mirror pairs (R186) -/

/-- Engine `e` is the secondary of a pair. -/
def State.secondary (s : State) (e : Nat) : Bool := (e == 1 && s.is R.EXC_CTL_MIR01) || (e == 3 && s.is R.EXC_CTL_MIR23)

/-! ## Flights (03, R68-R71; 04, R89) -/

def Flight.plain (u : UnitId) (due : Nat) (outs : List (Nat × Nat)) : Flight :=
  { unit := u, due := due, outs := outs.map fun o => (o.1, word o.2), acc := none, flags := 0, clr := false, ev := none, far := none }

/-- Put an operation in flight; a non-pipelined unit abandons the one it had (R70). -/
def Eng.fly (x : Eng) (f : Flight) : Eng :=
  let keep := if f.unit = .div ∨ f.unit = .fpuDiv then x.flights.filter fun g => g.unit != f.unit else x.flights
  { x with flights := keep ++ [f] }

def State.fly (e : Nat) (f : Flight) (s : State) : State := s.upE e fun x => x.fly f
/-- Cycle in which a result triggered now is readable. -/
def State.at (s : State) (e l : Nat) : Nat := (s.eng e).cyc + l

/-- The FPU flags after an operation completes (R106). -/
def Flight.newFlags (f : Flight) (old : Nat) : Nat := (if f.clr then 0 else old) ||| f.flags

/-- Write the results of a flight. -/
def Eng.land (x : Eng) (f : Flight) : Eng :=
  let x := f.outs.foldl (fun x o => x.setPort o.1 o.2) x
  let x := match f.acc with | some a => { x with acc := a } | none => x
  if f.unit = .fpuAdd ∨ f.unit = .fpuDiv then x.setPort 0x134 (word (f.newFlags (x.port 0x134).toNat)) else x

/-- Order of completion: by cycle, a flag clear first (R106), then trigger order. -/
def flightBefore (a b : Flight) : Bool := a.due < b.due || (a.due == b.due && a.clr && !b.clr)

def insertFlight (f : Flight) : List Flight → List Flight
  | [] => [f]
  | g :: r => if flightBefore f g then f :: g :: r else g :: insertFlight f r

/-- Flights due at or before a cycle, in order of completion; far accesses end elsewhere (04, R112). -/
def Eng.dueAt (x : Eng) (upto : Nat) : List Flight :=
  (x.flights.filter fun f => f.far.isNone && decide (f.due ≤ upto)).foldl (fun l f => insertFlight f l) []

/-- The engine with those results written. -/
def Eng.retired (x : Eng) (upto : Nat) : Eng :=
  (x.dueAt upto).foldl Eng.land { x with flights := x.flights.filter fun f => !(f.far.isNone && decide (f.due ≤ upto)) }

/-- Results due are written, and the software events among them raised (R117). -/
def State.retire (e upto : Nat) (s : State) : State :=
  let x := s.eng e
  State.forAll ((x.dueAt upto).filterMap fun f => f.ev) (fun k s => s.raise (280 + k) e) (s.setEng e (x.retired upto))

/-- Results due at a cycle are written; the secondary of a Mirror pair writes its own (07, R186). -/
def State.retireTo (e upto : Nat) (s : State) : State :=
  match s.mirrorOf e with
  | some f => (s.upE f fun y => y.retired upto).retire e upto
  | none => s.retire e upto

/-- Issue is suspended: every operation in flight but a far access completes (03, R68). -/
def State.settle (e : Nat) (s : State) : State := s.retireTo e (((s.eng e).flights.map Flight.due).foldl max 0)

/-- The secondary of a Mirror pair enters, leaves and stops with its primary; its G registers, ports and routes are its own (07, R186). -/
def State.mirrorJoin (e : Nat) (s : State) : State :=
  match s.mirrorOf e with
  | some f => if s.secondary f then let x := s.eng e; s.upE f fun y => { x with g := y.g, ports := y.ports, routes := y.routes } else s
  | none => s

/-- The engine as the secondary `y` of a Mirror pair runs in its place: what a program computes is the secondary's own, what governs issue is the
primary's (07, R186). -/
def Eng.beside (x y : Eng) : Eng :=
  { x with pc := y.pc, priv := y.priv, gbank := y.gbank, g := y.g, ports := y.ports, acc := y.acc, accO := y.accO, upper := y.upper, rets := y.rets,
           branch := y.branch, flights := y.flights, csp := y.csp, cspLo := y.cspLo, cspHi := y.cspHi, timers := y.timers }

/-- The state before a cycle of the pair, with the secondary in the primary's place: it meets the primary's memory (R186). -/
def State.asSecond (s : State) (e f : Nat) : State := s.setEng e ((s.eng e).beside (s.eng f))

/-- `a` after a cycle of the pair: `b` is the cycle as the secondary ran it, of which its engine alone remains; of a pair that stopped, its
registers. -/
def State.mirrorOwn (e f : Nat) (a b : State) : State :=
  a.upE f fun y => if (a.eng e).stop == .none then { b.eng e with routes := y.routes } else { y with g := (b.eng e).g, ports := (b.eng e).ports }

/-- The far accesses of the pair are the primary's (R186). -/
def State.mirrorFar (e : Nat) (s : State) : State :=
  match s.mirrorOf e with
  | some f => if s.secondary f then s.upE f fun y =>
      { y with flights := (y.flights.filter fun g => g.far.isNone) ++ (s.eng e).flights.filter fun g => g.far.isSome } else s
  | none => s

/-! ## Instances that end without commit (06, R159; 01, R14; 07, R189) -/

/-- Copy a range of the committed copy into the working copy, word by word through ECC by the commit hardware; a word that cannot be read is
poisoned where it lands (09, R222-R224). -/
def State.reloadRange (a n : Nat) (s : State) : State :=
  if n = 0 then s
  else
    let r := s.eccRead 9 0 a n
    let bad := (wordsOf 4 a n).filter fun x => s.badAt 0 x
    State.forAll bad (fun x s => s.setEcc (eccKey 2 x) 2) (r.1.eccWrite 9 2 a (r.1.mbs a n)).1

/-- Reload the working copy of a task's owned locations from the committed copy (R159). -/
def State.reloadWork (n : Nat) (s : State) : State :=
  let q := s.get R.TSK_QRNG_START n
  let w := s.get R.TSK_WRNG_START n
  let s := s.reloadRange (0x03000800 + q) (s.get R.TSK_QRNG_COUNT n)
  s.reloadRange (0x03009000 + 4 * w) (4 * s.get R.TSK_WRNG_COUNT n)

/-- A task's instances are discarded. -/
def State.dropInst (n : Nat) (s : State) : State :=
  match (s.task n).inst, (s.task n).done with
  | none, [] => s
  | _, _ => (s.upT n fun t => { t with inst := none, done := [] }).reloadWork n

/-- Tasks of an engine. -/
def State.tasksOf (s : State) (e : Nat) : List Nat := (List.range 48).filter fun n => s.tEng n == e

/-- CSP as the outermost handler of the running instance found it (R177). -/
def State.cspBefore (s : State) (e : Nat) : Word :=
  match (s.eng e).nest.getLast? with
  | some f => BitVec.ofNat 32 (s.mw (f.frame + 0x10))
  | none => (s.eng e).csp

/-- The engine falls idle: what is in flight completes (03, R68), an open locked sequence ends broken (R120), handlers are abandoned and CSP
restored. Far accesses go on (04, R112). -/
def State.engIdle (e : Nat) (s : State) : State :=
  let c := s.cspBefore e
  let s := match (s.eng e).nest.getLast? with | some f => (s.eccRead e 0 (f.frame + 0x10) 4).1 | none => s
  ((s.settle e).upE e fun x =>
    { x with live := false, task := none, csp := c, nest := [], floor := none, branch := [], rets := [], mac := none,
             broken := x.broken || x.lock.isSome, lock := none, stalled := false }).mirrorJoin e

/-- Every instance on an engine is stopped, and its issue (R189; 01, R14); pending routes are discarded (08, R207). A frozen engine keeps
what it holds (R180). -/
def State.stopEngine (e : Nat) (why : Stop) (s : State) : State :=
  let s := State.forAll (s.tasksOf e) State.dropInst s
  let s := { s with seq := { s.seq with due := s.seq.due.filter fun n => s.tEng n != e } }
  let s := if (s.eng e).routes.isEmpty then s else (s.upE e fun x => { x with routes := [] }).put R.EVT_STAT_RTDROP 1
  if (s.eng e).stop == .frozen then s else (s.engIdle e).upE e fun x => { x with stop := why }

/-! ## Umbra (R189-R195) -/

/-- Tasks that own a location which a register binds to the bridge duties or the bridge enable (R191; 15, R409), or to the chopper. -/
def State.bridgeTasks (s : State) : List Nat :=
  let w := (([0, 1, 2].filter fun k => s.is R.GDRV_BIND_EN k).map fun k => s.ownerW (s.get R.GDRV_BIND_WORD k)).filterMap id
  w ++ (if s.is R.GDRV_BIND_EN 3 then (s.ownerQ (s.get R.GDRV_BIND3_BIT / 8)).toList else [])

def State.chopTasks (s : State) : List Nat := if s.is R.DLNK_CHBIND_EN then (s.ownerW (s.get R.DLNK_CHBIND_WORD)).toList else []

/-- Their engines. -/
def State.bridgeOwners (s : State) : List Nat := s.bridgeTasks.map s.tEng
def State.chopOwners (s : State) : List Nat := s.chopTasks.map s.tEng

/-- Add a cause to the set of a scope, and make it the first if none is held (R191). -/
def State.addCause (scope code : Nat) (first : Bool) (s : State) : State :=
  if scope = 0 then
    let s := s.putBit R.EXC_UCSET_DEV (if code = 6 then 1 else 0) true
    if first then s.put R.EXC_UCAUSE_DEV code else s
  else if scope = 1 then
    let s := s.putBit R.EXC_UCSET_BRIDGE (code - 1) true
    if first then s.put R.EXC_UCAUSE_BRIDGE code else s
  else if scope = 2 then
    let s := s.putBit R.EXC_UCSET_CHOP (code - 1) true
    if first then s.put R.EXC_UCAUSE_CHOP code else s
  else
    let e := scope - 4
    let s := s.putBit R.EXC_UCSET_ENG (2 * e + (code - 1)) true
    if first then s.put R.EXC_UCAUSE_ENG (s.get R.EXC_UCAUSE_ENG + code * 4 ^ e - (s.get R.EXC_UCAUSE_ENG / 4 ^ e % 4) * 4 ^ e) else s

/-- The flag of a scope in `EXC.STAT`. -/
def State.setUmbraFlag (scope : Nat) (v : Bool) (s : State) : State :=
  if scope = 0 then s.put R.EXC_STAT_DUMB (b2n v)
  else if scope = 1 then s.put R.EXC_STAT_BUMB (b2n v)
  else if scope = 2 then s.put R.EXC_STAT_CUMB (b2n v)
  else s.putBit R.EXC_STAT_EUMB (scope - 4) v

/-- The bridge takes its Umbra content (R189): soft-off, duties and references no longer reach the dies. -/
def State.bridgeDark (s : State) : State := s.bridgeOff .soft

/-- The bridge, or the chopper, takes its Umbra content (R189); GD6 turned off by it uses its soft-off (15, R400). -/
def State.powerDark (scope : Nat) (s : State) : State := if scope = 1 then s.bridgeDark else s.chopAs .soft

/-- The device takes its Umbra content (R189). -/
def State.deviceDark (s : State) : State :=
  let s := State.forAll (List.range 4) (fun e s => s.stopEngine e .umbra) s
  (((s.bridgeDark).dieCmd 7 .soft).chopAs .soft).outRefresh

/-- Put the bridge or the chopper into Umbra with a cause. -/
def State.powerUmbra (scope code : Nat) (s : State) : State :=
  if s.umbraFlag scope then s.addCause scope code false
  else
    let s := (((s.setUmbraFlag scope true).addCause scope code true).raise 9 (256 + scope))
    s.powerDark scope

/-- Bridge and chopper follow the Umbra of an engine that owns their bound locations (R191, code 0x01). -/
def State.followEngine (e : Nat) (s : State) : State :=
  let s := if s.bridgeOwners.contains e then
      { s with exc := { s.exc with bridgeBy := s.exc.bridgeBy ++ [e] } }.powerUmbra 1 1 else s
  if s.chopOwners.contains e then { s with exc := { s.exc with chopBy := s.exc.chopBy ++ [e] } }.powerUmbra 2 1 else s

/-- A Lead hands its pins over (12, R291): RELEASE is sent eight times, the pins are released, OWN_OUT is deasserted. -/
def State.handOver (s : State) : State :=
  let s := if s.is R.RFL_STAT_LINK then { s with rfl := { s.rfl with relSets := s.rfl.relSets + 8 } } else s
  (s.setReleased true).put R.RFL_STAT_OWN 0

/-- The device scope of a Lead is in Umbra: it hands over to a Shadow that is ready (12, R291). -/
def State.leadFails (s : State) : State := if s.lead && s.is R.RFL_STAT_READY then s.handOver else s

/-- A scope enters Umbra at once (R190, R191). A fault of GD6 takes the bridge with the chopper, whether or not the chopper was in Umbra
already; a Lead whose Shadow is ready hands over at every cause of the device scope (12, R291). So also in Hold (DEDUCED, log entry 170). -/
def State.umbraEnter (scope code : Nat) (s : State) : State :=
  if s.umbraFlag scope then
    let s := s.addCause scope code false
    if scope = 0 then s.leadFails else if scope = 2 && code == 3 then s.powerUmbra 1 5 else s
  else if scope = 0 then
    (((s.setUmbraFlag 0 true).addCause 0 code true).raise 9 256).leadFails.deviceDark
  else if scope = 1 then s.powerUmbra 1 code
  else if scope = 2 then
    let s := s.powerUmbra 2 code
    if code = 3 then s.powerUmbra 1 5 else s
  else if 4 ≤ scope then
    let e := scope - 4
    let s := ((s.setUmbraFlag scope true).addCause scope code true).stopEngine e .umbra
    ((s.raise 9 (256 + scope)).followEngine e).outRefresh
  else s

/-! ## Faults -/

/-- The EXC record of a fault on engine `e` (R173). -/
def State.excRecord (e cause cls detail resume : Nat) (s : State) : State :=
  let t := (s.eng e).task
  ((((((s.put R.EXC_FAULT_CAUSE cause e).put R.EXC_FAULT_CLASS cls e).put R.EXC_FAULT_TASK (t.getD 0) e).put R.EXC_FAULT_TVALID
    (b2n t.isSome) e).put R.EXC_DET_DETAIL detail e).put R.EXC_RESUME_IDX resume e)

/-- Which event an engine fault raises (R178). -/
def faultEvent (e cause : Nat) : Nat := if cause = 0x52 then 82 + 4 * e else if cause = 0x51 then 83 + 4 * e else 81 + 4 * e

/-- Engine fault (R172, R178): record and Umbra of the engine scope, before its event. -/
def State.engineFault1 (e cause detail resume : Nat) (s : State) : State :=
  (((s.excRecord e cause 3 detail resume).bump R.EXC_CNT_ENGF e).logFault cause 3 e (s.eng e).task s.now).umbraEnter (4 + e) 1

/-- Both engines of a Mirror pair take an engine fault (R191); the events follow in the order of the sources (08, R202), after the
event of a task fault which led here, whose cause is `first`. -/
def State.engineFaultAfter (first : Option Nat) (e cause detail resume : Nat) (s : State) : State :=
  let t := s.engineFault1 e cause detail resume
  let t := match s.mirrorOf e with
    | some f => t.engineFault1 f cause detail resume
    | none => t
  let t := match first with
    | some c => t.raise (80 + 4 * e) c
    | none => t
  match s.mirrorOf e with
  | some f => (t.raise (faultEvent (min e f) cause) cause).raise (faultEvent (max e f) cause) cause
  | none => t.raise (faultEvent e cause) cause

/-- Engine fault (R172, R178, R191). -/
def State.engineFault (e cause detail resume : Nat) (s : State) : State := s.engineFaultAfter none e cause detail resume

/-- Device fault (R192): DEVCAUSE keeps the first cause; EV 8 comes before EV 9 (08, R202). AUTORST is looked at here only (DEDUCED, log entry 199),
and SV goes on (log entry 198). -/
def State.deviceFault (code : Nat) (s : State) : State :=
  let first := s.get R.EXC_STAT_DEVCAUSE == 0
  let s := if first then s.put R.EXC_STAT_DEVCAUSE code else s
  let s := if code < 6 && s.is R.EXC_CTL_AUTORST && s.exc.autoRst.isNone then { s with exc := { s.exc with autoRst := some s.time.real } } else s
  ((s.logFault code 4 4 none s.now).raise 8 (s.get R.EXC_STAT_DEVCAUSE)).umbraEnter 0 (if code = 6 then 2 else 6)

/-- An instance ends as a task fault, before the event (R159, R172). -/
def State.taskEnd (n cause detail resume : Nat) (s : State) : State :=
  let e := s.tEng n
  let running := (s.eng e).task == some n
  let s := ((((((s.put R.EXC_FAULT_CAUSE cause e).put R.EXC_FAULT_CLASS 2 e).put R.EXC_FAULT_TASK n e).put R.EXC_FAULT_TVALID 1 e).put
    R.EXC_DET_DETAIL detail e).put R.EXC_RESUME_IDX resume e)
  let s := (s.logFault cause 2 e (some n) s.now).put R.TSK_ST_TFAULT 1 n
  let s := (s.upT n fun t => { t with inst := none }).reloadWork n
  let s := { s with seq := { s.seq with ndisc := s.seq.ndisc + 1 } }
  let s := if running then s.engIdle e else s
  s.bump R.EXC_CNT_TFRUN e

/-- A task fault (R159, R172, R176): causes 0x0030 and above, and P2 faults with TFH 0; repeated ones lead to an engine fault. -/
def State.taskFault (n cause detail resume : Nat) (s : State) : State :=
  let e := s.tEng n
  let s := s.taskEnd n cause detail resume
  if s.get R.EXC_CFG_TFN e != 0 && decide (s.get R.EXC_CFG_TFN e ≤ s.get R.EXC_CNT_TFRUN e) then
    s.engineFaultAfter (some cause) e 0x33 n resume
  else s.raise (80 + 4 * e) cause

/-! ## Release (R194) -/

/-- A device fault with DEVCAUSE 0x01 to 0x05 is present, be it after a commanded entry (R193). -/
def State.devFault (s : State) : Bool := inRange (s.get R.EXC_STAT_DEVCAUSE) 1 5 || bit (s.get R.EXC_UCSET_DEV) 1

/-- A cause of a scope is still present (R191, R194). -/
def State.causePresent (s : State) (scope : Nat) : Bool :=
  if scope = 0 then s.get R.EXC_STAT_DEVCAUSE != 6 || s.devFault
  else if scope = 1 then
    s.exc.bridgeBy.any (fun e => s.umbraFlag (4 + e)) ||
      (List.range 6).any (fun n => s.dieEn n && (s.uvlo n || !s.is R.GD_STAT_CHOK n)) ||
      (bit (s.get R.EXC_UCSET_BRIDGE) 3 && s.is R.DLNK_STAT_CMPTRIP) || (bit (s.get R.EXC_UCSET_BRIDGE) 4 && s.umbraFlag 2)
  else if scope = 2 then
    s.exc.chopBy.any (fun e => s.umbraFlag (4 + e)) || (s.dieEn 6 && (s.uvlo 6 || !s.is R.GD_STAT_CHOK 6))
  else s.is R.EXC_FAULT_OCC (scope - 4) || (s.eng (scope - 4)).stop == .frozen

/-- The request of R194 is accepted. -/
def State.releaseOk (s : State) (scope : Nat) : Bool := !s.causePresent scope

/-- Clear the fault latches of the dies of a scope at its release (15, R403). -/
def State.clearLatches (l : List Nat) (s : State) : State :=
  State.forAll l (fun n s => (s.put R.GD_STAT_DESATL 0 n).put R.GD_STAT_CHLOSTL 0 n) s

/-- The outputs of a released scope keep their fallback until the first commit of their tasks (R194). -/
def State.waitCommit (scope : Nat) (l : List Nat) (s : State) : State :=
  { s with exc := { s.exc with waits := (s.exc.waits.filter fun p => p.1 != scope) ++ l.map fun n => (scope, n) } }

/-- The bridge or the chopper leaves Umbra. -/
def State.powerRelease (scope : Nat) (s : State) : State :=
  if !s.umbraFlag scope then s
  else
    let s := (s.setUmbraFlag scope false).waitCommit scope (if scope = 1 then s.bridgeTasks else s.chopTasks)
    if scope = 1 then
      let s := ((s.put R.EXC_UCAUSE_BRIDGE 0).put R.EXC_UCSET_BRIDGE 0).clearLatches (List.range 6)
      let s := if s.pwm.short then s.bridgeOff .off else s
      { s with exc := { s.exc with bridgeBy := [] }, pwm := { s.pwm with faulted := [] } }.raise 9 1
    else
      let s := ((s.put R.EXC_UCAUSE_CHOP 0).put R.EXC_UCSET_CHOP 0).clearLatches [6]
      { s with exc := { s.exc with chopBy := [] } }.raise 9 2 |>.chop

/-- The device leaves Umbra (R194). -/
def State.deviceLight (s : State) : State :=
  let s := (((s.setUmbraFlag 0 false).put R.EXC_UCAUSE_DEV 0).put R.EXC_UCSET_DEV 0).put R.EXC_STAT_DEVCAUSE 0
  let s := State.forAll ((List.range 4).filter fun e => !s.umbraFlag (4 + e)) State.engineReset s
  let s := ((s.waitCommit 0 (List.range 48)).waitCommit 1 s.bridgeTasks).waitCommit 2 s.chopTasks
  (s.raise 9 0).outRefresh

/-- An accepted release takes effect at the tick (R194). -/
def State.umbraRelease (scope : Nat) (s : State) : State :=
  if !s.umbraFlag scope then s
  else if s.causePresent scope then s.put R.EXC_STAT_RELERR 1
  else if scope = 0 then s.deviceLight
  else if scope < 3 then (s.powerRelease scope).outRefresh
  else
    let e := scope - 4
    let s := (s.setUmbraFlag scope false).put R.EXC_UCAUSE_ENG (s.get R.EXC_UCAUSE_ENG - (s.get R.EXC_UCAUSE_ENG / 4 ^ e % 4) * 4 ^ e)
    let s := (s.putBit R.EXC_UCSET_ENG (2 * e) false).putBit R.EXC_UCSET_ENG (2 * e + 1) false
    let s := (s.engineReset e).raise 9 scope
    let s := State.forAll (s.tasksOf e) (fun n s => s.upT n fun t => { t with await := true }) s
    let s := if s.get R.EXC_UCSET_BRIDGE == 1 && s.exc.bridgeBy.all (fun f => !s.umbraFlag (4 + f)) then s.powerRelease 1 else s
    let s := if s.get R.EXC_UCSET_CHOP == 1 && s.exc.chopBy.all (fun f => !s.umbraFlag (4 + f)) then s.powerRelease 2 else s
    s.outRefresh

/-! ## Commands of the EXC block -/

/-- ENTER (R190, R191, R192): the device scope as device fault 0x06. -/
def State.excEnter (scope : Nat) (s : State) : State :=
  if scope = 3 then s else if scope = 0 then s.deviceFault 6 else s.umbraEnter scope 2

/-- RELEASE (R194); of a scope that is not in Umbra it has no effect (DEDUCED, log entry 20). -/
def State.excRelease (scope : Nat) (s : State) : State :=
  if scope = 3 || !s.umbraFlag scope then s
  else if s.releaseOk scope then { s with exc := { s.exc with releases := s.exc.releases ++ [scope] } }
  else s.put R.EXC_STAT_RELERR 1

/-- The carrier period in Penumbra is one that R197 refuses. -/
def State.penCarrierBad (s : State) : Bool :=
  let c := s.get R.GDRV_CP_CP * s.get R.EXC_PEN_FSWDIV
  c == 0 || decide (200000 < c) || s.period % c != 0

/-- PENENTER (R196): scopes 0-2. -/
def State.excPenenter (scope : Nat) (s : State) : State :=
  if scope = 0 then { s with exc := { s.exc with dCmd := true } }
  else if scope = 1 then { s with exc := { s.exc with bCmd := true } }
  else if scope = 2 then { s with exc := { s.exc with cCmd := true } }
  else s

/-- PENLEAVE (R196). -/
def State.excPenleave (scope : Nat) (s : State) : State :=
  if scope = 0 then { s with exc := { s.exc with dCmd := false } }
  else if scope = 1 then { s with exc := { s.exc with bCmd := false } }
  else if scope = 2 then { s with exc := { s.exc with cCmd := false } }
  else s

/-- The four rows of `EXC.CMD`; on a Lead in Run they are control writes (12, R305). -/
def opExcCmdEnter (scope : Nat) (s : State) : State := s.control 0x1000C008 (scope + 256) (State.excEnter scope)
def opExcCmdRelease (scope : Nat) (s : State) : State := s.control 0x1000C008 (scope + 512) (State.excRelease scope)
def opExcCmdPenenter (scope : Nat) (s : State) : State := s.control 0x1000C008 (scope + 1024) (State.excPenenter scope)
def opExcCmdPenleave (scope : Nat) (s : State) : State := s.control 0x1000C008 (scope + 2048) (State.excPenleave scope)

/-- The engine holds work (R182): an instance on it is ready, running or preempted, it is in a handler, or it is frozen; not while it is halted,
stopped by Hold, or stopped in Umbra and not frozen. -/
def State.holdsWork (s : State) (e : Nat) : Bool :=
  let x := s.eng e
  !s.halted e &&
    (x.stop == .frozen ||
      (x.stop == .none && (!x.nest.isEmpty || (s.tasksOf e).any fun n => s.busy n && (s.task n).inst.any fun i => i.st != .ended)))

/-- ENGINE_WATCHDOG_EXPIRY (R182-R184): time reaches WDT µs after the last restart (log entry 146). The watchdog of an engine that holds no work, or
that waits on a following Shadow for a far value, restarts and does not expire. -/
def opEngineWatchdogExpiry (e : Nat) (s : State) : State :=
  if !s.holdsWork e || (s.following && (s.eng e).stalled) then s.upE e fun x => { x with wdAt := s.time.real }
  else
    let s := s.advanceReal ((s.eng e).wdAt + 1000 * s.get R.EXC_CFG_WDT e)
    let r := (s.eng e).pc
    ((s.engineFault e 0x51 0 r).put R.EXC_FAULT_WDTEXP 1 e).engineReset e

/-- SV_WATCHDOG_KICK (R185): 0xA5 directly after 0x5A restarts the count; no other value touches it. -/
def opSvWatchdogKick (v : Nat) (s : State) : State :=
  let go := v == 0xA5 && s.exc.kick
  { s.put R.EXC_SVWDT_KICK v with exc := { s.exc with kick := v == 0x5A, svAt := if go then s.time.real else s.exc.svAt,
                                                      svHeld := if go then s.exc.svHeld.map fun _ => 0 else s.exc.svHeld } }

/-- SV_WATCHDOG_EXPIRY (R185, R192): time reaches MS ms after the release of SV or the last restart (log entry 146); not while SV is halted or
held. -/
def opSvWatchdogExpiry (s : State) : State :=
  if s.halted 4 || (s.eng 4).stop != .none then s else (s.advanceReal (s.exc.svAt + 1000000 * s.get R.EXC_SVWDT_MS)).deviceFault 2

/-- Layout ID and CRC of the active half of an engine's decode RAM (05, R142). -/
def State.decActive (s : State) (e : Nat) : Nat := 0x05000000 + e * 0x8000 + 0x4000 * s.get R.LE_DEC_STAT_ACT e
def State.decStaging (s : State) (e : Nat) : Nat := 0x05000000 + e * 0x8000 + 0x4000 * (1 - s.get R.LE_DEC_STAT_ACT e)

/-- Two engines hold active tables with the same layout ID and CRC (05, R142). -/
def State.sameTables (s : State) (a b : Nat) : Bool :=
  s.mw (s.decActive a) == s.mw (s.decActive b) && s.mw (s.decActive a + 8) == s.mw (s.decActive b + 8)

/-- One pair of MIRROR_WRITE (R186): setting it resets both engines. Armed tables stay armed (DESIGN CHOICE, log entry 194). -/
def State.mirrorPair (f : Fam) (a b : Nat) (v : Bool) (s : State) : State :=
  if s.is f == v then s
  else if v && (!s.sameTables a b || s.domOff (2 + a) || s.domOff (2 + b)) then s.put R.EXC_STAT_MIRERR 1
  else
    let s := s.put f (b2n v)
    if v then (s.engineReset a).engineReset b else s

/-- MIRROR_WRITE (R186): in Hold only. In Run every write of the field is refused (DEDUCED, log entry 197). -/
def opMirrorWrite (m01 m23 : Bool) (s : State) : State :=
  if s.inRun then s.put R.EXC_STAT_MIRERR 1
  else (s.mirrorPair R.EXC_CTL_MIR01 0 1 m01).mirrorPair R.EXC_CTL_MIR23 2 3 m23

def execExcCmdEnter (scope : Fin 8) (s : State) : Host.Outcome State Fault Refusal := .next (opExcCmdEnter scope s)
def execExcCmdRelease (scope : Fin 8) (s : State) : Host.Outcome State Fault Refusal := .next (opExcCmdRelease scope s)
def execExcCmdPenenter (scope : Fin 8) (s : State) : Host.Outcome State Fault Refusal := .next (opExcCmdPenenter scope s)
def execExcCmdPenleave (scope : Fin 8) (s : State) : Host.Outcome State Fault Refusal := .next (opExcCmdPenleave scope s)
def execEngineWatchdogExpiry (e : Fin 4) (s : State) : Host.Outcome State Fault Refusal := .next (opEngineWatchdogExpiry e s)
def execSvWatchdogKick (v : Byte) (s : State) : Host.Outcome State Fault Refusal := .next (opSvWatchdogKick v.toNat s)
def execSvWatchdogExpiry (s : State) : Host.Outcome State Fault Refusal := .next (opSvWatchdogExpiry s)
def execMirrorWrite (m01 m23 : Bool) (s : State) : Host.Outcome State Fault Refusal := .next (opMirrorWrite m01 m23 s)

end Sys2Proof.Machine
end

