-- ==== Sys2Proof/Machine/Flags.lean ====
section
/-! DEFINITION. Machine/Flags.lean: the arithmetic of the units and the flags it gives (04, R103-R107). Flags of the ALU: [0] C, [1] V,
[2] Z, [3] N. -/

namespace Sys2Proof.Machine

/-- A two's complement number as a 32-bit word. -/
def w32 (i : Int) : Nat := ofSigned 32 i

/-- Z and N of a result (R103). -/
def flagsZN (r : Nat) : Nat := 4 * b2n (r % 2 ^ 32 == 0) + 8 * b2n (bit r 31)

/-- Result and flags with C and V given. -/
def withFlags (r : Nat) (c v : Bool) : Nat × Nat := (r % 2 ^ 32, b2n c + 2 * b2n v + flagsZN r)

/-- ADD and SUB (R103): C is the carry out, or NOT borrow; V signed overflow. -/
def aluAdd (a b : Nat) : Nat × Nat :=
  withFlags ((a + b) % 2 ^ 32) (decide (2 ^ 32 ≤ a + b)) (decide (toSigned 32 (a + b) ≠ toSigned 32 a + toSigned 32 b))
def aluSub (a b : Nat) : Nat × Nat :=
  withFlags (w32 (toSigned 32 a - toSigned 32 b)) (decide (b ≤ a)) (decide (toSigned 32 (w32 (toSigned 32 a - toSigned 32 b)) ≠ toSigned 32 a - toSigned 32 b))

/-- Results with C and V 0: logical, shift, minimum, maximum and count operations (R103). -/
def aluPlain (r : Nat) : Nat × Nat := withFlags r false false

/-- Saturating operations (R103): V is the saturation; the spec gives no C, so it is a free bit. -/
def aluSat (i : Int) (c : Bool) : Nat × Nat := withFlags (w32 (satSigned 32 i)) c (decide (satSigned 32 i ≠ i))

def rotl (a k : Nat) : Nat := (a * 2 ^ k + a / 2 ^ (32 - k)) % 2 ^ 32

/-- Arithmetic shift right. -/
def sar (a k : Nat) : Nat := w32 (toSigned 32 a / (2 ^ k : Nat))

/-- Sign extension from bit `k`. -/
def sxt (a k : Nat) : Nat := w32 (toSigned (k + 1) a)

/-- Leading zeros of a 32-bit word. -/
def clz (a : Nat) : Nat := 32 - blen (a % 2 ^ 32)

/-- An ALU operation by its port number; `c` is the free carry of the operations for which the spec gives none (R103; log entry 7). -/
def aluOp (p a b : Nat) (c : Bool) : Nat × Nat :=
  let k := b % 32
  match p - 0x0C0 with
  | 1 => aluAdd a b
  | 2 => aluSub a b
  | 3 => aluPlain (a &&& b)
  | 4 => aluPlain (a ||| b)
  | 5 => aluPlain (a ^^^ b)
  | 6 => aluPlain (a &&& (2 ^ 32 - 1 - b))
  | 7 => aluPlain (a * 2 ^ k % 2 ^ 32)
  | 8 => aluPlain (a / 2 ^ k)
  | 9 => aluPlain (sar a k)
  | 10 => aluPlain (rotl a k)
  | 11 => aluPlain (if toSigned 32 a ≤ toSigned 32 b then a else b)
  | 12 => aluPlain (if toSigned 32 a ≤ toSigned 32 b then b else a)
  | 13 => aluPlain (min a b)
  | 14 => aluPlain (max a b)
  | 15 => aluSat (toSigned 32 a + toSigned 32 b) c
  | 16 => aluSat (toSigned 32 a - toSigned 32 b) c
  | 17 => aluSat (if toSigned 32 a < 0 then -toSigned 32 a else toSigned 32 a) c
  | 18 => aluSat (-toSigned 32 a) c
  | 19 => withFlags (sxt a k) c false
  | _ => aluPlain (clz a)

/-- The operations whose C the spec does not give. -/
def aluFreeC (p : Nat) : Bool := 0x0CF ≤ p && p ≤ 0x0D3

/-- Comparison by port number, 0x0E1-0x0ED (R89, R97). -/
def cmpOp (p a b : Nat) : Bool :=
  let x := toSigned 32 a
  let y := toSigned 32 b
  match p - 0x0E0 with
  | 1 => a == b
  | 2 => a != b
  | 3 => decide (x < y)
  | 4 => decide (x ≤ y)
  | 5 => decide (y < x)
  | 6 => decide (y ≤ x)
  | 7 => decide (a < b)
  | 8 => decide (b ≤ a)
  | 9 => a == b
  | 10 => decide (x < y)
  | 11 => decide (x ≤ y)
  | 12 => decide (a < b)
  | _ => decide (a ≤ b)

/-- Products (R104): `MUL.LO` and `MUL.HI`. -/
def mulOp (p a b : Nat) : Nat × Nat :=
  let sp := toSigned 32 a * toSigned 32 b
  let full := ofSigned 64 sp
  match p - 0x0F0 with
  | 1 => (full % 2 ^ 32, full / 2 ^ 32)
  | 2 => (a * b % 2 ^ 32, a * b / 2 ^ 32)
  | _ => (w32 (satSigned 32 (sp / (2 ^ 31 : Nat))), full / 2 ^ 32)

/-- Quotient, remainder and flags (R105). -/
def divOp (signed : Bool) (a b : Nat) : Nat × Nat × Nat :=
  if b = 0 then
    (if !signed then 0xFFFFFFFF else if bit a 31 then 0x80000000 else 0x7FFFFFFF, a, 1)
  else if !signed then (a / b, a % b, 0)
  else if a = 0x80000000 ∧ b = 0xFFFFFFFF then (0x7FFFFFFF, 0, 2)
  else (w32 ((toSigned 32 a).tdiv (toSigned 32 b)), w32 ((toSigned 32 a).tmod (toSigned 32 b)), 0)

/-- A 64-bit result as two port words. -/
def outs64 (lo hi r : Nat) : List (Nat × Nat) := [(lo, r % 2 ^ 32), (hi, r / 2 ^ 32)]

/-- An FPU operation by port number (R106, R107): result ports and flags. `a`, `b` are the low words, `ah`, `bh` the high words. -/
def fpuOp (p rm a ah b bh : Nat) : List (Nat × Nat) × Nat :=
  let A := a + 2 ^ 32 * ah
  let B := b + 2 ^ 32 * bh
  let q (r : Nat × Nat) := ([(0x130, r.1)], r.2)
  let qd (r : Nat × Nat) := (outs64 0x130 0x131 r.1, r.2)
  match p - 0x118 with
  | 0 => q (addF b32 rm false a b)
  | 1 => q (addF b32 rm true a b)
  | 2 => q (mulF b32 rm a b)
  | 3 => let r := divF b32 rm a b; ([(0x132, r.1)], r.2)
  | 4 => let r := sqrtF b32 rm a; ([(0x132, r.1)], r.2)
  | 5 => q (cmpF b32 a b)
  | 6 => q (toIntF b32 32 rm a)
  | 7 => q (ofIntF b32 rm (toSigned 32 a))
  | 8 => qd (addF b64 rm false A B)
  | 9 => qd (addF b64 rm true A B)
  | 10 => qd (mulF b64 rm A B)
  | 11 => let r := divF b64 rm A B; (outs64 0x132 0x133 r.1, r.2)
  | 12 => let r := sqrtF b64 rm A; (outs64 0x132 0x133 r.1, r.2)
  | 13 => q (cmpF b64 A B)
  | 14 => q (toIntF b64 32 rm A)
  | 15 => qd (ofIntF b64 rm (toSigned 32 a))
  | 16 => qd (convF b32 b64 rm a)
  | _ => q (convF b64 b32 rm A)

/-- Divide-path triggers and their latency (R89). -/
def fpuDivide (p : Nat) : Option Nat :=
  if p = 0x11B || p = 0x123 then some 16 else if p = 0x11C || p = 0x124 then some 18 else none

/-- A bit operation on the accumulator by port number, 0x080-0x086 (R96). -/
def buLogic (p : Nat) (x b : Bool) : Bool :=
  match p - 0x080 with
  | 0 => b
  | 1 => !b
  | 2 => x && b
  | 3 => x && !b
  | 4 => x || b
  | 5 => x || !b
  | _ => x != b

/-- Combination of a popped pair with the accumulator (R98). -/
def buPop (code : Nat) (a x : Bool) : Bool :=
  match code with
  | 0 => a
  | 1 => a && x
  | 2 => a && !x
  | 3 => a || x
  | 4 => a || !x
  | 5 => a != x
  | _ => !(a != x)

end Sys2Proof.Machine
end

