-- ==== Sys2Proof/Machine/Operands.lean ====
section
/-! DEFINITION. Machine/Operands.lean: the operand forms of Bilpor (03, 04): the move encoding, the ports and who may use them, what a
source reads, and image addresses. -/

namespace Sys2Proof.Machine

/-! ## Moves (03, R59) -/

/-- Where a move takes its value from: a port, an immediate of 18 bits, or a value that the command supplies. -/
inductive Src where
  | port (p : Nat)
  | imm (n : Nat)
  | val (v : Nat)
  deriving DecidableEq, Repr

/-- A move. `raw` is the slot word. -/
structure Move where
  guard : Nat
  src : Src
  dst : Nat
  raw : Nat
  deriving DecidableEq, Repr

/-- Decode a slot (R59). -/
def slotMove (w : Nat) : Move :=
  { guard := bits w 30 2, src := if bit w 29 then .imm (bits w 0 18) else .port (bits w 0 11), dst := bits w 18 11, raw := w }

/-- I = 0 with a bit of [17:11] set (R61); guard 0b11 empties the slot (R60). -/
def Move.illegal (m : Move) : Bool :=
  m.guard != 3 && (match m.src with | .val _ => false | _ => !bit m.raw 29 && bits m.raw 11 7 != 0)

/-- The move that a command of a unit stands for: a value into a port. -/
def Move.into (p v : Nat) : Move := { guard := 0, src := .val v, dst := p, raw := 0 }

/-- The guard passes (R60). -/
def Move.passes (m : Move) (acc : Bool) : Bool := m.guard == 0 || (m.guard == 1 && acc) || (m.guard == 2 && !acc)

/-! ## Ports (03, R86; 04) -/

inductive PortKind where
  | reserved | reg | operand | trigger | result
  deriving DecidableEq, Repr

/-- Kind of a port on a logic engine. -/
def leKind (p : Nat) : PortKind :=
  if p < 0x80 then .reg
  else if [0x0C0, 0x0E0, 0x0F0, 0x100, 0x110, 0x111, 0x112, 0x113, 0x140, 0x180, 0x181, 0x1A0, 0x1E1, 0x1F0, 0x240].contains p then .operand
  else if inRange p 0x080 0x11 || inRange p 0x0C1 0x14 || inRange p 0x0E1 0x0D || inRange p 0x0F1 3 || inRange p 0x101 2 ||
      inRange p 0x118 0x12 || p == 0x136 || inRange p 0x141 4 || inRange p 0x182 8 || inRange p 0x1A1 7 || inRange p 0x1B0 5 ||
      inRange p 0x1C0 8 || p == 0x1E0 || p == 0x1E2 || p == 0x1E3 || inRange p 0x200 0x40 then .trigger
  else if inRange p 0x098 2 || inRange p 0x0D8 2 || p == 0x0EF || inRange p 0x0F8 2 || inRange p 0x108 3 || inRange p 0x130 5 ||
      inRange p 0x148 2 || inRange p 0x190 3 || inRange p 0x1A8 2 || inRange p 0x1B8 3 || inRange p 0x1D0 0x0B || inRange p 0x1E8 2 ||
      p == 0x248 then .result
  else .reserved

/-- Ports that exist only on logic engines (R91, R102). -/
def leOnly (p : Nat) : Bool :=
  inRange p 0x080 0x0B || p == 0x08F || p == 0x090 || inRange p 0x140 0x40 || p == 0x191 || inRange p 0x1A0 0x10 || p == 0x1C0 ||
    inRange p 0x1D0 3 || inRange p 0x1D5 3 || inRange p 0x1E0 0x10 || inRange p 0x200 0x80

/-- Kind of a port on an engine; 0x280-0x283 exist on SV only. -/
def portKind (sv : Bool) (p : Nat) : PortKind :=
  if inRange p 0x280 4 then (if sv then .trigger else .reserved)
  else if sv && leOnly p then .reserved
  else leKind p

/-- Ports that require P1 (R91); SYS.ERET at P2 is an illegal move instead (R79). -/
def needsP1 (p : Nat) : Bool := inRange p 0x1C5 3 || inRange p 0x1D8 3

/-- Unit of a trigger port, for the collision rule (R65, R86). -/
def unitOf (p : Nat) : Nat :=
  if p < 0xC0 then 1 else if p < 0xE0 then 2 else if p < 0xF0 then 3 else if p < 0x100 then 4 else if p < 0x110 then 5
  else if p < 0x140 then 6 else if p < 0x180 then 7 else if p < 0x1A0 then 8 else if p < 0x1B0 then 9 else if p < 0x1C0 then 10
  else if p < 0x1E0 then 11 else if p < 0x1F0 then 12 else if p < 0x200 then 13 else if p < 0x280 then 14 else 15

/-- Accumulator-loading compares take a place in BU order (R97). -/
def accCompare (p : Nat) : Bool := inRange p 0x0E9 5

/-! ## Reading a port -/

/-- The instance on an engine. -/
def State.running (s : State) (e : Nat) : Option Inst :=
  match (s.eng e).task with
  | some n => (s.task n).inst
  | none => none

/-- Value of a readable port (03, R87; 04, Ports). In a handler with no instance on the engine BUDGET, CYC, TASK, TURN and TICK read 0 (DESIGN
CHOICE, log entry 172). -/
def State.readPort (s : State) (e p : Nat) : Word :=
  let x := s.eng e
  let sv := e == 4
  let i := s.running e
  if p < 0x80 then x.gReg sv p
  else if p = 0x098 then word (b2n x.acc)
  else if p = 0x099 then word x.branch.length
  else if p = 0x1B8 then word x.pc
  else if p = 0x1B9 then word (x.rets.headD 0)
  else if p = 0x1BA then word x.rets.length
  else if p = 0x1D0 then word ((i.map fun i => i.budget - i.charged).getD 0)
  else if p = 0x1D1 then word ((i.map fun i => i.charged).getD 0)
  else if p = 0x1D2 then word (x.task.getD 0)
  else if p = 0x1D3 then word e
  else if p = 0x1D4 then word x.priv
  else if p = 0x1D5 then word (if s.following then s.rfl.turnA else (i.map fun i => i.relTurn).getD 0)
  else if p = 0x1D6 then word (if s.following then s.rfl.turnT else (i.map fun i => i.relTick).getD 0)
  else if p = 0x1D7 then word ((if s.following then s.rfl.turnT else (i.map fun i => i.relTick).getD 0) / 2 ^ 32)
  else if p = 0x1D8 then x.csp
  else if p = 0x1D9 then x.cspLo
  else if p = 0x1DA then x.cspHi
  else if p = 0x1E9 then word (b2n x.broken)
  else x.port p

/-- A fault of a source or destination (R66, R80, R61): cause and detail. -/
def portFault (sv : Bool) (priv : Nat) (write : Bool) (p : Nat) : Option (Nat × Nat) :=
  let k := portKind sv p
  let bad := match k with
    | .reserved => true
    | .reg => false
    | .operand => !write
    | .trigger => !write
    | .result => write
  if bad then some (0x11, p)
  else if priv = 2 && p = 0x1C2 then some (0x11, p)
  else if sv && p = 0x1C1 then some (0x11, p)
  else if needsP1 p && priv = 2 then some (0x13, p)
  else none

/-! ## Image addresses (04, R94, R95) -/

/-- Size and offset of an area. -/
def areaSpan (a : Nat) : Nat × Nat :=
  match a with
  | 0 => (0x800, 0x0000)
  | 1 => (0x800, 0x0800)
  | 2 => (0x2000, 0x1000)
  | 3 => (0x2000, 0x3000)
  | 4 => (0x2000, 0x5000)
  | 5 => (0x2000, 0x7000)
  | 6 => (0x2000, 0x9000)
  | 7 => (0x2000, 0xB000)
  | 8 => (0x2000, 0xD000)
  | 9 => (0x1000, 0xF000)
  | _ => (0, 0)

/-- Image offset of the byte an image address names, or none (R94). -/
def imgOfs (v : Nat) : Option Nat :=
  if 2 ^ 20 ≤ v then none
  else
    let a := areaSpan (v / 2 ^ 16)
    if bits v 3 13 < a.1 then some (a.2 + bits v 3 13) else none

/-- Areas a task may write (R95). -/
def areaWritable (a : Nat) : Bool := a == 1 || a == 2 || a == 3 || a == 6 || a == 7

/-- The running task owns a Q or QW location, by image offset (06, R166); with no instance on the engine none is owned (DESIGN CHOICE, log entry
172). -/
def State.ownsOfs (s : State) (e o : Nat) : Bool :=
  match (s.eng e).task with
  | none => !(inRange o 0x0800 0x800 || inRange o 0x9000 0x4000)
  | some n =>
    if inRange o 0x0800 0x800 then s.ownsQ n (o - 0x0800)
    else if inRange o 0x9000 0x4000 then s.ownsW n ((o - 0x9000) / 4)
    else true

/-- Which copy of the image a task's access meets: 2 the working copy of its own outputs, else the memory (06, R165, R166). -/
def State.imgCopy (s : State) (e o : Nat) : Nat :=
  if (inRange o 0x0800 0x800 || inRange o 0x9000 0x4000) && s.ownsOfs e o then 2 else 0

/-- Image bytes as the running task reads them, each from its copy. -/
def State.imgBytes (s : State) (e o n : Nat) : List Byte :=
  (List.range n).flatMap fun i => s.copyBytes (s.imgCopy e (o + i)) (0x03000000 + o + i) 1

/-- May the running task write `n` bytes there (R100, R166)? -/
def State.imgMayWrite (s : State) (e v o n : Nat) : Bool := areaWritable (v / 2 ^ 16) && (List.range n).all fun i => s.ownsOfs e (o + i)

end Sys2Proof.Machine
end

