-- ==== Sys2Proof/Machine/Units.lean ====
section
/-! DEFINITION. Machine/Units.lean: what a trigger does (04): results go into flight and are written at their cycle; memory and image
accesses are made at the trigger. -/

namespace Sys2Proof.Machine

/-- What a bundle does to control. -/
inductive Ctl where
  | jump (t : Nat)
  | yield
  | call (v : Nat)
  | eret
  | mac (n : Nat)
  deriving DecidableEq, Repr

/-- Outcome of a trigger: the state, control, and a fault with its detail. A fault keeps only what was reported on the way. -/
structure Trig where
  s : State
  ctl : List Ctl
  bad : Option (Nat × Nat)

def okT (s : State) : Trig := ⟨s, [], none⟩
def badT (s : State) (c d : Nat) : Trig := ⟨s, [], some (c, d)⟩

/-! ## Bit unit (04, R94-R101) -/

/-- A BU operation leaves a value in the accumulator (R96). -/
def State.setAcc (e : Nat) (a : Bool) (s : State) : State :=
  s.upE e fun x => { x with accO := a }.fly { Flight.plain .bu (x.cyc + 2) [] with acc := some a }

/-- Read image bytes through ECC, each from the copy that the task's access meets (06, R166). -/
def State.imgRead (e o n : Nat) (s : State) : State × List Byte × Option Nat :=
  let copies := ((List.range n).map fun i => s.imgCopy e (o + i)).eraseDups
  let r := copies.foldl
    (fun r c => let q := r.1.eccRead e c (0x03000000 + o) n; (q.1, if r.2.isNone then q.2 else r.2)) (s, (none : Option Nat))
  (r.1, s.imgBytes e o n, r.2)

/-- Write image bytes; the fault if the word is uncorrectable (R222, R223). -/
def State.imgPut (e o : Nat) (l : List Byte) (s : State) : State × Option Nat :=
  let c := s.imgCopy e o
  s.eccWrite e c (0x03000000 + o) l

def bitSet (byte k : Nat) (b : Bool) : List Byte := [BitVec.ofNat 8 (setBit byte k b)]

/-- BU operations with an image bit (R94, R96, R99, R100): `p` is the port. DESIGN CHOICE, log entry 147: an operation that stores raises the
image-write fault in an area or location it may not write even where its condition would write nothing (BU.SET and BU.RST with the
accumulator 0). -/
def State.buBit (e p v : Nat) (s : State) : Trig :=
  match imgOfs v with
  | none => badT s 0x20 v
  | some o =>
    let writes := 0x087 ≤ p
    if writes && !s.imgMayWrite e v o 1 then badT s 0x21 v
    else
      let r := s.imgRead e o 1
      match r.2.2 with
      | some a => badT r.1 0x42 a
      | none =>
        let s := r.1
        let byte := leNat r.2.1
        let k := v % 8
        let m := bit byte k
        let x := (s.eng e).accO
        let write (b : Bool) (s : State) : Trig :=
          let w := s.imgPut e o (bitSet byte k b)
          match w.2 with
          | some a => badT w.1 0x42 a
          | none => okT w.1
        if p ≤ 0x086 then okT (s.setAcc e (buLogic p x m))
        else if p = 0x087 then write x s
        else if p = 0x088 then write (!x) s
        else if p = 0x089 then (if x then write true s else okT s)
        else if p = 0x08A then (if x then write false s else okT s)
        else if p = 0x08F then write x (s.setAcc e (x && !m))
        else write x (s.setAcc e (!x && m))

/-- BU.PUSH, BU.POP, BU.NOT, BU.ACCW (R98). -/
def State.buStack (e p v : Nat) (s : State) : Trig :=
  let x := s.eng e
  let d := x.branch.length
  if p = 0x08B then
    if 32 ≤ d || v % 8 = 7 then badT s 0x18 d
    else okT ((s.upE e fun x => { x with branch := (x.accO, v % 8) :: x.branch }).setAcc e x.accO)
  else if p = 0x08C then
    if d ≤ x.floor.getD 0 then badT s 0x18 d
    else
      match x.branch with
      | [] => badT s 0x18 d
      | (a, c) :: r => okT ((s.upE e fun x => { x with branch := r }).setAcc e (buPop c a x.accO))
  else if p = 0x08D then okT (s.setAcc e (!x.accO))
  else okT (s.setAcc e (bit v 0))

/-! ## Arithmetic (04, R103-R107) -/

def State.portN (s : State) (e p : Nat) : Nat := ((s.eng e).port p).toNat

def State.alu (e p v : Nat) (s : State) : Trig :=
  let f := s.free
  let c := aluFreeC p && f.1 % 2 == 1
  let s := if aluFreeC p then f.2 else s
  let r := aluOp p v (s.portN e 0x0C0) c
  okT (s.fly e (Flight.plain .alu (s.at e 1) [(0x0D8, r.1), (0x0D9, r.2)]))

def State.cmp (e p v : Nat) (s : State) : Trig :=
  let r := cmpOp p v (s.portN e 0x0E0)
  if accCompare p then okT (s.setAcc e r)
  else okT (s.fly e (Flight.plain .cmp (s.at e 1) [(0x0EF, b2n r)]))

def State.mul (e p v : Nat) (s : State) : Trig :=
  let r := mulOp p v (s.portN e 0x0F0)
  okT (s.fly e (Flight.plain .mul (s.at e 3) [(0x0F8, r.1), (0x0F9, r.2)]))

def State.div (e p v : Nat) (s : State) : Trig :=
  let r := divOp (p == 0x101) v (s.portN e 0x100)
  okT (s.fly e (Flight.plain .div (s.at e 12) [(0x108, r.1), (0x109, r.2.1), (0x10A, r.2.2)]))

def State.fpu (e p v : Nat) (s : State) : Trig :=
  if p = 0x136 then okT (s.fly e { Flight.plain .fpuAdd (s.at e 1) [] with clr := true })
  else
    let r := fpuOp p (s.portN e 0x113 % 4) v (s.portN e 0x112) (s.portN e 0x110) (s.portN e 0x111)
    match fpuDivide p with
    | some l => okT (s.fly e { Flight.plain .fpuDiv (s.at e l) r.1 with flags := r.2 })
    | none => okT (s.fly e { Flight.plain .fpuAdd (s.at e 4) r.1 with flags := r.2 })

/-! ## Timers (04, R108-R110) -/

def Timer.zero (k : Nat) : Timer := { kind := k, lastIn := false, q := false, timing := false, start := 0 }

/-- Nanoseconds of a preset unit. -/
def unitNs (u : Nat) : Nat := if u = 0 then 1000 else if u = 1 then 1000000 else 1000000000

/-- Evaluate a timer: the timer, Q and ET (R109). DESIGN CHOICE, log entry 148: a TP whose pulse has run out counts as still timing until the
evaluation that shows it, so that a rising IN seen at that evaluation starts no new pulse. -/
def Timer.eval (t : Timer) (kind now pt u : Nat) (inp : Bool) : Timer × Bool × Nat :=
  let t := if t.kind = kind then t else Timer.zero kind
  let et (st : Nat) : Nat := min pt ((now - st) / unitNs u)
  let rise := inp && !t.lastIn
  let fall := !inp && t.lastIn
  if kind = 1 then
    if inp then
      let st := if rise then now else t.start
      let q := et st == pt
      ({ kind := 1, lastIn := true, q := q, timing := true, start := st }, q, et st)
    else ({ kind := 1, lastIn := false, q := false, timing := false, start := 0 }, false, 0)
  else if kind = 2 then
    if inp then ({ kind := 2, lastIn := true, q := true, timing := false, start := 0 }, true, 0)
    else
      let st := if fall then now else t.start
      let timing := fall || t.timing
      let q := timing && decide (et st < pt)
      ({ kind := 2, lastIn := false, q := q, timing := timing, start := st }, q, if timing then et st else 0)
  else
    let start := rise && !t.timing
    let st := if start then now else t.start
    let timing := start || t.timing
    let e := et st
    let past := timing && e == pt
    if !timing then ({ kind := 3, lastIn := inp, q := false, timing := false, start := 0 }, false, 0)
    else if past && !inp then ({ kind := 3, lastIn := inp, q := false, timing := false, start := 0 }, false, 0)
    else ({ kind := 3, lastIn := inp, q := !past, timing := true, start := st }, !past, e)

/-- TMR triggers; a timer sees the clock of its instance's release tick (R108), or with no instance on the engine the present one (DESIGN CHOICE, log
entry 172). -/
def State.tmr (e p v : Nat) (s : State) : Trig :=
  let n := v % 64
  if p = 0x144 then okT (s.upE e fun x => { x with timers := Store.del n x.timers })
  else
    let pt := s.portN e 0x140
    if pt / 2 ^ 30 = 3 then badT s 0x11 p
    else
      let now := match s.running e with | some i => i.relClk | none => (s.eng e).tclk
      let t := (s.eng e).timers.getD n (Timer.zero 0)
      let r := t.eval (p - 0x140) now (pt % 2 ^ 30) (pt / 2 ^ 30) (bit v 8)
      let s := s.upE e fun x => { x with timers := Store.put n r.1 x.timers }
      okT (s.fly e (Flight.plain .tmr (s.at e 2) [(0x148, b2n r.2.1), (0x149, r.2.2 + pt / 2 ^ 30 * 2 ^ 30)]))

/-! ## Load and store of a logic engine (04, R111-R113) -/

/-- Near class of an engine (09, R216). -/
def nearTo (e a : Nat) : Bool :=
  inRange a (0x02000000 + e * 0x40000) 0x40000 || inRange a 0x02100000 0x100000 || inRange a (privBase e) 0x4000

def farWindow (a : Nat) : Bool := inRange a 0x10000000 0x60000

/-- Bytes and sign of an LSU load by port, and bytes of a store. -/
def lsuSize (p : Nat) : Nat × Bool :=
  if p = 0x182 ∨ p = 0x187 then (4, false)
  else if p = 0x183 then (2, true)
  else if p = 0x184 ∨ p = 0x188 then (2, false)
  else if p = 0x185 then (1, true)
  else (1, false)

/-- Extend a loaded value of `n` bytes. -/
def extend (n : Nat) (signed : Bool) (v : Nat) : Nat := if signed then w32 (toSigned (8 * n) v) else v

/-- A near load: the value, or the fault. -/
def State.nearLoad (e a n : Nat) (s : State) : State × Nat × Option (Nat × Nat) :=
  let c := s.check e 0 a n
  if !c.2 then (c.1, 0, some (0x24, a))
  else
    let r := c.1.memRead e a n
    if r.2.2 = 3 then (r.1, 0, some (0x42, a)) else (r.1, leNat r.2.1, none)

/-- A near store. -/
def State.nearStore (e a n v : Nat) (s : State) : State × Option (Nat × Nat) :=
  let c := s.check e 1 a n
  if !c.2 then (c.1, some (0x24, a))
  else
    let r := c.1.memWrite e a (leBytes n v)
    if r.2 = 3 then (r.1, some (0x42, a)) else (r.1, none)

/-- CACHE and ORDER of an address for SV (R253); background accesses are uncached and device-strict (R252), and so are those of the slots, which
no region governs (R248). -/
def State.svAttr (s : State) (a : Nat) : Nat × Nat :=
  if farWindow a then (0, 2)
  else
    match s.region a with
    | some n => (s.act R.CHK_RG_CFG_CACHE n, s.act R.CHK_RG_CFG_ORDER n)
    | none => (0, 2)

/-- A far access goes on its way (R112); the engines of a following Shadow discard their stores (12, R304). DESIGN CHOICE, log entry 149: a
discarded store leaves `LSU.STAT` as it is. -/
def State.farGo (e a n : Nat) (store signed : Bool) (v : Nat) (s : State) : State :=
  if store && s.following && e < 4 then s
  else
    let s := if store || e = 4 then s else { s with rfl := { s.rfl with fars := Store.put e (s.rfl.fars.getD e 0 + 1) s.rfl.fars } }
    s.fly e { Flight.plain .far (s.at e 64) [] with
              far := some { store := store, addr := a, size := n, signed := signed, data := word v, priv := (s.eng e).priv,
                            task := (s.eng e).task, waits := s.following && !store && decide (e < 4), cache := if e = 4 then (s.svAttr a).1 else 0 } }

/-- LSU triggers of a logic engine: alignment, reach, checker (R111). -/
def State.lsu (e p v : Nat) (s : State) : Trig :=
  let a := (v + s.portN e 0x180) % 2 ^ 32
  let z := lsuSize p
  let store := decide (0x187 ≤ p)
  if a % z.1 != 0 then badT s 0x22 a
  else if nearTo e a then
    if store then
      let r := s.nearStore e a z.1 (s.portN e 0x181)
      ⟨r.1, [], r.2⟩
    else
      let r := s.nearLoad e a z.1
      match r.2.2 with
      | some f => ⟨r.1, [], some f⟩
      | none => okT (r.1.fly e (Flight.plain .lsu (r.1.at e 2) [(0x190, extend z.1 z.2 r.2.1)]))
  else if farWindow a then
    let c := s.check e (b2n store) a z.1
    if !c.2 then badT c.1 0x24 a else okT (c.1.farGo e a z.1 store z.2 (s.portN e 0x181))
  else badT s 0x23 a

/-! ## Image words (04, R115) -/

def imgSize (p : Nat) : Nat × Bool :=
  if p = 0x1A1 ∨ p = 0x1A5 then (4, false)
  else if p = 0x1A2 then (2, true)
  else if p = 0x1A3 ∨ p = 0x1A6 then (2, false)
  else (1, false)

/-- Quality tag of an IW word or I byte, by index (09, R230). -/
def tagOf (byte k : Nat) : Nat := byte / 4 ^ (k % 4) % 4

/-- IMG triggers: address, then alignment, then the write rules, on every byte. DESIGN CHOICE, log entry 150: an address with a bit of [2:0] set,
which names no byte, raises the image-address fault. -/
def State.img (e p v : Nat) (s : State) : Trig :=
  let z := imgSize p
  match (if v % 8 = 0 then imgOfs v else none) with
  | none => badT s 0x20 v
  | some o =>
    if o % z.1 != 0 then badT s 0x22 v
    else if 0x1A5 ≤ p then
      if !s.imgMayWrite e v o z.1 then badT s 0x21 v
      else
        let r := s.imgPut e o (leBytes z.1 (s.portN e 0x1A0))
        match r.2 with
        | some a => badT r.1 0x42 a
        | none => okT r.1
    else
      let r := s.imgRead e o z.1
      match r.2.2 with
      | some a => badT r.1 0x42 a
      | none =>
        let w := (o - 0x5000) / 4
        let q := if inRange o 0x5000 0x4000 then r.1.eccRead e 0 (0x0300F000 + w / 4) 1 else (r.1, none)
        match q.2 with
        | some a => badT q.1 0x42 a
        | none =>
          let tag := if inRange o 0x5000 0x4000 then [(0x1A9, tagOf (s.mb (0x0300F000 + w / 4)).toNat w)] else []
          okT (q.1.fly e (Flight.plain .img (q.1.at e 2) ((0x1A8, extend z.1 z.2 (leNat r.2.1)) :: tag)))

/-! ## Locked sequences (04, R119-R121) -/

/-- LOCK triggers (R119-R121). DESIGN CHOICE, log entry 151: LOCK.ST and LOCK.END with no sequence open store nothing and give 0. -/
def State.lockUnit (e p v : Nat) (s : State) : Trig :=
  let x := s.eng e
  if p = 0x1E0 then
    if x.lock.isSome then badT s 0x11 p
    else if v % 4 != 0 then badT s 0x22 v
    else if !nearTo e v then badT s 0x23 v
    else
      let r := s.nearLoad e v 4
      match r.2.2 with
      | some f => ⟨r.1, [], some f⟩
      | none => okT (r.1.upE e fun x => { x with lock := some { addr := v, count := 0, lost := false }, broken := false })
  else
    let good := match x.lock with
      | some l => !l.lost && !x.broken && (p == 0x1E3 || l.addr == v)
      | none => false
    let close (q : Bool) (s : State) : Trig :=
      okT ((s.upE e fun x => { x with lock := none }).fly e (Flight.plain .lock (s.at e 2) [(0x1E8, b2n q)]))
    if p = 0x1E2 && good then
      let r := s.nearStore e v 4 (s.portN e 0x1E1)
      match r.2 with
      | some f => ⟨r.1, [], some f⟩
      | none => close true r.1
    else close good s

/-! ## SV: caches and the write buffer (10, R253-R255; 04, R114, R123) -/

/-- A status code in `LSU.STAT` (R112). -/
def State.lsuStat (e st : Nat) (s : State) : State := s.upE e fun x => x.setPort 0x192 (word (if st = 0 then 0 else 1 + 2 * st))

/-- How an access of SV ends (R114): its status; an uncorrectable word in SV's handler stack is a device fault (07, R192; 09, R222). -/
def State.svEnd (a st : Nat) (s : State) : State :=
  let s := s.lsuStat 4 st
  if st = 3 && inRange a (privBase 4 + 0x1000) 0x3000 then s.deviceFault 3 else s

/-- Complete the oldest buffered write (R254). -/
def State.drainOne (s : State) : State :=
  match s.m.wbuf with
  | [] => s
  | w :: r =>
    let s : State := { s with m := { s.m with wbuf := r } }
    let q := if inRange w.addr 0x20000000 0x40000 then s.windowWrite w.addr w.bytes else s.memWrite 4 w.addr w.bytes
    if q.2 = 0 then q.1 else q.1.svEnd w.addr q.2

def State.drain : Nat → State → State
  | 0, s => s
  | k + 1, s => if s.m.wbuf.isEmpty then s else State.drain k s.drainOne

/-- What stands behind a line of SV's caches: the ROM, SRAM through ECC, the NOR window, the Keep window. The state with what was reported,
the 32 bytes, and whether there is anything to cache. -/
def State.lineRead (l : Nat) (s : State) : State × List Byte × Bool :=
  let a := 32 * l
  if inRange a 0 0x10000 then (s, (List.range 32).map fun i => Config.romByte (a + i), true)
  else if inRange a 0x30000000 0x10000000 then (s, s.norBytes (a - 0x30000000) 32, decide (a - 0x30000000 + 32 ≤ s.flashSize))
  else if inRange a 0x20000000 0x40000 then let q := s.windowRead a 32; (s, q.1, q.2 == 0)
  else if (arrayOf a).isSome then ((s.eccRead 4 0 a 32).1, s.mbs a 32, true)
  else (s, [], false)

/-- The lines of a cache that SV holds are forgotten together with their check bits. -/
def State.dropLine (l : Nat) (s : State) : State :=
  { s with m := { s.m with dcache := Store.del l s.m.dcache, ecc := s.m.ecc.filter fun c => !inRange c.1 (eccKey 4 (32 * l)) 32 } }

def State.dropCode (l : Nat) (s : State) : State :=
  { s with m := { s.m with icache := Store.del l s.m.icache, ecc := s.m.ecc.filter fun c => !inRange c.1 (eccKey 3 (32 * l)) 32 } }

/-- The posted writes to the line of an address complete before an access that goes past the caches there (R254). -/
def State.drainLine (a : Nat) (s : State) : State :=
  if s.m.wbuf.any (fun w => line w.addr == line a || line (w.addr + w.bytes.length - 1) == line a) then s.drain 5 else s

/-- A line goes back to memory; the words of it that could not be read leave the poison pattern there (09, R222). -/
def State.lineWrite (a : Nat) (bad : List Nat) (l : List Byte) (s : State) : State × Nat :=
  if bad.isEmpty then s.memWrite 4 a l
  else
    let w := ((arrayOf a).map Prod.snd).getD 4
    (wordsOf w a 32).foldl
      (fun r x =>
        if bad.any fun b => b / w * w == x then (r.1.setEcc x 2, r.2)
        else let q := r.1.memWrite 4 x (slice l (x - a) w); (q.1, if r.2 = 0 then q.2 else r.2)) (s, 0)

/-- Write a dirty line back as a write by SV, judged now; refused, the line is discarded and its data are lost (R255). A word of it that cannot
be read goes back with the poison pattern (09, R222). -/
def State.cleanLine (l : Nat) (s : State) : State :=
  match Store.find l s.m.dcache with
  | none => s
  | some c =>
    if !c.dirty then s
    else
      let a := 32 * l
      let k := s.check 4 1 a 32
      if !k.2 then k.1.dropLine l
      else
        let s := (((k.1.drainLine a).eccRead 4 4 a 32)).1
        let bad := (wordsOf 4 a 32).filter fun x => s.badAt 4 x
        let q := if inRange a 0x20000000 0x40000 then s.windowWrite a c.data else s.lineWrite a bad c.data
        if q.2 ≠ 0 then q.1.dropLine l
        else
          let s := q.1
          { s with m := { s.m with dcache := Store.put l { c with dirty := false } s.m.dcache } }

/-- A full cache gives up a line; which one is nobody's choice (log entry 144). -/
def State.evictData (s : State) : State :=
  if s.m.dcache.length < 1024 then s
  else
    let f := s.free
    match f.2.m.dcache[f.1 % 1024]? with
    | some c => (f.2.cleanLine c.1).dropLine c.1
    | none => f.2

def State.evictCode (s : State) : State :=
  if s.m.icache.length < 1024 then s
  else
    let f := s.free
    match f.2.m.icache[f.1 % 1024]? with
    | some c => f.2.dropCode c.1
    | none => f.2

/-- The words of a line enter a cache with good check bits, but for those that could not be read (09, R222). `copy` is 3 or 4. -/
def State.lineMarks (copy l : Nat) (s : State) : State :=
  let bad (s : State) (x : Nat) : Bool := (arrayOf x).any fun p => s.badAt 0 (x / p.2 * p.2)
  State.forAll (wordsOf 4 (32 * l) 32) (fun x s => if bad s x then s.setEcc (eccKey copy x) 2 else s.eccStore (eccKey copy x)) s

/-- Bring the line of an address into the data cache if the access is cacheable (R244, R255). -/
def State.fillLine (cache a : Nat) (s : State) : State :=
  if cache = 0 || (Store.find (line a) s.m.dcache).isSome then s
  else
    let s := s.drainLine a
    let r := s.lineRead (line a)
    if !r.2.2 then s
    else
      let s := r.1.evictData
      { s with m := { s.m with dcache := Store.put (line a) { data := r.2.1, dirty := false } s.m.dcache } }.lineMarks 4 (line a)

/-- The pieces of an access in one line each. -/
def linePieces (a z : Nat) : List (Nat × Nat) :=
  let k := 32 - a % 32
  if z ≤ k then [(a, z)] else [(a, k), (a + k, z - k)]

/-- A piece of a load in one line: from the line if SV holds it, from the line that the miss brings in if the access is cacheable, else from memory
behind the posted writes there; what is not mapped reads 0 (R245). The last component says that a word could not be read. -/
def State.svPiece (cache a z : Nat) (s : State) : State × List Byte × Bool :=
  if (Store.find (line a) s.m.dcache).isSome then
    let s := s.drainLine a
    let q := s.eccRead 4 4 a z
    (q.1, q.1.copyBytes 4 a z, q.2.isSome)
  else
    let t := (s.fillLine cache a).drainLine a
    if (Store.find (line a) t.m.dcache).isSome then (t, t.copyBytes 4 a z, (wordsOf 4 a z).any fun x => t.badAt 4 x)
    else let q := t.memRead 4 a z; (q.1, q.2.1, q.2.2 == 3)

/-- Read bytes as SV's data side sees them. -/
def State.svRead (cache a z : Nat) (s : State) : State × List Byte × Bool :=
  (linePieces a z).foldl (fun r p => let q := r.1.svPiece cache p.1 p.2; (q.1, r.2.1 ++ q.2.1, r.2.2 || q.2.2)) (s, [], false)

/-- Write bytes into the lines that the data cache holds, through its check bits (09, R223): the state and whether a word could not take them. -/
def State.svCachePut (a : Nat) (l : List Byte) (dirty : Bool) (s : State) : State × Bool :=
  (linePieces a l.length).foldl
    (fun r p =>
      match Store.find (line p.1) r.1.m.dcache with
      | none => r
      | some _ =>
        let q := r.1.eccWrite 4 4 p.1 (slice l (p.1 - a) p.2)
        let s := match Store.find (line p.1) q.1.m.dcache with
          | some c => { q.1 with m := { q.1.m with dcache := Store.put (line p.1) { c with dirty := c.dirty || dirty } q.1.m.dcache } }
          | none => q.1
        (s, r.2 || q.2.isSome))
    (s, false)

/-- Targets SV reaches through a slot, Keep or the flash window: the access stalls and ends with FAR_ACCESS_COMPLETE. -/
def svUncached (a : Nat) : Bool := farWindow a || inRange a 0x20000000 0x40000 || inRange a 0x30000000 0x10000000

/-- A load of SV that the checker permits (R114): every access is looked up in the data cache (R255). A hit gives its value 2 cycles after the
trigger; a miss or an uncached access stalls, so that the next bundle finds it, and in a slow target it ends with FAR_ACCESS_COMPLETE. -/
def State.svLoad (a z : Nat) (signed : Bool) (s : State) : State :=
  let hit := !farWindow a && (linePieces a z).all fun p => (Store.find (line p.1) s.m.dcache).isSome
  if svUncached a && !hit then ((s.drainLine a).drainLine (a + z - 1) |>.farGo 4 a z false signed 0).upE 4 fun x => { x with stalled := true }
  else
    let r := s.svRead (s.svAttr a).1 a z
    let s := (r.1.svEnd a (if r.2.2 then 3 else 0)).upE 4 fun x => { x with stalled := x.stalled || !hit }
    s.fly 4 (Flight.plain .lsu (s.at 4 (if hit then 2 else 1)) [(0x190, if r.2.2 then 0 else extend z signed (leNat r.2.1))])

/-- SV's exception frame as a store of 64 bytes: posted writes to its lines land first, lines held take the bytes, and a line of CACHE 2 is written
back later (10, R254, R255). The status is that of a memory write. -/
def State.svPut (a : Nat) (l : List Byte) (s : State) : State × Nat :=
  let c := (s.svAttr a).1
  let s := State.forAll (linePieces a l.length) (fun p s => (s.drainLine p.1).fillLine c p.1) s
  let wb := c == 2 && (linePieces a l.length).all fun p => (Store.find (line p.1) s.m.dcache).isSome
  let q := s.svCachePut a l wb
  if wb || q.2 then (q.1, if q.2 then 3 else 0) else q.1.memWrite 4 a l

/-- The frame that SYS.ERET takes back on SV: 0 where the checker refuses the read or nothing answers (10, R255, R256, R258). -/
def State.svFrame (s : State) (a : Nat) : List Byte :=
  if (s.judge 4 (s.reqPriv 4) 0 a).ok then (s.svRead 0 a 64).2.1 else List.replicate 64 0#8

/-- A store of SV that the checker permits: into the lines it holds, and behind a line that is written back nowhere else; a relaxed one goes
through the write buffer (R253-R255). -/
def State.svStore (a z : Nat) (s : State) : State :=
  let l := leBytes z (s.portN 4 0x181)
  let attr := s.svAttr a
  let s := if farWindow a then s else State.forAll (linePieces a z) (fun p s => s.drainLine p.1) s
  let s := if farWindow a then s else State.forAll (linePieces a z) (fun p s => s.fillLine attr.1 p.1) s
  let held := !farWindow a && (linePieces a z).all fun p => (Store.find (line p.1) s.m.dcache).isSome
  let wb := attr.1 == 2 && held
  let q := if farWindow a then (s, false) else s.svCachePut a l wb
  let s := q.1
  if wb then s.svEnd a (if q.2 then 3 else 0)
  else if svUncached a && (farWindow a || attr.2 != 0) then (s.farGo 4 a z true false (s.portN 4 0x181)).upE 4 fun x => { x with stalled := true }
  else if attr.2 = 0 then
    let s := if 4 ≤ s.m.wbuf.length then s.drainOne else s
    { s with m := { s.m with wbuf := s.m.wbuf ++ [(⟨a, l⟩ : PostedWrite)] } }.svEnd a (if q.2 then 3 else 0)
  else
    let w := s.memWrite 4 a l
    w.1.svEnd a (if q.2 then 3 else w.2)

/-- LSU triggers of SV (R114). -/
def State.svLsu (p v : Nat) (s : State) : Trig :=
  let a := (v + s.portN 4 0x180) % 2 ^ 32
  let z := lsuSize p
  let store := decide (0x187 ≤ p)
  let c := s.check 4 (b2n store) a z.1
  let s := c.1
  if !c.2 || ((arrayOf a).isNone && !inRange a 0 0x10000 && !svUncached a) then
    let s := s.lsuStat 4 2
    okT (if store then s else s.fly 4 (Flight.plain .lsu (s.at 4 1) [(0x190, 0)]))
  else
    let s := if (s.svAttr a).2 = 0 then s else s.drain 5
    okT (if store then s.svStore a z.1 else s.svLoad a z.1 z.2)

/-- SVC cache operations on the line of an address (R123). -/
def State.svc (p v : Nat) (s : State) : Trig :=
  let l := line v
  if p = 0x280 then okT (s.dropCode l)
  else if p = 0x281 then okT (s.cleanLine l)
  else if p = 0x282 then okT (s.dropLine l)
  else okT ((s.cleanLine l).dropLine l)

/-! ## PC, SYS and MACRO (03, R72-R76, R79; 04, R116-R118; 05, R128) -/

/-- A branch target, or none if it is out of range (R74). -/
def branchTarget (sv rel : Bool) (pc v : Nat) : Option Nat :=
  let lim : Int := if sv then 2 ^ 29 else 65536
  let t : Int := if rel then (pc : Int) + toSigned 32 v else (v : Int)
  if 0 ≤ t ∧ t < lim then some t.toNat else none

/-- The PC unit (R71-R76). The target of a call is judged before the room on the stack (DEDUCED, log entry 192). -/
def State.pcUnit (e p v : Nat) (s : State) : Trig :=
  let x := s.eng e
  let sv := e == 4
  if p = 0x1B4 then
    match x.rets with
    | [] => badT s 0x17 0
    | t :: r => ⟨s.upE e fun x => { x with rets := r }, [.jump t], none⟩
  else
    let call := p = 0x1B2 ∨ p = 0x1B3
    if call ∧ !sv ∧ x.pc = 65535 then badT s 0x14 0x10000
    else
      match branchTarget sv (p == 0x1B1 || p == 0x1B3) x.pc v with
      | none => badT s 0x14 (if p = 0x1B1 ∨ p = 0x1B3 then (x.pc + v) % 2 ^ 32 else v)
      | some t =>
        if call then
          if 16 ≤ x.rets.length then badT s 0x16 t
          else ⟨s.upE e fun x => { x with rets := (x.pc + 1) :: x.rets }, [.jump t], none⟩
        else ⟨s, [.jump t], none⟩

/-- The SYS unit (R76-R80, R175). SYS.ERET asks no class of the address in CSP (DESIGN CHOICE, log entry 196). -/
def State.sysUnit (e p v : Nat) (s : State) : Trig :=
  let x := s.eng e
  let setCsp (f : Eng → Eng) : Trig := if v % 64 != 0 then badT s 0x22 v else okT (s.upE e f)
  if p = 0x1C0 then
    if x.lock.isSome || x.nest.any Nest.fromIdle then badT s 0x11 p else ⟨s, [.yield], none⟩
  else if p = 0x1C1 then
    if x.lock.isSome then badT s 0x11 p
    else if x.pc = 65535 then badT s 0x14 0x10000
    else ⟨s, [.call v], none⟩
  else if p = 0x1C2 then
    let a := x.csp.toNat
    let c := s.check e 0 a 64
    if !c.2 then (if e = 4 then ⟨c.1.lsuStat 4 2, [.eret], none⟩ else badT c.1 0x24 a)
    else if e = 4 then
      let r := c.1.svRead (c.1.svAttr a).1 a 64
      if r.2.2 then okT (r.1.deviceFault 3) else ⟨if (r.1.memRead 4 a 64).2.2 = 2 then r.1.lsuStat 4 2 else r.1, [.eret], none⟩
    else
      let r := c.1.memRead e a 64
      if r.2.2 = 3 then badT r.1 0x42 a else ⟨if r.2.2 = 2 then r.1.lsuStat e 2 else r.1, [.eret], none⟩
  else if p = 0x1C3 then okT (if e = 4 then s.drain 5 else s)
  else if p = 0x1C4 then okT (s.fly e { Flight.plain .sys (s.at e 2) [] with ev := some (v % 8) })
  else if p = 0x1C5 then setCsp (fun (x : Eng) => { x with csp := word v })
  else if p = 0x1C6 then setCsp (fun (x : Eng) => { x with cspLo := word v })
  else setCsp (fun (x : Eng) => { x with cspHi := word v })

/-- MACRO.Tn (05, R128, R132): the argument replaces `MACRO.ARG`. A directory word that cannot be read is the engine fault of a micro-move that cannot
(R134; DEDUCED, log entry 174). -/
def State.macUnit (e p v : Nat) (s : State) : Trig :=
  let n := p - 0x200
  let r := s.eccRead e 0 (s.decActive e + 0x100 + 4 * n) 4
  if (s.eng e).lock.isSome then badT s 0x11 p
  else if r.2.isSome then badT r.1 0x41 (32 * n)
  else
  let s := r.1
  if s.mw (s.decActive e + 0x100 + 4 * n) % 64 = 0 then badT s 0x11 p
  else ⟨s.upE e fun x => x.setPort 0x240 (word v), [.mac n], none⟩

/-- Start the unit of a trigger port with a value (R64, step 3). -/
def State.trigger (e p v : Nat) (s : State) : Trig :=
  if inRange p 0x08B 4 then s.buStack e p v
  else if p < 0x0C0 then s.buBit e p v
  else if p < 0x0E0 then s.alu e p v
  else if p < 0x0F0 then s.cmp e p v
  else if p < 0x100 then s.mul e p v
  else if p < 0x110 then s.div e p v
  else if p < 0x140 then s.fpu e p v
  else if p < 0x180 then s.tmr e p v
  else if p < 0x1A0 then (if e = 4 then s.svLsu p v else s.lsu e p v)
  else if p < 0x1B0 then s.img e p v
  else if p < 0x1C0 then s.pcUnit e p v
  else if p < 0x1E0 then s.sysUnit e p v
  else if p < 0x1F0 then s.lockUnit e p v
  else if p < 0x280 then s.macUnit e p v
  else s.svc p v

end Sys2Proof.Machine
end

