-- ==== Sys2Proof/Machine/Engine.lean ====
section
/-! DEFINITION. Machine/Engine.lean: how an engine issues (03): bundles, exception entry and return (07, R175-R180), context records,
dispatch and preemption (06), macros (05), debug halts (25). -/

namespace Sys2Proof.Machine

/-! ## Cycles (06, R156) -/

/-- Cycles pass on an engine without being charged; it works, so its watchdog restarts (07, R183). -/
def State.spin (e k : Nat) (s : State) : State := s.upE e fun x => { x with cyc := x.cyc + k, wdAt := s.time.real }

/-- Cycles pass and are charged to the running instance and the turn (R156, R169). -/
def State.spend (e k : Nat) (s : State) : State :=
  let s := s.spin e k
  match (s.eng e).task with
  | some n =>
    (({ s with seq := { s.seq with util := Store.put e (s.seq.util.getD e 0 + k) s.seq.util } } : State).upI n
      fun i => { i with charged := i.charged + k })
  | none => s

/-! ## Frames (03, R83) -/

/-- Program bank bit of an engine. -/
def State.bankBit (s : State) (e : Nat) : Nat := if e < 4 then s.get R.LE_PRG_STAT_ACT e else 0

/-- Word 0x04 of a frame. -/
def State.frameStatus (s : State) (e : Nat) : Nat :=
  let x := s.eng e
  s.bankBit e + 2 * x.priv + 8 * b2n x.acc + 16 * b2n x.upper.isSome + 32 * x.upper.getD 0 + 2 ^ 19 * x.branch.length +
    2 ^ 25 * x.rets.length

/-- The return stack as the frame holds it, oldest entry first; SV saves at most 8 (R83, R88). -/
def retBytes (sv : Bool) (rets : List Nat) : List Byte :=
  let l := rets.reverse
  if sv then (List.range 8).flatMap fun n => leBytes 4 (if rets.length ≤ 8 then l.getD n 0 else 0)
  else (List.range 16).flatMap fun n => leBytes 2 (l.getD n 0)

/-- The 64 bytes of a frame. -/
def State.frameBytes (s : State) (e cause detail resume : Nat) : List Byte :=
  let x := s.eng e
  [resume, s.frameStatus e, cause, detail, x.csp.toNat, x.gbank, s.now % 2 ^ 32, s.now / 2 ^ 32].flatMap (leBytes 4) ++
    retBytes (e == 4) x.rets

/-- Return stack read back from a frame at an address. -/
def frameRets (sv : Bool) (l : List Byte) (depth : Nat) : List Nat :=
  ((List.range depth).map fun n => if sv then leAt l (0x20 + 4 * (n % 8)) 4 else leAt l (0x20 + 2 * n) 2).reverse

/-! ## Stopping to follow (12, R309) -/

/-- The condition of EV 255 (12, R287, R293). -/
def State.conflictNow (s : State) : Bool :=
  if s.get R.RFL_STAT_ROLE = 0 ∧ !s.is R.RFL_CFG_MODE then s.is R.RFL_STAT_OWNIN
  else if s.following then !s.is R.RFL_STAT_OWNIN && s.is R.RFL_STAT_LINK && !s.rfl.release && !s.is R.RFL_STAT_OWN || s.rfl.both
  else s.rfl.both

/-- The conflict is looked at again (12, R293). -/
def State.conflict (s : State) : State :=
  let c := s.conflictNow
  (if c then s.put R.RFL_STAT_CONFLICT 1 else s).level 255 c 0

/-- A following Shadow stops following: far loads that wait for a forwarded value end with their instances (R304), instances end without commit, the engines
stop, a retry may follow; a unit that was taking over lets its pins go (R290). -/
def State.stopFollowing (reason : Nat) (s : State) : State :=
  if !s.following then s
  else
    let s := State.forAll (List.range 4)
      (fun e s => (s.stopEngine e .held).upE e fun x => { x with flights := x.flights.filter fun f => !f.far.any FarReq.waits }) s
    let s := if s.is R.RFL_STAT_OWN then (s.setReleased true).put R.RFL_STAT_OWN 0 else s
    let s := ((s.put R.RFL_STAT_ROLE 3).put R.RFL_STAT_REASON reason).put R.RFL_STAT_READY 0
    let s := { s with rfl := { s.rfl with
      retryAt := if s.is R.RFL_CFG_AUTOREJOIN then some (s.now + s.get R.RFL_SWLIM_RETRY * 1000000000) else none,
      cur := none, nxt := none, skipped := none, last := none, staged := [], behind := [], relOld := [], farq := [] } }.conflict
    s.warn 7 reason

/-! ## Debug halts (25, R607-R613) -/

/-- Halt group of an engine (R609). -/
def State.haltGroup (s : State) (e : Nat) : Nat := bits (s.get R.LANT_HGRP_G) (2 * e) 2

/-- Under the UMBRA policy the outputs of a halted engine's tasks take their fallback until the first commit after the resume (R616). -/
def State.haltAwait (e : Nat) (s : State) : State :=
  if s.get R.LANT_CTL_TURNPOL = 1 ∧ e < 4 then State.forAll (s.tasksOf e) (fun n s => s.upT n fun t => { t with await := true }) s else s

/-- Lantern's halt of SV suspends the SV watchdog; its end lets the count go on (07, R185). -/
def State.svWatch (halt : Bool) (s : State) : State :=
  if halt then { s with exc := { s.exc with svHeld := some (s.time.real - s.exc.svAt) } }
  else
    match s.exc.svHeld with
    | some d => { s with exc := { s.exc with svAt := s.time.real - d, svHeld := none } }
    | none => s

/-- An engine halts: its flags, why and where (R608, R612); what is in flight completes (03, R68). -/
def State.haltNow (e reason idx : Nat) (defer : Bool) (s : State) : State :=
  let s := if e = 4 && s.exc.svHeld.isNone then s.svWatch true else s
  let s := s.settle e
  let s := (s.putBit R.LANT_HALTST_HALTED e true).putBit R.LANT_HALTST_PENDING e false
  let s := ((s.put R.LANT_E_WHY_REASON reason e).put R.LANT_E_WHY_INDEX idx e).put R.LANT_E_WHY_DEFER (b2n defer) e
  let s := (s.put R.LANT_E_PC_PC (s.eng e).pc e).put R.LANT_E_PC_BANK (s.bankBit e) e
  (s.upE e fun x => { x with stepping := false }).haltAwait e

/-- A halt has to wait for a macro, or for an open locked sequence unless it is forced (R608). -/
def State.haltDefers (s : State) (e : Nat) (force : Bool) : Bool := (s.eng e).mac.isSome || ((s.eng e).lock.isSome && !force)

/-- A halt request with a reason reaches an engine (R608). FORCE breaks an open locked sequence. -/
def State.haltRequest (e reason : Nat) (force : Bool) (s : State) : State :=
  if s.halted e then s
  else if s.haltDefers e force then (s.putBit R.LANT_HALTST_PENDING e true).put R.LANT_E_WHY_REASON reason e
  else if (s.eng e).lock.isSome then (s.upE e fun x => { x with lock := none, broken := true }).haltNow e 6 0 false
  else s.haltNow e reason 0 false

/-- The engine's group receives a halt request (R609); a Mirror secondary halts with its primary. -/
def State.crossTrigger (e : Nat) (s : State) : State :=
  let g := s.haltGroup e
  let s := match s.mirrorOf e with
    | some f => if s.secondary f then s.haltNow f (s.get R.LANT_E_WHY_REASON e) 0 false else s
    | none => s
  if g = 0 then s
  else State.forAll ((List.range 5).filter fun f => f != e && s.haltGroup f == g && !s.halted f) (fun f s => s.haltRequest f 2 false) s

/-- An engine halts for a reason that triggers its group; outputs follow the turn policy (R616). -/
def State.haltWith (e reason idx : Nat) (defer : Bool) (s : State) : State :=
  let s := s.stopFollowing 0x1F
  (((s.haltNow e reason idx defer).crossTrigger e).outRefresh)

/-! ## Exception entry and return (07, R175-R180) -/

/-- CSP admits a frame (R179): within its bounds, and in the near class on a logic engine. -/
def State.cspOk (s : State) (e : Nat) : Bool :=
  let x := s.eng e
  decide (x.cspLo.toNat + 64 ≤ x.csp.toNat) && decide (x.csp.toNat ≤ x.cspHi.toNat) && (e == 4 || nearTo e (x.csp.toNat - 64))

/-- The refuge frame (R179, R180): written once, unchecked, then the engine freezes with what it holds. SV has no OCC (DESIGN CHOICE, log entry 198).
-/
def State.refuge (e cause detail resume : Nat) (s : State) : State :=
  let csp := (s.eng e).csp.toNat
  if e = 4 then (s.putWords 0 (privBase 4 + 0xC00) (s.frameBytes e cause detail resume)).deviceFault 1
  else if s.is R.EXC_FAULT_OCC e then
    ((s.upE e fun x => { x with stop := .frozen }).put R.EXC_FAULT_FROZEN 1 e).engineFault e 0x52 csp resume
  else
    let s := s.putWords 0 (privBase e + 0xC00) (s.frameBytes e cause detail resume)
    ((s.put R.EXC_FAULT_OCC 1 e).put R.EXC_FAULT_DOUBLE 1 e).engineFault e 0x52 csp resume

/-- Write the frame at CSP - 64, if CSP admits it and the checker permits it: the state, and whether the entry may go on. SV's frame is a store of SV's,
looked up in its data cache (10, R255); at an address that nothing answers it is discarded with that in `LSU.STAT` (10, R258; 09, R214). -/
def State.writeFrame (e cause detail resume : Nat) (s : State) : State × Bool :=
  if !s.cspOk e then (s, false)
  else
    let a := (s.eng e).csp.toNat - 64
    let l := s.frameBytes e cause detail resume
    let p := (s.eng e).priv
    let c := (if e = 4 then s else s.upE e fun x => { x with priv := 1 }).check e 1 a 64
    let s := c.1.upE e fun x => { x with priv := p }
    if !c.2 then (s, false)
    else
      let r := if e = 4 then s.svPut a l else s.memWrite e a l
      (if r.2 = 2 then r.1.lsuStat e 2 else r.1, r.2 != 3)

/-- The handler's entry (R84, R175): return stack emptied, floor set, accumulator and pending upper value cleared, P1, bank 12 unless the
entry is a service call (R81). -/
def State.enterHandler (e : Nat) (idle keepBank : Bool) (s : State) : State :=
  let vec := if e = 4 then s.get R.EXC_SVVEC_ADDR else s.get R.EXC_VEC_IDX e
  s.upE e fun x =>
    let a := x.csp.toNat - 64
    { x with csp := word a, rets := [], floor := some x.branch.length, acc := false, accO := false, upper := none,
             priv := if e = 4 then 0 else 1, gbank := if e = 4 then 0 else if keepBank then x.gbank else 12, pc := vec, live := true,
             nest := { fromIdle := idle, frame := a, floor := x.floor } :: x.nest }

/-- Exception entry (R175, R179): 11 cycles between the bundle's own and the handler's first; an open locked sequence ends broken (04, R120). On SV a call depth above 8 makes it a
return-stack overflow (03, R88). A fault that enters its handler is logged with the time of the entry (22, R540, R542). -/
def State.excEntry (e cause detail resume : Nat) (keepBank : Bool) (s : State) : State :=
  let s := s.settle e
  let deep := e = 4 ∧ 8 < (s.eng e).rets.length
  let cause := if deep then 0x16 else cause
  let detail := if deep then 0xFFFFFFFF else detail
  let idle := !(s.eng e).live
  let w := s.writeFrame e cause detail resume
  if w.2 then
    let s := if 0x10 ≤ cause then w.1.logFault cause (if 0x33 ≤ cause then 3 else 2) e (s.eng e).task s.now else w.1
    let s := s.upE e fun x => { x with broken := x.broken || x.lock.isSome, lock := none }
    ((s.enterHandler e idle keepBank).spend e 11).mirrorJoin e
  else w.1.refuge e cause detail resume

/-- A fault is raised with its resume point (R172-R178). -/
def State.raiseFault (e cause detail resume : Nat) (s : State) : State :=
  if e = 4 then s.excEntry 4 cause detail resume false
  else if 0x33 ≤ cause && !(inRange cause 0x40 3 && (s.eng e).priv == 1) then s.engineFault e cause detail resume
  else if (s.eng e).priv = 1 then
    let w := (s.settle e).writeFrame e cause detail resume
    if w.2 then w.1.engineFault e cause detail resume else w.1.refuge e cause detail resume
  else if s.is R.EXC_CFG_TFH e then (s.excRecord e cause 2 detail resume).excEntry e cause detail resume false
  else
    match (s.eng e).task with
    | some n => s.taskFault n cause detail resume
    | none => s.excRecord e cause 2 detail resume

/-- SYS.ERET (R84, R175), whose frame the trigger has judged and read: what is in flight completes, then everything is restored from the frame
as it stands in memory; an entry from idle returns to idle (R177). DESIGN CHOICE, log entry 153: after the return from a nested entry the
floor of the outer handler is in force again. -/
def State.excReturn (e : Nat) (s : State) : State :=
  let s := s.settle e
  let x := s.eng e
  let a := x.csp.toNat
  let l := if e = 4 then s.svFrame a else s.mbs a 64
  let st := leAt l 4 4
  let idle := (x.nest.head?.map fun f => f.fromIdle).getD false
  let rets := frameRets (e == 4) l (min 16 (bits st 25 5))
  let s := s.upE e fun x =>
    { x with pc := leAt l 0 4 % (if e = 4 then 2 ^ 29 else 65536), priv := if e = 4 then 0 else if bits st 1 2 = 2 then 2 else 1,
             acc := bit st 3, accO := bit st 3, upper := if bit st 4 then some (bits st 5 14) else none, rets := rets,
             gbank := if e = 4 then 0 else min 12 (leAt l 0x14 4 % 16), csp := word (a + 64), branch := x.branch.drop (x.branch.length - x.floor.getD 0),
             floor := (x.nest.head?.map fun f => f.floor).getD none, nest := x.nest.drop 1 }
  let s := s.spend e 11
  if idle then s.upE e fun x => { x with live := false } else s

/-! ## Context records (03, R82; 04, R93) -/

/-- Ports of the context record in order from offset 0x050. -/
def ctxPorts : List Nat :=
  [0x0C0, 0x0D8, 0x0D9, 0x0E0, 0x0EF, 0x0F0, 0x0F8, 0x0F9, 0x100, 0x108, 0x109, 0x10A, 0x110, 0x111, 0x112, 0x113, 0x130, 0x131, 0x132,
   0x133, 0x134, 0x140, 0x148, 0x149, 0x180, 0x181, 0x190, 0x191, 0x192, 0x1A0, 0x1A8, 0x1A9, 0x1E1, 0x1E8, 0x240, 0x248]

/-- A far access has its value, if it is a load, and its status word (04, R112): in the ports of the engine, or in the context record of a task
that is no longer on it (04, R93). Both engines of a Mirror pair receive what is read (07, R186). -/
def State.farLand (e : Nat) (f : FarReq) (v : Option Nat) (st : Nat) (s : State) : State :=
  match (if f.task.isSome && f.task != (s.eng e).task then f.task else none) with
  | some n =>
    let a := s.ctxAddr n + 0x50
    let s := match v with | some x => s.putWords 0 (a + 4 * ctxPorts.idxOf 0x191) (leBytes 4 x) | none => s
    s.putWords 0 (a + 4 * ctxPorts.idxOf 0x192) (leBytes 4 st)
  | none =>
    let take (x : Eng) : Eng := (match v with | some n => x.setPort 0x191 (word n) | none => x).setPort 0x192 (word st)
    match s.mirrorOf e with
    | some g => (s.upE g take).upE e take
    | none => s.upE e take

/-- The branch stack as 4-bit entries, oldest first. -/
def branchNat (l : List (Bool × Nat)) : Nat := l.reverse.zipIdx.foldl (fun w p => w + (b2n p.1.1 + 2 * p.1.2) * 16 ^ p.2) 0

def branchOf (w depth : Nat) : List (Bool × Nat) :=
  ((List.range depth).map fun n => (bit w (4 * n), bits w (4 * n + 1) 3)).reverse

/-- Save the context of an engine into the record of a task. -/
def State.saveCtx (e n : Nat) (s : State) : State :=
  let x := s.eng e
  let a := s.ctxAddr n
  let l := s.frameBytes e 0 0 x.pc ++ leBytes 16 (branchNat x.branch) ++
    (ctxPorts.flatMap fun p => leBytes 4 (x.port p).toNat) ++ List.replicate 32 0#8
  s.putWords 0 a l

/-- Load the context of a task into an engine; the word that is uncorrectable, if any (09, R222). -/
def State.loadCtx (e n : Nat) (s : State) : State × Option Nat :=
  let a := s.ctxAddr n
  let r := s.eccRead e 0 a 256
  let s := r.1
  if r.2.isSome then r
  else
    let st := s.mw (a + 4)
    let i := ((s.task n).inst.map fun i => (i.nest, i.floor)).getD ([], none)
    let x := s.eng e
    let x := { x with pc := s.mw a % 65536, priv := if bits st 1 2 = 1 then 1 else 2, acc := bit st 3, accO := bit st 3,
                      upper := if bit st 4 then some (bits st 5 14) else none, rets := frameRets false (s.mbs a 64) (min 16 (bits st 25 5)),
                      branch := branchOf (leNat (s.mbs (a + 0x40) 16)) (min 32 (bits st 19 6)), nest := i.1, floor := i.2,
                      gbank := if i.1.isEmpty then s.get R.TSK_CFG_SLOT n else min 12 (s.mw (a + 0x14) % 16), task := some n, live := true }
    let x := ctxPorts.zipIdx.foldl (fun x p => x.setPort p.1 (word (s.mw (a + 0x50 + 4 * p.2)))) x
    (s.setEng e x, none)

/-! ## Who runs (06, R153, R154) -/

/-- Candidate `a` runs before `b` (R153). -/
def State.runsBefore (s : State) (a b : Nat × Inst) : Bool :=
  let pa := s.get R.TSK_CFG_PRIO a.1
  let pb := s.get R.TSK_CFG_PRIO b.1
  pa < pb || (pa == pb && (a.2.order < b.2.order || (a.2.order == b.2.order && a.1 < b.1)))

/-- Ready and preempted instances of an engine. -/
def State.waiting (s : State) (e : Nat) : List (Nat × Inst) :=
  (s.tasksOf e).filterMap fun n =>
    match (s.task n).inst with
    | some i => if i.st = .ready ∨ i.st = .preempted then some (n, i) else none
    | none => none

/-- The highest-priority one. -/
def State.nextTask (s : State) (e : Nat) : Option (Nat × Inst) :=
  (s.waiting e).foldl (fun b c => match b with | none => some c | some d => if s.runsBefore c d then some c else some d) none

/-- The engine may take new work now. -/
def State.canTake (s : State) (e : Nat) : Bool := (s.eng e).stop == .none && (!s.halted e || (s.eng e).stepping) && (s.eng e).mac.isNone &&
  !(e < 4 && s.secondary e)

/-- The context record reaches both engines of a Mirror pair (07, R186). -/
def State.mirrorLoad (e : Nat) (s : State) : State :=
  match s.mirrorOf e with
  | some f => (s.upE f fun y => { y with ports := (s.eng e).ports }).mirrorJoin e
  | none => s

/-- TASK_DISPATCH (R154): the context is loaded and the instance runs from now on. A record that cannot be loaded records the resume index 0 (DESIGN
CHOICE, log entry 190). -/
def State.dispatch (e : Nat) (s : State) : State :=
  if !s.canTake e || (s.eng e).live then s
  else
    match s.nextTask e with
    | none => s
    | some (n, _) =>
      let s := (s.settle e).spin e 24
      let r := s.loadCtx e n
      match r.2 with
      | some a => r.1.engineFault e 0x42 a 0
      | none => (r.1.upI n fun i => { i with st := .running }).mirrorLoad e

/-- What the two engines of a Mirror pair write when they take an entry or save a context: `a` and `b` are the state `s` after it, as the primary and as
the secondary makes it. The compare point that differs: the address of the frame, or the bytes of frame, refuge frame or context record (07, R187). -/
def State.savedDiff (s a b : State) (e : Nat) : Option Nat :=
  let refuge (x : State) : List Byte := x.mbs (privBase e + 0xC00) 64
  let entered := (s.eng e).nest.length < (a.eng e).nest.length
  let top (x : State) : Nat := (((x.eng e).nest.head?).map Nest.frame).getD 0
  if entered && top a != top b then some 7
  else if (entered && a.mbs (top a) 64 != b.mbs (top a) 64) || refuge a != refuge b then some 8
  else match (s.eng e).task with
    | some n => if a.mbs (s.ctxAddr n) 256 != b.mbs (s.ctxAddr n) 256 then some 8 else none
    | none => none

/-- An entry or a context save of an engine, compared between the engines of a Mirror pair before it takes effect (07, R187). -/
def State.paired (e : Nat) (op : State → State) (s : State) : State :=
  match s.mirrorOf e with
  | none => op s
  | some f =>
    let a := op s
    let b := op (s.asSecond e f)
    match s.savedDiff a b e with
    | some k => s.engineFault e 0x50 k (s.eng e).pc
    | none => a.mirrorOwn e f b

/-- PREEMPTION (R153, 03 R82): by a ready instance of strictly higher priority, outside locked sequences and macros. -/
def State.preempt (e : Nat) (s : State) : State :=
  if !s.canTake e || (s.eng e).lock.isSome then s
  else
    match (s.eng e).task, s.nextTask e with
    | some n, some (h, _) =>
      if s.get R.TSK_CFG_PRIO h < s.get R.TSK_CFG_PRIO n then
        let s := (s.settle e).paired e (State.saveCtx e n)
        if (s.eng e).stop != .none then s
        else
          let x := s.eng e
          let s := s.upI n fun i => { i with st := .preempted, nest := x.nest, floor := x.floor }
          ((s.upE e fun x => { x with live := false, task := none, nest := [], floor := none, branch := [], rets := [] }).mirrorJoin e).dispatch e
      else s
    | _, _ => s

/-! ## Completion (04, R116; 06, R161-R163; 07, R176) -/

/-- An instance is complete: statistics, overrun streak, task-fault run; the recovery that shedding waits for is noted as soon as it is reached
(06, R163). -/
def State.complete (n : Nat) (s : State) : State :=
  match (s.task n).inst with
  | none => s
  | some i =>
    let e := s.tEng n
    let s := s.upI n fun i => { i with st := .complete, doneAt := s.now }
    let s := (s.put R.TSK_LAST_CYC i.charged n).put R.TSK_WCET_CYC (max (s.get R.TSK_WCET_CYC n) i.charged) n
    let s := if i.late then s else s.put R.TSK_ST_CONSEC 0 n
    let s := s.put R.EXC_CNT_TFRUN 0 e
    State.forAll ((List.range 4).filter fun k => s.is R.TSK_SHED_ACTIVE k && s.get R.TSK_SHED_WATCH k == n)
      (fun k s =>
        let c := if i.late then 0 else s.seq.clean.getD k 0 + 1
        let ends := s.get R.TSK_SHED_RECOV k != 0 && decide (s.get R.TSK_SHED_RECOV k ≤ c)
        { s with seq := { s.seq with clean := Store.put k c s.seq.clean, shedClear := if ends then s.seq.shedClear ++ [k] else s.seq.shedClear } }) s

/-- INSTANCE_COMPLETE (R116): the last operation of a yielded instance has completed. -/
def State.instanceComplete (n : Nat) (s : State) : State :=
  match (s.task n).inst with
  | some i => if i.st = .ended && !(s.eng (s.tEng n)).flights.any (fun f => f.far.any fun r => r.task == some n) then s.complete n else s
  | none => s

/-- SYS.YIELD at P2 ends the instance (R116, R101, 06 R152); in a handler it ends it as a task fault (07, R177) whose resume point is
the bundle of the YIELD (03, R85). -/
def State.yieldOp (e resume : Nat) (s : State) : State :=
  match (s.eng e).task with
  | none => s
  | some n =>
    match (s.eng e).nest.getLast? with
    | some f =>
      let r := s.eccRead e 0 (f.frame + 8) 4
      if r.2.isSome then r.1.engineFault e 0x42 (f.frame + 8) resume
      else if s.badAt 0 (f.frame + 0x10) then s.engineFault e 0x42 (f.frame + 0x10) resume
      else r.1.taskFault n 0x32 (s.mw (f.frame + 8) % 65536) resume
    | none =>
      let d := (s.eng e).branch.length
      let s := if d = 0 then s else s.warn 1 d
      let s := (s.settle e).saveCtx e n
      let s := s.upI n fun i => { i with st := .ended }
      (s.upE e fun x => { x with live := false, task := none, branch := [], rets := [] }).mirrorJoin e

/-! ## One bundle (03, R60-R67) -/

/-- What a slot will do: executes, value, fault of its own. -/
structure Plan where
  move : Move
  runs : Bool
  value : Nat
  bad : Option (Nat × Nat)
  deriving DecidableEq, Repr

/-- A move that consumes the pending upper value if it is the first such (R63). -/
def Move.consumes (m : Move) : Bool := m.guard != 3 && m.dst != 0x1F0 && (match m.src with | .imm _ => true | _ => false)

/-- Value of a source (R62). -/
def State.srcValue (s : State) (e : Nat) (up : Option Nat) (m : Move) : Nat :=
  match m.src with
  | .val v => v % 2 ^ 32
  | .port p => (s.readPort e p).toNat
  | .imm n =>
    match up with
    | some u => (u * 2 ^ 18 + n) % 2 ^ 32
    | none => w32 (toSigned 18 n)

/-- Faults a slot has by itself: encoding, source, destination (R61, R66, R80). -/
def State.slotFault (s : State) (e : Nat) (m : Move) (runs : Bool) : Option (Nat × Nat) :=
  let sv := e == 4
  let pr := (s.eng e).priv
  if m.illegal then some (0x10, m.raw)
  else if !runs then none
  else
    match (match m.src with | .port p => portFault sv pr false p | _ => none) with
    | some f => some f
    | none => portFault sv pr true m.dst

def State.planSlot (s : State) (e : Nat) (up : Option Nat) (m : Move) : Plan :=
  let runs := m.passes (s.eng e).acc
  { move := m, runs := runs, value := if runs then s.srcValue e up m else 0, bad := s.slotFault e m runs }

/-- Plans of a bundle, slot A first; the first consumer takes the pending upper value (R63). -/
def State.plans (s : State) (e : Nat) : Option Nat → List Move → List Plan
  | _, [] => []
  | up, m :: r => s.planSlot e up m :: State.plans s e (if m.consumes then none else up) r

/-- Collision (R65, R97): of two executing moves, the same destination, triggers of one unit, or BU with an accumulator compare. -/
def collide (sv : Bool) : List Plan → Option (Nat × Nat)
  | [a, b] =>
    if !(a.runs && b.runs) then none
    else
      let pa := a.move.dst
      let pb := b.move.dst
      let trig (p : Nat) := portKind sv p == .trigger
      if pa == pb || (trig pa && trig pb && (unitOf pa == unitOf pb || (unitOf pa == 1 && accCompare pb) || (unitOf pb == 1 && accCompare pa)))
      then some (0x12, pb) else none
  | _ => none

/-- Step 2 of R64: G registers, operand latches and the pending upper value. -/
def Eng.stepTwo (x : Eng) (sv : Bool) (l : List Plan) : Eng :=
  l.foldl
    (fun x p =>
      if !p.runs then x
      else
        match portKind sv p.move.dst with
        | .reg => x.setG sv p.move.dst (word p.value)
        | .operand => if p.move.dst = 0x1F0 then { x with upper := some (p.value % 2 ^ 14) } else x.setPort p.move.dst (word p.value)
        | _ => x) x

/-- Step 3 of R64 for one slot, unless a fault has come already. -/
def State.slotThree (e : Nat) (p : Plan) (t : Trig) : Trig :=
  if t.bad.isSome then t
  else if p.bad.isSome then { t with bad := p.bad }
  else if p.runs && portKind (e == 4) p.move.dst == .trigger then
    let r := t.s.trigger e p.move.dst p.value
    { s := r.s, ctl := t.ctl ++ r.ctl, bad := r.bad }
  else t

/-- Triggers that read the image, and those that write it (04, R96, R115). -/
def Plan.imgReads (p : Plan) : Bool := p.runs && (inRange p.move.dst 0x080 7 || inRange p.move.dst 0x08F 2 || inRange p.move.dst 0x1A1 4)
def Plan.imgWrites (p : Plan) : Bool := p.runs && (inRange p.move.dst 0x087 4 || inRange p.move.dst 0x08F 2 || inRange p.move.dst 0x1A5 3)

/-- Near loads, and what stores or opens a sequence beside one in the other slot: a load of the same bundle does not see the store (04, R113). -/
def Plan.nearLoads (p : Plan) : Bool := p.runs && inRange p.move.dst 0x182 5
def Plan.lockStores (p : Plan) : Bool := p.runs && p.move.dst == 0x1E2

/-- Triggers that no locked sequence admits (04, R120). -/
def Plan.breaksLock (p : Plan) : Bool := p.runs && (p.move.dst == 0x1C0 || p.move.dst == 0x1C1 || inRange p.move.dst 0x200 0x40)

/-- A locked sequence takes in the whole of its first and last bundle (04, R120): slot A where slot B opens it, slot B where slot A closes it. -/
def lockConflict (held : Bool) (a b : Plan) : Option (Nat × Nat) :=
  if b.runs && b.move.dst == 0x1E0 && a.breaksLock then some (0x11, a.move.dst)
  else if held && a.runs && (a.move.dst == 0x1E2 || a.move.dst == 0x1E3) && b.breaksLock then some (0x11, b.move.dst)
  else none

/-- Step 3 of R64: the triggers, slot A first, up to the first fault. An image read in slot B samples before the write of slot A can be read
(04, R96), and a near load there before the store of slot A (04, R113). Where both slots write one image bit, slot B's write lands last, but slot A's
beside an edge operation, which reads (DESIGN CHOICE, log entry 173). -/
def State.stepThree (e : Nat) (l : List Plan) (t : Trig) : Trig :=
  match l with
  | [a, b] =>
    let ta := State.slotThree e a t
    if ta.bad.isSome then ta
    else
      let r := if (a.imgWrites && b.imgReads) || (a.lockStores && b.nearLoads) then State.slotThree e a (State.slotThree e b t) else State.slotThree e b ta
      let k := lockConflict (t.s.eng e).lock.isSome a b
      if r.bad.isNone && k.isSome then { r with bad := k } else r
  | _ => l.foldl (fun t p => State.slotThree e p t) t

/-- What the faulting slot alone reports on its way to the fault (R67). -/
def State.faultRun (e : Nat) (l : List Plan) (t : Trig) : State :=
  match l with
  | [a, b] =>
    let ta := State.slotThree e a t
    if ta.bad.isSome then ta.s
    else
      let tb := State.slotThree e b t
      if tb.bad.isSome then tb.s else t.s
  | _ => (State.stepThree e l t).s

/-- What a faulting bundle leaves on its engine: what it found, and the routes that its reports have made pending (R67; 08, R207). -/
def keepReports (before after : State) (e : Nat) : State := after.upE e fun x => { before.eng e with routes := x.routes }

/-- Compare point of a Mirror pair at which two plans differ first (07, R187). -/
def mirrorDiff (a b : List Plan) : Option Nat :=
  let one (k : Nat) (p q : Plan) : Option Nat :=
    if p.runs != q.runs then some k
    else if p.runs && p.value != q.value then some (k + 2)
    else if p.runs && p.move.dst != q.move.dst then some (k + 4)
    else none
  match a, b with
  | [p1, p2], [q1, q2] => match one 1 p1 q1 with | some k => some k | none => one 2 p2 q2
  | [p1], [q1] => one 1 p1 q1
  | _, _ => none

/-- The pair compares its bundle index, its plans and the operands of requests as step 2 leaves them (R187): the code of the first difference. -/
def State.mirrorCheck (s : State) (e f : Nat) (ms : List Move) : Option Nat :=
  let l := s.plans e (s.eng e).upper ms
  let k := s.plans f (s.eng f).upper ms
  let x := (s.eng e).stepTwo false l
  let y := (s.eng f).stepTwo false k
  let runs (lo n : Nat) : Bool := l.any fun p => p.runs && inRange p.move.dst lo n
  if (s.eng e).pc != (s.eng f).pc then some 9
  else
  match mirrorDiff l k with
  | some c => some c
  | none =>
    if runs 0x182 8 && x.port 0x180 != y.port 0x180 then some 7
    else if (runs 0x187 3 && x.port 0x181 != y.port 0x181) || (runs 0x1A5 3 && x.port 0x1A0 != y.port 0x1A0) ||
        (runs 0x1E2 1 && x.port 0x1E1 != y.port 0x1E1) || ((runs 0x087 4 || runs 0x08F 2) && x.accO != y.accO) || x.priv != y.priv
    then some 8
    else none

/-- Results due on an engine, and on the secondary it drives, are written. -/
def State.retireBoth (e : Nat) (s : State) : State := s.retireTo e (s.eng e).cyc

/-- First-byte address, kind, and data written by a trigger of LSU, IMG or LOCK (25, R613). -/
def State.accessOf (s : State) (e p v : Nat) : Option (Nat × Bool × Nat × Nat) :=
  if inRange p 0x182 8 then some ((v + s.portN e 0x180) % 2 ^ 32, decide (0x187 ≤ p), s.portN e 0x181, (lsuSize p).1)
  else if inRange p 0x1A1 7 then (imgOfs v).map fun o => (0x03000000 + o, decide (0x1A5 ≤ p), s.portN e 0x1A0, (imgSize p).1)
  else if p = 0x1E0 then some (v, false, 0, 4)
  else if p = 0x1E2 then some (v, true, s.portN e 0x1E1, 4)
  else none

/-- The first watchpoint of an engine that an access matches (R613). -/
def State.watchHit (s : State) (e : Nat) (a : Nat × Bool × Nat × Nat) : Option Nat :=
  (List.range 2).find? fun k =>
    let m := 2 ^ s.get R.LANT_E_WP_CFG_MASK e k
    s.is R.LANT_E_WP_CFG_EN e k && a.1 / m == s.get R.LANT_E_WP_ADDR_A e k / m &&
      bit (s.get R.LANT_E_WP_CFG_KIND e k) (b2n a.2.1) &&
      (!s.is R.LANT_E_WP_CFG_VALEN e k || (a.2.1 && a.2.2.1 % 2 ^ (8 * a.2.2.2) == s.get R.LANT_E_WP_VAL_V e k % 2 ^ (8 * a.2.2.2)))

/-- The breakpoint that matches the next bundle (R612). -/
def State.breakHit (s : State) (e : Nat) : Option Nat :=
  (List.range 4).find? fun k =>
    s.is R.LANT_E_BP_EN e k && s.get R.LANT_E_BP_IDX e k == (s.eng e).pc && (e == 4 || s.get R.LANT_E_BP_BANK e k == s.bankBit e)

/-- Control after the bundle `resume`, in order: macro, else yield, call and return. -/
def State.applyCtl (e resume : Nat) (l : List Ctl) (s : State) : State :=
  l.foldl
    (fun s c =>
      match c with
      | .yield => s.yieldOp e resume
      | .call v => s.excEntry e 1 v (s.eng e).pc true
      | .eret => s.excReturn e
      | _ => s) s

/-- A macro starts (05, R128): the bundle's other control waits for its end. What is in flight, but for far accesses, completes before the next program
bundle (03, R68). -/
def State.startMacro (e n t : Nat) (jump : Bool) (l : List Ctl) (s : State) : State :=
  let after := l.foldl (fun a c => match c with | .yield => (1, 0) | .call v => (2, v) | .eret => (3, 0) | _ => a) (0, 0)
  let len := s.mw (s.decActive e + 0x100 + 4 * n) % 64
  s.upE e fun x =>
    { x with flights := x.flights.map fun f => if f.far.isSome then f else { f with due := min f.due (x.cyc + len) },
             mac := some { entry := n, k := 0, n := len, temps := List.replicate 8 0#32, trig := t,
                           q0 := x.port 0x248, until_ := if jump then x.cyc + 3 else 0, after := after.1, arg := after.2 } }

/-- The target of a taken branch in a bundle. -/
def jumpOf (l : List Ctl) : Option Nat := l.findSome? fun c => match c with | .jump t => some t | _ => none
def macOf (l : List Ctl) : Option Nat := l.findSome? fun c => match c with | .mac n => some n | _ => none

/-- SV stood for a load that its data cache did not hold: what is in flight completes meanwhile (R68). -/
def State.missEnd (e : Nat) (s : State) : State :=
  if e = 4 && (s.eng 4).stalled && !(s.eng 4).flights.any fun f => f.far.isSome then (s.settle 4).upE 4 fun x => { x with stalled := false } else s

/-- Cycles, next bundle, and what follows a bundle that did not fault (R73, R75, R116, R121). -/
def State.afterBundle (e : Nat) (l : List Ctl) (s : State) : State :=
  let pc := (s.eng e).pc
  let jump := jumpOf l
  let s := s.upE e fun x =>
    { x with pc := jump.getD (if e < 4 ∧ pc = 65535 then pc else pc + 1), lock := x.lock.map fun k => { k with count := k.count + 1 }, skip := false }
  match macOf l with
  | some n => (s.spend e 1).startMacro e n pc jump.isSome l
  | none =>
    let s := s.spend e (if jump.isSome then 4 else 1)
    if l.any fun c => match c with | .yield => true | .call _ => true | .eret => true | _ => false then s.applyCtl e pc l
    else if jump.isNone && e < 4 && pc = 65535 then s.raiseFault e 0x15 0x10000 65535
    else s

/-- Halts that a bundle leads to: a watchpoint, or the end of a single step (R610, R613); a macro or an open locked sequence holds a watchpoint
back (05, R133; R608). -/
def State.haltsAfter (e : Nat) (hit : Option Nat) (s : State) : State :=
  match hit with
  | some k =>
    if s.haltDefers e false then ((s.putBit R.LANT_HALTST_PENDING e true).put R.LANT_E_WHY_REASON 4 e).put R.LANT_E_WHY_INDEX k e
    else s.haltWith e 4 k false
  | none => if (s.eng e).mac.isNone && (s.eng e).stepping && (s.eng e).lock.isNone then s.haltNow e 5 0 false else s

/-- One engine issues a bundle given by its moves, slot A first (R64, R67). -/
def State.issueOne (e : Nat) (ms : List Move) (s : State) : State :=
  let x := s.eng e
  if (x.lock.map fun l => l.count).getD 0 = 16 then (s.spend e 1).raiseFault e 0x19 ((x.lock.map fun l => l.addr).getD 0) x.pc
  else
    let l := s.plans e x.upper ms
    let bad := match l with
      | [a, b] => if a.bad.isSome then a.bad else if b.bad.isNone then collide (e == 4) l else none
      | [a] => a.bad
      | _ => none
    match bad with
    | some f => (s.spend e 1).raiseFault e f.1 f.2 x.pc
    | none =>
      let up := if ms.any Move.consumes then none else x.upper
      let s1 := s.setEng e ({ x with upper := up }.stepTwo (e == 4) (l.filter fun p => p.bad.isNone))
      let t := State.stepThree e l (okT s1)
      match t.bad with
      | some f => ((keepReports s (State.faultRun e l (okT s1)) e).spend e 1).raiseFault e f.1 f.2 x.pc
      | none =>
        let hit := (l.filter fun p => p.runs).findSome? fun p => (s1.accessOf e p.move.dst p.value).bind (s1.watchHit e)
        ((t.s.missEnd e).afterBundle e t.ctl).haltsAfter e hit

/-- Issue one bundle (R64). In a Mirror pair the secondary executes it on its own registers; a difference found before, or in the index of the next
bundle, is an engine fault of both, and nothing of the cycle takes effect (07, R186, R187). -/
def State.issue (e : Nat) (ms : List Move) (s : State) : State :=
  let s := s.retireBoth e
  match s.mirrorOf e with
  | none => s.issueOne e ms
  | some f =>
    match s.mirrorCheck e f ms with
    | some k => s.engineFault e 0x50 k (s.eng e).pc
    | none =>
      let a := s.issueOne e ms
      let b := (s.asSecond e f).issueOne e ms
      match s.savedDiff a b e with
      | some k => s.engineFault e 0x50 k (s.eng e).pc
      | none =>
        if (a.eng e).stop == .none && (a.eng e).pc != (b.eng e).pc then s.engineFault e 0x50 9 (s.eng e).pc else a.mirrorOwn e f b

/-- The engine can issue a bundle now: it runs something, is not halted, runs no macro, does not wait (R55). -/
def State.canIssue (s : State) (e : Nat) : Bool :=
  let x := s.eng e
  x.stop == .none && x.live && x.mac.isNone && !x.stalled && (!s.halted e || x.stepping) && !(e < 4 && s.secondary e)

/-! ## Fetch (03, R77; 09, R222; 10, R242) -/

/-- Address of the next bundle; a Mirror secondary is never asked. -/
def State.fetchAddr (s : State) (e : Nat) : Nat :=
  if e = 4 then 8 * (s.eng 4).pc
  else 0x01000000 + e * 0x100000 + s.get R.LE_PRG_STAT_ACT e * 0x80000 + 8 * (s.eng e).pc

/-- SV's fetched bytes, and whether a word of them could not be read: from the instruction cache, else from memory, bringing in the line if its
region is cacheable (10, R255). -/
def State.svFetch (a : Nat) (s : State) : State × List Byte × Bool :=
  match Store.find (line a) s.m.icache with
  | some l =>
    let r := s.eccRead 4 3 a 8
    (r.1, slice l (a % 32) 8, r.2.isSome)
  | none =>
    let s := (s.settle 4).drainLine a
    let c := (s.svAttr a).1 != 0
    let r := if c then (s.lineRead (line a)).1 else (s.eccRead 4 0 a 8).1
    let bad := (arrayOf a).isSome && (wordsOf 4 a 8).any fun x => s.badAt 0 x
    let l := (s.lineRead (line a)).2
    if c && l.2 then
      let s := r.evictCode
      ({ s with m := { s.m with icache := Store.put (line a) l.1 s.m.icache } }.lineMarks 3 (line a), slice l.1 (a % 32) 8, bad)
    else (r, slice l.1 (a % 32) 8, bad)

/-- The two slots of a bundle word, slot A first (R58). -/
def bundleMoves (l : List Byte) : List Move := [slotMove (leAt l 4 4), slotMove (leAt l 0 4)]

/-- BUNDLE_ISSUE (R64): breakpoint, fetch, issue. -/
def State.bundle (e : Nat) (s : State) : State :=
  if !s.canIssue e then s
  else
    match (if (s.eng e).skip then none else s.breakHit e) with
    | some k =>
      if (s.eng e).lock.isSome && !bit (s.get R.LANT_HALTST_PENDING) e then
        ((s.putBit R.LANT_HALTST_PENDING e true).put R.LANT_E_WHY_REASON 3 e).put R.LANT_E_WHY_INDEX k e
      else s.haltWith e 3 k false
    | none =>
      let a := s.fetchAddr e
      if e = 4 then
        let c := s.check 4 2 a 8
        if !c.2 then (c.1.spend 4 1).raiseFault 4 0x24 a (s.eng 4).pc
        else
          let r := c.1.svFetch a
          if r.2.2 then r.1.deviceFault 3 else r.1.issue 4 (bundleMoves r.2.1)
      else
        let r := s.eccRead e 0 a 8
        if r.2.isSome then r.1.raiseFault e 0x40 (s.eng e).pc (s.eng e).pc
        else r.1.issue e (bundleMoves (r.1.mbs a 8))

/-- A bundle of one move: a value into a port. -/
def State.oneMove (e p v : Nat) (s : State) : State := if s.canIssue e then s.issue e [Move.into p v] else s

/-! ## Micro-moves (05, R127-R134) -/

/-- What a micro-move reads. -/
def State.microSrc (s : State) (e : Nat) (m : MacroRun) (v : Move) : Nat :=
  match v.src with
  | .imm n => w32 (toSigned 18 n)
  | .val n => n
  | .port p => if inRange p 0x250 8 then (m.temps.getD (p - 0x250) 0#32).toNat else (s.readPort e p).toNat

/-- The end of a macro: the rest of a taken branch's gap is charged (06, R156), and what its trigger bundle also did takes effect (R131). A macro
triggered by the last bundle of the bank, which no branch left, ends in the fetch-beyond-bank fault (03, R75). -/
def State.endMacro (e : Nat) (m : MacroRun) (s : State) : State :=
  let s := (s.upE e fun x => { x with mac := none }).spend e (m.until_ - (s.eng e).cyc)
  let s := if m.after = 1 then s.yieldOp e m.trig else if m.after = 2 then s.excEntry e 1 m.arg (s.eng e).pc true
    else if m.after = 3 then s.excReturn e
    else if m.trig = 65535 ∧ m.until_ = 0 then s.raiseFault e 0x15 0x10000 65535 else s
  if (s.eng e).stepping then s.haltNow e 5 0 false else s

/-- What a micro-move that executes does on one engine, with the value it reads there: temporaries, latches, `MACRO.Q` (R127, R129). -/
def Eng.micro (x : Eng) (dst : Nat) (v : Nat) : Eng :=
  if dst = 0x248 || portKind false dst == .operand then x.setPort dst (word v) else x

/-- The executing micro-move: a temporary, a latch or result, or a trigger (R127-R129). -/
def State.microDo (e : Nat) (m : MacroRun) (dst v : Nat) (s : State) : State :=
  let m' := { m with k := m.k + 1 }
  if inRange dst 0x250 8 then s.upE e fun y => { y with mac := some { m' with temps := m.temps.set (dst - 0x250) (word v) } }
  else
    let s := s.upE e fun y => { y.micro dst v with mac := some m' }
    if dst < 0x140 && portKind false dst == .trigger then (s.trigger e dst v).s else s

/-- The address of a macro's next micro-move, its guard, and what it reads. -/
def State.microAddr (s : State) (e : Nat) (m : MacroRun) : Nat := s.decActive e + 0x200 + 128 * m.entry + 4 * m.k
def State.microPlan (s : State) (e : Nat) (m : MacroRun) : Bool × Nat :=
  let v := slotMove (s.mw (s.microAddr e m))
  (v.passes (s.eng e).acc, s.microSrc e m v)

/-- One engine issues its next micro-move (R128-R131, R134). -/
def State.microOne (e : Nat) (m : MacroRun) (s : State) : State :=
  let r := s.eccRead e 0 (s.microAddr e m) 4
  if r.2.isSome then (r.1.upE e fun x => { x with mac := none }.setPort 0x248 m.q0).raiseFault e 0x41 (32 * m.entry + m.k) m.trig
  else
    let s := r.1
    let p := s.microPlan e m
    let s := if p.1 then s.microDo e m (slotMove (s.mw (s.microAddr e m))).dst p.2 else s.upE e fun y => { y with mac := some { m with k := m.k + 1 } }
    let s := s.spend e 1
    if m.k + 1 < m.n then s else s.endMacro e m

/-- MICRO_MOVE (R128-R131, R134). A Mirror pair compares its guards and what it reads (07, R187); each engine executes it on its own registers. -/
def State.microMove (e : Nat) (s : State) : State :=
  match (if s.secondary e then none else (s.eng e).mac) with
  | none => s
  | some m =>
    let s := s.retireBoth e
    match s.mirrorOf e with
    | none => s.microOne e m
    | some f =>
      let t := s.asSecond e f
      let p := s.microPlan e m
      let q := t.microPlan e m
      if p.1 != q.1 then s.engineFault e 0x50 1 m.trig
      else if p.1 && p.2 != q.2 then s.engineFault e 0x50 3 m.trig
      else
        let a := s.microOne e m
        let b := t.microOne e m
        match s.savedDiff a b e with
        | some k => s.engineFault e 0x50 k m.trig
        | none => a.mirrorOwn e f b

/-! ## Routed events (08, R207) -/

/-- The pending route to be taken first: by PRIO, then source number. -/
def State.nextRoute (s : State) (e : Nat) : Option Nat :=
  (s.eng e).routes.foldl
    (fun b x => match b with
      | none => some x
      | some y => if s.get R.EVT_CFG_PRIO x < s.get R.EVT_CFG_PRIO y || (s.get R.EVT_CFG_PRIO x == s.get R.EVT_CFG_PRIO y && x < y)
          then some x else some y) none

/-- SV's event entry (R206; log entry 154): the source that its request names, as an exception entry with the cause and detail of an event entry. A
maskable source waits until SV is in no handler; a non-maskable one enters a handler too, but not that of a non-maskable one. -/
def State.svEventEntry (s : State) : State :=
  let x := s.eng 4
  let inNmi := x.nest.any fun f => s.mw (f.frame + 8) == 2 && evNmi (s.mw (f.frame + 12))
  if x.stop != .none || s.halted 4 then s
  else
    match s.svRequest with
    | none => s
    | some r => if (if evNmi r then inNmi else !x.nest.isEmpty) then s else s.excEntry 4 2 r x.pc false

/-- ROUTED_EVENT_ENTRY (R207; 07, R178): while the engine is idle or at P2, outside locked sequences and macros. -/
def State.routedEntry (e : Nat) (s : State) : State :=
  let x := s.eng e
  if e = 4 then s.svEventEntry
  else if !s.canTake e || s.secondary e || x.lock.isSome || (x.live && x.priv != 2) then s
  else
    match s.nextRoute e with
    | none => s
    | some r =>
      let s := s.upE e fun x => { x with routes := x.routes.filter (· != r) }
      s.paired e (State.excEntry e 2 r x.pc false)

/-! ## Completion of operations in flight -/

/-- The oldest flight of some units completes; time moves on to its cycle (R68). -/
def State.landFirst (e : Nat) (us : List UnitId) (s : State) : State :=
  match (if s.secondary e then none else (s.eng e).flights.find? fun f => us.contains f.unit) with
  | none => s
  | some f => (s.upE e fun x => { x with cyc := max x.cyc f.due }).retireTo e f.due

def pipelined : List UnitId := [.bu, .alu, .cmp, .mul, .fpuAdd, .tmr, .lsu, .img, .lock, .sys]

/-! ## Budget (06, R157) and deferred halts -/

/-- BUDGET_EXHAUSTED: abort or warn, once per instance; both wait for the end of a macro (05, R133). -/
def State.budgetOut (n : Nat) (s : State) : State :=
  match (s.task n).inst with
  | none => s
  | some i =>
    if i.charged < i.budget || !i.open then s
    else if (s.eng (s.tEng n)).task = some n ∧ (s.eng (s.tEng n)).mac.isSome then s
    else if s.is R.TSK_CFG_BACT n then
      if i.warned then s else ((s.upI n fun i => { i with warned := true }).put R.TSK_ST_BEXH 1 n).warn 2 n
    else s.taskFault n 0x30 i.charged (s.eng (s.tEng n)).pc

/-- DEFERRED_HALT (25, R608): the macro or locked sequence is over. -/
def State.deferredHalt (e : Nat) (s : State) : State :=
  if bit (s.get R.LANT_HALTST_PENDING) e && !s.haltDefers e false then
    s.haltWith e (s.get R.LANT_E_WHY_REASON e) (s.get R.LANT_E_WHY_INDEX e) true
  else s

end Sys2Proof.Machine
end

