-- ==== Sys2Proof/Machine/Time.lean ====
section
/-! DEFINITION. Machine/Time.lean: PPS steering, steps and sets of farm time, the turn period and phase, the RTC, the countdown's start and
Glint captures (02). -/

namespace Sys2Proof.Machine

/-! ## Aligned instants (R38) -/

/-- The first aligned instant at or after `x`, for period `p` and phase `phi` in units of 10 ns. -/
def firstAligned (p phi x : Nat) : Nat := 10 * (phi + p * ceilDiv (x - 10 * phi) (10 * p))

def State.aligned (s : State) (x : Nat) : Nat := firstAligned s.period (s.get R.TURN_PHASE_PHI) x

/-- Fix the next tick. -/
def State.setNextTick (t : Nat) (s : State) : State :=
  { s with time := { s.time with nextTick := some t } }.put64 R.TURN_NEXT_LO_T R.TURN_NEXT_HI_T t

/-- `TURN.CTL.EN` is written: the first tick is the first aligned instant at least 1 µs later (R39; 24, R585). The carrier runs with it (15,
R405). -/
def State.turnEn (v : Bool) (s : State) : State :=
  let was := s.is R.TURN_CTL_EN
  let s := { ((s.put R.TURN_CTL_EN (b2n v)).put R.TURN_STAT_RUN (b2n v)).put R.GDRV_PWM_CTL_RUN (b2n v) with
    dlnk := { s.dlnk with ticked := s.dlnk.ticked && v && was } }
  if v then (if was then s else s.setNextTick (s.aligned (s.now + 1000))) else { s with time := { s.time with nextTick := none } }

/-! ## Steering (R29-R35) -/

def ppm50 (i : Int) : Int := if i < -50000 then -50000 else if 50000 < i then 50000 else i

/-- Set the correction c; EV 22 when it reaches its limit (R31). -/
def State.setCorr (i : Int) (s : State) : State :=
  let c := ppm50 i
  let sat := c == 50000 || c == -50000
  let was := s.is R.TIME_STAT_SAT
  let s := (s.put R.TIME_CORR_C (ofSigned 32 c)).put R.TIME_STAT_SAT (b2n sat)
  if sat && !was then s.raise 22 0 else s

def State.freqY (s : State) : Int := toSigned 32 (s.get R.TIME_FREQ_Y)

/-- The phase error of a corrected time (R29): −5·10^8 < e ≤ 5·10^8. -/
def phaseError (t : Int) : Int :=
  let e := t % 1000000000
  if 500000000 < e then e - 1000000000 else e

/-- A step is pending after these errors (R32). -/
def stepConfirmed (n : Nat) (errs : List Int) : Bool :=
  let l := errs.take n
  l.length == n && l.all (fun e => decide (1000000 < e.natAbs)) && l.all fun a => l.all fun b => decide ((a - b).natAbs ≤ 1000000)

/-- The interval since the last accepted edge without steps and sets (R30); none before a first edge. -/
def State.edgeInterval (s : State) : Option Int :=
  if s.time.first then none else s.time.lastEdge.map fun p => (s.now : Int) - p.1 - s.time.stepped

/-- A Glint capture is requested for an instant; while one is in progress it is ignored (R51, R52). One for the present instant takes its
values at once. -/
def State.glintGo (t : Nat) (s : State) : State :=
  if s.time.glint.isSome then s.put R.RTC_GLINT_MISS 1
  else ({ s with time := { s.time with glint := some t, glTaken := none } }.put R.RTC_GLINT_BUSY 1).cyclesPass 0

/-- Y after an accepted edge (R31): `real` is the crystal time since the previous one, which is the interval less corrections and steps. -/
def newY (y0 : Int) (gain real : Nat) : Int := y0 + (((real : Int) - 1000000000) - y0).tdiv (2 ^ gain : Nat)

/-- A rate as `TIME.FREQ.Y` holds it, 32 bits signed; the spec states no value beyond. -/
def State.fitY (y : Int) (s : State) : Int × State :=
  if -2147483648 ≤ y ∧ y < 2147483648 then (y, s) else let f := s.free; (toSigned 32 (f.1 % 2 ^ 32), f.2)

/-- An accepted edge updates Y, c and the state (R31-R36). A step that is being slewed stays pending until the error is at most 1 ms (R32). A Y
that its register cannot hold, after a long time without edges, is a free value (log entry 110). -/
def State.acceptEdge (s : State) : State :=
  let off := toSigned 32 (s.get R.TIME_OFFSET_NS)
  let at_ : Int := (s.now : Int) - off
  let e := phaseError at_
  let q := match s.time.lastEdge with
    | some p => s.fitY (newY s.freqY (s.get R.TIME_CTL_GAIN) (s.time.real - p.2))
    | none => (s.freqY, s)
  let y := q.1
  let s := q.2
  let errs := (e :: s.time.errs).take 15
  let pend := stepConfirmed (s.get R.TIME_CTL_CONFIRM) errs || (s.time.slew && decide (1000000 < e.natAbs))
  let slew := pend && (s.get R.TIME_CTL_STEPMODE == 2 || (s.get R.TIME_CTL_STEPMODE == 1 && s.inRun))
  let c := if slew then (if 0 < e then -50000 else 50000) else if e.natAbs ≤ 1000000 then -y - e else -y
  let lost := s.time.lost
  let locked := decide (e.natAbs ≤ 1000)
  let became := locked && s.get R.TIME_STAT_STATE != 2
  let s := { s with time := { s.time with
    lastEdge := some (s.now, s.time.real), first := false, lost := false, stepped := 0, errs := errs, stepPend := pend, slew := slew,
    setStep := match s.time.setReq with | some v => some (at_ - v, s.now) | none => s.time.setStep, setReq := none,
    syncDue := s.time.syncDue || became } }
  let s := ((s.put R.TIME_ERR_E (ofSigned 32 e)).put R.TIME_FREQ_Y (ofSigned 32 y)).put R.TIME_STAT_STATE (if locked then 2 else 1)
  let s := s.raise 18 0
  let s := if lost then s.raise 20 0 else s
  let s := s.setCorr c
  if s.is R.RTC_GLINT_AUTO then s.glintGo s.now else s

/-- PPS_EDGE (R29-R31): an edge of the other polarity is not recorded; with DISC 0, or before farm time is loaded, none is accepted, nor counted as
spurious (DESIGN CHOICE, log entry 169). -/
def opPpsEdge (t : Nat) (falling : Bool) (s : State) : State :=
  if s.phase != .up || !s.is R.TIME_CTL_DISC || s.is R.TIME_CTL_EDGE != falling then s
  else
    let s := s.advance t
    match s.edgeInterval with
    | some i => if 999500000 ≤ i ∧ i ≤ 1000500000 then s.acceptEdge else (s.bump R.TIME_CNT_SPUR).raise 27 0
    | none => s.acceptEdge

/-- PPS_LOSS (R34): `TIME.LOSSTO` milliseconds have passed since the last accepted edge. With DISC 0 c stays 0 (R31). -/
def opPpsLoss (s : State) : State :=
  match s.time.lastEdge with
  | none => s
  | some p =>
   if s.phase != .up then s
   else
    let s := s.advanceReal (p.2 + 1000000 * s.get R.TIME_LOSSTO_MS)
    let s := (s.put R.TIME_STAT_STATE 3).put R.TIME_STAT_LOSS 1
    let s := { s with time := { s.time with lastEdge := none, first := false, lost := true, stepped := 0, errs := [], stepPend := false, slew := false } }
    let s := s.raise 19 0
    if s.is R.TIME_CTL_DISC then s.setCorr (-s.freqY) else s

/-- `TIME.CTL.DISC` changes (R30, R31): 0 makes c 0; 1 makes the next edge a first one. The accepted edges before it still count in R32. -/
def State.discChange (v : Bool) (s : State) : State :=
  let s := { s with time := { s.time with first := v } }
  if v then s else s.setCorr 0

/-! ## Steps and sets (R32, R33, R36) -/

/-- TIME_SETCMD_GO (R36). A request replaces one that has not stepped yet. -/
def State.timeSet (v : Nat) (s : State) : State :=
  if v % 1000000000 != 0 then s.put R.TIME_STAT_SETERR 1
  else if s.get R.TIME_STAT_STATE = 1 ∨ s.get R.TIME_STAT_STATE = 2 then
    { s with time := { s.time with setReq := some v, setStep := none } }
  else
    let b := (s.now / 1000000000 + 1) * 1000000000
    { s with time := { s.time with setReq := none, setStep := some ((b : Int) - v, b) } }

def opTimeSetcmdGo (s : State) : State := s.timeSet (s.get64 R.TIME_SET_LO_T R.TIME_SET_HI_T)

/-- The step that a tick at farm time `t` applies, if any: its amount, and whether it is a set (R32, R36). -/
def State.stepDue (s : State) (t : Nat) : Option (Int × Bool) :=
  match s.time.setStep with
  | some (e, after) =>
    if after < t then some (e, true)
    else if s.time.stepPend && (s.get R.TIME_CTL_STEPMODE == 0 || (s.get R.TIME_CTL_STEPMODE == 1 && !s.inRun)) then
      some (toSigned 32 (s.get R.TIME_ERR_E), false) else none
  | none =>
    if s.time.stepPend && (s.get R.TIME_CTL_STEPMODE == 0 || (s.get R.TIME_CTL_STEPMODE == 1 && !s.inRun)) then
      some (toSigned 32 (s.get R.TIME_ERR_E), false) else none

/-- `x − e` in multiples of 10; below 0 the spec gives no value and it is a free one (log entry 25). -/
def State.stepTo (x : Nat) (e : Int) (s : State) : Nat × State :=
  let i := (x : Int) - (e + 5) / 10 * 10
  if i < 0 then let f := s.free; (10 * f.1, f.2) else (i.toNat, s)

/-- Samples stamped with farm time keep their age when farm time goes from `a` to `b`. -/
def samplesShift (a b : Nat) (m : Store (List (Nat × Nat))) : Store (List (Nat × Nat)) :=
  m.map fun (p : Nat × List (Nat × Nat)) => (p.1, p.2.map fun (q : Nat × Nat) => (q.1, b + q.2 - a))

/-- FARM_TIME_STEP (R33): farm time is set, the next tick fixed, guards forgotten (08, R209), and the step shown. The correction holds until the
next accepted edge (R31), and the latch still ends 2 µs after the tick (R41). Instants of what is under way keep their distance; that of a Glint
capture stays as it was fixed (DESIGN CHOICE, log entry 181). -/
def State.farmStep (e : Int) (set : Bool) (s : State) : State :=
  let r := s.stepTo s.now e
  let s := r.2
  let s := { s with
    time := { s.time with farm := r.1, stepped := s.time.stepped + ((r.1 : Int) - s.now), errs := [], stepPend := false, slew := false, syncDue := true,
                          setStep := if set then none else s.time.setStep },
    seq := { s.seq with tasks := s.seq.tasks.map fun (p : Nat × TaskSt) => (p.1, { p.2 with guard := none }),
                        latchAt := r.1 + (s.seq.latchAt - s.now) },
    dies := s.dies.map fun (p : Nat × DieSt) => (p.1, { p.2 with cAt := r.1 + p.2.cAt - s.now }),
    adc := s.adc.map fun (p : Nat × AdcSt) => (p.1, { p.2 with fresh := p.2.fresh.map fun (q : Nat × Nat) => (q.1, r.1 + q.2 - s.now) }),
    wave := s.wave.map fun (p : Nat × WaveSt) => (p.1, { p.2 with t0 := r.1 + p.2.t0 - s.now }),
    prg := s.prg.map fun (p : Nat × PrgSt) => (p.1, { p.2 with since := r.1 + p.2.since - s.now }),
    dlnk := { s.dlnk with ai03 := s.dlnk.ai03.map fun (q : Nat × Nat) => (q.1, r.1 + q.2 - s.now) },
    dio := { s.dio with walkAt := r.1 + s.dio.walkAt - s.now, seen := r.1 + s.dio.seen - s.now, clrAt := r.1 + s.dio.clrAt - s.now },
    brick := { s.brick with est := samplesShift s.now r.1 s.brick.est, cur := samplesShift s.now r.1 s.brick.cur,
                            ntc := samplesShift s.now r.1 s.brick.ntc },
    log := { s.log with stale := true } }
  let s := s.setNextTick (s.aligned (r.1 + 10 * s.period))
  let s := if set then s.put R.TIME_STAT_SOURCE 2 else s
  (((s.put R.TIME_STAT_STEP 1).put R.TURN_STAT_STEPPED 1).bump R.TIME_CNT_STEPS).raise 21 0

/-- Farm time is loaded from the RTC at the end of start-up (R28). -/
def State.loadFarm (s : State) : State :=
  let v := s.is R.RTC_STAT_INVALID
  let t := s.get R.RTC_SEC_S * 1000000000 + s.get R.RTC_SUB_SS * 1000000000 / 32768
  let t := if v then 0 else t / 10 * 10
  { s with time := { s.time with farm := t }, dio := { s.dio with seen := t, clrAt := t } }.put R.TIME_STAT_SOURCE (b2n !v)

/-! ## Turn period and phase (R37, R39) -/

/-- The change takes effect at the first aligned instant at least 1 µs later (R39). -/
def State.turnChanged (s : State) : State :=
  let s := { s with time := { s.time with change := true } }
  if s.is R.TURN_CTL_EN then s.setNextTick (s.aligned (s.now + 1000)) else s

/-- A period that R37 accepts: in range, dividing one second, above the phase, and in Hold. -/
def State.periodOk (s : State) (p : Nat) : Bool :=
  !s.inRun && decide (5000 ≤ p) && decide (p ≤ 10000000) && 100000000 % p == 0 && decide (s.get R.TURN_PHASE_PHI < p)

/-- TURN_PERIOD_WRITE (R37): the result of R37 and the state. -/
def opTurnPeriodWrite (v : Nat) (s : State) : State :=
  let p := v % 2 ^ 24
  if s.periodOk p then (if p = s.period then s else (s.put R.TURN_PERIOD_P p).turnChanged) else s.put R.TURN_STAT_PERR 1

def State.phaseOk (s : State) (p : Nat) : Bool := !s.inRun && decide (p < s.period)

/-- TURN_PHASE_WRITE (R37). -/
def opTurnPhaseWrite (v : Nat) (s : State) : State :=
  let p := v % 2 ^ 24
  if s.phaseOk p then (if p = s.get R.TURN_PHASE_PHI then s else (s.put R.TURN_PHASE_PHI p).turnChanged) else s.put R.TURN_STAT_PERR 1

/-! ## RTC (R46-R50) -/

/-- The RTC takes a number of seconds (R48). The cycle of CD0 begins anew with SUB 0 (DESIGN CHOICE, log entry 168). -/
def State.rtcTake (sec : Nat) (s : State) : State :=
  let s := ((s.put R.RTC_SEC_S sec).put R.RTC_SUB_SS 0).put R.RTC_STAT_INVALID 0
  { s with time := { s.time with cd0 := 0 } }.raise 26 0

/-- Farm time is at the boundary of second `b` (R48). Where a synchronisation and a SETGO value fall on one boundary, both are applied, the value
last, each with its EV 26 (DESIGN CHOICE, log entry 165). The SETGO value is `RTC.SET_SEC` as it stands at the boundary, and SYNCINT counts the
seconds of farm time since the last synchronisation, as farm time then stands (DESIGN CHOICE, log entry 168). -/
def State.rtcBoundary (b : Nat) (s : State) : State :=
  let n := b - s.time.syncSec
  let due := s.is R.RTC_CTL_AUTOSYNC && s.get R.TIME_STAT_STATE == 2 &&
    (s.time.syncDue || (s.get R.RTC_CTL_SYNCINT != 0 && decide (s.get R.RTC_CTL_SYNCINT ≤ n)))
  let set := s.time.setgo
  let s := { s with time := { s.time with syncSec := if due then b else s.time.syncSec, syncDue := false, setgo := false } }
  let s := if due then s.rtcTake b else s
  if set then s.rtcTake (s.get R.RTC_SET_SEC_S) else s

/-- RTC_SYNC (R48): farm time reaches its next second boundary. -/
def opRtcSync (s : State) : State :=
  if s.phase != .up then s else (s.advance ((s.now / 1000000000 + 1) * 1000000000)).rtcBoundary (s.now / 1000000000 + 1)

/-- RTC_SETGO (R48). -/
def opRtcSetgo (s : State) : State := { s with time := { s.time with setgo := true } }

/-- RTC_SEC_READ (R49). -/
def opRtcSecRead (s : State) : State := { s with time := { s.time with subHeld := some (s.get R.RTC_SUB_SS) } }

/-- CD2 cycles until CD0 has made `n` more edges (R47). -/
def State.cd0Cycles (s : State) (n : Nat) : Nat := ceilDiv (n * 1000000000 - s.time.cd0) 327680

/-- RTC_WRAP (R47): the second 0xFFFF_FFFF ends. In any other second it cannot occur (log entry 3). -/
def opRtcWrap (s : State) : State :=
  if s.get R.RTC_SEC_S = 2 ^ 32 - 1 then s.cyclesPass (s.cd0Cycles (32768 - s.get R.RTC_SUB_SS)) else s

/-- The register pairs whose low word latches the high word when it is read (R49; 06; 08): address of the low word. -/
def State.latchHi (a : Nat) (s : State) : State :=
  if a = 0x10005004 then s.put R.TIME_NOW_HI_T (s.now / 2 ^ 32)
  else if a = 0x10006024 then s.put R.RTC_GL_FT_HI_T (s.time.glFt / 2 ^ 32)
  else if a = 0x10006038 then s.put R.RTC_GL_EDGE_HI_T (s.time.glEdge / 2 ^ 32)
  else if a = 0x10004100 then s.put R.TURN_ABS_HI_A (s.seq.abs / 2 ^ 32)
  else if a = 0x1000D014 then s.put R.EVT_SFIRST_HI_T ((s.evRec (s.get R.EVT_SEL_SRC)).first / 2 ^ 32)
  else if a = 0x1000D01C then s.put R.EVT_SLAST_HI_T ((s.evRec (s.get R.EVT_SEL_SRC)).last / 2 ^ 32)
  else s

/-- COUNTDOWN_ENABLE (R50). -/
def opCountdownEnable (s : State) : State := (s.put R.RTC_CDN_VAL_V (s.get R.RTC_CDN_LOAD_V)).put R.RTC_CDN_CTL_EN 1

/-! ## Glint (R51, R52) -/

/-- GLINT_REQUEST. -/
def opGlintRequest (s : State) : State := s.glintGo (s.now + 100)

/-- GLINT_CAPTURE_COMPLETE (R51): `d` units of 10 ns after its instant, which is at most 300 ns after the write, what the capture took there is
shown (DESIGN CHOICE, log entry 166). -/
def opGlintCaptureComplete (d : Nat) (s : State) : State :=
  match s.time.glint with
  | none => s
  | some t =>
    let s := s.advance (t + 10 * min d 20)
    match s.time.glTaken with
    | none => s
    | some (turn, sec, sub, edge) =>
      let s := { s with time := { s.time with glint := none, glTaken := none, glFt := t, glEdge := edge % 2 ^ 64 } }
      let s := (((s.put R.RTC_GL_FT_LO_T t).put R.RTC_GL_TURN_T turn).put R.RTC_GL_SEC_S sec).put R.RTC_GL_SUB_SS sub
      (((s.put R.RTC_GL_EDGE_LO_T edge).put R.RTC_GLINT_BUSY 0).wrapUp R.RTC_GLINT_SEQ).raise 24 0

def execPpsEdge (t : Nat) (falling : Bool) (s : State) : Host.Outcome State Fault Refusal := .next (opPpsEdge t falling s)
def execPpsLoss (s : State) : Host.Outcome State Fault Refusal := .next (opPpsLoss s)
def execTimeSetcmdGo (s : State) : Host.Outcome State Fault Refusal := .next (opTimeSetcmdGo s)
def execTurnPeriodWrite (v : Word) (s : State) : Host.Outcome State Fault Refusal := .next (opTurnPeriodWrite v.toNat s)
def execTurnPhaseWrite (v : Word) (s : State) : Host.Outcome State Fault Refusal := .next (opTurnPhaseWrite v.toNat s)
def execRtcSync (s : State) : Host.Outcome State Fault Refusal := .next (opRtcSync s)
def execRtcSetgo (s : State) : Host.Outcome State Fault Refusal := .next (opRtcSetgo s)
def execRtcSecRead (s : State) : Host.Outcome State Fault Refusal := .next (opRtcSecRead s)
def execRtcWrap (s : State) : Host.Outcome State Fault Refusal := .next (opRtcWrap s)
def execHiLatchingRead (a : Nat) (s : State) : Host.Outcome State Fault Refusal := .next (s.latchHi a)
def execCountdownEnable (s : State) : Host.Outcome State Fault Refusal := .next (opCountdownEnable s)
def execGlintRequest (s : State) : Host.Outcome State Fault Refusal := .next (opGlintRequest s)
def execGlintCaptureComplete (d : Nat) (s : State) : Host.Outcome State Fault Refusal := .next (opGlintCaptureComplete d s)

end Sys2Proof.Machine
end

