-- ==== Sys2Proof/Machine/Tasks.lean ====
section
/-! DEFINITION. Machine/Tasks.lean: the task table and its checks (06, R145-R147), enables, shedding and abort limits, the releases of a
tick and the commit (R149, R151, R158-R169), and the commands of the TSK block. -/

namespace Sys2Proof.Machine

/-! ## The descriptor table (R145-R147) -/

/-- Write several rw fields of one register from a word. -/
def State.putBits (fs : List Fam) (v : Nat) (i : Nat) (s : State) : State :=
  fs.foldl (fun s f => s.put f (bits v f.lsb f.width) i) s

/-- A descriptor, as checks and a program switch see it. -/
structure Desc where
  cfg : Nat
  trg : Nat
  entry : Nat
  bud : Nat
  qr : Nat
  wr : Nat
  deriving DecidableEq, Repr

def Desc.en (d : Desc) : Bool := bit d.cfg 0
def Desc.eng (d : Desc) : Nat := bits d.cfg 1 2
def Desc.slot (d : Desc) : Nat := bits d.cfg 3 4
def Desc.event (d : Desc) : Bool := bit d.cfg 12
def Desc.shed (d : Desc) : Bool := bit d.cfg 13
def Desc.overlapQ (a b : Desc) : Bool :=
  decide (bits a.qr 0 11 < bits b.qr 0 11 + bits b.qr 16 12) && decide (bits b.qr 0 11 < bits a.qr 0 11 + bits a.qr 16 12) &&
    bits a.qr 16 12 != 0 && bits b.qr 16 12 != 0
def Desc.overlapW (a b : Desc) : Bool :=
  decide (bits a.wr 0 12 < bits b.wr 0 12 + bits b.wr 16 13) && decide (bits b.wr 0 12 < bits a.wr 0 12 + bits a.wr 16 13) &&
    bits a.wr 16 13 != 0 && bits b.wr 16 13 != 0

/-- The descriptor that the registers hold. -/
def State.desc (s : State) (n : Nat) : Desc :=
  { cfg := s.get R.TSK_CFG_EN n + 2 * s.get R.TSK_CFG_ENG n + 8 * s.get R.TSK_CFG_SLOT n + 2 ^ 8 * s.get R.TSK_CFG_PRIO n +
      2 ^ 12 * s.get R.TSK_CFG_TRIG n + 2 ^ 13 * s.get R.TSK_CFG_SHEDDABLE n + 2 ^ 14 * s.get R.TSK_CFG_BACT n +
      2 ^ 16 * s.get R.TSK_CFG_ABORT n,
    trg := s.get R.TSK_TRG_W n, entry := s.get R.TSK_ENTRY_IDX n, bud := s.get R.TSK_BUD_CYC n,
    qr := s.get R.TSK_QRNG_START n + 2 ^ 16 * s.get R.TSK_QRNG_COUNT n,
    wr := s.get R.TSK_WRNG_START n + 2 ^ 16 * s.get R.TSK_WRNG_COUNT n }

def State.descs (s : State) : List Desc := (List.range 48).map s.desc

/-- The first check of R147 that a table fails: ERR and task. `shed` gives K and WATCH of each engine. -/
def tableErr (t : List Desc) (shed : List (Nat × Nat)) : Option (Nat × Nat) :=
  let en := t.zipIdx.filter fun p => p.1.en
  let eng (e : Nat) := en.filter fun p => p.1.eng == e
  let many := (List.range 4).findSome? fun e => if 12 < (eng e).length then ((eng e)[12]?).map Prod.snd else none
  let slot := en.findSome? fun p =>
    if en.any fun q => q.2 < p.2 && q.1.eng == p.1.eng && q.1.slot == p.1.slot then some p.2 else none
  let first (f : Desc → Bool) := (en.find? fun p => f p.1).map Prod.snd
  let period := first fun d => !d.event && (bits d.trg 0 13 == 0 || 4096 < bits d.trg 0 13)
  let phase := first fun d => !d.event && decide (bits d.trg 0 13 ≤ bits d.trg 16 13)
  let src := first fun d => d.event && decide (288 ≤ bits d.trg 0 9)
  let bud := first fun d => decide (d.bud < 64)
  let area := en.findSome? fun p =>
    let d := p.1
    if 2048 < bits d.qr 0 11 + bits d.qr 16 12 || 4096 < bits d.wr 0 12 + bits d.wr 16 13 ||
        en.any (fun q => q.2 < p.2 && (q.1.overlapQ d || q.1.overlapW d)) then some p.2 else none
  let watch := shed.zipIdx.findSome? fun p =>
    if p.1.1 = 0 then none
    else
      match t[p.1.2]? with
      | some d => if d.en && !d.shed && d.eng == p.2 then none else some p.1.2
      | none => some p.1.2
  ([(1, many), (2, slot), (3, period), (4, phase), (5, src), (6, bud), (7, area), (8, watch)].findSome? fun p => p.2.map fun n => (p.1, n))

/-- K and WATCH of each engine. -/
def State.shedCfg (s : State) : List (Nat × Nat) := (List.range 4).map fun e => (s.get R.TSK_SHED_K e, s.get R.TSK_SHED_WATCH e)

/-- The checks of R147 with R186's for a Mirror secondary (07: no enabled task on it; error 0x09). -/
def State.tableCheck (s : State) : Option (Nat × Nat) :=
  match tableErr s.descs s.shedCfg with
  | some p => some p
  | none => ((List.range 48).find? fun n => s.is R.TSK_CFG_EN n && s.secondary (s.tEng n)).map fun n => (9, n)

/-- Record the outcome of a check in `TSK.STAT`. -/
def State.recordErr (p : Nat × Nat) (s : State) : State := (s.put R.TSK_STAT_ERR p.1).put R.TSK_STAT_ERRTASK p.2

/-- Locations that no task owns hold 0 in the committed copy (R166). -/
def State.zeroUnowned (s : State) : State :=
  let own (a : Nat) : Bool :=
    if inRange a 0x03000800 0x800 then (s.ownerQ (a - 0x03000800)).isSome
    else if inRange a 0x03009000 0x4000 then (s.ownerW ((a - 0x03009000) / 4)).isSome
    else true
  let t := State.forAll (s.mem.filter fun c => !own c.1) (fun c s => s.markDirty false c.1 1) s
  let t := State.forAll (s.work.filter fun c => !own (0x03000000 + c.1)) (fun c s => s.markDirty true (0x03000000 + c.1) 1) t
  { t with mem := s.mem.filter fun c => own c.1, work := s.work.filter fun c => own (0x03000000 + c.1) }

/-! ## Enables (R164) -/

/-- The enable as the sequencer uses it: at once in Hold, at the next tick in Run. -/
def State.applyEn (n : Nat) (s : State) : State :=
  let v := s.is R.TSK_CFG_EN n
  if (s.task n).enabled == v then s else s.upT n fun t => { t with enabled := v }

/-- A task is enabled or disabled (R164). -/
def State.taskEnable (n : Nat) (en : Bool) (s : State) : State :=
  if en && s.domOff (2 + s.tEng n) then s.put R.TSK_STAT_CFGREF 1
  else
  let s := s.put R.TSK_CFG_EN (b2n en) n
  if s.inRun then s else s.applyEn n

/-- The fields of `TSK.CFGn` that may be written in Run, and the others (R146). -/
def cfgFree : List Fam := [R.TSK_CFG_EN, R.TSK_CFG_SHEDDABLE, R.TSK_CFG_BACT, R.TSK_CFG_ABORT]
def cfgHold : List Fam := [R.TSK_CFG_ENG, R.TSK_CFG_SLOT, R.TSK_CFG_PRIO, R.TSK_CFG_TRIG]

/-- In Run a write of the word that also holds fields of Run is refused if it changes one that only Hold admits (R146, log entry 114). -/
def State.holdRefused (s : State) (fs : List Fam) (v n : Nat) : Bool :=
  s.inRun && !fs.all fun f => bits v f.lsb f.width == s.get f n

/-- Write a word of fields that only Hold admits; in Run the write is refused (R146). -/
def State.holdOnly (fs : List Fam) (v n : Nat) (s : State) : State :=
  if s.inRun then s.put R.TSK_STAT_CFGREF 1 else s.putBits fs v n

/-- Word 1 of a descriptor: of a cyclic task a PERIOD that the table does not list leaves PERIOD as it is (00, R5; DEDUCED, log entry 167). -/
def State.trgWord (s : State) (n v : Nat) : Nat :=
  let old := s.get R.TSK_TRG_W n
  if s.is R.TSK_CFG_TRIG n then (if bits v 0 9 ≤ 287 then v else v / 2 ^ 9 * 2 ^ 9 + old % 2 ^ 9)
  else
    let p := if 1 ≤ bits v 0 13 ∧ bits v 0 13 ≤ 4096 then bits v 0 13 else bits old 0 13
    let f := if bits v 16 13 < p then bits v 16 13 else bits old 16 13
    p + 2 ^ 16 * f

/-- Word `k` of descriptor `n` is written (R146, R170); a field keeps its value where its table does not list the one written (00, R5; DEDUCED, log
entry 167). -/
def State.descWrite (n k v : Nat) (s : State) : State :=
  match k with
  | 0 =>
    if bit v 0 && s.domOff (2 + bits v 1 2) then s.put R.TSK_STAT_CFGREF 1
    else
    let hold := if 12 ≤ bits v 3 4 then [R.TSK_CFG_ENG, R.TSK_CFG_PRIO, R.TSK_CFG_TRIG] else cfgHold
    if s.holdRefused cfgHold v n then s.put R.TSK_STAT_CFGREF 1
    else
      let s := s.putBits cfgFree v n
      if s.inRun then s else (s.putBits hold v n).applyEn n
  | 1 => s.holdOnly [R.TSK_TRG_W] (s.trgWord n v) n
  | 2 => s.holdOnly [R.TSK_ENTRY_IDX] v n
  | 3 => if v < 64 then s else s.put R.TSK_BUD_CYC v n
  | 4 =>
    let s := if bit v 16 then s.put R.TSK_ST_BEXH 0 n else s
    if bit v 17 then s.put R.TSK_ST_TFAULT 0 n else s
  | 8 => (s.holdOnly (if 2048 < bits v 16 12 then [R.TSK_QRNG_START] else [R.TSK_QRNG_START, R.TSK_QRNG_COUNT]) v n).zeroUnowned
  | 9 => (s.holdOnly (if 4096 < bits v 16 13 then [R.TSK_WRNG_START] else [R.TSK_WRNG_START, R.TSK_WRNG_COUNT]) v n).zeroUnowned
  | _ => s

/-- Address of word `k` of descriptor `n` (R170). -/
def descAddr (n k : Nat) : Nat := R.TSK_CFG_EN.addr n 0 + 4 * k

/-- TSK_DESCRIPTOR_WRITE: on a Lead in Run a control write (12, R305). -/
def opTskDescriptorWrite (n k v : Nat) (s : State) : State := s.control (descAddr n k) v (State.descWrite n k v)

/-- TASK_ENABLE_WRITE (R164): on a Lead in Run a control write of the descriptor's first word (12, R305). -/
def opTaskEnableWrite (n : Nat) (en : Bool) (s : State) : State :=
  s.control (descAddr n 0) (setBit (s.desc n).cfg 0 en) (State.taskEnable n en)

/-- TSK_CLRSTAT (R170). -/
def opTskClrstat (s : State) : State :=
  State.forAll (List.range 48)
    (fun n s => (((s.put R.TSK_CNT_OVR 0 n).put R.TSK_CNT_GREJ 0 n).put R.TSK_WCET_CYC 0 n).put R.TSK_LAST_CYC 0 n) s

/-! ## Shedding (R162, R163) and the engine's Penumbra (07, R196, R197) -/

/-- EPEN follows shedding; EV 10 at each change. -/
def State.engPen (e : Nat) (s : State) : State :=
  let v := s.shedding e
  if bit (s.get R.EXC_STAT_EPEN) e == v then s
  else (s.putBit R.EXC_STAT_EPEN e v).raise 10 (4 + e + 256 * b2n v)

/-- SHED_START (R162): what the tick has found due is shown. In Hold there is no Penumbra (log entry 155). -/
def opShedStart (e : Nat) (s : State) : State :=
  let u : State := { s with seq := { s.seq with shedTick := s.seq.shedTick.filter (· != e) } }
  if s.inRun && s.seq.shedTick.contains e && s.get R.TSK_SHED_K e != 0 && !s.is R.TSK_SHED_ACTIVE e then
    ({ u with seq := { u.seq with clean := Store.put e 0 u.seq.clean } }.put R.TSK_SHED_ACTIVE 1 e).engPen e
  else u

/-- Shedding on `e` is to end (R163). -/
def State.shedOver (s : State) (e : Nat) : Bool :=
  s.seq.shedClear.contains e || (s.get R.TSK_SHED_RECOV e != 0 && decide (s.get R.TSK_SHED_RECOV e ≤ s.seq.clean.getD e 0)) ||
    !(s.task (s.get R.TSK_SHED_WATCH e)).enabled

/-- SHED_END (R163). -/
def opShedEnd (e : Nat) (s : State) : State :=
  let u : State := { s with seq := { s.seq with endTick := s.seq.endTick.filter (· != e) } }
  if s.inRun && s.is R.TSK_SHED_ACTIVE e && s.seq.endTick.contains e then
    ({ u with seq := { u.seq with shedClear := u.seq.shedClear.filter (· != e) } }.put R.TSK_SHED_ACTIVE 0 e).engPen e
  else u

/-- The shed state of a tick (R151): what has been noted since the last one becomes due; a start that Hold overtakes is dropped. -/
def State.shedTick (s : State) : State :=
  let l := (List.range 4).filter fun e => s.is R.TSK_SHED_ACTIVE e && s.shedOver e
  { s with seq := { s.seq with shedTick := if s.inRun then s.seq.shedStart else [], endTick := if s.inRun then l else [], shedStart := [] } }

/-- TSK_SHED_CLEAR (R163): shedding ends at the next tick. -/
def opTskShedClear (e : Nat) (s : State) : State :=
  if s.is R.TSK_SHED_ACTIVE e then { s with seq := { s.seq with shedClear := s.seq.shedClear ++ [e] } } else s

/-! ## The abort limit (R158) -/

/-- Ticks after which an instance of the task is aborted; 0 never. -/
def State.abortTicks (s : State) (n : Nat) : Nat := s.get R.TSK_CFG_ABORT n * (if s.is R.TSK_CFG_TRIG n then 1 else s.tPeriod n)

/-- The abort limit of an incomplete instance is reached (R158). -/
def State.abortDue (s : State) (n : Nat) : Bool :=
  match (s.task n).inst with
  | some i => i.open && s.abortTicks n != 0 && decide (s.abortTicks n ≤ i.ticks) && !s.halted (s.tEng n)
  | none => false

/-- ABORT_LIMIT (R158); no action on a halted engine (25, R617). -/
def opAbortLimit (n : Nat) (s : State) : State :=
  match (s.task n).inst with
  | none => s
  | some i => if s.abortDue n then s.taskFault n 0x31 i.ticks (s.eng (s.tEng n)).pc else s

/-! ## Releases of a tick (R149, R151, R164) -/

/-- A cyclic task is due at turn `a`. -/
def State.cyclicDue (s : State) (a n : Nat) : Bool :=
  !s.is R.TSK_CFG_TRIG n && s.tPeriod n != 0 && (((a : Int) - s.tPhase n) % (s.tPeriod n : Int) == 0)

/-- A release falls due while the instance is incomplete (R160): its overrun and event. -/
def State.overrunNow (s : State) (n : Nat) : State := let s := s.overrun n; s.raise (32 + n) (s.get R.TSK_CNT_OVR n)

/-- What the sequencer brings up to date before anything of the tick can release a task: enables and the shed state (R151, R162-R164). -/
def State.seqStart (s : State) : State :=
  let l := (List.range 48).filter fun n => s.is R.TSK_CFG_EN n && !(s.task n).enabled
  (State.forAll (List.range 48) State.applyEn { s with seq := { s.seq with fresh := l } }).shedTick

/-- The sequencer's part of a tick: ticks are counted, releases that fall due while an instance is incomplete become overruns (R160), the others are
noted for latch end. An instance whose abort limit this tick reaches ends at it, so that its release is noted (R158, R159). -/
def State.seqTick (a : Nat) (s : State) : State :=
  let s := State.forAll (List.range 48) (fun n s => s.upI n fun i => { i with ticks := i.ticks + 1 }) s
  if !s.inRun then s
  else
    let l := (List.range 48).filter fun n => (s.task n).enabled && !s.seq.fresh.contains n && s.cyclicDue a n && !s.umbra (4 + s.tEng n) && !s.halted (s.tEng n)
    let ran := l.filter fun n => s.busy n && !s.abortDue n && s.mayRelease n
    let s := { s with seq := { s.seq with due := s.seq.due ++ l.filter fun n => !s.busy n || s.abortDue n } }
    ran.foldl State.overrunNow s

/-- Order of releases at one instant (R151); a task stands as often as releases of it are due. -/
def State.releaseOrder (s : State) (l : List Nat) : List Nat :=
  (List.range 16).flatMap fun p =>
    (List.range 48).flatMap fun n => if s.get R.TSK_CFG_PRIO n == p then List.replicate (l.count n) n else []

/-- A release at its instant, with the occurrence it raises (09, R221-R223). -/
def State.releaseNow (s : State) (n : Nat) : State := match s.releaseEv n with | some c => (s.release n).raise c.1 c.2 | none => s.release n

/-- The releases of latch end, and the overruns among them (R149, R150, R160); those on an engine whose switch is not complete wait for it (11,
R275), and on a following Shadow those on an engine that has not come to the turn yet (12, R303). -/
def State.seqLatchEnd (s : State) : State :=
  let wait (n : Nat) : Bool := (s.prgSt (s.tEng n)).switching || s.rfl.behind.contains (s.tEng n)
  let due := s.releaseOrder (s.seq.due.filter fun n => !wait n)
  let s := { s with seq := { s.seq with due := s.seq.due.filter wait, inLatch := false } }
  if !s.inRun then s
  else due.foldl (fun s n => if !s.mayRelease n then s else if s.busy n then s.overrunNow n else s.releaseNow n) s

/-! ## Commit (R167, R168) -/

/-- Copy an owned range from the working copy to the committed copy, word by word through ECC by the commit hardware; a word that is
uncorrectable stays (09, R222-R224). The first such word. -/
def State.commitRange (a n : Nat) (s : State) : State × Option Nat :=
  (if n = 0 then [] else wordsOf 4 a n).foldl
    (fun r x =>
      let lo := max a x
      let k := min (a + n) (x + 4) - lo
      let q := r.1.eccRead 9 2 lo k
      match q.2 with
      | some y => (q.1, if r.2.isNone then some y else r.2)
      | none => ((q.1.eccWrite 9 0 lo (q.1.copyBytes 2 lo k)).1, r.2))
    (s, none)

/-- Commit the outputs of one task; an uncorrectable word is an engine fault of its engine. The working copy is taken as it stands, a newer instance
included (DESIGN CHOICE, log entry 195). -/
def State.commitTask (n : Nat) (s : State) : State :=
  let qa := 0x03000800 + s.get R.TSK_QRNG_START n
  let wa := 0x03009000 + 4 * s.get R.TSK_WRNG_START n
  let r := s.commitRange qa (s.get R.TSK_QRNG_COUNT n)
  let q := r.1.commitRange wa (4 * s.get R.TSK_WRNG_COUNT n)
  let s := q.1.upT n fun t => { t with await := false }
  let s := { s with exc := { s.exc with waits := s.exc.waits.filter fun p => p.2 != n } }
  match r.2, q.2 with
  | some a, _ => s.engineFault (s.tEng n) 0x42 a 0
  | none, some a => s.engineFault (s.tEng n) 0x42 a 0
  | none, none => s

/-- A completed instance that this tick commits (R167); on a halted engine it waits (25, R616). -/
def State.commits (s : State) (n : Nat) (i : Inst) : Bool :=
  i.st == .complete && decide (i.doneAt + 40 ≤ s.now) && !s.halted (s.tEng n)

/-- Committed instances are counted, and the late ones among them (R169). -/
def State.countCommits (l : List Inst) (s : State) : State :=
  let s := s.put R.TURN_COMMIT_NCOMMIT (min 255 (s.get R.TURN_COMMIT_NCOMMIT + l.length))
  s.put R.TURN_COMMIT_NLATE (min 255 (s.get R.TURN_COMMIT_NLATE + (l.filter Inst.late).length))

/-- COMMIT of the images: the tasks that are committed; each instance counts (R169). -/
def State.commitImages (s : State) : State × List Nat :=
  (List.range 48).foldl
    (fun r n =>
      let s := r.1
      let t := s.task n
      let l := (t.done ++ t.inst.toList).filter (s.commits n)
      if l.isEmpty then r
      else
        let s := s.upT n fun t => { t with done := t.done.filter fun i => !s.commits n i, inst := t.inst.filter fun i => !s.commits n i }
        ((s.countCommits l).commitTask n, r.2 ++ [n]))
    (s, [])

/-- Utilisation of the turn that ends (R169), and the discards counted since the last tick (R159). -/
def State.utilTick (s : State) : State :=
  let s := State.forAll (List.range 4)
    (fun e s =>
      let u := s.seq.util.getD e 0
      (s.put R.TURN_UTIL_CYC u e).put R.TURN_PEAK_CYC (max u (s.get R.TURN_PEAK_CYC e)) e) s
  let s := ((s.put R.TURN_COMMIT_NCOMMIT 0).put R.TURN_COMMIT_NLATE 0).put R.TURN_COMMIT_NDISC (min 255 s.seq.ndisc)
  { s with seq := { s.seq with util := [], ndisc := 0 } }

def execTskDescriptorWrite (n : Fin 48) (k : Fin 10) (v : Word) (s : State) : Host.Outcome State Fault Refusal :=
  .next (opTskDescriptorWrite n k v.toNat s)
def execTaskEnableWrite (n : Fin 48) (en : Bool) (s : State) : Host.Outcome State Fault Refusal := .next (opTaskEnableWrite n en s)
def execTskClrstat (s : State) : Host.Outcome State Fault Refusal := .next (opTskClrstat s)
def execShedStart (e : Fin 4) (s : State) : Host.Outcome State Fault Refusal := .next (opShedStart e s)
def execShedEnd (e : Fin 4) (s : State) : Host.Outcome State Fault Refusal := .next (opShedEnd e s)
def execTskShedClear (e : Fin 4) (s : State) : Host.Outcome State Fault Refusal := .next (opTskShedClear e s)
def execAbortLimit (n : Fin 48) (s : State) : Host.Outcome State Fault Refusal := .next (opAbortLimit n s)

end Sys2Proof.Machine
end

