-- ==== Sys2Proof/Machine/Drive.lean ====
section
/-! DEFINITION. Machine/Drive.lean: drive dies and gate profiles (15), the carrier, duties and legs (15, R405-R412), the DC-link comparators,
the brake chopper and its thermal model (16), and their commands. -/

namespace Sys2Proof.Machine

/-! ## Edges (15, R396-R398) -/

/-- The condition of EV 145 + 4n: UVLO or a lost channel of an enabled die (R391, R392, R394). -/
def State.uvloLevel (n : Nat) (s : State) : State :=
  s.level (145 + 4 * n) (s.dieEn n && (s.uvlo n || !s.is R.GD_STAT_CHOK n)) (s.uvloPay n)

/-- A fault of an enabled drive channel puts its scope into Umbra (07, R191; R394); on a following Shadow whose channels are released it does
not (12, R302). A bridge die is noted among the causes (R404). -/
def State.channelFault (n : Nat) (s : State) : State :=
  if !s.dieEn n || (s.following && s.released n) then s
  else if n < 6 then
    { s with pwm := { s.pwm with faulted := if s.pwm.faulted.contains n then s.pwm.faulted else s.pwm.faulted ++ [n] } }.umbraEnter 1 3
  else if n = 6 then s.umbraEnter 2 3
  else s

/-- A change of EN takes effect on the die (R394): disabled it holds off; enabled, the conditions that stand count as they would have. -/
def State.dieEnable (n : Nat) (en : Bool) (s : State) : State :=
  let was := s.dieEn n
  let s := s.upDie n fun d => { d with en := en }
  if en then
    let s := s.uvloLevel n
    if !was && (s.uvlo n || !s.is R.GD_STAT_CHOK n) then s.channelFault n else s
  else (s.dieHold n).uvloLevel n

/-- What reaches a die takes effect; a die that is off and not in Phase A or B is quiet from then on (R404). -/
def State.dieTake (n : Nat) (m : DieMsg) (s : State) : State :=
  match m with
  | .enable en => s.dieEnable n en
  | .edge e =>
    let s := s.dieEdge n e
    if s.is R.GD_STAT_ON n || s.get R.GD_STAT_PHASE n == 1 || s.get R.GD_STAT_PHASE n == 2 then s
    else s.upDie n fun d => { d with quietAt := s.time.real }

/-- GATE_EDGE_COMMAND: the oldest command on its way reaches the die and takes effect at its instant, 80 ns after it was decided (R392, R394,
R396). -/
def opGateEdgeCommand (n : Nat) (s : State) : State :=
  match (s.die n).cmds with
  | [] => s
  | (m, t) :: r => ((s.advanceReal t).upDie n fun d => { d with cmds := r }).dieTake n m

/-- PHASE_A_END (R396); a Phase B limit of 0 omits Phase B (R395). -/
def opPhaseAEnd (n : Nat) (s : State) : State :=
  let d := s.die n
  if s.get R.GD_STAT_PHASE n = 1 then (s.advanceReal (d.start + 10 * d.runA)).diePhase n (if d.runB = 0 then 3 else 2) else s

/-- The duration of a Phase B is recorded by the kind of edge. -/
def State.putPlat (n v : Nat) (s : State) : State :=
  if (s.die n).edge == .on then s.put R.GD_PLAT_ON v n else s.put R.GD_PLAT_OFF v n

/-- PLATEAU_EXIT at farm time `t` (R396): at least 10 ns after Phase B began. -/
def opPlateauExit (n t : Nat) (s : State) : State :=
  if s.get R.GD_STAT_PHASE n = 2 then
    let b := (s.die n).start + 10 * (s.die n).runA
    let s := s.advance t
    (s.putPlat n (min 0xFE (max 1 ((s.time.real - b) / 10)))).diePhase n 3
  else s

/-- PLATEAU_TIMEOUT (R397). -/
def opPlateauTimeout (n : Nat) (s : State) : State :=
  if s.get R.GD_STAT_PHASE n = 2 then
    let d := s.die n
    let s := s.advanceReal (d.start + 10 * d.runA + 10 * d.runB)
    let on := d.edge == .on
    let s := (s.putPlat n 0xFF).diePhase n 3
    let s := if on then s.put R.GD_STAT_PTON 1 n else s.put R.GD_STAT_PTOFF 1 n
    let s := s.bump R.GD_CNT_PTCNT n
    if s.dieEn n then s.raise (146 + 4 * n) (b2n on) else s
  else s

/-- MILLER_CLAMP_ENGAGE: the gate voltage has fallen below VEEG + 2.0 V (R401). -/
def opMillerClampEngage (n : Nat) (s : State) : State :=
  if !s.is R.GD_STAT_ON n && !s.released n && ((s.die n).use.getD 21 1 != 0 || s.uvlo n || !s.dieEn n) then
    s.put R.GD_STAT_CLAMP 1 n else s

/-! ## Protection (15, R390-R394, R400-R404) -/

/-- Sides of the bridge: odd dies are low-side, even dies high-side (R389); BRMODE 0b01 low, 0b10 high (07, R189). -/
def State.shortSide (s : State) : List Nat :=
  if s.get R.EXC_CTL_BRMODE = 1 then [1, 3, 5] else if s.get R.EXC_CTL_BRMODE = 2 then [0, 2, 4] else []

/-- An active short loses a die: the other two turn off with soft-off (R404). -/
def State.shortLost (n : Nat) (s : State) : State :=
  if s.pwm.short && s.shortSide.contains n then
    State.forAll (s.shortSide.filter (· != n)) (fun m s => s.dieCmd m .soft)
      ({ s with pwm := { s.pwm with short := false } }.put R.GDRV_STAT_SHORTX 1)
  else s

/-- The die enters UVLO: that instant counts for R404, unless it is quiet already. -/
def State.quietNow (n : Nat) (s : State) : State :=
  if s.uvlo n || (!s.is R.GD_STAT_ON n && s.get R.GD_STAT_PHASE n != 1 && s.get R.GD_STAT_PHASE n != 2) then s
  else s.upDie n fun d => { d with quietAt := s.time.real }

/-- UVLO_ENTRY (R391, R393); the VEEG condition is always good where VEEGCHK is 0 (R390). The die's condition comes before the end of its Roll
(08, R202). -/
def opUvloEntry (n : Nat) (vddg : Bool) (s : State) : State :=
  if !vddg && !s.is R.GD_CTL_VEEGCHK n then s
  else
    let s := s.quietNow n
    let s := if vddg then s.put R.GD_STAT_VDDGOK 0 n else s.put R.GD_STAT_VEEGOK 0 n
    let s := (((s.put R.GD_STAT_CFGOK 0 n).dieEdge n .soft).uvloLevel n).rollStop n 5
    (s.shortLost n).channelFault n

/-- UVLO_EXIT (R390). -/
def opUvloExit (n : Nat) (vddg : Bool) (s : State) : State :=
  (if vddg then s.put R.GD_STAT_VDDGOK 1 n else s.put R.GD_STAT_VEEGOK 1 n).uvloLevel n

/-- DIE_CHANNEL_LOSS: the die receives no valid frame for 1 µs (R392). -/
def opDieChannelLoss (n : Nat) (s : State) : State :=
  (((((s.put R.GD_STAT_CHLOSTL 1 n).put R.GD_STAT_CFGOK 0 n).dieEdge n .soft).rollStop n 5).shortLost n).channelFault n

/-- CORE_CHANNEL_LOSS: the core die receives no valid status from an enabled die for 1 µs (R392). -/
def opCoreChannelLoss (n : Nat) (s : State) : State :=
  if !s.dieEn n then s
  else ((((s.put R.GD_STAT_CHOK 0 n).put R.GD_STAT_CFGOK 0 n).uvloLevel n).rollStop n 5).channelFault n

/-- DRIVE_CHANNEL_RETURN (R392, R393). -/
def opDriveChannelReturn (n : Nat) (s : State) : State := (s.put R.GD_STAT_CHOK 1 n).uvloLevel n

/-- DIE_CONFIG_TRANSFER_COMPLETE (R393). -/
def opDieConfigTransferComplete (n : Nat) (s : State) : State :=
  if s.uvlo n || !s.is R.GD_STAT_CHOK n then s else (s.dieTransfer n).put R.GD_STAT_CFGOK 1 n

/-- GDRV_EN_WRITE (R394): the change takes effect on the die 80 ns later. -/
def opGdrvEnWrite (n : Nat) (en : Bool) (s : State) : State :=
  if en && s.domOff (44 + n) then s
  else (s.put R.GD_CTL_EN (b2n en) n).upDie n fun d => { d with cmds := d.cmds ++ [(.enable en, s.time.real + 80)] }

/-- GDRV_FCLR: GD7 only, outside UVLO (R403). -/
def opGdrvFclr (n : Nat) (s : State) : State := if n = 7 ∧ !s.uvlo 7 then s.clearLatches [7] else s

/-- A desaturation is detected (R402): only while the die is on, and no earlier than FILT after the blanking time, with the settings of the edge that
turned it on (R399). The soft-off starts 20 ns later. -/
def State.desat (n : Nat) (s : State) : State :=
  let d := s.die n
  if !s.is R.GD_STAT_ON n || !s.dieEn n || decide (s.time.real < d.start + 10 * (d.use.getD 18 0 + d.use.getD 20 0)) then s
  else
    let s := (((s.put R.GD_STAT_DESATL 1 n).bump R.GD_CNT_DESCNT n).dieEdge n .soft).upDie n fun d => { d with start := d.start + 20 }
    ((s.raise (144 + 4 * n) 0).shortLost n).channelFault n

/-- DESATURATION (R402); while its Roll runs the comparator acts when the Roll ends (16, R431). -/
def opDesaturation (n : Nat) (s : State) : State :=
  match s.dlnk.roll with
  | some r => if r.comp = n then { s with dlnk := { s.dlnk with roll := some { r with desat := true } } } else s.desat n
  | none => s.desat n

/-- An enabled bridge die has finished its soft-off, was off, or is in UVLO (R404). -/
def State.dieQuiet (s : State) (n : Nat) : Bool :=
  !s.dieEn n || s.uvlo n || (!s.is R.GD_STAT_ON n && !s.edgeSent n && (s.get R.GD_STAT_PHASE n == 3 || s.get R.GD_STAT_PHASE n == 0))

/-- The crystal time at which the last enabled bridge die became quiet. -/
def State.quietSince (s : State) : Nat := (((List.range 6).filter s.dieEn).map fun n => (s.die n).quietAt).foldl max 0

/-- ACTIVE_SHORT (R404): the dead time after the last enabled bridge die is quiet. -/
def opActiveShort (s : State) : State :=
  let side := s.shortSide
  if side.isEmpty || !s.dark 1 || s.pwm.short || !(List.range 6).all s.dieQuiet then s
  else if side.any s.pwm.faulted.contains then s.put R.GDRV_STAT_SHORTX 1
  else State.forAll side (fun n s => s.dieEdge n .on)
    ({ s with pwm := { s.pwm with short := true } }.advanceReal (s.quietSince + 10 * s.pwm.dt))

/-! ## The carrier (15, R405-R407) -/

def State.cpact (s : State) : Nat := s.get R.GDRV_CPACT_CP
def State.carrier (s : State) : Bool := s.is R.GDRV_PWM_CTL_RUN
/-- Position in the carrier period, in 10 ns, of a farm time: 0 at every aligned instant (R405; 02, R38). -/
def State.carrierPos (s : State) (t : Nat) : Nat :=
  (((t / 10 : Nat) : Int) - (s.get R.TURN_PHASE_PHI : Nat)) % ((max 1 s.cpact : Nat) : Int) |>.toNat

/-- The next farm time after now at which the position is `p`. -/
def State.nextPos (s : State) (p : Nat) : Nat :=
  let x := s.carrierPos s.now
  10 * (s.now / 10 + (if x < p then p - x else max 1 s.cpact + p - x))

/-- The reference of a compare value at a position (R407): 1 for 2 CMP counts centred on the peak. -/
def refAt (cp cmp pos : Nat) : Bool :=
  let h := cp / 2
  cmp != 0 && (cmp == h || (decide (h - cmp ≤ pos) && decide (pos < h + cmp)))

def State.legCmp (s : State) (l : Nat) : Nat := s.pwm.cmp.getD l 0

/-- Duties and bridge enable at a commit. -/
def State.pwmCommit (s : State) : State :=
  let s := State.forAll (List.range 5) State.dutyCommit s
  s.benFollow

/-! ## Legs (15, R408, R410, R412) -/

/-- The on interval that begins now would be long enough (R408): it lasts until the reference of the active compare value changes. -/
def State.longEnough (s : State) (l : Nat) : Bool :=
  let h := s.cpact / 2
  let c := s.legCmp l
  let x := s.carrierPos s.now
  let last := if x < h - c then h - c - x else if x < h + c then h + c - x else s.cpact + (h - c) - x
  c == 0 || decide (h ≤ c) || decide (s.pwm.minpw ≤ last)

/-- A bridge leg follows its reference: off at once, on after the dead time (R408). -/
def State.legSwitch (l : Nat) (ref : Bool) (s : State) : State :=
  let hi := 2 * l
  let s := s.dieCmd (if ref then hi + 1 else hi) .off
  { s with pwm := { s.pwm with dead := Store.put l (if ref then hi else hi + 1, s.time.real + 10 * s.pwm.dt) s.pwm.dead,
                               skip := s.pwm.skip.filter (· != l) } }

/-- Set the reference of a leg. -/
def State.setRef (l : Nat) (ref : Bool) (s : State) : State :=
  if s.legRef l == ref then s
  else
    let s := { s with pwm := { s.pwm with ref := Store.put l ref s.pwm.ref } }
    if l < 3 then (if s.pwm.follow then s.legSwitch l ref else s)
    else if l = 3 then
      (if s.is R.GDRV_AUXCTL_MODE && !s.dark 0 then s.dieCmd 7 (if ref then .on else .off) else s)
    else s.chop

/-- The reference of a leg at a farm time; with no carrier there is none (16, R421). -/
def State.refNow (s : State) (l t : Nat) : Bool := s.carrier && refAt s.cpact (s.legCmp l) (s.carrierPos t)

/-- LEG_REFERENCE_CHANGE: farm time reaches `t`, and the leg takes the reference of that instant (R407, R408). -/
def opLegReferenceChange (l t : Nat) (s : State) : State :=
  let s := s.advance t
  s.setRef l (s.refNow l s.now)

/-- DEAD_TIME_EXPIRY (R408): time reaches the end of the dead time, and the on command is decided, unless the on interval is too short. -/
def opDeadTimeExpiry (l : Nat) (s : State) : State :=
  match Store.find l s.pwm.dead with
  | none => s
  | some (d, t) =>
    let s := s.advanceReal t
    let s := { s with pwm := { s.pwm with dead := Store.del l s.pwm.dead } }
    if s.longEnough l then s.dieCmd d .on else { s with pwm := { s.pwm with skip := s.pwm.skip ++ [l] } }

/-- Load the compare values of every leg (R406). -/
def State.loadCompare (s : State) : State :=
  State.forAll (List.range 5)
    (fun l s => { s with pwm := { s.pwm with cmp := Store.put l (min (s.get (dutyField l)) 0x10000 * (s.cpact / 2) / 0x10000) s.pwm.cmp } }) s

/-- A die whose settings wait for a peak (R399). -/
def State.peakLoad (n : Nat) (s : State) : State := if (s.die n).load then s.dieTransfer n else s

/-- The bridge takes up its references (R410), and dies that can switch again take up the pattern. -/
def State.follow (s : State) : State :=
  if !s.is R.GDRV_PWM_CTL_BEN || s.dark 1 then s
  else if !s.pwm.follow then
    State.forAll [0, 1, 2] (fun l s => s.legSwitch l (s.legRef l)) { s with pwm := { s.pwm with follow := true } }
  else
    State.forAll [0, 1, 2]
      (fun l s =>
        let d := if s.legRef l then 2 * l else 2 * l + 1
        if s.is R.GD_STAT_ON d || s.edgeSent d || (Store.find l s.pwm.dead).isSome || s.pwm.skip.contains l then s
        else s.dieCmd d .on) s

/-- CARRIER_PEAK (R405, R406, R408, R410, R411; 16, R421; 18, R469). -/
def opCarrierPeak (s : State) : State :=
  if !s.carrier then s
  else
    let s := s.advance (s.nextPos (s.cpact / 2))
    let s := match s.pwm.cpNext with
      | some c => { s with pwm := { s.pwm with cpNext := none } }.put R.GDRV_CPACT_CP c
      | none => s
    let s := { s with pwm := { s.pwm with dt := s.get R.GDRV_DT_DT, minpw := s.get R.GDRV_DT_MINPW, chmode := s.get R.DLNK_CTL_CHMODE } }
    let s := State.forAll (List.range 8) State.peakLoad s.loadCompare
    let s := State.forAll (List.range 5) (fun l s => s.setRef l (s.refNow l s.now)) s
    let s := if s.is R.GDRV_AUXCTL_MODE && !s.dark 0 && s.legRef 3 && !s.is R.GD_STAT_ON 7 && !s.edgeSent 7 then s.dieCmd 7 .on else s
    let s := if s.get R.SADC_OCSTAT_LATCH = 0 then { s with pwm := { s.pwm with ocHold := false } } else s
    (if s.is R.GDRV_PWM_CTL_BEN || !s.benAsked || s.get R.SADC_OCSTAT_LATCH != 0 || s.is R.LIFE_STAT_BLOCK then s else s.benFollow).follow.chop

/-- The chopper's cap in ns of conduction per period, if a fraction applies (16, R422). -/
def State.chopCap (s : State) : Option Nat :=
  let a := if s.is R.EXC_STAT_CPEN && !s.dark 2 then [s.get R.EXC_PEN_CHOPMAX] else []
  let b := if s.is R.DLNK_STAT_THL then [s.get R.DLNK_BRCAP_LIMCAP] else []
  (a ++ b).min?.map fun f => f * s.cpact / 256 * 10

/-- CARRIER_VALLEY: a carrier period begins; the cap's count starts anew, and a cap of no conduction is reached at once (16, R422). -/
def opCarrierValley (s : State) : State :=
  if !s.carrier then s
  else
    let s := (s.advance (s.nextPos 0)).chopCount
    ({ s with dlnk := { s.dlnk with capNs := 0 } }.put R.DLNK_STAT_CAPPED (b2n (s.chopCap == some 0))).chop

/-- CHOPPER_CAP_REACHED (16, R422). -/
def opChopperCapReached (s : State) : State :=
  match s.chopCap with
  | some c =>
    if !s.carrier then s
    else
      let s := match s.dlnk.onSince with
        | some t => (s.advanceReal (t + (c - s.dlnk.capNs))).chopCount
        | none => s
      if c ≤ s.dlnk.capNs then (s.put R.DLNK_STAT_CAPPED 1).chop else s
  | none => s

/-! ## Register writes of the PWM block (15, R399, R405, R408-R410) -/

/-- GDRV_LOAD (R399): at the next peak for the dies on the carrier, else at once. -/
def opGdrvLoad (n : Nat) (s : State) : State :=
  let onCarrier := n < 6 || (n == 6 && s.is R.DLNK_CTL_CHMODE) || (n == 7 && s.is R.GDRV_AUXCTL_MODE)
  if s.carrier && onCarrier then s.upDie n fun d => { d with load := true } else s.dieTransfer n

/-- A carrier period that R405 accepts. -/
def State.cpOk (s : State) (v : Nat) : Bool := v % 2 == 0 && decide (1000 ≤ v) && decide (v ≤ 200000) && s.period % v == 0

/-- A carrier period is taken up: at the next peak while the carrier runs. -/
def State.takeCp (v : Nat) (s : State) : State :=
  if s.carrier then { s with pwm := { s.pwm with cpNext := some v } } else s.put R.GDRV_CPACT_CP v

/-- GDRV_CP_WRITE (R405). -/
def opGdrvCpWrite (v : Nat) (s : State) : State :=
  let v := v % 2 ^ 18
  if s.inRun || !s.cpOk v then s.put R.GDRV_STAT_CPERR 1 else (s.put R.GDRV_CP_CP v).takeCp v

/-- GDRV_DT_WRITE (R408): a reserved DT keeps its field. -/
def opGdrvDtWrite (v : Nat) (s : State) : State :=
  let d := bits v 0 9
  let s := s.put R.GDRV_DT_MINPW (bits v 16 8)
  if 5 ≤ d ∧ d ≤ 500 then s.put R.GDRV_DT_DT d else s

/-- GDRV_BIND_WRITE (R409): in Hold only. -/
def opGdrvBindWrite (k v : Nat) (s : State) : State :=
  if s.inRun then s.put R.GDRV_STAT_BINDREF 1
  else
    let s := if k = 3 then s.put R.GDRV_BIND3_BIT v else s.put R.GDRV_BIND_WORD v k
    s.put R.GDRV_BIND_EN (bits v 15 1) k

/-- GDRV_DUTY_WRITE (R406, R409): leg U, V, W or GD7. -/
def opGdrvDutyWrite (k v : Nat) (s : State) : State :=
  if (s.dutyBound k).isSome then s.put R.GDRV_STAT_BINDREF 1
  else
    let s := if 0x10000 < v % 2 ^ 17 then s.put R.GDRV_STAT_DUTYSAT 1 else s
    s.put (dutyField k) v

/-- SVBEN_WRITE (R409, R410). -/
def opSvbenWrite (v : Bool) (s : State) : State :=
  if s.is R.GDRV_BIND_EN 3 then s.put R.GDRV_STAT_BINDREF 1
  else
    let s := s.put R.GDRV_PWM_CTL_SVBEN (b2n v)
    s.benFollow

/-- `GDRV.AUXCTL.MODE` is written (R412). -/
def State.auxMode (v : Bool) (s : State) : State :=
  let s := s.put R.GDRV_AUXCTL_MODE (b2n v)
  if !v then s.dieCmd 7 .off else if s.legRef 3 && !s.dark 0 then s.dieCmd 7 .on else s

/-- DLNK_CHBIND_WRITE (16, R421). -/
def opDlnkChbindWrite (v : Nat) (s : State) : State :=
  if s.inRun then s.put R.DLNK_STAT_BINDREF 1 else (s.put R.DLNK_CHBIND_WORD v).put R.DLNK_CHBIND_EN (bits v 15 1)

/-- `DLNK.CHDUTY` is written: ignored while bound (16, R421). -/
def State.chDuty (v : Nat) (s : State) : State :=
  if s.is R.DLNK_CHBIND_EN then s.put R.DLNK_STAT_BINDREF 1
  else
    let s := if 0x10000 < v % 2 ^ 17 then s.put R.GDRV_STAT_DUTYSAT 1 else s
    s.put R.DLNK_CHDUTY_D v

/-! ## DC-link comparators (16, R416-R424) -/

/-- H (R420, R431): during a Roll of ON, TRIP sets it and takes ON's place in clearing it. -/
def State.hysteresis (s : State) : State :=
  let on := if s.rolling 0x10 then s.is R.DLNK_STAT_CMPTRIP else s.is R.DLNK_STAT_CMPON
  if on then s.put R.DLNK_STAT_HYS 1 else if !s.is R.DLNK_STAT_CMPOFF then s.put R.DLNK_STAT_HYS 0 else s

/-- The filtered outputs take new values (R416, R420, R424). -/
def State.cmpApply (on off trip : Bool) (s : State) : State :=
  let rise := trip && !s.is R.DLNK_STAT_CMPTRIP
  let s := (((s.put R.DLNK_STAT_CMPON (b2n on)).put R.DLNK_STAT_CMPOFF (b2n off)).put R.DLNK_STAT_CMPTRIP (b2n trip)).hysteresis
  let s := if rise && s.is R.DLNK_CTL_TRIPEN then
      (((s.put R.DLNK_STAT_TRIPL 1).bump R.DLNK_CNT_TRIPS).raise 177 0).umbraEnter 1 4
    else s
  s.chop

/-- The ON threshold in force (R415): `THON`, or AO4's code from the string tap 50 ns after each latch (19, R483). -/
def State.onCode (s : State) : Nat :=
  if !s.is R.DLNK_CTL_ONSRC then s.get R.DLNK_THON_K
  else s.aoCodeAt 4 (s.time.real - 50)

/-- Output of a comparator with threshold code `k` and hysteresis `h` at a voltage, in units of which a code is 1000: for the DC link 2.5 V / 4 096 000,
so that the 10 mV of hysteresis are 16 384 (R415, R416). -/
def cmpLevel (was : Bool) (h k v : Nat) : Bool := decide (1000 * k < v) || (was && decide (1000 * k < v + h))

/-- DLNK_COMPARATOR_CHANGE (R416, R417): the voltages of the sense pin that have stood for FILT × 10 ns at the inputs of the ON, OFF and TRIP
comparators; the comparator under Roll acts when its Roll ends (R431). -/
def opDlnkComparatorChange (von voff vtrip : Nat) (s : State) : State :=
  if s.pwr.linkLost || s.phase != .up then s
  else
  let on := cmpLevel (s.is R.DLNK_STAT_CMPON) 16384 s.onCode von
  let off := cmpLevel (s.is R.DLNK_STAT_CMPOFF) 16384 (s.get R.DLNK_THOFF_K) voff
  let trip := cmpLevel (s.is R.DLNK_STAT_CMPTRIP) 16384 (s.get R.DLNK_THTRIP_K) vtrip
  match s.dlnk.roll with
  | some r =>
    let c := r.comp
    let s := if 0x10 ≤ c ∧ c ≤ 0x12 then { s with dlnk := { s.dlnk with roll := some { r with cmp := some (on, off, trip) } } } else s
    s.cmpApply (if c = 0x10 then s.is R.DLNK_STAT_CMPON else on) (if c = 0x11 then s.is R.DLNK_STAT_CMPOFF else off)
      (if c = 0x12 then s.is R.DLNK_STAT_CMPTRIP else trip)
  | none => s.cmpApply on off trip

/-- The undervoltage condition, from a valid AI03 sample of 24-bit data (R418), whose window ended at `te`: it is complete 100 ns later (18, R459). -/
def State.dlnkSample (v te : Nat) (s : State) : State :=
  let x := toSigned 24 v
  let th := toSigned 24 (s.get R.DLNK_UV_TH)
  let s := { s with dlnk := { s.dlnk with ai03 := (v, te + 100) :: s.dlnk.ai03.take 1 } }
  let uv := if x < th then true else if th + toSigned 24 (s.get R.DLNK_UVHYS_H) ≤ x then false else s.is R.DLNK_STAT_UV
  (s.put R.DLNK_STAT_UV (b2n uv)).level 178 uv 0

/-! ## Brake-resistor thermal model (16, R425, R426) -/

/-- n / d in binary32. -/
def f32Ratio (n d : Nat) : Nat := fdiv b32 (fofInt b32 n) (fofInt b32 d)

/-- The latest valid AI03 sample that is complete (R425; 18, R459, R467). -/
def State.linkData (s : State) : Option Nat := (s.dlnk.ai03.find? fun p => decide (p.2 ≤ s.now)).map Prod.fst

/-- θ after one tick. -/
def State.thetaNext (s : State) : Nat :=
  let m := fmul b32
  let v := match s.linkData with | some x => m (fofInt b32 (toSigned 24 x)) (s.get R.DLNK_KV_V) | none => 0
  let t := f32Ratio (10 * s.period) 1000000000
  let r := f32Ratio (s.get R.DLNK_BRES_MOHM) 1000
  let rth := f32Ratio (s.get R.DLNK_BRTH_MKW) 1000
  let tau := f32Ratio (s.get R.DLNK_BRTAU_MS) 1000
  let p := fdiv b32 (m (m v v) (f32Ratio (10 * s.get R.DLNK_CHONT_T) 1000000000)) (m r t)
  let th := fadd b32 s.dlnk.theta (fdiv b32 (m (fsub b32 (m p rth) s.dlnk.theta) t) tau)
  if flt b32 th 0 then 0 else th

/-- θ in mK, rounded down. -/
def thetaMk (th : Nat) : Nat := (toIntF b64 33 3 (fmul b64 (convF b32 b64 0 th).1 (fofInt b64 1000))).1

/-- The conditions of R426. -/
def State.thermalLevels (s : State) : State :=
  let th := s.dlnk.theta
  let hys := s.get R.DLNK_BRCAP_HYS
  let cond (lim : Nat) (was : Bool) : Bool :=
    if fle b32 (fofInt b32 lim) th then true else if flt b32 th (fofInt b32 ((lim : Int) - hys)) then false else was
  let w := cond (s.get R.DLNK_BRLIM_WARN) (s.is R.DLNK_STAT_THW)
  let l := cond (s.get R.DLNK_BRLIM_LIM) (s.is R.DLNK_STAT_THL)
  let enter := l && !s.is R.DLNK_STAT_THL
  let s := ((s.put R.DLNK_STAT_THW (b2n w)).put R.DLNK_STAT_THL (b2n l)).level 179 w 0
  let s := { s with exc := { s.exc with cTherm := w } }
  if enter then s.warn 7 179 else s

/-- THERMAL_MODEL_UPDATE at a tick (R425), with the on time of the turn that ends (R423); at the first tick none does. -/
def State.dlnkTick (s : State) : State :=
  let s := s.chopCount
  let s := if s.dlnk.ticked then s.put R.DLNK_CHONT_T (s.dlnk.turnNs / 10) else s
  let s := { s with dlnk := { s.dlnk with turnNs := 0, ticked := true } }
  if s.get R.DLNK_BRTAU_MS = 0 ∨ s.get R.DLNK_BRES_MOHM = 0 then s
  else
    let th := s.thetaNext
    ({ s with dlnk := { s.dlnk with theta := th } }.put R.DLNK_BRTEMP_MK (thetaMk th)).thermalLevels

/-- SV writes `DLNK.BRTEMP` (R425). -/
def State.setTheta (mk : Nat) (s : State) : State :=
  ({ s with dlnk := { s.dlnk with theta := f32Ratio mk 1000 } }.put R.DLNK_BRTEMP_MK mk).thermalLevels

def execGateEdgeCommand (n : Fin 8) (s : State) : Host.Outcome State Fault Refusal := .next (opGateEdgeCommand n s)
def execPhaseAEnd (n : Fin 8) (s : State) : Host.Outcome State Fault Refusal := .next (opPhaseAEnd n s)
def execPlateauExit (n : Fin 8) (t : Nat) (s : State) : Host.Outcome State Fault Refusal := .next (opPlateauExit n t s)
def execPlateauTimeout (n : Fin 8) (s : State) : Host.Outcome State Fault Refusal := .next (opPlateauTimeout n s)
def execMillerClampEngage (n : Fin 8) (s : State) : Host.Outcome State Fault Refusal := .next (opMillerClampEngage n s)
def execDesaturation (n : Fin 8) (s : State) : Host.Outcome State Fault Refusal := .next (opDesaturation n s)
def execUvloEntry (n : Fin 8) (vddg : Bool) (s : State) : Host.Outcome State Fault Refusal := .next (opUvloEntry n vddg s)
def execUvloExit (n : Fin 8) (vddg : Bool) (s : State) : Host.Outcome State Fault Refusal := .next (opUvloExit n vddg s)
def execDieChannelLoss (n : Fin 8) (s : State) : Host.Outcome State Fault Refusal := .next (opDieChannelLoss n s)
def execCoreChannelLoss (n : Fin 8) (s : State) : Host.Outcome State Fault Refusal := .next (opCoreChannelLoss n s)
def execDriveChannelReturn (n : Fin 8) (s : State) : Host.Outcome State Fault Refusal := .next (opDriveChannelReturn n s)
def execDieConfigTransferComplete (n : Fin 8) (s : State) : Host.Outcome State Fault Refusal := .next (opDieConfigTransferComplete n s)
def execGdrvEnWrite (n : Fin 8) (en : Bool) (s : State) : Host.Outcome State Fault Refusal := .next (opGdrvEnWrite n en s)
def execGdrvLoad (n : Fin 8) (s : State) : Host.Outcome State Fault Refusal := .next (opGdrvLoad n s)
def execGdrvFclr (n : Fin 8) (s : State) : Host.Outcome State Fault Refusal := .next (opGdrvFclr n s)
def execActiveShort (s : State) : Host.Outcome State Fault Refusal := .next (opActiveShort s)
def execCarrierPeak (s : State) : Host.Outcome State Fault Refusal := .next (opCarrierPeak s)
def execCarrierValley (s : State) : Host.Outcome State Fault Refusal := .next (opCarrierValley s)
def execLegReferenceChange (l : Fin 5) (t : Nat) (s : State) : Host.Outcome State Fault Refusal := .next (opLegReferenceChange l t s)
def execDeadTimeExpiry (l : Fin 3) (s : State) : Host.Outcome State Fault Refusal := .next (opDeadTimeExpiry l s)
def execGdrvCpWrite (v : Word) (s : State) : Host.Outcome State Fault Refusal := .next (opGdrvCpWrite v.toNat s)
def execGdrvDtWrite (v : Word) (s : State) : Host.Outcome State Fault Refusal := .next (opGdrvDtWrite v.toNat s)
def execGdrvBindWrite (k : Fin 5) (v : Word) (s : State) : Host.Outcome State Fault Refusal := .next (opGdrvBindWrite k v.toNat s)
def execGdrvDutyWrite (k : Fin 4) (v : Word) (s : State) : Host.Outcome State Fault Refusal := .next (opGdrvDutyWrite k v.toNat s)
def execSvbenWrite (en : Bool) (s : State) : Host.Outcome State Fault Refusal := .next (opSvbenWrite en s)
def execDlnkComparatorChange (von voff vtrip : Nat) (s : State) : Host.Outcome State Fault Refusal :=
  .next (opDlnkComparatorChange von voff vtrip s)
def execChopperCapReached (s : State) : Host.Outcome State Fault Refusal := .next (opChopperCapReached s)
def execDlnkChbindWrite (v : Word) (s : State) : Host.Outcome State Fault Refusal := .next (opDlnkChbindWrite v.toNat s)

end Sys2Proof.Machine
end

