-- ==== Sys2Proof/Machine/Analog.lean ====
section
/-! DEFINITION. Machine/Analog.lean: analogue outputs and the waveform engine (19): sources, latches, arming, samples and stops. -/

namespace Sys2Proof.Machine

/-! ## Sources and codes (R475, R477) -/

/-- A write of `AOUT.CHn_CFG` that only Hold accepts (R477): it sets SRC to 0b01 or changes it from that, or gives WORD another value (log entry
182). -/
def State.srcRefused (s : State) (n src word : Nat) : Bool :=
  s.inRun && (src == 1 || s.get R.AOUT_CH_CFG_SRC n == 1 || word != s.get R.AOUT_CH_CFG_WORD n)

/-- AOUT_SRC_WRITE (R477). -/
def opAoutSrcWrite (n v : Nat) (s : State) : State :=
  let src := bits v 0 2
  let word := bits v 16 12
  if s.srcRefused n src word then s.put R.AOUT_STAT_CFGERR 1
  else ((s.put R.AOUT_CH_CFG_SRC src n).put R.AOUT_CH_CFG_WORD word n).aoRefresh n

/-- AOUT_CODE_WRITE (R475, R477, R480). -/
def opAoutCodeWrite (n v : Nat) (s : State) : State :=
  let c := if n < 4 then v % 65536 else v % 4096
  let s := s.put R.AOUT_CH_CODE_C c n
  if s.get R.AOUT_CH_CFG_SRC n = 2 then (s.aoFree n).aoRequest n c s.time.real else s.put R.AOUT_STAT_BINDREF 1

/-- `AOUT.CHn_FB` is written: a channel at fallback follows it at once. -/
def State.aoFb (n v : Nat) (s : State) : State :=
  (s.put R.AOUT_CH_FB_C (if n < 4 then v % 65536 else v % 4096) n).aoRefresh n

/-- DAC_LATCH (R474, R475): the waiting request is loaded when the minimum interval has passed. -/
def opDacLatch (n : Nat) (s : State) : State :=
  match (s.aoSt n).wait with
  | some c =>
    let s := s.advanceReal (s.aoSt n).due
    s.aoLatch n c s.time.real
  | none => s

/-- The image-sourced channels at a tick (R477, R480): the first commit of the owner ends the fallback. The latch is 300 ns after the tick. -/
def State.aoCommit (committed : List Nat) (n : Nat) (s : State) : State :=
  if s.get R.AOUT_CH_CFG_SRC n = 1 then
    let o := s.ownerW (s.get R.AOUT_CH_CFG_WORD n)
    let first := match o with | some t => committed.contains t | none => false
    let s := if first then s.aoFree n else s
    s.aoRequest n (aoCode n (s.qWord (s.get R.AOUT_CH_CFG_WORD n))) (s.time.real + 300)
  else s

/-- The code that an output pin drives; none while the pins are released and the pin is at high impedance (R481; 12, R290). -/
def State.aoPin (s : State) (n : Nat) : Option Nat := if s.released 0 then none else some (s.aoCodeAt n s.time.real)

/-! ## The waveform engine (R484-R488) -/

/-- The error with which ARM is refused (R486), if any. -/
def State.armErr (s : State) (k : Nat) : Option Nat :=
  let len := s.get R.WAVE_CH_LEN_L k
  if len = 0 ∨ 32768 < s.get R.WAVE_CH_START_S k + len then some 1
  else if s.get R.WAVE_CH_DIV_D k < (if k < 4 then 50 else 200) then some 2
  else if s.get R.WAVE_CH_CTL_TRIG k = 3 ∨ evReserved (s.get R.WAVE_CH_CTL_EVSRC k) then some 3
  else if s.get R.AOUT_CH_CFG_SRC k ≠ 3 then some 4
  else if s.aoFallback k then some 5
  else if s.get R.WAVE_CH_STAT_STATE k = 1 ∨ s.get R.WAVE_CH_STAT_STATE k = 2 then some 7
  else none

/-- WAVE_ARM (R485, R486). -/
def opWaveArm (k : Nat) (s : State) : State :=
  match s.armErr k with
  | some e => (s.put R.WAVE_CH_STAT_ERR e k).raise 216 k
  | none =>
    let s := (s.put R.WAVE_CH_STAT_STATE 1 k).upAo k fun a => { a with armed := true }
    if s.get R.WAVE_CH_CTL_TRIG k = 0 then s.waveTrigger k else s

/-- WAVE_STOP (R487). -/
def opWaveStop (k : Nat) (s : State) : State := s.waveStop k

/-- After sample `j` of a pass: the pass, the passes, or neither end (R484, R485, R487). -/
def State.wavePass (k : Nat) (s : State) : State :=
  let w := s.wv k
  if w.j + 1 < s.get R.WAVE_CH_LEN_L k then s.setWv k { w with j := w.j + 1 }
  else
    let n := s.get R.WAVE_CH_PASS_N k
    let s := s.put R.WAVE_CH_PASS_DONE (w.p + 1) k
    if n = 0 ∨ w.p + 1 < n then
      let s := s.setWv k { w with j := 0, p := w.p + 1 }
      if s.is R.WAVE_CH_CTL_LOOPEV k then s.raise (208 + k) 1 else s
    else
      let s := s.put R.WAVE_CH_STAT_STATE (if s.is R.WAVE_CH_CTL_REARM k then 1 else 3) k
      let s := if s.is R.WAVE_CH_CTL_REARM k then s.upAo k fun a => { a with armed := true } else s
      s.raise (208 + k) 0

/-- WAVE_SAMPLE (R484, R487). -/
def opWaveSample (k : Nat) (s : State) : State :=
  if s.get R.WAVE_CH_STAT_STATE k ≠ 2 then s
  else
    let s := s.advance (s.waveAt k)
    let i := s.waveIdx k
    let r := match (s.wv k).pre with | some x => (s.setWv k { s.wv k with pre := none }, x.1, x.2) | none => s.waveRead k
    if r.2.2 ≠ 0 then ((r.1.waveStop k).put R.WAVE_CH_STAT_ERR 6 k).raise 216 k
    else
      let s := r.1
      let s := if s.get R.AOUT_CH_CFG_SRC k = 3 then (if (s.aoSt k).armed then s.aoFree k else s).aoRequest k (aoCode k (leNat r.2.1)) s.time.real else s
      (s.put R.WAVE_CH_STAT_POS i k).wavePass k

def execAoutSrcWrite (n : Fin 8) (v : Word) (s : State) : Host.Outcome State Fault Refusal := .next (opAoutSrcWrite n v.toNat s)
def execAoutCodeWrite (n : Fin 8) (v : Word) (s : State) : Host.Outcome State Fault Refusal := .next (opAoutCodeWrite n v.toNat s)
def execDacLatch (n : Fin 8) (s : State) : Host.Outcome State Fault Refusal := .next (opDacLatch n s)
def execWaveArm (k : Fin 8) (s : State) : Host.Outcome State Fault Refusal := .next (opWaveArm k s)
def execWaveStop (k : Fin 8) (s : State) : Host.Outcome State Fault Refusal := .next (opWaveStop k s)
def execWaveSample (k : Fin 8) (s : State) : Host.Outcome State Fault Refusal := .next (opWaveSample k s)

end Sys2Proof.Machine
end

