-- ==== Sys2Proof/Machine/Field.lean ====
section
/-! DEFINITION. Machine/Field.lean: digital inputs and outputs, the common fault bit and the walk test (20). -/

namespace Sys2Proof.Machine

/-- The pins are released (12, R290); the flag is the same for every die. -/
def State.pinsReleased (s : State) : Bool := s.released 0

/-! ## Inputs (R490-R494) -/

/-- Edge selection of an input (R492). -/
def State.diEdge (s : State) (n : Nat) : Nat :=
  if n < 16 then bits (s.get R.DIO_DI_EDGE_LO_E) (2 * n) 2 else bits (s.get R.DIO_DI_EDGE_HI_E) (2 * (n - 16)) 2

/-- The edge counter of an input, two inputs to a register (R492). -/
def State.diCount (n : Nat) (s : State) : State :=
  if n % 2 = 0 then s.wrapUp R.DIO_ECNT_A (n / 2) else s.wrapUp R.DIO_ECNT_B (n / 2)

/-- The debounced state of an input changes: it is counted, and an edge that is selected raises its event (R492). -/
def State.diChange (n : Nat) (s : State) : State :=
  let v := !bit (s.get R.DIO_DI_STATE_S) n
  let s := ({ s with dio := { s.dio with cnt := Store.del n s.dio.cnt } }.putBit R.DIO_DI_STATE_S n v).diCount n
  if bit (s.diEdge n) (if v then 0 else 1) then s.raise (96 + n) (b2n v) else s

/-- Samples until the debounced state of an input changes, its level staying that of `raw`; none while it agrees (R491). -/
def State.diIn (s : State) (raw n : Nat) : Option Nat :=
  if bit raw n == bit (s.get R.DIO_DI_STATE_S) n then none else some (max 1 (s.get R.DIO_DB_US n - s.dio.cnt.getD n 0))

/-- `k` samples pass with the levels `raw`: a difference counts on, agreement starts anew (R491). -/
def State.diSamples (raw k : Nat) (s : State) : State :=
  { s with dio := { s.dio with seen := s.dio.seen + 1000 * k,
                               cnt := (List.range 32).foldl (fun t n =>
                                 if (s.diIn raw n).isSome then Store.put n (s.dio.cnt.getD n 0 + k) t else Store.del n t) s.dio.cnt } }

/-- `k` samples with the levels `raw`; each debounced change takes place at its own sample, those of one sample in ascending order (R491). -/
def State.diRun (raw : Nat) : Nat → Nat → State → State
  | 0, _, s => s
  | f + 1, k, s =>
    let j := ((List.range 32).filterMap fun n => s.diIn raw n).foldl min (k + 1)
    if k < j then s.diSamples raw k
    else
      let due := (List.range 32).filter fun n => s.diIn raw n == some j
      let s := s.diSamples raw j
      State.diRun raw f (k - j) (State.forAll due State.diChange (s.advance s.dio.seen))

/-- `k` samples with the levels `raw`, the last of which `DIO.DI_RAW` shows. -/
def State.diLevels (raw k : Nat) (s : State) : State := if k = 0 then s else (State.diRun raw 33 k s).put R.DIO_DI_RAW_S raw

/-- DI_DEBOUNCED_CHANGE (R491, R492): the inputs are sampled at every whole microsecond from the last sample up to farm time `t`; they keep the levels
of that sample until the pins take the levels `raw` at farm time `a`, and their debounced states change where that is due. -/
def opDiDebouncedChange (a t raw : Nat) (s : State) : State :=
  if s.pwr.linkLost || s.domGone 33 then { s.advance t with dio := { s.dio with seen := t / 1000 * 1000 } }
  else
    let k := min ((a - 1) / 1000) (t / 1000) - s.dio.seen / 1000
    ((s.diLevels (s.get R.DIO_DI_RAW_S) k).diLevels raw (t / 1000 - s.dio.seen / 1000 - k)).advance t

/-- The block has its supply: not in Off and in Standby (R503). -/
def State.dioLive (s : State) (op : State → State) : State := if s.phase == .up || s.phase == .starting then op s else s

/-- DI_TYPE_WRITE (R490). -/
def opDiTypeWrite (v : Nat) (s : State) : State := (s.put R.DIO_DI_TYPE_T v).wbForget

/-- `DIO.DI_WBEN` is written (R494). -/
def State.diWben (v : Nat) (s : State) : State := (s.put R.DIO_DI_WBEN_E v).wbForget

/-- WIRE_BREAK_CHANGE (R494): after 50 ms an input with active detection is found broken or whole. -/
def opWireBreakChange (n : Nat) (broken : Bool) (s : State) : State :=
  if bit s.wbActive n && !s.domGone 33 then { s with dio := { s.dio with broken := setBit s.dio.broken n broken } }.dioFault else s

/-- DIO_IBIND_WRITE (R493): in Hold only; a BYTE that is no multiple of 4 is reserved and keeps the field (00, R5). -/
def opDioIbindWrite (v : Nat) (s : State) : State :=
  if s.inRun then s.put R.DIO_STAT_CFGERR 1
  else
    let s := s.put R.DIO_IBIND_EN (bits v 0 1)
    if bits v 16 2 = 0 then s.put R.DIO_IBIND_BYTE (bits v 16 11) else s

/-! ## Outputs (R495-R502) -/

/-- DO_SOURCE_WRITE (R495): in Hold only. -/
def opDoSourceWrite (k v : Nat) (s : State) : State :=
  if s.inRun then s.put R.DIO_STAT_CFGERR 1
  else
    let s := s.put R.DIO_DO_CFG_BIT (bits v 0 14) k
    (if bits v 16 2 = 3 then s else s.put R.DIO_DO_CFG_SRC (bits v 16 2) k).doRefresh

/-- Outputs of an SV source. -/
def State.svOutputs (s : State) : Nat :=
  (List.range 16).foldl (fun m k => if s.get R.DIO_DO_CFG_SRC k = 2 then m + 2 ^ k else m) 0

/-- DO_SV_WRITE (R495, R501): a changed bit of an output with another source is reported; SV-sourced outputs leave their fallback. -/
def opDoSvWrite (v : Nat) (s : State) : State :=
  let sv := s.svOutputs
  let changed := (s.get R.DIO_DO_SV_L) ^^^ (v % 65536)
  let s := s.put R.DIO_DO_SV_L v
  let s := if changed &&& (65535 - sv) = 0 then s else s.put R.DIO_STAT_BINDREF 1
  { s with dio := { s.dio with hold := s.dio.hold &&& (65535 - sv) } }.doRefresh

/-- `DIO.DO_FB` is written. -/
def State.doFb (v : Nat) (s : State) : State := (s.put R.DIO_DO_FB_L v).doRefresh

/-- Image-sourced outputs at a commit (R495, R501): the first commit of the owner ends the fallback. -/
def State.doCommit (committed : List Nat) (s : State) : State :=
  let free := (List.range 16).foldl
    (fun m k => match s.ownerQ (s.get R.DIO_DO_CFG_BIT k / 8) with
      | some t => if s.get R.DIO_DO_CFG_SRC k = 1 ∧ committed.contains t then m + 2 ^ k else m
      | none => m) 0
  { s with dio := { s.dio with hold := s.dio.hold &&& (65535 - free) } }.doRefresh

/-- The switch of an output conducts (R497, R500, R502). -/
def State.doPin (s : State) (k : Nat) : Bool :=
  bit (s.get R.DIO_DO_STATE_CMD) k && !bit s.dio.ovl k && !bit s.dio.thm k && !s.dio.cutoff && !s.pinsReleased

/-- DO_OVERLOAD (R497): the current limit has acted for 500 µs. -/
def opDoOverload (k : Nat) (s : State) : State :=
  if s.doPin k && !s.domGone 34 then { s with dio := { s.dio with ovl := setBit s.dio.ovl k true } }.dioFault else s

/-- DO_THERMAL_SHUTDOWN (R497): the switch has reached 150 °C; no latch is set while the pins are released (R502). -/
def opDoThermalShutdown (k : Nat) (s : State) : State :=
  if s.pinsReleased || s.domGone 34 then s else { s with dio := { s.dio with thm := setBit s.dio.thm k true } }.dioFault

/-- DIO_CLR (R498): `hot` names the switches above 135 °C. Ignored during a walk (R506) and while the pins are released (R502). -/
def opDioClr (hot : Nat) (s : State) : State :=
  if !s.dio.walk.isEmpty || s.pinsReleased then s else s.dioClear hot

/-- `DIO.CTL` is written: a new AUTOCLR counts its seconds from there (R498; DESIGN CHOICE, log entry 187). -/
def State.dioCtl (v : Nat) (s : State) : State :=
  if bits v 8 8 = s.get R.DIO_CTL_AUTOCLR then s else { s.put R.DIO_CTL_AUTOCLR (bits v 8 8) with dio := { s.dio with clrAt := s.now } }

/-- DIO_AUTOCLR (R498): AUTOCLR seconds after the last one CLR is applied. -/
def opDioAutoclr (hot : Nat) (s : State) : State :=
  if s.get R.DIO_CTL_AUTOCLR = 0 then s
  else
    let s := opDioClr hot (s.advance (s.dio.clrAt + s.get R.DIO_CTL_AUTOCLR * 1000000000))
    { s with dio := { s.dio with clrAt := s.now } }

/-- VFLD_UNDERVOLTAGE (R500). -/
def opVfldUndervoltage (uv : Bool) (s : State) : State := if s.domGone 34 then s else ((s.put R.DIO_STAT_UV (b2n uv)).level 129 uv 0).dioFault

/-- VFLD_CUTOFF (R500). -/
def opVfldCutoff (off : Bool) (s : State) : State := { s with dio := { s.dio with cutoff := off } }

/-! ## The walk test (R504-R507) -/

def walkCode : WalkStep → Nat
  | .base => 0
  | .out k => 1 + k
  | .inp j => 17 + j

/-- A step begins: latches cleared, outputs and detection as the step says (R505). -/
def State.walkStart (hot : Nat) (s : State) : State :=
  match s.dio.walk with
  | [] => s
  | w :: _ =>
    let s := { s with dio := { s.dio with broken := 0, walkAt := s.now } }.put R.DIO_WALK_CUR (walkCode w)
    (s.doRefresh).dioClear hot

/-- The walk would be refused (R504). -/
def State.walkRefused (s : State) : Bool :=
  s.inRun || s.pinsReleased || !s.dio.walk.isEmpty || s.get R.DIO_WALK_DWELL == 0 || (s.get R.DIO_WALK_IMASK_M &&& (2 ^ 32 - 1 - s.get R.DIO_DI_TYPE_T)) != 0

/-- WALK_GO (R504, R505). -/
def opWalkGo (hot : Nat) (s : State) : State :=
  if s.walkRefused then s.put R.DIO_STAT_WALKERR 1
  else
    let steps := .base :: ((setBits 16 (s.get R.DIO_WALK_OMASK_M)).map .out ++ (setBits 32 (s.get R.DIO_WALK_IMASK_M)).map .inp)
    ({ s with dio := { s.dio with walk := steps } }.put R.DIO_WALK_STATE 1).walkStart hot

/-- WALK_ABORT (R506). -/
def opWalkAbort (s : State) : State := s.walkEnd 3

/-- WALK_STEP_END (R505). -/
def opWalkStepEnd (hot : Nat) (s : State) : State :=
  match s.dio.walk with
  | [] => s
  | w :: r =>
    let long := match w with | .inp _ => 60 | _ => 0
    let s := s.advance (s.dio.walkAt + (s.get R.DIO_WALK_DWELL + long) * 1000000)
    let f := s.is R.DIO_STAT_FAULT
    let s := match w with
      | .base => s.put R.DIO_WALK_BASE (b2n f)
      | .out k => (s.putBit R.DIO_WALK_ORES_R k f).raise 130 k
      | .inp j => s.putBit R.DIO_WALK_IRES_R j f
    if r.isEmpty then (s.walkEnd 2).dioClear hot else { s with dio := { s.dio with walk := r } }.walkStart hot

def execDiDebouncedChange (a t : Nat) (raw : Word) (s : State) : Host.Outcome State Fault Refusal :=
  .next (s.dioLive (opDiDebouncedChange a t raw.toNat))
def execDiTypeWrite (v : Word) (s : State) : Host.Outcome State Fault Refusal := .next (s.dioLive (opDiTypeWrite v.toNat))
def execWireBreakChange (n : Fin 32) (broken : Bool) (s : State) : Host.Outcome State Fault Refusal := .next (s.dioLive (opWireBreakChange n broken))
def execDioIbindWrite (v : Word) (s : State) : Host.Outcome State Fault Refusal := .next (s.dioLive (opDioIbindWrite v.toNat))
def execDoSourceWrite (k : Fin 16) (v : Word) (s : State) : Host.Outcome State Fault Refusal := .next (s.dioLive (opDoSourceWrite k v.toNat))
def execDoSvWrite (v : Word) (s : State) : Host.Outcome State Fault Refusal := .next (s.dioLive (opDoSvWrite v.toNat))
def execDoOverload (k : Fin 16) (s : State) : Host.Outcome State Fault Refusal := .next (s.dioLive (opDoOverload k))
def execDoThermalShutdown (k : Fin 16) (s : State) : Host.Outcome State Fault Refusal := .next (s.dioLive (opDoThermalShutdown k))
def execDioClr (hot : Nat) (s : State) : Host.Outcome State Fault Refusal := .next (s.dioLive (opDioClr hot))
def execDioAutoclr (hot : Nat) (s : State) : Host.Outcome State Fault Refusal := .next (s.dioLive (opDioAutoclr hot))
def execVfldUndervoltage (uv : Bool) (s : State) : Host.Outcome State Fault Refusal := .next (opVfldUndervoltage uv s)
def execVfldCutoff (off : Bool) (s : State) : Host.Outcome State Fault Refusal := .next (opVfldCutoff off s)
def execWalkGo (hot : Nat) (s : State) : Host.Outcome State Fault Refusal := .next (s.dioLive (opWalkGo hot))
def execWalkAbort (s : State) : Host.Outcome State Fault Refusal := .next (opWalkAbort s)
def execWalkStepEnd (hot : Nat) (s : State) : Host.Outcome State Fault Refusal := .next (opWalkStepEnd hot s)

end Sys2Proof.Machine
end

