-- ==== Sys2Proof/Machine/Life.lean ====
section
/-! DEFINITION. Machine/Life.lean: the brick link, the identity record, junction temperatures, rainflow counting, damage, write-back and
derating (17). -/

namespace Sys2Proof.Machine

/-! ## Numbers -/

/-- n / d in binary64. -/
def f64Ratio (n d : Int) : Nat := fdiv b64 (fofInt b64 n) (fofInt b64 d)
def fabs (f : FFmt) (x : Nat) : Nat := x % 2 ^ (f.mw + f.ew)
def fneg (f : FFmt) (x : Nat) : Nat := if x < 2 ^ (f.mw + f.ew) then x + 2 ^ (f.mw + f.ew) else x - 2 ^ (f.mw + f.ew)
/-- binary32 to binary64. -/
def widen (x : Nat) : Nat := (convF b32 b64 0 x).1
def fmax64 (x y : Nat) : Nat := if flt b64 x y then y else x

/-! ## The record (R437-R441) -/

def State.idAt (s : State) (o n : Nat) : Nat := leAt s.brick.id o n
/-- Calibration of a switch: V25, S25, TCV, TCS (R437). -/
def State.cal (s : State) (k i : Nat) : Nat := s.idAt (0x40 + 16 * k + 4 * i) 4

/-- The identity part is valid (R437). -/
def idValid (d : List Byte) : Bool :=
  d.take 4 == [0x59#8, 0x52#8, 0x42#8, 0x4B#8] && leAt d 4 1 == 1 && leAt d 0xFC 4 == crc32 (d.take 0xFC) && flt b32 (leAt d 0xA0 4) (leAt d 0xA4 4)

/-- Life copy `c` of a read, valid (R438). -/
def copyValid (d : List Byte) (c : Nat) : Bool :=
  let o := 0x100 + 0x60 * c
  leAt d (o + 0x5C) 4 == crc32 (slice d o 0x5C) && leAt d o 4 == leAt d 0xFC 4

def copyCount (d : List Byte) (c : Nat) : Nat := leAt d (0x104 + 0x60 * c) 4

/-- The newer valid copy; of equal counters copy 0 (R438). -/
def newerCopy (d : List Byte) : Option Nat :=
  match copyValid d 0, copyValid d 1 with
  | true, true => some (if copyCount d 0 < copyCount d 1 then 1 else 0)
  | true, false => some 0
  | false, true => some 1
  | false, false => none

/-- The fail note is valid for a counter (R439). -/
def noteValid (d : List Byte) (cnt : Nat) : Bool :=
  leAt d 0x1CC 4 == crc32 (slice d 0xFC 4 ++ slice d 0x1C0 12) && leAt d 0x1C0 4 == cnt + 1

/-- D: the largest D_s (R440). -/
def State.lifeD (s : State) : Nat := s.brick.ds.foldl fmax64 0

/-- A valid record with known life is held. -/
def State.lifeKnown (s : State) : Bool := s.is R.BRICK_STAT_IDVALID && !s.is R.LIFE_STAT_NOREC

/-- D and D_s as the registers show them. -/
def State.lifeRegs (s : State) : State :=
  State.forAll (List.range 6) (fun k s => s.put R.LIFE_DS_LO_V (s.brick.ds.getD k 0) k) (s.put R.LIFE_D_LO_V s.lifeD)

/-! ## Derating (R452, R453) -/

def dGe (d : Nat) (n : Int) : Bool := fle b64 (f64Ratio n 100) d

/-- `LIFE.STAT.BLOCK` (R453). -/
def State.lifeBlock (s : State) : State :=
  s.put R.LIFE_STAT_BLOCK (b2n ((s.is R.LIFE_STAT_EOL && !s.brick.ovB) || (!s.lifeKnown && !s.brick.ovC)))

/-- No valid identity is held, so a write of an override is refused (R456); the dictionary load of start-up is no such write. -/
def State.noBrickYet (s : State) : Bool := s.phase == .up && !s.is R.BRICK_STAT_IDVALID

/-- ⌊D × 1000⌋, saturated (R454). -/
def lifePayload (d : Nat) : Nat := min 65535 (toIntF b64 33 3 (fmul b64 d (fofInt b64 1000))).1

/-- A life notice goes to every session on FP0 and to every other with a trigger mask that is not 0 (R454). -/
def State.lifeNote (k pay : Nat) (s : State) : State :=
  { s with sess := s.sess.map fun x =>
      if x.2.port = 0 ∨ x.2.trigs ≠ 0 then (x.1, { x.2 with notes := noteAdd 1 k pay s.now x.2.notes }) else x }

/-- One derating bit follows D; a crossing is logged, and noticed where the rule asks (R452, R454). -/
def State.lifeCross (f : Fam) (n : Int) (src : Option Nat) (s : State) : State :=
  let v := s.lifeKnown && dGe s.lifeD n
  if s.is f == v then s
  else
    let s := (s.put f (b2n v)).warn 7 n.toNat
    match src with
    | some k => if v then s.lifeNote k (lifePayload s.lifeD) else s
    | none => s

/-- The derating states follow D; the bridge's Penumbra cause is judged at ticks (R452). -/
def State.derate (s : State) : State :=
  let s := ((s.lifeCross R.LIFE_STAT_PEN 80 none).lifeCross R.LIFE_STAT_N95 95 (some 17)).lifeCross R.LIFE_STAT_EOL 100 (some 18)
  { s with exc := { s.exc with bLife := s.is R.LIFE_STAT_PEN } }.lifeBlock

/-! ## The kept record P32.0012 (R440, R448, R456) -/

def State.serial (s : State) : List Byte := slice s.brick.id 8 16

/-- The store of P32.0012 is entered into the Keep write queue. -/
def State.lifeStore (s : State) : State :=
  let k := s.serial ++ leBytes 4 (s.get R.BRICK_WCNT_N) ++ leBytes 4 0 ++ s.brick.ds.flatMap (leBytes 8)
  ({ s with brick := { s.brick with kept := k } }.keepWait false 0x320012 1 k)

/-- Both overrides are cleared and stored (R451). -/
def State.clearOverrides (s : State) : State :=
  let s := { s with brick := { s.brick with ovB := false, ovC := false } }
  (s.keepWait false 0x32000B 1 [0#8]).keepWait false 0x32000C 1 [0#8]

/-! ## Counting (R444-R447) -/

/-- Boltzmann's constant in eV/K, and 273.15 K (R446). -/
def kBoltz : Nat := f64Ratio 8617333262 100000000000000
def kelvin0 : Nat := f64Ratio 27315 100

/-- Damage of a cycle between two temperatures; `half` counts 0.5 (R446). -/
def State.cycleDamage (s : State) (a b : Nat) (half : Bool) : Nat :=
  let x := widen a
  let y := widen b
  let dT := fabs b64 (fsub b64 x y)
  let n := if half then f64Ratio 1 2 else fofInt b64 1
  if flt b64 dT (widen (s.idAt 0xC0 4)) then 0
  else
    let tm := fdiv b64 (fadd b64 x y) (fofInt b64 2)
    let w := (Config.exp64 (BitVec.ofNat 64 (fdiv b64 (s.idAt 0xB8 8) (fmul b64 kBoltz (fadd b64 tm kelvin0))))).toNat
    let p := (Config.pow64 (BitVec.ofNat 64 dT) (BitVec.ofNat 64 (fneg b64 (s.idAt 0xB0 8)))).toNat
    let nf := fmul b64 (fmul b64 (s.idAt 0xA8 8) p) w
    if fle b64 nf (fofInt b64 1) then n else fdiv b64 n nf

/-- Count a cycle on switch `k`. -/
def State.countCycle (k a b : Nat) (half : Bool) (s : State) : State :=
  let d := fadd b64 (s.brick.ds.getD k 0) (s.cycleDamage a b half)
  { s with brick := { s.brick with ds := s.brick.ds.set k d } }

/-- The three-point rule on a stack, newest first: full cycles found and the stack left (R445). -/
def rainflow : Nat → List Nat → List (Nat × Nat) × List Nat
  | 0, l => ([], l)
  | n + 1, p0 :: p1 :: p2 :: r =>
    let x := fabs b64 (fsub b64 (widen p0) (widen p1))
    let y := fabs b64 (fsub b64 (widen p1) (widen p2))
    if flt b64 x y || r.isEmpty then ([], p0 :: p1 :: p2 :: r)
    else
      let q := rainflow n (p0 :: r)
      ((p2, p1) :: q.1, q.2)
  | _ + 1, l => ([], l)

/-- A reversal enters the residue of switch `k` (R445). -/
def State.reversal (k p : Nat) (s : State) : State :=
  let l := s.brick.res.getD k []
  let s := if 64 ≤ l.length then (match l.reverse with | a :: b :: _ => s.countCycle k a b true | _ => s) else s
  let l := if 64 ≤ l.length then l.dropLast else l
  let r := rainflow 64 (p :: l)
  let s := { s with brick := { s.brick with res := Store.put k r.2 s.brick.res } }
  State.forAll r.1 (fun c s => (s.countCycle k c.1 c.2 false).wrapUp R.LIFE_CYC_N) s

/-- A point passes the reversal detector of switch `k` (R444). -/
def State.lifePoint (k p : Nat) (s : State) : State :=
  let g := s.idAt 0xC0 4
  let up (a b : Nat) : Bool := fle b32 g (fsub b32 a b)
  let put (d : Nat × Nat × Nat) (s : State) : State := { s with brick := { s.brick with det := Store.put k d s.brick.det } }
  match Store.find k s.brick.det with
  | none => (put (p, p, 0) s).reversal k p
  | some (r, e, u) =>
    if u = 0 then (if up p r then put (r, p, 1) s else if up r p then put (r, p, 2) s else s)
    else if u = 1 then
      (if flt b32 e p then put (r, p, 1) s else if up e p then (put (e, p, 2) s).reversal k e else s)
    else
      (if flt b32 p e then put (r, p, 2) s else if up p e then (put (e, p, 1) s).reversal k e else s)

/-- Counting runs (R447): on a simplex unit and on a Lead. -/
def State.counting (s : State) : Bool := s.is R.LIFE_CTL_EN && s.lifeKnown && decide (s.get R.RFL_STAT_ROLE ≤ 1) && s.phase == .up

/-- Adjacent pairs of a list. -/
def pairs : List Nat → List (Nat × Nat)
  | a :: b :: r => (a, b) :: pairs (b :: r)
  | _ => []

/-- A flush: every adjacent pair is a half cycle, and the residues are empty (R447). -/
def State.flush (s : State) : State :=
  if s.lifeKnown && decide (s.get R.RFL_STAT_ROLE ≤ 1) then
    let s := State.forAll (List.range 6)
      (fun k s => State.forAll (pairs (s.brick.res.getD k []).reverse) (fun p s => s.countCycle k p.1 p.2 true) s) s
    { s with brick := { s.brick with res := [], det := [] } }.lifeRegs
  else s

/-! ## Junction temperature (R442, R443) -/

/-- A valid or invalid sample word of AI00-AI11 reaches LIFE: completion `te + 100`, window from `t0` (R442, 18 R467). -/
def State.lifeCurrent (n data te : Nat) (s : State) : State :=
  { s with brick := { s.brick with cur := Store.put n ((data, te + 100) :: (s.brick.cur.getD n []).take 1) s.brick.cur } }

/-- The estimate of switch `k` from on-state data and current data, if it is accepted (R442). -/
def State.estimate (s : State) (k data cur : Nat) : Option Nat :=
  let m := fmul b32
  let ki := s.get R.LIFE_KI_K
  let signedI := m (fofInt b32 (toSigned 24 cur)) ki
  let i := fabs b32 signedI
  let v := m (fofInt b32 (toSigned 24 data)) (s.get R.LIFE_KV_K)
  let lo := s.idAt 0xA0 4
  let inWin := (if k % 2 = 0 then fle b32 lo signedI else fle b32 signedI (fneg b32 lo)) && fle b32 i (s.idAt 0xA4 4)
  let den := fadd b32 (s.cal k 2) (m (s.cal k 3) i)
  let t := fadd b32 (fofInt b32 25) (fdiv b32 (fsub b32 (fsub b32 v (s.cal k 0)) (m (s.cal k 1) i)) den)
  if inWin && !flt b32 (fabs b32 den) (f32Ratio 5 10000) && fle b32 (fofInt b32 (-40)) t && fle b32 t (fofInt b32 250) then some t else none

/-- A valid sample of AI(04 + k) whose window ran from `t0` to `te` (R442); it completes 100 ns later, and Phase C must last until then
(`State.lifeCut`). -/
def State.lifeOnState (k data t0 te : Nat) (s : State) : State :=
  let conducting := s.is R.GD_STAT_ON k && s.get R.GD_STAT_PHASE k == 3 && (s.die k).edge == .on &&
    decide ((s.die k).cAt + 10 * s.get R.LIFE_CTL_SETTLE ≤ t0)
  let cur := (s.brick.cur.getD (k / 2) []).find? fun p => decide (p.2 ≤ te)
  match cur with
  | some (c, t) =>
    if conducting && s.is R.BRICK_STAT_IDVALID && decide (t0 ≤ t) then
      match s.estimate k data c with
      | some x => { s with brick := { s.brick with est := Store.put k (s.brick.est.getD k [] ++ [(x, te + 100)]) s.brick.est } }
      | none => s
    else s
  | none => s

/-- A sample word of the ADC: data, validity, window (18, R467). -/
def State.lifeSample (n data t0 te : Nat) (s : State) : State :=
  if n < 3 then s.lifeCurrent n data te
  else if 4 ≤ n ∧ n ≤ 9 then s.lifeOnState (n - 4) data t0 te
  else if n = 10 ∨ n = 11 then
    { s with brick := { s.brick with ntc := Store.put (n - 10) ((data, te + 100) :: (s.brick.ntc.getD (n - 10) []).take 1) s.brick.ntc } }
  else s

/-- NTC temperature (R443). -/
def State.ntcTemp (s : State) (data : Nat) : Nat :=
  let m := fmul b32
  let x := fdiv b32 (fofInt b32 (toSigned 24 data)) (fofInt b32 8388608)
  let c (i : Nat) := s.get R.LIFE_NTCC_C i
  fadd b32 (fadd b32 (fadd b32 (c 0) (m (c 1) x)) (m (c 2) (m x x))) (m (c 3) (m (m x x) x))

/-- Tj of switch `k` for the turn that ends at a tick at `t` (R443). -/
def State.turnTj (s : State) (k t : Nat) : Option Nat :=
  let l := ((s.brick.est.getD k []).filter fun p => decide (p.2 ≤ t)).map Prod.fst
  match l with
  | [] => ((s.brick.ntc.getD (bits (s.get R.LIFE_NTCMAP_M) k 1) []).find? fun p => decide (p.2 ≤ t)).map fun p => s.ntcTemp p.1
  | a :: r => some (fdiv b32 (r.foldl (fadd b32) a) (fofInt b32 l.length))

/-- The LIFE block at a tick at farm time `t` (R443, R447, R452). -/
def State.lifeTick (t : Nat) (s : State) : State :=
  let tj := (List.range 6).map fun k => s.turnTj k t
  let count := s.counting
  let s := State.forAll (List.range 6)
    (fun k s => match tj.getD k none with
      | some x => let s := s.put R.LIFE_TJ_T x k; if count then s.lifePoint k x else s
      | none => s) s
  let s := { s with brick := { s.brick with est := s.brick.est.map fun (p : Nat × List (Nat × Nat)) => (p.1, p.2.filter fun q => decide (t < q.2)) } }
  let max := fofInt b32 (toSigned 16 (s.idAt 0x28 2))
  let hi := s.is R.BRICK_STAT_IDVALID && (tj.any fun x => match x with | some v => flt b32 max v | none => false)
  let s := if hi && !s.is R.LIFE_STAT_TJHI then s.warn 7 0x32 else s
  let s := s.put R.LIFE_STAT_TJHI (b2n hi)
  (if s.following then s else s.lifeRegs).derate

/-! ## Transfers (R434-R436, R440) -/

/-- A transfer begins. -/
def State.xferStart (k : Nat) (s : State) : State :=
  { s with brick := { s.brick with xfer := k, waitRetry := false } }.put R.BRICK_STAT_BUSY 1

/-- A transfer fails with a link error 1-3 (R436), which the command names (log entry 176): retried once. The state, and whether it has failed for
good. -/
def State.xferFail (err : Nat) (s : State) : State × Bool :=
  let s := s.bump R.BRICK_ERRCNT_LINK
  let s := if err = 1 then s.put R.BRICK_STAT_PRESENT 0 else s
  if s.brick.failed then (s.xferEnd.put R.BRICK_STAT_ERR err, true)
  else ({ s with brick := { s.brick with failed := true, waitRetry := true } }.put R.BRICK_STAT_BUSY 0, false)

/-- The unit may drive BRK_SCL and BRK_SDA for a new transfer: the link is on, the pins are its own (01, R24; 12, R290), none runs. -/
def State.brickFree (s : State) : Bool := s.is R.BRICK_CTL_EN && !s.released 0 && s.brick.xfer == 0

/-- BRICK_READ (R440). -/
def opBrickRead (s : State) : State := if s.brickFree then s.xferStart 1 else s

/-- BRICK_TRANSFER_RETRY (R436): 10 ms after the failure. -/
def opBrickTransferRetry (s : State) : State := if s.brick.waitRetry then s.xferStart s.brick.xfer else s

/-- Damage, copy, note of a record that is valid (R440 step 3). -/
def State.selectCopy (d : List Byte) (c : Nat) (s : State) : State :=
  let o := 0x100 + 0x60 * c
  let cnt := copyCount d c
  let note := noteValid d cnt
  let up := fsub b64 (leAt d 0x1C4 8) (leAt d (o + 8) 8)
  let up := if note && flt b64 0 up then up else 0
  let ds := (List.range 6).map fun k => fadd b64 (leAt d (o + 0x10 + 8 * k) 8) up
  let ks := s.brick.kept
  let same := ks.take 16 == slice d 8 16
  let ds := if same then ds.zipIdx.map fun p => fmax64 p.1 (leAt ks (24 + 8 * p.2) 8) else ds
  let ds := if s.brick.keepMax && s.serial == slice d 8 16 then ds.zipIdx.map fun p => fmax64 p.1 (s.brick.ds.getD p.2 0) else ds
  let s := { s with brick := { s.brick with ds := ds, dsOld := ds } }
  (((s.put R.BRICK_STAT_COPY c).put R.BRICK_WCNT_N cnt).put R.BRICK_STAT_NOTE (b2n note)).put R.BRICK_STAT_LIFEVALID 1

/-- A read finds a brick other than the one held (R441, R451). -/
def State.otherBrick (s : State) (d : List Byte) : Bool :=
  s.is R.BRICK_STAT_IDVALID && (s.serial != slice d 8 16 || s.get R.BRICK_IDCRC_C != leAt d 0xFC 4)

/-- The swap's own effects (R451): the damage since the last write-back goes, and the overrides. -/
def State.swapOut (s : State) : State :=
  let lost := lifePayload (fsub b64 s.lifeD (s.brick.dsOld.foldl fmax64 0))
  ({ s with brick := { s.brick with ds := s.brick.dsOld, swapped := true } }.put R.BRICK_STAT_ERR 8 |>.note 7 lost).clearOverrides.lifeBlock

/-- Select from what was read (R440); a swap that a write-back found is not noted again, and the old brick's damage does not go to the new one (R451).
The derating states follow at the next tick (R452). -/
def State.select (d : List Byte) (s : State) : State :=
  let swap := idValid d && (s.otherBrick d || s.brick.swapped)
  let s := if swap && !s.brick.swapped then s.swapOut else s
  let s := { s with brick := { s.brick with swapped := false, mem := cellsPut 0xFF#8 0 (d.take 0x1D0) s.brick.mem, res := [], det := [], frameDue := true } }
  if !idValid d then
    (((s.put R.BRICK_STAT_IDVALID 0).put R.BRICK_STAT_LIFEVALID 0).put R.LIFE_STAT_NOREC 1).put R.BRICK_STAT_ERR 4 |>.lifeBlock
  else
    let s0 := s
    let s := { s with brick := { s.brick with id := d.take 256 } }
    let s := (s.put R.BRICK_STAT_IDVALID 1).put R.BRICK_IDCRC_C (leAt d 0xFC 4)
    let s := State.forAll (List.range 4) (fun k s => s.put R.BRICK_SERIAL_S (leAt d (8 + 4 * k) 4) k) s
    match newerCopy d with
    | none =>
      let s := { (s.put R.BRICK_STAT_LIFEVALID 0).put R.LIFE_STAT_NOREC 1 with brick := { s.brick with keepMax := false } }.put R.BRICK_STAT_ERR 5
      let s := if swap then { s with brick := { s.brick with ds := List.replicate 6 0, dsOld := List.replicate 6 0 } }.put R.BRICK_WCNT_N 0 else s
      let s := s.lifeRegs.lifeBlock
      if swap then s.lifeStore else s
    | some c =>
      let t := { s with brick := { s.brick with id := s0.brick.id } }.selectCopy d c
      let t := { t with brick := { t.brick with id := d.take 256, keepMax := false } }
      let t := (t.put R.LIFE_STAT_NOREC 0).lifeRegs.lifeBlock
      if swap then t.lifeStore else t

/-- BRICK_READ_COMPLETE (R436, R440): `err` 0, or a link error; `d` is what the memory answered from 0x000 on. -/
def opBrickReadComplete (err : Nat) (d : List Byte) (s : State) : State :=
  if s.brick.xfer ≠ 1 ∨ s.brick.waitRetry then s
  else if err ≠ 0 then
    let r := s.xferFail (err % 4)
    if r.2 then { r.1 with brick := { r.1.brick with frameDue := true } } else r.1
  else ((s.xferEnd).put R.BRICK_STAT_PRESENT 1).select d

/-! ## Write-back (R448-R450) -/

/-- A life copy as R438 lays it out; what the operating hours of the brick count is not stated, and they are a free value (log entry 26). -/
def State.copyImage (s : State) (cnt hours : Nat) : List Byte :=
  let l := leBytes 4 (s.get R.BRICK_IDCRC_C) ++ leBytes 4 cnt ++ leBytes 8 s.lifeD ++ s.brick.ds.flatMap (leBytes 8) ++
    leBytes 4 hours ++ leBytes 4 (s.get R.LIFE_CYC_N) ++ List.replicate 20 0#8
  l ++ leBytes 4 (crc32 l)

def State.brickPut (o : Nat) (l : List Byte) (s : State) : State :=
  { s with brick := { s.brick with mem := cellsPut 0xFF#8 o l s.brick.mem } }

/-- BRICK_WB (R448); with no valid record held there is no damage to write (R447, R451). -/
def opBrickWb (s : State) : State :=
  if s.brickFree && s.lifeKnown then s.xferStart 2 else s

/-- WRITE_BACK_INTERVAL (R448): farm time reaches WBINT seconds after the last write-back. -/
def opWriteBackInterval (s : State) : State :=
  opBrickWb (s.advance (s.brick.wbAt + s.get R.LIFE_CTL_WBINT * 1000000000))

/-- A write-back is over, whatever came of it: the kept record is stored (R448). -/
def State.wbEnd (s : State) : State :=
  let s := s.xferEnd
  { s with brick := { s.brick with wbAt := s.now, frameDue := true } }.lifeStore

/-- WRITE_BACK_COMPLETE (R448): `err` 0, a link error 1-3 or the write-cycle error 7; `id` the serial number and identity CRC read in
step 1; `bad` copies that read back wrong. -/
def opWriteBackComplete (err : Nat) (id : List Byte) (bad : Nat) (s : State) : State :=
  if s.brick.xfer ≠ 2 ∨ s.brick.waitRetry then s
  else if err = 7 then ((s.wbEnd.put R.BRICK_STAT_ERR 7).put R.LIFE_STAT_WBERR 1).warn 7 7
  else if err ≠ 0 then
    let r := s.xferFail (err % 4)
    if r.2 then (r.1.wbEnd.put R.LIFE_STAT_WBERR 1) else r.1
  else if id ≠ s.serial ++ leBytes 4 (s.get R.BRICK_IDCRC_C) then
    let s := s.wbEnd.swapOut
    s.xferStart 1
  else
    let s := (s.put R.BRICK_STAT_PRESENT 1).bump R.BRICK_ERRCNT_VERIFY 0 (min bad 2)
    if 2 ≤ bad then ((s.wbEnd.put R.BRICK_STAT_ERR 6).put R.LIFE_STAT_WBERR 1).warn 7 6
    else
      let c := if s.is R.BRICK_STAT_LIFEVALID then 1 - s.get R.BRICK_STAT_COPY else 1
      let cnt := s.get R.BRICK_WCNT_N + 1
      let f := s.free
      let s := f.2.brickPut (0x100 + 0x60 * c) (f.2.copyImage cnt f.1)
      let s := ((s.put R.BRICK_STAT_COPY c).put R.BRICK_WCNT_N cnt).put R.BRICK_STAT_LIFEVALID 1
      { s with brick := { s.brick with wbs := s.brick.wbs + 1, dsOld := s.brick.ds } }.wbEnd

/-- The store of P32.0012 at the power-fail warning, after a flush (R449); before a brick has been read there is nothing to store. -/
def State.brickWarning (s : State) : State := if s.brick.id.isEmpty then s.flush else s.flush.lifeStore

/-- The transfers at the power-fail warning (R449): a running one stops, and a fail note is written unless the memory is in a write cycle or the pins are released (01, R24). -/
def State.brickPowerFail (cycle : Bool) (s : State) : State :=
  let s := s.xferEnd
  if cycle || !s.lifeKnown || !s.brickFree then s
  else
    let n := leBytes 4 (s.get R.BRICK_WCNT_N + 1) ++ leBytes 8 s.lifeD
    s.brickPut 0x1C0 (n ++ leBytes 4 (crc32 (leBytes 4 (s.get R.BRICK_IDCRC_C) ++ n)))

/-- Life is initialised by a Custodian (R453); a unit whose pins are released writes no memory (01, R24). -/
def State.lifeInit (d : Nat) (s : State) : State :=
  let s := { s with brick := { s.brick with ds := List.replicate 6 d, dsOld := List.replicate 6 d } }
  let f := s.free
  let s := if f.2.released 0 then f.2 else (f.2.brickPut 0x100 (f.2.copyImage 0 f.1)).brickPut 0x160 (f.2.copyImage 1 f.1)
  let s := ((s.put R.BRICK_WCNT_N 1).put R.BRICK_STAT_COPY 1).put R.BRICK_STAT_LIFEVALID 1
  let s := if s.is R.BRICK_STAT_IDVALID then s.put R.LIFE_STAT_NOREC 0 else s
  s.lifeRegs.lifeBlock

/-! ## Shadow pairs (R455) -/

/-- The payload of a BRICK frame. -/
def State.brickFrame (s : State) : List Byte :=
  (s.brick.id ++ List.replicate (256 - s.brick.id.length) 0#8) ++ leBytes 4 (s.get R.BRICK_WCNT_N) ++ s.brick.ds.flatMap (leBytes 8) ++
    leBytes 8 s.lifeD ++
    leBytes 4 (b2n s.lifeKnown + 2 * b2n s.brick.ovB + 4 * b2n s.brick.ovC + 8 * s.get R.LIFE_STAT_NOREC)

/-- A following Shadow takes the values of a BRICK frame. -/
def State.takeBrick (d : List Byte) (s : State) : State :=
  let f := leAt d 316 4
  let ds := (List.range 6).map fun k => leAt d (260 + 8 * k) 8
  let s := { s with brick := { s.brick with id := d.take 256, ds := ds, dsOld := ds, ovB := bit f 1, ovC := bit f 2 } }
  let s := ((((s.put R.BRICK_WCNT_N (leAt d 256 4)).put R.BRICK_STAT_IDVALID (b2n (idValid d))).put R.LIFE_STAT_NOREC (b2n (bit f 3))).put
    R.BRICK_IDCRC_C (leAt d 0xFC 4)).put R.BRICK_STAT_LIFEVALID (b2n (bit f 0))
  let s := State.forAll (List.range 4) (fun k s => s.put R.BRICK_SERIAL_S (leAt d (8 + 4 * k) 4) k) s
  s.lifeRegs.lifeBlock.lifeStore

def execBrickRead (s : State) : Host.Outcome State Fault Refusal := .next (opBrickRead s)
def execBrickReadComplete (err : Fin 4) (d : List Byte) (s : State) : Host.Outcome State Fault Refusal := .next (opBrickReadComplete err d s)
def execBrickWb (s : State) : Host.Outcome State Fault Refusal := .next (opBrickWb s)
def execWriteBackInterval (s : State) : Host.Outcome State Fault Refusal := .next (opWriteBackInterval s)
def execWriteBackComplete (err : Fin 8) (id : List Byte) (bad : Fin 3) (s : State) : Host.Outcome State Fault Refusal :=
  .next (opWriteBackComplete err id bad s)
def execBrickTransferRetry (s : State) : Host.Outcome State Fault Refusal := .next (opBrickTransferRetry s)

end Sys2Proof.Machine
end

