-- ==== Sys2Proof/Machine/Program.lean ====
section
/-! DEFINITION. Machine/Program.lean: decode tables (05, R124-R142) and program banks: the load check, schedules, and the switch (11). -/

namespace Sys2Proof.Machine

/-! ## Decode-table check (05, R136) -/

def microSource (p : Nat) : Bool :=
  p < 0x80 || [0x240, 0x248, 0x0D8, 0x0D9, 0x0EF, 0x0F8, 0x0F9, 0x130, 0x131, 0x134, 0x098].contains p || inRange p 0x250 8

/-- CLB bits that a micro-move destination requires (05, R127), or none if it is not allowed. -/
def microDest (p : Nat) : Option (List Nat) :=
  if inRange p 0x250 8 || p = 0x248 then some []
  else if inRange p 0x0C0 0x15 then some [8]
  else if inRange p 0x0E9 5 then some [9, 12]
  else if inRange p 0x0E0 9 then some [9]
  else if inRange p 0x0F0 4 then some [10]
  else if inRange p 0x110 4 || inRange p 0x118 3 || inRange p 0x11D 6 || inRange p 0x125 5 || p = 0x136 then some [11]
  else if p = 0x08D || p = 0x08E then some [12]
  else none

/-- Directory word and micro-move of the half at `h`. -/
def State.dirWord (s : State) (h n : Nat) : Nat := s.mw (h + 0x100 + 4 * n)
def State.microWord (s : State) (h n k : Nat) : Nat := s.mw (h + 0x200 + 128 * n + 4 * k)

/-- Bytes over which the CRC of a table runs (05, R125). -/
def State.tableCrc (s : State) (h : Nat) : Nat := crc32 (s.mbs h 8 ++ s.mbs (h + 0x100) 0x2100)

/-- First entry and micro-move that fail a test. -/
def findMicro (f : Nat → Nat → Bool) : Option (Nat × Nat) :=
  (List.range 64).findSome? fun n => ((List.range 32).find? fun k => f n k).map fun k => (n, k)

/-- A word of a range is uncorrectable. -/
def State.spoiled (s : State) (a n : Nat) : Bool := s.m.ecc.any fun p => inRange p.1 a n && p.2 == 2

/-- Parts of a half that the check reads: all but the reserved offsets (DEDUCED, log entry 164). -/
def decParts (h : Nat) : List (Nat × Nat) := [(h, 12), (h + 0x100, 0x2100)]

/-- Entry and micro-move of a word of a half; of the header 0 and 0. -/
def decPlace (o : Nat) : Nat × Nat :=
  if o < 0x100 then (0, 0) else if o < 0x200 then ((o - 0x100) / 4, 0) else ((o - 0x200) / 128, (o - 0x200) % 128 / 4)

/-- The first uncorrectable word among the parts. -/
def State.decSpoiled (s : State) (h : Nat) : Option Nat :=
  (s.m.ecc.find? fun p => p.2 == 2 && (decParts h).any fun q => inRange p.1 q.1 q.2).map Prod.fst

/-- The first failure of R136: ERR, entry, micro-move. Checks 0x1 and 0x2 concern no entry and give 0 and 0; an empty entry with CLB bits set
fails check 0x3; check 0x8 reads what `decParts` names (DEDUCED, log entry 164). -/
def State.decBad (s : State) (h : Nat) : Option (Nat × Nat × Nat) :=
  let dir (n : Nat) := s.dirWord h n
  let badDir := (List.range 64).find? fun n =>
    32 < dir n % 64 || bits (dir n) 6 2 != 0 || bits (dir n) 13 19 != 0 || (dir n % 64 == 0 && dir n != 0)
  let enc := findMicro fun n k =>
    if k < dir n % 64 then (slotMove (s.microWord h n k)).illegal else s.microWord h n k != 0xC0000000
  let live (n k : Nat) : Bool := k < dir n % 64 && (slotMove (s.microWord h n k)).guard != 3
  let port := findMicro fun n k =>
    let m := slotMove (s.microWord h n k)
    live n k && ((match m.src with | .port p => !microSource p | _ => false) || (microDest m.dst).isNone)
  let clb := findMicro fun n k =>
    live n k && (match microDest (slotMove (s.microWord h n k)).dst with | some l => l.any fun b => !bit (dir n) b | none => true)
  if s.mw (h + 4) != 1 then some (1, 0, 0)
  else if s.tableCrc h != s.mw (h + 8) then some (2, 0, 0)
  else
    match badDir, enc, port, clb with
    | some n, _, _, _ => some (3, n, 0)
    | none, some (n, k), _, _ => some (4, n, k)
    | none, none, some (n, k), _ => some (5, n, k)
    | none, none, none, some (n, k) => some (6, n, k)
    | none, none, none, none =>
      match (if s.mw h = 0 then (List.range 64).find? fun n => dir n % 64 != 0 else none) with
      | some n => some (7, n, 0)
      | none => (s.decSpoiled h).map fun x => (8, (decPlace (x - h)).1, (decPlace (x - h)).2)

/-- DEC_CHECK (05, R136): ignored while a check runs. -/
def opDecCheck (e : Nat) (s : State) : State := State.forAll (s.decPair e) (fun e s => s.put R.LE_DEC_STAT_BUSY 1 e) s

/-- DEC_CHECK_COMPLETE (05, R136): the half is read through ECC (09, R221, R222). A failure leaves nothing checked, and nothing armed. It judges the
half that is staging now (DEDUCED, log entry 193). -/
def opDecCheckComplete (e : Nat) (s : State) : State :=
  if !s.is R.LE_DEC_STAT_BUSY e then s
  else
    let h := s.decStaging e
    let s := (decParts h).foldl (fun s p => (s.eccRead 10 0 p.1 p.2).1) (s.put R.LE_DEC_STAT_BUSY 0 e)
    match s.decBad h with
    | some (c, n, k) =>
      let s := (((s.put R.LE_DEC_STAT_ERR c e).put R.LE_DEC_STAT_ERRENT n e).put R.LE_DEC_STAT_ERRMOV k e).put R.LE_DEC_STAT_SVALID 0 e
      if s.is R.LE_DEC_STAT_ARMED e then s.disarm e else s
    | none => s.put R.LE_DEC_STAT_SVALID 1 e

/-- Exchange the halves of an engine (05, R137, R138). -/
def State.decExchange (e : Nat) (s : State) : State :=
  ((s.put R.LE_DEC_STAT_ACT (1 - s.get R.LE_DEC_STAT_ACT e) e).put R.LE_DEC_STAT_SVALID 0 e).put R.LE_DEC_STAT_ARMED 0 e

/-- R142 refuses: the staging halves of the pair differ, or one is not valid. -/
def State.decMismatch (s : State) (l : List Nat) : Bool :=
  match l with
  | [a, b] =>
    s.mw (s.decStaging a) != s.mw (s.decStaging b) || s.mw (s.decStaging a + 8) != s.mw (s.decStaging b + 8) ||
      !s.is R.LE_DEC_STAT_SVALID a || !s.is R.LE_DEC_STAT_SVALID b
  | _ => false

/-- The unit is one of a pair in step, or one whose tables the partner has compared in a rejoin that goes on (12, R312): its tables change at a
program switch only (05, R143). -/
def State.pairBound (s : State) : Bool :=
  s.following || (s.get R.RFL_STAT_ROLE == 1 && s.is R.RFL_STAT_READY) || (1 < s.get R.RFL_STAT_REJ && decide (s.get R.RFL_STAT_REJ ≤ 4))

/-- DEC_ACTIVATE (05, R137, R142); in a pair in step it is refused as in Run (R143; DEDUCED, log entry 160). The staging half becomes another, which
cancels a schedule (11, R273). -/
def opDecActivate (e : Nat) (s : State) : State :=
  let l := s.decPair e
  let err (c : Nat) (s : State) : State := State.forAll l (fun e s => s.put R.LE_DEC_STAT_ERR c e) s
  if s.decMismatch l then err 0xA s
  else if s.inRun || s.pairBound || l.any fun e => !s.is R.LE_DEC_STAT_SVALID e then err 9 s
  else State.forAll l (fun e s => (s.cancelSwitch e 0x21).decExchange e) s

/-- DEC_ARM (05, R138, R142; 11, R273). -/
def opDecArm (e : Nat) (s : State) : State :=
  let l := s.decPair e
  let err (c : Nat) (s : State) : State := State.forAll l (fun e s => s.put R.LE_DEC_STAT_ERR c e) s
  if s.decMismatch l then err 0xA s
  else if l.any fun e => !s.is R.LE_DEC_STAT_SVALID e then err 9 s
  else State.forAll l (fun e s => if s.is R.LE_DEC_STAT_ARMED e then s else (s.put R.LE_DEC_STAT_ARMED 1 e).cancelSwitch e 0x21) s

/-- DEC_DISARM (05, R138; 11, R273). -/
def opDecDisarm (e : Nat) (s : State) : State :=
  State.forAll (s.decPair e) (fun e s => if s.is R.LE_DEC_STAT_ARMED e then (s.put R.LE_DEC_STAT_ARMED 0 e).cancelSwitch e 0x21 else s) s

/-! ## Program images (11, R266-R269) -/

def State.bankBase (s : State) (e : Nat) (active : Bool) : Nat :=
  let act := s.get R.LE_PRG_STAT_ACT e
  0x01000000 + e * 0x100000 + 0x80000 * (if active then act else 1 - act)

/-- An image: its bank and the offset of its edit record. -/
structure Image where
  bank : Nat
  ofs : Nat
  deriving DecidableEq, Repr

/-- Word of the bank at an offset; beyond its end 0. -/
def State.bankWord (s : State) (i : Image) (o : Nat) : Nat := if o + 4 ≤ 0x80000 then s.mw (i.bank + o) else 0
/-- Word of the record. -/
def State.recWord (s : State) (i : Image) (o : Nat) : Nat := s.bankWord i (i.ofs + o)
/-- The inactive image of an engine. -/
def State.inactive (s : State) (e : Nat) : Image := { bank := s.bankBase e false, ofs := s.get R.LE_PRG_REC_OFS e }

/-- Tasks carried, ascending. -/
def State.carried (s : State) (i : Image) : List Nat := setBits 48 (s.recWord i 0x14 + 2 ^ 32 * (s.recWord i 0x18 % 65536))

/-- A range written by the copier: where from (none: a fill), where to, how long, and the address of the pattern word or of the data. -/
structure CopyEnt where
  src : Option Nat
  dst : Nat
  len : Nat
  kind : Nat
  arg : Nat
  deriving DecidableEq, Repr

/-- Relocation entries from record offset `o` (R268). -/
def State.relocs (s : State) (i : Image) (o n : Nat) : List CopyEnt :=
  (List.range n).map fun k =>
    let a := o + 12 * k
    { src := some (s.recWord i a), dst := s.recWord i (a + 4), len := s.recWord i (a + 8), kind := 3, arg := 0 }

/-- Init entries from record offset `o`, and the offset behind them (R268). -/
def State.inits (s : State) (i : Image) : Nat → Nat → List CopyEnt × Nat
  | _, 0 => ([], 0)
  | o, n + 1 =>
    let w := s.recWord i (o + 4)
    let kind := w / 2 ^ 24
    let len := w % 2 ^ 24
    let size := if kind = 1 then 12 else if kind = 2 then 8 + len else 8
    let r := State.inits s i (o + size) n
    ({ src := none, dst := s.recWord i o, len := len, kind := kind,
       arg := i.bank + i.ofs + o + 8 } :: r.1, size + r.2)

/-- Where the lists start, and all entries in record order. -/
def State.listOfs (s : State) (i : Image) : Nat := 0x40 + 24 * (s.carried i).length
def State.entries (s : State) (i : Image) : List CopyEnt :=
  let nr := s.recWord i 0x1C
  s.relocs i (s.listOfs i) nr ++ (s.inits i (s.listOfs i + 12 * nr) (s.recWord i 0x20)).1

/-- Length of header, descriptors and lists. -/
def State.recNeeds (s : State) (i : Image) : Nat :=
  let nr := s.recWord i 0x1C
  s.listOfs i + 12 * nr + (s.inits i (s.listOfs i + 12 * nr) (s.recWord i 0x20)).2

/-- An address range that a list may name for engine `e` (R268). -/
def listRange (e a n : Nat) : Bool :=
  a % 4 == 0 && n % 4 == 0 && n != 0 &&
    ((decide (0x02000000 + e * 0x40000 ≤ a) && decide (a + n ≤ 0x02040000 + e * 0x40000)) ||
      (decide (0x02100000 ≤ a) && decide (a + n ≤ 0x02200000)) || (decide (0x03001000 ≤ a) && decide (a + n ≤ 0x03005000)))

def CopyEnt.ok (e : Nat) (c : CopyEnt) : Bool :=
  listRange e c.dst c.len && (match c.src with | some a => listRange e a c.len | none => c.kind < 3)

def overlaps (a n b m : Nat) : Bool := decide (a < b + m) && decide (b < a + n)

/-- The first entry whose destination overlaps another destination or a relocation source (R270). -/
def overlapEntry (l : List CopyEnt) : Option Nat :=
  let z := l.zipIdx
  (z.find? fun p => z.any fun q =>
    (q.2 < p.2 && overlaps p.1.dst p.1.len q.1.dst q.1.len) ||
    (q.2 ≤ p.2 && (match q.1.src with | some a => overlaps p.1.dst p.1.len a q.1.len | none => false)) ||
    (q.2 < p.2 && (match p.1.src with | some a => overlaps q.1.dst q.1.len a p.1.len | none => false))).map Prod.snd

/-- Words that the lists write (R271). -/
def listWords (l : List CopyEnt) : Nat := (l.map fun c => c.len / 4).sum

/-- The descriptor of the `k`-th carried task; a SLOT of 12 to 15 keeps the field (00, R5). -/
def State.recDesc (s : State) (i : Image) (k : Nat) : Desc :=
  let a := 0x40 + 24 * k
  let w := s.recWord i a
  let old := s.get R.TSK_CFG_SLOT ((s.carried i).getD k 0)
  { cfg := if bits w 3 4 < 12 then w else w - 8 * bits w 3 4 + 8 * old, trg := s.recWord i (a + 4), entry := s.recWord i (a + 8) % 65536, bud := s.recWord i (a + 12),
    qr := s.recWord i (a + 16), wr := s.recWord i (a + 20) }

/-- The task table that results from switching some engines (R267, R275). -/
def State.tableAfter (s : State) (l : List Nat) : List Desc :=
  l.foldl
    (fun t e =>
      let i := s.inactive e
      let c := s.carried i
      t.zipIdx.map fun p =>
        if c.contains p.2 then s.recDesc i (c.idxOf p.2)
        else if p.1.eng == e then { p.1 with cfg := p.1.cfg - p.1.cfg % 2 } else p.1)
    s.descs

/-- Layout ID of the table that will be active at the switch, and whether an image matches it (05, R141). -/
def State.layoutOk (s : State) (e : Nat) (i : Image) : Bool :=
  let id := s.mw (if s.is R.LE_DEC_STAT_ARMED e then s.decStaging e else s.decActive e)
  s.recWord i 8 == id

/-- The first failure of the load check (R270): ERR, ERRIDX, SUB. -/
def State.loadBad (s : State) (e : Nat) : Option (Nat × Nat × Nat) :=
  let i := s.inactive e
  let l := s.recWord i 0x0C
  let len := s.recWord i 0x24
  let ents := s.entries i
  let c := s.carried i
  if s.recWord i 0 != 1 then some (1, 0, 0)
  else if i.ofs % 8 != 0 || l == 0 || 65536 < l || i.ofs < 8 * l || len % 4 != 0 || 0x80000 < i.ofs + len || len < s.listOfs i then
    some (2, 0, 0)
  else if crc32 (s.mbs i.bank (8 * l)) != s.recWord i 0x10 then some (3, 0, 0)
  else if crc32 (s.mbs (i.bank + i.ofs) 0x30 ++ List.replicate 4 0#8 ++ s.mbs (i.bank + i.ofs + 0x34) (len - 0x34)) != s.recWord i 0x30 ||
      s.recWord i 0x34 != 0 || s.recWord i 0x38 != 0 || s.recWord i 0x3C != 0 then some (4, 0, 0)
  else if !s.layoutOk e i then some (5, 0, 0)
  else
    match (c.zipIdx.find? fun p => (s.recDesc i p.2).eng != e).map Prod.fst with
    | some n => some (6, n, 0)
    | none =>
      if 64 < s.recWord i 0x1C || 64 < s.recWord i 0x20 then some (7, 0, 0)
      else
        match (ents.zipIdx.find? fun p => !p.1.ok e).map Prod.snd with
        | some n => some (7, n, 0)
        | none =>
          if len < s.recNeeds i then some (7, ents.length - 1, 0)
          else
            match overlapEntry ents with
            | some n => some (8, n, 0)
            | none =>
              if s.get R.LE_PRG_BUD_US e * 1000 < 1000 + 5 * listWords ents then some (9, 0, 0)
              else
                match tableErr (s.tableAfter [e]) s.shedCfg with
                | some (k, n) => some (0xA, n, k)
                | none => if s.spoiled i.bank (8 * l) || s.spoiled (i.bank + i.ofs) len then some (0xB, 0, 0) else none

/-- What the load check reads of an image: the header, and where it is laid out as R266 asks, the code and the record. -/
def State.loadParts (s : State) (e : Nat) : List (Nat × Nat) :=
  let i := s.inactive e
  match s.loadBad e with
  | some (1, _, _) => [(i.bank + i.ofs, 4)]
  | some (2, _, _) => [(i.bank + i.ofs, 0x40)]
  | _ => [(i.bank, 8 * s.recWord i 0x0C), (i.bank + i.ofs, s.recWord i 0x24)]

/-- PRG_CHECK (R270): a check that runs already goes on. -/
def opPrgCheck (e : Nat) (s : State) : State := s.put R.LE_PRG_STAT_BUSY 1 e

/-- PRG_CHECK_COMPLETE (R270): the image is read through ECC (09, R221, R222). A failure leaves IVALID and a schedule as they are (R265, R273; DEDUCED,
log entry 163). -/
def opPrgCheckComplete (e : Nat) (s : State) : State :=
  if !s.is R.LE_PRG_STAT_BUSY e then s
  else
    let s := (s.loadParts e).foldl (fun s p => (s.eccRead 10 0 p.1 p.2).1) (s.put R.LE_PRG_STAT_BUSY 0 e)
    let i := s.inactive e
    match s.loadBad e with
    | some (c, n, k) => ((s.prgErr e c).put R.LE_PRG_STAT_ERRIDX n e).put R.LE_PRG_STAT_SUB k e
    | none =>
      let s := ((s.put R.LE_PRG_STAT_IVALID 1 e).put R.LE_PRG_SID_ID (s.recWord i 4) e).put R.LE_PRG_INFO_W (listWords (s.entries i)) e
      s.upPrg e fun p => { p with codeCrc := s.recWord i 0x10, recCrc := s.recWord i 0x30 }

/-! ## Scheduling (R272, R273, R279) -/

/-- The Shadow that follows has reported an equal checked image (R283). -/
def State.reported (s : State) (e : Nat) : Bool :=
  s.rfl.reports.find? (fun p => p.1 == e) == some (e, s.get R.LE_PRG_SID_ID e, (s.prgSt e).codeCrc, (s.prgSt e).recCrc)

/-- The error that refuses a schedule (R272). -/
def State.schedErr (s : State) (e as_ : Nat) : Option Nat :=
  if !s.is R.LE_PRG_STAT_IVALID e then some 0x10
  else if as_ < s.seq.abs + 2 then some 0x11
  else if !s.layoutOk e (s.inactive e) then some 0x12
  else if s.period * 10 ≤ s.get R.LE_PRG_BUD_US e * 1000 then some 0x13
  else if s.is R.LE_PRG_STAT_SCHEDULED e || (s.prgSt e).now then some 0x14
  else if s.secondary e then some 0x15
  else if s.following then some 0x16
  else if s.get R.RFL_STAT_ROLE == 1 && s.is R.RFL_STAT_READY && !s.reported e then some 0x17
  else if s.is R.UPD_CTL_HOSCHED && s.get64 R.UPD_AT_LO_A R.UPD_AT_HI_A == as_ then some 0x19
  else none

/-- PRG_SCHED (R272). -/
def opPrgSched (e : Nat) (s : State) : State :=
  let a := s.get64 R.LE_PRG_AT_LO_A R.LE_PRG_AT_HI_A e
  match s.schedErr e a with
  | some c => s.prgErr e c
  | none => (s.upPrg e fun p => { p with at_ := some a, waited := 0 }).put R.LE_PRG_STAT_SCHEDULED 1 e

/-- PRG_CANCEL (R273). -/
def opPrgCancel (e : Nat) (s : State) : State := s.unschedule e

/-! ## The switch (R274-R278) -/

/-- Write a descriptor into the registers of a task (R267). -/
def State.setDesc (n : Nat) (d : Desc) (s : State) : State :=
  let s := s.putBits (cfgFree ++ cfgHold) d.cfg n
  let s := ((s.put R.TSK_TRG_W d.trg n).put R.TSK_ENTRY_IDX d.entry n).put R.TSK_BUD_CYC d.bud n
  (s.putBits [R.TSK_QRNG_START, R.TSK_QRNG_COUNT] d.qr n).putBits [R.TSK_WRNG_START, R.TSK_WRNG_COUNT] d.wr n

/-- A task takes its new enable and output ranges: the guard starts afresh; changed outputs, and those of a task that the record drops, wait for a
commit (06, R168; R278). -/
def State.taskSwitched (old : Desc) (n : Nat) (s : State) : State :=
  let d := s.desc n
  s.upT n fun t => { t with enabled := d.en, guard := none, await := t.await || d.qr != old.qr || d.wr != old.wr || (old.en && !d.en) }

/-- Step 2 of R275 for one member; an armed table of the secondary is exchanged with its primary's (05, R138, R142). What was armed before the pair
was formed is exchanged too (DESIGN CHOICE, log entry 194). -/
def State.switchStep (e : Nat) (s : State) : State :=
  let i := s.inactive e
  let c := s.carried i
  let mine := s.tasksOf e
  let old := s.descs
  let mask := s.recWord i 0x28 + 2 ^ 32 * s.recWord i 0x2C
  let mark := [s.get R.LE_PRG_SID_ID e, (s.prgSt e).codeCrc, (s.prgSt e).recCrc].flatMap (leBytes 4)
  let s := if s.lead then { s with rfl := { s.rfl with marks := s.rfl.marks ++ [{ addr := e, kind := 2, data := mark }] } } else s
  let s := s.put R.LE_PRG_STAT_ACT (1 - s.get R.LE_PRG_STAT_ACT e) e
  let s := State.forAll ((s.decPair e).filter fun f => s.is R.LE_DEC_STAT_ARMED f) State.decExchange s
  let s := c.zipIdx.foldl (fun s p => s.setDesc p.1 (s.recDesc i p.2)) s
  let s := State.forAll (mine.filter fun n => !c.contains n) (fun n s => s.put R.TSK_CFG_EN 0 n) s
  let s := State.forAll ((List.range 48).filter fun n => c.contains n || mine.contains n)
    (fun n s => s.taskSwitched (old.getD n (s.desc n)) n) s
  let s := s.upE e fun x => { x with timers := x.timers.filter fun t => !bit mask t.1 }
  let s := ((s.zeroMem (privBase e) 0xC00).zeroUnowned).mirrorJoin e
  let s := { s with seq := { s.seq with swOut := true } }
  s.upPrg e fun p => { p with switching := true, at_ := none, now := false, waited := 0, loaded := true, actCode := p.codeCrc, actRec := p.recCrc,
                              ofs := i.ofs, with_ := [e], since := s.now }

/-- Step 2 for the members of a group, which one copier serves and which complete together. -/
def State.switchGroup (l : List Nat) (s : State) : State :=
  State.forAll l (fun e s => s.upPrg e fun p => { p with with_ := l }) (State.forAll l State.switchStep s)

/-- The image whose lists a switching engine's copier runs: the bank has become active. -/
def State.newImage (s : State) (e : Nat) : Image := { bank := s.bankBase e true, ofs := (s.prgSt e).ofs }

/-- The copier writes one word, which an uncorrectable source poisons (R277). -/
def State.copyPut (l : List Byte) (bad : Bool) (dst : Nat) (s : State) : State :=
  let s := s.putWords 0 dst l
  (if bad then s.setEcc (eccKey 0 dst) 2 else s).stored 9 dst 4

/-- The copier reads one word, and writes it to some places. -/
def State.copyWord (src : Nat) (dst : List Nat) (s : State) : State :=
  let r := s.eccRead 9 0 src 4
  State.forAll dst (fun x s => s.copyPut (r.1.mbs src 4) r.2.isSome x) r.1

/-- The copier runs one entry (R275, step 3). -/
def State.runEntry (c : CopyEnt) (s : State) : State :=
  let l := (List.range (c.len / 4)).map (4 * ·)
  match c.src with
  | some a => State.forAll l (fun k s => s.copyWord (a + k) [c.dst + k]) s
  | none =>
    if c.kind = 2 then State.forAll l (fun k s => s.copyWord (c.arg + k) [c.dst + k]) s
    else if c.kind = 1 then s.copyWord c.arg (l.map (c.dst + ·))
    else State.forAll l (fun k s => s.copyPut (leBytes 4 0) false (c.dst + k)) s

/-- One entry of the lists of one member: the copier reads the words of the entry itself through ECC, and an uncorrectable one is taken as it stands
(DESIGN CHOICE, log entry 162); what the entry copies follows (R277). -/
def State.listEntry (i : Image) (o : Nat) (p : CopyEnt × Nat) (s : State) : State :=
  let h := match p.1.src with | some _ => (i.bank + i.ofs + o + 12 * p.2, 12) | none => (p.1.arg - 8, 8)
  State.runEntry p.1 (s.eccRead 9 0 h.1 h.2).1

/-- The lists of one member (R275, step 3). -/
def State.runLists (e : Nat) (s : State) : State :=
  let i := s.newImage e
  State.forAll (s.entries i).zipIdx (State.listEntry i (s.listOfs i)) s

/-- Step 4 of R275 for one member. -/
def State.switchDone (e : Nat) (s : State) : State :=
  let s := ((((s.put R.LE_PRG_STAT_SWDONE 1 e).put R.LE_PRG_ID_ID (s.get R.LE_PRG_SID_ID e) e).put R.LE_PRG_STAT_IVALID 0 e).unschedule e).wrapUp
    R.LE_PRG_CNT_SWITCHES e
  (s.upPrg e fun p => { p with switching := false }).note 7 e

/-- Step 5 of R275: once every switch of the tick is complete and the latch has ended, the outputs follow their new owners (R278). -/
def State.stepFive (s : State) : State :=
  if !s.seq.swOut || s.seq.inLatch || (List.range 4).any fun e => (s.prgSt e).switching then s
  else { s with seq := { s.seq with swOut := false } }.outRefresh

/-- PROGRAM_SWITCH_COMPLETE (R275, steps 3 to 5), for the engine's whole group: time reaches 1 µs + 5 ns × W after step 2. -/
def opProgramSwitchComplete (e : Nat) (s : State) : State :=
  if !(s.prgSt e).switching then s
  else
    let l := (s.prgSt e).with_
    let w := (l.map fun f => listWords (s.entries (s.newImage f))).sum
    let s := s.advance ((s.prgSt e).since + 1000 + 5 * w)
    let s := State.forAll l State.switchDone (State.forAll l State.runLists s)
    if s.seq.inLatch then s else s.seqLatchEnd.stepFive

/-- PRG_SWITCHNOW (R279): at the next tick in Hold, or at once while no ticks run. A schedule stands until the switch is made (R273). -/
def opPrgSwitchnow (e : Nat) (s : State) : State :=
  if s.inRun then s.prgErr e 0x18
  else if !s.is R.LE_PRG_STAT_IVALID e then s.prgErr e 0x10
  else if !s.is R.TURN_STAT_RUN then s.switchStep e
  else s.upPrg e fun p => { p with now := true }

/-- An engine is idle for a switch (R274). -/
def State.switchIdle (s : State) (e : Nat) : Bool := (s.tasksOf e).all (fun n => !s.busy n) && !(s.eng e).live

/-- Members of the group of a schedule (R274). -/
def State.group (s : State) (a : Nat) : List Nat := (List.range 4).filter fun e => (s.prgSt e).at_ == some a

/-- Schedules that have come due at turn `a`, rising. -/
def State.dueGroups (s : State) (a : Nat) : List Nat :=
  let l := ((List.range 4).filterMap fun e => (s.prgSt e).at_).filter (· ≤ a)
  l.eraseDups.mergeSort (· ≤ ·)

/-- The total of the lists fits the smallest budget of the group (R275). -/
def State.groupFits (s : State) (l : List Nat) : Bool :=
  let w := (l.map fun e => s.get R.LE_PRG_INFO_W e).sum
  l.all fun e => decide (1000 + 5 * w ≤ s.get R.LE_PRG_BUD_US e * 1000)

/-- Every member is refused. -/
def State.refuseGroup (l : List Nat) (c sub idx : Nat) (s : State) : State :=
  State.forAll l (fun e s => (((s.unschedule e).prgErr e c).put R.LE_PRG_STAT_SUB sub e).put R.LE_PRG_STAT_ERRIDX idx e) s

/-- A due group could switch now (R274). -/
def State.groupReady (s : State) (l : List Nat) : Bool := l.all s.switchIdle && (tableErr (s.tableAfter l) s.shedCfg).isNone

/-- One group at a tick (R274): switch, refuse or wait. `handover` is the tick of a firmware handover (R635). -/
def State.groupTick (handover : Bool) (l : List Nat) (s : State) : State :=
  if s.groupReady l then
    if handover then s.refuseGroup l 0x23 0 0
    else if !s.groupFits l then s.refuseGroup l 0x22 0 0
    else s.switchGroup l
  else State.forAll l (fun e s => (s.upPrg e fun p => { p with waited := p.waited + 1 }).put R.LE_PRG_STAT_WAITING 1 e) s

/-- PROGRAM_SWITCH at a tick with turn number `a` (R274, R275, R279). -/
def State.prgTick (a : Nat) (handover : Bool) (s : State) : State :=
  let s := State.forAll ((List.range 4).filter fun e => (s.prgSt e).now) State.switchStep s
  State.forAll ((s.dueGroups a).map s.group) (State.groupTick handover) s

/-- SWITCH_WAIT_REFUSED (R274): the group of an engine has waited longer than its smallest WAIT. -/
def opSwitchWaitRefused (e : Nat) (s : State) : State :=
  match (s.prgSt e).at_ with
  | none => s
  | some a =>
    let l := s.group a
    let n := (s.prgSt e).waited
    if l.any fun f => s.get R.LE_PRG_BUD_WAIT f < n then
      if l.all s.switchIdle then
        let p := (tableErr (s.tableAfter l) s.shedCfg).getD (0, 0)
        s.refuseGroup l 0x22 p.1 p.2
      else s.refuseGroup l 0x20 0 0
    else s

def execPrgCheck (e : Fin 4) (s : State) : Host.Outcome State Fault Refusal := .next (opPrgCheck e s)
def execPrgCheckComplete (e : Fin 4) (s : State) : Host.Outcome State Fault Refusal := .next (opPrgCheckComplete e s)
def execPrgSched (e : Fin 4) (s : State) : Host.Outcome State Fault Refusal := .next (opPrgSched e s)
def execPrgCancel (e : Fin 4) (s : State) : Host.Outcome State Fault Refusal := .next (opPrgCancel e s)
def execPrgSwitchnow (e : Fin 4) (s : State) : Host.Outcome State Fault Refusal := .next (opPrgSwitchnow e s)
def execProgramSwitchComplete (e : Fin 4) (s : State) : Host.Outcome State Fault Refusal := .next (opProgramSwitchComplete e s)
def execSwitchWaitRefused (e : Fin 4) (s : State) : Host.Outcome State Fault Refusal := .next (opSwitchWaitRefused e s)
def execDecCheck (e : Fin 4) (s : State) : Host.Outcome State Fault Refusal := .next (opDecCheck e s)
def execDecCheckComplete (e : Fin 4) (s : State) : Host.Outcome State Fault Refusal := .next (opDecCheckComplete e s)
def execDecActivate (e : Fin 4) (s : State) : Host.Outcome State Fault Refusal := .next (opDecActivate e s)
def execDecArm (e : Fin 4) (s : State) : Host.Outcome State Fault Refusal := .next (opDecArm e s)
def execDecDisarm (e : Fin 4) (s : State) : Host.Outcome State Fault Refusal := .next (opDecDisarm e s)

end Sys2Proof.Machine
end

