-- ==== Sys2Proof/Machine/Sense.lean ====
section
/-! DEFINITION. Machine/Sense.lean: the sense converters, their FIFOs and image words, the fast overcurrent comparators (18), and the
comparator Rolls (16, R427-R432). -/

namespace Sys2Proof.Machine

/-- Converters, FIFOs and comparators do not run: before the end of start-up, in Standby and Off, or their die's link is lost (R471). -/
def State.senseDark (s : State) : Bool := s.phase != .up || s.pwr.linkLost

def State.adcCh (s : State) (n : Nat) : AdcSt := s.adc.getD n AdcSt.reset
def State.upAdc (s : State) (n : Nat) (f : AdcSt → AdcSt) : State := { s with adc := Store.put n (f (s.adcCh n)) s.adc }

/-! ## Samples (R458-R464) -/

/-- What the filter yields for the input that is selected (R458): the pins' voltage is `vin` pV. Full scale is 1.25 V = 5^13 × 2^10 pV at a gain of 1,
so 2^23 counts for it are 2^13 for 5^13 pV, and no value lies halfway between two counts. -/
def rawOf (mux gain : Nat) (vin : Int) : Int :=
  if mux = 0 then (vin * (2 ^ (gain + 14) : Nat) + (5 ^ 13 : Nat)) / (2 * 5 ^ 13 : Nat) else if mux = 1 then 0 else 6710886

/-- Data in range (R464). -/
def clampData (x : Int) : Int := if x < -8388607 then -8388607 else if 8388607 < x then 8388607 else x

/-- A sample word (R460). -/
def sampleWord (n reason : Nat) (x : Int) : Nat :=
  2 ^ 31 * b2n (reason == 0) + 2 ^ 28 * reason + 2 ^ 24 * n + ofSigned 24 (clampData x)

def wordReason (w : Nat) : Nat := bits w 28 3

/-- The word enters the FIFO, or is discarded (R466). -/
def State.fifoPut (n w : Nat) (s : State) : State :=
  if !s.is R.SADC_CH_CFG_FIFOEN n then s
  else if (s.adcCh n).fifo.length < 32 then
    let c := s.adcCh n
    let s := (s.upAdc n fun c => { c with fifo := c.fifo ++ [w], dropped := false }).bufStore (bufAdc n (c.head + c.fifo.length)) 4
    s.put R.SADC_FSTAT_FILL (s.adcCh n).fifo.length n
  else
    let again := (s.adcCh n).dropped
    let s := (s.upAdc n fun c => { c with dropped := true }).bump R.SADC_FSTAT_DROP n
    if again then s else s.raise 197 n

/-- A sample word is delivered (R463-R467): its window ran from `t0` to `te`. -/
def State.adcDeliver (n w t0 te : Nat) (s : State) : State :=
  let r := wordReason w
  let prev := (s.adcCh n).prev
  let s := (s.put R.SADC_CH_LAST_W w n).putBit R.SADC_STAT_VLAST n (r == 0)
  let s := if r = 4 then s.bump R.SADC_CNT_OVR n else s
  let s := if r ≠ 0 then s.bump R.SADC_CNT_INV n else s
  let s := s.upAdc n fun c => { c with prev := some w, img := match c.fresh with | some p => some p.1 | none => c.img, fresh := some (w, te + 100) }
  let s := if n = 3 ∧ r = 0 then s.dlnkSample (w % 2 ^ 24) te else s
  let s := if r = 4 && (match prev with | some p => wordReason p != 4 | none => true) then s.raise 195 n else s
  let s := if r = 0 && (match prev with | some p => wordReason p != 0 | none => false) then s.raise 196 n else s
  let s := s.fifoPut n w
  if n < 12 ∧ r = 0 then s.lifeSample n (w % 2 ^ 24) t0 te else s

/-- The larger of the invalid samples still to come and those of a change; ties go to the change (R462). -/
def AdcSt.mark (c : AdcSt) (count why : Nat) : AdcSt := if c.bad ≤ count ∧ count ≠ 0 then { c with bad := count, why := why } else c

/-- Count and REASON of a combined change (R462). -/
def changeCount (enable mux gain filter : Bool) : Nat × Nat :=
  if enable then (4, 5) else if mux then (4, 1) else if gain then (4, 2) else if filter then (3, 3) else (0, 0)

/-- The written settings take effect (R461, R462). -/
def State.adcChange (n : Nat) (s : State) : State :=
  let c := s.adcCh n
  let en := s.is R.SADC_CH_CFG_EN n
  let mux := s.get R.SADC_CH_CFG_MUX n
  let gain := s.get R.SADC_CH_CFG_GAIN n
  let osr := s.get R.SADC_CH_CFG_OSR n
  let ph := s.get R.SADC_CH_PH_PH n
  let k := changeCount (en && !c.en) (mux != c.mux) (gain != c.gain) (osr != c.osr || ph != c.ph)
  s.upAdc n fun c => { (c.mark k.1 k.2) with en := en, mux := mux, gain := gain, osr := osr, ph := ph }

/-- `t` is a window end of the channel (R459). -/
def AdcSt.endsAt (c : AdcSt) (t : Nat) : Bool := t % 50 == 0 && (t / 50 + c.ph) % max 1 c.osr == 0

/-- The sample of an enabled channel completes (R458, R462, R464). -/
def State.adcSample (n t : Nat) (vin : Int) (s : State) : State :=
  let c := s.adcCh n
  if !c.en then s
  else
    let x := rawOf c.mux c.gain vin - toSigned 24 (s.get R.SADC_CH_OFS_OFS n)
    let past := decide (x < -8388607 ∨ 8388607 < x)
    let r := if c.bad ≠ 0 then c.why else if past then 4 else 0
    (s.upAdc n fun c => { c with bad := c.bad - 1 }).adcDeliver n (sampleWord n r x) (t - 150 * c.osr) t

/-- ADC_WINDOW_END (R459, R461): `vin` is the input averaged over the window, in pV, and `unstable` says that the input left ±1.2
times full scale. -/
def opAdcWindowEnd (n t : Nat) (vin : Int) (unstable : Bool) (s : State) : State :=
  if s.senseDark then s else
  let s := s.advance t
  if !(s.adcCh n).endsAt t then s
  else
    let s := s.adcSample n t vin
    let s := if unstable && (s.adcCh n).en then s.upAdc n fun c => c.mark 3 3 else s
    s.adcChange n

/-! ## Settings (R461, R465, R466) -/

/-- SADC_CFG_WRITE: word `k` of the channel, 0 CFG, 1 PH, 2 OFS; reserved codes keep their field (00, R5). -/
def opSadcCfgWrite (n k v : Nat) (s : State) : State :=
  if k = 0 then
    let s := s.put R.SADC_CH_CFG_EN (bits v 0 1) n
    let s := if bits v 1 2 = 3 then s else s.put R.SADC_CH_CFG_MUX (bits v 1 2) n
    let s := if 4 < bits v 4 3 then s else s.put R.SADC_CH_CFG_GAIN (bits v 4 3) n
    let s := s.put R.SADC_CH_CFG_FIFOEN (bits v 8 1) n
    let s := if 16 ≤ bits v 16 11 ∧ bits v 16 11 ≤ 1024 then s.put R.SADC_CH_CFG_OSR (bits v 16 11) n else s
    if bit v 8 then s else (s.upAdc n fun c => { c with fifo := [], head := (c.head + c.fifo.length) % 32, dropped := false }).put R.SADC_FSTAT_FILL 0 n
  else if k = 1 then (if bits v 0 10 < s.get R.SADC_CH_CFG_OSR n then s.put R.SADC_CH_PH_PH v n else s)
  else s.put R.SADC_CH_OFS_OFS v n

/-- SADC_IMG_WRITE (R465): in Hold only. -/
def opSadcImgWrite (v : Nat) (s : State) : State :=
  if s.inRun then s.put R.SADC_STAT_CFGERR 1
  else
    let s := s.put R.SADC_IMG_EN (bits v 0 1)
    if bits v 4 4 = 0 then s.put R.SADC_IMG_BASE (bits v 4 12) else s

/-- The oldest word of a FIFO, 0 when it is empty (R466). -/
def State.fifoHead (s : State) (n : Nat) : Nat := ((s.adcCh n).fifo.head?).getD 0

/-- SADC_FIFO_POP (R466). -/
def opSadcFifoPop (n : Nat) (s : State) : State :=
  let s := if (s.adcCh n).fifo.isEmpty then s else s.bufRead (bufAdc n (s.adcCh n).head) 4
  let s := s.upAdc n fun c => { c with fifo := c.fifo.drop 1, head := (c.head + min 1 c.fifo.length) % 32 }
  s.put R.SADC_FSTAT_FILL (s.adcCh n).fifo.length n

/-- Word and quality tag of a channel at a latch (R465): none leaves the word unchanged. -/
def State.adcImage (s : State) (n t : Nat) : Option Nat × Nat :=
  let c := s.adcCh n
  let new := match c.fresh with | some (w, at_) => if at_ ≤ t then some w else c.img | none => c.img
  match new with
  | some w => (some w, if wordReason w = 0 then 1 else 2)
  | none => if c.imgOnce then (none, 3) else (some 0, 0)

/-- The words that have completed by a tick at `t` are taken (R465). -/
def State.adcTaken (t n : Nat) (s : State) : State :=
  s.upAdc n fun c =>
    let done := match c.fresh with | some (_, at_) => decide (at_ ≤ t) | none => false
    { c with imgOnce := c.imgOnce || done || c.img.isSome, fresh := if done then none else c.fresh, img := none }

/-! ## Fast overcurrent comparators (R468-R470) -/

/-- The bridge holds its Penumbra content: neither Umbra (01, R20) nor Hold (01, R15, R19) overrides it (07, R196; DEDUCED, log entry
155). -/
def State.bridgePen (s : State) : Bool := s.is R.EXC_STAT_BPEN && !s.dark 1

/-- Thresholds in force (R468). -/
def State.ocThresholds (s : State) : State :=
  State.forAll (List.range 3)
    (fun k s => s.put R.SADC_OC_THACT (if s.bridgePen then s.get R.SADC_OC_THR k * s.get R.EXC_PEN_ILIM / 256 else s.get R.SADC_OC_THR k) k) s

/-- A magnitude of the input, in units of 1.25 V / 4 096 000, has stood for the filter's time (R468, R469): a code is 1000 units and the 10 mV of
hysteresis are 32 768. A trip keeps BEN from following until a carrier peak finds every latch 0. -/
def State.ocApply (k v : Nat) (s : State) : State :=
  if !s.is R.SADC_OC_EN k then s
  else
    let was := bit (s.get R.SADC_OCSTAT_CMP) k
    let now := cmpLevel was 32768 (s.get R.SADC_OC_THACT k) v
    let s := s.putBit R.SADC_OCSTAT_CMP k now
    if was || !now then s
    else
      let s := s.raise (192 + k) 0
      if !s.is R.SADC_OCCTL_TRIPEN || s.released 0 then s
      else ({ s with pwm := { s.pwm with ocHold := true } }.putBit R.SADC_OCSTAT_LATCH k true).setBen false

/-- OVERCURRENT_COMPARATOR_CHANGE (R468, R469): the magnitude that has stood at the input for FILT × 10 ns; under Roll it acts when the Roll ends
(16, R431). -/
def opOvercurrentComparatorChange (k v : Nat) (s : State) : State :=
  if s.senseDark then s else
  match s.dlnk.roll with
  | some r =>
    if r.comp = 0x18 + k then { s with dlnk := { s.dlnk with roll := some { r with oc := some v } } } else s.ocApply k v
  | none => s.ocApply k v

/-- OC_LATCH_CLEAR (R470): bits whose comparator is 0. -/
def opOcLatchClear (m : Nat) (s : State) : State :=
  let clear := m % 8 &&& (7 - s.get R.SADC_OCSTAT_CMP % 8)
  s.put R.SADC_OCSTAT_LATCH (s.get R.SADC_OCSTAT_LATCH &&& (7 - clear))

/-- `SADC.OCk` is written: an inactive comparator shows 0. -/
def State.ocWrite (k v : Nat) (s : State) : State :=
  let s := (s.put R.SADC_OC_THR (bits v 0 12) k).put R.SADC_OC_EN (bits v 15 1) k
  (if bit v 15 then s else s.putBit R.SADC_OCSTAT_CMP k false).ocThresholds

/-! ## Rolls (16, R427-R431) -/

def rollCode (c : Nat) : Bool := c ≤ 0x12 || (0x18 ≤ c && c ≤ 0x1A)

/-- The bridge is not switching: BEN 0, bridge in Umbra, or pins released (R427). -/
def State.bridgeIdle (s : State) : Bool := !s.is R.GDRV_PWM_CTL_BEN || s.umbra 1 || s.released 0

/-- The idle condition of a comparator (R427). -/
def State.rollIdle (s : State) (c : Nat) : Bool :=
  if c < 16 then
    let n := c % 8
    !s.is R.GD_STAT_ON n && s.get R.GD_STAT_PHASE n != 1 && s.get R.GD_STAT_PHASE n != 2 && (n == 7 || (if n < 6 then s.bridgeIdle else !s.chopWant))
  else if c ≤ 0x12 then !s.is R.DLNK_STAT_CMPOFF && !s.is R.GD_STAT_ON 6
  else s.bridgeIdle

/-- The status with which a request is refused (R428). -/
def State.rollRefused (s : State) (c : Nat) : Option Nat :=
  let n := c % 8
  if !rollCode c then some 0x14
  else if s.is R.DLNK_ROLLST_BUSY then some 0x11
  else if c < 16 ∧ (!s.dieEn n || !s.is R.GD_STAT_CFGOK n || s.uvlo n) then some 0x12
  else if 16 ≤ c ∧ c ≤ 0x12 ∧ (s.is R.DLNK_STAT_CMPOFF || s.is R.GD_STAT_ON 6) then some 0x13
  else if !s.rollIdle c then some 0x10
  else none

/-- ROLL (R428, R429). `ROLLST` shows the last request. During a Roll of ON, TRIP sets H from the start (R431). -/
def opRollRequest (c : Nat) (s : State) : State :=
  match s.rollRefused c with
  | some st => ((s.put R.DLNK_ROLLST_COMP c).put R.DLNK_ROLLST_STATUS st).raise 182 (c + 256 * st)
  | none =>
    let s := (s.put R.DLNK_ROLLST_BUSY 1).put R.DLNK_ROLLST_COMP c
    let s := { s with dlnk := { s.dlnk with
      roll := some { comp := c, step := 1, start := s.time.real, status := 0, desat := false, cmp := none, oc := none } } }
    if c = 0x10 then s.hysteresis.chop else s

/-- What waited for the reconnection acts at step 4 (R431). -/
def State.rollDeferred (c : Nat) (r : RollSt) (s : State) : State :=
  let s := if r.desat ∧ c < 8 then s.desat c else s
  let s := match r.cmp with | some (a, b, t) => s.cmpApply a b t | none => if c = 0x10 then s.hysteresis.chop else s
  match r.oc with | some v => s.ocApply (c - 0x18) v | none => s

/-- ROLL_CHECKPOINT (R429, R430): the output found at the next of the three checks. -/
def opRollCheckpoint (out : Bool) (s : State) : State :=
  match s.dlnk.roll with
  | none => s
  | some r =>
    let s := s.advanceReal (r.start + 1000 * r.step)
    let st := if r.status = 0 ∧ out ≠ (r.step == 2) then r.step else r.status
    if r.step < 3 then { s with dlnk := { s.dlnk with roll := some { r with step := r.step + 1, status := st } } }
    else (s.rollEnd r.comp st).rollDeferred r.comp r

def execAdcWindowEnd (n : Fin 16) (t : Nat) (vin : Int) (unstable : Bool) (s : State) : Host.Outcome State Fault Refusal :=
  .next (opAdcWindowEnd n t vin unstable s)
def execSadcCfgWrite (n : Fin 16) (k : Fin 3) (v : Word) (s : State) : Host.Outcome State Fault Refusal :=
  .next (opSadcCfgWrite n k v.toNat s)
def execSadcImgWrite (v : Word) (s : State) : Host.Outcome State Fault Refusal := .next (opSadcImgWrite v.toNat s)
def execSadcFifoPop (n : Fin 16) (s : State) : Host.Outcome State Fault Refusal := .next (opSadcFifoPop n s)
def execOvercurrentComparatorChange (k : Fin 3) (v : Nat) (s : State) : Host.Outcome State Fault Refusal :=
  .next (opOvercurrentComparatorChange k v s)
def execOcLatchClear (m : Nat) (s : State) : Host.Outcome State Fault Refusal := .next (opOcLatchClear m s)
def execRollRequest (comp : Fin 32) (s : State) : Host.Outcome State Fault Refusal := .next (opRollRequest comp s)
def execRollCheckpoint (out : Bool) (s : State) : Host.Outcome State Fault Refusal := .next (opRollCheckpoint out s)

end Sys2Proof.Machine
end

