-- ==== Sys2Proof/Machine/Power.lean ====
section
/-! DEFINITION. Machine/Power.lean: supplies, temperature, power domains, reference and link faults, resets, the first steps of start-up,
mode requests and Standby (01, R13-R18; 24), the countdown's expiry (02, R50), and their commands. -/

namespace Sys2Proof.Machine

/-! ## What a reset leaves (R583; 09, R235) -/

/-- Fields of the RTC block, which only COLD resets. -/
def rtcKey (k : Nat) : Bool := inRange (k / 32) 0x10006000 0x1000
def lantKey (k : Nat) : Bool := inRange (k / 32) 0x10027000 0x1000

/-- The registers after a reset that keeps some keys. -/
def keepFlds (f : Nat → Bool) (t : Store Nat) : Store Nat :=
  (t.filter fun p => f p.1).foldl (fun r p => Store.put p.1 p.2 r) (resetFlds.filter fun p => !f p.1)

/-- What a power-on or system reset leaves; SRAM holds its content until the initialiser has run (09, R227). A condition outside the reset blocks
(a supply, a temperature) shows its reset value until the next command reports it (DEDUCED, log entry 156). -/
def State.afterReset (sys : Bool) (s : State) : State :=
  let s := if s.pwr.linkLost then s else s.keepAbandon 4
  { State.reset with
    flds := keepFlds (fun k => rtcKey k || (sys && (lantKey k || k == R.RST_COUNT_SYS.key 0 0 || k == R.RST_COUNT_ENG.key 0 0))) s.flds,
    mem := s.mem, back := s.back, work := s.work, nor := s.nor, arr := s.arr, m := { MemSt.reset with ecc := s.m.ecc },
    time := { TimeSt.reset with real := s.time.real, cd0 := s.time.cd0, subHeld := s.time.subHeld, glint := s.time.glint, glTaken := s.time.glTaken, glFt := s.time.glFt,
                                glEdge := s.time.glEdge, setgo := s.time.setgo, cdnOwed := s.time.cdnOwed },
    keep := { KeepSt.reset with wear := s.keep.wear }, brick := { BrickSt.reset with mem := s.brick.mem },
    pwr := { PwrSt.reset with cause := s.pwr.cause, prev := s.pwr.prev }, crypto := { CryptoSt.reset with rng := s.crypto.rng },
    lan := if sys then { s.lan with queue := [], rst := none } else LanSt.reset,
    freeCtr := s.freeCtr, pending := s.pending }

/-- Latch a cause code in PD0 (R579). -/
def State.latchCause (c : Nat) (s : State) : State := { s with pwr := { s.pwr with cause := c, prev := s.pwr.cause } }

/-- Step 1 of start-up: `RST.CAUSE` is loaded (R585). -/
def State.stepOne (s : State) : State :=
  { (s.put R.RST_CAUSE_CODE s.pwr.cause).put R.RST_CAUSE_PREV s.pwr.prev with phase := .starting }

/-- A power-on reset that is not released yet. -/
def State.powerReset (c : Nat) (p : Phase) (s : State) : State := { (s.latchCause c).afterReset false with phase := p }

/-- A system reset, released at once (R579, R585); every engine is released afresh (25). -/
def State.systemReset (c : Nat) (s : State) : State :=
  let s := (((s.latchCause c).afterReset true).put R.LANT_HALTST_HALTED 0).put R.LANT_HALTST_PENDING 0
  ((s.put R.LANT_STAT_EMUSTBY 0).bump R.RST_COUNT_SYS).stepOne

/-- A system reset by command: a Lead hands its pins over first (12, R291). -/
def State.commandReset (c : Nat) (s : State) : State := (if s.get R.RFL_STAT_ROLE = 1 then s.handOver else s).systemReset c

/-- The device wakes from Standby (R17, R590). -/
def State.wake (c : Nat) (s : State) : State :=
  if s.is R.LANT_STAT_EMUSTBY then s.systemReset c else (s.powerReset c .starting).stepOne

/-! ## Supplies (R566-R571) -/

/-- POWER_FAIL_WARNING_START (R570, R571; 17, R449): `cycle` says that the brick memory is in a write cycle. Monitored from step 2 on. -/
def opPowerFailWarningStart (cycle : Bool) (s : State) : State :=
  if s.is R.PWR_STAT_PFW || !(s.phase == .up || (s.phase == .starting && decide (2 ≤ s.get R.SYS_BOOTSTAT_STEP))) then s
  else
    let want := if s.pwr.standby then none else s.pwr.want
    let s := { s with pwr := { s.pwr with standby := false, wbDue := false, want := want } }
    let s := s.put R.SYS_MODEREQ_PEND (b2n want.isSome)
    (((s.put R.PWR_STAT_PFW 1).level 0 true 0).keepWarning).brickWarning.keepSettle.brickPowerFail cycle

/-- POWER_FAIL_WARNING_END (R570, R571). -/
def opPowerFailWarningEnd (s : State) : State :=
  if s.is R.PWR_STAT_PFW then ((s.put R.PWR_STAT_PFW 0).level 0 false 0).keepWarningEnd else s

/-- SUPPLY_WINDOW_CHANGE (R566): VDD_CORE, VDD_1V8, VDD_IO, or VBAK with its reading in mV. -/
def opSupplyWindowChange (k : Nat) (out : Bool) (mv : Nat) (s : State) : State :=
  let s := if k < 3 then s.putBit R.PWR_STAT_OUTWIN k out else (s.put R.PWR_STAT_VBAKLOW (b2n out)).put R.PWR_VBAK_MV mv
  s.level (1 + k) out 0

/-- POWER_ON_RESET_ASSERT (R567, R579, R590): a main supply falls below its assertion threshold; pins are released (R584). -/
def opPowerOnResetAssert (s : State) : State :=
  match s.phase with
  | .off => s
  | .standby => s.powerReset 1 .off
  | _ => s.powerReset (if s.phase == .reset then s.pwr.cause else 2) .off

/-- PD0 powers up after losing retention (09, R233): the RTC block takes its reset values and COLD is set; what PD0 had latched is lost. -/
def State.coldStart (s : State) : State :=
  let f := s.free
  let s := { f.2 with
    flds := f.2.flds.filter fun p => !rtcKey p.1,
    time := { f.2.time with cd0 := 0, subHeld := none, glint := none, glTaken := none, glFt := 0, glEdge := 0, setgo := false, cdnOwed := false },
    pwr := { f.2.pwr with cause := 1, prev := f.1 % 256 } }
  s.put R.RTC_BKSTAT_COLD 1

/-- POWER_ON_RESET_RELEASE (R567, R572, R585 step 1): `cold` is R569's condition, `mv` the VBAK reading. -/
def opPowerOnResetRelease (cold : Bool) (mv : Nat) (s : State) : State :=
  if !(s.phase == .off || s.phase == .reset) || s.pwr.hot then s
  else
    let s := if cold then s.coldStart else s
    (s.put R.PWR_VBAK_MV mv).stepOne

/-! ## Steps 2 and 3 of start-up (R585) -/

/-- A reference fault (R577). -/
def State.refFault (s : State) : State :=
  (((s.put R.CLK_STAT_XOK 0).put R.CLK_STAT_RCREF 1).put R.CLK_STAT_LOSS 1).raise 7 0

/-- PLL_LOCK (R585 step 2; R577 when the crystal does not run): recall and the initialiser start, the flash's table is read (26, R623), and
level conditions that stand are taken up (R570). -/
def opPllLock (xok : Bool) (s : State) : State :=
  if s.phase != .starting || s.get R.SYS_BOOTSTAT_STEP != 1 then s
  else
    let s := { ((s.put R.SYS_BOOTSTAT_STEP 2).put R.CLK_STAT_LOCK 1).put R.SYS_ECC_STAT_INIT 1 with m := { s.m with init := true } }
    let s := (s.put R.UPD_FINFO_MIB Config.flashMiB).put R.UPD_FINFO_OK (b2n Config.flashOk)
    let s := if xok then s.put R.CLK_STAT_XOK 1 else { s with pwr := { s.pwr with refDue := true } }.refFault
    let s := State.forAll (List.range 3) (fun k s => s.level (1 + k) (bit (s.get R.PWR_STAT_OUTWIN) k) 0) s
    let s := (s.level 4 (s.is R.PWR_STAT_VBAKLOW) 0).level 129 (s.is R.DIO_STAT_UV) 0
    if s.is R.PWR_STAT_PFW then
      let s := s.level 0 true 0
      { s with keep := { s.keep with pfail := true } }
    else s

/-- SV is released at the boot ROM entry at P0 (R585 step 3), halted there if `HALTRST` names it (25, R615). -/
def State.svRelease (s : State) : State :=
  let s := { s.setEng 4 { Eng.reset 4 with live := true, stop := .none } with exc := { s.exc with svAt := s.time.real } }
  if bit (s.get R.LANT_CTL_HALTRST) 4 then s.haltNow 4 7 0 false else s

/-- SRAM_INIT_COMPLETE (09, R227; R585 step 3; step 4 as well if recall is over already): the writes that waited for it are made now. -/
def opSramInitComplete (s : State) : State :=
  if !s.m.init then s
  else
    let l := s.m.held
    let s := { s with mem := [], back := [], work := [], m := { s.m with ecc := [], init := false, held := [] } }
    let s := State.forAll l (fun h s => (s.memWrite h.req h.addr h.bytes).1) s
    ((s.put R.SYS_ECC_STAT_INIT 0).put R.SYS_BOOTSTAT_STEP (if s.is R.KEEP_STAT_RECALL then 3 else 4)).svRelease

/-! ## Temperature (R572) -/

/-- A limit with 5 K of hysteresis. -/
def tempAbove (t : Int) (limit : Nat) (was : Bool) : Bool := if (16 * limit : Nat) ≤ t then true else if t ≤ 16 * ((limit : Int) - 5) then false else was

/-- TEMPERATURE_SAMPLE (R572): `t` in 1/16 °C. -/
def opTemperatureSample (t : Int) (s : State) : State :=
  if s.phase == .starting || s.phase == .up then
    if 2400 ≤ t then let s := s.powerReset 3 .reset; { s with pwr := { s.pwr with hot := true } }
    else
      let w := tempAbove t (s.get R.PWR_CTL_TJWARN) (s.is R.PWR_STAT_TJW)
      let c := tempAbove t (s.get R.PWR_CTL_TJCRIT) (s.is R.PWR_STAT_TJC)
      let s := ((s.put R.PWR_TEMP_T (ofSigned 16 t)).put R.PWR_STAT_TJW (b2n w)).put R.PWR_STAT_TJC (b2n c)
      (s.level 5 w (ofSigned 16 (t / 16))).level 6 c (ofSigned 16 (t / 16))
  else if t < 2160 then { s with pwr := { s.pwr with hot := false } }
  else s

/-! ## Power domains (R573, R574) -/

/-- Channels of a converter group are disabled; outputs of a group have source 0. -/
def State.adcGroupOff (s : State) (lo n : Nat) : Bool := (List.range n).all fun i => !s.is R.SADC_CH_CFG_EN (lo + i)
def State.aoGroupOff (s : State) (lo : Nat) : Bool := (List.range 4).all fun i => s.get R.AOUT_CH_CFG_SRC (lo + i) == 0
def State.gdOff (s : State) : Bool := (List.range 8).all fun n => !s.is R.GD_CTL_EN n

/-- The switching condition of a domain (R573). -/
def State.domMayGo (s : State) (n : Nat) : Bool :=
  if inRange n 2 4 then
    !s.inRun && (List.range 48).all (fun t => !(s.is R.TSK_CFG_EN t && s.tEng t == n - 2)) &&
      !(if n < 4 then s.is R.EXC_CTL_MIR01 else s.is R.EXC_CTL_MIR23)
  else if n = 20 ∨ n = 21 then !s.is R.FP_CFG_EN (n - 20)
  else if n = 22 ∨ n = 23 then !s.is R.FP_CFG_EN (2 * n - 42) && !s.is R.FP_CFG_EN (2 * n - 41)
  else if n = 24 then !s.is R.RFL_CFG_EN
  else if n = 26 then (List.range 4).all fun a => s.is R.DMA_STAT_IDLE a
  else if n = 27 then !s.inRun && s.gdOff
  else if n = 33 then !s.is R.DIO_IBIND_EN
  else if n = 34 then (List.range 16).all fun k => s.get R.DIO_DO_CFG_SRC k == 0
  else if n = 35 then s.adcGroupOff 0 4 && (List.range 3).all fun k => !s.is R.SADC_OC_EN k
  else if n = 36 then s.adcGroupOff 4 6
  else if n = 37 then s.adcGroupOff 10 6
  else if n = 39 then s.aoGroupOff 0
  else if n = 40 then s.aoGroupOff 4 && !s.is R.DLNK_CTL_ONSRC
  else if n = 42 then !s.is R.BRICK_CTL_EN
  else if 44 ≤ n then !s.is R.GD_CTL_EN (n - 44)
  else false

/-- The switchable domain that a register belongs to (R573); the slots of GD0-GD7 lie on the core side, PD27 (DEDUCED, log entry 30). -/
def regDomain (a : Nat) : Option Nat :=
  let ps := (a - 0x10000000) / 0x1000
  let o := a % 0x1000
  if a < 0x10000000 then none
  else if inRange ps 8 4 then some (ps - 6)
  else if ps = 17 then some 24
  else if ps = 18 ∨ ps = 19 then some (ps + 2)
  else if ps = 20 ∨ ps = 21 then some 22
  else if ps = 22 ∨ ps = 23 then some 23
  else if inRange ps 24 9 then some 27
  else if ps = 35 then
    let ch := if inRange o 0x40 0x100 then some ((o - 0x40) / 16) else if inRange o 0x200 0xC0 then some (o % 64 / 4) else none
    ch.map fun n => if n < 4 then 35 else if n < 10 then 36 else 37
  else if ps = 36 then if o < 0x40 then some 39 else if o < 0x80 then some 40 else none
  else if ps = 38 then
    if inRange o 0x08 0x1C || inRange o 0x100 0xC0 then some 33 else if inRange o 0x24 0x20 || inRange o 0x200 0x40 then some 34 else none
  else if ps = 41 then some 26
  else if ps = 43 then some 42
  else none

/-- Registers of a domain take their reset values. -/
def State.domRegs (n : Nat) (s : State) : State :=
  { s with flds := keepFlds (fun k => regDomain (k / 32) != some n) s.flds }

/-- A domain is switched on: its blocks hold their reset values (R574). -/
def State.domOn (n : Nat) (s : State) : State :=
  let s := s.domRegs n
  if inRange n 2 4 then (s.setEng (n - 2) (Eng.reset (n - 2))).upPrg (n - 2) fun _ => PrgSt.reset
  else if n = 20 ∨ n = 21 then { s with ports := Store.del (n - 20) s.ports }
  else if n = 22 ∨ n = 23 then { s with ports := Store.del (2 * n - 42) (Store.del (2 * n - 41) s.ports) }
  else if n = 24 then { s with rfl := RflSt.reset }
  else if n = 26 then { s with m := { s.m with dma := [] } }
  else if n = 27 then { s with pwm := PwmSt.reset, dies := [] }
  else if n = 34 then { s with dio := { s.dio with ovl := 0, thm := 0, hold := 65535, walk := [] } }.doRefresh.dioFault
  else if n = 33 then { s with dio := { s.dio with broken := 0, cnt := [], seen := s.now } }.dioFault
  else if inRange n 35 3 then { s with adc := s.adc.map fun (p : Nat × AdcSt) =>
      if (if p.1 < 4 then 35 else if p.1 < 10 then 36 else 37) = n then (p.1, { AdcSt.reset with imgOnce := p.2.imgOnce || p.2.img.isSome || p.2.fresh.isSome }) else p }
  else if n = 39 ∨ n = 40 then { s with ao := s.ao.filter fun p => 39 + p.1 / 4 != n }
  else if n = 42 then { s with brick := { s.brick with xfer := 0, waitRetry := false, failed := false } }
  else if 44 ≤ n then (s.put R.GD_STAT_CFGOK 0 (n - 44)).upDie (n - 44) fun _ => DieSt.reset
  else s

def State.putDom (n : Nat) (v : Bool) (s : State) : State :=
  if n < 32 then s.putBit R.PWR_DOMOFF_LO_M n v else s.putBit R.PWR_DOMOFF_HI_M (n - 32) v

/-- DOMAIN_SWITCH (R574): a write of one bit of `PWR.DOMOFF`. -/
def opDomainSwitch (n : Nat) (off : Bool) (s : State) : State :=
  if s.domOff n == off then s
  else if off then (if s.domMayGo n then s.putDom n true else s.put R.PWR_STAT_DOMERR 1)
  else (s.putDom n false).domOn n

/-! ## Reference and die-to-die link (R577, R578) -/

/-- REFERENCE_FAULT (R577). Before the end of start-up the device fault waits for step 9. -/
def opReferenceFault (s : State) : State :=
  if s.is R.CLK_STAT_RCREF then s
  else if s.phase == .up then s.refFault.deviceFault 5
  else if s.phase == .starting then { s with pwr := { s.pwr with refDue := true } }.refFault
  else s

/-- DIE_LINK_LOSS (R578): the device fault; the DLNK block takes CMPTRIP as 1; the Keep controller serves nothing more. -/
def opDieLinkLoss (s : State) : State :=
  if s.pwr.linkLost || !(s.phase == .up || s.phase == .starting) then s
  else
    let s := s.keepAbandon 4
    let s := s.deviceFault 4
    let s := { s with pwr := { s.pwr with linkLost := true } }
    (s.put R.DLNK_STAT_CMPTRIP 1).xferEnd

/-! ## Resets (R579-R582; 07, R193) -/

/-- NRST_LOW (R580, R590): the whole pulse; in Standby it wakes the device. -/
def opNrstLow (s : State) : State :=
  match s.phase with
  | .standby => s.wake 0x0A
  | .off => s
  | .reset => s
  | _ => s.systemReset 4

/-- RST_CMD (R581): a write of `RST.CMD.KEY` by SV, so only while it runs; the second key resets 10 µs later. -/
def opRstCmd (v : Nat) (s : State) : State :=
  if s.halted 4 || (s.eng 4).stop != .none then s
  else if s.pwr.key && v % 256 == 0x3C then (s.advance (s.now + 10000)).commandReset 5 else { s with pwr := { s.pwr with key := v % 256 == 0xC3 } }

/-- RST_ENG (R582). -/
def opRstEng (m : Nat) (s : State) : State :=
  State.forAll (setBits 4 m)
    (fun e s => if s.umbra (4 + e) || s.halted e then (s.stopEngine e (s.eng e).stop).engineReset e else s.put R.RST_STAT_ENGERR 1) s

/-- AUTO_RESET (07, R193): `ARDELAY` ms after the fault, in start-up too; in Standby the device leaves by countdown or nRST only (01, R17). -/
def opAutoReset (s : State) : State :=
  match s.exc.autoRst with
  | some t => if s.phase == .up || s.phase == .starting then (s.advanceReal (t + 1000000 * s.get R.EXC_CTL_ARDELAY)).systemReset 6 else s
  | none => s

/-! ## Modes (R587-R590; 01, R14-R17) -/

/-- BOOTCFG_STORE (R587): bit [0] of the byte holds STARTRUN and bit [1] HOLDAFT (DESIGN CHOICE, log entry 31). -/
def opBootcfgStore (s : State) : State :=
  (s.keepWait true 0xFF0011 0 [BitVec.ofNat 8 (s.get R.SYS_BOOTCFG_STARTRUN + 2 * s.get R.SYS_BOOTCFG_HOLDAFT)]).keepSettle

/-- An enabled task names an engine without a program. -/
def State.noProgram (s : State) : Bool := (List.range 48).any fun n => s.is R.TSK_CFG_EN n && !(s.prgSt (s.tEng n)).loaded

/-- Why a Run request is refused, but for the mode itself (R588): the checks made at the write and again at the tick. -/
def State.runErr (s : State) : Option Nat :=
  if s.tableCheck.isSome then some 0x10
  else if s.period % max 1 (s.get R.GDRV_CP_CP) != 0 then some 0x11
  else if s.noProgram then some 0x12
  else none

/-- A of the next tick (02, R38; 06, R148). -/
def State.nextA (s : State) : Nat :=
  match s.time.nextTick with
  | some t => (t / 10 - s.get R.TURN_PHASE_PHI) / max 1 s.period
  | none => s.seq.abs + 1

/-- A tick with turn number `a` would be a switching tick, or that of a handover (R280; 26, R634). Before the tick every due group counts (DEDUCED,
log entry 161); at it, `now`, those that can switch. -/
def State.tickTaken (s : State) (a : Nat) (now : Bool) : Option Nat :=
  if !s.inRun then none
  else if ((s.dueGroups a).map s.group).any fun l => !now || (s.groupReady l && s.groupFits l) then some 0x30
  else match s.upd.at_ with
    | some h => if h ≤ a then some 0x31 else none
    | none => none

/-- The reason for which a mode request is refused (R588), in the order of the table. -/
def State.modeRefused (s : State) (m : Nat) : Option Nat :=
  let run := if m = 0 then s.runErr else none
  match run with
  | some r => some r
  | none =>
    if m ≠ 1 ∧ !s.is R.TURN_CTL_EN then some 0x13
    else if s.following then some 0x14
    else if s.phase == .standby then some 0x15
    else if m = 0 ∧ s.devFault then some 0x16
    else if m ≠ 0 then s.tickTaken s.nextA false
    else none

/-- Step 1 of R589: flush and write-back (17, R450), and the retain save (21, R516). -/
def State.standbyStart (s : State) : State :=
  let busy := s.brick.xfer != 0
  let s := { s with pwr := { s.pwr with standby := true, wbDue := busy } }.flush
  let s := if busy then s else opBrickWb s
  if s.is R.KEEP_CTL_STBYSAVE then s.saveRequest.keepSettle else s

/-- Record a refusal (R588); that of check 0x10 is in `TSK.STAT`, and that of the carrier period in `GDRV.STAT` (15, R405). -/
def State.modeReason (r : Nat) (s : State) : State :=
  let s := s.put R.SYS_MODEREQ_REASON r
  let s := if r = 0x11 then s.put R.GDRV_STAT_CPERR 1 else s
  match s.tableCheck with
  | some p => if r = 0x10 then s.recordErr p else s
  | none => s

/-- MODE_REQUEST (R588): 0b11 is reserved and changes nothing (00, R5). -/
def opModeRequest (m : Nat) (s : State) : State :=
  if 3 ≤ m then s
  else
    match s.modeRefused m with
    | some r => s.modeReason r
    | none =>
      let s := { s with pwr := { s.pwr with want := some m, standby := false, wbDue := false } }
      let s := (s.put R.SYS_MODEREQ_REASON 0).put R.SYS_MODEREQ_PEND 1
      if m = 2 ∧ !s.inRun then s.standbyStart else s

/-- Step 3 of R589: every domain but PD0 is switched off, and their blocks hold nothing but reset values from then on (R574; 01, R17). -/
def State.powerDown (s : State) : State := { s.afterReset false with phase := .standby }

/-- STANDBY_ENTRY (R589; 25, R619): steps 2 and 3, once step 1 is over. -/
def opStandbyEntry (s : State) : State :=
  if !s.pwr.standby || s.inRun || s.phase != .up || s.brick.xfer != 0 then s
  else if s.pwr.wbDue then opBrickWb (State.flush { s with pwr := { s.pwr with wbDue := false } })
  else if s.keepLen ≠ 0 then s
  else
    let s := if s.get R.RFL_STAT_ROLE = 1 then s.handOver else s.setReleased true
    let s := { s.put R.SYS_MODEREQ_PEND 0 with pwr := { s.pwr with want := none, standby := false } }
    let s := { s with phase := .standby, time := { s.time with nextTick := none } }
    if s.is R.LANT_STAT_ATT then
      State.forAll (List.range 5) (fun e s => if s.halted e then s else s.haltNow e 8 0 false) (s.put R.LANT_STAT_EMUSTBY 1)
    else s.powerDown

/-- CD0 cycles until the countdown reaches 0, of the clock that CLK selects (02, R50); with LOAD 0 none (DESIGN CHOICE, log entry 168). -/
def State.cdnLeft (s : State) : Nat :=
  let v := s.get R.RTC_CDN_VAL_V
  if s.is R.RTC_CDN_CTL_CLK then v else 32768 * v - (if v = 0 then 0 else s.get R.RTC_SUB_SS)

/-- COUNTDOWN_EXPIRY (02, R50): time reaches the instant at which the countdown is 0. -/
def opCountdownExpiry (s : State) : State :=
  if !s.is R.RTC_CDN_CTL_EN then s
  else
    let s := s.cyclesPass (s.cd0Cycles s.cdnLeft)
    let s := s.put R.RTC_CDN_CTL_EXP 1
    let s := if s.is R.RTC_CDN_CTL_RELOAD then s.put R.RTC_CDN_VAL_V (s.get R.RTC_CDN_LOAD_V)
      else (s.put R.RTC_CDN_VAL_V 0).put R.RTC_CDN_CTL_EN 0
    if s.phase == .up then s.raise 23 0
    else
      let s := { s with time := { s.time with cdnOwed := true } }
      if s.phase == .standby && s.is R.RTC_CDN_CTL_WAKE then s.wake 9 else s

def execPowerFailWarningStart (cycle : Bool) (s : State) : Host.Outcome State Fault Refusal := .next (opPowerFailWarningStart cycle s)
def execPowerFailWarningEnd (s : State) : Host.Outcome State Fault Refusal := .next (opPowerFailWarningEnd s)
def execSupplyWindowChange (k : Fin 4) (out : Bool) (mv : Nat) (s : State) : Host.Outcome State Fault Refusal :=
  .next (opSupplyWindowChange k out mv s)
def execPowerOnResetAssert (s : State) : Host.Outcome State Fault Refusal := .next (opPowerOnResetAssert s)
def execPowerOnResetRelease (cold : Bool) (mv : Nat) (s : State) : Host.Outcome State Fault Refusal := .next (opPowerOnResetRelease cold mv s)
def execPllLock (xok : Bool) (s : State) : Host.Outcome State Fault Refusal := .next (opPllLock xok s)
def execSramInitComplete (s : State) : Host.Outcome State Fault Refusal := .next (opSramInitComplete s)
def execTemperatureSample (t : Int) (s : State) : Host.Outcome State Fault Refusal := .next (opTemperatureSample t s)
def execDomainSwitch (n : Fin 52) (off : Bool) (s : State) : Host.Outcome State Fault Refusal := .next (opDomainSwitch n off s)
def execReferenceFault (s : State) : Host.Outcome State Fault Refusal := .next (opReferenceFault s)
def execDieLinkLoss (s : State) : Host.Outcome State Fault Refusal := .next (opDieLinkLoss s)
def execNrstLow (s : State) : Host.Outcome State Fault Refusal := .next (opNrstLow s)
def execRstCmd (v : Byte) (s : State) : Host.Outcome State Fault Refusal := .next (opRstCmd v.toNat s)
def execRstEng (m : Nat) (s : State) : Host.Outcome State Fault Refusal := .next (opRstEng m s)
def execAutoReset (s : State) : Host.Outcome State Fault Refusal := .next (opAutoReset s)
def execBootcfgStore (s : State) : Host.Outcome State Fault Refusal := .next (opBootcfgStore s)
def execModeRequest (m : Nat) (s : State) : Host.Outcome State Fault Refusal := .next (opModeRequest m s)
def execStandbyEntry (s : State) : Host.Outcome State Fault Refusal := .next (opStandbyEntry s)
def execCountdownExpiry (s : State) : Host.Outcome State Fault Refusal := .next (opCountdownExpiry s)

end Sys2Proof.Machine
end

