-- ==== Sys2Proof/Machine/Reflect.lean ====
section
/-! DEFINITION. Machine/Reflect.lean: Shadow pairs (12): roles and ownership, the frames of the Reflect link, sweeps, digests, rejoin and
swap, and their commands. What a tick does on a Lead or a following Shadow is put together in Machine/Tick.lean. -/

namespace Sys2Proof.Machine

/-! ## Roles and ownership (R286-R293) -/

/-- The unit keeps its pins: it drives them, or releases them. -/
def State.ownPins (v : Bool) (s : State) : State :=
  let s := (s.put R.RFL_STAT_OWN (b2n v)).setReleased (!v)
  if v then s.outRefresh else s

/-- The engines stop as in Hold (R309, R311). -/
def State.enginesHeld (s : State) : State := State.forAll (List.range 4) (fun e s => s.stopEngine e .held) s

/-- Become Shadow not following (R288, R293): no engine works on; rejoin is tried when `AUTOREJOIN` is set (R309). -/
def State.shadowIdle (s : State) : State :=
  let s := (s.enginesHeld.ownPins false).put R.RFL_STAT_ROLE 3
  { s with rfl := { s.rfl with
      claim := false, waitOwn := false, both := false, taking := false,
      retryAt := if s.is R.RFL_CFG_AUTOREJOIN then some (s.now + s.get R.RFL_SWLIM_RETRY * 1000000000) else none } }.conflict

/-- Start as Lead: a new sequence of records begins with every input block (R299). -/
def State.leadStart (s : State) : State :=
  let s := ((s.put R.RFL_STAT_ROLE 1).put R.RFL_STAT_READY 0).put R.RFL_STAT_MISSED 0
  { s with rfl := { s.rfl with claim := false, waitOwn := false, release := false, taking := false, cur := none, nxt := none, skipped := none, last := none, behind := [], relOld := [], farq := [], rels := [],
                               allImage := true,
                               staged := [], repair := none, round := [], dirty := [], statusSeen := false, sync := false, nextIdx := 0, frames := [],
                               headFlags := 0, full := false } }

/-- Counting resumes from the last frame with an empty residue, and the record is read (17, R455). -/
def State.brickTaken (s : State) : State := opBrickRead { s with brick := { s.brick with res := [], det := [], keepMax := true } }

/-- Ownership at the end of start-up (R287, R288; 24, R585 step 9). -/
def State.ownStart (s : State) : State :=
  if s.is R.RFL_CFG_MODE then (if s.is R.RFL_STAT_OWNIN then s.shadowIdle else s)
  else (s.ownPins (!s.is R.RFL_STAT_OWNIN)).conflict

/-- RFL_CFG_WRITE (R286): MODE and UNIT in Hold with the link down; reserved values keep their field (00, R5). -/
def opRflCfgWrite (v : Nat) (s : State) : State :=
  let same := b2n (bit v 1) == s.get R.RFL_CFG_MODE && b2n (bit v 2) == s.get R.RFL_CFG_UNIT
  let ok := !s.inRun && !s.is R.RFL_STAT_LINK
  let was := s.is R.RFL_CFG_MODE
  let s := (s.put R.RFL_CFG_EN (b2n (bit v 0))).put R.RFL_CFG_AUTOREJOIN (b2n (bit v 3))
  let s := if 1 ≤ bits v 4 4 ∧ bits v 4 4 ≤ 8 then s.put R.RFL_CFG_M (bits v 4 4) else s
  let s := if bits v 8 8 = 0 then s else s.put R.RFL_CFG_CLAIMWAIT (bits v 8 8)
  if same then s
  else if !ok then s.put R.RFL_STAT_CFGERR 1
  else
    let s := (s.put R.RFL_CFG_MODE (b2n (bit v 1))).put R.RFL_CFG_UNIT (b2n (bit v 2))
    if was == bit v 1 || s.phase != .up then s
    else if was then ({ s with rfl := RflSt.reset }.put R.RFL_STAT_ROLE 0).ownStart
    else (s.ownPins false).ownStart

/-- OWNERSHIP_CLAIM (R288): unit 0 at the end of start-up, unit 1 CLAIMWAIT ms later. -/
def opOwnershipClaim (s : State) : State :=
  if !s.is R.RFL_CFG_MODE || s.get R.RFL_STAT_ROLE != 0 || s.phase != .up || s.rfl.claim || s.rfl.waitOwn then s
  else if s.is R.RFL_STAT_OWNIN then s.shadowIdle
  else { s with rfl := { s.rfl with claim := true } }.put R.RFL_STAT_OWN 1

/-- The claim succeeds. -/
def State.claimed (s : State) : State := (s.leadStart.ownPins true).brickTaken

/-- OWNERSHIP_SAMPLE (R288): 4 µs after the claim. -/
def opOwnershipSample (s : State) : State :=
  if !s.rfl.claim then s
  else if !s.is R.RFL_STAT_OWNIN then s.claimed
  else if s.is R.RFL_CFG_UNIT then s.shadowIdle
  else { s with rfl := { s.rfl with claim := false, waitOwn := true } }

/-- OWN_IN_CHANGE (R287, R288, R293); a brick read that waited for the pins begins (17, R440). -/
def opOwnInChange (high : Bool) (s : State) : State :=
  let s := s.put R.RFL_STAT_OWNIN (b2n high)
  let s := if high then s else { s with rfl := { s.rfl with both := false } }
  if s.phase != .up then s
  else if s.rfl.waitOwn && !high then s.claimed.conflict
  else if s.get R.RFL_STAT_ROLE = 0 ∧ !s.is R.RFL_CFG_MODE then
    let s := (s.ownPins (!high)).conflict
    if !high && s.brick.id.isEmpty then opBrickRead s else s
  else s.conflict

/-- OWNERSHIP_CONFLICT (R293): both lines asserted for more than 4 µs. -/
def opOwnershipConflict (s : State) : State :=
  if !s.is R.RFL_STAT_OWN || !s.is R.RFL_STAT_OWNIN || !s.is R.RFL_CFG_MODE then s
  else
    let s := { s with rfl := { s.rfl with both := true } }.conflict
    if s.is R.RFL_CFG_UNIT then s.shadowIdle else s

/-- LINK_UP (R294). -/
def opLinkUp (s : State) : State := if s.is R.RFL_CFG_EN then ((s.put R.RFL_STAT_LINK 1).level 254 false 0).conflict else s

/-- LINK_DOWN (R294). -/
def opLinkDown (s : State) : State := ((s.put R.RFL_STAT_LINK 0).level 254 true 0).conflict

/-- RELEASE_ORDERED_SET (R292, R295). -/
def opReleaseOrderedSet (s : State) : State := { s with rfl := { s.rfl with release := true } }.conflict

/-- Commit the named instances that have completed (R292, R302); the tasks committed. -/
def State.commitNamed (l : List Nat) (s : State) : State × List Nat :=
  l.foldl
    (fun r n =>
      let t := r.1.task n
      let l := (t.done ++ t.inst.toList).filter fun i => i.st == .complete
      if l.isEmpty then r
      else (((r.1.upT n fun t => { t with done := [], inst := t.inst.filter fun i => i.st != .complete }).countCommits l).commitTask n, r.2 ++ [n]))
    (s, [])

/-- The physical outputs follow a commit (06, R167; 15, R409; 19, R478; 20, R496). -/
def State.outCommit (l : List Nat) (s : State) : State :=
  ((State.forAll (List.range 8) (State.aoCommit l) s.pwmCommit).doCommit l).chop

/-- The pins are the unit's to take: it follows, or it has become Lead in a swap (R292, R310). -/
def State.mayTake (s : State) : Bool := s.following || (s.lead && s.rfl.taking)

/-- TAKEOVER (R292): OWN_IN has been low for 200 ns after RELEASE or with the link down. What END of the turn executed names is committed; before it
has come, the last END received is that of the turn before, whose instances are committed already. -/
def opTakeover (s : State) : State :=
  if !s.mayTake || s.is R.RFL_STAT_OWNIN || !(s.rfl.release || !s.is R.RFL_STAT_LINK) || s.is R.RFL_STAT_OWN then s
  else
    let s := { s with rfl := { s.rfl with taking := false } }.ownPins true
    let r := s.commitNamed (((s.rfl.cur.bind RecvRec.fin).map EndRec.names).getD [])
    ((r.1.outCommit r.2).brickTaken).conflict

/-! ## Frames received (R296-R299) -/

/-- Serial-number comparison of sequences (R299): `a` is newer than `b`. -/
def seqNewer (a b : Nat) : Bool := a != b && decide ((a + 65536 - b) % 65536 < 32768)

/-- The unit listens to records: a following Shadow, or one that rejoins. -/
def State.listens (s : State) : Bool :=
  s.is R.RFL_STAT_LINK && (s.following || (s.get R.RFL_STAT_ROLE == 3 && 1 ≤ s.get R.RFL_STAT_REJ && s.get R.RFL_STAT_REJ ≤ 4))

/-- A frame goes into its record. While a frame is owed that came with a bad CRC, one that leaves no gap is that frame, sent again (R296). -/
def State.intoRecord (n idx : Nat) (f : RecvRec → RecvRec) (r : RecvRec) (put : RecvRec → State → State) (s : State) : State :=
  let again := s.rfl.owed != 0 && (List.range idx).all r.idx.contains
  put (f { r with seq := n, idx := r.idx ++ [idx] }) { s with rfl := { s.rfl with owed := s.rfl.owed - b2n again } }

/-- Apply a change to the record that a frame belongs to; a frame older than the record being assembled is discarded (R299). -/
def State.record (seq idx : Nat) (f : RecvRec → RecvRec) (s : State) : State :=
  let next (r : RecvRec) (s : State) : State := s.intoRecord seq idx f r fun r s => { s with rfl := { s.rfl with nxt := some r } }
  if !s.listens then s
  else
    match s.rfl.nxt, s.rfl.cur with
    | some n, _ =>
      if seq = n.seq then next n s
      else if seqNewer seq n.seq then next (RecvRec.fresh seq) { s with rfl := { s.rfl with skipped := some n } }
      else s
    | none, some c =>
      if seq = c.seq then s.intoRecord seq idx f c fun r s => { s with rfl := { s.rfl with cur := some r } }
      else if seqNewer seq c.seq then next (RecvRec.fresh seq) s
      else s
    | none, none => next (RecvRec.fresh seq) s

/-- HEAD (R297): a turn record has come since RELEASE. -/
def opHead (seq idx : Nat) (d : List Byte) (s : State) : State :=
  let s := s.record (seq % 65536) idx fun r => { r with head := some d }
  if s.listens then { s with rfl := { s.rfl with release := false } }.conflict else s

/-- Entries of a payload, `n` bytes each. -/
def entries (n : Nat) (d : List Byte) : List (List Byte) := (List.range (d.length / n)).map fun i => slice d (n * i) n

/-- IMAGE (R297, R298). -/
def opImage (seq idx : Nat) (d : List Byte) (s : State) : State :=
  s.record (seq % 65536) idx fun r => { r with image := (entries 66 d).foldl (fun t e => Store.put (leAt e 0 2) (e.drop 2) t) r.image }

/-- REL (R301). -/
def opRel (seq idx : Nat) (d : List Byte) (s : State) : State :=
  s.record (seq % 65536) idx fun r => { r with rel := r.rel ++ (entries 12 d).map fun e => { task := leAt e 0 1, ofs := leAt e 4 4, ts := leAt e 8 4 } }

/-- The entries of a CTRL payload (R297), at most one for every 8 bytes. -/
def ctrlEntries : Nat → List Byte → List CtrlEnt
  | 0, _ => []
  | k + 1, d =>
    if d.length < 8 then []
    else
      let n := leAt d 4 2
      { addr := leAt d 0 4, kind := leAt d 6 1, data := slice d 8 n, req := 6 } :: ctrlEntries k (d.drop (8 + pad4 n))

def ctrlBytes (c : CtrlEnt) : List Byte :=
  leBytes 4 c.addr ++ leBytes 2 c.data.length ++ leBytes 1 c.kind ++ [0#8] ++ c.data ++ List.replicate (pad4 c.data.length - c.data.length) 0#8

/-- CTRL (R297, R305). -/
def opCtrl (seq idx : Nat) (d : List Byte) (s : State) : State :=
  s.record (seq % 65536) idx fun r => { r with ctrl := r.ctrl ++ ctrlEntries (d.length / 8) d, ctrlAt := some idx }

/-- END (R297). -/
def opEndFrame (seq idx : Nat) (d : List Byte) (s : State) : State :=
  let f : EndRec := { cyc := (List.range 4).map fun e => leAt d (4 * e) 4, fars := (List.range 4).map fun e => leAt d (16 + 2 * e) 2,
                      names := ((d.drop 25).take (leAt d 24 1)).map BitVec.toNat }
  s.record (seq % 65536) idx fun r => { r with fin := some f }

/-- An error status and value of a far load come to hand on a following Shadow (R304); the watchdog restarted in every cycle of the stall (07, R183). -/
def State.farTake (e : Nat) (x : Nat × Nat) (s : State) : State :=
  let s := s.upE e fun q => { q with wdAt := if q.stalled then s.time.real else q.wdAt, stalled := false }
  match (s.eng e).flights.find? fun g => g.far.any FarReq.waits with
  | none => s
  | some g =>
    let s := s.upE e fun q => { q with flights := q.flights.erase g }
    match g.far with
    | some f => s.farLand e f (some x.2) x.1
    | none => s

/-- The entries that the record of the turn in hand holds queue behind those of the turns before, which an engine that is behind still takes (R304). -/
def State.farFlow (s : State) : State :=
  match s.rfl.cur with
  | some c => { s with rfl := { s.rfl with
      farq := c.far.foldl (fun t p => Store.put p.1 (t.getD p.1 [] ++ p.2) t) s.rfl.farq, cur := some { c with far := [] } } }
  | none => s

/-- FAR (R304): the entries wait in arrival order; an engine that stalls for one takes it. -/
def opFar (seq idx : Nat) (d : List Byte) (s : State) : State :=
  let s := s.record (seq % 65536) idx fun r =>
    { r with far := (entries 6 d).foldl (fun t e => Store.put (leAt e 0 1) (t.getD (leAt e 0 1) [] ++ [(leAt e 1 1 % 16, leAt e 2 4)]) t) r.far }
  State.forAll (List.range 4)
    (fun e s =>
      match (s.eng e).stalled, s.rfl.farq.getD e [] with
      | true, x :: r => ({ s with rfl := { s.rfl with farq := Store.put e r s.rfl.farq } }).farTake e x
      | _, _ => s) s.farFlow

/-- Header of a frame (R296). -/
def RflFrame.header (f : RflFrame) : List Byte := leBytes 1 f.type ++ [0#8] ++ leBytes 2 f.seq ++ leBytes 2 f.idx ++ leBytes 2 f.payload.length

/-- What stands between SOF and EOF: header, payload and the CRC over both (R296). -/
def RflFrame.bytes (f : RflFrame) : List Byte := f.header ++ f.payload ++ leBytes 4 (crc32 (f.header ++ f.payload))

/-- A frame with a bad CRC is discarded and NAKed; it is owed until it comes again (R296). Which frame it is the command does not say. -/
def opReflectFrameCrcError (s : State) : State :=
  { s with rfl := { s.rfl with naks := s.rfl.naks + 1, owed := s.rfl.owed + b2n s.listens } }.bump R.RFL_CNT_RETRY

/-- NAK_ORDERED_SET (R296): the frame is re-sent once. -/
def opNakOrderedSet (seq idx : Nat) (s : State) : State :=
  let hit (f : RflFrame) : Bool := f.seq == seq && f.idx == idx && !f.resent
  if s.rfl.frames.any hit then
    let s := s.qRead 16 s.rfl.frames.length (s.rfl.frames.findIdx hit) (((s.rfl.frames.find? hit).map fun f => f.payload.length + 16).getD 0)
    { s with rfl := { s.rfl with frames := s.rfl.frames.map fun f => if hit f then { f with resent := true } else f } }.bump R.RFL_CNT_RETRY
  else s

/-! ## The swept set (R314) -/

/-- Copy and address of a 64-byte block of the swept set. -/
def sweptAddr (b : Nat) : Nat × Nat :=
  if b < 512 * 64 then (0, 0x02000000 + 64 * b)
  else if b < 528 * 64 then (0, 0xE0000000 + 64 * (b - 512 * 64))
  else if b < 544 * 64 then (0, 0x06000000 + 64 * (b - 528 * 64))
  else
    let o := 64 * (b - 544 * 64)
    if o < 0x800 then (2, 0x03000800 + o)
    else if o < 0x4800 then (0, 0x03001000 + (o - 0x800))
    else if o < 0x8800 then (2, 0x03009000 + (o - 0x4800))
    else if o < 0x9000 then (0, 0x03000800 + (o - 0x8800))
    else (0, 0x03009000 + (o - 0x9000))

def sweptPages : Nat := 557

/-- A block of the swept set (R307). -/
def State.sweptBytes (s : State) (b : Nat) : List Byte := s.copyBytes (sweptAddr b).1 (sweptAddr b).2 64

/-- CRC-64/ECMA-182 (R307). -/
def crc64 (c : Nat) (l : List Byte) : Nat := l.foldl (crcByte 64 0x42F0E1EBA9EA3693) c

/-- The Reflect engine reads one block: the checker judges it, and a read that it refuses is not made and gives 0 (10, R242, R256). -/
def State.blockRead (b : Nat) (s : State) : State × Bool × List Byte :=
  let a := sweptAddr b
  let q := s.check 6 0 a.2 64
  if q.2 then ((q.1.eccRead 6 a.1 a.2 64).1, true, s.sweptBytes b) else (q.1, false, List.replicate 64 0#8)

/-- A digest: the swept set is read in page order, and the CRC is of what stood there when the digest was taken (R307). The last component is
the CRC, the one before says that no read was refused. -/
def State.sweptCrc (s : State) : State × Bool × Nat :=
  (List.range (sweptPages * 64)).foldl
    (fun (r : State × Bool × Nat) b => let q := r.1.blockRead b; (q.1, r.2.1 && q.2.1, crc64 r.2.2 q.2.2)) (s, true, 0)

/-- Dirty blocks (R316). -/
def State.dirtyBlocks (s : State) : Nat := (s.rfl.dirty.map fun p => (setBits 64 p.2).length).sum

/-- Snapshot one block for a page; the checker judges the Reflect engine's read, and uncorrectable words go out as poison (R318). -/
def State.snapBlock (b at_ : Nat) (s : State) : State × Bool × List Byte × List Nat :=
  let a := sweptAddr b
  let q := s.blockRead b
  (q.1, q.2.1, q.2.2, if q.2.1 then ((List.range 16).filter fun k => s.badAt a.1 (a.2 + 4 * k)).map fun k => at_ + 4 * k else [])

/-- Send one page with the blocks of a mask and clear their dirty bits (R316); false if the checker refused a read. -/
def State.sendPage (p mask : Nat) (s : State) : State × Bool :=
  let r := (setBits 64 mask).foldl
    (fun (r : State × Bool × List Byte × List Nat) b =>
      let q := r.1.snapBlock (64 * p + b) (16 + r.2.2.1.length)
      (q.1, r.2.1 && q.2.1, r.2.2.1 ++ q.2.2.1, r.2.2.2 ++ q.2.2.2))
    (s, true, [], [])
  let s := { r.1 with rfl := { r.1.rfl with dirty := Store.del p r.1.rfl.dirty } }
  (s.rflSend 7 (leBytes 2 p ++ leBytes 2 0 ++ leBytes 4 s.seq.abs ++ leBytes 8 mask ++ r.2.2.1) r.2.2.2, r.2.1)

/-- Link budget of a turn in hundredths of a byte (R300). -/
def State.linkBudget (s : State) : Nat := 125 * s.period - 50000

/-- So many bytes of PAGE and STATE frames still fit the link budget of the turn and the record queue (R300, R316; 23, R557, R560). -/
def State.bytesFit (s : State) (n : Nat) : Bool :=
  decide (100 * (s.recordBytes + n) ≤ s.linkBudget) && !s.rfl.full && decide (framesBytes s.keptFrames + n ≤ 196608 - 64)

/-- A page frame still fits the turn (R300, R316). -/
def State.pageFits (s : State) (mask : Nat) : Bool := s.bytesFit (32 + 64 * (setBits 64 mask).length)

def allBlocks : Nat := 2 ^ 64 - 1

/-! ## Rejoin (R311-R318) -/

/-- The rejoin fails with a reason (R313, R317). -/
def State.rejoinFail (reason : Nat) (s : State) : State :=
  let s := ((s.put R.RFL_STAT_REJ 5).put R.RFL_STAT_REASON reason).raise 253 reason
  { s with rfl := { s.rfl with
      dirty := [], round := [], sync := false, staged := [], cur := none, nxt := none, skipped := none, image := [],
      retryAt := if s.get R.RFL_STAT_ROLE == 3 && s.is R.RFL_CFG_AUTOREJOIN then some (s.now + s.get R.RFL_SWLIM_RETRY * 1000000000) else none } }

/-- Items of R312 in its order: pair mode, unit, role; P, φ; program ID, code CRC and record CRC by engine; layout ID and CRC by engine;
Mirror settings; firmware compatibility. The packing is the model's (DESIGN CHOICE, log entry 33). -/
def State.helloItems (s : State) : List Nat :=
  let le (f : Nat → Nat) : List Nat := (List.range 4).map f
  [s.get R.RFL_CFG_MODE, s.get R.RFL_CFG_UNIT, s.get R.RFL_STAT_ROLE, s.period, s.get R.TURN_PHASE_PHI] ++
    le (s.get R.LE_PRG_ID_ID ·) ++ le (fun e => (s.prgSt e).actCode) ++ le (fun e => (s.prgSt e).actRec) ++
    le (fun e => s.mw (s.decActive e)) ++ le (fun e => s.mw (s.decActive e + 8)) ++
    [s.get R.EXC_CTL_MIR01 + 2 * s.get R.EXC_CTL_MIR23, s.upd.compat]

/-- The reason for which the items of the partner do not agree (R312), if any. -/
def helloErr (own peer : List Nat) : Option Nat :=
  let same (o n : Nat) : Bool := slice own o n == slice peer o n
  if peer.getD 0 0 = 0 ∨ own.getD 1 0 = peer.getD 1 0 then some 1
  else if !same 3 2 then some 2
  else if !same 5 12 then some 3
  else if !same 17 8 then some 4
  else if !same 25 1 then some 5
  else if !same 26 1 then some 6
  else if own.getD 2 0 = 3 ∧ peer.getD 2 0 ≠ 1 then some 0x23
  else none

def State.sendHello (s : State) : State := s.rflSend 0x0B (s.helloItems.flatMap (leBytes 4))

/-- The Lead begins round 1 with every block dirty (R316). -/
def State.roundsStart (s : State) : State :=
  let s := (s.put R.RFL_STAT_REJ 2).put R.RFL_RJSTAT_ROUND 1
  { s with rfl := { s.rfl with dirty := (List.range sweptPages).map fun p => (p, allBlocks), round := List.range sweptPages, turns := 0,
                               idleWait := 0, allImage := true, sync := false } }

/-- HELLO (R312). A unit that has not sent its own answers with it. -/
def opHello (items : List Nat) (s : State) : State :=
  if !s.is R.RFL_STAT_LINK || !s.is R.RFL_CFG_MODE || !(s.lead || s.get R.RFL_STAT_ROLE == 3) then s
  else
    let s := if s.get R.RFL_STAT_REJ = 1 then s else s.sendHello
    match helloErr s.helloItems items with
    | some r => s.rejoinFail r
    | none =>
      if s.lead then s.roundsStart
      else ({ s with rfl := { s.rfl with peer := items } }.put R.RFL_STAT_REJ 2).put R.RFL_STAT_REASON 0

/-- A rejoin starts (R311): on the Shadow not following, whose engines stop as in Hold, or on the Lead on its partner's behalf. -/
def State.rejoinStart (s : State) : State :=
  if s.is R.RFL_STAT_LINK && (s.get R.RFL_STAT_ROLE == 3 || (s.lead && !s.is R.RFL_STAT_READY)) then
    let s := (if s.lead then s else s.enginesHeld).sendHello.put R.RFL_STAT_REJ 1
    { s with rfl := { s.rfl with retryAt := none, cur := none, nxt := none, skipped := none, staged := [], image := [], owed := 0 } }
  else s.put R.RFL_STAT_CMDERR 1

def opRflRejoin (s : State) : State := s.rejoinStart

/-- REJOIN_RETRY (R309). -/
def opRejoinRetry (s : State) : State :=
  match s.rfl.retryAt with
  | none => s
  | some t =>
    let s := s.advance t
    if s.get R.RFL_STAT_ROLE = 3 ∧ s.is R.RFL_STAT_LINK then s.rejoinStart
    else { s with rfl := { s.rfl with retryAt := if s.get R.RFL_STAT_ROLE == 3 then some (s.now + s.get R.RFL_SWLIM_RETRY * 1000000000) else none } }

/-- REJOIN_FAILURE (R317): the limit of turns, or of ticks of search, is passed. -/
def opRejoinFailure (s : State) : State :=
  let j := s.get R.RFL_STAT_REJ
  if s.lead && j == 3 && decide (s.get R.RFL_SWEEP_WAIT ≤ s.rfl.idleWait) then s.rejoinFail 0x22
  else if s.lead && (j == 2 || j == 3) && decide (s.get R.RFL_SWLIM_LIMIT ≤ s.rfl.turns) then s.rejoinFail 0x20
  else s

/-- Every engine is idle (R310, R316). -/
def State.allIdle (s : State) : Bool := (List.range 4).all fun e => s.switchIdle e

/-- SYNC_TURN (R316): the rounds have converged and the coming tick is idle; its record is the sync record. -/
def opSyncTurn (s : State) : State :=
  if s.lead && s.get R.RFL_STAT_REJ == 3 && s.allIdle then
    { s with rfl := { s.rfl with sync := true } }
  else s

/-- Apply the blocks of a page (R316, R318); the checker judges the Reflect engine's writes, which also lose the reservation of a locked word
(04, R119). -/
def State.applyPage (g : PageIn) (s : State) : State :=
  let r := (setBits 64 g.mask).zipIdx.foldl
    (fun (r : State × Bool) (b : Nat × Nat) =>
      let a := sweptAddr (64 * g.page + b.1)
      let q := r.1.check 6 1 a.2 64
      if !q.2 then (q.1, false)
      else
        let s := (if a.1 = 0 then q.1.loseLocks 6 a.2 64 else q.1).putWords a.1 a.2 (slice g.data (64 * b.2) 64)
        let s := State.forAll (List.range 16)
          (fun k s => if g.bad.contains (16 + 64 * b.2 + 4 * k) then s.setEcc (eccKey a.1 (a.2 + 4 * k)) 2 else s) s
        (s, r.2))
    (s, true)
  if r.2 then r.1 else if r.1.following then r.1.stopFollowing 0x18 else r.1.rejoinFail 0x18

/-- PAGE (R316): applied on receipt, or while following at the start of the turn of its snapshot. -/
def opPage (seq idx : Nat) (d : List Byte) (bad : List Nat) (s : State) : State :=
  if !s.listens then s
  else
    let s := s.record (seq % 65536) idx id
    let g : PageIn := { turn := leAt d 4 4, page := leAt d 0 2, mask := leAt d 8 8, data := d.drop 16, bad := bad }
    let last := g.page + 1 == sweptPages && s.rfl.repair.isSome
    let s := if last then { s with rfl := { s.rfl with repair := none, repaired := true } } else s
    if s.following then { s with rfl := { s.rfl with staged := s.rfl.staged ++ [g] } } else s.applyPage g

/-! ## The engine state block (R315) -/

/-- Keys of the G registers of an engine: 13 banks of 32, and G32-G127. -/
def gKeys : List Nat := List.range 416 ++ (List.range 96).map (1032 + ·)

def timerBytes (t : Timer) : List Byte :=
  BitVec.ofNat 8 (t.kind + 4 * b2n t.lastIn + 8 * b2n t.q + 16 * b2n t.timing) :: leBytes 8 t.start

def timerOf (d : List Byte) : Timer :=
  let f := leAt d 0 1
  { kind := f % 4, lastIn := bit f 2, q := bit f 3, timing := bit f 4, start := leAt d 1 8 }

/-- One engine's part: G registers, timers, CSP registers, pending routes and the two counters; 2680 bytes. -/
def State.engBytes (s : State) (e : Nat) : List Byte :=
  let x := s.eng e
  gKeys.flatMap (fun k => leBytes 4 (x.g.getD k 0#32).toNat) ++ (List.range 64).flatMap (fun k => timerBytes (x.timers.getD k (Timer.zero 0))) ++
    [x.csp, x.cspLo, x.cspHi].flatMap (fun w => leBytes 4 w.toNat) ++ leBytes 36 ((x.routes.map fun r => 2 ^ r).sum) ++
    leBytes 4 (s.get R.EXC_CNT_TFRUN e) ++ leBytes 4 (s.get R.EXC_CNT_ENGF e)

/-- One task's part: its state in flags, CONSEC, the two counters, the guard reference, and of the task table what may change in Run (06, R146) or
counts; 32 bytes. -/
def State.taskBytes (s : State) (n : Nat) : List Byte :=
  [BitVec.ofNat 8 (b2n (s.task n).enabled + 2 * b2n (s.task n).await + 4 * s.get R.TSK_ST_BEXH n + 8 * s.get R.TSK_ST_TFAULT n),
   BitVec.ofNat 8 (s.get R.TSK_ST_CONSEC n)] ++ leBytes 2 (s.get R.TSK_CNT_OVR n) ++ leBytes 2 (s.get R.TSK_CNT_GREJ n) ++ [0#8, 0#8] ++
    leBytes 8 ((s.task n).guard.getD (2 ^ 64 - 1)) ++ leBytes 4 (s.desc n).cfg ++ leBytes 4 (s.get R.TSK_BUD_CYC n) ++
    leBytes 4 (s.get R.TSK_WCET_CYC n) ++ leBytes 4 (s.get R.TSK_LAST_CYC n)

/-- The shed state of one engine: its settings, and what is noted (06, R162, R163); 8 bytes. -/
def State.shedBytes (s : State) (e : Nat) : List Byte :=
  [s.get R.TSK_SHED_ACTIVE e, s.seq.clean.getD e 0, s.get R.TSK_SHED_K e, s.get R.TSK_SHED_RECOV e, s.get R.TSK_SHED_WATCH e,
   b2n (s.seq.shedStart.contains e) + 2 * b2n (s.seq.shedClear.contains e), 0, 0].map fun v => BitVec.ofNat 8 v

/-- The engine state block in the order of R315, 13 312 bytes; its packing is the model's (DESIGN CHOICE, log entry 33). -/
def State.stateBlock (s : State) : List Byte :=
  (List.range 4).flatMap s.engBytes ++ (List.range 48).flatMap s.taskBytes ++ (List.range 4).flatMap s.shedBytes ++ List.replicate 1024 0#8

/-- Take an engine's part. -/
def State.takeEng (b : List Byte) (e : Nat) (s : State) : State :=
  let w (o : Nat) : Word := BitVec.ofNat 32 (leAt b o 4)
  let s := s.upE e fun x =>
    { x with g := gKeys.zipIdx.foldl (fun t p => Store.put p.1 (w (4 * p.2)) t) x.g,
             timers := (List.range 64).foldl (fun t k => Store.put k (timerOf (slice b (2048 + 9 * k) 9)) t) [],
             csp := w 2624, cspLo := w 2628, cspHi := w 2632, routes := setBits 288 (leAt b 2636 36) }
  (s.put R.EXC_CNT_TFRUN (leAt b 2672 4) e).put R.EXC_CNT_ENGF (leAt b 2676 4) e

/-- Take a task's part. -/
def State.takeTask (b : List Byte) (n : Nat) (s : State) : State :=
  let f := leAt b 0 1
  let g := leAt b 8 8
  let s := (((s.put R.TSK_ST_BEXH (b2n (bit f 2)) n).put R.TSK_ST_TFAULT (b2n (bit f 3)) n).put R.TSK_ST_CONSEC (leAt b 1 1) n).put
    R.TSK_CNT_OVR (leAt b 2 2) n
  let s := ((s.put R.TSK_CNT_GREJ (leAt b 4 2) n).putBits (cfgFree ++ cfgHold) (leAt b 16 4) n).put R.TSK_BUD_CYC (leAt b 20 4) n
  ((s.put R.TSK_WCET_CYC (leAt b 24 4) n).put R.TSK_LAST_CYC (leAt b 28 4) n).upT n fun t =>
    { t with enabled := bit f 0, await := bit f 1, guard := if g = 2 ^ 64 - 1 then none else some g }

/-- Take the shed state of an engine. -/
def State.takeShed (b : List Byte) (e : Nat) (s : State) : State :=
  let v (o : Nat) : Nat := leAt b o 1
  let only (k : Nat) (l : List Nat) : List Nat := (l.filter (· != e)) ++ if bit (v 5) k then [e] else []
  let s := { s with seq := { s.seq with
    clean := Store.put e (v 1) s.seq.clean, shedStart := only 0 s.seq.shedStart, shedClear := only 1 s.seq.shedClear } }
  (((s.put R.TSK_SHED_ACTIVE (v 0) e).put R.TSK_SHED_K (v 2) e).put R.TSK_SHED_RECOV (v 3) e).put R.TSK_SHED_WATCH (v 4) e

/-- Take an engine state block. -/
def State.takeState (d : List Byte) (s : State) : State :=
  let s := State.forAll (List.range 4) (fun e s => s.takeEng (slice d (2680 * e) 2680) e) s
  let s := State.forAll (List.range 48) (fun n s => s.takeTask (slice d (10720 + 32 * n) 32) n) s
  State.forAll (List.range 4) (fun e s => s.takeShed (slice d (12256 + 8 * e) 8) e) s

/-- STATE (R315): a part of the block, in order. -/
def opState (seq idx : Nat) (d : List Byte) (s : State) : State := s.record (seq % 65536) idx fun r => { r with state := r.state ++ d }

/-! ## Digest and repair (R307, R316) -/

/-- A repair pass starts on the Lead from page 0. -/
def State.repairStart (s : State) : State := { s with rfl := { s.rfl with repair := some 0 } }

/-- Own and partner's digest of one turn are compared (R307). -/
def State.digestCompare (s : State) : State :=
  match s.rfl.digOwn, s.rfl.digPeer with
  | some (a, x), some (b, y) =>
    if a ≠ b then s
    else
      let again := s.rfl.repaired
      let s := { s with rfl := { s.rfl with digOwn := none, digPeer := none, repaired := false } }
      if x = y then s.wrapUp R.RFL_DIGSTAT_MATCH
      else
        let s := (s.bump R.RFL_DIGSTAT_MISMATCH).raise 251 0
        if s.following && again then s.stopFollowing 0x15 else s.repairStart
  | _, _ => s

/-- DIGEST (R307). -/
def opDigest (a crc : Nat) (s : State) : State :=
  if s.lead || s.following then { s with rfl := { s.rfl with digPeer := some (a, crc) } }.digestCompare else s

/-- DIGEST_COMPLETE (R307): the value is sent and compared. -/
def opDigestComplete (s : State) : State :=
  match s.rfl.digRun with
  | none => s
  | some d =>
    ({ s with rfl := { s.rfl with digRun := none, digOwn := some d } }.rflSend 9 (leBytes 8 d.1 ++ leBytes 8 d.2)).digestCompare

/-- RFL_REPAIR. -/
def opRflRepair (s : State) : State := if s.lead && s.is R.RFL_STAT_READY then s.repairStart else s.put R.RFL_STAT_CMDERR 1

/-! ## Status and the forwarded frames -/

/-- STATUS (R283, R297): READY follows the role that the Shadow reports. -/
def opStatus (role : Nat) (disc : Nat) (reports : List Nat) (s : State) : State :=
  if !s.lead then s
  else
    let r := fun e => (reports.getD (3 * e) 0, reports.getD (3 * e + 1) 0, reports.getD (3 * e + 2) 0)
    let s := { s with rfl := { s.rfl with statusSeen := true, disc := disc, reports := (List.range 4).map fun e => (e, r e) } }
    let s := s.put R.RFL_STAT_READY (b2n (role == 2))
    if role = 2 ∧ s.get R.RFL_STAT_REJ = 4 then s.put R.RFL_STAT_REJ 0 else s

/-- LOG (R319; 22, R549): an entry of the partner, tagged with its origin; DATA [0] is the partner's unit number. -/
def opLogFrame (time code data cls : Nat) (s : State) : State :=
  s.logPut false { time := time, kind := 0, code := code % 65536, data := setBit (data % 65536) 0 (!s.is R.RFL_CFG_UNIT), cls := cls % 5, pin := false, origin := true, copy := false,
                   ramOnly := false }

/-- BRICK (17, R455). -/
def opBrickFrame (d : List Byte) (s : State) : State := if s.following then s.takeBrick d else s

/-! ## Following (R303, R308, R309) -/

/-- The engine has no work and no instance that waits (R303). -/
def State.timeIdle (s : State) (e : Nat) : Bool := !(s.eng e).live && (s.tasksOf e).all fun n => !s.busy n

/-- The timeline count of an engine (R303): it goes with the engine's cycles, which stand still while it waits for a far value (R304). -/
def State.count (s : State) (e : Nat) : Nat :=
  let p := s.rfl.timeline.getD e (0, 0)
  p.1 + ((s.eng e).cyc - p.2)

/-- The timeline of an engine stands at a count. -/
def State.setCount (e n : Nat) (s : State) : State := { s with rfl := { s.rfl with timeline := Store.put e (n, (s.eng e).cyc) s.rfl.timeline } }

/-- The turn starts on an engine: its count is 0 again. It does so when no release of the turn before is left for it and its count has reached C of
that turn, to which an idle engine's count jumps; else the engine stays behind (R303). -/
def State.turnBegin (e : Nat) (s : State) : State :=
  let c := ((s.rfl.last.map EndRec.cyc).getD []).getD e 0
  let l := s.rfl.behind.filter (· != e)
  if (s.timeIdle e || decide (c ≤ s.count e)) && !s.rfl.relOld.any fun r => s.tEng r.task == e then
    { s with rfl := { s.rfl with behind := l } }.setCount e 0
  else { s with rfl := { s.rfl with behind := l ++ [e] } }

/-- The engine has come to the turn in hand, or keeps no count of cycles at all: only a following Shadow's engines fall behind (R303). -/
def State.caughtUp (s : State) (e : Nat) : Bool := !s.following || s.seq.inLatch || !s.rfl.behind.contains e

/-- An engine that was behind comes to the turn, and what was due on it is released (R303). -/
def State.turnCatch (e : Nat) (s : State) : State :=
  if s.caughtUp e then s
  else
    let t := s.turnBegin e
    if t.rfl.behind.contains e then s else t.seqLatchEnd

/-- The first release that the records still hold for an engine, those of the turns before first, if its count reaches the offset now: an idle
engine counts on (R303). -/
def State.relNow (s : State) (e : Nat) : Option RelEnt :=
  let old := s.rfl.relOld.find? fun r => s.tEng r.task == e
  let new := if s.rfl.behind.contains e then none else s.rfl.cur.bind fun c => c.rel.find? fun r => s.tEng r.task == e
  match old.or new with
  | none => none
  | some r => if s.following && decide (r.task < 48) && (s.timeIdle e || decide (r.ofs ≤ s.count e)) then some r else none

/-- A release is taken off the records. -/
def State.relDrop (r : RelEnt) (s : State) : State :=
  if s.rfl.relOld.contains r then { s with rfl := { s.rfl with relOld := s.rfl.relOld.erase r } }
  else { s with rfl := { s.rfl with cur := s.rfl.cur.map fun c => { c with rel := c.rel.erase r } } }

/-- SHADOW_REL_RELEASE (R303): the first REL entry of an engine's tasks releases its task once the count reaches its offset. -/
def opShadowRelRelease (e : Nat) (s : State) : State :=
  let s := s.turnCatch e
  match s.relNow e with
  | none => s
  | some r =>
    let s := (s.relDrop r).setCount e (max r.ofs (s.count e))
    let s := s.upT r.task fun t => { t with guard := some (s.rfl.turnT / 2 ^ 32 * 2 ^ 32 + r.ts) }
    let q := s.consider r.task
    match q.2 with
    | some c => q.1.raise c.1 c.2
    | none => q.1

/-- Instances of a task that were released after turn `a` are discarded (R308). -/
def State.discardAfter (a n : Nat) (s : State) : State :=
  let t := s.task n
  let gone (i : Inst) : Bool := decide (a < i.relTurn)
  if !(t.done ++ t.inst.toList).any gone then s
  else
    let u := (s.upT n fun t => { t with inst := t.inst.filter fun i => !gone i, done := t.done.filter fun i => !gone i }).reloadWork n
    if t.inst.any gone && (s.eng (s.tEng n)).task == some n then u.engIdle (s.tEng n) else u

/-- SWITCHOVER (R308): after M missed ticks, at the next tick. The instances of the turn last started are discarded unless its END has come; those of
the turns before it stay. -/
def opSwitchover (s : State) : State :=
  if !s.following || s.get R.RFL_STAT_MISSED < s.get R.RFL_CFG_M then s
  else if !s.is R.RFL_STAT_OWN then s.stopFollowing 0x10
  else
    let s := match s.rfl.cur with
      | some c => if c.fin.isSome then s else State.forAll (List.range 48) (State.discardAfter (leAt (c.head.getD []) 0 8)) s
      | none => s
    { s.leadStart with rfl := { s.leadStart.rfl with fresh := true } }.raise 249 0

/-- RFL_STOP (R309). -/
def opRflStop (s : State) : State := if s.following then s.stopFollowing 0x1F else s.put R.RFL_STAT_CMDERR 1

/-! ## Role swap (R310) -/

/-- RFL_SWAP. -/
def opRflSwap (s : State) : State :=
  let w := s.get64 R.RFL_SWAPAT_LO_A R.RFL_SWAPAT_HI_A
  let rejoin := s.get R.RFL_STAT_REJ != 0 && s.get R.RFL_STAT_REJ != 5
  if !s.lead || !s.is R.RFL_STAT_READY || decide (w < s.seq.abs + 2) || rejoin || (List.range 4).any (fun e => s.is R.LE_PRG_STAT_SCHEDULED e) ||
      s.pwr.want == some 1 || s.pwr.want == some 2 then s.put R.RFL_STAT_CMDERR 1
  else { s with rfl := { s.rfl with swap := some w, swapWait := 0 } }

/-- RFL_CANCEL. -/
def opRflCancel (s : State) : State := { s with rfl := { s.rfl with swap := none, swapWait := 0 } }

/-- ROLE_SWAP (R310): the coming tick is W, the first idle one at or after A_w. -/
def opRoleSwap (s : State) : State :=
  match s.rfl.swap with
  | some w =>
    if s.lead && s.is R.RFL_STAT_READY && decide (w ≤ s.seq.abs + 1) && s.allIdle then
      { s with rfl := { s.rfl with swap := none, swapWait := 0, swapAt := some (s.seq.abs + 1) } }
    else s
  | none => s

/-- The former Lead at tick W + 1: it releases its pins and follows from the next tick (R310). -/
def State.swapOutLead (s : State) : State :=
  let s := (s.handOver.put R.RFL_STAT_ROLE 2).put R.RFL_STAT_READY 1
  let s := { s with rfl := { s.rfl with swapAt := none, cur := some { RecvRec.fresh ((s.get R.RFL_SEQ_TX + 65535) % 65536) with fin := some { cyc := [], fars := [], names := [] } },
                                        nxt := none, last := none, staged := [], repair := none, frames := [] } }
  s.conflict

/-! ## What the Lead sends (R299) -/

/-- Image offset of an input block (R298). -/
def inputOfs (i : Nat) : Nat :=
  if i < 32 then 64 * i else if i < 288 then 0x5000 + 64 * (i - 32) else if i = 288 then 0xD000 else 0xF000 + 64 * (i - 289)

/-- The back copy's blocks that differ from the copy in force, or all. -/
def State.imageBlocks (s : State) : List Nat :=
  (List.range 313).filter fun i => s.rfl.allImage || s.copyBytes 1 (0x03000000 + inputOfs i) 64 != s.mbs (0x03000000 + inputOfs i) 64

/-- END of the turn that ends at a tick (R297, R301); the next record begins. -/
def State.sendEnd (names : List Nat) (cyc : Nat) (s : State) : State :=
  let n := names.length
  let d := (List.replicate 4 (leBytes 4 cyc)).flatten ++ (List.range 4).flatMap (fun e => leBytes 2 (s.rfl.fars.getD e 0)) ++ leBytes 1 n ++
    names.map (BitVec.ofNat 8) ++ List.replicate (pad4 (25 + n) - (25 + n)) 0#8
  let s := s.rflSend 6 d
  { s with rfl := { s.rfl with nextIdx := 0, fars := [], full := false } }.put R.RFL_SEQ_TX (s.get R.RFL_SEQ_TX + 1)

/-- Cut a list into pieces of `n`. -/
def chunks (n : Nat) : Nat → List α → List (List α)
  | 0, _ => []
  | k + 1, l => if l.isEmpty then [] else l.take n :: chunks n k (l.drop n)

/-- HEAD, IMAGE and CTRL of the record (R297). -/
def State.sendHead (flags : Nat) (s : State) : State :=
  let d := leBytes 8 s.seq.abs ++ leBytes 8 s.time.tick ++ (List.range 4).flatMap (fun e => leBytes 8 (s.eng e).tclk) ++ leBytes 4 flags ++
    leBytes 4 (s.get R.EXC_STAT_DUMB + 2 * s.get R.EXC_STAT_DPEN + 4 * s.get R.EXC_STAT_BUMB + 8 * s.get R.EXC_STAT_BPEN +
      16 * s.get R.EXC_STAT_CUMB + 32 * s.get R.EXC_STAT_CPEN)
  let s := s.rflSend 1 d
  let blocks := s.imageBlocks.map fun i => leBytes 2 i ++ s.copyBytes 1 (0x03000000 + inputOfs i) 64
  let s := State.forAll (chunks 62 6 blocks) (fun l s => s.rflSend 2 l.flatten) s
  let s := s.rflSend 5 (s.rfl.marks.flatMap ctrlBytes)
  { s with rfl := { s.rfl with allImage := false, marks := [] } }

/-- A new round, or the search for the sync tick (R316). -/
def State.roundEnd (s : State) : State :=
  let n := s.dirtyBlocks
  if n * 64 ≤ s.get R.RFL_SWEEP_SYNCMAX * 1024 then { s with rfl := { s.rfl with idleWait := 0 } }.put R.RFL_STAT_REJ 3
  else { s with rfl := { s.rfl with round := s.rfl.dirty.map Prod.fst } }.wrapUp R.RFL_RJSTAT_ROUND

/-- One page of a round; a refused read ends the rejoin with reason 0x24 (R318). -/
def State.roundPage (s : State) : State :=
  match s.rfl.round with
  | [] => s
  | p :: r =>
    let mask := s.rfl.dirty.getD p 0
    if mask = 0 then { s with rfl := { s.rfl with round := r } }
    else if !s.pageFits mask then s
    else
      let q := { s with rfl := { s.rfl with round := r } }.sendPage p mask
      if q.2 then q.1 else q.1.rejoinFail 0x24

/-- STATE and the dirty pages fit beside HEAD, IMAGE and CTRL of the turn; else the search for an idle tick goes on (R300, R316; 23, R560; DEDUCED, log
entry 183). -/
def State.syncFits (s : State) : Bool :=
  (s.sendHead 0).bytesFit (13312 + 4 * 16 + (s.rfl.dirty.map fun p => 32 + 64 * (setBits 64 p.2).length).sum)

/-- The sync record: STATE and every dirty page (R315, R316). -/
def State.sendSync (s : State) : State :=
  let s := State.forAll (chunks 4096 4 s.stateBlock) (fun l s => s.rflSend 8 l) s
  let q := s.rfl.dirty.foldl (fun (r : State × Bool) (p : Nat × Nat) => let q := r.1.sendPage p.1 p.2; (q.1, r.2 && q.2)) (s, true)
  if q.2 then { q.1 with rfl := { q.1.rfl with sync := false, dirty := [] } }.put R.RFL_STAT_REJ 4 else q.1.rejoinFail 0x24

/-- One page of a repair pass, if it fits the turn (R316). -/
def State.repairPage (s : State) : State :=
  match s.rfl.repair with
  | none => s
  | some p =>
    if !s.pageFits allBlocks then s
    else
      let s := (s.sendPage p allBlocks).1
      { s with rfl := { s.rfl with repair := if p + 1 < sweptPages then some (p + 1) else none, repaired := decide (sweptPages ≤ p + 1) } }

/-- Pages of a turn: rounds, repair, or the background sweep (R316). -/
def State.sendPages (s : State) : State :=
  let j := s.get R.RFL_STAT_REJ
  if s.rfl.sync then s.sendSync
  else if j = 2 then
    let s := State.forAll (List.range (s.get R.RFL_SWEEP_PPT)) (fun _ s => s.roundPage) s
    if s.get R.RFL_STAT_REJ == 2 && s.rfl.round.isEmpty then s.roundEnd else s
  else if j = 3 then s
  else if !s.is R.RFL_STAT_READY then s
  else
    match s.rfl.repair with
    | some _ => State.forAll (List.range (s.get R.RFL_SWEEP_PPT)) (fun _ s => s.repairPage) s
    | none =>
      State.forAll (List.range (s.get R.RFL_SWEEP_BG))
        (fun _ s =>
          let p := s.rfl.bgPage
          if s.pageFits allBlocks then { (s.sendPage p allBlocks).1 with rfl := { (s.sendPage p allBlocks).1.rfl with bgPage := (p + 1) % sweptPages } }
          else s) s

def execRflCfgWrite (v : Word) (s : State) : Host.Outcome State Fault Refusal := .next (opRflCfgWrite v.toNat s)
def execOwnershipClaim (s : State) : Host.Outcome State Fault Refusal := .next (opOwnershipClaim s)
def execOwnershipSample (s : State) : Host.Outcome State Fault Refusal := .next (opOwnershipSample s)
def execOwnInChange (high : Bool) (s : State) : Host.Outcome State Fault Refusal := .next (opOwnInChange high s)
def execOwnershipConflict (s : State) : Host.Outcome State Fault Refusal := .next (opOwnershipConflict s)
def execTakeover (s : State) : Host.Outcome State Fault Refusal := .next (opTakeover s)
def execLinkUp (s : State) : Host.Outcome State Fault Refusal := .next (opLinkUp s)
def execLinkDown (s : State) : Host.Outcome State Fault Refusal := .next (opLinkDown s)
def execReleaseOrderedSet (s : State) : Host.Outcome State Fault Refusal := .next (opReleaseOrderedSet s)
def execNakOrderedSet (seq idx : Nat) (s : State) : Host.Outcome State Fault Refusal := .next (opNakOrderedSet seq idx s)
def execReflectFrameCrcError (s : State) : Host.Outcome State Fault Refusal := .next (opReflectFrameCrcError s)
def execHeadFrame (seq idx : Nat) (d : List Byte) (s : State) : Host.Outcome State Fault Refusal := .next (opHead seq idx d s)
def execImageFrame (seq idx : Nat) (d : List Byte) (s : State) : Host.Outcome State Fault Refusal := .next (opImage seq idx d s)
def execRelFrame (seq idx : Nat) (d : List Byte) (s : State) : Host.Outcome State Fault Refusal := .next (opRel seq idx d s)
def execFarFrame (seq idx : Nat) (d : List Byte) (s : State) : Host.Outcome State Fault Refusal := .next (opFar seq idx d s)
def execCtrlFrame (seq idx : Nat) (d : List Byte) (s : State) : Host.Outcome State Fault Refusal := .next (opCtrl seq idx d s)
def execEndFrame (seq idx : Nat) (d : List Byte) (s : State) : Host.Outcome State Fault Refusal := .next (opEndFrame seq idx d s)
def execPageFrame (seq idx : Nat) (d : List Byte) (bad : List Nat) (s : State) : Host.Outcome State Fault Refusal := .next (opPage seq idx d bad s)
def execStateFrame (seq idx : Nat) (d : List Byte) (s : State) : Host.Outcome State Fault Refusal := .next (opState seq idx d s)
def execDigestFrame (a crc : Nat) (s : State) : Host.Outcome State Fault Refusal := .next (opDigest a crc s)
def execStatusFrame (role disc : Nat) (reports : List Nat) (s : State) : Host.Outcome State Fault Refusal := .next (opStatus role disc reports s)
def execHelloFrame (items : List Nat) (s : State) : Host.Outcome State Fault Refusal := .next (opHello items s)
def execLogFrame (time code data cls : Nat) (s : State) : Host.Outcome State Fault Refusal := .next (opLogFrame time code data cls s)
def execBrickFrame (d : List Byte) (s : State) : Host.Outcome State Fault Refusal := .next (opBrickFrame d s)
def execShadowRelRelease (e : Fin 4) (s : State) : Host.Outcome State Fault Refusal := .next (opShadowRelRelease e s)
def execSwitchover (s : State) : Host.Outcome State Fault Refusal := .next (opSwitchover s)
def execDigestComplete (s : State) : Host.Outcome State Fault Refusal := .next (opDigestComplete s)
def execRflRejoin (s : State) : Host.Outcome State Fault Refusal := .next (opRflRejoin s)
def execRflStop (s : State) : Host.Outcome State Fault Refusal := .next (opRflStop s)
def execRflSwap (s : State) : Host.Outcome State Fault Refusal := .next (opRflSwap s)
def execRflCancel (s : State) : Host.Outcome State Fault Refusal := .next (opRflCancel s)
def execRflRepair (s : State) : Host.Outcome State Fault Refusal := .next (opRflRepair s)
def execRoleSwap (s : State) : Host.Outcome State Fault Refusal := .next (opRoleSwap s)
def execSyncTurn (s : State) : Host.Outcome State Fault Refusal := .next (opSyncTurn s)
def execRejoinFailure (s : State) : Host.Outcome State Fault Refusal := .next (opRejoinFailure s)
def execRejoinRetry (s : State) : Host.Outcome State Fault Refusal := .next (opRejoinRetry s)

end Sys2Proof.Machine
end

