-- ==== Sys2Proof/Machine/Ports.lean ====
section
/-! DEFINITION. Machine/Ports.lean: the field ports below the messages (14, R352-R361, R379-R382): configuration, Ethernet and CAN frames in
and out, queues, partner loss. -/

namespace Sys2Proof.Machine

def State.port (s : State) (p : Nat) : PortSt := s.ports.getD p PortSt.reset
def State.upPort (s : State) (p : Nat) (f : PortSt → PortSt) : State := { s with ports := Store.put p (f (s.port p)) s.ports }

def isCan (p : Nat) : Bool := decide (2 ≤ p)

/-! ## Errors and partner loss (R364, R379) -/

/-- Raise an error of a port: EV 226 + 4p and LASTERR. -/
def State.portErr (p code : Nat) (s : State) : State := (s.put R.FP_STAT_LASTERR code p).raise (226 + 4 * p) code

/-- Discard a message or frame with an error code. -/
def State.portDrop (p code : Nat) (s : State) : State :=
  let s := s.bump R.FP_CNT1_DROP p
  (if code = 3 then s.bump R.FP_CNT1_AUTH p else s).portErr p code

/-- The condition partner lost becomes true (R379). -/
def State.partnerLost (p : Nat) (s : State) : State := (s.put R.FP_STAT_PLOST 1 p).level (227 + 4 * p) true 0

/-- The link part of R379 holds: on Ethernet LINK is 0, on CAN the port is bus-off. -/
def State.linkBad (s : State) (p : Nat) : Bool := if isCan p then s.is R.FP_STAT_BUSOFF p else !s.is R.FP_STAT_LINK p

/-- A message has passed R364: it restarts the timeout and ends the loss unless the link is bad (R379). -/
def State.partnerHeard (p : Nat) (s : State) : State :=
  let s := (s.upPort p fun q => { q with lastOk := s.now }).wrapUp R.FP_CNT0_RX p
  if s.linkBad p then s else (s.put R.FP_STAT_PLOST 0 p).level (227 + 4 * p) false 0

/-! ## Checksums and frames (R354-R356) -/

/-- One's complement sum over big-endian 16-bit words (RFC 1071). -/
def sum16 : Nat → List Byte → Nat
  | 0, _ => 0
  | _, [] => 0
  | _, [b] => b.toNat * 256
  | f + 1, b :: c :: r =>
    let x := b.toNat * 256 + c.toNat + sum16 f r
    x % 65536 + x / 65536

def inetSum (l : List Byte) : Nat := 65535 - sum16 (l.length + 1) l

/-- Own MAC address, first byte in MAC_LO [7:0]. -/
def State.ownMac (s : State) (p : Nat) : List Byte := leBytes 4 (s.get R.FP_MAC_LO_M p) ++ leBytes 2 (s.get R.FP_MAC_HI_M p)

/-- An Ethernet II frame, padded to 64 bytes with its FCS (R354). -/
def ethFrame (dst src : List Byte) (type : Nat) (d : List Byte) : List Byte :=
  let f := dst ++ src ++ beBytes 2 type ++ d
  let f := f ++ List.replicate (60 - f.length) 0#8
  f ++ leBytes 4 (crc32 f)

/-- An IPv4 header: DF set, TTL 64, DSCP of the port (R355). -/
def State.ipHeader (s : State) (p proto len : Nat) : List Byte :=
  let h (sum : Nat) : List Byte :=
    [0x45#8, BitVec.ofNat 8 (4 * s.get R.FP_UDPPORT_DSCP p)] ++ beBytes 2 (20 + len) ++ beBytes 2 (s.port p).ident ++ beBytes 2 0x4000 ++
      [64#8, BitVec.ofNat 8 proto] ++ beBytes 2 sum ++ beBytes 4 (s.get R.FP_OWN_ID p) ++ beBytes 4 (s.get R.FP_PARTNER_ID p)
  h (inetSum (h 0))

/-- The pseudo header and UDP datagram over which the UDP checksum runs (RFC 768). -/
def udpSum (src dst : Nat) (u : List Byte) : Nat := inetSum (beBytes 4 src ++ beBytes 4 dst ++ [0#8, 17#8] ++ beBytes 2 u.length ++ u)

/-- The datagram of a message, source port 24946 (R356); a checksum of 0 is sent as 0xFFFF. -/
def State.udpFrame (s : State) (p dport : Nat) (m : List Byte) : List Byte :=
  let u (c : Nat) : List Byte := beBytes 2 24946 ++ beBytes 2 dport ++ beBytes 2 (8 + m.length) ++ beBytes 2 c ++ m
  let c := udpSum (s.get R.FP_OWN_ID p) (s.get R.FP_PARTNER_ID p) (u 0)
  let u := u (if c = 0 then 0xFFFF else c)
  ethFrame (s.port p).mac (s.ownMac p) 0x0800 (s.ipHeader p 17 u.length ++ u)

/-- The smallest CAN FD data length that holds `n` bytes (R361). -/
def canLen (n : Nat) : Nat := ([0, 1, 2, 3, 4, 5, 6, 7, 8, 12, 16, 20, 24, 32, 48, 64].find? fun d => decide (n ≤ d)).getD 64

/-- The segments of a message with their identifiers (R360, R361): identifier as four bytes, most significant first, then the data. -/
def State.canFrames (s : State) (p : Nat) (m : List Byte) : List (List Byte) :=
  let cls := leAt m 1 1
  let seq := leAt m 8 4
  (List.range (ceilDiv m.length 64)).map fun i =>
    let d := slice m (64 * i) 64
    let id := cls * 2 ^ 24 + s.get R.FP_OWN_ID p % 256 * 2 ^ 16 + s.get R.FP_PARTNER_ID p % 256 * 2 ^ 8 + i * 8 + seq % 8
    beBytes 4 id ++ d ++ List.replicate (canLen d.length - d.length) 0#8

/-! ## Transmit queue (R382; 23, R556-R558) -/

/-- The port can send: the medium is there and, on Ethernet, the partner's address is known. -/
def State.txReady (s : State) (p : Nat) : Bool :=
  s.is R.FP_CFG_EN p && (if isCan p then !s.is R.FP_STAT_BUSOFF p else s.is R.FP_STAT_LINK p && s.is R.FP_STAT_ARPOK p)

/-- The message to be sent next: ascending service code and, within a code, queue order (R382). -/
def txBest (l : List TxMsg) : Option Nat :=
  (l.map TxMsg.svc).foldl (fun b x => match b with | none => some x | some y => if x < y then some x else some y) none

/-- Mark the first message of a service code as being transmitted. -/
def txStart (svc : Nat) : List TxMsg → List TxMsg
  | [] => []
  | m :: r => if m.svc = svc then { m with busy := true } :: r else m :: txStart svc r

/-- An idle transmitter takes its next message. -/
def State.portGo (p : Nat) (s : State) : State :=
  let q := (s.port p).tx
  if !s.txReady p || q.any TxMsg.busy then s
  else match txBest q with
    | none => s
    | some c => s.upPort p fun x => { x with tx := txStart c x.tx }

/-- Room in the transmit queue: 31 entries, and the one kept for the token (R382; 23, R557). -/
def State.txRoom (s : State) (p : Nat) : Bool := decide (((s.port p).tx.filter fun m => !m.token).length < 31)
def State.tokenFree (s : State) (p : Nat) : Bool := !((s.port p).tx.any TxMsg.token)

/-- Put a message into the transmit queue; `tok` may use the reserved entry. Nothing is queued on a disabled port, nor while the partner's
address cannot be resolved (R355, R381). -/
def State.portSend (p svc udp : Nat) (b : List Byte) (tok : Bool) (s : State) : State × Bool :=
  if !s.is R.FP_CFG_EN p || (s.port p).dead then (s, false)
  else if s.txRoom p then
    ((s.upPort p fun q => { q with tx := q.tx ++ [{ svc := svc, udp := udp, bytes := b, token := false, busy := false, cut := false }] }).qStore (6 + p) (16 + b.length) |>.portGo p, true)
  else if tok && s.tokenFree p then
    ((s.upPort p fun q => { q with tx := q.tx ++ [{ svc := svc, udp := udp, bytes := b, token := true, busy := false, cut := false }] }).qStore (6 + p) (16 + b.length) |>.portGo p, true)
  else if tok then (s, false)
  else (s.portDrop p 0x0E, false)

/-- The counters of CAN show error-passive, and entering it raises an error (R359). -/
def State.canState (p : Nat) (s : State) : State :=
  let pass := decide (128 ≤ s.get R.FP_CANERR_TEC p ∨ 128 ≤ s.get R.FP_CANERR_REC p)
  let was := s.is R.FP_STAT_ERRPASS p
  let s := s.put R.FP_STAT_ERRPASS (b2n pass) p
  if pass && !was then s.portErr p 9 else s

/-- The frame of a message that was being sent when the port was disabled completes; the message is lost as a whole (R381). Which of its frames it
was nobody chose. -/
def State.cutDone (p : Nat) (m : TxMsg) (s : State) : State :=
  let f := s.free
  let fs := s.canFrames p m.bytes
  let s := f.2.upPort p fun q => { q with tx := q.tx.filter fun x => !x.busy, out := (fs.drop (f.1 % max 1 fs.length)).take 1 }
  ((s.put R.FP_CANERR_TEC (s.get R.FP_CANERR_TEC p - 1) p).canState p).portGo p

/-- A message has been sent; the next one starts (R382, R356). -/
def State.txDone (p : Nat) (s : State) : State :=
  match (s.port p).tx.find? TxMsg.busy with
  | none => s
  | some m =>
    let s := s.qRead (6 + p) (s.port p).tx.length ((s.port p).tx.findIdx TxMsg.busy) (16 + m.bytes.length)
    if m.cut then s.cutDone p m
    else
    let fs := if isCan p then s.canFrames p m.bytes else [s.udpFrame p m.udp m.bytes]
    let s := s.upPort p fun q => { q with tx := q.tx.filter fun x => !x.busy, out := fs, ident := (q.ident + 1) % 65536 }
    let s := if isCan p then (s.put R.FP_CANERR_TEC (s.get R.FP_CANERR_TEC p - fs.length) p).canState p else s
    ((s.wrapUp R.FP_CNT0_TX p).raise (225 + 4 * p) 0).portGo p

/-! ## Receiving (R354-R361) -/

/-- A message enters the receive queue; a full queue discards it as error 0x02 (R382). -/
def State.portRecv (p udp : Nat) (m : List Byte) (s : State) : State :=
  if 32 ≤ (s.port p).rx.length then s.portDrop p 2 else (s.upPort p fun q => { q with rx := q.rx ++ [(udp, m)], rxAt := q.rxAt ++ [s.time.real] }).qStore p (16 + m.length)

/-- An ARP packet of the port (RFC 826): operation, sender and target addresses. -/
def arpBytes (op : Nat) (sm : List Byte) (si : Nat) (tm : List Byte) (ti : Nat) : List Byte :=
  beBytes 2 1 ++ beBytes 2 0x0800 ++ [6#8, 4#8] ++ beBytes 2 op ++ sm ++ beBytes 4 si ++ tm ++ beBytes 4 ti

def noMac : List Byte := List.replicate 6 0xFF#8

/-- A request for the partner's MAC address goes out (R355). -/
def State.arpAsk (p : Nat) (s : State) : State :=
  let f := ethFrame noMac (s.ownMac p) 0x0806
    (arpBytes 1 (s.ownMac p) (s.get R.FP_OWN_ID p) (List.replicate 6 0#8) (s.get R.FP_PARTNER_ID p))
  s.upPort p fun q => { q with tries := q.tries + 1, out := [f] }

/-- An ARP packet arrives: requests for the own address are answered, the partner's reply resolves its address (R355). -/
def State.arpIn (p : Nat) (d : List Byte) (s : State) : State :=
  let sm := slice d 8 6
  let si := beNat (slice d 14 4)
  if d.length < 28 || slice d 0 6 != beBytes 2 1 ++ beBytes 2 0x0800 ++ [6#8, 4#8] || beNat (slice d 24 4) != s.get R.FP_OWN_ID p then s
  else if beNat (slice d 6 2) = 1 then
    s.upPort p fun q => { q with out := [ethFrame sm (s.ownMac p) 0x0806 (arpBytes 2 (s.ownMac p) (s.get R.FP_OWN_ID p) sm si)] }
  else if beNat (slice d 6 2) = 2 ∧ si = s.get R.FP_PARTNER_ID p then
    ((s.upPort p fun q => { q with mac := sm, tries := 0, dead := false }).put R.FP_STAT_ARPOK 1 p).portGo p
  else s

/-- ARP_REFRESH (R355): every 60 s, and 1 s after an unanswered request; the third unanswered one fails. -/
def opArpRefresh (p : Nat) (s : State) : State :=
  if isCan p || !s.is R.FP_CFG_EN p then s
  else if 3 ≤ (s.port p).tries then
    ((s.put R.FP_STAT_ARPOK 0 p).upPort p fun q => { q with tries := 0, dead := true, tx := [] }).portErr p 0x0C
  else s.arpAsk p

/-- An echo request of the partner is answered while ICMPEN is 1 (R355). -/
def State.icmpIn (p : Nat) (mac : List Byte) (src : Nat) (d : List Byte) (s : State) : State :=
  if !s.is R.FP_CFG_ICMPEN p || src != s.get R.FP_PARTNER_ID p || d.length < 8 || leAt d 0 2 != 8 || inetSum d != 0 then s
  else
    let r (c : Nat) : List Byte := [0#8, 0#8] ++ beBytes 2 c ++ d.drop 4
    let r := r (inetSum (r 0))
    s.upPort p fun q =>
      { q with out := [ethFrame (if q.mac.isEmpty then mac else q.mac) (s.ownMac p) 0x0800 (s.ipHeader p 1 r.length ++ r)], ident := (q.ident + 1) % 65536 }

/-- A UDP datagram to port 24946 is Isail (R355, R356, R352). The UDP length meant by R356 is that of the message (DEDUCED, log entry 54). -/
def State.udpIn (p src : Nat) (u : List Byte) (s : State) : State :=
  let len := beNat (slice u 4 2)
  let m := slice u 8 (len - 8)
  if u.length < 8 || len < 8 || u.length < len || beNat (slice u 2 2) != 24946 then s
  else if beNat (slice u 6 2) ≠ 0 ∧ udpSum src (s.get R.FP_OWN_ID p) (u.take len) ≠ 0 then s.portDrop p 1
  else if src ≠ s.get R.FP_PARTNER_ID p then s.portDrop p 0x0D
  else if m.length ≠ 32 + leAt m 12 2 then s.portDrop p 6
  else s.portRecv p (beNat (slice u 0 2)) m

/-- An IPv4 datagram (R355). -/
def State.ipIn (p : Nat) (mac : List Byte) (d : List Byte) (s : State) : State :=
  let len := beNat (slice d 2 2)
  let src := beNat (slice d 12 4)
  let body := slice d 20 (len - 20)
  if d.length < 20 || leAt d 0 1 != 0x45 || len < 20 || d.length < len || inetSum (d.take 20) != 0 || bits (beNat (slice d 6 2)) 0 14 != 0 ||
      beNat (slice d 16 4) != s.get R.FP_OWN_ID p then s
  else if leAt d 9 1 = 17 then s.udpIn p src body
  else if leAt d 9 1 = 1 then s.icmpIn p mac src body
  else s

/-- An Ethernet frame, FCS included, that the port accepts under R354: its type. A bad FCS gives none and an error. -/
def State.frameType (s : State) (p : Nat) (f : List Byte) : Option Nat :=
  let t := beNat (slice f 12 2)
  if f.length < 64 || 1518 < f.length || t == 0x8100 then none
  else if (f.take 6 = noMac ∧ t = 0x0806) ∨ f.take 6 = s.ownMac p then some t
  else none

/-- Receive an Ethernet frame (R354). -/
def State.frameIn (p : Nat) (f : List Byte) (s : State) : State :=
  let n := f.length - 4
  if isCan p || !s.is R.FP_CFG_EN p then s
  else if 64 ≤ f.length ∧ f.length ≤ 1518 ∧ leAt f n 4 ≠ crc32 (f.take n) then s.portErr p 1
  else match s.frameType p f with
    | none => s
    | some t =>
      let s := s.raise (224 + 4 * p) f.length
      let d := slice f 14 (n - 14)
      if t = 0x0806 then s.arpIn p d else if t = 0x0800 then s.ipIn p (slice f 6 6) d else s

/-- ETHERNET_FRAME_RECEIVED (R354). -/
def opEthernetFrameReceived (p : Nat) (f : List Byte) (s : State) : State := s.frameIn p f
/-- ARP_REQUEST_RECEIVED (R355): a frame that carries ARP. -/
def opArpRequestReceived (p : Nat) (f : List Byte) (s : State) : State := if beNat (slice f 12 2) = 0x0806 then s.frameIn p f else s
/-- ICMP_ECHO_REQUEST (R355): a frame that carries ICMP. -/
def opIcmpEchoRequest (p : Nat) (f : List Byte) (s : State) : State :=
  if beNat (slice f 12 2) = 0x0800 ∧ leAt f 23 1 = 1 then s.frameIn p f else s

/-- PHY_LINK_POLL (R354, R379). -/
def opPhyLinkPoll (p : Nat) (up : Bool) (s : State) : State :=
  if isCan p || s.domGone (20 + p) then s
  else
    let was := s.is R.FP_STAT_LINK p
    let s := s.put R.FP_STAT_LINK (b2n up) p
    if up then s.portGo p else (if was then s.portErr p 0x0B else s).partnerLost p

/-! ## CAN FD (R357-R361) -/

def State.reasmPut (p cls : Nat) (r : Option Reasm) (s : State) : State :=
  s.upPort p fun q => { q with reasm := match r with | none => Store.del cls q.reasm | some x => Store.put cls x q.reasm }

/-- Bytes that the message in a reassembly will have (R361, R362). -/
def reasmTotal (b : List Byte) : Nat := if b.length < 16 then b.length else 32 + leAt b 12 2

/-- The bytes of a message after one more segment: complete, or more to come (R361). A segment shorter than 64 bytes ends its message. -/
def State.segment (p cls low : Nat) (b seg : List Byte) (nxt : Nat) (s : State) : State :=
  let all := b ++ seg
  if reasmTotal all ≤ all.length then ((s.reasmPut p cls none).portRecv p 0 (all.take (reasmTotal all)))
  else if seg.length < 64 then (s.reasmPut p cls none).portDrop p 7
  else s.reasmPut p cls (some { nxt := nxt, low := low, bytes := all })

/-- CAN_FRAME_RECEIVED (R357, R360, R361): an extended FD data frame; other kinds are ignored. -/
def opCanFrameReceived (p id : Nat) (ext fd : Bool) (d : List Byte) (s : State) : State :=
  let own := s.get R.FP_OWN_ID p % 256
  let low := bits id 0 3
  let i := bits id 3 5
  let cls := bits id 24 5
  if !isCan p || !s.is R.FP_CFG_EN p || s.is R.FP_STAT_BUSOFF p || !ext || !fd then s
  else
    let rec_ := s.get R.FP_CANERR_REC p
    let free := if 127 < rec_ then s.free else (0, s)
    let s := (free.2.put R.FP_CANERR_REC (if 127 < rec_ then 119 + free.1 % 9 else rec_ - 1) p).canState p
    if bits id 8 8 ≠ own then s
    else if bits id 16 8 ≠ s.get R.FP_PARTNER_ID p % 256 then s.portDrop p 0x0D
    else
      let s := s.raise (224 + 4 * p) d.length
      match Store.find cls (s.port p).reasm with
      | none => if i = 0 then s.segment p cls low [] d 1 else s.portDrop p 7
      | some r =>
        if i = 0 then ((s.reasmPut p cls none).portDrop p 7).segment p cls low [] d 1
        else if i = r.nxt ∧ low = r.low then s.segment p cls low r.bytes d (i + 1)
        else (s.reasmPut p cls none).portDrop p 7

/-- CAN_REASSEMBLY_TIMEOUT (R361). -/
def opCanReassemblyTimeout (p cls : Nat) (s : State) : State :=
  if (Store.find cls (s.port p).reasm).isSome then (s.reasmPut p cls none).portDrop p 7 else s

/-- CAN_BUS_ERROR (R359): the counters of the standard (ISO 11898-1): +8 for a transmitter, +1 or +8 for a receiver; bus-off beyond 255.
A message that was being sent starts again after recovery. -/
def opCanBusError (p : Nat) (tx heavy crc : Bool) (s : State) : State :=
  if !isCan p || !s.is R.FP_CFG_EN p || s.is R.FP_STAT_BUSOFF p then s
  else
    let s := if crc && !tx then s.portErr p 1 else s
    let tec := s.get R.FP_CANERR_TEC p + 8
    if tx && decide (255 < tec) then
      let s := ((s.put R.FP_CANERR_TEC 255 p).put R.FP_STAT_BUSOFF 1 p).put R.FP_STAT_LINK 0 p
      ((s.upPort p fun q => { q with tx := q.tx.map fun m => { m with busy := false } }).portErr p 0x0A).partnerLost p
    else if tx then (s.put R.FP_CANERR_TEC tec p).canState p
    else (s.bump R.FP_CANERR_REC p (if heavy then 8 else 1)).canState p

/-- The port is error-active with its counters at 0 (R359, R381). -/
def State.canFresh (p : Nat) (s : State) : State :=
  ((((s.put R.FP_CANERR_TEC 0 p).put R.FP_CANERR_REC 0 p).put R.FP_STAT_ERRPASS 0 p).put R.FP_STAT_BUSOFF 0 p).put R.FP_STAT_LINK 1 p

/-- CAN_BUS_OFF_RECOVERY (R359). -/
def opCanBusOffRecovery (p : Nat) (s : State) : State :=
  if isCan p && s.is R.FP_CFG_EN p && s.is R.FP_STAT_BUSOFF p && s.is R.FP_CFG_AUTOREC p then (s.canFresh p).portGo p else s

/-- PARTNER_LOST (R379): `FPp.LOSSTO` ms after the last message that passed R364. -/
def opPartnerLost (p : Nat) (s : State) : State :=
  let t := s.get R.FP_LOSSTO_MS p
  if t = 0 || s.is R.FP_STAT_PLOST p then s else (s.advance ((s.port p).lastOk + t * 1000000)).partnerLost p

/-! ## Configuration (R353, R376, R381) -/

/-- FP_EN_WRITE (R381). A disable lets the frame being transmitted end, also past the next enable: on Ethernet and for a single CAN frame that is the
message. -/
def opFpEnWrite (p : Nat) (en : Bool) (s : State) : State :=
  if s.is R.FP_CFG_EN p == en then s
  else if en then
    let s := (s.put R.FP_CFG_EN 1 p).upPort p fun q =>
      { q with rx := [], rxAt := [], tx := q.tx.filter TxMsg.busy, reasm := [], tries := 0, dead := false, lastOk := s.now }
    if isCan p then s.canFresh p else (s.put R.FP_STAT_ARPOK 0 p).arpAsk p
  else
    let s := (s.put R.FP_CFG_EN 0 p).upPort p fun q =>
      { q with rx := [], rxAt := [], reasm := [],
               tx := (q.tx.filter TxMsg.busy).map fun m => { m with cut := isCan p && decide (64 < m.bytes.length) } }
    if isCan p then s.put R.FP_STAT_LINK 0 p else s

/-- Locations of a receive map: area, first location, count; none while it is disabled. -/
def State.rmapSpan (s : State) (p k : Nat) : Option (Nat × Nat × Nat) :=
  if s.is R.FP_RMAP_A_EN p k then some (s.get R.FP_RMAP_A_AREA p k, s.get R.FP_RMAP_B_START p k, s.get R.FP_RMAP_B_COUNT p k) else none

/-- Two receive maps of the device meet. -/
def State.rmapMeets (s : State) (p k : Nat) : Bool :=
  match s.rmapSpan p k with
  | none => false
  | some (a, b, n) =>
    (List.range 24).any fun x =>
      x != 4 * p + k &&
        match s.rmapSpan (x / 4) (x % 4) with
        | none => false
        | some (a', b', n') => a == a' && decide (b < b' + n') && decide (b' < b + n)

/-- An enabled receive map reaches past the end of its area (DEDUCED, log entry 178). -/
def State.rmapPast (s : State) (p k : Nat) : Bool :=
  match s.rmapSpan p k with
  | none => false
  | some (a, b, n) => decide ((if a = 1 then 4096 else 2048) < b + n)

/-- A write to a receive map's registers; one after which two enabled maps overlap, or one leaves its area, is refused (R376). -/
def State.rmapWrite (p k : Nat) (op : State → State) (s : State) : State :=
  if (op s).rmapMeets p k || (op s).rmapPast p k then s.put R.FP_STAT_CFGERR 1 p
  else
    let s' := op s
    if s'.is R.FP_RMAP_A_EN p k then s' else s'.upPort p fun q => { q with maps := Store.del k q.maps, zeroed := q.zeroed.filter (· != k) }

/-- AREA keeps its value where COUNT holds more than the 253 words that it would then count (00, R5). -/
def rmapA (p k v : Nat) (s : State) : State :=
  let area := if 253 < s.get R.FP_RMAP_B_COUNT p k then s.get R.FP_RMAP_A_AREA p k else bits v 1 1
  ((((s.put R.FP_RMAP_A_EN (bits v 0 1) p k).put R.FP_RMAP_A_AREA area p k).put R.FP_RMAP_A_LOSSZERO (bits v 2 1) p k).put
    R.FP_RMAP_A_ROLES (bits v 4 4) p k).put R.FP_RMAP_A_ID (bits v 8 8) p k

/-- COUNT keeps its value for a count that the description does not allow, 1-1012 bytes or 1-253 words (00, R5). -/
def rmapB (p k v : Nat) (s : State) : State :=
  let c := bits v 16 10
  let c := if c = 0 ∨ (if s.is R.FP_RMAP_A_AREA p k then 253 else 1012) < c then s.get R.FP_RMAP_B_COUNT p k else c
  (s.put R.FP_RMAP_B_START (bits v 0 12) p k).put R.FP_RMAP_B_COUNT c p k

def execEthernetFrameReceived (p : Fin 6) (f : List Byte) (s : State) : Host.Outcome State Fault Refusal := .next (opEthernetFrameReceived p f s)
def execArpRequestReceived (p : Fin 6) (f : List Byte) (s : State) : Host.Outcome State Fault Refusal := .next (opArpRequestReceived p f s)
def execArpRefresh (p : Fin 6) (s : State) : Host.Outcome State Fault Refusal := .next (opArpRefresh p s)
def execIcmpEchoRequest (p : Fin 6) (f : List Byte) (s : State) : Host.Outcome State Fault Refusal := .next (opIcmpEchoRequest p f s)
def execPhyLinkPoll (p : Fin 6) (up : Bool) (s : State) : Host.Outcome State Fault Refusal := .next (opPhyLinkPoll p up s)
def execCanFrameReceived (p : Fin 6) (id : Nat) (ext fd : Bool) (d : List Byte) (s : State) : Host.Outcome State Fault Refusal :=
  .next (opCanFrameReceived p id ext fd d s)
def execCanReassemblyTimeout (p : Fin 6) (cls : Nat) (s : State) : Host.Outcome State Fault Refusal := .next (opCanReassemblyTimeout p cls s)
def execCanBusError (p : Fin 6) (tx heavy crc : Bool) (s : State) : Host.Outcome State Fault Refusal := .next (opCanBusError p tx heavy crc s)
def execCanBusOffRecovery (p : Fin 6) (s : State) : Host.Outcome State Fault Refusal := .next (opCanBusOffRecovery p s)
def execPartnerLost (p : Fin 6) (s : State) : Host.Outcome State Fault Refusal := .next (opPartnerLost p s)
def execFpEnWrite (p : Fin 6) (en : Bool) (s : State) : Host.Outcome State Fault Refusal := .next (opFpEnWrite p en s)

end Sys2Proof.Machine
end

