-- ==== Sys2Proof/Machine/Crypto.lean ====
section
/-! DEFINITION. Machine/Crypto.lean: the crypto accelerator (14, R384-R387; 23, R561): key slots, random words, SV's jobs and the trailer
jobs of the commit hardware. -/

namespace Sys2Proof.Machine

/-- A key slot; slots hold zero after reset (R385). -/
def State.key (s : State) (k : Nat) : List Byte := s.crypto.keys.getD k (List.replicate 32 0#8)
def State.setKey (k : Nat) (v : List Byte) (s : State) : State := { s with crypto := { s.crypto with keys := Store.put k v s.crypto.keys } }

/-- The trailer of a message under a key (R363). -/
def trailer (key msg : List Byte) : List Byte := (hmac256 key msg).take 16

/-- The accelerator has completed a job (R386). -/
def State.jobDone (s : State) : State := s.wrapUp R.CRYPTO_DONECNT_N

/-! ## SV's memory accesses (R384, R242) -/

/-- Read `n` bytes for SV in pieces that one checker region can govern: the bytes and the error, 2 access refused or 3 uncorrectable ECC. -/
def State.jobRead : Nat → Nat → Nat → State → State × List Byte × Nat
  | 0, _, _, s => (s, [], 0)
  | f + 1, a, n, s =>
    if n = 0 then (s, [], 0)
    else
      let k := min n (32 - a % 32)
      let c := s.check 4 0 a k
      if !c.2 then (c.1, [], 2)
      else if inRange a 0x30000000 (min 0x10000000 (c.1.get R.UPD_FINFO_MIB * 0x100000)) then
        let r := State.jobRead f (a + k) (n - k) c.1
        (r.1, c.1.norBytes (a - 0x30000000) k ++ r.2.1, r.2.2)
      else
        let q := c.1.memRead 4 a k
        if q.2.2 ≠ 0 then (q.1, [], q.2.2)
        else
          let r := State.jobRead f (a + k) (n - k) q.1
          (r.1, q.2.1 ++ r.2.1, r.2.2)

/-- Write bytes for SV: the error, if any. -/
def State.jobWrite : Nat → Nat → List Byte → State → State × Nat
  | 0, _, _, s => (s, 0)
  | f + 1, a, d, s =>
    if d.isEmpty then (s, 0)
    else
      let k := min d.length (32 - a % 32)
      let c := s.check 4 1 a k
      if !c.2 then (c.1, 2)
      else
        let q := c.1.memWrite 4 a (d.take k)
        if q.2 ≠ 0 then (q.1, q.2) else State.jobWrite f (a + k) (d.drop k) q.1

/-! ## SV's jobs (R386) -/

/-- A job descriptor may stand in shared data or in SV's engine-private block. -/
def jobPlace (a : Nat) : Bool := inRange a 0x02100000 0x100000 || inRange a 0xE0010000 0x4000

/-- What a job of valid form computes: the state, the match bit and the error. -/
def State.runJob (w0 msg len res : Nat) (s : State) : State × Bool × Nat :=
  let kind := bits w0 0 4
  let key := s.key (bits w0 4 5)
  let m := s.jobRead (len + 1) msg len
  if m.2.2 ≠ 0 then (m.1, false, m.2.2)
  else if kind = 2 then
    let t := m.1.jobRead 17 res 16
    if t.2.2 ≠ 0 then (t.1, false, t.2.2) else (t.1, t.2.1 == trailer key m.2.1, 0)
  else if kind = 3 then (m.1.setKey (bits w0 9 5) (hmac256 key m.2.1), false, 0)
  else
    let r := if kind = 1 then hmac256 key m.2.1 else if kind = 4 then sha256 m.2.1 else sha512 m.2.1
    let q := m.1.jobWrite 65 res r
    (q.1, false, q.2)

/-- The descriptor's form is valid: KIND and slots (R386). -/
def jobValid (w0 : Nat) : Bool :=
  let kind := bits w0 0 4
  inRange kind 1 5 && decide (bits w0 4 5 < 24) && (kind != 3 || decide (bits w0 9 5 < 24))

/-- A job of SV runs and completes: status word, count, event (R386). -/
def State.svJob (a : Nat) (s : State) : State :=
  let d := s.jobRead 33 a 32
  let w (o : Nat) := leAt d.2.1 o 4
  let r : State × Bool × Nat :=
    if d.2.2 ≠ 0 then (d.1, false, d.2.2)
    else if !jobValid (w 0) then (d.1, false, 1)
    else d.1.runJob (w 0) (w 4) (w 8 % 2 ^ 24) (w 12)
  let s := (r.1.jobWrite 5 (a + 16) (leBytes 4 (1 + 2 * b2n r.2.1 + 16 * r.2.2))).1.jobDone
  if bit (w 0) 16 then s.raise (280 + bits (w 0) 17 3) (6 + 256 * b2n (r.2.2 != 0)) else s

/-- An invalid descriptor completes at once (R386); where SV cannot read it, the job meets the refusal when it runs. -/
def State.submitBad (s : State) (a : Nat) : Bool :=
  a % 32 != 0 || !jobPlace a || !jobValid (leNat (s.mbs (a / 32 * 32) 4))

/-- CRYPTO_SUBMIT (R386, R561): a full queue stalls the store. -/
def opCryptoSubmit (a : Nat) (s : State) : State :=
  if a % 32 ≠ 0 ∨ !jobPlace a then
    if jobPlace a then (s.jobWrite 5 (a / 32 * 32 + 16) (leBytes 4 0x11)).1.jobDone else s.jobDone
  else if s.submitBad a then s.svJob a
  else if s.crypto.sv.length < 8 then { s with crypto := { s.crypto with sv := s.crypto.sv ++ [a] } }.qStore 14 32
  else ({ s with crypto := { s.crypto with wait := some a } }).upE 4 fun x => { x with stalled := true }

/-! ## Sessions' slots and the trailer of a MAP (R375, R385) -/

/-- The sequence of a MAP that is not sent is not used: it goes to the next message unless one has been sent since (R375; 23, R558). -/
def State.mapUnsent (j : CmJob) (s : State) : State :=
  match Store.find j.sess s.sess with
  | none => s
  | some x =>
    let s := s.put R.FP_STAT_MAPLATE 1 x.port
    if x.tx = j.seq then { s with sess := Store.put j.sess { x with tx := j.seq - 1 } s.sess } else s

/-- A trailer job of the commit hardware: the MAP is complete and enters the transmit queue, if its session is still open. -/
def State.mapJob (j : CmJob) (s : State) : State :=
  match Store.find j.sess s.sess with
  | none => s.jobDone
  | some x =>
    let r := s.jobDone.portSend x.port 1 (s.get R.FP_UDPPORT_PORT x.port) (j.bytes ++ trailer (s.key (4 + j.sess)) j.bytes) true
    if r.2 then r.1 else r.1.mapUnsent j

/-- CRYPTO_JOB_COMPLETE (R384, R386): commit jobs first; a store that waited for an entry gets it. -/
def opCryptoJobComplete (s : State) : State :=
  match s.crypto.cm, s.crypto.sv with
  | j :: r, _ => { s.qRead 15 (r.length + 1) 0 j.bytes.length with crypto := { s.crypto with cm := r } }.mapJob j
  | [], a :: r =>
    let s := { s.qRead 14 (r.length + 1) 0 32 with crypto := { s.crypto with sv := r } }.svJob a
    match s.crypto.wait with
    | none => s
    | some b =>
      ({ s with crypto := { s.crypto with sv := s.crypto.sv ++ [b], wait := none } }).qStore 14 32 |>.upE 4 fun x => { x with stalled := false }
  | [], [] => s

/-! ## Keys and random words (R385, R387) -/

/-- CRYPTO_KEYDATA (R385): lowest word first; WORD advances. -/
def opCryptoKeydata (v : Nat) (s : State) : State :=
  let k := s.get R.CRYPTO_KEYSEL_SLOT
  let w := s.get R.CRYPTO_KEYSEL_WORD
  (if k < 24 then s.setKey k (patch (s.key k) (4 * w) (leBytes 4 v)) else s).put R.CRYPTO_KEYSEL_WORD (w + 1)

/-- CRYPTO_KEYCLR (R385). -/
def opCryptoKeyclr (m : Nat) (s : State) : State :=
  { s with crypto := { s.crypto with keys := s.crypto.keys.filter fun p => !bit (m % 2 ^ 24) p.1 } }

/-- The next random word (R387). -/
def State.rng (s : State) : Nat × State :=
  ((Config.rngWord s.crypto.rng).toNat, { s with crypto := { s.crypto with rng := s.crypto.rng + 1 } })

/-- A nonce of 16 bytes (R387). -/
def State.nonce (s : State) : List Byte × State :=
  (List.range 4).foldl (fun r _ => let q := r.2.rng; (r.1 ++ leBytes 4 q.1, q.2)) ([], s)

/-- CRYPTO_RNG_READ (R387): the word is consumed. -/
def opCryptoRngRead (s : State) : State := s.rng.2

def execCryptoSubmit (a : Nat) (s : State) : Host.Outcome State Fault Refusal := .next (opCryptoSubmit a s)
def execCryptoJobComplete (s : State) : Host.Outcome State Fault Refusal := .next (opCryptoJobComplete s)
def execCryptoKeydata (v : Word) (s : State) : Host.Outcome State Fault Refusal := .next (opCryptoKeydata v.toNat s)
def execCryptoKeyclr (m : Nat) (s : State) : Host.Outcome State Fault Refusal := .next (opCryptoKeyclr m s)
def execCryptoRngRead (s : State) : Host.Outcome State Fault Refusal := .next (opCryptoRngRead s)

end Sys2Proof.Machine
end

