-- ==== Sys2Proof/Machine/Upd.lean ====
section
/-! DEFINITION. Machine/Upd.lean: the flash, its operations and its records: images, the boot control record (26, R623-R630). -/

namespace Sys2Proof.Machine

/-- Base of an SV bank (R624). -/
def svBank (b : Nat) : Nat := if b = 0 then 0x100000 else 0x580000
def bankSize : Nat := 0x480000

/-- The bank that an address lies in. -/
def bankOf (a : Nat) : Option Nat := if inRange a (svBank 0) bankSize then some 0 else if inRange a (svBank 1) bankSize then some 1 else none

/-- A write to a bank cancels a handover into it and makes it not verified (R632). -/
def State.bankTouched (b : Nat) (s : State) : State :=
  let s := { s with upd := { s.upd with verified := setBit s.upd.verified b false } }
  if s.upd.at_.isSome ∧ b ≠ s.get R.UPD_BOOT_BANK then { s with upd := { s.upd with at_ := none } }.put R.UPD_CTL_HOSCHED 0 else s

/-- Erase and program of flash cells: programming clears bits only (R625, R630). -/
def State.norErase (a n : Nat) (s : State) : State := { s with nor := s.nor.filter fun c => !inRange c.1 a n }
def State.norProgram (a : Nat) (d : List Byte) (s : State) : State := s.setNor a (List.zipWith (· &&& ·) (s.norBytes a d.length) d)

/-- Bytes of `UPD.FBUF`. -/
def State.fbuf (s : State) (n : Nat) : List Byte := cellsGet 0#8 s.upd.fbuf 0 n
/-- Put data into `UPD.FBUF`, from byte `o` on. -/
def State.putFbuf (o : Nat) (d : List Byte) (s : State) : State :=
  State.bufStore (bufFlash + o) d.length { s with upd := { s.upd with fbuf := cellsPut 0#8 o d s.upd.fbuf } }

/-- An operation is refused or fails with a reason code. -/
def State.updErr (code : Nat) (s : State) : State := (s.put R.UPD_STAT_OPERR 1).put R.UPD_STAT_ERR code

/-- Bytes that an operation covers. -/
def opSpan (op len : Nat) : Nat := if op = 1 then 0x1000 else if op = 2 then 0x10000 else len

/-- A write of `UPD.FCMD` (R625). -/
def State.flashStart (op a len : Nat) (s : State) : State :=
  let n := opSpan op len
  let misaligned := (op != 4 && op != 3 && a % n != 0) || (op == 3 && decide (256 < a % 256 + n))
  if op = 0 ∨ 4 < op then s
  else if s.upd.op.isSome then s.put R.UPD_STAT_OPERR 1
  else if !s.is R.UPD_FINFO_OK then s.updErr 5
  else if misaligned then s.updErr 6
  else if op ≠ 4 ∧ bankOf a = some (s.get R.UPD_BOOT_BANK) then s.updErr 0x16
  else if s.flashSize < a + n then s.updErr 3
  else
    let s := if op = 4 then s else match bankOf a with | some b => s.bankTouched b | none => s
    { s with upd := { s.upd with op := some (op, a, n) } }.put R.UPD_STAT_BUSY 1

/-- FLASH_OPERATION_COMPLETE (R625): each program is read back. -/
def opFlashOperationComplete (ok : Bool) (s : State) : State :=
  match s.upd.op with
  | none => s
  | some (op, a, n) =>
    let s := { s with upd := { s.upd with op := none } }.put R.UPD_STAT_BUSY 0
    if op = 4 then s.put R.UPD_CRC_VAL_C (crc32 (s.norBytes a n))
    else if op = 3 then
      let s := (s.bufRead bufFlash n).norProgram a (s.fbuf n)
      if ok && s.norBytes a n == s.fbuf n then s else s.updErr 4
    else s.norErase a n

/-- UPD_SECTOR_ERASE, UPD_BLOCK_ERASE, UPD_PROGRAM, UPD_CRC (R625): the registers are written, FCMD last. -/
def opUpdSectorErase (a : Nat) (s : State) : State := (s.put R.UPD_FADDR_A a).flashStart 1 (a % 2 ^ 32) 0
def opUpdBlockErase (a : Nat) (s : State) : State := (s.put R.UPD_FADDR_A a).flashStart 2 (a % 2 ^ 32) 0
def opUpdProgram (a : Nat) (d : List Byte) (s : State) : State :=
  if d.isEmpty ∨ 256 < d.length then s
  else ((s.putFbuf 0 d).put R.UPD_FADDR_A a).flashStart 3 (a % 2 ^ 32) d.length
def opUpdCrc (a n : Nat) (s : State) : State :=
  ((s.put R.UPD_FADDR_A a).put R.UPD_CRC_LEN_N n).flashStart 4 (a % 2 ^ 32) (n % 2 ^ 32)

/-! ## Images (R627) -/

/-- What an image header says. -/
structure FwHeader where
  key : Nat
  version : Nat
  compat : Nat
  len : Nat
  boot : Nat
  hand : Nat
  fmt : Nat
  fmtMin : Nat
  /-- layout versions of groups 0x00-0x7F, then of group 0xF0 -/
  groups : List Nat
  deriving DecidableEq, Repr

def zeroBytes (l : List Byte) : Bool := l.all (· == 0#8)

/-- The header of 256 bytes, if it is valid (R627). -/
def fwHeader (h : List Byte) : Option FwHeader :=
  let l := leAt h 0x10 4
  let f : FwHeader :=
    { key := leAt h 5 1, version := leAt h 8 4, compat := leAt h 0x0C 2, len := l, boot := leAt h 0x14 4, hand := leAt h 0x18 4,
      fmt := leAt h 0x1C 2, fmtMin := leAt h 0x1E 2, groups := ((slice h 0x40 128) ++ slice h 0xC0 1).map BitVec.toNat }
  if slice h 0 4 == [0x59#8, 0x52#8, 0x46#8, 0x57#8] && leAt h 4 1 == 1 && f.key ≤ 1 && zeroBytes (slice h 6 2) && zeroBytes (slice h 0x0E 2) &&
      zeroBytes (slice h 0x20 32) && zeroBytes (slice h 0xC1 3) && zeroBytes (slice h 0xC8 56) && decide (256 ≤ l) && decide (l ≤ 0x400000) &&
      l % 256 == 0 && decide (f.boot < l) && f.boot % 8 == 0 && decide (f.hand < l) && f.hand % 8 == 0 then some f
  else none

def State.header (s : State) (b : Nat) : Option FwHeader := fwHeader (s.norBytes (svBank b) 256)

/-- The header CRC: over the image with its own word taken as 0 (R627). -/
def State.headerCrc (s : State) (b : Nat) (l : Nat) : Bool :=
  let d := s.norBytes (svBank b) l
  leAt d 0xC4 4 == crc32 (patch d 0xC4 (List.replicate 4 0#8))

/-- The signature verifies (R628; log entry 10). -/
def State.signatureOk (s : State) (b : Nat) (f : FwHeader) : Bool :=
  Config.signatureOk f.key (s.norBytes (svBank b) f.len) (s.norBytes (svBank b + f.len) 64)

/-! ## The boot control record (R630) -/

/-- A copy of the record. -/
structure BootRec where
  seq : Nat
  pref : Nat
  prev : Nat
  limit : Nat
  used : Nat
  confirmed : Bool
  deriving DecidableEq, Repr

def State.bootCopy (s : State) (c : Nat) : Option BootRec :=
  let d := s.norBytes (0x1000 * c) 24
  if slice d 0 4 == [0x59#8, 0x52#8, 0x42#8, 0x43#8] && leAt d 12 4 == crc32 (d.take 12) then
    some { seq := leAt d 4 4, pref := leAt d 8 1 % 2, prev := leAt d 9 1 % 2, limit := leAt d 10 1,
           used := 8 - (setBits 8 (leAt d 16 1)).length, confirmed := leAt d 0x14 4 == 0 }
  else none

/-- The copy in force: the valid one with the higher sequence (R629). -/
def State.bootBest (s : State) : Option Nat :=
  match s.bootCopy 0, s.bootCopy 1 with
  | none, none => none
  | some _, none => some 0
  | none, some _ => some 1
  | some a, some b => if a.seq < b.seq then some 1 else some 0

/-- Without a record the ROM takes bank 0, confirmed (R629). -/
def State.bootRec (s : State) : BootRec :=
  match s.bootBest with
  | none => { seq := 0, pref := 0, prev := 1, limit := 0, used := 0, confirmed := true }
  | some c => (s.bootCopy c).getD { seq := 0, pref := 0, prev := 1, limit := 0, used := 0, confirmed := true }

/-- A new record replaces the older copy, with the next sequence (R630). -/
def State.bootWrite (pref prev limit : Nat) (confirmed : Bool) (s : State) : State :=
  let c := match s.bootBest with | none => 0 | some c => 1 - c
  let h := [0x59#8, 0x52#8, 0x42#8, 0x43#8] ++ leBytes 4 (s.bootRec.seq + 1) ++
    [BitVec.ofNat 8 pref, BitVec.ofNat 8 prev, BitVec.ofNat 8 limit, 0#8]
  let d := h ++ leBytes 4 (crc32 h) ++ List.replicate 4 0xFF#8 ++ leBytes 4 (if confirmed then 0 else 0xFFFFFFFF)
  (s.norErase (0x1000 * c) 0x1000).norProgram (0x1000 * c) d

/-- Firmware on trial confirms itself (R631): the confirm word is programmed. -/
def State.bootConfirm (s : State) : State :=
  match s.bootBest with
  | none => s
  | some c => (s.norProgram (0x1000 * c + 0x14) (leBytes 4 0)).put R.UPD_BOOT_TRIAL 0

/-- A trial boot clears the lowest 1 bit of tries (R629). -/
def State.bootTry (s : State) : State :=
  match s.bootBest with
  | none => s
  | some c =>
    let t := leAt (s.norBytes (0x1000 * c + 0x10) 1) 0 1
    match (setBits 8 t).head? with
    | none => s
    | some i => s.norProgram (0x1000 * c + 0x10) [BitVec.ofNat 8 (t - 2 ^ i)]

def execUpdSectorErase (a : Nat) (s : State) : Host.Outcome State Fault Refusal := .next (opUpdSectorErase a s)
def execUpdBlockErase (a : Nat) (s : State) : Host.Outcome State Fault Refusal := .next (opUpdBlockErase a s)
def execUpdProgram (a : Nat) (d : List Byte) (s : State) : Host.Outcome State Fault Refusal := .next (opUpdProgram a d s)
def execUpdCrc (a n : Nat) (s : State) : Host.Outcome State Fault Refusal := .next (opUpdCrc a n s)
def execFlashOperationComplete (ok : Bool) (s : State) : Host.Outcome State Fault Refusal := .next (opFlashOperationComplete ok s)

end Sys2Proof.Machine
end

