-- ==== Sys2Proof/Machine/Debug.lean ====
section
/-! DEFINITION. Machine/Debug.lean: halting, stepping and resuming engines, the ports of a halted engine, and what the end of the last
debug session does (25, R593-R594, R607-R619). -/

namespace Sys2Proof.Machine

/-! ## Halt, resume, step (R608-R611) -/

/-- A halt request for one engine: the pending or forced halt, its group, its outputs (R608, R609, R616). -/
def State.halt1 (e : Nat) (force : Bool) (s : State) : State :=
  if s.halted e || (e < 4 && s.secondary e) then s
  else
    let s := (s.stopFollowing 0x1F).haltRequest e 1 force
    if s.halted e then (s.crossTrigger e).outRefresh else s

/-- HALT (R608): the engines of a mask. -/
def opHaltRequest (mask : Nat) (force : Bool) (s : State) : State := State.forAll (setBits 5 mask) (fun e s => s.halt1 e force) s

/-- The engine restarts with its next bundle (R611). What was in flight has completed by then: near results at the halt, and far accesses end before
the bundle issues (03, R68); the SV watchdog counts on (07, R185). -/
def State.unhalt (e : Nat) (s : State) : State :=
  let s := if e = 4 then s.svWatch false else s
  let s := (s.putBit R.LANT_HALTST_HALTED e false).putBit R.LANT_HALTST_PENDING e false
  let s := ((s.put R.LANT_E_WHY_REASON 0 e).put R.LANT_E_WHY_INDEX 0 e).put R.LANT_E_WHY_DEFER 0 e
  s.upE e fun x => { x with skip := true, stepping := false, wdAt := s.time.real,
                            flights := x.flights.map fun f => if f.far.isSome then { f with due := min f.due x.cyc } else f }

/-- A named engine resumes, and the Mirror secondary with its primary (R609, R611). -/
def State.resume1 (e : Nat) (s : State) : State :=
  if !s.halted e || (e < 4 && s.secondary e) then s
  else
    let s := s.unhalt e
    match s.mirrorOf e with
    | some f => s.unhalt f
    | none => s

/-- RESUME (R611). In an emulated Standby it acts as elsewhere (DEDUCED, log entry 171). -/
def opResumeRequest (mask : Nat) (s : State) : State := (State.forAll (setBits 5 mask) State.resume1 s).outRefresh

/-- The engine has something to run: SV, an instance on it, or one waiting (R610). -/
def State.canStep (s : State) (e : Nat) : Bool := e == 4 || (s.eng e).live || !(s.waiting e).isEmpty

/-- A step of one engine (R610); one of a running engine is ignored. -/
def State.step1 (e : Nat) (s : State) : State :=
  if !s.halted e || (e < 4 && s.secondary e) then s
  else if !s.canStep e then s.put R.LANT_STAT_STEPERR 1
  else s.upE e fun x => { x with stepping := true, skip := true,
                                 flights := x.flights.map fun f => if f.far.isSome then { f with due := min f.due x.cyc } else f }

/-- STEP (R610). -/
def opStepRequest (mask : Nat) (s : State) : State := State.forAll (setBits 5 mask) State.step1 s

/-- A write of `LANT.HALTREQ`: halts, then resumes, then steps (DESIGN CHOICE, log entry 52). -/
def State.haltReq (v : Nat) (s : State) : State :=
  opStepRequest (bits v 16 5) (opResumeRequest (bits v 8 5) (opHaltRequest (bits v 0 5) (bit v 24) s))

/-! ## The ports of a halted engine (R614) -/

/-- An engine with the G bank that `SEL` names in use. -/
def Eng.inBank (x : Eng) (b : Nat) : Eng := if b ≤ 12 then { x with gbank := b } else x

/-- Value of a port of a halted engine: 0 for a trigger port. -/
def State.portValue (s : State) (e bank p : Nat) : Nat :=
  match portKind (e == 4) p with
  | .trigger => 0
  | .reserved => 0
  | .reg => (((s.eng e).inBank bank).gReg (e == 4) p).toNat
  | _ => (s.readPort e p).toNat

/-- An operation in flight will write the port: a unit's result, the accumulator (04, R96), the FPU flags (R106), or what a far access gives,
in LSU.FQ and LSU.STAT of a logic engine (R112) and in LSU.Q and LSU.STAT of SV (R114). -/
def Flight.writes (f : Flight) (sv : Bool) (p : Nat) : Bool :=
  f.outs.any (fun o => o.1 == p) || (p == 0x098 && f.acc.isSome) || (p == 0x134 && (f.unit == .fpuAdd || f.unit == .fpuDiv)) ||
    match f.far with
    | some r => p == 0x192 || (!r.store && p == (if sv then 0x190 else 0x191))
    | none => false

/-- The pending bit of a result port (03, R71); that of MACRO.Q lasts as long as the macro runs (05, R131). -/
def State.portPend (s : State) (e p : Nat) : Bool :=
  portKind (e == 4) p == .result && ((s.eng e).flights.any (fun f => f.writes (e == 4) p) || (p == 0x248 && (s.eng e).mac.isSome))

/-- `LANT.Ee_DATA` as read: 0 while the engine runs. -/
def State.eeData (s : State) (e : Nat) : Nat :=
  if s.halted e then s.portValue e (s.get R.LANT_E_SEL_BANK e) (s.get R.LANT_E_SEL_PORT e) else 0

/-- Write a port of a halted engine: a G register or an operand latch; IMM.HI becomes the pending upper value (03, R63). -/
def State.portSet (e bank p v : Nat) (s : State) : State :=
  if !s.halted e then s
  else
    match portKind (e == 4) p with
    | .reg => s.upE e fun x => { (x.inBank bank).setG (e == 4) p (word v) with gbank := x.gbank }
    | .operand => s.upE e fun x => if p = 0x1F0 then { x with upper := some (v % 2 ^ 14) } else x.setPort p (word v)
    | _ => s

/-- EE_DATA_WRITE (R614). -/
def opEeDataWrite (e v : Nat) (s : State) : State := s.portSet e (s.get R.LANT_E_SEL_BANK e) (s.get R.LANT_E_SEL_PORT e) v

/-- `LANT.Ee_CORE` as read; it is taken to read 0 while the engine runs, as Ee_DATA does (DEDUCED, log entry 53). -/
def State.eeCore (s : State) (e : Nat) : Nat :=
  if !s.halted e then 0
  else
    let x := s.eng e
    b2n (s.portPend e (s.get R.LANT_E_SEL_PORT e)) + 2 * b2n x.acc + 4 * x.branch.length + 2 ^ 8 * x.rets.length +
      2 ^ 13 * b2n x.upper.isSome + 2 ^ 14 * (x.upper.getD 0 % 2 ^ 14) + 2 ^ 28 * x.priv

/-! ## Control and the end of sessions (R593, R594, R616, R619) -/

/-- Some monitor session is open (R592). -/
def State.monOpen (s : State) : Bool := s.sess.any fun p => p.2.mon

/-- A write of `LANT.CTL` without its SYSRST bit; reserved turn policies keep the field (00, R5). -/
def State.lantCtl (v : Nat) (s : State) : State :=
  let s := if bits v 0 2 < 2 then s.put R.LANT_CTL_TURNPOL (bits v 0 2) else s
  let s := (s.put R.LANT_CTL_HALTRST (bits v 8 5)).put R.LANT_CTL_IDLETO (bits v 16 8)
  (State.forAll ((List.range 4).filter s.halted) State.haltAwait s).outRefresh

/-- The last debug session closes: halted engines resume, breakpoints, watchpoints and HALTRST are cleared (R594). -/
def State.debugEnd (s : State) : State :=
  if s.lan.wire ≠ 0 ∨ s.monOpen then s
  else
    let s := opResumeRequest 31 s
    let s := s.put R.LANT_HALTST_PENDING 0
    let s := State.forAll (List.range 5)
      (fun e s => State.forAll (List.range 2) (fun k s => s.put R.LANT_E_WP_CFG_EN 0 e k)
        (State.forAll (List.range 4) (fun k s => s.put R.LANT_E_BP_EN 0 e k) s)) s
    s.put R.LANT_CTL_HALTRST 0

/-- Emulated Standby becomes Standby (R619): step 3 of R589. -/
def State.emuEnd (s : State) : State :=
  if s.is R.LANT_STAT_EMUSTBY then s.powerDown else s

/-- The wire session closes (R594, R619). -/
def State.wireClose (s : State) : State :=
  if s.lan.wire = 0 then s
  else
    let s := { s with lan := { s.lan with wire := 0, nonce := [], waits := none, replies := [],
                                          queue := s.lan.queue.filter fun q => q.from_.isSome } }
    (((s.put R.LANT_STAT_ATT 0).put R.LANT_STAT_WIRE 0).debugEnd).emuEnd

/-- A debug-domain reset (R591): the LANT block takes its reset values and the wire session closes. -/
def State.debugReset (s : State) : State :=
  let s := opResumeRequest 31 s.wireClose
  { s with flds := s.flds.filter fun p => !lantKey p.1, lan := { LanSt.reset with queue := s.lan.queue },
           sess := s.sess.map fun (p : Nat × Sess) => (p.1, { p.2 with mon := false }) }

def execHaltRequest (mask : Fin 32) (force : Bool) (s : State) : Host.Outcome State Fault Refusal := .next (opHaltRequest mask force s)
def execResumeRequest (mask : Fin 32) (s : State) : Host.Outcome State Fault Refusal := .next (opResumeRequest mask s)
def execStepRequest (mask : Fin 32) (s : State) : Host.Outcome State Fault Refusal := .next (opStepRequest mask s)
def execDeferredHalt (e : Fin 5) (s : State) : Host.Outcome State Fault Refusal := .next (s.deferredHalt e)
def execEeDataWrite (e : Fin 5) (v : Word) (s : State) : Host.Outcome State Fault Refusal := .next (opEeDataWrite e v.toNat s)

end Sys2Proof.Machine
end

