-- ==== Sys2Proof/Machine/View.lean ====
section
/-! DEFINITION. Machine/View.lean: what a read of a register slot returns: stored fields put in their places, fields worked out from the rest
of the state, and what a read sets off (00, R4-R8). -/

namespace Sys2Proof.Machine

/-- The fields that stand in the register at an address, with their indices (15: the binding of bridge enable names a bit, not a word). -/
def fieldsAt (a : Nat) : List (Fam × Nat × Nat) :=
  (R.slotFams ((a - 0x10000000) / 0x1000)).filterMap fun f =>
    if a = 0x1002002C ∧ f = R.GDRV_BIND_WORD then none else (f.at? a).map fun p => (f, p.1, p.2)

/-- The stored fields of a register; write-only ones read 0 (R7). -/
def State.rawWord (s : State) (a : Nat) : Nat :=
  (fieldsAt a).foldl (fun w p => if p.1.acc = .wo then w else w + s.get p.1 p.2.1 p.2.2 * 2 ^ p.1.lsb) 0

/-! ## Fields worked out on a read -/

/-- Power domain `n` is on (24, R573, R574); in Standby only PD0 is (01, R17), and in emulated Standby only the backup and debug domains show as on (25, R619). -/
def State.domStat (s : State) (n : Nat) : Bool :=
  if s.is R.LANT_STAT_EMUSTBY then n < 2
  else !s.domGone n && (n < 44 || (s.is R.GD_STAT_VDDGOK (n - 44) && s.is R.GD_STAT_VEEGOK (n - 44)))

/-- Power domains one of which must be on for clock domain `n` to run (24, R575, R576). -/
def clockDomains (n : Nat) : List Nat :=
  if n = 0 then [0] else if n ≤ 2 then [30] else if n ≤ 6 then [n - 1] else if n = 7 then [6] else if n = 8 then [31] else if n = 9 then [32]
  else if n = 10 then [24] else if n ≤ 12 then [n + 9] else if n ≤ 14 then [22] else if n ≤ 16 then [23] else if n = 17 then [25]
  else if n = 18 then [29] else if n = 19 then [32] else if n = 20 then [35, 36, 37] else if n = 21 then [39, 40] else if n = 22 then [33, 34]
  else if n = 23 then [41] else if n = 24 then [42] else if n = 25 then [1] else if n = 26 then [31] else if n ≤ 35 then [7]
  else if n = 36 then [19] else if n = 37 then [31] else if n ≤ 39 then [28] else if n ≤ 47 then [n + 4] else if n ≤ 55 then [27]
  else if n ≤ 63 then [n - 12] else []

/-- `CLK.RUN` (24, R576): the receive side of an isolated channel also needs the core side, PD27. -/
def State.clockRuns (s : State) (n : Nat) : Bool :=
  if s.is R.LANT_STAT_EMUSTBY then n == 0 || n == 25
  else (clockDomains n).any s.domStat && (n < 56 || s.domStat 27)

def packBits (f : Nat → Bool) (n : Nat) : Nat := (List.range n).foldl (fun w i => if f i then w + 2 ^ i else w) 0

/-- `TSK.STn.STATE` (06, R170). -/
def State.taskState (s : State) (n : Nat) : Nat :=
  match (s.task n).inst with
  | some i =>
    match i.st with
    | .ready => 2 | .running => 3 | .preempted => 4 | .ended => 3 | .complete => 5
  | none => if s.is R.TSK_CFG_EN n then 1 else 0

/-- `TSK.STn`: STATE, LATE and SHED beside what is stored. -/
def State.taskWord (s : State) (n : Nat) : Nat :=
  s.taskState n + 8 * b2n (((s.task n).inst.map Inst.late).getD false) +
    16 * b2n (s.is R.TSK_CFG_SHEDDABLE n && s.shedding (s.tEng n))

/-- `TSK.RUNe`. -/
def State.runWord (s : State) (e : Nat) : Nat :=
  match (s.eng e).task with
  | some n => n + 64 + 128 * (s.eng e).priv
  | none => 0

def State.taskReady (s : State) (n : Nat) : Bool := s.taskState n == 2 || s.taskState n == 4

/-- `TSK.TRGn` reads the bits that its trigger kind uses (R170). -/
def trgMask (event : Bool) (w : Nat) : Nat := if event then bits w 0 9 + 4096 * bits w 12 20 else bits w 0 13 + 65536 * bits w 16 13

/-- `EVT.TOP` (08, R206). -/
def State.topWord (s : State) : Nat :=
  match s.evTop with
  | some x => x + 0x8000 + 65536 * s.get R.EVT_CFG_PRIO x
  | none => 0

/-- The set-up registers of the checker show the pending copy or the active one (10, R259); slot 14 and the reserved slots are fixed. -/
def State.chkWord (s : State) (a : Nat) : Nat :=
  let k := (a - 0x1000E400) / 4
  if inRange a 0x1000E400 0x180 ∧ (k = 14 ∨ 44 ≤ k) then (if k = 14 then 0x1090 else 0)
  else if s.is R.CHK_CTL_VIEW then s.rawWord a
  else (fieldsAt a).foldl (fun w p => w + s.act p.1 p.2.1 * 2 ^ p.1.lsb) 0

def chkSetup (a : Nat) : Bool := a == 0x1000E00C || inRange a 0x1000E100 0x180 || inRange a 0x1000E400 0x180

/-- Requests in the Keep queue that satisfy a test. -/
def State.keepAny (s : State) (f : KeepReq → Bool) : Bool := s.keep.queue.any f || s.keep.late.any f

def KeepReq.ofRing (r : Nat) : KeepReq → Bool
  | .ringWrite k _ => k == r
  | .ringDefine k _ _ _ => k == r
  | .ringUndefine k => k == r
  | _ => false

def KeepReq.ofCounter (c : Nat) : KeepReq → Bool
  | .scInc k => k == c
  | .scSet k _ => k == c
  | _ => false

/-- `KEEP` registers that show the selected ring and counter (21). -/
def State.keepWord (s : State) (o w : Nat) : Nat :=
  let r := s.get R.KEEP_RING_SEL_R
  let c := s.get R.KEEP_SC_SEL_C
  let gen := ((s.scActive c).map fun x => x.2.2).getD 0
  if o = 0x004 then w + 256 * s.keepLen
  else if o = 0x114 then w + 2 * b2n (s.ring r).isSome + 4 * b2n (s.keepAny (KeepReq.ofRing r)) + 256 * s.keep.crcErr.getD r 0
  else if o = 0x188 then s.scValue c
  else if o = 0x18C then gen
  else if o = 0x190 then w + b2n (4000000 ≤ gen) + 2 * b2n (s.keepAny (KeepReq.ofCounter c))
  else w

/-- An entry as it is read out (22, R551). -/
def LogEntry.record (e : LogEntry) : List Byte :=
  leBytes 8 (e.time * 1000) ++ leBytes 2 e.code ++ leBytes 2 e.data ++
    [BitVec.ofNat 8 e.cls, BitVec.ofNat 8 (b2n e.pin + 2 * b2n e.origin + 4 * b2n e.copy + 8 * b2n e.ramOnly), BitVec.ofNat 8 e.kind, 0#8]

/-- The entries of K1 that are no marks, oldest first, each with the time of its mark; of one whose mark has been erased the time is open (22, R541,
R542, R551; log entry 188). -/
def State.logEntries (s : State) : List LogEntry :=
  (List.range 8192).foldl
    (fun (r : List LogEntry × Option Nat) i =>
      let slot := (s.headSlot + i) % 8192
      if !s.slotValid slot then r
      else
        let e := s.slotEntry slot (r.2.getD (Config.markless slot))
        if e.kind = 3 then (r.1, some e.time) else (r.1 ++ [e], r.2)) ([], none) |>.1

/-- Valid entries in K1 (`LOG.COUNT.N`). -/
def State.logCount (s : State) : Nat := ((List.range 8192).filter s.slotValid).length

def State.logWord (s : State) (o w : Nat) : Nat :=
  if o = 0x004 then w + 256 * s.log.queue.length + 65536 * s.log.bad.length
  else if o = 0x00C then s.logCount + 65536 * s.pinCount
  else if inRange o 0x028 16 then
    match (markHeld s.logPending s.log.ram)[s.get R.LOG_RBSEL_I]? with
    | some e => leAt e.record (o - 0x028) 4
    | none => 0
  else w

/-- Sessions open on a port. -/
def State.portSess (s : State) (p : Nat) : List (Nat × Sess) := s.sess.filter fun x => x.2.port == p

/-- A register that is marked for the other kind of port is reserved on this one (14). -/
def fpReserved (p o : Nat) : Bool := if p < 2 then o == 0x01C || o == 0x020 || o == 0x030 else o == 0x010 || o == 0x014 || o == 0x018

/-- The word that a register of the slots shows. -/
def State.regWord (s : State) (a : Nat) : Nat :=
  let w := s.rawWord a
  let o := a % 0x1000
  let ps := (a - 0x10000000) / 0x1000
  match ps with
  | 0 =>
    if inRange o 0x004 16 then (Config.uid ((o - 4) / 4)).toNat
    else if o = 0x024 then (if s.phase = .up then (s.time.real - s.pwr.upAt) / 1000000000 % 2 ^ 32 else 0) else w
  | 1 => if o = 0x018 then packBits s.domStat 32 else if o = 0x01C then packBits (fun i => s.domStat (i + 32)) 20 else w
  | 2 => if o = 0x004 then packBits s.clockRuns 32 else if o = 0x008 then packBits (fun i => s.clockRuns (i + 32)) 32 else w
  | 4 => if o = 0x100 then s.seq.abs % 2 ^ 32 else w
  | 5 => if o = 0x004 then s.now % 2 ^ 32 else w
  | 6 => if o = 0x004 then (s.time.subHeld).getD (s.get R.RTC_SUB_SS) else w
  | 7 =>
    if o < 0xC00 ∧ o % 64 = 4 then trgMask (s.is R.TSK_CFG_TRIG (o / 64)) w
    else if o < 0xC00 ∧ o % 64 = 0x10 then w + s.taskWord (o / 64)
    else if inRange o 0xC20 16 then s.runWord ((o - 0xC20) / 4)
    else if o = 0xC30 then packBits s.taskReady 32
    else if o = 0xC34 then packBits (fun i => s.taskReady (i + 32)) 16
    else w
  | 8 | 9 | 10 | 11 =>
    let e := ps - 8
    if o = 0x308 then s.mw (s.decActive e) else if o = 0x30C then s.mw (s.decStaging e) else w
  | 13 =>
    let x := s.get R.EVT_SEL_SRC
    let r := s.evRec x
    if o = 0x000 then w + s.evt.fifo.length
    else if o = 0x008 then s.topWord
    else if o = 0x010 then r.count % 256 + 256 * b2n r.lostrec
    else if o = 0x014 then r.first % 2 ^ 32
    else if o = 0x01C then r.last % 2 ^ 32
    else if o = 0x024 then r.pay % 65536 + 65536 * b2n r.inj
    else if inRange o 0x400 0x480 then
      let n := (o - 0x400) / 4
      if evReserved n then 0 else w + 256 * b2n (evLevel n) + 512 * b2n (evNmi n) + 1024 * b2n (evNotify n) + 2048 * b2n (n == 23)
    else w
  | 14 => if chkSetup a then s.chkWord a else if o = 0x004 then w + b2n s.chkPend else w
  | 15 => s.keepWord o w
  | 16 => s.logWord o w
  | 17 => if o = 0x020 then w % 256 + 256 * (s.dirtyBlocks % 65536) else w
  | 18 | 19 | 20 | 21 | 22 | 23 => if fpReserved (ps - 18) o then 0 else if o = 0x004 then w + 256 * (s.portSess (ps - 18)).length else w
  | 36 =>
    if o < 0x80 ∧ o % 16 = 12 then w - s.get R.AOUT_CH_OUT_C (o / 16) + s.aoCodeAt (o / 16) s.time.real else w
  | 35 => if inRange o 0x200 0x40 then s.fifoHead ((o - 0x200) / 4) else w
  | 39 =>
    if o = 0x004 then w + 4 * b2n s.monOpen
    else if 0x40 ≤ o ∧ o < 0x180 ∧ o % 0x40 = 0x34 then s.eeData (o / 0x40 - 1)
    else if 0x40 ≤ o ∧ o < 0x180 ∧ o % 0x40 = 0x38 then s.eeCore (o / 0x40 - 1)
    else w
  | 42 =>
    if o = 0x004 then
      (8 - s.crypto.sv.length) + 256 * (16 - s.crypto.cm.length) + 65536 * b2n (!s.crypto.sv.isEmpty || !s.crypto.cm.isEmpty)
    else if o = 0x018 then (Config.rngWord s.crypto.rng).toNat
    else w
  | _ => w

/-- What a read that is not quiet sets off (00, R7, R8): held and latched copies, FIFO words and random words taken. -/
def State.regSide (a : Nat) (s : State) : State :=
  let s := s.latchHi a
  if a = 0x10006000 then opRtcSecRead s
  else if a = 0x10006004 then { s with time := { s.time with subHeld := none } }
  else if a = 0x10022008 then s.put R.LIFE_D_HI_V (s.lifeD / 2 ^ 32)
  else if inRange a 0x10022010 0x30 ∧ a % 8 = 0 then s.put R.LIFE_DS_HI_V (s.brick.ds.getD ((a - 0x10022010) / 8) 0 / 2 ^ 32) ((a - 0x10022010) / 8)
  else if inRange a 0x10023200 0x40 then opSadcFifoPop ((a - 0x10023200) / 4) s
  else if a = 0x1002A018 then opCryptoRngRead s
  else s

/-- Slots whose registers sit on the field die (09, R219). -/
def fieldSlot (ps : Nat) : Bool := ps == 6 || ps == 15 || ps == 35 || ps == 36 || ps == 38 || ps == 43

/-- The record interface of Keep, which serves SV alone (21, R537). -/
def recRegs (a : Nat) : Bool := inRange a 0x1000F200 0x14 || inRange a 0x1000F800 0x800

/-- What stops an access to a register: 1 no response from a lost field die (24, R578), 2 refused by the target: a reserved slot (09, R214),
a domain that is off (24, R574), Keep and the log during recall (21, R532; 22), the record interface (21, R537). -/
def State.regStop (s : State) (r a : Nat) : Nat :=
  let ps := (a - 0x10000000) / 0x1000
  if 44 ≤ ps then 2
  else if fieldSlot ps && s.pwr.linkLost then 1
  else if ((regDomain a).map s.domGone).getD false then 2
  else if ps = 15 ∧ a % 0x1000 ≠ 4 ∧ s.is R.KEEP_STAT_RECALL then 2
  else if ps = 16 ∧ a % 0x1000 ≠ 4 ∧ s.is R.LOG_STAT_RECALL then 2
  else if recRegs a ∧ r ≠ 4 then 2
  else 0

/-- The same for a read: a read-locked K3 refuses reads of a counter (21, R528). -/
def State.readStop (s : State) (r a : Nat) : Nat :=
  let st := s.regStop r a
  if st = 0 ∧ (a = 0x1000F188 ∨ a = 0x1000F18C) ∧ bit (s.get R.KEEP_LOCKST_RD) 3 then 2 else st

/-- Bytes that stand in register slots outside the fields: `KEEP.REC_BUF` and `UPD.FBUF`. -/
def State.bufWord (s : State) (a : Nat) : Option Nat :=
  if inRange a 0x1000F800 0x800 then some (leNat ((List.range 4).map fun i => s.keep.recBuf.getD (a - 0x1000F800 + i) 0#8))
  else if inRange a 0x10028100 0x100 then some (leNat ((List.range 4).map fun i => s.upd.fbuf.getD (a - 0x10028100 + i) 0#8))
  else none

/-- The block reads that word of the peripheral buffer RAM, check bits with it (09, R221, R222). -/
def State.bufSide (a : Nat) (s : State) : State :=
  if inRange a 0x1000F800 0x800 then s.bufRead (bufRec + (a - 0x1000F800)) 4
  else if inRange a 0x10028100 0x100 then s.bufRead (bufFlash + (a - 0x10028100)) 4
  else s

/-- Read one register word: the state, the word and the status. -/
def State.regRead (quiet : Bool) (r a : Nat) (s : State) : State × Nat × Nat :=
  let st := s.readStop r a
  if st ≠ 0 then (s, 0, st)
  else
    let w := (s.bufWord a).getD (s.regWord a)
    (if quiet then s else (s.bufSide a).regSide a, w % 2 ^ 32, 0)

end Sys2Proof.Machine
end

