-- ==== Sys2Proof/Machine/RegWrite.lean ====
section
/-! DEFINITION. Machine/RegWrite.lean: a write of a register slot, as one 32-bit word whose byte lanes may be partly enabled: each field under
its access code (00, R4-R7), and what its block does at the write. -/

namespace Sys2Proof.Machine

/-! ## Fields in general (R5, R7) -/

/-- Fields that take only values of a range; any other value leaves the field as it is (R5). `DIO.WALK.DWELL` and `WAVE.CHk_CTL.TRIG` are not among
them: their home rules refuse the start while the field holds 0, or 0b11 (20, R504; 19, R486), and so the field is taken to hold such a value
(DEDUCED, log entry 158). -/
def fieldRanges : List (Fam × Nat × Nat) :=
  [(R.SYS_ECC_CTL_STEP, 1, 255), (R.PWR_CTL_PFTH, 0, 16), (R.TIME_CTL_STEPMODE, 0, 2), (R.TIME_CTL_CONFIRM, 1, 15),
   (R.TIME_LOSSTO_MS, 1100, 10000), (R.LE_PRG_BUD_US, 1, 1000), (R.EXC_CTL_BRMODE, 0, 2), (R.EXC_CTL_ARDELAY, 1, 255),
   (R.EXC_PEN_ILIM, 1, 255), (R.EXC_PEN_FSWDIV, 1, 7), (R.EXC_SVWDT_MS, 1, 65535), (R.EXC_CFG_WDT, 1, 1000), (R.LOG_CTL_MINCLS, 0, 4),
   (R.LOG_PINLIM_N, 1, 256), (R.RFL_SWEEP_BG, 0, 8), (R.RFL_SWEEP_PPT, 1, 63), (R.RFL_SWEEP_SYNCMAX, 1, 64), (R.RFL_SWLIM_LIMIT, 1, 65535),
   (R.RFL_SWLIM_RETRY, 1, 65535), (R.RFL_DISCCFG_PERSIST, 1, 255), (R.RFL_DISC_COUNT, 0, 4096)] ++
  [(R.FP_CFG_MAXSESS, 1, 8), (R.FP_NBT_BRP, 1, 32), (R.FP_NBT_TSEG1, 2, 255), (R.FP_NBT_TSEG2, 1, 127), (R.FP_NBT_SJW, 1, 127),
   (R.FP_DBT_BRP, 1, 31), (R.FP_DBT_TSEG1, 1, 31), (R.FP_DBT_TSEG2, 1, 15), (R.FP_DBT_SJW, 1, 15), (R.GD_CTL_UVLOSEL, 0, 2),
   (R.GD_ON0_IA, 0, 20), (R.GD_ON0_IB, 0, 20), (R.GD_ON0_IC, 1, 20), (R.GD_OFF0_IA, 0, 20), (R.GD_OFF0_IB, 0, 20), (R.GD_OFF0_IC, 1, 20),
   (R.GD_SOFT0_IA, 0, 20), (R.GD_SOFT0_IB, 0, 20), (R.GD_SOFT0_IC, 1, 20), (R.DLNK_ROLLDLT_DELTA, 1, 31), (R.LIFE_CTL_WBINT, 60, 3600)] ++
  [(R.WAVE_CH_CTL_EVSRC, 0, 287), (R.DIO_DB_US, 1, 65535), (R.LANT_ACC_CTL_SIZE, 0, 2),
   (R.LANT_E_WP_CFG_KIND, 1, 3), (R.LANT_E_WP_CFG_MASK, 0, 12), (R.UPD_HREC_SIZE, 1, 15), (R.DMA_CTL_BURST, 0, 8), (R.DMA_CTL_TRIGSRC, 0, 287),
   (R.CRYPTO_KEYSEL_SLOT, 0, 23)]

/-- A field takes a value (R5). -/
def fieldLegal (f : Fam) (x : Nat) : Bool :=
  (fieldRanges.all fun r => r.1 != f || (decide (r.2.1 ≤ x) && decide (x ≤ r.2.2))) &&
    (f != R.TIME_OFFSET_NS || (decide (-1000000 ≤ toSigned 32 x) && decide (toSigned 32 x ≤ 1000000))) &&
    (f != R.LANT_E_SEL_BANK || decide (x ≤ 12) || x == 15)

/-- Rights bits that a byte of `CHK.RGn_ACC` has (10, R251). -/
def rightsMask (f : Fam) : Nat :=
  if f = R.CHK_RG_ACC1_SV then 0x38
  else if [R.CHK_RG_ACC0_LE0, R.CHK_RG_ACC0_LE1, R.CHK_RG_ACC0_LE2, R.CHK_RG_ACC0_LE3, R.CHK_RG_ACC1_DMA, R.CHK_RG_ACC1_RFL, R.CHK_RG_ACC1_LAN].contains f
  then 0x1B else 2 ^ f.width - 1

/-- One field of a write: read/write fields take a legal value, write-1-to-clear fields are cleared by ones in all their bits (R7). -/
def State.fieldWrite (v : Nat) (p : Fam × Nat × Nat) (s : State) : State :=
  let f := p.1
  let x := bits v f.lsb f.width
  match f.acc with
  | .rw => if fieldLegal f x then s.put f (x &&& rightsMask f) p.2.1 p.2.2 else s
  | .w1c => if x = 2 ^ f.width - 1 then s.put f 0 p.2.1 p.2.2 else s
  | _ => s

/-- Every field of the register, but those of `skip`. -/
def State.fieldsWrite (a v : Nat) (skip : List Fam) (s : State) : State :=
  ((fieldsAt a).filter fun p => !skip.contains p.1).foldl (fun s p => s.fieldWrite v p) s

/-- The read/write fields of a register as they stand: lanes that a narrow write leaves out keep them (log entry 40). -/
def State.rwWord (s : State) (a : Nat) : Nat :=
  (fieldsAt a).foldl (fun w p => if p.1.acc = .rw then w + s.get p.1 p.2.1 p.2.2 * 2 ^ p.1.lsb else w) 0

/-! ## Blocks -/

/-- A write that waits for an access of its own: the access engine of Lantern, or the first descriptor of a DMA chain. -/
inductive BusHook where
  | accGo
  | dmaGo (a : Nat)
  deriving DecidableEq, Repr

def State.ifBit (v b : Nat) (f : State → State) (s : State) : State := if bit v b then f s else s

/-- Each changed bit of `PWR.DOMOFF` (24, R574). -/
def State.domWrite (lo v : Nat) (s : State) : State :=
  State.forAll ((List.range (if lo = 0 then 32 else 20)).filter fun i => bit v i != s.domOff (lo + i)) (fun i s => opDomainSwitch (lo + i) (bit v i) s) s

/-- PS0-PS3: SYS, PWR, CLK, RST (09, 24). -/
def State.sysWrite (ps o a v : Nat) (s : State) : State :=
  match ps, o with
  | 0, 0x41C => opEccInject (bits v 0 8) (bits v 8 2) s
  | 0, 0x018 => opModeRequest (bits v 0 2) s
  | 0, 0x01C => (s.fieldsWrite a v []).ifBit v 8 opBootcfgStore
  | 1, 0x010 => s.domWrite 0 v
  | 1, 0x014 => s.domWrite 32 v
  | 3, 0x004 => opRstCmd (bits v 0 8) s
  | 3, 0x008 => opRstEng (bits v 0 4) s
  | _, _ => s.fieldsWrite a v []

/-- PS4-PS6: TURN, TIME, RTC (02, 09). -/
def State.timeWrite (r ps o a v : Nat) (s : State) : State :=
  match ps, o with
  | 4, 0x000 => (s.turnEn (bit v 0)).chop
  | 4, 0x004 => opTurnPeriodWrite (bits v 0 24) s
  | 4, 0x008 => opTurnPhaseWrite (bits v 0 24) s
  | 5, 0x000 =>
    let change := s.is R.TIME_CTL_DISC != bit v 0
    let s := s.fieldsWrite a v []
    if change then s.discChange (bit v 0) else s
  | 5, 0x014 => s.ifBit v 0 opTimeSetcmdGo
  | 6, 0x00C => (s.fieldsWrite a v []).ifBit v 0 opRtcSetgo
  | 6, 0x01C =>
    let s := s.fieldsWrite a v []
    if bit v 0 then opCountdownEnable s else s
  | 6, 0x020 => (s.fieldsWrite a v []).ifBit v 0 opGlintRequest
  | 6, 0x21C => s.ifBit v 0 (opLastWordCopy (r == 7))
  | _, _ => s.fieldsWrite a v []

/-- PS7: TSK (06, R146, R163, R170); on a Lead in Run its writes are control writes (12, R305). -/
def State.shedWrite (e v : Nat) (s : State) : State :=
  let s := ((s.put R.TSK_SHED_WATCH (bits v 0 6) e).put R.TSK_SHED_K (bits v 8 8) e).put R.TSK_SHED_RECOV (bits v 16 8) e
  if bit v 25 then opTskShedClear e s else s

def State.tskWrite (o a v : Nat) (s : State) : State :=
  if o < 0xC00 then (if o % 64 / 4 < 10 then opTskDescriptorWrite (o / 64) (o % 64 / 4) v s else s)
  else if inRange o 0xC10 16 then s.control a v (State.shedWrite ((o - 0xC10) / 4) v)
  else if o = 0xC40 then s.ifBit v 0 opTskClrstat
  else s.fieldsWrite a v []

/-- PS8-PS11: program and decode registers of an engine (05, 11); several commands of one write act in bit order. -/
def State.leWrite (e o a v : Nat) (s : State) : State :=
  if o = 0x200 then (((s.ifBit v 0 (opPrgCheck e)).ifBit v 1 (opPrgSched e)).ifBit v 2 (opPrgCancel e)).ifBit v 3 (opPrgSwitchnow e)
  else if o = 0x208 then (if v % 8 = 0 then s.put R.LE_PRG_REC_OFS v e else s).inactiveWritten e
  else if o = 0x300 then (((s.ifBit v 0 (opDecCheck e)).ifBit v 1 (opDecActivate e)).ifBit v 2 (opDecArm e)).ifBit v 3 (opDecDisarm e)
  else s.fieldsWrite a v []

/-- PS12: EXC (07). A write of the lane of MIR01 and MIR23 is a write of both (DEDUCED, log entry 197). -/
def State.excWrite (o a v m : Nat) (s : State) : State :=
  if o = 0x000 then
    let s := s.fieldsWrite a v [R.EXC_CTL_MIR01, R.EXC_CTL_MIR23]
    if bits m 0 8 = 0 then s else opMirrorWrite (bit v 2) (bit v 3) s
  else if o = 0x008 then
    let k := bits v 0 3
    (((s.ifBit v 8 (opExcCmdEnter k)).ifBit v 9 (opExcCmdRelease k)).ifBit v 10 (opExcCmdPenenter k)).ifBit v 11 (opExcCmdPenleave k)
  else if o = 0x00C then (s.fieldsWrite a v []).ocThresholds
  else if o = 0x010 then
    let s := s.fieldsWrite a v []
    if bits m 16 8 = 0 then s else opSvWatchdogKick (bits v 16 8) s
  else s.fieldsWrite a v []

/-- PS13: EVT (08). -/
def State.evtWrite (o a v : Nat) (s : State) : State :=
  if o = 0x028 then opEvtInject (bits v 0 9) (bits v 16 16) s
  else if inRange o 0x100 0x24 then opEvtPendClear ((o - 0x100) / 4) v s
  else if inRange o 0x140 0x24 then opEvtEnaWrite ((o - 0x140) / 4) v s
  else if inRange o 0x1C0 0x24 then s.put R.EVT_LOGE_E (evListed ((o - 0x1C0) / 4) v) ((o - 0x1C0) / 4)
  else if inRange o 0x400 0x480 ∧ evReserved ((o - 0x400) / 4) then s
  else s.fieldsWrite a v []

/-- PS14: CHK (10, R259-R263). -/
def State.chkWrite (o a v : Nat) (s : State) : State :=
  if o = 0x008 then (s.ifBit v 0 opChkCommit).ifBit v 1 opChkDiscard
  else if o = 0x438 ∨ inRange o 0x4B0 0xD0 then s
  else s.fieldsWrite a v []

/-- PS15: KEEP (21). -/
def State.keepWrite (o a v : Nat) (s : State) : State :=
  let r := s.get R.KEEP_RING_SEL_R
  let val := s.get64 R.KEEP_RING_VAL_LO_V R.KEEP_RING_VAL_HI_V
  let c := s.get R.KEEP_SC_SEL_C
  let k5 := s.is R.KEEP_REC_CTL_PART
  let hdr := s.get R.KEEP_REC_KEY_K
  if o = 0x000 then s.keepCtl v
  else if o = 0x010 then
    let k := bits v 0 3
    let pw := s.get64 R.KEEP_PW_LO_P R.KEEP_PW_HI_P
    (s.ifBit v 8 (opKeepUnlock k (bit v 3) pw)).ifBit v 9 (opKeepRelock k)
  else if o = 0x014 then s.put R.KEEP_PW_LO_P v
  else if o = 0x018 then s.put R.KEEP_PW_HI_P v
  else if inRange o 0x040 0x80 then s.retainWrite ((o - 0x40) / 8) (o % 8 == 4) v
  else if o = 0x110 then
    (match bits v 0 3 with
    | 1 => opRingRead r s
    | 2 => opRingWrite r val s
    | 3 => opRingDefine r (s.get R.KEEP_RING_CFG_ROW) (s.get R.KEEP_RING_CFG_SLOTS) val s
    | 4 => opRingUndefine r s
    | _ => s).keepSettle
  else if o = 0x184 then
    (match bits v 0 2 with
    | 1 => opScInc c s
    | 2 => opScSet c (s.get R.KEEP_SC_VAL_V) s
    | _ => s).keepSettle
  else if o = 0x20C then
    (match bits v 0 2 with
    | 1 => opRecStore k5 hdr (s.recData (s.get R.KEEP_REC_LEN_L)) (s.bufRead bufRec (s.get R.KEEP_REC_LEN_L))
    | 2 => opRecFind k5 hdr s
    | 3 => opRecDrop k5 hdr s
    | _ => s).keepSettle
  else if 0x800 ≤ o then
    s.putRecBuf (o - 0x800) (leBytes 4 v)
  else s.fieldsWrite a v []

/-- Bad pages of the log that pass their test: nobody chose which (22, R548). -/
def State.goodPages (s : State) : List Nat × State :=
  s.log.bad.foldl (fun r p => let f := r.2.free; (if f.1 % 2 = 1 then r.1 ++ [p] else r.1, f.2)) ([], s)

/-- PS16: LOG (22). -/
def State.logWrite1 (o a v : Nat) (s : State) : State :=
  if o = 0x000 then
    let s := (s.fieldsWrite a v []).ifBit v 8 opLogUnpin
    if bit v 9 then (let g := s.goodPages; opLogClrbad g.1 g.2) else s
  else if o = 0x018 then (s.put R.LOG_APPEND0_CODE v).put R.LOG_APPEND0_DATA (bits v 16 16)
  else if o = 0x01C then
    if bit v 8 then opLogAppend (s.get R.LOG_APPEND0_CODE) (s.get R.LOG_APPEND0_DATA) (bits v 0 3) (bit v 3) s else s
  else s.fieldsWrite a v []

/-- PS17: RFL (12). -/
def State.rflWrite (o a v : Nat) (s : State) : State :=
  if o = 0x000 then opRflCfgWrite v s
  else if o = 0x008 then
    ((((s.ifBit v 0 opRflRejoin).ifBit v 1 opRflStop).ifBit v 2 opRflSwap).ifBit v 3 opRflCancel).ifBit v 4 opRflRepair
  else s.fieldsWrite a v []

/-- A write to a configuration field that may be written only while EN is 0 (R353). -/
def State.fpField (f : Fam) (p x : Nat) (s : State) : State :=
  if s.is R.FP_CFG_EN p then s.put R.FP_STAT_CFGERR 1 p else if fieldLegal f x then s.put f x p else s

/-- PS18-PS23: field ports (14, R353, R376). A write of `FPp.CFG`, which EN and ICMPEN share, writes those of its other fields that it changes
(DEDUCED, log entry 179). -/
def State.fpWrite (p o a v : Nat) (s : State) : State :=
  let cfg := fun (want : Fam → Nat → Bool) (s : State) =>
    ((fieldsAt a).filter fun q => q.1.acc == .rw && want q.1 (bits v q.1.lsb q.1.width)).foldl (fun s q => s.fpField q.1 p (bits v q.1.lsb q.1.width)) s
  if fpReserved p o then s
  else if o = 0x000 then
    let s := (cfg (fun f x => !([R.FP_CFG_EN, R.FP_CFG_ICMPEN].contains f) && x != s.get f p) s).put R.FP_CFG_ICMPEN (bits v 1 1) p
    if bit v 0 == s.is R.FP_CFG_EN p then s else opFpEnWrite p (bit v 0) s
  else if o = 0x004 ∨ o = 0x024 then s.fieldsWrite a v []
  else if inRange o 0x040 0x20 then s.rmapWrite p ((o - 0x40) / 8) ((if o % 8 = 0 then rmapA else rmapB) p ((o - 0x40) / 8) v)
  else cfg (fun _ _ => true) s

/-- PS24-PS31: drive dies (15, R399, R403); the VEEG condition is good where VEEGCHK is 0 (R390). -/
def State.gdWrite (n o a v : Nat) (s : State) : State :=
  if o = 0x000 then
    let s := (s.fieldsWrite a v [R.GD_CTL_EN]).loadPend n
    let s := if s.is R.GD_CTL_VEEGCHK n || s.is R.GD_STAT_VEEGOK n then s else opUvloExit n false s
    let s := if bit v 0 == s.is R.GD_CTL_EN n then s else opGdrvEnWrite n (bit v 0) s
    (s.ifBit v 8 (opGdrvLoad n)).ifBit v 9 (opGdrvFclr n)
  else if inRange o 0x008 0x1C then (s.fieldsWrite a v []).loadPend n
  else s.fieldsWrite a v []

/-- PS32: GDRV common and PWM (15, R405-R412). -/
def State.pwmWrite (o a v : Nat) (s : State) : State :=
  if o = 0x000 then opSvbenWrite (bit v 1) s
  else if o = 0x004 then opGdrvCpWrite v s
  else if o = 0x008 then opGdrvDtWrite v s
  else if inRange o 0x010 16 then opGdrvDutyWrite ((o - 0x10) / 4) v s
  else if inRange o 0x020 20 then opGdrvBindWrite ((o - 0x20) / 4) v s
  else if o = 0x034 then s.auxMode (bit v 0)
  else s.fieldsWrite a v []

/-- PS33: DLNK (16); a source that a domain switched off would need is refused (24, R574). -/
def State.dlnkWrite (o a v : Nat) (s : State) : State :=
  if o = 0x000 then (s.fieldsWrite a v (if bit v 2 && s.domOff 40 then [R.DLNK_CTL_ONSRC] else [])).chop
  else if o = 0x020 then s.chDuty v
  else if o = 0x024 then opDlnkChbindWrite v s
  else if o = 0x03C then s.setTheta v
  else if o = 0x044 then (if bit v 8 then opRollRequest (bits v 0 5) s else s)
  else s.fieldsWrite a v []

/-- PS35: SADC (18). -/
def State.sadcWrite (o a v : Nat) (s : State) : State :=
  if o = 0x000 then opSadcImgWrite v s
  else if o = 0x00C then (opOcLatchClear (bits v 0 3) s).fieldsWrite a v [R.SADC_OCSTAT_LATCH]
  else if inRange o 0x010 12 then (if bit v 15 && s.domOff 35 then s else s.ocWrite ((o - 0x10) / 4) v)
  else if inRange o 0x040 0x100 ∧ o % 16 < 12 then opSadcCfgWrite ((o - 0x40) / 16) (o % 16 / 4) v s
  else s.fieldsWrite a v []

/-- PS36 and PS37: AOUT and WAVE (19). -/
def State.aoWrite (o a v : Nat) (s : State) : State :=
  if o < 0x80 then
    match o % 16 with
    | 0 => opAoutSrcWrite (o / 16) v s
    | 4 => opAoutCodeWrite (o / 16) v s
    | 8 => s.aoFb (o / 16) v
    | _ => s.fieldsWrite a v []
  else s.fieldsWrite a v []

def State.waveWrite (o a v : Nat) (s : State) : State :=
  let s := s.fieldsWrite a v []
  if o < 0x100 ∧ o % 32 = 12 then (s.ifBit v 4 (opWaveArm (o / 32))).ifBit v 5 (opWaveStop (o / 32)) else s

/-- PS38: DIO (20); which outputs are too hot for a clear or a walk is nobody's choice. -/
def State.dioWrite (o a v : Nat) (s : State) : State :=
  let hot := fun (f : Nat → State → State) (s : State) => let q := s.free; f (q.1 % 65536) q.2
  if o = 0x000 then (s.dioCtl v).ifBit v 0 (hot opDioClr)
  else if o = 0x010 then opDiTypeWrite v s
  else if o = 0x014 then s.diWben v
  else if o = 0x020 then opDioIbindWrite v s
  else if o = 0x024 then opDoSvWrite v s
  else if o = 0x028 then s.doFb v
  else if o = 0x030 then ((s.fieldsWrite a v []).ifBit v 0 (hot opWalkGo)).ifBit v 1 opWalkAbort
  else if inRange o 0x200 0x40 then opDoSourceWrite ((o - 0x200) / 4) v s
  else s.fieldsWrite a v []

/-- PS39: LANT (25): while a debugger is attached, SV may not change its set-up (R593). -/
def lantOwned (o : Nat) : Bool :=
  o == 0x000 || o == 0x008 || o == 0x010 || (0x40 ≤ o && o < 0x180 && 8 ≤ o % 0x40 && o % 0x40 < 0x30)

def State.lantWrite (hook : BusHook → State → State) (r o a v : Nat) (s : State) : State :=
  if r = 4 ∧ s.is R.LANT_STAT_ATT ∧ lantOwned o then s.put R.LANT_STAT_OWNREF 1
  else if o = 0x000 then
    let s := s.lantCtl v
    if bit v 24 then { s with lan := { s.lan with rst := some (if r = 7 then 7 else 8, s.now) } } else s
  else if o = 0x008 then s.haltReq v
  else if o = 0x01C then (s.fieldsWrite a v []).ifBit v 8 (hook .accGo)
  else if 0x40 ≤ o ∧ o < 0x180 ∧ o % 0x40 = 0x34 then opEeDataWrite (o / 0x40 - 1) v s
  else s.fieldsWrite a v []

/-- PS40: UPD (26, R625, R634). -/
def State.updWrite (o a v : Nat) (s : State) : State :=
  if o = 0x000 then
    let s := s.fieldsWrite a v []
    { s with upd := { s.upd with at_ := if bit v 0 then some (s.get64 R.UPD_AT_LO_A R.UPD_AT_HI_A) else none } }
  else if o = 0x00C then
    let op := bits v 0 3
    s.flashStart op (s.get R.UPD_FADDR_A) (if op = 4 then s.get R.UPD_CRC_LEN_N else bits v 8 8 + 1)
  else if inRange o 0x100 0x100 then s.putFbuf (o - 0x100) (leBytes 4 v)
  else s.fieldsWrite a v []

/-! PS41: DMA (09, R238, R239). -/

def State.dma (s : State) (a : Nat) : DmaSt := s.m.dma.getD a DmaSt.reset
def State.upDma (s : State) (a : Nat) (f : DmaSt → DmaSt) : State := { s with m := { s.m with dma := Store.put a (f (s.dma a)) s.m.dma } }

/-- The chain ends: no access in flight. -/
def State.dmaEnd (a : Nat) (s : State) : State :=
  (((s.upDma a fun _ => DmaSt.reset).put R.DMA_STAT_BUSY 0 a).put R.DMA_STAT_WAITTRIG 0 a).put R.DMA_STAT_IDLE 1 a


/-- DMA_STOP (R239): the access in flight finishes; a descriptor that waits for its trigger has none. -/
def opDmaStop (a : Nat) (s : State) : State :=
  if !s.is R.DMA_STAT_BUSY a then s else if s.is R.DMA_STAT_WAITTRIG a then s.dmaEnd a else s.upDma a fun d => { d with stopReq := true }

def State.dmaWrite (hook : BusHook → State → State) (n o a v : Nat) (s : State) : State :=
  if o % 0x20 = 0 then
    let s := s.fieldsWrite a v []
    let s := if bit v 2 || !bit v 0 then opDmaStop n s else s
    if bit v 1 then hook (.dmaGo n) s else s
  else s.fieldsWrite a v []

/-- PS42 and PS43: CRYPTO (14, R384-R387) and BRICK (17). -/
def State.cryptoWrite (o a v : Nat) (s : State) : State :=
  if o = 0x000 then opCryptoSubmit v s
  else if o = 0x010 then opCryptoKeydata v s
  else if o = 0x014 then opCryptoKeyclr v s
  else s.fieldsWrite a v []

def State.brickWrite (o a v : Nat) (s : State) : State :=
  if o = 0x008 then (s.ifBit v 0 opBrickRead).ifBit v 1 opBrickWb else s.fieldsWrite a v []

/-! ## The whole of the slots -/

/-- What stops a write beside what stops every access: a log append by another than SV (22, R550), the checker's block for Lantern unless SV is
halted (25, R606), locked rings and counters (21, R528). -/
def State.writeStop (s : State) (r a v : Nat) : Nat :=
  let st := s.regStop r a
  if st ≠ 0 then st
  else if (a = 0x10010018 ∨ a = 0x1001001C ∨ a = 0x1002A000) ∧ r ≠ 4 then 2
  else if r = 7 ∧ inRange a 0x1000E000 0x1000 ∧ !s.halted 4 then 2
  else if a = 0x1000F110 ∧ bits v 0 3 = 1 ∧ bit (s.get R.KEEP_LOCKST_RD) 2 then 2
  else if a = 0x1000F110 ∧ 2 ≤ bits v 0 3 ∧ bits v 0 3 ≤ 4 ∧ bit (s.get R.KEEP_LOCKST_WR) 2 then 2
  else if a = 0x1000F184 ∧ bits v 0 2 ≠ 0 ∧ bits v 0 2 ≠ 3 ∧ bit (s.get R.KEEP_LOCKST_WR) 3 then 2
  else 0

/-- The block that holds the register acts on the word. -/
def State.blockWrite (hook : BusHook → State → State) (r a v m : Nat) (s : State) : State :=
  let o := a % 0x1000
  let ps := (a - 0x10000000) / 0x1000
  if ps ≤ 3 then s.sysWrite ps o a v
  else if ps ≤ 6 then s.timeWrite r ps o a v
  else if ps = 7 then s.tskWrite o a v
  else if ps ≤ 11 then s.leWrite (ps - 8) o a v
  else if ps = 12 then s.excWrite o a v m
  else if ps = 13 then s.evtWrite o a v
  else if ps = 14 then s.chkWrite o a v
  else if ps = 15 then s.keepWrite o a v
  else if ps = 16 then s.logWrite1 o a v
  else if ps = 17 then s.rflWrite o a v
  else if ps ≤ 23 then s.fpWrite (ps - 18) o a v
  else if ps ≤ 31 then s.gdWrite (ps - 24) o a v
  else if ps = 32 then s.pwmWrite o a v
  else if ps = 33 then s.dlnkWrite o a v
  else if ps = 35 then s.sadcWrite o a v
  else if ps = 36 then s.aoWrite o a v
  else if ps = 37 then s.waveWrite o a v
  else if ps = 38 then s.dioWrite o a v
  else if ps = 39 then s.lantWrite hook r o a v
  else if ps = 40 then s.updWrite o a v
  else if ps = 41 then (if o < 0x80 then s.dmaWrite hook (o / 0x20) o a v else s)
  else if ps = 42 then s.cryptoWrite o a v
  else if ps = 43 then s.brickWrite o a v
  else s.fieldsWrite a v []

/-- The word that a write of some lanes makes: the other lanes keep their read/write fields. -/
def State.mergeWord (s : State) (a v m : Nat) : Nat := (v &&& m) + (((s.bufWord a).getD (s.rwWord a)) &&& (0xFFFFFFFF - m))

/-- Addresses whose writes a Lead in Run holds back as control writes: the task descriptors, the shedding words and `EXC.CMD` (12, R305). -/
def ctrlAddr (a : Nat) : Bool :=
  (inRange a 0x10007000 0xC00 && decide (a % 64 / 4 < 10)) || inRange a 0x10007C10 16 || a == 0x1000C008

/-- A control write finds the deferred-write buffer full (12, R305; 23, R553). -/
def State.ctrlFull (s : State) (a : Nat) : Bool :=
  s.lead && s.inRun && ctrlAddr a && !(s.defer { addr := a, kind := 1, data := leBytes 4 0 }).2

/-- Write the lanes `m` of the register word at `a`: the state and the status. A control write that finds no room is refused and sets `DWFULL` (12,
R305). -/
def State.regWrite (hook : BusHook → State → State) (r a v m : Nat) (s : State) : State × Nat :=
  let v := s.mergeWord a v m
  let st := s.writeStop r a v
  if st ≠ 0 then (s, st)
  else if s.ctrlFull a then (s.put R.RFL_STAT_DWFULL 1, 2)
  else (s.blockWrite hook r a v m, 0)

end Sys2Proof.Machine
end

