-- ==== Sys2Proof/Machine/Bus.lean ====
section
/-! DEFINITION. Machine/Bus.lean: an access of any requester to any address: the checker's verdict (10), the target it reaches (09, R213-R219),
the DMA agents (09, R236-R240), the access engine of Lantern (25, R601-R606) and the end of a far access (04, R112).
Status of an access: 0 success, 1 no response, 2 refused by the target, 3 uncorrectable ECC, 4 refused by the checker, 5 not readable quietly. -/

namespace Sys2Proof.Machine

/-! ## Reads -/

/-- Low words of register pairs: reading one quietly puts its high word into Lantern's own copy (25, R603). -/
def quietPair (a : Nat) : Bool :=
  a == 0x10005004 || a == 0x10004100 || a == 0x1000D014 || a == 0x1000D01C || a == 0x10022008 || (inRange a 0x10022010 0x30 && a % 8 == 0)

/-- Registers that cannot be read quietly (25, R604). -/
def noQuiet (a : Nat) : Bool := a == 0x10006000 || a == 0x10006024 || a == 0x10006038 || a == 0x1002A018

/-- The high word of a pair is held for the read of it that follows. -/
def State.holdHi (a v : Nat) (s : State) : State := { s with lan := { s.lan with hi := Store.put a v s.lan.hi } }

/-- The held word has been read. -/
def State.dropHi (a : Nat) (s : State) : State := { s with lan := { s.lan with hi := Store.del a s.lan.hi } }

/-- Lantern's read of a register, without the effects of a read (25, R603, R604). -/
def State.quietRead (a : Nat) (s : State) : State × Nat × Nat :=
  if noQuiet a then (s, 0, 5)
  else
    let r := s.regRead true 7 a
    if r.2.2 ≠ 0 then r
    else if quietPair a then (s.holdHi (a + 4) ((s.regSide a).rawWord (a + 4)), r.2.1, 0)
    else
      match Store.find a s.lan.hi with
      | some v => (s.dropHi a, v, 0)
      | none => r

/-- Register words that an access touches: address of the word. -/
def slotWords (a n : Nat) : List Nat := (List.range ((a % 4 + n + 3) / 4)).map fun i => a - a % 4 + 4 * i

/-- Read bytes of register slots; the status is that of the first word, what runs on past a stop reads 0 (10, R244, R245). -/
def State.slotRead (quiet : Bool) (r a n : Nat) (s : State) : State × List Byte × Nat :=
  let q := (slotWords a n).foldl
    (fun (t : State × List Byte × Option Nat) x =>
      let w := if !inRange x 0x10000000 0x60000 then (t.1, 0, 2) else if quiet then t.1.quietRead x else t.1.regRead false r x
      (w.1, t.2.1 ++ leBytes 4 w.2.1, if t.2.2.isNone then some w.2.2 else t.2.2)) (s, [], none)
  let st := q.2.2.getD 0
  (q.1, if st = 0 then slice q.2.1 (a % 4) n else List.replicate n 0#8, st)

/-- Bytes from `a` that lie in an SRAM array without a break. -/
def mappedLen (a n : Nat) : Nat := ((List.range n).takeWhile fun i => (arrayOf (a + i)).isSome).length

/-- Lantern sees the working copy of what a task on a halted engine owns (25, R606). -/
def State.haltedOwner (s : State) (a : Nat) : Bool :=
  let o := a - 0x03000000
  let t := if inRange o 0x0800 0x0800 then s.ownerQ (o - 0x0800) else if inRange o 0x9000 0x4000 then s.ownerW ((o - 0x9000) / 4) else none
  match t with
  | some n => s.halted (s.tEng n)
  | none => false

def outputArea (a : Nat) : Bool := inRange a 0x03000800 0x800 || inRange a 0x03009000 0x4000

/-- Read bytes where they stand, the access having been permitted. -/
def State.targetRead (quiet : Bool) (r a n : Nat) (s : State) : State × List Byte × Nat :=
  let zeros := List.replicate n 0#8
  if inRange a 0x10000000 0x60000 then s.slotRead quiet r a n
  else if inRange a 0x20000000 0x40000 then
    let q := s.windowRead a n
    (s, q.1, q.2)
  else if inRange a 0x30000000 0x10000000 then
    let o := a - 0x30000000
    let busy := match s.upd.op with | some (op, _, _) => op != 4 | none => false
    if s.flashSize ≤ o then (s, zeros, 2)
    else if quiet && busy then (s, zeros, 5)
    else (s, s.norBytes o (min n (s.flashSize - o)) ++ List.replicate (n - (s.flashSize - o)) 0#8, 0)
  else if inRange a 0 0x10000 then (s, (List.range n).map fun i => if a + i < 0x10000 then Config.romByte (a + i) else 0#8, 0)
  else
    let k := mappedLen a n
    if k = 0 then (s, zeros, 2)
    else if r = 7 && outputArea a && s.haltedOwner a then
      let q := s.eccRead r 2 a k
      (q.1, if q.2.isSome then zeros else s.copyBytes 2 a k ++ List.replicate (n - k) 0#8, if q.2.isSome then 3 else 0)
    else
      let q := s.memRead r a k
      (q.1, q.2.1 ++ List.replicate (n - k) 0#8, q.2.2)

/-- A read as the bus makes it: judged on its first byte (10, R244, R256). -/
def State.busRead (loud : Bool) (r a n : Nat) (s : State) : State × List Byte × Nat :=
  let c := s.check r 0 a n
  if !c.2 then (c.1, List.replicate n 0#8, 4) else c.1.targetRead (r == 7 && !loud) r a n

/-! ## Writes -/

/-- Value and enabled lanes that bytes at `a` give the register word at `x`. -/
def laneWord (a : Nat) (l : List Byte) (x : Nat) : Nat × Nat :=
  (List.range 4).foldl
    (fun p i => if a ≤ x + i ∧ x + i < a + l.length then (p.1 + (l.getD (x + i - a) 0#8).toNat * 256 ^ i, p.2 + 255 * 256 ^ i) else p) (0, 0)

def State.slotWrite (hook : BusHook → State → State) (r a : Nat) (l : List Byte) (s : State) : State × Nat :=
  let q := (slotWords a l.length).foldl
    (fun (t : State × Option Nat) x =>
      let w := laneWord a l x
      let u := if inRange x 0x10000000 0x60000 then t.1.regWrite hook r x w.1 w.2 else (t.1, 2)
      (u.1, if t.2.isNone then some u.2 else t.2)) (s, none)
  (q.1, q.2.getD 0)

/-- Write bytes where they stand, the access having been permitted (a Lead's output words too are deferred, 12, R305); what runs on past mapped or writable bytes is discarded. -/
def State.targetWrite (hook : BusHook → State → State) (r a : Nat) (l : List Byte) (s : State) : State × Nat :=
  if inRange a 0x10000000 0x60000 then s.slotWrite hook r a l
  else if inRange a 0x20000000 0x40000 then s.windowWrite a l
  else if r = 7 && outputArea a then
    if !s.haltedOwner a || s.following then (s, 2)
    else if s.lead then
      let q := s.defer { addr := a, kind := 0, data := l, req := r }
      (q.1, if q.2 then 0 else 2)
    else
      let q := s.eccWrite r 2 a l
      (q.1, if q.2.isSome then 3 else 0)
  else
    s.memWrite r a l

/-- A write as the bus makes it. Lantern's writes to the checker's own block are not judged by its slot (25, R606). -/
def State.busWriteWith (hook : BusHook → State → State) (r a : Nat) (l : List Byte) (s : State) : State × Nat :=
  if r = 7 && inRange a 0x1000E000 0x1000 then s.targetWrite hook r a l
  else
    let c := s.check r 1 a l.length
    if !c.2 then (c.1, 4) else c.1.targetWrite hook r a l

/-! ## DMA agents (09, R236-R240) -/

/-- The chain ends in error (R239, R240). -/
def State.dmaErr (a code addr : Nat) (s : State) : State :=
  let s := ((s.put R.DMA_STAT_ERR code a).put R.DMA_ERRADDR_A addr a).bump R.DMA_CNT_ERRS a
  (s.dmaEnd a).raise (280 + s.get R.DMA_CTL_ERRK a) (5 + 16 * a + 256)

/-- The verdict on an access of a burst: under the set-up it was issued under, if a commit has come since (10, R261). -/
def State.dmaCheck (a kind addr len : Nat) (s : State) : State × Bool :=
  match (s.dma a).rules with
  | none => s.check 5 kind addr len
  | some c =>
    let t : State := { s with m := { s.m with chk := c } }
    let v := t.judge 5 (t.reqPriv 5) kind addr
    if v.ok then (s, true) else (s.violation 5 (t.reqPriv 5) kind addr len v, false)

/-- Error code of an access status (R239). -/
def dmaCode (st : Nat) : Nat := if st = 4 then 1 else if st = 3 then 3 else 2

/-- A descriptor is invalid (R237). -/
def descBad (src dst ctl next : Nat) : Bool :=
  let n := bits ctl 0 24
  n == 0 || (bit ctl 24 && (n % 4 != 0 || src % 4 != 0)) || (bit ctl 25 && (n % 4 != 0 || dst % 4 != 0)) || (!bit ctl 26 && next % 16 != 0)

/-- Read the descriptor at an address and make it current (R237, R238). -/
def State.dmaFetch (a addr : Nat) (s : State) : State :=
  let s := s.put R.DMA_CUR_A addr a
  let r := s.busRead true 5 addr 16
  if r.2.2 ≠ 0 then r.1.dmaErr a (dmaCode r.2.2) addr
  else
    let w := fun i => leAt r.2.1 (4 * i) 4
    if descBad (w 0) (w 1) (w 2) (w 3) then r.1.dmaErr a 4 addr
    else (r.1.upDma a fun _ => { DmaSt.reset with desc := some (w 0, w 1, w 2, w 3) }).put R.DMA_STAT_WAITTRIG (bits (w 2) 31 1) a

/-- DMA_START (R238): with EN at 1 and the agent idle. -/
def opDmaStart (a : Nat) (s : State) : State :=
  if !s.is R.DMA_CTL_EN a || !s.is R.DMA_STAT_IDLE a then s
  else ((s.put R.DMA_STAT_IDLE 0 a).put R.DMA_STAT_BUSY 1 a).dmaFetch a (s.get R.DMA_DESC_A a * 16)

/-- DMA_DISABLE (R239). -/
def opDmaDisable (a : Nat) (s : State) : State := opDmaStop a (s.put R.DMA_CTL_EN 0 a)

/-- The first uncorrectable word of a read, and of the partly written words of a write. -/
def State.badWord (s : State) (a n : Nat) : Option Nat :=
  match arrayOf a with
  | none => none
  | some (_, w) => (wordsOf w a n).find? fun x => s.m.ecc.getD x 0 == 2

def State.badPart (s : State) (a n : Nat) : Option Nat :=
  match arrayOf a with
  | none => none
  | some (_, w) => (wordsOf w a n).find? fun x => s.m.ecc.getD x 0 == 2 && !(decide (a ≤ x) && decide (x + w ≤ a + n))

/-- The write of a burst: no byte at or after a word that cannot be merged (R222, R223, R239). -/
def State.dmaPut (hook : BusHook → State → State) (a da : Nat) (l : List Byte) (s : State) : State × Nat :=
  let c := s.dmaCheck a 1 da l.length
  if !c.2 then (c.1, 4)
  else
    match (if sweptBy 5 da && (s.lead || s.following) then none else s.badPart da l.length) with
    | none => c.1.targetWrite hook 5 da l
    | some x =>
    if c.1.storeRefused 5 da then (c.1, 2)
    else
      let s := if da < x then (c.1.targetWrite hook 5 da (l.take (x - da))).1 else c.1
      (s.eccReport 5 x 2, 3)

/-- The descriptor is complete: its event, and the next one (R238-R240). -/
def State.dmaNext (a ctl next : Nat) (s : State) : State :=
  let stop := (s.dma a).stopReq
  let s := s.wrapUp R.DMA_CNT_DONE a
  let s := if bit ctl 27 then s.raise (280 + bits ctl 28 3) (5 + 16 * a) else s
  if bit ctl 26 || stop then s.dmaEnd a else s.dmaFetch a next

/-- DMA_BURST_COMPLETE (R238, R239): one read access and one write access. -/
def State.dmaBurst (hook : BusHook → State → State) (a : Nat) (s : State) : State :=
  match (s.dma a).desc with
  | none => s
  | some (src, dst, ctl, next) =>
    if s.is R.DMA_STAT_WAITTRIG a then s
    else
      let m := (s.dma a).moved
      let fix := bit ctl 24 || bit ctl 25
      let n := if fix then 4 else min (bits ctl 0 24 - m) (2 ^ s.get R.DMA_CTL_BURST a)
      let sa := (if bit ctl 24 then src else src + m) % 2 ^ 32
      let da := (if bit ctl 25 then dst else dst + m) % 2 ^ 32
      let c := s.dmaCheck a 0 sa n
      let r := if !c.2 then (c.1, List.replicate n 0#8, 4) else c.1.targetRead false 5 sa n
      let good := if r.2.2 = 3 then (match r.1.badWord sa n with | some x => (s.mbs sa n).take (x - sa) | none => []) else if r.2.2 = 0 then r.2.1 else []
      let w := if good.isEmpty then (r.1, 0) else r.1.dmaPut hook a da good
      if r.2.2 ≠ 0 then w.1.dmaErr a (dmaCode r.2.2) sa
      else if w.2 ≠ 0 then w.1.dmaErr a (dmaCode w.2) da
      else
        let s := w.1.upDma a fun d => { d with moved := m + n, rules := none }
        if m + n = bits ctl 0 24 then s.dmaNext a ctl next else if (s.dma a).stopReq then s.dmaEnd a else s

/-! ## The access engine of Lantern (25, R601-R606) -/

/-- Status code of R602. -/
def lanStatus (st : Nat) : Nat := if st = 4 then 1 else if st = 5 then 3 else if st = 3 then 4 else if st = 1 then 5 else st

/-- ACC_GO (R601). -/
def State.accGo (hook : BusHook → State → State) (s : State) : State :=
  let a := s.get R.LANT_ACC_ADDR_A
  let n := 2 ^ s.get R.LANT_ACC_CTL_SIZE
  if s.is R.LANT_ACC_CTL_WRITE then
    let q := s.busWriteWith hook 7 a (leBytes n (s.get R.LANT_ACC_DATA_D))
    q.1.put R.LANT_ACC_STAT_STATUS (lanStatus q.2)
  else
    let q := s.busRead (s.is R.LANT_ACC_CTL_LOUD) 7 a n
    (q.1.put R.LANT_ACC_DATA_D (if q.2.2 = 0 then leNat q.2.1 else 0)).put R.LANT_ACC_STAT_STATUS (lanStatus q.2.2)

/-- What a register write sets off on the bus, `k` levels deep; deeper chains of such writes stop (log entry 41). -/
def State.busHook : Nat → BusHook → State → State
  | 0, _, s => s
  | k + 1, .accGo, s => s.accGo (State.busHook k)
  | _ + 1, .dmaGo a, s => opDmaStart a s

/-- A write as any requester makes it. -/
def State.busWrite (r a : Nat) (l : List Byte) (s : State) : State × Nat := s.busWriteWith (State.busHook 2) r a l

def opDmaBurstComplete (a : Nat) (s : State) : State := s.dmaBurst (State.busHook 2) a
def opAccGo (s : State) : State := s.accGo (State.busHook 2)

/-- REGISTER_WRITE (00, R7): requester `r` writes a word to a register. -/
def opRegisterWrite (r a v : Nat) (s : State) : State := if inRange a 0x10000000 0x60000 ∧ a % 4 = 0 then (s.busWrite r a (leBytes 4 v)).1 else s

/-! ## The end of a far access (04, R112, R114; 12, R304) -/

/-- The access at the head of an engine's far accesses is made, at its completion: judged already, at its trigger. -/
def State.farAccess (e : Nat) (f : FarReq) (answered : Bool) (s : State) : State × Nat × Nat :=
  if !answered then (s, 0, 1)
  else if f.store then
    let q := s.targetWrite (State.busHook 2) e f.addr (leBytes f.size f.data.toNat)
    (q.1, 0, q.2)
  else
    let q := s.targetRead false e f.addr f.size
    (q.1, if q.2.2 = 0 then extend f.size f.signed (leNat q.2.1) else 0, q.2.2)

def statWord (st : Nat) : Nat := if st = 0 then 0 else 1 + 2 * st

/-- A far access of a logic engine ends: on a following Shadow a load takes the forwarded value, or stalls until it comes (12, R304); a Lead
forwards what its loads gave. -/
def State.farEnd (e : Nat) (fl : Flight) (f : FarReq) (answered : Bool) (s : State) : State :=
  if f.waits then
    match s.rfl.farq.getD e [] with
    | x :: l => { s with rfl := { s.rfl with farq := Store.put e l s.rfl.farq } }.farTake e x
    | [] => (s.settle e).upE e fun x => { x with stalled := true }
  else
    let s := s.upE e fun x => { x with flights := x.flights.erase fl }
    let r := s.farAccess e f answered
    let s := r.1.farLand e f (if f.store then none else some r.2.1) (statWord r.2.2)
    if !f.store && s.lead then s.rflSend 4 ([BitVec.ofNat 8 e, BitVec.ofNat 8 (statWord r.2.2)] ++ leBytes 4 r.2.1) else s

/-- The value of an SV load that a slow target answered, with the bytes of the lines that SV holds in their place (10, R255). -/
def State.heldOver (s : State) (f : FarReq) (v : Nat) : Nat :=
  let l := leBytes f.size v
  extend f.size f.signed (leNat ((linePieces f.addr f.size).flatMap fun p =>
    if !farWindow f.addr && (Store.find (line p.1) s.m.dcache).isSome then s.copyBytes 4 p.1 p.2 else slice l (p.1 - f.addr) p.2))

/-- A slow access of SV ends: issue goes on, and a load brings its line into the data cache if it may (10, R255). -/
def State.svFarEnd (fl : Flight) (f : FarReq) (answered : Bool) (s : State) : State :=
  let s := s.upE 4 fun x => { x with flights := x.flights.erase fl, stalled := false }
  let r := s.farAccess 4 f answered
  if f.store then r.1.svEnd f.addr r.2.2
  else
    let v := if r.2.2 = 0 then r.1.heldOver f r.2.1 else r.2.1
    let s := (r.1.upE 4 fun x => x.setPort 0x190 (word v)).svEnd f.addr r.2.2
    if r.2.2 = 0 && !farWindow f.addr then State.forAll (linePieces f.addr f.size) (fun p s => s.fillLine f.cache p.1) s else s

/-- FAR_ACCESS_COMPLETE (R112): the oldest far access of the engine, at its cycle t + 64. -/
def opFarAccessComplete (e : Nat) (answered : Bool) (s : State) : State :=
  match (if s.secondary e then none else (s.eng e).flights.find? fun f => f.far.isSome) with
  | none => s
  | some fl =>
    match fl.far with
    | none => s
    | some f =>
      let s := s.upE e fun x => { x with cyc := max x.cyc fl.due }
      (if e = 4 then s.svFarEnd fl f answered else s.farEnd e fl f answered).mirrorFar e

/-- The far access of an engine that is complete by now, if any: its cycle t + 64 has come (R112). -/
def State.farReady (s : State) (e : Nat) : Bool :=
  !(s.eng e).stalled && (s.eng e).flights.any fun f => f.far.isSome && decide (f.due ≤ (s.eng e).cyc)

/-- Before an engine issues again its far accesses that are due have completed, answered in time (R112; log entry 24). -/
def State.farDue (e : Nat) (s : State) : State :=
  (s.eng e).flights.foldl (fun s _ => if s.farReady e then opFarAccessComplete e true s else s) (s.turnCatch e)

def execFarAccessComplete (e : Fin 5) (answered : Bool) (s : State) : Host.Outcome State Fault Refusal := .next (opFarAccessComplete e answered s)
def execDmaStart (a : Fin 4) (s : State) : Host.Outcome State Fault Refusal := .next (opDmaStart a s)
def execDmaStop (a : Fin 4) (s : State) : Host.Outcome State Fault Refusal := .next (opDmaStop a s)
def execDmaDisable (a : Fin 4) (s : State) : Host.Outcome State Fault Refusal := .next (opDmaDisable a s)
def execDmaBurstComplete (a : Fin 4) (s : State) : Host.Outcome State Fault Refusal := .next (opDmaBurstComplete a s)
def execAccGo (s : State) : Host.Outcome State Fault Refusal := .next (opAccGo s)
def execRegisterWrite (r : Fin 8) (a : Nat) (v : Word) (s : State) : Host.Outcome State Fault Refusal := .next (opRegisterWrite r a v.toNat s)

end Sys2Proof.Machine
end

