-- ==== Sys2Proof/Machine/EngineCmds.lean ====
section
/-! DEFINITION. Machine/EngineCmds.lean: the commands of the Bilpor engines (03, 04, 05) and of dispatch (06): one bundle, one trigger,
one result, one micro-move. A trigger command is one bundle whose only executing move puts the value into the port. -/

namespace Sys2Proof.Machine

/-- BUNDLE_ISSUE (R64), once the far accesses that are due have completed (R112). -/
def opBundleIssue (e : Nat) (s : State) : State := (s.farDue e).bundle e

/-- A bundle whose one executing move is given by the command: a value into a port. -/
def State.single (e p v : Nat) (s : State) : State := (s.farDue e).oneMove e p v

/-- A result lands; far accesses that are due by then complete as well (R112). -/
def opLand (e : Nat) (us : List UnitId) (s : State) : State := ((s.farDue e).landFirst e us).farDue e

/-- INSTANCE_COMPLETE (R116): the last operation of a yielded instance completes, at most 64 cycles after its SYS.YIELD. -/
def opInstanceComplete (n : Nat) (s : State) : State :=
  let e := s.tEng n
  let far := (s.eng e).flights.filter fun f => f.far.any fun r => r.task == some n
  (((s.upE e fun x => { x with cyc := far.foldl (fun c f => max c f.due) x.cyc }).farDue e).instanceComplete n).turnCatch e

/-- BUNDLE_ISSUE (R64). -/
def execBundleIssue (e : Fin 5) (s : State) : Host.Outcome State Fault Refusal := .next (opBundleIssue e s)
/-- IMM_HI (R63): port 0x1F0. -/
def execImmHi (e : Fin 5) (v : Word) (s : State) : Host.Outcome State Fault Refusal := .next (s.single e 0x1F0 v.toNat)
/-- PIPELINED_RESULT (R68). -/
def execPipelinedResult (e : Fin 5) (s : State) : Host.Outcome State Fault Refusal := .next (opLand e pipelined s)
/-- DIV_RESULT (R105). -/
def execDivResult (e : Fin 5) (s : State) : Host.Outcome State Fault Refusal := .next (opLand e [.div] s)
/-- FPU_DIVIDE_RESULT (R106). -/
def execFpuDivideResult (e : Fin 5) (s : State) : Host.Outcome State Fault Refusal := .next (opLand e [.fpuDiv] s)
/-- BU_LD (R96): port 0x080. -/
def execBuLd (e : Fin 5) (v : Word) (s : State) : Host.Outcome State Fault Refusal := .next (s.single e 0x080 v.toNat)
/-- BU_LDN (R96): port 0x081. -/
def execBuLdn (e : Fin 5) (v : Word) (s : State) : Host.Outcome State Fault Refusal := .next (s.single e 0x081 v.toNat)
/-- BU_AND (R96): port 0x082. -/
def execBuAnd (e : Fin 5) (v : Word) (s : State) : Host.Outcome State Fault Refusal := .next (s.single e 0x082 v.toNat)
/-- BU_ANDN (R96): port 0x083. -/
def execBuAndn (e : Fin 5) (v : Word) (s : State) : Host.Outcome State Fault Refusal := .next (s.single e 0x083 v.toNat)
/-- BU_OR (R96): port 0x084. -/
def execBuOr (e : Fin 5) (v : Word) (s : State) : Host.Outcome State Fault Refusal := .next (s.single e 0x084 v.toNat)
/-- BU_ORN (R96): port 0x085. -/
def execBuOrn (e : Fin 5) (v : Word) (s : State) : Host.Outcome State Fault Refusal := .next (s.single e 0x085 v.toNat)
/-- BU_XOR (R96): port 0x086. -/
def execBuXor (e : Fin 5) (v : Word) (s : State) : Host.Outcome State Fault Refusal := .next (s.single e 0x086 v.toNat)
/-- BU_ST (R100): port 0x087. -/
def execBuSt (e : Fin 5) (v : Word) (s : State) : Host.Outcome State Fault Refusal := .next (s.single e 0x087 v.toNat)
/-- BU_STN (R100): port 0x088. -/
def execBuStn (e : Fin 5) (v : Word) (s : State) : Host.Outcome State Fault Refusal := .next (s.single e 0x088 v.toNat)
/-- BU_SET (R100): port 0x089. -/
def execBuSet (e : Fin 5) (v : Word) (s : State) : Host.Outcome State Fault Refusal := .next (s.single e 0x089 v.toNat)
/-- BU_RST (R100): port 0x08A. -/
def execBuRst (e : Fin 5) (v : Word) (s : State) : Host.Outcome State Fault Refusal := .next (s.single e 0x08A v.toNat)
/-- BU_PUSH (R98): port 0x08B. -/
def execBuPush (e : Fin 5) (v : Word) (s : State) : Host.Outcome State Fault Refusal := .next (s.single e 0x08B v.toNat)
/-- BU_POP (R98): port 0x08C. -/
def execBuPop (e : Fin 5) (v : Word) (s : State) : Host.Outcome State Fault Refusal := .next (s.single e 0x08C v.toNat)
/-- BU_NOT (R96): port 0x08D. -/
def execBuNot (e : Fin 5) (v : Word) (s : State) : Host.Outcome State Fault Refusal := .next (s.single e 0x08D v.toNat)
/-- BU_ACCW (R96): port 0x08E. -/
def execBuAccw (e : Fin 5) (v : Word) (s : State) : Host.Outcome State Fault Refusal := .next (s.single e 0x08E v.toNat)
/-- BU_REDGE (R99): port 0x08F. -/
def execBuRedge (e : Fin 5) (v : Word) (s : State) : Host.Outcome State Fault Refusal := .next (s.single e 0x08F v.toNat)
/-- BU_FEDGE (R99): port 0x090. -/
def execBuFedge (e : Fin 5) (v : Word) (s : State) : Host.Outcome State Fault Refusal := .next (s.single e 0x090 v.toNat)
/-- ALU_ADD (R103): port 0x0C1. -/
def execAluAdd (e : Fin 5) (v : Word) (s : State) : Host.Outcome State Fault Refusal := .next (s.single e 0x0C1 v.toNat)
/-- ALU_SUB (R103): port 0x0C2. -/
def execAluSub (e : Fin 5) (v : Word) (s : State) : Host.Outcome State Fault Refusal := .next (s.single e 0x0C2 v.toNat)
/-- ALU_AND (R103): port 0x0C3. -/
def execAluAnd (e : Fin 5) (v : Word) (s : State) : Host.Outcome State Fault Refusal := .next (s.single e 0x0C3 v.toNat)
/-- ALU_OR (R103): port 0x0C4. -/
def execAluOr (e : Fin 5) (v : Word) (s : State) : Host.Outcome State Fault Refusal := .next (s.single e 0x0C4 v.toNat)
/-- ALU_XOR (R103): port 0x0C5. -/
def execAluXor (e : Fin 5) (v : Word) (s : State) : Host.Outcome State Fault Refusal := .next (s.single e 0x0C5 v.toNat)
/-- ALU_ANDN (R103): port 0x0C6. -/
def execAluAndn (e : Fin 5) (v : Word) (s : State) : Host.Outcome State Fault Refusal := .next (s.single e 0x0C6 v.toNat)
/-- ALU_SHL (R103): port 0x0C7. -/
def execAluShl (e : Fin 5) (v : Word) (s : State) : Host.Outcome State Fault Refusal := .next (s.single e 0x0C7 v.toNat)
/-- ALU_SHR (R103): port 0x0C8. -/
def execAluShr (e : Fin 5) (v : Word) (s : State) : Host.Outcome State Fault Refusal := .next (s.single e 0x0C8 v.toNat)
/-- ALU_SAR (R103): port 0x0C9. -/
def execAluSar (e : Fin 5) (v : Word) (s : State) : Host.Outcome State Fault Refusal := .next (s.single e 0x0C9 v.toNat)
/-- ALU_ROL (R103): port 0x0CA. -/
def execAluRol (e : Fin 5) (v : Word) (s : State) : Host.Outcome State Fault Refusal := .next (s.single e 0x0CA v.toNat)
/-- ALU_MIN (R103): port 0x0CB. -/
def execAluMin (e : Fin 5) (v : Word) (s : State) : Host.Outcome State Fault Refusal := .next (s.single e 0x0CB v.toNat)
/-- ALU_MAX (R103): port 0x0CC. -/
def execAluMax (e : Fin 5) (v : Word) (s : State) : Host.Outcome State Fault Refusal := .next (s.single e 0x0CC v.toNat)
/-- ALU_MINU (R103): port 0x0CD. -/
def execAluMinu (e : Fin 5) (v : Word) (s : State) : Host.Outcome State Fault Refusal := .next (s.single e 0x0CD v.toNat)
/-- ALU_MAXU (R103): port 0x0CE. -/
def execAluMaxu (e : Fin 5) (v : Word) (s : State) : Host.Outcome State Fault Refusal := .next (s.single e 0x0CE v.toNat)
/-- ALU_ADDS (R103): port 0x0CF. -/
def execAluAdds (e : Fin 5) (v : Word) (s : State) : Host.Outcome State Fault Refusal := .next (s.single e 0x0CF v.toNat)
/-- ALU_SUBS (R103): port 0x0D0. -/
def execAluSubs (e : Fin 5) (v : Word) (s : State) : Host.Outcome State Fault Refusal := .next (s.single e 0x0D0 v.toNat)
/-- ALU_ABS (R103): port 0x0D1. -/
def execAluAbs (e : Fin 5) (v : Word) (s : State) : Host.Outcome State Fault Refusal := .next (s.single e 0x0D1 v.toNat)
/-- ALU_NEG (R103): port 0x0D2. -/
def execAluNeg (e : Fin 5) (v : Word) (s : State) : Host.Outcome State Fault Refusal := .next (s.single e 0x0D2 v.toNat)
/-- ALU_SXT (R103): port 0x0D3. -/
def execAluSxt (e : Fin 5) (v : Word) (s : State) : Host.Outcome State Fault Refusal := .next (s.single e 0x0D3 v.toNat)
/-- ALU_CLZ (R103): port 0x0D4. -/
def execAluClz (e : Fin 5) (v : Word) (s : State) : Host.Outcome State Fault Refusal := .next (s.single e 0x0D4 v.toNat)
/-- CMP_EQ (R89): port 0x0E1. -/
def execCmpEq (e : Fin 5) (v : Word) (s : State) : Host.Outcome State Fault Refusal := .next (s.single e 0x0E1 v.toNat)
/-- CMP_NE (R89): port 0x0E2. -/
def execCmpNe (e : Fin 5) (v : Word) (s : State) : Host.Outcome State Fault Refusal := .next (s.single e 0x0E2 v.toNat)
/-- CMP_LT (R89): port 0x0E3. -/
def execCmpLt (e : Fin 5) (v : Word) (s : State) : Host.Outcome State Fault Refusal := .next (s.single e 0x0E3 v.toNat)
/-- CMP_LE (R89): port 0x0E4. -/
def execCmpLe (e : Fin 5) (v : Word) (s : State) : Host.Outcome State Fault Refusal := .next (s.single e 0x0E4 v.toNat)
/-- CMP_GT (R89): port 0x0E5. -/
def execCmpGt (e : Fin 5) (v : Word) (s : State) : Host.Outcome State Fault Refusal := .next (s.single e 0x0E5 v.toNat)
/-- CMP_GE (R89): port 0x0E6. -/
def execCmpGe (e : Fin 5) (v : Word) (s : State) : Host.Outcome State Fault Refusal := .next (s.single e 0x0E6 v.toNat)
/-- CMP_LTU (R89): port 0x0E7. -/
def execCmpLtu (e : Fin 5) (v : Word) (s : State) : Host.Outcome State Fault Refusal := .next (s.single e 0x0E7 v.toNat)
/-- CMP_GEU (R89): port 0x0E8. -/
def execCmpGeu (e : Fin 5) (v : Word) (s : State) : Host.Outcome State Fault Refusal := .next (s.single e 0x0E8 v.toNat)
/-- CMP_EQA (R97): port 0x0E9. -/
def execCmpEqa (e : Fin 5) (v : Word) (s : State) : Host.Outcome State Fault Refusal := .next (s.single e 0x0E9 v.toNat)
/-- CMP_LTA (R97): port 0x0EA. -/
def execCmpLta (e : Fin 5) (v : Word) (s : State) : Host.Outcome State Fault Refusal := .next (s.single e 0x0EA v.toNat)
/-- CMP_LEA (R97): port 0x0EB. -/
def execCmpLea (e : Fin 5) (v : Word) (s : State) : Host.Outcome State Fault Refusal := .next (s.single e 0x0EB v.toNat)
/-- CMP_LTUA (R97): port 0x0EC. -/
def execCmpLtua (e : Fin 5) (v : Word) (s : State) : Host.Outcome State Fault Refusal := .next (s.single e 0x0EC v.toNat)
/-- CMP_LEUA (R97): port 0x0ED. -/
def execCmpLeua (e : Fin 5) (v : Word) (s : State) : Host.Outcome State Fault Refusal := .next (s.single e 0x0ED v.toNat)
/-- MUL_MULS (R104): port 0x0F1. -/
def execMulMuls (e : Fin 5) (v : Word) (s : State) : Host.Outcome State Fault Refusal := .next (s.single e 0x0F1 v.toNat)
/-- MUL_MULU (R104): port 0x0F2. -/
def execMulMulu (e : Fin 5) (v : Word) (s : State) : Host.Outcome State Fault Refusal := .next (s.single e 0x0F2 v.toNat)
/-- MUL_MULQ31 (R104): port 0x0F3. -/
def execMulMulq31 (e : Fin 5) (v : Word) (s : State) : Host.Outcome State Fault Refusal := .next (s.single e 0x0F3 v.toNat)
/-- DIV_DIVS (R105): port 0x101. -/
def execDivDivs (e : Fin 5) (v : Word) (s : State) : Host.Outcome State Fault Refusal := .next (s.single e 0x101 v.toNat)
/-- DIV_DIVU (R105): port 0x102. -/
def execDivDivu (e : Fin 5) (v : Word) (s : State) : Host.Outcome State Fault Refusal := .next (s.single e 0x102 v.toNat)
/-- FPU_FADD (R106): port 0x118. -/
def execFpuFadd (e : Fin 5) (v : Word) (s : State) : Host.Outcome State Fault Refusal := .next (s.single e 0x118 v.toNat)
/-- FPU_FSUB (R106): port 0x119. -/
def execFpuFsub (e : Fin 5) (v : Word) (s : State) : Host.Outcome State Fault Refusal := .next (s.single e 0x119 v.toNat)
/-- FPU_FMUL (R106): port 0x11A. -/
def execFpuFmul (e : Fin 5) (v : Word) (s : State) : Host.Outcome State Fault Refusal := .next (s.single e 0x11A v.toNat)
/-- FPU_FDIV (R106): port 0x11B. -/
def execFpuFdiv (e : Fin 5) (v : Word) (s : State) : Host.Outcome State Fault Refusal := .next (s.single e 0x11B v.toNat)
/-- FPU_FSQRT (R106): port 0x11C. -/
def execFpuFsqrt (e : Fin 5) (v : Word) (s : State) : Host.Outcome State Fault Refusal := .next (s.single e 0x11C v.toNat)
/-- FPU_FCMP (R107): port 0x11D. -/
def execFpuFcmp (e : Fin 5) (v : Word) (s : State) : Host.Outcome State Fault Refusal := .next (s.single e 0x11D v.toNat)
/-- FPU_FTOI (R107): port 0x11E. -/
def execFpuFtoi (e : Fin 5) (v : Word) (s : State) : Host.Outcome State Fault Refusal := .next (s.single e 0x11E v.toNat)
/-- FPU_ITOF (R106): port 0x11F. -/
def execFpuItof (e : Fin 5) (v : Word) (s : State) : Host.Outcome State Fault Refusal := .next (s.single e 0x11F v.toNat)
/-- FPU_DADD (R106): port 0x120. -/
def execFpuDadd (e : Fin 5) (v : Word) (s : State) : Host.Outcome State Fault Refusal := .next (s.single e 0x120 v.toNat)
/-- FPU_DSUB (R106): port 0x121. -/
def execFpuDsub (e : Fin 5) (v : Word) (s : State) : Host.Outcome State Fault Refusal := .next (s.single e 0x121 v.toNat)
/-- FPU_DMUL (R106): port 0x122. -/
def execFpuDmul (e : Fin 5) (v : Word) (s : State) : Host.Outcome State Fault Refusal := .next (s.single e 0x122 v.toNat)
/-- FPU_DDIV (R106): port 0x123. -/
def execFpuDdiv (e : Fin 5) (v : Word) (s : State) : Host.Outcome State Fault Refusal := .next (s.single e 0x123 v.toNat)
/-- FPU_DSQRT (R106): port 0x124. -/
def execFpuDsqrt (e : Fin 5) (v : Word) (s : State) : Host.Outcome State Fault Refusal := .next (s.single e 0x124 v.toNat)
/-- FPU_DCMP (R107): port 0x125. -/
def execFpuDcmp (e : Fin 5) (v : Word) (s : State) : Host.Outcome State Fault Refusal := .next (s.single e 0x125 v.toNat)
/-- FPU_DTOI (R107): port 0x126. -/
def execFpuDtoi (e : Fin 5) (v : Word) (s : State) : Host.Outcome State Fault Refusal := .next (s.single e 0x126 v.toNat)
/-- FPU_ITOD (R106): port 0x127. -/
def execFpuItod (e : Fin 5) (v : Word) (s : State) : Host.Outcome State Fault Refusal := .next (s.single e 0x127 v.toNat)
/-- FPU_FTOD (R106): port 0x128. -/
def execFpuFtod (e : Fin 5) (v : Word) (s : State) : Host.Outcome State Fault Refusal := .next (s.single e 0x128 v.toNat)
/-- FPU_DTOF (R106): port 0x129. -/
def execFpuDtof (e : Fin 5) (v : Word) (s : State) : Host.Outcome State Fault Refusal := .next (s.single e 0x129 v.toNat)
/-- FPU_FCLR (R106): port 0x136. -/
def execFpuFclr (e : Fin 5) (v : Word) (s : State) : Host.Outcome State Fault Refusal := .next (s.single e 0x136 v.toNat)
/-- TMR_TON (R109): port 0x141. -/
def execTmrTon (e : Fin 5) (v : Word) (s : State) : Host.Outcome State Fault Refusal := .next (s.single e 0x141 v.toNat)
/-- TMR_TOF (R109): port 0x142. -/
def execTmrTof (e : Fin 5) (v : Word) (s : State) : Host.Outcome State Fault Refusal := .next (s.single e 0x142 v.toNat)
/-- TMR_TP (R109): port 0x143. -/
def execTmrTp (e : Fin 5) (v : Word) (s : State) : Host.Outcome State Fault Refusal := .next (s.single e 0x143 v.toNat)
/-- TMR_RESET (R109): port 0x144. -/
def execTmrReset (e : Fin 5) (v : Word) (s : State) : Host.Outcome State Fault Refusal := .next (s.single e 0x144 v.toNat)
/-- LSU_LD32 (R111): port 0x182. -/
def execLsuLd32 (e : Fin 5) (v : Word) (s : State) : Host.Outcome State Fault Refusal := .next (s.single e 0x182 v.toNat)
/-- LSU_LD16S (R111): port 0x183. -/
def execLsuLd16s (e : Fin 5) (v : Word) (s : State) : Host.Outcome State Fault Refusal := .next (s.single e 0x183 v.toNat)
/-- LSU_LD16U (R111): port 0x184. -/
def execLsuLd16u (e : Fin 5) (v : Word) (s : State) : Host.Outcome State Fault Refusal := .next (s.single e 0x184 v.toNat)
/-- LSU_LD8S (R111): port 0x185. -/
def execLsuLd8s (e : Fin 5) (v : Word) (s : State) : Host.Outcome State Fault Refusal := .next (s.single e 0x185 v.toNat)
/-- LSU_LD8U (R111): port 0x186. -/
def execLsuLd8u (e : Fin 5) (v : Word) (s : State) : Host.Outcome State Fault Refusal := .next (s.single e 0x186 v.toNat)
/-- LSU_ST32 (R113): port 0x187. -/
def execLsuSt32 (e : Fin 5) (v : Word) (s : State) : Host.Outcome State Fault Refusal := .next (s.single e 0x187 v.toNat)
/-- LSU_ST16 (R113): port 0x188. -/
def execLsuSt16 (e : Fin 5) (v : Word) (s : State) : Host.Outcome State Fault Refusal := .next (s.single e 0x188 v.toNat)
/-- LSU_ST8 (R113): port 0x189. -/
def execLsuSt8 (e : Fin 5) (v : Word) (s : State) : Host.Outcome State Fault Refusal := .next (s.single e 0x189 v.toNat)
/-- IMG_RD32 (R115): port 0x1A1. -/
def execImgRd32 (e : Fin 5) (v : Word) (s : State) : Host.Outcome State Fault Refusal := .next (s.single e 0x1A1 v.toNat)
/-- IMG_RD16S (R115): port 0x1A2. -/
def execImgRd16s (e : Fin 5) (v : Word) (s : State) : Host.Outcome State Fault Refusal := .next (s.single e 0x1A2 v.toNat)
/-- IMG_RD16U (R115): port 0x1A3. -/
def execImgRd16u (e : Fin 5) (v : Word) (s : State) : Host.Outcome State Fault Refusal := .next (s.single e 0x1A3 v.toNat)
/-- IMG_RD8U (R115): port 0x1A4. -/
def execImgRd8u (e : Fin 5) (v : Word) (s : State) : Host.Outcome State Fault Refusal := .next (s.single e 0x1A4 v.toNat)
/-- IMG_WR32 (R115): port 0x1A5. -/
def execImgWr32 (e : Fin 5) (v : Word) (s : State) : Host.Outcome State Fault Refusal := .next (s.single e 0x1A5 v.toNat)
/-- IMG_WR16 (R115): port 0x1A6. -/
def execImgWr16 (e : Fin 5) (v : Word) (s : State) : Host.Outcome State Fault Refusal := .next (s.single e 0x1A6 v.toNat)
/-- IMG_WR8 (R115): port 0x1A7. -/
def execImgWr8 (e : Fin 5) (v : Word) (s : State) : Host.Outcome State Fault Refusal := .next (s.single e 0x1A7 v.toNat)
/-- PC_JMP (R72): port 0x1B0. -/
def execPcJmp (e : Fin 5) (v : Word) (s : State) : Host.Outcome State Fault Refusal := .next (s.single e 0x1B0 v.toNat)
/-- PC_REL (R72): port 0x1B1. -/
def execPcRel (e : Fin 5) (v : Word) (s : State) : Host.Outcome State Fault Refusal := .next (s.single e 0x1B1 v.toNat)
/-- PC_CALL (R72): port 0x1B2. -/
def execPcCall (e : Fin 5) (v : Word) (s : State) : Host.Outcome State Fault Refusal := .next (s.single e 0x1B2 v.toNat)
/-- PC_CALLR (R72): port 0x1B3. -/
def execPcCallr (e : Fin 5) (v : Word) (s : State) : Host.Outcome State Fault Refusal := .next (s.single e 0x1B3 v.toNat)
/-- PC_RET (R72): port 0x1B4. -/
def execPcRet (e : Fin 5) (v : Word) (s : State) : Host.Outcome State Fault Refusal := .next (s.single e 0x1B4 v.toNat)
/-- SYS_YIELD (R116): port 0x1C0. -/
def execSysYield (e : Fin 5) (v : Word) (s : State) : Host.Outcome State Fault Refusal := .next (s.single e 0x1C0 v.toNat)
/-- SYS_CALL (R79): port 0x1C1. -/
def execSysCall (e : Fin 5) (v : Word) (s : State) : Host.Outcome State Fault Refusal := .next (s.single e 0x1C1 v.toNat)
/-- SYS_ERET (R84): port 0x1C2. -/
def execSysEret (e : Fin 5) (v : Word) (s : State) : Host.Outcome State Fault Refusal := .next (s.single e 0x1C2 v.toNat)
/-- SYS_SYNC (R117): port 0x1C3. -/
def execSysSync (e : Fin 5) (v : Word) (s : State) : Host.Outcome State Fault Refusal := .next (s.single e 0x1C3 v.toNat)
/-- SYS_EVT (R117): port 0x1C4. -/
def execSysEvt (e : Fin 5) (v : Word) (s : State) : Host.Outcome State Fault Refusal := .next (s.single e 0x1C4 v.toNat)
/-- SYS_SETCSP (R118): port 0x1C5. -/
def execSysSetcsp (e : Fin 5) (v : Word) (s : State) : Host.Outcome State Fault Refusal := .next (s.single e 0x1C5 v.toNat)
/-- SYS_SETCSP_LO (R118): port 0x1C6. -/
def execSysSetcspLo (e : Fin 5) (v : Word) (s : State) : Host.Outcome State Fault Refusal := .next (s.single e 0x1C6 v.toNat)
/-- SYS_SETCSP_HI (R118): port 0x1C7. -/
def execSysSetcspHi (e : Fin 5) (v : Word) (s : State) : Host.Outcome State Fault Refusal := .next (s.single e 0x1C7 v.toNat)
/-- LOCK_OPEN (R119): port 0x1E0. -/
def execLockOpen (e : Fin 5) (v : Word) (s : State) : Host.Outcome State Fault Refusal := .next (s.single e 0x1E0 v.toNat)
/-- LOCK_ST (R119): port 0x1E2. -/
def execLockSt (e : Fin 5) (v : Word) (s : State) : Host.Outcome State Fault Refusal := .next (s.single e 0x1E2 v.toNat)
/-- LOCK_END (R119): port 0x1E3. -/
def execLockEnd (e : Fin 5) (v : Word) (s : State) : Host.Outcome State Fault Refusal := .next (s.single e 0x1E3 v.toNat)
/-- SVC_ICINV (R123): port 0x280, SV only. -/
def execSvcIcinv (v : Word) (s : State) : Host.Outcome State Fault Refusal := .next (s.single 4 0x280 v.toNat)
/-- SVC_DCCLEAN (R123): port 0x281, SV only. -/
def execSvcDcclean (v : Word) (s : State) : Host.Outcome State Fault Refusal := .next (s.single 4 0x281 v.toNat)
/-- SVC_DCINV (R123): port 0x282, SV only. -/
def execSvcDcinv (v : Word) (s : State) : Host.Outcome State Fault Refusal := .next (s.single 4 0x282 v.toNat)
/-- SVC_DCFLUSH (R123): port 0x283, SV only. -/
def execSvcDcflush (v : Word) (s : State) : Host.Outcome State Fault Refusal := .next (s.single 4 0x283 v.toNat)

/-- Bundle 17 of a locked sequence that has not closed would issue (R121). -/
def opLockFault (e : Nat) (s : State) : State :=
  let x := s.eng e
  match x.lock with
  | some l => if s.canIssue e && l.count == 16 then (s.spend e 1).raiseFault e 0x19 l.addr x.pc else s
  | none => s

/-- LOCK_FAULT (R121). -/
def execLockFault (e : Fin 4) (s : State) : Host.Outcome State Fault Refusal := .next (opLockFault e s)
/-- MACRO_T (R128): ports 0x200-0x23F. -/
def execMacroT (e : Fin 4) (n : Fin 64) (v : Word) (s : State) : Host.Outcome State Fault Refusal := .next (s.single e (0x200 + n) v.toNat)
/-- MICRO_MOVE (R129). -/
def execMicroMove (e : Fin 4) (s : State) : Host.Outcome State Fault Refusal := .next ((s.farDue e).microMove e)
/-- ROUTED_EVENT_ENTRY (R207). -/
def execRoutedEventEntry (e : Fin 5) (s : State) : Host.Outcome State Fault Refusal := .next (s.routedEntry e)
/-- TASK_DISPATCH (R154). -/
def execTaskDispatch (e : Fin 4) (s : State) : Host.Outcome State Fault Refusal := .next (s.dispatch e)
/-- PREEMPTION (R153). -/
def execPreemption (e : Fin 4) (s : State) : Host.Outcome State Fault Refusal := .next (s.preempt e)
/-- INSTANCE_COMPLETE (R116). -/
def execInstanceComplete (n : Fin 48) (s : State) : Host.Outcome State Fault Refusal := .next (opInstanceComplete n s)
/-- BUDGET_EXHAUSTED (R157). -/
def execBudgetExhausted (n : Fin 48) (s : State) : Host.Outcome State Fault Refusal := .next (s.budgetOut n)

end Sys2Proof.Machine
end

