-- ==== Sys2Proof/Machine/Params.lean ====
section
/-! DEFINITION. Machine/Params.lean: the parameters of the dictionary (13, R321-R351, and the Parameters tables of the home chapters; written by
a script from those tables) and the register bits that hold their elements. -/

namespace Sys2Proof.Machine

/-- Elements `first + de * k` for `k < n` stand in bits from `l + dl * k`, `w` wide, of the register at `a + da * k`, as value / `mul` less `add`;
`cmd`: a command bit, which reads 0. -/
structure Seg where
  first : Nat
  de : Nat
  n : Nat
  a : Nat
  da : Nat
  l : Nat
  dl : Nat
  w : Nat
  mul : Nat
  add : Int
  cmd : Bool
  deriving DecidableEq, Repr

/-- A parameter of the device or the firmware (R326). -/
structure Param where
  num : Nat
  /-- type code (R324) -/
  ty : Nat
  count : Nat
  /-- access byte (R328) -/
  acc : Nat
  /-- 0 volatile, 1 kept -/
  pers : Nat
  /-- ranges, element by element and cycled; for TEXT of the length; floating-point values in bit order; empty: none -/
  rng : List (Int × Int)
  /-- the range column refers to a rule -/
  rule : Bool
  /-- defaults, element by element and cycled; empty: the reset values of the registers; none: "-" -/
  dflt : Option (List Nat)
  /-- a command rather than a value -/
  cmd : Bool
  /-- where its elements stand; empty: see `Dict.lean` -/
  segs : List Seg
  deriving DecidableEq, Repr

def params00 : List Param :=
  [⟨0x000001, 13, 1, 0x55, 0, [], false, none, false, []⟩,
   ⟨0x000002, 13, 1, 0x55, 0, [], false, none, false, []⟩,
   ⟨0x000003, 13, 1, 0x55, 0, [], false, none, false, []⟩,
   ⟨0x000004, 4, 4, 0x55, 0, [], false, none, false, [⟨0, 1, 4, 0x10000004, 0x4, 0, 0, 32, 1, 0, false⟩]⟩,
   ⟨0x000005, 4, 1, 0x55, 0, [], false, none, false, []⟩,
   ⟨0x000006, 3, 1, 0x55, 0, [], false, none, false, []⟩,
   ⟨0x000007, 2, 1, 0x55, 0, [(0, 1)], false, none, false, [⟨0, 1, 1, 0x10028024, 0x0, 0, 0, 1, 1, 0, false⟩]⟩,
   ⟨0x000008, 4, 4, 0x55, 0, [], false, none, false, [⟨0, 1, 4, 0x1000821C, 0x1000, 0, 0, 32, 1, 0, false⟩]⟩,
   ⟨0x000009, 4, 4, 0x55, 0, [], false, none, false, [⟨0, 1, 4, 0x10008308, 0x1000, 0, 0, 32, 1, 0, false⟩]⟩,
   ⟨0x00000A, 15, 8, 0x55, 0, [], false, none, false, []⟩] ++
  [⟨0x00000B, 13, 1, 0xF5, 1, [(0, 64)], false, some [0], false, []⟩,
   ⟨0x00000C, 13, 1, 0xF5, 1, [(0, 240)], false, some [0], false, []⟩,
   ⟨0x00000D, 4, 1, 0x55, 1, [], false, none, false, []⟩,
   ⟨0x00000E, 4, 1, 0x55, 1, [], false, none, false, []⟩,
   ⟨0x000010, 4, 1, 0x55, 0, [], false, none, false, []⟩,
   ⟨0x000011, 2, 1, 0x55, 0, [(0, 8)], false, none, false, []⟩]

def params01 : List Param :=
  [⟨0x010001, 2, 1, 0x55, 0, [(0, 1)], false, none, false, [⟨0, 1, 1, 0x10000014, 0x0, 0, 0, 1, 1, 0, false⟩]⟩,
   ⟨0x010002, 2, 1, 0xA8, 0, [(0, 2)], false, some [0], false, []⟩,
   ⟨0x010003, 15, 1, 0x55, 0, [], false, none, false, [⟨0, 1, 1, 0x1000C004, 0x4, 0, 0, 32, 1, 0, false⟩]⟩,
   ⟨0x010004, 15, 1, 0x55, 0, [], false, none, false, [⟨0, 1, 1, 0x1000C014, 0x4, 0, 0, 32, 1, 0, false⟩]⟩,
   ⟨0x010005, 7, 1, 0x55, 0, [], false, none, false, []⟩,
   ⟨0x010006, 15, 1, 0x55, 0, [], false, none, false, []⟩,
   ⟨0x010007, 2, 1, 0x55, 0, [], false, none, false, [⟨0, 1, 1, 0x10003000, 0x0, 0, 0, 8, 1, 0, false⟩]⟩,
   ⟨0x010008, 4, 1, 0x55, 0, [], false, none, false, [⟨0, 1, 1, 0x10000024, 0x0, 0, 0, 32, 1, 0, false⟩]⟩,
   ⟨0x010009, 4, 4, 0x55, 0, [], false, none, false, [⟨0, 1, 4, 0x10006200, 0x4, 0, 0, 32, 1, 0, false⟩]⟩,
   ⟨0x01000A, 1, 1, 0x55, 0, [], false, none, false, [⟨0, 1, 1, 0x10010004, 0x0, 1, 0, 1, 1, 0, false⟩]⟩] ++
  [⟨0x01000B, 4, 5, 0x55, 0, [], false, none, false, []⟩,
   ⟨0x01000C, 15, 1, 0x55, 0, [], false, none, false, []⟩,
   ⟨0x01000D, 3, 2, 0x55, 0, [], false, none, false, [⟨0, 1, 1, 0x10000408, 0x0, 0, 0, 16, 1, 0, false⟩, ⟨1, 1, 1, 0x10000408, 0x0, 16, 0, 16, 1, 0, false⟩]⟩,
   ⟨0x01000E, 1, 1, 0xA8, 0, [(0, 1)], false, some [0], false, []⟩]

def params10 : List Param :=
  [⟨0x100001, 4, 1, 0xF5, 1, [], true, some [25000], false, [⟨0, 1, 1, 0x10004004, 0x0, 0, 0, 24, 1, 0, false⟩]⟩,
   ⟨0x100002, 4, 1, 0xF5, 1, [], true, some [0], false, [⟨0, 1, 1, 0x10004008, 0x0, 0, 0, 24, 1, 0, false⟩]⟩,
   ⟨0x100003, 4, 1, 0x55, 0, [], false, none, false, [⟨0, 1, 1, 0x1000400C, 0x0, 0, 0, 32, 1, 0, false⟩]⟩,
   ⟨0x100004, 12, 1, 0x55, 0, [], false, none, false, []⟩,
   ⟨0x100005, 12, 1, 0xC0, 0, [], true, some [0], true, []⟩,
   ⟨0x100006, 2, 1, 0x55, 0, [(0, 3)], false, none, false, [⟨0, 1, 1, 0x10005024, 0x0, 0, 0, 2, 1, 0, false⟩]⟩,
   ⟨0x100007, 8, 1, 0x55, 0, [], false, none, false, [⟨0, 1, 1, 0x10005018, 0x0, 0, 0, 32, 1, 0, false⟩]⟩,
   ⟨0x100008, 8, 1, 0x55, 0, [], false, none, false, [⟨0, 1, 1, 0x1000501C, 0x0, 0, 0, 32, 1, 0, false⟩]⟩,
   ⟨0x100009, 2, 1, 0xF5, 1, [(0, 1)], false, some [0], false, [⟨0, 1, 1, 0x10005000, 0x0, 1, 0, 1, 1, 0, false⟩]⟩,
   ⟨0x10000A, 2, 1, 0xF5, 1, [(0, 2)], false, some [0], false, [⟨0, 1, 1, 0x10005000, 0x0, 2, 0, 2, 1, 0, false⟩]⟩] ++
  [⟨0x10000B, 2, 1, 0xF5, 1, [(1, 15)], false, some [2], false, [⟨0, 1, 1, 0x10005000, 0x0, 8, 0, 4, 1, 0, false⟩]⟩,
   ⟨0x10000C, 3, 1, 0xF5, 1, [(1100, 10000)], false, some [1500], false, [⟨0, 1, 1, 0x10005028, 0x0, 0, 0, 16, 1, 0, false⟩]⟩,
   ⟨0x10000D, 2, 1, 0xF5, 1, [(0, 7)], false, some [3], false, [⟨0, 1, 1, 0x10005000, 0x0, 4, 0, 3, 1, 0, false⟩]⟩,
   ⟨0x10000E, 8, 1, 0xF5, 1, [(-1000000, 1000000)], false, some [0], false, [⟨0, 1, 1, 0x1000502C, 0x0, 0, 0, 32, 1, 0, false⟩]⟩,
   ⟨0x100010, 4, 1, 0x55, 0, [], false, none, false, [⟨0, 1, 1, 0x10006000, 0x0, 0, 0, 32, 1, 0, false⟩]⟩,
   ⟨0x100011, 3, 1, 0xF5, 1, [(0, 65535)], false, some [60], false, [⟨0, 1, 1, 0x1000600C, 0x0, 16, 0, 16, 1, 0, false⟩]⟩,
   ⟨0x100012, 1, 1, 0xFC, 0, [(0, 1)], false, some [0], true, []⟩,
   ⟨0x100013, 5, 5, 0x55, 0, [], false, none, false, []⟩,
   ⟨0x100014, 3, 2, 0x55, 0, [], false, none, false, [⟨0, 1, 1, 0x10005030, 0x0, 0, 0, 16, 1, 0, false⟩, ⟨1, 1, 1, 0x10005030, 0x0, 16, 0, 16, 1, 0, false⟩]⟩]

def params11 : List Param :=
  [⟨0x110001, 1, 48, 0xF5, 0, [(0, 1)], false, some [0], false, [⟨0, 1, 48, 0x10007000, 0x40, 0, 0, 1, 1, 0, false⟩]⟩,
   ⟨0x110002, 2, 48, 0xF5, 0, [(0, 3)], false, some [0], false, [⟨0, 1, 48, 0x10007000, 0x40, 1, 0, 2, 1, 0, false⟩]⟩,
   ⟨0x110003, 2, 48, 0xF5, 0, [(0, 11)], false, some [0], false, [⟨0, 1, 48, 0x10007000, 0x40, 3, 0, 4, 1, 0, false⟩]⟩,
   ⟨0x110004, 2, 48, 0xF5, 0, [(0, 15)], false, some [0], false, [⟨0, 1, 48, 0x10007000, 0x40, 8, 0, 4, 1, 0, false⟩]⟩,
   ⟨0x110005, 2, 48, 0xF5, 0, [(0, 1)], false, some [0], false, [⟨0, 1, 48, 0x10007000, 0x40, 12, 0, 1, 1, 0, false⟩]⟩,
   ⟨0x110006, 3, 48, 0xF5, 0, [(1, 4096)], false, some [1], false, [⟨0, 1, 48, 0x10007004, 0x40, 0, 0, 13, 1, 0, false⟩]⟩,
   ⟨0x110007, 3, 48, 0xF5, 0, [], true, some [0], false, [⟨0, 1, 48, 0x10007004, 0x40, 16, 0, 13, 1, 0, false⟩]⟩,
   ⟨0x110008, 3, 48, 0xF5, 0, [(0, 287)], false, some [0], false, [⟨0, 1, 48, 0x10007004, 0x40, 0, 0, 9, 1, 0, false⟩]⟩,
   ⟨0x110009, 4, 48, 0xF5, 0, [(0, 1048575)], false, some [0], false, [⟨0, 1, 48, 0x10007004, 0x40, 12, 0, 20, 1, 0, false⟩]⟩,
   ⟨0x11000A, 4, 48, 0xF5, 0, [(64, 4294967295)], false, some [64], false, [⟨0, 1, 48, 0x1000700C, 0x40, 0, 0, 32, 1, 0, false⟩]⟩] ++
  [⟨0x11000B, 2, 48, 0xF5, 0, [(0, 1)], false, some [0], false, [⟨0, 1, 48, 0x10007000, 0x40, 14, 0, 1, 1, 0, false⟩]⟩,
   ⟨0x11000C, 2, 48, 0xF5, 0, [(0, 255)], false, some [8], false, [⟨0, 1, 48, 0x10007000, 0x40, 16, 0, 8, 1, 0, false⟩]⟩,
   ⟨0x11000D, 1, 48, 0xF5, 0, [(0, 1)], false, some [0], false, [⟨0, 1, 48, 0x10007000, 0x40, 13, 0, 1, 1, 0, false⟩]⟩,
   ⟨0x11000E, 2, 48, 0x55, 0, [(0, 5)], false, none, false, [⟨0, 1, 48, 0x10007010, 0x40, 0, 0, 3, 1, 0, false⟩]⟩,
   ⟨0x11000F, 3, 48, 0x55, 0, [], false, none, false, [⟨0, 1, 48, 0x10007014, 0x40, 0, 0, 16, 1, 0, false⟩]⟩,
   ⟨0x110010, 3, 48, 0x55, 0, [], false, none, false, [⟨0, 1, 48, 0x10007014, 0x40, 16, 0, 16, 1, 0, false⟩]⟩,
   ⟨0x110011, 4, 96, 0x55, 0, [], false, none, false, [⟨0, 1, 48, 0x10007018, 0x40, 0, 0, 32, 1, 0, false⟩, ⟨48, 1, 48, 0x1000701C, 0x40, 0, 0, 32, 1, 0, false⟩]⟩,
   ⟨0x110012, 1, 1, 0xFC, 0, [(0, 1)], false, some [0], true, [⟨0, 1, 1, 0x10007C40, 0x0, 0, 0, 1, 1, 0, false⟩]⟩,
   ⟨0x110013, 2, 4, 0xF5, 1, [(0, 47)], false, some [0], false, [⟨0, 1, 4, 0x10007C10, 0x4, 0, 0, 6, 1, 0, false⟩]⟩,
   ⟨0x110014, 2, 4, 0xF5, 1, [(0, 255)], false, some [0], false, [⟨0, 1, 4, 0x10007C10, 0x4, 8, 0, 8, 1, 0, false⟩]⟩] ++
  [⟨0x110015, 2, 4, 0xF5, 1, [(0, 255)], false, some [0], false, [⟨0, 1, 4, 0x10007C10, 0x4, 16, 0, 8, 1, 0, false⟩]⟩,
   ⟨0x110016, 1, 4, 0x55, 0, [], false, none, false, [⟨0, 1, 4, 0x10007C10, 0x4, 24, 0, 1, 1, 0, false⟩]⟩,
   ⟨0x110017, 1, 4, 0xFC, 0, [(0, 1)], false, some [0], true, [⟨0, 1, 4, 0x10007C10, 0x4, 25, 0, 1, 1, 0, false⟩]⟩,
   ⟨0x110018, 4, 8, 0x55, 0, [], false, none, false, [⟨0, 1, 4, 0x10004110, 0x4, 0, 0, 32, 1, 0, false⟩, ⟨4, 1, 4, 0x10004120, 0x4, 0, 0, 32, 1, 0, false⟩]⟩]

def params20 : List Param :=
  [⟨0x200001, 1, 6, 0xF5, 1, [(0, 1)], false, some [1, 1, 0, 0, 0, 0], false, [⟨0, 1, 6, 0x10012000, 0x1000, 0, 0, 1, 1, 0, false⟩]⟩,
   ⟨0x200002, 2, 6, 0xF5, 1, [(0, 0), (0, 0), (1, 254), (1, 254), (1, 254), (1, 254)], false, some [0], false, [⟨2, 1, 4, 0x10014008, 0x1000, 0, 0, 32, 1, 0, false⟩]⟩,
   ⟨0x200003, 2, 6, 0xF5, 1, [(0, 0), (0, 0), (1, 254), (1, 254), (1, 254), (1, 254)], false, some [0], false, [⟨2, 1, 4, 0x1001400C, 0x1000, 0, 0, 32, 1, 0, false⟩]⟩,
   ⟨0x200004, 4, 2, 0xF5, 1, [], false, some [0], false, [⟨0, 1, 2, 0x10012008, 0x1000, 0, 0, 32, 1, 0, false⟩]⟩,
   ⟨0x200005, 4, 2, 0xF5, 1, [], false, some [0], false, [⟨0, 1, 2, 0x1001200C, 0x1000, 0, 0, 32, 1, 0, false⟩]⟩,
   ⟨0x200006, 3, 2, 0xF5, 1, [(1, 65535)], false, some [24946], false, [⟨0, 1, 2, 0x10012018, 0x1000, 0, 0, 16, 1, 0, false⟩]⟩,
   ⟨0x200007, 14, 12, 0xF5, 1, [], false, some [], false, [⟨0, 1, 4, 0x10012010, 0x0, 0, 8, 8, 1, 0, false⟩, ⟨4, 1, 2, 0x10012014, 0x0, 0, 8, 8, 1, 0, false⟩, ⟨6, 1, 4, 0x10013010, 0x0, 0, 8, 8, 1, 0, false⟩, ⟨10, 1, 2, 0x10013014, 0x0, 0, 8, 8, 1, 0, false⟩]⟩,
   ⟨0x200008, 3, 4, 0xF5, 1, [], true, some [500], false, []⟩,
   ⟨0x200009, 3, 4, 0xF5, 1, [], true, some [2000], false, []⟩,
   ⟨0x20000A, 3, 6, 0xF5, 1, [(0, 60000)], false, some [250, 0, 0, 0, 0, 0], false, [⟨0, 1, 6, 0x10012024, 0x1000, 0, 0, 16, 1, 0, false⟩]⟩] ++
  [⟨0x20000B, 2, 6, 0xF5, 1, [(1, 8)], false, some [4], false, [⟨0, 1, 6, 0x10012000, 0x1000, 4, 0, 4, 1, 0, false⟩]⟩,
   ⟨0x20000C, 2, 6, 0xD5, 1, [(0, 15)], false, some [15], false, [⟨0, 1, 6, 0x10012000, 0x1000, 8, 0, 4, 1, 0, false⟩]⟩,
   ⟨0x20000D, 15, 6, 0x55, 0, [], false, none, false, [⟨0, 1, 6, 0x10012004, 0x1000, 0, 0, 32, 1, 0, false⟩]⟩,
   ⟨0x20000E, 4, 24, 0x55, 0, [], false, none, false, [⟨0, 4, 6, 0x10012028, 0x1000, 0, 0, 16, 1, 0, false⟩, ⟨1, 4, 6, 0x10012028, 0x1000, 16, 0, 16, 1, 0, false⟩, ⟨2, 4, 6, 0x1001202C, 0x1000, 0, 0, 16, 1, 0, false⟩, ⟨3, 4, 6, 0x1001202C, 0x1000, 16, 0, 16, 1, 0, false⟩]⟩,
   ⟨0x20000F, 4, 48, 0xF5, 1, [], true, some [0], false, [⟨0, 1, 8, 0x10012040, 0x4, 0, 0, 32, 1, 0, false⟩, ⟨8, 1, 8, 0x10013040, 0x4, 0, 0, 32, 1, 0, false⟩, ⟨16, 1, 8, 0x10014040, 0x4, 0, 0, 32, 1, 0, false⟩, ⟨24, 1, 8, 0x10015040, 0x4, 0, 0, 32, 1, 0, false⟩, ⟨32, 1, 8, 0x10016040, 0x4, 0, 0, 32, 1, 0, false⟩, ⟨40, 1, 8, 0x10017040, 0x4, 0, 0, 32, 1, 0, false⟩]⟩,
   ⟨0x200010, 2, 2, 0xF5, 1, [(0, 63)], false, some [0], false, [⟨0, 1, 2, 0x10012018, 0x1000, 16, 0, 6, 1, 0, false⟩]⟩,
   ⟨0x200011, 1, 2, 0xF5, 1, [(0, 1)], false, some [0], false, [⟨0, 1, 2, 0x10012000, 0x1000, 1, 0, 1, 1, 0, false⟩]⟩]

def params21 : List Param :=
  [⟨0x210001, 3, 1, 0xF5, 1, [(5, 3600)], false, some [60], false, []⟩,
   ⟨0x210002, 2, 1, 0x55, 0, [(0, 16)], false, none, false, []⟩,
   ⟨0x210003, 4, 16, 0x55, 0, [], false, none, false, []⟩,
   ⟨0x210004, 2, 16, 0x55, 0, [], false, none, false, []⟩,
   ⟨0x210005, 4, 1, 0x80, 0, [], false, some [0], false, []⟩,
   ⟨0x210010, 14, 32, 0x80, 1, [], false, none, false, []⟩,
   ⟨0x210011, 14, 32, 0x80, 1, [], false, none, false, []⟩,
   ⟨0x210012, 14, 32, 0x80, 1, [], false, none, false, []⟩,
   ⟨0x210013, 14, 32, 0x80, 1, [], false, none, false, []⟩,
   ⟨0x210014, 2, 1, 0xD5, 1, [(1, 255)], false, some [5], false, []⟩] ++
  [⟨0x210015, 3, 1, 0xD5, 1, [(1, 3600)], false, some [60], false, []⟩,
   ⟨0x210016, 15, 1, 0x55, 0, [], false, none, false, []⟩]

def params30 : List Param :=
  [⟨0x300001, 7, 48, 0xF5, 1, [], true, some [], false, [⟨0, 6, 8, 0x10018008, 0x1000, 0, 0, 5, 100, 0, false⟩, ⟨1, 6, 8, 0x10018008, 0x1000, 8, 0, 5, 100, 0, false⟩, ⟨2, 6, 8, 0x10018008, 0x1000, 16, 0, 5, 100, 0, false⟩, ⟨3, 6, 8, 0x1001800C, 0x1000, 0, 0, 8, 10, 0, false⟩, ⟨4, 6, 8, 0x1001800C, 0x1000, 8, 0, 8, 10, 0, false⟩, ⟨5, 6, 8, 0x1001800C, 0x1000, 16, 0, 8, 100, -5000, false⟩]⟩,
   ⟨0x300002, 7, 48, 0xF5, 1, [], true, some [], false, [⟨0, 6, 8, 0x10018010, 0x1000, 0, 0, 5, 200, 0, false⟩, ⟨1, 6, 8, 0x10018010, 0x1000, 8, 0, 5, 200, 0, false⟩, ⟨2, 6, 8, 0x10018010, 0x1000, 16, 0, 5, 200, 0, false⟩, ⟨3, 6, 8, 0x10018014, 0x1000, 0, 0, 8, 10, 0, false⟩, ⟨4, 6, 8, 0x10018014, 0x1000, 8, 0, 8, 10, 0, false⟩, ⟨5, 6, 8, 0x10018014, 0x1000, 16, 0, 8, 100, -5000, false⟩]⟩,
   ⟨0x300003, 7, 48, 0xF5, 1, [], true, some [], false, [⟨0, 6, 8, 0x10018018, 0x1000, 0, 0, 5, 200, 0, false⟩, ⟨1, 6, 8, 0x10018018, 0x1000, 8, 0, 5, 200, 0, false⟩, ⟨2, 6, 8, 0x10018018, 0x1000, 16, 0, 5, 200, 0, false⟩, ⟨3, 6, 8, 0x1001801C, 0x1000, 0, 0, 8, 10, 0, false⟩, ⟨4, 6, 8, 0x1001801C, 0x1000, 8, 0, 8, 10, 0, false⟩, ⟨5, 6, 8, 0x1001801C, 0x1000, 16, 0, 8, 100, -5000, false⟩]⟩,
   ⟨0x300004, 3, 24, 0xF5, 1, [], true, some [2000, 7000, 100], false, [⟨0, 3, 8, 0x10018020, 0x1000, 0, 0, 8, 10, 0, false⟩, ⟨1, 3, 8, 0x10018020, 0x1000, 8, 0, 8, 50, 0, false⟩, ⟨2, 3, 8, 0x10018020, 0x1000, 16, 0, 4, 10, 0, false⟩]⟩,
   ⟨0x300005, 1, 8, 0xF5, 1, [(0, 1)], false, some [0], false, [⟨0, 1, 8, 0x10018000, 0x1000, 0, 0, 1, 1, 0, false⟩]⟩,
   ⟨0x300006, 1, 8, 0xF5, 1, [(0, 1)], false, some [1], false, [⟨0, 1, 8, 0x10018000, 0x1000, 1, 0, 1, 1, 0, false⟩]⟩,
   ⟨0x300007, 2, 8, 0xF5, 1, [(0, 2)], false, some [1], false, [⟨0, 1, 8, 0x10018000, 0x1000, 2, 0, 2, 1, 0, false⟩]⟩,
   ⟨0x300008, 1, 8, 0xF5, 1, [(0, 1)], false, some [1], false, [⟨0, 1, 8, 0x10018000, 0x1000, 4, 0, 1, 1, 0, false⟩]⟩,
   ⟨0x300009, 4, 1, 0xF5, 1, [], true, some [6250], false, [⟨0, 1, 1, 0x10020004, 0x0, 0, 0, 18, 1, 0, false⟩]⟩,
   ⟨0x30000A, 3, 1, 0xF5, 1, [(50, 5000)], true, some [2000], false, [⟨0, 1, 1, 0x10020008, 0x0, 0, 0, 9, 10, 0, false⟩]⟩] ++
  [⟨0x30000B, 3, 1, 0xF5, 1, [(0, 2550)], true, some [100], false, [⟨0, 1, 1, 0x10020008, 0x0, 16, 0, 8, 10, 0, false⟩]⟩,
   ⟨0x30000C, 4, 5, 0xF5, 1, [], true, some [0], false, [⟨0, 1, 5, 0x10020020, 0x4, 0, 0, 32, 1, 0, false⟩]⟩,
   ⟨0x30000D, 2, 1, 0xF5, 1, [(0, 1)], false, some [0], false, [⟨0, 1, 1, 0x10020034, 0x0, 0, 0, 1, 1, 0, false⟩]⟩,
   ⟨0x30000E, 4, 4, 0xF5, 0, [(0, 65536)], false, some [32768, 32768, 32768, 0], false, [⟨0, 1, 1, 0x10020010, 0x0, 0, 0, 17, 1, 0, false⟩, ⟨1, 1, 1, 0x10020014, 0x0, 0, 0, 17, 1, 0, false⟩, ⟨2, 1, 1, 0x10020018, 0x0, 0, 0, 17, 1, 0, false⟩, ⟨3, 1, 1, 0x1002001C, 0x0, 0, 0, 17, 1, 0, false⟩]⟩,
   ⟨0x30000F, 15, 8, 0x55, 0, [], false, none, false, [⟨0, 1, 8, 0x10018004, 0x1000, 0, 0, 32, 1, 0, false⟩]⟩,
   ⟨0x300010, 3, 16, 0x55, 0, [], false, none, false, [⟨0, 2, 8, 0x10018024, 0x1000, 0, 0, 8, 10, 0, false⟩, ⟨1, 2, 8, 0x10018024, 0x1000, 8, 0, 8, 10, 0, false⟩]⟩,
   ⟨0x300011, 3, 16, 0x55, 0, [], false, none, false, [⟨0, 2, 8, 0x10018028, 0x1000, 0, 0, 16, 1, 0, false⟩, ⟨1, 2, 8, 0x10018028, 0x1000, 16, 0, 16, 1, 0, false⟩]⟩,
   ⟨0x300012, 4, 1, 0x55, 0, [], false, none, false, [⟨0, 1, 1, 0x1002000C, 0x0, 0, 0, 18, 1, 0, false⟩]⟩]

def params31 : List Param :=
  [⟨0x310001, 2, 4, 0xF5, 1, [(0, 1)], false, some [0, 0, 0, 1], false, [⟨0, 1, 1, 0x10021000, 0x0, 0, 0, 1, 1, 0, false⟩, ⟨1, 1, 1, 0x10021000, 0x0, 1, 0, 1, 1, 0, false⟩, ⟨2, 1, 1, 0x10021000, 0x0, 2, 0, 1, 1, 0, false⟩, ⟨3, 1, 1, 0x10021000, 0x0, 3, 0, 1, 1, 0, false⟩]⟩,
   ⟨0x310002, 3, 3, 0xF5, 1, [(0, 4095)], false, some [4095, 4000, 4095], false, [⟨0, 1, 1, 0x10021008, 0x0, 0, 0, 12, 1, 0, false⟩, ⟨1, 1, 1, 0x1002100C, 0x0, 0, 0, 12, 1, 0, false⟩, ⟨2, 1, 1, 0x10021010, 0x0, 0, 0, 12, 1, 0, false⟩]⟩,
   ⟨0x310003, 2, 1, 0xF5, 1, [(0, 31)], false, some [10], false, [⟨0, 1, 1, 0x10021000, 0x0, 8, 0, 5, 1, 0, false⟩]⟩,
   ⟨0x310004, 8, 2, 0xF5, 1, [(-8388608, 8388608)], false, some [0, 0], false, [⟨0, 1, 1, 0x10021014, 0x0, 0, 0, 24, 1, 0, false⟩, ⟨1, 1, 1, 0x10021018, 0x0, 0, 0, 24, 1, 0, false⟩]⟩,
   ⟨0x310005, 10, 1, 0xF5, 1, [(0, 2139095039)], false, some [0], false, [⟨0, 1, 1, 0x1002101C, 0x0, 0, 0, 32, 1, 0, false⟩]⟩,
   ⟨0x310006, 4, 2, 0xF5, 1, [], true, some [0, 0], false, [⟨0, 1, 1, 0x10021020, 0x0, 0, 0, 17, 1, 0, false⟩, ⟨1, 1, 1, 0x10021024, 0x4, 0, 0, 32, 1, 0, false⟩]⟩,
   ⟨0x310007, 4, 3, 0xF5, 1, [], false, some [0, 0, 0], false, [⟨0, 1, 1, 0x10021028, 0x0, 0, 0, 32, 1, 0, false⟩, ⟨1, 1, 1, 0x1002102C, 0x0, 0, 0, 32, 1, 0, false⟩, ⟨2, 1, 1, 0x10021030, 0x0, 0, 0, 32, 1, 0, false⟩]⟩,
   ⟨0x310008, 3, 4, 0xF5, 1, [], true, some [4095, 4095, 32, 10], false, [⟨0, 1, 1, 0x10021034, 0x0, 0, 0, 12, 1, 0, false⟩, ⟨1, 1, 1, 0x10021034, 0x0, 16, 0, 12, 1, 0, false⟩, ⟨2, 1, 1, 0x10021038, 0x0, 0, 0, 8, 1, 0, false⟩, ⟨3, 1, 1, 0x10021038, 0x0, 8, 0, 8, 1, 0, false⟩]⟩,
   ⟨0x310009, 4, 1, 0xD5, 0, [], false, none, false, [⟨0, 1, 1, 0x1002103C, 0x0, 0, 0, 32, 1, 0, false⟩]⟩,
   ⟨0x31000A, 10, 1, 0x55, 0, [], false, none, false, []⟩] ++
  [⟨0x31000B, 15, 1, 0x55, 0, [], false, none, false, [⟨0, 1, 1, 0x10021004, 0x4, 0, 0, 32, 1, 0, false⟩]⟩,
   ⟨0x31000C, 2, 1, 0xA0, 0, [], true, some [0], false, []⟩,
   ⟨0x31000D, 15, 1, 0x55, 0, [], false, none, false, [⟨0, 1, 1, 0x10021048, 0x4, 0, 0, 32, 1, 0, false⟩]⟩,
   ⟨0x31000E, 15, 1, 0x55, 0, [], false, none, false, [⟨0, 1, 1, 0x1002104C, 0x0, 0, 0, 32, 1, 0, false⟩]⟩,
   ⟨0x31000F, 2, 1, 0xF5, 1, [(1, 31)], false, some [10], false, [⟨0, 1, 1, 0x10021050, 0x0, 0, 0, 5, 1, 0, false⟩]⟩,
   ⟨0x310010, 3, 2, 0x55, 0, [], false, none, false, [⟨0, 1, 1, 0x10021054, 0x0, 0, 0, 16, 1, 0, false⟩, ⟨1, 1, 1, 0x10021054, 0x0, 16, 0, 16, 1, 0, false⟩]⟩]

def params32 : List Param :=
  [⟨0x320001, 14, 16, 0x55, 0, [], false, none, false, [⟨0, 1, 4, 0x1002B00C, 0x0, 0, 8, 8, 1, 0, false⟩, ⟨4, 1, 4, 0x1002B010, 0x0, 0, 8, 8, 1, 0, false⟩, ⟨8, 1, 4, 0x1002B014, 0x0, 0, 8, 8, 1, 0, false⟩, ⟨12, 1, 4, 0x1002B018, 0x0, 0, 8, 8, 1, 0, false⟩]⟩,
   ⟨0x320002, 3, 3, 0x55, 0, [], false, none, false, []⟩,
   ⟨0x320003, 3, 2, 0x55, 0, [], false, none, false, []⟩,
   ⟨0x320004, 7, 1, 0x55, 0, [], false, none, false, []⟩,
   ⟨0x320005, 11, 1, 0x55, 0, [], false, none, false, []⟩,
   ⟨0x320006, 11, 6, 0x55, 0, [], false, none, false, []⟩,
   ⟨0x320007, 10, 6, 0x55, 0, [], false, none, false, [⟨0, 1, 6, 0x10022040, 0x4, 0, 0, 32, 1, 0, false⟩]⟩,
   ⟨0x320008, 15, 1, 0x55, 0, [], false, none, false, [⟨0, 1, 1, 0x1002B004, 0x4, 0, 0, 32, 1, 0, false⟩]⟩,
   ⟨0x320009, 15, 1, 0x55, 0, [], false, none, false, [⟨0, 1, 1, 0x10022004, 0x4, 0, 0, 32, 1, 0, false⟩]⟩,
   ⟨0x32000A, 3, 1, 0xF5, 1, [(60, 3600)], false, some [600], false, [⟨0, 1, 1, 0x10022000, 0x0, 16, 0, 16, 1, 0, false⟩]⟩] ++
  [⟨0x32000B, 1, 1, 0xD5, 1, [(0, 1)], false, some [0], false, []⟩,
   ⟨0x32000C, 1, 1, 0xD5, 1, [(0, 1)], false, some [0], false, []⟩,
   ⟨0x32000D, 11, 1, 0x80, 0, [(0, 4607182418800017408)], false, some [0], false, []⟩,
   ⟨0x32000E, 10, 2, 0xF5, 1, [(0, 2139095039)], false, some [0], false, [⟨0, 1, 1, 0x10022058, 0x0, 0, 0, 32, 1, 0, false⟩, ⟨1, 1, 1, 0x1002205C, 0x0, 0, 0, 32, 1, 0, false⟩]⟩,
   ⟨0x32000F, 10, 4, 0xF5, 1, [], false, some [0], false, [⟨0, 1, 4, 0x10022060, 0x4, 0, 0, 32, 1, 0, false⟩]⟩,
   ⟨0x320010, 2, 1, 0xF5, 1, [(0, 63)], false, some [48], false, [⟨0, 1, 1, 0x10022070, 0x0, 0, 0, 6, 1, 0, false⟩]⟩,
   ⟨0x320011, 2, 1, 0xF5, 1, [(0, 255)], false, some [50], false, [⟨0, 1, 1, 0x10022000, 0x0, 8, 0, 8, 1, 0, false⟩]⟩,
   ⟨0x320012, 14, 72, 0x55, 1, [], false, none, false, []⟩,
   ⟨0x320013, 1, 1, 0xA0, 0, [(0, 1)], false, some [0], false, [⟨0, 1, 1, 0x1002B008, 0x0, 1, 0, 1, 1, 0, false⟩]⟩,
   ⟨0x320014, 4, 3, 0x55, 0, [], false, none, false, []⟩]

def params40 : List Param :=
  [⟨0x400001, 1, 16, 0xF5, 1, [(0, 1)], false, some [0], false, [⟨0, 1, 16, 0x10023040, 0x10, 0, 0, 1, 1, 0, false⟩]⟩,
   ⟨0x400002, 2, 16, 0xF5, 1, [(0, 2)], false, some [0], false, [⟨0, 1, 16, 0x10023040, 0x10, 1, 0, 2, 1, 0, false⟩]⟩,
   ⟨0x400003, 2, 16, 0xF5, 1, [(0, 4)], false, some [0], false, [⟨0, 1, 16, 0x10023040, 0x10, 4, 0, 3, 1, 0, false⟩]⟩,
   ⟨0x400004, 3, 16, 0xF5, 1, [(16, 1024)], false, some [256], false, [⟨0, 1, 16, 0x10023040, 0x10, 16, 0, 11, 1, 0, false⟩]⟩,
   ⟨0x400005, 3, 16, 0xF5, 1, [], true, some [0], false, [⟨0, 1, 16, 0x10023044, 0x10, 0, 0, 10, 1, 0, false⟩]⟩,
   ⟨0x400006, 8, 16, 0xF5, 1, [(-8388607, 8388607)], false, some [0], false, [⟨0, 1, 16, 0x10023048, 0x10, 0, 0, 24, 1, 0, false⟩]⟩,
   ⟨0x400007, 1, 16, 0xF5, 1, [(0, 1)], false, some [0], false, [⟨0, 1, 16, 0x10023040, 0x10, 8, 0, 1, 1, 0, false⟩]⟩,
   ⟨0x400008, 3, 2, 0xF5, 1, [], true, some [0, 0], false, [⟨0, 1, 1, 0x10023000, 0x0, 0, 0, 1, 1, 0, false⟩, ⟨1, 1, 1, 0x10023000, 0x0, 4, 0, 12, 1, 0, false⟩]⟩,
   ⟨0x400009, 4, 16, 0x55, 0, [], false, none, false, [⟨0, 1, 16, 0x1002304C, 0x10, 0, 0, 32, 1, 0, false⟩]⟩,
   ⟨0x40000A, 3, 3, 0xF5, 1, [(0, 4095)], false, some [4095], false, [⟨0, 1, 3, 0x10023010, 0x4, 0, 0, 12, 1, 0, false⟩]⟩] ++
  [⟨0x40000B, 1, 3, 0xF5, 1, [(0, 1)], false, some [0], false, [⟨0, 1, 3, 0x10023010, 0x4, 15, 0, 1, 1, 0, false⟩]⟩,
   ⟨0x40000C, 2, 2, 0xF5, 1, [(0, 1), (0, 31)], false, some [1, 5], false, [⟨0, 1, 1, 0x10023008, 0x0, 0, 0, 1, 1, 0, false⟩, ⟨1, 1, 1, 0x10023008, 0x0, 4, 0, 5, 1, 0, false⟩]⟩,
   ⟨0x40000D, 15, 1, 0x55, 0, [], false, none, false, [⟨0, 1, 1, 0x1002300C, 0x4, 0, 0, 32, 1, 0, false⟩]⟩,
   ⟨0x40000E, 15, 1, 0xA8, 0, [(0, 7)], false, some [0], false, []⟩,
   ⟨0x40000F, 3, 48, 0x55, 0, [], false, none, false, [⟨0, 3, 16, 0x10023280, 0x4, 0, 0, 16, 1, 0, false⟩, ⟨1, 3, 16, 0x10023280, 0x4, 16, 0, 16, 1, 0, false⟩, ⟨2, 3, 16, 0x10023240, 0x4, 16, 0, 16, 1, 0, false⟩]⟩]

def params41 : List Param :=
  [⟨0x410001, 2, 8, 0xF5, 1, [(0, 3)], false, some [0], false, [⟨0, 1, 8, 0x10024000, 0x10, 0, 0, 2, 1, 0, false⟩]⟩,
   ⟨0x410002, 3, 8, 0xF5, 1, [(0, 4095)], false, some [0], false, [⟨0, 1, 8, 0x10024000, 0x10, 16, 0, 12, 1, 0, false⟩]⟩,
   ⟨0x410003, 3, 8, 0xFD, 0, [], true, some [0], false, [⟨0, 1, 8, 0x10024004, 0x10, 0, 0, 16, 1, 0, false⟩]⟩,
   ⟨0x410004, 3, 8, 0xF5, 1, [], true, some [0], false, [⟨0, 1, 8, 0x10024008, 0x10, 0, 0, 16, 1, 0, false⟩]⟩,
   ⟨0x410005, 3, 8, 0x55, 0, [], false, none, false, [⟨0, 1, 8, 0x1002400C, 0x10, 0, 0, 16, 1, 0, false⟩]⟩,
   ⟨0x410006, 3, 16, 0xF5, 1, [], true, some [0, 0], false, [⟨0, 1, 8, 0x10025000, 0x20, 0, 0, 15, 1, 0, false⟩, ⟨8, 1, 8, 0x10025004, 0x20, 0, 0, 16, 1, 0, false⟩]⟩,
   ⟨0x410007, 4, 8, 0xF5, 1, [(50, 16777215)], false, some [200], false, [⟨0, 1, 8, 0x10025008, 0x20, 0, 0, 24, 1, 0, false⟩]⟩,
   ⟨0x410008, 2, 24, 0xF5, 1, [], true, some [0], false, [⟨0, 1, 8, 0x1002500C, 0x20, 0, 0, 2, 1, 0, false⟩, ⟨8, 1, 8, 0x1002500C, 0x20, 2, 0, 1, 1, 0, false⟩, ⟨16, 1, 8, 0x1002500C, 0x20, 3, 0, 1, 1, 0, false⟩]⟩,
   ⟨0x410009, 3, 8, 0xF5, 1, [(0, 287)], false, some [0], false, [⟨0, 1, 8, 0x1002500C, 0x20, 16, 0, 9, 1, 0, false⟩]⟩,
   ⟨0x41000A, 3, 8, 0xF5, 1, [(0, 65535)], false, some [1], false, [⟨0, 1, 8, 0x10025010, 0x20, 0, 0, 16, 1, 0, false⟩]⟩] ++
  [⟨0x41000B, 1, 8, 0xA8, 0, [(0, 1)], false, some [0], true, [⟨0, 1, 8, 0x1002500C, 0x20, 4, 0, 1, 1, 0, false⟩]⟩,
   ⟨0x41000C, 1, 8, 0xA8, 0, [(0, 1)], false, some [0], true, [⟨0, 1, 8, 0x1002500C, 0x20, 5, 0, 1, 1, 0, false⟩]⟩,
   ⟨0x41000D, 15, 8, 0x55, 0, [], false, none, false, [⟨0, 1, 8, 0x10025014, 0x20, 0, 0, 32, 1, 0, false⟩]⟩,
   ⟨0x410010, 14, 1, 0xF5, 0, [], false, none, false, []⟩]

def params42 : List Param :=
  [⟨0x420001, 2, 32, 0xF5, 1, [(0, 1)], false, some [0], false, [⟨0, 1, 32, 0x10026010, 0x0, 0, 1, 1, 1, 0, false⟩]⟩,
   ⟨0x420002, 3, 32, 0xF5, 1, [(1, 65535)], false, some [1000], false, [⟨0, 1, 32, 0x10026100, 0x4, 0, 0, 16, 1, 0, false⟩]⟩,
   ⟨0x420003, 1, 32, 0xF5, 1, [(0, 1)], false, some [0], false, [⟨0, 1, 32, 0x10026014, 0x0, 0, 1, 1, 1, 0, false⟩]⟩,
   ⟨0x420004, 2, 32, 0xF5, 1, [(0, 3)], false, some [3], false, [⟨0, 1, 16, 0x10026018, 0x0, 0, 2, 2, 1, 0, false⟩, ⟨16, 1, 16, 0x1002601C, 0x0, 0, 2, 2, 1, 0, false⟩]⟩,
   ⟨0x420005, 3, 2, 0xF5, 1, [], true, some [0, 0], false, [⟨0, 1, 1, 0x10026020, 0x0, 0, 0, 1, 1, 0, false⟩, ⟨1, 1, 1, 0x10026020, 0x0, 16, 0, 11, 1, 0, false⟩]⟩,
   ⟨0x420006, 15, 1, 0x55, 0, [], false, none, false, [⟨0, 1, 1, 0x10026008, 0x0, 0, 0, 32, 1, 0, false⟩]⟩,
   ⟨0x420007, 3, 32, 0x55, 0, [], false, none, false, [⟨0, 2, 16, 0x10026180, 0x4, 0, 0, 16, 1, 0, false⟩, ⟨1, 2, 16, 0x10026180, 0x4, 16, 0, 16, 1, 0, false⟩]⟩,
   ⟨0x420008, 2, 16, 0xF5, 1, [(0, 2)], false, some [0], false, [⟨0, 1, 16, 0x10026200, 0x4, 16, 0, 2, 1, 0, false⟩]⟩,
   ⟨0x420009, 3, 16, 0xF5, 1, [(0, 16383)], false, some [0], false, [⟨0, 1, 16, 0x10026200, 0x4, 0, 0, 14, 1, 0, false⟩]⟩,
   ⟨0x42000A, 15, 1, 0xFD, 0, [(0, 65535)], false, some [0], false, [⟨0, 1, 1, 0x10026024, 0x0, 0, 0, 16, 1, 0, false⟩]⟩] ++
  [⟨0x42000B, 15, 1, 0xF5, 1, [(0, 65535)], false, some [0], false, [⟨0, 1, 1, 0x10026028, 0x0, 0, 0, 16, 1, 0, false⟩]⟩,
   ⟨0x42000C, 15, 1, 0x55, 0, [], false, none, false, [⟨0, 1, 1, 0x1002602C, 0x4, 0, 0, 32, 1, 0, false⟩]⟩,
   ⟨0x42000D, 15, 1, 0x55, 0, [], false, none, false, [⟨0, 1, 1, 0x10026004, 0x4, 0, 0, 32, 1, 0, false⟩]⟩,
   ⟨0x42000E, 1, 1, 0xA8, 0, [(0, 1)], false, some [0], false, [⟨0, 1, 1, 0x10026000, 0x0, 0, 0, 1, 1, 0, false⟩]⟩,
   ⟨0x42000F, 2, 1, 0xF5, 1, [(0, 255)], false, some [0], false, [⟨0, 1, 1, 0x10026000, 0x0, 8, 0, 8, 1, 0, false⟩]⟩,
   ⟨0x420010, 4, 4, 0xF5, 0, [], true, some [0, 20, 0, 0], false, [⟨0, 1, 1, 0x10026030, 0x0, 2, 0, 1, 1, 0, false⟩, ⟨1, 1, 1, 0x10026030, 0x0, 8, 0, 8, 1, 0, false⟩, ⟨2, 1, 1, 0x10026034, 0x0, 0, 0, 16, 1, 0, false⟩, ⟨3, 1, 1, 0x10026038, 0x0, 0, 0, 32, 1, 0, false⟩]⟩,
   ⟨0x420011, 2, 1, 0xA0, 0, [(1, 2)], false, some [0], false, []⟩,
   ⟨0x420012, 4, 4, 0x55, 0, [], false, none, false, [⟨0, 1, 1, 0x10026030, 0x0, 3, 0, 1, 1, 0, false⟩, ⟨1, 1, 1, 0x1002603C, 0x0, 0, 0, 16, 1, 0, false⟩, ⟨2, 1, 1, 0x10026040, 0x0, 0, 0, 32, 1, 0, false⟩, ⟨3, 1, 1, 0x10026030, 0x0, 16, 0, 2, 1, 0, false⟩]⟩]

def params50 : List Param :=
  [⟨0x500001, 1, 3, 0xD5, 1, [(0, 1)], false, some [0], false, [⟨0, 1, 1, 0x1000F000, 0x0, 0, 0, 1, 1, 0, false⟩, ⟨1, 1, 1, 0x1000F000, 0x0, 1, 0, 1, 1, 0, false⟩, ⟨2, 1, 1, 0x1000F000, 0x0, 2, 0, 1, 1, 0, false⟩]⟩,
   ⟨0x500002, 1, 2, 0xF5, 1, [(0, 1)], false, some [0, 0], false, [⟨0, 1, 1, 0x1000F000, 0x0, 8, 0, 1, 1, 0, false⟩, ⟨1, 1, 1, 0x1000F000, 0x0, 9, 0, 1, 1, 0, false⟩]⟩,
   ⟨0x500003, 4, 32, 0xF5, 1, [], true, some [0], false, [⟨0, 1, 32, 0x1000F040, 0x4, 0, 0, 32, 1, 0, false⟩]⟩,
   ⟨0x500004, 15, 1, 0x55, 0, [], false, none, false, [⟨0, 1, 1, 0x1000F020, 0x4, 0, 0, 32, 1, 0, false⟩]⟩,
   ⟨0x500005, 1, 1, 0xA8, 0, [(0, 1)], false, some [0], false, [⟨0, 1, 1, 0x1000F000, 0x0, 16, 0, 1, 1, 0, false⟩]⟩,
   ⟨0x500006, 3, 64, 0xF5, 0, [], true, none, true, []⟩,
   ⟨0x500007, 5, 32, 0xF5, 0, [], false, none, true, []⟩,
   ⟨0x500008, 5, 32, 0xF5, 0, [], false, none, true, []⟩,
   ⟨0x500009, 4, 64, 0x55, 0, [], false, none, false, []⟩,
   ⟨0x50000A, 2, 1, 0xA8, 0, [(0, 63)], false, some [0], false, []⟩] ++
  [⟨0x50000B, 4, 6, 0x55, 0, [], false, none, false, [⟨0, 1, 6, 0x1000F1C0, 0x4, 0, 0, 32, 1, 0, false⟩]⟩,
   ⟨0x50000C, 15, 1, 0x55, 0, [], false, none, false, [⟨0, 1, 1, 0x1000F004, 0x4, 0, 0, 32, 1, 0, false⟩]⟩,
   ⟨0x50000D, 4, 3, 0x55, 0, [], false, none, false, [⟨0, 1, 1, 0x1000F004, 0x0, 8, 0, 7, 1, 0, false⟩, ⟨1, 1, 1, 0x1000F008, 0x0, 0, 0, 32, 1, 0, false⟩, ⟨2, 1, 1, 0x1000F00C, 0x0, 0, 0, 32, 1, 0, false⟩]⟩,
   ⟨0x50000E, 14, 10, 0x80, 1, [], true, none, false, []⟩]

def params51 : List Param :=
  [⟨0x510001, 2, 1, 0xF5, 1, [(0, 4)], false, some [0], false, [⟨0, 1, 1, 0x10010000, 0x0, 4, 0, 3, 1, 0, false⟩]⟩,
   ⟨0x510002, 1, 1, 0xF5, 1, [(0, 1)], false, some [1], false, [⟨0, 1, 1, 0x10010000, 0x0, 1, 0, 1, 1, 0, false⟩]⟩,
   ⟨0x510003, 3, 1, 0xF5, 1, [(1, 256)], false, some [128], false, [⟨0, 1, 1, 0x10010014, 0x0, 0, 0, 9, 1, 0, false⟩]⟩,
   ⟨0x510004, 4, 4, 0x55, 0, [], false, none, false, [⟨0, 1, 1, 0x1001000C, 0x0, 0, 0, 14, 1, 0, false⟩, ⟨1, 1, 1, 0x1001000C, 0x0, 16, 0, 9, 1, 0, false⟩, ⟨2, 1, 1, 0x10010004, 0x0, 16, 0, 9, 1, 0, false⟩, ⟨3, 1, 1, 0x10010010, 0x0, 0, 0, 16, 1, 0, false⟩]⟩,
   ⟨0x510005, 15, 1, 0x55, 0, [], false, none, false, [⟨0, 1, 1, 0x10010004, 0x4, 0, 0, 32, 1, 0, false⟩]⟩,
   ⟨0x510006, 14, 128, 0x55, 0, [], false, none, false, []⟩,
   ⟨0x510007, 1, 1, 0x80, 0, [(0, 1)], false, some [0], false, [⟨0, 1, 1, 0x10010000, 0x0, 8, 0, 1, 1, 0, false⟩]⟩,
   ⟨0x510008, 3, 1, 0xF5, 0, [], false, some [0], false, []⟩,
   ⟨0x510009, 13, 1, 0x55, 0, [], false, none, false, []⟩,
   ⟨0x51000A, 1, 1, 0x80, 0, [(0, 1)], false, some [0], false, [⟨0, 1, 1, 0x10010000, 0x0, 9, 0, 1, 1, 0, false⟩]⟩] ++
  [⟨0x510010, 14, 1, 0xD5, 0, [], false, none, false, []⟩]

def params60 : List Param :=
  [⟨0x600001, 1, 1, 0xD5, 1, [(0, 1)], false, some [0], false, [⟨0, 1, 1, 0x10011000, 0x0, 1, 0, 1, 1, 0, false⟩]⟩,
   ⟨0x600002, 2, 1, 0xD5, 1, [(0, 1)], false, some [0], false, [⟨0, 1, 1, 0x10011000, 0x0, 2, 0, 1, 1, 0, false⟩]⟩,
   ⟨0x600003, 2, 1, 0x55, 0, [(0, 3)], false, none, false, [⟨0, 1, 1, 0x10011004, 0x0, 0, 0, 2, 1, 0, false⟩]⟩,
   ⟨0x600004, 15, 1, 0x55, 0, [], false, none, false, [⟨0, 1, 1, 0x10011004, 0x4, 0, 0, 32, 1, 0, false⟩]⟩,
   ⟨0x600005, 2, 1, 0xF5, 1, [(1, 8)], false, some [2], false, [⟨0, 1, 1, 0x10011000, 0x0, 4, 0, 4, 1, 0, false⟩]⟩,
   ⟨0x600006, 2, 1, 0xF5, 1, [(1, 255)], false, some [20], false, [⟨0, 1, 1, 0x10011000, 0x0, 8, 0, 8, 1, 0, false⟩]⟩,
   ⟨0x600007, 1, 1, 0xF5, 1, [(0, 1)], false, some [1], false, [⟨0, 1, 1, 0x10011000, 0x0, 3, 0, 1, 1, 0, false⟩]⟩,
   ⟨0x600008, 2, 4, 0xF5, 1, [], true, some [1, 4, 8, 8], false, [⟨0, 1, 1, 0x10011018, 0x0, 0, 0, 4, 1, 0, false⟩, ⟨1, 1, 1, 0x10011018, 0x0, 8, 0, 6, 1, 0, false⟩, ⟨2, 1, 1, 0x10011018, 0x0, 16, 0, 8, 1, 0, false⟩, ⟨3, 1, 1, 0x10011018, 0x0, 24, 0, 8, 1, 0, false⟩]⟩,
   ⟨0x600009, 3, 2, 0xF5, 1, [], true, some [4000, 10], false, [⟨0, 1, 1, 0x1001101C, 0x0, 0, 0, 16, 1, 0, false⟩, ⟨1, 1, 1, 0x1001101C, 0x0, 16, 0, 16, 1, 0, false⟩]⟩,
   ⟨0x60000A, 3, 1, 0xF5, 1, [], true, some [4000], false, [⟨0, 1, 1, 0x10011024, 0x0, 0, 0, 16, 1, 0, false⟩]⟩] ++
  [⟨0x60000B, 1, 1, 0xF5, 1, [(0, 1)], false, some [1], false, [⟨0, 1, 1, 0x10011024, 0x0, 16, 0, 1, 1, 0, false⟩]⟩,
   ⟨0x60000C, 4, 16, 0xF5, 1, [], true, some [0], false, [⟨0, 1, 16, 0x10011040, 0x4, 0, 0, 32, 1, 0, false⟩]⟩,
   ⟨0x60000D, 2, 1, 0xF5, 1, [(1, 255)], false, some [10], false, [⟨0, 1, 1, 0x10011034, 0x0, 0, 0, 8, 1, 0, false⟩]⟩,
   ⟨0x60000E, 4, 5, 0x55, 0, [], false, none, false, [⟨0, 1, 1, 0x1001102C, 0x0, 0, 0, 16, 1, 0, false⟩, ⟨1, 1, 1, 0x1001102C, 0x0, 16, 0, 16, 1, 0, false⟩, ⟨2, 1, 1, 0x10011030, 0x0, 0, 0, 16, 1, 0, false⟩, ⟨3, 1, 1, 0x10011028, 0x0, 0, 0, 16, 1, 0, false⟩, ⟨4, 1, 1, 0x10011028, 0x0, 16, 0, 16, 1, 0, false⟩]⟩,
   ⟨0x60000F, 2, 1, 0x55, 0, [], false, none, false, [⟨0, 1, 1, 0x10011004, 0x0, 16, 0, 8, 1, 0, false⟩]⟩,
   ⟨0x600010, 1, 1, 0xF0, 0, [(0, 1)], false, some [0], true, [⟨0, 1, 1, 0x10011008, 0x0, 0, 0, 1, 1, 0, false⟩]⟩,
   ⟨0x600011, 5, 1, 0xF0, 0, [], true, some [0], true, []⟩,
   ⟨0x600012, 1, 1, 0xF0, 0, [(0, 1)], false, some [0], true, [⟨0, 1, 1, 0x10011008, 0x0, 1, 0, 1, 1, 0, false⟩]⟩,
   ⟨0x600013, 4, 3, 0x55, 0, [], false, none, false, [⟨0, 1, 1, 0x10011004, 0x0, 6, 0, 3, 1, 0, false⟩, ⟨1, 1, 1, 0x10011020, 0x0, 0, 0, 8, 1, 0, false⟩, ⟨2, 1, 1, 0x10011020, 0x0, 8, 0, 16, 1, 0, false⟩]⟩]

def params70 : List Param :=
  [⟨0x700001, 14, 1, 0x80, 0, [], false, none, false, []⟩,
   ⟨0x700002, 4, 8, 0x55, 0, [], false, none, false, []⟩,
   ⟨0x700003, 2, 5, 0x55, 0, [], false, none, false, []⟩,
   ⟨0x700004, 2, 1, 0x55, 0, [(0, 3)], false, none, false, []⟩,
   ⟨0x700005, 5, 1, 0x55, 0, [], false, none, false, []⟩,
   ⟨0x700006, 15, 8, 0x55, 1, [], false, none, false, []⟩,
   ⟨0x700007, 15, 10, 0x55, 0, [], false, none, false, []⟩,
   ⟨0x700008, 3, 1, 0xD5, 1, [(0, 65535)], false, some [600], false, []⟩,
   ⟨0x700009, 2, 1, 0xD5, 1, [(1, 8)], false, some [3], false, []⟩,
   ⟨0x700010, 14, 1, 0xF0, 0, [], false, none, false, []⟩] ++
  [⟨0x700011, 14, 4, 0xA0, 0, [], false, none, false, []⟩]

def params71 : List Param :=
  [⟨0x710001, 2, 16, 0xF5, 1, [], true, some [1, 5, 1, 1, 1, 1, 1, 1, 1, 1, 3, 1, 1, 1, 1, 1], false, []⟩,
   ⟨0x710002, 15, 1, 0xA8, 0, [(0, 65535)], false, some [0], false, []⟩,
   ⟨0x710003, 2, 1, 0xD5, 1, [(0, 2)], false, some [0], false, [⟨0, 1, 1, 0x1000C000, 0x0, 0, 0, 2, 1, 0, false⟩]⟩,
   ⟨0x710004, 1, 1, 0xF5, 1, [(0, 1)], false, some [0], false, [⟨0, 1, 1, 0x1000C000, 0x0, 4, 0, 1, 1, 0, false⟩]⟩,
   ⟨0x710005, 2, 1, 0xF5, 1, [(1, 255)], false, some [10], false, [⟨0, 1, 1, 0x1000C000, 0x0, 8, 0, 8, 1, 0, false⟩]⟩,
   ⟨0x710006, 2, 1, 0xF5, 1, [(1, 255)], false, some [192], false, [⟨0, 1, 1, 0x1000C00C, 0x0, 0, 0, 8, 1, 0, false⟩]⟩,
   ⟨0x710007, 2, 1, 0xF5, 1, [(1, 7)], false, some [2], false, [⟨0, 1, 1, 0x1000C00C, 0x0, 8, 0, 3, 1, 0, false⟩]⟩,
   ⟨0x710008, 2, 1, 0xF5, 1, [(0, 255)], false, some [192], false, [⟨0, 1, 1, 0x1000C00C, 0x0, 16, 0, 8, 1, 0, false⟩]⟩,
   ⟨0x710009, 3, 1, 0xD5, 1, [(1, 65535)], false, some [100], false, [⟨0, 1, 1, 0x1000C010, 0x0, 0, 0, 16, 1, 0, false⟩]⟩,
   ⟨0x71000A, 1, 4, 0xF5, 1, [(0, 1)], false, some [0], false, [⟨0, 1, 4, 0x1000C044, 0x20, 0, 0, 1, 1, 0, false⟩]⟩] ++
  [⟨0x71000B, 2, 4, 0xF5, 1, [(0, 15)], false, some [0], false, [⟨0, 1, 4, 0x1000C044, 0x20, 4, 0, 4, 1, 0, false⟩]⟩,
   ⟨0x71000C, 3, 4, 0xF5, 1, [(1, 1000)], false, some [10], false, [⟨0, 1, 4, 0x1000C044, 0x20, 8, 0, 10, 1, 0, false⟩]⟩,
   ⟨0x71000D, 1, 2, 0xF5, 1, [], true, some [0], false, [⟨0, 1, 1, 0x1000C000, 0x0, 2, 0, 1, 1, 0, false⟩, ⟨1, 1, 1, 0x1000C000, 0x0, 3, 0, 1, 1, 0, false⟩]⟩,
   ⟨0x71000E, 2, 1, 0xA0, 0, [(0, 7)], true, some [0], false, []⟩,
   ⟨0x71000F, 2, 3, 0xF1, 0, [(0, 1)], false, some [0], false, []⟩]

/-- Every parameter but the group headers. -/
def params : List Param :=
  params00 ++ params01 ++ params10 ++ params11 ++ params20 ++ params21 ++ params30 ++ params31 ++ params32 ++ params40 ++ params41 ++ params42 ++ params50 ++ params51 ++ params60 ++ params70 ++ params71

/-- The groups present beside the user groups (R336); 0xF0 answers status 0x02. -/
def devGroups : List Nat := [0x00, 0x01, 0x10, 0x11, 0x20, 0x21, 0x30, 0x31, 0x32, 0x40, 0x41, 0x42, 0x50, 0x51, 0x60, 0x70, 0x71]

/-- Number of items of a group with its header, and the highest (R322). -/
def groupItems (l : List Nat) : Nat × Nat := (l.length + 1, l.foldl max 0)

def groupParams (g : Nat) : List Param := params.filter fun p => p.num / 65536 == g

end Sys2Proof.Machine
end

