-- ==== Sys2Proof/Machine/Msg.lean ====
section
/-! DEFINITION. Machine/Msg.lean: messages of a session: their form, the checks of R364, sequences, replies, the close of a session (14, R362-R373). -/

namespace Sys2Proof.Machine

/-- A message taken apart (R362). -/
structure Msg where
  udp : Nat
  svc : Nat
  flags : Nat
  sid : Nat
  seq : Nat
  body : List Byte
  /-- header and body, which the trailer covers, and the trailer -/
  covered : List Byte
  trail : List Byte
  deriving DecidableEq, Repr

/-- The header (R362). -/
def msgHeader (svc flags sid seq len : Nat) : List Byte :=
  [1#8, BitVec.ofNat 8 svc] ++ leBytes 2 flags ++ leBytes 4 sid ++ leBytes 4 seq ++ leBytes 2 len ++ leBytes 2 0

/-- Check 0x06 of R364: version, reserved bits, length. -/
def parseMsg (udp : Nat) (m : List Byte) : Option Msg :=
  let n := leAt m 12 2
  let f := leAt m 2 2
  if 32 ≤ m.length ∧ leAt m 0 1 = 1 ∧ f < 32 ∧ leAt m 14 2 = 0 ∧ n ≤ 1024 ∧ m.length = 32 + n then
    some { udp := udp, svc := leAt m 1 1, flags := f, sid := leAt m 4 4, seq := leAt m 8 4, body := slice m 16 n, covered := m.take (16 + n),
           trail := m.drop (16 + n) }
  else none

def Msg.isReply (m : Msg) : Bool := bit m.flags 0
def Msg.code (m : Msg) : Nat := leAt m.body 0 2

def State.upSess (i : Nat) (f : Sess → Sess) (s : State) : State :=
  match Store.find i s.sess with
  | some x => { s with sess := Store.put i (f x) s.sess }
  | none => s

/-- Close a session (R371): its maps, subscriptions and transfer end with it, and no reply goes to it; the end of the last debug session (25, R594). -/
def State.sessClose (i : Nat) (s : State) : State :=
  let mon := ((Store.find i s.sess).map Sess.mon).getD false
  let s := { s with sess := Store.del i s.sess, crypto := { s.crypto with keys := Store.del (4 + i) s.crypto.keys } }
  if mon then s.debugEnd else s

/-- Send a message in a session with its next sequence (R365); one that finds no room is discarded and uses none. -/
def State.sessPut (i svc flags udp : Nat) (body : List Byte) (tok : Bool) (s : State) : State × Bool :=
  match Store.find i s.sess with
  | none => (s, false)
  | some x =>
    let m := msgHeader svc (flags + 2 * b2n x.epoch) x.id (x.tx + 1) body.length ++ body
    let r := s.portSend x.port svc udp (m ++ trailer (s.key (4 + i)) m) tok
    if r.2 then (r.1.upSess i fun y => { y with tx := y.tx + 1 }, true) else (r.1, false)

/-- A REKEY of the device (R373): a fresh nonce, kept until its reply. -/
def State.rekeySend (i : Nat) (s : State) : State :=
  match Store.find i s.sess with
  | none => s
  | some x =>
    let n := s.nonce
    let r := n.2.sessPut i 0x11 0 (s.get R.FP_UDPPORT_PORT x.port) n.1 false
    if r.2 then r.1.upSess i fun y => { y with rekey := some (y.tx, n.1) } else r.1

/-- What a sequence that has run far brings (R365). -/
def State.seqGuard (i : Nat) (s : State) : State :=
  match Store.find i s.sess with
  | none => s
  | some x =>
    if 0xC0000000 ≤ max x.tx x.rx then s.sessClose i
    else if 0x80000000 ≤ max x.tx x.rx ∧ x.rekey.isNone then s.rekeySend i
    else s

/-- Send a message in a session. -/
def State.sessSend (i svc flags udp : Nat) (body : List Byte) (s : State) : State := (s.sessPut i svc flags udp body false).1.seqGuard i

/-- A reply: request sequence, status, data (R366); one that would exceed the body says so (R367). -/
def State.sessReply (i svc seq udp status : Nat) (data : List Byte) (s : State) : State :=
  let st := if 1016 < data.length then 0x11 else status
  s.sessSend i svc 1 udp (leBytes 4 seq ++ [BitVec.ofNat 8 st, 0#8, 0#8, 0#8] ++ (if 1016 < data.length then [] else data))

/-- The front message of a port's receive queue. -/
def State.front (s : State) (p : Nat) : Option (Nat × List Byte) := (s.port p).rx.head?
def State.popFront (p : Nat) (s : State) : State :=
  (s.qRead p (s.port p).rx.length 0 (16 + ((s.front p).map fun x => x.2.length).getD 0)).upPort p fun q => { q with rx := q.rx.drop 1, rxAt := q.rxAt.drop 1 }

/-- A request of the dictionary: WRITE, READ, or a command of R345. -/
def Msg.dictReq (m : Msg) : Bool :=
  !m.isReply && (m.svc == 4 || m.svc == 5 || (m.svc == 3 && decide (4 ≤ m.body.length) && inRange m.code 0x0101 3))

/-- A request of the dictionary that arrived before time `t` waits at a port. -/
def State.olderReq (s : State) (p t : Nat) : Bool :=
  ((s.port p).rx.zip (s.port p).rxAt).any fun q => decide (q.2 < t) && (parseMsg q.1.1 q.1.2).any Msg.dictReq

/-- The front message of a port is the oldest request of the dictionary over all ports (13, R337). -/
def State.reqTurn (s : State) (p : Nat) : Bool :=
  match (s.port p).rxAt.head? with
  | none => true
  | some t => (List.range 6).all fun q => q == p || !s.olderReq q t

/-- The checks 0x05, 0x03 and 0x04 of R364 of a message that is not an OPEN, and what its acceptance does (R365, R371, R373): the session's
number, or none after the message has been discarded. -/
def State.msgAccept (p : Nat) (m : Msg) (s : State) : State × Option Nat :=
  match s.sess.find? fun x => x.2.id == m.sid && x.2.port == p with
  | none => (s.portDrop p 5, none)
  | some (i, x) =>
    let new := bit m.flags 1 == x.epoch
    let key := if new then some (s.key (4 + i), x.rx) else x.old
    match key with
    | none => (s.portDrop p 3, none)
    | some (k, last) =>
      if trailer k m.covered ≠ m.trail then (s.portDrop p 3, none)
      else if m.seq ≤ last then (s.portDrop p 4, none)
      else
        let s := s.partnerHeard p
        let s := s.upSess i fun x =>
          if new then { x with rx := m.seq, last := s.now, old := none } else { x with old := some (k, m.seq), last := s.now }
        (s, some i)

/-- Take the front message of a port if `want` says that it belongs to the command; `f` serves it once it is accepted. -/
def State.serveFront (p : Nat) (want : Msg → Bool) (f : Nat → Sess → Msg → State → State) (s : State) : State :=
  match s.front p with
  | none => s
  | some (udp, raw) =>
    match parseMsg udp raw with
    | none => s
    | some m =>
      if !want m || s.halted 4 || s.upd.hand then s
      else
        match (s.popFront p).msgAccept p m with
        | (s, none) => s
        | (s, some i) =>
          match Store.find i s.sess with
          | none => s
          | some x => (f i x m s).seqGuard i

end Sys2Proof.Machine
end

