-- ==== Sys2Proof/Machine/Dict.lean ====
section
/-! DEFINITION. Machine/Dict.lean: the Isail dictionary: entries, types, reads and writes of their elements (13, R321-R336, R348-R351). -/

namespace Sys2Proof.Machine

/-! ## Types (R324) -/

/-- Bytes of an element; 241 for TEXT, whose one element is a length byte and that many bytes. -/
def tySize (t : Nat) : Nat := [0, 1, 1, 2, 4, 8, 1, 2, 4, 8, 4, 8, 8, 241, 1, 4].getD t 0
def tySigned (t : Nat) : Bool := 6 ≤ t && t ≤ 9

def byteIn (b : Byte) (lo hi : Nat) : Bool := decide (lo ≤ b.toNat) && decide (b.toNat ≤ hi)

/-- Well-formed UTF-8. -/
def utf8Ok : Nat → List Byte → Bool
  | 0, l => l.isEmpty
  | _, [] => true
  | n + 1, a :: r =>
    let cont := fun (b : Byte) => byteIn b 0x80 0xBF
    if byteIn a 0 0x7F then utf8Ok n r
    else
      match r with
      | b :: r1 =>
        if byteIn a 0xC2 0xDF then cont b && utf8Ok n r1
        else
          match r1 with
          | c :: r2 =>
            if byteIn a 0xE0 0xEF then
              (if a = 0xE0#8 then byteIn b 0xA0 0xBF else if a = 0xED#8 then byteIn b 0x80 0x9F else cont b) && cont c && utf8Ok n r2
            else
              match r2 with
              | d :: r3 =>
                byteIn a 0xF0 0xF4 && (if a = 0xF0#8 then byteIn b 0x90 0xBF else if a = 0xF4#8 then byteIn b 0x80 0x8F else cont b) && cont c &&
                  cont d && utf8Ok n r3
              | [] => false
          | [] => false
      | [] => false

/-- The elements of data. -/
def elems (t : Nat) (d : List Byte) : List (List Byte) :=
  if t = 13 then [d] else (List.range (d.length / tySize t)).map fun e => slice d (e * tySize t) (tySize t)

/-- An element is encoded as its type asks. -/
def elemValid (t : Nat) (x : List Byte) : Bool :=
  if t = 1 then decide (leNat x ≤ 1)
  else if t = 12 then leNat x % 10 == 0
  else if t = 13 then decide (leAt x 0 1 ≤ 240) && utf8Ok 241 (x.drop 1)
  else true

/-- Values in the order that a range compares: signed numbers as such, floating point by value (R325). -/
def elemOrd (t x : Nat) : Int :=
  if tySigned t then toSigned (8 * tySize t) x
  else if t = 10 ∨ t = 11 then
    let h := 2 ^ (8 * tySize t - 1)
    if h ≤ x then -((x - h : Nat) : Int) else x
  else x

/-- Length of data for `m` elements: of TEXT one and its length byte. -/
def dataOk (t m : Nat) (d : List Byte) : Bool :=
  if t = 13 then decide (1 ≤ d.length) && d.length == 1 + leAt d 0 1 else d.length == m * tySize t

/-! ## Entries (R321, R322, R326, R336) -/

/-- What a number names. -/
inductive Entry where
  | header (g : Nat)
  | dev (p : Param)
  | user (u : UEntry)
  deriving DecidableEq, Repr

def Entry.ty : Entry → Nat
  | .header _ => 4 | .dev p => p.ty | .user u => u.ty
def Entry.count : Entry → Nat
  | .header _ => 3 | .dev p => p.count | .user u => u.count
def Entry.acc : Entry → Nat
  | .header _ => 0x55 | .dev p => p.acc | .user u => u.acc
def Entry.pers : Entry → Nat
  | .header _ => 0 | .dev p => p.pers | .user u => u.pers

def isUserGroup (g : Nat) : Bool := inRange g 0x80 0x40

/-- Layout version of a group (R335): of the header of the running firmware, or of the binding table; 0: absent. -/
def State.groupVer (s : State) (g : Nat) : Nat :=
  if isUserGroup g then s.dict.vers.getD (g - 0x80) 0
  else
    match s.header (s.get R.UPD_BOOT_BANK) with
    | some h => let v := h.groups.getD (if g = 0xF0 then 128 else g) 1; if v = 0 then 1 else v
    | none => 1

/-- The entry of a number, or the status of a request for it (R321, R336, R344). -/
def State.lookup (s : State) (num role : Nat) : Nat × Option Entry :=
  let g := num / 65536
  let i := num % 65536
  if g = 0xF0 then (if role < 3 then (2, none) else if i = 0 then (0, some (.header g)) else (1, none))
  else if isUserGroup g then
    if s.groupVer g = 0 then (0x0D, none)
    else if i = 0 then (0, some (.header g))
    else match s.dict.user.find? fun u => u.num == num with
      | some u => (0, some (.user u))
      | none => (1, none)
  else if !devGroups.contains g then (1, none)
  else if i = 0 then (0, some (.header g))
  else match (groupParams g).find? fun p => p.num == num with
    | some p => (0, some (.dev p))
    | none => (1, none)

/-- Bulk objects and the bounds of their lengths (R327). -/
def bulkBounds (num : Nat) : Option (Nat × Nat) :=
  if num = 0x410010 then some (65536, 65536)
  else if num = 0x510010 then some (16, 135120)
  else if num = 0x700001 then some (320, 0x400040)
  else if num = 0x700010 then some (96, 0x10000)
  else if num = 0x700011 then some (0, 0x100000)
  else none

/-- The item numbers of a group (R322). -/
def State.groupNums (s : State) (g : Nat) : List Nat :=
  if isUserGroup g then (s.dict.user.filter fun u => u.num / 65536 == g).map fun u => u.num % 65536
  else (groupParams g).map fun p => p.num % 65536

/-- Two bits of the access byte (R328). -/
def roleBits (acc role : Nat) : Nat := bits acc (2 * role) 2

/-! ## Reading elements -/

/-- The part of a segment list that holds an element. -/
def segOf (l : List Seg) (e : Nat) : Option (Seg × Nat) :=
  (l.find? fun g => decide (g.first ≤ e) && (e - g.first) % g.de == 0 && decide ((e - g.first) / g.de < g.n)).map fun g => (g, (e - g.first) / g.de)

/-- The value of an element held in a register. -/
def State.segVal (s : State) (t : Nat) (g : Seg) (k : Nat) : Int :=
  if g.cmd then 0
  else
    let raw := bits (s.regWord (g.a + g.da * k)) (g.l + g.dl * k) g.w
    if tySigned t && g.mul == 1 then toSigned g.w raw else (raw * g.mul : Nat) + g.add

def chars (x : String) : List Byte := x.toList.map fun c => BitVec.ofNat 8 c.toNat
def textOf (l : List Byte) : List Byte := BitVec.ofNat 8 (min 240 l.length) :: l.take 240
def words4 (l : List Nat) : List Byte := l.flatMap (leBytes 4)

/-- Conditions of the policy triggers (R351): the level ones, and the latched edge ones. -/
def State.trigActive (s : State) (k : Nat) : Bool :=
  match k with
  | 0 => s.evLvl 5
  | 1 => s.evLvl 6
  | 2 => s.evLvl 129
  | 3 => s.evLvl 178
  | 4 => s.dict.pps
  | 6 => (List.range 4).any fun e => s.is R.TSK_SHED_ACTIVE e
  | 7 => s.is R.RFL_STAT_DISCPERS
  | 9 => s.lead && !s.is R.RFL_STAT_READY
  | 10 => s.evLvl 227
  | 12 => s.evLvl 262
  | 13 => s.evLvl 128
  | 15 => s.evLvl 179
  | _ => bit s.dict.edge k

/-- A firmware value, or its default. -/
def State.fwVal (s : State) (num : Nat) (dflt : List Byte) : List Byte := s.dict.vals.getD num dflt
def State.fwNat (s : State) (num size dflt : Nat) : Nat := leNat (s.fwVal num (leBytes size dflt))

def policyDefault : List Byte := [1#8, 5#8, 1#8, 1#8, 1#8, 1#8, 1#8, 1#8, 1#8, 1#8, 3#8, 1#8, 1#8, 1#8, 1#8, 1#8]

/-- Default nominal and data rates of the CAN ports, in kbit/s. -/
def rateDefault (v : Nat) : List Byte := (List.replicate 4 (leBytes 2 v)).flatten

/-- `P70.0002` of a bank (26, R646). -/
def State.bankWords (s : State) (b : Nat) : List Byte :=
  let h := s.header b
  let f := fun (x : FwHeader → Nat) => (h.map x).getD 0
  words4 [f FwHeader.version, f FwHeader.compat, f FwHeader.len,
    b2n h.isSome + 2 * b2n (bit s.upd.verified b) + 4 * b2n (s.get R.UPD_BOOT_BANK == b) + 8 * b2n (bit s.upd.signed b)]

/-- The data of the newest store of a K5 record that has not been served yet. -/
def State.storeAsked (s : State) (key : Nat) : Option (List Byte) :=
  ((s.keep.queue ++ s.keep.late ++ s.keep.waits).filterMap fun q =>
    match q with
    | .store true hdr d => if hdr % 2 ^ 24 = key then some d else none
    | _ => none).getLast?

/-- The reset list (26, R641), with what is on its way into its record. -/
def State.resetList (s : State) : List Byte :=
  (s.storeAsked 0xFF0031).getD (((s.recOf true 0xFF0031).map KeepRec.data).getD (List.replicate 32 0#8))

/-- The newest entries of the log, expanded (22, R551, R552): those of the RAM buffer, and before them those that K1 had before start-up. -/
def State.newestLog (s : State) : List Byte :=
  let ram := markHeld s.logPending s.log.ram
  let l := if s.is R.LOG_STAT_FAILED || 8 ≤ ram.length then ram
    else
      let old := s.logEntries.filter fun e => !e.copy
      old.take (old.length - (ram.filter fun e => !e.ramOnly).length) ++ ram
  let r := ((keepLast 8 l).reverse.flatMap LogEntry.record)
  r ++ List.replicate (128 - r.length) 0#8

def setOf (n : Nat) (f : Nat → Bool) : List Byte := (List.range (n / 8)).map fun i => BitVec.ofNat 8 (packBits (fun b => f (8 * i + b)) 8)

/-- Values that stand in no register: the whole entry, encoded. -/
def State.special (s : State) (num : Nat) : List Byte :=
  match num with
  | 0x000001 => textOf (chars "Veinaund Microsystems")
  | 0x000002 => textOf (chars "YR-9460")
  | 0x000003 => textOf (chars "Rev B")
  | 0x000005 => leBytes 4 (((s.header (s.get R.UPD_BOOT_BANK)).map FwHeader.version).getD 0)
  | 0x000006 => leBytes 2 s.upd.compat
  | 0x00000A => setOf 256 fun g => devGroups.contains g || g == 0xF0 || (isUserGroup g && s.groupVer g != 0)
  | 0x00000B | 0x00000C => s.fwVal num [0#8]
  | 0x00000D | 0x00000E => s.fwVal num (leBytes 4 0)
  | 0x000010 => leBytes 4 s.dict.bid
  | 0x000011 => leBytes 1 s.dict.check
  | 0x010005 => leBytes 2 (ofSigned 16 (toSigned 16 (s.get R.PWR_TEMP_T) / 16))
  | 0x010006 => leBytes 4 (s.get R.PWR_STAT_PFW + 2 * s.get R.PWR_STAT_OUTWIN + 16 * s.get R.PWR_STAT_VBAKLOW + 32 * s.get R.DIO_STAT_UV)
  | 0x01000B => words4 ((List.range 5).map fun c => s.log.counts.getD c 0)
  | 0x01000C => leBytes 4 (packBits s.trigActive 16)
  | 0x100004 => leBytes 8 s.now
  | 0x100005 => leBytes 8 (s.get64 R.TIME_SET_LO_T R.TIME_SET_HI_T)
  | 0x100012 => leBytes 1 (s.get R.RTC_GLINT_BUSY)
  | 0x100013 => leBytes 8 s.time.glFt ++ leBytes 8 (s.get R.RTC_GL_TURN_T) ++ leBytes 8 (s.get R.RTC_GL_SEC_S) ++ leBytes 8 (s.get R.RTC_GL_SUB_SS) ++
      leBytes 8 s.time.glEdge
  | 0x200008 => s.fwVal num (rateDefault 500)
  | 0x200009 => s.fwVal num (rateDefault 2000)
  | 0x210001 => s.fwVal num (leBytes 2 60)
  | 0x210002 => leBytes 1 s.sess.length
  | 0x210003 => (List.range 16).flatMap fun i => leBytes 4 (((Store.find i s.sess).map Sess.id).getD 0)
  | 0x210004 => (List.range 16).map fun i => match Store.find i s.sess with | some x => BitVec.ofNat 8 (x.role + 4 * x.port + 128) | none => 0#8
  | 0x210014 => s.fwVal num (leBytes 1 5)
  | 0x210015 => s.fwVal num (leBytes 2 60)
  | 0x210016 => leBytes 4 (packBits (fun r => (s.recOf true (0x210010 + r)).isSome) 4)
  | 0x31000A => leBytes 4 (match s.linkData with | some v => fmul b32 (fofInt b32 (toSigned 24 v)) (s.get R.DLNK_KV_V) | none => 0)
  | 0x320002 => words4 [] ++ slice s.brick.id 0x18 6 ++ List.replicate (6 - (slice s.brick.id 0x18 6).length) 0#8
  | 0x320003 => slice s.brick.id 0x24 4 ++ List.replicate (4 - (slice s.brick.id 0x24 4).length) 0#8
  | 0x320004 => slice s.brick.id 0x28 2 ++ List.replicate (2 - (slice s.brick.id 0x28 2).length) 0#8
  | 0x320005 => leBytes 8 s.lifeD
  | 0x320006 => s.brick.ds.flatMap (leBytes 8)
  | 0x32000B => leBytes 1 (b2n s.brick.ovB)
  | 0x32000C => leBytes 1 (b2n s.brick.ovC)
  | 0x320012 => s.brick.kept
  | 0x320014 => words4 [s.get R.LIFE_CYC_N, s.brick.wbs, s.get R.BRICK_ERRCNT_LINK]
  | 0x500006 => (List.range 32).flatMap fun r => match s.ring r with | some (row, n, _) => leBytes 2 row ++ leBytes 2 n | none => leBytes 4 0
  | 0x500007 => (List.range 32).flatMap fun r => match s.ring r with | some (_, _, d) => leBytes 8 d | none => leBytes 8 0
  | 0x500008 => (List.range 32).flatMap fun r => match s.ring r with
      | some (row, n, d) => leBytes 8 (((s.ringNewest row n).map fun x => x.2.1).getD d)
      | none => leBytes 8 0
  | 0x500009 => (List.range 64).flatMap fun c => leBytes 4 (s.scValue c)
  | 0x510006 => s.newestLog
  | 0x510008 => s.fwVal num (leBytes 2 0)
  | 0x510009 => textOf (Config.codeText (s.fwNat 0x510008 2 0))
  | 0x600011 => leBytes 8 (s.get64 R.RFL_SWAPAT_LO_A R.RFL_SWAPAT_HI_A)
  | 0x700002 => s.bankWords 0 ++ s.bankWords 1
  | 0x700003 => let b := s.bootRec; [b.pref, b.prev, b.limit, b.used, b2n b.confirmed].map (BitVec.ofNat 8)
  | 0x700004 => leBytes 1 (if s.upd.hand then 2 else if s.upd.at_.isSome then 1 else if s.upd.done then 3 else 0)
  | 0x700005 => leBytes 8 (s.upd.at_.getD 0)
  | 0x700006 => s.resetList
  | 0x700007 => match s.upd.dry with
      | some (g, a, b, f) => setOf 256 (fun x => g.contains x) ++ leBytes 2 a ++ leBytes 2 b ++ leBytes 4 f
      | none => List.replicate 40 0#8
  | 0x700008 => s.fwVal num (leBytes 2 600)
  | 0x700009 => s.fwVal num (leBytes 1 3)
  | 0x710001 => s.fwVal num policyDefault
  | 0x71000F => [s.exc.dCmd, s.exc.bCmd, s.exc.cCmd].map fun b => BitVec.ofNat 8 (b2n b)
  | _ => []

/-- One element of a device or firmware parameter, encoded. -/
def State.paramElem (s : State) (p : Param) (e : Nat) : List Byte :=
  let n := tySize p.ty
  if p.segs.isEmpty then (if p.ty = 13 then s.special p.num else let x := slice (s.special p.num) (e * n) n; x ++ List.replicate (n - x.length) 0#8)
  else match segOf p.segs e with
    | some (g, k) => leBytes n (ofSigned (8 * n) (s.segVal p.ty g k))
    | none => List.replicate n 0#8

def State.paramBytes (s : State) (p : Param) (f m : Nat) : List Byte := (List.range m).flatMap fun i => s.paramElem p (f + i)

/-- Elements of any entry as they stand. -/
def State.entryBytes (s : State) (x : Entry) (f m : Nat) : List Byte :=
  match x with
  | .header g =>
    let l := s.groupNums g
    ((List.range m).flatMap fun i => leBytes 4 ([s.groupVer g, (groupItems l).1, (groupItems l).2].getD (f + i) 0))
  | .dev p => s.paramBytes p f m
  | .user u =>
    let a := u.addr + f * tySize u.ty
    let n := m * tySize u.ty
    if (wordsOf 4 a n).any (s.badAt 0) then List.replicate n 0#8 else s.mbs a n

/-- SV reads the elements of an entry: the words that a user entry stands in go through the check bits, and a bad word gives no value but 0 (09, R221,
R222). -/
def State.entryLook (x : Entry) (f m : Nat) (s : State) : State :=
  match x with
  | .user u => (s.memRead 4 (u.addr + f * tySize u.ty) (m * tySize u.ty)).1
  | _ => s

/-- The default of an element; none where there is none ("-"). -/
def Param.elemDefault (p : Param) (e : Nat) : Option (List Byte) :=
  let n := tySize p.ty
  match p.dflt with
  | none => none
  | some [] =>
    (segOf p.segs e).map fun x =>
      let w := (fieldsAt (x.1.a + x.1.da * x.2)).foldl (fun w q => w + resetFlds.getD (q.1.key q.2.1 q.2.2) q.1.reset * 2 ^ q.1.lsb) 0
      leBytes n (ofSigned (8 * n) ((bits w (x.1.l + x.1.dl * x.2) x.1.w * x.1.mul : Nat) + x.1.add))
  | some l => some (if p.ty = 13 then [0#8] else leBytes n (l.getD (e % l.length) 0))

def Param.default (p : Param) : Option (List Byte) :=
  (List.range p.count).foldl (fun r e => match r, p.elemDefault e with | some a, some b => some (a ++ b) | _, _ => none) (some [])

/-! ## Descriptors (R326) -/

/-- Groups mirrored in a pair (R347). -/
def mirrored (num : Nat) : Bool := num / 65536 == 0x11 || num / 65536 == 0x71 || isUserGroup (num / 65536)

/-- Firmware parameters of groups 0x01 and 0x71, which are applied in the latch (R339). -/
def latchApplied (num : Nat) : Bool := num == 0x01000E || num == 0x710001 || num == 0x710002

def rangeEnvelope (l : List (Int × Int)) : Int × Int := (l.foldl (fun a r => min a r.1) (l.headD (0, 0)).1, l.foldl (fun a r => max a r.2) (l.headD (0, 0)).2)

/-- The descriptor of an entry. -/
def State.descriptor (s : State) (num : Nat) (x : Entry) : List Byte :=
  let head := leBytes 4 num ++ [x.ty, x.count, x.acc, x.pers, s.groupVer (num / 65536)].map (BitVec.ofNat 8)
  match x with
  | .header _ => head ++ leBytes 1 (16 * b2n (mirrored num)) ++ leBytes 2 4 ++ leBytes 16 0
  | .dev p =>
    let bk := bulkBounds num
    let e := rangeEnvelope p.rng
    let r := match bk with | some b => ((b.1 : Int), (b.2 : Int)) | none => e
    let flags := b2n (!p.rng.isEmpty) + 2 * b2n p.rule + 8 * b2n (latchApplied num) + 16 * b2n (mirrored num) + 32 * b2n bk.isSome
    let d := if p.ty = 13 then (p.default.map fun _ => List.replicate 241 0#8).getD [] else p.default.getD []
    head ++ leBytes 1 flags ++ leBytes 2 (if bk.isSome then 0 else tySize p.ty) ++ leBytes 8 (ofSigned 64 r.1) ++ leBytes 8 (ofSigned 64 r.2) ++ d
  | .user u =>
    head ++ leBytes 1 (b2n u.ranged + 4 + 8 + 16) ++ leBytes 2 (tySize u.ty) ++ leBytes 8 (if u.ranged then u.lo else 0) ++
      leBytes 8 (if u.ranged then u.hi else 0) ++ u.dflt

/-! ## Checks of values (R324, R325) -/

/-- Values that the rule named in a range column does not accept. -/
def State.ruleBad (s : State) (num e v : Nat) : Bool :=
  match num with
  | 0x100001 => v < 5000 || 10000000 < v || 100000000 % v != 0
  | 0x100002 => decide (s.get R.TURN_PERIOD_P ≤ v)
  | 0x110007 => !s.is R.TSK_CFG_TRIG e && decide (bits (s.get R.TSK_TRG_W e) 0 13 ≤ v)
  | 0x200008 => !([125, 250, 500, 1000].contains v) || decide (leAt (s.special 0x200009) (2 * e) 2 < v)
  | 0x200009 => !([1000, 2000, 4000, 5000].contains v) || decide (v < leAt (s.special 0x200008) (2 * e) 2)
  | 0x20000F => e % 2 == 1 && decide (1012 < bits v 16 10)
  | 0x310006 => e == 0 && decide (0x10000 < v)
  | 0x31000C => (0x13 ≤ v && v ≤ 0x17) || decide (0x1B ≤ v)
  | 0x400005 => decide (s.get R.SADC_CH_CFG_OSR e ≤ v)
  | 0x400008 => if e = 0 then 1 < v else 4095 < v || v % 16 != 0
  | 0x410003 | 0x410004 => 4 ≤ e && 4096 ≤ v
  | 0x410008 => if e < 8 then 2 < v else 1 < v
  | 0x420005 => if e = 0 then 1 < v else 2047 < v || v % 4 != 0
  | 0x420010 => if e = 0 then 1 < v else if e = 1 then v == 0 || 255 < v else if e = 2 then 65535 < v else false
  | 0x50000E => if e = 0 then 4 < v else if e = 1 then 1 < v else false
  | 0x60000A => v == 0 || decide (v * s.period * 10 < 4000000)
  | 0x710001 => 8 ≤ v
  | 0x71000E => v == 3
  | _ => false

/-- NaN and the infinities of F32 and F64. -/
def notFinite (t x : Nat) : Bool := (t == 10 && bits x 23 8 == 255) || (t == 11 && bits x 52 11 == 2047)

/-- An element lies in a range (R325); `m` is the number of bytes that a write of a BLOB holds. -/
def inBounds (t m : Nat) (r : Int × Int) (x : List Byte) : Bool :=
  let v := if t = 13 then ((leAt x 0 1 : Nat) : Int) else if t = 14 then (m : Int) else elemOrd t (leNat x)
  !notFinite t (leNat x) && decide (r.1 ≤ v) && decide (v ≤ r.2)

/-- What a segment holds for a value, and whether the value is a whole step of it and fits. -/
def segRaw (t : Nat) (g : Seg) (v : Int) : Nat × Bool :=
  let x := (v - g.add) / (g.mul : Int)
  let raw := ofSigned g.w x
  (raw, (x * g.mul + g.add == v) && (if tySigned t && g.mul == 1 then toSigned g.w raw == x else decide (0 ≤ x) && decide (x < (2 ^ g.w : Nat))))

/-- The register behind an element has no code for a value: it is no whole step or does not fit, or a field would take a reserved code
(00, R5; 12, R320; 15, R414). -/
def regBad (p : Param) (e : Nat) (v : Int) : Bool :=
  match segOf p.segs e with
  | none => false
  | some (g, k) =>
    let r := segRaw p.ty g v
    let l := g.l + g.dl * k
    !r.2 || (fieldsAt (g.a + g.da * k)).any fun q =>
      decide (l ≤ q.1.lsb) && decide (q.1.lsb + q.1.width ≤ l + g.w) && !fieldLegal q.1 (bits (r.1 * 2 ^ l) q.1.lsb q.1.width)

/-- The number that an element stands for. -/
def elemInt (t : Nat) (x : List Byte) : Int := if tySigned t then toSigned (8 * tySize t) (leNat x) else leNat x

/-- Start and length of a waveform channel that the request, with what stands beside it, would leave are refused by R486: elements 0-7 of P41.0006 are
START, 8-15 LEN (19, R489). -/
def State.waveSpanBad (s : State) (f : Nat) (d : List Byte) : Bool :=
  let l := patch (((List.range 8).flatMap fun k => leBytes 2 (s.get R.WAVE_CH_START_S k)) ++ (List.range 8).flatMap fun k => leBytes 2 (s.get R.WAVE_CH_LEN_L k)) (2 * f) d
  (List.range (d.length / 2)).any fun i =>
    let n := leAt l (16 + 2 * ((f + i) % 8)) 2
    (8 ≤ f + i && n == 0) || decide (32768 < leAt l (2 * ((f + i) % 8)) 2 + n)

/-- Every element is encoded validly and lies in its range. -/
def State.valuesOk (s : State) (num : Nat) (x : Entry) (f : Nat) (d : List Byte) : Bool :=
  !(num == 0x410006 && s.waveSpanBad f d) && (elems x.ty d).zipIdx.all fun q =>
    elemValid x.ty q.1 &&
      match x with
      | .header _ => true
      | .dev p => (p.rng.isEmpty || inBounds p.ty d.length (p.rng.getD ((f + q.2) % p.rng.length) (0, 0)) q.1) && !s.ruleBad num (f + q.2) (leNat q.1) &&
          !regBad p (f + q.2) (elemInt p.ty q.1)
      | .user u =>
        !u.ranged || inBounds u.ty d.length (elemOrd u.ty (u.lo % 2 ^ (8 * tySize u.ty)), elemOrd u.ty (u.hi % 2 ^ (8 * tySize u.ty))) q.1

/-! ## Writing elements (R338, R339) -/

/-- Bits by which the blocks say that they refused a write. -/
def refusalFlags : List (Fam × Nat) :=
  [(R.TURN_STAT_PERR, 0), (R.TIME_STAT_SETERR, 0), (R.TSK_STAT_CFGREF, 0), (R.EXC_STAT_MIRERR, 0), (R.EXC_STAT_RELERR, 0), (R.KEEP_STAT_CFGERR, 0),
   (R.KEEP_STAT_QREF, 0), (R.KEEP_RING_STAT_ERR, 0), (R.KEEP_SC_STAT_ERR, 0), (R.RFL_STAT_CFGERR, 0), (R.RFL_STAT_CMDERR, 0),
   (R.GDRV_STAT_CPERR, 0), (R.GDRV_STAT_BINDREF, 0), (R.DLNK_STAT_BINDREF, 0)] ++
  [(R.SADC_STAT_CFGERR, 0), (R.SADC_OCSTAT_ENREF, 0), (R.AOUT_STAT_CFGERR, 0), (R.DIO_STAT_CFGERR, 0),
   (R.DIO_STAT_WALKERR, 0), (R.FP_STAT_CFGERR, 0), (R.FP_STAT_CFGERR, 1), (R.FP_STAT_CFGERR, 2), (R.FP_STAT_CFGERR, 3),
   (R.FP_STAT_CFGERR, 4), (R.FP_STAT_CFGERR, 5)]

/-- Do an operation and see whether a block refused it; the bits stay as software would see them. -/
def State.watched (op : State → State) (s : State) : State × Bool :=
  let old := refusalFlags.filter fun f => s.is f.1 f.2
  let t := op (old.foldl (fun s f => s.put f.1 0 f.2) s)
  (old.foldl (fun s f => s.put f.1 1 f.2) t, refusalFlags.any fun f => t.is f.1 f.2)

/-- The state that a control write of `TSK` will meet at its tick: what the buffer holds for the register has been applied (12, R305). -/
def State.tskAhead (a : Nat) (s : State) : State :=
  (s.rfl.dw.filter fun c => c.kind == 1 && c.addr == a).foldl (fun t c => (t.regWrite (State.busHook 2) 4 a (leNat c.data) 0xFFFFFFFF).1) (s.put R.RFL_STAT_ROLE 0)

/-- The register shows a value after its write, unless what is written is write-only and reads 0 (00, R7). The count of a receive map, which has no code for the 0 that its default asks for, keeps its
value and shows another (14, R376, R388). -/
def State.segTook (s : State) (t : Nat) (g : Seg) (k : Nat) (v : Int) (raw : Nat) : Bool :=
  let a := g.a + g.da * k
  g.cmd || s.segVal t g k == v || ((fieldsAt a).any fun q => q.1.acc == .wo && decide (q.1.lsb ≤ g.l + g.dl * k) && decide (g.l + g.dl * k < q.1.lsb + q.1.width)) || (inRange a 0x10012000 0x6000 && inRange (a % 0x1000) 0x40 0x20 && a % 8 == 4 && raw / 65536 == 0)

/-- Write one element held in a register: the state and the status; a value for which the register has no code is out of range, a register that
does not take it refuses it. -/
def State.segWrite (t : Nat) (g : Seg) (k : Nat) (v : Int) (s : State) : State × Nat :=
  let r := segRaw t g v
  if !r.2 then (s, 5)
  else
    let a := g.a + g.da * k
    let l := g.l + g.dl * k
    let go := fun (s : State) => (s.regWrite (State.busHook 2) 4 a (r.1 * 2 ^ l) ((2 ^ g.w - 1) * 2 ^ l)).1
    let tsk := s.lead && s.inRun && inRange a 0x10007000 0xC20 && !g.cmd
    let judge := if tsk then s.tskAhead a else s
    let q := judge.watched go
    if judge.writeStop 4 a (r.1 * 2 ^ l) ≠ 0 ∨ q.2 ∨ !q.1.segTook t g k v r.1 then (if tsk then s.put R.TSK_STAT_CFGREF 1 else q.1, 6)
    else if tsk then
      let d := s.defer { addr := a, kind := 1, data := leBytes 4 (q.1.rawWord a) }
      (d.1, if d.2 then 0 else 0x0C)
    else (q.1, 0)

/-- Set a firmware value. -/
def State.fwPut (p : Param) (f : Nat) (d : List Byte) (s : State) : State :=
  let old := s.special p.num
  { s with dict := { s.dict with vals := Store.put p.num (if p.ty = 13 then d else patch old (f * tySize p.ty) d) s.dict.vals } }

/-- SV writes the bit timings of a CAN port from its rates when it enables the port: clock 80 MHz, sample points 80 % and 75 % (14, R358, R388). -/
def State.canRates (k : Nat) (s : State) : State :=
  let n := leAt (s.special 0x200008) (2 * k) 2
  let r := leAt (s.special 0x200009) (2 * k) 2
  let p := k + 2
  let brp := if n = 125 then 4 else if n = 250 then 2 else 1
  let q := 80000 / (n * brp)
  let d := 80000 / r
  let bd := if d ≤ 40 then 1 else 2
  let qd := d / bd
  (((((((s.put R.FP_NBT_BRP brp p).put R.FP_NBT_TSEG2 (q / 5) p).put R.FP_NBT_TSEG1 (q - q / 5 - 1) p).put R.FP_NBT_SJW (q / 5) p).put R.FP_DBT_BRP bd
    p).put R.FP_DBT_TSEG2 (qd / 4) p).put R.FP_DBT_TSEG1 (qd - qd / 4 - 1) p).put R.FP_DBT_SJW (qd / 4) p

def State.refuse (b : Bool) (s : State) : State × Nat := (s, if b then 6 else 0)

/-- A set of role key `r` (14, R372). -/
def State.roleKey (r f : Nat) (d : List Byte) (s : State) : State := s.setKey r (patch (s.key r) f d)

/-- Acknowledge edge triggers (R351). -/
def State.edgeAck (m : Nat) (s : State) : State := { s with dict := { s.dict with edge := s.dict.edge - (s.dict.edge &&& m) } }

/-- Clear P01.000B and P01.000D. -/
def State.statClear (s : State) : State :=
  ({ s with log := { s.log with counts := [] } }.put R.SYS_ECC_CNT_CE 0).put R.SYS_ECC_CNT_UE 0

/-- A write of P50.0006 (21, R520, R538): each ring of which it writes an element is defined by what then stands in the two; a written slot count of 0
removes it (DESIGN CHOICE, log entry 186). In Run, and while K2 is write-locked (R528), it is refused; if one ring is, none changes (R323). -/
def State.ringParam (f : Nat) (d : List Byte) (s : State) : State × Nat :=
  let l := patch (s.special 0x500006) (2 * f) d
  let m := d.length / 2
  let rings := (List.range 32).filter fun r => decide (f < 2 * r + 2) && decide (2 * r < f + m)
  if s.inRun || bit (s.get R.KEEP_LOCKST_WR) 2 then (s, 6)
  else
    let q := s.watched fun s => rings.foldl (fun s r =>
      let n := leAt l (4 * r + 2) 2
      let dflt := ((s.ring r).map fun x => x.2.2).getD 0
      if n = 0 ∧ f ≤ 2 * r + 1 ∧ 2 * r + 1 < f + m then opRingUndefine r s else opRingDefine r (leAt l (4 * r) 2) n dflt s) s
    if q.2 then (s.put R.KEEP_RING_STAT_ERR 1, 6) else (q.1, 0)

/-- A WAVE arm through P41.000B: refused by R486. -/
def State.armParam (k : Nat) (s : State) : State × Bool :=
  let old := s.get R.WAVE_CH_STAT_ERR k
  let t := opWaveArm k (s.put R.WAVE_CH_STAT_ERR 0 k)
  if t.get R.WAVE_CH_STAT_ERR k = 0 then (t.put R.WAVE_CH_STAT_ERR old k, false) else (t, true)

/-- A write to `EXC.CMD` through P71.000E and P71.000F: a control write of the buffer on a Lead in Run, which may be full; else what R194 refuses is
refused (13, R350; 12, R305). -/
def State.excWrite1 (v : Nat) (op : State → State) (s : State) : State × Nat :=
  if s.lead && s.inRun then
    let d := s.defer { addr := 0x1000C008, kind := 1, data := leBytes 4 v }
    (d.1, if d.2 then 0 else 0x0C)
  else
    let q := s.watched op
    (q.1, if q.2 then 6 else 0)

/-- One element of a parameter that stands in no register: the state and the status. An entry whose default is a dash takes a write where its home
table gives the right (DEDUCED, log entry 177). -/
def State.specialWrite (p : Param) (e : Nat) (x : List Byte) (s : State) : State × Nat :=
  let v := leNat x
  match p.num with
  | 0x010002 => let t := opModeRequest v s; t.refuse (t.get R.SYS_MODEREQ_REASON != 0)
  | 0x01000E => (if v = 1 then s.statClear else s, 0)
  | 0x100005 =>
    let q := s.watched fun s => opTimeSetcmdGo (s.put64 R.TIME_SET_LO_T R.TIME_SET_HI_T v)
    (q.1, if q.2 then (if v % 1000000000 = 0 then 6 else 5) else 0)
  | 0x100012 => (if v = 1 then opGlintRequest s else s, 0)
  | 0x210005 =>
    match s.sess.find? fun y => y.2.id == v with
    | some (i, _) => (s.sessClose i, 0)
    | none => (s, 5)
  | 0x210010 | 0x210011 | 0x210012 | 0x210013 => (s.roleKey (p.num - 0x210010) e x, 0)
  | 0x31000C => (opRollRequest v s, 0)
  | 0x32000B => if s.noBrickYet then (s, 6) else ({ s with brick := { s.brick with ovB := v == 1 } }.lifeBlock, 0)
  | 0x32000C => if s.noBrickYet then (s, 6) else ({ s with brick := { s.brick with ovC := v == 1 } }.lifeBlock, 0)
  | 0x32000D => (s.lifeInit v, 0)
  | 0x40000E => (opOcLatchClear v s, 0)
  | 0x420011 => let q := s.watched fun s => (s.regWrite (State.busHook 2) 4 0x10026030 v 3).1; (q.1, if q.2 then 6 else 0)
  | 0x500007 =>
    match s.ring e with
    | some (row, n, _) => if bit (s.get R.KEEP_LOCKST_WR) 2 then (s, 6) else (let q := s.watched (opRingDefine e row n v); (q.1, if q.2 then 6 else 0))
    | none => (s, 6)
  | 0x500008 =>
    if (s.ring e).isNone || bit (s.get R.KEEP_LOCKST_WR) 2 then (s, 6) else (let q := s.watched (opRingWrite e v); (q.1, if q.2 then 6 else 0))
  | 0x50000A =>
    if bit (s.get R.KEEP_LOCKST_WR) 3 then (s, 6) else (let q := s.watched (opScInc v); (q.1, if q.2 then 6 else 0))
  | 0x600011 => let q := s.watched fun s => opRflSwap (s.put64 R.RFL_SWAPAT_LO_A R.RFL_SWAPAT_HI_A v); (q.1, if q.2 then 6 else 0)
  | 0x710002 => (s.edgeAck v, 0)
  | 0x71000E => s.excWrite1 (v + 512) (opExcCmdRelease v)
  | 0x71000F =>
    let q := s.excWrite1 (e + (if v = 1 then 1024 else 2048)) (if v = 1 then opExcCmdPenenter e else opExcCmdPenleave e)
    (q.1, if q.2 = 0 && v == 1 && decide (e ≤ 1) && s.penCarrierBad then 6 else q.2)
  | 0x50000E => (s, 0)
  | _ => (s.fwPut p e x, 0)

/-- What follows a write of an element: profile and desaturation settings go to their die (15, R414). -/
def State.afterWrite (num e : Nat) (s : State) : State :=
  if inRange num 0x300001 3 then opGdrvLoad (e / 6) s
  else if num = 0x300004 then opGdrvLoad (e / 3) s
  else if num = 0x300006 then opGdrvLoad e s
  else s

/-- One element of a device or firmware parameter. -/
def State.elemWrite (p : Param) (e : Nat) (x : List Byte) (s : State) : State × Nat :=
  if p.num = 0x41000B then (if leNat x = 1 then (let q := s.armParam e; (q.1, if q.2 then 6 else 0)) else (s, 0))
  else if p.num = 0x51000A ∧ s.inRun then (s, 6)
  else if p.segs.isEmpty then s.specialWrite p e x
  else match segOf p.segs e with
    | some (g, k) =>
      if g.cmd ∧ leNat x = 0 then (s, 0)
      else
        let s := if p.num = 0x200001 ∧ 2 ≤ e ∧ leNat x = 1 ∧ !s.is R.FP_CFG_EN e then s.canRates (e - 2) else s
        let q := s.segWrite p.ty g k (elemInt p.ty x)
        (if q.2 = 0 then q.1.afterWrite p.num e else q.1, q.2)
    | none => (s, 0)

/-- All elements in order; at the first that is refused none is written, but what its refusal sets stays (R323). -/
def State.elemsWrite (p : Param) (s0 : State) : Nat → List (List Byte) → State → State × Nat
  | _, [], s => (s, 0)
  | e, x :: r, s =>
    match s.elemWrite p e x with
    | (s', 0) => State.elemsWrite p s0 (e + 1) r s'
    | (_, st) => let q := s0.elemWrite p e x; (if q.2 = 0 then s0 else q.1, st)

/-- The three raw bits of Keep are written at once, for one store (21, R511); in Run the write is refused whatever it holds (R538). -/
def State.rawWrite (f : Nat) (d : List Byte) (s : State) : State × Nat :=
  let v := leNat ((patch ((List.range 3).map fun k => BitVec.ofNat 8 (s.get ([R.KEEP_CTL_RAW0, R.KEEP_CTL_RAW2, R.KEEP_CTL_RAW3].getD k R.KEEP_CTL_RAW0))) f
    d).zipIdx.map fun q => BitVec.ofNat 8 (q.1.toNat * 2 ^ q.2))
  let w := v % 256 + v / 256 % 256 + v / 65536 % 256
  if s.inRun then (s.put R.KEEP_STAT_CFGERR 1, 6)
  else
    let q := s.watched fun s => (s.regWrite (State.busHook 2) 4 0x1000F000 w 7).1
    (q.1, if q.2 then 6 else 0)

/-- A write of elements of a device or firmware parameter. -/
def State.devWrite (p : Param) (f : Nat) (d : List Byte) (s : State) : State × Nat :=
  if p.num = 0x500001 then s.rawWrite f d
  else if p.num = 0x500006 then s.ringParam f d
  else s.elemsWrite p f (elems p.ty d) s

/-- The requests that a write asks of Keep beside its own store, for which the dictionary waits until there is room (21, R530). -/
def keepAsks (num f m : Nat) : List KeepReq :=
  match num with
  | 0x500001 => [.store true 0xFF0010 [0#8]]
  | 0x500006 => ((List.range 32).filter fun r => decide (f < 2 * r + 2) && decide (2 * r < f + m)).map fun r => .ringDefine r 0 0 0
  | 0x500007 => (List.range m).map fun i => .ringDefine (f + i) 0 0 0
  | 0x500008 => (List.range m).map fun i => .ringWrite (f + i) 0
  | 0x50000A => [.scInc 0]
  | _ => []

/-- What a read finds refused: ring values of a read-locked K2, counter values of a read-locked K3 (21, R528, R538). -/
def State.readLocked (s : State) (num : Nat) : Bool :=
  (num == 0x500008 && bit (s.get R.KEEP_LOCKST_RD) 2) || (num == 0x500009 && bit (s.get R.KEEP_LOCKST_RD) 3)

end Sys2Proof.Machine
end

