-- ==== Sys2Proof/Machine/Serve.lean ====
section
/-! DEFINITION. Machine/Serve.lean: requests of the dictionary, their waits and their stores, the binding table, the commands of R345, the policy
layer, and the dictionary at start-up (13, R332-R351). -/

namespace Sys2Proof.Machine

/-! ## Stores (R332, R372; 21, R527) -/

/-- The record that keeps an entry: partition K5, key, layout version, data; none where the block makes its own store or none is made. -/
def State.storeOf (s : State) (num : Nat) (d : List Byte) : Option (Bool × Nat × Nat × List Byte) :=
  if num = 0x500001 then none
  else if inRange num 0x210010 4 then some (true, num, s.groupVer 0x21, s.key (num - 0x210010))
  else if num = 0x50000E then some (true, 0xFF0000 + 2 * leAt d 0 1 + leAt d 1 1, 0, d.drop 2)
  else some (false, num, s.groupVer (num / 65536), d)

/-- A store enters the Keep write queue if there is room. -/
def State.storePush (num : Nat) (d : List Byte) (s : State) : State × Bool :=
  match s.storeOf num d with
  | none => (s, true)
  | some (k5, key, ver, x) => s.keepStore k5 key ver x

/-- On a Lead the store of an accepted write to a mirrored kept entry goes into CTRL of the record of the tick at which the write applies (R347). -/
def State.storeMark (num : Nat) (d : List Byte) (s : State) : State :=
  if s.lead && mirrored num then
    { s with rfl := { s.rfl with
        marks := s.rfl.marks ++ [{ addr := num, kind := 1, data := BitVec.ofNat 8 (s.groupVer (num / 65536)) :: d }] } }
  else s

/-- The Keep controller has served every request accepted up to `mark`. -/
def State.storeDone (s : State) (mark : Nat) : Bool := decide ((s.get R.KEEP_WSEQ_N + 2 ^ 32 - mark) % 2 ^ 32 < 2 ^ 31)

/-- The record holds what was to be stored: status 0x00, else 0x0A and a warning (R332). -/
def State.storeStatus (num : Nat) (d : List Byte) (s : State) : State × Nat :=
  match s.storeOf num d with
  | none => (s, 0)
  | some (k5, key, _, x) => if ((s.recOf k5 key).map KeepRec.data) = some x then (s, 0) else (s.warn 7 (num % 65536), 0x0A)

/-! ## Requests (R337, R342, R343) -/

/-- Answer a request, if its session is still open. -/
def State.answer (r : DictReq) (st : Nat) (d : List Byte) (s : State) : State :=
  match Store.find r.sess s.sess with
  | some x => if x.id = r.sid then s.sessReply r.sess (if r.write then 4 else 5) r.seq r.udp st d else s
  | none => s

/-- The data of a READ reply (14, R366). -/
def readData (t m : Nat) (d : List Byte) : List Byte := [BitVec.ofNat 8 t, BitVec.ofNat 8 m, 0#8, 0#8] ++ d

/-- A write of 0 to the enable of the port that carries the session (14, Corners). -/
def State.ownPort (s : State) (r : DictReq) : Bool :=
  match Store.find r.sess s.sess with
  | some x => r.num == 0x200001 && x.id == r.sid && decide (r.first ≤ x.port) && decide (x.port < r.first + r.n) && leAt r.data (x.port - r.first) 1 == 0
  | none => false

/-- The whole value of an entry after a write, as it is kept. -/
def State.keptData (s : State) (p : Param) (f : Nat) (d : List Byte) : List Byte :=
  if p.num = 0x50000E ∨ inRange p.num 0x210010 4 ∨ p.ty = 13 then d else patch (s.paramBytes p 0 p.count) (f * tySize p.ty) d

/-- The writes of an entry go to `TSK` fields, which a Lead in Run writes at the next tick (R338; 12, R305): only then is the write performed and its
value stored. -/
def Param.control (p : Param) : Bool := p.segs.any fun g => !g.cmd && inRange g.a 0x10007000 0xC20

/-- A write of a device or firmware parameter whose turn has come. One of the latch is applied at the next tick (R339). A kept one is applied only
when its store finds room (R332), and so is one that commands Keep (21, R530). A release of a scope by a Lead in Run is judged at the tick (R350). -/
def State.serveWrite (r : DictReq) (p : Param) (s : State) : State × Option DictReq :=
  if s.ownPort r then (s.answer r 6 [], none)
  else if !(keepAsks p.num r.first r.n).isEmpty && !s.keepRooms (keepAsks p.num r.first r.n) then (s, some r)
  else if latchApplied p.num then
    let s := { s with dict := { s.dict with batch := s.dict.batch ++ [(p.num, r.first, r.data)] } }
    if p.pers = 0 then (s.answer r 0 [], none) else (s, some { r with wait := .latch })
  else
    let q := s.devWrite p r.first r.data
    if q.2 ≠ 0 then (q.1.answer r q.2 [], none)
    else if (p.num = 0x71000E ∨ p.control) ∧ s.lead ∧ s.inRun then (q.1, some { r with wait := .latch })
    else if p.pers = 0 then (q.1.answer r 0 [], none)
    else
      let d := q.1.keptData p r.first r.data
      let t := (q.1.storeMark p.num d).storePush p.num d
      if t.2 then (t.1, some { r with data := d, wait := .store (t.1.get R.KEEP_QSEQ_N) }) else (s, some r)

/-- A request whose turn has come: the state, and the request if it waits further. -/
def State.serveReq (r : DictReq) (s : State) : State × Option DictReq :=
  match s.lookup r.num 3 with
  | (st, none) => (s.answer r st [], none)
  | (_, some x) =>
    if r.write then
      match x with
      | .header _ => (s.answer r 2 [], none)
      | .dev p => s.serveWrite r p
      | .user u =>
        if s.following then (s.answer r 6 [], none)
        else
          let q := s.defer { addr := u.addr + r.first * tySize u.ty, kind := 0, data := r.data, req := 4 }
          if q.2 then (q.1, some { r with wait := .latch }) else (q.1.answer r 0x0C [], none)
    else
      match x with
      | .user _ => (s, some { r with wait := .taken })
      | _ =>
        if s.readLocked r.num then (s.answer r 6 [], none) else (s.answer r 0 (readData x.ty r.n (s.entryBytes x r.first r.n)), none)

/-- A kept write that a latch has applied: the store of the value it left (R332, R342). -/
def State.serveRoom (r : DictReq) (s : State) : State × Option DictReq :=
  let t := s.storePush r.num r.data
  if t.2 then (t.1, some { r with wait := .store (t.1.get R.KEEP_QSEQ_N) }) else (s, some r)

/-- A request waits behind an earlier one of its entry (R337). Writes of a user entry enter the buffer in their order and wait together for the latch
(R342, 13 Corners); a read of one that a latch has written does not wait for the store (R343). -/
def DictReq.behind (q r : DictReq) : Bool :=
  q.num == r.num && !(isUserGroup (r.num / 65536) &&
    (if r.write then q.write && (q.wait == .latch || q.wait == .applied) && r.wait == .turn
     else match q.wait with | .room | .store _ => true | _ => false))

/-- Go through the requests in order. `kept` holds those that still wait. -/
def State.settleReqs (kept : List DictReq) : List DictReq → State → State × List DictReq
  | [], s => (s, kept)
  | r :: l, s =>
    if kept.any fun q => q.behind r then State.settleReqs (kept ++ [r]) l s
    else
      let q : State × Option DictReq := match r.wait with
        | .turn => s.serveReq r
        | .room => s.serveRoom r
        | .store m => if s.storeDone m then (let t := s.storeStatus r.num r.data; (t.1.answer r t.2 [], none)) else (s, some r)
        | _ => (s, some r)
      State.settleReqs (match q.2 with | some x => kept ++ [x] | none => kept) l q.1

/-- Stores that have waited for room. -/
def State.settleStores : List (Nat × List Byte) → State → State × List (Nat × List Byte)
  | [], s => (s, [])
  | x :: l, s => let q := s.storePush x.1 x.2; if q.2 then State.settleStores l q.1 else (s, x :: l)

/-- Serve what can be served: SV does, unless it is halted or hands over (25, R604; 26, R635). -/
def State.dictSettle (s : State) : State :=
  if s.halted 4 || s.upd.hand then s.keepSettle
  else
  let q := State.settleStores s.dict.stores s
  let s := { q.1 with dict := { q.1.dict with stores := q.2 } }
  let r := State.settleReqs [] s.dict.reqs s
  { r.1 with dict := { r.1.dict with reqs := r.2 } }.keepSettle

/-- A checked request joins the queue of its entry, at most 16 long (R337). -/
def State.enqueue (r : DictReq) (s : State) : State :=
  if 16 ≤ (s.dict.reqs.filter fun q => q.num == r.num).length then s.answer r 7 []
  else { s with dict := { s.dict with reqs := s.dict.reqs ++ [r] } }.dictSettle

/-- The checks that READ and WRITE share (R321-R329): the entry, or a status. `w`: the right asked for. -/
def State.requestEntry (s : State) (role num ver f m right : Nat) : Nat × Option Entry :=
  match s.lookup num role with
  | (st, none) => (st, none)
  | (_, some x) =>
    if right ≠ 0 ∧ roleBits x.acc role &&& right = 0 then (2, none)
    else if ver ≠ 0 ∧ ver ≠ s.groupVer (num / 65536) then (8, none)
    else if m = 0 ∨ x.count < f + m then (4, none)
    else if right ≠ 0 ∧ (bulkBounds num).isSome then (0x11, none)
    else (0, some x)

/-- ISAIL_READ: a READ of elements, or of a descriptor with f = 0 and m = 1 (14, R366). -/
def State.readRequest (i : Nat) (x : Sess) (m : Msg) (s : State) : State :=
  let num := leAt m.body 0 3
  let ver := leAt m.body 3 1
  let f := leAt m.body 4 1
  let n := leAt m.body 5 1
  let r : DictReq := { sess := i, sid := x.id, seq := m.seq, udp := m.udp, write := false, num := num, first := f, n := n, data := [], wait := .turn }
  if m.body.length ≠ 8 then s.answer r 9 []
  else if bit m.flags 2 then
    match s.requestEntry x.role num ver f n 0 with
    | (st, none) => s.answer r st []
    | (_, some y) => if f ≠ 0 ∨ n ≠ 1 then s.answer r 4 [] else s.answer r 0 (readData y.ty 1 (s.descriptor num y))
  else
    match s.requestEntry x.role num ver f n 1 with
    | (st, none) => s.answer r st []
    | (_, some y) => if 1012 < n * tySize y.ty then s.answer r 0x11 [] else s.enqueue r

/-- What the register behind an entry shows of a value that it refuses, where the checks of the dictionary refuse that value first (02, R54). -/
def State.refusalShown (num : Nat) (s : State) : State :=
  if num = 0x100001 ∨ num = 0x100002 then s.put R.TURN_STAT_PERR 1 else if num = 0x100005 then s.put R.TIME_STAT_SETERR 1 else s

/-- ISAIL_WRITE: the checks of R323-R329, and the whole request's values before anything is written (R325). -/
def State.writeRequest (i : Nat) (x : Sess) (m : Msg) (s : State) : State :=
  let num := leAt m.body 0 3
  let f := leAt m.body 4 1
  let n := leAt m.body 5 1
  let d := m.body.drop 8
  let r : DictReq := { sess := i, sid := x.id, seq := m.seq, udp := m.udp, write := true, num := num, first := f, n := n, data := d, wait := .turn }
  if m.body.length < 8 then s.answer r 9 []
  else
    match s.requestEntry x.role num (leAt m.body 3 1) f n 2 with
    | (st, none) => s.answer r st []
    | (_, some y) =>
      if leAt m.body 6 1 ≠ y.ty then s.answer r 3 []
      else if !dataOk y.ty n d then s.answer r 9 []
      else if !s.valuesOk num y f d then (s.refusalShown num).answer r 5 []
      else if num = 0x50000E ∧ n ≠ 10 then s.answer r 5 []
      else s.enqueue r

/-- ISAIL_READ and ISAIL_WRITE: the front message of the port, when it is the oldest request of the dictionary (R337). -/
def opIsailRead (p : Nat) (s : State) : State := if s.reqTurn p then s.serveFront p (fun m => m.svc == 5 && !m.isReply) State.readRequest else s
def opIsailWrite (p : Nat) (s : State) : State := if s.reqTurn p then s.serveFront p (fun m => m.svc == 4 && !m.isReply) State.writeRequest else s

/-! ## At the tick that applies (R339, R342, R345, R347) -/

/-- A write that this tick's latch has applied: a release is answered by what became of it (R350), any other waits for the latch end. Of a kept entry
the value it left is stored, on the Shadow too. -/
def State.reqApplied (r : DictReq) (s : State) : State × Option DictReq :=
  if r.wait ≠ .latch then (s, some r)
  else if r.num = 0x71000E then (s.answer r (if s.umbraFlag (leNat r.data) then 6 else 0) [], none)
  else
    match s.lookup r.num 3 with
    | (_, some x) =>
      let d := s.entryBytes x 0 x.count
      if x.pers = 1 then ((s.entryLook x 0 x.count).storeMark r.num d, some { r with data := d, wait := .applied }) else (s, some { r with wait := .applied })
    | (_, none) => (s, some { r with wait := .applied })

/-- Each request in order, those that still wait kept. -/
def State.throughReqs (f : DictReq → State → State × Option DictReq) (s : State) : State :=
  let q := s.dict.reqs.foldl (fun (a : State × List DictReq) r => let x := f r a.1; (x.1, a.2 ++ x.2.toList)) (s, [])
  { q.1 with dict := { q.1.dict with reqs := q.2 } }

/-- What the tick has applied of the dictionary's writes. -/
def State.dictApplied (s : State) : State :=
  let s := s.throughReqs State.reqApplied
  let l := s.dict.late
  let s := { s with dict := { s.dict with late := [], stores := s.dict.stores ++ l } }
  l.foldl (fun s x => s.storeMark x.1 x.2) s

/-! ## At latch end (R342, R343) -/

/-- A write of the latch that ends is answered, or its store begins. -/
def State.reqLatched (r : DictReq) (s : State) : State × Option DictReq :=
  if r.wait ≠ .applied then (s, some r)
  else
    match s.lookup r.num 3 with
    | (_, some x) => if x.pers = 1 then (s, some { r with wait := .room }) else (s.answer r 0 [], none)
    | (_, none) => (s.answer r 0 [], none)

/-- Writes of the latch that ends are done; reads fall due. -/
def State.dictLatchEnd (s : State) : State :=
  let s := (s.throughReqs State.reqLatched).dictSettle
  let due := s.dict.reqs.foldl
    (fun (a : List DictReq) r => a ++ [if r.wait = .taken ∧ !(a.any fun q => q.behind r) then { r with wait := .due } else r]) []
  { s with dict := { s.dict with reqs := due } }

/-- SV has resumed since the latch end whose work it owed: the work is done now (02, R44). -/
def State.svCatchUp (s : State) : State :=
  if s.seq.svOwed && !s.halted 4 then { s with seq := { s.seq with svOwed := false } }.dictLatchEnd else s

/-- An instance of the writer task is released and incomplete (R343). -/
def State.writerBusy (s : State) (w : Nat) : Bool := w < 48 && s.busy w

/-- USER_READ_TAKEN (R343): the reads that are due are taken. -/
def opUserReadTaken (s : State) : State :=
  let take : DictReq → State → State := fun r s =>
    match s.lookup r.num 3 with
    | (_, some (.user u)) => (s.entryLook (.user u) r.first r.n).answer r (if s.writerBusy u.writer then 0x0B else 0) (readData u.ty r.n (s.entryBytes (.user u) r.first r.n))
    | (st, _) => s.answer r st []
  let s := s.svCatchUp
  let l := s.dict.reqs.filter fun r => r.wait == .due
  let s := { s with dict := { s.dict with reqs := s.dict.reqs.filter fun r => r.wait != .due } }
  (l.foldl (fun s r => take r s) s).dictSettle

/-! ## The commands of R345 -/

/-- The groups that an argument names, or a status. -/
def State.groupArg (s : State) (g : Nat) : Nat × List Nat :=
  if g = 0xFF then (0, devGroups ++ ((List.range 64).map (· + 0x80)).filter fun x => s.groupVer x != 0)
  else if g = 0xF0 then (2, [])
  else if isUserGroup g then (if s.groupVer g = 0 then (0x0D, []) else (0, [g]))
  else if devGroups.contains g then (0, [g])
  else (1, [])

/-- Entries of groups. -/
def State.groupDev (gs : List Nat) : List Param := gs.flatMap groupParams
def State.groupUser (s : State) (gs : List Nat) : List UEntry := s.dict.user.filter fun u => gs.contains (u.num / 65536)

/-- A value that a role may set and read back, and no command; the event and guard of a task share their bits with the period and offset that the
default trigger has (log entry 42). -/
def Param.settable (p : Param) : Bool :=
  !p.cmd && p.default.isSome && p.num != 0x110008 && p.num != 0x110009 && (List.range 4).any fun r => roleBits p.acc r == 3
def UEntry.writable (u : UEntry) : Bool := (List.range 4).any fun r => 2 ≤ roleBits u.acc r

/-- Writes of whole entries as one operation: device and firmware entries at the next tick, user entries in its latch. If any would be refused,
nothing changes (R345). -/
def State.writeAll (dev : List (Param × List Byte)) (user : List (UEntry × List Byte)) (s : State) : State × Nat :=
  let trial := dev.foldl (fun (a : State × Nat) x =>
    if a.2 ≠ 0 ∨ latchApplied x.1.num then a else a.1.devWrite x.1 0 x.2) (s, 0)
  if trial.2 ≠ 0 then (s, trial.2)
  else if s.following && !user.isEmpty then (s, 6)
  else
    let u := user.foldl (fun (a : State × Bool) x =>
      if a.2 then a.1.defer { addr := x.1.addr, kind := 0, data := x.2, req := 4 } else a) (s, true)
    if !u.2 then (s.put R.RFL_STAT_DWFULL 1, 0x0C)
    else ({ u.1 with dict := { u.1.dict with batch := u.1.dict.batch ++ dev.map fun x => (x.1.num, 0, x.2) } }, 0)

/-- Answer a COMMAND. -/
def State.cmdReply (i : Nat) (m : Msg) (st : Nat) (d : List Byte) (s : State) : State := s.sessReply i 3 m.seq m.udp st d

/-- A dictionary COMMAND: roles, argument and effect. -/
def State.dictCmd (roles : List Nat) (f : List Nat → State → State × Nat) (i : Nat) (x : Sess) (m : Msg) (s : State) : State :=
  if !roles.contains x.role then s.cmdReply i m 2 []
  else if m.body.length ≠ 5 then s.cmdReply i m 9 []
  else
    match s.groupArg (leAt m.body 4 1) with
    | (0, gs) => let q := f gs s; q.1.dictSettle.cmdReply i m q.2 []
    | (st, _) => s.cmdReply i m st []

def isCmd (code : Nat) (m : Msg) : Bool := m.svc == 3 && !m.isReply && decide (4 ≤ m.body.length) && m.code == code

/-- A command of R345 is a request of the dictionary: it is served when it is the oldest (R337). -/
def State.dictFront (p code : Nat) (f : Nat → Sess → Msg → State → State) (s : State) : State := if s.reqTurn p then s.serveFront p (isCmd code) f else s

/-- STORE (R345): the kept-on-command entries; no device or firmware entry is one. -/
def opStoreGroup (p : Nat) (s : State) : State :=
  s.dictFront p 0x0101 (State.dictCmd [2, 3] fun gs s =>
    let l := (s.groupUser gs).filter fun u => u.pers == 2
    let t : State := { s with dict := { s.dict with stores := s.dict.stores ++ l.map fun u => (u.num, s.entryBytes (.user u) 0 u.count) } }
    (l.foldl (fun s u => s.entryLook (.user u) 0 u.count) t, 0))

/-- DEFAULTS (R345). -/
def opDefaultsGroup (p : Nat) (s : State) : State :=
  s.dictFront p 0x0102 (State.dictCmd [3] fun gs s =>
    let dev := ((State.groupDev gs).filter Param.settable).map fun p => (p, p.default.getD [])
    let user := ((s.groupUser gs).filter UEntry.writable).map fun u => (u, u.dflt)
    let q := s.writeAll dev user
    if q.2 ≠ 0 then q
    else
      let st := (dev.filter fun x => x.1.pers == 1).map (fun x => (x.1.num, x.2)) ++ (user.filter fun x => x.1.pers == 1).map fun x => (x.1.num, x.2)
      ({ q.1 with dict := { q.1.dict with late := q.1.dict.late ++ st } }, 0))

/-- The stored value of an entry under its group's layout version. -/
def State.storedVal (s : State) (num : Nat) : Option (List Byte) :=
  match s.recOf false num with
  | some r => if r.ver = s.groupVer (num / 65536) then some r.data else none
  | none => none

/-- RELOAD (R345): entries with none stored keep their value. -/
def opReloadGroup (p : Nat) (s : State) : State :=
  s.dictFront p 0x0103 (State.dictCmd [2, 3] fun gs s =>
    let dev := ((State.groupDev gs).filter fun p => p.pers == 1 && p.settable).filterMap fun p => (s.storedVal p.num).map fun d => (p, d)
    let user := ((s.groupUser gs).filter fun u => u.pers != 0).filterMap fun u => (s.storedVal u.num).map fun d => (u, d)
    s.writeAll dev user)

/-- The batch of the next tick (R339, R345). -/
def State.batchApply (s : State) : State :=
  let l := s.dict.batch
  l.foldl (fun s x => match s.lookup x.1 3 with
    | (_, some (.dev p)) => (s.devWrite p x.2.1 x.2.2).1
    | _ => s) { s with dict := { s.dict with batch := [] } }

/-! ## The binding table (R333, R340, R341) -/

/-- Bytes of K4 that an entry takes (R333). -/
def keptSize (count size : Nat) : Nat := 8 + 4 * ceilDiv (count * size) 4

/-- Bytes that the firmware's kept entries take; the role keys, which K5 holds, count nothing (R333, R372). -/
def firmwareKept : Nat :=
  ((params.filter fun p => p.pers == 1 && !inRange p.num 0x210010 4).map fun p => keptSize p.count (tySize p.ty)).sum

/-- An entry of the table at byte offset `o`. -/
def bindEntry (t : List Byte) (o : Nat) : UEntry :=
  let ty := leAt t (o + 4) 1
  let n := leAt t (o + 5) 1
  { num := leAt t o 4, ty := ty, count := n, acc := leAt t (o + 6) 1, pers := leAt t (o + 7) 1, addr := leAt t (o + 8) 4,
    writer := leAt t (o + 12) 1, ranged := bit (leAt t (o + 13) 1) 0, lo := leAt t (o + 0x10) 8, hi := leAt t (o + 0x18) 8,
    dflt := let d := slice t (leAt t (o + 0x20) 4) (n * tySize ty); d ++ List.replicate (n * tySize ty - d.length) 0#8 }

/-- Where a bound variable may lie (R340). -/
def bindPlace (a n : Nat) : Bool :=
  ((List.range 4).any fun e => decide (0x02000000 + e * 0x40000 ≤ a) && decide (a + n ≤ 0x02040000 + e * 0x40000)) ||
    (decide (0x02100000 ≤ a) && decide (a + n ≤ 0x02200000)) || (decide (0x03001000 ≤ a) && decide (a + n ≤ 0x03005000))

def UEntry.size (u : UEntry) : Nat := u.count * tySize u.ty

/-- Parameter numbers ascend. -/
def ascending : List Nat → Bool
  | a :: b :: r => decide (a < b) && ascending (b :: r)
  | _ => true

/-- The check of a table: its result code (P00.0011) and its content. -/
def bindCheck (t : List Byte) : Nat × Option (List UEntry × List Nat × Nat) :=
  let e := leAt t 8 4
  let n := leAt t 0x0C 4
  if leAt t 0 4 ≠ 1 ∨ 1024 < e ∨ n < 0x60 + 40 * e ∨ t.length < n ∨ !zeroBytes (slice t 0x14 12) ∨
      leAt t 0x10 4 ≠ crc32 (patch (t.take n) 0x10 (List.replicate 4 0#8)) then (2, none)
  else
    let vers := (slice t 0x20 64).map BitVec.toNat
    let us := (List.range e).map fun i => bindEntry (t.take n) (0x60 + 40 * i)
    let w := us.filter UEntry.writable
    if !(us.all fun u => isUserGroup (u.num / 65536) && vers.getD (u.num / 65536 - 0x80) 0 != 0 && u.num % 65536 != 0 && u.num % 65536 != 65535) ||
        !ascending (us.map UEntry.num) then (3, none)
    else if !(us.all fun u => 1 ≤ u.ty && u.ty ≤ 15 && u.ty != 13 && 1 ≤ u.count && u.size ≤ 1024 && u.pers ≤ 2) then (4, none)
    else if !(us.all fun u => u.addr % tySize u.ty == 0 && bindPlace u.addr u.size) then (5, none)
    else if w.any (fun u => w.any fun v => u.num < v.num && u.addr < v.addr + v.size && v.addr < u.addr + u.size) then (6, none)
    else if 16384 < firmwareKept + ((us.filter fun u => u.pers != 0).map fun u => keptSize u.count (tySize u.ty)).sum then (7, none)
    else if !(us.all fun u => u.writer < 48 || u.writer == 0xFF) then (8, none)
    else (1, some (us, vers, leAt t 4 4))

/-- Check a table and stage it (R340). -/
def State.bindStage (t : List Byte) (s : State) : State :=
  let q := bindCheck t
  { s with dict := { s.dict with check := q.1, staged := match q.2 with | some x => some x | none => s.dict.staged } }

/-- A staged table takes effect (R341): kept entries that are new, or whose group's version differs, take their default in the next latch; keys no
longer kept get tombstones (21, R526). -/
def State.bindSwitch (s : State) : State :=
  match s.dict.staged with
  | none => s
  | some (us, vers, id) =>
    let old := s.dict.user
    let same := fun (u : UEntry) => vers.getD (u.num / 65536 - 0x80) 0 == s.groupVer (u.num / 65536)
    let fresh := (us.filter fun u => u.pers == 1 && !(same u && old.any fun v => v.num == u.num && v.pers == 1)).map UEntry.num
    let gone := (old.filter fun v => v.pers != 0 && !(us.any fun u => u.num == v.num && u.pers != 0)).map UEntry.num
    let s := gone.foldl (fun s k => s.keepWait false k 0 []) s
    { s with dict := { s.dict with user := us, vers := vers, bid := id, staged := none, fresh := fresh } }

/-- The defaults that the latch writes after a switch (R341): on a Lead in CTRL of the record too, from which a following Shadow takes them (12,
R305). -/
def State.bindFresh (s : State) : State :=
  let l : List UEntry := s.dict.user.filter fun u => s.dict.fresh.contains u.num
  let s : State := { s with dict := { s.dict with fresh := [], stores := s.dict.stores ++ l.map fun u => (u.num, u.dflt) } }
  if s.following then s
  else
    let s := if s.lead then { s with rfl := { s.rfl with marks := s.rfl.marks ++ l.map fun u => ({ addr := u.addr, kind := 0, data := u.dflt } : CtrlEnt) } } else s
    l.foldl (fun s u => (s.storeWords 4 u.addr u.dflt).1) s

/-- The table at a tick: what the last switch left to do, and a staged table, which takes effect in Hold or with a program switch (R341). -/
def State.bindTick (switched : Bool) (s : State) : State :=
  let s := if s.dict.fresh.isEmpty then s else s.bindFresh
  if s.inRun && !switched then s else s.bindSwitch

/-! ## The dictionary at start-up (R331, R334) -/

/-- A group joins the reset list (26, R641). -/
def State.resetListAdd (g : Nat) (s : State) : State :=
  let l := s.resetList
  s.keepWait true 0xFF0031 0 (patch l (g / 8) [BitVec.ofNat 8 (setBit (leAt l (g / 8) 1) (g % 8) true)])

/-- Groups of entries of which a record of another layout version is stored: they take their defaults, with a warning, and join the reset list. -/
def State.oddGroups (nums : List Nat) (s : State) : State × List Nat :=
  let l := ((nums.filter fun n => match s.recOf false n with | some r => r.ver != s.groupVer (n / 65536) | none => false).map fun n => n / 65536).eraseDups
  (l.foldl (fun s g => (s.warn 5 g).resetListAdd g) s, l)

/-- The value that an entry takes, and whether a note is due: none is stored, or its record fails its check. -/
def State.startVal (s : State) (odd : List Nat) (num : Nat) (x : Entry) (d : List Byte) : List Byte × Bool :=
  match s.recOf false num with
  | some r =>
    if odd.contains (num / 65536) then (d, false)
    else if dataOk x.ty x.count r.data && s.valuesOk num x 0 r.data then (r.data, false)
    else (d, true)
  | none => (d, true)

/-- Start-up (R341): the table of the program store, and every bound kept variable's stored value or default. -/
def State.bindLoad (s : State) : State :=
  let q := bindCheck (s.norBytes 0x00E00000 0x10000)
  match q.2 with
  | none => { s with dict := { s.dict with check := q.1 } }
  | some (us, vers, id) =>
    let s := { s with dict := { s.dict with check := 1, user := us, vers := vers, bid := id } }
    let l := us.filter fun u => u.pers != 0
    let o := s.oddGroups (l.map UEntry.num)
    l.foldl (fun s u =>
      let v := s.startVal o.2 u.num (.user u) u.dflt
      let s := (s.storeWords 4 u.addr v.1).1
      if v.2 then s.note 7 (u.num % 65536) else s) o.1

/-- Kept parameters that dictionary load sets: not those that K5 or a block keeps itself. -/
def loadable (p : Param) : Bool :=
  p.pers == 1 && p.default.isSome && !inRange p.num 0x210010 4 && p.num != 0x500001 && p.num != 0x50000E && p.num != 0x320012

/-- One entry takes its value, unless it has it. -/
def State.loadOne (p : Param) (d : List Byte) (s : State) : State := if s.paramBytes p 0 p.count = d then s else (s.devWrite p 0 d).1

/-- Entries whose register enables what the others configure are loaded last. -/
def loadOrder : List Param :=
  let last := fun (p : Param) => p.num == 0x200001 || p.num == 0x300005 || p.num == 0x400001 || p.num == 0x31000A
  let l := params.filter loadable
  (l.filter fun p => !last p) ++ l.filter last

/-- Volatile parameters that start from their default (R331). -/
def startVolatile : List Param := params.filter fun p => p.pers == 0 && p.settable && !p.segs.isEmpty

/-- Power-on counts: the start-up follows no system reset (24, R579). -/
def State.powerOnCount (s : State) (old : Nat) : Nat := if s.get R.RST_COUNT_SYS = 0 then (old + 1) % 2 ^ 32 else old

/-- Parameters take their defaults. -/
def State.loadDefaults (l : List Param) (s : State) : State := l.foldl (fun s p => s.loadOne p (p.default.getD [])) s

/-- Kept parameters take their stored values, or their defaults; groups of another version are named by `odd` (R334). -/
def State.loadKept (odd : List Nat) (l : List Param) (s : State) : State :=
  l.foldl
    (fun s p =>
      let v := s.startVal odd p.num (.dev p) (p.default.getD [])
      let s := s.loadOne p v.1
      if v.2 then s.note 7 (p.num % 65536) else s) s

/-- A stored U32, 0 where none is. -/
def State.storedNat (s : State) (n : Nat) : Nat := ((s.storedVal n).map fun d => leAt d 0 4).getD 0

/-- A note that an entry of a group that is not odd has no stored value (R334). -/
def State.lackNote (odd : List Nat) (n : Nat) (s : State) : State :=
  if odd.contains (n / 65536) || (s.storedVal n).isSome then s else s.note 7 (n % 65536)

/-- The operating hours and the power-on count of P00.000D and P00.000E; a new power-on is stored (R348). -/
def State.loadCounts (odd : List Nat) (s : State) : State :=
  let kept (n : Nat) : Nat := if odd.contains 0 then 0 else s.storedNat n
  let s := (s.lackNote odd 0x00000D).lackNote odd 0x00000E
  let on := s.powerOnCount (kept 0x00000E)
  let vals := Store.put 0x00000D (leBytes 4 (kept 0x00000D)) (Store.put 0x00000E (leBytes 4 on) s.dict.vals)
  let st := if on = kept 0x00000E then [] else [(0x00000E, leBytes 4 on)]
  { s with dict := { s.dict with vals := vals, stores := s.dict.stores ++ st } }

/-- The role keys held in K5 (14, R372). -/
def State.loadKeys (s : State) : State :=
  (List.range 4).foldl (fun s r => match s.recOf true (0x210010 + r) with | some k => s.setKey r (k.data.take 32) | none => s) s

/-- The kept life record (17, R456). -/
def State.loadLife (odd : List Nat) (s : State) : State :=
  let s := s.lackNote odd 0x320012
  { s with brick := { s.brick with kept := if odd.contains 0x32 then [] else (s.storedVal 0x320012).getD [] } }

/-- The dictionary-load step: stored values, or defaults; counts; role keys; the kept life record (R334). -/
def State.dictLoad (s : State) : State :=
  let o := (s.loadDefaults startVolatile).oddGroups (loadOrder.map Param.num ++ [0x00000D, 0x00000E, 0x320012])
  ((((o.1.loadKept o.2 loadOrder).loadCounts o.2).loadKeys).loadLife o.2).dictSettle

/-- Operating hours: one more at each full hour of this run (P00.000D; log entry 43). -/
def State.hoursTick (s : State) : State :=
  let h := (s.time.real - s.pwr.upAt) / 3600000000000
  if h ≤ s.dict.hours then s
  else
    let n := leAt (s.special 0x00000D) 0 4 + 1
    { s with dict := { s.dict with hours := s.dict.hours + 1, vals := Store.put 0x00000D (leBytes 4 n) s.dict.vals,
                                   stores := s.dict.stores ++ [(0x00000D, leBytes 4 n)] } }

/-! ## The policy layer (R351) -/

def State.trigAction (s : State) (k : Nat) : Nat := leAt (s.special 0x710001) k 1

/-- Trigger `k` is active and its action is `a`. -/
def State.trigWants (s : State) (a k : Nat) : Bool := bits (s.trigAction k) 1 2 == a && s.trigActive k

/-- Triggers that are no longer active lose their issued mark; Penumbra is left when no active trigger has it for its action. -/
def State.policyDrop (s : State) : State :=
  let need := (List.range 16).any (s.trigWants 1)
  let s := { s with dict := { s.dict with acted := packBits (fun k => bit s.dict.acted k && s.trigActive k) 16 } }
  if s.dict.pen && !need then opExcCmdPenleave 0 { s with dict := { s.dict with pen := false } } else s

/-- Device Penumbra for a trigger, entered once. -/
def State.policyPen (s : State) : State :=
  let asked := s.exc.dCmd || s.rfl.dw.any fun c => c.kind == 1 && c.addr == 0x1000C008 && leNat c.data == 1024
  let s := { s with dict := { s.dict with pen := true } }
  if asked then s else opExcCmdPenenter 0 s

/-- The policy layer asks for Hold (R351). -/
def State.policyHold (s : State) : State := { opModeRequest 1 s with dict := { (opModeRequest 1 s).dict with hold := true } }

/-- POLICY_ACTION: the action of trigger `k` is issued (R351); a repeated occurrence gives a NOTIFY only. -/
def opPolicyAction (k : Nat) (s : State) : State :=
  if s.phase != .up || s.halted 4 || s.upd.hand then s
  else
    let s := s.policyDrop
    if !s.trigActive k then s
    else
      let a := s.trigAction k
      let n := s.dict.hits.getD k 0
      let first := !bit s.dict.acted k
      let s := { s with dict := { s.dict with acted := setBit s.dict.acted k true, hits := Store.del k s.dict.hits } }
      let s := if (bit a 0 || k == 11) && (first || n != 0) then (List.range (max 1 n)).foldl (fun s _ => s.noteFor 1 k 0 s.now) s else s
      if bits a 1 2 = 1 then s.policyPen
      else if !first then s
      else if bits a 1 2 = 2 then opExcCmdEnter 0 s
      else if bits a 1 2 = 3 then s.policyHold
      else s

/-- At each tick: Penumbra is held for every active trigger that has been acted on, and a Hold request that was refused is repeated while its trigger
is active. -/
def State.policyTick (s : State) : State :=
  let s := s.policyDrop
  let s := if (List.range 16).any fun k => s.trigWants 1 k && bit s.dict.acted k then s.policyPen else s
  let s := { s with dict := { s.dict with hold := s.dict.hold && s.inRun && (s.pwr.want == some 1 || s.get R.SYS_MODEREQ_REASON != 0) } }
  if s.dict.hold && s.pwr.want.isNone && ((List.range 16).any fun k => bits (s.trigAction k) 1 2 == 3 && bit s.dict.acted k) then s.policyHold else s

/-! ## The Keep controller's progress is what stores wait for (R332) -/

def execKeepRequestServed (fail : Nat) (s : State) : Host.Outcome State Fault Refusal := .next (opKeepRequestServed fail s).dictSettle
def execRetainSaveComplete (s : State) : Host.Outcome State Fault Refusal := .next (opRetainSaveComplete s).dictSettle
def execRetainBankEraseComplete (s : State) : Host.Outcome State Fault Refusal := .next (opRetainBankEraseComplete s).dictSettle
def execIsailRead (p : Fin 6) (s : State) : Host.Outcome State Fault Refusal := .next (opIsailRead p s)
def execIsailWrite (p : Fin 6) (s : State) : Host.Outcome State Fault Refusal := .next (opIsailWrite p s)
def execUserReadTaken (s : State) : Host.Outcome State Fault Refusal := .next (opUserReadTaken s)
def execStoreGroup (p : Fin 6) (s : State) : Host.Outcome State Fault Refusal := .next (opStoreGroup p s)
def execDefaultsGroup (p : Fin 6) (s : State) : Host.Outcome State Fault Refusal := .next (opDefaultsGroup p s)
def execReloadGroup (p : Fin 6) (s : State) : Host.Outcome State Fault Refusal := .next (opReloadGroup p s)
def execPolicyAction (k : Fin 16) (s : State) : Host.Outcome State Fault Refusal := .next (opPolicyAction k s)

end Sys2Proof.Machine
end

