-- ==== Sys2Proof/Machine/Services.lean ====
section
/-! DEFINITION. Machine/Services.lean: sessions, maps, notifications and bulk transfers (14, R364-R383). Each command of a received message takes
the message at the front of a port's receive queue, if it is of its kind. -/

namespace Sys2Proof.Machine

/-! ## Opening a session (R368-R370, R372) -/

/-- PBKDF2-HMAC-SHA-256 of 32 bytes (RFC 8018): one block. -/
def pbkdf (pw salt : List Byte) (rounds : Nat) : List Byte :=
  let u := hmac256 pw (salt ++ [0#8, 0#8, 0#8, 1#8])
  ((List.range (rounds - 1)).foldl (fun (a : List Byte × List Byte) _ => let v := hmac256 pw a.1; (v, List.zipWith (· ^^^ ·) a.2 v)) (u, u)).2

/-- The unique identifier as bytes in element order (P00.0004). -/
def uidBytes : List Byte := (List.range 4).flatMap fun i => leBytes 4 (Config.uid i).toNat

/-- The key of the empty password (R372). -/
def emptyKey : List Byte := pbkdf [] uidBytes 10000

/-- A role key is stored. -/
def State.roleStored (s : State) (r : Nat) : Bool := (s.recOf true (0x210010 + r)).isSome

/-- The key under which an OPEN of a role on a port is checked, and whether it is the empty password's. -/
def State.openKey (s : State) (p r : Nat) : Option (List Byte × Bool) :=
  if s.roleStored r then some (s.key r, false) else if r = 3 ∧ p = 1 then some (emptyKey, true) else none

/-- An OPEN that fails authentication (R370). -/
def State.openFailed (p : Nat) (s : State) : State :=
  let s := s.portDrop p 3
  let l := (s.now :: (s.port p).fails).filter fun t => s.now < t + 60000000000
  if s.fwNat 0x210014 1 5 ≤ l.length then
    (((s.upPort p fun q => { q with fails := [], lockAt := s.now }).put R.FP_STAT_LOCKOUT 1 p).portErr p 8).warn 7 p
  else s.upPort p fun q => { q with fails := l }

/-- A reply to OPEN, under the role key. -/
def State.openReply (p udp st sid : Nat) (key d : List Byte) (s : State) : State :=
  let b := leBytes 4 0 ++ [BitVec.ofNat 8 st, 0#8, 0#8, 0#8] ++ d
  let m := msgHeader 0x10 1 sid 0 b.length ++ b
  (s.portSend p 0x10 udp (m ++ trailer key m) false).1

/-- A session ID that is not 0 and not in use. -/
def State.freshId (s : State) : Nat × State :=
  let q := s.rng
  let used := s.sess.map fun x => x.2.id
  let bad := fun (v : Nat) => v == 0 || used.contains v
  (if bad q.1 then ((List.range 18).find? fun v => !bad v).getD 1 else q.1, q.2)

/-- Open the session (R368). -/
def State.openGrant (p r udp i : Nat) (key nc : List Byte) (s : State) : State :=
  let q := s.freshId
  let n := q.2.nonce
  let s := n.2
  let ks := hmac256 key (chars "ISAIL-S" ++ nc ++ n.1 ++ leBytes 4 q.1)
  let x : Sess :=
    { id := q.1, role := r, port := p, epoch := false, rx := 0, tx := 0, old := none, rekey := none, last := s.now, rekeyAt := 0, maps := [], evs := 0,
      trigs := 0, notes := [], bulk := none, mon := false }
  let s := { s with sess := Store.put i x s.sess }.setKey (4 + i) ks
  s.openReply p udp 0 q.1 key ([BitVec.ofNat 8 r, 0#8] ++ leBytes 2 (s.fwNat 0x210001 2 60) ++ leBytes 4 q.1 ++ n.1)

/-- OPEN (R368-R370). -/
def opOpenSession (p : Nat) (s : State) : State :=
  match s.front p with
  | none => s
  | some (udp, raw) =>
    match parseMsg udp raw with
    | none => s
    | some m =>
      if m.svc ≠ 0x10 ∨ m.isReply ∨ m.sid ≠ 0 ∨ s.halted 4 ∨ s.upd.hand then s
      else
        let s := s.popFront p
        let r := leAt m.body 0 1
        if s.is R.FP_STAT_LOCKOUT p then s
        else if m.body.length ≠ 20 ∨ 3 < r then s.openFailed p
        else
          match s.openKey p r with
          | none => s.openFailed p
          | some (k, empty) =>
            if trailer k m.covered ≠ m.trail then s.openFailed p
            else
              let s := s.partnerHeard p
              let s := if empty then s.warn 7 p else s
              if !bit (s.get R.FP_CFG_ROLES p) r then s.openReply p udp 0x13 0 k []
              else
                match (List.range 16).find? fun i => (Store.find i s.sess).isNone with
                | none => s.openReply p udp 0x12 0 k []
                | some i =>
                  if s.get R.FP_CFG_MAXSESS p ≤ (s.portSess p).length then s.openReply p udp 0x12 0 k []
                  else s.openGrant p r udp i k (slice m.body 4 16)

/-- OPEN_LOCKOUT_END (R370). -/
def opOpenLockoutEnd (p : Nat) (s : State) : State :=
  if s.is R.FP_STAT_LOCKOUT p then (s.advance ((s.port p).lockAt + s.fwNat 0x210015 2 60 * 1000000000)).put R.FP_STAT_LOCKOUT 0 p else s

/-! ## Closing, keeping and rekeying (R371, R373) -/

def opCloseSession (p : Nat) (s : State) : State :=
  s.serveFront p (fun m => m.svc == 0x12 && !m.isReply) fun i _ m s => (s.sessReply i 0x12 m.seq m.udp 0 []).sessClose i

def opKeepAlive (p : Nat) (s : State) : State := s.serveFront p (fun m => m.svc == 0x1E && !m.isReply) fun _ _ _ s => s

/-- SESSION_IDLE_TIMEOUT (R371). -/
def opSessionIdleTimeout (i : Nat) (s : State) : State :=
  match Store.find i s.sess with
  | none => s
  | some x => (s.advance (x.last + s.fwNat 0x210001 2 60 * 1000000000)).sessClose i

/-- Trailer jobs of a session's MAPs, which go out under the new key: numbers from `n` on, and the other EPOCH (R365, R373). -/
def cmRenumber (i : Nat) : Nat → List CmJob → List CmJob
  | _, [] => []
  | n, j :: r =>
    if j.sess = i then
      { j with seq := n, bytes := patch (patch j.bytes 2 (leBytes 2 (leAt j.bytes 2 2 ^^^ 2))) 8 (leBytes 4 n) } :: cmRenumber i (n + 1) r
    else j :: cmRenumber i n r

/-- Maps that are prepared take numbers from `n` on. -/
def prepRenumber : Nat → List PubMap → List PubMap
  | _, [] => []
  | n, q :: r =>
    match q.prep with
    | some (_, d) => { q with prep := some (n, d) } :: prepRenumber (n + 1) r
    | none => q :: prepRenumber n r

/-- The new key governs; sequences restart, with the MAPs that have not gone out yet (R373). -/
def State.rekeyed (i : Nat) (mine theirs : List Byte) (s : State) : State :=
  let k := s.key (4 + i)
  let s := s.setKey (4 + i) (hmac256 k (chars "ISAIL-R" ++ mine ++ theirs))
  let n := (s.crypto.cm.filter fun j => j.sess == i).length
  let s : State := { s with crypto := { s.crypto with cm := cmRenumber i 1 s.crypto.cm } }
  s.upSess i fun x =>
    { x with epoch := !x.epoch, old := some (k, x.rx), rx := 0, tx := n + (x.maps.filter fun q => q.prep.isSome).length, rekey := none, rekeyAt := s.now,
             maps := prepRenumber (n + 1) x.maps }

/-- REKEY (R373): the client's request, or its reply to the device's. -/
def opRekeySession (p : Nat) (s : State) : State :=
  s.serveFront p (fun m => m.svc == 0x11) fun i x m s =>
    if m.isReply then
      match x.rekey with
      | some (seq, n) => if leAt m.body 0 4 = seq ∧ leAt m.body 4 1 = 0 ∧ m.body.length = 24 then s.rekeyed i n (m.body.drop 8) else s
      | none => s
    else if m.body.length ≠ 16 then s.sessReply i 0x11 m.seq m.udp 9 []
    else
      let n := s.nonce
      (n.2.sessReply i 0x11 m.seq m.udp 0 n.1).rekeyed i m.body n.1

/-- REKEY_OLD_KEY_EXPIRY (R373). -/
def opRekeyOldKeyExpiry (i : Nat) (s : State) : State :=
  match Store.find i s.sess with
  | none => s
  | some x => if x.old.isSome then (s.advance (x.rekeyAt + 1000000000)).upSess i fun x => { x with old := none } else s

/-! ## Receive maps (R376) -/

/-- Bytes that receive map `k` of port `p` takes. -/
def State.rmapLen (s : State) (p k : Nat) : Nat := s.get R.FP_RMAP_B_COUNT p k * (if s.is R.FP_RMAP_A_AREA p k then 4 else 1)

/-- MAP (R376): staged in every receive map of the port that it meets. -/
def opMapMessage (p : Nat) (s : State) : State :=
  s.serveFront p (fun m => m.svc == 1 && !m.isReply) fun _ x m s =>
    let d := m.body.drop 12
    let hit := (List.range 4).filter fun k =>
      s.is R.FP_RMAP_A_EN p k && bit (s.get R.FP_RMAP_A_ROLES p k) x.role && leAt m.body 0 1 == s.get R.FP_RMAP_A_ID p k && d.length == s.rmapLen p k
    if m.body.length < 12 ∨ hit.isEmpty then s.portDrop p 0x0F
    else s.upPort p fun q => { q with maps := hit.foldl (fun t k => Store.put k { data := d, inv := bit m.flags 3 } t) q.maps }

/-! ## Publish maps (R374, R375) -/

/-- Offset and size of an image area that a map may carry. -/
def pubArea (c : Nat) : Option (Nat × Nat) :=
  if c = 0 then some (0, 0x800) else if c = 1 then some (0x800, 0x800) else if 4 ≤ c ∧ c ≤ 8 then some (0x5000 + (c - 4) * 0x2000, 0x2000) else none

/-- Item `j` of a create body, 8 bytes. -/
def pubItem (b : List Byte) (j : Nat) : List Byte := slice b (7 + 8 * j) 8

/-- Bytes of an item's data before padding, or none if a rule of R374 is broken. -/
def State.itemLen (s : State) (role : Nat) (t : List Byte) : Option Nat :=
  if leAt t 0 1 = 0 then
    match s.requestEntry role (leAt t 4 3) (leAt t 7 1) (leAt t 1 1) (leAt t 2 1) 1 with
    | (0, some x) => if leAt t 3 1 = 0 then some (leAt t 2 1 * tySize x.ty) else none
    | _ => none
  else if leAt t 0 1 = 1 then
    match pubArea (leAt t 1 1) with
    | some (_, n) =>
      let o := leAt t 2 2
      let l := leAt t 4 2
      if 1 ≤ l ∧ l ≤ 1012 ∧ o + l ≤ n ∧ leAt t 6 2 = 0 ∧ (leAt t 1 1 < 4 ∨ (o % 4 = 0 ∧ l % 4 = 0)) then some l else none
    | none => none
  else none

/-- A create body is good: its data length, or none. -/
def State.createOk (s : State) (role : Nat) (b : List Byte) : Bool :=
  let n := leAt b 1 1
  let per := leAt b 3 2
  let l := (List.range n).map fun j => s.itemLen role (pubItem b j)
  decide (leAt b 0 1 ≤ 7) && decide (1 ≤ n) && decide (n ≤ 32) && leAt b 2 1 == 0 && decide (1 ≤ per) && decide (per ≤ 4096) && decide (leAt b 5 2 < per) &&
    b.length == 7 + 8 * n && l.all Option.isSome && decide ((l.map fun x => ceilDiv (x.getD 0) 4 * 4).sum ≤ 1012)

/-- Maps of the device. -/
def State.mapCount (s : State) : Nat := (s.sess.map fun x => x.2.maps.length).sum

def opSubscribe (op : Nat) (p : Nat) (f : Nat → Sess → Msg → State → State) (s : State) : State :=
  s.serveFront p (fun m => m.svc == 6 && !m.isReply && leAt m.body 0 1 == op && !m.body.isEmpty) f

/-- SUBSCRIBE_CREATE (R374). -/
def opSubscribeCreate (p : Nat) (s : State) : State :=
  opSubscribe 1 p (fun i x m s =>
    let b := m.body.drop 1
    let id := leAt b 0 1
    let have_ := x.maps.any fun q => q.id == id
    if !s.createOk x.role b ∨ (!have_ && decide (16 ≤ s.mapCount)) then s.sessReply i 6 m.seq m.udp 0x15 []
    else
      let s := s.upSess i fun y =>
        { y with maps := if have_ then y.maps.map fun q => if q.id = id then { q with next := some b } else q
                         else y.maps ++ [{ id := id, body := b, next := none, prep := none, owed := false }] }
      s.sessReply i 6 m.seq m.udp 0 []) s

/-- SUBSCRIBE_DELETE (R374). -/
def opSubscribeDelete (p : Nat) (s : State) : State :=
  opSubscribe 2 p (fun i x m s =>
    let id := leAt m.body 1 1
    if m.body.length ≠ 5 ∨ !(x.maps.any fun q => q.id == id) then s.sessReply i 6 m.seq m.udp 0x15 []
    else (s.upSess i fun y => { y with maps := y.maps.filter fun q => q.id != id }).sessReply i 6 m.seq m.udp 0 []) s

/-- SUBSCRIBE_NOTIFICATIONS (R374). -/
def opSubscribeNotifications (p : Nat) (s : State) : State :=
  opSubscribe 3 p (fun i _ m s =>
    let evs := leAt m.body 4 36
    let trigs := leAt m.body 40 2
    if m.body.length ≠ 44 ∨ !((setBits 288 evs).all evNotify) then s.sessReply i 6 m.seq m.udp 0x15 []
    else
      let s := s.upSess i fun y =>
        let y := { y with evs := evs, trigs := trigs }
        { y with notes := y.notes.filter fun n => y.wants n.kind n.src || (n.kind == 1 && decide (16 ≤ n.src)) }
      s.sessReply i 6 m.seq m.udp 0 []) s

/-- SUBSCRIBE_LIST (R374). -/
def opSubscribeList (p : Nat) (s : State) : State :=
  opSubscribe 4 p (fun i x m s =>
    s.sessReply i 6 m.seq m.udp 0 (x.maps.flatMap (fun q => q.next.getD q.body) ++ [0#8, 0#8, 0#8] ++ leBytes 36 x.evs ++ leBytes 2 x.trigs ++ leBytes 2 0)) s

/-- The data of an item: `late`: taken at the commit, of areas Q and QW; what is taken at the other instant is given by `old`. -/
def State.itemData (s : State) (t : List Byte) (late : Bool) (old : List Byte) : List Byte × Bool :=
  if leAt t 0 1 = 0 then
    if late then (old, false)
    else match s.lookup (leAt t 4 3) 3 with
      | (_, some x) => (s.entryBytes x (leAt t 1 1) (leAt t 2 1), match x with | .user u => s.writerBusy u.writer | _ => false)
      | _ => (List.replicate old.length 0#8, false)
  else
    let c := leAt t 1 1
    let out := c == 1 || c == 6 || c == 7
    if out == late then (s.mbs (0x03000000 + ((pubArea c).getD (0, 0)).1 + leAt t 2 2) (leAt t 4 2), false) else (old, false)

/-- SV reads the parameter items of a map (09, R221). -/
def State.mapLook (s : State) (b : List Byte) : State :=
  (List.range (leAt b 1 1)).foldl (fun s j =>
    let t := pubItem b j
    if leAt t 0 1 ≠ 0 then s
    else match s.lookup (leAt t 4 3) 3 with
      | (_, some x) => s.entryLook x (leAt t 1 1) (leAt t 2 1)
      | _ => s) s

def padTo4 (l : List Byte) : List Byte := l ++ List.replicate (ceilDiv l.length 4 * 4 - l.length) 0#8

/-- Items in order, each padded: the data, and whether any parameter item is stale. -/
def State.mapData (s : State) (role : Nat) (b : List Byte) : Nat → Bool → List Byte → List Byte × Bool
  | 0, _, _ => ([], false)
  | n + 1, late, old =>
    let j := leAt b 1 1 - (n + 1)
    let t := pubItem b j
    let l := (s.itemLen role t).getD 0
    let x := s.itemData t late (if late then old.take l else List.replicate l 0#8)
    let r := State.mapData s role b n late (old.drop (ceilDiv l 4 * 4))
    (padTo4 x.1 ++ r.1, x.2 || r.2)

/-- A map is due in the turn whose A is `a` (R375). -/
def pubDue (b : List Byte) (a : Nat) : Bool := (a + leAt b 3 2 - leAt b 5 2) % leAt b 3 2 == 0

/-- A map is due in this turn (R375). -/
def State.dueNow (s : State) (q : PubMap) : Bool := pubDue (q.next.getD q.body) s.seq.abs

/-- One session's maps are prepared at latch end, those that `due` picks (R375). -/
def State.pubSess (due : PubMap → Bool) (i : Nat) (s : State) : State :=
  match Store.find i s.sess with
  | none => s
  | some x =>
    x.maps.foldl
      (fun s q =>
        let b := q.next.getD q.body
        if !due q then s
        else
          let d := s.mapData x.role b (leAt b 1 1) false []
          (s.mapLook b).upSess i fun y =>
            { y with tx := y.tx + 1,
                     maps := y.maps.map fun w =>
                       if w.id = q.id then { w with body := b, next := none, prep := some (y.tx + 1, 16 * b2n d.2, leBytes 8 s.seq.abs ++ d.1) } else w }) s

/-- Preparation of the maps that `due` picks; the sequences move on (R365, R375). -/
def State.pubWork (due : PubMap → Bool) (s : State) : State := (s.sess.map Prod.fst).foldl (fun s i => (s.pubSess due i).seqGuard i) s

/-- Change every publish map. -/
def State.upMaps (f : PubMap → PubMap) (s : State) : State :=
  { s with sess := s.sess.map fun x => (x.1, { x.2 with maps := x.2.maps.map f }) }

/-- Latch end: a Lead or simplex unit in Run prepares its due maps; SV halted, or a handover, leaves them owed (R375, R383; 26, R635). -/
def State.pubPrep (s : State) : State :=
  if !s.inRun || s.following then s
  else if s.halted 4 || s.upd.hand then s.upMaps fun q => { q with owed := s.dueNow q }
  else s.pubWork s.dueNow

/-- The tick comes: what SV has been able to do since, it has done; a map that is still owed is not sent, and MAPLATE says so (R375). -/
def State.pubLate (s : State) : State :=
  let s := if s.halted 4 || s.upd.hand then
      s.sess.foldl (fun s x => if x.2.maps.any PubMap.owed then s.put R.FP_STAT_MAPLATE 1 x.2.port else s) s
    else s.pubWork PubMap.owed
  s.upMaps fun q => { q with owed := false }

/-- At the commit of the next tick the areas Q and QW are added and the trailer is asked for (R375). -/
def State.pubCommit (s : State) : State :=
  (s.sess.map Prod.fst).foldl
    (fun s i =>
      match Store.find i s.sess with
      | none => s
      | some x =>
        x.maps.foldl
          (fun s q =>
            match q.prep with
            | none => s
            | some (seq, fl, d) =>
              let data := (s.mapData x.role q.body (leAt q.body 1 1) true (d.drop 8)).1
              let b := [BitVec.ofNat 8 q.id, 0#8, 0#8, 0#8] ++ d.take 8 ++ data
              let m := msgHeader 1 (fl + 2 * b2n x.epoch) x.id seq b.length ++ b
              let s := s.upSess i fun y => { y with maps := y.maps.map fun w => if w.id = q.id then { w with prep := none } else w }
              ({ s with crypto := { s.crypto with cm := s.crypto.cm ++ [{ sess := i, seq := seq, bytes := m }] } } : State).qStore 15 m.length) s) s

/-- A sequence whose maps are not sent, as far as no later message has one (R375). -/
def seqBack (maps : List PubMap) (tx : Nat) : Nat :=
  (maps.filterMap PubMap.prep).reverse.foldl (fun n q => if n = q.1 then n - 1 else n) tx

/-- Prepared maps are dropped where no commit takes place (02, R43), and their sequences are not used (R375). -/
def State.pubDrop (s : State) : State :=
  { s with sess := s.sess.map fun x => (x.1, { x.2 with tx := seqBack x.2.maps x.2.tx, maps := x.2.maps.map fun q => { q with prep := none } }) }

/-! ## Notifications (R377; 23, R558) -/

/-- Put a NOTIFY body into the queue; that of EV 264 may take the token. -/
def State.notePut (i : Nat) (n : NoteSt) (body : List Byte) (s : State) : State × Nat :=
  match Store.find i s.sess with
  | none => (s, 0)
  | some x =>
    let q := s.sessPut i 2 0 (s.get R.FP_UDPPORT_PORT x.port) body (n.kind == 0 && n.src == 264)
    (q.1, if q.2 then ((Store.find i q.1.sess).map Sess.tx).getD 0 else 0)

/-- Change a session's NOTIFY state of a source or trigger. -/
def State.upNote (i kind src : Nat) (f : NoteSt → Option NoteSt) (s : State) : State :=
  s.upSess i fun x => { x with notes := x.notes.filterMap fun n => if n.kind = kind ∧ n.src = src then f n else some n }

/-- NOTIFY_SEND (R377). -/
def opNotifySend (i kind src : Nat) (s : State) : State :=
  match (Store.find i s.sess).bind fun x => x.notes.find? fun n => n.kind == kind && n.src == src with
  | none => s
  | some n =>
    if n.count = 0 ∨ n.sent.isSome ∨ s.halted 4 then s
    else
      let b := [BitVec.ofNat 8 kind, BitVec.ofNat 8 n.count] ++ leBytes 2 src ++ leBytes 2 n.pay ++ [BitVec.ofNat 8 (s.get R.RFL_CFG_UNIT), 0#8] ++
        leBytes 8 n.first ++ leBytes 8 n.last
      let q := s.notePut i n b
      (q.1.upNote i kind src fun n => some { n with count := 0, sent := some (q.2, b), tries := 0 }).seqGuard i

/-- NOTIFY_ACK (R377). -/
def opNotifyAck (p : Nat) (s : State) : State :=
  s.serveFront p (fun m => m.svc == 2 && m.isReply) fun i _ m s =>
    s.upSess i fun x => { x with notes := x.notes.filterMap fun n => match n.sent with
      | some (q, _) => if q = leAt m.body 0 4 ∧ q ≠ 0 then (if n.count = 0 then none else some { n with sent := none, tries := 0 }) else some n
      | none => some n }

/-- NOTIFY_REPEAT (R377): sent again at most 3 times, then dropped with a note logged. -/
def opNotifyRepeat (i kind src : Nat) (s : State) : State :=
  match (Store.find i s.sess).bind fun x => x.notes.find? fun n => n.kind == kind && n.src == src with
  | none => s
  | some n =>
    match n.sent with
    | none => s
    | some (_, b) =>
      if 3 ≤ n.tries then (s.upNote i kind src fun n => if n.count = 0 then none else some { n with sent := none, tries := 0 }).note 7 src
      else
        let q := s.notePut i n b
        (q.1.upNote i kind src fun n => some { n with sent := some (q.2, b), tries := n.tries + 1 }).seqGuard i

/-! ## Bulk transfers (R378) -/

/-- The content of a bulk object at the start of a BULK-READ. -/
def State.bulkObject (s : State) (num : Nat) : List Byte :=
  if num = 0x410010 then s.mbs 0x06000000 65536
  else if num = 0x510010 then
    let failed := s.is R.LOG_STAT_FAILED
    let ram := markHeld s.logPending s.log.ram
    let l := if failed then ram else s.logEntries ++ ram.filter LogEntry.ramOnly
    [1#8, BitVec.ofNat 8 (b2n failed)] ++ leBytes 2 0 ++ leBytes 4 l.length ++ leBytes 8 0 ++ l.flatMap LogEntry.record
  else if num = 0x700010 then
    let t := s.norBytes 0x00E00000 0x10000
    if (bindCheck t).1 = 2 then [] else t.take (leAt t 0x0C 4)
  else []

/-- Bank that is not executing. -/
def State.otherBank (s : State) : Nat := 1 - s.get R.UPD_BOOT_BANK

/-- Where an object that goes into the flash stands. -/
def State.bulkBase (s : State) (num e : Nat) : Option Nat :=
  if num = 0x700001 then some (svBank s.otherBank) else if num = 0x700010 then some 0x00E00000
  else if num = 0x700011 then some (0x00A00000 + e * 0x100000) else none

def State.setBulk (i : Nat) (b : Option BulkSt) (s : State) : State := s.upSess i fun x => { x with bulk := b }

/-- The checks at the start that both directions share: status, or the bounds of the object. -/
def State.bulkCheck (s : State) (x : Sess) (m : Msg) (right : Nat) : Nat × Nat × Nat :=
  let num := leAt m.body 4 3
  let ver := leAt m.body 7 1
  match s.lookup num x.role with
  | (st, none) => (st, 0, 0)
  | (_, some y) =>
    match bulkBounds num with
    | none => (0x16, 0, 0)
    | some (lo, hi) =>
      if num = 0x510010 ∧ right = 2 then (0x16, 0, 0)
      else if roleBits y.acc x.role &&& right = 0 then (2, 0, 0)
      else if ver ≠ 0 ∧ ver ≠ s.groupVer (num / 65536) then (8, 0, 0)
      else if y.count ≤ leAt m.body 1 1 then (0x14, 0, 0)
      else if x.bulk.isSome then (0x16, 0, 0)
      else (0, lo, hi)

/-- The start of an image of the inactive bank: the bank is erased (26, R632). -/
def State.bulkErase (num : Nat) (s : State) : State :=
  if num = 0x700001 then (s.bankTouched s.otherBank).norErase (svBank s.otherBank) bankSize else s

def isBulk (svc op : Nat) (m : Msg) : Bool := m.svc == svc && !m.isReply && 4 ≤ m.body.length && leAt m.body 0 1 == op

/-- BULK_WRITE_START (R378). -/
def opBulkWriteStart (p : Nat) (s : State) : State :=
  s.serveFront p (isBulk 7 0) fun i x m s =>
    let num := leAt m.body 4 3
    let total := leAt m.body 8 4
    let q := s.bulkCheck x m 2
    let rep := fun st (s : State) => s.sessReply i 7 m.seq m.udp st (leBytes 4 0)
    if m.body.length ≠ 16 then rep 9 s
    else if q.1 ≠ 0 then rep q.1 s
    else if total < q.2.1 ∨ q.2.2 < total ∨ (num = 0x700001 ∧ total % 256 ≠ 64) then rep 0x14 s
    else if num = 0x410010 ∧ (List.range 8).any (fun k => s.get R.WAVE_CH_STAT_STATE k == 1 || s.get R.WAVE_CH_STAT_STATE k == 2) then rep 6 s
    else if num = 0x410010 ∧ s.following then rep 6 s
    else if (s.bulkBase num 0).isSome ∧ !s.is R.UPD_FINFO_OK then rep 0x14 s
    else
      let b : BulkSt := { write := true, pnum := num, elem := leAt m.body 1 1, total := total, crc := leAt m.body 12 4, acked := 0, sent := 0, data := [],
                          at_ := s.now }
      rep 0 ((s.bulkErase num).setBulk i (some b))

/-- A complete object with a correct CRC takes effect. -/
def State.bulkDone (b : BulkSt) (s : State) : State :=
  if b.pnum = 0x410010 then (s.storeWords 4 0x06000000 b.data).1
  else if b.pnum = 0x700010 then
    let s := s.bindStage b.data
    if s.dict.check = 1 then (s.norErase 0x00E00000 0x10000).norProgram 0x00E00000 b.data else s
  else if b.pnum = 0x700011 then (s.norErase (0x00A00000 + b.elem * 0x100000) 0x100000).norProgram (0x00A00000 + b.elem * 0x100000) b.data
  else s

/-- BULK_WRITE_SEGMENT (R378): the reply gives the count, from which the sender goes on; the final one the result. -/
def opBulkWriteSegment (p : Nat) (s : State) : State :=
  s.serveFront p (isBulk 7 1) fun i x m s =>
    let rep := fun st n (s : State) => s.sessReply i 7 m.seq m.udp st (leBytes 4 n)
    let d := m.body.drop 8
    match x.bulk with
    | none => rep 0x14 0 s
    | some b =>
      if !b.write ∨ leAt m.body 1 1 ≠ b.elem ∨ leAt m.body 4 4 ≠ b.acked ∨ d.isEmpty ∨ b.total < b.acked + d.length then rep 0x14 b.acked s
      else
        let b := { b with data := b.data ++ d, acked := b.acked + d.length, at_ := s.now }
        let s := if b.pnum = 0x700001 then
            (s.bankTouched s.otherBank).norProgram (svBank s.otherBank + b.acked - d.length) d
          else s
        if b.acked < b.total then rep 0 b.acked (s.setBulk i (some b))
        else if b.pnum = 0x410010 ∧ s.following then rep 6 b.acked (s.setBulk i none)
        else if crc32 b.data = b.crc then rep 0 b.acked ((s.setBulk i none).bulkDone b)
        else rep 0x14 b.acked (s.setBulk i none)

/-- Segments that may still be sent: at most 4 are unacknowledged. -/
def bulkWindow (b : BulkSt) : Nat := 4 - ceilDiv (b.sent - b.acked) 1016

/-- The device sends segments, as far as the transmit queue has room. -/
def State.bulkPump (i : Nat) : Nat → State → State
  | 0, s => s
  | n + 1, s =>
    match (Store.find i s.sess).bind fun x => x.bulk.map fun b => (x, b) with
    | none => s
    | some (x, b) =>
      if b.write ∨ b.total ≤ b.sent ∨ !s.txRoom x.port then s
      else
        let d := slice b.data b.sent 1016
        let q := s.sessPut i 8 0 (s.get R.FP_UDPPORT_PORT x.port) ([1#8, BitVec.ofNat 8 b.elem, 0#8, 0#8] ++ leBytes 4 b.sent ++ d) false
        if q.2 then State.bulkPump i n (q.1.setBulk i (some { b with sent := b.sent + d.length })) else q.1

/-- Room in a transmit queue lets the transfers of its port go on; SV does it. -/
def State.bulkResume (p : Nat) (s : State) : State :=
  if s.halted 4 || s.upd.hand then s
  else s.sess.foldl (fun s x => match x.2.bulk with
    | some b => if x.2.port = p then (s.bulkPump x.1 (bulkWindow b)).seqGuard x.1 else s
    | none => s) s

/-- TRANSMIT_DONE (R382, R356; R378). -/
def opTransmitDone (p : Nat) (s : State) : State := (s.txDone p).bulkResume p

/-- BULK_READ_START (R378): the reply gives total and CRC; the content is taken now. -/
def opBulkReadStart (p : Nat) (s : State) : State :=
  s.serveFront p (isBulk 8 0) fun i x m s =>
    let num := leAt m.body 4 3
    let q := s.bulkCheck x m 1
    let rep := fun st d (s : State) => s.sessReply i 8 m.seq m.udp st d
    if m.body.length ≠ 16 then rep 9 [] s
    else if q.1 ≠ 0 then rep q.1 [] s
    else
      let o := s.bulkObject num
      let d := slice o (leAt m.body 8 4) (leAt m.body 12 4)
      if o.length < leAt m.body 8 4 then rep 0x14 [] s
      else
        let b : BulkSt := { write := false, pnum := num, elem := leAt m.body 1 1, total := d.length, crc := crc32 d, acked := 0, sent := 0, data := d,
                            at_ := s.now }
        let s := rep 0 (leBytes 4 b.total ++ leBytes 4 b.crc) (if d.isEmpty then s else s.setBulk i (some b))
        s.bulkPump i 4

/-- The client's reply to a segment that did not carry on where its count stands: status 0x14 and the count (R378). -/
def Msg.bulkBack (m : Msg) : Option Nat :=
  if m.svc == 8 && m.isReply && decide (12 ≤ m.body.length) && leAt m.body 4 1 == 0x14 then some (leAt m.body 8 4) else none

/-- BULK_ACK (R378): cumulative; a reply with status 0x14 has the device resume from its count. -/
def opBulkAck (p : Nat) (s : State) : State :=
  s.serveFront p (fun m => isBulk 8 3 m || (m.svc == 8 && m.isReply)) fun i x m s =>
    match x.bulk with
    | none => s
    | some b =>
      let n := m.bulkBack.getD (leAt m.body 4 4)
      if b.write ∨ n < b.acked ∨ b.sent < n ∨ (m.isReply ∧ m.bulkBack.isNone) ∨ (!m.isReply ∧ leAt m.body 1 1 ≠ b.elem) then s
      else if b.total ≤ n then s.setBulk i none
      else
        let b := { b with acked := n, sent := if m.isReply then n else b.sent, at_ := s.now }
        (s.setBulk i (some b)).bulkPump i (bulkWindow b)

/-- The count that a reply of BULK-WRITE carries (R366). -/
def Sess.bulkCount (x : Sess) (m : Msg) : List Byte :=
  if m.svc = 7 then leBytes 4 (match x.bulk with | some b => if b.write then b.acked else 0 | none => 0) else []

/-- BULK_ABORT (R378) by the client; what a bank or the memory holds by then stays. -/
def opBulkAbort (p : Nat) (s : State) : State :=
  s.serveFront p (fun m => isBulk 7 2 m || isBulk 8 2 m) fun i x m s =>
    (s.setBulk i none).sessReply i m.svc m.seq m.udp (if x.bulk.isSome then 0 else 0x14) (x.bulkCount m)

/-- BULK_TIMEOUT (R378): 2 s without a segment or acknowledgement. -/
def opBulkTimeout (i : Nat) (s : State) : State :=
  match (Store.find i s.sess).bind Sess.bulk with
  | none => s
  | some b => (s.advance (b.at_ + 2000000000)).setBulk i none

/-! ## Messages that no other command serves (R364) -/

/-- COMMAND codes that the spec names (R345; 25, R621; 26). -/
def knownCode (c : Nat) : Bool := inRange c 0x0101 3 || inRange c 0x0201 12 || inRange c 0x0701 8

/-- Another command serves the message. -/
def Msg.claimed (m : Msg) : Bool :=
  (m.svc == 0x10 && !m.isReply && m.sid == 0) || m.svc == 0x11 || (m.isReply && (m.svc == 2 || m.svc == 8)) ||
    (!m.isReply && (m.svc == 1 || m.svc == 4 || m.svc == 5 || m.svc == 0x12 || m.svc == 0x1E ||
      (m.svc == 3 && decide (4 ≤ m.body.length) && knownCode m.code) ||
      (m.svc == 6 && !m.body.isEmpty && inRange (leAt m.body 0 1) 1 4) ||
      (m.svc == 7 && decide (4 ≤ m.body.length) && decide (leAt m.body 0 1 ≤ 2)) ||
      (m.svc == 8 && decide (4 ≤ m.body.length) && (leAt m.body 0 1 == 0 || leAt m.body 0 1 == 2 || leAt m.body 0 1 == 3))))

/-- UNKNOWN_SERVICE (R364): status 0x10; a message that fails check 0x06 is discarded. -/
def opUnknownService (p : Nat) (s : State) : State :=
  match s.front p with
  | none => s
  | some (udp, raw) =>
    match parseMsg udp raw with
    | none => if s.halted 4 || s.upd.hand then s else (s.popFront p).portDrop p 6
    | some _ =>
      s.serveFront p (fun m => !m.claimed) fun i x m s =>
        if m.isReply then s
        else
          let s := if m.svc = 3 ∧ 4 ≤ m.body.length ∧ inRange m.code 0x0200 0x100 ∧ x.role = 3 then s.upSess i fun y => { y with mon := true } else s
          s.sessReply i m.svc m.seq m.udp (if m.svc = 6 then 0x15 else if m.svc = 7 ∨ m.svc = 8 then 0x14 else 0x10) (x.bulkCount m)

def execOpenSession (p : Fin 6) (s : State) : Host.Outcome State Fault Refusal := .next (opOpenSession p s)
def execOpenLockoutEnd (p : Fin 6) (s : State) : Host.Outcome State Fault Refusal := .next (opOpenLockoutEnd p s)
def execCloseSession (p : Fin 6) (s : State) : Host.Outcome State Fault Refusal := .next (opCloseSession p s)
def execKeepAlive (p : Fin 6) (s : State) : Host.Outcome State Fault Refusal := .next (opKeepAlive p s)
def execSessionIdleTimeout (i : Fin 16) (s : State) : Host.Outcome State Fault Refusal := .next (opSessionIdleTimeout i s)
def execRekeySession (p : Fin 6) (s : State) : Host.Outcome State Fault Refusal := .next (opRekeySession p s)
def execRekeyOldKeyExpiry (i : Fin 16) (s : State) : Host.Outcome State Fault Refusal := .next (opRekeyOldKeyExpiry i s)
def execMapMessage (p : Fin 6) (s : State) : Host.Outcome State Fault Refusal := .next (opMapMessage p s)
def execSubscribeCreate (p : Fin 6) (s : State) : Host.Outcome State Fault Refusal := .next (opSubscribeCreate p s)
def execSubscribeDelete (p : Fin 6) (s : State) : Host.Outcome State Fault Refusal := .next (opSubscribeDelete p s)
def execSubscribeNotifications (p : Fin 6) (s : State) : Host.Outcome State Fault Refusal := .next (opSubscribeNotifications p s)
def execSubscribeList (p : Fin 6) (s : State) : Host.Outcome State Fault Refusal := .next (opSubscribeList p s)
def execNotifySend (i : Fin 16) (k : Fin 2) (src : Nat) (s : State) : Host.Outcome State Fault Refusal := .next (opNotifySend i k src s)
def execNotifyAck (p : Fin 6) (s : State) : Host.Outcome State Fault Refusal := .next (opNotifyAck p s)
def execNotifyRepeat (i : Fin 16) (k : Fin 2) (src : Nat) (s : State) : Host.Outcome State Fault Refusal := .next (opNotifyRepeat i k src s)
def execBulkWriteStart (p : Fin 6) (s : State) : Host.Outcome State Fault Refusal := .next (opBulkWriteStart p s)
def execBulkWriteSegment (p : Fin 6) (s : State) : Host.Outcome State Fault Refusal := .next (opBulkWriteSegment p s)
def execBulkReadStart (p : Fin 6) (s : State) : Host.Outcome State Fault Refusal := .next (opBulkReadStart p s)
def execBulkAck (p : Fin 6) (s : State) : Host.Outcome State Fault Refusal := .next (opBulkAck p s)
def execBulkAbort (p : Fin 6) (s : State) : Host.Outcome State Fault Refusal := .next (opBulkAbort p s)
def execTransmitDone (p : Fin 6) (s : State) : Host.Outcome State Fault Refusal := .next (opTransmitDone p s)
def execBulkTimeout (i : Fin 16) (s : State) : Host.Outcome State Fault Refusal := .next (opBulkTimeout i s)
def execUnknownService (p : Fin 6) (s : State) : Host.Outcome State Fault Refusal := .next (opUnknownService p s)

end Sys2Proof.Machine
end

