-- ==== Sys2Proof/Machine/Update.lean ====
section
/-! DEFINITION. Machine/Update.lean: the update commands and the firmware handover (26, R631-R646). -/

namespace Sys2Proof.Machine

/-- An update COMMAND, of the Custodian alone: a refusal answers 0x06 with its reason code (R646). -/
def opUpdateCmd (code p : Nat) (f : List Byte → State → State × Nat × List Byte) (s : State) : State :=
  s.serveFront p (isCmd code) fun i x m s =>
    if x.role ≠ 3 then s.cmdReply i m 2 []
    else
      let q := f (m.body.drop 4) s
      q.1.cmdReply i m q.2.1 q.2.2

/-- A command done, or refused with a code that `UPD.STAT.ERR` shows as well. -/
def State.updDone (d : List Byte) (s : State) : State × Nat × List Byte := (s, 0, d)
def State.updRefused (code : Nat) (s : State) : State × Nat × List Byte := (s.put R.UPD_STAT_ERR code, 6, [BitVec.ofNat 8 code])

/-- VERIFY (R633). -/
def State.fwVerify (s : State) : State × Nat × List Byte :=
  let b := s.otherBank
  let bad := fun (c : Nat) => (s.raise 268 b).updRefused c
  match s.header b with
  | none => bad 1
  | some h => if s.headerCrc b h.len then ({ s with upd := { s.upd with verified := setBit s.upd.verified b true } }.raise 267 b).updDone [] else bad 2

/-- Groups whose layout versions differ between two headers: their places in `FwHeader.groups`; the last is group 0xF0. -/
def groupDiff (a b : FwHeader) : List Nat :=
  ((List.range 129).filter fun g => a.groups.getD g 0 != b.groups.getD g 0).map fun g => if g = 128 then 0xF0 else g

/-- The new image accepts the format that the running one writes, or a lower one that it can write (R634). -/
def formatsOk (run new : FwHeader) : Bool := decide (new.fmtMin ≤ run.fmt)

/-- DRYRUN (R642). -/
def State.fwDryrun (s : State) : State × Nat × List Byte :=
  let b := s.otherBank
  let ver := bit s.upd.verified b
  match s.header (s.get R.UPD_BOOT_BANK), s.header b with
  | some r, some n =>
    let g := if ver then groupDiff r n else []
    let fl := b2n (ver && formatsOk r n) + 2 * b2n (r.compat == n.compat) + 4 * b2n ver
    ({ s with upd := { s.upd with dry := some (g, r.compat, n.compat, fl) } }).updDone
      (setOf 256 (fun x => g.contains x) ++ leBytes 2 r.compat ++ leBytes 2 n.compat ++ leBytes 1 fl)
  | _, _ => ({ s with upd := { s.upd with dry := some ([], s.upd.compat, 0, 4 * b2n ver) } }).updDone
      (List.replicate 32 0#8 ++ leBytes 2 s.upd.compat ++ leBytes 2 0 ++ leBytes 1 (4 * b2n ver))

/-- Why SCHEDULE is refused (R634). -/
def State.scheduleErr (s : State) (a : Nat) : Option Nat :=
  if !bit s.upd.verified s.otherBank then some 0x10
  else if a < s.seq.abs + 2 then some 0x11
  else if s.upd.at_.isSome || (List.range 4).any (fun e => (s.prg.getD e PrgSt.reset).at_ == some a) then some 0x12
  else if !(match s.header (s.get R.UPD_BOOT_BANK), s.header s.otherBank with | some r, some n => formatsOk r n | _, _ => false) then some 0x13
  else if s.following || (s.lead && s.is R.RFL_STAT_READY) then some 0x14
  else if s.phase == .standby || (s.pwr.standby && s.pwr.wbDue == false) then some 0x15
  else none

/-- SCHEDULE (R634). -/
def State.fwSchedule (d : List Byte) (s : State) : State × Nat × List Byte :=
  if d.length ≠ 8 then (s, 9, [])
  else
    match s.scheduleErr (leNat d) with
    | some c => s.updRefused c
    | none => (({ s with upd := { s.upd with at_ := some (leNat d) } }.put64 R.UPD_AT_LO_A R.UPD_AT_HI_A (leNat d)).put R.UPD_CTL_HOSCHED 1).updDone []

/-- CANCEL (R634). -/
def State.fwCancel (s : State) : State × Nat × List Byte := ({ s with upd := { s.upd with at_ := none } }.put R.UPD_CTL_HOSCHED 0).updDone []

/-- A system reset with cause 0x05 follows 10 µs later (R643). -/
def State.resetSoon (s : State) : State := { s with lan := { s.lan with rst := some (5, s.now) } }

/-- The unit belongs to a pair (R287). -/
def State.pairMember (s : State) : Bool := s.is R.RFL_CFG_MODE

/-- ACTIVATE (R643). -/
def State.fwActivate (d : List Byte) (s : State) : State × Nat × List Byte :=
  let b := s.otherBank
  let equal := match s.header (s.get R.UPD_BOOT_BANK), s.header b with | some r, some n => r.compat == n.compat | _, _ => false
  if !bit s.upd.verified b then s.updRefused 0x10
  else if s.pairMember && !equal && leAt d 0 1 != 1 then s.updRefused 0x17
  else ((s.bootWrite b (s.get R.UPD_BOOT_BANK) (s.fwNat 0x700009 1 3) false).resetSoon).updDone []

/-- ROLLBACK (R643): the previous bank, confirmed. -/
def State.fwRollback (d : List Byte) (s : State) : State × Nat × List Byte :=
  let b := s.bootRec.prev
  let equal := match s.header (s.get R.UPD_BOOT_BANK), s.header b with | some r, some n => r.compat == n.compat | _, _ => false
  if (s.header b).isNone then s.updRefused 1
  else if s.pairMember && !equal && leAt d 0 1 != 1 then s.updRefused 0x17
  else ((s.bootWrite b (1 - b) (s.fwNat 0x700009 1 3) true).resetSoon).updDone []

def opFwVerify (p : Nat) (s : State) : State := opUpdateCmd 0x0701 p (fun _ s => s.fwVerify) s
def opFwDryrun (p : Nat) (s : State) : State := opUpdateCmd 0x0702 p (fun _ s => s.fwDryrun) s
def opFwSchedule (p : Nat) (s : State) : State := opUpdateCmd 0x0703 p State.fwSchedule s
def opFwCancel (p : Nat) (s : State) : State := opUpdateCmd 0x0704 p (fun _ s => s.fwCancel) s
def opFwActivate (p : Nat) (s : State) : State := opUpdateCmd 0x0705 p State.fwActivate s
/-- CONFIRM (R631). -/
def opFwConfirm (p : Nat) (s : State) : State := opUpdateCmd 0x0706 p (fun _ s => s.bootConfirm.updDone []) s
def opFwRollback (p : Nat) (s : State) : State := opUpdateCmd 0x0707 p State.fwRollback s
/-- CLEAR_RESET_LIST (R641). -/
def opFwClearResetList (p : Nat) (s : State) : State :=
  opUpdateCmd 0x0708 p (fun _ s => ((s.keepWait true 0xFF0031 0 (List.replicate 32 0#8)).keepSettle).updDone []) s

/-! ## The handover (R635-R640) -/

/-- Bytes that nobody chose: the sections of the handover record, whose fields the spec names without their encoding (log entry 44). -/
def State.freeBytes : Nat → State → List Byte × State
  | 0, s => ([], s)
  | n + 1, s => let f := s.free; let r := State.freeBytes n f.2; (BitVec.ofNat 8 f.1 :: r.1, r.2)

def State.recordAt (s : State) : Nat := s.get R.UPD_HREC_BASE * 0x1000

/-- Step 3 of R635: the handover record, and SV's caches. -/
def State.recordWrite (s : State) : State :=
  let h := s.header (s.get R.UPD_BOOT_BANK)
  let f := s.free
  let n := f.1 % (s.get R.UPD_HREC_SIZE * 0x400 - 40) * 4
  let q := f.2.freeBytes n
  let s := q.2
  let b := [0x59#8, 0x52#8, 0x48#8, 0x4F#8] ++ leBytes 2 ((h.map FwHeader.fmt).getD 0) ++ leBytes 2 0 ++ leBytes 4 (0xA0 + n + 4) ++
    leBytes 4 ((h.map FwHeader.version).getD 0) ++ ((h.map FwHeader.groups).getD []).map (BitVec.ofNat 8)
  let b := b ++ List.replicate (0xA0 - b.length) 0#8 ++ q.1
  let s := State.forAll (s.m.dcache.map Prod.fst) State.cleanLine s
  let s := { s with m := { s.m with icache := [] } }
  (s.storeWords 4 s.recordAt (b ++ leBytes 4 (crc32 b))).1

/-- The new firmware reads the record (09, R221). -/
def State.recordRead (s : State) : State × List Byte :=
  let q := s.memRead 4 s.recordAt (min (leNat (s.mbs (s.recordAt + 8) 4)) 0x10000)
  (q.1, q.2.1)

/-- The record passes its CRC and format checks (R637). -/
def recordOk (b : List Byte) (new : FwHeader) : Bool :=
  let n := leAt b 8 4
  slice b 0 4 == [0x59#8, 0x52#8, 0x48#8, 0x4F#8] && decide (new.fmtMin ≤ leAt b 4 2) && decide (0xA4 ≤ n) && decide (n ≤ 0x10000) &&
    leAt b (n - 4) 4 == crc32 (b.take (n - 4))

/-- A group resets (R640): defaults, tombstones of the old version's records, stores of the defaults, the reset list, a warning. -/
def State.groupReset (old g : Nat) (s : State) : State :=
  let l := (groupParams g).filter Param.settable
  let s := l.foldl (fun s p => (s.devWrite p 0 (p.default.getD [])).1) s
  let s := (l.filter fun p => (s.recOf false p.num).any fun r => r.ver == old).foldl (fun s p => s.keepWait false p.num old []) s
  let st := (l.filter loadable).map fun p => (p.num, p.default.getD [])
  ({ s with dict := { s.dict with stores := s.dict.stores ++ st } }.resetListAdd g).warn 5 g

/-- Sessions that a handover closes: all of them, or those of the monitor with a request outstanding (R637). -/
def State.handoverSessions (all : Bool) (s : State) : State :=
  let open_ := fun (i : Nat) (x : Sess) => x.mon && (!s.lan.replies.isEmpty || s.lan.queue.any fun q => match q.from_ with | some (j, _, _) => j == i | none => true)
  (s.sess.filter fun x => all || open_ x.1 x.2).foldl (fun s x => s.sessClose x.1) s

/-- HANDOVER_COMPLETE (R635 steps 3 to 5): the new firmware has taken over. -/
def opHandoverComplete (s : State) : State :=
  if !s.upd.hand then s
  else
    let b := s.otherBank
    let old := s.get R.UPD_BOOT_BANK
    match s.header b with
    | none => s
    | some n =>
      let good := recordOk s.recordRead.2 n
      let vers := slice s.recordRead.2 0x10 129
      let s := s.recordRead.1
      let gain := if good then (List.range 129).filter fun g => leAt vers g 1 != n.groups.getD g 0 else []
      let s := (s.put R.UPD_BOOT_BANK b).put R.UPD_BOOT_TRIAL 1
      let s := { s with upd := { s.upd with at_ := none, hand := false, done := true, since := s.time.real, compat := n.compat } }.put R.UPD_CTL_HOSCHED 0
      let s := if good then s else
        ({ s with dict := { s.dict with vals := s.dict.vals.filter (fun x => params.any fun p => p.num == x.1 && p.pers == 1), batch := [], reqs := [],
                                        edge := 0, hits := [], acted := 0, pen := false } }).warn 6 0
      let s := s.handoverSessions (!good || gain.contains 0x21)
      let s := gain.foldl (fun s g => s.groupReset (leAt vers g 1) (if g = 128 then 0xF0 else g)) s
      let s := s.raise 269 0
      let s := if gain.isEmpty then s else s.raise 271 gain.length
      let s := s.bootWrite b old (s.fwNat 0x700009 1 3) false
      let s := s.upE 4 fun x => { x with pc := 0x30000000 + svBank b + n.hand }
      (s.note 6 b).dictSettle

/-- CONFIRMATION_TIME (R631): firmware on trial has run P70.0008 seconds without a reset. -/
def opConfirmationTime (s : State) : State :=
  if s.phase == .up && s.is R.UPD_BOOT_TRIAL && decide (s.upd.since + s.fwNat 0x700008 2 600 * 1000000000 ≤ s.time.real) then s.bootConfirm else s

def execFwVerify (p : Fin 6) (s : State) : Host.Outcome State Fault Refusal := .next (opFwVerify p s)
def execFwDryrun (p : Fin 6) (s : State) : Host.Outcome State Fault Refusal := .next (opFwDryrun p s)
def execFwSchedule (p : Fin 6) (s : State) : Host.Outcome State Fault Refusal := .next (opFwSchedule p s)
def execFwCancel (p : Fin 6) (s : State) : Host.Outcome State Fault Refusal := .next (opFwCancel p s)
def execFwActivate (p : Fin 6) (s : State) : Host.Outcome State Fault Refusal := .next (opFwActivate p s)
def execFwConfirm (p : Fin 6) (s : State) : Host.Outcome State Fault Refusal := .next (opFwConfirm p s)
def execFwRollback (p : Fin 6) (s : State) : Host.Outcome State Fault Refusal := .next (opFwRollback p s)
def execFwClearResetList (p : Fin 6) (s : State) : Host.Outcome State Fault Refusal := .next (opFwClearResetList p s)
def execHandoverComplete (s : State) : Host.Outcome State Fault Refusal := .next (opHandoverComplete s)
def execConfirmationTime (s : State) : Host.Outcome State Fault Refusal := .next (opConfirmationTime s)

end Sys2Proof.Machine
end

