-- ==== Sys2Proof/Machine/Lantern.lean ====
section
/-! DEFINITION. Machine/Lantern.lean: the Lantern wire, its sessions and frames, and the Serys monitor (25, R591-R600, R620-R622).
Frames arrive whole: a frame in progress is no state of the model (log entry 45). -/

namespace Sys2Proof.Machine

/-! ## Frames (R596-R599) -/

/-- The wire is served: PD1 is on (R600; in Standby only while it is emulated, R619). -/
def State.wireUp (s : State) : Bool :=
  match s.phase with
  | .off | .reset => false
  | .standby => s.is R.LANT_STAT_EMUSTBY
  | .starting | .up => true

/-- A frame: command or status, TAG, LEN, payload, CRC low byte first (R596). -/
def lanFrame (c tag : Nat) (d : List Byte) : List Byte :=
  let b := [BitVec.ofNat 8 c, BitVec.ofNat 8 tag, BitVec.ofNat 8 d.length] ++ d
  b ++ leBytes 2 (crc16 b)

/-- The device's frame; an error status is shown in `LANT.STAT.WERR` (R599). -/
def State.lanSend (st tag : Nat) (d : List Byte) (s : State) : State :=
  let s := { s with lan := { s.lan with out := lanFrame st tag d } }
  if 0 < st ∧ st < 0x80 then s.put R.LANT_STAT_WERR st else s

/-- A host frame whose length and CRC are right: command, TAG, payload (R596). -/
def lanParse (f : List Byte) : Option (Nat × Nat × List Byte) :=
  let n := leAt f 2 1
  if 5 ≤ f.length ∧ n ≤ 64 ∧ f.length = 5 + n ∧ leAt f (3 + n) 2 = crc16 (f.take (3 + n)) then some (leAt f 0 1, leAt f 1 1, slice f 3 n) else none

def accSize (n : Nat) : Bool := n == 1 || n == 2 || n == 4

/-- Codes of the Serys monitor (R621). -/
def monCode (c : Nat) : Bool := inRange c 0x0201 12

/-- The payload is that of its command (R598); a MONITOR request of a code that is none of the monitor's counts as malformed (log entry 45). -/
def lanWellFormed (c : Nat) (d : List Byte) : Bool :=
  match c with
  | 0x01 => d.length == 16
  | 0x02 | 0x03 | 0x21 => d.isEmpty
  | 0x10 => d.length == 7 && accSize (leAt d 4 1) && decide (leAt d 6 1 * leAt d 4 1 ≤ 60)
  | 0x11 => decide (6 ≤ d.length) && accSize (leAt d 4 1) && decide (leAt d 5 1 * leAt d 4 1 ≤ 56) && d.length == 6 + leAt d 5 1 * leAt d 4 1
  | 0x20 => decide (2 ≤ d.length) && monCode (leAt d 0 2)
  | 0x30 => d.length == 1 && decide (leAt d 0 1 ≤ 1)
  | _ => false

/-- A frame of command `c` that the device serves: its session open, and authenticated but for OPEN, CLOSE and PING (R597). Any valid frame
restarts the idle time (R594). -/
def State.lanServe (c : Nat) (fr : List Byte) (f : Nat → List Byte → State → State) (s : State) : State :=
  if !s.wireUp then s
  else
    match lanParse fr with
    | none => s
    | some (c', tag, d) =>
      if c' ≠ c ∨ !lanWellFormed c d then s
      else
        let s := { s with lan := { s.lan with last := s.now } }
        if s.lan.wire = 0 ∨ (3 < c ∧ s.lan.wire ≠ 2) then s.lanSend 2 tag [] else f tag d s

/-! ## Sessions (R594-R597) -/

/-- WAKE_PATTERN (R597): ATTN with the unique identifier and a fresh nonce; a session that is open stays (R592). -/
def opWakePattern (s : State) : State :=
  if !s.wireUp || s.is R.LANT_STAT_LOCKOUT || s.lan.wire != 0 then s
  else
    let n := s.nonce
    let s := { n.2 with lan := { n.2.lan with wire := 1, nonce := n.1, last := s.now, waits := none } }
    (s.put R.LANT_STAT_WIRE 1).lanSend 0x80 0 (uidBytes ++ n.1)

/-- The Custodian role key as the Keep controller holds it, and whether it is the empty password's. -/
def State.lanKey (s : State) : List Byte × Bool :=
  match s.recOf true 0x210013 with
  | some r => (r.data, false)
  | none => (emptyKey, true)

/-- Judge an OPEN (R597). -/
def State.lanAuth (tag : Nat) (d : List Byte) (s : State) : State :=
  let k := s.lanKey
  let msg := [76#8, 65#8, 78#8, 84#8, 69#8, 82#8, 78#8] ++ s.lan.nonce ++ uidBytes
  if trailer k.1 msg = d then
    let s := if k.2 then s.warn 7 6 else s
    ({ s with lan := { s.lan with wire := 2 } }.put R.LANT_STAT_ATT 1).lanSend 0 tag []
  else
    let l := (s.now :: s.lan.fails).filter fun t => s.now < t + 60000000000
    let s := if s.fwNat 0x210014 1 5 ≤ l.length then
        { s with lan := { s.lan with fails := [], lockAt := s.now } }.put R.LANT_STAT_LOCKOUT 1
      else { s with lan := { s.lan with fails := l } }
    s.lanSend 3 tag []

/-- LANTERN_OPEN (R597): it waits for the end of recall. -/
def opLanternOpen (f : List Byte) (s : State) : State :=
  s.lanServe 1 f (fun tag d s =>
    if s.is R.LANT_STAT_LOCKOUT then s.lanSend 8 tag []
    else if s.is R.KEEP_STAT_RECALL then { s with lan := { s.lan with waits := some (tag, d) } }
    else s.lanAuth tag d)

/-- The OPEN that waited (R597). -/
def State.lanWaiting (s : State) : State :=
  match s.lan.waits with
  | some (tag, d) => if s.is R.KEEP_STAT_RECALL then s else { s with lan := { s.lan with waits := none } }.lanAuth tag d
  | none => s

/-- LANTERN_LOCKOUT_END (R597). -/
def opLanternLockoutEnd (s : State) : State :=
  if s.is R.LANT_STAT_LOCKOUT then (s.advance (s.lan.lockAt + s.fwNat 0x210015 2 60 * 1000000000)).put R.LANT_STAT_LOCKOUT 0 else s

/-- LANTERN_CLOSE (R594). -/
def opLanternClose (f : List Byte) (s : State) : State := s.lanServe 2 f (fun tag _ s => (s.lanSend 0 tag []).wireClose)

/-- LANTERN_IDLE_TIMEOUT (R594). -/
def opLanternIdleTimeout (s : State) : State :=
  if s.lan.wire = 0 ∨ s.get R.LANT_CTL_IDLETO = 0 then s else (s.advance (s.lan.last + s.get R.LANT_CTL_IDLETO * 1000000000)).wireClose

/-- LANTERN_PING (R598). -/
def opLanternPing (f : List Byte) (s : State) : State :=
  s.lanServe 3 f (fun tag _ s => s.lanSend 0 tag (leBytes 4 (s.regWord 0x10027004) ++ leBytes 4 (s.regWord 0x1002700C)))

/-- LANTERN_BREAK (R595): the frame in progress is abandoned, and nothing else happens. -/
def opLanternBreak (s : State) : State := s

/-- LANTERN_INVALID_CELL (R595), LANTERN_FRAME_TIMEOUT (R596): the frame is abandoned with wire error 0x01 or 0x02. -/
def opLanternInvalidCell (s : State) : State := if s.wireUp then s.put R.LANT_STAT_WERR 1 else s
def opLanternFrameTimeout (s : State) : State := if s.wireUp then s.put R.LANT_STAT_WERR 2 else s

/-- LANTERN_FRAME_ERROR (R596, R599): a bad CRC or length; an unknown command or a malformed payload. -/
def opLanternFrameError (f : List Byte) (s : State) : State :=
  if !s.wireUp then s
  else
    match lanParse f with
    | none => s.lanSend 1 0 []
    | some (c, tag, d) => if lanWellFormed c d then s else { s with lan := { s.lan with last := s.now } }.lanSend 7 tag []

/-! ## Accesses (R598, R601-R606) -/

/-- `k` reads of `n` bytes at consecutive addresses, up to the first whose status is not 0: the bytes of those done, their number, the status
(R602). -/
def State.lanReads : Nat → Bool → Nat → Nat → State → State × List Byte × Nat × Nat
  | 0, _, _, _, s => (s, [], 0, 0)
  | k + 1, loud, n, a, s =>
    let r := s.busRead loud 7 (a % 2 ^ 32) n
    if r.2.2 ≠ 0 then (r.1, [], 0, lanStatus r.2.2)
    else
      let q := State.lanReads k loud n (a + n) r.1
      (q.1, r.2.1 ++ q.2.1, q.2.2.1 + 1, q.2.2.2)

/-- `k` writes of `n` bytes each, likewise: the number done, the status. -/
def State.lanWrites : Nat → Nat → Nat → List Byte → State → State × Nat × Nat
  | 0, _, _, _, s => (s, 0, 0)
  | k + 1, n, a, l, s =>
    let r := s.busWrite 7 (a % 2 ^ 32) (l.take n)
    if r.2 ≠ 0 then (r.1, 0, lanStatus r.2)
    else
      let q := State.lanWrites k n (a + n) (l.drop n) r.1
      (q.1, q.2.1 + 1, q.2.2)

def lanAnswer (st : Nat) : Nat := if st = 0 then 0 else 4

/-- LANTERN_READ (R598, R603, R605). -/
def opLanternRead (f : List Byte) (s : State) : State :=
  s.lanServe 0x10 f (fun tag d s =>
    let q := s.lanReads (leAt d 6 1) (bit (leAt d 5 1) 0) (leAt d 4 1) (leAt d 0 4)
    q.1.lanSend (lanAnswer q.2.2.2) tag ([BitVec.ofNat 8 q.2.2.2, BitVec.ofNat 8 q.2.2.1] ++ q.2.1))

/-- LANTERN_WRITE (R598). -/
def opLanternWrite (f : List Byte) (s : State) : State :=
  s.lanServe 0x11 f (fun tag d s =>
    let q := s.lanWrites (leAt d 5 1) (leAt d 4 1) (leAt d 0 4) (d.drop 6)
    q.1.lanSend (lanAnswer q.2.2) tag [BitVec.ofNat 8 q.2.2, BitVec.ofNat 8 q.2.1])

/-! ## Resets (R591, R598, R620) -/

/-- LANTERN_RESET: the response goes first; kind 0 writes SYSRST through the access engine. -/
def opLanternReset (f : List Byte) (s : State) : State :=
  s.lanServe 0x30 f (fun tag d s =>
    let s := s.lanSend 0 tag []
    if leAt d 0 1 = 0 then (s.busWrite 7 0x10027003 [1#8]).1
    else
      let out := s.lan.out
      let s := s.debugReset
      { s with lan := { s.lan with out := out } })

/-- LANTERN_SYSRST (R620): the system reset 10 µs after the write, in emulated Standby too (DEDUCED, log entry 171). -/
def opLanternSysrst (s : State) : State :=
  match s.lan.rst with
  | none => s
  | some (c, t) =>
    let s := s.advance (t + 10000)
    { s with lan := { s.lan with rst := none } }.commandReset c

/-! ## The Serys monitor queue (R562, R598, R622) -/

def State.monPush (r : MonReq) (s : State) : State := { s with lan := { s.lan with queue := s.lan.queue ++ [r] } }.qStore 18 (8 + r.arg.length)

/-- LANTERN_MONITOR: one that finds the queue full receives status 0x05. -/
def opLanternMonitor (f : List Byte) (s : State) : State :=
  s.lanServe 0x20 f (fun tag d s =>
    if 8 ≤ s.lan.queue.length then s.lanSend 5 tag []
    else (s.monPush { from_ := none, code := leAt d 0 2, arg := d.drop 2 }).lanSend 0 tag [])

/-- LANTERN_MONPOLL: the next 60 bytes or fewer of the oldest reply. -/
def opLanternMonpoll (f : List Byte) (s : State) : State :=
  s.lanServe 0x21 f (fun tag _ s =>
    match s.lan.replies with
    | [] => s.lanSend 6 tag []
    | l :: t =>
      let rest := if l.length ≤ 60 then t else l.drop 60 :: t
      { s with lan := { s.lan with replies := rest } }.lanSend 0 tag (l.take 60))

/-- Answer a monitor request: to its session, or, for the wire, a status byte and the result (log entry 45). -/
def State.monReply (q : MonReq) (st : Nat) (d : List Byte) (s : State) : State :=
  match q.from_ with
  | some (i, seq, udp) => s.sessReply i 3 seq udp st d
  | none => { s with lan := { s.lan with replies := s.lan.replies ++ [BitVec.ofNat 8 st :: d] } }

/-- A monitor command of a session (R366, R562, R592): the front COMMAND of port `p` enters the queue. -/
def State.monTake (p code : Nat) (s : State) : State :=
  s.serveFront p (isCmd code) fun i x m s =>
    if x.role ≠ 3 then s.cmdReply i m 2 []
    else
      let s := s.upSess i fun y => { y with mon := true }
      if 8 ≤ s.lan.queue.length then s.cmdReply i m 7 [] else s.monPush { from_ := some (i, m.seq, m.udp), code := code, arg := m.body.drop 4 }

/-- A monitor row: with `p` below 6 a port's COMMAND enters the queue; with 6 SV serves the head of the queue. `f` gives the status and the
result of an argument, for `n` bytes of argument (none: its own check). -/
def State.monitor (code : Nat) (p : Fin 7) (n : Option Nat) (f : List Byte → State → State × Nat × List Byte) (s : State) : State :=
  if p.val < 6 then s.monTake p.val code
  else if s.halted 4 || s.upd.hand then s
  else
    match s.lan.queue with
    | [] => s
    | q :: t =>
      if q.code ≠ code then s
      else
        let s := s.qRead 18 (t.length + 1) 0 (8 + q.arg.length)
        let s := { s with lan := { s.lan with queue := t } }
        if (match n with | some n => q.arg.length != n | none => false) then s.monReply q 9 []
        else
          let r := f q.arg s
          r.1.monReply q r.2.1 r.2.2

/-! ## Monitor commands (R593, R621, R622) -/

/-- A command that writes the debugger's set-up while it is attached is refused (R593). -/
def State.monOwned (f : State → State × Nat × List Byte) (s : State) : State × Nat × List Byte :=
  if s.is R.LANT_STAT_ATT then (s, 6, []) else f s

/-- MREAD: 1000 bytes or fewer. -/
def opMonRead (p : Fin 7) (s : State) : State :=
  s.monitor 0x0201 p (some 8) fun d s =>
    let n := leAt d 4 1
    let k := leAt d 5 1
    if !accSize n || decide (1000 < k * n) then (s, 5, [])
    else
      let q := s.lanReads k (bit (leAt d 6 1) 0) n (leAt d 0 4)
      (q.1, 0, [BitVec.ofNat 8 q.2.2.2] ++ leBytes 2 q.2.2.1 ++ [0#8] ++ q.2.1)

/-- Bytes of the registers that the debugger owns while it is attached. -/
def lantBytes (a n : Nat) : Bool := (List.range n).any fun i => inRange (a + i) 0x10027000 0x1000 && lantOwned ((a + i - 0x10027000) / 4 * 4)

/-- MWRITE. -/
def opMonWrite (p : Fin 7) (s : State) : State :=
  s.monitor 0x0202 p none fun d s =>
    let n := leAt d 4 1
    let k := leAt d 5 1
    if d.length < 8 then (s, 9, [])
    else if !accSize n then (s, 5, [])
    else if d.length ≠ 8 + k * n then (s, 9, [])
    else if s.is R.LANT_STAT_ATT && lantBytes (leAt d 0 4) (k * n) then (s, 6, [])
    else
      let q := s.lanWrites k n (leAt d 0 4) (d.drop 8)
      (q.1, 0, [BitVec.ofNat 8 q.2.2] ++ leBytes 2 q.2.1 ++ [0#8])

/-- HALT: SV cannot be halted by the monitor (R622). -/
def opMonitorHalt (p : Fin 7) (s : State) : State :=
  s.monitor 0x0203 p (some 2) fun d => State.monOwned fun s =>
    let m := leAt d 0 1
    if 32 ≤ m ∨ 1 < leAt d 1 1 then (s, 5, [])
    else if bit m 4 then (s, 6, [])
    else (opHaltRequest m (bit (leAt d 1 1) 0) s, 0, [])

/-- RESUME. -/
def opMonitorResume (p : Fin 7) (s : State) : State :=
  s.monitor 0x0204 p (some 1) fun d => State.monOwned fun s => if 32 ≤ leAt d 0 1 then (s, 5, []) else (opResumeRequest (leAt d 0 1) s, 0, [])

/-- STEP: SV cannot be stepped by the monitor (R610, R622). -/
def opMonitorStep (p : Fin 7) (s : State) : State :=
  s.monitor 0x0205 p (some 1) fun d => State.monOwned fun s =>
    let m := leAt d 0 1
    if 32 ≤ m then (s, 5, []) else if bit m 4 then (s, 6, []) else (opStepRequest m s, 0, [])

/-- Bank as `LANT.Ee_SEL.BANK` takes it. -/
def selBank (b : Nat) : Bool := decide (b ≤ 12) || b == 15

/-- STATE READ: as `LANT.Ee_DATA` and `LANT.Ee_CORE.PEND` read (R614). -/
def opMonStateRead (p : Fin 7) (s : State) : State :=
  s.monitor 0x0206 p (some 5) fun d s =>
    let e := leAt d 0 1
    let b := leAt d 1 1
    let q := leAt d 2 2
    let n := leAt d 4 1
    if 5 ≤ e ∨ !selBank b ∨ n = 0 ∨ 64 < n ∨ 2048 < q + n then (s, 5, [])
    else (s, 0, (List.range n).flatMap fun i =>
      leBytes 4 (if s.halted e then s.portValue e b (q + i) else 0) ++ [BitVec.ofNat 8 (b2n (s.halted e && s.portPend e (q + i)))])

/-- STATE WRITE: as a write of `LANT.Ee_DATA` (R614). -/
def opMonStateWrite (p : Fin 7) (s : State) : State :=
  s.monitor 0x0207 p (some 8) fun d s =>
    let e := leAt d 0 1
    if 5 ≤ e ∨ !selBank (leAt d 1 1) ∨ 2048 ≤ leAt d 2 2 then (s, 5, []) else (s.portSet e (leAt d 1 1) (leAt d 2 2) (leAt d 4 4), 0, [])

/-- BREAK: a breakpoint's word, or a watchpoint's ADDR, CFG and VAL. -/
def opMonBreak (p : Fin 7) (s : State) : State :=
  s.monitor 0x0208 p none fun d => State.monOwned fun s =>
    let e := leAt d 0 1
    let k := leAt d 1 1
    if d.length < 2 ∨ d.length ≠ 2 + (if k < 4 then 4 else 12) then (s, 9, [])
    else if 5 ≤ e ∨ 6 ≤ k then (s, 5, [])
    else
      let a := 0x10027040 + 0x40 * e + (if k < 4 then 8 + 4 * k else 0x18 + 12 * (k - 4))
      let q := s.lanWrites ((d.length - 2) / 4) 4 a (d.drop 2)
      (q.1, (if q.2.2 = 0 then 0 else 6), [])

/-- SESSION. -/
def opMonSession (p : Fin 7) (s : State) : State :=
  s.monitor 0x0209 p (some 5) fun d => State.monOwned fun s =>
    let pol := leAt d 0 1
    if 2 ≤ pol ∨ 32 ≤ leAt d 1 1 ∨ 1024 ≤ leAt d 2 2 then (s, 5, [])
    else ((s.put R.LANT_HGRP_G (leAt d 2 2)).lantCtl (pol + 256 * leAt d 1 1 + 65536 * leAt d 4 1), 0, [])

/-- RESET: the reply goes first, and the cause is 0x08 (R620, R621). -/
def opMonitorReset (p : Fin 7) (s : State) : State :=
  s.monitor 0x020A p (some 0) fun _ => State.monOwned fun s => ({ s with lan := { s.lan with rst := some (8, s.now) } }, 0, [])

/-- START MODE (R587): read, or write and store. -/
def opMonStartMode (p : Fin 7) (s : State) : State :=
  s.monitor 0x020B p (some 3) fun d s =>
    let now := fun (s : State) => [BitVec.ofNat 8 (s.get R.SYS_BOOTCFG_STARTRUN), BitVec.ofNat 8 (s.get R.SYS_BOOTCFG_HOLDAFT)]
    if 1 < leAt d 0 1 then (s, 5, [])
    else if leAt d 0 1 = 0 then (s, 0, now s)
    else if 1 < leAt d 1 1 ∨ 1 < leAt d 2 1 then (s, 5, [])
    else
      let s := opBootcfgStore ((s.put R.SYS_BOOTCFG_STARTRUN (leAt d 1 1)).put R.SYS_BOOTCFG_HOLDAFT (leAt d 2 1))
      (s, 0, now s)

/-- STATUS. -/
def opMonitorStatus (p : Fin 7) (s : State) : State :=
  s.monitor 0x020C p (some 0) fun _ s =>
    let w := fun a => leBytes 4 (s.regWord a)
    (s, 0, w 0x10027004 ++ w 0x1002700C ++ (List.range 5).flatMap fun e => w (0x10027040 + 0x40 * e) ++ w (0x10027044 + 0x40 * e))

/-- KEEP_RECALL_COMPLETE (21, R532; 24, R585 step 4), and the OPEN that waits for it. -/
def State.recallDone (s : State) : State :=
  let s := (opKeepRecallComplete s).lanWaiting
  if s.phase == .starting && s.get R.SYS_BOOTSTAT_STEP == 3 && !s.is R.KEEP_STAT_RECALL then s.put R.SYS_BOOTSTAT_STEP 4 else s

def execKeepRecallComplete (s : State) : Host.Outcome State Fault Refusal := .next s.recallDone
def execWakePattern (s : State) : Host.Outcome State Fault Refusal := .next (opWakePattern s)
def execLanternOpen (f : List Byte) (s : State) : Host.Outcome State Fault Refusal := .next (opLanternOpen f s)
def execLanternClose (f : List Byte) (s : State) : Host.Outcome State Fault Refusal := .next (opLanternClose f s)
def execLanternPing (f : List Byte) (s : State) : Host.Outcome State Fault Refusal := .next (opLanternPing f s)
def execLanternRead (f : List Byte) (s : State) : Host.Outcome State Fault Refusal := .next (opLanternRead f s)
def execLanternWrite (f : List Byte) (s : State) : Host.Outcome State Fault Refusal := .next (opLanternWrite f s)
def execLanternMonitor (f : List Byte) (s : State) : Host.Outcome State Fault Refusal := .next (opLanternMonitor f s)
def execLanternMonpoll (f : List Byte) (s : State) : Host.Outcome State Fault Refusal := .next (opLanternMonpoll f s)
def execLanternReset (f : List Byte) (s : State) : Host.Outcome State Fault Refusal := .next (opLanternReset f s)
def execLanternBreak (s : State) : Host.Outcome State Fault Refusal := .next (opLanternBreak s)
def execLanternFrameTimeout (s : State) : Host.Outcome State Fault Refusal := .next (opLanternFrameTimeout s)
def execLanternIdleTimeout (s : State) : Host.Outcome State Fault Refusal := .next (opLanternIdleTimeout s)
def execLanternSysrst (s : State) : Host.Outcome State Fault Refusal := .next (opLanternSysrst s)
def execLanternInvalidCell (s : State) : Host.Outcome State Fault Refusal := .next (opLanternInvalidCell s)
def execLanternFrameError (f : List Byte) (s : State) : Host.Outcome State Fault Refusal := .next (opLanternFrameError f s)
def execLanternLockoutEnd (s : State) : Host.Outcome State Fault Refusal := .next (opLanternLockoutEnd s)
def execMonRead (p : Fin 7) (s : State) : Host.Outcome State Fault Refusal := .next (opMonRead p s)
def execMonWrite (p : Fin 7) (s : State) : Host.Outcome State Fault Refusal := .next (opMonWrite p s)
def execMonitorHalt (p : Fin 7) (s : State) : Host.Outcome State Fault Refusal := .next (opMonitorHalt p s)
def execMonitorResume (p : Fin 7) (s : State) : Host.Outcome State Fault Refusal := .next (opMonitorResume p s)
def execMonitorStep (p : Fin 7) (s : State) : Host.Outcome State Fault Refusal := .next (opMonitorStep p s)
def execMonStateRead (p : Fin 7) (s : State) : Host.Outcome State Fault Refusal := .next (opMonStateRead p s)
def execMonStateWrite (p : Fin 7) (s : State) : Host.Outcome State Fault Refusal := .next (opMonStateWrite p s)
def execMonBreak (p : Fin 7) (s : State) : Host.Outcome State Fault Refusal := .next (opMonBreak p s)
def execMonSession (p : Fin 7) (s : State) : Host.Outcome State Fault Refusal := .next (opMonSession p s)
def execMonitorReset (p : Fin 7) (s : State) : Host.Outcome State Fault Refusal := .next (opMonitorReset p s)
def execMonStartMode (p : Fin 7) (s : State) : Host.Outcome State Fault Refusal := .next (opMonStartMode p s)
def execMonitorStatus (p : Fin 7) (s : State) : Host.Outcome State Fault Refusal := .next (opMonitorStatus p s)

end Sys2Proof.Machine
end

