-- ==== Sys2Proof/Machine/Tick.lean ====
section
/-! DEFINITION. Machine/Tick.lean: the tick and the end of its latch (02, R41): commit, mode changes, releases of scopes, program switches,
deferred writes, the input image with its quality tags and area S (09, R230-R232), and the turns of a Shadow pair (12). -/

namespace Sys2Proof.Machine

/-! ## Scopes at a tick (07, R194-R197) -/

/-- A Penumbra flag changes, with EV 10. -/
def State.penBit (f : Fam) (scope : Nat) (v : Bool) (s : State) : State :=
  if s.is f == v then s else (s.put f (b2n v)).raise 10 (scope + 256 * b2n v)

/-- The carrier period that the scopes ask for: Penumbra's while its settings are in effect (R196, R197; 01, R20). -/
def State.cpAsked (s : State) : Nat := s.get R.GDRV_CP_CP * (if s.bridgePen then s.get R.EXC_PEN_FSWDIV else 1)

/-- The bridge's Penumbra settings come into effect or go: the thresholds, and the carrier period at the next peak (R197; 15, R411; 18, R468). -/
def State.penEffect (s : State) : State :=
  let s := s.ocThresholds
  if s.cpAsked == s.pwm.cpNext.getD (s.get R.GDRV_CPACT_CP) then s else s.takeCp s.cpAsked

/-- PENUMBRA_CHANGE (R196, R197). Penumbra is entered and left in Run only (01, R19): in Hold the flags stand as they were (DEDUCED, log entry
155), and their settings are not in effect. A carrier period that is refused keeps the bridge out of Penumbra, and ends it there (DEDUCED, log
entry 183). -/
def State.penTick (s : State) : State :=
  if !s.inRun then s.penEffect
  else
    let d := s.exc.dCmd
    let s := s.penBit R.EXC_STAT_DPEN 0 d
    let b := s.exc.bCmd || s.exc.bLife || d
    let bad := b && s.penCarrierBad
    let s := (if bad then s.put R.EXC_STAT_PENERR 1 else s).penBit R.EXC_STAT_BPEN 1 (b && !bad)
    let s := (s.penBit R.EXC_STAT_CPEN 2 (s.exc.cCmd || s.exc.cTherm || d)).penEffect
    (State.forAll (List.range 4) State.engPen s).chop

/-- UMBRA_RELEASE (R194), engine scopes first. -/
def State.releaseTick (s : State) : State :=
  let l := s.exc.releases
  let s := { s with exc := { s.exc with releases := [] } }
  State.forAll ([4, 5, 6, 7, 2, 1, 0].filter l.contains) State.umbraRelease s

/-- UMBRA_RELEASE, then PENUMBRA_CHANGE. -/
def State.scopeTick (s : State) : State := s.releaseTick.penTick

/-- A following Shadow takes the scope bits of HEAD (12, R302): DUMB, DPEN, BUMB, BPEN, CUMB, CPEN. -/
def State.headScopes (w : Nat) (s : State) : State :=
  let s := if bit w 0 == s.umbraFlag 0 then s
    else if bit w 0 then ((s.setUmbraFlag 0 true).raise 9 256).deviceDark
    else s.deviceLight
  let put (scope k : Nat) (s : State) : State :=
    if bit w k == s.umbraFlag scope then s
    else if bit w k then ((s.setUmbraFlag scope true).raise 9 (scope + 256)).powerDark scope
    else s.powerRelease scope
  let s := (put 2 4 (put 1 2 s)).outRefresh
  let s := ((s.penBit R.EXC_STAT_DPEN 0 (bit w 1)).penBit R.EXC_STAT_BPEN 1 (bit w 3)).penBit R.EXC_STAT_CPEN 2 (bit w 5)
  (State.forAll (List.range 4) State.engPen s).penEffect

/-! ## Mode changes (01, R14; 24, R588) -/

/-- Hold is entered: no commit, instances stop, outputs take their Umbra content. -/
def State.enterHold (s : State) : State :=
  let s := State.forAll (List.range 4) (fun e s => s.stopEngine e .held) s
  let s := if s.umbra 1 then s else s.bridgeDark
  let s := if s.umbra 0 then s else s.dieCmd 7 .soft
  let s := { s with seq := { s.seq with shedTick := [], endTick := [] } }
  ((s.put R.SYS_MODE_MODE 1).outRefresh).raise 11 1

/-- Engines outside Umbra and not frozen may issue, their watchdogs starting afresh (07, R183). -/
def State.enginesRun (s : State) : State :=
  State.forAll ((List.range 4).filter fun e => !s.umbra (4 + e))
    (fun e s => s.upE e fun x => { x with stop := if x.stop = .frozen then .frozen else .none, wdAt := s.time.real }) s

/-- Run is entered: engines outside Umbra may issue, and every task's outputs wait for its first commit (06, R168). -/
def State.enterRun (s : State) : State :=
  let s := s.put R.SYS_MODE_MODE 0
  let s := State.forAll (List.range 48) (fun n s => s.upT n fun t => { t with await := true }) s
  let s := if s.pwm.short && !s.umbra 1 then s.bridgeOff .off else s
  (s.enginesRun.outRefresh.shedTick).raise 11 0

/-- The mode request that is pending takes effect, unless this tick refuses it (R588; 11, R280). -/
def State.modeTick (s : State) : State :=
  let done (s : State) : State := { s with pwr := { s.pwr with want := none } }.put R.SYS_MODEREQ_PEND 0
  match s.pwr.want with
  | none => s
  | some m =>
    if m = 0 then
      if s.inRun then done s
      else match s.modeRefused 0 with
        | some r => (done s).modeReason r
        | none => (done s).enterRun
    else
      match s.tickTaken s.seq.abs true with
      | some r => (done s).modeReason r
      | none =>
        let s := if s.inRun then s.enterHold else s
        if m = 1 then done s else if s.pwr.standby then s else s.standbyStart

/-! ## Deferred and mirrored writes (12, R305; 13, R342, R347) -/

/-- The word of `EXC.CMD`. -/
def State.excWord (v : Nat) (s : State) : State :=
  let k := bits v 0 3
  (((s.ifBit v 8 (State.excEnter k)).ifBit v 9 (State.excRelease k)).ifBit v 10 (State.excPenenter k)).ifBit v 11 (State.excPenleave k)

/-- A mirrored K4 store reaches the Shadow; another layout version is not stored (26, R645). -/
def State.mirrorStore (num : Nat) (d : List Byte) (s : State) : State :=
  if leAt d 0 1 = s.groupVer (num / 65536) then (s.keepWait false num (leAt d 0 1) (d.drop 1)).keepSettle else s.note 5 (num / 65536)

/-- One entry of the buffer, or of CTRL on the Shadow, is applied. Into Q and QW only Lantern writes, the working copy of a task whose engine it has
halted (25, R606). -/
def State.ctrlApply (c : CtrlEnt) (s : State) : State :=
  let v := leNat c.data
  if c.kind = 0 then (if outputArea c.addr then s.eccWrite c.req 2 c.addr c.data else s.storeWords c.req c.addr c.data).1
  else if c.kind = 2 then s
  else if c.addr = 0x1000C008 then s.excWord v
  else if inRange c.addr 0x10007000 0xC00 then s.descWrite ((c.addr - 0x10007000) / 64) ((c.addr - 0x10007000) % 64 / 4) v
  else if inRange c.addr 0x10007C10 16 then s.shedWrite ((c.addr - 0x10007C10) / 4) v
  else if c.addr < 0x01000000 ∧ !s.lead then s.mirrorStore c.addr c.data
  else s

/-- CTRL of a record is applied: the engines that it marks switch together, as one group (11, R275, R282; DEDUCED, log entry 159), then its entries in order. -/
def State.ctrlTake (l : List CtrlEnt) (s : State) : State :=
  let g := ((l.filter fun c => c.kind == 2 && decide (c.addr < 4)).map CtrlEnt.addr).eraseDups
  State.forAll l State.ctrlApply (if g.isEmpty then s else s.switchGroup g)

/-- The entries of the deferred-write buffer are read in their order (23, R553). -/
def State.dwRead (s : State) : State :=
  let l := s.rfl.dw
  l.zipIdx.foldl (fun s p => s.qRead 17 l.length p.2 (16 + p.1.data.length)) s

/-- The buffer is applied in arrival order; on a Lead its entries go into CTRL, and scopes follow at the same tick. -/
def State.dwApply (s : State) : State :=
  let l := s.rfl.dw
  let s := s.dwRead
  let s := { s with rfl := { s.rfl with dw := [], marks := if s.lead then s.rfl.marks ++ l else s.rfl.marks } }
  let s := State.forAll l State.ctrlApply s
  if s.lead && !l.isEmpty then s.scopeTick else s

/-- What the former Lead of a swap has deferred after CTRL W, which no record of its own carries, is applied at its next latch all the same (12, R305,
R310; DEDUCED, log entry 175). -/
def State.dwLast (s : State) : State :=
  let l := s.rfl.dw
  let s := s.dwRead
  State.forAll l State.ctrlApply { s with rfl := { s.rfl with dw := [] } }

/-! ## The latch (02, R42; 09, R230-R232) -/

/-- The input areas I, IW, S and T as offsets into the image. -/
def inputArea (o : Nat) : Bool := decide (o < 0x800) || inRange o 0x5000 0x4000 || inRange o 0xD000 0x3000

/-- The check bits of the input words of one copy become those of another (09, R220). -/
def State.inputEcc (src dst : Nat) (s : State) : State :=
  let isIn (c : Nat) (p : Nat × Nat) : Bool :=
    p.1 / 2 ^ 32 == c && inRange (p.1 % 2 ^ 32) 0x03000000 0x10000 && inputArea (p.1 % 2 ^ 32 - 0x03000000)
  let keep := s.m.ecc.filter fun p => !isIn dst p
  { s with m := { s.m with ecc := (s.m.ecc.filter (isIn src)).foldl (fun t p => Store.put (eccKey dst (p.1 % 2 ^ 32)) p.2 t) keep } }

/-- The input areas of the copy in force. -/
def State.ownImage (s : State) : List Host.Cell :=
  (s.mem.filter fun c => decide (0x03000000 ≤ c.1) && inputArea (c.1 - 0x03000000)).map fun c => (c.1 - 0x03000000, c.2)

/-- The back copy starts from the copy in force, so that what is not delivered keeps its value. -/
def State.backOpen (s : State) : State :=
  let s : State := { s with back := s.ownImage }
  s.inputEcc 0 1

/-- The latch writes bytes of the back copy, through ECC (09, R223). -/
def State.latchPut (a : Nat) (l : List Byte) (s : State) : State := (s.eccWrite 9 1 a l).1

/-- Quality tag of IW word or I byte `n` in the back copy (R230). A location that is not delivered, tag 0b11, keeps 0b00 until the first latch
that delivers it (R229). -/
def State.putTag (iw : Bool) (n tag : Nat) (s : State) : State :=
  let a := 0x0300F000 + (if iw then 0 else 0x400) + n / 4
  let b := leNat (s.copyBytes 1 a 1)
  let k := 4 ^ (n % 4)
  let old := b / k % 4
  let new := if tag = 3 ∧ old = 0 then 0 else tag
  if new = old then s else s.latchPut a [BitVec.ofNat 8 (b - old * k + new * k)]

/-- The snapshot of DI00-DI31 (20, R493); none comes while the die link is lost, and the bytes are held. -/
def State.latchDi (s : State) : State :=
  if !s.is R.DIO_IBIND_EN then s
  else
    let b := s.get R.DIO_IBIND_BYTE
    let tag := if s.pwr.linkLost then 3 else if s.is R.DIO_STAT_UV then 2 else 1
    let s := if s.pwr.linkLost then s else s.latchPut (0x03000000 + b) (leBytes 4 (s.get R.DIO_DI_STATE_S))
    State.forAll (List.range 4) (fun i s => s.putTag false (b + i) tag) s

/-- The newest sample words (18, R465). -/
def State.latchAdc (t : Nat) (s : State) : State :=
  let s := if !s.is R.SADC_IMG_EN then s
    else State.forAll (List.range 16)
      (fun n s =>
        let w := s.get R.SADC_IMG_BASE + n
        let x := s.adcImage n t
        let s := match x.1 with | some v => s.latchPut (0x03005000 + 4 * w) (leBytes 4 v) | none => s
        s.putTag true w x.2) s
  State.forAll (List.range 16) (State.adcTaken t) s

/-- Receive map `k` of port `p` (14, R376, R380). -/
def State.latchMap (p k : Nat) (s : State) : State :=
  if !s.is R.FP_RMAP_A_EN p k then s
  else
    let iw := s.is R.FP_RMAP_A_AREA p k
    let b := s.get R.FP_RMAP_B_START p k
    let n := s.get R.FP_RMAP_B_COUNT p k
    let a := if iw then 0x03005000 + 4 * b else 0x03000000 + b
    let tags (tag : Nat) (s : State) : State := State.forAll (List.range n) (fun i s => s.putTag iw (b + i) tag) s
    match Store.find k (s.port p).maps with
    | some m =>
      let s := s.upPort p fun q => { q with maps := Store.del k q.maps, zeroed := q.zeroed.filter (· != k) }
      tags (if m.inv then 2 else 1) (s.latchPut a m.data)
    | none =>
      if s.is R.FP_RMAP_A_LOSSZERO p k && (s.is R.FP_STAT_PLOST p || (s.port p).zeroed.contains k) then
        let s := s.upPort p fun q => { q with zeroed := k :: q.zeroed.filter (· != k) }
        tags 0 (s.latchPut a (List.replicate (s.rmapLen p k) 0#8))
      else tags 3 s

/-- Area S (R232): the turn is stretched by a step, or is not. -/
def State.latchS (stretched : Bool) (s : State) : State :=
  let st := s.get R.EXC_STAT_DUMB + 2 * s.get R.EXC_STAT_DPEN + 4 * s.get R.EXC_STAT_BUMB + 8 * s.get R.EXC_STAT_BPEN +
    16 * s.get R.EXC_STAT_CUMB + 32 * s.get R.EXC_STAT_CPEN + 64 * s.get R.EXC_STAT_EUMB + 1024 * s.get R.EXC_STAT_EPEN +
    65536 * s.get R.TIME_STAT_STATE + 262144 * b2n stretched
  let d := if s.lifeKnown then (convF b64 b32 0 s.lifeD).1 else 0
  let shed := packBits (fun e => s.is R.TSK_SHED_ACTIVE e) 4
  s.latchPut 0x0300D000
    (leBytes 8 s.seq.abs ++ leBytes 8 s.time.tick ++ leBytes 4 s.period ++ leBytes 4 st ++
      leBytes 4 (if s.bridgePen then s.get R.EXC_PEN_ILIM else 256) ++ leBytes 4 d ++ leBytes 4 shed)

/-- What this unit's own sources deliver at a tick. -/
def State.latchOwn (t : Nat) (s : State) : State :=
  let s := (s.latchDi).latchAdc t
  State.forAll (List.range 24) (fun x s => s.latchMap (x / 4) (x % 4)) s

/-- The latch of a unit that acts on its own inputs. -/
def State.latchTick (t : Nat) (stretched : Bool) (s : State) : State := (s.latchOwn t).latchS stretched

/-- The back copy becomes the copy in force (R41, R149), with its check bits. -/
def State.imageSwap (s : State) : State :=
  let keep := s.mem.filter fun c => !(decide (0x03000000 ≤ c.1) && decide (c.1 < 0x03010000) && inputArea (c.1 - 0x03000000))
  let s : State := { s with mem := s.back.foldl (fun t c => cellPut 0#8 (0x03000000 + c.1) c.2 t) keep }
  s.inputEcc 1 0

/-! ## The Lead of a pair at a tick (12) -/

/-- END of the record that ends, and what the Lead counts at a tick (R299, R309, R310, R317). A turn without a record takes its number all the same, so
that no turn passes unseen (DEDUCED, log entry 183). -/
def State.leadTick (names : List Nat) (s : State) : State :=
  let s :=
    if s.rfl.nextIdx = 0 then { s with rfl := { s.rfl with fars := [], full := false } }.put R.RFL_SEQ_TX (s.get R.RFL_SEQ_TX + 1)
    else s.sendEnd names ((s.time.real + 10 * cyclesTo (toSigned 32 (s.get R.TIME_CORR_C)) s.time.spread 200 - s.rfl.latchT) * 2 / 5)
  let s := if s.is R.RFL_STAT_READY && !s.rfl.statusSeen then s.put R.RFL_STAT_READY 0 else s
  let j := s.get R.RFL_STAT_REJ
  { s with rfl := { s.rfl with
      statusSeen := false,
      turns := if j = 2 ∨ j = 3 then s.rfl.turns + 1 else s.rfl.turns,
      idleWait := if j = 3 ∧ !s.rfl.sync then s.rfl.idleWait + 1 else s.rfl.idleWait } }

/-- A swap that finds no idle tick in time is refused (R310). -/
def State.swapTick (a : Nat) (s : State) : State :=
  match s.rfl.swap with
  | none => s
  | some w =>
    if a < w then s
    else if s.get R.LE_PRG_BUD_WAIT 0 ≤ s.rfl.swapWait + 1 then { s with rfl := { s.rfl with swap := none, swapWait := 0 } }.put R.RFL_STAT_CMDERR 1
    else { s with rfl := { s.rfl with swapWait := s.rfl.swapWait + 1 } }

/-- A digest is due at this latch end (R307). -/
def State.digestDue (s : State) : Bool :=
  s.is R.RFL_DIG_EN && s.get R.RFL_DIG_N != 0 && s.seq.abs % max 1 (s.get R.RFL_DIG_N) == 0 && s.rfl.digRun.isNone

/-- The digest of turn `a` has its value; a refused read ends a rejoin on the Lead with reason 0x24 and following with 0x18 (R318). -/
def State.digestGot (a : Nat) (ok : Bool) (crc : Nat) (s : State) : State :=
  let s := { s with rfl := { s.rfl with digRun := some (a, crc) } }
  if ok then s
  else if s.following then s.stopFollowing 0x18
  else if 1 ≤ s.get R.RFL_STAT_REJ ∧ s.get R.RFL_STAT_REJ ≤ 4 then s.rejoinFail 0x24
  else s

/-- The digest of turn `a` is taken (R307). -/
def State.digestTake (a : Nat) (s : State) : State := s.sweptCrc.1.digestGot a s.sweptCrc.2.1 s.sweptCrc.2.2

/-- The Lead's record from latch end (R299): none while an engine is halted (25, R618). -/
def State.leadRecord (s : State) : State :=
  if (List.range 5).any s.halted then { s with rfl := { s.rfl with nextIdx := 0, full := true, rels := [] } }
  else if !s.is R.RFL_STAT_LINK then { s with rfl := { s.rfl with marks := [], rels := [] } }
  else
    let dig := s.digestDue
    let s := if s.rfl.sync && !s.syncFits then { s with rfl := { s.rfl with sync := false } } else s
    let mode := if s.rfl.sync then (if s.inRun then 4 else 2) + 8 else 0
    let s := s.sendHead (s.rfl.headFlags ||| (mode + 16 * b2n dig))
    let s := State.forAll s.rfl.rels (fun d s => s.rflSend 3 d) s
    let s := { s with rfl := { s.rfl with rels := [] } }
    let s := if s.brick.frameDue || s.seq.abs % max 1 (100000000 / max 1 s.period) == 0 then
        { s with brick := { s.brick with frameDue := false } }.rflSend 0x0D s.brickFrame else s
    let s := s.sendPages
    if dig then s.digestTake s.seq.abs else s

/-! ## Records on the receiving side (12, R302, R306, R315) -/

def RecvRec.a (r : RecvRec) : Nat := leAt (r.head.getD []) 0 8
def RecvRec.flags (r : RecvRec) : Nat := leAt (r.head.getD []) 0x30 4

/-- HEAD, every IMAGE and CTRL have come: no frame up to CTRL is missing. -/
def RecvRec.ready (r : RecvRec) : Bool :=
  r.head.isSome && match r.ctrlAt with
    | some k => (List.range (k + 1)).all r.idx.contains
    | none => false

/-- No frame is missing below the last that has come; one that came with a bad CRC is owed (R296). -/
def RecvRec.whole (r : RecvRec) : Bool := (List.range (r.idx.foldl max 0 + 1)).all r.idx.contains

/-- Locations of range `k` that differ (R306), as image word indices. -/
def State.discWords (s : State) (k : Nat) : List Nat :=
  if !s.is R.RFL_DISC_EN k then []
  else
    let b := s.get R.RFL_DISC_START k
    let own (a n : Nat) : List Byte := cellsGet 0#8 s.rfl.snapWas a n
    let lead (a n : Nat) : List Byte := s.copyBytes 1 (0x03000000 + a) n
    (List.range (s.get R.RFL_DISC_COUNT k)).filterMap fun i =>
      if s.is R.RFL_DISC_AREA k then
        let a := 0x5000 + 4 * (b + i)
        let tol := s.get R.RFL_DISC_TOL k
        let d := toSigned 32 (leNat (own a 4)) - toSigned 32 (leNat (lead a 4))
        if 0x9000 ≤ a ∨ d.natAbs ≤ (if tol = 0 then 0 else 2 ^ (tol - 1)) then none else some (b + i)
      else if 0x800 ≤ b + i ∨ own (b + i) 1 = lead (b + i) 1 then none
      else some ((b + i) / 4)

/-- The comparison of a turn (R306). -/
def State.discCompare (s : State) : State :=
  let l := (List.range 16).map fun k => (k, s.discWords k)
  let hit := l.filter fun p => !p.2.isEmpty
  let persist := l.foldl (fun t p => Store.put p.1 (if p.2.isEmpty then 0 else s.rfl.persist.getD p.1 0 + 1) t) s.rfl.persist
  let s := { s with rfl := { s.rfl with persist := persist } }
  let lim := s.get R.RFL_DISCCFG_PERSIST
  let long := (List.range 16).any fun k => decide (lim ≤ persist.getD k 0) && lim != 0
  let s := if long && !s.is R.RFL_STAT_DISCPERS then s.warn 7 0xFA else s
  let s := s.put R.RFL_STAT_DISCPERS (b2n long)
  match hit with
  | [] => s
  | p :: _ => (({ s with rfl := { s.rfl with disc := s.rfl.disc + 1 } }.bump R.RFL_DISCCNT_N).raise 250 (p.2.headD 0 % 65536))

/-- STATUS (R283, R297). -/
def State.sendStatus (s : State) : State :=
  let s := { s with rfl := { s.rfl with nextIdx := 0, frames := [], full := false } }
  let rep := (List.range 4).flatMap fun e =>
    if s.is R.LE_PRG_STAT_IVALID e then [s.get R.LE_PRG_SID_ID e, (s.prgSt e).codeCrc, (s.prgSt e).recCrc] else [0, 0, 0]
  s.rflSend 0x0A (([s.get R.RFL_STAT_ROLE, s.get R.RFL_SEQ_RX, s.rfl.disc] ++ rep).flatMap (leBytes 4))

/-- A switch marker that this unit cannot follow (11, R282), be it for want of the table that the program was built for (05, R143; DEDUCED, log entry
159). -/
def State.markBad (s : State) (c : CtrlEnt) : Bool :=
  c.kind == 2 && !(s.layoutOk c.addr (s.inactive c.addr) && s.is R.LE_PRG_STAT_IVALID c.addr && leAt c.data 0 4 == s.get R.LE_PRG_SID_ID c.addr && leAt c.data 4 4 == (s.prgSt c.addr).codeCrc &&
    leAt c.data 8 4 == (s.prgSt c.addr).recCrc && s.switchIdle c.addr)

/-- The image, area S and tags of a record go into the back copy (R302, step 2). -/
def State.latchRecord (r : RecvRec) (s : State) : State :=
  r.image.foldl (fun s p => if p.1 < 313 then s.latchPut (0x03000000 + inputOfs p.1) p.2 else s) s

/-- The own snapshot for the comparison (R302; 14, R383; 18, R465); that of the tick before stands until its turn's image is compared (R306). -/
def State.snapshot (t : Nat) (s : State) : State :=
  let q := { s with back := s.rfl.snap }.latchOwn t
  { q with back := s.back, rfl := { q.rfl with snap := q.back, snapWas := s.rfl.snap } }

/-- CTRL of a record is applied, with the engine scopes that it releases, and then the scope bits of its HEAD (R302, steps 2 and 3; R305). -/
def State.ctrlScopes (r : RecvRec) (s : State) : State :=
  let s := s.ctrlTake r.ctrl
  let l := s.exc.releases
  (State.forAll ([4, 5, 6, 7].filter l.contains) State.umbraRelease { s with exc := { s.exc with releases := [] } }).headScopes (leAt (r.head.getD []) 0x34 4)

/-- What the latch of this tick took is the own snapshot, when following begins (R306). -/
def State.snapStart (s : State) : State := { s with rfl := { s.rfl with snapWas := s.ownImage, snap := s.back } }

/-- A following Shadow starts turn N from record `r` after the commit of END N − 1 (R302, steps 2 to 4). A record with a switch
that this unit cannot make ends following (11, R282). -/
def State.turnStart (r : RecvRec) (fin : EndRec) (sync : Bool) (s : State) : State :=
  let h := r.head.getD []
  let s := { s with rfl := { s.rfl with relOld := if sync then [] else s.rfl.relOld ++ ((s.rfl.cur.map RecvRec.rel).getD []),
                                        farq := if sync then [] else s.rfl.farq, cur := some r, nxt := none, skipped := none,
                                        last := some fin, turnA := r.a, turnT := leAt h 8 8, fars := [], owed := 0 } }.farFlow
  let s := (s.put R.RFL_STAT_MISSED 0).put R.RFL_SEQ_RX r.seq
  let s := State.forAll (List.range 4) (fun e s => s.upE e fun x => { x with tclk := leAt h (0x10 + 8 * e) 8 }) s
  let s := if bit r.flags 1 && s.inRun then s.enterHold else s
  let s := if bit r.flags 2 && !s.inRun then s.enterRun else s
  let s := if sync then s.takeState r.state else s
  let s := if sync && s.inRun then s.enginesRun else s
  let s := if r.ctrl.any s.markBad then s.stopFollowing 0x16 else s.ctrlScopes r
  let mine := s.rfl.staged.filter fun g => g.turn == r.a % 2 ^ 32
  let s := { s with rfl := { s.rfl with staged := s.rfl.staged.filter fun g => g.turn != r.a % 2 ^ 32 } }
  let s := State.forAll mine State.applyPage s
  if !s.following then s
  else
    let s := ((s.latchRecord r).discCompare).seqStart.seqTick r.a
    let s := if bit r.flags 4 then s.digestTake r.a else s
    s.sendStatus

/-- The due turn cannot start: a missed tick (R302, R308). -/
def State.missTick (s : State) : State :=
  let n := min 15 (s.get R.RFL_STAT_MISSED + 1)
  ((s.put R.RFL_STAT_MISSED n).bump R.RFL_CNT_MISSED).raise 248 n

/-- The instances that END names are not all complete (R304); one that a takeover has committed is gone. -/
def State.namesBad (s : State) (fin : EndRec) : Bool :=
  fin.names.any fun n => match (s.task n).inst with
    | some i => i.st != .complete && (s.task n).done.isEmpty
    | none => (s.task n).done.isEmpty && !s.is R.RFL_STAT_OWN

/-- The former Shadow becomes Lead at tick W + 1 of a swap (R310): turn W − 1 is committed and CTRL W applied, unless that holds a switch that
this unit cannot make (11, R282). Its timer clocks go on from HEAD W's (04, R108). Its pins it takes by TAKEOVER; a repair pass that ran starts
again from page 0. -/
def State.swapIn (r : RecvRec) (fin : EndRec) (s : State) : State :=
  let q := s.commitNamed fin.names
  let s := q.1.outCommit q.2
  if r.ctrl.any s.markBad then s.stopFollowing 0x16
  else
    let pass := s.rfl.repair.isSome
    let rel := s.rfl.release
    let s := State.forAll (List.range 4) (fun e s => s.upE e fun x => { x with tclk := (leAt (r.head.getD []) (0x10 + 8 * e) 8 + 10 * s.period) % 2 ^ 64 }) s
    let s := (s.ctrlScopes r).leadStart.put R.RFL_SEQ_TX (r.seq + 1)
    { s with rfl := { s.rfl with taking := true, release := rel, repair := if pass then some 0 else none } }

/-! ## The tick -/

/-- Time, turn counter and timer clocks (R38, R40, R44; 06, R148; 04, R108). -/
def State.tickStart (t : Nat) (s : State) : State :=
  let s := (s.advance t).utilTick
  let a := (t / 10 - s.get R.TURN_PHASE_PHI) / max 1 s.period
  let s := { s with time := { s.time with tick := t }, seq := { s.seq with abs := a, inLatch := true, latchAt := t + 2000 } }
  let s := (s.put R.TURN_ABS_LO_A a).put R.TURN_COUNT_COUNT a
  let s := if s.following then s else State.forAll (List.range 4) (fun e s => s.upE e fun x => { x with tclk := (x.tclk + 10 * s.period) % 2 ^ 64 }) s
  s.backOpen

/-- The occurrences of the tick (R41, R44, R54), which tasks consider in the state that the sequencer has brought up to date for it, unless the unit
releases none of its own (06, R151, R164). -/
def State.tickEvents (s : State) : State :=
  let s := (if s.following || s.stands then s else s.seqStart).raise 16 s.seq.abs
  let s := if s.seq.svOwed then ({ s with seq := { s.seq with svOwed := false } }.put R.TURN_STAT_SVLATE 1).raise 25 0 else s
  if s.time.change then { s with time := { s.time with change := false } }.raise 28 0 else s

/-- SV's own work at a tick: applied writes, triggers, hours (13, R339, R351). -/
def State.svTick (s : State) : State :=
  let s := s.batchApply
  (if s.halted 4 || s.upd.hand then s else s.policyTick).hoursTick

/-- Program switches, a handover, and a table of the dictionary that goes with a switch (11, R274; 26, R635; 13, R341). -/
def State.switchTick (a : Nat) (s : State) : State :=
  let hand := !s.upd.hand && (match s.upd.at_ with | some h => decide (h ≤ a) | none => false)
  let was := (List.range 4).map fun e => (s.prgSt e).switching
  let s := s.prgTick a hand
  let s := s.bindTick ((List.range 4).map (fun e => (s.prgSt e).switching) != was)
  if hand then { s with upd := { s.upd with hand := true } }.recordWrite else s

/-- The tick of a unit that acts on its own inputs: simplex, Lead, or a Shadow that does not follow. -/
def State.ownTick (t a : Nat) (stretched : Bool) (s : State) : State :=
  let was := s.inRun
  let s := ((s.releaseTick).modeTick).penTick
  let run := was && s.inRun && !s.rfl.fresh
  let c := if run then s.commitImages else (s, [])
  let s := if run then (c.1.outCommit c.2).pubCommit else c.1.pubDrop
  let w := s.rfl.swapAt == some a
  let s := { s with rfl := { s.rfl with fresh := false, headFlags := b2n w + 2 * b2n (was && !s.inRun) + 4 * b2n (!was && s.inRun) } }
  let s := if s.lead then (s.leadTick c.2).swapTick a else s
  let s := ((s.switchTick a).svTick).dwApply
  let s := s.latchTick t stretched
  if w || s.get R.RFL_STAT_ROLE == 3 then { s with seq := { s.seq with tasks := s.seq.tasks.map fun (p : Nat × TaskSt) =>
    (p.1, { p.2 with inst := p.2.inst.map fun i => { i with ticks := i.ticks + 1 } }) } } else s.seqTick a

/-- The record is the sync record: HEAD says so, or it holds STATE (R316). -/
def RecvRec.sync (r : RecvRec) : Bool := bit r.flags 3 || !r.state.isEmpty

/-- A Shadow that rejoins: the sync record, complete, starts the turn (R315-R317), if what HELLO compared still agrees (05, R143; R312); the input
blocks of the records before it count. A record with a switch marker ends the rejoin: the Lead runs another program then, which the Shadow has not
loaded (DEDUCED, log entry 183). -/
def State.rejoinTick (a : Nat) (s : State) : State :=
  match s.rfl.nxt with
  | none => s
  | some r =>
    let more (t : Store (List Byte)) (q : RecvRec) : Store (List Byte) := q.image.foldl (fun t p => Store.put p.1 p.2 t) t
    let img := more (s.rfl.skipped.toList.foldl more s.rfl.image) r
    if r.sync then
      if s.is R.RFL_STAT_LINK && r.ready && r.whole && s.rfl.owed == 0 && r.state.length == 13312 && a == r.a + 1 then
        match helloErr s.helloItems s.rfl.peer with
        | some c => s.rejoinFail c
        | none =>
          let s := (((s.snapStart.put R.RFL_STAT_ROLE 2).put R.RFL_STAT_REJ 0).conflict).raise 252 0
          { s with rfl := { s.rfl with image := [] } }.turnStart { r with image := img } { cyc := [], fars := [], names := [] } true
      else s.rejoinFail 0x21
    else if r.ctrl.any fun c => c.kind == 2 then s.rejoinFail 3
    else { s with rfl := { s.rfl with cur := some r, nxt := none, image := img, owed := 0 } }

/-- END of the turn before the one of a record (R302): it came with the record of the turn last started, or with one that gave way. -/
def State.endBefore (s : State) (r : RecvRec) : Option EndRec :=
  ([s.rfl.cur, s.rfl.skipped].filterMap id).findSome? fun c => if (c.seq + 1) % 65536 = r.seq then c.fin else none

/-- The tick of a following Shadow (R302, R304, R308, R310); engine scopes are released by its own commands (07, R194). A record that has become whole
only after the tick at which it was due starts no turn any more: that tick was missed, and so is this one. A tick that makes the unit Lead latches
its own inputs as a Lead does and takes no snapshot of them before. -/
def State.shadowTick (t a : Nat) (stretched : Bool) (s : State) : State :=
  let l := s.exc.releases
  let s := State.forAll ([4, 5, 6, 7].filter l.contains) State.umbraRelease { s with exc := { s.exc with releases := [] } }
  let swaps := s.rfl.nxt.any fun r => r.ready && bit r.flags 0
  let s := ((if swaps then s else s.snapshot t).svTick).pubDrop
  match s.rfl.nxt, s.rfl.nxt.bind s.endBefore with
  | some r, some fin =>
    if !r.ready || (decide (r.a + 1 < a) && decide (a ≤ r.a + 1 + s.get R.RFL_STAT_MISSED)) then (s.bindTick false).missTick
    else if a ≠ r.a + 1 then s.stopFollowing 0x12
    else if s.namesBad fin then s.stopFollowing 0x13
    else if (List.range 4).any fun e => !fin.fars.isEmpty && s.rfl.fars.getD e 0 != fin.fars.getD e 0 then s.stopFollowing 0x14
    else if bit r.flags 0 then
      let s := s.swapIn r fin
      if s.lead then (s.latchTick t stretched).seqStart.seqTick a else s
    else
      let q := s.commitNamed fin.names
      let s := q.1.outCommit q.2
      (s.turnStart r fin false).bindTick (r.ctrl.any fun c => c.kind == 2)
  | _, _ => (s.bindTick false).missTick

/-- What the unit does at a tick in its role: a Lead whose swap is due hands over (R310), a following Shadow takes the record of the turn, any
other unit acts on its own inputs, and one that rejoins then looks at the record it has received (R315). -/
def State.roleTick (t a : Nat) (stretched : Bool) (s : State) : State :=
  if s.lead && s.rfl.swapAt.any (· < a) then ((((s.leadTick []).dwLast).swapOutLead).latchTick t stretched).snapStart
  else if s.following then s.shadowTick t a stretched
  else
    let o := s.ownTick t a stretched
    if o.get R.RFL_STAT_ROLE == 3 && o.get R.RFL_STAT_REJ == 2 then o.rejoinTick a else o

/-- Armed waveform channels that start at a tick start (19, R485). -/
def State.waveTick (s : State) : State :=
  State.forAll ((List.range 8).filter fun k => s.get R.WAVE_CH_CTL_TRIG k == 1) State.waveTrigger s

/-- The next tick is fixed: by a step of farm time that is due (R33), else as the next aligned instant (R38). -/
def State.fixNext (t : Nat) (step : Option (Int × Bool)) (s : State) : State :=
  let s := (s.put R.GDRV_PWM_CTL_RUN 1).put R.SYS_BOOTSTAT_STEP 10
  match step with
  | some (e, set) => s.farmStep e set
  | none => s.setNextTick (s.aligned (t + 10))

/-- Occurrences that the first ticks raise: EV 14 once after start-up, in Run (24, R585), and EV 23 of a countdown that expired before (R50). -/
def State.owedTick (s : State) : State :=
  let s := if s.inRun && !s.pwr.told then { s with pwr := { s.pwr with told := true } }.raise 14 0 else s
  if s.time.cdnOwed then { s with time := { s.time with cdnOwed := false } }.raise 23 0 else s

/-- TICK (R41): the first aligned instant is reached. -/
def opTick (s : State) : State :=
  match s.time.nextTick with
  | none => s
  | some t =>
    if s.phase != .up || s.seq.inLatch then s
    else
      let s := (s.svCatchUp.pubLate.tickStart t).tickEvents
      let step := s.stepDue t
      (((((s.dlnkTick.lifeTick t).roleTick t s.seq.abs step.isSome).dictApplied.waveTick).fixNext t step).owedTick).keepLevel.dictSettle

/-! ## Latch end -/

/-- The commands that serve the front message of a port's receive queue, which at most one of them takes (14, R364). -/
def portServices : List (Nat → State → State) :=
  [opOpenSession, opCloseSession, opKeepAlive, opRekeySession, opMapMessage, opSubscribeCreate, opSubscribeDelete, opSubscribeNotifications,
   opSubscribeList, opNotifyAck, opBulkWriteStart, opBulkWriteSegment, opBulkReadStart, opBulkAck, opBulkAbort, opIsailRead, opIsailWrite,
   opStoreGroup, opDefaultsGroup, opReloadGroup] ++
  [opFwVerify, opFwDryrun, opFwSchedule, opFwCancel, opFwActivate, opFwConfirm, opFwRollback, opFwClearResetList, opUnknownService] ++
  (List.range 12).map fun i p s => s.monTake p (0x0201 + i)

/-- The commands by which SV serves the monitor queue (25, R621). -/
def monServices : List (State → State) :=
  [opMonRead 6, opMonWrite 6, opMonitorHalt 6, opMonitorResume 6, opMonitorStep 6, opMonStateRead 6, opMonStateWrite 6, opMonBreak 6, opMonSession 6,
   opMonitorReset 6, opMonStartMode 6, opMonitorStatus 6]

/-- One message of a port is removed and served. -/
def State.serveOne (p : Nat) (s : State) : State :=
  if (s.port p).rx.isEmpty then s else portServices.foldl (fun t op => if (t.port p).rx == (s.port p).rx then op p t else t) s

/-- Rounds over the ports until each port that was not empty has lost a message; a request of the dictionary waits for an older one at another port
(13, R337). -/
def State.servePorts (old : List (List (Nat × List Byte))) : Nat → State → State
  | 0, s => s
  | k + 1, s =>
    if (List.range 6).all fun p => (s.port p).rx.isEmpty || (s.port p).rx != old.getD p [] then s
    else State.servePorts old k (State.forAll (List.range 6) State.serveOne s)

/-- The oldest request of the monitor queue is removed and served. -/
def State.serveMon (s : State) : State :=
  if s.lan.queue.isEmpty then s else monServices.foldl (fun t op => if t.lan.queue == s.lan.queue then op t else t) s

/-- In Run and in Hold SV removes at least one message of every port and one request of the monitor in every turn (23, R563), at latch end (DESIGN
CHOICE, log entry 185). -/
def State.svServe (s : State) : State :=
  if s.halted 4 || s.upd.hand then s
  else (State.servePorts ((List.range 6).map fun p => (s.port p).rx) 192 s).serveMon

/-- SV's turn-bound work at latch end. While SV is halted it waits for its resumption, or for the next tick, which finds it late (R44); in a handover
there is none (26, R635). -/
def State.svLatchEnd (s : State) : State :=
  if s.upd.hand then s else if s.halted 4 then { s with seq := { s.seq with svOwed := true } } else s.dictLatchEnd.svServe

/-- The new input copy is in force and EV 17 says so (R41); a Lead sends what it latched (12, R296). -/
def State.latchedIn (s : State) : State :=
  let s := if s.lead then s.leadRecord else s
  let s := (s.imageSwap).raise 17 (s.get R.TURN_COUNT_COUNT)
  { s with rfl := { s.rfl with latchT := s.time.real } }

/-- The turn starts on the engines of a following Shadow (12, R303). -/
def State.turnsBegin (s : State) : State := if s.following then State.forAll (List.range 4) State.turnBegin s else s

/-- LATCH_END (R41, R149): the new input copy is in force, due tasks are released, and SV's turn-bound work begins. -/
def opLatchEnd (s : State) : State :=
  if !s.seq.inLatch then s else (((s.advance s.seq.latchAt).latchedIn.turnsBegin.seqLatchEnd.stepFive).pubPrep).svLatchEnd

def execTick (s : State) : Host.Outcome State Fault Refusal := .next (opTick s)
def execLatchEnd (s : State) : Host.Outcome State Fault Refusal := .next (opLatchEnd s)

end Sys2Proof.Machine
end

