-- ==== Sys2Proof/Machine/Startup.lean ====
section
/-! DEFINITION. Machine/Startup.lean: bank selection and the start of SV firmware (26, R629), and the end of start-up (24, R585). -/

namespace Sys2Proof.Machine

/-! ## Steps 5 to 7 (26, R629; 13, R334) -/

/-- Why a bank is not booted: 1 header, 3 signature; 0 if it boots (R629). -/
def State.bankFault (s : State) (b : Nat) : Nat :=
  match s.header b with
  | none => 1
  | some h => if s.signatureOk b h then 0 else 3

/-- The bank that boots, and the reason of the first note (R629). -/
def State.bankPick (s : State) : List Nat → Option Nat × Nat
  | [] => (none, 0)
  | b :: r => if s.bankFault b = 0 then (some b, 0) else ((s.bankPick r).1, s.bankFault b)

/-- The start-up mode is loaded from its record (24, R587). -/
def State.bootcfgLoad (s : State) : State :=
  let v := ((s.recOf true 0xFF0011).map fun r => leAt r.data 0 1).getD 0
  (s.put R.SYS_BOOTCFG_STARTRUN (v % 2)).put R.SYS_BOOTCFG_HOLDAFT (v / 2 % 2)

/-- SV firmware starts in bank `b` (R585 steps 6 and 7): its image entry, what its header says, and the dictionary. -/
def State.svStart (b : Nat) (h : FwHeader) (s : State) : State :=
  let s := (s.put R.UPD_BOOT_BANK b).upE 4 fun x => { x with pc := 0x30000000 + svBank b + h.boot }
  let s := { s with upd := { s.upd with compat := h.compat, since := s.time.real, signed := s.upd.signed ||| 2 ^ b } }
  ((s.bootcfgLoad).dictLoad).put R.SYS_BOOTSTAT_STEP 7

/-- SV_FIRMWARE_START (R629, R586): after recall, unless SV is halted (25, R615). -/
def opSvFirmwareStart (s : State) : State :=
  if s.phase != .starting || s.get R.SYS_BOOTSTAT_STEP != 4 || s.halted 4 then s
  else
    let r := s.bootRec
    let trial := !r.confirmed
    let spent := trial && decide (r.limit ≤ r.used)
    let s := if trial && !spent then s.bootTry else s
    let q := s.bankPick (if spent then [r.prev] else [r.pref, r.prev])
    match q.1 with
    | none => (s.put R.SYS_BOOTSTAT_STEP 5).put R.SYS_BOOTSTAT_ERR 1
    | some b =>
      let back := spent || b != r.pref
      let s := (s.put R.UPD_BOOT_FALLBACK (b2n back)).put R.UPD_BOOT_FBREASON (if !back then 0 else if spent then 2 else q.2)
      let s := s.put R.UPD_BOOT_TRIAL (b2n (trial && !back))
      match s.header b with
      | none => s
      | some h => s.svStart b h

/-! ## Step 8: programs (11, R270, R279; 26, R624) -/

/-- Element `e` of the program store: the offset of its record, none if no program is stored (DESIGN CHOICE, log entry 46). -/
def State.slotRec (s : State) (e : Nat) : Option Nat :=
  let o := leNat (s.norBytes (0x00A00000 + 0x100000 * e + 0x80000) 4)
  if o = 0xFFFFFFFF then none else some (o % 2 ^ 19)

/-- SV copies code and record into the inactive bank, and the image is checked and switched to. -/
def State.programLoad (e : Nat) (s : State) : State :=
  match s.slotRec e with
  | none => s
  | some o =>
    let a := 0x00A00000 + 0x100000 * e
    let b := s.bankBase e false
    let code := min (8 * leNat (s.norBytes (a + o + 0x0C) 4)) 0x80000
    let len := min (leNat (s.norBytes (a + o + 0x24) 4)) (0x80000 - o)
    let s := (s.storeWords 4 b (s.norBytes a code)).1
    let s := (s.storeWords 4 (b + o) (s.norBytes (a + o) len)).1
    let s := opPrgCheckComplete e (opPrgCheck e ((s.put R.LE_PRG_REC_OFS o e).inactiveWritten e))
    opProgramSwitchComplete e (opPrgSwitchnow e s)

/-! ## Step 9 (R585, R587) -/

/-- What firmware does after a fallback (26, R631). -/
def State.fallbackTell (s : State) : State :=
  if !s.is R.UPD_BOOT_FALLBACK then s
  else
    let b := s.get R.UPD_BOOT_BANK
    ((s.raise 270 0).warn 6 b).bootWrite b (1 - b) (s.fwNat 0x700009 1 3) true

/-- START_UP_END (R585 steps 8 and 9), unless SV is halted (25, R615). -/
def opStartUpEnd (s : State) : State :=
  if s.phase != .starting || s.get R.SYS_BOOTSTAT_STEP != 7 || s.halted 4 then s
  else
    let s := State.forAll (List.range 4) State.programLoad s
    let s := ((s.bindLoad).retainRestore).put R.SYS_BOOTSTAT_STEP 8
    let s := { s with phase := .up, pwr := { s.pwr with upAt := s.time.real, told := false } }
    let s := (s.loadFarm.turnEn true).put R.SYS_BOOTSTAT_STEP 9
    let s := (s.logMsg 2 (s.get R.RST_CAUSE_CODE) 0).logMsg 3 s.log.found 0
    let s := s.keepOwed.ownStart
    let s := (if s.is R.RFL_STAT_OWN then opBrickRead s else s).fallbackTell
    let s := State.forAll ((List.range 4).filter fun e => bit (s.get R.LANT_CTL_HALTRST) e) (fun e s => s.haltNow e 7 0 false) s
    let s := if s.pwr.refDue then { s with pwr := { s.pwr with refDue := false } }.deviceFault 5 else s
    let s := if s.is R.SYS_BOOTCFG_STARTRUN && !(s.is R.SYS_BOOTCFG_HOLDAFT && s.get R.RST_CAUSE_CODE == 6) then opModeRequest 0 s else s
    let s := if s.pwr.want.isNone then { s with pwr := { s.pwr with told := true } }.raise 14 0 else s
    s.keepSettle.dictSettle

def execSvFirmwareStart (s : State) : Host.Outcome State Fault Refusal := .next (opSvFirmwareStart s)
def execStartUpEnd (s : State) : Host.Outcome State Fault Refusal := .next (opStartUpEnd s)

end Sys2Proof.Machine
end

