-- ==== Sys2Proof/Machine/Dispatch.lean ====
section
/-! DEFINITION. Machine/Dispatch.lean: one arm per command, each one call of its meaning. -/

namespace Sys2Proof.Machine

def exec (i : Instr) (s : State) : Host.Outcome State Fault Refusal :=
  match i with
  | .tick => Sys2Proof.Machine.execTick s
  | .latchEnd => Sys2Proof.Machine.execLatchEnd s
  | .ppsEdge t falling => Sys2Proof.Machine.execPpsEdge t falling s
  | .ppsLoss => Sys2Proof.Machine.execPpsLoss s
  | .timeSetcmdGo => Sys2Proof.Machine.execTimeSetcmdGo s
  | .turnPeriodWrite v => Sys2Proof.Machine.execTurnPeriodWrite v s
  | .turnPhaseWrite v => Sys2Proof.Machine.execTurnPhaseWrite v s
  | .rtcSync => Sys2Proof.Machine.execRtcSync s
  | .rtcSetgo => Sys2Proof.Machine.execRtcSetgo s
  | .rtcSecRead => Sys2Proof.Machine.execRtcSecRead s
  | .hiLatchingRead a => Sys2Proof.Machine.execHiLatchingRead a s
  | .countdownEnable => Sys2Proof.Machine.execCountdownEnable s
  | .countdownExpiry => Sys2Proof.Machine.execCountdownExpiry s
  | .glintRequest => Sys2Proof.Machine.execGlintRequest s
  | .glintCaptureComplete d => Sys2Proof.Machine.execGlintCaptureComplete d s
  | .bundleIssue e => Sys2Proof.Machine.execBundleIssue e s
  | .immHi e v => Sys2Proof.Machine.execImmHi e v s
  | .pipelinedResult e => Sys2Proof.Machine.execPipelinedResult e s
  | .divResult e => Sys2Proof.Machine.execDivResult e s
  | .fpuDivideResult e => Sys2Proof.Machine.execFpuDivideResult e s
  | .farAccessComplete e answered => Sys2Proof.Machine.execFarAccessComplete e answered s
  | .buLd e v => Sys2Proof.Machine.execBuLd e v s
  | .buLdn e v => Sys2Proof.Machine.execBuLdn e v s
  | .buAnd e v => Sys2Proof.Machine.execBuAnd e v s
  | .buAndn e v => Sys2Proof.Machine.execBuAndn e v s
  | .buOr e v => Sys2Proof.Machine.execBuOr e v s
  | .buOrn e v => Sys2Proof.Machine.execBuOrn e v s
  | .buXor e v => Sys2Proof.Machine.execBuXor e v s
  | .buSt e v => Sys2Proof.Machine.execBuSt e v s
  | .buStn e v => Sys2Proof.Machine.execBuStn e v s
  | .buSet e v => Sys2Proof.Machine.execBuSet e v s
  | .buRst e v => Sys2Proof.Machine.execBuRst e v s
  | .buPush e v => Sys2Proof.Machine.execBuPush e v s
  | .buPop e v => Sys2Proof.Machine.execBuPop e v s
  | .buNot e v => Sys2Proof.Machine.execBuNot e v s
  | .buAccw e v => Sys2Proof.Machine.execBuAccw e v s
  | .buRedge e v => Sys2Proof.Machine.execBuRedge e v s
  | .buFedge e v => Sys2Proof.Machine.execBuFedge e v s
  | .aluAdd e v => Sys2Proof.Machine.execAluAdd e v s
  | .aluSub e v => Sys2Proof.Machine.execAluSub e v s
  | .aluAnd e v => Sys2Proof.Machine.execAluAnd e v s
  | .aluOr e v => Sys2Proof.Machine.execAluOr e v s
  | .aluXor e v => Sys2Proof.Machine.execAluXor e v s
  | .aluAndn e v => Sys2Proof.Machine.execAluAndn e v s
  | .aluShl e v => Sys2Proof.Machine.execAluShl e v s
  | .aluShr e v => Sys2Proof.Machine.execAluShr e v s
  | .aluSar e v => Sys2Proof.Machine.execAluSar e v s
  | .aluRol e v => Sys2Proof.Machine.execAluRol e v s
  | .aluMin e v => Sys2Proof.Machine.execAluMin e v s
  | .aluMax e v => Sys2Proof.Machine.execAluMax e v s
  | .aluMinu e v => Sys2Proof.Machine.execAluMinu e v s
  | .aluMaxu e v => Sys2Proof.Machine.execAluMaxu e v s
  | .aluAdds e v => Sys2Proof.Machine.execAluAdds e v s
  | .aluSubs e v => Sys2Proof.Machine.execAluSubs e v s
  | .aluAbs e v => Sys2Proof.Machine.execAluAbs e v s
  | .aluNeg e v => Sys2Proof.Machine.execAluNeg e v s
  | .aluSxt e v => Sys2Proof.Machine.execAluSxt e v s
  | .aluClz e v => Sys2Proof.Machine.execAluClz e v s
  | .cmpEq e v => Sys2Proof.Machine.execCmpEq e v s
  | .cmpNe e v => Sys2Proof.Machine.execCmpNe e v s
  | .cmpLt e v => Sys2Proof.Machine.execCmpLt e v s
  | .cmpLe e v => Sys2Proof.Machine.execCmpLe e v s
  | .cmpGt e v => Sys2Proof.Machine.execCmpGt e v s
  | .cmpGe e v => Sys2Proof.Machine.execCmpGe e v s
  | .cmpLtu e v => Sys2Proof.Machine.execCmpLtu e v s
  | .cmpGeu e v => Sys2Proof.Machine.execCmpGeu e v s
  | .cmpEqa e v => Sys2Proof.Machine.execCmpEqa e v s
  | .cmpLta e v => Sys2Proof.Machine.execCmpLta e v s
  | .cmpLea e v => Sys2Proof.Machine.execCmpLea e v s
  | .cmpLtua e v => Sys2Proof.Machine.execCmpLtua e v s
  | .cmpLeua e v => Sys2Proof.Machine.execCmpLeua e v s
  | .mulMuls e v => Sys2Proof.Machine.execMulMuls e v s
  | .mulMulu e v => Sys2Proof.Machine.execMulMulu e v s
  | .mulMulq31 e v => Sys2Proof.Machine.execMulMulq31 e v s
  | .divDivs e v => Sys2Proof.Machine.execDivDivs e v s
  | .divDivu e v => Sys2Proof.Machine.execDivDivu e v s
  | .fpuFadd e v => Sys2Proof.Machine.execFpuFadd e v s
  | .fpuFsub e v => Sys2Proof.Machine.execFpuFsub e v s
  | .fpuFmul e v => Sys2Proof.Machine.execFpuFmul e v s
  | .fpuFdiv e v => Sys2Proof.Machine.execFpuFdiv e v s
  | .fpuFsqrt e v => Sys2Proof.Machine.execFpuFsqrt e v s
  | .fpuFcmp e v => Sys2Proof.Machine.execFpuFcmp e v s
  | .fpuFtoi e v => Sys2Proof.Machine.execFpuFtoi e v s
  | .fpuItof e v => Sys2Proof.Machine.execFpuItof e v s
  | .fpuDadd e v => Sys2Proof.Machine.execFpuDadd e v s
  | .fpuDsub e v => Sys2Proof.Machine.execFpuDsub e v s
  | .fpuDmul e v => Sys2Proof.Machine.execFpuDmul e v s
  | .fpuDdiv e v => Sys2Proof.Machine.execFpuDdiv e v s
  | .fpuDsqrt e v => Sys2Proof.Machine.execFpuDsqrt e v s
  | .fpuDcmp e v => Sys2Proof.Machine.execFpuDcmp e v s
  | .fpuDtoi e v => Sys2Proof.Machine.execFpuDtoi e v s
  | .fpuItod e v => Sys2Proof.Machine.execFpuItod e v s
  | .fpuFtod e v => Sys2Proof.Machine.execFpuFtod e v s
  | .fpuDtof e v => Sys2Proof.Machine.execFpuDtof e v s
  | .fpuFclr e v => Sys2Proof.Machine.execFpuFclr e v s
  | .tmrTon e v => Sys2Proof.Machine.execTmrTon e v s
  | .tmrTof e v => Sys2Proof.Machine.execTmrTof e v s
  | .tmrTp e v => Sys2Proof.Machine.execTmrTp e v s
  | .tmrReset e v => Sys2Proof.Machine.execTmrReset e v s
  | .lsuLd32 e v => Sys2Proof.Machine.execLsuLd32 e v s
  | .lsuLd16s e v => Sys2Proof.Machine.execLsuLd16s e v s
  | .lsuLd16u e v => Sys2Proof.Machine.execLsuLd16u e v s
  | .lsuLd8s e v => Sys2Proof.Machine.execLsuLd8s e v s
  | .lsuLd8u e v => Sys2Proof.Machine.execLsuLd8u e v s
  | .lsuSt32 e v => Sys2Proof.Machine.execLsuSt32 e v s
  | .lsuSt16 e v => Sys2Proof.Machine.execLsuSt16 e v s
  | .lsuSt8 e v => Sys2Proof.Machine.execLsuSt8 e v s
  | .imgRd32 e v => Sys2Proof.Machine.execImgRd32 e v s
  | .imgRd16s e v => Sys2Proof.Machine.execImgRd16s e v s
  | .imgRd16u e v => Sys2Proof.Machine.execImgRd16u e v s
  | .imgRd8u e v => Sys2Proof.Machine.execImgRd8u e v s
  | .imgWr32 e v => Sys2Proof.Machine.execImgWr32 e v s
  | .imgWr16 e v => Sys2Proof.Machine.execImgWr16 e v s
  | .imgWr8 e v => Sys2Proof.Machine.execImgWr8 e v s
  | .pcJmp e v => Sys2Proof.Machine.execPcJmp e v s
  | .pcRel e v => Sys2Proof.Machine.execPcRel e v s
  | .pcCall e v => Sys2Proof.Machine.execPcCall e v s
  | .pcCallr e v => Sys2Proof.Machine.execPcCallr e v s
  | .pcRet e v => Sys2Proof.Machine.execPcRet e v s
  | .sysYield e v => Sys2Proof.Machine.execSysYield e v s
  | .sysCall e v => Sys2Proof.Machine.execSysCall e v s
  | .sysEret e v => Sys2Proof.Machine.execSysEret e v s
  | .sysSync e v => Sys2Proof.Machine.execSysSync e v s
  | .sysEvt e v => Sys2Proof.Machine.execSysEvt e v s
  | .sysSetcsp e v => Sys2Proof.Machine.execSysSetcsp e v s
  | .sysSetcspLo e v => Sys2Proof.Machine.execSysSetcspLo e v s
  | .sysSetcspHi e v => Sys2Proof.Machine.execSysSetcspHi e v s
  | .lockOpen e v => Sys2Proof.Machine.execLockOpen e v s
  | .lockSt e v => Sys2Proof.Machine.execLockSt e v s
  | .lockEnd e v => Sys2Proof.Machine.execLockEnd e v s
  | .lockFault e => Sys2Proof.Machine.execLockFault e s
  | .macroT e n v => Sys2Proof.Machine.execMacroT e n v s
  | .microMove e => Sys2Proof.Machine.execMicroMove e s
  | .svcIcinv v => Sys2Proof.Machine.execSvcIcinv v s
  | .svcDcclean v => Sys2Proof.Machine.execSvcDcclean v s
  | .svcDcinv v => Sys2Proof.Machine.execSvcDcinv v s
  | .svcDcflush v => Sys2Proof.Machine.execSvcDcflush v s
  | .eventOccurrence src cond pay => Sys2Proof.Machine.execEventOccurrence src cond pay s
  | .eventRecordUpdate => Sys2Proof.Machine.execEventRecordUpdate s
  | .routedEventEntry e => Sys2Proof.Machine.execRoutedEventEntry e s
  | .evtPendClear w v => Sys2Proof.Machine.execEvtPendClear w v s
  | .evtEnaWrite w v => Sys2Proof.Machine.execEvtEnaWrite w v s
  | .evtInject src pay => Sys2Proof.Machine.execEvtInject src pay s
  | .taskDispatch e => Sys2Proof.Machine.execTaskDispatch e s
  | .preemption e => Sys2Proof.Machine.execPreemption e s
  | .instanceComplete n => Sys2Proof.Machine.execInstanceComplete n s
  | .budgetExhausted n => Sys2Proof.Machine.execBudgetExhausted n s
  | .abortLimit n => Sys2Proof.Machine.execAbortLimit n s
  | .shedStart e => Sys2Proof.Machine.execShedStart e s
  | .shedEnd e => Sys2Proof.Machine.execShedEnd e s
  | .tskDescriptorWrite n k v => Sys2Proof.Machine.execTskDescriptorWrite n k v s
  | .taskEnableWrite n en => Sys2Proof.Machine.execTaskEnableWrite n en s
  | .tskClrstat => Sys2Proof.Machine.execTskClrstat s
  | .tskShedClear e => Sys2Proof.Machine.execTskShedClear e s
  | .excCmdEnter scope => Sys2Proof.Machine.execExcCmdEnter scope s
  | .excCmdRelease scope => Sys2Proof.Machine.execExcCmdRelease scope s
  | .excCmdPenenter scope => Sys2Proof.Machine.execExcCmdPenenter scope s
  | .excCmdPenleave scope => Sys2Proof.Machine.execExcCmdPenleave scope s
  | .engineWatchdogExpiry e => Sys2Proof.Machine.execEngineWatchdogExpiry e s
  | .svWatchdogKick v => Sys2Proof.Machine.execSvWatchdogKick v s
  | .svWatchdogExpiry => Sys2Proof.Machine.execSvWatchdogExpiry s
  | .mirrorWrite m01 m23 => Sys2Proof.Machine.execMirrorWrite m01 m23 s
  | .autoReset => Sys2Proof.Machine.execAutoReset s
  | .eccWriteBack a => Sys2Proof.Machine.execEccWriteBack a s
  | .scrubStep array => Sys2Proof.Machine.execScrubStep array s
  | .eccInject array mode => Sys2Proof.Machine.execEccInject array mode s
  | .lastWordCopy lantern => Sys2Proof.Machine.execLastWordCopy lantern s
  | .dmaStart a => Sys2Proof.Machine.execDmaStart a s
  | .dmaStop a => Sys2Proof.Machine.execDmaStop a s
  | .dmaDisable a => Sys2Proof.Machine.execDmaDisable a s
  | .dmaBurstComplete a => Sys2Proof.Machine.execDmaBurstComplete a s
  | .chkCommit => Sys2Proof.Machine.execChkCommit s
  | .chkDiscard => Sys2Proof.Machine.execChkDiscard s
  | .prgCheck e => Sys2Proof.Machine.execPrgCheck e s
  | .prgCheckComplete e => Sys2Proof.Machine.execPrgCheckComplete e s
  | .prgSched e => Sys2Proof.Machine.execPrgSched e s
  | .prgCancel e => Sys2Proof.Machine.execPrgCancel e s
  | .prgSwitchnow e => Sys2Proof.Machine.execPrgSwitchnow e s
  | .programSwitchComplete e => Sys2Proof.Machine.execProgramSwitchComplete e s
  | .switchWaitRefused e => Sys2Proof.Machine.execSwitchWaitRefused e s
  | .decCheck e => Sys2Proof.Machine.execDecCheck e s
  | .decCheckComplete e => Sys2Proof.Machine.execDecCheckComplete e s
  | .decActivate e => Sys2Proof.Machine.execDecActivate e s
  | .decArm e => Sys2Proof.Machine.execDecArm e s
  | .decDisarm e => Sys2Proof.Machine.execDecDisarm e s
  | .rflCfgWrite v => Sys2Proof.Machine.execRflCfgWrite v s
  | .ownershipClaim => Sys2Proof.Machine.execOwnershipClaim s
  | .ownershipSample => Sys2Proof.Machine.execOwnershipSample s
  | .takeover => Sys2Proof.Machine.execTakeover s
  | .ownershipConflict => Sys2Proof.Machine.execOwnershipConflict s
  | .linkUp => Sys2Proof.Machine.execLinkUp s
  | .linkDown => Sys2Proof.Machine.execLinkDown s
  | .releaseOrderedSet => Sys2Proof.Machine.execReleaseOrderedSet s
  | .nakOrderedSet seq idx => Sys2Proof.Machine.execNakOrderedSet seq idx s
  | .reflectFrameCrcError => Sys2Proof.Machine.execReflectFrameCrcError s
  | .headFrame seq idx d => Sys2Proof.Machine.execHeadFrame seq idx d s
  | .imageFrame seq idx d => Sys2Proof.Machine.execImageFrame seq idx d s
  | .relFrame seq idx d => Sys2Proof.Machine.execRelFrame seq idx d s
  | .farFrame seq idx d => Sys2Proof.Machine.execFarFrame seq idx d s
  | .ctrlFrame seq idx d => Sys2Proof.Machine.execCtrlFrame seq idx d s
  | .endFrame seq idx d => Sys2Proof.Machine.execEndFrame seq idx d s
  | .pageFrame seq idx d bad => Sys2Proof.Machine.execPageFrame seq idx d bad s
  | .stateFrame seq idx d => Sys2Proof.Machine.execStateFrame seq idx d s
  | .digestFrame a crc => Sys2Proof.Machine.execDigestFrame a crc s
  | .statusFrame role disc reports => Sys2Proof.Machine.execStatusFrame role disc reports s
  | .helloFrame items => Sys2Proof.Machine.execHelloFrame items s
  | .logFrame time code data cls => Sys2Proof.Machine.execLogFrame time code data cls s
  | .brickFrame d => Sys2Proof.Machine.execBrickFrame d s
  | .shadowRelRelease e => Sys2Proof.Machine.execShadowRelRelease e s
  | .switchover => Sys2Proof.Machine.execSwitchover s
  | .digestComplete => Sys2Proof.Machine.execDigestComplete s
  | .rflRejoin => Sys2Proof.Machine.execRflRejoin s
  | .rflStop => Sys2Proof.Machine.execRflStop s
  | .rflSwap => Sys2Proof.Machine.execRflSwap s
  | .rflCancel => Sys2Proof.Machine.execRflCancel s
  | .rflRepair => Sys2Proof.Machine.execRflRepair s
  | .roleSwap => Sys2Proof.Machine.execRoleSwap s
  | .syncTurn => Sys2Proof.Machine.execSyncTurn s
  | .rejoinFailure => Sys2Proof.Machine.execRejoinFailure s
  | .rejoinRetry => Sys2Proof.Machine.execRejoinRetry s
  | .isailRead p => Sys2Proof.Machine.execIsailRead p s
  | .isailWrite p => Sys2Proof.Machine.execIsailWrite p s
  | .userReadTaken => Sys2Proof.Machine.execUserReadTaken s
  | .storeGroup p => Sys2Proof.Machine.execStoreGroup p s
  | .defaultsGroup p => Sys2Proof.Machine.execDefaultsGroup p s
  | .reloadGroup p => Sys2Proof.Machine.execReloadGroup p s
  | .policyAction k => Sys2Proof.Machine.execPolicyAction k s
  | .ethernetFrameReceived p f => Sys2Proof.Machine.execEthernetFrameReceived p f s
  | .arpRequestReceived p f => Sys2Proof.Machine.execArpRequestReceived p f s
  | .arpRefresh p => Sys2Proof.Machine.execArpRefresh p s
  | .icmpEchoRequest p f => Sys2Proof.Machine.execIcmpEchoRequest p f s
  | .phyLinkPoll p up => Sys2Proof.Machine.execPhyLinkPoll p up s
  | .canFrameReceived p id ext fd d => Sys2Proof.Machine.execCanFrameReceived p id ext fd d s
  | .canReassemblyTimeout p cls => Sys2Proof.Machine.execCanReassemblyTimeout p cls s
  | .canBusOffRecovery p => Sys2Proof.Machine.execCanBusOffRecovery p s
  | .transmitDone p => Sys2Proof.Machine.execTransmitDone p s
  | .mapMessage p => Sys2Proof.Machine.execMapMessage p s
  | .notifyAck p => Sys2Proof.Machine.execNotifyAck p s
  | .notifySend j k src => Sys2Proof.Machine.execNotifySend j k src s
  | .notifyRepeat j k src => Sys2Proof.Machine.execNotifyRepeat j k src s
  | .subscribeCreate p => Sys2Proof.Machine.execSubscribeCreate p s
  | .subscribeDelete p => Sys2Proof.Machine.execSubscribeDelete p s
  | .subscribeNotifications p => Sys2Proof.Machine.execSubscribeNotifications p s
  | .subscribeList p => Sys2Proof.Machine.execSubscribeList p s
  | .bulkWriteStart p => Sys2Proof.Machine.execBulkWriteStart p s
  | .bulkWriteSegment p => Sys2Proof.Machine.execBulkWriteSegment p s
  | .bulkReadStart p => Sys2Proof.Machine.execBulkReadStart p s
  | .bulkAck p => Sys2Proof.Machine.execBulkAck p s
  | .bulkAbort p => Sys2Proof.Machine.execBulkAbort p s
  | .bulkTimeout j => Sys2Proof.Machine.execBulkTimeout j s
  | .openSession p => Sys2Proof.Machine.execOpenSession p s
  | .rekeySession p => Sys2Proof.Machine.execRekeySession p s
  | .closeSession p => Sys2Proof.Machine.execCloseSession p s
  | .keepAlive p => Sys2Proof.Machine.execKeepAlive p s
  | .unknownService p => Sys2Proof.Machine.execUnknownService p s
  | .sessionIdleTimeout j => Sys2Proof.Machine.execSessionIdleTimeout j s
  | .openLockoutEnd p => Sys2Proof.Machine.execOpenLockoutEnd p s
  | .rekeyOldKeyExpiry j => Sys2Proof.Machine.execRekeyOldKeyExpiry j s
  | .partnerLost p => Sys2Proof.Machine.execPartnerLost p s
  | .fpEnWrite p en => Sys2Proof.Machine.execFpEnWrite p en s
  | .cryptoSubmit a => Sys2Proof.Machine.execCryptoSubmit a s
  | .cryptoJobComplete => Sys2Proof.Machine.execCryptoJobComplete s
  | .cryptoKeydata v => Sys2Proof.Machine.execCryptoKeydata v s
  | .cryptoKeyclr m => Sys2Proof.Machine.execCryptoKeyclr m s
  | .cryptoRngRead => Sys2Proof.Machine.execCryptoRngRead s
  | .gateEdgeCommand n => Sys2Proof.Machine.execGateEdgeCommand n s
  | .phaseAEnd n => Sys2Proof.Machine.execPhaseAEnd n s
  | .plateauExit n t => Sys2Proof.Machine.execPlateauExit n t s
  | .plateauTimeout n => Sys2Proof.Machine.execPlateauTimeout n s
  | .desaturation n => Sys2Proof.Machine.execDesaturation n s
  | .uvloEntry n vddg => Sys2Proof.Machine.execUvloEntry n vddg s
  | .uvloExit n vddg => Sys2Proof.Machine.execUvloExit n vddg s
  | .dieChannelLoss n => Sys2Proof.Machine.execDieChannelLoss n s
  | .coreChannelLoss n => Sys2Proof.Machine.execCoreChannelLoss n s
  | .dieConfigTransferComplete n => Sys2Proof.Machine.execDieConfigTransferComplete n s
  | .gdrvEnWrite n en => Sys2Proof.Machine.execGdrvEnWrite n en s
  | .gdrvLoad n => Sys2Proof.Machine.execGdrvLoad n s
  | .gdrvFclr n => Sys2Proof.Machine.execGdrvFclr n s
  | .activeShort => Sys2Proof.Machine.execActiveShort s
  | .carrierPeak => Sys2Proof.Machine.execCarrierPeak s
  | .carrierValley => Sys2Proof.Machine.execCarrierValley s
  | .legReferenceChange l t => Sys2Proof.Machine.execLegReferenceChange l t s
  | .deadTimeExpiry l => Sys2Proof.Machine.execDeadTimeExpiry l s
  | .gdrvCpWrite v => Sys2Proof.Machine.execGdrvCpWrite v s
  | .gdrvDtWrite v => Sys2Proof.Machine.execGdrvDtWrite v s
  | .gdrvBindWrite k v => Sys2Proof.Machine.execGdrvBindWrite k v s
  | .gdrvDutyWrite k v => Sys2Proof.Machine.execGdrvDutyWrite k v s
  | .svbenWrite en => Sys2Proof.Machine.execSvbenWrite en s
  | .dlnkComparatorChange von voff vtrip => Sys2Proof.Machine.execDlnkComparatorChange von voff vtrip s
  | .chopperCapReached => Sys2Proof.Machine.execChopperCapReached s
  | .dlnkChbindWrite v => Sys2Proof.Machine.execDlnkChbindWrite v s
  | .rollRequest comp => Sys2Proof.Machine.execRollRequest comp s
  | .rollCheckpoint out => Sys2Proof.Machine.execRollCheckpoint out s
  | .brickRead => Sys2Proof.Machine.execBrickRead s
  | .brickReadComplete err d => Sys2Proof.Machine.execBrickReadComplete err d s
  | .brickWb => Sys2Proof.Machine.execBrickWb s
  | .writeBackInterval => Sys2Proof.Machine.execWriteBackInterval s
  | .writeBackComplete err id bad => Sys2Proof.Machine.execWriteBackComplete err id bad s
  | .brickTransferRetry => Sys2Proof.Machine.execBrickTransferRetry s
  | .adcWindowEnd n t vin unstable => Sys2Proof.Machine.execAdcWindowEnd n t vin unstable s
  | .sadcCfgWrite n k v => Sys2Proof.Machine.execSadcCfgWrite n k v s
  | .sadcImgWrite v => Sys2Proof.Machine.execSadcImgWrite v s
  | .sadcFifoPop n => Sys2Proof.Machine.execSadcFifoPop n s
  | .overcurrentComparatorChange k v => Sys2Proof.Machine.execOvercurrentComparatorChange k v s
  | .ocLatchClear m => Sys2Proof.Machine.execOcLatchClear m s
  | .aoutSrcWrite n v => Sys2Proof.Machine.execAoutSrcWrite n v s
  | .aoutCodeWrite n v => Sys2Proof.Machine.execAoutCodeWrite n v s
  | .dacLatch n => Sys2Proof.Machine.execDacLatch n s
  | .waveArm k => Sys2Proof.Machine.execWaveArm k s
  | .waveStop k => Sys2Proof.Machine.execWaveStop k s
  | .waveSample k => Sys2Proof.Machine.execWaveSample k s
  | .diDebouncedChange a t raw => Sys2Proof.Machine.execDiDebouncedChange a t raw s
  | .diTypeWrite v => Sys2Proof.Machine.execDiTypeWrite v s
  | .wireBreakChange n broken => Sys2Proof.Machine.execWireBreakChange n broken s
  | .dioIbindWrite v => Sys2Proof.Machine.execDioIbindWrite v s
  | .doSourceWrite k v => Sys2Proof.Machine.execDoSourceWrite k v s
  | .doSvWrite v => Sys2Proof.Machine.execDoSvWrite v s
  | .doOverload k => Sys2Proof.Machine.execDoOverload k s
  | .doThermalShutdown k => Sys2Proof.Machine.execDoThermalShutdown k s
  | .dioClr hot => Sys2Proof.Machine.execDioClr hot s
  | .dioAutoclr hot => Sys2Proof.Machine.execDioAutoclr hot s
  | .vfldUndervoltage uv => Sys2Proof.Machine.execVfldUndervoltage uv s
  | .walkGo hot => Sys2Proof.Machine.execWalkGo hot s
  | .walkAbort => Sys2Proof.Machine.execWalkAbort s
  | .walkStepEnd hot => Sys2Proof.Machine.execWalkStepEnd hot s
  | .keepWindowWrite a d => Sys2Proof.Machine.execKeepWindowWrite a d s
  | .keepRequestServed fail => Sys2Proof.Machine.execKeepRequestServed fail s
  | .keepSave => Sys2Proof.Machine.execKeepSave s
  | .retainSaveComplete => Sys2Proof.Machine.execRetainSaveComplete s
  | .retainBankEraseComplete => Sys2Proof.Machine.execRetainBankEraseComplete s
  | .ringRead r => Sys2Proof.Machine.execRingRead r s
  | .ringWrite r v => Sys2Proof.Machine.execRingWrite r v s
  | .ringDefine r row n dflt => Sys2Proof.Machine.execRingDefine r row n dflt s
  | .ringUndefine r => Sys2Proof.Machine.execRingUndefine r s
  | .scInc c => Sys2Proof.Machine.execScInc c s
  | .scSet c v => Sys2Proof.Machine.execScSet c v s
  | .recStore k5 hdr d => Sys2Proof.Machine.execRecStore k5 hdr d s
  | .recFind k5 key => Sys2Proof.Machine.execRecFind k5 key s
  | .recFindComplete => Sys2Proof.Machine.execRecFindComplete s
  | .recDrop k5 hdr => Sys2Proof.Machine.execRecDrop k5 hdr s
  | .keepUnlock k write pw => Sys2Proof.Machine.execKeepUnlock k write pw s
  | .keepRelock k => Sys2Proof.Machine.execKeepRelock k s
  | .passwordBlockEnd => Sys2Proof.Machine.execPasswordBlockEnd s
  | .keepRecallComplete => Sys2Proof.Machine.execKeepRecallComplete s
  | .logAppend code data cls pin => Sys2Proof.Machine.execLogAppend code data cls pin s
  | .logUnpin => Sys2Proof.Machine.execLogUnpin s
  | .logClrbad good => Sys2Proof.Machine.execLogClrbad good s
  | .powerFailWarningStart cycle => Sys2Proof.Machine.execPowerFailWarningStart cycle s
  | .powerFailWarningEnd => Sys2Proof.Machine.execPowerFailWarningEnd s
  | .supplyWindowChange k out mv => Sys2Proof.Machine.execSupplyWindowChange k out mv s
  | .powerOnResetAssert => Sys2Proof.Machine.execPowerOnResetAssert s
  | .powerOnResetRelease cold mv => Sys2Proof.Machine.execPowerOnResetRelease cold mv s
  | .sramInitComplete => Sys2Proof.Machine.execSramInitComplete s
  | .svFirmwareStart => Sys2Proof.Machine.execSvFirmwareStart s
  | .startUpEnd => Sys2Proof.Machine.execStartUpEnd s
  | .temperatureSample t => Sys2Proof.Machine.execTemperatureSample t s
  | .domainSwitch n off => Sys2Proof.Machine.execDomainSwitch n off s
  | .referenceFault => Sys2Proof.Machine.execReferenceFault s
  | .dieLinkLoss => Sys2Proof.Machine.execDieLinkLoss s
  | .nrstLow => Sys2Proof.Machine.execNrstLow s
  | .rstCmd v => Sys2Proof.Machine.execRstCmd v s
  | .rstEng m => Sys2Proof.Machine.execRstEng m s
  | .bootcfgStore => Sys2Proof.Machine.execBootcfgStore s
  | .modeRequest m => Sys2Proof.Machine.execModeRequest m s
  | .standbyEntry => Sys2Proof.Machine.execStandbyEntry s
  | .wakePattern => Sys2Proof.Machine.execWakePattern s
  | .lanternOpen f => Sys2Proof.Machine.execLanternOpen f s
  | .lanternClose f => Sys2Proof.Machine.execLanternClose f s
  | .lanternPing f => Sys2Proof.Machine.execLanternPing f s
  | .lanternRead f => Sys2Proof.Machine.execLanternRead f s
  | .lanternWrite f => Sys2Proof.Machine.execLanternWrite f s
  | .lanternMonitor f => Sys2Proof.Machine.execLanternMonitor f s
  | .lanternMonpoll f => Sys2Proof.Machine.execLanternMonpoll f s
  | .lanternReset f => Sys2Proof.Machine.execLanternReset f s
  | .lanternBreak => Sys2Proof.Machine.execLanternBreak s
  | .lanternFrameTimeout => Sys2Proof.Machine.execLanternFrameTimeout s
  | .lanternIdleTimeout => Sys2Proof.Machine.execLanternIdleTimeout s
  | .accGo => Sys2Proof.Machine.execAccGo s
  | .haltRequest mask force => Sys2Proof.Machine.execHaltRequest mask force s
  | .deferredHalt e => Sys2Proof.Machine.execDeferredHalt e s
  | .resumeRequest mask => Sys2Proof.Machine.execResumeRequest mask s
  | .stepRequest mask => Sys2Proof.Machine.execStepRequest mask s
  | .lanternSysrst => Sys2Proof.Machine.execLanternSysrst s
  | .eeDataWrite e v => Sys2Proof.Machine.execEeDataWrite e v s
  | .monRead p => Sys2Proof.Machine.execMonRead p s
  | .monWrite p => Sys2Proof.Machine.execMonWrite p s
  | .monitorHalt p => Sys2Proof.Machine.execMonitorHalt p s
  | .monitorResume p => Sys2Proof.Machine.execMonitorResume p s
  | .monitorStep p => Sys2Proof.Machine.execMonitorStep p s
  | .monStateRead p => Sys2Proof.Machine.execMonStateRead p s
  | .monStateWrite p => Sys2Proof.Machine.execMonStateWrite p s
  | .monBreak p => Sys2Proof.Machine.execMonBreak p s
  | .monSession p => Sys2Proof.Machine.execMonSession p s
  | .monitorReset p => Sys2Proof.Machine.execMonitorReset p s
  | .monStartMode p => Sys2Proof.Machine.execMonStartMode p s
  | .monitorStatus p => Sys2Proof.Machine.execMonitorStatus p s
  | .updSectorErase a => Sys2Proof.Machine.execUpdSectorErase a s
  | .updBlockErase a => Sys2Proof.Machine.execUpdBlockErase a s
  | .updProgram a d => Sys2Proof.Machine.execUpdProgram a d s
  | .updCrc a n => Sys2Proof.Machine.execUpdCrc a n s
  | .flashOperationComplete ok => Sys2Proof.Machine.execFlashOperationComplete ok s
  | .fwVerify p => Sys2Proof.Machine.execFwVerify p s
  | .fwDryrun p => Sys2Proof.Machine.execFwDryrun p s
  | .fwSchedule p => Sys2Proof.Machine.execFwSchedule p s
  | .fwCancel p => Sys2Proof.Machine.execFwCancel p s
  | .fwActivate p => Sys2Proof.Machine.execFwActivate p s
  | .fwConfirm p => Sys2Proof.Machine.execFwConfirm p s
  | .fwRollback p => Sys2Proof.Machine.execFwRollback p s
  | .fwClearResetList p => Sys2Proof.Machine.execFwClearResetList p s
  | .handoverComplete => Sys2Proof.Machine.execHandoverComplete s
  | .confirmationTime => Sys2Proof.Machine.execConfirmationTime s
  | .registerWrite r a v => Sys2Proof.Machine.execRegisterWrite r a v s
  | .ownInChange high => Sys2Proof.Machine.execOwnInChange high s
  | .canBusError p tx heavy crc => Sys2Proof.Machine.execCanBusError p tx heavy crc s
  | .millerClampEngage n => Sys2Proof.Machine.execMillerClampEngage n s
  | .vfldCutoff off => Sys2Proof.Machine.execVfldCutoff off s
  | .pllLock xok => Sys2Proof.Machine.execPllLock xok s
  | .lanternInvalidCell => Sys2Proof.Machine.execLanternInvalidCell s
  | .lanternFrameError f => Sys2Proof.Machine.execLanternFrameError f s
  | .lanternLockoutEnd => Sys2Proof.Machine.execLanternLockoutEnd s
  | .rtcWrap => Sys2Proof.Machine.execRtcWrap s
  | .driveChannelReturn n => Sys2Proof.Machine.execDriveChannelReturn n s

end Sys2Proof.Machine
end

