-- ==== Sys2Proof/Safety.lean ====
section
/-! DEFINITION. Safety.lean: what every run keeps: the canonical form of the byte memories, and the bounds the spec puts on the queues and on
farm time. -/

namespace Sys2Proof.Machine

/-- Every byte memory is in its canonical form: addresses strictly rising, no entry equal to what an unlisted address reads as (09, R229). -/
def Memory.wf (s : State) : Bool :=
  cellsWf 0#8 s.mem && cellsWf 0#8 s.back && cellsWf 0#8 s.work && cellsWf 0xFF#8 s.nor && cellsWf 0xFF#8 s.arr &&
    cellsWf 0#8 s.rfl.snap && cellsWf 0xFF#8 s.brick.mem

/-- The event FIFO holds 256 entries, the last of them kept for EV 15 (08, R202, R204). -/
def fifoOk (l : List Occ) : Bool := decide (l.length ≤ 255 + b2n (l.any fun o => o.src == 15))

/-- The queues of the log are within their sizes (22, R546, R547). -/
def logOk (l : LogSt) : Bool := decide (l.queue.length ≤ 64) && decide (l.ram.length ≤ 256)

/-- What holds after every step: canonical memories, bounded queues, and farm time a multiple of 10 ns (02, R26). -/
def State.inv (s : State) : Bool :=
  Memory.wf s && fifoOk s.evt.fifo && logOk s.log && s.time.farm % 10 == 0

/-! ## One bundle of an engine, as the statements speak of it (03, R64, R73) -/

/-- The engine issues a bundle on its own: it can issue, has no Mirror partner (07, R186), no open locked sequence with 16 bundles (04, R121),
no single step under way (25, R610), no far access that is due by now (04, R112), no turn to come to first (12, R303), and is not at the last bundle of its bank (03, R75). Results
that are due have been written first. -/
def State.plain (s : State) (e : Nat) : Bool :=
  let x := (s.retireBoth e).eng e
  s.caughtUp e && !s.farReady e && s.canIssue e && ((s.retireBoth e).mirrorOf e).isNone && (x.lock.map fun l => l.count).getD 0 != 16 && !x.stepping && x.mac.isNone &&
    (e == 4 || decide (x.pc < 65535))

/-- A bundle is over after `k` cycles: the next one has index `pc`, an open locked sequence has one bundle more. -/
def State.turned (e pc k : Nat) (s : State) : State :=
  (s.upE e fun x => { x with pc := pc, lock := x.lock.map fun l => { l with count := l.count + 1 }, skip := false }).spend e k

/-- A bundle that does nothing but put one operation in flight: its cost is one cycle, and the next bundle follows. -/
def State.starts (s : State) (e : Nat) (f : Flight) : State :=
  ((s.retireBoth e).fly e f).turned e (((s.retireBoth e).eng e).pc + 1) 1

/-- The result and the flags of an ALU operation (04, R103): C, V, Z, N in bits 0 to 3 of `ALU.F`. -/
def aluFlight (due : Nat) (r : Word) (c v : Bool) : Flight :=
  Flight.plain .alu due [(0x0D8, r.toNat), (0x0D9, b2n c + 2 * b2n v + 4 * b2n (r == 0) + 8 * b2n r.msb)]

/-- Saturation to a signed word. -/
def satWord (i : Int) : Word := BitVec.ofInt 32 (max (-(2 ^ 31)) (min (2 ^ 31 - 1) i))
/-- The value does not fit a signed word. -/
def overWord (i : Int) : Bool := decide (i < -(2 ^ 31) ∨ 2 ^ 31 ≤ i)

/-- Zeros above the highest one of the `n` top bits. -/
def zerosAbove : Nat → Word → Nat
  | 0, _ => 0
  | n + 1, w => if w.msb then 0 else 1 + zerosAbove n (w <<< 1)

/-- The accumulator that a bundle leaves: the next operation of BU sees it at once, guards two cycles later (04, R96, R97). -/
def State.leaves (s : State) (e : Nat) (q : Bool) : State :=
  (s.upE e fun x => { x with accO := q }.fly { Flight.plain .bu (x.cyc + 2) [] with acc := some q }).turned e ((s.eng e).pc + 1) 1

/-- No word of `n` bytes from `a` carries an error (09, R221). `copy` is 0 for memory, 2 for the working copy of the image, 5 for the RAM of
the event FIFO. -/
def State.eccClear (s : State) (copy a n : Nat) : Bool :=
  match arrayIn copy a with
  | none => true
  | some (_, w) => (wordsOf w a n).all fun x => (s.m.ecc.find? fun p => p.1 == copy * 2 ^ 32 + x).isNone

/-- The value of `n` image bytes at offset `o` as engine `e` reads them, each from its copy (06, R166). -/
def State.imgVal (s : State) (e o n : Nat) : Nat := leNat (s.imgBytes e o n)

/-- Bit `k` of the image byte at offset `o` as engine `e` reads it (04, R94). -/
def State.imgBit (s : State) (e o k : Nat) : Bool := bit (s.imgVal e o 1) k

/-- No word of `n` image bytes at offset `o` carries an error, in memory or in the working copy, nor, for a word of IW, its quality tag. -/
def State.imgClear (s : State) (o n : Nat) : Bool :=
  s.eccClear 0 (0x03000000 + o) n && s.eccClear 2 (0x03000000 + o) n &&
    (!inRange o 0x5000 0x4000 || s.eccClear 0 (0x0300F000 + (o - 0x5000) / 16) 1)

/-- What a bundle that faults in its unit leaves before the fault is raised (03, R67): one cycle, and no effect. -/
def State.faulted (s : State) (e : Nat) : State :=
  let r := s.retireBoth e
  (keepReports r (r.setEng e (r.eng e)) e).spend e 1

/-- The accumulator as an operation of BU leaves it, on its way to the guards (04, R96). -/
def State.accTo (s : State) (e : Nat) (q : Bool) : State :=
  s.upE e fun x => { x with accO := q }.fly { Flight.plain .bu (x.cyc + 2) [] with acc := some q }

/-- No watchpoint of the engine is enabled (25, R613). -/
def State.unwatched (s : State) (e : Nat) : Bool := (List.range 2).all fun k => !s.is R.LANT_E_WP_CFG_EN e k

/-- A near access of a logic engine that the checker permits: aligned, within reach, in words without an
error, when the initialiser is through (04, R111; 09, R221, R227). -/
def State.nearOk (s : State) (e kind a n : Nat) : Bool :=
  decide (a % n = 0) && nearTo e a && (s.judge e (s.eng e).priv kind a).ok && s.eccClear 0 a n && s.m.inject.isNone && !s.m.init && s.unwatched e

/-- Nobody waits for occurrences of a source: no enabled task, no waveform channel, no DMA descriptor, no engine route (08, R201). -/
def State.quiet (s : State) (src : Nat) : Bool :=
  ((List.range 48).all fun n => !((s.task n).enabled && s.is R.TSK_CFG_TRIG n && s.tSrc n == src)) &&
    ((List.range 8).all fun k => !(s.get R.WAVE_CH_CTL_TRIG k == 2 && s.get R.WAVE_CH_CTL_EVSRC k == src)) &&
    ((List.range 4).all fun a => !(s.is R.DMA_STAT_WAITTRIG a && s.get R.DMA_CTL_TRIGSRC a == src)) && !s.is R.EVT_CFG_RTEN src

/-- The message at the front of a port is `m`, and SV serves it: it is neither halted nor being handed over (14, R364; 25, R607; 26, R635). -/
def State.fronts (s : State) (p : Nat) (m : Msg) : Bool :=
  decide ((s.front p).bind (fun q => parseMsg q.1 q.2) = some m) && !s.halted 4 && !s.upd.hand

/-- A message taken from its port: once it has passed the checks of R364, `f` serves it in its session and the sequences are watched (14, R365);
otherwise it is discarded. -/
def State.served (s : State) (p : Nat) (m : Msg) (f : Nat → Sess → State → State) : State :=
  match (s.popFront p).msgAccept p m with
  | (u, none) => u
  | (u, some i) =>
    match Store.find i u.sess with
    | none => u
    | some x => (f i x u).seqGuard i

end Sys2Proof.Machine
end

