-- ==== Sys2Proof/Certificates/Slice0/Obligations.lean ====
section
/-! DEFINITION. Certificates/Slice0/Obligations.lean: the statements for the provers, by the chapters of the spec, then those about every
command and every step. -/

open Sys2Proof Sys2Proof.Machine

/-- Results and flags of the ALU and the compare unit. On any engine that issues the bundle on its own, the 15 ALU operations ADD, SUB, AND, OR, XOR,
ANDN, SHL, SHR, SAR, ROL, MIN, MAX, MINU, MAXU and CLZ complete: the result and the flags C, V, Z, N of A op B, with A the moved value and B in ALU.B,
are in flight and due one cycle later; the results that are due are written first, and nothing else of the machine changes but the bundle index and
the cycles. ADDS, SUBS, ABS, NEG and SXT complete: the result saturates, V says so, Z and N follow the result. The spec gives these five no carry:
some value of C, a free one (log entry 7), stands in the flags, and one free value is used up. The eight compares complete with their result on its
way to CMP.Q one cycle later; the five accumulator-loading compares complete with the accumulator taking the result in BU order, and write no CMP.Q.
-/
def Obligations.AluResults : Prop :=
  (∀ (e : Fin 5) (v : Word) (s : State), let r := s.retireBoth e; let x := r.eng e; let b := x.port 0x0C0;
     s.plain e = true →
     exec (.aluAdd e v) s = .next (s.starts e (aluFlight (x.cyc + 1) (v + b) (decide (2 ^ 32 ≤ v.toNat + b.toNat)) (v.msb == b.msb && (v + b).msb != v.msb))) ∧
     exec (.aluSub e v) s = .next (s.starts e (aluFlight (x.cyc + 1) (v - b) (decide (b ≤ v)) (v.msb != b.msb && (v - b).msb != v.msb))) ∧
     exec (.aluAnd e v) s = .next (s.starts e (aluFlight (x.cyc + 1) (v &&& b) false false)) ∧
     exec (.aluOr e v) s = .next (s.starts e (aluFlight (x.cyc + 1) (v ||| b) false false)) ∧
     exec (.aluXor e v) s = .next (s.starts e (aluFlight (x.cyc + 1) (v ^^^ b) false false)) ∧
     exec (.aluAndn e v) s = .next (s.starts e (aluFlight (x.cyc + 1) (v &&& ~~~b) false false)) ∧
     exec (.aluShl e v) s = .next (s.starts e (aluFlight (x.cyc + 1) (v <<< (b.toNat % 32)) false false)) ∧
     exec (.aluShr e v) s = .next (s.starts e (aluFlight (x.cyc + 1) (v >>> (b.toNat % 32)) false false)) ∧
     exec (.aluSar e v) s = .next (s.starts e (aluFlight (x.cyc + 1) (v.sshiftRight (b.toNat % 32)) false false)) ∧
     exec (.aluRol e v) s = .next (s.starts e (aluFlight (x.cyc + 1) (v.rotateLeft (b.toNat % 32)) false false)) ∧
     exec (.aluMin e v) s = .next (s.starts e (aluFlight (x.cyc + 1) (if v.sle b then v else b) false false)) ∧
     exec (.aluMax e v) s = .next (s.starts e (aluFlight (x.cyc + 1) (if v.sle b then b else v) false false)) ∧
     exec (.aluMinu e v) s = .next (s.starts e (aluFlight (x.cyc + 1) (if v ≤ b then v else b) false false)) ∧
     exec (.aluMaxu e v) s = .next (s.starts e (aluFlight (x.cyc + 1) (if v ≤ b then b else v) false false)) ∧
     exec (.aluClz e v) s = .next (s.starts e (aluFlight (x.cyc + 1) (BitVec.ofNat 32 (zerosAbove 32 v)) false false))) ∧
  (∀ (e : Fin 5) (v : Word) (s : State), let r := s.retireBoth e; let x := r.eng e; let b := x.port 0x0C0; let go := fun (r : Word) (c o : Bool) => { s.starts e (aluFlight (x.cyc + 1) r c o) with freeCtr := (s.retireBoth e).freeCtr + 1 };
     s.plain e = true →
     (∃ c, exec (.aluAdds e v) s = .next (go (satWord (v.toInt + b.toInt)) c (overWord (v.toInt + b.toInt)))) ∧
     (∃ c, exec (.aluSubs e v) s = .next (go (satWord (v.toInt - b.toInt)) c (overWord (v.toInt - b.toInt)))) ∧
     (∃ c, exec (.aluAbs e v) s = .next (go (satWord v.toInt.natAbs) c (overWord v.toInt.natAbs))) ∧
     (∃ c, exec (.aluNeg e v) s = .next (go (satWord (-v.toInt)) c (overWord (-v.toInt)))) ∧
     (∃ c, exec (.aluSxt e v) s = .next (go ((v.setWidth (b.toNat % 32 + 1)).signExtend 32) c false))) ∧
  (∀ (e : Fin 5) (v : Word) (s : State), let r := s.retireBoth e; let x := r.eng e; let b := x.port 0x0E0;
     s.plain e = true →
     exec (.cmpEq e v) s = .next (s.starts e (Flight.plain .cmp (x.cyc + 1) [(0x0EF, b2n (v == b))])) ∧
     exec (.cmpNe e v) s = .next (s.starts e (Flight.plain .cmp (x.cyc + 1) [(0x0EF, b2n (v != b))])) ∧
     exec (.cmpLt e v) s = .next (s.starts e (Flight.plain .cmp (x.cyc + 1) [(0x0EF, b2n (v.slt b))])) ∧
     exec (.cmpLe e v) s = .next (s.starts e (Flight.plain .cmp (x.cyc + 1) [(0x0EF, b2n (v.sle b))])) ∧
     exec (.cmpGt e v) s = .next (s.starts e (Flight.plain .cmp (x.cyc + 1) [(0x0EF, b2n (b.slt v))])) ∧
     exec (.cmpGe e v) s = .next (s.starts e (Flight.plain .cmp (x.cyc + 1) [(0x0EF, b2n (b.sle v))])) ∧
     exec (.cmpLtu e v) s = .next (s.starts e (Flight.plain .cmp (x.cyc + 1) [(0x0EF, b2n (v.ult b))])) ∧
     exec (.cmpGeu e v) s = .next (s.starts e (Flight.plain .cmp (x.cyc + 1) [(0x0EF, b2n (b.ule v))])) ∧
     exec (.cmpEqa e v) s = .next (r.leaves e (v == b)) ∧
     exec (.cmpLta e v) s = .next (r.leaves e (v.slt b)) ∧
     exec (.cmpLea e v) s = .next (r.leaves e (v.sle b)) ∧
     exec (.cmpLtua e v) s = .next (r.leaves e (v.ult b)) ∧
     exec (.cmpLeua e v) s = .next (r.leaves e (v.ule b)))

/-- Products. MULS and MULU write the 64-bit product of A and MUL.B into MUL.LO (port 0x0F8) and MUL.HI (0x0F9); MULQ31 writes the signed product
shifted right by 31, rounded towards minus infinity and saturated to 0x7FFF_FFFF, into MUL.LO and the upper word of the signed 64-bit product into
MUL.HI. The results are in flight for three cycles. -/
def Obligations.MultiplyResults : Prop :=
  ∀ (e : Fin 5) (v : Word) (s : State), let r := s.retireBoth e; let x := r.eng e; let b := x.port 0x0F0; let go := fun (lo hi : Word) => Host.Outcome.next (s.starts e (Flight.plain .mul (x.cyc + 3) [(0x0F8, lo.toNat), (0x0F9, hi.toNat)]));
    s.plain e = true →
    exec (.mulMuls e v) s = go ((v.signExtend 64 * b.signExtend 64).setWidth 32) (((v.signExtend 64 * b.signExtend 64) >>> 32).setWidth 32) ∧
    exec (.mulMulu e v) s = go ((v.setWidth 64 * b.setWidth 64).setWidth 32) (((v.setWidth 64 * b.setWidth 64) >>> 32).setWidth 32) ∧
    exec (.mulMulq31 e v) s = go (satWord (v.toInt * b.toInt / 2 ^ 31)) (((v.signExtend 64 * b.signExtend 64) >>> 32).setWidth 32)

/-- Quotients, remainders and their edge cases. DIVS and DIVU complete without a fault on every operand, zero included: DIV.Q, DIV.REM and DIV.F
(ports 0x108 to 0x10A) are in flight for twelve cycles; the quotient truncates towards zero, the remainder has the sign of A, and the four edge
cases of R105 give the values of its table. An operation of the unit still in flight is abandoned. -/
def Obligations.DivideResults : Prop :=
  ∀ (e : Fin 5) (v : Word) (s : State), let r := s.retireBoth e; let x := r.eng e; let b := x.port 0x100; let go := fun (q m : Word) (f : Nat) => Host.Outcome.next (s.starts e (Flight.plain .div (x.cyc + 12) [(0x108, q.toNat), (0x109, m.toNat), (0x10A, f)]));
    s.plain e = true →
    exec (.divDivs e v) s = (if b = 0 then go (if v.msb then 0x80000000 else 0x7FFFFFFF) v 1
      else if v = 0x80000000 ∧ b = 0xFFFFFFFF then go 0x7FFFFFFF 0 2 else go (v.sdiv b) (v.srem b) 0) ∧
    exec (.divDivu e v) s = (if b = 0 then go 0xFFFFFFFF v 1 else go (v / b) (v % b) 0)

/-- Operations of the FPU. The 18 FPU operations complete: each has its rounded result on its way to FPU.RES (add path, 4 cycles) or FPU.DRES (divide
path, 16 cycles for a quotient and 18 for a root) and its IEEE flags on their way into FPU.F, with the rounding mode of FPU.RM and double operands
taken from the pairs of latches; FCLR clears the flags one cycle later. -/
def Obligations.FloatResults : Prop :=
  ∀ (e : Fin 5) (v : Word) (s : State), let r := s.retireBoth e; let x := r.eng e; let rm := (x.port 0x113).toNat % 4; let a := v.toNat; let b := (x.port 0x110).toNat; let ad := v.toNat + 2 ^ 32 * (x.port 0x112).toNat; let bd := (x.port 0x110).toNat + 2 ^ 32 * (x.port 0x111).toNat;
    s.plain e = true →
    (let r := addF b32 rm false a b; exec (.fpuFadd e v) s = .next (s.starts e { Flight.plain .fpuAdd (x.cyc + 4) ([(0x130, r.1)]) with flags := r.2 })) ∧
    (let r := addF b32 rm true a b; exec (.fpuFsub e v) s = .next (s.starts e { Flight.plain .fpuAdd (x.cyc + 4) ([(0x130, r.1)]) with flags := r.2 })) ∧
    (let r := mulF b32 rm a b; exec (.fpuFmul e v) s = .next (s.starts e { Flight.plain .fpuAdd (x.cyc + 4) ([(0x130, r.1)]) with flags := r.2 })) ∧
    (let r := divF b32 rm a b; exec (.fpuFdiv e v) s = .next (s.starts e { Flight.plain .fpuDiv (x.cyc + 16) ([(0x132, r.1)]) with flags := r.2 })) ∧
    (let r := sqrtF b32 rm a; exec (.fpuFsqrt e v) s = .next (s.starts e { Flight.plain .fpuDiv (x.cyc + 18) ([(0x132, r.1)]) with flags := r.2 })) ∧
    (let r := cmpF b32 a b; exec (.fpuFcmp e v) s = .next (s.starts e { Flight.plain .fpuAdd (x.cyc + 4) ([(0x130, r.1)]) with flags := r.2 })) ∧
    (let r := toIntF b32 32 rm a; exec (.fpuFtoi e v) s = .next (s.starts e { Flight.plain .fpuAdd (x.cyc + 4) ([(0x130, r.1)]) with flags := r.2 })) ∧
    (let r := ofIntF b32 rm v.toInt; exec (.fpuItof e v) s = .next (s.starts e { Flight.plain .fpuAdd (x.cyc + 4) ([(0x130, r.1)]) with flags := r.2 })) ∧
    (let r := addF b64 rm false ad bd; exec (.fpuDadd e v) s = .next (s.starts e { Flight.plain .fpuAdd (x.cyc + 4) (outs64 0x130 0x131 r.1) with flags := r.2 })) ∧
    (let r := addF b64 rm true ad bd; exec (.fpuDsub e v) s = .next (s.starts e { Flight.plain .fpuAdd (x.cyc + 4) (outs64 0x130 0x131 r.1) with flags := r.2 })) ∧
    (let r := mulF b64 rm ad bd; exec (.fpuDmul e v) s = .next (s.starts e { Flight.plain .fpuAdd (x.cyc + 4) (outs64 0x130 0x131 r.1) with flags := r.2 })) ∧
    (let r := divF b64 rm ad bd; exec (.fpuDdiv e v) s = .next (s.starts e { Flight.plain .fpuDiv (x.cyc + 16) (outs64 0x132 0x133 r.1) with flags := r.2 })) ∧
    (let r := sqrtF b64 rm ad; exec (.fpuDsqrt e v) s = .next (s.starts e { Flight.plain .fpuDiv (x.cyc + 18) (outs64 0x132 0x133 r.1) with flags := r.2 })) ∧
    (let r := cmpF b64 ad bd; exec (.fpuDcmp e v) s = .next (s.starts e { Flight.plain .fpuAdd (x.cyc + 4) ([(0x130, r.1)]) with flags := r.2 })) ∧
    (let r := toIntF b64 32 rm ad; exec (.fpuDtoi e v) s = .next (s.starts e { Flight.plain .fpuAdd (x.cyc + 4) ([(0x130, r.1)]) with flags := r.2 })) ∧
    (let r := ofIntF b64 rm v.toInt; exec (.fpuItod e v) s = .next (s.starts e { Flight.plain .fpuAdd (x.cyc + 4) (outs64 0x130 0x131 r.1) with flags := r.2 })) ∧
    (let r := convF b32 b64 rm a; exec (.fpuFtod e v) s = .next (s.starts e { Flight.plain .fpuAdd (x.cyc + 4) (outs64 0x130 0x131 r.1) with flags := r.2 })) ∧
    (let r := convF b64 b32 rm ad; exec (.fpuDtof e v) s = .next (s.starts e { Flight.plain .fpuAdd (x.cyc + 4) ([(0x130, r.1)]) with flags := r.2 })) ∧
    exec (.fpuFclr e v) s = .next (s.starts e { Flight.plain .fpuAdd (x.cyc + 1) [] with clr := true })

/-- Bit operations, bit stores and the branch stack. LD, LDN, AND, ANDN, OR, ORN and XOR complete on every image bit address that names a byte of an
area: the accumulator, as the previous operation of BU left it, is combined with the addressed bit, read from the task's own copy where R166 says
so; no image byte changes. On an image bit that the task may write, ST and STN write the accumulator or its complement, SET and RST write 1 or 0
when the accumulator is 1 and else leave the image as it is, REDGE and FEDGE set the accumulator to x AND NOT m and to NOT x AND m and write x
into m. A write changes only its own bit, in the copy that the task's access meets. On any engine PUSH pushes the accumulator with the code in
bits 2 to 0 and leaves the accumulator, POP pops the top pair above the floor and sets the accumulator as the table of R98 gives, NOT complements
it and ACCW loads bit 0 of the value. A push onto 32 entries or with code 7, and a pop at depth 0 or at the floor, raise the branch-stack fault
(cause 0x18) instead. -/
def Obligations.BitUnit : Prop :=
  (∀ (e : Fin 4) (v : Word) (o : Nat) (s : State), let r := s.retireBoth e; let x := r.eng e; let a := x.accO; let m := r.imgBit e o (v.toNat % 8);
     s.plain e = true →
     imgOfs v.toNat = some o →
     r.eccClear (r.imgCopy e o) (0x03000000 + o) 1 = true →
     exec (.buLd (e.castSucc) v) s = .next (r.leaves e (m)) ∧
     exec (.buLdn (e.castSucc) v) s = .next (r.leaves e (!m)) ∧
     exec (.buAnd (e.castSucc) v) s = .next (r.leaves e (a && m)) ∧
     exec (.buAndn (e.castSucc) v) s = .next (r.leaves e (a && !m)) ∧
     exec (.buOr (e.castSucc) v) s = .next (r.leaves e (a || m)) ∧
     exec (.buOrn (e.castSucc) v) s = .next (r.leaves e (a || !m)) ∧
     exec (.buXor (e.castSucc) v) s = .next (r.leaves e (a != m))) ∧
  (∀ (e : Fin 4) (v : Word) (o : Nat) (s : State), let r := s.retireBoth e; let x := r.eng e; let a := x.accO; let m := r.imgBit e o (v.toNat % 8); let put := fun (b : Bool) (q : State) => ((q.setCopy (r.imgCopy e o) (0x03000000 + o) (bitSet (r.imgVal e o 1) (v.toNat % 8) b)).markDirty (r.imgCopy e o == 2) (0x03000000 + o) 1).turned e (x.pc + 1) 1;
     s.plain e = true →
     imgOfs v.toNat = some o →
     r.eccClear (r.imgCopy e o) (0x03000000 + o) 1 = true →
     r.imgMayWrite e v.toNat o 1 = true →
     exec (.buSt e.castSucc v) s = .next (put (a) r) ∧
     exec (.buStn e.castSucc v) s = .next (put (!a) r) ∧
     exec (.buSet e.castSucc v) s = .next (if a then put true r else (r.setEng e x).turned e (x.pc + 1) 1) ∧
     exec (.buRst e.castSucc v) s = .next (if a then put false r else (r.setEng e x).turned e (x.pc + 1) 1) ∧
     exec (.buRedge e.castSucc v) s = .next (put a (r.accTo e (a && !m))) ∧
     exec (.buFedge e.castSucc v) s = .next (put a (r.accTo e (!a && m)))) ∧
  (∀ (e : Fin 5) (v : Word) (s : State), let r := s.retireBoth e; let x := r.eng e;
     s.plain e = true →
     exec (.buPush e v) s = .next (if x.branch.length < 32 ∧ v.toNat % 8 ≠ 7
       then (r.upE e fun y => { y with branch := (x.accO, v.toNat % 8) :: y.branch }).leaves e x.accO
       else (s.faulted e).raiseFault e 0x18 x.branch.length x.pc)) ∧
  (∀ (e : Fin 5) (v : Word) (s : State), let r := s.retireBoth e; let x := r.eng e;
     s.plain e = true →
     exec (.buNot e v) s = .next (r.leaves e (!x.accO)) ∧
     exec (.buAccw e v) s = .next (r.leaves e (bit v.toNat 0))) ∧
  (∀ (e : Fin 5) (v : Word) (a : Bool) (c : Nat) (l : List (Bool × Nat)) (s : State), let r := s.retireBoth e; let x := r.eng e;
     s.plain e = true →
     x.branch = (a, c) :: l →
     exec (.buPop e v) s = .next (if x.floor.getD 0 < x.branch.length
       then (r.upE e fun y => { y with branch := l }).leaves e (match c with
         | 0 => a | 1 => a && x.accO | 2 => a && !x.accO | 3 => a || x.accO | 4 => a || !x.accO | 5 => a != x.accO | _ => a == x.accO)
       else (s.faulted e).raiseFault e 0x18 x.branch.length x.pc)) ∧
  (∀ (e : Fin 5) (v : Word) (s : State), let r := s.retireBoth e; let x := r.eng e;
     s.plain e = true →
     x.branch = [] →
     exec (.buPop e v) s = .next ((s.faulted e).raiseFault e 0x18 0 x.pc))

/-- Timers and branches. TON, TOF and TP evaluate timer v[5:0] with input v[8] against the timer clock of the instance's release tick, with a preset
in 1 µs, 1 ms or 1 s, and give Q and ET as the table of R109 says; a timer that had another behaviour is cleared first; RESET clears the timer. A
preset unit of 3 raises the illegal-move fault (cause 0x11). A taken branch costs four cycles. JMP goes to the moved value, REL to the current
index plus the moved value taken as signed, CALL and CALLR likewise after pushing the index of the following bundle; RET pops the top of the
return stack. A target out of range raises the branch-target fault (0x14), a call with 16 entries the overflow (0x16), a return with none the
underflow (0x17). -/
def Obligations.TimersAndBranches : Prop :=
  (∀ (e : Fin 4) (v : Word) (s : State), let r := s.retireBoth e; let x := r.eng e; let pt := (x.port 0x140).toNat; let u := unitNs ((x.port 0x140).toNat / 2 ^ 30); let n := v.toNat % 64; let i := bit v.toNat 8; let now := (match r.running e with | some j => j.relClk | none => x.tclk); let old := fun k => if (x.timers.getD n (Timer.zero 0)).kind = k then x.timers.getD n (Timer.zero 0) else Timer.zero k; let go := fun (tm : Timer) (q : Bool) (et : Nat) => (Host.Outcome.next : State → Host.Outcome State Fault Refusal) ((r.upE e fun y => { y with timers := Store.put n tm y.timers }.fly (Flight.plain .tmr (x.cyc + 2) [(0x148, b2n q), (0x149, et + pt / 2 ^ 30 * 2 ^ 30)])).turned e (x.pc + 1) 1);
     s.plain e = true →
     (r.eng e).port 0x140 < 0xC0000000#32 →
     (let o := old 1
      let st := if o.lastIn then o.start else now
      let el := min (pt % 2 ^ 30) ((now - st) / u)
      let q := i && el == pt % 2 ^ 30
      let et := if i then el else 0
      exec (.tmrTon e.castSucc v) s = go (if i then ⟨1, true, q, true, st⟩ else ⟨1, false, false, false, 0⟩) q et) ∧
     (let o := old 2
      let st := if o.lastIn then now else o.start
      let tim := o.lastIn || o.timing
      let el := min (pt % 2 ^ 30) ((now - st) / u)
      let q := i || (tim && decide (el < pt % 2 ^ 30))
      let et := if !i && tim then el else 0
      exec (.tmrTof e.castSucc v) s = go (if i then ⟨2, true, true, false, 0⟩ else ⟨2, false, q, tim, st⟩) q et) ∧
     (let o := old 3
      let st := if i && !o.lastIn && !o.timing then now else o.start
      let tim := (i && !o.lastIn) || o.timing
      let el := min (pt % 2 ^ 30) ((now - st) / u)
      let q := tim && el != pt % 2 ^ 30
      let et := if tim && !(el == pt % 2 ^ 30 && !i) then el else 0
      exec (.tmrTp e.castSucc v) s = go (if tim = false ∨ (el = pt % 2 ^ 30 ∧ i = false) then ⟨3, i, false, false, 0⟩ else ⟨3, i, q, true, st⟩) q et)) ∧
  (∀ (e : Fin 4) (v : Word) (s : State), let r := s.retireBoth e; let x := r.eng e;
     s.plain e = true →
     exec (.tmrReset e.castSucc v) s = .next ((r.upE e fun y => { y with timers := Store.del (v.toNat % 64) y.timers }).turned e (x.pc + 1) 1)) ∧
  (∀ (e : Fin 4) (v : Word) (s : State), let r := s.retireBoth e; let x := r.eng e;
     s.plain e = true →
     0xC0000000#32 ≤ (r.eng e).port 0x140 →
     exec (.tmrTon e.castSucc v) s = .next ((s.faulted e).raiseFault e 0x11 0x141 x.pc) ∧
     exec (.tmrTof e.castSucc v) s = .next ((s.faulted e).raiseFault e 0x11 0x142 x.pc) ∧
     exec (.tmrTp e.castSucc v) s = .next ((s.faulted e).raiseFault e 0x11 0x143 x.pc)) ∧
  (∀ (e : Fin 5) (v : Word) (s : State), let r := s.retireBoth e; let x := r.eng e; let lim := if e.val = 4 then (2 ^ 29 : Int) else 65536; let t := (x.pc : Int) + v.toInt;
     s.plain e = true →
     exec (.pcJmp e v) s = .next (if (v.toNat : Int) < lim then (r.setEng e x).turned e v.toNat 4 else (s.faulted e).raiseFault e 0x14 v.toNat x.pc) ∧
     exec (.pcRel e v) s = .next (if 0 ≤ t ∧ t < lim then (r.setEng e x).turned e t.toNat 4 else (s.faulted e).raiseFault e 0x14 ((x.pc + v.toNat) % 2 ^ 32) x.pc) ∧
     exec (.pcCall e v) s = .next (if (v.toNat : Int) < lim then (if x.rets.length < 16 then (r.setEng e { x with rets := (x.pc + 1) :: x.rets }).turned e v.toNat 4
       else (s.faulted e).raiseFault e 0x16 v.toNat x.pc) else (s.faulted e).raiseFault e 0x14 v.toNat x.pc) ∧
     exec (.pcCallr e v) s = .next (if 0 ≤ t ∧ t < lim then (if x.rets.length < 16 then (r.setEng e { x with rets := (x.pc + 1) :: x.rets }).turned e t.toNat 4
       else (s.faulted e).raiseFault e 0x16 t.toNat x.pc) else (s.faulted e).raiseFault e 0x14 ((x.pc + v.toNat) % 2 ^ 32) x.pc) ∧
     exec (.pcRet e v) s = .next (match x.rets with
       | [] => (s.faulted e).raiseFault e 0x17 0 x.pc
       | b :: l => (r.setEng e { x with rets := l }).turned e b 4))

/-- Near loads and stores. An aligned load from the near class that the checker permits completes: the bytes at the moved value plus LSU.OFS, extended
as the trigger says, are on their way to LSU.Q and arrive two cycles later. Memory does not change. An aligned near store that the checker permits
completes: the low bytes of LSU.D stand at the moved value plus LSU.OFS, every other byte of memory, the working and back copies of the image, the
flash and the Keep array are unchanged, no register field changes, and the engine goes on with the next bundle. -/
def Obligations.NearAccesses : Prop :=
  (∀ (e : Fin 4) (v : Word) (s : State), let r := s.retireBoth e; let x := r.eng e; let a := (v.toNat + (x.port 0x180).toNat) % 2 ^ 32; let go := fun (w : Word) => (Host.Outcome.next : State → Host.Outcome State Fault Refusal) (s.starts e (Flight.plain .lsu (x.cyc + 2) [(0x190, w.toNat)]));
     s.plain e = true →
     r.nearOk e 0 a 4 = true →
     exec (.lsuLd32 e.castSucc v) s = go (BitVec.ofNat 32 (leNat (r.mbs a 4)))) ∧
  (∀ (e : Fin 4) (v : Word) (s : State), let r := s.retireBoth e; let x := r.eng e; let a := (v.toNat + (x.port 0x180).toNat) % 2 ^ 32; let go := fun (w : Word) => (Host.Outcome.next : State → Host.Outcome State Fault Refusal) (s.starts e (Flight.plain .lsu (x.cyc + 2) [(0x190, w.toNat)]));
     s.plain e = true →
     r.nearOk e 0 a 2 = true →
     exec (.lsuLd16s e.castSucc v) s = go ((BitVec.ofNat 16 (leNat (r.mbs a 2))).signExtend 32)) ∧
  (∀ (e : Fin 4) (v : Word) (s : State), let r := s.retireBoth e; let x := r.eng e; let a := (v.toNat + (x.port 0x180).toNat) % 2 ^ 32; let go := fun (w : Word) => (Host.Outcome.next : State → Host.Outcome State Fault Refusal) (s.starts e (Flight.plain .lsu (x.cyc + 2) [(0x190, w.toNat)]));
     s.plain e = true →
     r.nearOk e 0 a 2 = true →
     exec (.lsuLd16u e.castSucc v) s = go ((BitVec.ofNat 16 (leNat (r.mbs a 2))).setWidth 32)) ∧
  (∀ (e : Fin 4) (v : Word) (s : State), let r := s.retireBoth e; let x := r.eng e; let a := (v.toNat + (x.port 0x180).toNat) % 2 ^ 32; let go := fun (w : Word) => (Host.Outcome.next : State → Host.Outcome State Fault Refusal) (s.starts e (Flight.plain .lsu (x.cyc + 2) [(0x190, w.toNat)]));
     s.plain e = true →
     r.nearOk e 0 a 1 = true →
     exec (.lsuLd8s e.castSucc v) s = go ((r.mb a).signExtend 32)) ∧
  (∀ (e : Fin 4) (v : Word) (s : State), let r := s.retireBoth e; let x := r.eng e; let a := (v.toNat + (x.port 0x180).toNat) % 2 ^ 32; let go := fun (w : Word) => (Host.Outcome.next : State → Host.Outcome State Fault Refusal) (s.starts e (Flight.plain .lsu (x.cyc + 2) [(0x190, w.toNat)]));
     s.plain e = true →
     r.nearOk e 0 a 1 = true →
     exec (.lsuLd8u e.castSucc v) s = go ((r.mb a).setWidth 32)) ∧
  (∀ (e : Fin 4) (v : Word) (s : State), let r := s.retireBoth e; let x := r.eng e; let a := (v.toNat + (x.port 0x180).toNat) % 2 ^ 32; let d := (x.port 0x181).toNat;
     s.plain e = true →
     r.nearOk e 1 a 4 = true →
     (r.mem) = s.mem →
     ∃ t : State, exec (.lsuSt32 e.castSucc v) s = .next t ∧ t.mbs a 4 = leBytes 4 d ∧ (∀ b, b < a ∨ a + 4 ≤ b → t.mb b = s.mb b) ∧ t.work = r.work ∧ t.back = r.back ∧ t.nor = r.nor ∧ t.arr = r.arr ∧ t.flds = r.flds ∧ (t.eng e).pc = x.pc + 1 ∧ t.eng 4 = r.eng 4) ∧
  (∀ (e : Fin 4) (v : Word) (s : State), let r := s.retireBoth e; let x := r.eng e; let a := (v.toNat + (x.port 0x180).toNat) % 2 ^ 32; let d := (x.port 0x181).toNat;
     s.plain e = true →
     r.nearOk e 1 a 2 = true →
     (r.mem) = s.mem →
     ∃ t : State, exec (.lsuSt16 e.castSucc v) s = .next t ∧ t.mbs a 2 = leBytes 2 d ∧ (∀ b, b < a ∨ a + 2 ≤ b → t.mb b = s.mb b) ∧ t.work = r.work ∧ t.back = r.back ∧ t.nor = r.nor ∧ t.arr = r.arr ∧ t.flds = r.flds ∧ (t.eng e).pc = x.pc + 1 ∧ t.eng 4 = r.eng 4) ∧
  (∀ (e : Fin 4) (v : Word) (s : State), let r := s.retireBoth e; let x := r.eng e; let a := (v.toNat + (x.port 0x180).toNat) % 2 ^ 32; let d := (x.port 0x181).toNat;
     s.plain e = true →
     r.nearOk e 1 a 1 = true →
     (r.mem) = s.mem →
     ∃ t : State, exec (.lsuSt8 e.castSucc v) s = .next t ∧ t.mbs a 1 = leBytes 1 d ∧ (∀ b, b < a ∨ a + 1 ≤ b → t.mb b = s.mb b) ∧ t.work = r.work ∧ t.back = r.back ∧ t.nor = r.nor ∧ t.arr = r.arr ∧ t.flds = r.flds ∧ (t.eng e).pc = x.pc + 1 ∧ t.eng 4 = r.eng 4)

/-- Reads and writes of the process image. RD32, RD16S, RD16U and RD8U on an aligned image word address complete: the bytes of the copy that the
task's access meets are on their way to IMG.Q, extended as the trigger says; a read of area IW also puts the quality tag of the word on its way to
IMG.TAG, a read of another area leaves it. WR32, WR16 and WR8 into an area and location that the task may write complete: exactly the bytes of the
access change, in the working copy for the task's own outputs and in memory elsewhere. A write into an area whose task access is "read" raises the
image-write fault (cause 0x21) and writes nothing. -/
def Obligations.ImageAccesses : Prop :=
  (∀ (e : Fin 4) (v : Word) (o : Nat) (s : State), let r := s.retireBoth e; let x := r.eng e; let tag := if inRange o 0x5000 0x4000 then [(0x1A9, (r.mb (0x0300F000 + (o - 0x5000) / 16)).toNat / 4 ^ ((o - 0x5000) / 4 % 4) % 4)] else []; let go := fun (w : Word) => (Host.Outcome.next : State → Host.Outcome State Fault Refusal) (s.starts e (Flight.plain .img (x.cyc + 2) ((0x1A8, w.toNat) :: tag)));
     s.plain e = true →
     v.toNat % 8 = 0 →
     imgOfs v.toNat = some o →
     o % 4 = 0 →
     r.imgClear o 4 = true →
     r.unwatched e = true →
     exec (.imgRd32 e.castSucc v) s = go (BitVec.ofNat 32 (r.imgVal e o 4))) ∧
  (∀ (e : Fin 4) (v : Word) (o : Nat) (s : State), let r := s.retireBoth e; let x := r.eng e; let tag := if inRange o 0x5000 0x4000 then [(0x1A9, (r.mb (0x0300F000 + (o - 0x5000) / 16)).toNat / 4 ^ ((o - 0x5000) / 4 % 4) % 4)] else []; let go := fun (w : Word) => (Host.Outcome.next : State → Host.Outcome State Fault Refusal) (s.starts e (Flight.plain .img (x.cyc + 2) ((0x1A8, w.toNat) :: tag)));
     s.plain e = true →
     v.toNat % 8 = 0 →
     imgOfs v.toNat = some o →
     o % 2 = 0 →
     r.imgClear o 2 = true →
     r.unwatched e = true →
     exec (.imgRd16s e.castSucc v) s = go ((BitVec.ofNat 16 (r.imgVal e o 2)).signExtend 32)) ∧
  (∀ (e : Fin 4) (v : Word) (o : Nat) (s : State), let r := s.retireBoth e; let x := r.eng e; let tag := if inRange o 0x5000 0x4000 then [(0x1A9, (r.mb (0x0300F000 + (o - 0x5000) / 16)).toNat / 4 ^ ((o - 0x5000) / 4 % 4) % 4)] else []; let go := fun (w : Word) => (Host.Outcome.next : State → Host.Outcome State Fault Refusal) (s.starts e (Flight.plain .img (x.cyc + 2) ((0x1A8, w.toNat) :: tag)));
     s.plain e = true →
     v.toNat % 8 = 0 →
     imgOfs v.toNat = some o →
     o % 2 = 0 →
     r.imgClear o 2 = true →
     r.unwatched e = true →
     exec (.imgRd16u e.castSucc v) s = go ((BitVec.ofNat 16 (r.imgVal e o 2)).setWidth 32)) ∧
  (∀ (e : Fin 4) (v : Word) (o : Nat) (s : State), let r := s.retireBoth e; let x := r.eng e; let tag := if inRange o 0x5000 0x4000 then [(0x1A9, (r.mb (0x0300F000 + (o - 0x5000) / 16)).toNat / 4 ^ ((o - 0x5000) / 4 % 4) % 4)] else []; let go := fun (w : Word) => (Host.Outcome.next : State → Host.Outcome State Fault Refusal) (s.starts e (Flight.plain .img (x.cyc + 2) ((0x1A8, w.toNat) :: tag)));
     s.plain e = true →
     v.toNat % 8 = 0 →
     imgOfs v.toNat = some o →
     o % 1 = 0 →
     r.imgClear o 1 = true →
     r.unwatched e = true →
     exec (.imgRd8u e.castSucc v) s = go (BitVec.ofNat 32 (r.imgVal e o 1))) ∧
  (∀ (e : Fin 4) (v : Word) (o : Nat) (s : State), let r := s.retireBoth e; let x := r.eng e;
     s.plain e = true →
     v.toNat % 8 = 0 →
     imgOfs v.toNat = some o →
     o % 4 = 0 →
     r.imgMayWrite e v.toNat o 4 = true →
     r.eccClear (r.imgCopy e o) (0x03000000 + o) 4 = true →
     r.m.inject.isNone = true →
     r.unwatched e = true →
     exec (.imgWr32 e.castSucc v) s = .next (((r.setCopy (r.imgCopy e o) (0x03000000 + o) (leBytes 4 (x.port 0x1A0).toNat)).markDirty (r.imgCopy e o == 2) (0x03000000 + o) 4).turned e (x.pc + 1) 1)) ∧
  (∀ (e : Fin 4) (v : Word) (o : Nat) (s : State), let r := s.retireBoth e; let x := r.eng e;
     s.plain e = true →
     v.toNat % 8 = 0 →
     imgOfs v.toNat = some o →
     o % 2 = 0 →
     r.imgMayWrite e v.toNat o 2 = true →
     r.eccClear (r.imgCopy e o) (0x03000000 + o) 2 = true →
     r.m.inject.isNone = true →
     r.unwatched e = true →
     exec (.imgWr16 e.castSucc v) s = .next (((r.setCopy (r.imgCopy e o) (0x03000000 + o) (leBytes 2 (x.port 0x1A0).toNat)).markDirty (r.imgCopy e o == 2) (0x03000000 + o) 2).turned e (x.pc + 1) 1)) ∧
  (∀ (e : Fin 4) (v : Word) (o : Nat) (s : State), let r := s.retireBoth e; let x := r.eng e;
     s.plain e = true →
     v.toNat % 8 = 0 →
     imgOfs v.toNat = some o →
     o % 1 = 0 →
     r.imgMayWrite e v.toNat o 1 = true →
     r.eccClear (r.imgCopy e o) (0x03000000 + o) 1 = true →
     r.m.inject.isNone = true →
     r.unwatched e = true →
     exec (.imgWr8 e.castSucc v) s = .next (((r.setCopy (r.imgCopy e o) (0x03000000 + o) (leBytes 1 (x.port 0x1A0).toNat)).markDirty (r.imgCopy e o == 2) (0x03000000 + o) 1).turned e (x.pc + 1) 1)) ∧
  (∀ (e : Fin 4) (v : Word) (o : Nat) (s : State), let r := s.retireBoth e; let x := r.eng e;
     s.plain e = true →
     v.toNat % 8 = 0 →
     imgOfs v.toNat = some o →
     o % 4 = 0 →
     r.imgMayWrite e v.toNat o 1 = false →
     exec (.imgWr32 e.castSucc v) s = .next ((s.faulted e).raiseFault e 0x21 v.toNat x.pc) ∧
     exec (.imgWr16 e.castSucc v) s = .next ((s.faulted e).raiseFault e 0x21 v.toNat x.pc) ∧
     exec (.imgWr8 e.castSucc v) s = .next ((s.faulted e).raiseFault e 0x21 v.toNat x.pc))

/-- The system unit and the caches of SV. SYNC has no effect on a logic engine, and on SV none while no write of SV is outstanding; EVT sends software
event 280 + v[2:0] two cycles later; SETCSP, SETCSP_LO and SETCSP_HI write CSP and its bounds at a privilege that may, if the value is a multiple
of 64, and raise the misaligned-access fault (0x22) if it is not. The four SVC operations act on the 32-byte line that holds the moved address:
ICINV drops it from the instruction cache, DCINV from the data cache, DCCLEAN writes a dirty line that the checker lets SV write to memory and
leaves it clean, DCFLUSH does both; a line that is not dirty is not written. -/
def Obligations.SystemUnit : Prop :=
  (∀ (e : Fin 5) (v : Word) (s : State), let r := s.retireBoth e; let x := r.eng e;
     s.plain e = true →
     e.val < 4 ∨ r.m.wbuf = [] →
     exec (.sysSync e v) s = .next (r.turned e (x.pc + 1) 1)) ∧
  (∀ (e : Fin 5) (v : Word) (s : State), let r := s.retireBoth e; let x := r.eng e;
     s.plain e = true →
     exec (.sysEvt e v) s = .next (s.starts e { Flight.plain .sys (x.cyc + 2) [] with ev := some (v.toNat % 8) })) ∧
  (∀ (e : Fin 5) (v : Word) (s : State), let r := s.retireBoth e; let x := r.eng e;
     s.plain e = true →
     x.priv < 2 →
     v.toNat % 64 = 0 →
     exec (.sysSetcsp e v) s = .next ((r.upE e fun y => { y with csp := v }).turned e (x.pc + 1) 1) ∧
     exec (.sysSetcspLo e v) s = .next ((r.upE e fun y => { y with cspLo := v }).turned e (x.pc + 1) 1) ∧
     exec (.sysSetcspHi e v) s = .next ((r.upE e fun y => { y with cspHi := v }).turned e (x.pc + 1) 1)) ∧
  (∀ (e : Fin 5) (v : Word) (s : State), let r := s.retireBoth e; let x := r.eng e;
     s.plain e = true →
     x.priv < 2 →
     v.toNat % 64 ≠ 0 →
     exec (.sysSetcsp e v) s = .next ((s.faulted e).raiseFault e 0x22 v.toNat x.pc) ∧
     exec (.sysSetcspLo e v) s = .next ((s.faulted e).raiseFault e 0x22 v.toNat x.pc) ∧
     exec (.sysSetcspHi e v) s = .next ((s.faulted e).raiseFault e 0x22 v.toNat x.pc)) ∧
  (∀ (v : Word) (s : State), let r := s.retireBoth 4; let x := r.eng 4;
     s.plain 4 = true →
     exec (.svcIcinv v) s = .next ({ r with m := { r.m with icache := Store.del (v.toNat / 32) r.m.icache } }.turned 4 (x.pc + 1) 1) ∧
     exec (.svcDcinv v) s = .next ((r.dropLine (v.toNat / 32)).turned 4 (x.pc + 1) 1)) ∧
  (∀ (v : Word) (s : State), let r := s.retireBoth 4; let x := r.eng 4;
     s.plain 4 = true →
     ((Store.find (v.toNat / 32) r.m.dcache).map fun c => c.dirty).getD false = false →
     exec (.svcDcclean v) s = .next (r.turned 4 (x.pc + 1) 1) ∧
     exec (.svcDcflush v) s = .next ((r.dropLine (v.toNat / 32)).turned 4 (x.pc + 1) 1)) ∧
  (∀ (v : Word) (c : CacheLine) (s : State), let r := s.retireBoth 4; let x := r.eng 4; let a := 32 * (v.toNat / 32);
     s.plain 4 = true →
     Store.find (v.toNat / 32) r.m.dcache = some c →
     c.dirty = true →
     c.data.length = 32 →
     (r.judge 4 0 1 a).ok = true →
     inRange a 0x02100000 0x100000 = true →
     r.get R.RFL_STAT_ROLE = 0 →
     r.eccClear 0 a 32 = true →
     r.m.inject = none →
     r.m.init = false →
     ∃ t : State, exec (.svcDcclean v) s = .next t ∧ t.mbs a 32 = c.data ∧ (∀ b, b < a ∨ a + 32 ≤ b → t.mb b = r.mb b) ∧ Store.find (v.toNat / 32) t.m.dcache = some { c with dirty := false } ∧ t.flds = r.flds)

/-- The end of an instance, service calls and returns. At P2, outside a locked sequence and a handler, with no branch pairs, no result due and nothing
in flight, SYS.YIELD ends the instance: it stands as ended, the engine is idle with empty stacks, and the context record of the task holds the index
of the next bundle. INSTANCE_COMPLETE then makes an ended instance with nothing in flight, on an engine that has caught up with its turn, complete,
with its completion time, its charged cycles in TSK.LAST and the longest in TSK.WCET. SYS.CALL on a logic engine with room for a permitted and error-
free frame, nothing in flight and no locked sequence completes; in a locked sequence it is an illegal move (0x11): the 64-byte frame below CSP holds
the resume index, the cause 1 and the value as detail; the handler starts at the vector at P1 with an empty return stack, accumulator 0, no pending
upper value and the caller's register bank; the entry costs 12 cycles. At P1, with a permitted and error-free frame at CSP and nothing in flight,
SYS.ERET completes: bundle index, privilege, accumulator, pending upper value, return stack and bank are those the frame holds, CSP moves up by 64,
and an entry from idle leaves the engine idle. The return costs 12 cycles and memory does not change. -/
def Obligations.CallsAndReturns : Prop :=
  (∀ (e : Fin 4) (v : Word) (n : Nat) (i : Inst) (s : State), let r := s.retireBoth e; let x := r.eng e;
     s.plain e = true →
     x = s.eng e →
     x.task = some n →
     (r.task n).inst = some i →
     x.nest = [] →
     x.lock = none →
     x.branch = [] →
     x.flights = [] →
     ∃ t : State, exec (.sysYield e.castSucc v) s = .next t ∧ (t.task n).inst = some { i with st := .ended, charged := i.charged + 1 } ∧ (t.eng e).live = false ∧ (t.eng e).task = none ∧ (t.eng e).rets = [] ∧ (t.eng e).branch = [] ∧ t.mbs (s.ctxAddr n) 4 = leBytes 4 (x.pc + 1)) ∧
  (∀ (n : Fin 48) (i : Inst) (s : State),
     (s.task n).inst = some i →
     i.st = .ended →
     (s.eng (s.tEng n)).flights = [] →
     s.caughtUp (s.tEng n) = true →
     ∃ t : State, exec (.instanceComplete n) s = .next t ∧ (t.task n).inst = some { i with st := .complete, doneAt := s.now } ∧ t.get R.TSK_LAST_CYC n = i.charged % 2 ^ 32 ∧ t.get R.TSK_WCET_CYC n = max (s.get R.TSK_WCET_CYC n) i.charged % 2 ^ 32 ∧ t.get R.EXC_CNT_TFRUN (s.tEng n) = 0 ∧ t.mem = s.mem ∧ (∀ k, t.eng k = s.eng k)) ∧
  (∀ (e : Fin 4) (v : Word) (s : State), let r := s.retireBoth e; let x := r.eng e; let a := x.csp.toNat - 64;
     s.plain e = true →
     x = s.eng e →
     x.flights = [] →
     x.lock = none →
     r.cspOk e = true →
     (r.judge e 1 1 (x.csp.toNat - 64)).ok = true →
     r.eccClear 0 (x.csp.toNat - 64) 64 = true →
     r.m.inject = none →
     r.m.init = false →
     ∃ t : State, exec (.sysCall e.castSucc v) s = .next t ∧ t.mbs a 4 = leBytes 4 (x.pc + 1) ∧ t.mbs (a + 8) 8 = leBytes 4 1 ++ leBytes 4 v.toNat ∧ (t.eng e).pc = s.get R.EXC_VEC_IDX e ∧ (t.eng e).priv = 1 ∧ (t.eng e).rets = [] ∧ (t.eng e).acc = false ∧ (t.eng e).upper = none ∧ (t.eng e).gbank = x.gbank ∧ (t.eng e).csp = word a ∧ (t.eng e).floor = some x.branch.length ∧ (t.eng e).cyc = x.cyc + 12) ∧
  (∀ (e : Fin 4) (v : Word) (s : State), let r := s.retireBoth e; let x := r.eng e;
     s.plain e = true →
     x.lock.isSome = true →
     exec (.sysCall e.castSucc v) s = .next ((s.faulted e).raiseFault e 0x11 0x1C1 x.pc)) ∧
  (∀ (e : Fin 4) (v : Word) (s : State), let r := s.retireBoth e; let x := r.eng e; let a := x.csp.toNat; let st := r.mw (x.csp.toNat + 4);
     s.plain e = true →
     x.priv = 1 →
     (r.judge e 1 0 a).ok = true →
     r.eccClear 0 a 64 = true →
     (arrayOf a).isSome = true →
     r.m.init = false →
     x.flights = [] →
     ∃ t : State, exec (.sysEret e.castSucc v) s = .next t ∧ (t.eng e).pc = r.mw a % 65536 ∧ (t.eng e).priv = (if bits st 1 2 = 2 then 2 else 1) ∧ (t.eng e).acc = bit st 3 ∧ (t.eng e).accO = bit st 3 ∧ (t.eng e).upper = (if bit st 4 then some (bits st 5 14) else none) ∧ (t.eng e).rets = frameRets false (r.mbs a 64) (min 16 (bits st 25 5)) ∧ (t.eng e).gbank = min 12 (r.mw (a + 0x14) % 16) ∧ (t.eng e).csp = x.csp + 64 ∧ (t.eng e).live = !((x.nest.head?.map fun f => f.fromIdle).getD false) ∧ (t.eng e).cyc = x.cyc + 12 ∧ t.mem = r.mem ∧ t.flds = r.flds)

/-- Locked sequences and macros. LOCK.OPEN on an aligned near word opens a sequence with the opening bundle counted and clears LOCK.BROKEN. LOCK.ST
that names the reserved word of an unbroken sequence whose word nobody has written stores LOCK.D there, nothing elsewhere, and answers 1 in LOCK.Q;
with any other word, or a lost or broken sequence, it stores nothing and answers 0. LOCK.END closes with the same answer and no store. Bundle 17
raises the lock fault (0x19). A trigger of a macro with at least one micro-move starts it: MACRO.ARG holds the value, the first micro-move is next,
the temporaries are 0, and what is in flight is readable when issue resumes. A far access that is due is completed before a micro-move. A micro-move
that is not the last, whose guard fails, does nothing; one that is not the last, whose guard passes, writes its source into the temporary or the
operand latch it names; each takes one cycle and the next follows. On a Mirror pair a micro-move whose guard passes on one engine only, or whose
source differs, or that leaves the engines asking for different saves of a context, is engine fault 0x50; else both make it. Without a macro, and on
the secondary itself, nothing but the far access happens. -/
def Obligations.LocksAndMacros : Prop :=
  (∀ (e : Fin 4) (v : Word) (s : State), let r := s.retireBoth e; let x := r.eng e;
     s.plain e = true →
     x.lock = none →
     r.nearOk e 0 v.toNat 4 = true →
     exec (.lockOpen e.castSucc v) s = .next ((r.upE e fun y => { y with lock := some ⟨v.toNat, 0, false⟩, broken := false }).turned e (x.pc + 1) 1)) ∧
  (∀ (e : Fin 4) (v : Word) (l : LockSt) (s : State), let r := s.retireBoth e; let x := r.eng e;
     s.plain e = true →
     x.lock = some l →
     l.lost = false →
     x.broken = false →
     l.addr = v.toNat →
     r.nearOk e 1 v.toNat 4 = true →
     ∃ t : State, exec (.lockSt e.castSucc v) s = .next t ∧ t.mbs v.toNat 4 = leBytes 4 (x.port 0x1E1).toNat ∧ (∀ b, b < v.toNat ∨ v.toNat + 4 ≤ b → t.mb b = r.mb b) ∧ (t.eng e).lock = none ∧ (t.eng e).flights = x.flights ++ [Flight.plain .lock (x.cyc + 2) [(0x1E8, 1)]] ∧ t.flds = r.flds) ∧
  (∀ (e : Fin 4) (v : Word) (l : LockSt) (s : State), let r := s.retireBoth e; let x := r.eng e;
     s.plain e = true →
     x.lock = some l →
     l.lost = true ∨ x.broken = true ∨ l.addr ≠ v.toNat →
     r.unwatched e = true →
     exec (.lockSt e.castSucc v) s = .next ((r.upE e fun y => { y with lock := none }.fly (Flight.plain .lock (x.cyc + 2) [(0x1E8, 0)])).turned e (x.pc + 1) 1)) ∧
  (∀ (e : Fin 4) (v : Word) (l : LockSt) (s : State), let r := s.retireBoth e; let x := r.eng e;
     s.plain e = true →
     x.lock = some l →
     exec (.lockEnd e.castSucc v) s = .next ((r.upE e fun y => { y with lock := none }.fly (Flight.plain .lock (x.cyc + 2) [(0x1E8, b2n (!l.lost && !x.broken))])).turned e (x.pc + 1) 1)) ∧
  (∀ (e : Fin 4) (l : LockSt) (s : State),
     s.canIssue e = true →
     (s.eng e).lock = some l →
     l.count = 16 →
     exec (.lockFault e) s = .next ((s.spend e 1).raiseFault e 0x19 l.addr (s.eng e).pc)) ∧
  (∀ (e : Fin 4) (n : Fin 64) (v : Word) (s : State), let r := s.retireBoth e; let x := r.eng e; let k := r.mw (r.decActive e + 0x100 + 4 * n) % 64;
     s.plain e = true →
     x.lock = none →
     r.eccClear 0 (r.decActive e + 0x100 + 4 * n) 4 = true →
     0 < k →
     exec (.macroT e n v) s = .next (((r.upE e fun y => y.setPort 0x240 v).turned e (x.pc + 1) 1).upE e fun y => { y with flights := y.flights.map fun f => if f.far.isSome then f else { f with due := min f.due (y.cyc + k) }, mac := some { entry := n, k := 0, n := k, temps := List.replicate 8 0#32, trig := x.pc, q0 := x.port 0x248, until_ := 0, after := 0, arg := 0 } })) ∧
  (∀ (e : Fin 4) (m : MacroRun) (s : State), let u := s.farDue e; let r := u.retireBoth e; let x := r.eng e; let mv := slotMove (r.mw (r.decActive e + 0x200 + 128 * m.entry + 4 * m.k));
     (u.eng e).mac = some m →
     u.mirrorOf e = none →
     m.k + 1 < m.n →
     r.eccClear 0 (r.decActive e + 0x200 + 128 * m.entry + 4 * m.k) 4 = true →
     mv.passes x.acc = false →
     exec (.microMove e) s = .next ((r.upE e fun y => { y with mac := some { m with k := m.k + 1 } }).spend e 1)) ∧
  (∀ (e : Fin 4) (m : MacroRun) (s : State), let u := s.farDue e; let r := u.retireBoth e; let x := r.eng e; let mv := slotMove (r.mw (r.decActive e + 0x200 + 128 * m.entry + 4 * m.k));
     (u.eng e).mac = some m →
     u.mirrorOf e = none →
     m.k + 1 < m.n →
     r.eccClear 0 (r.decActive e + 0x200 + 128 * m.entry + 4 * m.k) 4 = true →
     mv.passes x.acc = true →
     0x250 ≤ mv.dst →
     mv.dst < 0x258 →
     exec (.microMove e) s = .next ((r.upE e fun y => { y with mac := some { m with k := m.k + 1, temps := m.temps.set (mv.dst - 0x250) (word (r.microSrc e m mv)) } }).spend e 1)) ∧
  (∀ (e : Fin 4) (m : MacroRun) (s : State), let u := s.farDue e; let r := u.retireBoth e; let x := r.eng e; let mv := slotMove (r.mw (r.decActive e + 0x200 + 128 * m.entry + 4 * m.k));
     (u.eng e).mac = some m →
     u.mirrorOf e = none →
     m.k + 1 < m.n →
     r.eccClear 0 (r.decActive e + 0x200 + 128 * m.entry + 4 * m.k) 4 = true →
     mv.passes x.acc = true →
     portKind false mv.dst = .operand →
     exec (.microMove e) s = .next ((r.upE e fun y => { y with mac := some { m with k := m.k + 1 } }.setPort mv.dst (word (r.microSrc e m mv))).spend e 1)) ∧
  (∀ (e f : Fin 4) (m : MacroRun) (s : State), let u := s.farDue e; let r := u.retireBoth e; let t := r.asSecond e f; let p := r.microPlan e m; let q := t.microPlan e m;
     (u.eng e).mac = some m →
     u.mirrorOf e = some f.val →
     u.secondary e = false →
     exec (.microMove e) s = .next (if p.1 ≠ q.1 then r.engineFault e 0x50 1 m.trig else if p.1 = true ∧ p.2 ≠ q.2 then r.engineFault e 0x50 3 m.trig
       else match r.savedDiff (r.microOne e m) (t.microOne e m) e with
         | some k => r.engineFault e 0x50 k m.trig
         | none => (r.microOne e m).mirrorOwn e f (t.microOne e m))) ∧
  (∀ (e : Fin 4) (s : State), let u := s.farDue e;
     u.secondary e = true ∨ (u.eng e).mac = none →
     exec (.microMove e) s = .next u)

/-- Bundles and the landing of results. A logic engine that can issue, with no far access due and at no breakpoint, issues the two moves that the
bundle at its index in the active bank encodes, the upper slot first, where the two words hold no error; SV in that state does so with the bundle it
fetches, takes the access fault (0x24) if the checker refuses the fetch, and raises device fault 3 if the fetch meets an uncorrectable word. A bundle
whose slots both carry guard 3 only passes; a move into IMM.HI makes its 14 low bits the pending upper value. On an engine outside a Mirror pair with
only results in flight, the completion command of a kind of unit moves the engine to the cycle of the first such result and writes every result due by
then. A result of one port that is alone in flight leaves nothing in flight, stands in its port, sets the accumulator if it is to, and, from the FPU,
its flags enter FPU.F. -/
def Obligations.BundlesAndResults : Prop :=
  (∀ (e : Fin 4) (s : State), let a := 0x01000000 + e.val * 0x100000 + s.get R.LE_PRG_STAT_ACT e * 0x80000 + 8 * (s.eng e).pc;
     s.canIssue e = true →
     s.farReady e = false →
     s.breakHit e = none →
     s.eccClear 0 a 8 = true →
     exec (.bundleIssue e.castSucc) s = .next (s.issue e [slotMove (leNat (s.mbs (a + 4) 4)), slotMove (leNat (s.mbs a 4))])) ∧
  (∀ (s : State), let x := s.eng 4; let a := s.fetchAddr 4; let c := s.check 4 2 a 8; let r := c.1.svFetch a;
     s.canIssue 4 = true →
     s.farReady 4 = false →
     s.breakHit 4 = none →
     exec (.bundleIssue 4) s = .next (if c.2 = false then (c.1.spend 4 1).raiseFault 4 0x24 a x.pc else if r.2.2 then r.1.deviceFault 3
       else r.1.issue 4 [slotMove (leAt r.2.1 4 4), slotMove (leAt r.2.1 0 4)])) ∧
  (∀ (e : Fin 4) (s : State), let a := 0x01000000 + e.val * 0x100000 + s.get R.LE_PRG_STAT_ACT e * 0x80000 + 8 * (s.eng e).pc; let r := s.retireBoth e; let x := r.eng e;
     s.plain e = true →
     s.breakHit e = none →
     s.eccClear 0 a 8 = true →
     0xC0 ≤ (s.mb (a + 3)).toNat →
     0xC0 ≤ (s.mb (a + 7)).toNat →
     exec (.bundleIssue e.castSucc) s = .next (r.turned e (x.pc + 1) 1)) ∧
  (∀ (e : Fin 5) (v : Word) (s : State), let r := s.retireBoth e; let x := r.eng e;
     s.plain e = true →
     exec (.immHi e v) s = .next ((r.upE e fun y => { y with upper := some (v.toNat % 2 ^ 14) }).turned e (x.pc + 1) 1)) ∧
  (∀ (e : Fin 5) (f : Flight) (s : State), let x := s.eng e; let done := (Host.Outcome.next : State → Host.Outcome State Fault Refusal) (s.setEng e ({ x with cyc := max x.cyc f.due }.retired f.due));
     s.mirrorOf e = none →
     x.flights.all (fun g => g.far.isNone && g.ev.isNone) = true →
     (x.flights.find? (fun g => pipelined.contains g.unit) = some f → exec (.pipelinedResult e) s = done) ∧
     (x.flights.find? (fun g => g.unit == .div) = some f → exec (.divResult e) s = done) ∧
     (x.flights.find? (fun g => g.unit == .fpuDiv) = some f → exec (.fpuDivideResult e) s = done)) ∧
  (∀ (f : Flight) (x : Eng) (a : Nat) (w : Word),
     f.far = none →
     f.outs = [(a, w)] →
     a ≠ 0x134 →
     ({ x with flights := [f] }.retired f.due).flights = [] ∧
     ({ x with flights := [f] }.retired f.due).port a = w ∧
     (f.unit ≠ .fpuAdd → f.unit ≠ .fpuDiv → f.acc = some true → ({ x with flights := [f] }.retired f.due).acc = true) ∧
     (f.unit = .fpuAdd ∨ f.unit = .fpuDiv → f.clr = false → ({ x with flights := [f] }.retired f.due).port 0x134 = word (f.newFlags (x.port 0x134).toNat)))

/-- Steering events and the event path. An edge of the selected polarity, with DISC 1, is accepted if it is the first or lies 0.9995 s to 1.0005 s of
farm time after the last accepted one, and is counted in CNT.SPUR with EV 27 otherwise; any other edge changes nothing. An edge accepted at the
present instant leaves the phase error of its corrected time in TIME.ERR, and the state is 2 exactly for an error of at most 1 µs, else 1. A loss
comes LOSSTO milliseconds of crystal time after the last accepted edge: the state becomes holdover, LOSS is set, the edge, the errors and a pending
step are forgotten, EV 19 is raised, and with DISC 1 c is set from Y. Where no task, waveform, DMA agent or engine route waits for its source, other
than EV 15, and the FIFO has room, an unmasked occurrence of an edge source enters the FIFO, before those of its own instant with higher numbers, with
its time and payload and changes no memory and no engine, and a masked one changes nothing. A level source shows its condition and is raised when the
condition becomes true. Where the head is not to be logged and its FIFO words hold no error, applying it to its record either counts it or starts the
record, as R203 says. Clearing pending bits clears them and leaves the FIFO. An enable write keeps the bits that cannot be masked at 1 and those of
reserved sources at 0; where it unmasks one level source whose condition is true it raises it. An injection names its source and payload, and sets
INJERR for a reserved or a non-maskable source. -/
def Obligations.Events : Prop :=
  (∀ (t : Nat) (b : Bool) (s : State), let u := s.advance t;
     s.phase = .up →
     s.is R.TIME_CTL_DISC = true →
     s.is R.TIME_CTL_EDGE = b →
     exec (.ppsEdge t b) s = .next (if u.edgeInterval.all (fun i => 999500000 ≤ i && i ≤ 1000500000) then u.acceptEdge else (u.bump R.TIME_CNT_SPUR).raise 27 0)) ∧
  (∀ (b : Bool) (e : Int) (s : State),
     s.phase = .up →
     s.is R.TIME_CTL_DISC = true →
     s.is R.TIME_CTL_EDGE = b →
     s.edgeInterval.all (fun i => 999500000 ≤ i && i ≤ 1000500000) = true →
     e = phaseError ((s.now : Int) - toSigned 32 (s.get R.TIME_OFFSET_NS)) →
     ∃ t : State, exec (.ppsEdge s.now b) s = .next t ∧ t.get R.TIME_ERR_E = ofSigned 32 e ∧ t.get R.TIME_STAT_STATE = (if e.natAbs ≤ 1000 then 2 else 1) ∧ t.time.lastEdge = some (s.now, s.time.real)) ∧
  (∀ (t : Nat) (b : Bool) (s : State),
     s.phase ≠ .up ∨ s.is R.TIME_CTL_DISC = false ∨ s.is R.TIME_CTL_EDGE ≠ b →
     exec (.ppsEdge t b) s = .next s) ∧
  (∀ (a r : Nat) (s : State), let u := s.advanceReal (r + 1000000 * s.get R.TIME_LOSSTO_MS); let w := ({ (u.put R.TIME_STAT_STATE 3).put R.TIME_STAT_LOSS 1 with time := { u.time with lastEdge := none, first := false, lost := true, stepped := 0, errs := [], stepPend := false, slew := false } }).raise 19 0;
     s.phase = .up →
     s.time.lastEdge = some (a, r) →
     exec .ppsLoss s = .next (if w.is R.TIME_CTL_DISC then w.setCorr (-w.freqY) else w)) ∧
  (∀ (src : Fin 288) (pay : Nat) (s : State), let o : Occ := { src := src, time := s.now, pay := pay % 65536, inj := false }; let n := (s.evt.fifo.reverse.takeWhile fun x => x.time == s.now && decide (src.val < x.src)).length;
     s.monitored src = true →
     evLevel src = false →
     src.val ≠ 15 →
     s.evt.fifo.length < 255 →
     s.quiet src = true →
     exec (.eventOccurrence src true pay) s = .next (if s.evEna src then s.eventPut o else s) ∧
     (s.eventPut o).evt.fifo = s.evt.fifo.take (s.evt.fifo.length - n) ++ o :: s.evt.fifo.drop (s.evt.fifo.length - n) ∧
     (s.eventPut o).mem = s.mem ∧
     (s.eventPut o).engs = s.engs) ∧
  (∀ (src : Fin 288) (cond : Bool) (pay : Nat) (s : State),
     s.monitored src = true →
     evLevel src = true →
     exec (.eventOccurrence src cond pay) s = .next (if s.evLvl src = cond then s else if cond then (s.putBit R.EVT_LVL_L (src % 32) true (src / 32)).raise src pay else s.putBit R.EVT_LVL_L (src % 32) false (src / 32))) ∧
  (∀ (o : Occ) (l : List Occ) (s : State),
     s.evt.fifo = o :: l →
     s.evPend o.src = true →
     s.evLoge o.src = false →
     s.eccClear 5 (16 * s.evt.head) 16 = true →
     ∃ t : State, exec .eventRecordUpdate s = .next t ∧ t.evt.fifo = l ∧ t.evRec o.src = { s.evRec o.src with count := min 255 ((s.evRec o.src).count + 1), last := o.time, pay := o.pay, inj := o.inj } ∧ t.flds = s.flds ∧ t.mem = s.mem ∧ t.log = s.log) ∧
  (∀ (o : Occ) (l : List Occ) (s : State),
     s.evt.fifo = o :: l →
     s.evPend o.src = false →
     s.evLoge o.src = false →
     s.eccClear 5 (16 * s.evt.head) 16 = true →
     ∃ t : State, exec .eventRecordUpdate s = .next t ∧ t.evt.fifo = l ∧ t.evRec o.src = { count := 1, lostrec := (s.evRec o.src).lostrec, first := o.time, last := o.time, pay := o.pay, inj := o.inj } ∧ t.evPend o.src = true ∧ t.mem = s.mem ∧ t.log = s.log) ∧
  (∀ (w : Fin 9) (v : Word) (s : State),
     ∃ t : State, exec (.evtPendClear w v) s = .next t ∧ t.get R.EVT_PEND_P w = (s.get R.EVT_PEND_P w &&& (~~~v).toNat) % 2 ^ 32 ∧ t.evt.fifo = s.evt.fifo ∧ t.mem = s.mem) ∧
  (∀ (w : Fin 9) (v : Word) (s : State),
     (List.range 32).all (fun b => !s.evLvl (32 * w + b)) = true →
     exec (.evtEnaWrite w v) s = .next (s.put R.EVT_ENA_E ((List.range 32).foldl (fun m b => if evNmi (32 * w + b) then setBit m b true else if evReserved (32 * w + b) then setBit m b false else m) v.toNat) w)) ∧
  (∀ (w : Fin 9) (k : Fin 32) (v : Word) (s : State), let n := (List.range 32).foldl (fun m b => if evNmi (32 * w + b) then setBit m b true else if evReserved (32 * w + b) then setBit m b false else m) v.toNat;
     evLevel (32 * w + k) = true →
     s.evLvl (32 * w + k) = true →
     bit n k = true →
     bit (s.get R.EVT_ENA_E w) k = false →
     (∀ b : Nat, b < 32 → b ≠ k.val → s.evLvl (32 * w + b) = false) →
     exec (.evtEnaWrite w v) s = .next ((s.put R.EVT_ENA_E n w).raise (32 * w + k) ((s.put R.EVT_ENA_E n w).levelPay (32 * w + k)))) ∧
  (∀ (src pay : Nat) (s : State),
     src < 512 →
     pay < 65536 →
     exec (.evtInject src pay) s = .next (if evReserved src || evNmi src then ((s.put R.EVT_INJECT_SRC src).put R.EVT_INJECT_PAY pay).put R.EVT_STAT_INJERR 1
       else State.present 64 { src := src, time := s.now, pay := pay % 65536, inj := true } ((s.put R.EVT_INJECT_SRC src).put R.EVT_INJECT_PAY pay)))

/-- TURN.PERIOD and TURN.PHASE accept exactly the values of R37. A write of TURN.PERIOD is accepted exactly in Hold, for 5 000 ≤ P ≤ 10 000 000 with P
dividing 100 000 000 and the phase below P; a write of TURN.PHASE exactly in Hold for a phase below P. A refused write leaves the register
unchanged and sets TURN.STAT.PERR and nothing else. -/
def Obligations.TurnPeriodRule : Prop :=
  (∀ (v : Word) (s : State),
     v.toNat < 2 ^ 24 →
     s.inRun = true ∨ ¬(5000 ≤ v.toNat ∧ v.toNat ≤ 10000000 ∧ 100000000 % v.toNat = 0 ∧ s.get R.TURN_PHASE_PHI < v.toNat) →
     exec (.turnPeriodWrite v) s = .next (s.put R.TURN_STAT_PERR 1)) ∧
  (∀ (v : Word) (s : State),
     s.inRun = false →
     5000 ≤ v.toNat →
     v.toNat ≤ 10000000 →
     100000000 % v.toNat = 0 →
     s.get R.TURN_PHASE_PHI < v.toNat →
     ∃ t : State, exec (.turnPeriodWrite v) s = .next t ∧ t.get R.TURN_PERIOD_P = v.toNat ∧ t.get R.TURN_PHASE_PHI = s.get R.TURN_PHASE_PHI ∧ t.get R.TURN_STAT_PERR = s.get R.TURN_STAT_PERR ∧ t.mem = s.mem ∧ t.engs = s.engs) ∧
  (∀ (v : Word) (s : State),
     v.toNat < 2 ^ 24 →
     s.inRun = true ∨ ¬v.toNat < s.get R.TURN_PERIOD_P →
     exec (.turnPhaseWrite v) s = .next (s.put R.TURN_STAT_PERR 1)) ∧
  (∀ (v : Word) (s : State),
     v.toNat < 2 ^ 24 →
     s.inRun = false →
     v.toNat < s.get R.TURN_PERIOD_P →
     ∃ t : State, exec (.turnPhaseWrite v) s = .next t ∧ t.get R.TURN_PHASE_PHI = v.toNat ∧ t.get R.TURN_PERIOD_P = s.get R.TURN_PERIOD_P ∧ t.get R.TURN_STAT_PERR = s.get R.TURN_STAT_PERR ∧ t.mem = s.mem ∧ t.engs = s.engs)

/-- Setting the clock and glint capture. SETGO makes a set of the RTC pending; reading RTC.SEC holds SUB; enabling the countdown copies LOAD; reading
a low word of the six pairs latches its high word, and a read elsewhere latches nothing. In its last second the RTC runs to the end of it and wraps to
0 with INVALID (SUB stands below 32768, its range); in any other the command does nothing (the model's choice, log entry 3). A set of farm time to a
value that is no whole second sets SETERR; while PPS steers the farm time the request waits for the next edge, else it takes effect at the next
second. At the next second boundary of farm time of a unit that is up, a synchronisation that is due gives the RTC the second and a pending set gives
it SET_SEC, each with SUB 0 and EV 26; that both apply, the set last, is the model's choice (log entry 165). In another phase nothing happens. An
enabled countdown reaches 0 when the CD0 edges left have passed, sets EXP, reloads or clears EN, and raises EV 23 in Run and Hold; otherwise EV 23 is
owed, and with WAKE it ends Standby. A glint request while BUSY is 0 sets BUSY and fixes the instant 100 ns on (the model keeps farm time a multiple
of 10); one while BUSY is 1 sets MISS and nothing else. The capture shows the instant and the turn, the RTC and the CD0 edge that were taken there,
clears BUSY and counts SEQ before EV 24; how long after the instant it comes is the command's operand. -/
def Obligations.ClockAndGlint : Prop :=
  (∀ (a : Nat) (s : State),
     exec .rtcSetgo s = .next { s with time := { s.time with setgo := true } } ∧
     exec .rtcSecRead s = .next { s with time := { s.time with subHeld := some (s.get R.RTC_SUB_SS) } } ∧
     exec .countdownEnable s = .next ((s.put R.RTC_CDN_VAL_V (s.get R.RTC_CDN_LOAD_V)).put R.RTC_CDN_CTL_EN 1) ∧
     exec (.hiLatchingRead a) s = .next (match a with
       | 0x10005004 => s.put R.TIME_NOW_HI_T (s.now / 2 ^ 32)
       | 0x10006024 => s.put R.RTC_GL_FT_HI_T (s.time.glFt / 2 ^ 32)
       | 0x10006038 => s.put R.RTC_GL_EDGE_HI_T (s.time.glEdge / 2 ^ 32)
       | 0x10004100 => s.put R.TURN_ABS_HI_A (s.seq.abs / 2 ^ 32)
       | 0x1000D014 => s.put R.EVT_SFIRST_HI_T ((s.evRec (s.get R.EVT_SEL_SRC)).first / 2 ^ 32)
       | 0x1000D01C => s.put R.EVT_SLAST_HI_T ((s.evRec (s.get R.EVT_SEL_SRC)).last / 2 ^ 32)
       | _ => s)) ∧
  (∀ (s : State),
     exec .rtcWrap s = .next (if s.get R.RTC_SEC_S = 2 ^ 32 - 1 then s.cyclesPass (s.cd0Cycles (32768 - s.get R.RTC_SUB_SS)) else s)) ∧
  (∀ (s : State),
     s.get R.RTC_SEC_S = 2 ^ 32 - 1 →
     s.get R.RTC_SUB_SS < 32768 →
     s.time.cd0 < 1000000000 →
     s.time.glint = none →
     ∃ t : State, exec .rtcWrap s = .next t ∧ t.get R.RTC_SEC_S = 0 ∧ t.get R.RTC_SUB_SS = 0 ∧ t.get R.RTC_STAT_INVALID = 1 ∧ t.mem = s.mem ∧ t.engs = s.engs) ∧
  (∀ (v : Nat) (s : State),
     v = s.get R.TIME_SET_LO_T + 2 ^ 32 * s.get R.TIME_SET_HI_T →
     s.get R.TIME_STAT_STATE = 1 ∨ s.get R.TIME_STAT_STATE = 2 →
     exec .timeSetcmdGo s = .next (if v % 1000000000 ≠ 0 then s.put R.TIME_STAT_SETERR 1 else { s with time := { s.time with setReq := some v, setStep := none } })) ∧
  (∀ (v : Nat) (s : State),
     v = s.get R.TIME_SET_LO_T + 2 ^ 32 * s.get R.TIME_SET_HI_T →
     v % 1000000000 = 0 →
     s.get R.TIME_STAT_STATE = 0 ∨ s.get R.TIME_STAT_STATE = 3 →
     exec .timeSetcmdGo s = .next { s with time := { s.time with setReq := none, setStep := some (((s.now / 1000000000 + 1) * 1000000000 : Nat) - v, (s.now / 1000000000 + 1) * 1000000000) } }) ∧
  (∀ (n : Nat) (s : State), let b := s.now / 1000000000 + 1; let u := s.advance (b * 1000000000); let due := u.is R.RTC_CTL_AUTOSYNC && u.get R.TIME_STAT_STATE == 2 && (u.time.syncDue || (u.get R.RTC_CTL_SYNCINT != 0 && decide (u.get R.RTC_CTL_SYNCINT ≤ b - u.time.syncSec))); let w := { u with time := { u.time with syncSec := if due then b else u.time.syncSec, syncDue := false, setgo := false } }; let x := if due then w.rtcTake b else w;
     s.phase = .up →
     exec .rtcSync s = .next (if u.time.setgo then x.rtcTake (x.get R.RTC_SET_SEC_S) else x) ∧
     s.rtcTake n = { ((s.put R.RTC_SEC_S n).put R.RTC_SUB_SS 0).put R.RTC_STAT_INVALID 0 with time := { s.time with cd0 := 0 } }.raise 26 0) ∧
  (∀ (s : State),
     s.phase ≠ .up →
     exec .rtcSync s = .next s) ∧
  (∀ (s : State), let u := (s.cyclesPass (s.cd0Cycles s.cdnLeft)).put R.RTC_CDN_CTL_EXP 1; let w := if u.is R.RTC_CDN_CTL_RELOAD then u.put R.RTC_CDN_VAL_V (u.get R.RTC_CDN_LOAD_V) else (u.put R.RTC_CDN_VAL_V 0).put R.RTC_CDN_CTL_EN 0; let x := { w with time := { w.time with cdnOwed := true } };
     s.is R.RTC_CDN_CTL_EN = true →
     exec .countdownExpiry s = .next (if w.phase = .up then w.raise 23 0 else if w.phase = .standby ∧ w.is R.RTC_CDN_CTL_WAKE = true then x.wake 9 else x)) ∧
  (∀ (s : State),
     s.is R.RTC_CDN_CTL_EN = false →
     exec .countdownExpiry s = .next s) ∧
  (∀ (s : State),
     s.time.glint = none →
     ∃ t : State, exec .glintRequest s = .next t ∧ t.time.glint = some (s.now + 100) ∧ t.get R.RTC_GLINT_BUSY = 1 ∧ t.get R.RTC_GLINT_MISS = s.get R.RTC_GLINT_MISS ∧ t.mem = s.mem ∧ t.engs = s.engs) ∧
  (∀ (g : Nat) (s : State),
     s.time.glint = some g →
     exec .glintRequest s = .next (s.put R.RTC_GLINT_MISS 1)) ∧
  (∀ (g d : Nat) (s : State), let u := s.advance (g + 10 * min d 20);
     s.time.glint = some g →
     exec (.glintCaptureComplete d) s = .next (match u.time.glTaken with
       | none => u
       | some (turn, sec, sub, edge) => (((((((({ u with time := { u.time with glint := none, glTaken := none, glFt := g, glEdge := edge % 2 ^ 64 } }.put R.RTC_GL_FT_LO_T g).put
           R.RTC_GL_TURN_T turn).put R.RTC_GL_SEC_S sec).put R.RTC_GL_SUB_SS sub).put R.RTC_GL_EDGE_LO_T edge).put R.RTC_GLINT_BUSY 0).wrapUp R.RTC_GLINT_SEQ).raise 24 0)))

/-- The end of a far access. The oldest far access of a logic engine leaves its flight at its cycle. Unanswered, a load gives 0 in LSU.FQ and any
access gives STAT with the error bit and reason 1; answered, the access is made at its target then, a target that refuses gives its reason, and a
successful load gives its value and STAT 0. The result goes to the ports of the engine, or to the context record of the task that made the access if
it is no longer there; a Lead forwards what its loads gave, and the secondary of a Mirror pair takes the same result. Unanswered, outside a Mirror
pair, on a unit that is not a Lead and with the task still on the engine, nothing else changes. A load of a following Shadow takes the next forwarded
value of its engine; without one its results in flight complete and it stalls until one comes. On SV issue goes on, a load gives its value, with the
bytes that the cache holds of a line it touches in part, or 0 in LSU.Q, and brings its line into the data cache if it might when it was issued. With
no far access in flight nothing happens (the model's choice, log entry 3). -/
def Obligations.FarAccesses : Prop :=
  (∀ (e : Fin 4) (ans : Bool) (fl : Flight) (f : FarReq) (s : State), let u := s.upE e fun x => { x with flights := x.flights.erase fl, cyc := max x.cyc fl.due }; let q := u.targetWrite (State.busHook 2) e f.addr (leBytes f.size f.data.toNat); let p := u.targetRead false e f.addr f.size; let r : State × Nat × Nat := if ans = false then (u, 0, 1) else if f.store then (q.1, 0, q.2) else (p.1, if p.2.2 = 0 then extend f.size f.signed (leNat p.2.1) else 0, p.2.2); let st := if r.2.2 = 0 then 0 else 1 + 2 * r.2.2; let w := r.1.farLand e f (if f.store then none else some r.2.1) st;
     s.secondary e = false →
     (s.eng e).flights.find? (fun f => f.far.isSome) = some fl →
     fl.far = some f →
     f.waits = false →
     exec (.farAccessComplete e.castSucc ans) s = .next ((if f.store = false ∧ w.lead = true then w.rflSend 4 ([BitVec.ofNat 8 e, BitVec.ofNat 8 st] ++ leBytes 4 r.2.1) else w).mirrorFar e)) ∧
  (∀ (e : Fin 4) (f : FarReq) (v : Nat) (st : Nat) (s : State),
     s.mirrorOf e = none →
     f.task = none ∨ f.task = (s.eng e).task →
     s.farLand e f (some v) st = (s.upE e fun x => (x.setPort 0x191 (word v)).setPort 0x192 (word st)) ∧
     s.farLand e f none st = (s.upE e fun x => x.setPort 0x192 (word st))) ∧
  (∀ (e : Fin 4) (fl : Flight) (f : FarReq) (s : State),
     (s.eng e).flights.find? (fun f => f.far.isSome) = some fl →
     fl.far = some f →
     s.mirrorOf e = none →
     f.task = none ∨ f.task = (s.eng e).task →
     f.waits = false →
     s.lead = false →
     exec (.farAccessComplete e.castSucc false) s = .next (s.upE e fun x => let y := { x with flights := x.flights.erase fl, cyc := max x.cyc fl.due }; (if f.store then y else y.setPort 0x191 0#32).setPort 0x192 3#32)) ∧
  (∀ (e : Fin 4) (ans : Bool) (fl : Flight) (f : FarReq) (s : State), let u := s.upE e fun x => { x with cyc := max x.cyc fl.due };
     s.secondary e = false →
     (s.eng e).flights.find? (fun f => f.far.isSome) = some fl →
     fl.far = some f →
     f.waits = true →
     s.rfl.farq.getD e [] = [] →
     exec (.farAccessComplete e.castSucc ans) s = .next (((u.settle e).upE e fun x => { x with stalled := true }).mirrorFar e)) ∧
  (∀ (e : Fin 4) (ans : Bool) (fl : Flight) (f : FarReq) (x : Nat × Nat) (l : List (Nat × Nat)) (s : State), let u := s.upE e fun x => { x with cyc := max x.cyc fl.due };
     s.secondary e = false →
     (s.eng e).flights.find? (fun f => f.far.isSome) = some fl →
     fl.far = some f →
     f.waits = true →
     s.rfl.farq.getD e [] = x :: l →
     exec (.farAccessComplete e.castSucc ans) s = .next (({ u with rfl := { u.rfl with farq := Store.put e l u.rfl.farq } }.farTake e x).mirrorFar e)) ∧
  (∀ (ans : Bool) (fl : Flight) (f : FarReq) (s : State), let u := s.upE 4 fun x => { x with flights := x.flights.erase fl, cyc := max x.cyc fl.due, stalled := false }; let q := u.targetWrite (State.busHook 2) 4 f.addr (leBytes f.size f.data.toNat); let p := u.targetRead false 4 f.addr f.size; let w := if ans then (p.1.upE 4 fun x => x.setPort 0x190 (word (if p.2.2 = 0 then p.1.heldOver f (extend f.size f.signed (leNat p.2.1)) else 0))).svEnd f.addr p.2.2 else (u.upE 4 fun x => x.setPort 0x190 0#32).svEnd f.addr 1;
     (s.eng 4).flights.find? (fun f => f.far.isSome) = some fl →
     fl.far = some f →
     exec (.farAccessComplete 4 ans) s = .next (if f.store then (if ans then q.1.svEnd f.addr q.2 else u.svEnd f.addr 1)
       else if ans = true ∧ p.2.2 = 0 ∧ farWindow f.addr = false then State.forAll (linePieces f.addr f.size) (fun p s => s.fillLine f.cache p.1) w else w)) ∧
  (∀ (e : Fin 5) (ans : Bool) (s : State),
     (s.eng e).flights.find? (fun f => f.far.isSome) = none →
     exec (.farAccessComplete e ans) s = .next s)

/-- The parts of a turn, in order. Where ticks run, the unit is up and no latch is open, a tick completes in every role, in these parts: SV's work of
the turn before, if it has resumed since, and maps that are late; the turn counter and the utilisation; the task switches and shedding that take
effect, EV 16, and EV 25 and EV 28 where they are owed; the DC link; life; what the unit does in its role; the dictionary writes that the tick
applied; the waveform channels that start at a tick; the next tick, from a step that is due or else as the next aligned instant after this one; EV 14
and EV 23 where they are owed; the Keep level and the dictionary. The next aligned instant lies within one period and at the phase. At latch end a
Lead forwards its record, the image is swapped, EV 17 is raised with the turn counter, the engines of a following Shadow begin the turn, then the due
releases take effect, outputs of a switch are refreshed and maps prepared, and SV's turn-bound work is done and waiting requests are served, owed
while SV is halted, and left while it hands over. A latch end outside a latch, and a tick within one, with none due or in a unit that is not up,
change nothing (the model's choice, log entry 3). -/
def Obligations.TickAndLatch : Prop :=
  (∀ (t : Nat) (s : State), let b := (s.svCatchUp.pubLate.tickStart t).tickEvents; let st := b.stepDue t;
     s.time.nextTick = some t →
     s.phase = .up →
     s.seq.inLatch = false →
     exec .tick s = .next (((b.dlnkTick.lifeTick t).roleTick t b.seq.abs st.isSome).dictApplied.waveTick.fixNext t st).owedTick.keepLevel.dictSettle) ∧
  (∀ (t : Nat) (s : State), let u := ((s.put R.GDRV_PWM_CTL_RUN 1).put R.SYS_BOOTSTAT_STEP 10);
     s.fixNext t none = u.setNextTick (u.aligned (t + 10)) ∧
     (s.fixNext t none).time.nextTick = some (u.aligned (t + 10)) ∧
     (s.fixNext t none).engs = s.engs ∧
     (s.fixNext t none).mem = s.mem) ∧
  (∀ (p phi x : Nat),
     0 < p →
     10 * phi ≤ x →
     x ≤ firstAligned p phi x ∧
     firstAligned p phi x < x + 10 * p ∧
     (firstAligned p phi x - 10 * phi) % (10 * p) = 0) ∧
  (∀ (s : State), let u := s.advance s.seq.latchAt; let r := if u.lead then u.leadRecord else u; let w := r.imageSwap.raise 17 (r.get R.TURN_COUNT_COUNT);
     let v := { w with rfl := { w.rfl with latchT := w.time.real } }; let x := (if v.following then [0, 1, 2, 3].foldl (fun q e => State.turnBegin e q) v else v).seqLatchEnd.stepFive.pubPrep;
     s.seq.inLatch = true →
     exec .latchEnd s = .next (if x.upd.hand then x else if x.halted 4 then { x with seq := { x.seq with svOwed := true } } else x.dictLatchEnd.svServe)) ∧
  (∀ (s : State),
     s.seq.inLatch = false →
     exec .latchEnd s = .next s) ∧
  (∀ (s : State),
     s.time.nextTick = none ∨ s.phase ≠ .up ∨ s.seq.inLatch = true →
     exec .tick s = .next s)

/-- Dispatch, instance limits and shedding. An idle engine that can take work dispatches the instance that R153 selects: what is in flight completes,
and 24 cycles later its context is loaded and it runs, on both engines of a Mirror pair; a context record with an uncorrectable word is an engine
fault (0x42). With nothing to run, or work on it, nothing happens. A running instance outside locked sequences and macros is preempted exactly by one
of strictly higher priority, its context saved first, unless that save is an engine fault of a Mirror pair (0x50). A logic engine that is idle or at
P2 takes its first pending route as an exception entry with cause 2 and the source number as detail; SV takes the source that its event request names,
a maskable one outside handlers only, a non-maskable one outside handlers of such (log entry 154). An instance whose charged count has reached its
budget, while no macro of its runs, ends as a task fault with cause 0x30 when BACT is 0, and with BACT 1 sets BEXH and warns, once. An instance that
is still open after ABORT times its period ticks (one for an event-triggered task) ends with cause 0x31. Shedding begins and ends at ticks of Run
only: where the tick has found that it is to begin on an engine with K not 0 that does not shed, ACTIVE becomes 1, clean completions count from 0, and
the engine, unless it is there already, enters Penumbra with EV 10. Where the tick has found that it is to end (CLEAR, RECOV clean completions or a
disabled watch task), ACTIVE becomes 0 and the engine leaves Penumbra unless the device holds it there. Outside these conditions only the mark of the
tick is dropped. CLEAR on an engine that sheds asks for the end at the next tick. -/
def Obligations.Dispatching : Prop :=
  (∀ (e : Fin 4) (n : Nat) (i : Inst) (s : State), let r := ((s.settle e).spin e 24).loadCtx e n;
     s.canTake e = true →
     (s.eng e).live = false →
     s.nextTask e = some (n, i) →
     exec (.taskDispatch e) s = .next (match r.2 with
       | some a => r.1.engineFault e 0x42 a 0
       | none => (r.1.upI n fun i => { i with st := .running }).mirrorLoad e)) ∧
  (∀ (e : Fin 4) (s : State),
     s.canTake e = false ∨ (s.eng e).live = true ∨ s.nextTask e = none →
     exec (.taskDispatch e) s = .next s) ∧
  (∀ (e : Fin 4) (n h : Nat) (i j : Inst) (s : State), let u := (s.settle e).paired e (State.saveCtx e n);
     s.canTake e = true →
     (s.eng e).lock = none →
     (s.eng e).task = some n →
     s.nextTask e = some (h, j) →
     (s.task n).inst = some i →
     exec (.preemption e) s = .next (if s.get R.TSK_CFG_PRIO h < s.get R.TSK_CFG_PRIO n then if (u.eng e).stop ≠ .none then u else State.dispatch e (((u.upI n fun i => { i with st := .preempted, nest := (u.eng e).nest, floor := (u.eng e).floor }).upE e
       fun x => { x with live := false, task := none, nest := [], floor := none, branch := [], rets := [] }).mirrorJoin e) else s)) ∧
  (∀ (e : Fin 4) (s : State),
     s.canTake e = false ∨ (s.eng e).lock.isSome = true ∨ (s.eng e).task = none ∨ s.nextTask e = none →
     exec (.preemption e) s = .next s) ∧
  (∀ (e : Fin 4) (r : Nat) (s : State),
     s.canTake e = true →
     (s.eng e).lock = none →
     (s.eng e).live = false ∨ (s.eng e).priv = 2 →
     s.nextRoute e = some r →
     exec (.routedEventEntry e.castSucc) s = .next ((s.upE e fun x => { x with routes := x.routes.filter (· != r) }).paired e (State.excEntry e 2 r (s.eng e).pc false))) ∧
  (∀ (r : Nat) (s : State), let x := s.eng 4; let nmi := x.nest.any fun f => s.mw (f.frame + 8) == 2 && evNmi (s.mw (f.frame + 12));
     x.stop = .none →
     s.halted 4 = false →
     s.svRequest = some r →
     exec (.routedEventEntry 4) s = .next (if (if evNmi r then nmi else !x.nest.isEmpty) = true then s else s.excEntry 4 2 r x.pc false)) ∧
  (∀ (n : Fin 48) (i : Inst) (s : State),
     (s.task n).inst = some i →
     i.budget ≤ i.charged →
     i.open = true →
     i.st ≠ .ended →
     exec (.budgetExhausted n) s = .next (if (s.eng (s.tEng n)).task = some n.val ∧ (s.eng (s.tEng n)).mac.isSome then s
       else if s.is R.TSK_CFG_BACT n = false then s.taskFault n 0x30 i.charged (s.eng (s.tEng n)).pc
       else if i.warned then s else ((s.upI n fun i => { i with warned := true }).put R.TSK_ST_BEXH 1 n).warn 2 n)) ∧
  (∀ (n : Fin 48) (i : Inst) (a : Nat) (s : State),
     (s.task n).inst = some i →
     i.open = true →
     s.halted (s.tEng n) = false →
     a = s.get R.TSK_CFG_ABORT n * (if s.is R.TSK_CFG_TRIG n then 1 else s.tPeriod n) →
     exec (.abortLimit n) s = .next (if a = 0 ∨ i.ticks < a then s else s.taskFault n 0x31 i.ticks (s.eng (s.tEng n)).pc)) ∧
  (∀ (e : Fin 4) (s : State), let u := { s with seq := { s.seq with shedTick := s.seq.shedTick.filter (· != e) } };
     exec (.shedStart e) s = .next (if s.inRun = true ∧ s.seq.shedTick.contains e.val = true ∧ s.get R.TSK_SHED_K e ≠ 0 ∧ s.is R.TSK_SHED_ACTIVE e = false
       then ({ u with seq := { u.seq with clean := Store.put e 0 u.seq.clean } }.put R.TSK_SHED_ACTIVE 1 e).engPen e else u)) ∧
  (∀ (e : Fin 4) (s : State),
     s.inRun = true →
     s.seq.shedTick.contains e.val = true →
     s.seq.endTick.contains e.val = false →
     s.get R.TSK_SHED_K e ≠ 0 →
     s.is R.TSK_SHED_ACTIVE e = false →
     bit (s.get R.EXC_STAT_EPEN) e = false →
     exec (.shedStart e) s = .next ((({ s with seq := { s.seq with shedTick := s.seq.shedTick.filter (· != e), clean := Store.put e 0 s.seq.clean } }.put
       R.TSK_SHED_ACTIVE 1 e).putBit R.EXC_STAT_EPEN e true).raise 10 (4 + e + 256))) ∧
  (∀ (e : Fin 4) (s : State), let u := { s with seq := { s.seq with endTick := s.seq.endTick.filter (· != e) } };
     exec (.shedEnd e) s = .next (if s.inRun = true ∧ s.is R.TSK_SHED_ACTIVE e = true ∧ s.seq.endTick.contains e.val = true
       then ({ u with seq := { u.seq with shedClear := u.seq.shedClear.filter (· != e) } }.put R.TSK_SHED_ACTIVE 0 e).engPen e else u)) ∧
  (∀ (e : Fin 4) (s : State),
     s.inRun = true →
     s.is R.TSK_SHED_ACTIVE e = true →
     s.seq.endTick.contains e.val = true →
     s.seq.shedTick.contains e.val = false →
     bit (s.get R.EXC_STAT_EPEN) e = true →
     s.is R.EXC_STAT_DPEN = false →
     exec (.shedEnd e) s = .next ((({ s with seq := { s.seq with endTick := s.seq.endTick.filter (· != e), shedClear := s.seq.shedClear.filter (· != e) } }.put
       R.TSK_SHED_ACTIVE 0 e).putBit R.EXC_STAT_EPEN e false).raise 10 (4 + e))) ∧
  (∀ (e : Fin 4) (s : State),
     exec (.tskShedClear e) s = .next (if s.is R.TSK_SHED_ACTIVE e then { s with seq := { s.seq with shedClear := s.seq.shedClear ++ [e.val] } } else s))

/-- Task registers and scope commands. In Hold a write of a descriptor's first word writes its fields (a slot of 12 or more keeps the slot) and
enables or disables the task at once, the words of trigger, entry point and output ranges are taken (of the trigger a source beyond 287, a period
outside 1 to 4096 and a phase at or beyond the period keep their field), and locations that then have no owner hold 0 in the committed copy. In Run
the first word writes EN, SHEDDABLE, BACT and ABORT, but is refused with CFGREF when it changes another field (log entry 114), and a write of the
trigger, the entry point or a range is refused with CFGREF and changes no field. In both a word that enables a task of an engine whose domain is off
is refused with CFGREF, the budget is taken (a value below 64 leaves it), the status word clears BEXH and TFAULT where 1 is written, and words 5 to 7
take nothing. A task whose engine is clocked is enabled at once in Hold and at the next tick in Run. CLRSTAT clears the statistics of every task; it
leaves budgets, triggers, memory, the engines and the sequencer as they were. ENTER takes an engine, the bridge or the chopper into Umbra with cause
2, and the device as device fault 6. A scope in Umbra only adds the cause. RELEASE is refused with RELERR while a cause is present, and is otherwise
kept for the next tick. PENENTER and PENLEAVE set and clear the command cause of scopes 0 to 2 and touch nothing else. A RELEASE of a scope that is
not in Umbra has no effect, nor has scope 3 (the model's choice, log entry 20). On a Lead in Run a descriptor write, an enable and the four commands
are control writes of their register words. -/
def Obligations.TasksAndScopes : Prop :=
  (∀ (n : Fin 48) (v : Word) (s : State), let q := State.zeroUnowned; let x := v.toNat; let u := (s.putBits cfgFree x n).putBits (cfgHold.filter fun f => f ≠ R.TSK_CFG_SLOT ∨ bits x 3 4 < 12) x n;
     let w := s.get R.TSK_TRG_W n; let p := if 1 ≤ bits x 0 13 ∧ bits x 0 13 ≤ 4096 then bits x 0 13 else bits w 0 13;
     s.inRun = false →
     exec (.tskDescriptorWrite n 0 v) s = .next (if bit x 0 = true ∧ s.domOff (2 + bits x 1 2) = true then s.put R.TSK_STAT_CFGREF 1
       else if (s.task n).enabled = bit x 0 then u else u.upT n fun t => { t with enabled := bit x 0 }) ∧
     exec (.tskDescriptorWrite n 1 v) s = .next (s.put R.TSK_TRG_W (if s.is R.TSK_CFG_TRIG n then (if bits x 0 9 ≤ 287 then x else x / 2 ^ 9 * 2 ^ 9 + w % 2 ^ 9) else p + 2 ^ 16 * (if bits x 16 13 < p then bits x 16 13 else bits w 16 13)) n) ∧
     exec (.tskDescriptorWrite n 2 v) s = .next (s.put R.TSK_ENTRY_IDX (bits x 0 16) n) ∧
     exec (.tskDescriptorWrite n 8 v) s = .next (q (if 2048 < bits x 16 12 then s.put R.TSK_QRNG_START (bits x 0 11) n else (s.put R.TSK_QRNG_START (bits x 0 11) n).put R.TSK_QRNG_COUNT (bits x 16 12) n)) ∧
     exec (.tskDescriptorWrite n 9 v) s = .next (q (if 4096 < bits x 16 13 then s.put R.TSK_WRNG_START (bits x 0 12) n else (s.put R.TSK_WRNG_START (bits x 0 12) n).put R.TSK_WRNG_COUNT (bits x 16 13) n))) ∧
  (∀ (n : Fin 48) (v : Word) (s : State), let u := s.put R.TSK_STAT_CFGREF 1; let x := v.toNat;
     s.inRun = true →
     s.lead = false →
     exec (.tskDescriptorWrite n 0 v) s = .next (if (bit x 0 = true ∧ s.domOff (2 + bits x 1 2) = true) ∨ ¬ ∀ f ∈ cfgHold, bits x f.lsb f.width = s.get f n then u
       else s.putBits cfgFree x n) ∧
     exec (.tskDescriptorWrite n 1 v) s = .next u ∧
     exec (.tskDescriptorWrite n 2 v) s = .next u ∧
     exec (.tskDescriptorWrite n 8 v) s = .next u.zeroUnowned ∧
     exec (.tskDescriptorWrite n 9 v) s = .next u.zeroUnowned) ∧
  (∀ (n : Fin 48) (v : Word) (s : State), let x := v.toNat;
     (s.lead && s.inRun) = false →
     exec (.tskDescriptorWrite n 3 v) s = .next (if x < 64 then s else s.put R.TSK_BUD_CYC x n) ∧
     exec (.tskDescriptorWrite n 4 v) s = .next ((fun u : State => if bit x 17 = true then u.put R.TSK_ST_TFAULT 0 n else u) (if bit x 16 = true then s.put R.TSK_ST_BEXH 0 n else s)) ∧
     (∀ k ∈ ([5, 6, 7] : List (Fin 10)), exec (.tskDescriptorWrite n k v) s = .next s)) ∧
  (∀ (n : Fin 48) (k : Fin 10) (en : Bool) (v : Word) (s : State),
     s.lead = true →
     s.inRun = true →
     exec (.tskDescriptorWrite n k v) s = .next (s.defer { addr := 0x10007000 + 64 * n.val + 4 * k.val, kind := 1, data := leBytes 4 v.toNat }).1 ∧
     exec (.taskEnableWrite n en) s = .next (s.defer { addr := 0x10007000 + 64 * n.val, kind := 1, data := leBytes 4 (setBit (s.desc n).cfg 0 en) }).1) ∧
  (∀ (n : Fin 48) (en : Bool) (s : State), let u := s.put R.TSK_CFG_EN (b2n en) n;
     (s.lead && s.inRun) = false →
     exec (.taskEnableWrite n en) s = .next (if en = true ∧ s.domOff (2 + s.tEng n) = true then s.put R.TSK_STAT_CFGREF 1
       else if s.inRun = true ∨ (s.task n).enabled = en then u else u.upT n fun t => { t with enabled := en })) ∧
  (∀ (s : State),
     ∃ t : State, exec .tskClrstat s = .next t ∧ (∀ n < 48, t.get R.TSK_CNT_OVR n = 0 ∧ t.get R.TSK_CNT_GREJ n = 0 ∧ t.get R.TSK_WCET_CYC n = 0 ∧ t.get R.TSK_LAST_CYC n = 0) ∧ t.mem = s.mem ∧ t.engs = s.engs ∧ t.seq = s.seq ∧ (∀ n < 48, t.get R.TSK_BUD_CYC n = s.get R.TSK_BUD_CYC n ∧ t.get R.TSK_TRG_W n = s.get R.TSK_TRG_W n)) ∧
  (∀ (k : Fin 8) (s : State),
     (s.lead && s.inRun) = false →
     exec (.excCmdEnter k) s = .next (if k = 3 then s else if k = 0 then s.deviceFault 6 else if s.umbraFlag k then s.addCause k 2 false else s.umbraEnter k 2)) ∧
  (∀ (k : Fin 8) (s : State),
     (s.lead && s.inRun) = false →
     exec (.excCmdRelease k) s = .next (if k = 3 || !s.umbraFlag k then s else if s.causePresent k then s.put R.EXC_STAT_RELERR 1 else { s with exc := { s.exc with releases := s.exc.releases ++ [k.val] } })) ∧
  (∀ (k : Fin 8) (s : State),
     (s.lead && s.inRun) = false →
     exec (.excCmdPenenter k) s = .next { s with exc := { s.exc with dCmd := s.exc.dCmd || k = 0, bCmd := s.exc.bCmd || k = 1, cCmd := s.exc.cCmd || k = 2 } } ∧
     exec (.excCmdPenleave k) s = .next { s with exc := { s.exc with dCmd := s.exc.dCmd && k ≠ 0, bCmd := s.exc.bCmd && k ≠ 1, cCmd := s.exc.cCmd && k ≠ 2 } }) ∧
  (∀ (k : Fin 8) (s : State), let c := fun x : Nat => (s.defer { addr := 0x1000C008, kind := 1, data := leBytes 4 (k.val + x) }).1;
     s.lead = true →
     s.inRun = true →
     exec (.excCmdEnter k) s = .next (c 256) ∧
     exec (.excCmdRelease k) s = .next (c 512) ∧
     exec (.excCmdPenenter k) s = .next (c 1024) ∧
     exec (.excCmdPenleave k) s = .next (c 2048))

/-- Watchdogs and error correction. The watchdog of an engine that holds work expires WDT microseconds after its last restart (log entry 146) as an
engine fault with cause 0x51, sets WDTEXP and resets the engine. That of an engine that holds none, or that waits on a following Shadow for a far
value, restarts. A kick of 0x5A prepares the next one, any other kick ends the preparation, and 0xA5 directly after 0x5A restarts the SV watchdog's
count. Its expiry, MS milliseconds after the last restart, is device fault 2 unless Lantern halts SV. In Run a mirror write is refused with MIRERR. In
Hold each pair whose bit changes is set or cleared: setting it resets both engines, and is refused with MIRERR for a pair with different tables or
with a domain off. A device fault with AUTORST, ARDELAY milliseconds old, ends in a system reset of cause 6, in start-up too; not in Standby, and with
none pending nothing happens. A write-back makes a correctable word good and leaves any other. In Run and Hold the enabled scrubber of an array reads
its next word (every copy of an image word; log entry 144 for the caches), corrects and reports a correctable error, reports an uncorrectable one and
leaves it, and moves on; after the last word it begins again, and PASS counts when every array has finished. Injection is armed for a listed array
with mode 1 or 2, disarmed with mode 0, unchanged with mode 3, and refused with INJERR for an array that R220 does not list. A copy of the last word
takes code, origin, the next sequence number, farm time and data, and LWBUSY stands for 2 microseconds (log entry 145); a request in that time only
sets LWOVW. -/
def Obligations.WatchdogsAndEcc : Prop :=
  (∀ (e : Fin 4) (s : State), let u := s.advanceReal ((s.eng e).wdAt + 1000 * s.get R.EXC_CFG_WDT e);
     s.holdsWork e = true →
     s.following = false ∨ (s.eng e).stalled = false →
     exec (.engineWatchdogExpiry e) s = .next (((u.engineFault e 0x51 0 (u.eng e).pc).put R.EXC_FAULT_WDTEXP 1 e).engineReset e)) ∧
  (∀ (e : Fin 4) (s : State),
     s.holdsWork e = false ∨ (s.following = true ∧ (s.eng e).stalled = true) →
     exec (.engineWatchdogExpiry e) s = .next (s.upE e fun x => { x with wdAt := s.time.real })) ∧
  (∀ (v : Byte) (s : State), let u := s.put R.EXC_SVWDT_KICK v.toNat; let x := { s.exc with kick := decide (v = 0x5A#8) };
     exec (.svWatchdogKick v) s = .next (if v = 0xA5#8 ∧ s.exc.kick = true then { u with exc := { x with svAt := s.time.real, svHeld := s.exc.svHeld.map fun _ => 0 } } else { u with exc := x })) ∧
  (∀ (s : State),
     exec .svWatchdogExpiry s = .next (if s.halted 4 = true ∨ (s.eng 4).stop ≠ .none then s else (s.advanceReal (s.exc.svAt + 1000000 * s.get R.EXC_SVWDT_MS)).deviceFault 2)) ∧
  (∀ (t : Nat) (s : State),
     s.exc.autoRst = some t →
     exec .autoReset s = .next (if s.phase = .up ∨ s.phase = .starting then (s.advanceReal (t + 1000000 * s.get R.EXC_CTL_ARDELAY)).systemReset 6 else s)) ∧
  (∀ (s : State),
     s.exc.autoRst = none →
     exec .autoReset s = .next s) ∧
  (∀ (a b : Bool) (s : State),
     s.inRun = true →
     exec (.mirrorWrite a b) s = .next (s.put R.EXC_STAT_MIRERR 1)) ∧
  (∀ (a b : Bool) (s : State),
     let m := fun (f : Fam) (x y : Nat) (v : Bool) (u : State) =>
       if u.is f = v then u
       else if v = false then u.put f 0
       else if u.sameTables x y = false ∨ u.domOff (2 + x) = true ∨ u.domOff (2 + y) = true then u.put R.EXC_STAT_MIRERR 1
       else ((u.put f 1).engineReset x).engineReset y;
     s.inRun = false →
     exec (.mirrorWrite a b) s = .next (m R.EXC_CTL_MIR23 2 3 b (m R.EXC_CTL_MIR01 0 1 a s))) ∧
  (∀ (a : Nat) (s : State),
     exec (.eccWriteBack a) s = .next (if s.m.ecc.getD a 0 = 1 then s.setEcc a 0 else s)) ∧
  (∀ (c base size : Nat) (s : State), let w := ((arrayOf base).map Prod.snd).getD 4; let p := s.m.scrub.getD c 0;
     let u := (s.scrubKeys c base w p).foldl (fun u k => if u.m.ecc.getD k 0 = 0 then u else if u.m.ecc.getD k 0 = 1 then (u.eccReport 8 k 1).setEcc k 0 else u.eccReport 8 k 2) s;
     let done := if u.m.scrubDone.contains c then u.m.scrubDone else u.m.scrubDone ++ [c];
     arraySpan c = some (base, size) →
     s.is R.SYS_ECC_CTL_SCRUB = true →
     s.phase = .up →
     exec (.scrubStep c) s = .next (if w * (p + 1) < size then { u with m := { u.m with scrub := Store.put c (p + 1) u.m.scrub } }
       else if ∀ a ∈ arrayCodes, a ∈ done then { u with m := { u.m with scrub := Store.put c 0 u.m.scrub, scrubDone := [] } }.wrapUp R.SYS_ECC_STAT_PASS
       else { u with m := { u.m with scrub := Store.put c 0 u.m.scrub, scrubDone := done } })) ∧
  (∀ (c : Nat) (s : State),
     arraySpan c = none ∨ s.is R.SYS_ECC_CTL_SCRUB = false ∨ s.phase ≠ .up →
     exec (.scrubStep c) s = .next s) ∧
  (∀ (array mode : Nat) (s : State),
     array < 256 →
     mode < 4 →
     exec (.eccInject array mode) s = .next (if !arrayCode array then s.put R.SYS_ECC_STAT_INJERR 1 else if mode = 3 then s else if mode = 0 then { s with m := { s.m with inject := none } }.put R.SYS_ECC_INJ_ARMED 0
       else ((({ s with m := { s.m with inject := some (array, mode) } }.put R.SYS_ECC_INJ_ARRAY array).put R.SYS_ECC_INJ_MODE mode).put R.SYS_ECC_INJ_ARMED 1))) ∧
  (∀ (lantern : Bool) (s : State), let b := { s.put R.RTC_BKSTAT_LWBUSY 1 with time := { s.time with lwUntil := s.time.real + 2000 } }; let u := if s.is R.RTC_BKSTAT_LWVALID then b.put R.RTC_BKSTAT_LWOVW 1 else b;
     s.is R.RTC_BKSTAT_LWBUSY = false →
     exec (.lastWordCopy lantern) s = .next (((((u.put R.RTC_LW_V (s.get R.RTC_LWS0_CODE + (if lantern then 0x10000 else 0) + 2 ^ 24 * ((s.get R.RTC_LW_V 0 / 2 ^ 24 % 256 + 1) % 256)) 0).put R.RTC_LW_V s.now 1).put
       R.RTC_LW_V (s.now / 2 ^ 32) 2).put R.RTC_LW_V (s.get R.RTC_LWS1_DATA) 3).put R.RTC_BKSTAT_LWVALID 1)) ∧
  (∀ (lantern : Bool) (s : State),
     s.is R.RTC_BKSTAT_LWBUSY = true →
     exec (.lastWordCopy lantern) s = .next (s.put R.RTC_BKSTAT_LWOVW 1))

/-- DMA chains and checker sets. START with EN 1 on an idle agent fetches the descriptor that DESC names, and is ignored otherwise. STOP, and
disabling, end a chain that waits for its trigger, and let the access in flight of one that moves finish. A burst of a descriptor that does not wait
moves min(remaining, 2^BURST) bytes, or 4 with a fixed address: one read access, judged by the set-up it was issued under, and one write access. A
failing read or write ends the chain with its code (1 refused by the checker, 2 by the target, 3 uncorrectable) and address, and nothing at or after
an uncorrectable word is written. After the last byte the descriptor is complete; before it a requested stop ends the chain. Without such a descriptor
nothing happens. A commit of valid registers puts exactly the written values in force, and each burst then in flight keeps the set-up before. An
invalid set is refused with CFGERR, its code and index, and leaves what is in force. A discard gives every field of the set-up the value that is in
force, and changes neither the block of memory state, nor memory, nor the sequencer. -/
def Obligations.DmaAndChecker : Prop :=
  (∀ (a : Fin 4) (s : State),
     exec (.dmaStart a) s = .next (if s.is R.DMA_CTL_EN a && s.is R.DMA_STAT_IDLE a then ((s.put R.DMA_STAT_IDLE 0 a).put R.DMA_STAT_BUSY 1 a).dmaFetch a (s.get R.DMA_DESC_A a * 16) else s)) ∧
  (∀ (a : Fin 4) (s : State),
     exec (.dmaStop a) s = .next (if s.is R.DMA_STAT_BUSY a then if s.is R.DMA_STAT_WAITTRIG a then s.dmaEnd a else s.upDma a fun d => { d with stopReq := true } else s)) ∧
  (∀ (a : Fin 4) (s : State),
     exec (.dmaDisable a) s = .next (if s.is R.DMA_STAT_BUSY a then if s.is R.DMA_STAT_WAITTRIG a then (s.put R.DMA_CTL_EN 0 a).dmaEnd a else (s.put R.DMA_CTL_EN 0 a).upDma a fun d => { d with stopReq := true } else s.put R.DMA_CTL_EN 0 a)) ∧
  (∀ (a : Fin 4) (src dst ctl next : Nat) (s : State), let m := (s.dma a).moved;
     let n := if bit ctl 24 = true ∨ bit ctl 25 = true then 4 else min (bits ctl 0 24 - m) (2 ^ s.get R.DMA_CTL_BURST a);
     let x := (if bit ctl 24 then src else src + m) % 2 ^ 32; let y := (if bit ctl 25 then dst else dst + m) % 2 ^ 32;
     let c := s.dmaCheck a 0 x n; let r := if c.2 then c.1.targetRead false 5 x n else (c.1, List.replicate n 0#8, 4);
     let l := if r.2.2 = 0 then r.2.1 else if r.2.2 = 3 then (match r.1.badWord x n with | some k => (s.mbs x n).take (k - x) | none => []) else [];
     let w := if l = [] then (r.1, 0) else r.1.dmaPut (State.busHook 2) a y l;
     let u := w.1.upDma a fun d => { d with moved := m + n, rules := none };
     (s.dma a).desc = some (src, dst, ctl, next) →
     s.is R.DMA_STAT_WAITTRIG a = false →
     exec (.dmaBurstComplete a) s = .next (if r.2.2 ≠ 0 then w.1.dmaErr a (if r.2.2 = 4 then 1 else if r.2.2 = 3 then 3 else 2) x
       else if w.2 ≠ 0 then w.1.dmaErr a (if w.2 = 4 then 1 else if w.2 = 3 then 3 else 2) y
       else if m + n = bits ctl 0 24 then u.dmaNext a ctl next
       else if (u.dma a).stopReq then u.dmaEnd a else u)) ∧
  (∀ (a : Fin 4) (s : State),
     (s.dma a).desc = none ∨ s.is R.DMA_STAT_WAITTRIG a = true →
     exec (.dmaBurstComplete a) s = .next s) ∧
  (∀ (s : State), let u := { s with m := { s.m with chk := s.chkCopy } };
     let f := fun d : Nat × DmaSt => if d.1 < 4 ∧ s.is R.DMA_STAT_WAITTRIG d.1 = false ∧ (s.m.dma.find? fun x => x.1 == d.1 && x.2.desc.isSome && x.2.rules.isNone).isSome = true
       then (d.1, { d.2 with rules := some s.m.chk }) else d;
     s.chkBad = none →
     exec .chkCommit s = .next { u with m := { u.m with dma := s.m.dma.map f } }) ∧
  (∀ (c i : Nat) (s : State),
     s.chkBad = some (c, i) →
     exec .chkCommit s = .next (((s.put R.CHK_STAT_CFGERR 1).put R.CHK_STAT_ERRCODE c).put R.CHK_STAT_ERRIDX i)) ∧
  (∀ (s : State),
     ∃ t : State, exec .chkDiscard s = .next t ∧ t.m = s.m ∧ t.mem = s.mem ∧ t.seq = s.seq ∧ (∀ p ∈ chkFields, ∀ i < p.2, t.get p.1 i = s.act p.1 i))

/-- Decode tables, program schedules and switches. A check of a half sets BUSY, on both engines of a Mirror pair; it reads the half through ECC, and
one without a fault makes it valid and one with a fault records error, entry and micro-move, makes it invalid and takes back an ARM, cancelling a
schedule with 0x21; either way it is no longer busy. ACTIVATE cancels a schedule with 0x21 and exchanges a valid half in Hold, and gives error 9
otherwise, and in a pair of devices in step or in a rejoin past its HELLO (the model's choice, log entry 160). ARM arms a valid half, cancelling a
schedule with 0x21, and gives error 9 otherwise; DISARM takes that back. Of a Mirror pair both engines take these; where the staging halves' IDs or
CRCs differ or one is not valid, ACTIVATE and ARM give error 0xA on both. A check of an image starts unless a switch runs. It reads the image through
ECC; one that fails counts a refusal and records ERR, ERRIDX and SUB, and leaves IVALID and a schedule (log entry 163); one that passes sets IVALID,
the program ID and the copy length and keeps the CRCs. SCHED is refused by the first reason that holds and otherwise takes the turn of PRG_AT; CANCEL
drops a schedule without an error. SWITCHNOW is refused in Run (0x18) and without a checked image (0x10), is kept for the next tick while ticks run,
and is made at once otherwise. A switch of a group ends 1 microsecond + 5 ns for each word after its start, with the lists of all members run in
ascending order, and for each member SWDONE, the program ID, IVALID and SCHEDULED cleared, a switch counted and a note logged; outside the latch the
releases that waited and the outputs follow. A group that has waited longer than the smallest WAIT is refused: with 0x20 if a member was not idle,
else with 0x22 and the failure of the task table. A group that has not waited longer keeps waiting. A completion or refusal that is not due changes
nothing. -/
def Obligations.OnlineEdit : Prop :=
  (∀ (e : Fin 4) (s : State), let u := s.put R.LE_DEC_STAT_BUSY 1 e;
     exec (.decCheck e) s = .next (match s.mirrorOf e with | none => u | some f => u.put R.LE_DEC_STAT_BUSY 1 f)) ∧
  (∀ (e : Fin 4) (s : State), let h := s.decStaging e; let u := (((s.put R.LE_DEC_STAT_BUSY 0 e).eccRead 10 0 h 12).1.eccRead 10 0 (h + 0x100) 0x2100).1;
     let w := fun c n k => (((u.put R.LE_DEC_STAT_ERR c e).put R.LE_DEC_STAT_ERRENT n e).put R.LE_DEC_STAT_ERRMOV k e).put R.LE_DEC_STAT_SVALID 0 e;
     s.is R.LE_DEC_STAT_BUSY e = true →
     exec (.decCheckComplete e) s = .next (match u.decBad h with
         | none => u.put R.LE_DEC_STAT_SVALID 1 e
         | some (c, n, k) => if (w c n k).is R.LE_DEC_STAT_ARMED e then (match s.mirrorOf e with | some f => [e.val, f] | none => [e.val]).foldl (fun t f => (t.put R.LE_DEC_STAT_ARMED 0 f).cancelSwitch f 0x21) (w c n k) else w c n k)) ∧
  (∀ (e : Fin 4) (s : State),
     s.is R.LE_DEC_STAT_BUSY e = false →
     exec (.decCheckComplete e) s = .next s) ∧
  (∀ (e : Fin 4) (s : State), let x := fun (u : State) (f : Nat) => (fun v : State => ((v.put R.LE_DEC_STAT_ACT (1 - v.get R.LE_DEC_STAT_ACT f) f).put R.LE_DEC_STAT_SVALID 0 f).put R.LE_DEC_STAT_ARMED 0 f) (u.cancelSwitch f 0x21);
     let y := fun (u : State) (f : Nat) => if u.is R.LE_DEC_STAT_ARMED f then u else (u.put R.LE_DEC_STAT_ARMED 1 f).cancelSwitch f 0x21;
     let z := fun (u : State) (f : Nat) => if u.is R.LE_DEC_STAT_ARMED f then (u.put R.LE_DEC_STAT_ARMED 0 f).cancelSwitch f 0x21 else u;
     let p := s.following = true ∨ (s.get R.RFL_STAT_ROLE = 1 ∧ s.is R.RFL_STAT_READY = true) ∨ (2 ≤ s.get R.RFL_STAT_REJ ∧ s.get R.RFL_STAT_REJ ≤ 4);
     s.mirrorOf e = none →
     exec (.decActivate e) s = .next (if s.inRun = true ∨ p ∨ s.is R.LE_DEC_STAT_SVALID e = false then s.put R.LE_DEC_STAT_ERR 9 e else x s e) ∧
     exec (.decArm e) s = .next (if s.is R.LE_DEC_STAT_SVALID e = false then s.put R.LE_DEC_STAT_ERR 9 e else y s e) ∧
     exec (.decDisarm e) s = .next (z s e)) ∧
  (∀ (e : Fin 4) (f : Nat) (s : State), let x := fun (u : State) (f : Nat) => (fun v : State => ((v.put R.LE_DEC_STAT_ACT (1 - v.get R.LE_DEC_STAT_ACT f) f).put R.LE_DEC_STAT_SVALID 0 f).put R.LE_DEC_STAT_ARMED 0 f) (u.cancelSwitch f 0x21);
     let y := fun (u : State) (f : Nat) => if u.is R.LE_DEC_STAT_ARMED f then u else (u.put R.LE_DEC_STAT_ARMED 1 f).cancelSwitch f 0x21;
     let z := fun (u : State) (f : Nat) => if u.is R.LE_DEC_STAT_ARMED f then (u.put R.LE_DEC_STAT_ARMED 0 f).cancelSwitch f 0x21 else u;
     let p := s.following = true ∨ (s.get R.RFL_STAT_ROLE = 1 ∧ s.is R.RFL_STAT_READY = true) ∨ (2 ≤ s.get R.RFL_STAT_REJ ∧ s.get R.RFL_STAT_REJ ≤ 4);
     let d := fun k => s.mw (s.decStaging e + k) ≠ s.mw (s.decStaging f + k); let r := fun c => (s.put R.LE_DEC_STAT_ERR c e).put R.LE_DEC_STAT_ERR c f;
     let q := d 0 ∨ d 8 ∨ s.is R.LE_DEC_STAT_SVALID e = false ∨ s.is R.LE_DEC_STAT_SVALID f = false;
     s.mirrorOf e = some f →
     exec (.decActivate e) s = .next (if q then r 0xA else if s.inRun = true ∨ p then r 9 else x (x s e) f) ∧
     exec (.decArm e) s = .next (if q then r 0xA else y (y s e) f) ∧
     exec (.decDisarm e) s = .next (z (z s e) f)) ∧
  (∀ (e : Fin 4) (s : State),
     exec (.prgCheck e) s = .next (s.put R.LE_PRG_STAT_BUSY 1 e)) ∧
  (∀ (e : Fin 4) (s : State), let v := s.put R.LE_PRG_STAT_BUSY 0 e; let u := (v.loadParts e).foldl (fun u p => (u.eccRead 10 0 p.1 p.2).1) v;
     let i := u.inactive e;
     s.is R.LE_PRG_STAT_BUSY e = true →
     exec (.prgCheckComplete e) s = .next (match u.loadBad e with
       | some (c, n, k) => ((u.prgErr e c).put R.LE_PRG_STAT_ERRIDX n e).put R.LE_PRG_STAT_SUB k e
       | none => (((u.put R.LE_PRG_STAT_IVALID 1 e).put R.LE_PRG_SID_ID (u.recWord i 4) e).put R.LE_PRG_INFO_W (listWords (u.entries i)) e).upPrg e
           fun p => { p with codeCrc := u.recWord i 0x10, recCrc := u.recWord i 0x30 })) ∧
  (∀ (e : Fin 4) (s : State),
     s.is R.LE_PRG_STAT_BUSY e = false →
     exec (.prgCheckComplete e) s = .next s) ∧
  (∀ (e : Fin 4) (c : Nat) (s : State),
     (if s.is R.LE_PRG_STAT_IVALID e = false then some 0x10 else if s.get R.LE_PRG_AT_LO_A e + 2 ^ 32 * s.get R.LE_PRG_AT_HI_A e < s.seq.abs + 2 then some 0x11 else none) = some c →
     exec (.prgSched e) s = .next ((s.put R.LE_PRG_STAT_ERR c e).bump R.LE_PRG_CNT_REFUSED e)) ∧
  (∀ (e : Fin 4) (c : Nat) (s : State),
     s.schedErr e (s.get R.LE_PRG_AT_LO_A e + 2 ^ 32 * s.get R.LE_PRG_AT_HI_A e) = some c →
     exec (.prgSched e) s = .next ((s.put R.LE_PRG_STAT_ERR c e).bump R.LE_PRG_CNT_REFUSED e)) ∧
  (∀ (e : Fin 4) (s : State),
     s.schedErr e (s.get R.LE_PRG_AT_LO_A e + 2 ^ 32 * s.get R.LE_PRG_AT_HI_A e) = none →
     exec (.prgSched e) s = .next ((s.upPrg e fun p => { p with at_ := some (s.get R.LE_PRG_AT_LO_A e + 2 ^ 32 * s.get R.LE_PRG_AT_HI_A e), waited := 0 }).put R.LE_PRG_STAT_SCHEDULED 1 e)) ∧
  (∀ (e : Fin 4) (s : State),
     exec (.prgCancel e) s = .next (((s.upPrg e fun p => { p with at_ := none, now := false, waited := 0 }).put R.LE_PRG_STAT_SCHEDULED 0 e).put R.LE_PRG_STAT_WAITING 0 e)) ∧
  (∀ (e : Fin 4) (s : State),
     exec (.prgSwitchnow e) s = .next (if s.inRun then s.prgErr e 0x18 else if s.is R.LE_PRG_STAT_IVALID e then (if s.is R.TURN_STAT_RUN then s.upPrg e fun p => { p with now := true } else s.switchStep e) else s.prgErr e 0x10)) ∧
  (∀ (e : Fin 4) (s : State), let l := (s.prgSt e).with_; let n := (l.map fun f => listWords (s.entries (s.newImage f))).sum;
     let u := l.foldl (fun u f => u.runLists f) (s.advance ((s.prgSt e).since + 1000 + 5 * n));
     let d := fun (u : State) (f : Nat) => ((((((u.put R.LE_PRG_STAT_SWDONE 1 f).put R.LE_PRG_ID_ID (u.get R.LE_PRG_SID_ID f) f).put R.LE_PRG_STAT_IVALID 0 f).unschedule f).wrapUp R.LE_PRG_CNT_SWITCHES f).upPrg f
       fun p => { p with switching := false }).note 7 f;
     let t := l.foldl d u;
     (s.prgSt e).switching = true →
     exec (.programSwitchComplete e) s = .next (if t.seq.inLatch then t else t.seqLatchEnd.stepFive)) ∧
  (∀ (e : Fin 4) (s : State),
     (s.prgSt e).switching = false →
     exec (.programSwitchComplete e) s = .next s) ∧
  (∀ (e : Fin 4) (a : Nat) (s : State),
     (s.prgSt e).at_ = some a →
     (s.group a).any (fun f => s.get R.LE_PRG_BUD_WAIT f < (s.prgSt e).waited) = true →
     (s.group a).all s.switchIdle = false →
     exec (.switchWaitRefused e) s = .next (s.refuseGroup (s.group a) 0x20 0 0)) ∧
  (∀ (e : Fin 4) (a k n : Nat) (s : State),
     (s.prgSt e).at_ = some a →
     (s.group a).any (fun f => s.get R.LE_PRG_BUD_WAIT f < (s.prgSt e).waited) = true →
     (s.group a).all s.switchIdle = true →
     tableErr (s.tableAfter (s.group a)) s.shedCfg = some (k, n) →
     exec (.switchWaitRefused e) s = .next (s.refuseGroup (s.group a) 0x22 k n)) ∧
  (∀ (e : Fin 4) (a : Nat) (s : State),
     (s.prgSt e).at_ = some a →
     (s.group a).any (fun f => s.get R.LE_PRG_BUD_WAIT f < (s.prgSt e).waited) = false →
     exec (.switchWaitRefused e) s = .next s) ∧
  (∀ (e : Fin 4) (s : State),
     (s.prgSt e).at_ = none →
     exec (.switchWaitRefused e) s = .next s)

/-- Pair settings, ownership of the pins, and the link. A write takes EN, AUTOREJOIN and legal values of M and CLAIMWAIT; a change of MODE or UNIT in
Run or with the link up sets CFGERR and keeps both, and otherwise is taken; once the device is up a change of MODE starts ownership afresh. A unit
without a role that claims with OWN_IN high becomes Shadow; one with OWN_IN low asserts its line, and at the sample keeps the pins and leads, or unit
1 gives way and unit 0 waits. OWN_IN falling lets a waiting unit lead; a simplex unit drives the pins exactly while OWN_IN is low, and reads its brick
when it has not. Both lines asserted: unit 1 gives way. LINK follows the link where EN is set, with EV 254; RELEASE is kept. A following unit, or a
Lead that is taking over without its pins, takes them when OWN_IN is low and RELEASE has come or the link is down: it commits the tasks whose
completion the END of the running record names, puts the outputs out and reads the brick. Where the conditions do not hold a claim, a conflict and a
takeover change nothing. -/
def Obligations.PairOwnership : Prop :=
  (∀ (v : Word) (s : State), let x := v.toNat; let same := b2n (bit x 1) = s.get R.RFL_CFG_MODE ∧ b2n (bit x 2) = s.get R.RFL_CFG_UNIT;
     let a := (s.put R.RFL_CFG_EN (b2n (bit x 0))).put R.RFL_CFG_AUTOREJOIN (b2n (bit x 3));
     let b := if 1 ≤ bits x 4 4 ∧ bits x 4 4 ≤ 8 then a.put R.RFL_CFG_M (bits x 4 4) else a;
     let c := if bits x 8 8 = 0 then b else b.put R.RFL_CFG_CLAIMWAIT (bits x 8 8);
     let d := (c.put R.RFL_CFG_MODE (b2n (bit x 1))).put R.RFL_CFG_UNIT (b2n (bit x 2));
     exec (.rflCfgWrite v) s = .next (if same then c
       else if s.inRun = true ∨ s.is R.RFL_STAT_LINK = true then c.put R.RFL_STAT_CFGERR 1
       else if s.is R.RFL_CFG_MODE = bit x 1 ∨ d.phase ≠ .up then d
       else if s.is R.RFL_CFG_MODE then ({ d with rfl := RflSt.reset }.put R.RFL_STAT_ROLE 0).ownStart else (d.ownPins false).ownStart)) ∧
  (∀ (s : State),
     s.is R.RFL_CFG_MODE = true →
     s.get R.RFL_STAT_ROLE = 0 →
     s.phase = .up →
     s.rfl.claim = false →
     s.rfl.waitOwn = false →
     exec .ownershipClaim s = .next (if s.is R.RFL_STAT_OWNIN then s.shadowIdle else { s with rfl := { s.rfl with claim := true } }.put R.RFL_STAT_OWN 1)) ∧
  (∀ (s : State),
     s.is R.RFL_CFG_MODE = false ∨ s.get R.RFL_STAT_ROLE ≠ 0 ∨ s.phase ≠ .up ∨ s.rfl.claim = true ∨ s.rfl.waitOwn = true →
     exec .ownershipClaim s = .next s) ∧
  (∀ (s : State),
     exec .ownershipSample s = .next (if s.rfl.claim = false then s else if s.is R.RFL_STAT_OWNIN = false then s.claimed
       else if s.is R.RFL_CFG_UNIT then s.shadowIdle else { s with rfl := { s.rfl with claim := false, waitOwn := true } })) ∧
  (∀ (h : Bool) (s : State), let v := s.put R.RFL_STAT_OWNIN (b2n h); let u := if h then v else { v with rfl := { s.rfl with both := false } };
     let o := (u.ownPins (!h)).conflict;
     exec (.ownInChange h) s = .next (if s.phase ≠ .up then u
       else if s.rfl.waitOwn = true ∧ h = false then u.claimed.conflict
       else if s.get R.RFL_STAT_ROLE = 0 ∧ s.is R.RFL_CFG_MODE = false then (if h = false ∧ o.brick.id = [] then opBrickRead o else o)
       else u.conflict)) ∧
  (∀ (s : State), let u := ({ s with rfl := { s.rfl with both := true } }).conflict;
     s.is R.RFL_STAT_OWN = true →
     s.is R.RFL_STAT_OWNIN = true →
     s.is R.RFL_CFG_MODE = true →
     exec .ownershipConflict s = .next (if u.is R.RFL_CFG_UNIT then u.shadowIdle else u)) ∧
  (∀ (s : State),
     s.is R.RFL_STAT_OWN = false ∨ s.is R.RFL_STAT_OWNIN = false ∨ s.is R.RFL_CFG_MODE = false →
     exec .ownershipConflict s = .next s) ∧
  (∀ (s : State),
     exec .linkUp s = .next (if s.is R.RFL_CFG_EN then ((s.put R.RFL_STAT_LINK 1).level 254 false 0).conflict else s) ∧
     exec .linkDown s = .next ((s.put R.RFL_STAT_LINK 0).level 254 true 0).conflict ∧
     exec .releaseOrderedSet s = .next { s with rfl := { s.rfl with release := true } }.conflict) ∧
  (∀ (s : State), let l := match s.rfl.cur with | some r => (match r.fin with | some f => f.names | none => []) | none => [];
     let c := ({ s with rfl := { s.rfl with taking := false } }.ownPins true).commitNamed l;
     exec .takeover s = .next (if (s.following = true ∨ (s.lead = true ∧ s.rfl.taking = true)) ∧ s.is R.RFL_STAT_OWN = false ∧ s.is R.RFL_STAT_OWNIN = false ∧ (s.rfl.release = true ∨ s.is R.RFL_STAT_LINK = false)
       then ((c.1.outCommit c.2).brickTaken).conflict else s))

/-- Turn records and forwarded frames. A unit that listens gives a frame of the newest record it assembles to that record: the frame adds its payload,
and its index to those received: the image blocks, releases, control entries, the end of the turn, parts of the state block, far values, which wait
for their engines and which one that stalls takes at once. HEAD also ends the wait after RELEASE. An older frame is discarded, a newer one begins the
next record; a unit that does not listen discards them. A page is applied, or staged while following; the last page ends a repair pass. A frame with a
bad CRC is counted and a NAK for it is owed and counted (the command names neither sequence nor index). A NAK re-sends a kept frame once and counts
it. STATUS makes READY of a Lead follow the Shadow's role, keeps its reports and ends the last phase of a rejoin. A forwarded log entry is logged with
its origin bit and the origin unit's number in DATA[0]; a brick record is taken by a following Shadow. A digest of the same turn that agrees counts a
match; a different one counts a mismatch, raises EV 251 and starts a repair, or, after a repair, ends following with reason 0x15; one of another turn
waits. A digest that is complete is sent and compared. A release entry that an engine behind still has from the turn before, or one of the record,
releases its task at its offset. HELLO is answered by a unit that has not sent its own; a partner that disagrees fails the rejoin with its reason, and
one that agrees starts the rounds of a Lead, or the listening of a Shadow. -/
def Obligations.TurnRecords : Prop :=
  (∀ (seq idx : Nat) (d : List Byte) (s : State), let n := seq % 65536;
     let a := fun (f : RecvRec → RecvRec) (r : RecvRec) => f { r with seq := n, idx := r.idx ++ [idx] };
     let o := fun r : RecvRec => if s.rfl.owed ≠ 0 ∧ (List.range idx).all r.idx.contains = true then s.rfl.owed - 1 else s.rfl.owed;
     let w := fun (f : RecvRec → RecvRec) (k : Option RecvRec) => { s with rfl := { s.rfl with nxt := some (a f (RecvRec.fresh n)), owed := o (RecvRec.fresh n), skipped := k } };
     let m := fun f : RecvRec → RecvRec => match s.rfl.nxt, s.rfl.cur with
       | some r, _ => if n = r.seq then { s with rfl := { s.rfl with nxt := some (a f r), owed := o r } } else if seqNewer n r.seq then w f (some r) else s
       | none, some r => if n = r.seq then { s with rfl := { s.rfl with cur := some (a f r), owed := o r } } else if seqNewer n r.seq then w f s.rfl.skipped else s
       | none, none => w f s.rfl.skipped;
     let h := m (fun r => { r with head := some d });
     s.listens = true →
     exec (.headFrame seq idx d) s = .next { h with rfl := { h.rfl with release := false } }.conflict ∧
     exec (.imageFrame seq idx d) s = .next (m (fun r => { r with image := (entries 66 d).foldl (fun t e => Store.put (leAt e 0 2) (e.drop 2) t) r.image })) ∧
     exec (.relFrame seq idx d) s = .next (m (fun r => { r with rel := r.rel ++ (entries 12 d).map fun e => { task := leAt e 0 1, ofs := leAt e 4 4, ts := leAt e 8 4 } })) ∧
     exec (.ctrlFrame seq idx d) s = .next (m (fun r => { r with ctrl := r.ctrl ++ ctrlEntries (d.length / 8) d, ctrlAt := some idx })) ∧
     exec (.endFrame seq idx d) s = .next (m (fun r => { r with fin := some { cyc := (List.range 4).map fun e => leAt d (4 * e) 4, fars := (List.range 4).map fun e => leAt d (16 + 2 * e) 2, names := ((d.drop 25).take (leAt d 24 1)).map BitVec.toNat } })) ∧
     exec (.stateFrame seq idx d) s = .next (m (fun r => { r with state := r.state ++ d }))) ∧
  (∀ (seq idx : Nat) (d : List Byte) (s : State), let n := seq % 65536;
     let a := fun (f : RecvRec → RecvRec) (r : RecvRec) => f { r with seq := n, idx := r.idx ++ [idx] };
     let o := fun r : RecvRec => if s.rfl.owed ≠ 0 ∧ (List.range idx).all r.idx.contains = true then s.rfl.owed - 1 else s.rfl.owed;
     let w := fun (f : RecvRec → RecvRec) (k : Option RecvRec) => { s with rfl := { s.rfl with nxt := some (a f (RecvRec.fresh n)), owed := o (RecvRec.fresh n), skipped := k } };
     let m := fun f : RecvRec → RecvRec => match s.rfl.nxt, s.rfl.cur with
       | some r, _ => if n = r.seq then { s with rfl := { s.rfl with nxt := some (a f r), owed := o r } } else if seqNewer n r.seq then w f (some r) else s
       | none, some r => if n = r.seq then { s with rfl := { s.rfl with cur := some (a f r), owed := o r } } else if seqNewer n r.seq then w f s.rfl.skipped else s
       | none, none => w f s.rfl.skipped;
     let g := fun (u : State) => match u.rfl.cur with
       | some c => { u with rfl := { u.rfl with farq := c.far.foldl (fun (t : Store (List (Nat × Nat))) (p : Nat × List (Nat × Nat)) => Store.put p.1 (t.getD p.1 [] ++ p.2) t) u.rfl.farq, cur := some { c with far := [] } } }
       | none => u;
     let t := fun (u : State) (e : Nat) => match (u.eng e).stalled, u.rfl.farq.getD e [] with
       | true, x :: l => ({ u with rfl := { u.rfl with farq := Store.put e l u.rfl.farq } }).farTake e x
       | _, _ => u;
     s.listens = true →
     exec (.farFrame seq idx d) s = .next ([0, 1, 2, 3].foldl t (g (m (fun r => { r with far := (entries 6 d).foldl (fun t e => Store.put (leAt e 0 1) (t.getD (leAt e 0 1) [] ++ [(leAt e 1 1 % 16, leAt e 2 4)]) t) r.far }))))) ∧
  (∀ (seq idx : Nat) (d : List Byte) (bad : List Nat) (s : State), let n := seq % 65536;
     let a := fun (f : RecvRec → RecvRec) (r : RecvRec) => f { r with seq := n, idx := r.idx ++ [idx] };
     let o := fun r : RecvRec => if s.rfl.owed ≠ 0 ∧ (List.range idx).all r.idx.contains = true then s.rfl.owed - 1 else s.rfl.owed;
     let w := fun (f : RecvRec → RecvRec) (k : Option RecvRec) => { s with rfl := { s.rfl with nxt := some (a f (RecvRec.fresh n)), owed := o (RecvRec.fresh n), skipped := k } };
     let m := fun f : RecvRec → RecvRec => match s.rfl.nxt, s.rfl.cur with
       | some r, _ => if n = r.seq then { s with rfl := { s.rfl with nxt := some (a f r), owed := o r } } else if seqNewer n r.seq then w f (some r) else s
       | none, some r => if n = r.seq then { s with rfl := { s.rfl with cur := some (a f r), owed := o r } } else if seqNewer n r.seq then w f s.rfl.skipped else s
       | none, none => w f s.rfl.skipped;
     let p : PageIn := { turn := leAt d 4 4, page := leAt d 0 2, mask := leAt d 8 8, data := d.drop 16, bad := bad };
     let z : State := m id;
     let u := if p.page + 1 = sweptPages ∧ z.rfl.repair.isSome = true then { z with rfl := { z.rfl with repair := none, repaired := true } } else z;
     s.listens = true →
     exec (.pageFrame seq idx d bad) s = .next (if u.following then { u with rfl := { u.rfl with staged := u.rfl.staged ++ [p] } } else u.applyPage p)) ∧
  (∀ (seq idx : Nat) (d : List Byte) (bad : List Nat) (s : State),
     s.listens = false →
     exec (.headFrame seq idx d) s = .next s ∧
     exec (.imageFrame seq idx d) s = .next s ∧
     exec (.relFrame seq idx d) s = .next s ∧
     exec (.ctrlFrame seq idx d) s = .next s ∧
     exec (.endFrame seq idx d) s = .next s ∧
     exec (.stateFrame seq idx d) s = .next s ∧
     exec (.pageFrame seq idx d bad) s = .next s) ∧
  (∀ (s : State),
     exec .reflectFrameCrcError s = .next ({ s with rfl := { s.rfl with naks := s.rfl.naks + 1, owed := if s.listens then s.rfl.owed + 1 else s.rfl.owed } }.bump R.RFL_CNT_RETRY)) ∧
  (∀ (seq idx : Nat) (s : State), let h := fun f : RflFrame => f.seq == seq && f.idx == idx && !f.resent;
     let u := s.qRead 16 s.rfl.frames.length (s.rfl.frames.findIdx h) (((s.rfl.frames.find? h).map fun f => f.payload.length + 16).getD 0);
     exec (.nakOrderedSet seq idx) s = .next (if s.rfl.frames.any h then { u with rfl := { u.rfl with frames := u.rfl.frames.map fun f : RflFrame => if h f then { f with resent := true } else f } }.bump R.RFL_CNT_RETRY else s)) ∧
  (∀ (role disc : Nat) (l : List Nat) (s : State), let r := fun e => (e, l.getD (3 * e) 0, l.getD (3 * e + 1) 0, l.getD (3 * e + 2) 0);
     let u := { s with rfl := { s.rfl with statusSeen := true, disc := disc, reports := [r 0, r 1, r 2, r 3] } }.put R.RFL_STAT_READY (b2n (role == 2));
     exec (.statusFrame role disc l) s = .next (if s.lead = false then s else if role = 2 ∧ s.get R.RFL_STAT_REJ = 4 then u.put R.RFL_STAT_REJ 0 else u)) ∧
  (∀ (time code data cls : Nat) (s : State),
     exec (.logFrame time code data cls) s = .next (s.logPut false { time := time, kind := 0, code := code % 65536, data := 2 * (data % 65536 / 2) + (if s.is R.RFL_CFG_UNIT then 0 else 1), cls := cls % 5, pin := false, origin := true, copy := false, ramOnly := false })) ∧
  (∀ (d : List Byte) (s : State),
     exec (.brickFrame d) s = .next (if s.following then s.takeBrick d else s)) ∧
  (∀ (a x : Nat) (s : State), let k := fun u : State => { u with rfl := { u.rfl with digOwn := none, digPeer := none, repaired := false } };
     let v := { s with rfl := { s.rfl with digPeer := some (a, x) } };
     let w := ((k v).bump R.RFL_DIGSTAT_MISMATCH).raise 251 0;
     s.lead = true ∨ s.following = true →
     exec (.digestFrame a x) s = .next (match s.rfl.digOwn with
       | none => v
       | some (b, y) => if b ≠ a then v else if y = x then (k v).wrapUp R.RFL_DIGSTAT_MATCH
           else if w.following = true ∧ s.rfl.repaired = true then w.stopFollowing 0x15 else w.repairStart)) ∧
  (∀ (a x : Nat) (s : State),
     s.lead = false →
     s.following = false →
     exec (.digestFrame a x) s = .next s) ∧
  (∀ (s : State),
     exec .digestComplete s = .next (match s.rfl.digRun with
       | none => s
       | some (a, x) => ({ s with rfl := { s.rfl with digRun := none, digOwn := some (a, x) } }.rflSend 9 (leBytes 8 a ++ leBytes 8 x)).digestCompare)) ∧
  (∀ (e : Fin 4) (c : RecvRec) (r : RelEnt) (s : State), let t := s.turnCatch e;
     let u := if t.rfl.relOld.contains r then { t with rfl := { t.rfl with relOld := t.rfl.relOld.erase r } } else { t with rfl := { t.rfl with cur := some { c with rel := c.rel.erase r } } };
     let q := (({ u with rfl := { u.rfl with timeline := Store.put e (max r.ofs (u.count e), (u.eng e).cyc) u.rfl.timeline } }).upT r.task fun x => { x with guard := some (t.rfl.turnT / 2 ^ 32 * 2 ^ 32 + r.ts) }).consider r.task;
     t.rfl.cur = some c →
     (t.rfl.relOld.find? fun r => t.tEng r.task == e).or (if t.rfl.behind.contains e then none else c.rel.find? fun r => t.tEng r.task == e) = some r →
     t.following = true →
     r.task < 48 →
     t.timeIdle e = true ∨ r.ofs ≤ t.count e →
     exec (.shadowRelRelease e) s = .next (match q.2 with | some n => q.1.raise n.1 n.2 | none => q.1)) ∧
  (∀ (e : Fin 4) (s : State), let t := s.turnCatch e;
     t.relNow e = none →
     exec (.shadowRelRelease e) s = .next t) ∧
  (∀ (e : Fin 4) (s : State),
     s.following = false →
     exec (.shadowRelRelease e) s = .next s) ∧
  (∀ (l : List Nat) (s : State), let u := if s.get R.RFL_STAT_REJ = 1 then s else s.sendHello;
     s.is R.RFL_STAT_LINK = true →
     s.is R.RFL_CFG_MODE = true →
     s.lead = true ∨ s.get R.RFL_STAT_ROLE = 3 →
     exec (.helloFrame l) s = .next (match helloErr u.helloItems l with
       | some n => u.rejoinFail n
       | none => if u.lead then u.roundsStart else ({ u with rfl := { u.rfl with peer := l } }.put R.RFL_STAT_REJ 2).put R.RFL_STAT_REASON 0)) ∧
  (∀ (l : List Nat) (s : State),
     s.is R.RFL_STAT_LINK = false ∨ s.is R.RFL_CFG_MODE = false ∨ (s.lead = false ∧ s.get R.RFL_STAT_ROLE ≠ 3) →
     exec (.helloFrame l) s = .next s)

/-- Switchover, rejoin and role swap. A following Shadow that has missed M ticks leads if it owns the pins, with EV 249, and stops following with
reason 0x10 if not; instances that were released after the record's start are discarded when its END has not come. STOP makes it stop with 0x1F.
REJOIN, on a Shadow that does not follow or a Lead without one, sends HELLO and waits for the partner, a Shadow with its engines held; without link or
role it sets CMDERR, as do REPAIR and STOP where they do not apply (the model's choice, log entry 50). Its retry, at its time, does the same, and
without link or role is put off by RETRY seconds or dropped. A swap is refused with CMDERR outside its conditions and otherwise kept until the first
idle tick at or after its turn. A Lead's rejoin whose limits are passed fails with 0x22, or else 0x20; its sync turn, once few enough blocks were
dirty at the end of a round, is the next idle tick. Where their conditions do not hold a switchover, a retry, a failure, a sync turn and a swap of
roles change nothing. -/
def Obligations.PairCommands : Prop :=
  (∀ (s : State), let u := (match s.rfl.cur with
         | some c => if c.fin = none then (List.range 48).foldl (fun t n => State.discardAfter (leAt (c.head.getD []) 0 8) n t) s else s
         | none => s);
     s.following = true →
     s.get R.RFL_CFG_M ≤ s.get R.RFL_STAT_MISSED →
     exec .switchover s = .next (if s.is R.RFL_STAT_OWN then { u.leadStart with rfl := { u.leadStart.rfl with fresh := true } }.raise 249 0 else s.stopFollowing 0x10)) ∧
  (∀ (s : State),
     s.following = false ∨ s.get R.RFL_STAT_MISSED < s.get R.RFL_CFG_M →
     exec .switchover s = .next s) ∧
  (∀ (s : State),
     exec .rflStop s = .next (if s.following then s.stopFollowing 0x1F else s.put R.RFL_STAT_CMDERR 1) ∧
     exec .rflCancel s = .next { s with rfl := { s.rfl with swap := none, swapWait := 0 } } ∧
     exec .rflRepair s = .next (if s.lead && s.is R.RFL_STAT_READY then { s with rfl := { s.rfl with repair := some 0 } } else s.put R.RFL_STAT_CMDERR 1)) ∧
  (∀ (s : State), let u := (if s.lead then s else [0, 1, 2, 3].foldl (fun t e => t.stopEngine e .held) s).sendHello.put R.RFL_STAT_REJ 1;
     exec .rflRejoin s = .next (if s.is R.RFL_STAT_LINK = true ∧ (s.get R.RFL_STAT_ROLE = 3 ∨ (s.lead = true ∧ s.is R.RFL_STAT_READY = false))
       then { u with rfl := { u.rfl with retryAt := none, cur := none, nxt := none, skipped := none, staged := [], image := [], owed := 0 } } else s.put R.RFL_STAT_CMDERR 1)) ∧
  (∀ (t : Nat) (s : State), let u := s.advance t; let h := ([0, 1, 2, 3].foldl (fun t e => t.stopEngine e .held) u).sendHello.put R.RFL_STAT_REJ 1;
     s.rfl.retryAt = some t →
     exec .rejoinRetry s = .next (if u.get R.RFL_STAT_ROLE = 3 ∧ u.is R.RFL_STAT_LINK = true then { h with rfl := { h.rfl with retryAt := none, cur := none, nxt := none, skipped := none, staged := [], image := [], owed := 0 } }
       else { u with rfl := { u.rfl with retryAt := if u.get R.RFL_STAT_ROLE = 3 then some (u.now + u.get R.RFL_SWLIM_RETRY * 1000000000) else none } })) ∧
  (∀ (s : State),
     s.rfl.retryAt = none →
     exec .rejoinRetry s = .next s) ∧
  (∀ (s : State), let j := s.get R.RFL_STAT_REJ;
     exec .rejoinFailure s = .next (if s.lead = true ∧ j = 3 ∧ s.get R.RFL_SWEEP_WAIT ≤ s.rfl.idleWait then s.rejoinFail 0x22
       else if s.lead = true ∧ (j = 2 ∨ j = 3) ∧ s.get R.RFL_SWLIM_LIMIT ≤ s.rfl.turns then s.rejoinFail 0x20 else s)) ∧
  (∀ (s : State),
     exec .syncTurn s = .next (if s.lead = true ∧ s.get R.RFL_STAT_REJ = 3 ∧ s.allIdle = true
       then { s with rfl := { s.rfl with sync := true } } else s)) ∧
  (∀ (s : State), let w := s.get R.RFL_SWAPAT_LO_A + 2 ^ 32 * s.get R.RFL_SWAPAT_HI_A;
     exec .rflSwap s = .next (if s.lead = true ∧ s.is R.RFL_STAT_READY = true ∧ s.seq.abs + 2 ≤ w ∧ (s.get R.RFL_STAT_REJ = 0 ∨ s.get R.RFL_STAT_REJ = 5)
           ∧ ((List.range 4).all fun e => !s.is R.LE_PRG_STAT_SCHEDULED e) = true ∧ s.pwr.want ≠ some 1 ∧ s.pwr.want ≠ some 2
       then { s with rfl := { s.rfl with swap := some w, swapWait := 0 } } else s.put R.RFL_STAT_CMDERR 1)) ∧
  (∀ (w : Nat) (s : State),
     s.rfl.swap = some w →
     exec .roleSwap s = .next (if s.lead = true ∧ s.is R.RFL_STAT_READY = true ∧ w ≤ s.seq.abs + 1 ∧ s.allIdle = true
       then { s with rfl := { s.rfl with swap := none, swapWait := 0, swapAt := some (s.seq.abs + 1) } } else s)) ∧
  (∀ (s : State),
     s.rfl.swap = none →
     exec .roleSwap s = .next s)

/-- Message checks and session messages. Shown by KEEPALIVE, which has no other effect: a message whose session is not open on its port is discarded
with error 5; one whose trailer does not verify under the key that EPOCH selects, or for which no such key is left, with 3; one whose sequence is not
greater than the last under that key, with 4. One that passes has been heard from its partner and sets the last sequence and time, one under the new
key ends the old one, and the sequences are watched then. While SV is halted or hands over (the model's choice, log entry 51), and on an empty queue,
the message commands of sessions, dictionary and maps change nothing. An OPEN on a port in lockout is taken and ignored. One of wrong length, for a
role without key, or with a wrong trailer counts as a failed authentication; one with a right trailer is heard, warns under the empty password, is
answered with 0x13 where the port does not grant the role, with 0x12 where no session is free, and otherwise gets a session. A CLOSE is answered and
ends its session. A REKEY of the client is answered with status 9, or with a nonce and changes the key; the client's reply to the device's REKEY
changes it too. Lockout, idle time and the old key end at their times. A message of an unknown service is answered with 0x10. -/
def Obligations.Sessions : Prop :=
  (∀ (p : Fin 6) (m : Msg) (s : State), let u := s.popFront p; let v := u.partnerHeard p;
     let w := fun (i : Nat) (x : Sess) (k : List Byte) => v.upSess i fun y => if bit m.flags 1 = x.epoch then { y with rx := m.seq, last := v.now, old := none } else { y with old := some (k, m.seq), last := v.now };
     s.fronts p m = true →
     m.svc = 0x1E →
     m.isReply = false →
     exec (.keepAlive p) s = .next (match s.sess.find? fun x => x.2.id == m.sid && x.2.port == p.val with
       | none => u.portDrop p 5
       | some (i, x) => match (if bit m.flags 1 = x.epoch then some (s.key (4 + i), x.rx) else x.old) with
         | none => u.portDrop p 3
         | some (k, n) => if trailer k m.covered ≠ m.trail then u.portDrop p 3 else if m.seq ≤ n then u.portDrop p 4 else (w i x k).seqGuard i)) ∧
  (∀ (p : Fin 6) (s : State),
     s.halted 4 = true ∨ s.upd.hand = true ∨ s.front p = none →
     exec (.keepAlive p) s = .next s ∧
     exec (.isailRead p) s = .next s ∧
     exec (.isailWrite p) s = .next s ∧
     exec (.storeGroup p) s = .next s ∧
     exec (.defaultsGroup p) s = .next s ∧
     exec (.reloadGroup p) s = .next s ∧
     exec (.closeSession p) s = .next s ∧
     exec (.rekeySession p) s = .next s ∧
     exec (.unknownService p) s = .next s ∧
     exec (.mapMessage p) s = .next s ∧
     exec (.openSession p) s = .next s) ∧
  (∀ (p : Fin 6) (m : Msg) (s : State), let u := s.popFront p; let r := leAt m.body 0 1; let v := u.partnerHeard p;
     s.fronts p m = true →
     m.svc = 0x10 →
     m.isReply = false →
     m.sid = 0 →
     exec (.openSession p) s = .next (if s.is R.FP_STAT_LOCKOUT p then u else if m.body.length ≠ 20 ∨ 3 < r then u.openFailed p else match s.openKey p r with
       | none => u.openFailed p
       | some (k, e) => if trailer k m.covered ≠ m.trail then u.openFailed p else (fun w : State =>
           if bit (w.get R.FP_CFG_ROLES p) r = false then w.openReply p m.udp 0x13 0 k []
           else match (List.range 16).find? (fun i => (Store.find i w.sess).isNone) with
             | none => w.openReply p m.udp 0x12 0 k []
             | some i => if w.get R.FP_CFG_MAXSESS p ≤ (w.portSess p).length then w.openReply p m.udp 0x12 0 k [] else w.openGrant p r m.udp i k (slice m.body 4 16)) (if e then v.warn 7 p else v))) ∧
  (∀ (p : Fin 6) (m : Msg) (s : State),
     s.fronts p m = true →
     m.svc = 0x12 →
     m.isReply = false →
     exec (.closeSession p) s = .next (s.served p m fun i _ u => (u.sessReply i 0x12 m.seq m.udp 0 []).sessClose i)) ∧
  (∀ (p : Fin 6) (m : Msg) (s : State),
     s.fronts p m = true →
     m.svc = 0x11 →
     m.isReply = false →
     exec (.rekeySession p) s = .next (s.served p m fun i _ u => if m.body.length ≠ 16 then u.sessReply i 0x11 m.seq m.udp 9 [] else (u.nonce.2.sessReply i 0x11 m.seq m.udp 0 u.nonce.1).rekeyed i m.body u.nonce.1)) ∧
  (∀ (p : Fin 6) (m : Msg) (s : State),
     s.fronts p m = true →
     m.svc = 0x11 →
     m.isReply = true →
     exec (.rekeySession p) s = .next (s.served p m fun i x u => match x.rekey with
       | some (n, k) => if leAt m.body 0 4 = n ∧ leAt m.body 4 1 = 0 ∧ m.body.length = 24 then u.rekeyed i k (m.body.drop 8) else u
       | none => u)) ∧
  (∀ (p : Fin 6) (m : Msg) (s : State),
     s.fronts p m = true →
     m.isReply = false →
     m.svc = 9 ∨ 0x20 ≤ m.svc →
     exec (.unknownService p) s = .next (s.served p m fun i _ u => u.sessReply i m.svc m.seq m.udp 0x10 [])) ∧
  (∀ (p : Fin 6) (s : State),
     exec (.openLockoutEnd p) s = .next (if s.is R.FP_STAT_LOCKOUT p then (s.advance ((s.port p).lockAt + s.fwNat 0x210015 2 60 * 1000000000)).put R.FP_STAT_LOCKOUT 0 p else s)) ∧
  (∀ (j : Fin 16) (s : State),
     exec (.sessionIdleTimeout j) s = .next (match Store.find j.val s.sess with
       | none => s
       | some x => (s.advance (x.last + s.fwNat 0x210001 2 60 * 1000000000)).sessClose j)) ∧
  (∀ (j : Fin 16) (s : State),
     exec (.rekeyOldKeyExpiry j) s = .next (match Store.find j.val s.sess with
       | none => s
       | some x => if x.old.isSome then (s.advance (x.rekeyAt + 1000000000)).upSess j fun x => { x with old := none } else s))

/-- READ, WRITE, the commands of R345, due reads and the policy layer. Of the requests at all ports the one that came first is served; a command for
another port does nothing then. READ and WRITE are served as requests in their session, the malformed ones with status 9. STORE, DEFAULTS and RELOAD
are answered with 2 for a role that may not give them, with 9 for a wrong length and with the status of a group that is unknown or has no layout
otherwise. STORE puts a store of every kept-on-command entry of the group into the queue. DEFAULTS writes the default, and RELOAD the stored value, of
the group's entries as one operation, whose status it answers; DEFAULTS also puts their stores into the queue. Reads that are due are taken with the
values of that moment, with status 0x0B while the writer task runs. The policy layer takes back the marks of triggers that are no longer active; an
active trigger's notifications are sent, a Penumbra action is asked again wherever its cause is gone while its trigger is active, and the other
actions (none, Umbra or Hold) are issued once while it is active, a Hold that is refused being marked to be asked again. Outside start-up's end, while
SV is halted and while it hands over, it does nothing. -/
def Obligations.DictionaryMessages : Prop :=
  (∀ (p : Fin 6) (m : Msg) (s : State),
     s.fronts p m = true →
     m.svc = 5 →
     m.isReply = false →
     s.reqTurn p = true →
     exec (.isailRead p) s = .next (s.served p m fun i x u => u.readRequest i x m)) ∧
  (∀ (p : Fin 6) (m : Msg) (s : State),
     s.fronts p m = true →
     m.svc = 4 →
     m.isReply = false →
     s.reqTurn p = true →
     exec (.isailWrite p) s = .next (s.served p m fun i x u => u.writeRequest i x m)) ∧
  (∀ (i : Nat) (x : Sess) (m : Msg) (u : State),
     (m.body.length < 8 → u.writeRequest i x m = u.answer { sess := i, sid := x.id, seq := m.seq, udp := m.udp, write := true, num := leAt m.body 0 3, first := leAt m.body 4 1, n := leAt m.body 5 1, data := m.body.drop 8, wait := .turn } 9 []) ∧
     (m.body.length ≠ 8 → u.readRequest i x m = u.answer { sess := i, sid := x.id, seq := m.seq, udp := m.udp, write := false, num := leAt m.body 0 3, first := leAt m.body 4 1, n := leAt m.body 5 1, data := [], wait := .turn } 9 [])) ∧
  (∀ (p : Fin 6) (m : Msg) (s : State),
     s.fronts p m = true →
     m.svc = 3 →
     m.isReply = false →
     4 ≤ m.body.length →
     leAt m.body 0 2 = 0x0101 →
     s.reqTurn p = true →
     exec (.storeGroup p) s = .next (s.served p m fun i x u => if x.role < 2 then u.cmdReply i m 2 [] else if m.body.length ≠ 5 then u.cmdReply i m 9 [] else match u.groupArg (leAt m.body 4 1) with
         | (0, gs) => State.cmdReply i m 0 [] (((u.groupUser gs).filter fun (e : UEntry) => e.pers == 2).foldl (fun (t : State) (e : UEntry) => t.entryLook (.user e) 0 e.count) { u with dict := { u.dict with stores := u.dict.stores ++ ((u.groupUser gs).filter fun (e : UEntry) => e.pers == 2).map fun (e : UEntry) => (e.num, u.entryBytes (.user e) 0 e.count) } }).dictSettle
         | (st, _) => u.cmdReply i m st [])) ∧
  (∀ (p : Fin 6) (m : Msg) (s : State), let dev := fun (gs : List Nat) => ((State.groupDev gs).filter Param.settable).map fun p => (p, p.default.getD []); let user := fun (gs : List Nat) (u : State) => ((u.groupUser gs).filter UEntry.writable).map fun e => (e, e.dflt); let w := fun (gs : List Nat) (u : State) => u.writeAll (dev gs) (user gs u); let kept := fun (gs : List Nat) (u : State) => ((dev gs).filter fun x => x.1.pers == 1).map (fun x => (x.1.num, x.2)) ++ ((user gs u).filter fun x => x.1.pers == 1).map fun x => (x.1.num, x.2);
     s.fronts p m = true →
     m.svc = 3 →
     m.isReply = false →
     4 ≤ m.body.length →
     leAt m.body 0 2 = 0x0102 →
     s.reqTurn p = true →
     exec (.defaultsGroup p) s = .next (s.served p m fun i x u => if x.role < 3 then u.cmdReply i m 2 [] else if m.body.length ≠ 5 then u.cmdReply i m 9 [] else match u.groupArg (leAt m.body 4 1) with
         | (0, gs) => if (w gs u).2 ≠ 0 then (w gs u).1.dictSettle.cmdReply i m (w gs u).2 [] else State.cmdReply i m 0 [] { (w gs u).1 with dict := { (w gs u).1.dict with late := (w gs u).1.dict.late ++ kept gs u } }.dictSettle
         | (st, _) => u.cmdReply i m st [])) ∧
  (∀ (p : Fin 6) (m : Msg) (s : State), let v := fun (gs : List Nat) (u : State) => u.writeAll (((State.groupDev gs).filter fun p => p.pers == 1 && p.settable).filterMap fun p => (u.storedVal p.num).map fun d => (p, d)) (((u.groupUser gs).filter fun e => e.pers != 0).filterMap fun e => (u.storedVal e.num).map fun d => (e, d));
     s.fronts p m = true →
     m.svc = 3 →
     m.isReply = false →
     4 ≤ m.body.length →
     leAt m.body 0 2 = 0x0103 →
     s.reqTurn p = true →
     exec (.reloadGroup p) s = .next (s.served p m fun i x u => if x.role < 2 then u.cmdReply i m 2 [] else if m.body.length ≠ 5 then u.cmdReply i m 9 [] else match u.groupArg (leAt m.body 4 1) with
         | (0, gs) => (v gs u).1.dictSettle.cmdReply i m (v gs u).2 []
         | (st, _) => u.cmdReply i m st [])) ∧
  (∀ (s : State), let c := s.svCatchUp; let l := c.dict.reqs.filter fun r => r.wait == .due;
     let f := fun (t : State) (r : DictReq) => (match t.lookup r.num 3 with | (_, some (.user e)) => (t.entryLook (.user e) r.first r.n).answer r (if e.writer < 48 ∧ t.busy e.writer = true then 0x0B else 0) (readData e.ty r.n (t.entryBytes (.user e) r.first r.n)) | (st, _) => t.answer r st []);
     exec .userReadTaken s = .next (l.foldl f { c with dict := { c.dict with reqs := c.dict.reqs.filter fun r => r.wait != .due } }).dictSettle) ∧
  (∀ (k : Fin 16) (s : State), let u := s.policyDrop; let v := { u with dict := { u.dict with acted := setBit u.dict.acted k true, hits := Store.del k u.dict.hits } };
     let a := u.trigAction k; let n := u.dict.hits.getD k 0; let new := bit u.dict.acted k = false;
     let w := if (bit a 0 = true ∨ k = 11) ∧ (new ∨ n ≠ 0) then (List.range (max 1 n)).foldl (fun t _ => t.noteFor 1 k 0 t.now) v else v;
     s.phase = .up →
     s.halted 4 = false →
     s.upd.hand = false →
     exec (.policyAction k) s = .next (if u.trigActive k = false then u
       else if bits a 1 2 = 1 then (if w.exc.dCmd = true ∨ (w.rfl.dw.any fun c => c.kind == 1 && c.addr == 0x1000C008 && leNat c.data == 1024) = true then { w with dict := { w.dict with pen := true } }
         else opExcCmdPenenter 0 { w with dict := { w.dict with pen := true } })
       else if ¬ new then w
       else match bits a 1 2 with
         | 2 => opExcCmdEnter 0 w
         | 3 => { opModeRequest 1 w with dict := { (opModeRequest 1 w).dict with hold := true } }
         | _ => w)) ∧
  (∀ (k : Fin 16) (s : State),
     s.phase ≠ .up ∨ s.halted 4 = true ∨ s.upd.hand = true →
     exec (.policyAction k) s = .next s) ∧
  (∀ (p : Fin 6) (s : State),
     s.reqTurn p = false →
     exec (.isailRead p) s = .next s ∧
     exec (.isailWrite p) s = .next s ∧
     exec (.storeGroup p) s = .next s ∧
     exec (.defaultsGroup p) s = .next s ∧
     exec (.reloadGroup p) s = .next s)

/-- Maps, notifications and bulk transfers. A MAP is staged in every receive map of its port that is enabled, grants the role, and has its ID and
length; one that meets none is dropped with error 0x0F. A SUBSCRIBE creates, replaces or deletes a map, sets the notifications, or lists them, and is
answered with 0x15 where its rules are broken. A NOTIFY with its count is sent while none is unacknowledged and SV runs, and again at most 3 times,
then dropped with a note logged; an acknowledgement lets the next one go. A BULK-WRITE starts when the object may be written (the waveform RAM not on
a following Shadow) and its length fits, and the reply counts 0; a segment at the count is taken and counted, any other refused with 0x14 and the
count; the last one completes the object if the CRC is right. A BULK-READ takes the content at its start and sends it in segments; acknowledgements
are cumulative, and a reply 0x14 makes it go on from the count it names. An ABORT, whose reply to a write carries the count, and 2 s of silence end a
transfer. With no message at the port, while SV is halted and while it hands over (log entry 51), the message commands change nothing. -/
def Obligations.MapsAndBulk : Prop :=
  (∀ (p : Fin 6) (m : Msg) (s : State), let hit := fun (u : State) (x : Sess) => (List.range 4).filter fun k => u.is R.FP_RMAP_A_EN p k && bit (u.get R.FP_RMAP_A_ROLES p k) x.role && leAt m.body 0 1 == u.get R.FP_RMAP_A_ID p k && (m.body.drop 12).length == u.rmapLen p k;
     s.fronts p m = true →
     m.svc = 1 →
     m.isReply = false →
     exec (.mapMessage p) s = .next (s.served p m fun _ x u => if m.body.length < 12 ∨ hit u x = [] then u.portDrop p 0x0F else u.upPort p fun q => { q with maps := (hit u x).foldl (fun t k => Store.put k { data := m.body.drop 12, inv := bit m.flags 3 } t) q.maps })) ∧
  (∀ (p : Fin 6) (m : Msg) (s : State),
     s.fronts p m = true →
     m.svc = 6 →
     m.isReply = false →
     leAt m.body 0 1 = 1 →
     m.body ≠ [] →
     exec (.subscribeCreate p) s = .next (s.served p m fun i x u => if u.createOk x.role (m.body.drop 1) = false ∨ (x.maps.any (fun q => q.id == leAt m.body 1 1) = false ∧ 16 ≤ u.mapCount) then u.sessReply i 6 m.seq m.udp 0x15 []
         else State.sessReply i 6 m.seq m.udp 0 [] (u.upSess i fun y => { y with maps := if x.maps.any (fun q => q.id == leAt m.body 1 1) then y.maps.map (fun q => if q.id = leAt m.body 1 1 then { q with next := some (m.body.drop 1) } else q) else y.maps ++ [{ id := leAt m.body 1 1, body := m.body.drop 1, next := none, prep := none, owed := false }] }))) ∧
  (∀ (p : Fin 6) (m : Msg) (s : State),
     s.fronts p m = true →
     m.svc = 6 →
     m.isReply = false →
     leAt m.body 0 1 = 2 →
     m.body ≠ [] →
     exec (.subscribeDelete p) s = .next (s.served p m fun i x u => if m.body.length ≠ 5 ∨ x.maps.any (fun q => q.id == leAt m.body 1 1) = false then u.sessReply i 6 m.seq m.udp 0x15 [] else (u.upSess i fun y => { y with maps := y.maps.filter fun q => q.id != leAt m.body 1 1 }).sessReply i 6 m.seq m.udp 0 [])) ∧
  (∀ (p : Fin 6) (m : Msg) (s : State),
     s.fronts p m = true →
     m.svc = 6 →
     m.isReply = false →
     leAt m.body 0 1 = 3 →
     m.body ≠ [] →
     exec (.subscribeNotifications p) s = .next (s.served p m fun i _ u => if m.body.length ≠ 44 ∨ (setBits 288 (leAt m.body 4 36)).all evNotify = false then u.sessReply i 6 m.seq m.udp 0x15 [] else (u.upSess i fun y => { y with evs := leAt m.body 4 36, trigs := leAt m.body 40 2, notes := y.notes.filter fun n => Sess.wants { y with evs := leAt m.body 4 36, trigs := leAt m.body 40 2 } n.kind n.src || (n.kind == 1 && decide (16 ≤ n.src)) }).sessReply i 6 m.seq m.udp 0 [])) ∧
  (∀ (p : Fin 6) (m : Msg) (s : State),
     s.fronts p m = true →
     m.svc = 6 →
     m.isReply = false →
     leAt m.body 0 1 = 4 →
     m.body ≠ [] →
     exec (.subscribeList p) s = .next (s.served p m fun i x u => u.sessReply i 6 m.seq m.udp 0 (x.maps.flatMap (fun q => q.next.getD q.body) ++ [0#8, 0#8, 0#8] ++ leBytes 36 x.evs ++ leBytes 2 x.trigs ++ leBytes 2 0))) ∧
  (∀ (p : Fin 6) (m : Msg) (s : State),
     s.fronts p m = true →
     m.svc = 2 →
     m.isReply = true →
     exec (.notifyAck p) s = .next (s.served p m fun i _ u => u.upSess i fun x => { x with notes := x.notes.filterMap fun n => if (n.sent.map Prod.fst) = some (leAt m.body 0 4) ∧ leAt m.body 0 4 ≠ 0 then (if n.count = 0 then none else some { n with sent := none, tries := 0 }) else some n })) ∧
  (∀ (j : Fin 16) (k : Fin 2) (src : Nat) (x : Sess) (n : NoteSt) (s : State), let b := [BitVec.ofNat 8 k, BitVec.ofNat 8 n.count] ++ leBytes 2 src ++ leBytes 2 n.pay ++ [BitVec.ofNat 8 (s.get R.RFL_CFG_UNIT), 0#8] ++ leBytes 8 n.first ++ leBytes 8 n.last; let q := s.notePut j n b;
     Store.find j.val s.sess = some x →
     x.notes.find? (fun n => n.kind == k.val && n.src == src) = some n →
     exec (.notifySend j k src) s = .next (if n.count = 0 ∨ n.sent.isSome = true ∨ s.halted 4 = true then s else (q.1.upNote j k src fun n => some { n with count := 0, sent := some (q.2, b), tries := 0 }).seqGuard j)) ∧
  (∀ (j : Fin 16) (k : Fin 2) (src : Nat) (x : Sess) (n : NoteSt) (s : State),
     Store.find j.val s.sess = some x →
     x.notes.find? (fun n => n.kind == k.val && n.src == src) = some n →
     exec (.notifyRepeat j k src) s = .next (match n.sent with
       | none => s
       | some (_, b) => if 3 ≤ n.tries then (s.upNote j k src fun n => if n.count = 0 then none else some { n with sent := none, tries := 0 }).note 7 src
         else (((s.notePut j n b).1.upNote j k src fun w => some { w with sent := some ((s.notePut j n b).2, b), tries := n.tries + 1 }).seqGuard j))) ∧
  (∀ (j : Fin 16) (k : Fin 2) (src : Nat) (s : State),
     (∀ x ∈ Store.find j.val s.sess, x.notes.find? (fun n => n.kind == k.val && n.src == src) = none) →
     exec (.notifySend j k src) s = .next s ∧
     exec (.notifyRepeat j k src) s = .next s) ∧
  (∀ (p : Fin 6) (m : Msg) (s : State), let rep := fun (i : Nat) (u : State) (st : Nat) => u.sessReply i 7 m.seq m.udp st (leBytes 4 0);
     s.fronts p m = true →
     m.svc = 7 →
     m.isReply = false →
     4 ≤ m.body.length →
     leAt m.body 0 1 = 0 →
     exec (.bulkWriteStart p) s = .next (s.served p m fun i x u => if m.body.length ≠ 16 then rep i u 9 else if (u.bulkCheck x m 2).1 ≠ 0 then rep i u (u.bulkCheck x m 2).1
       else if leAt m.body 8 4 < (u.bulkCheck x m 2).2.1 ∨ (u.bulkCheck x m 2).2.2 < leAt m.body 8 4 ∨ (leAt m.body 4 3 = 0x700001 ∧ leAt m.body 8 4 % 256 ≠ 64) then rep i u 0x14
       else if leAt m.body 4 3 = 0x410010 ∧ (List.range 8).any (fun k => u.get R.WAVE_CH_STAT_STATE k == 1 || u.get R.WAVE_CH_STAT_STATE k == 2) = true then rep i u 6
       else if leAt m.body 4 3 = 0x410010 ∧ u.following = true then rep i u 6
       else if (u.bulkBase (leAt m.body 4 3) 0).isSome = true ∧ u.is R.UPD_FINFO_OK = false then rep i u 0x14
       else rep i ((u.bulkErase (leAt m.body 4 3)).setBulk i (some { write := true, pnum := leAt m.body 4 3, elem := leAt m.body 1 1, total := leAt m.body 8 4, crc := leAt m.body 12 4, acked := 0, sent := 0, data := [], at_ := u.now })) 0)) ∧
  (∀ (p : Fin 6) (m : Msg) (s : State), let rep := fun (i : Nat) (u : State) (st n : Nat) => u.sessReply i 7 m.seq m.udp st (leBytes 4 n); let nx := fun (b : BulkSt) (u : State) => { b with data := b.data ++ m.body.drop 8, acked := b.acked + (m.body.drop 8).length, at_ := u.now }; let pr := fun (b : BulkSt) (u : State) => if b.pnum = 0x700001 then (u.bankTouched u.otherBank).norProgram (svBank u.otherBank + b.acked) (m.body.drop 8) else u;
     s.fronts p m = true →
     m.svc = 7 →
     m.isReply = false →
     4 ≤ m.body.length →
     leAt m.body 0 1 = 1 →
     exec (.bulkWriteSegment p) s = .next (s.served p m fun i x u => match x.bulk with
         | none => rep i u 0x14 0
         | some b => if b.write = false ∨ leAt m.body 1 1 ≠ b.elem ∨ leAt m.body 4 4 ≠ b.acked ∨ m.body.drop 8 = [] ∨ b.total < b.acked + (m.body.drop 8).length then rep i u 0x14 b.acked
           else if b.acked + (m.body.drop 8).length < b.total then rep i ((pr b u).setBulk i (some (nx b u))) 0 (nx b u).acked
           else if b.pnum = 0x410010 ∧ (pr b u).following = true then rep i ((pr b u).setBulk i none) 6 (nx b u).acked
           else if crc32 (nx b u).data = b.crc then rep i (((pr b u).setBulk i none).bulkDone (nx b u)) 0 (nx b u).acked else rep i ((pr b u).setBulk i none) 0x14 (nx b u).acked)) ∧
  (∀ (p : Fin 6) (m : Msg) (s : State), let rep := fun (i : Nat) (u : State) (st : Nat) (d : List Byte) => u.sessReply i 8 m.seq m.udp st d; let d := fun (u : State) => slice (u.bulkObject (leAt m.body 4 3)) (leAt m.body 8 4) (leAt m.body 12 4);
     s.fronts p m = true →
     m.svc = 8 →
     m.isReply = false →
     4 ≤ m.body.length →
     leAt m.body 0 1 = 0 →
     exec (.bulkReadStart p) s = .next (s.served p m fun i x u => if m.body.length ≠ 16 then rep i u 9 [] else if (u.bulkCheck x m 1).1 ≠ 0 then rep i u (u.bulkCheck x m 1).1 [] else if (u.bulkObject (leAt m.body 4 3)).length < leAt m.body 8 4 then rep i u 0x14 []
       else (rep i (if d u = [] then u else u.setBulk i (some { write := false, pnum := leAt m.body 4 3, elem := leAt m.body 1 1, total := (d u).length, crc := crc32 (d u), acked := 0, sent := 0, data := d u, at_ := u.now })) 0 (leBytes 4 (d u).length ++ leBytes 4 (crc32 (d u)))).bulkPump i 4)) ∧
  (∀ (p : Fin 6) (m : Msg) (s : State),
     s.fronts p m = true →
     m.svc = 8 →
     m.isReply = false →
     4 ≤ m.body.length →
     leAt m.body 0 1 = 3 →
     exec (.bulkAck p) s = .next (s.served p m fun i x u => match x.bulk with
         | none => u
         | some b => if b.write = true ∨ leAt m.body 1 1 ≠ b.elem ∨ leAt m.body 4 4 < b.acked ∨ b.sent < leAt m.body 4 4 then u else if b.total ≤ leAt m.body 4 4 then u.setBulk i none
           else (u.setBulk i (some { b with acked := leAt m.body 4 4, at_ := u.now })).bulkPump i (4 - ceilDiv (b.sent - leAt m.body 4 4) 1016))) ∧
  (∀ (p : Fin 6) (m : Msg) (s : State), let n := leAt m.body 8 4;
     s.fronts p m = true →
     m.svc = 8 →
     m.isReply = true →
     exec (.bulkAck p) s = .next (s.served p m fun i x u => match x.bulk with
         | none => u
         | some b => if m.body.length < 12 ∨ leAt m.body 4 1 ≠ 0x14 ∨ b.write = true ∨ n < b.acked ∨ b.sent < n then u else if b.total ≤ n then u.setBulk i none
           else (u.setBulk i (some { b with acked := n, sent := n, at_ := u.now })).bulkPump i 4)) ∧
  (∀ (p : Fin 6) (m : Msg) (s : State),
     s.fronts p m = true →
     m.isReply = false →
     m.svc = 7 ∨ m.svc = 8 →
     4 ≤ m.body.length →
     leAt m.body 0 1 = 2 →
     exec (.bulkAbort p) s = .next (s.served p m fun i x u => (u.setBulk i none).sessReply i m.svc m.seq m.udp (if x.bulk.isSome then 0 else 0x14) (if m.svc = 7 then leBytes 4 (match x.bulk with | some b => if b.write then b.acked else 0 | none => 0) else []))) ∧
  (∀ (j : Fin 16) (s : State),
     exec (.bulkTimeout j) s = .next (match (Store.find j.val s.sess).bind Sess.bulk with
       | none => s
       | some b => (s.advance (b.at_ + 2000000000)).setBulk j none)) ∧
  (∀ (p : Fin 6) (s : State),
     s.halted 4 = true ∨ s.upd.hand = true ∨ s.front p = none →
     exec (.mapMessage p) s = .next s ∧
     exec (.subscribeCreate p) s = .next s ∧
     exec (.subscribeDelete p) s = .next s ∧
     exec (.subscribeNotifications p) s = .next s ∧
     exec (.subscribeList p) s = .next s ∧
     exec (.notifyAck p) s = .next s ∧
     exec (.bulkWriteStart p) s = .next s ∧
     exec (.bulkWriteSegment p) s = .next s ∧
     exec (.bulkReadStart p) s = .next s ∧
     exec (.bulkAck p) s = .next s ∧
     exec (.bulkAbort p) s = .next s)

/-- Ethernet and CAN ports. A frame of legal length with a bad FCS is error 1. An accepted frame raises its event and goes on as ARP or IPv4 by its
type; others, and those of a disabled port, are ignored. An address request is sent every 60 s and after a failure of the third the address is unknown
with error 0x0C and nothing stays queued. A message sent leaves the queue, on CAN lowers the transmit counter by its frames, and is counted with its
event. Link loss is error 0x0B and loses the partner, as do LOSSTO milliseconds without a message. Enabling a port empties its queues but for what is
being sent and asks for the partner, or makes a CAN port fresh; disabling keeps only what is being sent, of a CAN message in several segments its
current frame. What is sent makes room for a bulk transfer, which goes on. Frames that are not extended FD data frames are ignored. One that is for
another node only lowers the error counter, from beyond 127 to a free value of 119 to 127; one from a stranger is dropped with 0x0D; one of the
partner raises its event and, as segment 0, begins a message, and as the expected segment continues it; any other drops with 7. A bus error adds 8 to
the transmit counter, or 1 or 8 to the receive counter, with error 1 for a CRC, and takes the port off the bus beyond 255; recovery under AUTOREC
makes it fresh. A reassembly that times out is dropped with 7. -/
def Obligations.FieldPorts : Prop :=
  (∀ (p : Fin 6) (f : List Byte) (s : State), let n := f.length - 4; let d := slice f 14 (n - 14); let u := s.raise (224 + 4 * p) f.length;
     isCan p = false →
     s.is R.FP_CFG_EN p = true →
     exec (.ethernetFrameReceived p f) s = .next (if 64 ≤ f.length ∧ f.length ≤ 1518 ∧ leAt f n 4 ≠ crc32 (f.take n) then s.portErr p 1
       else match s.frameType p f with
         | none => s
         | some t => if t = 0x0806 then u.arpIn p d else if t = 0x0800 then u.ipIn p (slice f 6 6) d else u)) ∧
  (∀ (p : Fin 6) (f : List Byte) (s : State),
     isCan p = true ∨ s.is R.FP_CFG_EN p = false →
     exec (.ethernetFrameReceived p f) s = .next s) ∧
  (∀ (p : Fin 6) (f : List Byte) (s : State),
     (beNat (slice f 12 2) = 0x0806 → exec (.arpRequestReceived p f) s = exec (.ethernetFrameReceived p f) s) ∧
     (beNat (slice f 12 2) ≠ 0x0806 → exec (.arpRequestReceived p f) s = .next s)) ∧
  (∀ (p : Fin 6) (f : List Byte) (s : State),
     (beNat (slice f 12 2) = 0x0800 ∧ leAt f 23 1 = 1 → exec (.icmpEchoRequest p f) s = exec (.ethernetFrameReceived p f) s) ∧
     (beNat (slice f 12 2) ≠ 0x0800 ∨ leAt f 23 1 ≠ 1 → exec (.icmpEchoRequest p f) s = .next s)) ∧
  (∀ (p : Fin 6) (s : State),
     exec (.arpRefresh p) s = .next (if isCan p = true ∨ s.is R.FP_CFG_EN p = false then s
       else if 3 ≤ (s.port p).tries then ((s.put R.FP_STAT_ARPOK 0 p).upPort p fun q => { q with tries := 0, dead := true, tx := [] }).portErr p 0x0C else s.arpAsk p)) ∧
  (∀ (p : Fin 6) (m : TxMsg) (s : State), let r := s.qRead (6 + p) (s.port p).tx.length ((s.port p).tx.findIdx TxMsg.busy) (16 + m.bytes.length);
     let l := if isCan p then r.canFrames p m.bytes else [r.udpFrame p m.udp m.bytes];
     let u := { r with ports := Store.put p.val { r.port p with tx := (r.port p).tx.filter fun x => !x.busy, out := l, ident := ((r.port p).ident + 1) % 65536 } r.ports };
     let v := if isCan p then (u.put R.FP_CANERR_TEC (u.get R.FP_CANERR_TEC p - l.length) p).canState p else u;
     (s.port p).tx.find? TxMsg.busy = some m →
     exec (.transmitDone p) s = .next ((if m.cut then r.cutDone p m else ((v.wrapUp R.FP_CNT0_TX p).raise (225 + 4 * p) 0).portGo p).bulkResume p)) ∧
  (∀ (p : Fin 6) (s : State),
     (s.port p).tx.find? TxMsg.busy = none →
     exec (.transmitDone p) s = .next (s.bulkResume p)) ∧
  (∀ (p : Fin 6) (up : Bool) (s : State), let u := s.put R.FP_STAT_LINK (b2n up) p;
     exec (.phyLinkPoll p up) s = .next (if isCan p = true ∨ s.domGone (20 + p) = true then s
       else if up then u.portGo p else (if s.is R.FP_STAT_LINK p then u.portErr p 0x0B else u).partnerLost p)) ∧
  (∀ (p : Fin 6) (s : State),
     exec (.partnerLost p) s = .next (if s.get R.FP_LOSSTO_MS p = 0 ∨ s.is R.FP_STAT_PLOST p = true then s else (s.advance ((s.port p).lastOk + s.get R.FP_LOSSTO_MS p * 1000000)).partnerLost p)) ∧
  (∀ (p : Fin 6) (s : State), let v := s.put R.FP_CFG_EN 1 p; let u := v.upPort p fun q => { q with rx := [], rxAt := [], tx := q.tx.filter TxMsg.busy, reasm := [], tries := 0, dead := false, lastOk := v.now };
     s.is R.FP_CFG_EN p = false →
     exec (.fpEnWrite p true) s = .next (if isCan p then ((((u.put R.FP_CANERR_TEC 0 p).put R.FP_CANERR_REC 0 p).put R.FP_STAT_ERRPASS 0 p).put R.FP_STAT_BUSOFF 0 p).put R.FP_STAT_LINK 1 p
       else (u.put R.FP_STAT_ARPOK 0 p).arpAsk p) ∧
     exec (.fpEnWrite p false) s = .next s) ∧
  (∀ (p : Fin 6) (s : State), let u := (s.put R.FP_CFG_EN 0 p).upPort p fun q => { q with rx := [], rxAt := [], reasm := [], tx := (q.tx.filter TxMsg.busy).map fun m => { m with cut := isCan p && decide (64 < m.bytes.length) } };
     s.is R.FP_CFG_EN p = true →
     exec (.fpEnWrite p false) s = .next (if isCan p then u.put R.FP_STAT_LINK 0 p else u) ∧
     exec (.fpEnWrite p true) s = .next s) ∧
  (∀ (p : Fin 6) (id : Nat) (ext fd : Bool) (d : List Byte) (s : State),
     isCan p = false ∨ s.is R.FP_CFG_EN p = false ∨ s.is R.FP_STAT_BUSOFF p = true ∨ ext = false ∨ fd = false →
     exec (.canFrameReceived p id ext fd d) s = .next s) ∧
  (∀ (p : Fin 6) (id : Nat) (d : List Byte) (s : State), let n := s.get R.FP_CANERR_REC p; let g := if 127 < n then s.free else (0, s);
     let u := (g.2.put R.FP_CANERR_REC (if 127 < n then 119 + g.1 % 9 else n - 1) p).canState p; let c := bits id 24 5; let i := bits id 3 5; let k := bits id 0 3;
     let v := u.raise (224 + 4 * p) d.length;
     isCan p = true →
     s.is R.FP_CFG_EN p = true →
     s.is R.FP_STAT_BUSOFF p = false →
     exec (.canFrameReceived p id true true d) s = .next (if bits id 8 8 ≠ s.get R.FP_OWN_ID p % 256 then u else if bits id 16 8 ≠ u.get R.FP_PARTNER_ID p % 256 then u.portDrop p 0x0D
       else match Store.find c (v.port p).reasm with
         | none => if i = 0 then v.segment p c k [] d 1 else v.portDrop p 7
         | some r => if i = 0 then ((v.reasmPut p c none).portDrop p 7).segment p c k [] d 1
           else if i = r.nxt ∧ k = r.low then v.segment p c k r.bytes d (i + 1)
           else (v.reasmPut p c none).portDrop p 7)) ∧
  (∀ (p : Fin 6) (cls : Nat) (s : State),
     exec (.canReassemblyTimeout p cls) s = .next (if (Store.find cls (s.port p).reasm).isSome then (s.reasmPut p cls none).portDrop p 7 else s)) ∧
  (∀ (p : Fin 6) (tx heavy crc : Bool) (s : State), let u := if crc = true ∧ tx = false then s.portErr p 1 else s;
     let off := (((s.put R.FP_CANERR_TEC 255 p).put R.FP_STAT_BUSOFF 1 p).put R.FP_STAT_LINK 0 p).upPort p fun q => { q with tx := q.tx.map fun m => { m with busy := false } };
     exec (.canBusError p tx heavy crc) s = .next (if isCan p = false ∨ s.is R.FP_CFG_EN p = false ∨ s.is R.FP_STAT_BUSOFF p = true then s
       else if tx = false then (u.bump R.FP_CANERR_REC p (if heavy then 8 else 1)).canState p
       else if s.get R.FP_CANERR_TEC p + 8 ≤ 255 then (s.put R.FP_CANERR_TEC (s.get R.FP_CANERR_TEC p + 8) p).canState p
       else (off.portErr p 0x0A).partnerLost p)) ∧
  (∀ (p : Fin 6) (s : State),
     exec (.canBusOffRecovery p) s = .next (if isCan p = true ∧ s.is R.FP_CFG_EN p = true ∧ s.is R.FP_STAT_BUSOFF p = true ∧ s.is R.FP_CFG_AUTOREC p = true
       then (((((s.put R.FP_CANERR_TEC 0 p).put R.FP_CANERR_REC 0 p).put R.FP_STAT_ERRPASS 0 p).put R.FP_STAT_BUSOFF 0 p).put R.FP_STAT_LINK 1 p).portGo p else s))

/-- The crypto accelerator. A KEYDATA write puts its word into the selected slot, if there is one, and advances WORD; KEYCLR zeroes the named slots; a
read of RNG consumes a word, which is free. A valid job enters SV's queue of 8, and stalls SV when it is full. An invalid one completes at once:
outside memory it only counts, at an unaligned address its status word says so, and one with a wrong form runs into its error. Commit jobs are served
before SV's, and the store that waited gets the freed entry; with no job nothing happens. -/
def Obligations.CryptoAccelerator : Prop :=
  (∀ (v : Word) (s : State), let k := s.get R.CRYPTO_KEYSEL_SLOT; let w := s.get R.CRYPTO_KEYSEL_WORD;
     exec (.cryptoKeydata v) s = .next ((if k < 24 then s.setKey k (patch (s.key k) (4 * w) (leBytes 4 v.toNat)) else s).put R.CRYPTO_KEYSEL_WORD (w + 1))) ∧
  (∀ (m k : Nat) (s : State),
     k < 24 →
     ∃ t : State, exec (.cryptoKeyclr m) s = .next t ∧ t.key k = (if bit m k = true ∧ k < 24 then List.replicate 32 0#8 else s.key k) ∧ t.flds = s.flds ∧ t.mem = s.mem) ∧
  (∀ (s : State),
     exec .cryptoRngRead s = .next { s with crypto := { s.crypto with rng := s.crypto.rng + 1 } }) ∧
  (∀ (a : Nat) (s : State), let w := { s with crypto := { s.crypto with wait := some a } };
     exec (.cryptoSubmit a) s = .next (if jobPlace a = false then s.jobDone
       else if a % 32 ≠ 0 then (s.jobWrite 5 (a / 32 * 32 + 16) (leBytes 4 0x11)).1.jobDone
       else if jobValid (leNat (s.mbs a 4)) = false then s.svJob a
       else if s.crypto.sv.length < 8 then { s with crypto := { s.crypto with sv := s.crypto.sv ++ [a] } }.qStore 14 32
       else w.upE 4 fun x => { x with stalled := true })) ∧
  (∀ (j : CmJob) (r : List CmJob) (s : State),
     s.crypto.cm = j :: r →
     exec .cryptoJobComplete s = .next ({ s.qRead 15 (r.length + 1) 0 j.bytes.length with crypto := { s.crypto with cm := r } }.mapJob j)) ∧
  (∀ (a : Nat) (r : List Nat) (s : State), let u := { s.qRead 14 (r.length + 1) 0 32 with crypto := { s.crypto with sv := r } }.svJob a;
     s.crypto.cm = [] →
     s.crypto.sv = a :: r →
     exec .cryptoJobComplete s = .next (match u.crypto.wait with
       | none => u
       | some b => ({ u with crypto := { u.crypto with sv := u.crypto.sv ++ [b], wait := none } }.qStore 14 32).upE 4 fun x => { x with stalled := false })) ∧
  (∀ (s : State),
     s.crypto.cm = [] →
     s.crypto.sv = [] →
     exec .cryptoJobComplete s = .next s)

/-- Edges and protection of the drive dies. The oldest command on its way reaches its die at the instant fixed for it, 80 ns after the decision. Phase
A ends its time after the start, in Phase B unless that is omitted; both times are those of the settings at the start of the edge. A plateau exit ends
Phase B with its duration in 10 ns, from 1 to 0xFE; a timeout ends it with 0xFF, its mark, a count and, on an enabled die, EV 146 + 4n. The clamp
engages on a die that is off and may clamp, unless its pins are released. Entering UVLO, of VEEG only where it is checked, clears CFGOK, turns the die
off softly, ends its Roll and an active short of its side, and puts the scope of an enabled die into Umbra; leaving it ends the condition. A lost
channel does the same at the die, and at the core marks CHOK of an enabled die. A transfer, outside UVLO and with a channel, sets CFGOK. A disabled
die is held off; one enabled in a powered domain in UVLO or without a channel takes its fault. A write of EN reaches the die 80 ns later; a domain
that is off refuses to enable. New settings are loaded at the next peak by the dies on the carrier, else at once. A desaturation of an enabled die
that is on, and past its blanking and filter time, sets its latch, counts, turns it off softly and raises its event; while the Roll of its comparator
runs it is only noted. FCLR works for GD7 outside UVLO only. A short of the side that BRMODE names is taken up in the dark, the dead time after the
last enabled die has become quiet, or refused with SHORTX. Where its condition does not hold an edge, a phase end, a clamp, a transfer and a short
change nothing. -/
def Obligations.DriveDies : Prop :=
  (∀ (n : Fin 8) (c : DieMsg) (t : Nat) (l : List (DieMsg × Nat)) (s : State), let u := (s.advanceReal t).upDie n fun d => { d with cmds := l };
     let off := u.upDie n fun d => { d with en := false }; let on := (u.upDie n fun d => { d with en := true }).uvloLevel n;
     (s.die n).cmds = (c, t) :: l →
     exec (.gateEdgeCommand n) s = .next (match c with
       | .edge e => if (u.dieEdge n e).is R.GD_STAT_ON n = true ∨ (u.dieEdge n e).get R.GD_STAT_PHASE n = 1 ∨ (u.dieEdge n e).get R.GD_STAT_PHASE n = 2 then u.dieEdge n e
           else (u.dieEdge n e).upDie n fun d => { d with quietAt := (u.dieEdge n e).time.real }
       | .enable false => (off.dieHold n).uvloLevel n
       | .enable true => if (s.die n).en = false ∧ (on.uvlo n = true ∨ on.is R.GD_STAT_CHOK n = false) then on.channelFault n else on)) ∧
  (∀ (n : Fin 8) (s : State),
     (s.die n).cmds = [] →
     exec (.gateEdgeCommand n) s = .next s) ∧
  (∀ (n : Fin 8) (t : Nat) (s : State), let d := s.die n; let b := d.start + 10 * d.runA; let u := s.advance t; let z := s.advanceReal (b + 10 * d.runB);
     let w := if d.edge == .on then R.GD_PLAT_ON else R.GD_PLAT_OFF;
     let x := (z.put w 0xFF n).diePhase n 3; let v := (x.put (if d.edge == .on then R.GD_STAT_PTON else R.GD_STAT_PTOFF) 1 n).bump R.GD_CNT_PTCNT n;
     exec (.phaseAEnd n) s = .next (if s.get R.GD_STAT_PHASE n = 1 then (s.advanceReal b).diePhase n (if d.runB = 0 then 3 else 2) else s) ∧
     exec (.plateauExit n t) s = .next (if s.get R.GD_STAT_PHASE n = 2 then (u.put w (min 0xFE (max 1 ((u.time.real - b) / 10))) n).diePhase n 3 else s) ∧
     exec (.plateauTimeout n) s = .next (if s.get R.GD_STAT_PHASE n = 2 then (if (s.die n).en then v.raise (146 + 4 * n) (b2n (d.edge == .on)) else v) else s)) ∧
  (∀ (n : Fin 8) (s : State),
     exec (.millerClampEngage n) s = .next (if s.is R.GD_STAT_ON n = false ∧ s.released n = false ∧ ((s.die n).use.getD 21 1 ≠ 0 ∨ s.uvlo n = true ∨ (s.die n).en = false)
       then s.put R.GD_STAT_CLAMP 1 n else s)) ∧
  (∀ (n : Fin 8) (v : Bool) (s : State), let u := (s.quietNow n).put (if v then R.GD_STAT_VDDGOK else R.GD_STAT_VEEGOK) 0 n;
     exec (.uvloEntry n v) s = .next (if v = true ∨ s.is R.GD_CTL_VEEGCHK n = true then (((((u.put R.GD_STAT_CFGOK 0 n).dieEdge n .soft).uvloLevel n).rollStop n 5).shortLost n).channelFault n else s)) ∧
  (∀ (n : Fin 8) (v : Bool) (s : State),
     exec (.uvloExit n v) s = .next ((s.put (if v then R.GD_STAT_VDDGOK else R.GD_STAT_VEEGOK) 1 n).uvloLevel n)) ∧
  (∀ (n : Fin 8) (s : State),
     exec (.dieChannelLoss n) s = .next (((((s.put R.GD_STAT_CHLOSTL 1 n).put R.GD_STAT_CFGOK 0 n).dieEdge n .soft).rollStop n 5).shortLost n |>.channelFault n) ∧
     exec (.driveChannelReturn n) s = .next ((s.put R.GD_STAT_CHOK 1 n).uvloLevel n) ∧
     exec (.coreChannelLoss n) s = .next (if (s.die n).en then ((((s.put R.GD_STAT_CHOK 0 n).put R.GD_STAT_CFGOK 0 n).uvloLevel n).rollStop n 5).channelFault n else s)) ∧
  (∀ (n : Fin 8) (s : State),
     exec (.dieConfigTransferComplete n) s = .next (if s.uvlo n = false ∧ s.is R.GD_STAT_CHOK n = true then (s.dieTransfer n).put R.GD_STAT_CFGOK 1 n else s)) ∧
  (∀ (n : Fin 8) (en : Bool) (s : State),
     exec (.gdrvEnWrite n en) s = .next (if en = true ∧ s.domOff (44 + n) = true then s
       else (s.put R.GD_CTL_EN (b2n en) n).upDie n fun d => { d with cmds := d.cmds ++ [(.enable en, s.time.real + 80)] })) ∧
  (∀ (n : Fin 8) (s : State),
     exec (.gdrvLoad n) s = .next (if s.is R.GDRV_PWM_CTL_RUN = true ∧ (n.val < 6 ∨ (n = 6 ∧ s.is R.DLNK_CTL_CHMODE = true) ∨ (n = 7 ∧ s.is R.GDRV_AUXCTL_MODE = true))
       then s.upDie n fun d => { d with load := true } else s.dieTransfer n)) ∧
  (∀ (n : Fin 8) (s : State),
     exec (.gdrvFclr n) s = .next (if n = 7 ∧ s.uvlo 7 = false then (s.put R.GD_STAT_DESATL 0 7).put R.GD_STAT_CHLOSTL 0 7 else s)) ∧
  (∀ (n : Fin 8) (s : State), let t := (((((s.put R.GD_STAT_DESATL 1 n).bump R.GD_CNT_DESCNT n).dieEdge n .soft).raise (144 + 4 * n) 0).shortLost n).channelFault n;
     let h := if s.is R.GD_STAT_ON n = true ∧ (s.die n).en = true ∧ (s.die n).start + 10 * ((s.die n).copy.getD 18 0 + (s.die n).copy.getD 20 0) ≤ s.time.real then t else s;
     exec (.desaturation n) s = .next (match s.dlnk.roll with
       | some r => if r.comp = n then { s with dlnk := { s.dlnk with roll := some { r with desat := true } } } else h
       | none => h)) ∧
  (∀ (s : State), let quiet := (((List.range 6).filter fun n => (s.die n).en).map fun n => (s.die n).quietAt).foldl max 0;
     exec .activeShort s = .next (if s.shortSide = [] ∨ s.dark 1 = false ∨ s.pwm.short = true ∨ (List.range 6).all s.dieQuiet = false then s
       else if s.shortSide.any s.pwm.faulted.contains then s.put R.GDRV_STAT_SHORTX 1
       else s.shortSide.foldl (fun t n => t.dieEdge n .on) ({ s with pwm := { s.pwm with short := true } }.advanceReal (quiet + 10 * s.pwm.dt))))

/-- Carrier period, bindings, duties, carrier and chopper. A carrier period is accepted in Hold if it is even, from 1 000 to 200 000 and divides the
turn period, else CPERR and nothing else. DT takes 5 to 500 and keeps its field otherwise. Bindings are refused in Run with BINDREF. A write to a
bound duty or enable sets BINDREF only; a duty above 100 % sets DUTYSAT. A leg takes the reference of its instant; after the dead time the switch that
was to turn on gets its command, unless its on time would be too short. A valley starts a period: the cap counts from 0, and a cap of 0 is reached at
once. A reached cap holds the chopper off until then. A peak takes up the period, dead time and mode written before it, loads the settings of dies
that wait, the compare values and references; with the overcurrent latches cleared it ends their hold on the gate outputs. Without a carrier peaks,
valleys and caps do nothing. Comparator outputs follow the voltages at their inputs against their thresholds, ON against THON or AO4's code as ONSRC
says, take effect together, with hysteresis and trip; the comparator under Roll is held until its Roll ends. -/
def Obligations.PwmAndChopper : Prop :=
  (∀ (v : Word) (s : State), let x := v.toNat % 2 ^ 18; let u := s.put R.GDRV_CP_CP x;
     exec (.gdrvCpWrite v) s = .next (if s.inRun = false ∧ x % 2 = 0 ∧ 1000 ≤ x ∧ x ≤ 200000 ∧ s.period % x = 0
       then (if s.is R.GDRV_PWM_CTL_RUN then { u with pwm := { s.pwm with cpNext := some x } } else u.put R.GDRV_CPACT_CP x) else s.put R.GDRV_STAT_CPERR 1)) ∧
  (∀ (v : Word) (s : State),
     exec (.gdrvDtWrite v) s = .next (if 5 ≤ bits v.toNat 0 9 ∧ bits v.toNat 0 9 ≤ 500 then (s.put R.GDRV_DT_MINPW (bits v.toNat 16 8)).put R.GDRV_DT_DT (bits v.toNat 0 9) else s.put R.GDRV_DT_MINPW (bits v.toNat 16 8))) ∧
  (∀ (k : Fin 5) (v : Word) (s : State),
     (s.inRun = true → exec (.gdrvBindWrite k v) s = .next (s.put R.GDRV_STAT_BINDREF 1)) ∧
     (s.inRun = false → k = 3 → exec (.gdrvBindWrite k v) s = .next ((s.put R.GDRV_BIND3_BIT v.toNat).put R.GDRV_BIND_EN (bits v.toNat 15 1) 3)) ∧
     (s.inRun = false → k ≠ 3 → exec (.gdrvBindWrite k v) s = .next ((s.put R.GDRV_BIND_WORD v.toNat k).put R.GDRV_BIND_EN (bits v.toNat 15 1) k))) ∧
  (∀ (k : Fin 4) (v : Word) (s : State),
     s.is R.GDRV_BIND_EN (if k = 3 then 4 else k) = false →
     exec (.gdrvDutyWrite k v) s = .next ((if 0x10000 < v.toNat % 2 ^ 17 then s.put R.GDRV_STAT_DUTYSAT 1 else s).put (dutyField k) v.toNat)) ∧
  (∀ (k : Fin 4) (v : Word) (s : State),
     s.is R.GDRV_BIND_EN (if k = 3 then 4 else k) = true →
     exec (.gdrvDutyWrite k v) s = .next (s.put R.GDRV_STAT_BINDREF 1)) ∧
  (∀ (en : Bool) (s : State),
     exec (.svbenWrite en) s = .next (if s.is R.GDRV_BIND_EN 3 then s.put R.GDRV_STAT_BINDREF 1 else (s.put R.GDRV_PWM_CTL_SVBEN (b2n en)).benFollow)) ∧
  (∀ (v : Word) (s : State),
     exec (.dlnkChbindWrite v) s = .next (if s.inRun then s.put R.DLNK_STAT_BINDREF 1 else (s.put R.DLNK_CHBIND_WORD v.toNat).put R.DLNK_CHBIND_EN (bits v.toNat 15 1))) ∧
  (∀ (l : Fin 5) (t : Nat) (s : State),
     exec (.legReferenceChange l t) s = .next ((s.advance t).setRef l ((s.advance t).refNow l (s.advance t).now))) ∧
  (∀ (l : Fin 3) (d t : Nat) (s : State), let u := s.advanceReal t; let v := { u with pwm := { u.pwm with dead := Store.del l.val u.pwm.dead } };
     Store.find l.val s.pwm.dead = some (d, t) →
     exec (.deadTimeExpiry l) s = .next (if v.longEnough l = false then { v with pwm := { v.pwm with skip := v.pwm.skip ++ [l.val] } }
       else if u.released d then v else v.upDie d fun x => { x with cmds := x.cmds ++ [(.edge .on, u.time.real + 80)] })) ∧
  (∀ (l : Fin 3) (s : State),
     Store.find l.val s.pwm.dead = none →
     exec (.deadTimeExpiry l) s = .next s) ∧
  (∀ (s : State), let u := (s.advance (s.nextPos 0)).chopCount;
     s.is R.GDRV_PWM_CTL_RUN = true →
     exec .carrierValley s = .next (({ u with dlnk := { u.dlnk with capNs := 0 } }.put R.DLNK_STAT_CAPPED (b2n (u.chopCap == some 0))).chop)) ∧
  (∀ (s : State),
     exec .chopperCapReached s = .next (match s.chopCap with
       | none => s
       | some c => if s.is R.GDRV_PWM_CTL_RUN = false then s else
           (fun u : State => if c ≤ u.dlnk.capNs then (u.put R.DLNK_STAT_CAPPED 1).chop else u)
             (match s.dlnk.onSince with | some t => (s.advanceReal (t + (c - s.dlnk.capNs))).chopCount | none => s))) ∧
  (∀ (s : State),
     s.is R.GDRV_PWM_CTL_RUN = false →
     exec .carrierValley s = .next s ∧
     exec .carrierPeak s = .next s) ∧
  (∀ (s : State), let x := s.advance (s.nextPos (s.get R.GDRV_CPACT_CP / 2));
     let a := match x.pwm.cpNext with | some c => { x with pwm := { x.pwm with cpNext := none } }.put R.GDRV_CPACT_CP c | none => x;
     let w := { a with pwm := { a.pwm with dt := a.get R.GDRV_DT_DT, minpw := a.get R.GDRV_DT_MINPW, chmode := a.get R.DLNK_CTL_CHMODE } }.loadCompare;
     let l := (List.range 8).foldl (fun t n => t.peakLoad n) w; let u := (List.range 5).foldl (fun t k => t.setRef k (t.refNow k t.now)) l;
     let z := fun (v : State) => if v.get R.SADC_OCSTAT_LATCH = 0 then { v with pwm := { v.pwm with ocHold := false } } else v;
     let f := fun (v : State) => (if (z v).is R.GDRV_PWM_CTL_BEN || !(z v).benAsked || (z v).get R.SADC_OCSTAT_LATCH != 0 || (z v).is R.LIFE_STAT_BLOCK then z v else (z v).benFollow).follow.chop;
     s.is R.GDRV_PWM_CTL_RUN = true →
     exec .carrierPeak s = .next (if u.is R.GDRV_AUXCTL_MODE && !u.dark 0 && u.legRef 3 && !u.is R.GD_STAT_ON 7 && !u.edgeSent 7 then f (u.dieCmd 7 .on) else f u)) ∧
  (∀ (von voff vtrip : Nat) (s : State), let k := if s.is R.DLNK_CTL_ONSRC then s.aoCodeAt 4 (s.time.real - 50) else s.get R.DLNK_THON_K;
     let cmp := fun (was : Bool) (k v : Nat) => decide (1000 * k < v) || (was && decide (1000 * k < v + 16384));
     let on := cmp (s.is R.DLNK_STAT_CMPON) k von; let off := cmp (s.is R.DLNK_STAT_CMPOFF) (s.get R.DLNK_THOFF_K) voff; let trip := cmp (s.is R.DLNK_STAT_CMPTRIP) (s.get R.DLNK_THTRIP_K) vtrip;
     let act := fun (s : State) (on off trip : Bool) => (fun u : State => if trip = true ∧ s.is R.DLNK_STAT_CMPTRIP = false ∧ u.is R.DLNK_CTL_TRIPEN = true then ((((u.put R.DLNK_STAT_TRIPL 1).bump R.DLNK_CNT_TRIPS).raise 177 0).umbraEnter 1 4).chop else u.chop)
       (((s.put R.DLNK_STAT_CMPON (b2n on)).put R.DLNK_STAT_CMPOFF (b2n off)).put R.DLNK_STAT_CMPTRIP (b2n trip)).hysteresis;
     exec (.dlnkComparatorChange von voff vtrip) s = .next (if s.pwr.linkLost = true ∨ s.phase ≠ .up then s else match s.dlnk.roll with
       | none => act s on off trip
       | some r => let c := r.comp; act (if 0x10 ≤ c ∧ c ≤ 0x12 then { s with dlnk := { s.dlnk with roll := some { r with cmp := some (on, off, trip) } } } else s)
           (if c = 0x10 then s.is R.DLNK_STAT_CMPON else on) (if c = 0x11 then s.is R.DLNK_STAT_CMPOFF else off) (if c = 0x12 then s.is R.DLNK_STAT_CMPTRIP else trip)))

/-- Comparator Rolls. A refused Roll sets COMP and the status and raises EV 182 with both; an accepted one sets BUSY and COMP, and one of ON (0x10)
sets the chopper by its hysteresis at once. At 1, 2 and 3 µs the output must be 0, 1 and 0; the first check to fail gives the status, and the third
ends the Roll, after which what waited acts. Without a Roll a check does nothing. -/
def Obligations.ComparatorRolls : Prop :=
  (∀ (c : Fin 32) (st : Nat) (s : State),
     s.rollRefused c = some st →
     exec (.rollRequest c) s = .next (((s.put R.DLNK_ROLLST_COMP c).put R.DLNK_ROLLST_STATUS st).raise 182 (c + 256 * st))) ∧
  (∀ (c : Fin 32) (s : State), let u := { (s.put R.DLNK_ROLLST_BUSY 1).put R.DLNK_ROLLST_COMP c with dlnk := { s.dlnk with roll := some { comp := c, step := 1, start := s.time.real, status := 0, desat := false, cmp := none, oc := none } } };
     s.rollRefused c = none →
     exec (.rollRequest c) s = .next (if c = 0x10 then u.hysteresis.chop else u)) ∧
  (∀ (out : Bool) (r : RollSt) (s : State), let u := s.advanceReal (r.start + 1000 * r.step); let st := if r.status = 0 ∧ out ≠ decide (r.step = 2) then r.step else r.status;
     s.dlnk.roll = some r →
     exec (.rollCheckpoint out) s = .next (if r.step < 3 then { u with dlnk := { u.dlnk with roll := some { r with step := r.step + 1, status := st } } }
       else (u.rollEnd r.comp st).rollDeferred r.comp r)) ∧
  (∀ (out : Bool) (s : State),
     s.dlnk.roll = none →
     exec (.rollCheckpoint out) s = .next s)

/-- Reads and write-backs of the brick memory. A read or a write-back starts with BUSY unless one runs, the link is off or the unit's pins are
released; a write-back also needs a valid identity and a life record. A link error is counted, ends the transfer for 10 ms the first time, and for
good with ERR the second. A read without error finds the memory present and selects its record. A write-back that meets another brick counts as a swap
and reads it. One without error writes the other life copy with the next counter. The write-cycle error and two bad copies set WBERR and warn. The
interval starts a write-back at its time. The completion of a transfer that does not run changes nothing. -/
def Obligations.BrickTransfers : Prop :=
  (∀ (s : State), let f := s.is R.BRICK_CTL_EN = true ∧ s.released 0 = false ∧ s.brick.xfer = 0;
     exec .brickRead s = .next (if f then s.xferStart 1 else s) ∧
     exec .brickWb s = .next (if f ∧ s.is R.BRICK_STAT_IDVALID = true ∧ s.is R.LIFE_STAT_NOREC = false then s.xferStart 2 else s) ∧
     exec .brickTransferRetry s = .next (if s.brick.waitRetry then s.xferStart s.brick.xfer else s) ∧
     exec .writeBackInterval s = exec .brickWb (s.advance (s.brick.wbAt + s.get R.LIFE_CTL_WBINT * 1000000000))) ∧
  (∀ (err : Fin 4) (d : List Byte) (s : State), let f := s.bump R.BRICK_ERRCNT_LINK; let u := if err = 1 then f.put R.BRICK_STAT_PRESENT 0 else f;
     let n := { u with brick := { u.brick with failed := true, waitRetry := true } }.put R.BRICK_STAT_BUSY 0; let x := u.xferEnd.put R.BRICK_STAT_ERR err;
     s.brick.xfer = 1 →
     s.brick.waitRetry = false →
     exec (.brickReadComplete err d) s = .next (if err = 0 then (s.xferEnd.put R.BRICK_STAT_PRESENT 1).select d
       else if s.brick.failed then { x with brick := { x.brick with frameDue := true } } else n)) ∧
  (∀ (err : Fin 4) (d : List Byte) (s : State),
     s.brick.xfer ≠ 1 ∨ s.brick.waitRetry = true →
     exec (.brickReadComplete err d) s = .next s) ∧
  (∀ (err : Fin 8) (id : List Byte) (bad : Fin 3) (s : State), let e := err.val % 4; let f := s.bump R.BRICK_ERRCNT_LINK; let u := if e = 1 then f.put R.BRICK_STAT_PRESENT 0 else f;
     let n := { u with brick := { u.brick with failed := true, waitRetry := true } }.put R.BRICK_STAT_BUSY 0; let x := (u.xferEnd.put R.BRICK_STAT_ERR e).wbEnd.put R.LIFE_STAT_WBERR 1;
     let g := fun (u : State) (k : Nat) => ((u.wbEnd.put R.BRICK_STAT_ERR k).put R.LIFE_STAT_WBERR 1).warn 7 k;
     let p := (s.put R.BRICK_STAT_PRESENT 1).bump R.BRICK_ERRCNT_VERIFY 0 (min bad 2); let c := if p.is R.BRICK_STAT_LIFEVALID then 1 - p.get R.BRICK_STAT_COPY else 1; let k := p.get R.BRICK_WCNT_N + 1;
     let w := (((p.free.2.brickPut (0x100 + 0x60 * c) (p.free.2.copyImage k p.free.1)).put R.BRICK_STAT_COPY c).put R.BRICK_WCNT_N k).put R.BRICK_STAT_LIFEVALID 1;
     s.brick.xfer = 2 →
     s.brick.waitRetry = false →
     exec (.writeBackComplete err id bad) s = .next (if err = 7 then g s 7
       else if err ≠ 0 then (if s.brick.failed then x else n)
       else if id ≠ s.serial ++ leBytes 4 (s.get R.BRICK_IDCRC_C) then s.wbEnd.swapOut.xferStart 1
       else if 2 ≤ bad then g p 6
       else { w with brick := { w.brick with wbs := w.brick.wbs + 1, dsOld := w.brick.ds } }.wbEnd)) ∧
  (∀ (err : Fin 8) (id : List Byte) (bad : Fin 3) (s : State),
     s.brick.xfer ≠ 2 ∨ s.brick.waitRetry = true →
     exec (.writeBackComplete err id bad) s = .next s)

/-- Sense converters and overcurrent comparators. At a window end with the die link up an enabled channel delivers the word of its sample: number,
reason and data (the voltage times the gain in steps of 1.25 V / 2^23) less the offset, limited; a sample to be marked invalid takes the reason of the
change; then the written settings take effect. At another instant only time passes. Legal settings are taken and others keep their field; PH is taken
below OSR only; clearing FIFOEN empties the FIFO. IMG is written in Hold, else CFGERR. A pop reads the oldest word of the FIFO through ECC and removes
it. The output of an active comparator follows the voltage against its threshold with 10 mV of hysteresis; one that rises raises its event and trips
where TRIPEN is 1 and the pins are driven; under its Roll it waits. Its latch clears only while the output is 0. -/
def Obligations.SenseConverters : Prop :=
  (∀ (n : Fin 16) (t : Nat) (vin : Int) (un : Bool) (s : State), let u := s.advance t; let c := u.adcCh n; let x := rawOf c.mux c.gain vin - toSigned 24 (u.get R.SADC_CH_OFS_OFS n);
     let r := (if c.bad ≠ 0 then c.why else if x < -8388607 ∨ 8388607 < x then 4 else 0);
     let w := if c.en then (u.upAdc n fun a => { a with bad := a.bad - 1 }).adcDeliver n (2 ^ 31 * b2n (r == 0) + 2 ^ 28 * r + 2 ^ 24 * n + ofSigned 24 (clampData x)) (t - 150 * c.osr) t else u;
     exec (.adcWindowEnd n t vin un) s = .next (if s.phase ≠ .up ∨ s.pwr.linkLost = true then s
       else if c.endsAt t = false then u
       else (if un = true ∧ (w.adcCh n).en = true then w.upAdc n fun c => c.mark 3 3 else w).adcChange n)) ∧
  (∀ (n : Fin 16) (v : Word) (s : State), let x := v.toNat; let a := s.put R.SADC_CH_CFG_EN (bits x 0 1) n;
     let b := if bits x 1 2 = 3 then a else a.put R.SADC_CH_CFG_MUX (bits x 1 2) n; let c := (if 4 < bits x 4 3 then b else b.put R.SADC_CH_CFG_GAIN (bits x 4 3) n).put R.SADC_CH_CFG_FIFOEN (bits x 8 1) n;
     let u := if 16 ≤ bits x 16 11 ∧ bits x 16 11 ≤ 1024 then c.put R.SADC_CH_CFG_OSR (bits x 16 11) n else c;
     exec (.sadcCfgWrite n 0 v) s = .next (if bit x 8 then u else (u.upAdc n fun c => { c with fifo := [], head := (c.head + c.fifo.length) % 32, dropped := false }).put R.SADC_FSTAT_FILL 0 n) ∧
     exec (.sadcCfgWrite n 1 v) s = .next (if bits x 0 10 < s.get R.SADC_CH_CFG_OSR n then s.put R.SADC_CH_PH_PH x n else s) ∧
     exec (.sadcCfgWrite n 2 v) s = .next (s.put R.SADC_CH_OFS_OFS x n)) ∧
  (∀ (v : Word) (s : State), let u := s.put R.SADC_IMG_EN (bits v.toNat 0 1);
     exec (.sadcImgWrite v) s = .next (if s.inRun then s.put R.SADC_STAT_CFGERR 1 else if bits v.toNat 4 4 = 0 then u.put R.SADC_IMG_BASE (bits v.toNat 4 12) else u)) ∧
  (∀ (n : Fin 16) (s : State), let r := if (s.adcCh n).fifo = [] then s else s.bufRead (bufAdc n (s.adcCh n).head) 4; let u := r.upAdc n fun c => { c with fifo := c.fifo.drop 1, head := (c.head + min 1 c.fifo.length) % 32 };
     exec (.sadcFifoPop n) s = .next (u.put R.SADC_FSTAT_FILL (u.adcCh n).fifo.length n)) ∧
  (∀ (k : Fin 3) (v : Nat) (s : State), let now := decide (1000 * s.get R.SADC_OC_THACT k < v) || (bit (s.get R.SADC_OCSTAT_CMP) k && decide (1000 * s.get R.SADC_OC_THACT k < v + 32768));
     let w := s.putBit R.SADC_OCSTAT_CMP k now; let u := w.raise (192 + k) 0;
     let a := if s.is R.SADC_OC_EN k = false then s else if now = false ∨ bit (s.get R.SADC_OCSTAT_CMP) k = true then w
       else if u.is R.SADC_OCCTL_TRIPEN = true ∧ u.released 0 = false then (({ u with pwm := { u.pwm with ocHold := true } }).putBit R.SADC_OCSTAT_LATCH k true).setBen false else u;
     exec (.overcurrentComparatorChange k v) s = .next (if s.phase ≠ .up ∨ s.pwr.linkLost = true then s else match s.dlnk.roll with
       | some r => if r.comp = 0x18 + k then { s with dlnk := { s.dlnk with roll := some { r with oc := some v } } } else a
       | none => a)) ∧
  (∀ (m : Nat) (s : State),
     exec (.ocLatchClear m) s = .next (s.put R.SADC_OCSTAT_LATCH (s.get R.SADC_OCSTAT_LATCH &&& (7 - (m % 8 &&& (7 - s.get R.SADC_OCSTAT_CMP % 8))))))

/-- Analogue outputs and the waveform engine. A source that only Hold accepts is refused in Run with CFGERR. CODE is requested of the converter when
SV is the source, else BINDREF is set. A waiting request is latched at its instant. ARM is refused with its error and EV 216, or arms the channel, and
plays at once with TRIG 0; it is accepted exactly with a legal buffer, divider, trigger and source, on a channel of the engine that is neither at
fallback nor armed or playing. STOP makes a channel idle and drops a sample that waits. A sample of a playing channel comes at its time from the
waveform RAM, is requested, sets POS and ends the pass after LEN samples; an uncorrectable one stops the channel with error 6. -/
def Obligations.AnalogOutputs : Prop :=
  (∀ (n : Fin 8) (v : Word) (s : State), let c := if n < 4 then v.toNat % 65536 else v.toNat % 4096; let u := s.put R.AOUT_CH_CODE_C c n;
     exec (.aoutSrcWrite n v) s = .next (if s.srcRefused n (bits v.toNat 0 2) (bits v.toNat 16 12) then s.put R.AOUT_STAT_CFGERR 1
       else ((s.put R.AOUT_CH_CFG_SRC (bits v.toNat 0 2) n).put R.AOUT_CH_CFG_WORD (bits v.toNat 16 12) n).aoRefresh n) ∧
     exec (.aoutCodeWrite n v) s = .next (if s.get R.AOUT_CH_CFG_SRC n = 2 then (u.aoFree n).aoRequest n c u.time.real else u.put R.AOUT_STAT_BINDREF 1)) ∧
  (∀ (n : Fin 8) (c : Nat) (s : State), let u := s.advanceReal (s.aoSt n).due;
     (s.aoSt n).wait = some c →
     exec (.dacLatch n) s = .next ((u.aoLoad n c u.time.real).upAo n fun a => { a with last := some u.time.real, wait := none })) ∧
  (∀ (n : Fin 8) (s : State),
     (s.aoSt n).wait = none →
     exec (.dacLatch n) s = .next s) ∧
  (∀ (k : Fin 8) (e : Nat) (s : State),
     s.armErr k = some e →
     exec (.waveArm k) s = .next ((s.put R.WAVE_CH_STAT_ERR e k).raise 216 k)) ∧
  (∀ (k : Fin 8) (s : State), let u := (s.put R.WAVE_CH_STAT_STATE 1 k).upAo k fun a => { a with armed := true };
     s.armErr k = none →
     exec (.waveArm k) s = .next (if s.get R.WAVE_CH_CTL_TRIG k = 0 then u.waveTrigger k else u)) ∧
  (∀ (k : Fin 8) (s : State),
     s.armErr k = none ↔ 0 < s.get R.WAVE_CH_LEN_L k ∧ s.get R.WAVE_CH_START_S k + s.get R.WAVE_CH_LEN_L k ≤ 32768 ∧ (if k < 4 then 50 else 200) ≤ s.get R.WAVE_CH_DIV_D k
       ∧ s.get R.WAVE_CH_CTL_TRIG k ≠ 3 ∧ evReserved (s.get R.WAVE_CH_CTL_EVSRC k) = false ∧ s.get R.AOUT_CH_CFG_SRC k = 3 ∧ s.aoFallback k = false
       ∧ s.get R.WAVE_CH_STAT_STATE k ≠ 1 ∧ s.get R.WAVE_CH_STAT_STATE k ≠ 2) ∧
  (∀ (k : Fin 8) (s : State), let u := s.put R.WAVE_CH_STAT_STATE 0 k;
     exec (.waveStop k) s = .next (if s.get R.AOUT_CH_CFG_SRC k = 3 then u.upAo k fun a => { a with wait := none } else u)) ∧
  (∀ (k : Fin 8) (s : State), let w := s.wv k; let u := s.advance (w.t0 + 300 + (w.p * s.get R.WAVE_CH_LEN_L k + w.j) * s.get R.WAVE_CH_DIV_D k * 10); let i := (u.get R.WAVE_CH_START_S k + (u.wv k).j) % 32768; let e := u.eccRead 10 0 (0x06000000 + 2 * i) 2;
     let r := match (u.wv k).pre with | some x => (u.setWv k { u.wv k with pre := none }, x.1, x.2) | none => (e.1, if e.2.isSome then [0#8, 0#8] else e.1.mbs (0x06000000 + 2 * i) 2, if e.2.isSome then 3 else 0);
     let v := if r.1.get R.AOUT_CH_CFG_SRC k = 3 then (if (r.1.aoSt k).armed then r.1.aoFree k else r.1).aoRequest k (aoCode k (leNat r.2.1)) r.1.time.real else r.1;
     exec (.waveSample k) s = .next (if s.get R.WAVE_CH_STAT_STATE k ≠ 2 then s
       else if r.2.2 ≠ 0 then ((r.1.waveStop k).put R.WAVE_CH_STAT_ERR 6 k).raise 216 k
       else (v.put R.WAVE_CH_STAT_POS i k).wavePass k))

/-- Digital inputs, outputs and the walk test. Inputs are sampled each microsecond while the die is powered, at the old levels until they change and
the new ones from then (log entry 191): an input counts the samples that differ from its state, from 0 after one that agrees, and at DBn.US of them
flips the state, counts, and raises the event of a selected edge with the new level at that microsecond. The type register holds what is written, and
inputs without active detection are no longer broken. A change of a wire is taken for active detection only and shows in the fault bit. The binding is
written in Hold only, else CFGERR, and keeps a reserved BYTE. A source is written in Hold only. DO_SV is written whole; a changed bit with another
source sets BINDREF, and outputs with that source leave their fallback. An overload latches an output that conducts; a shutdown latches unless the
pins are released or the domain is gone. Without power none of these has an effect. CLR, and AUTOCLR each time its seconds have passed, clears the
latches but those of hot switches, not during a walk nor while the pins are released. The undervoltage condition shows in UV and EV 129. A walk is
refused with WALKERR or runs its steps in order, records the fault bit of each, and ends as done, with the clear of CLR, or aborted, with no latch
cleared and no broken bit left; without a walk the end of a step is nothing. -/
def Obligations.DigitalFieldIo : Prop :=
  (∀ (a t : Nat) (raw : Word) (s : State), let z := fun t : State => if s.phase = .up ∨ s.phase = .starting then t else s; let n := t / 1000 - s.dio.seen / 1000; let k := min ((a - 1) / 1000) (t / 1000) - s.dio.seen / 1000; let u := s.advance t;
     let f := fun (l k : Nat) (s : State) => if k = 0 then s else (State.diRun l 33 k s).put R.DIO_DI_RAW_S l;
     exec (.diDebouncedChange a t raw) s = .next (z (if s.pwr.linkLost = true ∨ s.domGone 33 = true then { u with dio := { u.dio with seen := t / 1000 * 1000 } }
       else (f raw.toNat (n - k) (f (s.get R.DIO_DI_RAW_S) k s)).advance t))) ∧
  (∀ (raw f k : Nat) (s : State),
     ((List.range 32).all fun n => match s.diIn raw n with | some d => decide (k < d) | none => true) = true →
     State.diRun raw (f + 1) k s = s.diSamples raw k) ∧
  (∀ (raw f k n : Nat) (s : State), let d := max 1 (s.get R.DIO_DB_US n - s.dio.cnt.getD n 0); let u := s.diSamples raw d; let w := u.advance u.dio.seen; let v := !bit (w.get R.DIO_DI_STATE_S) n;
     let x := ({ w with dio := { w.dio with cnt := Store.del n w.dio.cnt } }.putBit R.DIO_DI_STATE_S n v).diCount n;
     n < 32 →
     bit raw n ≠ bit (s.get R.DIO_DI_STATE_S) n →
     ((List.range 32).all fun m => m == n || bit raw m == bit (s.get R.DIO_DI_STATE_S) m) = true →
     d ≤ k →
     State.diRun raw (f + 1) k s = State.diRun raw f (k - d) (if bit (x.diEdge n) (if v then 0 else 1) then x.raise (96 + n) (b2n v) else x)) ∧
  (∀ (raw k n : Nat) (s : State),
     n < 32 →
     (s.diSamples raw k).dio.cnt.getD n 0 = if bit raw n = bit (s.get R.DIO_DI_STATE_S) n then 0 else s.dio.cnt.getD n 0 + k) ∧
  (∀ (v : Word) (s : State), let z := fun t : State => if s.phase = .up ∨ s.phase = .starting then t else s; let u := s.put R.DIO_DI_TYPE_T v.toNat; let w := s.put R.DIO_IBIND_EN (bits v.toNat 0 1);
     exec (.diTypeWrite v) s = .next (z { u with dio := { u.dio with broken := u.dio.broken &&& u.wbActive } }.dioFault) ∧
     exec (.dioIbindWrite v) s = .next (z (if s.inRun then s.put R.DIO_STAT_CFGERR 1 else if bits v.toNat 16 2 = 0 then w.put R.DIO_IBIND_BYTE (bits v.toNat 16 11) else w))) ∧
  (∀ (n : Fin 32) (b : Bool) (s : State), let z := fun t : State => if s.phase = .up ∨ s.phase = .starting then t else s;
     exec (.wireBreakChange n b) s = .next (z (if bit s.wbActive n = true ∧ s.domGone 33 = false then { s with dio := { s.dio with broken := setBit s.dio.broken n b } }.dioFault else s))) ∧
  (∀ (k : Fin 16) (v : Word) (s : State), let z := fun t : State => if s.phase = .up ∨ s.phase = .starting then t else s; let b := s.put R.DIO_DO_CFG_BIT (bits v.toNat 0 14) k;
     exec (.doSourceWrite k v) s = .next (z (if s.inRun then s.put R.DIO_STAT_CFGERR 1 else (if bits v.toNat 16 2 = 3 then b else b.put R.DIO_DO_CFG_SRC (bits v.toNat 16 2) k).doRefresh)) ∧
     exec (.doOverload k) s = .next (z (if s.doPin k = true ∧ s.domGone 34 = false then { s with dio := { s.dio with ovl := setBit s.dio.ovl k true } }.dioFault else s)) ∧
     exec (.doThermalShutdown k) s = .next (z (if s.pinsReleased = false ∧ s.domGone 34 = false then { s with dio := { s.dio with thm := setBit s.dio.thm k true } }.dioFault else s))) ∧
  (∀ (v : Word) (s : State), let z := fun t : State => if s.phase = .up ∨ s.phase = .starting then t else s; let w := s.put R.DIO_DO_SV_L v.toNat; let u := if (s.get R.DIO_DO_SV_L ^^^ (v.toNat % 65536)) &&& (65535 - s.svOutputs) = 0 then w else w.put R.DIO_STAT_BINDREF 1;
     exec (.doSvWrite v) s = .next (z ({ u with dio := { u.dio with hold := u.dio.hold &&& (65535 - s.svOutputs) } }.doRefresh))) ∧
  (∀ (hot : Nat) (s : State), let z := fun t : State => if s.phase = .up ∨ s.phase = .starting then t else s; let c := fun t : State => if t.dio.walk = [] ∧ t.pinsReleased = false then { t with dio := { t.dio with ovl := 0, thm := t.dio.thm &&& hot } }.dioFault else t;
     let u := c (s.advance (s.dio.clrAt + s.get R.DIO_CTL_AUTOCLR * 1000000000));
     exec (.dioClr hot) s = .next (z (c s)) ∧
     exec (.dioAutoclr hot) s = .next (z (if s.get R.DIO_CTL_AUTOCLR = 0 then s else { u with dio := { u.dio with clrAt := u.now } }))) ∧
  (∀ (v : Bool) (s : State), let w := { s with dio := { s.dio with walk := [] } }.put R.DIO_WALK_STATE 3;
     exec (.vfldUndervoltage v) s = .next (if s.domGone 34 then s else ((s.put R.DIO_STAT_UV (b2n v)).level 129 v 0).dioFault) ∧
     exec (.vfldCutoff v) s = .next { s with dio := { s.dio with cutoff := v } } ∧
     exec .walkAbort s = .next (if s.dio.walk = [] then s else w.doRefresh.wbForget)) ∧
  (∀ (hot : Nat) (s : State), let w := { s with dio := { s.dio with walk := WalkStep.base :: ((setBits 16 (s.get R.DIO_WALK_OMASK_M)).map WalkStep.out ++ (setBits 32 (s.get R.DIO_WALK_IMASK_M)).map WalkStep.inp) } };
     exec (.walkGo hot) s = .next (if ¬ (s.phase = .up ∨ s.phase = .starting) then s else if s.inRun = true ∨ s.pinsReleased = true ∨ s.dio.walk ≠ [] ∨ s.get R.DIO_WALK_DWELL = 0 ∨ s.get R.DIO_WALK_IMASK_M &&& (2 ^ 32 - 1 - s.get R.DIO_DI_TYPE_T) ≠ 0
       then s.put R.DIO_STAT_WALKERR 1 else (w.put R.DIO_WALK_STATE 1).walkStart hot)) ∧
  (∀ (hot : Nat) (w : WalkStep) (r : List WalkStep) (s : State), let long := match w with | .inp _ => 60 | _ => 0; let u := s.advance (s.dio.walkAt + (s.get R.DIO_WALK_DWELL + long) * 1000000); let f := u.is R.DIO_STAT_FAULT; let v := match w with | .base => u.put R.DIO_WALK_BASE (b2n f) | .out k => (u.putBit R.DIO_WALK_ORES_R k f).raise 130 k | .inp j => u.putBit R.DIO_WALK_IRES_R j f;
     s.dio.walk = w :: r →
     exec (.walkStepEnd hot) s = .next (if r.isEmpty then (v.walkEnd 2).dioClear hot else { v with dio := { v.dio with walk := r } }.walkStart hot)) ∧
  (∀ (hot : Nat) (s : State),
     s.dio.walk = [] →
     exec (.walkStepEnd hot) s = .next s)

/-- The Keep write queue and the log commands. A window write of 1 to 256 bytes to an unlocked raw partition, after recall and outside the power-fail
warning, enters the queue as one request; without room it only sets QREF, and any other is refused. None of these commands has an effect during
recall. A save enters the queue only when the bank is ready, K0 is not raw and there is room; else it counts as not completed, with EV 258. The
request at the head is served while the die link is up and recall is over: it is read through ECC and leaves, WSEQ counts, and its effect is that of
its kind; the save and the bank erase have commands of their own, which act on such a head only. What waited for the queue then goes on. An append of
class 0 to 4 adds a message with its code, data, class and pin at the present microsecond; a class above 4 sets APERR only. Unpin ends every pin,
those still queued too. CLRBAD in Hold copies the pinned entries of the bad pages with a time mark after them, erases every bad page, keeps the pages
that fail their test, stores the map and appends message 0x0005; in Run it does nothing. -/
def Obligations.KeepQueueAndLog : Prop :=
  (∀ (a : Nat) (d : List Byte) (s : State), let o := a - 0x20000000; let q := KeepReq.raw o d;
     exec (.keepWindowWrite a d) s = .next (
       if inRange a 0x20000000 0x40000 = false ∨ d = [] ∨ 256 < d.length ∨ s.is R.KEEP_STAT_RECALL = true ∨ s.keepRaw (keepPart o) = false ∨
          bit (s.get R.KEEP_LOCKST_WR) (keepPart o) = true ∨ s.keep.pfail = true then s
       else if s.keepRoom q then (s.keepPush q).keepSettle else s.put R.KEEP_STAT_QREF 1)) ∧
  (∀ (s : State),
     exec .keepSave s = .next (
       if s.is R.KEEP_STAT_RECALL then s
       else if s.is R.KEEP_RT_STAT_READY = true ∧ s.keepRaw 0 = false ∧ s.keepRoom (.save none) = true then ((s.put R.KEEP_RT_STAT_READY 0).keepPush (.save none)).keepSettle
       else ((s.put R.KEEP_RT_STAT_INCOMPLETE 1).raise 258 0).keepSettle)) ∧
  (∀ (fail : Nat) (s : State), let u := fun q : KeepReq => ((s.keepRead q).keepSetHead []).wrapUp R.KEEP_WSEQ_N;
     exec (.keepRequestServed fail) s = .next (match s.keepHead with
       | some q => if s.is R.KEEP_STAT_RECALL = true ∨ s.pwr.linkLost = true then s.dictSettle else (((u q).keepServe q fail).keepSettle).dictSettle
       | none => s.dictSettle)) ∧
  (∀ (s : State), let u := fun q : KeepReq => ((s.keepRead q).keepSetHead []).wrapUp R.KEEP_WSEQ_N;
     exec .retainSaveComplete s = .next (match s.keepHead with
       | some (.save st) => if s.pwr.linkLost then s.dictSettle else (((u (.save st)).saveServe (st.getD ([], []))).keepSettle).dictSettle
       | _ => s.dictSettle)) ∧
  (∀ (s : State), let u := fun q : KeepReq => ((s.keepRead q).keepSetHead []).wrapUp R.KEEP_WSEQ_N;
     exec .retainBankEraseComplete s = .next (match s.keepHead with
       | some (.eraseBank b) => if s.pwr.linkLost then s.dictSettle else (((u (.eraseBank b)).bankErased b).keepSettle).dictSettle
       | _ => s.dictSettle)) ∧
  (∀ (b : Nat) (s : State), let u := s.eraseRows (1024 * b) 1024;
     s.keep.cut = none →
     s.bankErased b = { u with keep := { u.keep with readyBank := b } }.put R.KEEP_RT_STAT_READY 1) ∧
  (∀ (c d cl : Nat) (p : Bool) (s : State), let e : LogEntry := { time := s.now / 1000, kind := 2, code := c % 65536, data := d % 65536, cls := cl, pin := p, origin := false, copy := false, ramOnly := false };
     exec (.logAppend c d cl p) s = .next (if s.is R.LOG_STAT_RECALL then s else if cl ≤ 4 then s.logAdd true e else s.put R.LOG_STAT_APERR 1) ∧
     exec .logUnpin s = .next (if s.is R.LOG_STAT_RECALL then s
       else { s with log := { s.log with pins := [], pinTold := false, loose := (s.log.queue.filter LogEntry.pin).length + pinsIn s.keep.queue + pinsIn s.keep.late } })) ∧
  (∀ (good : List Nat) (s : State), let rows := s.log.bad.flatMap fun p => [32 * p, 32 * p + 4, 32 * p + 8, 32 * p + 12, 32 * p + 16, 32 * p + 20, 32 * p + 24, 32 * p + 28];
     let kept := (rows.flatMap s.rowCopies).map LogItem.put;
     let c := if kept.isEmpty = true ∨ s.is R.LOG_STAT_FAILED = true then s else s.logWrite 4096 false false (kept ++ [.put { time := s.now / 1000, kind := 3, code := 0, data := 0, cls := 0, pin := false, origin := false, copy := false, ramOnly := false }]);
     let e := State.forAll rows (fun n t => t.clearRow n) c;
     let u := { e with log := { e.log with bad := e.log.bad.filter fun p => !good.contains p } };
     let map := (List.range 32).map fun i => BitVec.ofNat 8 ((List.range 8).foldl (fun m b => if u.log.bad.contains (8 * i + b) then m + 2 ^ b else m) 0);
     exec (.logClrbad good) s = .next (if s.is R.LOG_STAT_RECALL = true ∨ s.inRun = true then s else ((u.keepWait true 0xFF0020 0 map).logMsg 5 0 0).keepSettle))

/-- Wear rings, spread counters, records and passwords. During recall a command has no effect. A ring read selects the ring and gives, from an
unlocked partition, its definition and the newest value, or the default with EMPTY; an undefined ring sets ERR. Ring writes of defined rings,
definitions with legal rows and slots that meet no other ring, in Hold, removals, and counter commands enter the queue of an unlocked partition; a raw
partition or no room sets ERR. Serving a ring write passes over an odd next slot that is not erased, erases the row of an even slot, and programs the
value, the next sequence and their CRC; serving INC clears the lowest bit of the active group, or begins the next group when none is left, and SET
heads the next group. A store of up to 2048 bytes and a drop enter the queue when there is room, else ERR is set. FIND sets BUSY and then serves data
and length of the newest record, or FOUND 0; hidden keys are not served. A right password clears the lock of its kind; a wrong one raises EV 261, and
the eighth in a row blocks for a time, after which the count starts again. Relock locks what has a password. Recall takes up keys, wear, halves and
log, notes what is owed, and ends step 3 of start-up; without the die link it ends with the log failed. -/
def Obligations.RingsAndCounters : Prop :=
  (∀ (r : Fin 32) (s : State), let a := s.put R.KEEP_RING_SEL_R r;
     exec (.ringRead r) s = .next (if s.is R.KEEP_STAT_RECALL then s else if bit (s.get R.KEEP_LOCKST_RD) 2 then a else match a.ring r with
       | none => a.put R.KEEP_RING_STAT_ERR 1
       | some (row, n, d) => let u := (a.put R.KEEP_RING_CFG_ROW row).put R.KEEP_RING_CFG_SLOTS n; match u.ringNewest row n with
         | some (_, v, q) => ((u.put64 R.KEEP_RING_VAL_LO_V R.KEEP_RING_VAL_HI_V v).put R.KEEP_RING_STAT_EMPTY 0).put R.KEEP_RING_SEQ_N q
         | none => ((u.put64 R.KEEP_RING_VAL_LO_V R.KEEP_RING_VAL_HI_V d).put R.KEEP_RING_STAT_EMPTY 1).put R.KEEP_RING_SEQ_N 0)) ∧
  (∀ (r : Fin 32) (v : Nat) (s : State), let q := KeepReq.ringWrite r (v % 2 ^ 64);
     exec (.ringWrite r v) s = .next (if s.is R.KEEP_STAT_RECALL then s else (if (s.ring r).isNone then s.put R.KEEP_RING_STAT_ERR 1 else if bit (s.get R.KEEP_LOCKST_WR) 2 then s
       else if s.keepRaw 2 = true ∨ s.keepRoom q = false then s.put R.KEEP_RING_STAT_ERR 1 else s.keepPush q).keepSettle)) ∧
  (∀ (r : Fin 32) (row n d : Nat) (s : State), let q := KeepReq.ringDefine r row n (d % 2 ^ 64);
     exec (.ringDefine r row n d) s = .next (if s.is R.KEEP_STAT_RECALL then s else (if s.inRun = true ∨ s.keepRaw 2 = true ∨ n % 2 ≠ 0 ∨ n < 4 ∨ 256 < n ∨ row < 32 ∨ 2048 < row + n / 2
           ∨ ((List.range 32).any fun k => k != r.val && match s.ring k with | some (a, m, _) => decide (row < a + m / 2) && decide (a < row + n / 2) | none => false) = true then s.put R.KEEP_RING_STAT_ERR 1
       else if bit (s.get R.KEEP_LOCKST_WR) 2 then s else if s.keepRoom q = false then s.put R.KEEP_RING_STAT_ERR 1 else s.keepPush q).keepSettle)) ∧
  (∀ (r : Fin 32) (s : State), let q := KeepReq.ringUndefine r;
     exec (.ringUndefine r) s = .next (if s.is R.KEEP_STAT_RECALL then s else (if bit (s.get R.KEEP_LOCKST_WR) 2 then s
       else if s.keepRaw 2 = true ∨ s.keepRoom q = false then s.put R.KEEP_RING_STAT_ERR 1 else s.keepPush q).keepSettle)) ∧
  (∀ (r : Fin 32) (v : Nat) (s : State),
     s.keep.cut = none →
     s.keepServe (.ringWrite r v) 0 = match s.ring r with
       | none => s.put R.KEEP_RING_STAT_ERR 1
       | some (row, n, _) => let p := s.ringNewest row n; let t := match p with | some (j, _, _) => (j + 1) % n | none => 0; let o := fun t => 0x20000 + 32 * (row + t / 2) + 16 * (t % 2);
         let x := if s.slotBad (o t) then s.slotError r else s; let i := if t % 2 = 1 ∧ x.erasedAt (o t) 16 = false then (t + 1) % n else t;
         let u := if i % 2 = 0 then x.eraseRows (0x1000 + row + i / 2) 1 else x; let d := leBytes 8 v ++ leBytes 4 (match p with | some (_, _, q) => q + 1 | none => 1);
         u.setArr (o i) (d ++ leBytes 4 (crc32 d))) ∧
  (∀ (c : Fin 64) (v : Word) (s : State), let e := fun q : KeepReq => if bit (s.get R.KEEP_LOCKST_WR) 3 then s else if s.keepRaw 3 = true ∨ s.keepRoom q = false then s.put R.KEEP_SC_STAT_ERR 1 else s.keepPush q;
     exec (.scInc c) s = .next (if s.is R.KEEP_STAT_RECALL then s else (e (.scInc c)).keepSettle) ∧
     exec (.scSet c v) s = .next (if s.is R.KEEP_STAT_RECALL then s else (e (.scSet c v.toNat)).keepSettle)) ∧
  (∀ (c g x q i : Nat) (l : List Nat) (s : State), let o := 0x30000 + 256 * c + 64 * g + 32 + i / 8;
     s.keep.cut = none →
     s.scActive c = some (g, x, q) →
     s.scBits c g = i :: l →
     s.keepServe (.scInc c) 0 = s.setArr o [BitVec.ofNat 8 (setBit (s.arrNat o 1) (i % 8) false)]) ∧
  (∀ (c g x q v : Nat) (s : State), let k := (q + 1) % 4;
     s.scActive c = some (g, x, q) →
     (s.scBits c g = [] → s.keepServe (.scInc c) 0 = ((s.scHeader c k ((x + 256) % 2 ^ 32) (q + 1)).scBit c k 0).scErase c ((q + 2) % 4)) ∧
     s.keepServe (.scSet c v) 0 = (s.scHeader c k v (q + 1)).scErase c ((q + 2) % 4)) ∧
  (∀ (c v : Nat) (s : State),
     s.scActive c = none →
     s.keepServe (.scInc c) 0 = (s.scHeader c 0 0 0).scBit c 0 0 ∧ s.keepServe (.scSet c v) 0 = s.scHeader c 0 v 0) ∧
  (∀ (k5 : Bool) (h : Word) (d : List Byte) (s : State), let e := fun q : KeepReq => if s.keepRoom q then s.keepPush q else s.put R.KEEP_REC_STAT_ERR 1;
     exec (.recStore k5 h d) s = .next (if s.is R.KEEP_STAT_RECALL then s else (e (.store k5 h.toNat (d.take 2048))).keepSettle) ∧
     exec (.recDrop k5 h) s = .next (if s.is R.KEEP_STAT_RECALL then s else (e (.store k5 h.toNat [])).keepSettle) ∧
     exec (.recFind k5 h) s = .next (if s.is R.KEEP_STAT_RECALL then s else { s with keep := { s.keep with find := some (k5, h.toNat % 2 ^ 24) } }.put R.KEEP_REC_STAT_BUSY 1)) ∧
  (∀ (s : State), let u := { s with keep := { s.keep with find := none } }.put R.KEEP_REC_STAT_BUSY 0;
     exec .recFindComplete s = .next (match s.keep.find with
       | none => s
       | some (k5, key) => if hiddenKey key then u.put R.KEEP_REC_STAT_FOUND 0 else match u.recOf k5 key with
         | some r => ((u.putRecBuf 0 r.data).put R.KEEP_REC_LEN_L r.len).put R.KEEP_REC_STAT_FOUND 1
         | none => u.put R.KEEP_REC_STAT_FOUND 0)) ∧
  (∀ (k : Fin 8) (w : Bool) (pw : Nat) (s : State), let u := { s with keep := { s.keep with mism := s.keep.mism + 1 } }.raise 261 k;
     exec (.keepUnlock k w pw) s = .next (if s.is R.KEEP_STAT_RECALL = true ∨ s.is R.KEEP_LOCKST_PWBLOCK = true ∨ 4 < k then s
       else if s.password k w = pw % 2 ^ 64 then { s with keep := { s.keep with mism := 0 } }.putBit (if w then R.KEEP_LOCKST_WR else R.KEEP_LOCKST_RD) k false
       else if 7 ≤ s.keep.mism then u.put R.KEEP_LOCKST_PWBLOCK 1 else u) ∧
     exec (.keepRelock k) s = .next (if s.is R.KEEP_STAT_RECALL = true ∨ s.is R.KEEP_LOCKST_PWBLOCK = true ∨ 4 < k then s
       else (s.putBit R.KEEP_LOCKST_RD k (s.password k false != 0)).putBit R.KEEP_LOCKST_WR k (s.password k true != 0)) ∧
     exec .passwordBlockEnd s = .next (if s.is R.KEEP_LOCKST_PWBLOCK then { s with keep := { s.keep with mism := 0 } }.put R.KEEP_LOCKST_PWBLOCK 0 else s)) ∧
  (∀ (s : State), let a := s.recallKeys.recallWear.eraseUnsealed.recallLog; let l := a.recallFound;
     let u := { a with keep := { a.keep with owed := l, crcErr := (l.filter fun (p : Nat × Nat) => p.1 == 259).foldl (fun (t : Store Nat) (p : Nat × Nat) => Store.put p.2 (satAdd 8 (t.getD p.2 0) 1) t) [] } }.put R.KEEP_STAT_RECALL 0;
     let w := if l.any (fun (p : Nat × Nat) => p.1 == 258) then u.put R.KEEP_RT_STAT_INCOMPLETE 1 else u; let x := if s.is R.KEEP_STAT_RECALL then if s.pwr.linkLost then ((s.put R.KEEP_STAT_RECALL 0).put R.LOG_STAT_RECALL 0).logFail 0 else (match w.newestBank with | some b => w.put R.KEEP_RT_STAT_BANK b | none => w) else s; let y := x.lanWaiting;
     exec .keepRecallComplete s = .next (if y.phase = .starting ∧ y.get R.SYS_BOOTSTAT_STEP = 3 ∧ y.is R.KEEP_STAT_RECALL = false then y.put R.SYS_BOOTSTAT_STEP 4 else y))

/-- Supplies, temperature, domains, reference and link. The warning, once the device is past step 1 of start-up, sets PFW, EV 0 and the Keep and brick
actions, and cuts a Standby request short; its end clears them. A supply outside its window shows and is the condition of its event. A temperature
below 150 °C is shown, with EV 5 and EV 6 by 5 K of hysteresis; at 150 °C the device is reset with cause 3, and stays so until it is below 135 °C. A
domain is switched off under its condition, else DOMERR; switched on, its registers hold reset values. A reference fault shows, raises EV 7 and is
DEVCAUSE 5, at the end of start-up if it comes before; a lost link is DEVCAUSE 4 with CMPTRIP taken as 1. -/
def Obligations.SuppliesAndDomains : Prop :=
  (∀ (cy : Bool) (s : State), let want := (if s.pwr.standby then none else s.pwr.want); let u := { s with pwr := { s.pwr with standby := false, wbDue := false, want := want } }.put R.SYS_MODEREQ_PEND (b2n want.isSome);
     exec (.powerFailWarningStart cy) s = .next (if s.is R.PWR_STAT_PFW = false ∧ (s.phase = .up ∨ (s.phase = .starting ∧ 2 ≤ s.get R.SYS_BOOTSTAT_STEP)) then ((((u.put R.PWR_STAT_PFW 1).level 0 true 0).keepWarning).brickWarning.keepSettle).brickPowerFail cy else s) ∧
     exec .powerFailWarningEnd s = .next (if s.is R.PWR_STAT_PFW then ((s.put R.PWR_STAT_PFW 0).level 0 false 0).keepWarningEnd else s)) ∧
  (∀ (k : Fin 4) (out : Bool) (mv : Nat) (s : State),
     exec (.supplyWindowChange k out mv) s = .next ((if k < 3 then s.putBit R.PWR_STAT_OUTWIN k out else (s.put R.PWR_STAT_VBAKLOW (b2n out)).put R.PWR_VBAK_MV mv).level (1 + k) out 0)) ∧
  (∀ (t : Int) (s : State), let a := fun (l : Nat) (on : Bool) => if (16 * l : Int) ≤ t then true else if t ≤ 16 * ((l : Int) - 5) then false else on; let w := a (s.get R.PWR_CTL_TJWARN) (s.is R.PWR_STAT_TJW); let c := a (s.get R.PWR_CTL_TJCRIT) (s.is R.PWR_STAT_TJC); let r := s.powerReset 3 .reset;
     exec (.temperatureSample t) s = .next (if s.phase = .up ∨ s.phase = .starting then
         (if 2400 ≤ t then { r with pwr := { r.pwr with hot := true } }
          else ((((s.put R.PWR_TEMP_T (ofSigned 16 t)).put R.PWR_STAT_TJW (b2n w)).put R.PWR_STAT_TJC (b2n c)).level 5 w (ofSigned 16 (t / 16))).level 6 c (ofSigned 16 (t / 16)))
       else if t < 2160 then { s with pwr := { s.pwr with hot := false } } else s)) ∧
  (∀ (n : Fin 52) (off : Bool) (s : State),
     exec (.domainSwitch n off) s = .next (if s.domOff n = off then s else if off = false then (s.putDom n false).domOn n
       else if s.domMayGo n then s.putDom n true else s.put R.PWR_STAT_DOMERR 1)) ∧
  (∀ (s : State), let u := ((((s.put R.CLK_STAT_XOK 0).put R.CLK_STAT_RCREF 1).put R.CLK_STAT_LOSS 1).raise 7 0); let v := (((({ s with pwr := { s.pwr with refDue := true } }.put R.CLK_STAT_XOK 0).put R.CLK_STAT_RCREF 1).put R.CLK_STAT_LOSS 1).raise 7 0);
     exec .referenceFault s = .next (if s.is R.CLK_STAT_RCREF then s else if s.phase = .up then u.deviceFault 5 else if s.phase = .starting then v else s)) ∧
  (∀ (s : State), let u := (s.keepAbandon 4).deviceFault 4;
     exec .dieLinkLoss s = .next (if s.pwr.linkLost = true ∨ ¬ (s.phase = .up ∨ s.phase = .starting) then s else ({ u with pwr := { u.pwr with linkLost := true } }.put R.DLNK_STAT_CMPTRIP 1).xferEnd))

/-- Resets and the steps of start-up. A power-on reset holds until its release, which loads the cause at step 1; its cause is 2, or 1 in Standby. nRST
asserts a system reset with cause 4, or wakes Standby with cause 0x0A; the two keys in order reset with cause 5 after 10 microseconds, a Lead handing
over first, and only while SV runs; an engine in Umbra or halted is reset, any other refused with ENGERR. The PLL locks at step 2, the initialiser
clears memory, the writes that waited for it are made, and SV, whose watchdog starts then, is released at step 3, or 4 after recall; a bank that
passes starts SV at step 7 and none stops at step 5 with ERR; the end of start-up loads the programs and gives step 9. Out of its step, or with SV
halted, a step of start-up does nothing. -/
def Obligations.ResetsAndStartup : Prop :=
  (∀ (s : State),
     exec .powerOnResetAssert s = .next (match s.phase with
       | .off => s
       | .standby => { (s.latchCause 1).afterReset false with phase := .off }
       | .reset => { (s.latchCause s.pwr.cause).afterReset false with phase := .off }
       | .starting => { (s.latchCause 2).afterReset false with phase := .off }
       | .up => { (s.latchCause 2).afterReset false with phase := .off })) ∧
  (∀ (cold : Bool) (mv : Nat) (s : State),
     exec (.powerOnResetRelease cold mv) s = .next (if (s.phase = .off ∨ s.phase = .reset) ∧ s.pwr.hot = false then ((if cold then s.coldStart else s).put R.PWR_VBAK_MV mv).stepOne else s)) ∧
  (∀ (s : State),
     exec .nrstLow s = .next (match s.phase with
       | .up => s.systemReset 4
       | .starting => s.systemReset 4
       | .standby => if s.is R.LANT_STAT_EMUSTBY then s.systemReset 0x0A else (s.powerReset 0x0A .starting).stepOne
       | .off => s
       | .reset => s)) ∧
  (∀ (v : Byte) (s : State), let u := s.advance (s.now + 10000);
     exec (.rstCmd v) s = .next (if s.halted 4 = true ∨ (s.eng 4).stop ≠ .none then s else if s.pwr.key = true ∧ v = 0x3C#8 then (if u.get R.RFL_STAT_ROLE = 1 then u.handOver else u).systemReset 5 else { s with pwr := { s.pwr with key := v == 0xC3#8 } })) ∧
  (∀ (m : Nat) (s : State),
     exec (.rstEng m) s = .next (State.forAll ((List.range 4).filter (bit m)) (fun e t => if t.umbra (4 + e) = true ∨ t.halted e = true then (t.stopEngine e (t.eng e).stop).engineReset e else t.put R.RST_STAT_ENGERR 1) s)) ∧
  (∀ (x : Bool) (s : State), let a := { ((s.put R.SYS_BOOTSTAT_STEP 2).put R.CLK_STAT_LOCK 1).put R.SYS_ECC_STAT_INIT 1 with m := { s.m with init := true } }; let b := (a.put R.UPD_FINFO_MIB Config.flashMiB).put R.UPD_FINFO_OK (b2n Config.flashOk); let c := if x then b.put R.CLK_STAT_XOK 1 else { b with pwr := { b.pwr with refDue := true } }.refFault; let d := State.forAll (List.range 3) (fun k t => t.level (1 + k) (bit (t.get R.PWR_STAT_OUTWIN) k) 0) c; let e := d.level 4 (d.is R.PWR_STAT_VBAKLOW) 0; let v := e.level 129 (e.is R.DIO_STAT_UV) 0;
     exec (.pllLock x) s = .next (if s.phase ≠ .starting ∨ s.get R.SYS_BOOTSTAT_STEP ≠ 1 then s else if v.is R.PWR_STAT_PFW then { v.level 0 true 0 with keep := { (v.level 0 true 0).keep with pfail := true } } else v)) ∧
  (∀ (s : State), let a := { s with mem := [], back := [], work := [], m := { s.m with ecc := [], init := false, held := [] } }; let b := s.m.held.foldl (fun t h => (t.memWrite h.req h.addr h.bytes).1) a; let c := (b.put R.SYS_ECC_STAT_INIT 0).put R.SYS_BOOTSTAT_STEP (if b.is R.KEEP_STAT_RECALL then 3 else 4);
     let u := { c.setEng 4 { Eng.reset 4 with live := true, stop := .none } with exc := { c.exc with svAt := c.time.real } };
     exec .sramInitComplete s = .next (if s.m.init = false then s else if bit (u.get R.LANT_CTL_HALTRST) 4 then u.haltNow 4 7 0 false else u)) ∧
  (∀ (s : State), let r := s.bootRec; let spent := (!r.confirmed && decide (r.limit ≤ r.used)); let u := (if !r.confirmed && !spent then s.bootTry else s); let order := (if spent then [r.prev] else [r.pref, r.prev]); let told := fun (b : Nat) => ((u.put R.UPD_BOOT_FALLBACK (b2n (spent || b != r.pref))).put R.UPD_BOOT_FBREASON (if spent then 2 else if b != r.pref then (u.bankPick order).2 else 0)).put R.UPD_BOOT_TRIAL (b2n (!r.confirmed && !(spent || b != r.pref)));
     exec .svFirmwareStart s = .next (if s.phase ≠ .starting ∨ s.get R.SYS_BOOTSTAT_STEP ≠ 4 ∨ s.halted 4 = true then s else match (u.bankPick order).1 with
       | none => (u.put R.SYS_BOOTSTAT_STEP 5).put R.SYS_BOOTSTAT_ERR 1
       | some b => match u.header b with
         | none => told b
         | some h => (told b).svStart b h)) ∧
  (∀ (s : State), let a := ((State.forAll (List.range 4) State.programLoad s).bindLoad.retainRestore).put R.SYS_BOOTSTAT_STEP 8; let b := ({ a with phase := .up, pwr := { a.pwr with upAt := a.time.real, told := false } }.loadFarm.turnEn true).put R.SYS_BOOTSTAT_STEP 9; let l := b.logMsg 2 (b.get R.RST_CAUSE_CODE) 0; let c := ((l.logMsg 3 b.log.found 0).keepOwed).ownStart; let d := (if c.is R.RFL_STAT_OWN then opBrickRead c else c).fallbackTell; let f := State.forAll ((List.range 4).filter fun e => bit (d.get R.LANT_CTL_HALTRST) e) (fun e t => t.haltNow e 7 0 false) d; let g := if f.pwr.refDue then { f with pwr := { f.pwr with refDue := false } }.deviceFault 5 else f; let h := if g.is R.SYS_BOOTCFG_STARTRUN && !(g.is R.SYS_BOOTCFG_HOLDAFT && g.get R.RST_CAUSE_CODE == 6) then opModeRequest 0 g else g;
     exec .startUpEnd s = .next (if s.phase ≠ .starting ∨ s.get R.SYS_BOOTSTAT_STEP ≠ 7 ∨ s.halted 4 = true then s else (if h.pwr.want.isNone then { h with pwr := { h.pwr with told := true } }.raise 14 0 else h).keepSettle.dictSettle))

/-- Mode requests and Standby. The reasons for which a request is refused are those of the table, in its order. A refused request records its reason,
that of a check of the tables its place, and that of the carrier (0x11) sets CPERR; it leaves what was asked for before. An accepted one is pending
and has reason 0; Standby from Hold starts its first step. The reserved mode changes nothing. The write-back before Standby counts the residues first.
Standby is entered when it is over and the Keep queue empty: a Lead hands over, else the pins are released; with a debugger Standby is emulated and
every engine halted, without one the domains lose their content. The stored start- up mode is that of BOOTCFG. -/
def Obligations.ModeRequests : Prop :=
  (∀ (m r : Nat) (s : State), let a := s.put R.SYS_MODEREQ_REASON r;
     m < 3 →
     s.modeRefused m = some r →
     exec (.modeRequest m) s = .next (if r = 0x11 then a.put R.GDRV_STAT_CPERR 1 else if r ≠ 0x10 then a else match a.tableCheck with
       | some p => a.recordErr p
       | none => a)) ∧
  (∀ (m : Nat) (s : State), let u := ({ s with pwr := { s.pwr with want := some m, standby := false, wbDue := false } }.put R.SYS_MODEREQ_REASON 0).put R.SYS_MODEREQ_PEND 1;
     m < 3 →
     s.modeRefused m = none →
     exec (.modeRequest m) s = .next (if m = 2 ∧ s.inRun = false then u.standbyStart else u)) ∧
  (∀ (m : Nat) (s : State), let hold := if s.following then some 0x14 else if s.phase = .standby then some 0x15 else s.tickTaken s.nextA false;
     let table := if s.tableCheck.isSome then some 0x10 else if s.period % max 1 (s.get R.GDRV_CP_CP) ≠ 0 then some 0x11 else if s.noProgram then some 0x12 else none;
     s.modeRefused 1 = hold ∧
     s.modeRefused 2 = (if s.is R.TURN_CTL_EN then hold else some 0x13) ∧
     s.modeRefused 0 = (if table.isSome then table else if s.is R.TURN_CTL_EN = false then some 0x13 else if s.following then some 0x14
       else if s.phase = .standby then some 0x15 else if s.devFault then some 0x16 else none) ∧
     (3 ≤ m → exec (.modeRequest m) s = .next s)) ∧
  (∀ (s : State), let r := if s.get R.RFL_STAT_ROLE = 1 then s.handOver else s.setReleased true; let p := { r.put R.SYS_MODEREQ_PEND 0 with pwr := { r.pwr with want := none, standby := false } };
     let w := { p with phase := .standby, time := { p.time with nextTick := none } };
     exec .standbyEntry s = .next (if s.pwr.standby = false ∨ s.inRun = true ∨ s.phase ≠ .up ∨ s.brick.xfer ≠ 0 then s
       else if s.pwr.wbDue then opBrickWb (State.flush { s with pwr := { s.pwr with wbDue := false } })
       else if s.keepLen ≠ 0 then s
       else if w.is R.LANT_STAT_ATT then State.forAll (List.range 5) (fun e t => if t.halted e then t else t.haltNow e 8 0 false) (w.put R.LANT_STAT_EMUSTBY 1)
       else { w.afterReset false with phase := .standby })) ∧
  (∀ (s : State),
     exec .bootcfgStore s = .next (s.keepWait true 0xFF0011 0 [BitVec.ofNat 8 (s.get R.SYS_BOOTCFG_STARTRUN + 2 * s.get R.SYS_BOOTCFG_HOLDAFT)]).keepSettle)

/-- Halt, resume, step and the ports of a halted engine. A halt reaches each named running engine that is no secondary, and its group; on a following
Shadow it first stops following. A resumed engine, with its secondary, is no longer halted nor has a pending halt or a reason, skips its breakpoint
once, and what it had in flight has completed; SV's watchdog counts on. Others are as before, but for the outputs, which are refreshed. A step of a
halted engine starts; one of an engine with nothing to run sets STEPERR. A halt that waited is taken when nothing defers it. DATA writes a G register
of the selected bank, an operand latch or the pending upper value of a halted engine, nothing else. -/
def Obligations.EngineDebug : Prop :=
  (∀ (m : Fin 32) (f : Bool) (s : State), let g := fun (e : Nat) (u : State) => if u.halted e then (u.crossTrigger e).outRefresh else u;
     exec (.haltRequest m f) s = .next (State.forAll ((List.range 5).filter (bit m)) (fun e t => if t.halted e = true ∨ (e < 4 ∧ t.secondary e = true) then t
       else g e ((t.stopFollowing 0x1F).haltRequest e 1 f)) s)) ∧
  (∀ (m : Fin 32) (s : State),
     let a := fun (e : Nat) (t : State) => ((t.putBit R.LANT_HALTST_HALTED e false).putBit R.LANT_HALTST_PENDING e false).put R.LANT_E_WHY_REASON 0 e;
     let b := fun (e : Nat) (t : State) => ((a e (if e = 4 then t.svWatch false else t)).put R.LANT_E_WHY_INDEX 0 e).put R.LANT_E_WHY_DEFER 0 e;
     let c := fun (e : Nat) (t : State) => (b e t).upE e fun x => { x with skip := true, stepping := false, wdAt := t.time.real, flights := x.flights.map fun f => if f.far.isSome then { f with due := min f.due x.cyc } else f };
     exec (.resumeRequest m) s = .next (State.forAll ((List.range 5).filter (bit m)) (fun e t => if t.halted e = false ∨ (e < 4 ∧ t.secondary e = true) then t
       else match (c e t).mirrorOf e with
         | some k => c k (c e t)
         | none => c e t) s).outRefresh) ∧
  (∀ (m : Fin 32) (s : State),
     exec (.stepRequest m) s = .next (State.forAll ((List.range 5).filter (bit m)) (fun e t => if t.halted e = false ∨ (e < 4 ∧ t.secondary e = true) then t
       else if e = 4 ∨ (t.eng e).live = true ∨ t.waiting e ≠ [] then t.upE e fun x => { x with stepping := true, skip := true, flights := x.flights.map fun f => if f.far.isSome then { f with due := min f.due x.cyc } else f }
       else t.put R.LANT_STAT_STEPERR 1) s)) ∧
  (∀ (e : Fin 5) (s : State),
     exec (.deferredHalt e) s = .next (if bit (s.get R.LANT_HALTST_PENDING) e = true ∧ s.haltDefers e false = false then s.haltWith e (s.get R.LANT_E_WHY_REASON e) (s.get R.LANT_E_WHY_INDEX e) true else s)) ∧
  (∀ (e : Fin 5) (v : Word) (s : State), let p := s.get R.LANT_E_SEL_PORT e; let b := s.get R.LANT_E_SEL_BANK e;
     exec (.eeDataWrite e v) s = .next (if s.halted e = false then s else match portKind (e == 4) p with
       | .reg => s.upE e fun x => { (if b ≤ 12 then { x with gbank := b } else x).setG (e == 4) p v with gbank := x.gbank }
       | .operand => s.upE e fun x => if p = 0x1F0 then { x with upper := some (v.toNat % 2 ^ 14) } else x.setPort p v
       | .result => s
       | .trigger => s
       | .reserved => s))

/-- Lantern sessions, frames and accesses. A wake pattern opens the wire session and is answered with the identifier and a fresh nonce, unless it is
locked out or open. A frame with a right length, CRC and payload restarts the idle time; without a session, or for accesses without an authenticated
one, it gets status 2. OPEN is judged at once, after recall if that runs, or gets 8 in a lockout: the right code attaches the debugger; a wrong one
gets status 3 and counts, and the limit locks out. CLOSE, PING, READ and WRITE answer with their payload; an access that fails ends them with status
4. RESET answers first. A MONITOR request enters its queue of 8 or gets status 5, and MONPOLL takes up to 60 bytes of the oldest reply or gets 6.
Errors of cells, gaps, CRC and payload show in WERR. The idle time closes the session, a lockout ends after its time, and a written reset comes 10 µs
later. -/
def Obligations.LanternFrames : Prop :=
  (∀ (s : State),
     exec .wakePattern s = .next (if s.wireUp = true ∧ s.is R.LANT_STAT_LOCKOUT = false ∧ s.lan.wire = 0 then ({ s.nonce.2 with lan := { s.nonce.2.lan with wire := 1, nonce := s.nonce.1, last := s.now, waits := none } }.put R.LANT_STAT_WIRE 1).lanSend 0x80 0 (uidBytes ++ s.nonce.1) else s)) ∧
  (∀ (f d : List Byte) (tag : Nat) (s : State), let v := { s with lan := { s.lan with last := s.now } };
     lanParse f = some (0x01, tag, d) →
     lanWellFormed 0x01 d = true →
     s.wireUp = true →
     exec (.lanternOpen f) s = .next (if s.lan.wire = 0 then v.lanSend 2 tag [] else if s.is R.LANT_STAT_LOCKOUT then v.lanSend 8 tag []
       else if s.is R.KEEP_STAT_RECALL then { v with lan := { v.lan with waits := some (tag, d) } } else v.lanAuth tag d)) ∧
  (∀ (d : List Byte) (tag : Nat) (s : State), let w := (if s.lanKey.2 then s.warn 7 6 else s); let l := (s.now :: s.lan.fails).filter fun t => s.now < t + 60000000000;
     s.lanAuth tag d = (if trailer s.lanKey.1 ([76#8, 65#8, 78#8, 84#8, 69#8, 82#8, 78#8] ++ s.lan.nonce ++ uidBytes) = d then ({ w with lan := { w.lan with wire := 2 } }.put R.LANT_STAT_ATT 1).lanSend 0 tag []
       else (if s.fwNat 0x210014 1 5 ≤ l.length then { s with lan := { s.lan with fails := [], lockAt := s.now } }.put R.LANT_STAT_LOCKOUT 1 else { s with lan := { s.lan with fails := l } }).lanSend 3 tag [])) ∧
  (∀ (f : List Byte) (s : State), let v := { s with lan := { s.lan with last := s.now } };
     exec (.lanternClose f) s = .next (match lanParse f with
       | some (c, tag, d) => if s.wireUp = false ∨ c ≠ 0x02 ∨ lanWellFormed c d = false then s else if s.lan.wire = 0 then v.lanSend 2 tag [] else
           (v.lanSend 0 tag []).wireClose
       | none => s)) ∧
  (∀ (f : List Byte) (s : State), let v := { s with lan := { s.lan with last := s.now } };
     exec (.lanternPing f) s = .next (match lanParse f with
       | some (c, tag, d) => if s.wireUp = false ∨ c ≠ 0x03 ∨ lanWellFormed c d = false then s else if s.lan.wire = 0 then v.lanSend 2 tag [] else
           v.lanSend 0 tag (leBytes 4 (v.regWord 0x10027004) ++ leBytes 4 (v.regWord 0x1002700C))
       | none => s)) ∧
  (∀ (f : List Byte) (s : State), let v := { s with lan := { s.lan with last := s.now } };
     exec (.lanternRead f) s = .next (match lanParse f with
       | some (c, tag, d) => if s.wireUp = false ∨ c ≠ 0x10 ∨ lanWellFormed c d = false then s else if s.lan.wire ≠ 2 then v.lanSend 2 tag [] else
           let q := v.lanReads (leAt d 6 1) (bit (leAt d 5 1) 0) (leAt d 4 1) (leAt d 0 4);
           q.1.lanSend (if q.2.2.2 = 0 then 0 else 4) tag ([BitVec.ofNat 8 q.2.2.2, BitVec.ofNat 8 q.2.2.1] ++ q.2.1)
       | none => s)) ∧
  (∀ (f : List Byte) (s : State), let v := { s with lan := { s.lan with last := s.now } };
     exec (.lanternWrite f) s = .next (match lanParse f with
       | some (c, tag, d) => if s.wireUp = false ∨ c ≠ 0x11 ∨ lanWellFormed c d = false then s else if s.lan.wire ≠ 2 then v.lanSend 2 tag [] else
           let q := v.lanWrites (leAt d 5 1) (leAt d 4 1) (leAt d 0 4) (d.drop 6);
           q.1.lanSend (if q.2.2 = 0 then 0 else 4) tag [BitVec.ofNat 8 q.2.2, BitVec.ofNat 8 q.2.1]
       | none => s)) ∧
  (∀ (f : List Byte) (s : State), let v := { s with lan := { s.lan with last := s.now } };
     exec (.lanternMonitor f) s = .next (match lanParse f with
       | some (c, tag, d) => if s.wireUp = false ∨ c ≠ 0x20 ∨ lanWellFormed c d = false then s else if s.lan.wire ≠ 2 then v.lanSend 2 tag [] else
           if 8 ≤ s.lan.queue.length then v.lanSend 5 tag [] else (v.monPush { from_ := none, code := leAt d 0 2, arg := d.drop 2 }).lanSend 0 tag []
       | none => s)) ∧
  (∀ (f : List Byte) (s : State), let v := { s with lan := { s.lan with last := s.now } };
     exec (.lanternMonpoll f) s = .next (match lanParse f with
       | some (c, tag, d) => if s.wireUp = false ∨ c ≠ 0x21 ∨ lanWellFormed c d = false then s else if s.lan.wire ≠ 2 then v.lanSend 2 tag [] else
           match s.lan.replies with
             | [] => v.lanSend 6 tag []
             | l :: t => { v with lan := { v.lan with replies := if l.length ≤ 60 then t else l.drop 60 :: t } }.lanSend 0 tag (l.take 60)
       | none => s)) ∧
  (∀ (f : List Byte) (s : State), let v := { s with lan := { s.lan with last := s.now } };
     exec (.lanternReset f) s = .next (match lanParse f with
       | some (c, tag, d) => if s.wireUp = false ∨ c ≠ 0x30 ∨ lanWellFormed c d = false then s else if s.lan.wire ≠ 2 then v.lanSend 2 tag [] else
           if leAt d 0 1 = 0 then ((v.lanSend 0 tag []).busWrite 7 0x10027003 [1#8]).1
           else { (v.lanSend 0 tag []).debugReset with lan := { (v.lanSend 0 tag []).debugReset.lan with out := (v.lanSend 0 tag []).lan.out } }
       | none => s)) ∧
  (∀ (f : List Byte) (s : State), let v := { s with lan := { s.lan with last := s.now } };
     exec .lanternBreak s = .next s ∧
     exec .lanternInvalidCell s = .next (if s.wireUp then s.put R.LANT_STAT_WERR 1 else s) ∧
     exec .lanternFrameTimeout s = .next (if s.wireUp then s.put R.LANT_STAT_WERR 2 else s) ∧
     exec (.lanternFrameError f) s = .next (if s.wireUp = false then s else match lanParse f with
       | none => s.lanSend 1 0 []
       | some (c, tag, d) => if lanWellFormed c d then s else v.lanSend 7 tag [])) ∧
  (∀ (s : State),
     exec .lanternIdleTimeout s = .next (if s.lan.wire ≠ 0 ∧ s.get R.LANT_CTL_IDLETO ≠ 0 then (s.advance (s.lan.last + s.get R.LANT_CTL_IDLETO * 1000000000)).wireClose else s) ∧
     exec .lanternLockoutEnd s = .next (if s.is R.LANT_STAT_LOCKOUT then (s.advance (s.lan.lockAt + s.fwNat 0x210015 2 60 * 1000000000)).put R.LANT_STAT_LOCKOUT 0 else s) ∧
     exec .lanternSysrst s = .next (match s.lan.rst with
       | some (c, t) => { s.advance (t + 10000) with lan := { (s.advance (t + 10000)).lan with rst := none } }.commandReset c
       | none => s) ∧
     exec .accGo s = .next (s.accGo (State.busHook 2)))

/-- Requests of the Serys monitor. A monitor command at the front of a port that passes its session checks, of a Custodian, makes its session a
monitor session and enters the queue of 8, or is answered with 7; of any other role it is answered with 2. SV, unless it is halted or hands over,
serves the request at the head, of its own code: a request of a wrong length is answered with 9, a value out of range with 5, and what the attached
debugger owns, or SV's halt and step, with 6. MREAD and MWRITE access memory as the access engine does; HALT, RESUME and STEP act on the engines of
their mask; STATE READ and WRITE take ports; BREAK, SESSION, RESET, START MODE and STATUS do as their names say, and each request is answered. -/
def Obligations.MonitorRequests : Prop :=
  (∀ (p : Fin 6) (m : Msg) (s : State), let r := fun (c : Nat) => (if isCmd c m then s.served p m fun i x u => if x.role ≠ 3 then u.cmdReply i m 2 [] else if 8 ≤ u.lan.queue.length then (u.upSess i fun y => { y with mon := true }).cmdReply i m 7 [] else (u.upSess i fun y => { y with mon := true }).monPush { from_ := some (i, m.seq, m.udp), code := c, arg := m.body.drop 4 } else s);
     s.fronts p m = true →
     exec (.monRead p.castSucc) s = .next (r 0x0201) ∧
     exec (.monWrite p.castSucc) s = .next (r 0x0202) ∧
     exec (.monitorHalt p.castSucc) s = .next (r 0x0203) ∧
     exec (.monitorResume p.castSucc) s = .next (r 0x0204) ∧
     exec (.monitorStep p.castSucc) s = .next (r 0x0205) ∧
     exec (.monStateRead p.castSucc) s = .next (r 0x0206) ∧
     exec (.monStateWrite p.castSucc) s = .next (r 0x0207) ∧
     exec (.monBreak p.castSucc) s = .next (r 0x0208) ∧
     exec (.monSession p.castSucc) s = .next (r 0x0209) ∧
     exec (.monitorReset p.castSucc) s = .next (r 0x020A) ∧
     exec (.monStartMode p.castSucc) s = .next (r 0x020B) ∧
     exec (.monitorStatus p.castSucc) s = .next (r 0x020C)) ∧
  (∀ (s : State), let idle := fun (c : Nat) => s.halted 4 || s.upd.hand || match s.lan.queue with | [] => true | q :: _ => q.code != c;
     (idle 0x0201 = true → exec (.monRead 6) s = .next s) ∧
     (idle 0x0202 = true → exec (.monWrite 6) s = .next s) ∧
     (idle 0x0203 = true → exec (.monitorHalt 6) s = .next s) ∧
     (idle 0x0204 = true → exec (.monitorResume 6) s = .next s) ∧
     (idle 0x0205 = true → exec (.monitorStep 6) s = .next s) ∧
     (idle 0x0206 = true → exec (.monStateRead 6) s = .next s) ∧
     (idle 0x0207 = true → exec (.monStateWrite 6) s = .next s) ∧
     (idle 0x0208 = true → exec (.monBreak 6) s = .next s) ∧
     (idle 0x0209 = true → exec (.monSession 6) s = .next s) ∧
     (idle 0x020A = true → exec (.monitorReset 6) s = .next s) ∧
     (idle 0x020B = true → exec (.monStartMode 6) s = .next s) ∧
     (idle 0x020C = true → exec (.monitorStatus 6) s = .next s)) ∧
  (∀ (q : MonReq) (l : List MonReq) (s : State), let u := s.qRead 18 (l.length + 1) 0 (8 + q.arg.length); let v := { u with lan := { u.lan with queue := l } }; let d := q.arg; let r := v.lanReads (leAt d 5 1) (bit (leAt d 6 1) 0) (leAt d 4 1) (leAt d 0 4);
     s.halted 4 = false →
     s.upd.hand = false →
     s.lan.queue = q :: l →
     q.code = 0x0201 →
     exec (.monRead 6) s = .next (if d.length ≠ 8 then v.monReply q 9 [] else if accSize (leAt d 4 1) = false ∨ 1000 < leAt d 5 1 * leAt d 4 1 then v.monReply q 5 []
       else (r.1 : State).monReply q 0 ([BitVec.ofNat 8 r.2.2.2] ++ leBytes 2 r.2.2.1 ++ [0#8] ++ r.2.1))) ∧
  (∀ (q : MonReq) (l : List MonReq) (s : State), let u := s.qRead 18 (l.length + 1) 0 (8 + q.arg.length); let v := { u with lan := { u.lan with queue := l } }; let d := q.arg; let r := v.lanWrites (leAt d 5 1) (leAt d 4 1) (leAt d 0 4) (d.drop 8); let n := leAt d 5 1 * leAt d 4 1;
     s.halted 4 = false →
     s.upd.hand = false →
     s.lan.queue = q :: l →
     q.code = 0x0202 →
     exec (.monWrite 6) s = .next (if d.length < 8 then v.monReply q 9 [] else if accSize (leAt d 4 1) = false then v.monReply q 5 [] else if d.length ≠ 8 + n then v.monReply q 9 []
       else if v.is R.LANT_STAT_ATT = true ∧ lantBytes (leAt d 0 4) n = true then v.monReply q 6 [] else (r.1 : State).monReply q 0 ([BitVec.ofNat 8 r.2.2] ++ leBytes 2 r.2.1 ++ [0#8]))) ∧
  (∀ (q : MonReq) (l : List MonReq) (s : State), let u := s.qRead 18 (l.length + 1) 0 (8 + q.arg.length); let v := { u with lan := { u.lan with queue := l } }; let d := q.arg;
     s.halted 4 = false →
     s.upd.hand = false →
     s.lan.queue = q :: l →
     q.code = 0x0203 →
     exec (.monitorHalt 6) s = .next (if d.length ≠ 2 then v.monReply q 9 [] else if v.is R.LANT_STAT_ATT then v.monReply q 6 [] else if 32 ≤ leAt d 0 1 ∨ 1 < leAt d 1 1 then v.monReply q 5 [] else if 16 ≤ leAt d 0 1 then v.monReply q 6 []
       else (opHaltRequest (leAt d 0 1) (leAt d 1 1 == 1) v : State).monReply q 0 [])) ∧
  (∀ (q : MonReq) (l : List MonReq) (s : State), let u := s.qRead 18 (l.length + 1) 0 (8 + q.arg.length); let v := { u with lan := { u.lan with queue := l } }; let d := q.arg;
     s.halted 4 = false →
     s.upd.hand = false →
     s.lan.queue = q :: l →
     q.code = 0x0204 →
     exec (.monitorResume 6) s = .next (if d.length ≠ 1 then v.monReply q 9 [] else if v.is R.LANT_STAT_ATT then v.monReply q 6 [] else if 32 ≤ leAt d 0 1 then v.monReply q 5 [] else (opResumeRequest (leAt d 0 1) v : State).monReply q 0 [])) ∧
  (∀ (q : MonReq) (l : List MonReq) (s : State), let u := s.qRead 18 (l.length + 1) 0 (8 + q.arg.length); let v := { u with lan := { u.lan with queue := l } }; let d := q.arg;
     s.halted 4 = false →
     s.upd.hand = false →
     s.lan.queue = q :: l →
     q.code = 0x0205 →
     exec (.monitorStep 6) s = .next (if d.length ≠ 1 then v.monReply q 9 [] else if v.is R.LANT_STAT_ATT then v.monReply q 6 [] else if 32 ≤ leAt d 0 1 then v.monReply q 5 [] else if 16 ≤ leAt d 0 1 then v.monReply q 6 [] else (opStepRequest (leAt d 0 1) v : State).monReply q 0 [])) ∧
  (∀ (q : MonReq) (l : List MonReq) (s : State), let u := s.qRead 18 (l.length + 1) 0 (8 + q.arg.length); let v := { u with lan := { u.lan with queue := l } }; let d := q.arg; let e := leAt d 0 1; let g := leAt d 2 2;
     s.halted 4 = false →
     s.upd.hand = false →
     s.lan.queue = q :: l →
     q.code = 0x0206 →
     exec (.monStateRead 6) s = .next (if d.length ≠ 5 then v.monReply q 9 [] else if 5 ≤ e ∨ (12 < leAt d 1 1 ∧ leAt d 1 1 ≠ 15) ∨ leAt d 4 1 = 0 ∨ 64 < leAt d 4 1 ∨ 2048 < g + leAt d 4 1 then v.monReply q 5 []
       else (v : State).monReply q 0 ((List.range (leAt d 4 1)).flatMap fun i => leBytes 4 (if v.halted e then v.portValue e (leAt d 1 1) (g + i) else 0) ++ [BitVec.ofNat 8 (b2n (v.halted e && v.portPend e (g + i)))]))) ∧
  (∀ (q : MonReq) (l : List MonReq) (s : State), let u := s.qRead 18 (l.length + 1) 0 (8 + q.arg.length); let v := { u with lan := { u.lan with queue := l } }; let d := q.arg;
     s.halted 4 = false →
     s.upd.hand = false →
     s.lan.queue = q :: l →
     q.code = 0x0207 →
     exec (.monStateWrite 6) s = .next (if d.length ≠ 8 then v.monReply q 9 [] else if 5 ≤ leAt d 0 1 ∨ (12 < leAt d 1 1 ∧ leAt d 1 1 ≠ 15) ∨ 2048 ≤ leAt d 2 2 then v.monReply q 5 []
       else (v.portSet (leAt d 0 1) (leAt d 1 1) (leAt d 2 2) (leAt d 4 4) : State).monReply q 0 [])) ∧
  (∀ (q : MonReq) (l : List MonReq) (s : State), let u := s.qRead 18 (l.length + 1) 0 (8 + q.arg.length); let v := { u with lan := { u.lan with queue := l } }; let d := q.arg; let a := 0x10027040 + 0x40 * leAt d 0 1 + (if leAt d 1 1 < 4 then 8 + 4 * leAt d 1 1 else 0x18 + 12 * (leAt d 1 1 - 4)); let r := v.lanWrites ((d.length - 2) / 4) 4 a (d.drop 2);
     s.halted 4 = false →
     s.upd.hand = false →
     s.lan.queue = q :: l →
     q.code = 0x0208 →
     exec (.monBreak 6) s = .next (if v.is R.LANT_STAT_ATT then v.monReply q 6 [] else if d.length ≠ 2 + (if leAt d 1 1 < 4 then 4 else 12) then v.monReply q 9 [] else if 5 ≤ leAt d 0 1 ∨ 6 ≤ leAt d 1 1 then v.monReply q 5 []
       else (r.1 : State).monReply q (if r.2.2 = 0 then 0 else 6) [])) ∧
  (∀ (q : MonReq) (l : List MonReq) (s : State), let u := s.qRead 18 (l.length + 1) 0 (8 + q.arg.length); let v := { u with lan := { u.lan with queue := l } }; let d := q.arg;
     s.halted 4 = false →
     s.upd.hand = false →
     s.lan.queue = q :: l →
     q.code = 0x0209 →
     exec (.monSession 6) s = .next (if d.length ≠ 5 then v.monReply q 9 [] else if v.is R.LANT_STAT_ATT then v.monReply q 6 [] else if 2 ≤ leAt d 0 1 ∨ 32 ≤ leAt d 1 1 ∨ 1024 ≤ leAt d 2 2 then v.monReply q 5 []
       else ((v.put R.LANT_HGRP_G (leAt d 2 2)).lantCtl (leAt d 0 1 + 256 * leAt d 1 1 + 65536 * leAt d 4 1) : State).monReply q 0 [])) ∧
  (∀ (q : MonReq) (l : List MonReq) (s : State), let u := s.qRead 18 (l.length + 1) 0 (8 + q.arg.length); let v := { u with lan := { u.lan with queue := l } }; let d := q.arg;
     s.halted 4 = false →
     s.upd.hand = false →
     s.lan.queue = q :: l →
     q.code = 0x020A →
     exec (.monitorReset 6) s = .next (if d.length ≠ 0 then v.monReply q 9 [] else if v.is R.LANT_STAT_ATT then v.monReply q 6 [] else ({ v with lan := { v.lan with rst := some (8, v.now) } } : State).monReply q 0 [])) ∧
  (∀ (q : MonReq) (l : List MonReq) (s : State), let u := s.qRead 18 (l.length + 1) 0 (8 + q.arg.length); let v := { u with lan := { u.lan with queue := l } }; let d := q.arg; let w := opBootcfgStore ((v.put R.SYS_BOOTCFG_STARTRUN (leAt d 1 1)).put R.SYS_BOOTCFG_HOLDAFT (leAt d 2 1)); let r := fun (u : State) => (u : State).monReply q 0 [BitVec.ofNat 8 (u.get R.SYS_BOOTCFG_STARTRUN), BitVec.ofNat 8 (u.get R.SYS_BOOTCFG_HOLDAFT)];
     s.halted 4 = false →
     s.upd.hand = false →
     s.lan.queue = q :: l →
     q.code = 0x020B →
     exec (.monStartMode 6) s = .next (if d.length ≠ 3 then v.monReply q 9 [] else if leAt d 0 1 = 0 then r v else if leAt d 0 1 = 1 ∧ leAt d 1 1 ≤ 1 ∧ leAt d 2 1 ≤ 1 then r w else v.monReply q 5 [])) ∧
  (∀ (q : MonReq) (l : List MonReq) (s : State), let u := s.qRead 18 (l.length + 1) 0 (8 + q.arg.length); let v := { u with lan := { u.lan with queue := l } }; let d := q.arg;
     s.halted 4 = false →
     s.upd.hand = false →
     s.lan.queue = q :: l →
     q.code = 0x020C →
     exec (.monitorStatus 6) s = .next (if d.length ≠ 0 then v.monReply q 9 []
       else (v : State).monReply q 0 (leBytes 4 (v.regWord 0x10027004) ++ leBytes 4 (v.regWord 0x1002700C) ++ (List.range 5).flatMap fun e => leBytes 4 (v.regWord (0x10027040 + 0x40 * e)) ++ leBytes 4 (v.regWord (0x10027044 + 0x40 * e)))))

/-- Flash operations, update commands and the handover. An erase of a sector or block, a program and a CRC keep their address; one that finds another
running sets OPERR, and each of these sets OPERR with its code: a bad table, a misaligned erase or a program across a page, an erase or program of the
executing bank, the end of the flash. Else BUSY is 1, and a write to the inactive bank makes it unverified. Completion ends BUSY: an erase leaves
0xFF, a program clears bits and is read back with error 4 on a mismatch, and a CRC gives its value. Firmware on trial confirms itself after its time.
An update command of a Custodian is served; of any other role it is answered with 2. VERIFY checks the header and its CRC, and raises EV 267 or EV 268
with the reason. SCHEDULE of 8 bytes is refused with its code, or sets the turn and HOSCHED; CANCEL clears it. ACTIVATE of a verified bank writes the
record on trial, ROLLBACK one of the previous bank, confirmed, and a reset follows. CONFIRM and CLEAR do as named. A handover whose record passes
resets the groups whose versions differ, one without carries nothing over and closes every session; in both the new bank executes on trial. -/
def Obligations.FirmwareReplacement : Prop :=
  (∀ (a : Nat) (d : List Byte) (s : State), let err := fun (c : Nat) (t : State) => (t.put R.UPD_STAT_OPERR 1).put R.UPD_STAT_ERR c; let own := fun (t : State) => decide (bankOf (a % 2 ^ 32) = some (t.get R.UPD_BOOT_BANK));
     let run := fun (op n : Nat) (t : State) => { t with upd := { t.upd with op := some (op, a % 2 ^ 32, n) } }.put R.UPD_STAT_BUSY 1;
     let go := fun (op n : Nat) (off : Bool) (t : State) => if t.upd.op.isSome then t.put R.UPD_STAT_OPERR 1 else if t.get R.UPD_FINFO_OK = 0 then err 5 t else if off then err 6 t
       else if op ≠ 4 ∧ own t = true then err 0x16 t else if t.get R.UPD_FINFO_MIB * 0x100000 < a % 2 ^ 32 + n then err 3 t else run op n (if op = 4 then t else match bankOf (a % 2 ^ 32) with | some b => t.bankTouched b | none => t);
     exec (.updSectorErase a) s = .next (go 1 0x1000 (a % 0x1000 != 0) (s.put R.UPD_FADDR_A a)) ∧
     exec (.updBlockErase a) s = .next (go 2 0x10000 (a % 0x10000 != 0) (s.put R.UPD_FADDR_A a)) ∧
     exec (.updProgram a d) s = .next (if d = [] ∨ 256 < d.length then s else go 3 d.length (decide (256 < a % 256 + d.length)) (({ s with upd := { s.upd with fbuf := cellsPut 0#8 0 d s.upd.fbuf } }.bufStore bufFlash d.length).put R.UPD_FADDR_A a))) ∧
  (∀ (a n : Nat) (s : State), let err := fun (c : Nat) (t : State) => (t.put R.UPD_STAT_OPERR 1).put R.UPD_STAT_ERR c; let t := (s.put R.UPD_FADDR_A a).put R.UPD_CRC_LEN_N n;
     exec (.updCrc a n) s = .next (if s.upd.op.isSome then t.put R.UPD_STAT_OPERR 1 else if s.get R.UPD_FINFO_OK = 0 then err 5 t
       else if s.get R.UPD_FINFO_MIB * 0x100000 < a % 2 ^ 32 + n % 2 ^ 32 then err 3 t else { t with upd := { t.upd with op := some (4, a % 2 ^ 32, n % 2 ^ 32) } }.put R.UPD_STAT_BUSY 1)) ∧
  (∀ (ok : Bool) (s : State), let u := { s with upd := { s.upd with op := none } }.put R.UPD_STAT_BUSY 0;
     exec (.flashOperationComplete ok) s = .next (match s.upd.op with
       | none => s
       | some (op, a, n) => let v := u.bufRead bufFlash n; if op = 4 then u.put R.UPD_CRC_VAL_C (crc32 (u.norBytes a n)) else if op ≠ 3 then u.norErase a n
         else if ok = true ∧ (v.norProgram a (v.fbuf n)).norBytes a n = v.fbuf n then v.norProgram a (v.fbuf n) else ((v.norProgram a (v.fbuf n)).put R.UPD_STAT_OPERR 1).put R.UPD_STAT_ERR 4)) ∧
  (∀ (s : State),
     exec .confirmationTime s = .next (if s.phase = .up ∧ s.is R.UPD_BOOT_TRIAL = true ∧ s.upd.since + s.fwNat 0x700008 2 600 * 1000000000 ≤ s.time.real then match s.bootBest with
       | none => s
       | some c => (s.norProgram (0x1000 * c + 0x14) (leBytes 4 0)).put R.UPD_BOOT_TRIAL 0
     else s)) ∧
  (∀ (p : Fin 6) (m : Msg) (s : State),
     s.fronts p m = true →
     isCmd 0x0701 m = true →
     exec (.fwVerify p) s = .next (s.served p m fun (i : Nat) (x : Sess) (u : State) => if x.role ≠ 3 then u.cmdReply i m 2 [] else match u.header u.otherBank with | none => ((u.raise 268 u.otherBank).put R.UPD_STAT_ERR 1).cmdReply i m 6 [BitVec.ofNat 8 1] | some h => if u.headerCrc u.otherBank h.len then ({ u with upd := { u.upd with verified := setBit u.upd.verified u.otherBank true } }.raise 267 u.otherBank).cmdReply i m 0 [] else ((u.raise 268 u.otherBank).put R.UPD_STAT_ERR 2).cmdReply i m 6 [BitVec.ofNat 8 2])) ∧
  (∀ (p : Fin 6) (m : Msg) (s : State),
     s.fronts p m = true →
     isCmd 0x0702 m = true →
     exec (.fwDryrun p) s = .next (s.served p m fun (i : Nat) (x : Sess) (u : State) => if x.role ≠ 3 then u.cmdReply i m 2 [] else u.fwDryrun.1.cmdReply i m 0 u.fwDryrun.2.2)) ∧
  (∀ (p : Fin 6) (m : Msg) (s : State),
     s.fronts p m = true →
     isCmd 0x0703 m = true →
     exec (.fwSchedule p) s = .next (s.served p m fun (i : Nat) (x : Sess) (u : State) => if x.role ≠ 3 then u.cmdReply i m 2 [] else if m.body.length ≠ 12 then u.cmdReply i m 9 [] else match u.scheduleErr (leNat (m.body.drop 4)) with | some c => (u.put R.UPD_STAT_ERR c).cmdReply i m 6 [BitVec.ofNat 8 c] | none => (({ u with upd := { u.upd with at_ := some (leNat (m.body.drop 4)) } }.put64 R.UPD_AT_LO_A R.UPD_AT_HI_A (leNat (m.body.drop 4))).put R.UPD_CTL_HOSCHED 1).cmdReply i m 0 [])) ∧
  (∀ (p : Fin 6) (m : Msg) (s : State),
     s.fronts p m = true →
     isCmd 0x0704 m = true →
     exec (.fwCancel p) s = .next (s.served p m fun (i : Nat) (x : Sess) (u : State) => if x.role ≠ 3 then u.cmdReply i m 2 [] else ({ u with upd := { u.upd with at_ := none } }.put R.UPD_CTL_HOSCHED 0).cmdReply i m 0 [])) ∧
  (∀ (p : Fin 6) (m : Msg) (s : State),
     s.fronts p m = true →
     isCmd 0x0705 m = true →
     exec (.fwActivate p) s = .next (s.served p m fun (i : Nat) (x : Sess) (u : State) => if x.role ≠ 3 then u.cmdReply i m 2 [] else if bit u.upd.verified u.otherBank = false then (u.put R.UPD_STAT_ERR 0x10).cmdReply i m 6 [BitVec.ofNat 8 0x10] else if u.pairMember = true ∧ (match u.header (u.get R.UPD_BOOT_BANK), u.header u.otherBank with | some r, some n => r.compat == n.compat | _, _ => false) = false ∧ leAt (m.body.drop 4) 0 1 ≠ 1 then (u.put R.UPD_STAT_ERR 0x17).cmdReply i m 6 [BitVec.ofNat 8 0x17] else ((u.bootWrite u.otherBank (u.get R.UPD_BOOT_BANK) (u.fwNat 0x700009 1 3) false).resetSoon).cmdReply i m 0 [])) ∧
  (∀ (p : Fin 6) (m : Msg) (s : State),
     s.fronts p m = true →
     isCmd 0x0706 m = true →
     exec (.fwConfirm p) s = .next (s.served p m fun (i : Nat) (x : Sess) (u : State) => if x.role ≠ 3 then u.cmdReply i m 2 [] else u.bootConfirm.cmdReply i m 0 [])) ∧
  (∀ (p : Fin 6) (m : Msg) (s : State),
     s.fronts p m = true →
     isCmd 0x0707 m = true →
     exec (.fwRollback p) s = .next (s.served p m fun (i : Nat) (x : Sess) (u : State) => if x.role ≠ 3 then u.cmdReply i m 2 [] else if u.header u.bootRec.prev = none then (u.put R.UPD_STAT_ERR 1).cmdReply i m 6 [BitVec.ofNat 8 1] else if u.pairMember = true ∧ (match u.header (u.get R.UPD_BOOT_BANK), u.header u.bootRec.prev with | some r, some n => r.compat == n.compat | _, _ => false) = false ∧ leAt (m.body.drop 4) 0 1 ≠ 1 then (u.put R.UPD_STAT_ERR 0x17).cmdReply i m 6 [BitVec.ofNat 8 0x17] else ((u.bootWrite u.bootRec.prev (1 - u.bootRec.prev) (u.fwNat 0x700009 1 3) true).resetSoon).cmdReply i m 0 [])) ∧
  (∀ (p : Fin 6) (m : Msg) (s : State),
     s.fronts p m = true →
     isCmd 0x0708 m = true →
     exec (.fwClearResetList p) s = .next (s.served p m fun (i : Nat) (x : Sess) (u : State) => if x.role ≠ 3 then u.cmdReply i m 2 [] else ((u.keepWait true 0xFF0031 0 (List.replicate 32 0#8)).keepSettle).cmdReply i m 0 [])) ∧
  (∀ (n : FwHeader) (s : State), let u := (s.recordRead.1.put R.UPD_BOOT_BANK s.otherBank).put R.UPD_BOOT_TRIAL 1; let good := recordOk s.recordRead.2 n; let v := { u with upd := { u.upd with at_ := none, hand := false, done := true, since := s.time.real, compat := n.compat } }.put R.UPD_CTL_HOSCHED 0;
     let drop := { v with dict := { v.dict with vals := v.dict.vals.filter (fun x => params.any fun p => p.num == x.1 && p.pers == 1), batch := [], reqs := [], edge := 0, hits := [], acted := 0, pen := false } }.warn 6 0;
     let old := slice s.recordRead.2 0x10 129; let gain := if good then (List.range 129).filter fun g => leAt old g 1 != n.groups.getD g 0 else [];
     let w := (if good then v else drop).handoverSessions (!good || gain.contains 0x21); let x := gain.foldl (fun (t : State) (g : Nat) => t.groupReset (leAt old g 1) (if g = 128 then 0xF0 else g)) w;
     let y := if gain = [] then x.raise 269 0 else (x.raise 269 0).raise 271 gain.length; let z := y.bootWrite s.otherBank (s.get R.UPD_BOOT_BANK) (y.fwNat 0x700009 1 3) false;
     s.header s.otherBank = some n →
     exec .handoverComplete s = .next (if s.upd.hand = false then s else ((z.upE 4 fun x => { x with pc := 0x30000000 + svBank s.otherBank + n.hand }).note 6 s.otherBank).dictSettle)) ∧
  (∀ (s : State),
     s.header s.otherBank = none →
     exec .handoverComplete s = .next s)

/-- Writes of registers. A write of a word to a register slot is judged first, but for Lantern's writes to the checker's own block. One that is not
permitted does what a violation does and nothing else; a permitted one is refused by the target, changing nothing more, or, where it is a control
write that finds no room, with DWFULL; else it has the effect that its block gives the whole word. At an address that is no word of a register slot
nothing happens. -/
def Obligations.RegisterWrites : Prop :=
  (∀ (r : Fin 8) (a : Nat) (v : Word) (s : State), let x := if r = 7 ∧ inRange a 0x1000E000 0x1000 = true then (s, true) else s.check r 1 a 4;
     exec (.registerWrite r a v) s = .next (if a < 0x10000000 ∨ 0x10060000 ≤ a ∨ a % 4 ≠ 0 then s else if x.2 = false ∨ (x.1 : State).writeStop r a v.toNat ≠ 0 then x.1
       else if (x.1 : State).ctrlFull a then (x.1 : State).put R.RFL_STAT_DWFULL 1
       else (x.1 : State).blockWrite (State.busHook 2) r a v.toNat 0xFFFFFFFF))

/-- What a tick, a latch end, mode requests, Standby and register writes do. A tick in Run or Hold takes up its farm time, counts the turn that the time
since the phase gives, opens the latch, which ends 2 µs later, and, with no step due, fixes the next tick at the first aligned instant after it. A
latch end shows the input areas of the back copy and leaves the rest of the image; outside Run no release is due and the latch is over. Hold is
accepted of a unit that does not follow and is not in Standby, in Run where no switch and no handover wait; Run where the tables are sound, the
carrier divides the period, every enabled task's engine has its program, ticks are enabled and no device fault or command holds the device in Umbra;
Standby, with ticks enabled, in Run as Hold: each is then asked for with reason 0, and nothing else changes. STORE of the start-up mode puts the
record with its two bits into the Keep queue. Standby is entered where it waits in Hold with no transfer and an empty Keep queue: without a debugger
every engine, register and pin outside the RTC block is as after reset and flash and Keep array stay; with one the engines are halted. A permitted
write of TURN.STAT clears the bits named, one of DLNK.THOFF and BRICK.CTL sets the fields, one of TURN.COUNT nothing, and no other field changes. -/
def Obligations.TurnAndModeEffects : Prop :=
  (∀ (t : Nat) (s : State), let b := s.svCatchUp.pubLate.tickStart t; let e := b.tickEvents;
     let w := ((e.dlnkTick.lifeTick t).roleTick t e.seq.abs (e.stepDue t).isSome).dictApplied.waveTick;
     s.time.nextTick = some t →
     s.phase = .up →
     s.seq.inLatch = false →
     exec .tick s = .next (w.fixNext t (e.stepDue t)).owedTick.keepLevel.dictSettle ∧ b.time.tick = t ∧ b.seq.inLatch = true ∧ b.seq.latchAt = t + 2000 ∧
     b.seq.abs = (t / 10 - b.get R.TURN_PHASE_PHI) / max 1 b.period ∧ b.get R.TURN_COUNT_COUNT = b.seq.abs % 2 ^ 32 ∧
     (0 < w.period → 10 * w.get R.TURN_PHASE_PHI ≤ t → ∃ x : Nat, (w.fixNext t none).time.nextTick = some x ∧ t + 10 ≤ x ∧ x < t + 10 + 10 * w.period ∧ (x - 10 * w.get R.TURN_PHASE_PHI) % (10 * w.period) = 0)) ∧
  (∀ (s : State), let u := s.advance s.seq.latchAt; let r := if u.lead then u.leadRecord else u; let w := r.imageSwap.raise 17 (r.get R.TURN_COUNT_COUNT);
     let v := { w with rfl := { w.rfl with latchT := w.time.real } }; let q := (if v.following then [0, 1, 2, 3].foldl (fun q e => State.turnBegin e q) v else v); let x := q.seqLatchEnd.stepFive.pubPrep;
     s.seq.inLatch = true →
     s.inv = true →
     exec .latchEnd s = .next (if x.upd.hand then x else if x.halted 4 then { x with seq := { x.seq with svOwed := true } } else x.dictLatchEnd.svServe) ∧
     (∀ o, o < 0x10000 → r.imageSwap.mb (0x03000000 + o) = if inputArea o ∨ cellGet 0#8 r.back o ≠ 0#8 then cellGet 0#8 r.back o else r.mb (0x03000000 + o)) ∧
     (q.inRun = false → q.seqLatchEnd.seq.inLatch = false ∧ q.seqLatchEnd.engs = q.engs ∧ q.seqLatchEnd.mem = q.mem)) ∧
  (∀ (m : Nat) (s : State), let f := fun (s t : State) (l : List Nat) => t = { s with flds := t.flds, pwr := t.pwr } ∧ ∀ (g : Fam) (i j : Nat), g.key i j ∉ l → t.get g i j = s.get g i j;
     let a := fun t : State => t.pwr = { s.pwr with want := some m, standby := false, wbDue := false } ∧ t.get R.SYS_MODEREQ_REASON = 0 ∧ t.get R.SYS_MODEREQ_PEND = 1 ∧
       f s t [R.SYS_MODEREQ_REASON.key 0 0, R.SYS_MODEREQ_PEND.key 0 0];
     let free := s.inRun = false ∨ ((∀ e < 4, (s.prgSt e).at_ = none) ∧ s.upd.at_ = none);
     s.following = false →
     s.phase ≠ .standby →
     (m = 1 → free → ∃ t : State, exec (.modeRequest m) s = .next t ∧ a t) ∧
     (m = 2 → s.is R.TURN_CTL_EN = true → s.inRun = true → free → ∃ t : State, exec (.modeRequest m) s = .next t ∧ a t) ∧
     (m = 0 → s.tableCheck = none → s.get R.GDRV_CP_CP ≠ 0 → s.period % s.get R.GDRV_CP_CP = 0 → (∀ n < 48, s.is R.TSK_CFG_EN n = true → (s.prgSt (s.tEng n)).loaded = true) → s.is R.TURN_CTL_EN = true →
       (s.get R.EXC_STAT_DEVCAUSE = 0 ∨ 6 ≤ s.get R.EXC_STAT_DEVCAUSE) → bit (s.get R.EXC_UCSET_DEV) 1 = false → ∃ t : State, exec (.modeRequest m) s = .next t ∧ a t)) ∧
  (∀ (s : State), let q := KeepReq.store true 0xFF0011 [BitVec.ofNat 8 (s.get R.SYS_BOOTCFG_STARTRUN + 2 * s.get R.SYS_BOOTCFG_HOLDAFT)];
     s.keep.waits = [] →
     s.keep.pfail = false →
     s.keep.late = [] →
     (∀ r ∈ s.keep.queue.head?, r ≠ .save none) →
     s.keepLen < 60 →
     s.keepBytes + 1 ≤ 15360 →
     s.log.queue = [] →
     s.log.lostSince = 0 →
     ∃ t : State, exec .bootcfgStore s = .next t ∧ t.keep = { s.keep with queue := s.keep.queue ++ [q] } ∧ t.get R.KEEP_QSEQ_N = (s.get R.KEEP_QSEQ_N + 1) % 2 ^ 32 ∧
       t.log = s.log ∧ t.arr = s.arr ∧ t.mem = s.mem ∧ t.engs = s.engs) ∧
  (∀ (s : State),
     s.pwr.standby = true →
     s.inRun = false →
     s.phase = .up →
     s.brick.xfer = 0 →
     s.pwr.wbDue = false →
     s.keepLen = 0 →
     ∃ t : State, exec .standbyEntry s = .next t ∧ t.phase = .standby ∧ t.time.nextTick = none ∧ t.pwr.want = none ∧ t.arr = s.arr ∧ t.nor = s.nor ∧
       (s.is R.LANT_STAT_ATT = false → t.engs = State.reset.engs ∧ t.seq = State.reset.seq ∧ t.rfl = State.reset.rfl ∧ t.dies = State.reset.dies ∧
         ∀ (g : Fam) (i j : Nat), rtcKey (g.key i j) = false → t.get g i j = State.reset.get g i j) ∧
       (s.is R.LANT_STAT_ATT = true → t.get R.LANT_STAT_EMUSTBY = 1 ∧ ∀ e < 5, t.halted e = true)) ∧
  (∀ (r : Fin 8) (v : Word) (s : State), let ok := fun a : Nat => (s.judge r (s.reqPriv r) 1 a).ok = true;
     let f := fun (t : State) (l : List Nat) => t = { s with flds := t.flds } ∧ ∀ (g : Fam) (i j : Nat), g.key i j ∉ l → t.get g i j = s.get g i j;
     let c := fun (t : State) (g : Fam) => t.get g = if bit v.toNat g.lsb then 0 else s.get g;
     (ok 0x10004010 → ∃ t : State, exec (.registerWrite r 0x10004010 v) s = .next t ∧ c t R.TURN_STAT_PERR ∧ c t R.TURN_STAT_SVLATE ∧ c t R.TURN_STAT_STEPPED ∧
       f t [R.TURN_STAT_PERR.key 0 0, R.TURN_STAT_SVLATE.key 0 0, R.TURN_STAT_STEPPED.key 0 0]) ∧
     (ok 0x1002100C → ∃ t : State, exec (.registerWrite r 0x1002100C v) s = .next t ∧ t.get R.DLNK_THOFF_K = v.toNat % 4096 ∧ f t [R.DLNK_THOFF_K.key 0 0]) ∧
     (ok 0x1002B000 → s.pwr.linkLost = false → s.domGone 42 = false → ∃ t : State, exec (.registerWrite r 0x1002B000 v) s = .next t ∧ t.get R.BRICK_CTL_EN = v.toNat % 2 ∧
       t.get R.BRICK_CTL_ADDR = v.toNat / 2 % 128 ∧ f t [R.BRICK_CTL_EN.key 0 0, R.BRICK_CTL_ADDR.key 0 0]) ∧
     (ok 0x1000400C → exec (.registerWrite r 0x1000400C v) s = .next s))

/-- Every step keeps the invariant of the machine. From every state that meets the invariant, reached or not, a step that answers a next state answers
one that meets it: the byte memories keep their canonical form, the event FIFO its 256 entries with the last kept for EV 15, the log queue its 64
and the RAM log buffer its 256 entries, and farm time stays a multiple of 10 ns. -/
def Obligations.StepKeepsInvariant : Prop :=
  ∀ (s t : State),
    s.inv = true →
    step s = .next t →
    t.inv = true

/-- No command changes the queue of waiting commands. From every state that meets the invariant, whatever command is carried out, the commands that
wait behind it wait still, in their order, and the invariant holds. The queue is the model's, not the spec's (log entry 1). -/
def Obligations.CommandsLeaveTheQueue : Prop :=
  ∀ (c : Instr) (s t : State),
    s.inv = true →
    exec c s = .next t →
    t.pending = s.pending ∧
    t.inv = true

/-- Every command completes in every state. Whatever the state, a command answers a next state: no command of the model ends in a fault or a refusal.
What a command does when the device turns it away is a next state too. -/
def Obligations.EveryCommandCompletes : Prop :=
  ∀ (c : Instr) (s : State),
    ∃ t : State, exec c s = .next t

/-- A step runs the command at the front of the queue. With a command at the front of the queue, a step is that command carried out on the state with
the rest of the queue. The queue is the model's (log entry 1). -/
def Obligations.FrontCommand : Prop :=
  ∀ (c : Instr) (l : List Instr) (s : State),
    step { s with pending := c :: l } = exec c { s with pending := l }

/-- A step with nothing waiting. With an empty queue one cycle of CD2 passes and nothing else happens: the model's choice (log entry 2). No word of
the opcode table spells a command, since its rows have no bits, so that none is put in front of the queue. -/
def Obligations.EmptyQueue : Prop :=
  (∀ (s : State),
     s.pending = [] →
     step s = .next (s.cyclesPass 1)) ∧
  (∀ (n w : Nat) (s : State),
     decodeTableWord n w = none ∧
     s.withFetchWord n w = s)

/-- The state after reset meets the invariant. The invariant that every step keeps holds at reset. -/
def Obligations.ResetInvariant : Prop :=
    State.reset.inv = true

/-- The state after reset. At reset the memories list nothing, no command waits, the device waits for the release of its power-on reset, and registers
hold the values that their tables give: a turn period of 25 000, a carrier period of 6 250, phase 0, bridge mode 0, no Mirror pair, an empty event
FIFO and no start-up step. -/
def Obligations.ResetState : Prop :=
    State.reset.mem = [] ∧
    State.reset.nor = [] ∧
    State.reset.arr = [] ∧
    State.reset.pending = [] ∧
    State.reset.phase = .reset ∧
    State.reset.get R.TURN_PERIOD_P = 25000 ∧
    State.reset.get R.TURN_PHASE_PHI = 0 ∧
    State.reset.get R.GDRV_CP_CP = 6250 ∧
    State.reset.get R.GDRV_CPACT_CP = 6250 ∧
    State.reset.get R.EXC_CTL_BRMODE = 0 ∧
    State.reset.get R.EXC_CTL_MIR01 = 0 ∧
    State.reset.get R.EVT_STAT_FILL = 0 ∧
    State.reset.get R.SYS_BOOTSTAT_STEP = 0

/-- Bytes of the memories. A store changes its own bytes and no other: every address outside reads as before, in memory, in the flash and in the Keep
array; the bytes stored read back; the canonical form is kept; and a word stored low byte first reads back as the word. -/
def Obligations.MemoryBytes : Prop :=
  (∀ (a b : Nat) (l : List Byte) (s : State),
     b < a ∨ a + l.length ≤ b →
     (s.setMem a l).mb b = s.mb b ∧
     (s.setNor a l).norBytes b 1 = s.norBytes b 1 ∧
     (s.setArr a l).arrBytes b 1 = s.arrBytes b 1) ∧
  (∀ (a : Nat) (l : List Byte) (v : Word) (s : State),
     Memory.wf s = true →
     (s.setMem a l).mbs a l.length = l ∧
     Memory.wf (s.setMem a l) = true ∧
     (s.setMem a (leBytes 4 v.toNat)).mw a = v.toNat)

/-- What the operations of ALU, CMP, MUL and DIV leave alone. An operation of the four units on an engine that issues the bundle on its own, with no
occurrence of a timer due, changes that engine, the cycles charged and at most the count of free values: every byte of the memories, every
register field, every other engine and the state of every block stay as they were. -/
def Obligations.UnitFrame : Prop :=
  ∀ (c : Instr) (e : Fin 5) (v : Word) (s t : State),
    c ∈ [Instr.aluAdd e v, Instr.aluSub e v, Instr.aluAnd e v, Instr.aluOr e v, Instr.aluXor e v, Instr.aluAndn e v, Instr.aluShl e v, Instr.aluShr e v, Instr.aluSar e v, Instr.aluRol e v, Instr.aluMin e v, Instr.aluMax e v, Instr.aluMinu e v, Instr.aluMaxu e v, Instr.aluAdds e v, Instr.aluSubs e v, Instr.aluAbs e v, Instr.aluNeg e v, Instr.aluSxt e v, Instr.aluClz e v, Instr.cmpEq e v, Instr.cmpNe e v, Instr.cmpLt e v, Instr.cmpLe e v, Instr.cmpGt e v, Instr.cmpGe e v, Instr.cmpLtu e v, Instr.cmpGeu e v, Instr.cmpEqa e v, Instr.cmpLta e v, Instr.cmpLea e v, Instr.cmpLtua e v, Instr.cmpLeua e v, Instr.mulMuls e v, Instr.mulMulu e v, Instr.mulMulq31 e v, Instr.divDivs e v, Instr.divDivu e v] →
    s.plain e = true →
    ((s.eng e).dueAt (s.eng e).cyc).all (fun f => f.ev.isNone) = true →
    exec c s = .next t →
    t.mem = s.mem ∧
    t.back = s.back ∧
    t.work = s.work ∧
    t.nor = s.nor ∧
    t.arr = s.arr ∧
    t.flds = s.flds ∧
    (∀ f, f ≠ e.val → t.eng f = s.eng f) ∧
    t.m = s.m ∧
    t.time = s.time ∧
    t.evt = s.evt ∧
    t.exc = s.exc ∧
    t.log = s.log ∧
    t.rfl = s.rfl ∧
    t.pwm = s.pwm ∧
    t.keep = s.keep ∧
    t.dict = s.dict ∧
    t.pending = s.pending

/-- What register commands leave alone. The named commands of the converters, the waveform engine, the field inputs, the drive registers, the Keep and
log interfaces and the wire change no byte of any memory, no engine, no task and no waiting command. -/
def Obligations.RegisterFrame : Prop :=
  ∀ (c : Instr) (k : Nat) (n : Fin 16) (p : Fin 8) (b : Bool) (v : Word) (s t : State),
    c ∈ [Instr.ocLatchClear k, Instr.sadcFifoPop n, Instr.sadcImgWrite v, Instr.dioIbindWrite v, Instr.waveStop p, Instr.vfldCutoff b, Instr.passwordBlockEnd, Instr.recFind b v, Instr.logUnpin, Instr.gdrvDtWrite v, Instr.gdrvCpWrite v, Instr.gdrvLoad p, Instr.millerClampEngage p, Instr.lanternInvalidCell, Instr.lanternFrameTimeout, Instr.lanternBreak, Instr.logAppend k k 5 b, Instr.dlnkChbindWrite v] →
    exec c s = .next t →
    t.mem = s.mem ∧
    t.back = s.back ∧
    t.work = s.work ∧
    t.nor = s.nor ∧
    t.arr = s.arr ∧
    t.engs = s.engs ∧
    t.seq = s.seq ∧
    t.pending = s.pending

/-- The fields of a slot. For every value of its fields, the move that a slot word stands for has the guard of bits 31 and 30, the destination of bits
28 to 18, and as its source the immediate of bits 17 to 0 when bit 29 is 1, or the port of bits 10 to 0 when it is 0. Guard 0 passes always, 1 if
the accumulator is 1, 2 if it is 0, and 3 never; a slot with a bit of 17 to 11 set beside a port is not such a move. -/
def Obligations.SlotFields : Prop :=
  ∀ (g d i p : Nat) (acc : Bool),
    g < 4 →
    d < 2048 →
    i < 2 ^ 18 →
    p < 2048 →
    slotMove (2 ^ 30 * g + 2 ^ 29 + 2 ^ 18 * d + i) = { guard := g, src := .imm i, dst := d, raw := 2 ^ 30 * g + 2 ^ 29 + 2 ^ 18 * d + i } ∧
    slotMove (2 ^ 30 * g + 2 ^ 18 * d + p) = { guard := g, src := .port p, dst := d, raw := 2 ^ 30 * g + 2 ^ 18 * d + p } ∧
    (slotMove (2 ^ 30 * g + 2 ^ 18 * d + p)).illegal = false ∧
    ((slotMove (2 ^ 30 * g + 2 ^ 18 * d + p)).passes acc = true ↔ g = 0 ∨ (g = 1 ∧ acc = true) ∨ (g = 2 ∧ acc = false))

/-- The entries of a CTRL frame read back as they were sent. For every list of entries whose fields fit and whose requester is the Reflect engine (the
link carries none), reading the payload that the Lead makes of them gives the same entries, in order, with every byte of their data. -/
def Obligations.ControlEntriesRoundTrip : Prop :=
  ∀ (l : List CtrlEnt),
    (∀ c ∈ l, c.addr < 2 ^ 32 ∧ c.kind < 256 ∧ c.data.length < 65536 ∧ c.req = 6) →
    ctrlEntries ((l.flatMap ctrlBytes).length / 8) (l.flatMap ctrlBytes) = l
end

