-- ==== Sys2Proof/Laws/Cells.lean ====
section
/-! SUPPORT. Laws/Cells.lean: sparse tables and byte memories: what a read gives after a write, and that every write keeps the canonical form. -/

namespace Sys2Proof.Machine

@[simp] theorem Store.find_nil (k : Nat) : Store.find k ([] : Store α) = none := rfl

theorem Store.find_put_same (k : Nat) (v : α) (t : Store α) : Store.find k (Store.put k v t) = some v := by
  induction t with
  | nil => simp [Store.put, Store.find]
  | cons e r ih =>
    obtain ⟨j, w⟩ := e
    simp only [Store.put]
    split
    · simp [Store.find]
    · split
      · simp [Store.find]
      · simp_all [Store.find]

theorem Store.find_put_ne {k j : Nat} (h : j ≠ k) (v : α) (t : Store α) : Store.find k (Store.put j v t) = Store.find k t := by
  induction t with
  | nil => simp [Store.put, Store.find, h]
  | cons e r ih =>
    obtain ⟨i, w⟩ := e
    simp only [Store.put]
    split
    · simp [Store.find, h]
    · split
      · next h1 => subst h1; simp [Store.find, h]
      · simp_all [Store.find]

theorem Store.find_del_same (k : Nat) (t : Store α) : Store.find k (Store.del k t) = none := by
  induction t with
  | nil => rfl
  | cons e r ih =>
    obtain ⟨j, w⟩ := e
    simp only [Store.del, List.filter_cons] at *
    by_cases h : j = k <;> simp_all [Store.find]

theorem Store.find_del_ne {k j : Nat} (h : j ≠ k) (t : Store α) : Store.find k (Store.del j t) = Store.find k t := by
  induction t with
  | nil => rfl
  | cons e r ih =>
    obtain ⟨i, w⟩ := e
    simp only [Store.del, List.filter_cons] at *
    by_cases h1 : i = j
    · subst h1; simp_all [Store.find]
    · simp_all [Store.find]

/-! ## Sorted tables -/

/-- The keys of a sorted table, as a pairwise order. -/
theorem Store.sorted_iff (t : Store α) : Store.sorted t = true ↔ t.Pairwise fun a b => a.1 < b.1 := by
  induction t with
  | nil => simp [Store.sorted]
  | cons e r ih =>
    cases r with
    | nil => simp [Store.sorted]
    | cons e' r' =>
      obtain ⟨j, v⟩ := e
      obtain ⟨k, w⟩ := e'
      simp only [Store.sorted, Bool.and_eq_true, decide_eq_true_eq, ih, List.pairwise_cons, List.mem_cons, forall_eq_or_imp]
      constructor
      · rintro ⟨h1, h2, h3⟩
        exact ⟨⟨h1, fun a ha => Nat.lt_trans h1 (h2 a ha)⟩, h2, h3⟩
      · rintro ⟨⟨h1, _⟩, h2, h3⟩
        exact ⟨h1, h2, h3⟩

theorem Store.mem_put {k : Nat} {v : α} {t : Store α} {e : Nat × α} (h : e ∈ Store.put k v t) : e = (k, v) ∨ e ∈ t := by
  induction t with
  | nil => simpa [Store.put] using h
  | cons e' r ih =>
    obtain ⟨j, w⟩ := e'
    simp only [Store.put] at h
    split at h
    · simpa using h
    · split at h
      · rcases List.mem_cons.1 h with h | h
        · exact .inl h
        · exact .inr (List.mem_cons_of_mem _ h)
      · rcases List.mem_cons.1 h with h | h
        · exact .inr (h ▸ List.mem_cons_self ..)
        · exact (ih h).imp id (List.mem_cons_of_mem _)

theorem Store.sorted_put (k : Nat) (v : α) {t : Store α} (h : Store.sorted t = true) : Store.sorted (Store.put k v t) = true := by
  rw [Store.sorted_iff] at *
  induction t with
  | nil => simp [Store.put]
  | cons e r ih =>
    obtain ⟨j, w⟩ := e
    have hp := List.pairwise_cons.1 h
    simp only [Store.put]
    split
    · next hk =>
      refine List.pairwise_cons.2 ⟨fun a ha => ?_, h⟩
      rcases List.mem_cons.1 ha with rfl | ha
      · exact hk
      · exact Nat.lt_trans hk (hp.1 a ha)
    · split
      · next hj => subst hj; exact List.pairwise_cons.2 ⟨hp.1, hp.2⟩
      · refine List.pairwise_cons.2 ⟨fun a ha => ?_, ih hp.2⟩
        rcases Store.mem_put ha with rfl | ha
        · exact Nat.lt_of_le_of_ne (Nat.le_of_not_lt ‹_›) ‹_›
        · exact hp.1 a ha

theorem Store.sorted_filter (p : Nat × α → Bool) {t : Store α} (h : Store.sorted t = true) : Store.sorted (t.filter p) = true := by
  rw [Store.sorted_iff] at *
  exact h.filter p

/-! ## Byte memories -/

theorem cellsWf_iff (d : Byte) (t : List Host.Cell) : cellsWf d t = true ↔ Store.sorted t = true ∧ ∀ c ∈ t, c.2 ≠ d := by
  simp [cellsWf]

@[simp] theorem cellsWf_nil (d : Byte) : cellsWf d [] = true := rfl

theorem cellsWf_filter (d : Byte) (p : Host.Cell → Bool) {t : List Host.Cell} (h : cellsWf d t = true) : cellsWf d (t.filter p) = true := by
  rw [cellsWf_iff] at *
  exact ⟨Store.sorted_filter p h.1, fun c hc => h.2 c (List.mem_filter.1 hc).1⟩

theorem cellsWf_cellPut (d : Byte) (a : Nat) (b : Byte) {t : List Host.Cell} (h : cellsWf d t = true) : cellsWf d (cellPut d a b t) = true := by
  unfold cellPut
  split
  · exact cellsWf_filter d _ h
  · next hb =>
    rw [cellsWf_iff] at *
    refine ⟨Store.sorted_put a b h.1, fun c hc => ?_⟩
    rcases Store.mem_put hc with rfl | hc
    · exact hb
    · exact h.2 c hc

theorem cellsWf_cellsPut (d : Byte) (a : Nat) (l : List Byte) {t : List Host.Cell} (h : cellsWf d t = true) :
    cellsWf d (cellsPut d a l t) = true := by
  induction l generalizing a t with
  | nil => exact h
  | cons b r ih => exact ih (a + 1) (cellsWf_cellPut d a b h)

theorem cellsWf_foldl_cellPut (d : Byte) (f : Host.Cell → Nat) (g : Host.Cell → Byte) (l : List Host.Cell) {t : List Host.Cell}
    (h : cellsWf d t = true) : cellsWf d (l.foldl (fun t c => cellPut d (f c) (g c) t) t) = true := by
  induction l generalizing t with
  | nil => exact h
  | cons c r ih => exact ih (cellsWf_cellPut d _ _ h)

/-- Moving every address down keeps the form, if all addresses are high enough. -/
theorem cellsWf_shift (d : Byte) (k : Nat) {t : List Host.Cell} (h : cellsWf d t = true) (hk : ∀ c ∈ t, k ≤ c.1) :
    cellsWf d (t.map fun c => (c.1 - k, c.2)) = true := by
  rw [cellsWf_iff, Store.sorted_iff] at *
  refine ⟨List.pairwise_map.2 (h.1.imp_of_mem fun {a b} ha hb hab => ?_), fun c hc => ?_⟩
  · have := hk a ha; have := hk b hb; simp only; omega
  · obtain ⟨c', hc', rfl⟩ := List.mem_map.1 hc
    exact h.2 c' hc'

/-- A byte reads as what was written to it last. -/
theorem cellGet_cellPut_same (d : Byte) (a : Nat) (b : Byte) (t : List Host.Cell) : cellGet d (cellPut d a b t) a = b := by
  unfold cellGet cellPut Store.getD
  split
  · next h => rw [Store.find_del_same]; exact h.symm
  · rw [Store.find_put_same]; rfl

theorem cellGet_cellPut_ne (d : Byte) {a a' : Nat} (h : a ≠ a') (b : Byte) (t : List Host.Cell) :
    cellGet d (cellPut d a b t) a' = cellGet d t a' := by
  unfold cellGet cellPut Store.getD
  split
  · rw [Store.find_del_ne h]
  · rw [Store.find_put_ne h]

/-- A write of several bytes leaves every byte outside them alone. -/
theorem cellGet_cellsPut_out (d : Byte) (a a' : Nat) (l : List Byte) (t : List Host.Cell) (h : a' < a ∨ a + l.length ≤ a') :
    cellGet d (cellsPut d a l t) a' = cellGet d t a' := by
  induction l generalizing a t with
  | nil => rfl
  | cons b r ih =>
    rw [cellsPut, ih (a + 1) _ (by simp only [List.length_cons] at h; omega)]
    exact cellGet_cellPut_ne d (by simp only [List.length_cons] at h; omega) b t

/-- Reading the bytes just written gives them back. -/
theorem cellsGet_cellsPut (d : Byte) (a : Nat) (l : List Byte) (t : List Host.Cell) : cellsGet d (cellsPut d a l t) a l.length = l := by
  have gen : ∀ (l : List Byte) (a : Nat) (t : List Host.Cell), cellsGet d (cellsPut d a l t) a l.length = l := by
    intro l
    induction l with
    | nil => intros; rfl
    | cons b r ih =>
      intro a t
      simp only [List.length_cons, cellsGet, cellsPut]
      rw [ih, cellGet_cellsPut_out d (a + 1) a r _ (Or.inl (Nat.lt_succ_self a)), cellGet_cellPut_same]
  exact gen l a t

theorem cellsGet_cellsPut_out (d : Byte) (a a' n : Nat) (l : List Byte) (t : List Host.Cell) (h : a' + n ≤ a ∨ a + l.length ≤ a') :
    cellsGet d (cellsPut d a l t) a' n = cellsGet d t a' n := by
  induction n generalizing a' with
  | zero => rfl
  | succ n ih =>
    rw [cellsGet, cellsGet, ih (a' + 1) (by omega), cellGet_cellsPut_out d a a' l t (by omega)]

end Sys2Proof.Machine
end

