-- ==== Sys2Proof/Laws/State.lean ====
section
/-! SUPPORT. Laws/State.lean: what each named update changes and what it leaves alone, one lemma per field per update, all true by `rfl`; and
what a register field, an engine and a task read as after a write. -/

namespace Sys2Proof.Machine

@[simp] theorem State.put_mem (s : State) (f : Fam) (v i j : Nat) : (s.put f v i j).mem = s.mem := Eq.refl _
@[simp] theorem State.put_back (s : State) (f : Fam) (v i j : Nat) : (s.put f v i j).back = s.back := Eq.refl _
@[simp] theorem State.put_work (s : State) (f : Fam) (v i j : Nat) : (s.put f v i j).work = s.work := Eq.refl _
@[simp] theorem State.put_nor (s : State) (f : Fam) (v i j : Nat) : (s.put f v i j).nor = s.nor := Eq.refl _
@[simp] theorem State.put_arr (s : State) (f : Fam) (v i j : Nat) : (s.put f v i j).arr = s.arr := Eq.refl _
@[simp] theorem State.put_m (s : State) (f : Fam) (v i j : Nat) : (s.put f v i j).m = s.m := Eq.refl _
@[simp] theorem State.put_time (s : State) (f : Fam) (v i j : Nat) : (s.put f v i j).time = s.time := Eq.refl _
@[simp] theorem State.put_seq (s : State) (f : Fam) (v i j : Nat) : (s.put f v i j).seq = s.seq := Eq.refl _
@[simp] theorem State.put_evt (s : State) (f : Fam) (v i j : Nat) : (s.put f v i j).evt = s.evt := Eq.refl _
@[simp] theorem State.put_exc (s : State) (f : Fam) (v i j : Nat) : (s.put f v i j).exc = s.exc := Eq.refl _
@[simp] theorem State.put_engs (s : State) (f : Fam) (v i j : Nat) : (s.put f v i j).engs = s.engs := Eq.refl _
@[simp] theorem State.put_log (s : State) (f : Fam) (v i j : Nat) : (s.put f v i j).log = s.log := Eq.refl _
@[simp] theorem State.put_phase (s : State) (f : Fam) (v i j : Nat) : (s.put f v i j).phase = s.phase := Eq.refl _
@[simp] theorem State.put_rfl (s : State) (f : Fam) (v i j : Nat) : (s.put f v i j).rfl = s.rfl := Eq.refl _
@[simp] theorem State.put_dies (s : State) (f : Fam) (v i j : Nat) : (s.put f v i j).dies = s.dies := Eq.refl _
@[simp] theorem State.put_pwm (s : State) (f : Fam) (v i j : Nat) : (s.put f v i j).pwm = s.pwm := Eq.refl _
@[simp] theorem State.put_dlnk (s : State) (f : Fam) (v i j : Nat) : (s.put f v i j).dlnk = s.dlnk := Eq.refl _
@[simp] theorem State.put_dio (s : State) (f : Fam) (v i j : Nat) : (s.put f v i j).dio = s.dio := Eq.refl _
@[simp] theorem State.put_ao (s : State) (f : Fam) (v i j : Nat) : (s.put f v i j).ao = s.ao := Eq.refl _
@[simp] theorem State.put_wave (s : State) (f : Fam) (v i j : Nat) : (s.put f v i j).wave = s.wave := Eq.refl _
@[simp] theorem State.put_prg (s : State) (f : Fam) (v i j : Nat) : (s.put f v i j).prg = s.prg := Eq.refl _
@[simp] theorem State.put_keep (s : State) (f : Fam) (v i j : Nat) : (s.put f v i j).keep = s.keep := Eq.refl _
@[simp] theorem State.put_brick (s : State) (f : Fam) (v i j : Nat) : (s.put f v i j).brick = s.brick := Eq.refl _
@[simp] theorem State.put_adc (s : State) (f : Fam) (v i j : Nat) : (s.put f v i j).adc = s.adc := Eq.refl _
@[simp] theorem State.put_pwr (s : State) (f : Fam) (v i j : Nat) : (s.put f v i j).pwr = s.pwr := Eq.refl _
@[simp] theorem State.put_upd (s : State) (f : Fam) (v i j : Nat) : (s.put f v i j).upd = s.upd := Eq.refl _
@[simp] theorem State.put_ports (s : State) (f : Fam) (v i j : Nat) : (s.put f v i j).ports = s.ports := Eq.refl _
@[simp] theorem State.put_sess (s : State) (f : Fam) (v i j : Nat) : (s.put f v i j).sess = s.sess := Eq.refl _
@[simp] theorem State.put_crypto (s : State) (f : Fam) (v i j : Nat) : (s.put f v i j).crypto = s.crypto := Eq.refl _
@[simp] theorem State.put_lan (s : State) (f : Fam) (v i j : Nat) : (s.put f v i j).lan = s.lan := Eq.refl _
@[simp] theorem State.put_dict (s : State) (f : Fam) (v i j : Nat) : (s.put f v i j).dict = s.dict := Eq.refl _
@[simp] theorem State.put_freeCtr (s : State) (f : Fam) (v i j : Nat) : (s.put f v i j).freeCtr = s.freeCtr := Eq.refl _
@[simp] theorem State.put_pending (s : State) (f : Fam) (v i j : Nat) : (s.put f v i j).pending = s.pending := Eq.refl _
@[simp] theorem State.put_eng (s : State) (f : Fam) (v i j : Nat) (y : Nat) : (s.put f v i j).eng y = s.eng y := Eq.refl _
@[simp] theorem State.put_task (s : State) (f : Fam) (v i j : Nat) (y : Nat) : (s.put f v i j).task y = s.task y := Eq.refl _

@[simp] theorem State.putBit_mem (s : State) (f : Fam) (b : Nat) (v : Bool) (i : Nat) : (s.putBit f b v i).mem = s.mem := Eq.refl _
@[simp] theorem State.putBit_back (s : State) (f : Fam) (b : Nat) (v : Bool) (i : Nat) : (s.putBit f b v i).back = s.back := Eq.refl _
@[simp] theorem State.putBit_work (s : State) (f : Fam) (b : Nat) (v : Bool) (i : Nat) : (s.putBit f b v i).work = s.work := Eq.refl _
@[simp] theorem State.putBit_nor (s : State) (f : Fam) (b : Nat) (v : Bool) (i : Nat) : (s.putBit f b v i).nor = s.nor := Eq.refl _
@[simp] theorem State.putBit_arr (s : State) (f : Fam) (b : Nat) (v : Bool) (i : Nat) : (s.putBit f b v i).arr = s.arr := Eq.refl _
@[simp] theorem State.putBit_m (s : State) (f : Fam) (b : Nat) (v : Bool) (i : Nat) : (s.putBit f b v i).m = s.m := Eq.refl _
@[simp] theorem State.putBit_time (s : State) (f : Fam) (b : Nat) (v : Bool) (i : Nat) : (s.putBit f b v i).time = s.time := Eq.refl _
@[simp] theorem State.putBit_seq (s : State) (f : Fam) (b : Nat) (v : Bool) (i : Nat) : (s.putBit f b v i).seq = s.seq := Eq.refl _
@[simp] theorem State.putBit_evt (s : State) (f : Fam) (b : Nat) (v : Bool) (i : Nat) : (s.putBit f b v i).evt = s.evt := Eq.refl _
@[simp] theorem State.putBit_exc (s : State) (f : Fam) (b : Nat) (v : Bool) (i : Nat) : (s.putBit f b v i).exc = s.exc := Eq.refl _
@[simp] theorem State.putBit_engs (s : State) (f : Fam) (b : Nat) (v : Bool) (i : Nat) : (s.putBit f b v i).engs = s.engs := Eq.refl _
@[simp] theorem State.putBit_log (s : State) (f : Fam) (b : Nat) (v : Bool) (i : Nat) : (s.putBit f b v i).log = s.log := Eq.refl _
@[simp] theorem State.putBit_phase (s : State) (f : Fam) (b : Nat) (v : Bool) (i : Nat) : (s.putBit f b v i).phase = s.phase := Eq.refl _
@[simp] theorem State.putBit_rfl (s : State) (f : Fam) (b : Nat) (v : Bool) (i : Nat) : (s.putBit f b v i).rfl = s.rfl := Eq.refl _
@[simp] theorem State.putBit_dies (s : State) (f : Fam) (b : Nat) (v : Bool) (i : Nat) : (s.putBit f b v i).dies = s.dies := Eq.refl _
@[simp] theorem State.putBit_pwm (s : State) (f : Fam) (b : Nat) (v : Bool) (i : Nat) : (s.putBit f b v i).pwm = s.pwm := Eq.refl _
@[simp] theorem State.putBit_dlnk (s : State) (f : Fam) (b : Nat) (v : Bool) (i : Nat) : (s.putBit f b v i).dlnk = s.dlnk := Eq.refl _
@[simp] theorem State.putBit_dio (s : State) (f : Fam) (b : Nat) (v : Bool) (i : Nat) : (s.putBit f b v i).dio = s.dio := Eq.refl _
@[simp] theorem State.putBit_ao (s : State) (f : Fam) (b : Nat) (v : Bool) (i : Nat) : (s.putBit f b v i).ao = s.ao := Eq.refl _
@[simp] theorem State.putBit_wave (s : State) (f : Fam) (b : Nat) (v : Bool) (i : Nat) : (s.putBit f b v i).wave = s.wave := Eq.refl _
@[simp] theorem State.putBit_prg (s : State) (f : Fam) (b : Nat) (v : Bool) (i : Nat) : (s.putBit f b v i).prg = s.prg := Eq.refl _
@[simp] theorem State.putBit_keep (s : State) (f : Fam) (b : Nat) (v : Bool) (i : Nat) : (s.putBit f b v i).keep = s.keep := Eq.refl _
@[simp] theorem State.putBit_brick (s : State) (f : Fam) (b : Nat) (v : Bool) (i : Nat) : (s.putBit f b v i).brick = s.brick := Eq.refl _
@[simp] theorem State.putBit_adc (s : State) (f : Fam) (b : Nat) (v : Bool) (i : Nat) : (s.putBit f b v i).adc = s.adc := Eq.refl _
@[simp] theorem State.putBit_pwr (s : State) (f : Fam) (b : Nat) (v : Bool) (i : Nat) : (s.putBit f b v i).pwr = s.pwr := Eq.refl _
@[simp] theorem State.putBit_upd (s : State) (f : Fam) (b : Nat) (v : Bool) (i : Nat) : (s.putBit f b v i).upd = s.upd := Eq.refl _
@[simp] theorem State.putBit_ports (s : State) (f : Fam) (b : Nat) (v : Bool) (i : Nat) : (s.putBit f b v i).ports = s.ports := Eq.refl _
@[simp] theorem State.putBit_sess (s : State) (f : Fam) (b : Nat) (v : Bool) (i : Nat) : (s.putBit f b v i).sess = s.sess := Eq.refl _
@[simp] theorem State.putBit_crypto (s : State) (f : Fam) (b : Nat) (v : Bool) (i : Nat) : (s.putBit f b v i).crypto = s.crypto := Eq.refl _
@[simp] theorem State.putBit_lan (s : State) (f : Fam) (b : Nat) (v : Bool) (i : Nat) : (s.putBit f b v i).lan = s.lan := Eq.refl _
@[simp] theorem State.putBit_dict (s : State) (f : Fam) (b : Nat) (v : Bool) (i : Nat) : (s.putBit f b v i).dict = s.dict := Eq.refl _
@[simp] theorem State.putBit_freeCtr (s : State) (f : Fam) (b : Nat) (v : Bool) (i : Nat) : (s.putBit f b v i).freeCtr = s.freeCtr := Eq.refl _
@[simp] theorem State.putBit_pending (s : State) (f : Fam) (b : Nat) (v : Bool) (i : Nat) : (s.putBit f b v i).pending = s.pending := Eq.refl _
@[simp] theorem State.putBit_eng (s : State) (f : Fam) (b : Nat) (v : Bool) (i : Nat) (y : Nat) : (s.putBit f b v i).eng y = s.eng y := Eq.refl _
@[simp] theorem State.putBit_task (s : State) (f : Fam) (b : Nat) (v : Bool) (i : Nat) (y : Nat) : (s.putBit f b v i).task y = s.task y := Eq.refl _

@[simp] theorem State.bump_mem (s : State) (f : Fam) (i k : Nat) : (s.bump f i k).mem = s.mem := Eq.refl _
@[simp] theorem State.bump_back (s : State) (f : Fam) (i k : Nat) : (s.bump f i k).back = s.back := Eq.refl _
@[simp] theorem State.bump_work (s : State) (f : Fam) (i k : Nat) : (s.bump f i k).work = s.work := Eq.refl _
@[simp] theorem State.bump_nor (s : State) (f : Fam) (i k : Nat) : (s.bump f i k).nor = s.nor := Eq.refl _
@[simp] theorem State.bump_arr (s : State) (f : Fam) (i k : Nat) : (s.bump f i k).arr = s.arr := Eq.refl _
@[simp] theorem State.bump_m (s : State) (f : Fam) (i k : Nat) : (s.bump f i k).m = s.m := Eq.refl _
@[simp] theorem State.bump_time (s : State) (f : Fam) (i k : Nat) : (s.bump f i k).time = s.time := Eq.refl _
@[simp] theorem State.bump_seq (s : State) (f : Fam) (i k : Nat) : (s.bump f i k).seq = s.seq := Eq.refl _
@[simp] theorem State.bump_evt (s : State) (f : Fam) (i k : Nat) : (s.bump f i k).evt = s.evt := Eq.refl _
@[simp] theorem State.bump_exc (s : State) (f : Fam) (i k : Nat) : (s.bump f i k).exc = s.exc := Eq.refl _
@[simp] theorem State.bump_engs (s : State) (f : Fam) (i k : Nat) : (s.bump f i k).engs = s.engs := Eq.refl _
@[simp] theorem State.bump_log (s : State) (f : Fam) (i k : Nat) : (s.bump f i k).log = s.log := Eq.refl _
@[simp] theorem State.bump_phase (s : State) (f : Fam) (i k : Nat) : (s.bump f i k).phase = s.phase := Eq.refl _
@[simp] theorem State.bump_rfl (s : State) (f : Fam) (i k : Nat) : (s.bump f i k).rfl = s.rfl := Eq.refl _
@[simp] theorem State.bump_dies (s : State) (f : Fam) (i k : Nat) : (s.bump f i k).dies = s.dies := Eq.refl _
@[simp] theorem State.bump_pwm (s : State) (f : Fam) (i k : Nat) : (s.bump f i k).pwm = s.pwm := Eq.refl _
@[simp] theorem State.bump_dlnk (s : State) (f : Fam) (i k : Nat) : (s.bump f i k).dlnk = s.dlnk := Eq.refl _
@[simp] theorem State.bump_dio (s : State) (f : Fam) (i k : Nat) : (s.bump f i k).dio = s.dio := Eq.refl _
@[simp] theorem State.bump_ao (s : State) (f : Fam) (i k : Nat) : (s.bump f i k).ao = s.ao := Eq.refl _
@[simp] theorem State.bump_wave (s : State) (f : Fam) (i k : Nat) : (s.bump f i k).wave = s.wave := Eq.refl _
@[simp] theorem State.bump_prg (s : State) (f : Fam) (i k : Nat) : (s.bump f i k).prg = s.prg := Eq.refl _
@[simp] theorem State.bump_keep (s : State) (f : Fam) (i k : Nat) : (s.bump f i k).keep = s.keep := Eq.refl _
@[simp] theorem State.bump_brick (s : State) (f : Fam) (i k : Nat) : (s.bump f i k).brick = s.brick := Eq.refl _
@[simp] theorem State.bump_adc (s : State) (f : Fam) (i k : Nat) : (s.bump f i k).adc = s.adc := Eq.refl _
@[simp] theorem State.bump_pwr (s : State) (f : Fam) (i k : Nat) : (s.bump f i k).pwr = s.pwr := Eq.refl _
@[simp] theorem State.bump_upd (s : State) (f : Fam) (i k : Nat) : (s.bump f i k).upd = s.upd := Eq.refl _
@[simp] theorem State.bump_ports (s : State) (f : Fam) (i k : Nat) : (s.bump f i k).ports = s.ports := Eq.refl _
@[simp] theorem State.bump_sess (s : State) (f : Fam) (i k : Nat) : (s.bump f i k).sess = s.sess := Eq.refl _
@[simp] theorem State.bump_crypto (s : State) (f : Fam) (i k : Nat) : (s.bump f i k).crypto = s.crypto := Eq.refl _
@[simp] theorem State.bump_lan (s : State) (f : Fam) (i k : Nat) : (s.bump f i k).lan = s.lan := Eq.refl _
@[simp] theorem State.bump_dict (s : State) (f : Fam) (i k : Nat) : (s.bump f i k).dict = s.dict := Eq.refl _
@[simp] theorem State.bump_freeCtr (s : State) (f : Fam) (i k : Nat) : (s.bump f i k).freeCtr = s.freeCtr := Eq.refl _
@[simp] theorem State.bump_pending (s : State) (f : Fam) (i k : Nat) : (s.bump f i k).pending = s.pending := Eq.refl _
@[simp] theorem State.bump_eng (s : State) (f : Fam) (i k : Nat) (y : Nat) : (s.bump f i k).eng y = s.eng y := Eq.refl _
@[simp] theorem State.bump_task (s : State) (f : Fam) (i k : Nat) (y : Nat) : (s.bump f i k).task y = s.task y := Eq.refl _

@[simp] theorem State.wrapUp_mem (s : State) (f : Fam) (i : Nat) : (s.wrapUp f i).mem = s.mem := Eq.refl _
@[simp] theorem State.wrapUp_back (s : State) (f : Fam) (i : Nat) : (s.wrapUp f i).back = s.back := Eq.refl _
@[simp] theorem State.wrapUp_work (s : State) (f : Fam) (i : Nat) : (s.wrapUp f i).work = s.work := Eq.refl _
@[simp] theorem State.wrapUp_nor (s : State) (f : Fam) (i : Nat) : (s.wrapUp f i).nor = s.nor := Eq.refl _
@[simp] theorem State.wrapUp_arr (s : State) (f : Fam) (i : Nat) : (s.wrapUp f i).arr = s.arr := Eq.refl _
@[simp] theorem State.wrapUp_m (s : State) (f : Fam) (i : Nat) : (s.wrapUp f i).m = s.m := Eq.refl _
@[simp] theorem State.wrapUp_time (s : State) (f : Fam) (i : Nat) : (s.wrapUp f i).time = s.time := Eq.refl _
@[simp] theorem State.wrapUp_seq (s : State) (f : Fam) (i : Nat) : (s.wrapUp f i).seq = s.seq := Eq.refl _
@[simp] theorem State.wrapUp_evt (s : State) (f : Fam) (i : Nat) : (s.wrapUp f i).evt = s.evt := Eq.refl _
@[simp] theorem State.wrapUp_exc (s : State) (f : Fam) (i : Nat) : (s.wrapUp f i).exc = s.exc := Eq.refl _
@[simp] theorem State.wrapUp_engs (s : State) (f : Fam) (i : Nat) : (s.wrapUp f i).engs = s.engs := Eq.refl _
@[simp] theorem State.wrapUp_log (s : State) (f : Fam) (i : Nat) : (s.wrapUp f i).log = s.log := Eq.refl _
@[simp] theorem State.wrapUp_phase (s : State) (f : Fam) (i : Nat) : (s.wrapUp f i).phase = s.phase := Eq.refl _
@[simp] theorem State.wrapUp_rfl (s : State) (f : Fam) (i : Nat) : (s.wrapUp f i).rfl = s.rfl := Eq.refl _
@[simp] theorem State.wrapUp_dies (s : State) (f : Fam) (i : Nat) : (s.wrapUp f i).dies = s.dies := Eq.refl _
@[simp] theorem State.wrapUp_pwm (s : State) (f : Fam) (i : Nat) : (s.wrapUp f i).pwm = s.pwm := Eq.refl _
@[simp] theorem State.wrapUp_dlnk (s : State) (f : Fam) (i : Nat) : (s.wrapUp f i).dlnk = s.dlnk := Eq.refl _
@[simp] theorem State.wrapUp_dio (s : State) (f : Fam) (i : Nat) : (s.wrapUp f i).dio = s.dio := Eq.refl _
@[simp] theorem State.wrapUp_ao (s : State) (f : Fam) (i : Nat) : (s.wrapUp f i).ao = s.ao := Eq.refl _
@[simp] theorem State.wrapUp_wave (s : State) (f : Fam) (i : Nat) : (s.wrapUp f i).wave = s.wave := Eq.refl _
@[simp] theorem State.wrapUp_prg (s : State) (f : Fam) (i : Nat) : (s.wrapUp f i).prg = s.prg := Eq.refl _
@[simp] theorem State.wrapUp_keep (s : State) (f : Fam) (i : Nat) : (s.wrapUp f i).keep = s.keep := Eq.refl _
@[simp] theorem State.wrapUp_brick (s : State) (f : Fam) (i : Nat) : (s.wrapUp f i).brick = s.brick := Eq.refl _
@[simp] theorem State.wrapUp_adc (s : State) (f : Fam) (i : Nat) : (s.wrapUp f i).adc = s.adc := Eq.refl _
@[simp] theorem State.wrapUp_pwr (s : State) (f : Fam) (i : Nat) : (s.wrapUp f i).pwr = s.pwr := Eq.refl _
@[simp] theorem State.wrapUp_upd (s : State) (f : Fam) (i : Nat) : (s.wrapUp f i).upd = s.upd := Eq.refl _
@[simp] theorem State.wrapUp_ports (s : State) (f : Fam) (i : Nat) : (s.wrapUp f i).ports = s.ports := Eq.refl _
@[simp] theorem State.wrapUp_sess (s : State) (f : Fam) (i : Nat) : (s.wrapUp f i).sess = s.sess := Eq.refl _
@[simp] theorem State.wrapUp_crypto (s : State) (f : Fam) (i : Nat) : (s.wrapUp f i).crypto = s.crypto := Eq.refl _
@[simp] theorem State.wrapUp_lan (s : State) (f : Fam) (i : Nat) : (s.wrapUp f i).lan = s.lan := Eq.refl _
@[simp] theorem State.wrapUp_dict (s : State) (f : Fam) (i : Nat) : (s.wrapUp f i).dict = s.dict := Eq.refl _
@[simp] theorem State.wrapUp_freeCtr (s : State) (f : Fam) (i : Nat) : (s.wrapUp f i).freeCtr = s.freeCtr := Eq.refl _
@[simp] theorem State.wrapUp_pending (s : State) (f : Fam) (i : Nat) : (s.wrapUp f i).pending = s.pending := Eq.refl _
@[simp] theorem State.wrapUp_eng (s : State) (f : Fam) (i : Nat) (y : Nat) : (s.wrapUp f i).eng y = s.eng y := Eq.refl _
@[simp] theorem State.wrapUp_task (s : State) (f : Fam) (i : Nat) (y : Nat) : (s.wrapUp f i).task y = s.task y := Eq.refl _

@[simp] theorem State.put64_mem (s : State) (lo hi : Fam) (v i : Nat) : (s.put64 lo hi v i).mem = s.mem := Eq.refl _
@[simp] theorem State.put64_back (s : State) (lo hi : Fam) (v i : Nat) : (s.put64 lo hi v i).back = s.back := Eq.refl _
@[simp] theorem State.put64_work (s : State) (lo hi : Fam) (v i : Nat) : (s.put64 lo hi v i).work = s.work := Eq.refl _
@[simp] theorem State.put64_nor (s : State) (lo hi : Fam) (v i : Nat) : (s.put64 lo hi v i).nor = s.nor := Eq.refl _
@[simp] theorem State.put64_arr (s : State) (lo hi : Fam) (v i : Nat) : (s.put64 lo hi v i).arr = s.arr := Eq.refl _
@[simp] theorem State.put64_m (s : State) (lo hi : Fam) (v i : Nat) : (s.put64 lo hi v i).m = s.m := Eq.refl _
@[simp] theorem State.put64_time (s : State) (lo hi : Fam) (v i : Nat) : (s.put64 lo hi v i).time = s.time := Eq.refl _
@[simp] theorem State.put64_seq (s : State) (lo hi : Fam) (v i : Nat) : (s.put64 lo hi v i).seq = s.seq := Eq.refl _
@[simp] theorem State.put64_evt (s : State) (lo hi : Fam) (v i : Nat) : (s.put64 lo hi v i).evt = s.evt := Eq.refl _
@[simp] theorem State.put64_exc (s : State) (lo hi : Fam) (v i : Nat) : (s.put64 lo hi v i).exc = s.exc := Eq.refl _
@[simp] theorem State.put64_engs (s : State) (lo hi : Fam) (v i : Nat) : (s.put64 lo hi v i).engs = s.engs := Eq.refl _
@[simp] theorem State.put64_log (s : State) (lo hi : Fam) (v i : Nat) : (s.put64 lo hi v i).log = s.log := Eq.refl _
@[simp] theorem State.put64_phase (s : State) (lo hi : Fam) (v i : Nat) : (s.put64 lo hi v i).phase = s.phase := Eq.refl _
@[simp] theorem State.put64_rfl (s : State) (lo hi : Fam) (v i : Nat) : (s.put64 lo hi v i).rfl = s.rfl := Eq.refl _
@[simp] theorem State.put64_dies (s : State) (lo hi : Fam) (v i : Nat) : (s.put64 lo hi v i).dies = s.dies := Eq.refl _
@[simp] theorem State.put64_pwm (s : State) (lo hi : Fam) (v i : Nat) : (s.put64 lo hi v i).pwm = s.pwm := Eq.refl _
@[simp] theorem State.put64_dlnk (s : State) (lo hi : Fam) (v i : Nat) : (s.put64 lo hi v i).dlnk = s.dlnk := Eq.refl _
@[simp] theorem State.put64_dio (s : State) (lo hi : Fam) (v i : Nat) : (s.put64 lo hi v i).dio = s.dio := Eq.refl _
@[simp] theorem State.put64_ao (s : State) (lo hi : Fam) (v i : Nat) : (s.put64 lo hi v i).ao = s.ao := Eq.refl _
@[simp] theorem State.put64_wave (s : State) (lo hi : Fam) (v i : Nat) : (s.put64 lo hi v i).wave = s.wave := Eq.refl _
@[simp] theorem State.put64_prg (s : State) (lo hi : Fam) (v i : Nat) : (s.put64 lo hi v i).prg = s.prg := Eq.refl _
@[simp] theorem State.put64_keep (s : State) (lo hi : Fam) (v i : Nat) : (s.put64 lo hi v i).keep = s.keep := Eq.refl _
@[simp] theorem State.put64_brick (s : State) (lo hi : Fam) (v i : Nat) : (s.put64 lo hi v i).brick = s.brick := Eq.refl _
@[simp] theorem State.put64_adc (s : State) (lo hi : Fam) (v i : Nat) : (s.put64 lo hi v i).adc = s.adc := Eq.refl _
@[simp] theorem State.put64_pwr (s : State) (lo hi : Fam) (v i : Nat) : (s.put64 lo hi v i).pwr = s.pwr := Eq.refl _
@[simp] theorem State.put64_upd (s : State) (lo hi : Fam) (v i : Nat) : (s.put64 lo hi v i).upd = s.upd := Eq.refl _
@[simp] theorem State.put64_ports (s : State) (lo hi : Fam) (v i : Nat) : (s.put64 lo hi v i).ports = s.ports := Eq.refl _
@[simp] theorem State.put64_sess (s : State) (lo hi : Fam) (v i : Nat) : (s.put64 lo hi v i).sess = s.sess := Eq.refl _
@[simp] theorem State.put64_crypto (s : State) (lo hi : Fam) (v i : Nat) : (s.put64 lo hi v i).crypto = s.crypto := Eq.refl _
@[simp] theorem State.put64_lan (s : State) (lo hi : Fam) (v i : Nat) : (s.put64 lo hi v i).lan = s.lan := Eq.refl _
@[simp] theorem State.put64_dict (s : State) (lo hi : Fam) (v i : Nat) : (s.put64 lo hi v i).dict = s.dict := Eq.refl _
@[simp] theorem State.put64_freeCtr (s : State) (lo hi : Fam) (v i : Nat) : (s.put64 lo hi v i).freeCtr = s.freeCtr := Eq.refl _
@[simp] theorem State.put64_pending (s : State) (lo hi : Fam) (v i : Nat) : (s.put64 lo hi v i).pending = s.pending := Eq.refl _
@[simp] theorem State.put64_eng (s : State) (lo hi : Fam) (v i : Nat) (y : Nat) : (s.put64 lo hi v i).eng y = s.eng y := Eq.refl _
@[simp] theorem State.put64_task (s : State) (lo hi : Fam) (v i : Nat) (y : Nat) : (s.put64 lo hi v i).task y = s.task y := Eq.refl _

@[simp] theorem State.setEng_flds (s : State) (e : Nat) (x : Eng) : (s.setEng e x).flds = s.flds := Eq.refl _
@[simp] theorem State.setEng_mem (s : State) (e : Nat) (x : Eng) : (s.setEng e x).mem = s.mem := Eq.refl _
@[simp] theorem State.setEng_back (s : State) (e : Nat) (x : Eng) : (s.setEng e x).back = s.back := Eq.refl _
@[simp] theorem State.setEng_work (s : State) (e : Nat) (x : Eng) : (s.setEng e x).work = s.work := Eq.refl _
@[simp] theorem State.setEng_nor (s : State) (e : Nat) (x : Eng) : (s.setEng e x).nor = s.nor := Eq.refl _
@[simp] theorem State.setEng_arr (s : State) (e : Nat) (x : Eng) : (s.setEng e x).arr = s.arr := Eq.refl _
@[simp] theorem State.setEng_m (s : State) (e : Nat) (x : Eng) : (s.setEng e x).m = s.m := Eq.refl _
@[simp] theorem State.setEng_time (s : State) (e : Nat) (x : Eng) : (s.setEng e x).time = s.time := Eq.refl _
@[simp] theorem State.setEng_seq (s : State) (e : Nat) (x : Eng) : (s.setEng e x).seq = s.seq := Eq.refl _
@[simp] theorem State.setEng_evt (s : State) (e : Nat) (x : Eng) : (s.setEng e x).evt = s.evt := Eq.refl _
@[simp] theorem State.setEng_exc (s : State) (e : Nat) (x : Eng) : (s.setEng e x).exc = s.exc := Eq.refl _
@[simp] theorem State.setEng_log (s : State) (e : Nat) (x : Eng) : (s.setEng e x).log = s.log := Eq.refl _
@[simp] theorem State.setEng_phase (s : State) (e : Nat) (x : Eng) : (s.setEng e x).phase = s.phase := Eq.refl _
@[simp] theorem State.setEng_rfl (s : State) (e : Nat) (x : Eng) : (s.setEng e x).rfl = s.rfl := Eq.refl _
@[simp] theorem State.setEng_dies (s : State) (e : Nat) (x : Eng) : (s.setEng e x).dies = s.dies := Eq.refl _
@[simp] theorem State.setEng_pwm (s : State) (e : Nat) (x : Eng) : (s.setEng e x).pwm = s.pwm := Eq.refl _
@[simp] theorem State.setEng_dlnk (s : State) (e : Nat) (x : Eng) : (s.setEng e x).dlnk = s.dlnk := Eq.refl _
@[simp] theorem State.setEng_dio (s : State) (e : Nat) (x : Eng) : (s.setEng e x).dio = s.dio := Eq.refl _
@[simp] theorem State.setEng_ao (s : State) (e : Nat) (x : Eng) : (s.setEng e x).ao = s.ao := Eq.refl _
@[simp] theorem State.setEng_wave (s : State) (e : Nat) (x : Eng) : (s.setEng e x).wave = s.wave := Eq.refl _
@[simp] theorem State.setEng_prg (s : State) (e : Nat) (x : Eng) : (s.setEng e x).prg = s.prg := Eq.refl _
@[simp] theorem State.setEng_keep (s : State) (e : Nat) (x : Eng) : (s.setEng e x).keep = s.keep := Eq.refl _
@[simp] theorem State.setEng_brick (s : State) (e : Nat) (x : Eng) : (s.setEng e x).brick = s.brick := Eq.refl _
@[simp] theorem State.setEng_adc (s : State) (e : Nat) (x : Eng) : (s.setEng e x).adc = s.adc := Eq.refl _
@[simp] theorem State.setEng_pwr (s : State) (e : Nat) (x : Eng) : (s.setEng e x).pwr = s.pwr := Eq.refl _
@[simp] theorem State.setEng_upd (s : State) (e : Nat) (x : Eng) : (s.setEng e x).upd = s.upd := Eq.refl _
@[simp] theorem State.setEng_ports (s : State) (e : Nat) (x : Eng) : (s.setEng e x).ports = s.ports := Eq.refl _
@[simp] theorem State.setEng_sess (s : State) (e : Nat) (x : Eng) : (s.setEng e x).sess = s.sess := Eq.refl _
@[simp] theorem State.setEng_crypto (s : State) (e : Nat) (x : Eng) : (s.setEng e x).crypto = s.crypto := Eq.refl _
@[simp] theorem State.setEng_lan (s : State) (e : Nat) (x : Eng) : (s.setEng e x).lan = s.lan := Eq.refl _
@[simp] theorem State.setEng_dict (s : State) (e : Nat) (x : Eng) : (s.setEng e x).dict = s.dict := Eq.refl _
@[simp] theorem State.setEng_freeCtr (s : State) (e : Nat) (x : Eng) : (s.setEng e x).freeCtr = s.freeCtr := Eq.refl _
@[simp] theorem State.setEng_pending (s : State) (e : Nat) (x : Eng) : (s.setEng e x).pending = s.pending := Eq.refl _
@[simp] theorem State.setEng_get (s : State) (e : Nat) (x : Eng) (g : Fam) (y z : Nat) : (s.setEng e x).get g y z = s.get g y z := Eq.refl _
@[simp] theorem State.setEng_is (s : State) (e : Nat) (x : Eng) (g : Fam) (y z : Nat) : (s.setEng e x).is g y z = s.is g y z := Eq.refl _
@[simp] theorem State.setEng_task (s : State) (e : Nat) (x : Eng) (y : Nat) : (s.setEng e x).task y = s.task y := Eq.refl _

@[simp] theorem State.upE_flds (s : State) (e : Nat) (f : Eng → Eng) : (s.upE e f).flds = s.flds := Eq.refl _
@[simp] theorem State.upE_mem (s : State) (e : Nat) (f : Eng → Eng) : (s.upE e f).mem = s.mem := Eq.refl _
@[simp] theorem State.upE_back (s : State) (e : Nat) (f : Eng → Eng) : (s.upE e f).back = s.back := Eq.refl _
@[simp] theorem State.upE_work (s : State) (e : Nat) (f : Eng → Eng) : (s.upE e f).work = s.work := Eq.refl _
@[simp] theorem State.upE_nor (s : State) (e : Nat) (f : Eng → Eng) : (s.upE e f).nor = s.nor := Eq.refl _
@[simp] theorem State.upE_arr (s : State) (e : Nat) (f : Eng → Eng) : (s.upE e f).arr = s.arr := Eq.refl _
@[simp] theorem State.upE_m (s : State) (e : Nat) (f : Eng → Eng) : (s.upE e f).m = s.m := Eq.refl _
@[simp] theorem State.upE_time (s : State) (e : Nat) (f : Eng → Eng) : (s.upE e f).time = s.time := Eq.refl _
@[simp] theorem State.upE_seq (s : State) (e : Nat) (f : Eng → Eng) : (s.upE e f).seq = s.seq := Eq.refl _
@[simp] theorem State.upE_evt (s : State) (e : Nat) (f : Eng → Eng) : (s.upE e f).evt = s.evt := Eq.refl _
@[simp] theorem State.upE_exc (s : State) (e : Nat) (f : Eng → Eng) : (s.upE e f).exc = s.exc := Eq.refl _
@[simp] theorem State.upE_log (s : State) (e : Nat) (f : Eng → Eng) : (s.upE e f).log = s.log := Eq.refl _
@[simp] theorem State.upE_phase (s : State) (e : Nat) (f : Eng → Eng) : (s.upE e f).phase = s.phase := Eq.refl _
@[simp] theorem State.upE_rfl (s : State) (e : Nat) (f : Eng → Eng) : (s.upE e f).rfl = s.rfl := Eq.refl _
@[simp] theorem State.upE_dies (s : State) (e : Nat) (f : Eng → Eng) : (s.upE e f).dies = s.dies := Eq.refl _
@[simp] theorem State.upE_pwm (s : State) (e : Nat) (f : Eng → Eng) : (s.upE e f).pwm = s.pwm := Eq.refl _
@[simp] theorem State.upE_dlnk (s : State) (e : Nat) (f : Eng → Eng) : (s.upE e f).dlnk = s.dlnk := Eq.refl _
@[simp] theorem State.upE_dio (s : State) (e : Nat) (f : Eng → Eng) : (s.upE e f).dio = s.dio := Eq.refl _
@[simp] theorem State.upE_ao (s : State) (e : Nat) (f : Eng → Eng) : (s.upE e f).ao = s.ao := Eq.refl _
@[simp] theorem State.upE_wave (s : State) (e : Nat) (f : Eng → Eng) : (s.upE e f).wave = s.wave := Eq.refl _
@[simp] theorem State.upE_prg (s : State) (e : Nat) (f : Eng → Eng) : (s.upE e f).prg = s.prg := Eq.refl _
@[simp] theorem State.upE_keep (s : State) (e : Nat) (f : Eng → Eng) : (s.upE e f).keep = s.keep := Eq.refl _
@[simp] theorem State.upE_brick (s : State) (e : Nat) (f : Eng → Eng) : (s.upE e f).brick = s.brick := Eq.refl _
@[simp] theorem State.upE_adc (s : State) (e : Nat) (f : Eng → Eng) : (s.upE e f).adc = s.adc := Eq.refl _
@[simp] theorem State.upE_pwr (s : State) (e : Nat) (f : Eng → Eng) : (s.upE e f).pwr = s.pwr := Eq.refl _
@[simp] theorem State.upE_upd (s : State) (e : Nat) (f : Eng → Eng) : (s.upE e f).upd = s.upd := Eq.refl _
@[simp] theorem State.upE_ports (s : State) (e : Nat) (f : Eng → Eng) : (s.upE e f).ports = s.ports := Eq.refl _
@[simp] theorem State.upE_sess (s : State) (e : Nat) (f : Eng → Eng) : (s.upE e f).sess = s.sess := Eq.refl _
@[simp] theorem State.upE_crypto (s : State) (e : Nat) (f : Eng → Eng) : (s.upE e f).crypto = s.crypto := Eq.refl _
@[simp] theorem State.upE_lan (s : State) (e : Nat) (f : Eng → Eng) : (s.upE e f).lan = s.lan := Eq.refl _
@[simp] theorem State.upE_dict (s : State) (e : Nat) (f : Eng → Eng) : (s.upE e f).dict = s.dict := Eq.refl _
@[simp] theorem State.upE_freeCtr (s : State) (e : Nat) (f : Eng → Eng) : (s.upE e f).freeCtr = s.freeCtr := Eq.refl _
@[simp] theorem State.upE_pending (s : State) (e : Nat) (f : Eng → Eng) : (s.upE e f).pending = s.pending := Eq.refl _
@[simp] theorem State.upE_get (s : State) (e : Nat) (f : Eng → Eng) (g : Fam) (y z : Nat) : (s.upE e f).get g y z = s.get g y z := Eq.refl _
@[simp] theorem State.upE_is (s : State) (e : Nat) (f : Eng → Eng) (g : Fam) (y z : Nat) : (s.upE e f).is g y z = s.is g y z := Eq.refl _
@[simp] theorem State.upE_task (s : State) (e : Nat) (f : Eng → Eng) (y : Nat) : (s.upE e f).task y = s.task y := Eq.refl _

@[simp] theorem State.setTask_flds (s : State) (n : Nat) (x : TaskSt) : (s.setTask n x).flds = s.flds := Eq.refl _
@[simp] theorem State.setTask_mem (s : State) (n : Nat) (x : TaskSt) : (s.setTask n x).mem = s.mem := Eq.refl _
@[simp] theorem State.setTask_back (s : State) (n : Nat) (x : TaskSt) : (s.setTask n x).back = s.back := Eq.refl _
@[simp] theorem State.setTask_work (s : State) (n : Nat) (x : TaskSt) : (s.setTask n x).work = s.work := Eq.refl _
@[simp] theorem State.setTask_nor (s : State) (n : Nat) (x : TaskSt) : (s.setTask n x).nor = s.nor := Eq.refl _
@[simp] theorem State.setTask_arr (s : State) (n : Nat) (x : TaskSt) : (s.setTask n x).arr = s.arr := Eq.refl _
@[simp] theorem State.setTask_m (s : State) (n : Nat) (x : TaskSt) : (s.setTask n x).m = s.m := Eq.refl _
@[simp] theorem State.setTask_time (s : State) (n : Nat) (x : TaskSt) : (s.setTask n x).time = s.time := Eq.refl _
@[simp] theorem State.setTask_evt (s : State) (n : Nat) (x : TaskSt) : (s.setTask n x).evt = s.evt := Eq.refl _
@[simp] theorem State.setTask_exc (s : State) (n : Nat) (x : TaskSt) : (s.setTask n x).exc = s.exc := Eq.refl _
@[simp] theorem State.setTask_engs (s : State) (n : Nat) (x : TaskSt) : (s.setTask n x).engs = s.engs := Eq.refl _
@[simp] theorem State.setTask_log (s : State) (n : Nat) (x : TaskSt) : (s.setTask n x).log = s.log := Eq.refl _
@[simp] theorem State.setTask_phase (s : State) (n : Nat) (x : TaskSt) : (s.setTask n x).phase = s.phase := Eq.refl _
@[simp] theorem State.setTask_rfl (s : State) (n : Nat) (x : TaskSt) : (s.setTask n x).rfl = s.rfl := Eq.refl _
@[simp] theorem State.setTask_dies (s : State) (n : Nat) (x : TaskSt) : (s.setTask n x).dies = s.dies := Eq.refl _
@[simp] theorem State.setTask_pwm (s : State) (n : Nat) (x : TaskSt) : (s.setTask n x).pwm = s.pwm := Eq.refl _
@[simp] theorem State.setTask_dlnk (s : State) (n : Nat) (x : TaskSt) : (s.setTask n x).dlnk = s.dlnk := Eq.refl _
@[simp] theorem State.setTask_dio (s : State) (n : Nat) (x : TaskSt) : (s.setTask n x).dio = s.dio := Eq.refl _
@[simp] theorem State.setTask_ao (s : State) (n : Nat) (x : TaskSt) : (s.setTask n x).ao = s.ao := Eq.refl _
@[simp] theorem State.setTask_wave (s : State) (n : Nat) (x : TaskSt) : (s.setTask n x).wave = s.wave := Eq.refl _
@[simp] theorem State.setTask_prg (s : State) (n : Nat) (x : TaskSt) : (s.setTask n x).prg = s.prg := Eq.refl _
@[simp] theorem State.setTask_keep (s : State) (n : Nat) (x : TaskSt) : (s.setTask n x).keep = s.keep := Eq.refl _
@[simp] theorem State.setTask_brick (s : State) (n : Nat) (x : TaskSt) : (s.setTask n x).brick = s.brick := Eq.refl _
@[simp] theorem State.setTask_adc (s : State) (n : Nat) (x : TaskSt) : (s.setTask n x).adc = s.adc := Eq.refl _
@[simp] theorem State.setTask_pwr (s : State) (n : Nat) (x : TaskSt) : (s.setTask n x).pwr = s.pwr := Eq.refl _
@[simp] theorem State.setTask_upd (s : State) (n : Nat) (x : TaskSt) : (s.setTask n x).upd = s.upd := Eq.refl _
@[simp] theorem State.setTask_ports (s : State) (n : Nat) (x : TaskSt) : (s.setTask n x).ports = s.ports := Eq.refl _
@[simp] theorem State.setTask_sess (s : State) (n : Nat) (x : TaskSt) : (s.setTask n x).sess = s.sess := Eq.refl _
@[simp] theorem State.setTask_crypto (s : State) (n : Nat) (x : TaskSt) : (s.setTask n x).crypto = s.crypto := Eq.refl _
@[simp] theorem State.setTask_lan (s : State) (n : Nat) (x : TaskSt) : (s.setTask n x).lan = s.lan := Eq.refl _
@[simp] theorem State.setTask_dict (s : State) (n : Nat) (x : TaskSt) : (s.setTask n x).dict = s.dict := Eq.refl _
@[simp] theorem State.setTask_freeCtr (s : State) (n : Nat) (x : TaskSt) : (s.setTask n x).freeCtr = s.freeCtr := Eq.refl _
@[simp] theorem State.setTask_pending (s : State) (n : Nat) (x : TaskSt) : (s.setTask n x).pending = s.pending := Eq.refl _
@[simp] theorem State.setTask_get (s : State) (n : Nat) (x : TaskSt) (g : Fam) (y z : Nat) : (s.setTask n x).get g y z = s.get g y z := Eq.refl _
@[simp] theorem State.setTask_is (s : State) (n : Nat) (x : TaskSt) (g : Fam) (y z : Nat) : (s.setTask n x).is g y z = s.is g y z := Eq.refl _
@[simp] theorem State.setTask_eng (s : State) (n : Nat) (x : TaskSt) (y : Nat) : (s.setTask n x).eng y = s.eng y := Eq.refl _

@[simp] theorem State.upT_flds (s : State) (n : Nat) (f : TaskSt → TaskSt) : (s.upT n f).flds = s.flds := Eq.refl _
@[simp] theorem State.upT_mem (s : State) (n : Nat) (f : TaskSt → TaskSt) : (s.upT n f).mem = s.mem := Eq.refl _
@[simp] theorem State.upT_back (s : State) (n : Nat) (f : TaskSt → TaskSt) : (s.upT n f).back = s.back := Eq.refl _
@[simp] theorem State.upT_work (s : State) (n : Nat) (f : TaskSt → TaskSt) : (s.upT n f).work = s.work := Eq.refl _
@[simp] theorem State.upT_nor (s : State) (n : Nat) (f : TaskSt → TaskSt) : (s.upT n f).nor = s.nor := Eq.refl _
@[simp] theorem State.upT_arr (s : State) (n : Nat) (f : TaskSt → TaskSt) : (s.upT n f).arr = s.arr := Eq.refl _
@[simp] theorem State.upT_m (s : State) (n : Nat) (f : TaskSt → TaskSt) : (s.upT n f).m = s.m := Eq.refl _
@[simp] theorem State.upT_time (s : State) (n : Nat) (f : TaskSt → TaskSt) : (s.upT n f).time = s.time := Eq.refl _
@[simp] theorem State.upT_evt (s : State) (n : Nat) (f : TaskSt → TaskSt) : (s.upT n f).evt = s.evt := Eq.refl _
@[simp] theorem State.upT_exc (s : State) (n : Nat) (f : TaskSt → TaskSt) : (s.upT n f).exc = s.exc := Eq.refl _
@[simp] theorem State.upT_engs (s : State) (n : Nat) (f : TaskSt → TaskSt) : (s.upT n f).engs = s.engs := Eq.refl _
@[simp] theorem State.upT_log (s : State) (n : Nat) (f : TaskSt → TaskSt) : (s.upT n f).log = s.log := Eq.refl _
@[simp] theorem State.upT_phase (s : State) (n : Nat) (f : TaskSt → TaskSt) : (s.upT n f).phase = s.phase := Eq.refl _
@[simp] theorem State.upT_rfl (s : State) (n : Nat) (f : TaskSt → TaskSt) : (s.upT n f).rfl = s.rfl := Eq.refl _
@[simp] theorem State.upT_dies (s : State) (n : Nat) (f : TaskSt → TaskSt) : (s.upT n f).dies = s.dies := Eq.refl _
@[simp] theorem State.upT_pwm (s : State) (n : Nat) (f : TaskSt → TaskSt) : (s.upT n f).pwm = s.pwm := Eq.refl _
@[simp] theorem State.upT_dlnk (s : State) (n : Nat) (f : TaskSt → TaskSt) : (s.upT n f).dlnk = s.dlnk := Eq.refl _
@[simp] theorem State.upT_dio (s : State) (n : Nat) (f : TaskSt → TaskSt) : (s.upT n f).dio = s.dio := Eq.refl _
@[simp] theorem State.upT_ao (s : State) (n : Nat) (f : TaskSt → TaskSt) : (s.upT n f).ao = s.ao := Eq.refl _
@[simp] theorem State.upT_wave (s : State) (n : Nat) (f : TaskSt → TaskSt) : (s.upT n f).wave = s.wave := Eq.refl _
@[simp] theorem State.upT_prg (s : State) (n : Nat) (f : TaskSt → TaskSt) : (s.upT n f).prg = s.prg := Eq.refl _
@[simp] theorem State.upT_keep (s : State) (n : Nat) (f : TaskSt → TaskSt) : (s.upT n f).keep = s.keep := Eq.refl _
@[simp] theorem State.upT_brick (s : State) (n : Nat) (f : TaskSt → TaskSt) : (s.upT n f).brick = s.brick := Eq.refl _
@[simp] theorem State.upT_adc (s : State) (n : Nat) (f : TaskSt → TaskSt) : (s.upT n f).adc = s.adc := Eq.refl _
@[simp] theorem State.upT_pwr (s : State) (n : Nat) (f : TaskSt → TaskSt) : (s.upT n f).pwr = s.pwr := Eq.refl _
@[simp] theorem State.upT_upd (s : State) (n : Nat) (f : TaskSt → TaskSt) : (s.upT n f).upd = s.upd := Eq.refl _
@[simp] theorem State.upT_ports (s : State) (n : Nat) (f : TaskSt → TaskSt) : (s.upT n f).ports = s.ports := Eq.refl _
@[simp] theorem State.upT_sess (s : State) (n : Nat) (f : TaskSt → TaskSt) : (s.upT n f).sess = s.sess := Eq.refl _
@[simp] theorem State.upT_crypto (s : State) (n : Nat) (f : TaskSt → TaskSt) : (s.upT n f).crypto = s.crypto := Eq.refl _
@[simp] theorem State.upT_lan (s : State) (n : Nat) (f : TaskSt → TaskSt) : (s.upT n f).lan = s.lan := Eq.refl _
@[simp] theorem State.upT_dict (s : State) (n : Nat) (f : TaskSt → TaskSt) : (s.upT n f).dict = s.dict := Eq.refl _
@[simp] theorem State.upT_freeCtr (s : State) (n : Nat) (f : TaskSt → TaskSt) : (s.upT n f).freeCtr = s.freeCtr := Eq.refl _
@[simp] theorem State.upT_pending (s : State) (n : Nat) (f : TaskSt → TaskSt) : (s.upT n f).pending = s.pending := Eq.refl _
@[simp] theorem State.upT_get (s : State) (n : Nat) (f : TaskSt → TaskSt) (g : Fam) (y z : Nat) : (s.upT n f).get g y z = s.get g y z := Eq.refl _
@[simp] theorem State.upT_is (s : State) (n : Nat) (f : TaskSt → TaskSt) (g : Fam) (y z : Nat) : (s.upT n f).is g y z = s.is g y z := Eq.refl _
@[simp] theorem State.upT_eng (s : State) (n : Nat) (f : TaskSt → TaskSt) (y : Nat) : (s.upT n f).eng y = s.eng y := Eq.refl _

@[simp] theorem State.upI_flds (s : State) (n : Nat) (f : Inst → Inst) : (s.upI n f).flds = s.flds := Eq.refl _
@[simp] theorem State.upI_mem (s : State) (n : Nat) (f : Inst → Inst) : (s.upI n f).mem = s.mem := Eq.refl _
@[simp] theorem State.upI_back (s : State) (n : Nat) (f : Inst → Inst) : (s.upI n f).back = s.back := Eq.refl _
@[simp] theorem State.upI_work (s : State) (n : Nat) (f : Inst → Inst) : (s.upI n f).work = s.work := Eq.refl _
@[simp] theorem State.upI_nor (s : State) (n : Nat) (f : Inst → Inst) : (s.upI n f).nor = s.nor := Eq.refl _
@[simp] theorem State.upI_arr (s : State) (n : Nat) (f : Inst → Inst) : (s.upI n f).arr = s.arr := Eq.refl _
@[simp] theorem State.upI_m (s : State) (n : Nat) (f : Inst → Inst) : (s.upI n f).m = s.m := Eq.refl _
@[simp] theorem State.upI_time (s : State) (n : Nat) (f : Inst → Inst) : (s.upI n f).time = s.time := Eq.refl _
@[simp] theorem State.upI_evt (s : State) (n : Nat) (f : Inst → Inst) : (s.upI n f).evt = s.evt := Eq.refl _
@[simp] theorem State.upI_exc (s : State) (n : Nat) (f : Inst → Inst) : (s.upI n f).exc = s.exc := Eq.refl _
@[simp] theorem State.upI_engs (s : State) (n : Nat) (f : Inst → Inst) : (s.upI n f).engs = s.engs := Eq.refl _
@[simp] theorem State.upI_log (s : State) (n : Nat) (f : Inst → Inst) : (s.upI n f).log = s.log := Eq.refl _
@[simp] theorem State.upI_phase (s : State) (n : Nat) (f : Inst → Inst) : (s.upI n f).phase = s.phase := Eq.refl _
@[simp] theorem State.upI_rfl (s : State) (n : Nat) (f : Inst → Inst) : (s.upI n f).rfl = s.rfl := Eq.refl _
@[simp] theorem State.upI_dies (s : State) (n : Nat) (f : Inst → Inst) : (s.upI n f).dies = s.dies := Eq.refl _
@[simp] theorem State.upI_pwm (s : State) (n : Nat) (f : Inst → Inst) : (s.upI n f).pwm = s.pwm := Eq.refl _
@[simp] theorem State.upI_dlnk (s : State) (n : Nat) (f : Inst → Inst) : (s.upI n f).dlnk = s.dlnk := Eq.refl _
@[simp] theorem State.upI_dio (s : State) (n : Nat) (f : Inst → Inst) : (s.upI n f).dio = s.dio := Eq.refl _
@[simp] theorem State.upI_ao (s : State) (n : Nat) (f : Inst → Inst) : (s.upI n f).ao = s.ao := Eq.refl _
@[simp] theorem State.upI_wave (s : State) (n : Nat) (f : Inst → Inst) : (s.upI n f).wave = s.wave := Eq.refl _
@[simp] theorem State.upI_prg (s : State) (n : Nat) (f : Inst → Inst) : (s.upI n f).prg = s.prg := Eq.refl _
@[simp] theorem State.upI_keep (s : State) (n : Nat) (f : Inst → Inst) : (s.upI n f).keep = s.keep := Eq.refl _
@[simp] theorem State.upI_brick (s : State) (n : Nat) (f : Inst → Inst) : (s.upI n f).brick = s.brick := Eq.refl _
@[simp] theorem State.upI_adc (s : State) (n : Nat) (f : Inst → Inst) : (s.upI n f).adc = s.adc := Eq.refl _
@[simp] theorem State.upI_pwr (s : State) (n : Nat) (f : Inst → Inst) : (s.upI n f).pwr = s.pwr := Eq.refl _
@[simp] theorem State.upI_upd (s : State) (n : Nat) (f : Inst → Inst) : (s.upI n f).upd = s.upd := Eq.refl _
@[simp] theorem State.upI_ports (s : State) (n : Nat) (f : Inst → Inst) : (s.upI n f).ports = s.ports := Eq.refl _
@[simp] theorem State.upI_sess (s : State) (n : Nat) (f : Inst → Inst) : (s.upI n f).sess = s.sess := Eq.refl _
@[simp] theorem State.upI_crypto (s : State) (n : Nat) (f : Inst → Inst) : (s.upI n f).crypto = s.crypto := Eq.refl _
@[simp] theorem State.upI_lan (s : State) (n : Nat) (f : Inst → Inst) : (s.upI n f).lan = s.lan := Eq.refl _
@[simp] theorem State.upI_dict (s : State) (n : Nat) (f : Inst → Inst) : (s.upI n f).dict = s.dict := Eq.refl _
@[simp] theorem State.upI_freeCtr (s : State) (n : Nat) (f : Inst → Inst) : (s.upI n f).freeCtr = s.freeCtr := Eq.refl _
@[simp] theorem State.upI_pending (s : State) (n : Nat) (f : Inst → Inst) : (s.upI n f).pending = s.pending := Eq.refl _
@[simp] theorem State.upI_get (s : State) (n : Nat) (f : Inst → Inst) (g : Fam) (y z : Nat) : (s.upI n f).get g y z = s.get g y z := Eq.refl _
@[simp] theorem State.upI_is (s : State) (n : Nat) (f : Inst → Inst) (g : Fam) (y z : Nat) : (s.upI n f).is g y z = s.is g y z := Eq.refl _
@[simp] theorem State.upI_eng (s : State) (n : Nat) (f : Inst → Inst) (y : Nat) : (s.upI n f).eng y = s.eng y := Eq.refl _

@[simp] theorem State.setMem_flds (s : State) (a : Nat) (l : List Byte) : (s.setMem a l).flds = s.flds := Eq.refl _
@[simp] theorem State.setMem_back (s : State) (a : Nat) (l : List Byte) : (s.setMem a l).back = s.back := Eq.refl _
@[simp] theorem State.setMem_work (s : State) (a : Nat) (l : List Byte) : (s.setMem a l).work = s.work := Eq.refl _
@[simp] theorem State.setMem_nor (s : State) (a : Nat) (l : List Byte) : (s.setMem a l).nor = s.nor := Eq.refl _
@[simp] theorem State.setMem_arr (s : State) (a : Nat) (l : List Byte) : (s.setMem a l).arr = s.arr := Eq.refl _
@[simp] theorem State.setMem_m (s : State) (a : Nat) (l : List Byte) : (s.setMem a l).m = s.m := Eq.refl _
@[simp] theorem State.setMem_time (s : State) (a : Nat) (l : List Byte) : (s.setMem a l).time = s.time := Eq.refl _
@[simp] theorem State.setMem_seq (s : State) (a : Nat) (l : List Byte) : (s.setMem a l).seq = s.seq := Eq.refl _
@[simp] theorem State.setMem_evt (s : State) (a : Nat) (l : List Byte) : (s.setMem a l).evt = s.evt := Eq.refl _
@[simp] theorem State.setMem_exc (s : State) (a : Nat) (l : List Byte) : (s.setMem a l).exc = s.exc := Eq.refl _
@[simp] theorem State.setMem_engs (s : State) (a : Nat) (l : List Byte) : (s.setMem a l).engs = s.engs := Eq.refl _
@[simp] theorem State.setMem_log (s : State) (a : Nat) (l : List Byte) : (s.setMem a l).log = s.log := Eq.refl _
@[simp] theorem State.setMem_phase (s : State) (a : Nat) (l : List Byte) : (s.setMem a l).phase = s.phase := Eq.refl _
@[simp] theorem State.setMem_rfl (s : State) (a : Nat) (l : List Byte) : (s.setMem a l).rfl = s.rfl := Eq.refl _
@[simp] theorem State.setMem_dies (s : State) (a : Nat) (l : List Byte) : (s.setMem a l).dies = s.dies := Eq.refl _
@[simp] theorem State.setMem_pwm (s : State) (a : Nat) (l : List Byte) : (s.setMem a l).pwm = s.pwm := Eq.refl _
@[simp] theorem State.setMem_dlnk (s : State) (a : Nat) (l : List Byte) : (s.setMem a l).dlnk = s.dlnk := Eq.refl _
@[simp] theorem State.setMem_dio (s : State) (a : Nat) (l : List Byte) : (s.setMem a l).dio = s.dio := Eq.refl _
@[simp] theorem State.setMem_ao (s : State) (a : Nat) (l : List Byte) : (s.setMem a l).ao = s.ao := Eq.refl _
@[simp] theorem State.setMem_wave (s : State) (a : Nat) (l : List Byte) : (s.setMem a l).wave = s.wave := Eq.refl _
@[simp] theorem State.setMem_prg (s : State) (a : Nat) (l : List Byte) : (s.setMem a l).prg = s.prg := Eq.refl _
@[simp] theorem State.setMem_keep (s : State) (a : Nat) (l : List Byte) : (s.setMem a l).keep = s.keep := Eq.refl _
@[simp] theorem State.setMem_brick (s : State) (a : Nat) (l : List Byte) : (s.setMem a l).brick = s.brick := Eq.refl _
@[simp] theorem State.setMem_adc (s : State) (a : Nat) (l : List Byte) : (s.setMem a l).adc = s.adc := Eq.refl _
@[simp] theorem State.setMem_pwr (s : State) (a : Nat) (l : List Byte) : (s.setMem a l).pwr = s.pwr := Eq.refl _
@[simp] theorem State.setMem_upd (s : State) (a : Nat) (l : List Byte) : (s.setMem a l).upd = s.upd := Eq.refl _
@[simp] theorem State.setMem_ports (s : State) (a : Nat) (l : List Byte) : (s.setMem a l).ports = s.ports := Eq.refl _
@[simp] theorem State.setMem_sess (s : State) (a : Nat) (l : List Byte) : (s.setMem a l).sess = s.sess := Eq.refl _
@[simp] theorem State.setMem_crypto (s : State) (a : Nat) (l : List Byte) : (s.setMem a l).crypto = s.crypto := Eq.refl _
@[simp] theorem State.setMem_lan (s : State) (a : Nat) (l : List Byte) : (s.setMem a l).lan = s.lan := Eq.refl _
@[simp] theorem State.setMem_dict (s : State) (a : Nat) (l : List Byte) : (s.setMem a l).dict = s.dict := Eq.refl _
@[simp] theorem State.setMem_freeCtr (s : State) (a : Nat) (l : List Byte) : (s.setMem a l).freeCtr = s.freeCtr := Eq.refl _
@[simp] theorem State.setMem_pending (s : State) (a : Nat) (l : List Byte) : (s.setMem a l).pending = s.pending := Eq.refl _
@[simp] theorem State.setMem_get (s : State) (a : Nat) (l : List Byte) (g : Fam) (y z : Nat) : (s.setMem a l).get g y z = s.get g y z := Eq.refl _
@[simp] theorem State.setMem_is (s : State) (a : Nat) (l : List Byte) (g : Fam) (y z : Nat) : (s.setMem a l).is g y z = s.is g y z := Eq.refl _
@[simp] theorem State.setMem_eng (s : State) (a : Nat) (l : List Byte) (y : Nat) : (s.setMem a l).eng y = s.eng y := Eq.refl _
@[simp] theorem State.setMem_task (s : State) (a : Nat) (l : List Byte) (y : Nat) : (s.setMem a l).task y = s.task y := Eq.refl _

@[simp] theorem State.setNor_flds (s : State) (a : Nat) (l : List Byte) : (s.setNor a l).flds = s.flds := Eq.refl _
@[simp] theorem State.setNor_mem (s : State) (a : Nat) (l : List Byte) : (s.setNor a l).mem = s.mem := Eq.refl _
@[simp] theorem State.setNor_back (s : State) (a : Nat) (l : List Byte) : (s.setNor a l).back = s.back := Eq.refl _
@[simp] theorem State.setNor_work (s : State) (a : Nat) (l : List Byte) : (s.setNor a l).work = s.work := Eq.refl _
@[simp] theorem State.setNor_arr (s : State) (a : Nat) (l : List Byte) : (s.setNor a l).arr = s.arr := Eq.refl _
@[simp] theorem State.setNor_m (s : State) (a : Nat) (l : List Byte) : (s.setNor a l).m = s.m := Eq.refl _
@[simp] theorem State.setNor_time (s : State) (a : Nat) (l : List Byte) : (s.setNor a l).time = s.time := Eq.refl _
@[simp] theorem State.setNor_seq (s : State) (a : Nat) (l : List Byte) : (s.setNor a l).seq = s.seq := Eq.refl _
@[simp] theorem State.setNor_evt (s : State) (a : Nat) (l : List Byte) : (s.setNor a l).evt = s.evt := Eq.refl _
@[simp] theorem State.setNor_exc (s : State) (a : Nat) (l : List Byte) : (s.setNor a l).exc = s.exc := Eq.refl _
@[simp] theorem State.setNor_engs (s : State) (a : Nat) (l : List Byte) : (s.setNor a l).engs = s.engs := Eq.refl _
@[simp] theorem State.setNor_log (s : State) (a : Nat) (l : List Byte) : (s.setNor a l).log = s.log := Eq.refl _
@[simp] theorem State.setNor_phase (s : State) (a : Nat) (l : List Byte) : (s.setNor a l).phase = s.phase := Eq.refl _
@[simp] theorem State.setNor_rfl (s : State) (a : Nat) (l : List Byte) : (s.setNor a l).rfl = s.rfl := Eq.refl _
@[simp] theorem State.setNor_dies (s : State) (a : Nat) (l : List Byte) : (s.setNor a l).dies = s.dies := Eq.refl _
@[simp] theorem State.setNor_pwm (s : State) (a : Nat) (l : List Byte) : (s.setNor a l).pwm = s.pwm := Eq.refl _
@[simp] theorem State.setNor_dlnk (s : State) (a : Nat) (l : List Byte) : (s.setNor a l).dlnk = s.dlnk := Eq.refl _
@[simp] theorem State.setNor_dio (s : State) (a : Nat) (l : List Byte) : (s.setNor a l).dio = s.dio := Eq.refl _
@[simp] theorem State.setNor_ao (s : State) (a : Nat) (l : List Byte) : (s.setNor a l).ao = s.ao := Eq.refl _
@[simp] theorem State.setNor_wave (s : State) (a : Nat) (l : List Byte) : (s.setNor a l).wave = s.wave := Eq.refl _
@[simp] theorem State.setNor_prg (s : State) (a : Nat) (l : List Byte) : (s.setNor a l).prg = s.prg := Eq.refl _
@[simp] theorem State.setNor_keep (s : State) (a : Nat) (l : List Byte) : (s.setNor a l).keep = s.keep := Eq.refl _
@[simp] theorem State.setNor_brick (s : State) (a : Nat) (l : List Byte) : (s.setNor a l).brick = s.brick := Eq.refl _
@[simp] theorem State.setNor_adc (s : State) (a : Nat) (l : List Byte) : (s.setNor a l).adc = s.adc := Eq.refl _
@[simp] theorem State.setNor_pwr (s : State) (a : Nat) (l : List Byte) : (s.setNor a l).pwr = s.pwr := Eq.refl _
@[simp] theorem State.setNor_upd (s : State) (a : Nat) (l : List Byte) : (s.setNor a l).upd = s.upd := Eq.refl _
@[simp] theorem State.setNor_ports (s : State) (a : Nat) (l : List Byte) : (s.setNor a l).ports = s.ports := Eq.refl _
@[simp] theorem State.setNor_sess (s : State) (a : Nat) (l : List Byte) : (s.setNor a l).sess = s.sess := Eq.refl _
@[simp] theorem State.setNor_crypto (s : State) (a : Nat) (l : List Byte) : (s.setNor a l).crypto = s.crypto := Eq.refl _
@[simp] theorem State.setNor_lan (s : State) (a : Nat) (l : List Byte) : (s.setNor a l).lan = s.lan := Eq.refl _
@[simp] theorem State.setNor_dict (s : State) (a : Nat) (l : List Byte) : (s.setNor a l).dict = s.dict := Eq.refl _
@[simp] theorem State.setNor_freeCtr (s : State) (a : Nat) (l : List Byte) : (s.setNor a l).freeCtr = s.freeCtr := Eq.refl _
@[simp] theorem State.setNor_pending (s : State) (a : Nat) (l : List Byte) : (s.setNor a l).pending = s.pending := Eq.refl _
@[simp] theorem State.setNor_get (s : State) (a : Nat) (l : List Byte) (g : Fam) (y z : Nat) : (s.setNor a l).get g y z = s.get g y z := Eq.refl _
@[simp] theorem State.setNor_is (s : State) (a : Nat) (l : List Byte) (g : Fam) (y z : Nat) : (s.setNor a l).is g y z = s.is g y z := Eq.refl _
@[simp] theorem State.setNor_eng (s : State) (a : Nat) (l : List Byte) (y : Nat) : (s.setNor a l).eng y = s.eng y := Eq.refl _
@[simp] theorem State.setNor_task (s : State) (a : Nat) (l : List Byte) (y : Nat) : (s.setNor a l).task y = s.task y := Eq.refl _

@[simp] theorem State.setArr_flds (s : State) (a : Nat) (l : List Byte) : (s.setArr a l).flds = s.flds := Eq.refl _
@[simp] theorem State.setArr_mem (s : State) (a : Nat) (l : List Byte) : (s.setArr a l).mem = s.mem := Eq.refl _
@[simp] theorem State.setArr_back (s : State) (a : Nat) (l : List Byte) : (s.setArr a l).back = s.back := Eq.refl _
@[simp] theorem State.setArr_work (s : State) (a : Nat) (l : List Byte) : (s.setArr a l).work = s.work := Eq.refl _
@[simp] theorem State.setArr_nor (s : State) (a : Nat) (l : List Byte) : (s.setArr a l).nor = s.nor := Eq.refl _
@[simp] theorem State.setArr_m (s : State) (a : Nat) (l : List Byte) : (s.setArr a l).m = s.m := Eq.refl _
@[simp] theorem State.setArr_time (s : State) (a : Nat) (l : List Byte) : (s.setArr a l).time = s.time := Eq.refl _
@[simp] theorem State.setArr_seq (s : State) (a : Nat) (l : List Byte) : (s.setArr a l).seq = s.seq := Eq.refl _
@[simp] theorem State.setArr_evt (s : State) (a : Nat) (l : List Byte) : (s.setArr a l).evt = s.evt := Eq.refl _
@[simp] theorem State.setArr_exc (s : State) (a : Nat) (l : List Byte) : (s.setArr a l).exc = s.exc := Eq.refl _
@[simp] theorem State.setArr_engs (s : State) (a : Nat) (l : List Byte) : (s.setArr a l).engs = s.engs := Eq.refl _
@[simp] theorem State.setArr_log (s : State) (a : Nat) (l : List Byte) : (s.setArr a l).log = s.log := Eq.refl _
@[simp] theorem State.setArr_phase (s : State) (a : Nat) (l : List Byte) : (s.setArr a l).phase = s.phase := Eq.refl _
@[simp] theorem State.setArr_rfl (s : State) (a : Nat) (l : List Byte) : (s.setArr a l).rfl = s.rfl := Eq.refl _
@[simp] theorem State.setArr_dies (s : State) (a : Nat) (l : List Byte) : (s.setArr a l).dies = s.dies := Eq.refl _
@[simp] theorem State.setArr_pwm (s : State) (a : Nat) (l : List Byte) : (s.setArr a l).pwm = s.pwm := Eq.refl _
@[simp] theorem State.setArr_dlnk (s : State) (a : Nat) (l : List Byte) : (s.setArr a l).dlnk = s.dlnk := Eq.refl _
@[simp] theorem State.setArr_dio (s : State) (a : Nat) (l : List Byte) : (s.setArr a l).dio = s.dio := Eq.refl _
@[simp] theorem State.setArr_ao (s : State) (a : Nat) (l : List Byte) : (s.setArr a l).ao = s.ao := Eq.refl _
@[simp] theorem State.setArr_wave (s : State) (a : Nat) (l : List Byte) : (s.setArr a l).wave = s.wave := Eq.refl _
@[simp] theorem State.setArr_prg (s : State) (a : Nat) (l : List Byte) : (s.setArr a l).prg = s.prg := Eq.refl _
@[simp] theorem State.setArr_keep (s : State) (a : Nat) (l : List Byte) : (s.setArr a l).keep = s.keep := Eq.refl _
@[simp] theorem State.setArr_brick (s : State) (a : Nat) (l : List Byte) : (s.setArr a l).brick = s.brick := Eq.refl _
@[simp] theorem State.setArr_adc (s : State) (a : Nat) (l : List Byte) : (s.setArr a l).adc = s.adc := Eq.refl _
@[simp] theorem State.setArr_pwr (s : State) (a : Nat) (l : List Byte) : (s.setArr a l).pwr = s.pwr := Eq.refl _
@[simp] theorem State.setArr_upd (s : State) (a : Nat) (l : List Byte) : (s.setArr a l).upd = s.upd := Eq.refl _
@[simp] theorem State.setArr_ports (s : State) (a : Nat) (l : List Byte) : (s.setArr a l).ports = s.ports := Eq.refl _
@[simp] theorem State.setArr_sess (s : State) (a : Nat) (l : List Byte) : (s.setArr a l).sess = s.sess := Eq.refl _
@[simp] theorem State.setArr_crypto (s : State) (a : Nat) (l : List Byte) : (s.setArr a l).crypto = s.crypto := Eq.refl _
@[simp] theorem State.setArr_lan (s : State) (a : Nat) (l : List Byte) : (s.setArr a l).lan = s.lan := Eq.refl _
@[simp] theorem State.setArr_dict (s : State) (a : Nat) (l : List Byte) : (s.setArr a l).dict = s.dict := Eq.refl _
@[simp] theorem State.setArr_freeCtr (s : State) (a : Nat) (l : List Byte) : (s.setArr a l).freeCtr = s.freeCtr := Eq.refl _
@[simp] theorem State.setArr_pending (s : State) (a : Nat) (l : List Byte) : (s.setArr a l).pending = s.pending := Eq.refl _
@[simp] theorem State.setArr_get (s : State) (a : Nat) (l : List Byte) (g : Fam) (y z : Nat) : (s.setArr a l).get g y z = s.get g y z := Eq.refl _
@[simp] theorem State.setArr_is (s : State) (a : Nat) (l : List Byte) (g : Fam) (y z : Nat) : (s.setArr a l).is g y z = s.is g y z := Eq.refl _
@[simp] theorem State.setArr_eng (s : State) (a : Nat) (l : List Byte) (y : Nat) : (s.setArr a l).eng y = s.eng y := Eq.refl _
@[simp] theorem State.setArr_task (s : State) (a : Nat) (l : List Byte) (y : Nat) : (s.setArr a l).task y = s.task y := Eq.refl _

@[simp] theorem State.withPending_flds (s : State) (q : List Instr) : (s.withPending q).flds = s.flds := Eq.refl _
@[simp] theorem State.withPending_mem (s : State) (q : List Instr) : (s.withPending q).mem = s.mem := Eq.refl _
@[simp] theorem State.withPending_back (s : State) (q : List Instr) : (s.withPending q).back = s.back := Eq.refl _
@[simp] theorem State.withPending_work (s : State) (q : List Instr) : (s.withPending q).work = s.work := Eq.refl _
@[simp] theorem State.withPending_nor (s : State) (q : List Instr) : (s.withPending q).nor = s.nor := Eq.refl _
@[simp] theorem State.withPending_arr (s : State) (q : List Instr) : (s.withPending q).arr = s.arr := Eq.refl _
@[simp] theorem State.withPending_m (s : State) (q : List Instr) : (s.withPending q).m = s.m := Eq.refl _
@[simp] theorem State.withPending_time (s : State) (q : List Instr) : (s.withPending q).time = s.time := Eq.refl _
@[simp] theorem State.withPending_seq (s : State) (q : List Instr) : (s.withPending q).seq = s.seq := Eq.refl _
@[simp] theorem State.withPending_evt (s : State) (q : List Instr) : (s.withPending q).evt = s.evt := Eq.refl _
@[simp] theorem State.withPending_exc (s : State) (q : List Instr) : (s.withPending q).exc = s.exc := Eq.refl _
@[simp] theorem State.withPending_engs (s : State) (q : List Instr) : (s.withPending q).engs = s.engs := Eq.refl _
@[simp] theorem State.withPending_log (s : State) (q : List Instr) : (s.withPending q).log = s.log := Eq.refl _
@[simp] theorem State.withPending_phase (s : State) (q : List Instr) : (s.withPending q).phase = s.phase := Eq.refl _
@[simp] theorem State.withPending_rfl (s : State) (q : List Instr) : (s.withPending q).rfl = s.rfl := Eq.refl _
@[simp] theorem State.withPending_dies (s : State) (q : List Instr) : (s.withPending q).dies = s.dies := Eq.refl _
@[simp] theorem State.withPending_pwm (s : State) (q : List Instr) : (s.withPending q).pwm = s.pwm := Eq.refl _
@[simp] theorem State.withPending_dlnk (s : State) (q : List Instr) : (s.withPending q).dlnk = s.dlnk := Eq.refl _
@[simp] theorem State.withPending_dio (s : State) (q : List Instr) : (s.withPending q).dio = s.dio := Eq.refl _
@[simp] theorem State.withPending_ao (s : State) (q : List Instr) : (s.withPending q).ao = s.ao := Eq.refl _
@[simp] theorem State.withPending_wave (s : State) (q : List Instr) : (s.withPending q).wave = s.wave := Eq.refl _
@[simp] theorem State.withPending_prg (s : State) (q : List Instr) : (s.withPending q).prg = s.prg := Eq.refl _
@[simp] theorem State.withPending_keep (s : State) (q : List Instr) : (s.withPending q).keep = s.keep := Eq.refl _
@[simp] theorem State.withPending_brick (s : State) (q : List Instr) : (s.withPending q).brick = s.brick := Eq.refl _
@[simp] theorem State.withPending_adc (s : State) (q : List Instr) : (s.withPending q).adc = s.adc := Eq.refl _
@[simp] theorem State.withPending_pwr (s : State) (q : List Instr) : (s.withPending q).pwr = s.pwr := Eq.refl _
@[simp] theorem State.withPending_upd (s : State) (q : List Instr) : (s.withPending q).upd = s.upd := Eq.refl _
@[simp] theorem State.withPending_ports (s : State) (q : List Instr) : (s.withPending q).ports = s.ports := Eq.refl _
@[simp] theorem State.withPending_sess (s : State) (q : List Instr) : (s.withPending q).sess = s.sess := Eq.refl _
@[simp] theorem State.withPending_crypto (s : State) (q : List Instr) : (s.withPending q).crypto = s.crypto := Eq.refl _
@[simp] theorem State.withPending_lan (s : State) (q : List Instr) : (s.withPending q).lan = s.lan := Eq.refl _
@[simp] theorem State.withPending_dict (s : State) (q : List Instr) : (s.withPending q).dict = s.dict := Eq.refl _
@[simp] theorem State.withPending_freeCtr (s : State) (q : List Instr) : (s.withPending q).freeCtr = s.freeCtr := Eq.refl _
@[simp] theorem State.withPending_get (s : State) (q : List Instr) (g : Fam) (y z : Nat) : (s.withPending q).get g y z = s.get g y z := Eq.refl _
@[simp] theorem State.withPending_is (s : State) (q : List Instr) (g : Fam) (y z : Nat) : (s.withPending q).is g y z = s.is g y z := Eq.refl _
@[simp] theorem State.withPending_eng (s : State) (q : List Instr) (y : Nat) : (s.withPending q).eng y = s.eng y := Eq.refl _
@[simp] theorem State.withPending_task (s : State) (q : List Instr) (y : Nat) : (s.withPending q).task y = s.task y := Eq.refl _

/-! ## Reading back -/

/-- A field reads as what was written, cut to its width (00, R3). -/
theorem State.get_put_same (s : State) (f : Fam) (v i j : Nat) : (s.put f v i j).get f i j = v % 2 ^ f.width := by
  simp [State.get, State.put, Store.getD, Store.find_put_same]

/-- A write to a field leaves every field of another key alone. -/
theorem State.get_put_ne (s : State) (f g : Fam) (v i j i' j' : Nat) (h : f.key i j ≠ g.key i' j') :
    (s.put f v i j).get g i' j' = s.get g i' j' := by
  simp [State.get, State.put, Store.getD, Store.find_put_ne h]

theorem State.is_put_ne (s : State) (f g : Fam) (v i j i' j' : Nat) (h : f.key i j ≠ g.key i' j') :
    (s.put f v i j).is g i' j' = s.is g i' j' := by
  simp [State.is, State.get_put_ne s f g v i j i' j' h]

@[simp] theorem State.eng_setEng_same (s : State) (e : Nat) (x : Eng) : (s.setEng e x).eng e = x := by
  simp [State.eng, State.setEng, Store.getD, Store.find_put_same]

theorem State.eng_setEng_ne (s : State) {e e' : Nat} (h : e ≠ e') (x : Eng) : (s.setEng e x).eng e' = s.eng e' := by
  simp [State.eng, State.setEng, Store.getD, Store.find_put_ne h]

@[simp] theorem State.eng_upE_same (s : State) (e : Nat) (f : Eng → Eng) : (s.upE e f).eng e = f (s.eng e) := State.eng_setEng_same ..

theorem State.eng_upE_ne (s : State) {e e' : Nat} (h : e ≠ e') (f : Eng → Eng) : (s.upE e f).eng e' = s.eng e' := State.eng_setEng_ne s h _

@[simp] theorem State.task_setTask_same (s : State) (n : Nat) (x : TaskSt) : (s.setTask n x).task n = x := by
  simp [State.task, State.setTask, Store.getD, Store.find_put_same]

theorem State.task_setTask_ne (s : State) {n n' : Nat} (h : n ≠ n') (x : TaskSt) : (s.setTask n x).task n' = s.task n' := by
  simp [State.task, State.setTask, Store.getD, Store.find_put_ne h]

/-- Two fields of one key are one field: the second write wins; a field that is written with its own value keeps it. -/
theorem State.is_put_same (s : State) (f : Fam) (v i j : Nat) : (s.put f v i j).is f i j = decide (v % 2 ^ f.width ≠ 0) := by
  rw [State.is, State.get_put_same]
  cases h : v % 2 ^ f.width <;> simp

/-! ## Bytes of memory -/

theorem State.mb_setMem_out (s : State) (a a' : Nat) (l : List Byte) (h : a' < a ∨ a + l.length ≤ a') : (s.setMem a l).mb a' = s.mb a' :=
  cellGet_cellsPut_out 0#8 a a' l s.mem h

theorem State.mbs_setMem_same (s : State) (a : Nat) (l : List Byte) : (s.setMem a l).mbs a l.length = l :=
  cellsGet_cellsPut 0#8 a l s.mem

theorem State.mbs_setMem_out (s : State) (a a' n : Nat) (l : List Byte) (h : a' + n ≤ a ∨ a + l.length ≤ a') :
    (s.setMem a l).mbs a' n = s.mbs a' n :=
  cellsGet_cellsPut_out 0#8 a a' n l s.mem h

/-! ## Indices in turn -/

@[simp] theorem State.forAll_nil (f : α → State → State) (s : State) : State.forAll [] f s = s := Eq.refl _
@[simp] theorem State.forAll_cons (x : α) (l : List α) (f : α → State → State) (s : State) :
    State.forAll (x :: l) f s = State.forAll l f (f x s) := Eq.refl _

/-- What every single step keeps, the whole pass keeps. -/
theorem State.forAll_keeps {P : State → Prop} {f : α → State → State} (hf : ∀ x s, P s → P (f x s)) (l : List α) {s : State} (h : P s) :
    P (State.forAll l f s) := by
  induction l generalizing s with
  | nil => exact h
  | cons x r ih => exact ih (hf x s h)

end Sys2Proof.Machine
end

