-- ==== Sys2Proof/Laws/Engine.lean ====
section
/-! SUPPORT. Laws/Engine.lean: what a bundle of one move does to an engine: the unit of the move answers, the next bundle follows. -/

namespace Sys2Proof.Machine

/-- Writing a key twice leaves the second value. -/
theorem Store.put_put (k : Nat) (v w : α) (t : Store α) : Store.put k w (Store.put k v t) = Store.put k w t := by
  induction t with
  | nil => simp [Store.put]
  | cons p r ih =>
    simp only [Store.put]
    by_cases h1 : k < p.1
    · simp [h1, Store.put]
    · by_cases h2 : p.1 = k
      · simp [h2, Store.put]
      · simp [h1, h2, Store.put, ih]

theorem State.setEng_setEng (s : State) (e : Nat) (x y : Eng) : (s.setEng e x).setEng e y = s.setEng e y := by
  simp only [State.setEng, Store.put_put]

theorem State.upE_setEng (s : State) (e : Nat) (x : Eng) (f : Eng → Eng) : (s.setEng e x).upE e f = s.setEng e (f x) := by
  simp only [State.upE, State.eng_setEng_same, State.setEng_setEng]

theorem State.turned_eng (s : State) (e pc k : Nat) : (s.turned e pc k).eng e =
    { s.eng e with pc := pc, lock := (s.eng e).lock.map fun l => { l with count := l.count + 1 }, skip := false, cyc := (s.eng e).cyc + k,
                   wdAt := s.time.real } := by
  simp only [State.turned, State.spend, State.spin]
  split <;> simp [State.upI, State.upT, State.setTask, State.upE, State.eng_setEng_same, State.eng, State.setEng] <;> (simp [Store.getD, Store.find_put_same])

theorem State.afterBundle_nil (s : State) (e : Nat) (h : e = 4 ∨ (s.eng e).pc < 65535) : s.afterBundle e [] = s.turned e ((s.eng e).pc + 1) 1 := by
  unfold State.afterBundle State.turned
  have h1 : ¬(e < 4 ∧ (s.eng e).pc = 65535) := by omega
  have h2 : (decide (e < 4) && decide ((s.eng e).pc = 65535)) = false := by simpa using h1
  simp only [jumpOf, macOf, List.findSome?_nil, List.any_nil, Option.isSome_none, Option.isNone_none, Bool.true_and, Option.getD_none, if_neg h1, h2,
    Bool.false_eq_true, if_false]

theorem State.accessOf_setEng (s : State) (e p v : Nat) : (s.setEng e (s.eng e)).accessOf e p v = s.accessOf e p v := by
  simp only [State.accessOf, State.portN, State.eng_setEng_same]

theorem State.watchHit_setEng (s : State) (e f : Nat) (x : Eng) (a : Nat × Bool × Nat × Nat) : (s.setEng f x).watchHit e a = s.watchHit e a := Eq.refl _

/-- No far access is due and there is no turn to come to: issue goes on at once. -/
theorem State.farDue_none {s : State} {e : Nat} (ht : s.caughtUp e = true) (h : s.farReady e = false) : s.farDue e = s := by
  unfold State.farDue State.turnCatch
  rw [if_pos ht]
  generalize (s.eng e).flights = l
  induction l with
  | nil => exact Eq.refl _
  | cons f l ih => simpa [h] using ih

/-- A bundle that leaves no stall standing ends with it. -/
theorem State.missEnd_none {s : State} {e : Nat} (h : e = 4 → (s.eng 4).stalled = false) : s.missEnd e = s := by
  unfold State.missEnd
  by_cases he : e = 4
  · simp [h he]
  · simp [he]

/-- A trigger that answers without control, without a stall and without a fault is the whole bundle. -/
theorem State.single_plain {s t : State} {e p v : Nat} (h : s.plain e = true) (hp : portFault (e == 4) ((s.retireBoth e).eng e).priv true p = none)
    (hk : portKind (e == 4) p = .trigger)
    (ha : ∀ a, (s.retireBoth e).accessOf e p (v % 2 ^ 32) = some a → (s.retireBoth e).watchHit e a = none)
    (ht : ((s.retireBoth e).setEng e ((s.retireBoth e).eng e)).trigger e p (v % 2 ^ 32) = ⟨t, [], none⟩)
    (hpc : (t.eng e).pc = ((s.retireBoth e).eng e).pc) (hst : (t.eng e).stepping = ((s.retireBoth e).eng e).stepping)
    (hmacc : (t.eng e).mac = ((s.retireBoth e).eng e).mac) (hstall : e = 4 → (t.eng 4).stalled = false)
    : s.single e p v = t.turned e (((s.retireBoth e).eng e).pc + 1) 1 := by
  unfold State.plain at h
  generalize hr : s.retireBoth e = r at *
  simp only [Bool.and_eq_true, bne_iff_ne, Bool.not_eq_true', Option.isNone_iff_eq_none, Bool.or_eq_true, decide_eq_true_eq, beq_iff_eq] at h
  obtain ⟨⟨⟨⟨⟨⟨⟨hu0, hf⟩, hc⟩, hm⟩, hl⟩, hs⟩, hmac⟩, hq⟩ := h
  unfold State.single
  rw [State.farDue_none hu0 hf, State.oneMove, if_pos hc]
  unfold State.issue
  simp only [hr, hm]
  unfold State.issueOne
  simp only [if_neg hl]
  have hb : State.plans r e (r.eng e).upper [Move.into p v] = [{ move := Move.into p v, runs := true, value := v % 2 ^ 32, bad := none }] := by
    simp [State.plans, State.planSlot, State.slotFault, Move.passes, Move.into, Move.illegal, State.srcValue, hp]
  rw [hb]
  have hx : ∀ x : Eng, x.stepTwo (e == 4) (List.filter (fun p => p.bad.isNone) [({ move := Move.into p v, runs := true, value := v % 2 ^ 32, bad := none } : Plan)]) = x := by
    intro x
    simp [Eng.stepTwo, Move.into, hk]
  have hcs : ([Move.into p v].any Move.consumes) = false := by simp [Move.consumes, Move.into]
  have h3 : ∀ w, (r.setEng e (r.eng e)).trigger e p w = ⟨t, [], none⟩ →
      State.stepThree e [({ move := Move.into p v, runs := true, value := w, bad := none } : Plan)] (okT (r.setEng e (r.eng e))) = ⟨t, [], none⟩ := by
    intro w hw
    simp [State.stepThree, State.slotThree, okT, Move.into, hk, hw]
  replace h3 := h3 _ ht
  simp only [hcs, hx, Bool.false_eq_true, if_false]
  have hu : ({ r.eng e with upper := (r.eng e).upper } : Eng) = r.eng e := by cases r.eng e; exact Eq.refl _
  simp only [hu, h3]
  have hacc : (((r.setEng e (r.eng e)).accessOf e p (v % 2 ^ 32)).bind ((r.setEng e (r.eng e)).watchHit e)) = none := by
    rw [State.accessOf_setEng]
    cases hA : r.accessOf e p (v % 2 ^ 32) with
    | none => exact Eq.refl _
    | some a => exact ha a hA
  simp only [List.filter_cons, List.filter_nil, if_true, List.findSome?_cons, List.findSome?_nil, Move.into, hacc]
  rw [State.missEnd_none hstall, State.afterBundle_nil _ _ (by rw [hpc]; exact hq), hpc]
  unfold State.haltsAfter
  rw [State.turned_eng]
  simp only [hmacc, hst]
  rw [hmac, hs]
  simp

theorem State.setEng_self_fly (s : State) (e : Nat) (f : Flight) : (s.setEng e (s.eng e)).fly e f = s.fly e f := by
  simp [State.fly, State.upE_setEng]; rfl

/-- A single command whose trigger faults: what step 3 reports of it stays, the cycle passes, and the fault is raised at its bundle. -/
theorem State.single_bad {s t : State} {e p v : Nat} {l : List Ctl} {f : Nat × Nat} (h : s.plain e = true) (hp : portFault (e == 4) ((s.retireBoth e).eng e).priv true p = none)
    (hk : portKind (e == 4) p = .trigger)
    (ht : ((s.retireBoth e).setEng e ((s.retireBoth e).eng e)).trigger e p (v % 2 ^ 32) = ⟨t, l, some f⟩) :
    s.single e p v = ((keepReports (s.retireBoth e) t e).spend e 1).raiseFault e f.1 f.2 ((s.retireBoth e).eng e).pc := by
  unfold State.plain at h
  generalize hr : s.retireBoth e = r at *
  simp only [Bool.and_eq_true, bne_iff_ne, Bool.not_eq_true', Option.isNone_iff_eq_none, Bool.or_eq_true, decide_eq_true_eq, beq_iff_eq] at h
  obtain ⟨⟨⟨⟨⟨⟨⟨hu0, hf⟩, hc⟩, hm⟩, hl⟩, hs⟩, hmac⟩, hq⟩ := h
  unfold State.single
  rw [State.farDue_none hu0 hf, State.oneMove, if_pos hc]
  unfold State.issue
  simp only [hr, hm]
  unfold State.issueOne
  simp only [if_neg hl]
  have hb : State.plans r e (r.eng e).upper [Move.into p v] = [{ move := Move.into p v, runs := true, value := v % 2 ^ 32, bad := none }] := by
    simp [State.plans, State.planSlot, State.slotFault, Move.passes, Move.into, Move.illegal, State.srcValue, hp]
  rw [hb]
  have hx : ∀ x : Eng, x.stepTwo (e == 4) (List.filter (fun p => p.bad.isNone) [({ move := Move.into p v, runs := true, value := v % 2 ^ 32, bad := none } : Plan)]) = x := by
    intro x
    simp [Eng.stepTwo, Move.into, hk]
  have hcs : ([Move.into p v].any Move.consumes) = false := by simp [Move.consumes, Move.into]
  have h3 : ∀ w, (r.setEng e (r.eng e)).trigger e p w = ⟨t, l, some f⟩ →
      State.stepThree e [({ move := Move.into p v, runs := true, value := w, bad := none } : Plan)] (okT (r.setEng e (r.eng e))) = ⟨t, l, some f⟩ := by
    intro w hw
    simp [State.stepThree, State.slotThree, okT, Move.into, hk, hw]
  replace h3 := h3 _ ht
  simp only [hcs, hx, Bool.false_eq_true, if_false]
  have hu : ({ r.eng e with upper := (r.eng e).upper } : Eng) = r.eng e := by cases r.eng e; exact Eq.refl _
  simp only [hu, State.faultRun, h3]
end Sys2Proof.Machine
end

