-- ==== Sys2Proof/Laws/Good.lean ====
section
/-! SUPPORT. Laws/Good.lean: `Good q s`: the queue of waiting commands is `q`, and `s` keeps the canonical memories, the bounds of the queues and
the 10 ns of farm time. The files Laws/Keeps*.lean show, operation by operation, that nothing but the step itself touches the queue
and that every operation keeps the rest. -/

namespace Sys2Proof.Machine

/-- The parts of `State.inv`, with the queue of waiting commands. -/
structure Good (q : List Instr) (s : State) : Prop where
  queue : s.pending = q
  mem : cellsWf 0#8 s.mem = true
  back : cellsWf 0#8 s.back = true
  work : cellsWf 0#8 s.work = true
  nor : cellsWf 0xFF#8 s.nor = true
  arr : cellsWf 0xFF#8 s.arr = true
  snap : cellsWf 0#8 s.rfl.snap = true
  brick : cellsWf 0xFF#8 s.brick.mem = true
  fifo : fifoOk s.evt.fifo = true
  logq : s.log.queue.length ≤ 64
  ram : s.log.ram.length ≤ 256
  farm : s.time.farm % 10 = 0

theorem good_iff {q : List Instr} {s : State} : Good q s ↔ s.pending = q ∧ s.inv = true := by
  simp only [State.inv, Memory.wf, logOk, Bool.and_eq_true, decide_eq_true_eq, beq_iff_eq]
  constructor
  · intro h
    exact ⟨h.queue, ⟨⟨⟨⟨⟨⟨⟨⟨h.mem, h.back⟩, h.work⟩, h.nor⟩, h.arr⟩, h.snap⟩, h.brick⟩, h.fifo⟩, h.logq, h.ram⟩, h.farm⟩
  · rintro ⟨hq, ⟨⟨⟨⟨⟨⟨⟨⟨h1, h2⟩, h3⟩, h4⟩, h5⟩, h6⟩, h7⟩, h8⟩, h9, h10⟩, h11⟩
    exact ⟨hq, h1, h2, h3, h4, h5, h6, h7, h8, h9, h10, h11⟩

/-- A record update that leaves the tracked parts alone. -/
theorem good_mk {q : List Instr} {s : State} {flds : Store Nat} {m : MemSt} {time : TimeSt} {seq : SeqSt} {evt : EventSt} {exc : ExcSt}
    {engs : Store Eng} {log : LogSt} {phase : Phase} {rfl : RflSt} {dies : Store DieSt} {pwm : PwmSt} {dlnk : DlnkSt} {dio : DioSt}
    {ao : Store AoSt} {wave : Store WaveSt} {prg : Store PrgSt} {keep : KeepSt} {brick : BrickSt} {adc : Store AdcSt} {pwr : PwrSt}
    {upd : UpdSt} {ports : Store PortSt} {sess : Store Sess} {crypto : CryptoSt} {lan : LanSt} {dict : DictSt} {freeCtr : Nat}
    (h : Good q s) (h1 : time.farm = s.time.farm) (h2 : evt.fifo = s.evt.fifo) (h3 : log.queue = s.log.queue)
    (h4 : log.ram = s.log.ram) (h5 : rfl.snap = s.rfl.snap) (h6 : brick.mem = s.brick.mem) :
    Good q (State.mk flds s.mem s.back s.work s.nor s.arr m time seq evt exc engs log phase rfl dies pwm dlnk dio ao wave prg keep brick adc
      pwr upd ports sess crypto lan dict freeCtr s.pending) :=
  ⟨h.queue, h.mem, h.back, h.work, h.nor, h.arr, h5 ▸ h.snap, h6 ▸ h.brick, h2 ▸ h.fifo, h3 ▸ h.logq, h4 ▸ h.ram, h1 ▸ h.farm⟩

theorem good_log {q : List Instr} {s : State} (l : LogSt) (h : Good q s) (h1 : l.queue.length ≤ 64) (h2 : l.ram.length ≤ 256) :
    Good q { s with log := l } :=
  ⟨h.queue, h.mem, h.back, h.work, h.nor, h.arr, h.snap, h.brick, h.fifo, h1, h2, h.farm⟩

theorem good_fifo {q : List Instr} {s : State} (e : EventSt) (h : Good q s) (h1 : fifoOk e.fifo = true) : Good q { s with evt := e } :=
  ⟨h.queue, h.mem, h.back, h.work, h.nor, h.arr, h.snap, h.brick, h1, h.logq, h.ram, h.farm⟩

theorem good_time {q : List Instr} {s : State} (t : TimeSt) (h : Good q s) (h1 : t.farm % 10 = 0) : Good q { s with time := t } :=
  ⟨h.queue, h.mem, h.back, h.work, h.nor, h.arr, h.snap, h.brick, h.fifo, h.logq, h.ram, h1⟩

theorem good_ite {q : List Instr} {c : Prop} [Decidable c] {a b : State} (ha : Good q a) (hb : Good q b) : Good q (if c then a else b) := by
  split
  · exact ha
  · exact hb

theorem good_ite_fst {q : List Instr} {c : Prop} [Decidable c] {a b : State × α} (ha : Good q a.1) (hb : Good q b.1) :
    Good q (if c then a else b).1 := by
  split
  · exact ha
  · exact hb

theorem good_ite_snd {q : List Instr} {c : Prop} [Decidable c] {a b : α × State} (ha : Good q a.2) (hb : Good q b.2) :
    Good q (if c then a else b).2 := by
  split
  · exact ha
  · exact hb

theorem good_forAll {q : List Instr} {f : α → State → State} {l : List α} {s : State} (hf : ∀ x s, Good q s → Good q (f x s))
    (h : Good q s) : Good q (State.forAll l f s) :=
  State.forAll_keeps (P := Good q) hf l h

theorem good_foldl {q : List Instr} {f : State → α → State} {l : List α} {s : State} (hf : ∀ s x, Good q s → Good q (f s x))
    (h : Good q s) : Good q (l.foldl f s) := by
  induction l generalizing s with
  | nil => exact h
  | cons x r ih => exact ih (hf s x h)

theorem good_foldl_fst {q : List Instr} {f : State × β → α → State × β} {l : List α} {r : State × β}
    (hf : ∀ r x, Good q r.1 → Good q (f r x).1) (h : Good q r.1) : Good q (l.foldl f r).1 := by
  induction l generalizing r with
  | nil => exact h
  | cons x t ih => exact ih (hf r x h)

theorem good_foldl_snd {q : List Instr} {f : β × State → α → β × State} {l : List α} {r : β × State}
    (hf : ∀ r x, Good q r.2 → Good q (f r x).2) (h : Good q r.2) : Good q (l.foldl f r).2 := by
  induction l generalizing r with
  | nil => exact h
  | cons x t ih => exact ih (hf r x h)

theorem good_pair {q : List Instr} {s : State} {x : α} (h : Good q s) : Good q (s, x).1 := h

theorem good_snd {q : List Instr} {s : State} {x : α} (h : Good q s) : Good q (x, s).2 := h

/-! Cutting at a local definition: what it keeps first, then the rest without its value. -/

theorem good_cut {q : List Instr} {P : Prop} (s : State) (h : Good q s) (k : Good q s → P) : P := k h
theorem good_cut_fst {q : List Instr} {P : Prop} (p : State × α) (h : Good q p.1) (k : Good q p.1 → P) : P := k h
theorem good_cut_snd {q : List Instr} {P : Prop} (p : α × State) (h : Good q p.2) (k : Good q p.2 → P) : P := k h

/-- What a function answers in its first component, taken apart by a match. -/
theorem good_of_eq {q : List Instr} {p : State × α} {s : State} {x : α} (h : Good q p.1) (e : p = (s, x)) : Good q s := by
  rw [e] at h
  exact h

theorem good_rfl {q : List Instr} {s : State} (r : RflSt) (h : Good q s) (h1 : cellsWf 0#8 r.snap = true) : Good q { s with rfl := r } :=
  ⟨h.queue, h.mem, h.back, h.work, h.nor, h.arr, h1, h.brick, h.fifo, h.logq, h.ram, h.farm⟩

end Sys2Proof.Machine
end

