-- ==== Sys2Proof/Laws/KeepsOps.lean ====
section
/-! SUPPORT. Laws/KeepsOps.lean: every operation of Machine/Ops.lean keeps `Good`. -/

namespace Sys2Proof.Machine

theorem State.put_keeps {q : List Instr} (s : State) (f : Fam) (v : Nat) (i : Nat) (j : Nat) (h : Good q s) : Good q (State.put s f v i j) := by
  unfold State.put
  repeat' first
    | with_reducible assumption
    | intro _
    | with_reducible apply good_mk
    | with_reducible rfl

theorem State.bump_keeps {q : List Instr} (s : State) (f : Fam) (i : Nat) (k : optParam Nat 1) (h : Good q s) : Good q (State.bump s f i k) := by
  unfold State.bump
  repeat' first
    | with_reducible assumption
    | intro _
    | with_reducible apply State.put_keeps

theorem State.wrapUp_keeps {q : List Instr} (s : State) (f : Fam) (i : Nat) (h : Good q s) : Good q (State.wrapUp s f i) := by
  unfold State.wrapUp
  repeat' first
    | with_reducible assumption
    | intro _
    | with_reducible apply State.put_keeps

theorem State.putBit_keeps {q : List Instr} (s : State) (f : Fam) (b : Nat) (v : Bool) (i : Nat) (h : Good q s) : Good q (State.putBit s f b v i) := by
  unfold State.putBit
  repeat' first
    | with_reducible assumption
    | intro _
    | with_reducible apply State.put_keeps

theorem State.put64_keeps {q : List Instr} (s : State) (lo : Fam) (hi : Fam) (v : Nat) (i : Nat) (h : Good q s) : Good q (State.put64 s lo hi v i) := by
  unfold State.put64
  repeat' first
    | with_reducible assumption
    | intro _
    | with_reducible apply State.put_keeps

theorem State.free_keeps {q : List Instr} (s : State) (h : Good q s) : Good q (State.free s).2 := by
  unfold State.free
  repeat' first
    | with_reducible assumption
    | intro _
    | with_reducible apply good_mk
    | with_reducible rfl

theorem State.setEng_keeps {q : List Instr} (s : State) (e : Nat) (x : Eng) (h : Good q s) : Good q (State.setEng s e x) := by
  unfold State.setEng
  repeat' first
    | with_reducible assumption
    | intro _
    | with_reducible apply good_mk
    | with_reducible rfl

theorem State.upE_keeps {q : List Instr} (s : State) (e : Nat) (f : Eng → Eng) (h : Good q s) : Good q (State.upE s e f) := by
  unfold State.upE
  repeat' first
    | with_reducible assumption
    | intro _
    | with_reducible apply State.setEng_keeps

theorem State.setTask_keeps {q : List Instr} (s : State) (n : Nat) (x : TaskSt) (h : Good q s) : Good q (State.setTask s n x) := by
  unfold State.setTask
  repeat' first
    | with_reducible assumption
    | intro _
    | (extract_lets +onlyGivenNames x
       first
         | (refine good_cut (q := q) x ?cv ?ck
            case' ck => (intro hx; clear_value x)
            case' cv => (unfold x; clear x))
         | (refine good_cut_fst (q := q) x ?cv ?ck
            case' ck => (intro hx; clear_value x)
            case' cv => (unfold x; clear x))
         | (refine good_cut_snd (q := q) x ?cv ?ck
            case' ck => (intro hx; clear_value x)
            case' cv => (unfold x; clear x))
         | skip)
    | with_reducible apply good_mk
    | with_reducible rfl

theorem State.upT_keeps {q : List Instr} (s : State) (n : Nat) (f : TaskSt → TaskSt) (h : Good q s) : Good q (State.upT s n f) := by
  unfold State.upT
  repeat' first
    | with_reducible assumption
    | intro _
    | with_reducible apply State.setTask_keeps

theorem State.upI_keeps {q : List Instr} (s : State) (n : Nat) (f : Inst → Inst) (h : Good q s) : Good q (State.upI s n f) := by
  unfold State.upI
  repeat' first
    | with_reducible assumption
    | intro _
    | with_reducible apply State.upT_keeps

theorem State.setMem_keeps {q : List Instr} (s : State) (a : Nat) (l : List Byte) (h : Good q s) : Good q (State.setMem s a l) := by
  exact ⟨h.queue, cellsWf_cellsPut _ a l h.mem, h.back, h.work, h.nor, h.arr, h.snap, h.brick, h.fifo, h.logq, h.ram, h.farm⟩

theorem State.setNor_keeps {q : List Instr} (s : State) (a : Nat) (l : List Byte) (h : Good q s) : Good q (State.setNor s a l) := by
  exact ⟨h.queue, h.mem, h.back, h.work, cellsWf_cellsPut _ a l h.nor, h.arr, h.snap, h.brick, h.fifo, h.logq, h.ram, h.farm⟩

theorem State.setArr_keeps {q : List Instr} (s : State) (a : Nat) (l : List Byte) (h : Good q s) : Good q (State.setArr s a l) := by
  exact ⟨h.queue, h.mem, h.back, h.work, h.nor, cellsWf_cellsPut _ a l h.arr, h.snap, h.brick, h.fifo, h.logq, h.ram, h.farm⟩

theorem State.setEcc_keeps {q : List Instr} (s : State) (key : Nat) (st : Nat) (h : Good q s) : Good q (State.setEcc s key st) := by
  unfold State.setEcc
  repeat' first
    | with_reducible assumption
    | intro _
    | with_reducible apply good_ite
    | with_reducible apply State.put_keeps
    | split
    | with_reducible apply good_mk
    | with_reducible rfl

theorem State.eccStore_keeps {q : List Instr} (key : Nat) (s : State) (h : Good q s) : Good q (State.eccStore key s) := by
  unfold State.eccStore
  repeat' first
    | with_reducible assumption
    | intro _
    | with_reducible apply good_ite
    | with_reducible apply State.put_keeps
    | with_reducible apply State.setEcc_keeps
    | split
    | with_reducible apply good_mk
    | with_reducible rfl

theorem State.bufStore_keeps {q : List Instr} (a : Nat) (n : Nat) (s : State) (h : Good q s) : Good q (State.bufStore a n s) := by
  unfold State.bufStore
  repeat' first
    | with_reducible assumption
    | intro _
    | with_reducible apply good_ite
    | with_reducible apply State.eccStore_keeps
    | with_reducible apply good_forAll
    | (extract_lets +onlyGivenNames x
       first
         | (refine good_cut (q := q) x ?cv ?ck
            case' ck => (intro hx; clear_value x)
            case' cv => (unfold x; clear x))
         | (refine good_cut_fst (q := q) x ?cv ?ck
            case' ck => (intro hx; clear_value x)
            case' cv => (unfold x; clear x))
         | (refine good_cut_snd (q := q) x ?cv ?ck
            case' ck => (intro hx; clear_value x)
            case' cv => (unfold x; clear x))
         | skip)
    | split

theorem State.qStore_keeps {q : List Instr} (k : Nat) (n : Nat) (s : State) (h : Good q s) : Good q (State.qStore k n s) := by
  unfold State.qStore
  repeat' first
    | with_reducible assumption
    | intro _
    | with_reducible apply good_ite
    | with_reducible apply good_ite_fst
    | with_reducible apply good_ite_snd
    | with_reducible apply State.bufStore_keeps
    | with_reducible apply State.put_keeps
    | (extract_lets +onlyGivenNames x
       first
         | (refine good_cut (q := q) x ?cv ?ck
            case' ck => (intro hx; clear_value x)
            case' cv => (unfold x; clear x))
         | (refine good_cut_fst (q := q) x ?cv ?ck
            case' ck => (intro hx; clear_value x)
            case' cv => (unfold x; clear x))
         | (refine good_cut_snd (q := q) x ?cv ?ck
            case' ck => (intro hx; clear_value x)
            case' cv => (unfold x; clear x))
         | skip)
    | with_reducible apply good_mk
    | with_reducible rfl

theorem State.cachePut_keeps {q : List Instr} (a : Nat) (b : Byte) (s : State) (h : Good q s) : Good q (State.cachePut a b s) := by
  unfold State.cachePut
  repeat' first
    | with_reducible assumption
    | intro _
    | with_reducible apply good_ite
    | with_reducible apply State.put_keeps
    | split
    | with_reducible apply good_mk
    | with_reducible rfl

theorem State.markDirty_keeps {q : List Instr} (work : Bool) (a : Nat) (n : Nat) (s : State) (h : Good q s) : Good q (State.markDirty work a n s) := by
  unfold State.markDirty
  repeat' first
    | with_reducible assumption
    | intro _
    | with_reducible apply good_ite
    | with_reducible apply State.put_keeps
    | with_reducible apply good_forAll
    | (extract_lets +onlyGivenNames x
       first
         | (refine good_cut (q := q) x ?cv ?ck
            case' ck => (intro hx; clear_value x)
            case' cv => (unfold x; clear x))
         | (refine good_cut_fst (q := q) x ?cv ?ck
            case' ck => (intro hx; clear_value x)
            case' cv => (unfold x; clear x))
         | (refine good_cut_snd (q := q) x ?cv ?ck
            case' ck => (intro hx; clear_value x)
            case' cv => (unfold x; clear x))
         | skip)
    | split
    | with_reducible apply good_mk
    | with_reducible rfl

theorem State.setCopy_keeps {q : List Instr} (s : State) (copy : Nat) (a : Nat) (l : List Byte) (h : Good q s) : Good q (State.setCopy s copy a l) := by
  unfold State.setCopy
  refine good_ite ?_ (good_ite ?_ (good_ite (good_forAll (fun x s h => State.cachePut_keeps _ _ s h) h)
    (State.markDirty_keeps _ _ _ _ (State.setMem_keeps _ _ _ h))))
  · exact ⟨h.queue, h.mem, cellsWf_cellsPut _ _ _ h.back, h.work, h.nor, h.arr, h.snap, h.brick, h.fifo, h.logq, h.ram, h.farm⟩
  · exact State.markDirty_keeps _ _ _ _ ⟨h.queue, h.mem, h.back, cellsWf_cellsPut _ _ _ h.work, h.nor, h.arr, h.snap, h.brick, h.fifo, h.logq, h.ram, h.farm⟩

theorem State.putWords_keeps {q : List Instr} (copy : Nat) (a : Nat) (l : List Byte) (s : State) (h : Good q s) : Good q (State.putWords copy a l s) := by
  unfold State.putWords
  repeat' first
    | with_reducible assumption
    | intro _
    | with_reducible apply good_ite
    | with_reducible apply State.eccStore_keeps
    | with_reducible apply State.setCopy_keeps
    | with_reducible apply good_forAll
    | (extract_lets +onlyGivenNames x
       first
         | (refine good_cut (q := q) x ?cv ?ck
            case' ck => (intro hx; clear_value x)
            case' cv => (unfold x; clear x))
         | (refine good_cut_fst (q := q) x ?cv ?ck
            case' ck => (intro hx; clear_value x)
            case' cv => (unfold x; clear x))
         | (refine good_cut_snd (q := q) x ?cv ?ck
            case' ck => (intro hx; clear_value x)
            case' cv => (unfold x; clear x))
         | skip)

theorem State.defer_keeps {q : List Instr} (c : CtrlEnt) (s : State) (h : Good q s) : Good q (State.defer c s).1 := by
  unfold State.defer
  repeat' first
    | with_reducible assumption
    | intro _
    | with_reducible apply good_ite
    | with_reducible apply good_ite_fst
    | with_reducible apply good_ite_snd
    | with_reducible apply State.put_keeps
    | with_reducible apply State.qStore_keeps
    | (extract_lets +onlyGivenNames x
       first
         | (refine good_cut (q := q) x ?cv ?ck
            case' ck => (intro hx; clear_value x)
            case' cv => (unfold x; clear x))
         | (refine good_cut_fst (q := q) x ?cv ?ck
            case' ck => (intro hx; clear_value x)
            case' cv => (unfold x; clear x))
         | (refine good_cut_snd (q := q) x ?cv ?ck
            case' ck => (intro hx; clear_value x)
            case' cv => (unfold x; clear x))
         | skip)
    | split
    | with_reducible apply good_mk
    | with_reducible rfl

theorem State.control_keeps {q : List Instr} (a : Nat) (v : Nat) (op : State → State) (s : State) (hfop : ∀ x0, Good q x0 → Good q (op x0)) (h : Good q s) : Good q (State.control a v op s) := by
  unfold State.control
  repeat' first
    | with_reducible assumption
    | intro _
    | with_reducible apply good_ite
    | with_reducible apply good_ite_fst
    | with_reducible apply good_ite_snd
    | with_reducible apply State.defer_keeps
    | with_reducible apply hfop

theorem State.rtcPass_keeps {q : List Instr} (n : Nat) (s : State) (h : Good q s) : Good q (State.rtcPass n s) := by
  unfold State.rtcPass
  repeat' first
    | with_reducible assumption
    | intro _
    | with_reducible apply good_ite
    | with_reducible apply State.put_keeps
    | (extract_lets +onlyGivenNames x
       first
         | (refine good_cut (q := q) x ?cv ?ck
            case' ck => (intro hx; clear_value x)
            case' cv => (unfold x; clear x))
         | (refine good_cut_fst (q := q) x ?cv ?ck
            case' ck => (intro hx; clear_value x)
            case' cv => (unfold x; clear x))
         | (refine good_cut_snd (q := q) x ?cv ?ck
            case' ck => (intro hx; clear_value x)
            case' cv => (unfold x; clear x))
         | skip)
    | split

theorem State.lwPass_keeps {q : List Instr} (s : State) (h : Good q s) : Good q (State.lwPass s) := by
  unfold State.lwPass
  repeat' first
    | with_reducible assumption
    | intro _
    | with_reducible apply good_ite
    | with_reducible apply State.put_keeps
    | split

theorem State.cyclesRun_keeps {q : List Instr} (k : Nat) (s : State) (h : Good q s) : Good q (State.cyclesRun k s) := by
  unfold State.cyclesRun
  refine State.rtcPass_keeps _ _ (State.lwPass_keeps _ ?_)
  refine ⟨h.queue, h.mem, h.back, h.work, h.nor, h.arr, h.snap, h.brick, h.fifo, h.logq, h.ram, ?_⟩
  have := h.farm
  dsimp only
  split
  · split <;> omega
  · exact this

theorem State.glintTake_keeps {q : List Instr} (s : State) (h : Good q s) : Good q (State.glintTake s) := by
  unfold State.glintTake
  repeat' first
    | with_reducible assumption
    | intro _
    | with_reducible apply good_ite
    | (extract_lets +onlyGivenNames x
       first
         | (refine good_cut (q := q) x ?cv ?ck
            case' ck => (intro hx; clear_value x)
            case' cv => (unfold x; clear x))
         | (refine good_cut_fst (q := q) x ?cv ?ck
            case' ck => (intro hx; clear_value x)
            case' cv => (unfold x; clear x))
         | (refine good_cut_snd (q := q) x ?cv ?ck
            case' ck => (intro hx; clear_value x)
            case' cv => (unfold x; clear x))
         | skip)
    | split
    | with_reducible apply good_mk
    | with_reducible rfl

theorem State.cyclesPass_keeps {q : List Instr} (k : Nat) (s : State) (h : Good q s) : Good q (State.cyclesPass k s) := by
  unfold State.cyclesPass
  split
  · exact good_ite (State.cyclesRun_keeps _ _ (State.glintTake_keeps _ (State.cyclesRun_keeps _ _ h))) (State.cyclesRun_keeps _ _ h)
  · exact State.cyclesRun_keeps _ _ h

theorem State.advance_keeps {q : List Instr} (s : State) (t : Nat) (h : Good q s) : Good q (State.advance s t) := by
  unfold State.advance
  repeat' first
    | with_reducible assumption
    | intro _
    | with_reducible apply good_ite
    | with_reducible apply State.cyclesPass_keeps

theorem State.advanceReal_keeps {q : List Instr} (s : State) (t : Nat) (h : Good q s) : Good q (State.advanceReal s t) := by
  unfold State.advanceReal
  exact good_ite (State.cyclesPass_keeps _ _ h) h

theorem State.keepPush_keeps {q : List Instr} (r : KeepReq) (s : State) (h : Good q s) : Good q (State.keepPush r s) := by
  unfold State.keepPush
  repeat' first
    | with_reducible assumption
    | intro _
    | with_reducible apply good_ite
    | with_reducible apply State.wrapUp_keeps
    | with_reducible apply State.qStore_keeps
    | (extract_lets +onlyGivenNames x
       first
         | (refine good_cut (q := q) x ?cv ?ck
            case' ck => (intro hx; clear_value x)
            case' cv => (unfold x; clear x))
         | (refine good_cut_fst (q := q) x ?cv ?ck
            case' ck => (intro hx; clear_value x)
            case' cv => (unfold x; clear x))
         | (refine good_cut_snd (q := q) x ?cv ?ck
            case' ck => (intro hx; clear_value x)
            case' cv => (unfold x; clear x))
         | skip)
    | split
    | with_reducible apply good_mk
    | with_reducible rfl

/-- The check bits of a word: the log is untouched. -/
theorem State.eccStore_log (k : Nat) (s : State) : (s.eccStore k).log = s.log := by
  unfold State.eccStore State.setEcc
  split
  · split <;> rfl
  · rfl

/-- Words of the buffer RAM: the log is untouched. -/
theorem State.bufStore_log (a n : Nat) (s : State) : (s.bufStore a n).log = s.log := by
  unfold State.bufStore
  split
  · rfl
  · exact State.forAll_keeps (P := fun t => t.log = s.log) (fun _ t h => (State.eccStore_log _ t).trans h) _ (Eq.refl _)

/-- An entry of a queue is stored: the log is untouched. -/
theorem State.qStore_log (k n : Nat) (s : State) : (s.qStore k n).log = s.log := by
  unfold State.qStore
  exact State.bufStore_log _ _ _

/-- A request enters the Keep queue: the log is untouched. -/
theorem State.keepPush_log (r : KeepReq) (s : State) : (s.keepPush r).log = s.log := by
  unfold State.keepPush
  rw [State.qStore_log, State.wrapUp_log]

theorem State.logPump_keeps {q : List Instr} (y1 : Nat) (y2 : State) (h : Good q y2) : Good q (State.logPump y1 y2) := by
  induction y1 generalizing y2 with
  | zero => exact h
  | succ k ih =>
    simp only [State.logPump]
    split
    · exact h
    · next e r he =>
      refine good_ite (ih _ (State.keepPush_keeps _ _ ?_)) h
      have hl := h.logq
      rw [he] at hl
      refine ⟨h.queue, h.mem, h.back, h.work, h.nor, h.arr, h.snap, h.brick, h.fifo, ?_, h.ram, h.farm⟩
      exact Nat.le_of_succ_le hl

theorem keepLast_length (n : Nat) (l : List α) : (keepLast n l).length ≤ n := by
  simp only [keepLast, List.length_drop]
  omega

/-- An entry enters the log queue only where there is room. -/
theorem State.logQueue_keeps {q : List Instr} (ramOnly : Bool) (e : LogEntry) (s : State) (h : Good q s)
    (hr : ramOnly = true ∨ s.log.queue.length < 64) : Good q (State.logQueue ramOnly e s) := by
  unfold State.logQueue
  dsimp only
  have h0 := State.wrapUp_keeps s R.LOG_SEQ_N 0 h
  rw [← State.wrapUp_log s R.LOG_SEQ_N 0] at hr
  generalize s.wrapUp R.LOG_SEQ_N = t at h0 hr
  have h1 := good_log { t.log with ram := keepLast 256 (t.log.ram ++ [{ e with ramOnly := ramOnly }]),
                                   counts := Store.put e.cls (Store.getD t.log.counts e.cls 0 + 1) t.log.counts } h0 h0.logq
    (by dsimp only; exact keepLast_length 256 _)
  split
  · exact h1
  · next hn =>
    have hl : t.log.queue.length < 64 := hr.resolve_left hn
    apply State.logPump_keeps
    apply State.qStore_keeps
    refine ⟨h1.queue, h1.mem, h1.back, h1.work, h1.nor, h1.arr, h1.snap, h1.brick, h1.fifo, ?_, h1.ram, h1.farm⟩
    simp only [List.length_append, List.length_singleton]
    exact hl

theorem State.logLost_keeps {q : List Instr} (s : State) (h : Good q s) : Good q (State.logLost s) := by
  unfold State.logLost
  split
  · exact h
  · next hn =>
    refine State.logQueue_keeps _ _ _ ?_ (Or.inr ?_)
    · exact ⟨h.queue, h.mem, h.back, h.work, h.nor, h.arr, h.snap, h.brick, h.fifo, h.logq, h.ram, h.farm⟩
    · show s.log.queue.length < 64
      simp only [not_or] at hn
      omega

theorem State.logDrain_keeps {q : List Instr} (s : State) (h : Good q s) : Good q (State.logDrain s) := by
  unfold State.logDrain
  repeat' first
    | with_reducible assumption
    | intro _
    | with_reducible apply good_ite
    | with_reducible apply State.logPump_keeps
    | with_reducible apply State.logLost_keeps

theorem State.logPut_keeps {q : List Instr} (s : State) (sv : Bool) (e : LogEntry) (h : Good q s) : Good q (State.logPut s sv e) := by
  unfold State.logPut
  split
  · exact h
  · have h1 := State.logLost_keeps s h
    generalize s.logLost = t at h1
    dsimp only
    have h2 := State.logQueue_keeps (decide (e.cls < t.get R.LOG_CTL_MINCLS) && e.kind != 3 ||
      decide ((if sv = true then 64 else 63) ≤ t.log.queue.length) || t.is R.LOG_STAT_FAILED) e t h1 (by
        by_cases hq : t.log.queue.length < 64
        · exact Or.inr hq
        · refine Or.inl ?_
          have : (if sv = true then 64 else 63) ≤ t.log.queue.length := by split <;> omega
          simp [this])
    refine good_ite (State.bump_keeps _ _ _ _ ?_) h2
    exact ⟨h2.queue, h2.mem, h2.back, h2.work, h2.nor, h2.arr, h2.snap, h2.brick, h2.fifo, h2.logq, h2.ram, h2.farm⟩

theorem State.logMsg_keeps {q : List Instr} (s : State) (code : Nat) (data : Nat) (cls : Nat) (h : Good q s) : Good q (State.logMsg s code data cls) := by
  unfold State.logMsg
  repeat' first
    | with_reducible assumption
    | intro _
    | with_reducible apply good_ite
    | with_reducible apply State.logPut_keeps

theorem State.logAdd_keeps {q : List Instr} (s : State) (sv : Bool) (e : LogEntry) (h : Good q s) : Good q (State.logAdd s sv e) := by
  unfold State.logAdd
  repeat' first
    | with_reducible assumption
    | intro _
    | with_reducible apply good_ite
    | with_reducible apply State.put_keeps
    | with_reducible apply State.logPut_keeps
    | with_reducible apply State.logMsg_keeps
    | (extract_lets +onlyGivenNames x
       first
         | (refine good_cut (q := q) x ?cv ?ck
            case' ck => (intro hx; clear_value x)
            case' cv => (unfold x; clear x))
         | (refine good_cut_fst (q := q) x ?cv ?ck
            case' ck => (intro hx; clear_value x)
            case' cv => (unfold x; clear x))
         | (refine good_cut_snd (q := q) x ?cv ?ck
            case' ck => (intro hx; clear_value x)
            case' cv => (unfold x; clear x))
         | skip)
    | with_reducible apply good_mk
    | split
    | with_reducible rfl

theorem State.logFault_keeps {q : List Instr} (s : State) (cause : Nat) (cls : Nat) (eng : Nat) (task : Option Nat) (t : Nat) (h : Good q s) : Good q (State.logFault s cause cls eng task t) := by
  unfold State.logFault
  repeat' first
    | with_reducible assumption
    | intro _
    | with_reducible apply good_ite
    | with_reducible apply State.logAdd_keeps

theorem State.warn_keeps {q : List Instr} (s : State) (k : Nat) (data : Nat) (h : Good q s) : Good q (State.warn s k data) := by
  unfold State.warn
  repeat' first
    | with_reducible assumption
    | intro _
    | with_reducible apply good_ite
    | with_reducible apply State.logPut_keeps

theorem State.note_keeps {q : List Instr} (s : State) (k : Nat) (data : Nat) (h : Good q s) : Good q (State.note s k data) := by
  unfold State.note
  repeat' first
    | with_reducible assumption
    | intro _
    | with_reducible apply good_ite
    | with_reducible apply State.logPut_keeps

theorem State.eccCount_keeps {q : List Instr} (req : Nat) (key : Nat) (st : Nat) (s : State) (h : Good q s) : Good q (State.eccCount req key st s) := by
  unfold State.eccCount
  repeat' first
    | with_reducible assumption
    | intro _
    | with_reducible apply good_ite
    | with_reducible apply State.bump_keeps
    | with_reducible apply State.put_keeps
    | with_reducible apply State.note_keeps
    | (extract_lets +onlyGivenNames x
       first
         | (refine good_cut (q := q) x ?cv ?ck
            case' ck => (intro hx; clear_value x)
            case' cv => (unfold x; clear x))
         | (refine good_cut_fst (q := q) x ?cv ?ck
            case' ck => (intro hx; clear_value x)
            case' cv => (unfold x; clear x))
         | (refine good_cut_snd (q := q) x ?cv ?ck
            case' ck => (intro hx; clear_value x)
            case' cv => (unfold x; clear x))
         | skip)
    | split

theorem State.rflSend_keeps {q : List Instr} (type : Nat) (d : List Byte) (s : State) (bad : List Nat) (h : Good q s) : Good q (State.rflSend type d s bad) := by
  unfold State.rflSend
  repeat' first
    | with_reducible assumption
    | intro _
    | with_reducible apply good_ite
    | with_reducible apply State.warn_keeps
    | with_reducible apply State.qStore_keeps
    | (extract_lets +onlyGivenNames x
       first
         | (refine good_cut (q := q) x ?cv ?ck
            case' ck => (intro hx; clear_value x)
            case' cv => (unfold x; clear x))
         | (refine good_cut_fst (q := q) x ?cv ?ck
            case' ck => (intro hx; clear_value x)
            case' cv => (unfold x; clear x))
         | (refine good_cut_snd (q := q) x ?cv ?ck
            case' ck => (intro hx; clear_value x)
            case' cv => (unfold x; clear x))
         | skip)
    | split
    | with_reducible apply good_mk
    | with_reducible rfl

end Sys2Proof.Machine
end

