-- ==== Sys2Proof/Laws/KeepsEvent.lean ====
section
/-! SUPPORT. Laws/KeepsEvent.lean: every operation of Machine/Event.lean keeps `Good`. -/

namespace Sys2Proof.Machine

theorem State.setRec_keeps {q : List Instr} (s : State) (src : Nat) (r : EvRec) (h : Good q s) : Good q (State.setRec s src r) := by
  unfold State.setRec
  repeat' first
    | with_reducible assumption
    | intro _
    | (extract_lets +onlyGivenNames x
       first
         | (refine good_cut (q := q) x ?cv ?ck
            case' ck => (intro hx; clear_value x)
            case' cv => (unfold x; clear x))
         | (refine good_cut_fst (q := q) x ?cv ?ck
            case' ck => (intro hx; clear_value x)
            case' cv => (unfold x; clear x))
         | (refine good_cut_snd (q := q) x ?cv ?ck
            case' ck => (intro hx; clear_value x)
            case' cv => (unfold x; clear x))
         | skip)
    | with_reducible apply good_mk
    | with_reducible rfl

theorem State.release_keeps {q : List Instr} (s : State) (n : Nat) (h : Good q s) : Good q (State.release s n) := by
  unfold State.release
  repeat' first
    | with_reducible assumption
    | intro _
    | with_reducible apply good_ite
    | with_reducible apply State.upE_keeps
    | with_reducible apply State.setTask_keeps
    | with_reducible apply State.putWords_keeps
    | with_reducible apply State.eccCount_keeps
    | with_reducible apply State.setCopy_keeps
    | with_reducible apply State.setEcc_keeps
    | (extract_lets +onlyGivenNames x
       first
         | (refine good_cut (q := q) x ?cv ?ck
            case' ck => (intro hx; clear_value x)
            case' cv => (unfold x; clear x))
         | (refine good_cut_fst (q := q) x ?cv ?ck
            case' ck => (intro hx; clear_value x)
            case' cv => (unfold x; clear x))
         | (refine good_cut_snd (q := q) x ?cv ?ck
            case' ck => (intro hx; clear_value x)
            case' cv => (unfold x; clear x))
         | skip)
    | split
    | with_reducible apply good_mk
    | with_reducible rfl

theorem State.overrun_keeps {q : List Instr} (s : State) (n : Nat) (h : Good q s) : Good q (State.overrun s n) := by
  unfold State.overrun
  repeat' first
    | with_reducible assumption
    | intro _
    | with_reducible apply State.bump_keeps
    | with_reducible apply State.upI_keeps
    | with_reducible apply State.warn_keeps
    | (extract_lets +onlyGivenNames x
       first
         | (refine good_cut (q := q) x ?cv ?ck
            case' ck => (intro hx; clear_value x)
            case' cv => (unfold x; clear x))
         | (refine good_cut_fst (q := q) x ?cv ?ck
            case' ck => (intro hx; clear_value x)
            case' cv => (unfold x; clear x))
         | (refine good_cut_snd (q := q) x ?cv ?ck
            case' ck => (intro hx; clear_value x)
            case' cv => (unfold x; clear x))
         | skip)
    | with_reducible apply good_mk
    | with_reducible rfl

theorem State.consider_keeps {q : List Instr} (s : State) (n : Nat) (h : Good q s) : Good q (State.consider s n).1 := by
  unfold State.consider
  repeat' first
    | with_reducible assumption
    | intro _
    | with_reducible apply good_ite
    | with_reducible apply good_ite_fst
    | with_reducible apply good_ite_snd
    | with_reducible apply State.overrun_keeps
    | with_reducible apply State.release_keeps
    | (extract_lets +onlyGivenNames x
       first
         | (refine good_cut (q := q) x ?cv ?ck
            case' ck => (intro hx; clear_value x)
            case' cv => (unfold x; clear x))
         | (refine good_cut_fst (q := q) x ?cv ?ck
            case' ck => (intro hx; clear_value x)
            case' cv => (unfold x; clear x))
         | (refine good_cut_snd (q := q) x ?cv ?ck
            case' ck => (intro hx; clear_value x)
            case' cv => (unfold x; clear x))
         | skip)
    | split
    | with_reducible apply good_mk
    | with_reducible rfl

theorem State.guardPass_keeps {q : List Instr} (s : State) (n : Nat) (time : Nat) (h : Good q s) : Good q (State.guardPass s n time).1 := by
  unfold State.guardPass
  repeat' first
    | with_reducible assumption
    | intro _
    | with_reducible apply good_ite
    | with_reducible apply good_ite_fst
    | with_reducible apply good_ite_snd
    | with_reducible apply State.bump_keeps
    | with_reducible apply State.setTask_keeps

theorem State.taskEvent_keeps {q : List Instr} (s : State) (o : Occ) (n : Nat) (h : Good q s) : Good q (State.taskEvent s o n).1 := by
  unfold State.taskEvent
  repeat' first
    | with_reducible assumption
    | intro _
    | with_reducible apply good_ite
    | with_reducible apply good_ite_fst
    | with_reducible apply good_ite_snd
    | with_reducible apply State.guardPass_keeps
    | with_reducible apply State.rflSend_keeps
    | with_reducible apply State.consider_keeps
    | split
    | with_reducible apply good_mk
    | (extract_lets +onlyGivenNames x
       first
         | (refine good_cut (q := q) x ?cv ?ck
            case' ck => (intro hx; clear_value x)
            case' cv => (unfold x; clear x))
         | (refine good_cut_fst (q := q) x ?cv ?ck
            case' ck => (intro hx; clear_value x)
            case' cv => (unfold x; clear x))
         | (refine good_cut_snd (q := q) x ?cv ?ck
            case' ck => (intro hx; clear_value x)
            case' cv => (unfold x; clear x))
         | skip)
    | with_reducible rfl
    | rfl

theorem State.taskEvents_keeps {q : List Instr} (s : State) (o : Occ) (h : Good q s) : Good q (State.taskEvents s o).1 := by
  unfold State.taskEvents
  repeat' first
    | with_reducible assumption
    | intro _
    | with_reducible apply good_ite
    | with_reducible apply good_ite_fst
    | with_reducible apply good_ite_snd
    | with_reducible apply State.taskEvent_keeps
    | with_reducible apply good_foldl
    | with_reducible apply good_foldl_fst
    | with_reducible apply good_foldl_snd
    | (extract_lets +onlyGivenNames x
       first
         | (refine good_cut (q := q) x ?cv ?ck
            case' ck => (intro hx; clear_value x)
            case' cv => (unfold x; clear x))
         | (refine good_cut_fst (q := q) x ?cv ?ck
            case' ck => (intro hx; clear_value x)
            case' cv => (unfold x; clear x))
         | (refine good_cut_snd (q := q) x ?cv ?ck
            case' ck => (intro hx; clear_value x)
            case' cv => (unfold x; clear x))
         | skip)

theorem State.setWv_keeps {q : List Instr} (s : State) (k : Nat) (w : WaveSt) (h : Good q s) : Good q (State.setWv s k w) := by
  unfold State.setWv
  repeat' first
    | with_reducible assumption
    | intro _
    | with_reducible apply good_mk
    | with_reducible rfl

theorem State.waveTrigger_keeps {q : List Instr} (k : Nat) (s : State) (h : Good q s) : Good q (State.waveTrigger k s) := by
  unfold State.waveTrigger
  repeat' first
    | with_reducible assumption
    | intro _
    | with_reducible apply good_ite
    | with_reducible apply State.put_keeps
    | with_reducible apply State.setWv_keeps
    | (extract_lets +onlyGivenNames x
       first
         | (refine good_cut (q := q) x ?cv ?ck
            case' ck => (intro hx; clear_value x)
            case' cv => (unfold x; clear x))
         | (refine good_cut_fst (q := q) x ?cv ?ck
            case' ck => (intro hx; clear_value x)
            case' cv => (unfold x; clear x))
         | (refine good_cut_snd (q := q) x ?cv ?ck
            case' ck => (intro hx; clear_value x)
            case' cv => (unfold x; clear x))
         | skip)
    | split

theorem State.waveEvent_keeps {q : List Instr} (src : Nat) (s : State) (h : Good q s) : Good q (State.waveEvent src s) := by
  unfold State.waveEvent
  repeat' first
    | with_reducible assumption
    | intro _
    | with_reducible apply State.waveTrigger_keeps
    | with_reducible apply good_forAll

theorem State.dmaEvent_keeps {q : List Instr} (src : Nat) (s : State) (h : Good q s) : Good q (State.dmaEvent src s) := by
  unfold State.dmaEvent
  repeat' first
    | with_reducible assumption
    | intro _
    | with_reducible apply State.put_keeps
    | with_reducible apply good_forAll

theorem State.routeEvent_keeps {q : List Instr} (s : State) (src : Nat) (h : Good q s) : Good q (State.routeEvent s src) := by
  unfold State.routeEvent
  repeat' first
    | with_reducible assumption
    | intro _
    | with_reducible apply good_ite
    | with_reducible apply State.put_keeps
    | with_reducible apply State.upE_keeps

/-- Where an entry is put among the others makes no difference to the room. -/
theorem fifoOk_insert (l : List Occ) (n : Nat) (o : Occ) : fifoOk (l.take n ++ o :: l.drop n) = fifoOk (l ++ [o]) := by
  have ha : (l.take n ++ o :: l.drop n).any (fun o => o.src == 15) = (l ++ [o]).any fun o => o.src == 15 := by
    rw [show (l ++ [o]).any (fun o => o.src == 15) = ((l.take n ++ l.drop n) ++ [o]).any (fun o => o.src == 15) by rw [List.take_append_drop]]
    simp only [List.any_append, List.any_cons, List.any_nil, Bool.or_false, Bool.or_assoc]
    rw [Bool.or_comm (o.src == 15)]
  unfold fifoOk
  rw [ha]
  simp only [List.length_append, List.length_cons, List.length_take, List.length_drop, List.length_nil]
  congr 2
  omega

/-- An entry is put into the FIFO where there is room for it. -/
theorem State.eventPut_keeps {q : List Instr} (o : Occ) (s : State) (h : Good q s) (hf : fifoOk (s.evt.fifo ++ [o]) = true) : Good q (State.eventPut o s) := by
  unfold State.eventPut
  exact good_forAll (fun x s hs => State.bufStore_keeps _ _ s hs) (good_fifo _ h ((fifoOk_insert _ _ _).trans hf))

/-- An entry that displaces the last one finds its room. -/
theorem State.eventLoser_keeps {q : List Instr} (o : Occ) (s : State) (h : Good q s) : Good q (State.eventLoser o s).1 := by
  unfold State.eventLoser
  split
  · next l hl =>
    split
    · next hc =>
      have hd : s.evt.fifo = s.evt.fifo.dropLast ++ [l] := by
        obtain ⟨ys, e⟩ := List.getLast?_eq_some_iff.mp hl
        rw [e, List.dropLast_concat]
      have hf := of_decide_eq_true h.fifo
      have h1 : fifoOk (s.evt.fifo.dropLast ++ [o]) = true := by
        refine decide_eq_true ?_
        rw [hd] at hf
        simp only [List.length_append, List.length_singleton, List.any_append, List.any_cons, List.any_nil, Bool.or_false] at hf ⊢
        rw [beq_false_of_ne hc.2, Bool.or_false] at hf
        refine Nat.le_trans hf ?_
        cases s.evt.fifo.dropLast.any (fun o => o.src == 15) <;> cases (o.src == 15) <;> decide
      have h2 : fifoOk s.evt.fifo.dropLast = true := by
        refine decide_eq_true ?_
        have h3 := of_decide_eq_true h1
        rw [hd] at hf
        simp only [List.length_append, List.length_singleton, List.any_append, List.any_cons, List.any_nil, Bool.or_false] at hf
        rw [beq_false_of_ne hc.2, Bool.or_false] at hf
        omega
      exact State.eventPut_keeps o _ (good_fifo _ h h2) h1
    · exact h
  · exact h

theorem State.offer_keeps {q : List Instr} (s : State) (o : Occ) (h : Good q s) : Good q (State.offer s o).1 := by
  unfold State.offer
  refine good_ite_fst h ?_
  split
  · next ho =>
    split
    · exact h
    · next hn =>
      refine State.eventPut_keeps o s h ?_
      have hf := of_decide_eq_true h.fifo
      rw [Bool.eq_false_iff.2 hn] at hf
      refine decide_eq_true ?_
      simp only [Bool.and_eq_true, decide_eq_true_eq] at ho
      have h15 : ((s.evt.fifo ++ [o]).any fun o => o.src == 15) = true := by
        rw [List.any_append, Bool.or_eq_true]
        exact Or.inr (by simp only [List.any_cons, List.any_nil, Bool.or_false, ho.1, beq_self_eq_true])
      rw [h15, List.length_append]
      exact Nat.succ_le_succ hf
  · split
    · exact State.setRec_keeps _ _ _ (State.eventLoser_keeps _ _ (State.put_keeps _ _ _ _ _ (State.bump_keeps _ _ _ _ h)))
    · next hl =>
      refine State.eventPut_keeps o s h ?_
      simp only [fifoOk, decide_eq_true_eq, List.length_append, List.length_singleton]
      omega

theorem State.present_keeps {q : List Instr} (y1 : Nat) (y2 : Occ) (y3 : State) (h : Good q y3) : Good q (State.present y1 y2 y3) := by
  induction y1 generalizing y2 y3 with
  | zero => exact State.offer_keeps _ _ h
  | succ k ih =>
    simp only [State.present]
    have hr : Good q (if y3.following = true then (y3, []) else y3.taskEvents y2).1 := good_ite_fst h (State.taskEvents_keeps _ _ h)
    have ho := State.offer_keeps _ y2 (State.routeEvent_keeps _ y2.src (State.waveEvent_keeps y2.src _ (State.dmaEvent_keeps y2.src _ hr)))
    refine good_ite (ih _ _ ?_) ?_
    all_goals exact good_forAll (fun x s hs => ih _ _ hs) ho

theorem State.raise_keeps {q : List Instr} (src : Nat) (pay : Nat) (s : State) (h : Good q s) : Good q (State.raise src pay s) := by
  unfold State.raise
  repeat' first
    | with_reducible assumption
    | intro _
    | with_reducible apply good_ite
    | with_reducible apply State.present_keeps

theorem State.level_keeps {q : List Instr} (src : Nat) (cond : Bool) (pay : Nat) (s : State) (h : Good q s) : Good q (State.level src cond pay s) := by
  unfold State.level
  repeat' first
    | with_reducible assumption
    | intro _
    | with_reducible apply good_ite
    | with_reducible apply State.putBit_keeps
    | with_reducible apply State.raise_keeps

theorem State.applyRecord_keeps {q : List Instr} (s : State) (o : Occ) (h : Good q s) : Good q (State.applyRecord s o) := by
  unfold State.applyRecord
  repeat' first
    | with_reducible assumption
    | intro _
    | with_reducible apply good_ite
    | with_reducible apply State.setRec_keeps
    | with_reducible apply State.putBit_keeps

theorem State.logEvent_keeps {q : List Instr} (s : State) (o : Occ) (h : Good q s) : Good q (State.logEvent s o) := by
  unfold State.logEvent
  repeat' first
    | with_reducible assumption
    | intro _
    | with_reducible apply good_ite
    | with_reducible apply State.logAdd_keeps

theorem opEventOccurrence_keeps {q : List Instr} (src : Nat) (cond : Bool) (pay : Nat) (s : State) (h : Good q s) : Good q (opEventOccurrence src cond pay s) := by
  unfold opEventOccurrence
  repeat' first
    | with_reducible assumption
    | intro _
    | with_reducible apply good_ite
    | with_reducible apply State.level_keeps
    | with_reducible apply State.raise_keeps

theorem State.noteFor_keeps {q : List Instr} (kind : Nat) (src : Nat) (pay : Nat) (time : Nat) (s : State) (h : Good q s) : Good q (State.noteFor kind src pay time s) := by
  unfold State.noteFor
  repeat' first
    | with_reducible assumption
    | intro _
    | with_reducible apply good_ite
    | with_reducible apply good_ite_fst
    | with_reducible apply good_ite_snd
    | (extract_lets +onlyGivenNames x
       first
         | (refine good_cut (q := q) x ?cv ?ck
            case' ck => (intro hx; clear_value x)
            case' cv => (unfold x; clear x))
         | (refine good_cut_fst (q := q) x ?cv ?ck
            case' ck => (intro hx; clear_value x)
            case' cv => (unfold x; clear x))
         | (refine good_cut_snd (q := q) x ?cv ?ck
            case' ck => (intro hx; clear_value x)
            case' cv => (unfold x; clear x))
         | skip)
    | with_reducible apply good_mk
    | split
    | with_reducible rfl

theorem State.policySee_keeps {q : List Instr} (src : Nat) (s : State) (h : Good q s) : Good q (State.policySee src s) := by
  unfold State.policySee
  repeat' first
    | with_reducible assumption
    | intro _
    | with_reducible apply good_ite
    | (extract_lets +onlyGivenNames x
       first
         | (refine good_cut (q := q) x ?cv ?ck
            case' ck => (intro hx; clear_value x)
            case' cv => (unfold x; clear x))
         | (refine good_cut_fst (q := q) x ?cv ?ck
            case' ck => (intro hx; clear_value x)
            case' cv => (unfold x; clear x))
         | (refine good_cut_snd (q := q) x ?cv ?ck
            case' ck => (intro hx; clear_value x)
            case' cv => (unfold x; clear x))
         | skip)
    | split
    | with_reducible apply good_mk
    | with_reducible rfl

theorem opEvtPendClear_keeps {q : List Instr} (w : Nat) (v : Nat) (s : State) (h : Good q s) : Good q (opEvtPendClear w v s) := by
  unfold opEvtPendClear
  repeat' first
    | with_reducible assumption
    | intro _
    | with_reducible apply State.put_keeps
    | with_reducible apply State.setRec_keeps
    | with_reducible apply good_forAll

theorem opEvtEnaWrite_keeps {q : List Instr} (w : Nat) (v : Nat) (s : State) (h : Good q s) : Good q (opEvtEnaWrite w v s) := by
  unfold opEvtEnaWrite
  repeat' first
    | with_reducible assumption
    | intro _
    | with_reducible apply good_ite
    | with_reducible apply State.put_keeps
    | with_reducible apply State.raise_keeps
    | with_reducible apply good_forAll
    | with_reducible apply good_foldl
    | with_reducible apply good_foldl_fst
    | with_reducible apply good_foldl_snd
    | (extract_lets +onlyGivenNames x
       first
         | (refine good_cut (q := q) x ?cv ?ck
            case' ck => (intro hx; clear_value x)
            case' cv => (unfold x; clear x))
         | (refine good_cut_fst (q := q) x ?cv ?ck
            case' ck => (intro hx; clear_value x)
            case' cv => (unfold x; clear x))
         | (refine good_cut_snd (q := q) x ?cv ?ck
            case' ck => (intro hx; clear_value x)
            case' cv => (unfold x; clear x))
         | skip)
    | split

theorem opEvtInject_keeps {q : List Instr} (src : Nat) (pay : Nat) (s : State) (h : Good q s) : Good q (opEvtInject src pay s) := by
  unfold opEvtInject
  repeat' first
    | with_reducible assumption
    | intro _
    | with_reducible apply good_ite
    | with_reducible apply State.put_keeps
    | with_reducible apply State.present_keeps

end Sys2Proof.Machine
end

