-- ==== Sys2Proof/Laws/KeepsMem.lean ====
section
/-! SUPPORT. Laws/KeepsMem.lean: every operation of Machine/Mem.lean keeps `Good`. -/

namespace Sys2Proof.Machine

theorem State.eccReport_keeps {q : List Instr} (req : Nat) (key : Nat) (st : Nat) (s : State) (h : Good q s) : Good q (State.eccReport req key st s) := by
  unfold State.eccReport
  repeat' first
    | with_reducible assumption
    | intro _
    | with_reducible apply good_ite
    | with_reducible apply State.eccCount_keeps
    | with_reducible apply State.raise_keeps
    | split

theorem State.eccRead_keeps {q : List Instr} (req : Nat) (copy : Nat) (a : Nat) (n : Nat) (s : State) (h : Good q s) : Good q (State.eccRead req copy a n s).1 := by
  unfold State.eccRead
  repeat' first
    | with_reducible assumption
    | intro _
    | with_reducible apply good_ite
    | with_reducible apply good_ite_fst
    | with_reducible apply good_ite_snd
    | with_reducible apply State.eccReport_keeps
    | with_reducible apply good_foldl
    | with_reducible apply good_foldl_fst
    | with_reducible apply good_foldl_snd
    | (extract_lets +onlyGivenNames x
       first
         | (refine good_cut (q := q) x ?cv ?ck
            case' ck => (intro hx; clear_value x)
            case' cv => (unfold x; clear x))
         | (refine good_cut_fst (q := q) x ?cv ?ck
            case' ck => (intro hx; clear_value x)
            case' cv => (unfold x; clear x))
         | (refine good_cut_snd (q := q) x ?cv ?ck
            case' ck => (intro hx; clear_value x)
            case' cv => (unfold x; clear x))
         | skip)
    | split
    | with_reducible apply good_mk
    | with_reducible rfl

theorem State.bufRead_keeps {q : List Instr} (a : Nat) (n : Nat) (s : State) (h : Good q s) : Good q (State.bufRead a n s) := by
  unfold State.bufRead
  repeat' first
    | with_reducible assumption
    | intro _
    | with_reducible apply good_ite
    | with_reducible apply good_ite_fst
    | with_reducible apply good_ite_snd
    | with_reducible apply State.eccRead_keeps
    | split

theorem State.qRead_keeps {q : List Instr} (k : Nat) (len : Nat) (i : Nat) (n : Nat) (s : State) (h : Good q s) : Good q (State.qRead k len i n s) := by
  unfold State.qRead
  repeat' first
    | with_reducible assumption
    | intro _
    | with_reducible apply good_ite
    | with_reducible apply good_ite_fst
    | with_reducible apply good_ite_snd
    | with_reducible apply State.bufRead_keeps
    | (extract_lets +onlyGivenNames x
       first
         | (refine good_cut (q := q) x ?cv ?ck
            case' ck => (intro hx; clear_value x)
            case' cv => (unfold x; clear x))
         | (refine good_cut_fst (q := q) x ?cv ?ck
            case' ck => (intro hx; clear_value x)
            case' cv => (unfold x; clear x))
         | (refine good_cut_snd (q := q) x ?cv ?ck
            case' ck => (intro hx; clear_value x)
            case' cv => (unfold x; clear x))
         | skip)

theorem State.storeWord_keeps {q : List Instr} (req : Nat) (copy : Nat) (w : Nat) (a : Nat) (l : List Byte) (x : Nat) (s : State) (h : Good q s) : Good q (State.storeWord req copy w a l x s).1 := by
  unfold State.storeWord
  repeat' first
    | with_reducible assumption
    | intro _
    | with_reducible apply good_ite
    | with_reducible apply good_ite_fst
    | with_reducible apply good_ite_snd
    | with_reducible apply State.setCopy_keeps
    | with_reducible apply State.eccStore_keeps
    | with_reducible apply State.eccReport_keeps
    | with_reducible apply State.setEcc_keeps
    | (extract_lets +onlyGivenNames x
       first
         | (refine good_cut (q := q) x ?cv ?ck
            case' ck => (intro hx; clear_value x)
            case' cv => (unfold x; clear x))
         | (refine good_cut_fst (q := q) x ?cv ?ck
            case' ck => (intro hx; clear_value x)
            case' cv => (unfold x; clear x))
         | (refine good_cut_snd (q := q) x ?cv ?ck
            case' ck => (intro hx; clear_value x)
            case' cv => (unfold x; clear x))
         | skip)
    | split

theorem State.eccWrite_keeps {q : List Instr} (req : Nat) (copy : Nat) (a : Nat) (l : List Byte) (s : State) (h : Good q s) : Good q (State.eccWrite req copy a l s).1 := by
  unfold State.eccWrite
  repeat' first
    | with_reducible assumption
    | intro _
    | with_reducible apply good_ite
    | with_reducible apply good_ite_fst
    | with_reducible apply good_ite_snd
    | with_reducible apply State.storeWord_keeps
    | with_reducible apply good_foldl
    | with_reducible apply good_foldl_fst
    | with_reducible apply good_foldl_snd
    | (extract_lets +onlyGivenNames x
       first
         | (refine good_cut (q := q) x ?cv ?ck
            case' ck => (intro hx; clear_value x)
            case' cv => (unfold x; clear x))
         | (refine good_cut_fst (q := q) x ?cv ?ck
            case' ck => (intro hx; clear_value x)
            case' cv => (unfold x; clear x))
         | (refine good_cut_snd (q := q) x ?cv ?ck
            case' ck => (intro hx; clear_value x)
            case' cv => (unfold x; clear x))
         | skip)
    | split
    | with_reducible apply good_mk
    | with_reducible rfl

theorem State.loseLocks_keeps {q : List Instr} (req : Nat) (a : Nat) (n : Nat) (s : State) (h : Good q s) : Good q (State.loseLocks req a n s) := by
  unfold State.loseLocks
  repeat' first
    | with_reducible assumption
    | intro _
    | with_reducible apply good_ite
    | with_reducible apply State.upE_keeps
    | with_reducible apply good_forAll
    | split

theorem State.upPrg_keeps {q : List Instr} (s : State) (e : Nat) (f : PrgSt → PrgSt) (h : Good q s) : Good q (State.upPrg s e f) := by
  unfold State.upPrg
  repeat' first
    | with_reducible assumption
    | intro _
    | with_reducible apply good_mk
    | with_reducible rfl

theorem State.unschedule_keeps {q : List Instr} (e : Nat) (s : State) (h : Good q s) : Good q (State.unschedule e s) := by
  unfold State.unschedule
  repeat' first
    | with_reducible assumption
    | intro _
    | with_reducible apply State.put_keeps
    | with_reducible apply State.upPrg_keeps

theorem State.prgErr_keeps {q : List Instr} (e : Nat) (err : Nat) (s : State) (h : Good q s) : Good q (State.prgErr e err s) := by
  unfold State.prgErr
  repeat' first
    | with_reducible assumption
    | intro _
    | with_reducible apply State.put_keeps
    | with_reducible apply State.bump_keeps

theorem State.cancelSwitch_keeps {q : List Instr} (e : Nat) (err : Nat) (s : State) (h : Good q s) : Good q (State.cancelSwitch e err s) := by
  unfold State.cancelSwitch
  repeat' first
    | with_reducible assumption
    | intro _
    | with_reducible apply good_ite
    | with_reducible apply State.prgErr_keeps
    | with_reducible apply State.unschedule_keeps

theorem State.disarm_keeps {q : List Instr} (e : Nat) (s : State) (h : Good q s) : Good q (State.disarm e s) := by
  unfold State.disarm
  repeat' first
    | with_reducible assumption
    | intro _
    | with_reducible apply good_ite
    | with_reducible apply State.put_keeps
    | with_reducible apply State.cancelSwitch_keeps
    | with_reducible apply good_forAll
    | (extract_lets +onlyGivenNames x
       first
         | (refine good_cut (q := q) x ?cv ?ck
            case' ck => (intro hx; clear_value x)
            case' cv => (unfold x; clear x))
         | (refine good_cut_fst (q := q) x ?cv ?ck
            case' ck => (intro hx; clear_value x)
            case' cv => (unfold x; clear x))
         | (refine good_cut_snd (q := q) x ?cv ?ck
            case' ck => (intro hx; clear_value x)
            case' cv => (unfold x; clear x))
         | skip)

theorem State.stagingWritten_keeps {q : List Instr} (e : Nat) (s : State) (h : Good q s) : Good q (State.stagingWritten e s) := by
  unfold State.stagingWritten
  repeat' first
    | with_reducible assumption
    | intro _
    | with_reducible apply good_ite
    | with_reducible apply State.put_keeps
    | with_reducible apply State.disarm_keeps
    | (extract_lets +onlyGivenNames x
       first
         | (refine good_cut (q := q) x ?cv ?ck
            case' ck => (intro hx; clear_value x)
            case' cv => (unfold x; clear x))
         | (refine good_cut_fst (q := q) x ?cv ?ck
            case' ck => (intro hx; clear_value x)
            case' cv => (unfold x; clear x))
         | (refine good_cut_snd (q := q) x ?cv ?ck
            case' ck => (intro hx; clear_value x)
            case' cv => (unfold x; clear x))
         | skip)
    | split

theorem State.inactiveWritten_keeps {q : List Instr} (e : Nat) (s : State) (h : Good q s) : Good q (State.inactiveWritten e s) := by
  unfold State.inactiveWritten
  repeat' first
    | with_reducible assumption
    | intro _
    | with_reducible apply good_ite
    | with_reducible apply State.put_keeps
    | with_reducible apply State.prgErr_keeps
    | with_reducible apply State.cancelSwitch_keeps
    | (extract_lets +onlyGivenNames x
       first
         | (refine good_cut (q := q) x ?cv ?ck
            case' ck => (intro hx; clear_value x)
            case' cv => (unfold x; clear x))
         | (refine good_cut_fst (q := q) x ?cv ?ck
            case' ck => (intro hx; clear_value x)
            case' cv => (unfold x; clear x))
         | (refine good_cut_snd (q := q) x ?cv ?ck
            case' ck => (intro hx; clear_value x)
            case' cv => (unfold x; clear x))
         | skip)
    | split

theorem State.waveRead_keeps {q : List Instr} (k : Nat) (s : State) (h : Good q s) : Good q (State.waveRead k s).1 := by
  unfold State.waveRead
  repeat' first
    | with_reducible assumption
    | intro _
    | with_reducible apply good_ite
    | with_reducible apply good_ite_fst
    | with_reducible apply good_ite_snd
    | with_reducible apply State.eccRead_keeps
    | (extract_lets +onlyGivenNames x
       first
         | (refine good_cut (q := q) x ?cv ?ck
            case' ck => (intro hx; clear_value x)
            case' cv => (unfold x; clear x))
         | (refine good_cut_fst (q := q) x ?cv ?ck
            case' ck => (intro hx; clear_value x)
            case' cv => (unfold x; clear x))
         | (refine good_cut_snd (q := q) x ?cv ?ck
            case' ck => (intro hx; clear_value x)
            case' cv => (unfold x; clear x))
         | skip)
    | split

theorem State.waveAhead_keeps {q : List Instr} (s : State) (h : Good q s) : Good q (State.waveAhead s) := by
  unfold State.waveAhead
  repeat' first
    | with_reducible assumption
    | intro _
    | with_reducible apply good_ite
    | with_reducible apply good_ite_fst
    | with_reducible apply good_ite_snd
    | with_reducible apply State.waveRead_keeps
    | with_reducible apply State.setWv_keeps
    | with_reducible apply good_forAll
    | (extract_lets +onlyGivenNames x
       first
         | (refine good_cut (q := q) x ?cv ?ck
            case' ck => (intro hx; clear_value x)
            case' cv => (unfold x; clear x))
         | (refine good_cut_fst (q := q) x ?cv ?ck
            case' ck => (intro hx; clear_value x)
            case' cv => (unfold x; clear x))
         | (refine good_cut_snd (q := q) x ?cv ?ck
            case' ck => (intro hx; clear_value x)
            case' cv => (unfold x; clear x))
         | skip)
    | split
    | with_reducible apply good_mk
    | with_reducible rfl

theorem State.stored_keeps {q : List Instr} (req : Nat) (a : Nat) (n : Nat) (s : State) (h : Good q s) : Good q (State.stored req a n s) := by
  unfold State.stored
  repeat' first
    | with_reducible assumption
    | intro _
    | with_reducible apply good_ite
    | with_reducible apply State.loseLocks_keeps
    | with_reducible apply State.inactiveWritten_keeps
    | with_reducible apply State.stagingWritten_keeps
    | (extract_lets +onlyGivenNames x
       first
         | (refine good_cut (q := q) x ?cv ?ck
            case' ck => (intro hx; clear_value x)
            case' cv => (unfold x; clear x))
         | (refine good_cut_fst (q := q) x ?cv ?ck
            case' ck => (intro hx; clear_value x)
            case' cv => (unfold x; clear x))
         | (refine good_cut_snd (q := q) x ?cv ?ck
            case' ck => (intro hx; clear_value x)
            case' cv => (unfold x; clear x))
         | skip)
    | split

theorem State.storeWords_keeps {q : List Instr} (req : Nat) (a : Nat) (l : List Byte) (s : State) (h : Good q s) : Good q (State.storeWords req a l s).1 := by
  unfold State.storeWords
  repeat' first
    | with_reducible assumption
    | intro _
    | with_reducible apply good_ite
    | with_reducible apply good_ite_fst
    | with_reducible apply good_ite_snd
    | with_reducible apply State.waveAhead_keeps
    | with_reducible apply State.storeWord_keeps
    | with_reducible apply State.stored_keeps
    | with_reducible apply good_foldl
    | with_reducible apply good_foldl_fst
    | with_reducible apply good_foldl_snd
    | (extract_lets +onlyGivenNames x
       first
         | (refine good_cut (q := q) x ?cv ?ck
            case' ck => (intro hx; clear_value x)
            case' cv => (unfold x; clear x))
         | (refine good_cut_fst (q := q) x ?cv ?ck
            case' ck => (intro hx; clear_value x)
            case' cv => (unfold x; clear x))
         | (refine good_cut_snd (q := q) x ?cv ?ck
            case' ck => (intro hx; clear_value x)
            case' cv => (unfold x; clear x))
         | skip)
    | split
    | with_reducible apply good_mk
    | with_reducible rfl

theorem State.memWrite_keeps {q : List Instr} (req : Nat) (a : Nat) (l : List Byte) (s : State) (h : Good q s) : Good q (State.memWrite req a l s).1 := by
  unfold State.memWrite
  repeat' first
    | with_reducible assumption
    | intro _
    | with_reducible apply good_ite
    | with_reducible apply good_ite_fst
    | with_reducible apply good_ite_snd
    | with_reducible apply State.defer_keeps
    | with_reducible apply State.storeWords_keeps
    | (extract_lets +onlyGivenNames x
       first
         | (refine good_cut (q := q) x ?cv ?ck
            case' ck => (intro hx; clear_value x)
            case' cv => (unfold x; clear x))
         | (refine good_cut_fst (q := q) x ?cv ?ck
            case' ck => (intro hx; clear_value x)
            case' cv => (unfold x; clear x))
         | (refine good_cut_snd (q := q) x ?cv ?ck
            case' ck => (intro hx; clear_value x)
            case' cv => (unfold x; clear x))
         | skip)
    | split
    | with_reducible apply good_mk
    | with_reducible rfl

theorem State.memRead_keeps {q : List Instr} (req : Nat) (a : Nat) (n : Nat) (s : State) (h : Good q s) : Good q (State.memRead req a n s).1 := by
  unfold State.memRead
  repeat' first
    | with_reducible assumption
    | intro _
    | with_reducible apply good_ite
    | with_reducible apply good_ite_fst
    | with_reducible apply good_ite_snd
    | with_reducible apply State.eccRead_keeps
    | (extract_lets +onlyGivenNames x
       first
         | (refine good_cut (q := q) x ?cv ?ck
            case' ck => (intro hx; clear_value x)
            case' cv => (unfold x; clear x))
         | (refine good_cut_fst (q := q) x ?cv ?ck
            case' ck => (intro hx; clear_value x)
            case' cv => (unfold x; clear x))
         | (refine good_cut_snd (q := q) x ?cv ?ck
            case' ck => (intro hx; clear_value x)
            case' cv => (unfold x; clear x))
         | skip)
    | split

theorem opEventRecordUpdate_keeps {q : List Instr} (s : State) (h : Good q s) : Good q (opEventRecordUpdate s) := by
  unfold opEventRecordUpdate
  have h0 : Good q (if s.evt.fifo.isEmpty = true then s else s.bufRead (16 * s.evt.head) 16) := good_ite h (State.bufRead_keeps _ _ _ h)
  generalize (if s.evt.fifo.isEmpty = true then s else s.bufRead (16 * s.evt.head) 16) = t at h0
  clear h
  dsimp only
  split
  · exact h0
  · next o r he =>
    refine State.policySee_keeps _ _ (State.noteFor_keeps _ _ _ _ _ (State.logEvent_keeps _ _ (State.applyRecord_keeps _ _ ?_)))
    refine good_fifo { t.evt with fifo := r, head := (t.evt.head + 1) % 256 } h0 ?_
    have hf := h0.fifo
    rw [he] at hf
    have hf := of_decide_eq_true hf
    refine decide_eq_true ?_
    rw [List.length_cons, List.any_cons] at hf
    cases h15 : (o.src == 15) <;> rw [h15] at hf
    · exact Nat.le_of_succ_le hf
    · have h1 : r.length ≤ 255 := Nat.le_of_succ_le_succ hf
      exact Nat.le_trans h1 (Nat.le_add_right _ _)

theorem opEccWriteBack_keeps {q : List Instr} (a : Nat) (s : State) (h : Good q s) : Good q (opEccWriteBack a s) := by
  unfold opEccWriteBack
  repeat' first
    | with_reducible assumption
    | intro _
    | with_reducible apply good_ite
    | with_reducible apply State.setEcc_keeps

theorem opScrubStep_keeps {q : List Instr} (c : Nat) (s : State) (h : Good q s) : Good q (opScrubStep c s) := by
  unfold opScrubStep
  repeat' first
    | with_reducible assumption
    | intro _
    | with_reducible apply good_ite
    | with_reducible apply State.eccReport_keeps
    | with_reducible apply State.setEcc_keeps
    | with_reducible apply State.put_keeps
    | with_reducible apply State.wrapUp_keeps
    | with_reducible apply good_forAll
    | (extract_lets +onlyGivenNames x
       first
         | (refine good_cut (q := q) x ?cv ?ck
            case' ck => (intro hx; clear_value x)
            case' cv => (unfold x; clear x))
         | (refine good_cut_fst (q := q) x ?cv ?ck
            case' ck => (intro hx; clear_value x)
            case' cv => (unfold x; clear x))
         | (refine good_cut_snd (q := q) x ?cv ?ck
            case' ck => (intro hx; clear_value x)
            case' cv => (unfold x; clear x))
         | skip)
    | split
    | with_reducible apply good_mk
    | with_reducible rfl

theorem opEccInject_keeps {q : List Instr} (array : Nat) (mode : Nat) (s : State) (h : Good q s) : Good q (opEccInject array mode s) := by
  unfold opEccInject
  repeat' first
    | with_reducible assumption
    | intro _
    | with_reducible apply good_ite
    | with_reducible apply good_ite_fst
    | with_reducible apply good_ite_snd
    | with_reducible apply State.put_keeps
    | (extract_lets +onlyGivenNames x
       first
         | (refine good_cut (q := q) x ?cv ?ck
            case' ck => (intro hx; clear_value x)
            case' cv => (unfold x; clear x))
         | (refine good_cut_fst (q := q) x ?cv ?ck
            case' ck => (intro hx; clear_value x)
            case' cv => (unfold x; clear x))
         | (refine good_cut_snd (q := q) x ?cv ?ck
            case' ck => (intro hx; clear_value x)
            case' cv => (unfold x; clear x))
         | skip)
    | with_reducible apply good_mk
    | split
    | with_reducible rfl

theorem opLastWordCopy_keeps {q : List Instr} (lantern : Bool) (s : State) (h : Good q s) : Good q (opLastWordCopy lantern s) := by
  unfold opLastWordCopy
  repeat' first
    | with_reducible assumption
    | intro _
    | with_reducible apply good_ite
    | with_reducible apply State.put_keeps
    | split
    | with_reducible apply good_mk
    | (extract_lets +onlyGivenNames x
       first
         | (refine good_cut (q := q) x ?cv ?ck
            case' ck => (intro hx; clear_value x)
            case' cv => (unfold x; clear x))
         | (refine good_cut_fst (q := q) x ?cv ?ck
            case' ck => (intro hx; clear_value x)
            case' cv => (unfold x; clear x))
         | (refine good_cut_snd (q := q) x ?cv ?ck
            case' ck => (intro hx; clear_value x)
            case' cv => (unfold x; clear x))
         | skip)
    | with_reducible rfl
    | rfl

end Sys2Proof.Machine
end

