-- ==== Sys2Proof/Laws/KeepsOutput.lean ====
section
/-! SUPPORT. Laws/KeepsOutput.lean: every operation of Machine/Output.lean keeps `Good`. -/

namespace Sys2Proof.Machine

theorem State.upDie_keeps {q : List Instr} (s : State) (n : Nat) (f : DieSt → DieSt) (h : Good q s) : Good q (State.upDie s n f) := by
  unfold State.upDie
  repeat' first
    | with_reducible assumption
    | intro _
    | with_reducible apply good_mk
    | with_reducible rfl

theorem State.loadPend_keeps {q : List Instr} (s : State) (n : Nat) (h : Good q s) : Good q (State.loadPend s n) := by
  unfold State.loadPend
  repeat' first
    | with_reducible assumption
    | intro _
    | with_reducible apply State.put_keeps

theorem State.dieTransfer_keeps {q : List Instr} (n : Nat) (s : State) (h : Good q s) : Good q (State.dieTransfer n s) := by
  unfold State.dieTransfer
  repeat' first
    | with_reducible assumption
    | intro _
    | with_reducible apply State.put_keeps
    | with_reducible apply State.upDie_keeps

theorem State.chopCount_keeps {q : List Instr} (s : State) (h : Good q s) : Good q (State.chopCount s) := by
  unfold State.chopCount
  repeat' first
    | with_reducible assumption
    | intro _
    | with_reducible apply good_ite
    | (extract_lets +onlyGivenNames x
       first
         | (refine good_cut (q := q) x ?cv ?ck
            case' ck => (intro hx; clear_value x)
            case' cv => (unfold x; clear x))
         | (refine good_cut_fst (q := q) x ?cv ?ck
            case' ck => (intro hx; clear_value x)
            case' cv => (unfold x; clear x))
         | (refine good_cut_snd (q := q) x ?cv ?ck
            case' ck => (intro hx; clear_value x)
            case' cv => (unfold x; clear x))
         | skip)
    | split
    | with_reducible apply good_mk
    | with_reducible rfl

theorem State.dieOn_keeps {q : List Instr} (n : Nat) (on : Bool) (s : State) (h : Good q s) : Good q (State.dieOn n on s) := by
  unfold State.dieOn
  repeat' first
    | with_reducible assumption
    | intro _
    | with_reducible apply good_ite
    | with_reducible apply State.put_keeps
    | with_reducible apply State.chopCount_keeps
    | with_reducible apply State.level_keeps
    | (extract_lets +onlyGivenNames x
       first
         | (refine good_cut (q := q) x ?cv ?ck
            case' ck => (intro hx; clear_value x)
            case' cv => (unfold x; clear x))
         | (refine good_cut_fst (q := q) x ?cv ?ck
            case' ck => (intro hx; clear_value x)
            case' cv => (unfold x; clear x))
         | (refine good_cut_snd (q := q) x ?cv ?ck
            case' ck => (intro hx; clear_value x)
            case' cv => (unfold x; clear x))
         | skip)
    | split
    | with_reducible apply good_mk
    | with_reducible rfl

theorem State.diePhase_keeps {q : List Instr} (n : Nat) (k : Nat) (s : State) (h : Good q s) : Good q (State.diePhase n k s) := by
  unfold State.diePhase
  repeat' first
    | with_reducible assumption
    | intro _
    | with_reducible apply good_ite
    | with_reducible apply State.upDie_keeps
    | with_reducible apply State.put_keeps
    | (extract_lets +onlyGivenNames x
       first
         | (refine good_cut (q := q) x ?cv ?ck
            case' ck => (intro hx; clear_value x)
            case' cv => (unfold x; clear x))
         | (refine good_cut_fst (q := q) x ?cv ?ck
            case' ck => (intro hx; clear_value x)
            case' cv => (unfold x; clear x))
         | (refine good_cut_snd (q := q) x ?cv ?ck
            case' ck => (intro hx; clear_value x)
            case' cv => (unfold x; clear x))
         | skip)
    | split
    | with_reducible apply good_mk
    | with_reducible rfl

theorem State.lifeCut_keeps {q : List Instr} (n : Nat) (s : State) (h : Good q s) : Good q (State.lifeCut n s) := by
  unfold State.lifeCut
  repeat' first
    | with_reducible assumption
    | intro _
    | with_reducible apply good_ite
    | with_reducible apply good_ite_fst
    | with_reducible apply good_ite_snd
    | (extract_lets +onlyGivenNames x
       first
         | (refine good_cut (q := q) x ?cv ?ck
            case' ck => (intro hx; clear_value x)
            case' cv => (unfold x; clear x))
         | (refine good_cut_fst (q := q) x ?cv ?ck
            case' ck => (intro hx; clear_value x)
            case' cv => (unfold x; clear x))
         | (refine good_cut_snd (q := q) x ?cv ?ck
            case' ck => (intro hx; clear_value x)
            case' cv => (unfold x; clear x))
         | skip)
    | split
    | with_reducible apply good_mk
    | with_reducible rfl

theorem State.dieStart_keeps {q : List Instr} (n : Nat) (e : Edge) (s : State) (h : Good q s) : Good q (State.dieStart n e s) := by
  unfold State.dieStart
  repeat' first
    | with_reducible assumption
    | intro _
    | with_reducible apply good_ite
    | with_reducible apply good_ite_fst
    | with_reducible apply good_ite_snd
    | with_reducible apply State.lifeCut_keeps
    | with_reducible apply State.upDie_keeps
    | with_reducible apply State.dieOn_keeps
    | with_reducible apply State.put_keeps
    | with_reducible apply State.diePhase_keeps
    | (extract_lets +onlyGivenNames x
       first
         | (refine good_cut (q := q) x ?cv ?ck
            case' ck => (intro hx; clear_value x)
            case' cv => (unfold x; clear x))
         | (refine good_cut_fst (q := q) x ?cv ?ck
            case' ck => (intro hx; clear_value x)
            case' cv => (unfold x; clear x))
         | (refine good_cut_snd (q := q) x ?cv ?ck
            case' ck => (intro hx; clear_value x)
            case' cv => (unfold x; clear x))
         | skip)
    | split
    | with_reducible apply good_mk
    | with_reducible rfl

theorem State.rollEnd_keeps {q : List Instr} (c : Nat) (status : Nat) (s : State) (h : Good q s) : Good q (State.rollEnd c status s) := by
  unfold State.rollEnd
  repeat' first
    | with_reducible assumption
    | intro _
    | with_reducible apply good_ite
    | with_reducible apply State.put_keeps
    | with_reducible apply State.putBit_keeps
    | with_reducible apply State.bump_keeps
    | with_reducible apply State.warn_keeps
    | with_reducible apply State.raise_keeps
    | (extract_lets +onlyGivenNames x
       first
         | (refine good_cut (q := q) x ?cv ?ck
            case' ck => (intro hx; clear_value x)
            case' cv => (unfold x; clear x))
         | (refine good_cut_fst (q := q) x ?cv ?ck
            case' ck => (intro hx; clear_value x)
            case' cv => (unfold x; clear x))
         | (refine good_cut_snd (q := q) x ?cv ?ck
            case' ck => (intro hx; clear_value x)
            case' cv => (unfold x; clear x))
         | skip)
    | split
    | with_reducible apply good_mk
    | with_reducible rfl

theorem State.rollStop_keeps {q : List Instr} (n : Nat) (status : Nat) (s : State) (h : Good q s) : Good q (State.rollStop n status s) := by
  unfold State.rollStop
  repeat' first
    | with_reducible assumption
    | intro _
    | with_reducible apply good_ite
    | with_reducible apply State.rollEnd_keeps
    | split
    | with_reducible apply good_mk
    | with_reducible rfl

theorem State.dieEdge_keeps {q : List Instr} (n : Nat) (e : Edge) (s : State) (h : Good q s) : Good q (State.dieEdge n e s) := by
  unfold State.dieEdge
  repeat' first
    | with_reducible assumption
    | intro _
    | with_reducible apply good_ite
    | with_reducible apply State.rollStop_keeps
    | with_reducible apply State.dieStart_keeps
    | (extract_lets +onlyGivenNames x
       first
         | (refine good_cut (q := q) x ?cv ?ck
            case' ck => (intro hx; clear_value x)
            case' cv => (unfold x; clear x))
         | (refine good_cut_fst (q := q) x ?cv ?ck
            case' ck => (intro hx; clear_value x)
            case' cv => (unfold x; clear x))
         | (refine good_cut_snd (q := q) x ?cv ?ck
            case' ck => (intro hx; clear_value x)
            case' cv => (unfold x; clear x))
         | skip)
    | split
    | with_reducible apply good_mk
    | with_reducible rfl

theorem State.dieCmd_keeps {q : List Instr} (n : Nat) (e : Edge) (s : State) (h : Good q s) : Good q (State.dieCmd n e s) := by
  unfold State.dieCmd
  repeat' first
    | with_reducible assumption
    | intro _
    | with_reducible apply good_ite
    | with_reducible apply State.upDie_keeps
    | (extract_lets +onlyGivenNames x
       first
         | (refine good_cut (q := q) x ?cv ?ck
            case' ck => (intro hx; clear_value x)
            case' cv => (unfold x; clear x))
         | (refine good_cut_fst (q := q) x ?cv ?ck
            case' ck => (intro hx; clear_value x)
            case' cv => (unfold x; clear x))
         | (refine good_cut_snd (q := q) x ?cv ?ck
            case' ck => (intro hx; clear_value x)
            case' cv => (unfold x; clear x))
         | skip)
    | split
    | with_reducible apply good_mk
    | with_reducible rfl

theorem State.dieHold_keeps {q : List Instr} (n : Nat) (s : State) (h : Good q s) : Good q (State.dieHold n s) := by
  unfold State.dieHold
  repeat' first
    | with_reducible assumption
    | intro _
    | with_reducible apply good_ite
    | with_reducible apply State.lifeCut_keeps
    | with_reducible apply State.upDie_keeps
    | with_reducible apply State.put_keeps
    | with_reducible apply State.dieOn_keeps
    | (extract_lets +onlyGivenNames x
       first
         | (refine good_cut (q := q) x ?cv ?ck
            case' ck => (intro hx; clear_value x)
            case' cv => (unfold x; clear x))
         | (refine good_cut_fst (q := q) x ?cv ?ck
            case' ck => (intro hx; clear_value x)
            case' cv => (unfold x; clear x))
         | (refine good_cut_snd (q := q) x ?cv ?ck
            case' ck => (intro hx; clear_value x)
            case' cv => (unfold x; clear x))
         | skip)
    | split
    | with_reducible apply good_mk
    | with_reducible rfl

theorem State.dieDrop_keeps {q : List Instr} (n : Nat) (s : State) (h : Good q s) : Good q (State.dieDrop n s) := by
  unfold State.dieDrop
  repeat' first
    | with_reducible assumption
    | intro _
    | with_reducible apply good_ite
    | with_reducible apply good_ite_fst
    | with_reducible apply good_ite_snd
    | with_reducible apply State.upDie_keeps
    | with_reducible apply State.dieHold_keeps
    | with_reducible apply State.put_keeps
    | (extract_lets +onlyGivenNames x
       first
         | (refine good_cut (q := q) x ?cv ?ck
            case' ck => (intro hx; clear_value x)
            case' cv => (unfold x; clear x))
         | (refine good_cut_fst (q := q) x ?cv ?ck
            case' ck => (intro hx; clear_value x)
            case' cv => (unfold x; clear x))
         | (refine good_cut_snd (q := q) x ?cv ?ck
            case' ck => (intro hx; clear_value x)
            case' cv => (unfold x; clear x))
         | skip)
    | split
    | with_reducible apply good_mk
    | with_reducible rfl

theorem State.chopAs_keeps {q : List Instr} (e : Edge) (s : State) (h : Good q s) : Good q (State.chopAs e s) := by
  unfold State.chopAs
  repeat' first
    | with_reducible assumption
    | intro _
    | with_reducible apply good_ite
    | with_reducible apply State.dieCmd_keeps
    | (extract_lets +onlyGivenNames x
       first
         | (refine good_cut (q := q) x ?cv ?ck
            case' ck => (intro hx; clear_value x)
            case' cv => (unfold x; clear x))
         | (refine good_cut_fst (q := q) x ?cv ?ck
            case' ck => (intro hx; clear_value x)
            case' cv => (unfold x; clear x))
         | (refine good_cut_snd (q := q) x ?cv ?ck
            case' ck => (intro hx; clear_value x)
            case' cv => (unfold x; clear x))
         | skip)
    | split
    | with_reducible apply good_mk
    | with_reducible rfl

theorem State.chop_keeps {q : List Instr} (s : State) (h : Good q s) : Good q (State.chop s) := by
  unfold State.chop
  repeat' first
    | with_reducible assumption
    | intro _
    | with_reducible apply good_ite
    | with_reducible apply State.chopAs_keeps

theorem State.bridgeCmd_keeps {q : List Instr} (e : Edge) (s : State) (h : Good q s) : Good q (State.bridgeCmd e s) := by
  unfold State.bridgeCmd
  repeat' first
    | with_reducible assumption
    | intro _
    | with_reducible apply State.dieCmd_keeps
    | with_reducible apply good_forAll

theorem State.bridgeOff_keeps {q : List Instr} (e : Edge) (s : State) (h : Good q s) : Good q (State.bridgeOff e s) := by
  unfold State.bridgeOff
  repeat' first
    | with_reducible assumption
    | intro _
    | with_reducible apply State.bridgeCmd_keeps
    | (extract_lets +onlyGivenNames x
       first
         | (refine good_cut (q := q) x ?cv ?ck
            case' ck => (intro hx; clear_value x)
            case' cv => (unfold x; clear x))
         | (refine good_cut_fst (q := q) x ?cv ?ck
            case' ck => (intro hx; clear_value x)
            case' cv => (unfold x; clear x))
         | (refine good_cut_snd (q := q) x ?cv ?ck
            case' ck => (intro hx; clear_value x)
            case' cv => (unfold x; clear x))
         | skip)
    | with_reducible apply good_mk
    | with_reducible rfl

theorem State.setBen_keeps {q : List Instr} (v : Bool) (s : State) (h : Good q s) : Good q (State.setBen v s) := by
  unfold State.setBen
  repeat' first
    | with_reducible assumption
    | intro _
    | with_reducible apply good_ite
    | with_reducible apply State.put_keeps
    | with_reducible apply State.bridgeOff_keeps

theorem State.benFollow_keeps {q : List Instr} (s : State) (h : Good q s) : Good q (State.benFollow s) := by
  unfold State.benFollow
  repeat' first
    | with_reducible assumption
    | intro _
    | with_reducible apply good_ite
    | with_reducible apply State.setBen_keeps
    | with_reducible apply State.put_keeps
    | (extract_lets +onlyGivenNames x
       first
         | (refine good_cut (q := q) x ?cv ?ck
            case' ck => (intro hx; clear_value x)
            case' cv => (unfold x; clear x))
         | (refine good_cut_fst (q := q) x ?cv ?ck
            case' ck => (intro hx; clear_value x)
            case' cv => (unfold x; clear x))
         | (refine good_cut_snd (q := q) x ?cv ?ck
            case' ck => (intro hx; clear_value x)
            case' cv => (unfold x; clear x))
         | skip)
    | split

theorem State.upAo_keeps {q : List Instr} (s : State) (n : Nat) (f : AoSt → AoSt) (h : Good q s) : Good q (State.upAo s n f) := by
  unfold State.upAo
  repeat' first
    | with_reducible assumption
    | intro _
    | with_reducible apply good_mk
    | with_reducible rfl

theorem State.waveStop_keeps {q : List Instr} (k : Nat) (s : State) (h : Good q s) : Good q (State.waveStop k s) := by
  unfold State.waveStop
  repeat' first
    | with_reducible assumption
    | intro _
    | with_reducible apply good_ite
    | with_reducible apply State.put_keeps
    | with_reducible apply State.upAo_keeps
    | (extract_lets +onlyGivenNames x
       first
         | (refine good_cut (q := q) x ?cv ?ck
            case' ck => (intro hx; clear_value x)
            case' cv => (unfold x; clear x))
         | (refine good_cut_fst (q := q) x ?cv ?ck
            case' ck => (intro hx; clear_value x)
            case' cv => (unfold x; clear x))
         | (refine good_cut_snd (q := q) x ?cv ?ck
            case' ck => (intro hx; clear_value x)
            case' cv => (unfold x; clear x))
         | skip)
    | split
    | with_reducible apply good_mk
    | with_reducible rfl

theorem State.aoLoad_keeps {q : List Instr} (n : Nat) (code : Nat) (t : Nat) (s : State) (h : Good q s) : Good q (State.aoLoad n code t s) := by
  unfold State.aoLoad
  repeat' first
    | with_reducible assumption
    | intro _
    | with_reducible apply good_ite
    | with_reducible apply good_ite_fst
    | with_reducible apply good_ite_snd
    | with_reducible apply State.upAo_keeps
    | with_reducible apply State.put_keeps
    | (extract_lets +onlyGivenNames x
       first
         | (refine good_cut (q := q) x ?cv ?ck
            case' ck => (intro hx; clear_value x)
            case' cv => (unfold x; clear x))
         | (refine good_cut_fst (q := q) x ?cv ?ck
            case' ck => (intro hx; clear_value x)
            case' cv => (unfold x; clear x))
         | (refine good_cut_snd (q := q) x ?cv ?ck
            case' ck => (intro hx; clear_value x)
            case' cv => (unfold x; clear x))
         | skip)
    | split
    | with_reducible apply good_mk
    | with_reducible rfl

theorem State.aoRefresh_keeps {q : List Instr} (n : Nat) (s : State) (h : Good q s) : Good q (State.aoRefresh n s) := by
  unfold State.aoRefresh
  repeat' first
    | with_reducible assumption
    | intro _
    | with_reducible apply good_ite
    | with_reducible apply State.aoLoad_keeps
    | with_reducible apply State.put_keeps
    | with_reducible apply State.upAo_keeps
    | with_reducible apply State.waveStop_keeps
    | (extract_lets +onlyGivenNames x
       first
         | (refine good_cut (q := q) x ?cv ?ck
            case' ck => (intro hx; clear_value x)
            case' cv => (unfold x; clear x))
         | (refine good_cut_fst (q := q) x ?cv ?ck
            case' ck => (intro hx; clear_value x)
            case' cv => (unfold x; clear x))
         | (refine good_cut_snd (q := q) x ?cv ?ck
            case' ck => (intro hx; clear_value x)
            case' cv => (unfold x; clear x))
         | skip)
    | split
    | with_reducible apply good_mk
    | with_reducible rfl

theorem State.aoLatch_keeps {q : List Instr} (n : Nat) (code : Nat) (t : Nat) (s : State) (h : Good q s) : Good q (State.aoLatch n code t s) := by
  unfold State.aoLatch
  repeat' first
    | with_reducible assumption
    | intro _
    | with_reducible apply good_ite
    | with_reducible apply State.aoLoad_keeps
    | with_reducible apply State.upAo_keeps
    | (extract_lets +onlyGivenNames x
       first
         | (refine good_cut (q := q) x ?cv ?ck
            case' ck => (intro hx; clear_value x)
            case' cv => (unfold x; clear x))
         | (refine good_cut_fst (q := q) x ?cv ?ck
            case' ck => (intro hx; clear_value x)
            case' cv => (unfold x; clear x))
         | (refine good_cut_snd (q := q) x ?cv ?ck
            case' ck => (intro hx; clear_value x)
            case' cv => (unfold x; clear x))
         | skip)
    | with_reducible apply good_mk
    | with_reducible rfl

theorem State.aoRequest_keeps {q : List Instr} (n : Nat) (code : Nat) (t : Nat) (s : State) (h : Good q s) : Good q (State.aoRequest n code t s) := by
  unfold State.aoRequest
  repeat' first
    | with_reducible assumption
    | intro _
    | with_reducible apply good_ite
    | with_reducible apply State.bump_keeps
    | with_reducible apply State.upAo_keeps
    | with_reducible apply State.aoLatch_keeps
    | (extract_lets +onlyGivenNames x
       first
         | (refine good_cut (q := q) x ?cv ?ck
            case' ck => (intro hx; clear_value x)
            case' cv => (unfold x; clear x))
         | (refine good_cut_fst (q := q) x ?cv ?ck
            case' ck => (intro hx; clear_value x)
            case' cv => (unfold x; clear x))
         | (refine good_cut_snd (q := q) x ?cv ?ck
            case' ck => (intro hx; clear_value x)
            case' cv => (unfold x; clear x))
         | skip)
    | split
    | with_reducible apply good_mk
    | with_reducible rfl

theorem State.aoFree_keeps {q : List Instr} (n : Nat) (s : State) (h : Good q s) : Good q (State.aoFree n s) := by
  unfold State.aoFree
  repeat' first
    | with_reducible assumption
    | intro _
    | with_reducible apply good_ite
    | with_reducible apply State.put_keeps
    | with_reducible apply State.upAo_keeps

theorem State.doRefresh_keeps {q : List Instr} (s : State) (h : Good q s) : Good q (State.doRefresh s) := by
  unfold State.doRefresh
  repeat' first
    | with_reducible assumption
    | intro _
    | with_reducible apply good_ite
    | with_reducible apply State.putBit_keeps
    | with_reducible apply good_forAll
    | (extract_lets +onlyGivenNames x
       first
         | (refine good_cut (q := q) x ?cv ?ck
            case' ck => (intro hx; clear_value x)
            case' cv => (unfold x; clear x))
         | (refine good_cut_fst (q := q) x ?cv ?ck
            case' ck => (intro hx; clear_value x)
            case' cv => (unfold x; clear x))
         | (refine good_cut_snd (q := q) x ?cv ?ck
            case' ck => (intro hx; clear_value x)
            case' cv => (unfold x; clear x))
         | skip)
    | with_reducible apply good_mk
    | split
    | with_reducible rfl

theorem State.dioFault_keeps {q : List Instr} (s : State) (h : Good q s) : Good q (State.dioFault s) := by
  unfold State.dioFault
  repeat' first
    | with_reducible assumption
    | intro _
    | with_reducible apply State.put_keeps
    | with_reducible apply State.level_keeps

theorem State.dioClear_keeps {q : List Instr} (hot : Nat) (s : State) (h : Good q s) : Good q (State.dioClear hot s) := by
  unfold State.dioClear
  repeat' first
    | with_reducible assumption
    | intro _
    | with_reducible apply State.dioFault_keeps
    | (extract_lets +onlyGivenNames x
       first
         | (refine good_cut (q := q) x ?cv ?ck
            case' ck => (intro hx; clear_value x)
            case' cv => (unfold x; clear x))
         | (refine good_cut_fst (q := q) x ?cv ?ck
            case' ck => (intro hx; clear_value x)
            case' cv => (unfold x; clear x))
         | (refine good_cut_snd (q := q) x ?cv ?ck
            case' ck => (intro hx; clear_value x)
            case' cv => (unfold x; clear x))
         | skip)
    | with_reducible apply good_mk
    | with_reducible rfl

theorem State.wbForget_keeps {q : List Instr} (s : State) (h : Good q s) : Good q (State.wbForget s) := by
  unfold State.wbForget
  repeat' first
    | with_reducible assumption
    | intro _
    | with_reducible apply good_ite
    | with_reducible apply State.dioFault_keeps
    | with_reducible apply good_mk
    | with_reducible rfl

theorem State.walkEnd_keeps {q : List Instr} (st : Nat) (s : State) (h : Good q s) : Good q (State.walkEnd st s) := by
  unfold State.walkEnd
  repeat' first
    | with_reducible assumption
    | intro _
    | with_reducible apply good_ite
    | with_reducible apply State.put_keeps
    | with_reducible apply State.doRefresh_keeps
    | with_reducible apply State.wbForget_keeps
    | split
    | with_reducible apply good_mk
    | with_reducible rfl

theorem State.putDuty_keeps {q : List Instr} (l : Nat) (v : Nat) (s : State) (h : Good q s) : Good q (State.putDuty l v s) := by
  unfold State.putDuty
  repeat' first
    | with_reducible assumption
    | intro _
    | with_reducible apply good_ite
    | with_reducible apply State.put_keeps
    | (extract_lets +onlyGivenNames x
       first
         | (refine good_cut (q := q) x ?cv ?ck
            case' ck => (intro hx; clear_value x)
            case' cv => (unfold x; clear x))
         | (refine good_cut_fst (q := q) x ?cv ?ck
            case' ck => (intro hx; clear_value x)
            case' cv => (unfold x; clear x))
         | (refine good_cut_snd (q := q) x ?cv ?ck
            case' ck => (intro hx; clear_value x)
            case' cv => (unfold x; clear x))
         | skip)
    | split

theorem State.dutyCommit_keeps {q : List Instr} (l : Nat) (s : State) (h : Good q s) : Good q (State.dutyCommit l s) := by
  unfold State.dutyCommit
  repeat' first
    | with_reducible assumption
    | intro _
    | with_reducible apply good_ite
    | with_reducible apply State.putDuty_keeps
    | with_reducible apply State.put_keeps
    | split
    | with_reducible apply good_mk
    | with_reducible rfl

theorem State.dutyLapse_keeps {q : List Instr} (l : Nat) (s : State) (h : Good q s) : Good q (State.dutyLapse l s) := by
  unfold State.dutyLapse
  repeat' first
    | with_reducible assumption
    | intro _
    | with_reducible apply good_ite
    | with_reducible apply State.put_keeps
    | split
    | with_reducible apply good_mk
    | with_reducible rfl

theorem State.benLapse_keeps {q : List Instr} (s : State) (h : Good q s) : Good q (State.benLapse s) := by
  unfold State.benLapse
  repeat' first
    | with_reducible assumption
    | intro _
    | with_reducible apply good_ite
    | with_reducible apply State.setBen_keeps
    | (extract_lets +onlyGivenNames x
       first
         | (refine good_cut (q := q) x ?cv ?ck
            case' ck => (intro hx; clear_value x)
            case' cv => (unfold x; clear x))
         | (refine good_cut_fst (q := q) x ?cv ?ck
            case' ck => (intro hx; clear_value x)
            case' cv => (unfold x; clear x))
         | (refine good_cut_snd (q := q) x ?cv ?ck
            case' ck => (intro hx; clear_value x)
            case' cv => (unfold x; clear x))
         | skip)
    | split

theorem State.outRefresh_keeps {q : List Instr} (s : State) (h : Good q s) : Good q (State.outRefresh s) := by
  unfold State.outRefresh
  repeat' first
    | with_reducible assumption
    | intro _
    | with_reducible apply good_ite
    | with_reducible apply State.walkEnd_keeps
    | with_reducible apply State.dutyLapse_keeps
    | with_reducible apply State.aoRefresh_keeps
    | with_reducible apply State.doRefresh_keeps
    | with_reducible apply State.benLapse_keeps
    | with_reducible apply State.chop_keeps
    | with_reducible apply good_forAll
    | (extract_lets +onlyGivenNames x
       first
         | (refine good_cut (q := q) x ?cv ?ck
            case' ck => (intro hx; clear_value x)
            case' cv => (unfold x; clear x))
         | (refine good_cut_fst (q := q) x ?cv ?ck
            case' ck => (intro hx; clear_value x)
            case' cv => (unfold x; clear x))
         | (refine good_cut_snd (q := q) x ?cv ?ck
            case' ck => (intro hx; clear_value x)
            case' cv => (unfold x; clear x))
         | skip)
    | split

theorem State.xferEnd_keeps {q : List Instr} (s : State) (h : Good q s) : Good q (State.xferEnd s) := by
  unfold State.xferEnd
  repeat' first
    | with_reducible assumption
    | intro _
    | with_reducible apply good_ite
    | with_reducible apply State.put_keeps
    | with_reducible apply good_mk
    | with_reducible rfl

theorem State.setReleased_keeps {q : List Instr} (v : Bool) (s : State) (h : Good q s) : Good q (State.setReleased v s) := by
  unfold State.setReleased
  repeat' first
    | with_reducible assumption
    | intro _
    | with_reducible apply good_ite
    | with_reducible apply State.put_keeps
    | with_reducible apply State.dieDrop_keeps
    | with_reducible apply State.walkEnd_keeps
    | with_reducible apply State.xferEnd_keeps
    | with_reducible apply good_forAll
    | (extract_lets +onlyGivenNames x
       first
         | (refine good_cut (q := q) x ?cv ?ck
            case' ck => (intro hx; clear_value x)
            case' cv => (unfold x; clear x))
         | (refine good_cut_fst (q := q) x ?cv ?ck
            case' ck => (intro hx; clear_value x)
            case' cv => (unfold x; clear x))
         | (refine good_cut_snd (q := q) x ?cv ?ck
            case' ck => (intro hx; clear_value x)
            case' cv => (unfold x; clear x))
         | skip)
    | split
    | with_reducible apply good_mk
    | with_reducible rfl

end Sys2Proof.Machine
end

