-- ==== Sys2Proof/Laws/KeepsChecker.lean ====
section
/-! SUPPORT. Laws/KeepsChecker.lean: every operation of Machine/Checker.lean keeps `Good`. -/

namespace Sys2Proof.Machine

theorem State.violation_keeps {q : List Instr} (r : Nat) (priv : Nat) (kind : Nat) (a : Nat) (len : Nat) (v : Verdict) (s : State) (h : Good q s) : Good q (State.violation r priv kind a len v s) := by
  unfold State.violation
  repeat' first
    | with_reducible assumption
    | intro _
    | with_reducible apply State.put_keeps
    | with_reducible apply State.bump_keeps
    | with_reducible apply State.raise_keeps

theorem State.check_keeps {q : List Instr} (r : Nat) (kind : Nat) (a : Nat) (len : Nat) (s : State) (h : Good q s) : Good q (State.check r kind a len s).1 := by
  unfold State.check
  repeat' first
    | with_reducible assumption
    | intro _
    | with_reducible apply good_ite
    | with_reducible apply good_ite_fst
    | with_reducible apply good_ite_snd
    | with_reducible apply State.violation_keeps

theorem opChkCommit_keeps {q : List Instr} (s : State) (h : Good q s) : Good q (opChkCommit s) := by
  unfold opChkCommit
  repeat' first
    | with_reducible assumption
    | intro _
    | with_reducible apply good_ite
    | with_reducible apply good_ite_fst
    | with_reducible apply good_ite_snd
    | with_reducible apply State.put_keeps
    | (extract_lets +onlyGivenNames x
       first
         | (refine good_cut (q := q) x ?cv ?ck
            case' ck => (intro hx; clear_value x)
            case' cv => (unfold x; clear x))
         | (refine good_cut_fst (q := q) x ?cv ?ck
            case' ck => (intro hx; clear_value x)
            case' cv => (unfold x; clear x))
         | (refine good_cut_snd (q := q) x ?cv ?ck
            case' ck => (intro hx; clear_value x)
            case' cv => (unfold x; clear x))
         | skip)
    | split
    | with_reducible apply good_mk
    | with_reducible rfl

theorem opChkDiscard_keeps {q : List Instr} (s : State) (h : Good q s) : Good q (opChkDiscard s) := by
  unfold opChkDiscard
  repeat' first
    | with_reducible assumption
    | intro _
    | with_reducible apply State.put_keeps
    | with_reducible apply good_foldl

end Sys2Proof.Machine
end

