-- ==== Sys2Proof/Laws/KeepsFault.lean ====
section
/-! SUPPORT. Laws/KeepsFault.lean: every operation of Machine/Fault.lean keeps `Good`. -/

namespace Sys2Proof.Machine

theorem State.zeroMem_keeps {q : List Instr} (a : Nat) (n : Nat) (s : State) (h : Good q s) : Good q (State.zeroMem a n s) := by
  exact State.markDirty_keeps _ _ _ _
    ⟨h.queue, cellsWf_filter _ _ h.mem, h.back, h.work, h.nor, h.arr, h.snap, h.brick, h.fifo, h.logq, h.ram, h.farm⟩

theorem State.engineReset_keeps {q : List Instr} (e : Nat) (s : State) (h : Good q s) : Good q (State.engineReset e s) := by
  unfold State.engineReset
  repeat' first
    | with_reducible assumption
    | intro _
    | with_reducible apply good_ite
    | with_reducible apply State.setEng_keeps
    | with_reducible apply State.zeroMem_keeps
    | with_reducible apply State.bump_keeps
    | split
    | with_reducible apply good_mk
    | with_reducible rfl

theorem State.fly_keeps {q : List Instr} (e : Nat) (f : Flight) (s : State) (h : Good q s) : Good q (State.fly e f s) := by
  unfold State.fly
  repeat' first
    | with_reducible assumption
    | intro _
    | with_reducible apply good_ite
    | with_reducible apply State.upE_keeps
    | (extract_lets +onlyGivenNames x
       first
         | (refine good_cut (q := q) x ?cv ?ck
            case' ck => (intro hx; clear_value x)
            case' cv => (unfold x; clear x))
         | (refine good_cut_fst (q := q) x ?cv ?ck
            case' ck => (intro hx; clear_value x)
            case' cv => (unfold x; clear x))
         | (refine good_cut_snd (q := q) x ?cv ?ck
            case' ck => (intro hx; clear_value x)
            case' cv => (unfold x; clear x))
         | skip)

theorem State.retire_keeps {q : List Instr} (e : Nat) (upto : Nat) (s : State) (h : Good q s) : Good q (State.retire e upto s) := by
  unfold State.retire
  repeat' first
    | with_reducible assumption
    | intro _
    | with_reducible apply good_ite
    | with_reducible apply State.raise_keeps
    | with_reducible apply State.setEng_keeps
    | with_reducible apply good_forAll
    | (extract_lets +onlyGivenNames x
       first
         | (refine good_cut (q := q) x ?cv ?ck
            case' ck => (intro hx; clear_value x)
            case' cv => (unfold x; clear x))
         | (refine good_cut_fst (q := q) x ?cv ?ck
            case' ck => (intro hx; clear_value x)
            case' cv => (unfold x; clear x))
         | (refine good_cut_snd (q := q) x ?cv ?ck
            case' ck => (intro hx; clear_value x)
            case' cv => (unfold x; clear x))
         | skip)

theorem State.retireTo_keeps {q : List Instr} (e : Nat) (upto : Nat) (s : State) (h : Good q s) : Good q (State.retireTo e upto s) := by
  unfold State.retireTo
  repeat' first
    | with_reducible assumption
    | intro _
    | with_reducible apply good_ite
    | with_reducible apply State.upE_keeps
    | with_reducible apply State.retire_keeps
    | (extract_lets +onlyGivenNames x
       first
         | (refine good_cut (q := q) x ?cv ?ck
            case' ck => (intro hx; clear_value x)
            case' cv => (unfold x; clear x))
         | (refine good_cut_fst (q := q) x ?cv ?ck
            case' ck => (intro hx; clear_value x)
            case' cv => (unfold x; clear x))
         | (refine good_cut_snd (q := q) x ?cv ?ck
            case' ck => (intro hx; clear_value x)
            case' cv => (unfold x; clear x))
         | skip)
    | split
    | with_reducible apply good_mk
    | with_reducible rfl

theorem State.settle_keeps {q : List Instr} (e : Nat) (s : State) (h : Good q s) : Good q (State.settle e s) := by
  unfold State.settle
  repeat' first
    | with_reducible assumption
    | intro _
    | with_reducible apply good_ite
    | with_reducible apply State.retireTo_keeps
    | with_reducible apply good_foldl
    | with_reducible apply good_foldl_fst
    | with_reducible apply good_foldl_snd

theorem State.mirrorJoin_keeps {q : List Instr} (e : Nat) (s : State) (h : Good q s) : Good q (State.mirrorJoin e s) := by
  unfold State.mirrorJoin
  repeat' first
    | with_reducible assumption
    | intro _
    | with_reducible apply good_ite
    | with_reducible apply State.upE_keeps
    | (extract_lets +onlyGivenNames x
       first
         | (refine good_cut (q := q) x ?cv ?ck
            case' ck => (intro hx; clear_value x)
            case' cv => (unfold x; clear x))
         | (refine good_cut_fst (q := q) x ?cv ?ck
            case' ck => (intro hx; clear_value x)
            case' cv => (unfold x; clear x))
         | (refine good_cut_snd (q := q) x ?cv ?ck
            case' ck => (intro hx; clear_value x)
            case' cv => (unfold x; clear x))
         | skip)
    | split
    | with_reducible apply good_mk
    | with_reducible rfl

theorem State.asSecond_keeps {q : List Instr} (s : State) (e : Nat) (f : Nat) (h : Good q s) : Good q (State.asSecond s e f) := by
  unfold State.asSecond
  repeat' first
    | with_reducible assumption
    | intro _
    | with_reducible apply good_ite
    | with_reducible apply State.setEng_keeps

theorem State.mirrorOwn_keeps {q : List Instr} (e : Nat) (f : Nat) (a : State) (b : State) (h : Good q a) : Good q (State.mirrorOwn e f a b) :=
  State.upE_keeps _ _ _ h

theorem State.mirrorFar_keeps {q : List Instr} (e : Nat) (s : State) (h : Good q s) : Good q (State.mirrorFar e s) := by
  unfold State.mirrorFar
  repeat' first
    | with_reducible assumption
    | intro _
    | with_reducible apply good_ite
    | with_reducible apply State.upE_keeps
    | (extract_lets +onlyGivenNames x
       first
         | (refine good_cut (q := q) x ?cv ?ck
            case' ck => (intro hx; clear_value x)
            case' cv => (unfold x; clear x))
         | (refine good_cut_fst (q := q) x ?cv ?ck
            case' ck => (intro hx; clear_value x)
            case' cv => (unfold x; clear x))
         | (refine good_cut_snd (q := q) x ?cv ?ck
            case' ck => (intro hx; clear_value x)
            case' cv => (unfold x; clear x))
         | skip)
    | split
    | with_reducible apply good_mk
    | with_reducible rfl

theorem State.reloadRange_keeps {q : List Instr} (a : Nat) (n : Nat) (s : State) (h : Good q s) : Good q (State.reloadRange a n s) := by
  unfold State.reloadRange
  repeat' first
    | with_reducible assumption
    | intro _
    | with_reducible apply good_ite
    | with_reducible apply good_ite_fst
    | with_reducible apply good_ite_snd
    | with_reducible apply State.eccRead_keeps
    | with_reducible apply State.setEcc_keeps
    | with_reducible apply State.eccWrite_keeps
    | with_reducible apply good_forAll
    | (extract_lets +onlyGivenNames x
       first
         | (refine good_cut (q := q) x ?cv ?ck
            case' ck => (intro hx; clear_value x)
            case' cv => (unfold x; clear x))
         | (refine good_cut_fst (q := q) x ?cv ?ck
            case' ck => (intro hx; clear_value x)
            case' cv => (unfold x; clear x))
         | (refine good_cut_snd (q := q) x ?cv ?ck
            case' ck => (intro hx; clear_value x)
            case' cv => (unfold x; clear x))
         | skip)
    | split

theorem State.reloadWork_keeps {q : List Instr} (n : Nat) (s : State) (h : Good q s) : Good q (State.reloadWork n s) := by
  unfold State.reloadWork
  repeat' first
    | with_reducible assumption
    | intro _
    | with_reducible apply good_ite
    | with_reducible apply State.reloadRange_keeps
    | (extract_lets +onlyGivenNames x
       first
         | (refine good_cut (q := q) x ?cv ?ck
            case' ck => (intro hx; clear_value x)
            case' cv => (unfold x; clear x))
         | (refine good_cut_fst (q := q) x ?cv ?ck
            case' ck => (intro hx; clear_value x)
            case' cv => (unfold x; clear x))
         | (refine good_cut_snd (q := q) x ?cv ?ck
            case' ck => (intro hx; clear_value x)
            case' cv => (unfold x; clear x))
         | skip)

theorem State.dropInst_keeps {q : List Instr} (n : Nat) (s : State) (h : Good q s) : Good q (State.dropInst n s) := by
  unfold State.dropInst
  repeat' first
    | with_reducible assumption
    | intro _
    | with_reducible apply good_ite
    | with_reducible apply State.upT_keeps
    | with_reducible apply State.reloadWork_keeps
    | (extract_lets +onlyGivenNames x
       first
         | (refine good_cut (q := q) x ?cv ?ck
            case' ck => (intro hx; clear_value x)
            case' cv => (unfold x; clear x))
         | (refine good_cut_fst (q := q) x ?cv ?ck
            case' ck => (intro hx; clear_value x)
            case' cv => (unfold x; clear x))
         | (refine good_cut_snd (q := q) x ?cv ?ck
            case' ck => (intro hx; clear_value x)
            case' cv => (unfold x; clear x))
         | skip)
    | split
    | with_reducible apply good_mk
    | with_reducible rfl

theorem State.engIdle_keeps {q : List Instr} (e : Nat) (s : State) (h : Good q s) : Good q (State.engIdle e s) := by
  unfold State.engIdle
  repeat' first
    | with_reducible assumption
    | intro _
    | with_reducible apply good_ite
    | with_reducible apply good_ite_fst
    | with_reducible apply good_ite_snd
    | with_reducible apply State.eccRead_keeps
    | with_reducible apply State.settle_keeps
    | with_reducible apply State.upE_keeps
    | with_reducible apply State.mirrorJoin_keeps
    | (extract_lets +onlyGivenNames x
       first
         | (refine good_cut (q := q) x ?cv ?ck
            case' ck => (intro hx; clear_value x)
            case' cv => (unfold x; clear x))
         | (refine good_cut_fst (q := q) x ?cv ?ck
            case' ck => (intro hx; clear_value x)
            case' cv => (unfold x; clear x))
         | (refine good_cut_snd (q := q) x ?cv ?ck
            case' ck => (intro hx; clear_value x)
            case' cv => (unfold x; clear x))
         | skip)
    | split
    | with_reducible apply good_mk
    | with_reducible rfl

theorem State.stopEngine_keeps {q : List Instr} (e : Nat) (why : Stop) (s : State) (h : Good q s) : Good q (State.stopEngine e why s) := by
  unfold State.stopEngine
  repeat' first
    | with_reducible assumption
    | intro _
    | with_reducible apply good_ite
    | with_reducible apply State.dropInst_keeps
    | with_reducible apply State.upE_keeps
    | with_reducible apply State.put_keeps
    | with_reducible apply State.engIdle_keeps
    | with_reducible apply good_forAll
    | (extract_lets +onlyGivenNames x
       first
         | (refine good_cut (q := q) x ?cv ?ck
            case' ck => (intro hx; clear_value x)
            case' cv => (unfold x; clear x))
         | (refine good_cut_fst (q := q) x ?cv ?ck
            case' ck => (intro hx; clear_value x)
            case' cv => (unfold x; clear x))
         | (refine good_cut_snd (q := q) x ?cv ?ck
            case' ck => (intro hx; clear_value x)
            case' cv => (unfold x; clear x))
         | skip)
    | split
    | with_reducible apply good_mk
    | with_reducible rfl

theorem State.addCause_keeps {q : List Instr} (scope : Nat) (code : Nat) (first : Bool) (s : State) (h : Good q s) : Good q (State.addCause scope code first s) := by
  unfold State.addCause
  repeat' first
    | with_reducible assumption
    | intro _
    | with_reducible apply good_ite
    | with_reducible apply State.put_keeps
    | with_reducible apply State.putBit_keeps

theorem State.setUmbraFlag_keeps {q : List Instr} (scope : Nat) (v : Bool) (s : State) (h : Good q s) : Good q (State.setUmbraFlag scope v s) := by
  unfold State.setUmbraFlag
  repeat' first
    | with_reducible assumption
    | intro _
    | with_reducible apply good_ite
    | with_reducible apply State.put_keeps
    | with_reducible apply State.putBit_keeps

theorem State.bridgeDark_keeps {q : List Instr} (s : State) (h : Good q s) : Good q (State.bridgeDark s) := by
  unfold State.bridgeDark
  repeat' first
    | with_reducible assumption
    | intro _
    | with_reducible apply State.bridgeOff_keeps

theorem State.powerDark_keeps {q : List Instr} (scope : Nat) (s : State) (h : Good q s) : Good q (State.powerDark scope s) := by
  unfold State.powerDark
  repeat' first
    | with_reducible assumption
    | intro _
    | with_reducible apply good_ite
    | with_reducible apply State.bridgeDark_keeps
    | with_reducible apply State.chopAs_keeps
    | split

theorem State.deviceDark_keeps {q : List Instr} (s : State) (h : Good q s) : Good q (State.deviceDark s) := by
  unfold State.deviceDark
  repeat' first
    | with_reducible assumption
    | intro _
    | with_reducible apply good_ite
    | with_reducible apply State.stopEngine_keeps
    | with_reducible apply State.bridgeDark_keeps
    | with_reducible apply State.dieCmd_keeps
    | with_reducible apply State.chopAs_keeps
    | with_reducible apply State.outRefresh_keeps
    | with_reducible apply good_forAll
    | (extract_lets +onlyGivenNames x
       first
         | (refine good_cut (q := q) x ?cv ?ck
            case' ck => (intro hx; clear_value x)
            case' cv => (unfold x; clear x))
         | (refine good_cut_fst (q := q) x ?cv ?ck
            case' ck => (intro hx; clear_value x)
            case' cv => (unfold x; clear x))
         | (refine good_cut_snd (q := q) x ?cv ?ck
            case' ck => (intro hx; clear_value x)
            case' cv => (unfold x; clear x))
         | skip)

theorem State.powerUmbra_keeps {q : List Instr} (scope : Nat) (code : Nat) (s : State) (h : Good q s) : Good q (State.powerUmbra scope code s) := by
  unfold State.powerUmbra
  repeat' first
    | with_reducible assumption
    | intro _
    | with_reducible apply good_ite
    | with_reducible apply State.addCause_keeps
    | with_reducible apply State.setUmbraFlag_keeps
    | with_reducible apply State.raise_keeps
    | with_reducible apply State.powerDark_keeps
    | (extract_lets +onlyGivenNames x
       first
         | (refine good_cut (q := q) x ?cv ?ck
            case' ck => (intro hx; clear_value x)
            case' cv => (unfold x; clear x))
         | (refine good_cut_fst (q := q) x ?cv ?ck
            case' ck => (intro hx; clear_value x)
            case' cv => (unfold x; clear x))
         | (refine good_cut_snd (q := q) x ?cv ?ck
            case' ck => (intro hx; clear_value x)
            case' cv => (unfold x; clear x))
         | skip)
    | split

theorem State.followEngine_keeps {q : List Instr} (e : Nat) (s : State) (h : Good q s) : Good q (State.followEngine e s) := by
  unfold State.followEngine
  repeat' first
    | with_reducible assumption
    | intro _
    | with_reducible apply good_ite
    | with_reducible apply State.powerUmbra_keeps
    | (extract_lets +onlyGivenNames x
       first
         | (refine good_cut (q := q) x ?cv ?ck
            case' ck => (intro hx; clear_value x)
            case' cv => (unfold x; clear x))
         | (refine good_cut_fst (q := q) x ?cv ?ck
            case' ck => (intro hx; clear_value x)
            case' cv => (unfold x; clear x))
         | (refine good_cut_snd (q := q) x ?cv ?ck
            case' ck => (intro hx; clear_value x)
            case' cv => (unfold x; clear x))
         | skip)
    | with_reducible apply good_mk
    | split
    | with_reducible rfl

theorem State.handOver_keeps {q : List Instr} (s : State) (h : Good q s) : Good q (State.handOver s) := by
  unfold State.handOver
  repeat' first
    | with_reducible assumption
    | intro _
    | with_reducible apply good_ite
    | with_reducible apply State.setReleased_keeps
    | with_reducible apply State.put_keeps
    | (extract_lets +onlyGivenNames x
       first
         | (refine good_cut (q := q) x ?cv ?ck
            case' ck => (intro hx; clear_value x)
            case' cv => (unfold x; clear x))
         | (refine good_cut_fst (q := q) x ?cv ?ck
            case' ck => (intro hx; clear_value x)
            case' cv => (unfold x; clear x))
         | (refine good_cut_snd (q := q) x ?cv ?ck
            case' ck => (intro hx; clear_value x)
            case' cv => (unfold x; clear x))
         | skip)
    | split
    | with_reducible apply good_mk
    | with_reducible rfl

theorem State.leadFails_keeps {q : List Instr} (s : State) (h : Good q s) : Good q (State.leadFails s) := by
  unfold State.leadFails
  repeat' first
    | with_reducible assumption
    | intro _
    | with_reducible apply good_ite
    | with_reducible apply State.handOver_keeps
    | split

theorem State.umbraEnter_keeps {q : List Instr} (scope : Nat) (code : Nat) (s : State) (h : Good q s) : Good q (State.umbraEnter scope code s) := by
  unfold State.umbraEnter
  repeat' first
    | with_reducible assumption
    | intro _
    | with_reducible apply good_ite
    | with_reducible apply State.addCause_keeps
    | with_reducible apply State.leadFails_keeps
    | with_reducible apply State.powerUmbra_keeps
    | with_reducible apply State.setUmbraFlag_keeps
    | with_reducible apply State.raise_keeps
    | with_reducible apply State.deviceDark_keeps
    | with_reducible apply State.stopEngine_keeps
    | with_reducible apply State.followEngine_keeps
    | with_reducible apply State.outRefresh_keeps
    | (extract_lets +onlyGivenNames x
       first
         | (refine good_cut (q := q) x ?cv ?ck
            case' ck => (intro hx; clear_value x)
            case' cv => (unfold x; clear x))
         | (refine good_cut_fst (q := q) x ?cv ?ck
            case' ck => (intro hx; clear_value x)
            case' cv => (unfold x; clear x))
         | (refine good_cut_snd (q := q) x ?cv ?ck
            case' ck => (intro hx; clear_value x)
            case' cv => (unfold x; clear x))
         | skip)
    | split

theorem State.excRecord_keeps {q : List Instr} (e : Nat) (cause : Nat) (cls : Nat) (detail : Nat) (resume : Nat) (s : State) (h : Good q s) : Good q (State.excRecord e cause cls detail resume s) := by
  unfold State.excRecord
  repeat' first
    | with_reducible assumption
    | intro _
    | with_reducible apply State.put_keeps

theorem State.engineFault1_keeps {q : List Instr} (e : Nat) (cause : Nat) (detail : Nat) (resume : Nat) (s : State) (h : Good q s) : Good q (State.engineFault1 e cause detail resume s) := by
  unfold State.engineFault1
  repeat' first
    | with_reducible assumption
    | intro _
    | with_reducible apply good_ite
    | with_reducible apply State.excRecord_keeps
    | with_reducible apply State.bump_keeps
    | with_reducible apply State.logFault_keeps
    | with_reducible apply State.umbraEnter_keeps

theorem State.engineFaultAfter_keeps {q : List Instr} (first : Option Nat) (e : Nat) (cause : Nat) (detail : Nat) (resume : Nat) (s : State) (h : Good q s) : Good q (State.engineFaultAfter first e cause detail resume s) := by
  unfold State.engineFaultAfter
  repeat' first
    | with_reducible assumption
    | intro _
    | with_reducible apply good_ite
    | with_reducible apply State.engineFault1_keeps
    | with_reducible apply State.raise_keeps
    | (extract_lets +onlyGivenNames x
       first
         | (refine good_cut (q := q) x ?cv ?ck
            case' ck => (intro hx; clear_value x)
            case' cv => (unfold x; clear x))
         | (refine good_cut_fst (q := q) x ?cv ?ck
            case' ck => (intro hx; clear_value x)
            case' cv => (unfold x; clear x))
         | (refine good_cut_snd (q := q) x ?cv ?ck
            case' ck => (intro hx; clear_value x)
            case' cv => (unfold x; clear x))
         | skip)
    | split
    | with_reducible apply good_mk
    | with_reducible rfl

theorem State.engineFault_keeps {q : List Instr} (e : Nat) (cause : Nat) (detail : Nat) (resume : Nat) (s : State) (h : Good q s) : Good q (State.engineFault e cause detail resume s) := by
  unfold State.engineFault
  repeat' first
    | with_reducible assumption
    | intro _
    | with_reducible apply good_ite
    | with_reducible apply State.engineFaultAfter_keeps

theorem State.deviceFault_keeps {q : List Instr} (code : Nat) (s : State) (h : Good q s) : Good q (State.deviceFault code s) := by
  unfold State.deviceFault
  repeat' first
    | with_reducible assumption
    | intro _
    | with_reducible apply good_ite
    | with_reducible apply State.put_keeps
    | with_reducible apply State.logFault_keeps
    | with_reducible apply State.raise_keeps
    | with_reducible apply State.umbraEnter_keeps
    | (extract_lets +onlyGivenNames x
       first
         | (refine good_cut (q := q) x ?cv ?ck
            case' ck => (intro hx; clear_value x)
            case' cv => (unfold x; clear x))
         | (refine good_cut_fst (q := q) x ?cv ?ck
            case' ck => (intro hx; clear_value x)
            case' cv => (unfold x; clear x))
         | (refine good_cut_snd (q := q) x ?cv ?ck
            case' ck => (intro hx; clear_value x)
            case' cv => (unfold x; clear x))
         | skip)
    | split
    | with_reducible apply good_mk
    | with_reducible rfl

theorem State.taskEnd_keeps {q : List Instr} (n : Nat) (cause : Nat) (detail : Nat) (resume : Nat) (s : State) (h : Good q s) : Good q (State.taskEnd n cause detail resume s) := by
  unfold State.taskEnd
  repeat' first
    | with_reducible assumption
    | intro _
    | with_reducible apply good_ite
    | with_reducible apply State.put_keeps
    | with_reducible apply State.logFault_keeps
    | with_reducible apply State.upT_keeps
    | with_reducible apply State.reloadWork_keeps
    | with_reducible apply State.engIdle_keeps
    | with_reducible apply State.bump_keeps
    | (extract_lets +onlyGivenNames x
       first
         | (refine good_cut (q := q) x ?cv ?ck
            case' ck => (intro hx; clear_value x)
            case' cv => (unfold x; clear x))
         | (refine good_cut_fst (q := q) x ?cv ?ck
            case' ck => (intro hx; clear_value x)
            case' cv => (unfold x; clear x))
         | (refine good_cut_snd (q := q) x ?cv ?ck
            case' ck => (intro hx; clear_value x)
            case' cv => (unfold x; clear x))
         | skip)
    | split
    | with_reducible apply good_mk
    | with_reducible rfl

theorem State.taskFault_keeps {q : List Instr} (n : Nat) (cause : Nat) (detail : Nat) (resume : Nat) (s : State) (h : Good q s) : Good q (State.taskFault n cause detail resume s) := by
  unfold State.taskFault
  repeat' first
    | with_reducible assumption
    | intro _
    | with_reducible apply good_ite
    | with_reducible apply State.taskEnd_keeps
    | with_reducible apply State.engineFaultAfter_keeps
    | with_reducible apply State.raise_keeps
    | (extract_lets +onlyGivenNames x
       first
         | (refine good_cut (q := q) x ?cv ?ck
            case' ck => (intro hx; clear_value x)
            case' cv => (unfold x; clear x))
         | (refine good_cut_fst (q := q) x ?cv ?ck
            case' ck => (intro hx; clear_value x)
            case' cv => (unfold x; clear x))
         | (refine good_cut_snd (q := q) x ?cv ?ck
            case' ck => (intro hx; clear_value x)
            case' cv => (unfold x; clear x))
         | skip)
    | split

theorem State.clearLatches_keeps {q : List Instr} (l : List Nat) (s : State) (h : Good q s) : Good q (State.clearLatches l s) := by
  unfold State.clearLatches
  repeat' first
    | with_reducible assumption
    | intro _
    | with_reducible apply State.put_keeps
    | with_reducible apply good_forAll

theorem State.waitCommit_keeps {q : List Instr} (scope : Nat) (l : List Nat) (s : State) (h : Good q s) : Good q (State.waitCommit scope l s) := by
  unfold State.waitCommit
  repeat' first
    | with_reducible assumption
    | intro _
    | with_reducible apply good_ite
    | with_reducible apply good_ite_fst
    | with_reducible apply good_ite_snd
    | (extract_lets +onlyGivenNames x
       first
         | (refine good_cut (q := q) x ?cv ?ck
            case' ck => (intro hx; clear_value x)
            case' cv => (unfold x; clear x))
         | (refine good_cut_fst (q := q) x ?cv ?ck
            case' ck => (intro hx; clear_value x)
            case' cv => (unfold x; clear x))
         | (refine good_cut_snd (q := q) x ?cv ?ck
            case' ck => (intro hx; clear_value x)
            case' cv => (unfold x; clear x))
         | skip)
    | with_reducible apply good_mk
    | with_reducible rfl

theorem State.powerRelease_keeps {q : List Instr} (scope : Nat) (s : State) (h : Good q s) : Good q (State.powerRelease scope s) := by
  unfold State.powerRelease
  repeat' first
    | with_reducible assumption
    | intro _
    | with_reducible apply good_ite
    | with_reducible apply State.setUmbraFlag_keeps
    | with_reducible apply State.waitCommit_keeps
    | with_reducible apply State.put_keeps
    | with_reducible apply State.clearLatches_keeps
    | with_reducible apply State.bridgeOff_keeps
    | with_reducible apply State.raise_keeps
    | with_reducible apply State.chop_keeps
    | (extract_lets +onlyGivenNames x
       first
         | (refine good_cut (q := q) x ?cv ?ck
            case' ck => (intro hx; clear_value x)
            case' cv => (unfold x; clear x))
         | (refine good_cut_fst (q := q) x ?cv ?ck
            case' ck => (intro hx; clear_value x)
            case' cv => (unfold x; clear x))
         | (refine good_cut_snd (q := q) x ?cv ?ck
            case' ck => (intro hx; clear_value x)
            case' cv => (unfold x; clear x))
         | skip)
    | split
    | with_reducible apply good_mk
    | with_reducible rfl

theorem State.deviceLight_keeps {q : List Instr} (s : State) (h : Good q s) : Good q (State.deviceLight s) := by
  unfold State.deviceLight
  repeat' first
    | with_reducible assumption
    | intro _
    | with_reducible apply good_ite
    | with_reducible apply State.setUmbraFlag_keeps
    | with_reducible apply State.put_keeps
    | with_reducible apply State.engineReset_keeps
    | with_reducible apply State.waitCommit_keeps
    | with_reducible apply State.raise_keeps
    | with_reducible apply State.outRefresh_keeps
    | with_reducible apply good_forAll
    | (extract_lets +onlyGivenNames x
       first
         | (refine good_cut (q := q) x ?cv ?ck
            case' ck => (intro hx; clear_value x)
            case' cv => (unfold x; clear x))
         | (refine good_cut_fst (q := q) x ?cv ?ck
            case' ck => (intro hx; clear_value x)
            case' cv => (unfold x; clear x))
         | (refine good_cut_snd (q := q) x ?cv ?ck
            case' ck => (intro hx; clear_value x)
            case' cv => (unfold x; clear x))
         | skip)

theorem State.umbraRelease_keeps {q : List Instr} (scope : Nat) (s : State) (h : Good q s) : Good q (State.umbraRelease scope s) := by
  unfold State.umbraRelease
  repeat' first
    | with_reducible assumption
    | intro _
    | with_reducible apply good_ite
    | with_reducible apply State.put_keeps
    | with_reducible apply State.deviceLight_keeps
    | with_reducible apply State.powerRelease_keeps
    | with_reducible apply State.outRefresh_keeps
    | with_reducible apply State.setUmbraFlag_keeps
    | with_reducible apply State.putBit_keeps
    | with_reducible apply State.engineReset_keeps
    | with_reducible apply State.raise_keeps
    | with_reducible apply State.upT_keeps
    | with_reducible apply good_forAll
    | (extract_lets +onlyGivenNames x
       first
         | (refine good_cut (q := q) x ?cv ?ck
            case' ck => (intro hx; clear_value x)
            case' cv => (unfold x; clear x))
         | (refine good_cut_fst (q := q) x ?cv ?ck
            case' ck => (intro hx; clear_value x)
            case' cv => (unfold x; clear x))
         | (refine good_cut_snd (q := q) x ?cv ?ck
            case' ck => (intro hx; clear_value x)
            case' cv => (unfold x; clear x))
         | skip)
    | split
    | with_reducible apply good_mk
    | with_reducible rfl

theorem State.excEnter_keeps {q : List Instr} (scope : Nat) (s : State) (h : Good q s) : Good q (State.excEnter scope s) := by
  unfold State.excEnter
  repeat' first
    | with_reducible assumption
    | intro _
    | with_reducible apply good_ite
    | with_reducible apply State.deviceFault_keeps
    | with_reducible apply State.umbraEnter_keeps

theorem State.excRelease_keeps {q : List Instr} (scope : Nat) (s : State) (h : Good q s) : Good q (State.excRelease scope s) := by
  unfold State.excRelease
  repeat' first
    | with_reducible assumption
    | intro _
    | with_reducible apply good_ite
    | with_reducible apply State.put_keeps
    | (extract_lets +onlyGivenNames x
       first
         | (refine good_cut (q := q) x ?cv ?ck
            case' ck => (intro hx; clear_value x)
            case' cv => (unfold x; clear x))
         | (refine good_cut_fst (q := q) x ?cv ?ck
            case' ck => (intro hx; clear_value x)
            case' cv => (unfold x; clear x))
         | (refine good_cut_snd (q := q) x ?cv ?ck
            case' ck => (intro hx; clear_value x)
            case' cv => (unfold x; clear x))
         | skip)
    | with_reducible apply good_mk
    | split
    | with_reducible rfl

theorem State.excPenenter_keeps {q : List Instr} (scope : Nat) (s : State) (h : Good q s) : Good q (State.excPenenter scope s) := by
  unfold State.excPenenter
  repeat' first
    | with_reducible assumption
    | intro _
    | with_reducible apply good_ite
    | (extract_lets +onlyGivenNames x
       first
         | (refine good_cut (q := q) x ?cv ?ck
            case' ck => (intro hx; clear_value x)
            case' cv => (unfold x; clear x))
         | (refine good_cut_fst (q := q) x ?cv ?ck
            case' ck => (intro hx; clear_value x)
            case' cv => (unfold x; clear x))
         | (refine good_cut_snd (q := q) x ?cv ?ck
            case' ck => (intro hx; clear_value x)
            case' cv => (unfold x; clear x))
         | skip)
    | with_reducible apply good_mk
    | split
    | with_reducible rfl

theorem State.excPenleave_keeps {q : List Instr} (scope : Nat) (s : State) (h : Good q s) : Good q (State.excPenleave scope s) := by
  unfold State.excPenleave
  repeat' first
    | with_reducible assumption
    | intro _
    | with_reducible apply good_ite
    | (extract_lets +onlyGivenNames x
       first
         | (refine good_cut (q := q) x ?cv ?ck
            case' ck => (intro hx; clear_value x)
            case' cv => (unfold x; clear x))
         | (refine good_cut_fst (q := q) x ?cv ?ck
            case' ck => (intro hx; clear_value x)
            case' cv => (unfold x; clear x))
         | (refine good_cut_snd (q := q) x ?cv ?ck
            case' ck => (intro hx; clear_value x)
            case' cv => (unfold x; clear x))
         | skip)
    | with_reducible apply good_mk
    | split
    | with_reducible rfl

theorem opExcCmdEnter_keeps {q : List Instr} (scope : Nat) (s : State) (h : Good q s) : Good q (opExcCmdEnter scope s) := by
  unfold opExcCmdEnter
  repeat' first
    | with_reducible assumption
    | intro _
    | with_reducible apply State.control_keeps
    | with_reducible apply State.excEnter_keeps

theorem opExcCmdRelease_keeps {q : List Instr} (scope : Nat) (s : State) (h : Good q s) : Good q (opExcCmdRelease scope s) := by
  unfold opExcCmdRelease
  repeat' first
    | with_reducible assumption
    | intro _
    | with_reducible apply State.control_keeps
    | with_reducible apply State.excRelease_keeps

theorem opExcCmdPenenter_keeps {q : List Instr} (scope : Nat) (s : State) (h : Good q s) : Good q (opExcCmdPenenter scope s) := by
  unfold opExcCmdPenenter
  repeat' first
    | with_reducible assumption
    | intro _
    | with_reducible apply State.control_keeps
    | with_reducible apply State.excPenenter_keeps

theorem opExcCmdPenleave_keeps {q : List Instr} (scope : Nat) (s : State) (h : Good q s) : Good q (opExcCmdPenleave scope s) := by
  unfold opExcCmdPenleave
  repeat' first
    | with_reducible assumption
    | intro _
    | with_reducible apply State.control_keeps
    | with_reducible apply State.excPenleave_keeps

theorem opEngineWatchdogExpiry_keeps {q : List Instr} (e : Nat) (s : State) (h : Good q s) : Good q (opEngineWatchdogExpiry e s) := by
  unfold opEngineWatchdogExpiry
  repeat' first
    | with_reducible assumption
    | intro _
    | with_reducible apply good_ite
    | with_reducible apply State.upE_keeps
    | with_reducible apply State.advanceReal_keeps
    | with_reducible apply State.engineFault_keeps
    | with_reducible apply State.put_keeps
    | with_reducible apply State.engineReset_keeps
    | (extract_lets +onlyGivenNames x
       first
         | (refine good_cut (q := q) x ?cv ?ck
            case' ck => (intro hx; clear_value x)
            case' cv => (unfold x; clear x))
         | (refine good_cut_fst (q := q) x ?cv ?ck
            case' ck => (intro hx; clear_value x)
            case' cv => (unfold x; clear x))
         | (refine good_cut_snd (q := q) x ?cv ?ck
            case' ck => (intro hx; clear_value x)
            case' cv => (unfold x; clear x))
         | skip)
    | split
    | with_reducible apply good_mk
    | with_reducible rfl

theorem opSvWatchdogKick_keeps {q : List Instr} (v : Nat) (s : State) (h : Good q s) : Good q (opSvWatchdogKick v s) := by
  unfold opSvWatchdogKick
  repeat' first
    | with_reducible assumption
    | intro _
    | with_reducible apply good_ite
    | with_reducible apply State.put_keeps
    | (extract_lets +onlyGivenNames x
       first
         | (refine good_cut (q := q) x ?cv ?ck
            case' ck => (intro hx; clear_value x)
            case' cv => (unfold x; clear x))
         | (refine good_cut_fst (q := q) x ?cv ?ck
            case' ck => (intro hx; clear_value x)
            case' cv => (unfold x; clear x))
         | (refine good_cut_snd (q := q) x ?cv ?ck
            case' ck => (intro hx; clear_value x)
            case' cv => (unfold x; clear x))
         | skip)
    | split
    | with_reducible apply good_mk
    | with_reducible rfl

theorem opSvWatchdogExpiry_keeps {q : List Instr} (s : State) (h : Good q s) : Good q (opSvWatchdogExpiry s) := by
  unfold opSvWatchdogExpiry
  repeat' first
    | with_reducible assumption
    | intro _
    | with_reducible apply good_ite
    | with_reducible apply State.advanceReal_keeps
    | with_reducible apply State.deviceFault_keeps
    | split

theorem State.mirrorPair_keeps {q : List Instr} (f : Fam) (a : Nat) (b : Nat) (v : Bool) (s : State) (h : Good q s) : Good q (State.mirrorPair f a b v s) := by
  unfold State.mirrorPair
  repeat' first
    | with_reducible assumption
    | intro _
    | with_reducible apply good_ite
    | with_reducible apply State.put_keeps
    | with_reducible apply State.engineReset_keeps

theorem opMirrorWrite_keeps {q : List Instr} (m01 : Bool) (m23 : Bool) (s : State) (h : Good q s) : Good q (opMirrorWrite m01 m23 s) := by
  unfold opMirrorWrite
  repeat' first
    | with_reducible assumption
    | intro _
    | with_reducible apply good_ite
    | with_reducible apply State.put_keeps
    | with_reducible apply State.mirrorPair_keeps

end Sys2Proof.Machine
end

