-- ==== Sys2Proof/Laws/KeepsKeep.lean ====
section
/-! SUPPORT. Laws/KeepsKeep.lean: every operation of Machine/Keep.lean keeps `Good`. -/

namespace Sys2Proof.Machine

theorem State.wearUp_keeps {q : List Instr} (row : Nat) (s : State) (h : Good q s) : Good q (State.wearUp row s) := by
  unfold State.wearUp
  repeat' first
    | with_reducible assumption
    | intro _
    | with_reducible apply good_ite
    | with_reducible apply State.put_keeps
    | with_reducible apply State.warn_keeps
    | (extract_lets +onlyGivenNames x
       first
         | (refine good_cut (q := q) x ?cv ?ck
            case' ck => (intro hx; clear_value x)
            case' cv => (unfold x; clear x))
         | (refine good_cut_fst (q := q) x ?cv ?ck
            case' ck => (intro hx; clear_value x)
            case' cv => (unfold x; clear x))
         | (refine good_cut_snd (q := q) x ?cv ?ck
            case' ck => (intro hx; clear_value x)
            case' cv => (unfold x; clear x))
         | skip)
    | with_reducible apply good_mk
    | split
    | with_reducible rfl

theorem State.eraseRows_keeps {q : List Instr} (row : Nat) (n : Nat) (s : State) (h : Good q s) : Good q (State.eraseRows row n s) := by
  unfold State.eraseRows
  refine good_forAll (fun x s hs => State.wearUp_keeps _ _ hs) ?_
  exact ⟨h.queue, h.mem, h.back, h.work, h.nor, cellsWf_filter _ _ h.arr, h.snap, h.brick, h.fifo, h.logq, h.ram, h.farm⟩

theorem State.prog_keeps {q : List Instr} (o : Nat) (d : List Byte) (s : State) (h : Good q s) : Good q (State.prog o d s) := by
  unfold State.prog
  repeat' first
    | with_reducible assumption
    | intro _
    | with_reducible apply good_ite
    | with_reducible apply good_ite_fst
    | with_reducible apply good_ite_snd
    | with_reducible apply State.setArr_keeps
    | with_reducible apply good_forAll
    | (extract_lets +onlyGivenNames x
       first
         | (refine good_cut (q := q) x ?cv ?ck
            case' ck => (intro hx; clear_value x)
            case' cv => (unfold x; clear x))
         | (refine good_cut_fst (q := q) x ?cv ?ck
            case' ck => (intro hx; clear_value x)
            case' cv => (unfold x; clear x))
         | (refine good_cut_snd (q := q) x ?cv ?ck
            case' ck => (intro hx; clear_value x)
            case' cv => (unfold x; clear x))
         | skip)
    | split
    | with_reducible apply good_mk
    | with_reducible rfl

theorem State.rawServe_keeps {q : List Instr} (o : Nat) (d : List Byte) (s : State) (h : Good q s) : Good q (State.rawServe o d s) := by
  unfold State.rawServe
  repeat' first
    | with_reducible assumption
    | intro _
    | with_reducible apply State.wearUp_keeps
    | with_reducible apply State.setArr_keeps
    | with_reducible apply good_forAll

theorem State.retainWrite_keeps {q : List Instr} (k : Nat) (len : Bool) (v : Nat) (s : State) (h : Good q s) : Good q (State.retainWrite k len v s) := by
  unfold State.retainWrite
  repeat' first
    | with_reducible assumption
    | intro _
    | with_reducible apply good_ite
    | with_reducible apply State.put_keeps

theorem State.saveFailed_keeps {q : List Instr} (s : State) (h : Good q s) : Good q (State.saveFailed s) := by
  unfold State.saveFailed
  repeat' first
    | with_reducible assumption
    | intro _
    | with_reducible apply State.put_keeps
    | with_reducible apply State.raise_keeps

theorem State.saveRequest_keeps {q : List Instr} (s : State) (h : Good q s) : Good q (State.saveRequest s) := by
  unfold State.saveRequest
  repeat' first
    | with_reducible assumption
    | intro _
    | with_reducible apply good_ite
    | with_reducible apply State.put_keeps
    | with_reducible apply State.saveFailed_keeps
    | with_reducible apply State.keepPush_keeps

theorem State.stage_keeps {q : List Instr} (s : State) (h : Good q s) : Good q (State.stage s).1 := by
  unfold State.stage
  repeat' first
    | with_reducible assumption
    | intro _
    | with_reducible apply State.memRead_keeps
    | with_reducible apply good_foldl
    | with_reducible apply good_foldl_fst

theorem State.saveServe_keeps {q : List Instr} (st : List (Nat × Nat) × List Byte) (s : State) (h : Good q s) : Good q (State.saveServe st s) := by
  unfold State.saveServe
  repeat' first
    | with_reducible assumption
    | intro _
    | with_reducible apply good_ite
    | with_reducible apply good_ite_fst
    | with_reducible apply good_ite_snd
    | with_reducible apply State.prog_keeps
    | with_reducible apply State.put_keeps
    | with_reducible apply State.keepPush_keeps
    | with_reducible apply State.raise_keeps
    | (extract_lets +onlyGivenNames x
       first
         | (refine good_cut (q := q) x ?cv ?ck
            case' ck => (intro hx; clear_value x)
            case' cv => (unfold x; clear x))
         | (refine good_cut_fst (q := q) x ?cv ?ck
            case' ck => (intro hx; clear_value x)
            case' cv => (unfold x; clear x))
         | (refine good_cut_snd (q := q) x ?cv ?ck
            case' ck => (intro hx; clear_value x)
            case' cv => (unfold x; clear x))
         | skip)
    | split
    | with_reducible apply good_mk
    | with_reducible rfl

theorem State.bankErased_keeps {q : List Instr} (b : Nat) (s : State) (h : Good q s) : Good q (State.bankErased b s) := by
  unfold State.bankErased
  repeat' first
    | with_reducible assumption
    | intro _
    | with_reducible apply good_ite
    | with_reducible apply State.eraseRows_keeps
    | with_reducible apply State.put_keeps
    | (extract_lets +onlyGivenNames x
       first
         | (refine good_cut (q := q) x ?cv ?ck
            case' ck => (intro hx; clear_value x)
            case' cv => (unfold x; clear x))
         | (refine good_cut_fst (q := q) x ?cv ?ck
            case' ck => (intro hx; clear_value x)
            case' cv => (unfold x; clear x))
         | (refine good_cut_snd (q := q) x ?cv ?ck
            case' ck => (intro hx; clear_value x)
            case' cv => (unfold x; clear x))
         | skip)
    | split
    | with_reducible apply good_mk
    | with_reducible rfl

theorem State.retainRestore_keeps {q : List Instr} (s : State) (h : Good q s) : Good q (State.retainRestore s) := by
  unfold State.retainRestore
  refine good_ite h ?_
  dsimp only
  split
  · exact State.keepPush_keeps _ _ (State.warn_keeps _ _ _ (State.put_keeps _ _ _ _ _ h))
  · refine State.keepPush_keeps _ _ (State.put_keeps _ _ _ _ _ (State.put_keeps _ _ _ _ _ (good_foldl_fst (fun r x hr => ?_) h)))
    exact good_ite (State.storeWords_keeps _ _ _ _ hr) (State.warn_keeps _ _ _ (State.put_keeps _ _ _ _ _ hr))

theorem State.slotError_keeps {q : List Instr} (r : Nat) (s : State) (h : Good q s) : Good q (State.slotError r s) := by
  unfold State.slotError
  repeat' first
    | with_reducible assumption
    | intro _
    | with_reducible apply State.raise_keeps
    | (extract_lets +onlyGivenNames x
       first
         | (refine good_cut (q := q) x ?cv ?ck
            case' ck => (intro hx; clear_value x)
            case' cv => (unfold x; clear x))
         | (refine good_cut_fst (q := q) x ?cv ?ck
            case' ck => (intro hx; clear_value x)
            case' cv => (unfold x; clear x))
         | (refine good_cut_snd (q := q) x ?cv ?ck
            case' ck => (intro hx; clear_value x)
            case' cv => (unfold x; clear x))
         | skip)
    | with_reducible apply good_mk
    | with_reducible rfl

theorem State.ringServe_keeps {q : List Instr} (r : Nat) (v : Nat) (fail : Bool) (s : State) (h : Good q s) : Good q (State.ringServe r v fail s) := by
  unfold State.ringServe
  repeat' first
    | with_reducible assumption
    | intro _
    | with_reducible apply good_ite
    | with_reducible apply State.put_keeps
    | with_reducible apply State.slotError_keeps
    | with_reducible apply State.eraseRows_keeps
    | with_reducible apply State.prog_keeps
    | (extract_lets +onlyGivenNames x
       first
         | (refine good_cut (q := q) x ?cv ?ck
            case' ck => (intro hx; clear_value x)
            case' cv => (unfold x; clear x))
         | (refine good_cut_fst (q := q) x ?cv ?ck
            case' ck => (intro hx; clear_value x)
            case' cv => (unfold x; clear x))
         | (refine good_cut_snd (q := q) x ?cv ?ck
            case' ck => (intro hx; clear_value x)
            case' cv => (unfold x; clear x))
         | skip)
    | split
    | with_reducible apply good_mk
    | with_reducible rfl

theorem State.ringDefServe_keeps {q : List Instr} (r : Nat) (row : Nat) (n : Nat) (d : Nat) (fail : Bool) (s : State) (h : Good q s) : Good q (State.ringDefServe r row n d fail s) := by
  unfold State.ringDefServe
  repeat' first
    | with_reducible assumption
    | intro _
    | with_reducible apply good_ite
    | with_reducible apply State.eraseRows_keeps
    | with_reducible apply State.put_keeps
    | with_reducible apply State.prog_keeps
    | (extract_lets +onlyGivenNames x
       first
         | (refine good_cut (q := q) x ?cv ?ck
            case' ck => (intro hx; clear_value x)
            case' cv => (unfold x; clear x))
         | (refine good_cut_fst (q := q) x ?cv ?ck
            case' ck => (intro hx; clear_value x)
            case' cv => (unfold x; clear x))
         | (refine good_cut_snd (q := q) x ?cv ?ck
            case' ck => (intro hx; clear_value x)
            case' cv => (unfold x; clear x))
         | skip)
    | split
    | with_reducible apply good_mk
    | with_reducible rfl

theorem State.ringCmd_keeps {q : List Instr} (q_ : KeepReq) (s : State) (h : Good q s) : Good q (State.ringCmd q_ s) := by
  unfold State.ringCmd
  repeat' first
    | with_reducible assumption
    | intro _
    | with_reducible apply good_ite
    | with_reducible apply State.put_keeps
    | with_reducible apply State.keepPush_keeps

theorem opRingRead_keeps {q : List Instr} (r : Nat) (s : State) (h : Good q s) : Good q (opRingRead r s) := by
  unfold opRingRead
  repeat' first
    | with_reducible assumption
    | intro _
    | with_reducible apply good_ite
    | with_reducible apply State.put_keeps
    | with_reducible apply State.put64_keeps
    | (extract_lets +onlyGivenNames x
       first
         | (refine good_cut (q := q) x ?cv ?ck
            case' ck => (intro hx; clear_value x)
            case' cv => (unfold x; clear x))
         | (refine good_cut_fst (q := q) x ?cv ?ck
            case' ck => (intro hx; clear_value x)
            case' cv => (unfold x; clear x))
         | (refine good_cut_snd (q := q) x ?cv ?ck
            case' ck => (intro hx; clear_value x)
            case' cv => (unfold x; clear x))
         | skip)
    | split

theorem opRingWrite_keeps {q : List Instr} (r : Nat) (v : Nat) (s : State) (h : Good q s) : Good q (opRingWrite r v s) := by
  unfold opRingWrite
  repeat' first
    | with_reducible assumption
    | intro _
    | with_reducible apply good_ite
    | with_reducible apply State.put_keeps
    | with_reducible apply State.ringCmd_keeps

theorem opRingDefine_keeps {q : List Instr} (r : Nat) (row : Nat) (n : Nat) (d : Nat) (s : State) (h : Good q s) : Good q (opRingDefine r row n d s) := by
  unfold opRingDefine
  repeat' first
    | with_reducible assumption
    | intro _
    | with_reducible apply good_ite
    | with_reducible apply State.put_keeps
    | with_reducible apply State.ringCmd_keeps

theorem opRingUndefine_keeps {q : List Instr} (r : Nat) (s : State) (h : Good q s) : Good q (opRingUndefine r s) := by
  unfold opRingUndefine
  repeat' first
    | with_reducible assumption
    | intro _
    | with_reducible apply State.ringCmd_keeps

theorem State.scHeader_keeps {q : List Instr} (c : Nat) (g : Nat) (base : Nat) (gen : Nat) (s : State) (h : Good q s) : Good q (State.scHeader c g base gen s) := by
  unfold State.scHeader
  repeat' first
    | with_reducible assumption
    | intro _
    | with_reducible apply good_ite
    | with_reducible apply State.prog_keeps
    | with_reducible apply State.raise_keeps
    | (extract_lets +onlyGivenNames x
       first
         | (refine good_cut (q := q) x ?cv ?ck
            case' ck => (intro hx; clear_value x)
            case' cv => (unfold x; clear x))
         | (refine good_cut_fst (q := q) x ?cv ?ck
            case' ck => (intro hx; clear_value x)
            case' cv => (unfold x; clear x))
         | (refine good_cut_snd (q := q) x ?cv ?ck
            case' ck => (intro hx; clear_value x)
            case' cv => (unfold x; clear x))
         | skip)
    | split

theorem State.scBit_keeps {q : List Instr} (c : Nat) (g : Nat) (i : Nat) (s : State) (h : Good q s) : Good q (State.scBit c g i s) := by
  unfold State.scBit
  repeat' first
    | with_reducible assumption
    | intro _
    | with_reducible apply good_ite
    | with_reducible apply State.prog_keeps
    | (extract_lets +onlyGivenNames x
       first
         | (refine good_cut (q := q) x ?cv ?ck
            case' ck => (intro hx; clear_value x)
            case' cv => (unfold x; clear x))
         | (refine good_cut_fst (q := q) x ?cv ?ck
            case' ck => (intro hx; clear_value x)
            case' cv => (unfold x; clear x))
         | (refine good_cut_snd (q := q) x ?cv ?ck
            case' ck => (intro hx; clear_value x)
            case' cv => (unfold x; clear x))
         | skip)

theorem State.scErase_keeps {q : List Instr} (c : Nat) (g : Nat) (s : State) (h : Good q s) : Good q (State.scErase c g s) := by
  unfold State.scErase
  repeat' first
    | with_reducible assumption
    | intro _
    | with_reducible apply State.eraseRows_keeps

theorem State.scIncServe_keeps {q : List Instr} (c : Nat) (s : State) (h : Good q s) : Good q (State.scIncServe c s) := by
  unfold State.scIncServe
  repeat' first
    | with_reducible assumption
    | intro _
    | with_reducible apply State.scBit_keeps
    | with_reducible apply State.scHeader_keeps
    | with_reducible apply State.scErase_keeps
    | split

theorem State.scSetServe_keeps {q : List Instr} (c : Nat) (v : Nat) (s : State) (h : Good q s) : Good q (State.scSetServe c v s) := by
  unfold State.scSetServe
  repeat' first
    | with_reducible assumption
    | intro _
    | with_reducible apply State.scHeader_keeps
    | with_reducible apply State.scErase_keeps
    | split

theorem State.scCmd_keeps {q : List Instr} (q_ : KeepReq) (s : State) (h : Good q s) : Good q (State.scCmd q_ s) := by
  unfold State.scCmd
  repeat' first
    | with_reducible assumption
    | intro _
    | with_reducible apply good_ite
    | with_reducible apply State.put_keeps
    | with_reducible apply State.keepPush_keeps

theorem opScInc_keeps {q : List Instr} (c : Nat) (s : State) (h : Good q s) : Good q (opScInc c s) := by
  unfold opScInc
  repeat' first
    | with_reducible assumption
    | intro _
    | with_reducible apply State.scCmd_keeps

theorem opScSet_keeps {q : List Instr} (c : Nat) (v : Nat) (s : State) (h : Good q s) : Good q (opScSet c v s) := by
  unfold opScSet
  repeat' first
    | with_reducible assumption
    | intro _
    | with_reducible apply State.scCmd_keeps

theorem State.layRecs_keeps {q : List Instr} (base : Nat) (o : Nat) (l : List (List Byte)) (s : State) (h : Good q s) : Good q (State.layRecs base o l s) := by
  unfold State.layRecs
  repeat' first
    | with_reducible assumption
    | intro _
    | with_reducible apply good_ite
    | with_reducible apply good_ite_fst
    | with_reducible apply good_ite_snd
    | with_reducible apply State.prog_keeps
    | with_reducible apply good_foldl
    | with_reducible apply good_foldl_fst
    | with_reducible apply good_foldl_snd
    | (extract_lets +onlyGivenNames x
       first
         | (refine good_cut (q := q) x ?cv ?ck
            case' ck => (intro hx; clear_value x)
            case' cv => (unfold x; clear x))
         | (refine good_cut_fst (q := q) x ?cv ?ck
            case' ck => (intro hx; clear_value x)
            case' cv => (unfold x; clear x))
         | (refine good_cut_snd (q := q) x ?cv ?ck
            case' ck => (intro hx; clear_value x)
            case' cv => (unfold x; clear x))
         | skip)

theorem State.freshHalf_keeps {q : List Instr} (k5 : Bool) (y : Nat) (s : State) (h : Good q s) : Good q (State.freshHalf k5 y s) := by
  unfold State.freshHalf
  exact good_ite h (State.eraseRows_keeps _ _ _ h)

theorem State.recServe_keeps {q : List Instr} (k5 : Bool) (hdr : Nat) (d : List Byte) (fail : Nat) (s : State) (h : Good q s) : Good q (State.recServe k5 hdr d fail s).1 := by
  unfold State.recServe
  dsimp only
  repeat' first
    | with_reducible assumption
    | intro _
    | with_reducible apply good_ite
    | with_reducible apply good_ite_fst
    | with_reducible apply good_ite_snd
    | with_reducible apply State.layRecs_keeps
    | with_reducible apply State.eraseRows_keeps
    | with_reducible apply State.freshHalf_keeps
    | split

theorem State.keyStored_keeps {q : List Instr} (hdr : Nat) (s : State) (h : Good q s) : Good q (State.keyStored hdr s) := by
  unfold State.keyStored
  repeat' first
    | with_reducible assumption
    | intro _
    | with_reducible apply good_ite
    | with_reducible apply State.putBit_keeps

theorem State.storeServe_keeps {q : List Instr} (k5 : Bool) (hdr : Nat) (d : List Byte) (fail : Nat) (s : State) (h : Good q s) : Good q (State.storeServe k5 hdr d fail s) := by
  unfold State.storeServe
  repeat' first
    | with_reducible assumption
    | intro _
    | with_reducible apply good_ite
    | with_reducible apply good_ite_fst
    | with_reducible apply good_ite_snd
    | with_reducible apply State.recServe_keeps
    | with_reducible apply State.keyStored_keeps
    | with_reducible apply State.put_keeps
    | (extract_lets +onlyGivenNames x
       first
         | (refine good_cut (q := q) x ?cv ?ck
            case' ck => (intro hx; clear_value x)
            case' cv => (unfold x; clear x))
         | (refine good_cut_fst (q := q) x ?cv ?ck
            case' ck => (intro hx; clear_value x)
            case' cv => (unfold x; clear x))
         | (refine good_cut_snd (q := q) x ?cv ?ck
            case' ck => (intro hx; clear_value x)
            case' cv => (unfold x; clear x))
         | skip)
    | split

theorem State.keepStore_keeps {q : List Instr} (k5 : Bool) (key : Nat) (ver : Nat) (d : List Byte) (s : State) (h : Good q s) : Good q (State.keepStore k5 key ver d s).1 := by
  unfold State.keepStore
  repeat' first
    | with_reducible assumption
    | intro _
    | with_reducible apply good_ite
    | with_reducible apply good_ite_fst
    | with_reducible apply good_ite_snd
    | with_reducible apply State.keepPush_keeps
    | (extract_lets +onlyGivenNames x
       first
         | (refine good_cut (q := q) x ?cv ?ck
            case' ck => (intro hx; clear_value x)
            case' cv => (unfold x; clear x))
         | (refine good_cut_fst (q := q) x ?cv ?ck
            case' ck => (intro hx; clear_value x)
            case' cv => (unfold x; clear x))
         | (refine good_cut_snd (q := q) x ?cv ?ck
            case' ck => (intro hx; clear_value x)
            case' cv => (unfold x; clear x))
         | skip)
    | split

theorem State.keepWait_keeps {q : List Instr} (k5 : Bool) (key : Nat) (ver : Nat) (d : List Byte) (s : State) (h : Good q s) : Good q (State.keepWait k5 key ver d s) := by
  unfold State.keepWait
  repeat' first
    | with_reducible assumption
    | intro _
    | with_reducible apply good_ite
    | with_reducible apply good_ite_fst
    | with_reducible apply good_ite_snd
    | with_reducible apply State.keepStore_keeps
    | (extract_lets +onlyGivenNames x
       first
         | (refine good_cut (q := q) x ?cv ?ck
            case' ck => (intro hx; clear_value x)
            case' cv => (unfold x; clear x))
         | (refine good_cut_fst (q := q) x ?cv ?ck
            case' ck => (intro hx; clear_value x)
            case' cv => (unfold x; clear x))
         | (refine good_cut_snd (q := q) x ?cv ?ck
            case' ck => (intro hx; clear_value x)
            case' cv => (unfold x; clear x))
         | skip)
    | split
    | with_reducible apply good_mk
    | with_reducible rfl

theorem State.recCmd_keeps {q : List Instr} (k5 : Bool) (hdr : Nat) (d : List Byte) (s : State) (h : Good q s) : Good q (State.recCmd k5 hdr d s) := by
  unfold State.recCmd
  repeat' first
    | with_reducible assumption
    | intro _
    | with_reducible apply good_ite
    | with_reducible apply State.keepPush_keeps
    | with_reducible apply State.put_keeps
    | (extract_lets +onlyGivenNames x
       first
         | (refine good_cut (q := q) x ?cv ?ck
            case' ck => (intro hx; clear_value x)
            case' cv => (unfold x; clear x))
         | (refine good_cut_fst (q := q) x ?cv ?ck
            case' ck => (intro hx; clear_value x)
            case' cv => (unfold x; clear x))
         | (refine good_cut_snd (q := q) x ?cv ?ck
            case' ck => (intro hx; clear_value x)
            case' cv => (unfold x; clear x))
         | skip)
    | split

theorem opRecStore_keeps {q : List Instr} (k5 : Bool) (hdr : Nat) (d : List Byte) (s : State) (h : Good q s) : Good q (opRecStore k5 hdr d s) := by
  unfold opRecStore
  repeat' first
    | with_reducible assumption
    | intro _
    | with_reducible apply State.recCmd_keeps

theorem opRecDrop_keeps {q : List Instr} (k5 : Bool) (hdr : Nat) (s : State) (h : Good q s) : Good q (opRecDrop k5 hdr s) := by
  unfold opRecDrop
  repeat' first
    | with_reducible assumption
    | intro _
    | with_reducible apply State.recCmd_keeps

theorem opRecFind_keeps {q : List Instr} (k5 : Bool) (key : Nat) (s : State) (h : Good q s) : Good q (opRecFind k5 key s) := by
  unfold opRecFind
  repeat' first
    | with_reducible assumption
    | intro _
    | with_reducible apply State.put_keeps
    | (extract_lets +onlyGivenNames x
       first
         | (refine good_cut (q := q) x ?cv ?ck
            case' ck => (intro hx; clear_value x)
            case' cv => (unfold x; clear x))
         | (refine good_cut_fst (q := q) x ?cv ?ck
            case' ck => (intro hx; clear_value x)
            case' cv => (unfold x; clear x))
         | (refine good_cut_snd (q := q) x ?cv ?ck
            case' ck => (intro hx; clear_value x)
            case' cv => (unfold x; clear x))
         | skip)
    | with_reducible apply good_mk
    | with_reducible rfl

theorem State.putRecBuf_keeps {q : List Instr} (o : Nat) (d : List Byte) (s : State) (h : Good q s) : Good q (State.putRecBuf o d s) := by
  unfold State.putRecBuf
  repeat' first
    | with_reducible assumption
    | intro _
    | with_reducible apply good_ite
    | with_reducible apply good_ite_fst
    | with_reducible apply good_ite_snd
    | with_reducible apply State.bufStore_keeps
    | with_reducible apply State.put_keeps
    | with_reducible apply good_foldl
    | with_reducible apply good_foldl_fst
    | with_reducible apply good_foldl_snd
    | (extract_lets +onlyGivenNames x
       first
         | (refine good_cut (q := q) x ?cv ?ck
            case' ck => (intro hx; clear_value x)
            case' cv => (unfold x; clear x))
         | (refine good_cut_fst (q := q) x ?cv ?ck
            case' ck => (intro hx; clear_value x)
            case' cv => (unfold x; clear x))
         | (refine good_cut_snd (q := q) x ?cv ?ck
            case' ck => (intro hx; clear_value x)
            case' cv => (unfold x; clear x))
         | skip)
    | with_reducible apply good_mk
    | with_reducible rfl

theorem opRecFindComplete_keeps {q : List Instr} (s : State) (h : Good q s) : Good q (opRecFindComplete s) := by
  unfold opRecFindComplete
  repeat' first
    | with_reducible assumption
    | intro _
    | with_reducible apply good_ite
    | with_reducible apply State.put_keeps
    | with_reducible apply State.putRecBuf_keeps
    | (extract_lets +onlyGivenNames x
       first
         | (refine good_cut (q := q) x ?cv ?ck
            case' ck => (intro hx; clear_value x)
            case' cv => (unfold x; clear x))
         | (refine good_cut_fst (q := q) x ?cv ?ck
            case' ck => (intro hx; clear_value x)
            case' cv => (unfold x; clear x))
         | (refine good_cut_snd (q := q) x ?cv ?ck
            case' ck => (intro hx; clear_value x)
            case' cv => (unfold x; clear x))
         | skip)
    | split
    | with_reducible apply good_mk
    | with_reducible rfl

theorem opKeepUnlock_keeps {q : List Instr} (k : Nat) (write : Bool) (pw : Nat) (s : State) (h : Good q s) : Good q (opKeepUnlock k write pw s) := by
  unfold opKeepUnlock
  repeat' first
    | with_reducible assumption
    | intro _
    | with_reducible apply good_ite
    | with_reducible apply State.put_keeps
    | with_reducible apply State.putBit_keeps
    | with_reducible apply State.raise_keeps
    | (extract_lets +onlyGivenNames x
       first
         | (refine good_cut (q := q) x ?cv ?ck
            case' ck => (intro hx; clear_value x)
            case' cv => (unfold x; clear x))
         | (refine good_cut_fst (q := q) x ?cv ?ck
            case' ck => (intro hx; clear_value x)
            case' cv => (unfold x; clear x))
         | (refine good_cut_snd (q := q) x ?cv ?ck
            case' ck => (intro hx; clear_value x)
            case' cv => (unfold x; clear x))
         | skip)
    | with_reducible apply good_mk
    | split
    | with_reducible rfl

theorem opKeepRelock_keeps {q : List Instr} (k : Nat) (s : State) (h : Good q s) : Good q (opKeepRelock k s) := by
  unfold opKeepRelock
  repeat' first
    | with_reducible assumption
    | intro _
    | with_reducible apply good_ite
    | with_reducible apply State.putBit_keeps

theorem opPasswordBlockEnd_keeps {q : List Instr} (s : State) (h : Good q s) : Good q (opPasswordBlockEnd s) := by
  unfold opPasswordBlockEnd
  repeat' first
    | with_reducible assumption
    | intro _
    | with_reducible apply good_ite
    | with_reducible apply State.put_keeps
    | (extract_lets +onlyGivenNames x
       first
         | (refine good_cut (q := q) x ?cv ?ck
            case' ck => (intro hx; clear_value x)
            case' cv => (unfold x; clear x))
         | (refine good_cut_fst (q := q) x ?cv ?ck
            case' ck => (intro hx; clear_value x)
            case' cv => (unfold x; clear x))
         | (refine good_cut_snd (q := q) x ?cv ?ck
            case' ck => (intro hx; clear_value x)
            case' cv => (unfold x; clear x))
         | skip)
    | with_reducible apply good_mk
    | split
    | with_reducible rfl

theorem State.skipBad_keeps {q : List Instr} (y1 : Nat) (y2 : State) (h : Good q y2) : Good q (State.skipBad y1 y2) := by
  induction y1 generalizing y2 with
  | zero => exact h
  | succ k ih =>
    simp only [State.skipBad]
    exact good_ite (ih _ (State.put_keeps _ _ _ _ _ h)) h

theorem State.clearRow_keeps {q : List Instr} (next : Nat) (s : State) (h : Good q s) : Good q (State.clearRow next s) := by
  unfold State.clearRow
  repeat' first
    | with_reducible assumption
    | intro _
    | with_reducible apply good_ite
    | with_reducible apply good_ite_fst
    | with_reducible apply good_ite_snd
    | with_reducible apply State.eraseRows_keeps
    | with_reducible apply State.raise_keeps
    | (extract_lets +onlyGivenNames x
       first
         | (refine good_cut (q := q) x ?cv ?ck
            case' ck => (intro hx; clear_value x)
            case' cv => (unfold x; clear x))
         | (refine good_cut_fst (q := q) x ?cv ?ck
            case' ck => (intro hx; clear_value x)
            case' cv => (unfold x; clear x))
         | (refine good_cut_snd (q := q) x ?cv ?ck
            case' ck => (intro hx; clear_value x)
            case' cv => (unfold x; clear x))
         | skip)
    | split
    | with_reducible apply good_mk
    | with_reducible rfl

theorem State.putSlot_keeps {q : List Instr} (e : LogEntry) (s : State) (h : Good q s) : Good q (State.putSlot e s) := by
  unfold State.putSlot
  repeat' first
    | with_reducible assumption
    | intro _
    | with_reducible apply good_ite
    | with_reducible apply good_ite_fst
    | with_reducible apply good_ite_snd
    | with_reducible apply State.prog_keeps
    | with_reducible apply State.put_keeps
    | (extract_lets +onlyGivenNames x
       first
         | (refine good_cut (q := q) x ?cv ?ck
            case' ck => (intro hx; clear_value x)
            case' cv => (unfold x; clear x))
         | (refine good_cut_fst (q := q) x ?cv ?ck
            case' ck => (intro hx; clear_value x)
            case' cv => (unfold x; clear x))
         | (refine good_cut_snd (q := q) x ?cv ?ck
            case' ck => (intro hx; clear_value x)
            case' cv => (unfold x; clear x))
         | skip)
    | split
    | with_reducible apply good_mk
    | with_reducible rfl

theorem State.enterRow_keeps {q : List Instr} (l : List LogItem) (s : State) (h : Good q s) : Good q (State.enterRow l s).1 :=
  good_ite (State.clearRow_keeps _ _ h) h

theorem State.logWrite_keeps {q : List Instr} (n : Nat) (a b : Bool) (l : List LogItem) (s : State) (h : Good q s) : Good q (State.logWrite n a b l s) := by
  induction n generalizing a b l s with
  | zero => exact h
  | succ k ih =>
    match l with
    | [] => exact h
    | .erase next :: r => exact ih _ _ _ _ (State.clearRow_keeps _ _ h)
    | .put e :: r =>
      simp only [State.logWrite]
      have h1 := State.skipBad_keeps 256 _ h
      exact good_ite (ih _ _ _ _ (State.enterRow_keeps _ _ h1))
        (good_ite (ih _ _ _ _ (State.putSlot_keeps _ _ h1)) (ih _ _ _ _ (State.putSlot_keeps _ _ h1)))

/-- Marking entries as held only in RAM adds none. -/
theorem markHeld_length (n : Nat) (l : List LogEntry) : (markHeld n l).length = l.length := by
  unfold markHeld
  induction l with
  | nil => rfl
  | cons e r ih =>
    simp only [List.foldr_cons]
    split
    · simp [ih]
    · split <;> simp [ih]

theorem State.logFail_keeps {q : List Instr} (n : Nat) (s : State) (h : Good q s) : Good q (State.logFail n s) := by
  unfold State.logFail
  have h1 := good_log { s.log with queue := [], loose := 0, ram := markHeld n s.log.ram } h (Nat.zero_le _)
    (Nat.le_trans (Nat.le_of_eq (markHeld_length n s.log.ram)) h.ram)
  have h2 := State.raise_keeps 264 0 _ (State.put_keeps _ R.LOG_STAT_FAILED 1 0 0 h1)
  refine opLastWordCopy_keeps _ _ (State.put_keeps _ _ _ _ _ (State.put_keeps _ _ _ _ _ ?_))
  exact good_ite (State.rflSend_keeps _ _ _ _ h2) h2

theorem State.mapStore_keeps {q : List Instr} (s : State) (h : Good q s) : Good q (State.mapStore s) := by
  unfold State.mapStore
  repeat' first
    | with_reducible assumption
    | intro _
    | with_reducible apply good_ite
    | with_reducible apply State.keepWait_keeps
    | with_reducible apply good_foldl
    | with_reducible apply good_foldl_fst
    | with_reducible apply good_foldl_snd
    | (extract_lets +onlyGivenNames x
       first
         | (refine good_cut (q := q) x ?cv ?ck
            case' ck => (intro hx; clear_value x)
            case' cv => (unfold x; clear x))
         | (refine good_cut_fst (q := q) x ?cv ?ck
            case' ck => (intro hx; clear_value x)
            case' cv => (unfold x; clear x))
         | (refine good_cut_snd (q := q) x ?cv ?ck
            case' ck => (intro hx; clear_value x)
            case' cv => (unfold x; clear x))
         | skip)
    | split

theorem State.pageBad_keeps {q : List Instr} (s : State) (h : Good q s) : Good q (State.pageBad s) := by
  unfold State.pageBad
  repeat' first
    | with_reducible assumption
    | intro _
    | with_reducible apply good_ite
    | with_reducible apply State.mapStore_keeps
    | with_reducible apply State.raise_keeps
    | (extract_lets +onlyGivenNames x
       first
         | (refine good_cut (q := q) x ?cv ?ck
            case' ck => (intro hx; clear_value x)
            case' cv => (unfold x; clear x))
         | (refine good_cut_fst (q := q) x ?cv ?ck
            case' ck => (intro hx; clear_value x)
            case' cv => (unfold x; clear x))
         | (refine good_cut_snd (q := q) x ?cv ?ck
            case' ck => (intro hx; clear_value x)
            case' cv => (unfold x; clear x))
         | skip)
    | split
    | with_reducible apply good_mk
    | with_reducible rfl

theorem State.logServe_keeps {q : List Instr} (e : LogEntry) (fail : Nat) (s : State) (h : Good q s) : Good q (State.logServe e fail s) := by
  unfold State.logServe
  have h1 := State.qRead_keeps 12 s.logPending 0 16 s h
  have h2 := good_log { (s.qRead 12 s.logPending 0 16).log with outstanding := (s.qRead 12 s.logPending 0 16).log.outstanding - 1, failedOn := [] }
    h1 h1.logq h1.ram
  have h3 := good_forAll (l := List.range (min fail 3)) (fun _ s hs => State.pageBad_keeps _ (State.skipBad_keeps 256 s hs)) h2
  exact good_ite h2 (good_ite (State.logFail_keeps _ _ h3) (State.logWrite_keeps _ _ _ _ _ h3))

theorem State.keepLevel_keeps {q : List Instr} (s : State) (h : Good q s) : Good q (State.keepLevel s) := by
  unfold State.keepLevel
  repeat' first
    | with_reducible assumption
    | intro _
    | with_reducible apply State.put_keeps
    | with_reducible apply State.level_keeps

theorem State.keepSetHead_keeps {q : List Instr} (l : List KeepReq) (s : State) (h : Good q s) : Good q (State.keepSetHead l s) := by
  unfold State.keepSetHead
  repeat' first
    | with_reducible assumption
    | intro _
    | (extract_lets +onlyGivenNames x
       first
         | (refine good_cut (q := q) x ?cv ?ck
            case' ck => (intro hx; clear_value x)
            case' cv => (unfold x; clear x))
         | (refine good_cut_fst (q := q) x ?cv ?ck
            case' ck => (intro hx; clear_value x)
            case' cv => (unfold x; clear x))
         | (refine good_cut_snd (q := q) x ?cv ?ck
            case' ck => (intro hx; clear_value x)
            case' cv => (unfold x; clear x))
         | skip)
    | split
    | with_reducible apply good_mk
    | with_reducible rfl

theorem State.keepStart_keeps {q : List Instr} (s : State) (h : Good q s) : Good q (State.keepStart s) := by
  unfold State.keepStart
  repeat' first
    | with_reducible assumption
    | intro _
    | with_reducible apply State.stage_keeps
    | with_reducible apply State.keepSetHead_keeps
    | (extract_lets +onlyGivenNames x
       first
         | (refine good_cut (q := q) x ?cv ?ck
            case' ck => (intro hx; clear_value x)
            case' cv => (unfold x; clear x))
         | (refine good_cut_fst (q := q) x ?cv ?ck
            case' ck => (intro hx; clear_value x)
            case' cv => (unfold x; clear x))
         | (refine good_cut_snd (q := q) x ?cv ?ck
            case' ck => (intro hx; clear_value x)
            case' cv => (unfold x; clear x))
         | skip)
    | split

theorem State.keepEnter_keeps {q : List Instr} (l : List KeepReq) (s : State) (h : Good q s) : Good q (State.keepEnter l s) := by
  induction l generalizing s with
  | nil => exact good_mk h (Eq.refl _) (Eq.refl _) (Eq.refl _) (Eq.refl _) (Eq.refl _) (Eq.refl _)
  | cons r t ih =>
    simp only [State.keepEnter]
    exact good_ite (ih _ (State.keepPush_keeps _ _ h)) (good_mk h (Eq.refl _) (Eq.refl _) (Eq.refl _) (Eq.refl _) (Eq.refl _) (Eq.refl _))

theorem State.keepSettle_keeps {q : List Instr} (s : State) (h : Good q s) : Good q (State.keepSettle s) := by
  unfold State.keepSettle
  exact State.keepLevel_keeps _ (State.logDrain_keeps _ (State.keepStart_keeps _ (State.keepEnter_keeps _ _ h)))

/-- Whatever request is served, and however it ends. -/
theorem State.keepServe_keeps {q : List Instr} (r : KeepReq) (fail : Nat) (s : State) (h : Good q s) : Good q (State.keepServe r fail s) := by
  unfold State.keepServe
  repeat' first
    | with_reducible assumption
    | intro _
    | with_reducible apply good_ite
    | with_reducible apply State.rawServe_keeps
    | with_reducible apply State.ringServe_keeps
    | with_reducible apply State.ringDefServe_keeps
    | with_reducible apply State.eraseRows_keeps
    | with_reducible apply State.scIncServe_keeps
    | with_reducible apply State.put_keeps
    | with_reducible apply State.scSetServe_keeps
    | with_reducible apply State.storeServe_keeps
    | with_reducible apply State.saveServe_keeps
    | with_reducible apply State.saveFailed_keeps
    | with_reducible apply State.bankErased_keeps
    | with_reducible apply State.logServe_keeps
    | split

theorem State.keepRead_keeps {q : List Instr} (r : KeepReq) (s : State) (h : Good q s) : Good q (State.keepRead r s) := by
  unfold State.keepRead
  exact State.qRead_keeps _ _ _ _ _ h

theorem State.keepNext_keeps {q : List Instr} (fail : Nat) (s : State) (h : Good q s) : Good q (State.keepNext fail s) := by
  unfold State.keepNext
  split
  · exact h
  · exact State.keepSettle_keeps _ (State.keepServe_keeps _ _ _ (State.wrapUp_keeps _ _ _ (State.keepSetHead_keeps _ _ (State.keepRead_keeps _ _ h))))

theorem opKeepRequestServed_keeps {q : List Instr} (fail : Nat) (s : State) (h : Good q s) : Good q (opKeepRequestServed fail s) := by
  unfold opKeepRequestServed
  repeat' first
    | with_reducible assumption
    | intro _
    | with_reducible apply good_ite
    | with_reducible apply State.keepNext_keeps

theorem opRetainSaveComplete_keeps {q : List Instr} (s : State) (h : Good q s) : Good q (opRetainSaveComplete s) := by
  unfold opRetainSaveComplete
  repeat' first
    | with_reducible assumption
    | intro _
    | with_reducible apply good_ite
    | with_reducible apply State.keepNext_keeps
    | split

theorem opRetainBankEraseComplete_keeps {q : List Instr} (s : State) (h : Good q s) : Good q (opRetainBankEraseComplete s) := by
  unfold opRetainBankEraseComplete
  repeat' first
    | with_reducible assumption
    | intro _
    | with_reducible apply good_ite
    | with_reducible apply State.keepNext_keeps
    | split

theorem opKeepSave_keeps {q : List Instr} (s : State) (h : Good q s) : Good q (opKeepSave s) := by
  unfold opKeepSave
  repeat' first
    | with_reducible assumption
    | intro _
    | with_reducible apply State.keepSettle_keeps
    | with_reducible apply State.saveRequest_keeps

theorem State.windowWrite_keeps {q : List Instr} (a : Nat) (d : List Byte) (s : State) (h : Good q s) : Good q (State.windowWrite a d s).1 := by
  unfold State.windowWrite
  repeat' first
    | with_reducible assumption
    | intro _
    | with_reducible apply good_ite
    | with_reducible apply good_ite_fst
    | with_reducible apply good_ite_snd
    | with_reducible apply State.put_keeps
    | with_reducible apply State.keepSettle_keeps
    | with_reducible apply State.keepPush_keeps

theorem opKeepWindowWrite_keeps {q : List Instr} (a : Nat) (d : List Byte) (s : State) (h : Good q s) : Good q (opKeepWindowWrite a d s) := by
  unfold opKeepWindowWrite
  repeat' first
    | with_reducible assumption
    | intro _
    | with_reducible apply good_ite
    | with_reducible apply good_ite_fst
    | with_reducible apply good_ite_snd
    | with_reducible apply State.windowWrite_keeps

theorem State.scramble_keeps {q : List Instr} (o : Nat) (n : Nat) (s : State) (h : Good q s) : Good q (State.scramble o n s) := by
  unfold State.scramble
  repeat' first
    | with_reducible assumption
    | intro _
    | with_reducible apply State.free_keeps
    | with_reducible apply State.setArr_keeps
    | with_reducible apply good_forAll

/-- How a request is cut off is no tracked part. -/
theorem good_keepCut {q : List Instr} (c : Option (Nat × Nat)) (s : State) (h : Good q s) : Good q { s with keep := { s.keep with cut := c } } :=
  good_mk h (Eq.refl _) (Eq.refl _) (Eq.refl _) (Eq.refl _) (Eq.refl _) (Eq.refl _)

theorem State.keepAbandon_keeps {q : List Instr} (w : Nat) (s : State) (h : Good q s) : Good q (State.keepAbandon w s) := by
  unfold State.keepAbandon
  split
  · exact h
  · have h1 := State.wrapUp_keeps _ R.KEEP_WSEQ_N 0 (State.keepSetHead_keeps [] _ h)
    dsimp only
    split
    · exact good_forAll (fun r s hs => State.scramble_keeps _ _ s hs) h1
    · have h2 (r : KeepReq) (c : Option (Nat × Nat)) :=
        good_keepCut none _ (State.keepServe_keeps r 0 _ (good_keepCut c _ (State.free_keeps _ h1)))
      split
      · exact good_ite (State.eraseRows_keeps _ _ _ (h2 _ _)) (h2 _ _)
      · exact good_ite (State.eraseRows_keeps _ _ _ (h2 _ _)) (h2 _ _)
      · exact h2 _ _

theorem State.keepWarning_keeps {q : List Instr} (s : State) (h : Good q s) : Good q (State.keepWarning s) := by
  unfold State.keepWarning
  repeat' first
    | with_reducible assumption
    | intro _
    | with_reducible apply good_ite
    | with_reducible apply State.keepAbandon_keeps
    | with_reducible apply State.saveRequest_keeps
    | (extract_lets +onlyGivenNames x
       first
         | (refine good_cut (q := q) x ?cv ?ck
            case' ck => (intro hx; clear_value x)
            case' cv => (unfold x; clear x))
         | (refine good_cut_fst (q := q) x ?cv ?ck
            case' ck => (intro hx; clear_value x)
            case' cv => (unfold x; clear x))
         | (refine good_cut_snd (q := q) x ?cv ?ck
            case' ck => (intro hx; clear_value x)
            case' cv => (unfold x; clear x))
         | skip)
    | split
    | with_reducible apply good_mk
    | with_reducible rfl

theorem State.keepWarningEnd_keeps {q : List Instr} (s : State) (h : Good q s) : Good q (State.keepWarningEnd s) := by
  unfold State.keepWarningEnd
  repeat' first
    | with_reducible assumption
    | intro _
    | with_reducible apply State.keepSettle_keeps
    | (extract_lets +onlyGivenNames x
       first
         | (refine good_cut (q := q) x ?cv ?ck
            case' ck => (intro hx; clear_value x)
            case' cv => (unfold x; clear x))
         | (refine good_cut_fst (q := q) x ?cv ?ck
            case' ck => (intro hx; clear_value x)
            case' cv => (unfold x; clear x))
         | (refine good_cut_snd (q := q) x ?cv ?ck
            case' ck => (intro hx; clear_value x)
            case' cv => (unfold x; clear x))
         | skip)
    | with_reducible apply good_mk
    | with_reducible rfl

theorem State.recallLog_keeps {q : List Instr} (s : State) (h : Good q s) : Good q (State.recallLog s) := by
  unfold State.recallLog
  have hl (l : LogSt) (t : State) (ht : Good q t) (h1 : l.queue = t.log.queue) (h2 : l.ram = t.log.ram) : Good q { t with log := l } :=
    good_log l ht (h1 ▸ ht.logq) (h2 ▸ ht.ram)
  extract_lets bad s0 s1 hd s2 pins s3 s4
  have h3 : Good q s4 := hl _ s2 (State.put_keeps _ _ _ _ _ (State.put_keeps _ _ _ _ _ (hl _ s h (Eq.refl _) (Eq.refl _)))) (Eq.refl _) (Eq.refl _)
  exact good_ite (State.logFail_keeps _ _ h3) h3

theorem State.recallKeys_keeps {q : List Instr} (s : State) (h : Good q s) : Good q (State.recallKeys s) := by
  unfold State.recallKeys
  repeat' first
    | with_reducible assumption
    | intro _
    | with_reducible apply State.put_keeps
    | with_reducible apply State.putBit_keeps
    | with_reducible apply good_forAll
    | (extract_lets +onlyGivenNames x
       first
         | (refine good_cut (q := q) x ?cv ?ck
            case' ck => (intro hx; clear_value x)
            case' cv => (unfold x; clear x))
         | (refine good_cut_fst (q := q) x ?cv ?ck
            case' ck => (intro hx; clear_value x)
            case' cv => (unfold x; clear x))
         | (refine good_cut_snd (q := q) x ?cv ?ck
            case' ck => (intro hx; clear_value x)
            case' cv => (unfold x; clear x))
         | skip)
    | split
    | with_reducible apply good_mk
    | with_reducible rfl

theorem State.eraseUnsealed_keeps {q : List Instr} (s : State) (h : Good q s) : Good q (State.eraseUnsealed s) := by
  unfold State.eraseUnsealed
  repeat' first
    | with_reducible assumption
    | intro _
    | with_reducible apply good_ite
    | with_reducible apply good_ite_fst
    | with_reducible apply good_ite_snd
    | with_reducible apply State.eraseRows_keeps
    | with_reducible apply good_forAll

theorem State.recallWear_keeps {q : List Instr} (s : State) (h : Good q s) : Good q (State.recallWear s) := by
  unfold State.recallWear
  repeat' first
    | with_reducible assumption
    | intro _
    | with_reducible apply good_ite
    | with_reducible apply good_ite_fst
    | with_reducible apply good_ite_snd
    | with_reducible apply State.put_keeps
    | with_reducible apply State.warn_keeps
    | with_reducible apply good_forAll
    | with_reducible apply good_foldl
    | with_reducible apply good_foldl_fst
    | with_reducible apply good_foldl_snd
    | (extract_lets +onlyGivenNames x
       first
         | (refine good_cut (q := q) x ?cv ?ck
            case' ck => (intro hx; clear_value x)
            case' cv => (unfold x; clear x))
         | (refine good_cut_fst (q := q) x ?cv ?ck
            case' ck => (intro hx; clear_value x)
            case' cv => (unfold x; clear x))
         | (refine good_cut_snd (q := q) x ?cv ?ck
            case' ck => (intro hx; clear_value x)
            case' cv => (unfold x; clear x))
         | skip)
    | split

theorem opKeepRecallComplete_keeps {q : List Instr} (s : State) (h : Good q s) : Good q (opKeepRecallComplete s) := by
  unfold opKeepRecallComplete
  repeat' first
    | with_reducible assumption
    | intro _
    | with_reducible apply good_ite
    | with_reducible apply good_ite_fst
    | with_reducible apply good_ite_snd
    | with_reducible apply State.put_keeps
    | with_reducible apply State.logFail_keeps
    | with_reducible apply State.recallKeys_keeps
    | with_reducible apply State.recallWear_keeps
    | with_reducible apply State.eraseUnsealed_keeps
    | with_reducible apply State.recallLog_keeps
    | with_reducible apply good_foldl
    | with_reducible apply good_foldl_fst
    | with_reducible apply good_foldl_snd
    | split
    | with_reducible apply good_mk
    | (extract_lets +onlyGivenNames x
       first
         | (refine good_cut (q := q) x ?cv ?ck
            case' ck => (intro hx; clear_value x)
            case' cv => (unfold x; clear x))
         | (refine good_cut_fst (q := q) x ?cv ?ck
            case' ck => (intro hx; clear_value x)
            case' cv => (unfold x; clear x))
         | (refine good_cut_snd (q := q) x ?cv ?ck
            case' ck => (intro hx; clear_value x)
            case' cv => (unfold x; clear x))
         | skip)
    | with_reducible rfl
    | rfl

theorem State.keepOwed_keeps {q : List Instr} (s : State) (h : Good q s) : Good q (State.keepOwed s) := by
  unfold State.keepOwed
  repeat' first
    | with_reducible assumption
    | intro _
    | with_reducible apply State.raise_keeps
    | with_reducible apply good_forAll
    | (extract_lets +onlyGivenNames x
       first
         | (refine good_cut (q := q) x ?cv ?ck
            case' ck => (intro hx; clear_value x)
            case' cv => (unfold x; clear x))
         | (refine good_cut_fst (q := q) x ?cv ?ck
            case' ck => (intro hx; clear_value x)
            case' cv => (unfold x; clear x))
         | (refine good_cut_snd (q := q) x ?cv ?ck
            case' ck => (intro hx; clear_value x)
            case' cv => (unfold x; clear x))
         | skip)
    | with_reducible apply good_mk
    | with_reducible rfl

theorem State.keepCtl_keeps {q : List Instr} (v : Nat) (s : State) (h : Good q s) : Good q (State.keepCtl v s) := by
  unfold State.keepCtl
  repeat' first
    | with_reducible assumption
    | intro _
    | with_reducible apply good_ite
    | with_reducible apply good_ite_fst
    | with_reducible apply good_ite_snd
    | with_reducible apply State.put_keeps
    | with_reducible apply State.keepStore_keeps
    | with_reducible apply State.keepSettle_keeps
    | with_reducible apply State.saveRequest_keeps

theorem opLogAppend_keeps {q : List Instr} (code : Nat) (data : Nat) (cls : Nat) (pin : Bool) (s : State) (h : Good q s) : Good q (opLogAppend code data cls pin s) := by
  unfold opLogAppend
  repeat' first
    | with_reducible assumption
    | intro _
    | with_reducible apply good_ite
    | with_reducible apply State.put_keeps
    | with_reducible apply State.logAdd_keeps
    | split

theorem opLogUnpin_keeps {q : List Instr} (s : State) (h : Good q s) : Good q (opLogUnpin s) := by
  unfold opLogUnpin
  repeat' first
    | with_reducible assumption
    | intro _
    | with_reducible apply good_ite
    | with_reducible apply good_mk
    | with_reducible rfl

theorem opLogClrbad_keeps {q : List Instr} (good : List Nat) (s : State) (h : Good q s) : Good q (opLogClrbad good s) := by
  unfold opLogClrbad
  repeat' first
    | with_reducible assumption
    | intro _
    | with_reducible apply good_ite
    | with_reducible apply State.put_keeps
    | with_reducible apply State.logWrite_keeps
    | with_reducible apply State.clearRow_keeps
    | with_reducible apply State.mapStore_keeps
    | with_reducible apply State.logMsg_keeps
    | with_reducible apply State.keepSettle_keeps
    | with_reducible apply good_forAll
    | split
    | with_reducible apply good_mk
    | (extract_lets +onlyGivenNames x
       first
         | (refine good_cut (q := q) x ?cv ?ck
            case' ck => (intro hx; clear_value x)
            case' cv => (unfold x; clear x))
         | (refine good_cut_fst (q := q) x ?cv ?ck
            case' ck => (intro hx; clear_value x)
            case' cv => (unfold x; clear x))
         | (refine good_cut_snd (q := q) x ?cv ?ck
            case' ck => (intro hx; clear_value x)
            case' cv => (unfold x; clear x))
         | skip)
    | with_reducible rfl
    | rfl

theorem State.keepOpen_keeps {q : List Instr} (s : State) (op : State → State) (hfop : ∀ x0, Good q x0 → Good q (op x0)) (h : Good q s) : Good q (State.keepOpen s op) := by
  unfold State.keepOpen
  repeat' first
    | with_reducible assumption
    | intro _
    | with_reducible apply good_ite
    | with_reducible apply hfop
    | split

theorem State.logOpen_keeps {q : List Instr} (s : State) (op : State → State) (hfop : ∀ x0, Good q x0 → Good q (op x0)) (h : Good q s) : Good q (State.logOpen s op) := by
  unfold State.logOpen
  repeat' first
    | with_reducible assumption
    | intro _
    | with_reducible apply good_ite
    | with_reducible apply hfop
    | split

end Sys2Proof.Machine
end

