-- ==== Sys2Proof/Laws/KeepsUnits.lean ====
section
/-! SUPPORT. Laws/KeepsUnits.lean: every operation of Machine/Units.lean keeps `Good`. -/

namespace Sys2Proof.Machine

theorem good_ite_s {q : List Instr} {c : Prop} [Decidable c] {a b : Trig} (ha : Good q a.s) (hb : Good q b.s) :
    Good q (if c then a else b).s := by
  split
  · exact ha
  · exact hb

theorem good_trig {q : List Instr} {s : State} {l : List Ctl} {b : Option (Nat × Nat)} (h : Good q s) : Good q (Trig.mk s l b).s := h

theorem okT_keeps {q : List Instr} (s : State) (h : Good q s) : Good q (okT s).s := by
  unfold okT
  repeat' first
    | with_reducible assumption

theorem badT_keeps {q : List Instr} (s : State) (c : Nat) (d : Nat) (h : Good q s) : Good q (badT s c d).s := by
  unfold badT
  repeat' first
    | with_reducible assumption

theorem State.setAcc_keeps {q : List Instr} (e : Nat) (a : Bool) (s : State) (h : Good q s) : Good q (State.setAcc e a s) := by
  unfold State.setAcc
  repeat' first
    | with_reducible assumption
    | intro _
    | with_reducible apply State.upE_keeps

theorem State.imgRead_keeps {q : List Instr} (e : Nat) (o : Nat) (n : Nat) (s : State) (h : Good q s) : Good q (State.imgRead e o n s).1 := by
  unfold State.imgRead
  repeat' first
    | with_reducible assumption
    | intro _
    | with_reducible apply good_ite
    | with_reducible apply good_ite_fst
    | with_reducible apply good_ite_snd
    | with_reducible apply State.eccRead_keeps
    | with_reducible apply good_foldl
    | with_reducible apply good_foldl_fst
    | with_reducible apply good_foldl_snd
    | (extract_lets +onlyGivenNames x
       first
         | (refine good_cut (q := q) x ?cv ?ck
            case' ck => (intro hx; clear_value x)
            case' cv => (unfold x; clear x))
         | (refine good_cut_fst (q := q) x ?cv ?ck
            case' ck => (intro hx; clear_value x)
            case' cv => (unfold x; clear x))
         | (refine good_cut_snd (q := q) x ?cv ?ck
            case' ck => (intro hx; clear_value x)
            case' cv => (unfold x; clear x))
         | skip)
    | split

theorem State.imgPut_keeps {q : List Instr} (e : Nat) (o : Nat) (l : List Byte) (s : State) (h : Good q s) : Good q (State.imgPut e o l s).1 := by
  unfold State.imgPut
  repeat' first
    | with_reducible assumption
    | intro _
    | with_reducible apply good_ite
    | with_reducible apply good_ite_fst
    | with_reducible apply good_ite_snd
    | with_reducible apply State.eccWrite_keeps
    | (extract_lets +onlyGivenNames x
       first
         | (refine good_cut (q := q) x ?cv ?ck
            case' ck => (intro hx; clear_value x)
            case' cv => (unfold x; clear x))
         | (refine good_cut_fst (q := q) x ?cv ?ck
            case' ck => (intro hx; clear_value x)
            case' cv => (unfold x; clear x))
         | (refine good_cut_snd (q := q) x ?cv ?ck
            case' ck => (intro hx; clear_value x)
            case' cv => (unfold x; clear x))
         | skip)

theorem State.buBit_keeps {q : List Instr} (e : Nat) (p : Nat) (v : Nat) (s : State) (h : Good q s) : Good q (State.buBit e p v s).s := by
  unfold State.buBit
  split
  · exact badT_keeps _ _ _ h
  · next o _ =>
    extract_lets w r s byte k m x write
    refine good_ite_s (badT_keeps _ _ _ h) ?_
    have hs : Good q s := State.imgRead_keeps _ _ _ _ h
    split
    · exact badT_keeps _ _ _ hs
    · clear_value s
      have hw : ∀ b t, Good q t → Good q (write b t).s := by
        intro b t ht
        have h1 := State.imgPut_keeps e o (bitSet byte k b) t ht
        dsimp only [write]
        generalize t.imgPut e o (bitSet byte k b) = u at h1
        split
        · exact badT_keeps _ _ _ h1
        · exact okT_keeps _ h1
      have ha : ∀ b, Good q (s.setAcc e b) := fun b => State.setAcc_keeps _ _ _ hs
      clear_value write
      repeat' first
        | exact hw _ _ hs
        | exact hw _ _ (ha _)
        | exact okT_keeps _ hs
        | exact okT_keeps _ (ha _)
        | apply good_ite_s

theorem State.buStack_keeps {q : List Instr} (e : Nat) (p : Nat) (v : Nat) (s : State) (h : Good q s) : Good q (State.buStack e p v s).s := by
  unfold State.buStack
  repeat' first
    | with_reducible assumption
    | intro _
    | with_reducible apply good_ite
    | with_reducible apply good_ite_s
    | with_reducible apply good_ite_fst
    | with_reducible apply good_ite_snd
    | with_reducible apply badT_keeps
    | with_reducible apply okT_keeps
    | with_reducible apply State.setAcc_keeps
    | with_reducible apply State.upE_keeps
    | (extract_lets +onlyGivenNames x
       first
         | (refine good_cut (q := q) x ?cv ?ck
            case' ck => (intro hx; clear_value x)
            case' cv => (unfold x; clear x))
         | (refine good_cut_fst (q := q) x ?cv ?ck
            case' ck => (intro hx; clear_value x)
            case' cv => (unfold x; clear x))
         | (refine good_cut_snd (q := q) x ?cv ?ck
            case' ck => (intro hx; clear_value x)
            case' cv => (unfold x; clear x))
         | skip)
    | split

theorem State.alu_keeps {q : List Instr} (e : Nat) (p : Nat) (v : Nat) (s : State) (h : Good q s) : Good q (State.alu e p v s).s := by
  unfold State.alu
  repeat' first
    | with_reducible assumption
    | intro _
    | with_reducible apply good_ite
    | with_reducible apply good_ite_fst
    | with_reducible apply good_ite_snd
    | with_reducible apply State.free_keeps
    | with_reducible apply okT_keeps
    | with_reducible apply State.fly_keeps

theorem State.cmp_keeps {q : List Instr} (e : Nat) (p : Nat) (v : Nat) (s : State) (h : Good q s) : Good q (State.cmp e p v s).s := by
  unfold State.cmp
  repeat' first
    | with_reducible assumption
    | intro _
    | with_reducible apply good_ite
    | with_reducible apply good_ite_s
    | with_reducible apply good_ite_fst
    | with_reducible apply good_ite_snd
    | with_reducible apply okT_keeps
    | with_reducible apply State.setAcc_keeps
    | with_reducible apply State.fly_keeps

theorem State.mul_keeps {q : List Instr} (e : Nat) (p : Nat) (v : Nat) (s : State) (h : Good q s) : Good q (State.mul e p v s).s := by
  unfold State.mul
  repeat' first
    | with_reducible assumption
    | intro _
    | with_reducible apply okT_keeps
    | with_reducible apply State.fly_keeps

theorem State.div_keeps {q : List Instr} (e : Nat) (p : Nat) (v : Nat) (s : State) (h : Good q s) : Good q (State.div e p v s).s := by
  unfold State.div
  repeat' first
    | with_reducible assumption
    | intro _
    | with_reducible apply okT_keeps
    | with_reducible apply State.fly_keeps

theorem State.fpu_keeps {q : List Instr} (e : Nat) (p : Nat) (v : Nat) (s : State) (h : Good q s) : Good q (State.fpu e p v s).s := by
  unfold State.fpu
  repeat' first
    | with_reducible assumption
    | intro _
    | with_reducible apply good_ite
    | with_reducible apply good_ite_s
    | with_reducible apply okT_keeps
    | with_reducible apply State.fly_keeps
    | (extract_lets +onlyGivenNames x
       first
         | (refine good_cut (q := q) x ?cv ?ck
            case' ck => (intro hx; clear_value x)
            case' cv => (unfold x; clear x))
         | (refine good_cut_fst (q := q) x ?cv ?ck
            case' ck => (intro hx; clear_value x)
            case' cv => (unfold x; clear x))
         | (refine good_cut_snd (q := q) x ?cv ?ck
            case' ck => (intro hx; clear_value x)
            case' cv => (unfold x; clear x))
         | skip)
    | split

theorem State.tmr_keeps {q : List Instr} (e : Nat) (p : Nat) (v : Nat) (s : State) (h : Good q s) : Good q (State.tmr e p v s).s := by
  unfold State.tmr
  repeat' first
    | with_reducible assumption
    | intro _
    | with_reducible apply good_ite
    | with_reducible apply good_ite_s
    | with_reducible apply good_ite_fst
    | with_reducible apply good_ite_snd
    | with_reducible apply okT_keeps
    | with_reducible apply State.upE_keeps
    | with_reducible apply badT_keeps
    | with_reducible apply State.fly_keeps

theorem State.nearLoad_keeps {q : List Instr} (e : Nat) (a : Nat) (n : Nat) (s : State) (h : Good q s) : Good q (State.nearLoad e a n s).1 := by
  unfold State.nearLoad
  repeat' first
    | with_reducible assumption
    | intro _
    | with_reducible apply good_ite
    | with_reducible apply good_ite_fst
    | with_reducible apply good_ite_snd
    | with_reducible apply State.check_keeps
    | with_reducible apply State.memRead_keeps

theorem State.nearStore_keeps {q : List Instr} (e : Nat) (a : Nat) (n : Nat) (v : Nat) (s : State) (h : Good q s) : Good q (State.nearStore e a n v s).1 := by
  unfold State.nearStore
  repeat' first
    | with_reducible assumption
    | intro _
    | with_reducible apply good_ite
    | with_reducible apply good_ite_fst
    | with_reducible apply good_ite_snd
    | with_reducible apply State.check_keeps
    | with_reducible apply State.memWrite_keeps

theorem State.farGo_keeps {q : List Instr} (e : Nat) (a : Nat) (n : Nat) (store : Bool) (signed : Bool) (v : Nat) (s : State) (h : Good q s) : Good q (State.farGo e a n store signed v s) := by
  unfold State.farGo
  repeat' first
    | with_reducible assumption
    | intro _
    | with_reducible apply good_ite
    | with_reducible apply good_ite_fst
    | with_reducible apply good_ite_snd
    | with_reducible apply State.put_keeps
    | with_reducible apply State.fly_keeps
    | (extract_lets +onlyGivenNames x
       first
         | (refine good_cut (q := q) x ?cv ?ck
            case' ck => (intro hx; clear_value x)
            case' cv => (unfold x; clear x))
         | (refine good_cut_fst (q := q) x ?cv ?ck
            case' ck => (intro hx; clear_value x)
            case' cv => (unfold x; clear x))
         | (refine good_cut_snd (q := q) x ?cv ?ck
            case' ck => (intro hx; clear_value x)
            case' cv => (unfold x; clear x))
         | skip)
    | split
    | with_reducible apply good_mk
    | with_reducible rfl

theorem State.lsu_keeps {q : List Instr} (e : Nat) (p : Nat) (v : Nat) (s : State) (h : Good q s) : Good q (State.lsu e p v s).s := by
  unfold State.lsu
  repeat' first
    | with_reducible assumption
    | intro _
    | with_reducible apply good_ite
    | with_reducible apply good_ite_s
    | with_reducible apply good_ite_fst
    | with_reducible apply good_ite_snd
    | with_reducible apply badT_keeps
    | with_reducible apply State.nearStore_keeps
    | with_reducible apply State.nearLoad_keeps
    | with_reducible apply okT_keeps
    | with_reducible apply State.fly_keeps
    | with_reducible apply State.check_keeps
    | with_reducible apply State.farGo_keeps
    | (extract_lets +onlyGivenNames x
       first
         | (refine good_cut (q := q) x ?cv ?ck
            case' ck => (intro hx; clear_value x)
            case' cv => (unfold x; clear x))
         | (refine good_cut_fst (q := q) x ?cv ?ck
            case' ck => (intro hx; clear_value x)
            case' cv => (unfold x; clear x))
         | (refine good_cut_snd (q := q) x ?cv ?ck
            case' ck => (intro hx; clear_value x)
            case' cv => (unfold x; clear x))
         | skip)
    | split

theorem State.img_keeps {q : List Instr} (e : Nat) (p : Nat) (v : Nat) (s : State) (h : Good q s) : Good q (State.img e p v s).s := by
  unfold State.img
  extract_lets z
  split
  · exact badT_keeps _ _ _ h
  · next o _ =>
    extract_lets r r2 w u tag
    have hr : Good q r.1 := State.imgPut_keeps _ _ _ _ h
    have hr2 : Good q r2.1 := State.imgRead_keeps _ _ _ _ h
    have hu : Good q u.1 := good_ite_fst (State.eccRead_keeps _ _ _ _ _ hr2) hr2
    clear_value tag u r r2
    refine good_ite_s (badT_keeps _ _ _ h) (good_ite_s (good_ite_s (badT_keeps _ _ _ h) ?_) ?_)
    · split
      · exact badT_keeps _ _ _ hr
      · exact okT_keeps _ hr
    · split
      · exact badT_keeps _ _ _ hr2
      · split
        · exact badT_keeps _ _ _ hu
        · exact okT_keeps _ (State.fly_keeps _ _ _ hu)

theorem State.lockUnit_keeps {q : List Instr} (e : Nat) (p : Nat) (v : Nat) (s : State) (h : Good q s) : Good q (State.lockUnit e p v s).s := by
  unfold State.lockUnit
  repeat' first
    | with_reducible assumption
    | intro _
    | with_reducible apply good_ite
    | with_reducible apply good_ite_s
    | with_reducible apply good_ite_fst
    | with_reducible apply good_ite_snd
    | with_reducible apply badT_keeps
    | with_reducible apply State.nearLoad_keeps
    | with_reducible apply okT_keeps
    | with_reducible apply State.upE_keeps
    | with_reducible apply State.fly_keeps
    | with_reducible apply State.nearStore_keeps
    | (extract_lets +onlyGivenNames x
       first
         | (refine good_cut (q := q) x ?cv ?ck
            case' ck => (intro hx; clear_value x)
            case' cv => (unfold x; clear x))
         | (refine good_cut_fst (q := q) x ?cv ?ck
            case' ck => (intro hx; clear_value x)
            case' cv => (unfold x; clear x))
         | (refine good_cut_snd (q := q) x ?cv ?ck
            case' ck => (intro hx; clear_value x)
            case' cv => (unfold x; clear x))
         | skip)
    | split

theorem State.lsuStat_keeps {q : List Instr} (e : Nat) (st : Nat) (s : State) (h : Good q s) : Good q (State.lsuStat e st s) := by
  unfold State.lsuStat
  repeat' first
    | with_reducible assumption
    | intro _
    | with_reducible apply good_ite
    | with_reducible apply State.upE_keeps

theorem State.svEnd_keeps {q : List Instr} (a : Nat) (st : Nat) (s : State) (h : Good q s) : Good q (State.svEnd a st s) := by
  unfold State.svEnd
  repeat' first
    | with_reducible assumption
    | intro _
    | with_reducible apply good_ite
    | with_reducible apply State.lsuStat_keeps
    | with_reducible apply State.deviceFault_keeps
    | (extract_lets +onlyGivenNames x
       first
         | (refine good_cut (q := q) x ?cv ?ck
            case' ck => (intro hx; clear_value x)
            case' cv => (unfold x; clear x))
         | (refine good_cut_fst (q := q) x ?cv ?ck
            case' ck => (intro hx; clear_value x)
            case' cv => (unfold x; clear x))
         | (refine good_cut_snd (q := q) x ?cv ?ck
            case' ck => (intro hx; clear_value x)
            case' cv => (unfold x; clear x))
         | skip)
    | split

theorem State.drainOne_keeps {q : List Instr} (s : State) (h : Good q s) : Good q (State.drainOne s) := by
  unfold State.drainOne
  repeat' first
    | with_reducible assumption
    | intro _
    | with_reducible apply good_ite
    | with_reducible apply good_ite_fst
    | with_reducible apply good_ite_snd
    | with_reducible apply State.windowWrite_keeps
    | with_reducible apply State.memWrite_keeps
    | with_reducible apply State.svEnd_keeps
    | (extract_lets +onlyGivenNames x
       first
         | (refine good_cut (q := q) x ?cv ?ck
            case' ck => (intro hx; clear_value x)
            case' cv => (unfold x; clear x))
         | (refine good_cut_fst (q := q) x ?cv ?ck
            case' ck => (intro hx; clear_value x)
            case' cv => (unfold x; clear x))
         | (refine good_cut_snd (q := q) x ?cv ?ck
            case' ck => (intro hx; clear_value x)
            case' cv => (unfold x; clear x))
         | skip)
    | split
    | with_reducible apply good_mk
    | with_reducible rfl

theorem State.drain_keeps {q : List Instr} (y1 : Nat) (y2 : State) (h : Good q y2) : Good q (State.drain y1 y2) := by
  induction y1 generalizing y2 with
  | zero => exact h
  | succ k ih =>
    simp only [State.drain]
    exact good_ite h (ih _ (State.drainOne_keeps _ h))

theorem State.lineRead_keeps {q : List Instr} (l : Nat) (s : State) (h : Good q s) : Good q (State.lineRead l s).1 := by
  unfold State.lineRead
  repeat' first
    | with_reducible assumption
    | intro _
    | with_reducible apply good_ite
    | with_reducible apply good_ite_fst
    | with_reducible apply good_ite_snd
    | with_reducible apply State.eccRead_keeps
    | (extract_lets +onlyGivenNames x
       first
         | (refine good_cut (q := q) x ?cv ?ck
            case' ck => (intro hx; clear_value x)
            case' cv => (unfold x; clear x))
         | (refine good_cut_fst (q := q) x ?cv ?ck
            case' ck => (intro hx; clear_value x)
            case' cv => (unfold x; clear x))
         | (refine good_cut_snd (q := q) x ?cv ?ck
            case' ck => (intro hx; clear_value x)
            case' cv => (unfold x; clear x))
         | skip)
    | split

theorem State.dropLine_keeps {q : List Instr} (l : Nat) (s : State) (h : Good q s) : Good q (State.dropLine l s) := by
  unfold State.dropLine
  repeat' first
    | with_reducible assumption
    | intro _
    | with_reducible apply good_ite
    | with_reducible apply good_ite_fst
    | with_reducible apply good_ite_snd
    | (extract_lets +onlyGivenNames x
       first
         | (refine good_cut (q := q) x ?cv ?ck
            case' ck => (intro hx; clear_value x)
            case' cv => (unfold x; clear x))
         | (refine good_cut_fst (q := q) x ?cv ?ck
            case' ck => (intro hx; clear_value x)
            case' cv => (unfold x; clear x))
         | (refine good_cut_snd (q := q) x ?cv ?ck
            case' ck => (intro hx; clear_value x)
            case' cv => (unfold x; clear x))
         | skip)
    | with_reducible apply good_mk
    | with_reducible rfl

theorem State.dropCode_keeps {q : List Instr} (l : Nat) (s : State) (h : Good q s) : Good q (State.dropCode l s) := by
  unfold State.dropCode
  repeat' first
    | with_reducible assumption
    | intro _
    | with_reducible apply good_ite
    | with_reducible apply good_ite_fst
    | with_reducible apply good_ite_snd
    | (extract_lets +onlyGivenNames x
       first
         | (refine good_cut (q := q) x ?cv ?ck
            case' ck => (intro hx; clear_value x)
            case' cv => (unfold x; clear x))
         | (refine good_cut_fst (q := q) x ?cv ?ck
            case' ck => (intro hx; clear_value x)
            case' cv => (unfold x; clear x))
         | (refine good_cut_snd (q := q) x ?cv ?ck
            case' ck => (intro hx; clear_value x)
            case' cv => (unfold x; clear x))
         | skip)
    | with_reducible apply good_mk
    | with_reducible rfl

theorem State.drainLine_keeps {q : List Instr} (a : Nat) (s : State) (h : Good q s) : Good q (State.drainLine a s) := by
  unfold State.drainLine
  repeat' first
    | with_reducible assumption
    | intro _
    | with_reducible apply good_ite
    | with_reducible apply State.drain_keeps
    | (extract_lets +onlyGivenNames x
       first
         | (refine good_cut (q := q) x ?cv ?ck
            case' ck => (intro hx; clear_value x)
            case' cv => (unfold x; clear x))
         | (refine good_cut_fst (q := q) x ?cv ?ck
            case' ck => (intro hx; clear_value x)
            case' cv => (unfold x; clear x))
         | (refine good_cut_snd (q := q) x ?cv ?ck
            case' ck => (intro hx; clear_value x)
            case' cv => (unfold x; clear x))
         | skip)
    | split

theorem State.lineWrite_keeps {q : List Instr} (a : Nat) (bad : List Nat) (l : List Byte) (s : State) (h : Good q s) : Good q (State.lineWrite a bad l s).1 := by
  unfold State.lineWrite
  repeat' first
    | with_reducible assumption
    | intro _
    | with_reducible apply good_ite
    | with_reducible apply good_ite_fst
    | with_reducible apply good_ite_snd
    | with_reducible apply State.memWrite_keeps
    | with_reducible apply State.setEcc_keeps
    | with_reducible apply good_foldl
    | with_reducible apply good_foldl_fst
    | with_reducible apply good_foldl_snd
    | (extract_lets +onlyGivenNames x
       first
         | (refine good_cut (q := q) x ?cv ?ck
            case' ck => (intro hx; clear_value x)
            case' cv => (unfold x; clear x))
         | (refine good_cut_fst (q := q) x ?cv ?ck
            case' ck => (intro hx; clear_value x)
            case' cv => (unfold x; clear x))
         | (refine good_cut_snd (q := q) x ?cv ?ck
            case' ck => (intro hx; clear_value x)
            case' cv => (unfold x; clear x))
         | skip)
    | split

theorem State.cleanLine_keeps {q : List Instr} (l : Nat) (s : State) (h : Good q s) : Good q (State.cleanLine l s) := by
  unfold State.cleanLine
  split
  · exact h
  · next c _ =>
    refine good_ite h ?_
    extract_lets a k s1 bad u
    have hk : Good q k.1 := State.check_keeps _ _ _ _ _ h
    have h1 : Good q s1 := State.eccRead_keeps _ _ _ _ _ (State.drainLine_keeps _ _ hk)
    have hu : Good q u.1 := good_ite_fst (State.windowWrite_keeps _ _ _ h1) (State.lineWrite_keeps _ _ _ _ h1)
    clear_value u
    exact good_ite (State.dropLine_keeps _ _ hk) (good_ite (State.dropLine_keeps _ _ hu) (good_mk hu (Eq.refl _) (Eq.refl _) (Eq.refl _) (Eq.refl _) (Eq.refl _) (Eq.refl _)))

theorem State.evictData_keeps {q : List Instr} (s : State) (h : Good q s) : Good q (State.evictData s) := by
  unfold State.evictData
  repeat' first
    | with_reducible assumption
    | intro _
    | with_reducible apply good_ite
    | with_reducible apply good_ite_fst
    | with_reducible apply good_ite_snd
    | with_reducible apply State.free_keeps
    | with_reducible apply State.cleanLine_keeps
    | with_reducible apply State.dropLine_keeps
    | (extract_lets +onlyGivenNames x
       first
         | (refine good_cut (q := q) x ?cv ?ck
            case' ck => (intro hx; clear_value x)
            case' cv => (unfold x; clear x))
         | (refine good_cut_fst (q := q) x ?cv ?ck
            case' ck => (intro hx; clear_value x)
            case' cv => (unfold x; clear x))
         | (refine good_cut_snd (q := q) x ?cv ?ck
            case' ck => (intro hx; clear_value x)
            case' cv => (unfold x; clear x))
         | skip)
    | split
    | with_reducible apply good_mk
    | with_reducible rfl

theorem State.evictCode_keeps {q : List Instr} (s : State) (h : Good q s) : Good q (State.evictCode s) := by
  unfold State.evictCode
  repeat' first
    | with_reducible assumption
    | intro _
    | with_reducible apply good_ite
    | with_reducible apply good_ite_fst
    | with_reducible apply good_ite_snd
    | with_reducible apply State.free_keeps
    | with_reducible apply State.dropCode_keeps
    | (extract_lets +onlyGivenNames x
       first
         | (refine good_cut (q := q) x ?cv ?ck
            case' ck => (intro hx; clear_value x)
            case' cv => (unfold x; clear x))
         | (refine good_cut_fst (q := q) x ?cv ?ck
            case' ck => (intro hx; clear_value x)
            case' cv => (unfold x; clear x))
         | (refine good_cut_snd (q := q) x ?cv ?ck
            case' ck => (intro hx; clear_value x)
            case' cv => (unfold x; clear x))
         | skip)
    | split
    | with_reducible apply good_mk
    | with_reducible rfl

theorem State.lineMarks_keeps {q : List Instr} (copy : Nat) (l : Nat) (s : State) (h : Good q s) : Good q (State.lineMarks copy l s) := by
  unfold State.lineMarks
  repeat' first
    | with_reducible assumption
    | intro _
    | with_reducible apply good_ite
    | with_reducible apply good_ite_fst
    | with_reducible apply good_ite_snd
    | with_reducible apply State.setEcc_keeps
    | with_reducible apply State.eccStore_keeps
    | with_reducible apply good_forAll
    | (extract_lets +onlyGivenNames x
       first
         | (refine good_cut (q := q) x ?cv ?ck
            case' ck => (intro hx; clear_value x)
            case' cv => (unfold x; clear x))
         | (refine good_cut_fst (q := q) x ?cv ?ck
            case' ck => (intro hx; clear_value x)
            case' cv => (unfold x; clear x))
         | (refine good_cut_snd (q := q) x ?cv ?ck
            case' ck => (intro hx; clear_value x)
            case' cv => (unfold x; clear x))
         | skip)
    | split

theorem State.fillLine_keeps {q : List Instr} (cache : Nat) (a : Nat) (s : State) (h : Good q s) : Good q (State.fillLine cache a s) := by
  unfold State.fillLine
  repeat' first
    | with_reducible assumption
    | intro _
    | with_reducible apply good_ite
    | with_reducible apply good_ite_fst
    | with_reducible apply good_ite_snd
    | with_reducible apply State.drainLine_keeps
    | with_reducible apply State.lineRead_keeps
    | with_reducible apply State.evictData_keeps
    | with_reducible apply State.put_keeps
    | with_reducible apply State.lineMarks_keeps
    | (extract_lets +onlyGivenNames x
       first
         | (refine good_cut (q := q) x ?cv ?ck
            case' ck => (intro hx; clear_value x)
            case' cv => (unfold x; clear x))
         | (refine good_cut_fst (q := q) x ?cv ?ck
            case' ck => (intro hx; clear_value x)
            case' cv => (unfold x; clear x))
         | (refine good_cut_snd (q := q) x ?cv ?ck
            case' ck => (intro hx; clear_value x)
            case' cv => (unfold x; clear x))
         | skip)
    | split
    | with_reducible apply good_mk
    | with_reducible rfl

theorem State.svPiece_keeps {q : List Instr} (cache : Nat) (a : Nat) (z : Nat) (s : State) (h : Good q s) : Good q (State.svPiece cache a z s).1 := by
  unfold State.svPiece
  repeat' first
    | with_reducible assumption
    | intro _
    | with_reducible apply good_ite
    | with_reducible apply good_ite_fst
    | with_reducible apply good_ite_snd
    | with_reducible apply State.drainLine_keeps
    | with_reducible apply State.eccRead_keeps
    | with_reducible apply State.fillLine_keeps
    | with_reducible apply State.memRead_keeps
    | (extract_lets +onlyGivenNames x
       first
         | (refine good_cut (q := q) x ?cv ?ck
            case' ck => (intro hx; clear_value x)
            case' cv => (unfold x; clear x))
         | (refine good_cut_fst (q := q) x ?cv ?ck
            case' ck => (intro hx; clear_value x)
            case' cv => (unfold x; clear x))
         | (refine good_cut_snd (q := q) x ?cv ?ck
            case' ck => (intro hx; clear_value x)
            case' cv => (unfold x; clear x))
         | skip)
    | split

theorem State.svRead_keeps {q : List Instr} (cache a : Nat) (z : Nat) (s : State) (h : Good q s) : Good q (State.svRead cache a z s).1 := by
  unfold State.svRead
  exact good_foldl_fst (fun r p hr => State.svPiece_keeps _ _ _ _ hr) h

theorem State.svCachePut_keeps {q : List Instr} (a : Nat) (l : List Byte) (dirty : Bool) (s : State) (h : Good q s) : Good q (State.svCachePut a l dirty s).1 := by
  unfold State.svCachePut
  repeat' first
    | with_reducible assumption
    | intro _
    | with_reducible apply good_ite
    | with_reducible apply good_ite_fst
    | with_reducible apply good_ite_snd
    | with_reducible apply State.eccWrite_keeps
    | with_reducible apply State.put_keeps
    | with_reducible apply good_foldl
    | with_reducible apply good_foldl_fst
    | with_reducible apply good_foldl_snd
    | (extract_lets +onlyGivenNames x
       first
         | (refine good_cut (q := q) x ?cv ?ck
            case' ck => (intro hx; clear_value x)
            case' cv => (unfold x; clear x))
         | (refine good_cut_fst (q := q) x ?cv ?ck
            case' ck => (intro hx; clear_value x)
            case' cv => (unfold x; clear x))
         | (refine good_cut_snd (q := q) x ?cv ?ck
            case' ck => (intro hx; clear_value x)
            case' cv => (unfold x; clear x))
         | skip)
    | split
    | with_reducible apply good_mk
    | with_reducible rfl

theorem State.svLoad_keeps {q : List Instr} (a : Nat) (z : Nat) (signed : Bool) (s : State) (h : Good q s) : Good q (State.svLoad a z signed s) := by
  unfold State.svLoad
  extract_lets hit r t
  have ht : Good q t := State.upE_keeps _ _ _ (State.svEnd_keeps _ _ _ (State.svRead_keeps _ _ _ _ h))
  exact good_ite (State.upE_keeps _ _ _ (State.farGo_keeps _ _ _ _ _ _ _ (State.drainLine_keeps _ _ (State.drainLine_keeps _ _ h))))
    (State.fly_keeps _ _ _ ht)

theorem State.svPut_keeps {q : List Instr} (a : Nat) (l : List Byte) (s : State) (h : Good q s) : Good q (State.svPut a l s).1 := by
  unfold State.svPut
  repeat' first
    | with_reducible assumption
    | intro _
    | with_reducible apply good_ite
    | with_reducible apply good_ite_fst
    | with_reducible apply good_ite_snd
    | with_reducible apply State.drainLine_keeps
    | with_reducible apply State.fillLine_keeps
    | with_reducible apply State.svCachePut_keeps
    | with_reducible apply State.memWrite_keeps
    | with_reducible apply good_forAll
    | (extract_lets +onlyGivenNames x
       first
         | (refine good_cut (q := q) x ?cv ?ck
            case' ck => (intro hx; clear_value x)
            case' cv => (unfold x; clear x))
         | (refine good_cut_fst (q := q) x ?cv ?ck
            case' ck => (intro hx; clear_value x)
            case' cv => (unfold x; clear x))
         | (refine good_cut_snd (q := q) x ?cv ?ck
            case' ck => (intro hx; clear_value x)
            case' cv => (unfold x; clear x))
         | skip)
    | split

theorem State.svStore_keeps {q : List Instr} (a : Nat) (z : Nat) (s : State) (h : Good q s) : Good q (State.svStore a z s) := by
  unfold State.svStore
  repeat' first
    | with_reducible assumption
    | intro _
    | with_reducible apply good_ite
    | with_reducible apply good_ite_fst
    | with_reducible apply good_ite_snd
    | with_reducible apply State.drainLine_keeps
    | with_reducible apply State.fillLine_keeps
    | with_reducible apply State.svCachePut_keeps
    | with_reducible apply State.svEnd_keeps
    | with_reducible apply State.farGo_keeps
    | with_reducible apply State.upE_keeps
    | with_reducible apply State.drainOne_keeps
    | with_reducible apply State.memWrite_keeps
    | with_reducible apply good_forAll
    | (extract_lets +onlyGivenNames x
       first
         | (refine good_cut (q := q) x ?cv ?ck
            case' ck => (intro hx; clear_value x)
            case' cv => (unfold x; clear x))
         | (refine good_cut_fst (q := q) x ?cv ?ck
            case' ck => (intro hx; clear_value x)
            case' cv => (unfold x; clear x))
         | (refine good_cut_snd (q := q) x ?cv ?ck
            case' ck => (intro hx; clear_value x)
            case' cv => (unfold x; clear x))
         | skip)
    | split
    | with_reducible apply good_mk
    | with_reducible rfl

theorem State.svLsu_keeps {q : List Instr} (p : Nat) (v : Nat) (s : State) (h : Good q s) : Good q (State.svLsu p v s).s := by
  unfold State.svLsu
  extract_lets a z store c s1 s2 s3
  have hc : Good q s1 := State.check_keeps _ _ _ _ _ h
  have h2 : Good q s2 := State.lsuStat_keeps _ _ _ hc
  have h3 : Good q s3 := good_ite hc (State.drain_keeps _ _ hc)
  clear_value s3 s2 s1
  exact good_ite_s (okT_keeps _ (good_ite h2 (State.fly_keeps _ _ _ h2)))
    (okT_keeps _ (good_ite (State.svStore_keeps _ _ _ h3) (State.svLoad_keeps _ _ _ _ h3)))

theorem State.svc_keeps {q : List Instr} (p : Nat) (v : Nat) (s : State) (h : Good q s) : Good q (State.svc p v s).s := by
  unfold State.svc
  repeat' first
    | with_reducible assumption
    | intro _
    | with_reducible apply good_ite
    | with_reducible apply good_ite_s
    | with_reducible apply okT_keeps
    | with_reducible apply State.dropCode_keeps
    | with_reducible apply State.cleanLine_keeps
    | with_reducible apply State.dropLine_keeps
    | with_reducible apply good_trig
    | (extract_lets +onlyGivenNames x
       first
         | (refine good_cut (q := q) x ?cv ?ck
            case' ck => (intro hx; clear_value x)
            case' cv => (unfold x; clear x))
         | (refine good_cut_fst (q := q) x ?cv ?ck
            case' ck => (intro hx; clear_value x)
            case' cv => (unfold x; clear x))
         | (refine good_cut_snd (q := q) x ?cv ?ck
            case' ck => (intro hx; clear_value x)
            case' cv => (unfold x; clear x))
         | skip)
    | split

theorem State.pcUnit_keeps {q : List Instr} (e : Nat) (p : Nat) (v : Nat) (s : State) (h : Good q s) : Good q (State.pcUnit e p v s).s := by
  unfold State.pcUnit
  repeat' first
    | with_reducible assumption
    | intro _
    | with_reducible apply good_ite
    | with_reducible apply good_ite_s
    | with_reducible apply badT_keeps
    | with_reducible apply State.upE_keeps
    | (extract_lets +onlyGivenNames x
       first
         | (refine good_cut (q := q) x ?cv ?ck
            case' ck => (intro hx; clear_value x)
            case' cv => (unfold x; clear x))
         | (refine good_cut_fst (q := q) x ?cv ?ck
            case' ck => (intro hx; clear_value x)
            case' cv => (unfold x; clear x))
         | (refine good_cut_snd (q := q) x ?cv ?ck
            case' ck => (intro hx; clear_value x)
            case' cv => (unfold x; clear x))
         | skip)
    | split

theorem State.sysUnit_keeps {q : List Instr} (e : Nat) (p : Nat) (v : Nat) (s : State) (h : Good q s) : Good q (State.sysUnit e p v s).s := by
  unfold State.sysUnit
  extract_lets x setCsp a c rv rm
  have hf : ∀ f, Good q (setCsp f).s := fun f => good_ite_s (badT_keeps _ _ _ h) (okT_keeps _ (State.upE_keeps _ _ _ h))
  have hc : Good q c.1 := State.check_keeps _ _ _ _ _ h
  have hv : Good q rv.1 := State.svRead_keeps _ _ _ _ hc
  have hm : Good q rm.1 := State.memRead_keeps _ _ _ _ hc
  clear_value setCsp rv rm c
  refine good_ite_s (good_ite_s (badT_keeps _ _ _ h) h) (good_ite_s (good_ite_s (badT_keeps _ _ _ h) (good_ite_s (badT_keeps _ _ _ h) h)) (good_ite_s ?_ ?_))
  · refine good_ite_s (good_ite_s (State.lsuStat_keeps _ _ _ hc) (badT_keeps _ _ _ hc)) (good_ite_s (good_ite_s ?_ ?_) (good_ite_s (badT_keeps _ _ _ hm) ?_))
    · exact okT_keeps _ (State.deviceFault_keeps _ _ hv)
    · exact good_ite (State.lsuStat_keeps _ _ _ hv) hv
    · exact good_ite (State.lsuStat_keeps _ _ _ hm) hm
  · refine good_ite_s (okT_keeps _ (good_ite (State.drain_keeps _ _ h) h)) (good_ite_s (okT_keeps _ (State.fly_keeps _ _ _ h)) ?_)
    exact good_ite_s (hf _) (good_ite_s (hf _) (hf _))

theorem State.macUnit_keeps {q : List Instr} (e : Nat) (p : Nat) (v : Nat) (s : State) (h : Good q s) : Good q (State.macUnit e p v s).s := by
  unfold State.macUnit
  repeat' first
    | with_reducible assumption
    | intro _
    | with_reducible apply good_ite
    | with_reducible apply good_ite_s
    | with_reducible apply good_ite_fst
    | with_reducible apply good_ite_snd
    | with_reducible apply State.eccRead_keeps
    | with_reducible apply badT_keeps
    | with_reducible apply State.upE_keeps
    | with_reducible apply good_trig
    | (extract_lets +onlyGivenNames x
       first
         | (refine good_cut (q := q) x ?cv ?ck
            case' ck => (intro hx; clear_value x)
            case' cv => (unfold x; clear x))
         | (refine good_cut_fst (q := q) x ?cv ?ck
            case' ck => (intro hx; clear_value x)
            case' cv => (unfold x; clear x))
         | (refine good_cut_snd (q := q) x ?cv ?ck
            case' ck => (intro hx; clear_value x)
            case' cv => (unfold x; clear x))
         | skip)
    | split

theorem State.trigger_keeps {q : List Instr} (e : Nat) (p : Nat) (v : Nat) (s : State) (h : Good q s) : Good q (State.trigger e p v s).s := by
  unfold State.trigger
  repeat' first
    | with_reducible assumption
    | intro _
    | with_reducible apply good_ite
    | with_reducible apply good_ite_s
    | with_reducible apply State.buStack_keeps
    | with_reducible apply State.buBit_keeps
    | with_reducible apply State.alu_keeps
    | with_reducible apply State.cmp_keeps
    | with_reducible apply State.mul_keeps
    | with_reducible apply State.div_keeps
    | with_reducible apply State.fpu_keeps
    | with_reducible apply State.tmr_keeps
    | with_reducible apply State.svLsu_keeps
    | with_reducible apply State.lsu_keeps
    | with_reducible apply State.img_keeps
    | with_reducible apply State.pcUnit_keeps
    | with_reducible apply State.sysUnit_keeps
    | with_reducible apply State.lockUnit_keeps
    | with_reducible apply State.macUnit_keeps
    | with_reducible apply State.svc_keeps

end Sys2Proof.Machine
end

