-- ==== Sys2Proof/Laws/KeepsEngine.lean ====
section
/-! SUPPORT. Laws/KeepsEngine.lean: every operation of Machine/Engine.lean keeps `Good`. -/

namespace Sys2Proof.Machine

theorem State.spin_keeps {q : List Instr} (e : Nat) (k : Nat) (s : State) (h : Good q s) : Good q (State.spin e k s) := by
  unfold State.spin
  repeat' first
    | with_reducible assumption
    | intro _
    | with_reducible apply good_ite
    | with_reducible apply State.upE_keeps
    | (extract_lets +onlyGivenNames x
       first
         | (refine good_cut (q := q) x ?cv ?ck
            case' ck => (intro hx; clear_value x)
            case' cv => (unfold x; clear x))
         | (refine good_cut_fst (q := q) x ?cv ?ck
            case' ck => (intro hx; clear_value x)
            case' cv => (unfold x; clear x))
         | (refine good_cut_snd (q := q) x ?cv ?ck
            case' ck => (intro hx; clear_value x)
            case' cv => (unfold x; clear x))
         | skip)
    | with_reducible apply good_mk
    | with_reducible rfl

theorem State.spend_keeps {q : List Instr} (e : Nat) (k : Nat) (s : State) (h : Good q s) : Good q (State.spend e k s) := by
  unfold State.spend
  repeat' first
    | with_reducible assumption
    | intro _
    | with_reducible apply State.spin_keeps
    | with_reducible apply State.upI_keeps
    | (extract_lets +onlyGivenNames x
       first
         | (refine good_cut (q := q) x ?cv ?ck
            case' ck => (intro hx; clear_value x)
            case' cv => (unfold x; clear x))
         | (refine good_cut_fst (q := q) x ?cv ?ck
            case' ck => (intro hx; clear_value x)
            case' cv => (unfold x; clear x))
         | (refine good_cut_snd (q := q) x ?cv ?ck
            case' ck => (intro hx; clear_value x)
            case' cv => (unfold x; clear x))
         | skip)
    | split
    | with_reducible apply good_mk
    | with_reducible rfl

theorem State.conflict_keeps {q : List Instr} (s : State) (h : Good q s) : Good q (State.conflict s) := by
  unfold State.conflict
  repeat' first
    | with_reducible assumption
    | intro _
    | with_reducible apply good_ite
    | with_reducible apply State.put_keeps
    | with_reducible apply State.level_keeps
    | (extract_lets +onlyGivenNames x
       first
         | (refine good_cut (q := q) x ?cv ?ck
            case' ck => (intro hx; clear_value x)
            case' cv => (unfold x; clear x))
         | (refine good_cut_fst (q := q) x ?cv ?ck
            case' ck => (intro hx; clear_value x)
            case' cv => (unfold x; clear x))
         | (refine good_cut_snd (q := q) x ?cv ?ck
            case' ck => (intro hx; clear_value x)
            case' cv => (unfold x; clear x))
         | skip)
    | split

theorem State.stopFollowing_keeps {q : List Instr} (reason : Nat) (s : State) (h : Good q s) : Good q (State.stopFollowing reason s) := by
  unfold State.stopFollowing
  repeat' first
    | with_reducible assumption
    | intro _
    | with_reducible apply good_ite
    | with_reducible apply State.stopEngine_keeps
    | with_reducible apply State.upE_keeps
    | with_reducible apply State.setReleased_keeps
    | with_reducible apply State.put_keeps
    | with_reducible apply State.conflict_keeps
    | with_reducible apply State.warn_keeps
    | with_reducible apply good_forAll
    | split
    | (extract_lets +onlyGivenNames x
       first
         | (refine good_cut (q := q) x ?cv ?ck
            case' ck => (intro hx; clear_value x)
            case' cv => (unfold x; clear x))
         | (refine good_cut_fst (q := q) x ?cv ?ck
            case' ck => (intro hx; clear_value x)
            case' cv => (unfold x; clear x))
         | (refine good_cut_snd (q := q) x ?cv ?ck
            case' ck => (intro hx; clear_value x)
            case' cv => (unfold x; clear x))
         | skip)
    | with_reducible apply good_mk
    | with_reducible rfl

theorem State.haltAwait_keeps {q : List Instr} (e : Nat) (s : State) (h : Good q s) : Good q (State.haltAwait e s) := by
  unfold State.haltAwait
  repeat' first
    | with_reducible assumption
    | intro _
    | with_reducible apply good_ite
    | with_reducible apply State.upT_keeps
    | with_reducible apply good_forAll

theorem State.svWatch_keeps {q : List Instr} (halt : Bool) (s : State) (h : Good q s) : Good q (State.svWatch halt s) := by
  unfold State.svWatch
  repeat' first
    | with_reducible assumption
    | intro _
    | with_reducible apply good_ite
    | split
    | with_reducible apply good_mk
    | with_reducible rfl

theorem State.haltNow_keeps {q : List Instr} (e : Nat) (reason : Nat) (idx : Nat) (defer : Bool) (s : State) (h : Good q s) : Good q (State.haltNow e reason idx defer s) := by
  unfold State.haltNow
  repeat' first
    | with_reducible assumption
    | intro _
    | with_reducible apply good_ite
    | with_reducible apply State.svWatch_keeps
    | with_reducible apply State.settle_keeps
    | with_reducible apply State.putBit_keeps
    | with_reducible apply State.put_keeps
    | with_reducible apply State.defer_keeps
    | with_reducible apply State.upE_keeps
    | with_reducible apply State.haltAwait_keeps
    | (extract_lets +onlyGivenNames x
       first
         | (refine good_cut (q := q) x ?cv ?ck
            case' ck => (intro hx; clear_value x)
            case' cv => (unfold x; clear x))
         | (refine good_cut_fst (q := q) x ?cv ?ck
            case' ck => (intro hx; clear_value x)
            case' cv => (unfold x; clear x))
         | (refine good_cut_snd (q := q) x ?cv ?ck
            case' ck => (intro hx; clear_value x)
            case' cv => (unfold x; clear x))
         | skip)
    | split
    | with_reducible apply good_mk
    | with_reducible rfl

theorem State.haltRequest_keeps {q : List Instr} (e : Nat) (reason : Nat) (force : Bool) (s : State) (h : Good q s) : Good q (State.haltRequest e reason force s) := by
  unfold State.haltRequest
  repeat' first
    | with_reducible assumption
    | intro _
    | with_reducible apply good_ite
    | with_reducible apply State.put_keeps
    | with_reducible apply State.putBit_keeps
    | with_reducible apply State.haltNow_keeps
    | with_reducible apply State.upE_keeps

theorem State.crossTrigger_keeps {q : List Instr} (e : Nat) (s : State) (h : Good q s) : Good q (State.crossTrigger e s) := by
  unfold State.crossTrigger
  repeat' first
    | with_reducible assumption
    | intro _
    | with_reducible apply good_ite
    | with_reducible apply State.haltNow_keeps
    | with_reducible apply State.haltRequest_keeps
    | with_reducible apply good_forAll
    | (extract_lets +onlyGivenNames x
       first
         | (refine good_cut (q := q) x ?cv ?ck
            case' ck => (intro hx; clear_value x)
            case' cv => (unfold x; clear x))
         | (refine good_cut_fst (q := q) x ?cv ?ck
            case' ck => (intro hx; clear_value x)
            case' cv => (unfold x; clear x))
         | (refine good_cut_snd (q := q) x ?cv ?ck
            case' ck => (intro hx; clear_value x)
            case' cv => (unfold x; clear x))
         | skip)
    | split

theorem State.haltWith_keeps {q : List Instr} (e : Nat) (reason : Nat) (idx : Nat) (defer : Bool) (s : State) (h : Good q s) : Good q (State.haltWith e reason idx defer s) := by
  unfold State.haltWith
  repeat' first
    | with_reducible assumption
    | intro _
    | with_reducible apply State.stopFollowing_keeps
    | with_reducible apply State.outRefresh_keeps
    | with_reducible apply State.crossTrigger_keeps
    | with_reducible apply State.haltNow_keeps

theorem State.refuge_keeps {q : List Instr} (e : Nat) (cause : Nat) (detail : Nat) (resume : Nat) (s : State) (h : Good q s) : Good q (State.refuge e cause detail resume s) := by
  unfold State.refuge
  repeat' first
    | with_reducible assumption
    | intro _
    | with_reducible apply good_ite
    | with_reducible apply State.putWords_keeps
    | with_reducible apply State.deviceFault_keeps
    | with_reducible apply State.upE_keeps
    | with_reducible apply State.put_keeps
    | with_reducible apply State.engineFault_keeps
    | (extract_lets +onlyGivenNames x
       first
         | (refine good_cut (q := q) x ?cv ?ck
            case' ck => (intro hx; clear_value x)
            case' cv => (unfold x; clear x))
         | (refine good_cut_fst (q := q) x ?cv ?ck
            case' ck => (intro hx; clear_value x)
            case' cv => (unfold x; clear x))
         | (refine good_cut_snd (q := q) x ?cv ?ck
            case' ck => (intro hx; clear_value x)
            case' cv => (unfold x; clear x))
         | skip)
    | split
    | with_reducible apply good_mk
    | with_reducible rfl

theorem State.writeFrame_keeps {q : List Instr} (e : Nat) (cause : Nat) (detail : Nat) (resume : Nat) (s : State) (h : Good q s) : Good q (State.writeFrame e cause detail resume s).1 := by
  unfold State.writeFrame
  repeat' first
    | with_reducible assumption
    | intro _
    | with_reducible apply good_ite
    | with_reducible apply good_ite_fst
    | with_reducible apply good_ite_snd
    | with_reducible apply State.upE_keeps
    | with_reducible apply State.check_keeps
    | with_reducible apply State.svPut_keeps
    | with_reducible apply State.memWrite_keeps
    | with_reducible apply State.lsuStat_keeps
    | (extract_lets +onlyGivenNames x
       first
         | (refine good_cut (q := q) x ?cv ?ck
            case' ck => (intro hx; clear_value x)
            case' cv => (unfold x; clear x))
         | (refine good_cut_fst (q := q) x ?cv ?ck
            case' ck => (intro hx; clear_value x)
            case' cv => (unfold x; clear x))
         | (refine good_cut_snd (q := q) x ?cv ?ck
            case' ck => (intro hx; clear_value x)
            case' cv => (unfold x; clear x))
         | skip)
    | split
    | with_reducible apply good_mk
    | with_reducible rfl

theorem State.enterHandler_keeps {q : List Instr} (e : Nat) (idle : Bool) (keepBank : Bool) (s : State) (h : Good q s) : Good q (State.enterHandler e idle keepBank s) := by
  unfold State.enterHandler
  repeat' first
    | with_reducible assumption
    | intro _
    | with_reducible apply good_ite
    | with_reducible apply State.upE_keeps

theorem State.excEntry_keeps {q : List Instr} (e : Nat) (cause : Nat) (detail : Nat) (resume : Nat) (keepBank : Bool) (s : State) (h : Good q s) : Good q (State.excEntry e cause detail resume keepBank s) := by
  unfold State.excEntry
  repeat' first
    | with_reducible assumption
    | intro _
    | with_reducible apply good_ite
    | with_reducible apply good_ite_fst
    | with_reducible apply good_ite_snd
    | with_reducible apply State.settle_keeps
    | with_reducible apply State.writeFrame_keeps
    | with_reducible apply State.logFault_keeps
    | with_reducible apply State.upE_keeps
    | with_reducible apply State.enterHandler_keeps
    | with_reducible apply State.spend_keeps
    | with_reducible apply State.mirrorJoin_keeps
    | with_reducible apply State.refuge_keeps
    | (extract_lets +onlyGivenNames x
       first
         | (refine good_cut (q := q) x ?cv ?ck
            case' ck => (intro hx; clear_value x)
            case' cv => (unfold x; clear x))
         | (refine good_cut_fst (q := q) x ?cv ?ck
            case' ck => (intro hx; clear_value x)
            case' cv => (unfold x; clear x))
         | (refine good_cut_snd (q := q) x ?cv ?ck
            case' ck => (intro hx; clear_value x)
            case' cv => (unfold x; clear x))
         | skip)
    | split
    | with_reducible apply good_mk
    | with_reducible rfl

theorem State.raiseFault_keeps {q : List Instr} (e : Nat) (cause : Nat) (detail : Nat) (resume : Nat) (s : State) (h : Good q s) : Good q (State.raiseFault e cause detail resume s) := by
  unfold State.raiseFault
  repeat' first
    | with_reducible assumption
    | intro _
    | with_reducible apply good_ite
    | with_reducible apply good_ite_fst
    | with_reducible apply good_ite_snd
    | with_reducible apply State.excEntry_keeps
    | with_reducible apply State.engineFault_keeps
    | with_reducible apply State.settle_keeps
    | with_reducible apply State.writeFrame_keeps
    | with_reducible apply State.refuge_keeps
    | with_reducible apply State.excRecord_keeps
    | with_reducible apply State.taskFault_keeps
    | (extract_lets +onlyGivenNames x
       first
         | (refine good_cut (q := q) x ?cv ?ck
            case' ck => (intro hx; clear_value x)
            case' cv => (unfold x; clear x))
         | (refine good_cut_fst (q := q) x ?cv ?ck
            case' ck => (intro hx; clear_value x)
            case' cv => (unfold x; clear x))
         | (refine good_cut_snd (q := q) x ?cv ?ck
            case' ck => (intro hx; clear_value x)
            case' cv => (unfold x; clear x))
         | skip)
    | split
    | with_reducible apply good_mk
    | with_reducible rfl

theorem State.excReturn_keeps {q : List Instr} (e : Nat) (s : State) (h : Good q s) : Good q (State.excReturn e s) := by
  unfold State.excReturn
  repeat' first
    | with_reducible assumption
    | intro _
    | with_reducible apply good_ite
    | with_reducible apply State.settle_keeps
    | with_reducible apply State.upE_keeps
    | with_reducible apply State.spend_keeps
    | (extract_lets +onlyGivenNames x
       first
         | (refine good_cut (q := q) x ?cv ?ck
            case' ck => (intro hx; clear_value x)
            case' cv => (unfold x; clear x))
         | (refine good_cut_fst (q := q) x ?cv ?ck
            case' ck => (intro hx; clear_value x)
            case' cv => (unfold x; clear x))
         | (refine good_cut_snd (q := q) x ?cv ?ck
            case' ck => (intro hx; clear_value x)
            case' cv => (unfold x; clear x))
         | skip)
    | split
    | with_reducible apply good_mk
    | with_reducible rfl

theorem State.farLand_keeps {q : List Instr} (e : Nat) (f : FarReq) (v : Option Nat) (st : Nat) (s : State) (h : Good q s) : Good q (State.farLand e f v st s) := by
  unfold State.farLand
  repeat' first
    | with_reducible assumption
    | intro _
    | with_reducible apply good_ite
    | with_reducible apply State.putWords_keeps
    | with_reducible apply State.upE_keeps
    | (extract_lets +onlyGivenNames x
       first
         | (refine good_cut (q := q) x ?cv ?ck
            case' ck => (intro hx; clear_value x)
            case' cv => (unfold x; clear x))
         | (refine good_cut_fst (q := q) x ?cv ?ck
            case' ck => (intro hx; clear_value x)
            case' cv => (unfold x; clear x))
         | (refine good_cut_snd (q := q) x ?cv ?ck
            case' ck => (intro hx; clear_value x)
            case' cv => (unfold x; clear x))
         | skip)
    | split
    | with_reducible apply good_mk
    | with_reducible rfl

theorem State.saveCtx_keeps {q : List Instr} (e : Nat) (n : Nat) (s : State) (h : Good q s) : Good q (State.saveCtx e n s) := by
  unfold State.saveCtx
  repeat' first
    | with_reducible assumption
    | intro _
    | with_reducible apply good_ite
    | with_reducible apply State.putWords_keeps
    | (extract_lets +onlyGivenNames x
       first
         | (refine good_cut (q := q) x ?cv ?ck
            case' ck => (intro hx; clear_value x)
            case' cv => (unfold x; clear x))
         | (refine good_cut_fst (q := q) x ?cv ?ck
            case' ck => (intro hx; clear_value x)
            case' cv => (unfold x; clear x))
         | (refine good_cut_snd (q := q) x ?cv ?ck
            case' ck => (intro hx; clear_value x)
            case' cv => (unfold x; clear x))
         | skip)

theorem State.loadCtx_keeps {q : List Instr} (e : Nat) (n : Nat) (s : State) (h : Good q s) : Good q (State.loadCtx e n s).1 := by
  unfold State.loadCtx
  repeat' first
    | with_reducible assumption
    | intro _
    | with_reducible apply good_ite
    | with_reducible apply good_ite_fst
    | with_reducible apply good_ite_snd
    | with_reducible apply State.eccRead_keeps
    | with_reducible apply State.setEng_keeps
    | with_reducible apply good_foldl
    | with_reducible apply good_foldl_fst
    | with_reducible apply good_foldl_snd
    | (extract_lets +onlyGivenNames x
       first
         | (refine good_cut (q := q) x ?cv ?ck
            case' ck => (intro hx; clear_value x)
            case' cv => (unfold x; clear x))
         | (refine good_cut_fst (q := q) x ?cv ?ck
            case' ck => (intro hx; clear_value x)
            case' cv => (unfold x; clear x))
         | (refine good_cut_snd (q := q) x ?cv ?ck
            case' ck => (intro hx; clear_value x)
            case' cv => (unfold x; clear x))
         | skip)
    | split
    | with_reducible apply good_mk
    | with_reducible rfl

theorem State.mirrorLoad_keeps {q : List Instr} (e : Nat) (s : State) (h : Good q s) : Good q (State.mirrorLoad e s) := by
  unfold State.mirrorLoad
  repeat' first
    | with_reducible assumption
    | intro _
    | with_reducible apply good_ite
    | with_reducible apply State.upE_keeps
    | with_reducible apply State.mirrorJoin_keeps
    | (extract_lets +onlyGivenNames x
       first
         | (refine good_cut (q := q) x ?cv ?ck
            case' ck => (intro hx; clear_value x)
            case' cv => (unfold x; clear x))
         | (refine good_cut_fst (q := q) x ?cv ?ck
            case' ck => (intro hx; clear_value x)
            case' cv => (unfold x; clear x))
         | (refine good_cut_snd (q := q) x ?cv ?ck
            case' ck => (intro hx; clear_value x)
            case' cv => (unfold x; clear x))
         | skip)
    | split
    | with_reducible apply good_mk
    | with_reducible rfl

theorem State.dispatch_keeps {q : List Instr} (e : Nat) (s : State) (h : Good q s) : Good q (State.dispatch e s) := by
  unfold State.dispatch
  repeat' first
    | with_reducible assumption
    | intro _
    | with_reducible apply good_ite
    | with_reducible apply good_ite_fst
    | with_reducible apply good_ite_snd
    | with_reducible apply State.settle_keeps
    | with_reducible apply State.spin_keeps
    | with_reducible apply State.loadCtx_keeps
    | with_reducible apply State.engineFault_keeps
    | with_reducible apply State.upI_keeps
    | with_reducible apply State.mirrorLoad_keeps
    | (extract_lets +onlyGivenNames x
       first
         | (refine good_cut (q := q) x ?cv ?ck
            case' ck => (intro hx; clear_value x)
            case' cv => (unfold x; clear x))
         | (refine good_cut_fst (q := q) x ?cv ?ck
            case' ck => (intro hx; clear_value x)
            case' cv => (unfold x; clear x))
         | (refine good_cut_snd (q := q) x ?cv ?ck
            case' ck => (intro hx; clear_value x)
            case' cv => (unfold x; clear x))
         | skip)
    | split
    | with_reducible apply good_mk
    | with_reducible rfl

theorem State.paired_keeps {q : List Instr} (e : Nat) (op : State → State) (s : State) (hfop : ∀ x0, Good q x0 → Good q (op x0)) (h : Good q s) : Good q (State.paired e op s) := by
  unfold State.paired
  repeat' first
    | with_reducible assumption
    | intro _
    | with_reducible apply good_ite
    | with_reducible apply hfop
    | with_reducible apply State.asSecond_keeps
    | with_reducible apply State.engineFault_keeps
    | with_reducible apply State.mirrorOwn_keeps
    | (extract_lets +onlyGivenNames x
       first
         | (refine good_cut (q := q) x ?cv ?ck
            case' ck => (intro hx; clear_value x)
            case' cv => (unfold x; clear x))
         | (refine good_cut_fst (q := q) x ?cv ?ck
            case' ck => (intro hx; clear_value x)
            case' cv => (unfold x; clear x))
         | (refine good_cut_snd (q := q) x ?cv ?ck
            case' ck => (intro hx; clear_value x)
            case' cv => (unfold x; clear x))
         | skip)
    | split
    | with_reducible apply good_mk
    | with_reducible rfl

theorem State.preempt_keeps {q : List Instr} (e : Nat) (s : State) (h : Good q s) : Good q (State.preempt e s) := by
  unfold State.preempt
  repeat' first
    | with_reducible assumption
    | intro _
    | with_reducible apply good_ite
    | with_reducible apply State.settle_keeps
    | with_reducible apply State.paired_keeps
    | with_reducible apply State.saveCtx_keeps
    | with_reducible apply State.upI_keeps
    | with_reducible apply State.upE_keeps
    | with_reducible apply State.mirrorJoin_keeps
    | with_reducible apply State.dispatch_keeps
    | (extract_lets +onlyGivenNames x
       first
         | (refine good_cut (q := q) x ?cv ?ck
            case' ck => (intro hx; clear_value x)
            case' cv => (unfold x; clear x))
         | (refine good_cut_fst (q := q) x ?cv ?ck
            case' ck => (intro hx; clear_value x)
            case' cv => (unfold x; clear x))
         | (refine good_cut_snd (q := q) x ?cv ?ck
            case' ck => (intro hx; clear_value x)
            case' cv => (unfold x; clear x))
         | skip)
    | split
    | with_reducible apply good_mk
    | with_reducible rfl

theorem State.complete_keeps {q : List Instr} (n : Nat) (s : State) (h : Good q s) : Good q (State.complete n s) := by
  unfold State.complete
  repeat' first
    | with_reducible assumption
    | intro _
    | with_reducible apply good_ite
    | with_reducible apply State.upI_keeps
    | with_reducible apply State.put_keeps
    | with_reducible apply good_forAll
    | (extract_lets +onlyGivenNames x
       first
         | (refine good_cut (q := q) x ?cv ?ck
            case' ck => (intro hx; clear_value x)
            case' cv => (unfold x; clear x))
         | (refine good_cut_fst (q := q) x ?cv ?ck
            case' ck => (intro hx; clear_value x)
            case' cv => (unfold x; clear x))
         | (refine good_cut_snd (q := q) x ?cv ?ck
            case' ck => (intro hx; clear_value x)
            case' cv => (unfold x; clear x))
         | skip)
    | split
    | with_reducible apply good_mk
    | with_reducible rfl

theorem State.instanceComplete_keeps {q : List Instr} (n : Nat) (s : State) (h : Good q s) : Good q (State.instanceComplete n s) := by
  unfold State.instanceComplete
  repeat' first
    | with_reducible assumption
    | intro _
    | with_reducible apply good_ite
    | with_reducible apply State.complete_keeps
    | (extract_lets +onlyGivenNames x
       first
         | (refine good_cut (q := q) x ?cv ?ck
            case' ck => (intro hx; clear_value x)
            case' cv => (unfold x; clear x))
         | (refine good_cut_fst (q := q) x ?cv ?ck
            case' ck => (intro hx; clear_value x)
            case' cv => (unfold x; clear x))
         | (refine good_cut_snd (q := q) x ?cv ?ck
            case' ck => (intro hx; clear_value x)
            case' cv => (unfold x; clear x))
         | skip)
    | split
    | with_reducible apply good_mk
    | with_reducible rfl

theorem State.yieldOp_keeps {q : List Instr} (e : Nat) (resume : Nat) (s : State) (h : Good q s) : Good q (State.yieldOp e resume s) := by
  unfold State.yieldOp
  repeat' first
    | with_reducible assumption
    | intro _
    | with_reducible apply good_ite
    | with_reducible apply good_ite_fst
    | with_reducible apply good_ite_snd
    | with_reducible apply State.eccRead_keeps
    | with_reducible apply State.engineFault_keeps
    | with_reducible apply State.taskFault_keeps
    | with_reducible apply State.warn_keeps
    | with_reducible apply State.settle_keeps
    | with_reducible apply State.saveCtx_keeps
    | with_reducible apply State.upI_keeps
    | with_reducible apply State.upE_keeps
    | with_reducible apply State.mirrorJoin_keeps
    | (extract_lets +onlyGivenNames x
       first
         | (refine good_cut (q := q) x ?cv ?ck
            case' ck => (intro hx; clear_value x)
            case' cv => (unfold x; clear x))
         | (refine good_cut_fst (q := q) x ?cv ?ck
            case' ck => (intro hx; clear_value x)
            case' cv => (unfold x; clear x))
         | (refine good_cut_snd (q := q) x ?cv ?ck
            case' ck => (intro hx; clear_value x)
            case' cv => (unfold x; clear x))
         | skip)
    | split
    | with_reducible apply good_mk
    | with_reducible rfl

theorem good_foldl_s {q : List Instr} {f : Trig → α → Trig} {l : List α} {t : Trig}
    (hf : ∀ t x, Good q t.s → Good q (f t x).s) (h : Good q t.s) : Good q (l.foldl f t).s := by
  induction l generalizing t with
  | nil => exact h
  | cons x r ih => exact ih (hf t x h)

theorem State.slotThree_keeps {q : List Instr} (e : Nat) (p : Plan) (t : Trig) (ht : Good q t.s) : Good q (State.slotThree e p t).s := by
  unfold State.slotThree
  exact good_ite_s ht (good_ite_s ht (good_ite_s (State.trigger_keeps _ _ _ _ ht) ht))

theorem State.stepThree_keeps {q : List Instr} (e : Nat) (l : List Plan) (t : Trig) (ht : Good q t.s) : Good q (State.stepThree e l t).s := by
  unfold State.stepThree
  split
  · next a b =>
    have ha := State.slotThree_keeps e a t ht
    have hb := State.slotThree_keeps e b t ht
    extract_lets ta r k
    have hr : Good q r.s := good_ite_s (State.slotThree_keeps _ _ _ hb) (State.slotThree_keeps _ _ _ ha)
    exact good_ite_s ha (good_ite_s hr hr)
  · exact good_foldl_s (fun t p ht => State.slotThree_keeps _ _ _ ht) ht

theorem State.faultRun_keeps {q : List Instr} (e : Nat) (l : List Plan) (t : Trig) (ht : Good q t.s) : Good q (State.faultRun e l t) := by
  unfold State.faultRun
  split
  · next a b =>
    exact good_ite (State.slotThree_keeps e a t ht) (good_ite (State.slotThree_keeps e b t ht) ht)
  · exact State.stepThree_keeps _ _ _ ht

theorem keepReports_keeps {q : List Instr} (before : State) (after : State) (e : Nat) (h2 : Good q after) : Good q (keepReports before after e) := by
  unfold keepReports
  exact State.upE_keeps _ _ _ h2

theorem State.retireBoth_keeps {q : List Instr} (e : Nat) (s : State) (h : Good q s) : Good q (State.retireBoth e s) := by
  unfold State.retireBoth
  repeat' first
    | with_reducible assumption
    | intro _
    | with_reducible apply good_ite
    | with_reducible apply State.retireTo_keeps

theorem State.applyCtl_keeps {q : List Instr} (e : Nat) (resume : Nat) (l : List Ctl) (s : State) (h : Good q s) : Good q (State.applyCtl e resume l s) := by
  unfold State.applyCtl
  repeat' first
    | with_reducible assumption
    | intro _
    | with_reducible apply good_ite
    | with_reducible apply State.yieldOp_keeps
    | with_reducible apply State.excEntry_keeps
    | with_reducible apply State.excReturn_keeps
    | with_reducible apply good_foldl
    | with_reducible apply good_foldl_fst
    | with_reducible apply good_foldl_snd
    | (extract_lets +onlyGivenNames x
       first
         | (refine good_cut (q := q) x ?cv ?ck
            case' ck => (intro hx; clear_value x)
            case' cv => (unfold x; clear x))
         | (refine good_cut_fst (q := q) x ?cv ?ck
            case' ck => (intro hx; clear_value x)
            case' cv => (unfold x; clear x))
         | (refine good_cut_snd (q := q) x ?cv ?ck
            case' ck => (intro hx; clear_value x)
            case' cv => (unfold x; clear x))
         | skip)
    | split
    | with_reducible apply good_mk
    | with_reducible rfl

theorem State.startMacro_keeps {q : List Instr} (e : Nat) (n : Nat) (t : Nat) (jump : Bool) (l : List Ctl) (s : State) (h : Good q s) : Good q (State.startMacro e n t jump l s) := by
  unfold State.startMacro
  repeat' first
    | with_reducible assumption
    | intro _
    | with_reducible apply good_ite
    | with_reducible apply good_ite_fst
    | with_reducible apply good_ite_snd
    | with_reducible apply State.upE_keeps
    | with_reducible apply good_foldl
    | with_reducible apply good_foldl_fst
    | with_reducible apply good_foldl_snd
    | (extract_lets +onlyGivenNames x
       first
         | (refine good_cut (q := q) x ?cv ?ck
            case' ck => (intro hx; clear_value x)
            case' cv => (unfold x; clear x))
         | (refine good_cut_fst (q := q) x ?cv ?ck
            case' ck => (intro hx; clear_value x)
            case' cv => (unfold x; clear x))
         | (refine good_cut_snd (q := q) x ?cv ?ck
            case' ck => (intro hx; clear_value x)
            case' cv => (unfold x; clear x))
         | skip)
    | split
    | with_reducible apply good_mk
    | with_reducible rfl

theorem State.missEnd_keeps {q : List Instr} (e : Nat) (s : State) (h : Good q s) : Good q (State.missEnd e s) := by
  unfold State.missEnd
  repeat' first
    | with_reducible assumption
    | intro _
    | with_reducible apply good_ite
    | with_reducible apply State.settle_keeps
    | with_reducible apply State.upE_keeps
    | (extract_lets +onlyGivenNames x
       first
         | (refine good_cut (q := q) x ?cv ?ck
            case' ck => (intro hx; clear_value x)
            case' cv => (unfold x; clear x))
         | (refine good_cut_fst (q := q) x ?cv ?ck
            case' ck => (intro hx; clear_value x)
            case' cv => (unfold x; clear x))
         | (refine good_cut_snd (q := q) x ?cv ?ck
            case' ck => (intro hx; clear_value x)
            case' cv => (unfold x; clear x))
         | skip)
    | split
    | with_reducible apply good_mk
    | with_reducible rfl

theorem State.afterBundle_keeps {q : List Instr} (e : Nat) (l : List Ctl) (s : State) (h : Good q s) : Good q (State.afterBundle e l s) := by
  unfold State.afterBundle
  repeat' first
    | with_reducible assumption
    | intro _
    | with_reducible apply good_ite
    | with_reducible apply State.upE_keeps
    | with_reducible apply State.spend_keeps
    | with_reducible apply State.startMacro_keeps
    | with_reducible apply State.applyCtl_keeps
    | with_reducible apply State.raiseFault_keeps
    | (extract_lets +onlyGivenNames x
       first
         | (refine good_cut (q := q) x ?cv ?ck
            case' ck => (intro hx; clear_value x)
            case' cv => (unfold x; clear x))
         | (refine good_cut_fst (q := q) x ?cv ?ck
            case' ck => (intro hx; clear_value x)
            case' cv => (unfold x; clear x))
         | (refine good_cut_snd (q := q) x ?cv ?ck
            case' ck => (intro hx; clear_value x)
            case' cv => (unfold x; clear x))
         | skip)
    | split
    | with_reducible apply good_mk
    | with_reducible rfl

theorem State.haltsAfter_keeps {q : List Instr} (e : Nat) (hit : Option Nat) (s : State) (h : Good q s) : Good q (State.haltsAfter e hit s) := by
  unfold State.haltsAfter
  repeat' first
    | with_reducible assumption
    | intro _
    | with_reducible apply good_ite
    | with_reducible apply State.putBit_keeps
    | with_reducible apply State.put_keeps
    | with_reducible apply State.haltWith_keeps
    | with_reducible apply State.haltNow_keeps
    | split
    | with_reducible apply good_mk
    | with_reducible rfl

theorem State.issueOne_keeps {q : List Instr} (e : Nat) (ms : List Move) (s : State) (h : Good q s) : Good q (State.issueOne e ms s) := by
  unfold State.issueOne
  repeat' first
    | with_reducible assumption
    | intro _
    | with_reducible apply good_ite
    | with_reducible apply good_ite_fst
    | with_reducible apply good_ite_snd
    | with_reducible apply State.spend_keeps
    | with_reducible apply State.raiseFault_keeps
    | with_reducible apply State.setEng_keeps
    | with_reducible apply State.stepThree_keeps
    | with_reducible apply okT_keeps
    | with_reducible apply keepReports_keeps
    | with_reducible apply State.faultRun_keeps
    | with_reducible apply State.missEnd_keeps
    | with_reducible apply State.afterBundle_keeps
    | with_reducible apply State.haltsAfter_keeps
    | split
    | with_reducible apply good_mk
    | (extract_lets +onlyGivenNames x
       first
         | (refine good_cut (q := q) x ?cv ?ck
            case' ck => (intro hx; clear_value x)
            case' cv => (unfold x; clear x))
         | (refine good_cut_fst (q := q) x ?cv ?ck
            case' ck => (intro hx; clear_value x)
            case' cv => (unfold x; clear x))
         | (refine good_cut_snd (q := q) x ?cv ?ck
            case' ck => (intro hx; clear_value x)
            case' cv => (unfold x; clear x))
         | skip)
    | with_reducible rfl
    | rfl

theorem State.issue_keeps {q : List Instr} (e : Nat) (ms : List Move) (s : State) (h : Good q s) : Good q (State.issue e ms s) := by
  unfold State.issue
  extract_lets t
  have ht : Good q t := State.retireBoth_keeps e s h
  split
  · exact State.issueOne_keeps _ _ _ ht
  · split
    · exact State.engineFault_keeps _ _ _ _ _ ht
    · extract_lets a b
      split
      · exact State.engineFault_keeps _ _ _ _ _ ht
      · exact good_ite (State.engineFault_keeps _ _ _ _ _ ht) (State.mirrorOwn_keeps _ _ _ _ (State.issueOne_keeps _ _ _ ht))

theorem State.svFetch_keeps {q : List Instr} (a : Nat) (s : State) (h : Good q s) : Good q (State.svFetch a s).1 := by
  unfold State.svFetch
  repeat' first
    | with_reducible assumption
    | intro _
    | with_reducible apply good_ite
    | with_reducible apply good_ite_fst
    | with_reducible apply good_ite_snd
    | with_reducible apply State.eccRead_keeps
    | with_reducible apply State.settle_keeps
    | with_reducible apply State.drainLine_keeps
    | with_reducible apply State.lineRead_keeps
    | with_reducible apply State.evictCode_keeps
    | with_reducible apply State.put_keeps
    | with_reducible apply State.lineMarks_keeps
    | (extract_lets +onlyGivenNames x
       first
         | (refine good_cut (q := q) x ?cv ?ck
            case' ck => (intro hx; clear_value x)
            case' cv => (unfold x; clear x))
         | (refine good_cut_fst (q := q) x ?cv ?ck
            case' ck => (intro hx; clear_value x)
            case' cv => (unfold x; clear x))
         | (refine good_cut_snd (q := q) x ?cv ?ck
            case' ck => (intro hx; clear_value x)
            case' cv => (unfold x; clear x))
         | skip)
    | split
    | with_reducible apply good_mk
    | with_reducible rfl

theorem State.bundle_keeps {q : List Instr} (e : Nat) (s : State) (h : Good q s) : Good q (State.bundle e s) := by
  unfold State.bundle
  repeat' first
    | with_reducible assumption
    | intro _
    | with_reducible apply good_ite
    | with_reducible apply good_ite_fst
    | with_reducible apply good_ite_snd
    | with_reducible apply State.putBit_keeps
    | with_reducible apply State.put_keeps
    | with_reducible apply State.haltWith_keeps
    | with_reducible apply State.check_keeps
    | with_reducible apply State.spend_keeps
    | with_reducible apply State.raiseFault_keeps
    | with_reducible apply State.svFetch_keeps
    | with_reducible apply State.deviceFault_keeps
    | with_reducible apply State.issue_keeps
    | with_reducible apply State.eccRead_keeps
    | (extract_lets +onlyGivenNames x
       first
         | (refine good_cut (q := q) x ?cv ?ck
            case' ck => (intro hx; clear_value x)
            case' cv => (unfold x; clear x))
         | (refine good_cut_fst (q := q) x ?cv ?ck
            case' ck => (intro hx; clear_value x)
            case' cv => (unfold x; clear x))
         | (refine good_cut_snd (q := q) x ?cv ?ck
            case' ck => (intro hx; clear_value x)
            case' cv => (unfold x; clear x))
         | skip)
    | split
    | with_reducible apply good_mk
    | with_reducible rfl

theorem State.oneMove_keeps {q : List Instr} (e : Nat) (p : Nat) (v : Nat) (s : State) (h : Good q s) : Good q (State.oneMove e p v s) := by
  unfold State.oneMove
  repeat' first
    | with_reducible assumption
    | intro _
    | with_reducible apply good_ite
    | with_reducible apply State.issue_keeps
    | split

theorem State.endMacro_keeps {q : List Instr} (e : Nat) (m : MacroRun) (s : State) (h : Good q s) : Good q (State.endMacro e m s) := by
  unfold State.endMacro
  repeat' first
    | with_reducible assumption
    | intro _
    | with_reducible apply good_ite
    | with_reducible apply State.upE_keeps
    | with_reducible apply State.spend_keeps
    | with_reducible apply State.yieldOp_keeps
    | with_reducible apply State.excEntry_keeps
    | with_reducible apply State.excReturn_keeps
    | with_reducible apply State.raiseFault_keeps
    | with_reducible apply State.haltNow_keeps
    | (extract_lets +onlyGivenNames x
       first
         | (refine good_cut (q := q) x ?cv ?ck
            case' ck => (intro hx; clear_value x)
            case' cv => (unfold x; clear x))
         | (refine good_cut_fst (q := q) x ?cv ?ck
            case' ck => (intro hx; clear_value x)
            case' cv => (unfold x; clear x))
         | (refine good_cut_snd (q := q) x ?cv ?ck
            case' ck => (intro hx; clear_value x)
            case' cv => (unfold x; clear x))
         | skip)
    | split
    | with_reducible apply good_mk
    | with_reducible rfl

theorem State.microDo_keeps {q : List Instr} (e : Nat) (m : MacroRun) (dst : Nat) (v : Nat) (s : State) (h : Good q s) : Good q (State.microDo e m dst v s) := by
  unfold State.microDo
  repeat' first
    | with_reducible assumption
    | intro _
    | with_reducible apply good_ite
    | with_reducible apply State.upE_keeps
    | with_reducible apply State.trigger_keeps
    | (extract_lets +onlyGivenNames x
       first
         | (refine good_cut (q := q) x ?cv ?ck
            case' ck => (intro hx; clear_value x)
            case' cv => (unfold x; clear x))
         | (refine good_cut_fst (q := q) x ?cv ?ck
            case' ck => (intro hx; clear_value x)
            case' cv => (unfold x; clear x))
         | (refine good_cut_snd (q := q) x ?cv ?ck
            case' ck => (intro hx; clear_value x)
            case' cv => (unfold x; clear x))
         | skip)
    | split
    | with_reducible apply good_mk
    | with_reducible rfl

theorem State.microOne_keeps {q : List Instr} (e : Nat) (m : MacroRun) (s : State) (h : Good q s) : Good q (State.microOne e m s) := by
  unfold State.microOne
  repeat' first
    | with_reducible assumption
    | intro _
    | with_reducible apply good_ite
    | with_reducible apply good_ite_fst
    | with_reducible apply good_ite_snd
    | with_reducible apply State.eccRead_keeps
    | with_reducible apply State.upE_keeps
    | with_reducible apply State.raiseFault_keeps
    | with_reducible apply State.microDo_keeps
    | with_reducible apply State.spend_keeps
    | with_reducible apply State.endMacro_keeps
    | (extract_lets +onlyGivenNames x
       first
         | (refine good_cut (q := q) x ?cv ?ck
            case' ck => (intro hx; clear_value x)
            case' cv => (unfold x; clear x))
         | (refine good_cut_fst (q := q) x ?cv ?ck
            case' ck => (intro hx; clear_value x)
            case' cv => (unfold x; clear x))
         | (refine good_cut_snd (q := q) x ?cv ?ck
            case' ck => (intro hx; clear_value x)
            case' cv => (unfold x; clear x))
         | skip)
    | split
    | with_reducible apply good_mk
    | with_reducible rfl

theorem State.microMove_keeps {q : List Instr} (e : Nat) (s : State) (h : Good q s) : Good q (State.microMove e s) := by
  unfold State.microMove
  split
  · exact h
  · extract_lets t
    have ht : Good q t := State.retireBoth_keeps e s h
    split
    · exact State.microOne_keeps _ _ _ ht
    · extract_lets u p r a b
      refine good_ite (State.engineFault_keeps _ _ _ _ _ ht) (good_ite (State.engineFault_keeps _ _ _ _ _ ht) ?_)
      split
      · exact State.engineFault_keeps _ _ _ _ _ ht
      · exact State.mirrorOwn_keeps _ _ _ _ (State.microOne_keeps _ _ _ ht)

theorem State.svEventEntry_keeps {q : List Instr} (s : State) (h : Good q s) : Good q (State.svEventEntry s) := by
  unfold State.svEventEntry
  repeat' first
    | with_reducible assumption
    | intro _
    | with_reducible apply good_ite
    | with_reducible apply State.excEntry_keeps
    | (extract_lets +onlyGivenNames x
       first
         | (refine good_cut (q := q) x ?cv ?ck
            case' ck => (intro hx; clear_value x)
            case' cv => (unfold x; clear x))
         | (refine good_cut_fst (q := q) x ?cv ?ck
            case' ck => (intro hx; clear_value x)
            case' cv => (unfold x; clear x))
         | (refine good_cut_snd (q := q) x ?cv ?ck
            case' ck => (intro hx; clear_value x)
            case' cv => (unfold x; clear x))
         | skip)
    | split
    | with_reducible apply good_mk
    | with_reducible rfl

theorem State.routedEntry_keeps {q : List Instr} (e : Nat) (s : State) (h : Good q s) : Good q (State.routedEntry e s) := by
  unfold State.routedEntry
  repeat' first
    | with_reducible assumption
    | intro _
    | with_reducible apply good_ite
    | with_reducible apply State.svEventEntry_keeps
    | with_reducible apply State.upE_keeps
    | with_reducible apply State.paired_keeps
    | with_reducible apply State.excEntry_keeps
    | (extract_lets +onlyGivenNames x
       first
         | (refine good_cut (q := q) x ?cv ?ck
            case' ck => (intro hx; clear_value x)
            case' cv => (unfold x; clear x))
         | (refine good_cut_fst (q := q) x ?cv ?ck
            case' ck => (intro hx; clear_value x)
            case' cv => (unfold x; clear x))
         | (refine good_cut_snd (q := q) x ?cv ?ck
            case' ck => (intro hx; clear_value x)
            case' cv => (unfold x; clear x))
         | skip)
    | split
    | with_reducible apply good_mk
    | with_reducible rfl

theorem State.landFirst_keeps {q : List Instr} (e : Nat) (us : List UnitId) (s : State) (h : Good q s) : Good q (State.landFirst e us s) := by
  unfold State.landFirst
  repeat' first
    | with_reducible assumption
    | intro _
    | with_reducible apply good_ite
    | with_reducible apply State.upE_keeps
    | with_reducible apply State.retireTo_keeps
    | (extract_lets +onlyGivenNames x
       first
         | (refine good_cut (q := q) x ?cv ?ck
            case' ck => (intro hx; clear_value x)
            case' cv => (unfold x; clear x))
         | (refine good_cut_fst (q := q) x ?cv ?ck
            case' ck => (intro hx; clear_value x)
            case' cv => (unfold x; clear x))
         | (refine good_cut_snd (q := q) x ?cv ?ck
            case' ck => (intro hx; clear_value x)
            case' cv => (unfold x; clear x))
         | skip)
    | split
    | with_reducible apply good_mk
    | with_reducible rfl

theorem State.budgetOut_keeps {q : List Instr} (n : Nat) (s : State) (h : Good q s) : Good q (State.budgetOut n s) := by
  unfold State.budgetOut
  repeat' first
    | with_reducible assumption
    | intro _
    | with_reducible apply good_ite
    | with_reducible apply State.upI_keeps
    | with_reducible apply State.put_keeps
    | with_reducible apply State.warn_keeps
    | with_reducible apply State.taskFault_keeps
    | (extract_lets +onlyGivenNames x
       first
         | (refine good_cut (q := q) x ?cv ?ck
            case' ck => (intro hx; clear_value x)
            case' cv => (unfold x; clear x))
         | (refine good_cut_fst (q := q) x ?cv ?ck
            case' ck => (intro hx; clear_value x)
            case' cv => (unfold x; clear x))
         | (refine good_cut_snd (q := q) x ?cv ?ck
            case' ck => (intro hx; clear_value x)
            case' cv => (unfold x; clear x))
         | skip)
    | split
    | with_reducible apply good_mk
    | with_reducible rfl

theorem State.deferredHalt_keeps {q : List Instr} (e : Nat) (s : State) (h : Good q s) : Good q (State.deferredHalt e s) := by
  unfold State.deferredHalt
  repeat' first
    | with_reducible assumption
    | intro _
    | with_reducible apply good_ite
    | with_reducible apply State.haltWith_keeps

end Sys2Proof.Machine
end

