-- ==== Sys2Proof/Laws/KeepsTime.lean ====
section
/-! SUPPORT. Laws/KeepsTime.lean: every operation of Machine/Time.lean keeps `Good`. -/

namespace Sys2Proof.Machine

theorem State.setNextTick_keeps {q : List Instr} (t : Nat) (s : State) (h : Good q s) : Good q (State.setNextTick t s) := by
  unfold State.setNextTick
  repeat' first
    | with_reducible assumption
    | intro _
    | with_reducible apply State.put64_keeps
    | (extract_lets +onlyGivenNames x
       first
         | (refine good_cut (q := q) x ?cv ?ck
            case' ck => (intro hx; clear_value x)
            case' cv => (unfold x; clear x))
         | (refine good_cut_fst (q := q) x ?cv ?ck
            case' ck => (intro hx; clear_value x)
            case' cv => (unfold x; clear x))
         | (refine good_cut_snd (q := q) x ?cv ?ck
            case' ck => (intro hx; clear_value x)
            case' cv => (unfold x; clear x))
         | skip)
    | with_reducible apply good_mk
    | with_reducible rfl

theorem State.turnEn_keeps {q : List Instr} (v : Bool) (s : State) (h : Good q s) : Good q (State.turnEn v s) := by
  unfold State.turnEn
  repeat' first
    | with_reducible assumption
    | intro _
    | with_reducible apply good_ite
    | with_reducible apply State.put_keeps
    | with_reducible apply State.setNextTick_keeps
    | (extract_lets +onlyGivenNames x
       first
         | (refine good_cut (q := q) x ?cv ?ck
            case' ck => (intro hx; clear_value x)
            case' cv => (unfold x; clear x))
         | (refine good_cut_fst (q := q) x ?cv ?ck
            case' ck => (intro hx; clear_value x)
            case' cv => (unfold x; clear x))
         | (refine good_cut_snd (q := q) x ?cv ?ck
            case' ck => (intro hx; clear_value x)
            case' cv => (unfold x; clear x))
         | skip)
    | split
    | with_reducible apply good_mk
    | with_reducible rfl

theorem State.setCorr_keeps {q : List Instr} (i : Int) (s : State) (h : Good q s) : Good q (State.setCorr i s) := by
  unfold State.setCorr
  repeat' first
    | with_reducible assumption
    | intro _
    | with_reducible apply good_ite
    | with_reducible apply State.put_keeps
    | with_reducible apply State.raise_keeps

theorem State.glintGo_keeps {q : List Instr} (t : Nat) (s : State) (h : Good q s) : Good q (State.glintGo t s) := by
  unfold State.glintGo
  repeat' first
    | with_reducible assumption
    | intro _
    | with_reducible apply good_ite
    | with_reducible apply State.put_keeps
    | with_reducible apply State.cyclesPass_keeps
    | split
    | with_reducible apply good_mk
    | with_reducible rfl

theorem State.fitY_keeps {q : List Instr} (y : Int) (s : State) (h : Good q s) : Good q (State.fitY y s).2 := by
  unfold State.fitY
  repeat' first
    | with_reducible assumption
    | intro _
    | with_reducible apply good_ite
    | with_reducible apply good_ite_fst
    | with_reducible apply good_ite_snd
    | with_reducible apply State.free_keeps
    | (extract_lets +onlyGivenNames x
       first
         | (refine good_cut (q := q) x ?cv ?ck
            case' ck => (intro hx; clear_value x)
            case' cv => (unfold x; clear x))
         | (refine good_cut_fst (q := q) x ?cv ?ck
            case' ck => (intro hx; clear_value x)
            case' cv => (unfold x; clear x))
         | (refine good_cut_snd (q := q) x ?cv ?ck
            case' ck => (intro hx; clear_value x)
            case' cv => (unfold x; clear x))
         | skip)
    | split

theorem State.acceptEdge_keeps {q : List Instr} (s : State) (h : Good q s) : Good q (State.acceptEdge s) := by
  unfold State.acceptEdge
  repeat' first
    | with_reducible assumption
    | intro _
    | with_reducible apply good_ite
    | with_reducible apply good_ite_fst
    | with_reducible apply good_ite_snd
    | with_reducible apply State.fitY_keeps
    | with_reducible apply State.put_keeps
    | with_reducible apply State.raise_keeps
    | with_reducible apply State.setCorr_keeps
    | with_reducible apply State.glintGo_keeps
    | split
    | (extract_lets +onlyGivenNames x
       first
         | (refine good_cut (q := q) x ?cv ?ck
            case' ck => (intro hx; clear_value x)
            case' cv => (unfold x; clear x))
         | (refine good_cut_fst (q := q) x ?cv ?ck
            case' ck => (intro hx; clear_value x)
            case' cv => (unfold x; clear x))
         | (refine good_cut_snd (q := q) x ?cv ?ck
            case' ck => (intro hx; clear_value x)
            case' cv => (unfold x; clear x))
         | skip)
    | with_reducible apply good_mk
    | with_reducible rfl

theorem opPpsEdge_keeps {q : List Instr} (t : Nat) (falling : Bool) (s : State) (h : Good q s) : Good q (opPpsEdge t falling s) := by
  unfold opPpsEdge
  repeat' first
    | with_reducible assumption
    | intro _
    | with_reducible apply good_ite
    | with_reducible apply State.advance_keeps
    | with_reducible apply State.acceptEdge_keeps
    | with_reducible apply State.raise_keeps
    | with_reducible apply State.bump_keeps
    | (extract_lets +onlyGivenNames x
       first
         | (refine good_cut (q := q) x ?cv ?ck
            case' ck => (intro hx; clear_value x)
            case' cv => (unfold x; clear x))
         | (refine good_cut_fst (q := q) x ?cv ?ck
            case' ck => (intro hx; clear_value x)
            case' cv => (unfold x; clear x))
         | (refine good_cut_snd (q := q) x ?cv ?ck
            case' ck => (intro hx; clear_value x)
            case' cv => (unfold x; clear x))
         | skip)
    | split

theorem opPpsLoss_keeps {q : List Instr} (s : State) (h : Good q s) : Good q (opPpsLoss s) := by
  unfold opPpsLoss
  repeat' first
    | with_reducible assumption
    | intro _
    | with_reducible apply good_ite
    | with_reducible apply good_ite_fst
    | with_reducible apply good_ite_snd
    | with_reducible apply State.advanceReal_keeps
    | with_reducible apply State.put_keeps
    | with_reducible apply State.raise_keeps
    | with_reducible apply State.setCorr_keeps
    | (extract_lets +onlyGivenNames x
       first
         | (refine good_cut (q := q) x ?cv ?ck
            case' ck => (intro hx; clear_value x)
            case' cv => (unfold x; clear x))
         | (refine good_cut_fst (q := q) x ?cv ?ck
            case' ck => (intro hx; clear_value x)
            case' cv => (unfold x; clear x))
         | (refine good_cut_snd (q := q) x ?cv ?ck
            case' ck => (intro hx; clear_value x)
            case' cv => (unfold x; clear x))
         | skip)
    | split
    | with_reducible apply good_mk
    | with_reducible rfl

theorem State.discChange_keeps {q : List Instr} (v : Bool) (s : State) (h : Good q s) : Good q (State.discChange v s) := by
  unfold State.discChange
  repeat' first
    | with_reducible assumption
    | intro _
    | with_reducible apply good_ite
    | with_reducible apply State.setCorr_keeps
    | (extract_lets +onlyGivenNames x
       first
         | (refine good_cut (q := q) x ?cv ?ck
            case' ck => (intro hx; clear_value x)
            case' cv => (unfold x; clear x))
         | (refine good_cut_fst (q := q) x ?cv ?ck
            case' ck => (intro hx; clear_value x)
            case' cv => (unfold x; clear x))
         | (refine good_cut_snd (q := q) x ?cv ?ck
            case' ck => (intro hx; clear_value x)
            case' cv => (unfold x; clear x))
         | skip)
    | split
    | with_reducible apply good_mk
    | with_reducible rfl

theorem State.timeSet_keeps {q : List Instr} (v : Nat) (s : State) (h : Good q s) : Good q (State.timeSet v s) := by
  unfold State.timeSet
  repeat' first
    | with_reducible assumption
    | intro _
    | with_reducible apply good_ite
    | with_reducible apply good_ite_fst
    | with_reducible apply good_ite_snd
    | with_reducible apply State.put_keeps
    | (extract_lets +onlyGivenNames x
       first
         | (refine good_cut (q := q) x ?cv ?ck
            case' ck => (intro hx; clear_value x)
            case' cv => (unfold x; clear x))
         | (refine good_cut_fst (q := q) x ?cv ?ck
            case' ck => (intro hx; clear_value x)
            case' cv => (unfold x; clear x))
         | (refine good_cut_snd (q := q) x ?cv ?ck
            case' ck => (intro hx; clear_value x)
            case' cv => (unfold x; clear x))
         | skip)
    | with_reducible apply good_mk
    | split
    | with_reducible rfl

theorem opTimeSetcmdGo_keeps {q : List Instr} (s : State) (h : Good q s) : Good q (opTimeSetcmdGo s) := by
  unfold opTimeSetcmdGo
  repeat' first
    | with_reducible assumption
    | intro _
    | with_reducible apply State.timeSet_keeps

theorem State.stepTo_keeps {q : List Instr} (x : Nat) (e : Int) (s : State) (h : Good q s) : Good q (State.stepTo x e s).2 := by
  unfold State.stepTo
  repeat' first
    | with_reducible assumption
    | intro _
    | with_reducible apply good_ite
    | with_reducible apply good_ite_fst
    | with_reducible apply good_ite_snd
    | with_reducible apply State.free_keeps

theorem State.farmStep_keeps {q : List Instr} (e : Int) (set : Bool) (s : State) (h : Good q s) : Good q (State.farmStep e set s) := by
  unfold State.farmStep
  have hr : Good q (s.stepTo s.now e).2 ∧ (s.stepTo s.now e).1 % 10 = 0 := by
    have hf := h.farm
    unfold State.stepTo
    dsimp only
    split
    · exact ⟨State.free_keeps _ h, by simp⟩
    · refine ⟨h, ?_⟩
      dsimp only [State.now]
      omega
  extract_lets r s1 a b c d f g s2 s3 s4
  have h2 : Good q s2 :=
    ⟨hr.1.queue, hr.1.mem, hr.1.back, hr.1.work, hr.1.nor, hr.1.arr, hr.1.snap, hr.1.brick, hr.1.fifo, hr.1.logq, hr.1.ram, hr.2⟩
  have h3 : Good q s3 := State.setNextTick_keeps _ _ h2
  have h4 : Good q s4 := good_ite (State.put_keeps _ _ _ _ _ h3) h3
  exact State.raise_keeps _ _ _ (State.bump_keeps _ _ _ _ (State.put_keeps _ _ _ _ _ (State.put_keeps _ _ _ _ _ h4)))

theorem State.loadFarm_keeps {q : List Instr} (s : State) (h : Good q s) : Good q (State.loadFarm s) := by
  unfold State.loadFarm
  dsimp only
  refine State.put_keeps _ _ _ _ _ ⟨h.queue, h.mem, h.back, h.work, h.nor, h.arr, h.snap, h.brick, h.fifo, h.logq, h.ram, ?_⟩
  dsimp only
  split
  · rfl
  · exact Nat.mul_mod_left _ _

theorem State.turnChanged_keeps {q : List Instr} (s : State) (h : Good q s) : Good q (State.turnChanged s) := by
  unfold State.turnChanged
  repeat' first
    | with_reducible assumption
    | intro _
    | with_reducible apply good_ite
    | with_reducible apply State.setNextTick_keeps
    | (extract_lets +onlyGivenNames x
       first
         | (refine good_cut (q := q) x ?cv ?ck
            case' ck => (intro hx; clear_value x)
            case' cv => (unfold x; clear x))
         | (refine good_cut_fst (q := q) x ?cv ?ck
            case' ck => (intro hx; clear_value x)
            case' cv => (unfold x; clear x))
         | (refine good_cut_snd (q := q) x ?cv ?ck
            case' ck => (intro hx; clear_value x)
            case' cv => (unfold x; clear x))
         | skip)
    | with_reducible apply good_mk
    | split
    | with_reducible rfl

theorem opTurnPeriodWrite_keeps {q : List Instr} (v : Nat) (s : State) (h : Good q s) : Good q (opTurnPeriodWrite v s) := by
  unfold opTurnPeriodWrite
  repeat' first
    | with_reducible assumption
    | intro _
    | with_reducible apply good_ite
    | with_reducible apply State.put_keeps
    | with_reducible apply State.turnChanged_keeps

theorem opTurnPhaseWrite_keeps {q : List Instr} (v : Nat) (s : State) (h : Good q s) : Good q (opTurnPhaseWrite v s) := by
  unfold opTurnPhaseWrite
  repeat' first
    | with_reducible assumption
    | intro _
    | with_reducible apply good_ite
    | with_reducible apply State.put_keeps
    | with_reducible apply State.turnChanged_keeps

theorem State.rtcTake_keeps {q : List Instr} (sec : Nat) (s : State) (h : Good q s) : Good q (State.rtcTake sec s) := by
  unfold State.rtcTake
  repeat' first
    | with_reducible assumption
    | intro _
    | with_reducible apply State.put_keeps
    | with_reducible apply State.raise_keeps
    | (extract_lets +onlyGivenNames x
       first
         | (refine good_cut (q := q) x ?cv ?ck
            case' ck => (intro hx; clear_value x)
            case' cv => (unfold x; clear x))
         | (refine good_cut_fst (q := q) x ?cv ?ck
            case' ck => (intro hx; clear_value x)
            case' cv => (unfold x; clear x))
         | (refine good_cut_snd (q := q) x ?cv ?ck
            case' ck => (intro hx; clear_value x)
            case' cv => (unfold x; clear x))
         | skip)
    | with_reducible apply good_mk
    | with_reducible rfl

theorem State.rtcBoundary_keeps {q : List Instr} (b : Nat) (s : State) (h : Good q s) : Good q (State.rtcBoundary b s) := by
  unfold State.rtcBoundary
  repeat' first
    | with_reducible assumption
    | intro _
    | with_reducible apply good_ite
    | with_reducible apply State.rtcTake_keeps
    | (extract_lets +onlyGivenNames x
       first
         | (refine good_cut (q := q) x ?cv ?ck
            case' ck => (intro hx; clear_value x)
            case' cv => (unfold x; clear x))
         | (refine good_cut_fst (q := q) x ?cv ?ck
            case' ck => (intro hx; clear_value x)
            case' cv => (unfold x; clear x))
         | (refine good_cut_snd (q := q) x ?cv ?ck
            case' ck => (intro hx; clear_value x)
            case' cv => (unfold x; clear x))
         | skip)
    | split
    | with_reducible apply good_mk
    | with_reducible rfl

theorem opRtcSync_keeps {q : List Instr} (s : State) (h : Good q s) : Good q (opRtcSync s) := by
  unfold opRtcSync
  repeat' first
    | with_reducible assumption
    | intro _
    | with_reducible apply good_ite
    | with_reducible apply State.advance_keeps
    | with_reducible apply State.rtcBoundary_keeps
    | split

theorem opRtcSetgo_keeps {q : List Instr} (s : State) (h : Good q s) : Good q (opRtcSetgo s) := by
  unfold opRtcSetgo
  repeat' first
    | with_reducible assumption
    | intro _
    | (extract_lets +onlyGivenNames x
       first
         | (refine good_cut (q := q) x ?cv ?ck
            case' ck => (intro hx; clear_value x)
            case' cv => (unfold x; clear x))
         | (refine good_cut_fst (q := q) x ?cv ?ck
            case' ck => (intro hx; clear_value x)
            case' cv => (unfold x; clear x))
         | (refine good_cut_snd (q := q) x ?cv ?ck
            case' ck => (intro hx; clear_value x)
            case' cv => (unfold x; clear x))
         | skip)
    | with_reducible apply good_mk
    | with_reducible rfl

theorem opRtcSecRead_keeps {q : List Instr} (s : State) (h : Good q s) : Good q (opRtcSecRead s) := by
  unfold opRtcSecRead
  repeat' first
    | with_reducible assumption
    | intro _
    | (extract_lets +onlyGivenNames x
       first
         | (refine good_cut (q := q) x ?cv ?ck
            case' ck => (intro hx; clear_value x)
            case' cv => (unfold x; clear x))
         | (refine good_cut_fst (q := q) x ?cv ?ck
            case' ck => (intro hx; clear_value x)
            case' cv => (unfold x; clear x))
         | (refine good_cut_snd (q := q) x ?cv ?ck
            case' ck => (intro hx; clear_value x)
            case' cv => (unfold x; clear x))
         | skip)
    | with_reducible apply good_mk
    | with_reducible rfl

theorem opRtcWrap_keeps {q : List Instr} (s : State) (h : Good q s) : Good q (opRtcWrap s) := by
  unfold opRtcWrap
  repeat' first
    | with_reducible assumption
    | intro _
    | with_reducible apply good_ite
    | with_reducible apply State.cyclesPass_keeps
    | split

theorem State.latchHi_keeps {q : List Instr} (a : Nat) (s : State) (h : Good q s) : Good q (State.latchHi a s) := by
  unfold State.latchHi
  repeat' first
    | with_reducible assumption
    | intro _
    | with_reducible apply good_ite
    | with_reducible apply State.put_keeps

theorem opCountdownEnable_keeps {q : List Instr} (s : State) (h : Good q s) : Good q (opCountdownEnable s) := by
  unfold opCountdownEnable
  repeat' first
    | with_reducible assumption
    | intro _
    | with_reducible apply State.put_keeps

theorem opGlintRequest_keeps {q : List Instr} (s : State) (h : Good q s) : Good q (opGlintRequest s) := by
  unfold opGlintRequest
  repeat' first
    | with_reducible assumption
    | intro _
    | with_reducible apply State.glintGo_keeps

theorem opGlintCaptureComplete_keeps {q : List Instr} (d : Nat) (s : State) (h : Good q s) : Good q (opGlintCaptureComplete d s) := by
  unfold opGlintCaptureComplete
  repeat' first
    | with_reducible assumption
    | intro _
    | with_reducible apply good_ite
    | with_reducible apply State.advance_keeps
    | with_reducible apply State.put_keeps
    | with_reducible apply State.wrapUp_keeps
    | with_reducible apply State.raise_keeps
    | (extract_lets +onlyGivenNames x
       first
         | (refine good_cut (q := q) x ?cv ?ck
            case' ck => (intro hx; clear_value x)
            case' cv => (unfold x; clear x))
         | (refine good_cut_fst (q := q) x ?cv ?ck
            case' ck => (intro hx; clear_value x)
            case' cv => (unfold x; clear x))
         | (refine good_cut_snd (q := q) x ?cv ?ck
            case' ck => (intro hx; clear_value x)
            case' cv => (unfold x; clear x))
         | skip)
    | split
    | with_reducible apply good_mk
    | with_reducible rfl

end Sys2Proof.Machine
end

