-- ==== Sys2Proof/Laws/KeepsTasks.lean ====
section
/-! SUPPORT. Laws/KeepsTasks.lean: every operation of Machine/Tasks.lean keeps `Good`. -/

namespace Sys2Proof.Machine

theorem State.putBits_keeps {q : List Instr} (fs : List Fam) (v : Nat) (i : Nat) (s : State) (h : Good q s) : Good q (State.putBits fs v i s) := by
  unfold State.putBits
  repeat' first
    | with_reducible assumption
    | intro _
    | with_reducible apply State.put_keeps
    | with_reducible apply good_foldl

theorem State.recordErr_keeps {q : List Instr} (p : Nat × Nat) (s : State) (h : Good q s) : Good q (State.recordErr p s) := by
  unfold State.recordErr
  repeat' first
    | with_reducible assumption
    | intro _
    | with_reducible apply State.put_keeps

theorem State.zeroUnowned_keeps {q : List Instr} (s : State) (h : Good q s) : Good q (State.zeroUnowned s) := by
  unfold State.zeroUnowned
  extract_lets own t u
  have ht : Good q t := good_forAll (fun _ _ hs => State.markDirty_keeps _ _ _ _ hs) h
  have hu : Good q u := good_forAll (fun _ _ hs => State.markDirty_keeps _ _ _ _ hs) ht
  exact ⟨hu.queue, cellsWf_filter _ _ h.mem, hu.back, cellsWf_filter _ _ h.work, hu.nor, hu.arr, hu.snap, hu.brick, hu.fifo, hu.logq, hu.ram,
    hu.farm⟩

theorem State.applyEn_keeps {q : List Instr} (n : Nat) (s : State) (h : Good q s) : Good q (State.applyEn n s) := by
  unfold State.applyEn
  repeat' first
    | with_reducible assumption
    | intro _
    | with_reducible apply good_ite
    | with_reducible apply State.upT_keeps

theorem State.taskEnable_keeps {q : List Instr} (n : Nat) (en : Bool) (s : State) (h : Good q s) : Good q (State.taskEnable n en s) := by
  unfold State.taskEnable
  repeat' first
    | with_reducible assumption
    | intro _
    | with_reducible apply good_ite
    | with_reducible apply State.put_keeps
    | with_reducible apply State.applyEn_keeps

theorem State.holdOnly_keeps {q : List Instr} (fs : List Fam) (v : Nat) (n : Nat) (s : State) (h : Good q s) : Good q (State.holdOnly fs v n s) := by
  unfold State.holdOnly
  repeat' first
    | with_reducible assumption
    | intro _
    | with_reducible apply good_ite
    | with_reducible apply State.put_keeps
    | with_reducible apply State.putBits_keeps
    | split

theorem State.descWrite_keeps {q : List Instr} (n : Nat) (k : Nat) (v : Nat) (s : State) (h : Good q s) : Good q (State.descWrite n k v s) := by
  unfold State.descWrite
  repeat' first
    | with_reducible assumption
    | intro _
    | with_reducible apply good_ite
    | with_reducible apply State.put_keeps
    | with_reducible apply State.putBits_keeps
    | with_reducible apply State.applyEn_keeps
    | with_reducible apply State.holdOnly_keeps
    | with_reducible apply State.zeroUnowned_keeps
    | (extract_lets +onlyGivenNames x
       first
         | (refine good_cut (q := q) x ?cv ?ck
            case' ck => (intro hx; clear_value x)
            case' cv => (unfold x; clear x))
         | (refine good_cut_fst (q := q) x ?cv ?ck
            case' ck => (intro hx; clear_value x)
            case' cv => (unfold x; clear x))
         | (refine good_cut_snd (q := q) x ?cv ?ck
            case' ck => (intro hx; clear_value x)
            case' cv => (unfold x; clear x))
         | skip)
    | split
    | with_reducible apply good_mk
    | with_reducible rfl

theorem opTskDescriptorWrite_keeps {q : List Instr} (n : Nat) (k : Nat) (v : Nat) (s : State) (h : Good q s) : Good q (opTskDescriptorWrite n k v s) := by
  unfold opTskDescriptorWrite
  repeat' first
    | with_reducible assumption
    | intro _
    | with_reducible apply State.control_keeps
    | with_reducible apply State.descWrite_keeps

theorem opTaskEnableWrite_keeps {q : List Instr} (n : Nat) (en : Bool) (s : State) (h : Good q s) : Good q (opTaskEnableWrite n en s) := by
  unfold opTaskEnableWrite
  repeat' first
    | with_reducible assumption
    | intro _
    | with_reducible apply State.control_keeps
    | with_reducible apply State.taskEnable_keeps

theorem opTskClrstat_keeps {q : List Instr} (s : State) (h : Good q s) : Good q (opTskClrstat s) := by
  unfold opTskClrstat
  repeat' first
    | with_reducible assumption
    | intro _
    | with_reducible apply State.put_keeps
    | with_reducible apply good_forAll

theorem State.engPen_keeps {q : List Instr} (e : Nat) (s : State) (h : Good q s) : Good q (State.engPen e s) := by
  unfold State.engPen
  repeat' first
    | with_reducible assumption
    | intro _
    | with_reducible apply good_ite
    | with_reducible apply State.raise_keeps
    | with_reducible apply State.putBit_keeps

theorem opShedStart_keeps {q : List Instr} (e : Nat) (s : State) (h : Good q s) : Good q (opShedStart e s) := by
  unfold opShedStart
  repeat' first
    | with_reducible assumption
    | intro _
    | with_reducible apply good_ite
    | with_reducible apply State.put_keeps
    | with_reducible apply State.engPen_keeps
    | (extract_lets +onlyGivenNames x
       first
         | (refine good_cut (q := q) x ?cv ?ck
            case' ck => (intro hx; clear_value x)
            case' cv => (unfold x; clear x))
         | (refine good_cut_fst (q := q) x ?cv ?ck
            case' ck => (intro hx; clear_value x)
            case' cv => (unfold x; clear x))
         | (refine good_cut_snd (q := q) x ?cv ?ck
            case' ck => (intro hx; clear_value x)
            case' cv => (unfold x; clear x))
         | skip)
    | split
    | with_reducible apply good_mk
    | with_reducible rfl

theorem opShedEnd_keeps {q : List Instr} (e : Nat) (s : State) (h : Good q s) : Good q (opShedEnd e s) := by
  unfold opShedEnd
  repeat' first
    | with_reducible assumption
    | intro _
    | with_reducible apply good_ite
    | with_reducible apply State.put_keeps
    | with_reducible apply State.engPen_keeps
    | (extract_lets +onlyGivenNames x
       first
         | (refine good_cut (q := q) x ?cv ?ck
            case' ck => (intro hx; clear_value x)
            case' cv => (unfold x; clear x))
         | (refine good_cut_fst (q := q) x ?cv ?ck
            case' ck => (intro hx; clear_value x)
            case' cv => (unfold x; clear x))
         | (refine good_cut_snd (q := q) x ?cv ?ck
            case' ck => (intro hx; clear_value x)
            case' cv => (unfold x; clear x))
         | skip)
    | split
    | with_reducible apply good_mk
    | with_reducible rfl

theorem State.shedTick_keeps {q : List Instr} (s : State) (h : Good q s) : Good q (State.shedTick s) := by
  unfold State.shedTick
  repeat' first
    | with_reducible assumption
    | intro _
    | with_reducible apply good_ite
    | (extract_lets +onlyGivenNames x
       first
         | (refine good_cut (q := q) x ?cv ?ck
            case' ck => (intro hx; clear_value x)
            case' cv => (unfold x; clear x))
         | (refine good_cut_fst (q := q) x ?cv ?ck
            case' ck => (intro hx; clear_value x)
            case' cv => (unfold x; clear x))
         | (refine good_cut_snd (q := q) x ?cv ?ck
            case' ck => (intro hx; clear_value x)
            case' cv => (unfold x; clear x))
         | skip)
    | split
    | with_reducible apply good_mk
    | with_reducible rfl

theorem opTskShedClear_keeps {q : List Instr} (e : Nat) (s : State) (h : Good q s) : Good q (opTskShedClear e s) := by
  unfold opTskShedClear
  repeat' first
    | with_reducible assumption
    | intro _
    | with_reducible apply good_ite
    | (extract_lets +onlyGivenNames x
       first
         | (refine good_cut (q := q) x ?cv ?ck
            case' ck => (intro hx; clear_value x)
            case' cv => (unfold x; clear x))
         | (refine good_cut_fst (q := q) x ?cv ?ck
            case' ck => (intro hx; clear_value x)
            case' cv => (unfold x; clear x))
         | (refine good_cut_snd (q := q) x ?cv ?ck
            case' ck => (intro hx; clear_value x)
            case' cv => (unfold x; clear x))
         | skip)
    | with_reducible apply good_mk
    | split
    | with_reducible rfl

theorem opAbortLimit_keeps {q : List Instr} (n : Nat) (s : State) (h : Good q s) : Good q (opAbortLimit n s) := by
  unfold opAbortLimit
  repeat' first
    | with_reducible assumption
    | intro _
    | with_reducible apply good_ite
    | with_reducible apply State.taskFault_keeps
    | split
    | with_reducible apply good_mk
    | with_reducible rfl

theorem State.overrunNow_keeps {q : List Instr} (s : State) (n : Nat) (h : Good q s) : Good q (State.overrunNow s n) := by
  unfold State.overrunNow
  repeat' first
    | with_reducible assumption
    | intro _
    | with_reducible apply good_ite
    | with_reducible apply State.overrun_keeps
    | with_reducible apply State.raise_keeps
    | (extract_lets +onlyGivenNames x
       first
         | (refine good_cut (q := q) x ?cv ?ck
            case' ck => (intro hx; clear_value x)
            case' cv => (unfold x; clear x))
         | (refine good_cut_fst (q := q) x ?cv ?ck
            case' ck => (intro hx; clear_value x)
            case' cv => (unfold x; clear x))
         | (refine good_cut_snd (q := q) x ?cv ?ck
            case' ck => (intro hx; clear_value x)
            case' cv => (unfold x; clear x))
         | skip)

theorem State.seqStart_keeps {q : List Instr} (s : State) (h : Good q s) : Good q (State.seqStart s) := by
  unfold State.seqStart
  repeat' first
    | with_reducible assumption
    | intro _
    | with_reducible apply good_ite
    | with_reducible apply State.applyEn_keeps
    | with_reducible apply State.shedTick_keeps
    | with_reducible apply good_forAll
    | (extract_lets +onlyGivenNames x
       first
         | (refine good_cut (q := q) x ?cv ?ck
            case' ck => (intro hx; clear_value x)
            case' cv => (unfold x; clear x))
         | (refine good_cut_fst (q := q) x ?cv ?ck
            case' ck => (intro hx; clear_value x)
            case' cv => (unfold x; clear x))
         | (refine good_cut_snd (q := q) x ?cv ?ck
            case' ck => (intro hx; clear_value x)
            case' cv => (unfold x; clear x))
         | skip)
    | with_reducible apply good_mk
    | with_reducible rfl

theorem State.seqTick_keeps {q : List Instr} (a : Nat) (s : State) (h : Good q s) : Good q (State.seqTick a s) := by
  unfold State.seqTick
  repeat' first
    | with_reducible assumption
    | intro _
    | with_reducible apply good_ite
    | with_reducible apply State.upI_keeps
    | with_reducible apply State.overrunNow_keeps
    | with_reducible apply good_forAll
    | with_reducible apply good_foldl
    | with_reducible apply good_foldl_fst
    | with_reducible apply good_foldl_snd
    | (extract_lets +onlyGivenNames x
       first
         | (refine good_cut (q := q) x ?cv ?ck
            case' ck => (intro hx; clear_value x)
            case' cv => (unfold x; clear x))
         | (refine good_cut_fst (q := q) x ?cv ?ck
            case' ck => (intro hx; clear_value x)
            case' cv => (unfold x; clear x))
         | (refine good_cut_snd (q := q) x ?cv ?ck
            case' ck => (intro hx; clear_value x)
            case' cv => (unfold x; clear x))
         | skip)
    | split
    | with_reducible apply good_mk
    | with_reducible rfl

theorem State.releaseNow_keeps {q : List Instr} (s : State) (n : Nat) (h : Good q s) : Good q (State.releaseNow s n) := by
  unfold State.releaseNow
  repeat' first
    | with_reducible assumption
    | intro _
    | with_reducible apply good_ite
    | with_reducible apply good_ite_fst
    | with_reducible apply good_ite_snd
    | with_reducible apply State.release_keeps
    | with_reducible apply State.raise_keeps
    | split
    | with_reducible apply good_mk
    | with_reducible rfl

theorem State.seqLatchEnd_keeps {q : List Instr} (s : State) (h : Good q s) : Good q (State.seqLatchEnd s) := by
  unfold State.seqLatchEnd
  repeat' first
    | with_reducible assumption
    | intro _
    | with_reducible apply good_ite
    | with_reducible apply State.overrunNow_keeps
    | with_reducible apply State.releaseNow_keeps
    | with_reducible apply good_foldl
    | with_reducible apply good_foldl_fst
    | with_reducible apply good_foldl_snd
    | (extract_lets +onlyGivenNames x
       first
         | (refine good_cut (q := q) x ?cv ?ck
            case' ck => (intro hx; clear_value x)
            case' cv => (unfold x; clear x))
         | (refine good_cut_fst (q := q) x ?cv ?ck
            case' ck => (intro hx; clear_value x)
            case' cv => (unfold x; clear x))
         | (refine good_cut_snd (q := q) x ?cv ?ck
            case' ck => (intro hx; clear_value x)
            case' cv => (unfold x; clear x))
         | skip)
    | split
    | with_reducible apply good_mk
    | with_reducible rfl

theorem State.commitRange_keeps {q : List Instr} (a : Nat) (n : Nat) (s : State) (h : Good q s) : Good q (State.commitRange a n s).1 := by
  unfold State.commitRange
  repeat' first
    | with_reducible assumption
    | intro _
    | with_reducible apply good_ite
    | with_reducible apply good_ite_fst
    | with_reducible apply good_ite_snd
    | with_reducible apply State.eccRead_keeps
    | with_reducible apply State.eccWrite_keeps
    | with_reducible apply good_foldl
    | with_reducible apply good_foldl_fst
    | with_reducible apply good_foldl_snd
    | (extract_lets +onlyGivenNames x
       first
         | (refine good_cut (q := q) x ?cv ?ck
            case' ck => (intro hx; clear_value x)
            case' cv => (unfold x; clear x))
         | (refine good_cut_fst (q := q) x ?cv ?ck
            case' ck => (intro hx; clear_value x)
            case' cv => (unfold x; clear x))
         | (refine good_cut_snd (q := q) x ?cv ?ck
            case' ck => (intro hx; clear_value x)
            case' cv => (unfold x; clear x))
         | skip)
    | split
    | with_reducible apply good_mk
    | with_reducible rfl

theorem State.commitTask_keeps {q : List Instr} (n : Nat) (s : State) (h : Good q s) : Good q (State.commitTask n s) := by
  unfold State.commitTask
  repeat' first
    | with_reducible assumption
    | intro _
    | with_reducible apply good_ite
    | with_reducible apply good_ite_fst
    | with_reducible apply good_ite_snd
    | with_reducible apply State.commitRange_keeps
    | with_reducible apply State.upT_keeps
    | with_reducible apply State.engineFault_keeps
    | (extract_lets +onlyGivenNames x
       first
         | (refine good_cut (q := q) x ?cv ?ck
            case' ck => (intro hx; clear_value x)
            case' cv => (unfold x; clear x))
         | (refine good_cut_fst (q := q) x ?cv ?ck
            case' ck => (intro hx; clear_value x)
            case' cv => (unfold x; clear x))
         | (refine good_cut_snd (q := q) x ?cv ?ck
            case' ck => (intro hx; clear_value x)
            case' cv => (unfold x; clear x))
         | skip)
    | split
    | with_reducible apply good_mk
    | with_reducible rfl

theorem State.countCommits_keeps {q : List Instr} (l : List Inst) (s : State) (h : Good q s) : Good q (State.countCommits l s) := by
  unfold State.countCommits
  repeat' first
    | with_reducible assumption
    | intro _
    | with_reducible apply good_ite
    | with_reducible apply State.put_keeps
    | (extract_lets +onlyGivenNames x
       first
         | (refine good_cut (q := q) x ?cv ?ck
            case' ck => (intro hx; clear_value x)
            case' cv => (unfold x; clear x))
         | (refine good_cut_fst (q := q) x ?cv ?ck
            case' ck => (intro hx; clear_value x)
            case' cv => (unfold x; clear x))
         | (refine good_cut_snd (q := q) x ?cv ?ck
            case' ck => (intro hx; clear_value x)
            case' cv => (unfold x; clear x))
         | skip)

theorem State.commitImages_keeps {q : List Instr} (s : State) (h : Good q s) : Good q (State.commitImages s).1 := by
  unfold State.commitImages
  repeat' first
    | with_reducible assumption
    | intro _
    | with_reducible apply good_ite
    | with_reducible apply good_ite_fst
    | with_reducible apply good_ite_snd
    | with_reducible apply State.upT_keeps
    | with_reducible apply State.countCommits_keeps
    | with_reducible apply State.commitTask_keeps
    | with_reducible apply good_foldl
    | with_reducible apply good_foldl_fst
    | with_reducible apply good_foldl_snd
    | (extract_lets +onlyGivenNames x
       first
         | (refine good_cut (q := q) x ?cv ?ck
            case' ck => (intro hx; clear_value x)
            case' cv => (unfold x; clear x))
         | (refine good_cut_fst (q := q) x ?cv ?ck
            case' ck => (intro hx; clear_value x)
            case' cv => (unfold x; clear x))
         | (refine good_cut_snd (q := q) x ?cv ?ck
            case' ck => (intro hx; clear_value x)
            case' cv => (unfold x; clear x))
         | skip)
    | split
    | with_reducible apply good_mk
    | with_reducible rfl

theorem State.utilTick_keeps {q : List Instr} (s : State) (h : Good q s) : Good q (State.utilTick s) := by
  unfold State.utilTick
  repeat' first
    | with_reducible assumption
    | intro _
    | with_reducible apply State.put_keeps
    | with_reducible apply good_forAll
    | (extract_lets +onlyGivenNames x
       first
         | (refine good_cut (q := q) x ?cv ?ck
            case' ck => (intro hx; clear_value x)
            case' cv => (unfold x; clear x))
         | (refine good_cut_fst (q := q) x ?cv ?ck
            case' ck => (intro hx; clear_value x)
            case' cv => (unfold x; clear x))
         | (refine good_cut_snd (q := q) x ?cv ?ck
            case' ck => (intro hx; clear_value x)
            case' cv => (unfold x; clear x))
         | skip)
    | with_reducible apply good_mk
    | with_reducible rfl

end Sys2Proof.Machine
end

