-- ==== Sys2Proof/Laws/KeepsDrive.lean ====
section
/-! SUPPORT. Laws/KeepsDrive.lean: every operation of Machine/Drive.lean keeps `Good`. -/

namespace Sys2Proof.Machine

theorem State.uvloLevel_keeps {q : List Instr} (n : Nat) (s : State) (h : Good q s) : Good q (State.uvloLevel n s) := by
  unfold State.uvloLevel
  repeat' first
    | with_reducible assumption
    | intro _
    | with_reducible apply good_ite
    | with_reducible apply State.level_keeps

theorem State.channelFault_keeps {q : List Instr} (n : Nat) (s : State) (h : Good q s) : Good q (State.channelFault n s) := by
  unfold State.channelFault
  repeat' first
    | with_reducible assumption
    | intro _
    | with_reducible apply good_ite
    | with_reducible apply State.umbraEnter_keeps
    | split
    | with_reducible apply good_mk
    | with_reducible rfl

theorem State.dieEnable_keeps {q : List Instr} (n : Nat) (en : Bool) (s : State) (h : Good q s) : Good q (State.dieEnable n en s) := by
  unfold State.dieEnable
  repeat' first
    | with_reducible assumption
    | intro _
    | with_reducible apply good_ite
    | with_reducible apply State.upDie_keeps
    | with_reducible apply State.uvloLevel_keeps
    | with_reducible apply State.channelFault_keeps
    | with_reducible apply State.dieHold_keeps
    | (extract_lets +onlyGivenNames x
       first
         | (refine good_cut (q := q) x ?cv ?ck
            case' ck => (intro hx; clear_value x)
            case' cv => (unfold x; clear x))
         | (refine good_cut_fst (q := q) x ?cv ?ck
            case' ck => (intro hx; clear_value x)
            case' cv => (unfold x; clear x))
         | (refine good_cut_snd (q := q) x ?cv ?ck
            case' ck => (intro hx; clear_value x)
            case' cv => (unfold x; clear x))
         | skip)
    | split
    | with_reducible apply good_mk
    | with_reducible rfl

theorem State.dieTake_keeps {q : List Instr} (n : Nat) (m : DieMsg) (s : State) (h : Good q s) : Good q (State.dieTake n m s) := by
  unfold State.dieTake
  repeat' first
    | with_reducible assumption
    | intro _
    | with_reducible apply good_ite
    | with_reducible apply State.dieEnable_keeps
    | with_reducible apply State.dieEdge_keeps
    | with_reducible apply State.upDie_keeps
    | (extract_lets +onlyGivenNames x
       first
         | (refine good_cut (q := q) x ?cv ?ck
            case' ck => (intro hx; clear_value x)
            case' cv => (unfold x; clear x))
         | (refine good_cut_fst (q := q) x ?cv ?ck
            case' ck => (intro hx; clear_value x)
            case' cv => (unfold x; clear x))
         | (refine good_cut_snd (q := q) x ?cv ?ck
            case' ck => (intro hx; clear_value x)
            case' cv => (unfold x; clear x))
         | skip)
    | split
    | with_reducible apply good_mk
    | with_reducible rfl

theorem opGateEdgeCommand_keeps {q : List Instr} (n : Nat) (s : State) (h : Good q s) : Good q (opGateEdgeCommand n s) := by
  unfold opGateEdgeCommand
  repeat' first
    | with_reducible assumption
    | intro _
    | with_reducible apply good_ite
    | with_reducible apply State.advanceReal_keeps
    | with_reducible apply State.upDie_keeps
    | with_reducible apply State.dieTake_keeps
    | (extract_lets +onlyGivenNames x
       first
         | (refine good_cut (q := q) x ?cv ?ck
            case' ck => (intro hx; clear_value x)
            case' cv => (unfold x; clear x))
         | (refine good_cut_fst (q := q) x ?cv ?ck
            case' ck => (intro hx; clear_value x)
            case' cv => (unfold x; clear x))
         | (refine good_cut_snd (q := q) x ?cv ?ck
            case' ck => (intro hx; clear_value x)
            case' cv => (unfold x; clear x))
         | skip)
    | split
    | with_reducible apply good_mk
    | with_reducible rfl

theorem opPhaseAEnd_keeps {q : List Instr} (n : Nat) (s : State) (h : Good q s) : Good q (opPhaseAEnd n s) := by
  unfold opPhaseAEnd
  repeat' first
    | with_reducible assumption
    | intro _
    | with_reducible apply good_ite
    | with_reducible apply State.advanceReal_keeps
    | with_reducible apply State.diePhase_keeps
    | (extract_lets +onlyGivenNames x
       first
         | (refine good_cut (q := q) x ?cv ?ck
            case' ck => (intro hx; clear_value x)
            case' cv => (unfold x; clear x))
         | (refine good_cut_fst (q := q) x ?cv ?ck
            case' ck => (intro hx; clear_value x)
            case' cv => (unfold x; clear x))
         | (refine good_cut_snd (q := q) x ?cv ?ck
            case' ck => (intro hx; clear_value x)
            case' cv => (unfold x; clear x))
         | skip)
    | split

theorem State.putPlat_keeps {q : List Instr} (n : Nat) (v : Nat) (s : State) (h : Good q s) : Good q (State.putPlat n v s) := by
  unfold State.putPlat
  repeat' first
    | with_reducible assumption
    | intro _
    | with_reducible apply good_ite
    | with_reducible apply State.put_keeps

theorem opPlateauExit_keeps {q : List Instr} (n : Nat) (t : Nat) (s : State) (h : Good q s) : Good q (opPlateauExit n t s) := by
  unfold opPlateauExit
  repeat' first
    | with_reducible assumption
    | intro _
    | with_reducible apply good_ite
    | with_reducible apply State.advance_keeps
    | with_reducible apply State.putPlat_keeps
    | with_reducible apply State.diePhase_keeps
    | (extract_lets +onlyGivenNames x
       first
         | (refine good_cut (q := q) x ?cv ?ck
            case' ck => (intro hx; clear_value x)
            case' cv => (unfold x; clear x))
         | (refine good_cut_fst (q := q) x ?cv ?ck
            case' ck => (intro hx; clear_value x)
            case' cv => (unfold x; clear x))
         | (refine good_cut_snd (q := q) x ?cv ?ck
            case' ck => (intro hx; clear_value x)
            case' cv => (unfold x; clear x))
         | skip)
    | split

theorem opPlateauTimeout_keeps {q : List Instr} (n : Nat) (s : State) (h : Good q s) : Good q (opPlateauTimeout n s) := by
  unfold opPlateauTimeout
  repeat' first
    | with_reducible assumption
    | intro _
    | with_reducible apply good_ite
    | with_reducible apply State.advanceReal_keeps
    | with_reducible apply State.putPlat_keeps
    | with_reducible apply State.diePhase_keeps
    | with_reducible apply State.put_keeps
    | with_reducible apply State.bump_keeps
    | with_reducible apply State.raise_keeps
    | (extract_lets +onlyGivenNames x
       first
         | (refine good_cut (q := q) x ?cv ?ck
            case' ck => (intro hx; clear_value x)
            case' cv => (unfold x; clear x))
         | (refine good_cut_fst (q := q) x ?cv ?ck
            case' ck => (intro hx; clear_value x)
            case' cv => (unfold x; clear x))
         | (refine good_cut_snd (q := q) x ?cv ?ck
            case' ck => (intro hx; clear_value x)
            case' cv => (unfold x; clear x))
         | skip)
    | split

theorem opMillerClampEngage_keeps {q : List Instr} (n : Nat) (s : State) (h : Good q s) : Good q (opMillerClampEngage n s) := by
  unfold opMillerClampEngage
  repeat' first
    | with_reducible assumption
    | intro _
    | with_reducible apply good_ite
    | with_reducible apply State.put_keeps
    | split

theorem State.shortLost_keeps {q : List Instr} (n : Nat) (s : State) (h : Good q s) : Good q (State.shortLost n s) := by
  unfold State.shortLost
  repeat' first
    | with_reducible assumption
    | intro _
    | with_reducible apply good_ite
    | with_reducible apply State.put_keeps
    | with_reducible apply State.dieCmd_keeps
    | with_reducible apply good_forAll
    | (extract_lets +onlyGivenNames x
       first
         | (refine good_cut (q := q) x ?cv ?ck
            case' ck => (intro hx; clear_value x)
            case' cv => (unfold x; clear x))
         | (refine good_cut_fst (q := q) x ?cv ?ck
            case' ck => (intro hx; clear_value x)
            case' cv => (unfold x; clear x))
         | (refine good_cut_snd (q := q) x ?cv ?ck
            case' ck => (intro hx; clear_value x)
            case' cv => (unfold x; clear x))
         | skip)
    | with_reducible apply good_mk
    | split
    | with_reducible rfl

theorem State.quietNow_keeps {q : List Instr} (n : Nat) (s : State) (h : Good q s) : Good q (State.quietNow n s) := by
  unfold State.quietNow
  repeat' first
    | with_reducible assumption
    | intro _
    | with_reducible apply good_ite
    | with_reducible apply State.upDie_keeps
    | (extract_lets +onlyGivenNames x
       first
         | (refine good_cut (q := q) x ?cv ?ck
            case' ck => (intro hx; clear_value x)
            case' cv => (unfold x; clear x))
         | (refine good_cut_fst (q := q) x ?cv ?ck
            case' ck => (intro hx; clear_value x)
            case' cv => (unfold x; clear x))
         | (refine good_cut_snd (q := q) x ?cv ?ck
            case' ck => (intro hx; clear_value x)
            case' cv => (unfold x; clear x))
         | skip)
    | split
    | with_reducible apply good_mk
    | with_reducible rfl

theorem opUvloEntry_keeps {q : List Instr} (n : Nat) (vddg : Bool) (s : State) (h : Good q s) : Good q (opUvloEntry n vddg s) := by
  unfold opUvloEntry
  repeat' first
    | with_reducible assumption
    | intro _
    | with_reducible apply good_ite
    | with_reducible apply State.quietNow_keeps
    | with_reducible apply State.put_keeps
    | with_reducible apply State.dieEdge_keeps
    | with_reducible apply State.uvloLevel_keeps
    | with_reducible apply State.rollStop_keeps
    | with_reducible apply State.shortLost_keeps
    | with_reducible apply State.channelFault_keeps
    | (extract_lets +onlyGivenNames x
       first
         | (refine good_cut (q := q) x ?cv ?ck
            case' ck => (intro hx; clear_value x)
            case' cv => (unfold x; clear x))
         | (refine good_cut_fst (q := q) x ?cv ?ck
            case' ck => (intro hx; clear_value x)
            case' cv => (unfold x; clear x))
         | (refine good_cut_snd (q := q) x ?cv ?ck
            case' ck => (intro hx; clear_value x)
            case' cv => (unfold x; clear x))
         | skip)
    | split

theorem opUvloExit_keeps {q : List Instr} (n : Nat) (vddg : Bool) (s : State) (h : Good q s) : Good q (opUvloExit n vddg s) := by
  unfold opUvloExit
  repeat' first
    | with_reducible assumption
    | intro _
    | with_reducible apply good_ite
    | with_reducible apply State.put_keeps
    | with_reducible apply State.uvloLevel_keeps
    | split

theorem opDieChannelLoss_keeps {q : List Instr} (n : Nat) (s : State) (h : Good q s) : Good q (opDieChannelLoss n s) := by
  unfold opDieChannelLoss
  repeat' first
    | with_reducible assumption
    | intro _
    | with_reducible apply good_ite
    | with_reducible apply State.put_keeps
    | with_reducible apply State.dieEdge_keeps
    | with_reducible apply State.rollStop_keeps
    | with_reducible apply State.shortLost_keeps
    | with_reducible apply State.channelFault_keeps

theorem opCoreChannelLoss_keeps {q : List Instr} (n : Nat) (s : State) (h : Good q s) : Good q (opCoreChannelLoss n s) := by
  unfold opCoreChannelLoss
  repeat' first
    | with_reducible assumption
    | intro _
    | with_reducible apply good_ite
    | with_reducible apply State.put_keeps
    | with_reducible apply State.uvloLevel_keeps
    | with_reducible apply State.rollStop_keeps
    | with_reducible apply State.channelFault_keeps
    | split

theorem opDriveChannelReturn_keeps {q : List Instr} (n : Nat) (s : State) (h : Good q s) : Good q (opDriveChannelReturn n s) := by
  unfold opDriveChannelReturn
  repeat' first
    | with_reducible assumption
    | intro _
    | with_reducible apply good_ite
    | with_reducible apply State.put_keeps
    | with_reducible apply State.uvloLevel_keeps

theorem opDieConfigTransferComplete_keeps {q : List Instr} (n : Nat) (s : State) (h : Good q s) : Good q (opDieConfigTransferComplete n s) := by
  unfold opDieConfigTransferComplete
  repeat' first
    | with_reducible assumption
    | intro _
    | with_reducible apply good_ite
    | with_reducible apply State.put_keeps
    | with_reducible apply State.dieTransfer_keeps

theorem opGdrvEnWrite_keeps {q : List Instr} (n : Nat) (en : Bool) (s : State) (h : Good q s) : Good q (opGdrvEnWrite n en s) := by
  unfold opGdrvEnWrite
  repeat' first
    | with_reducible assumption
    | intro _
    | with_reducible apply good_ite
    | with_reducible apply State.put_keeps
    | with_reducible apply State.upDie_keeps
    | (extract_lets +onlyGivenNames x
       first
         | (refine good_cut (q := q) x ?cv ?ck
            case' ck => (intro hx; clear_value x)
            case' cv => (unfold x; clear x))
         | (refine good_cut_fst (q := q) x ?cv ?ck
            case' ck => (intro hx; clear_value x)
            case' cv => (unfold x; clear x))
         | (refine good_cut_snd (q := q) x ?cv ?ck
            case' ck => (intro hx; clear_value x)
            case' cv => (unfold x; clear x))
         | skip)
    | split
    | with_reducible apply good_mk
    | with_reducible rfl

theorem opGdrvFclr_keeps {q : List Instr} (n : Nat) (s : State) (h : Good q s) : Good q (opGdrvFclr n s) := by
  unfold opGdrvFclr
  repeat' first
    | with_reducible assumption
    | intro _
    | with_reducible apply good_ite
    | with_reducible apply State.clearLatches_keeps

theorem State.desat_keeps {q : List Instr} (n : Nat) (s : State) (h : Good q s) : Good q (State.desat n s) := by
  unfold State.desat
  repeat' first
    | with_reducible assumption
    | intro _
    | with_reducible apply good_ite
    | with_reducible apply State.put_keeps
    | with_reducible apply State.bump_keeps
    | with_reducible apply State.dieEdge_keeps
    | with_reducible apply State.upDie_keeps
    | with_reducible apply State.raise_keeps
    | with_reducible apply State.shortLost_keeps
    | with_reducible apply State.channelFault_keeps
    | (extract_lets +onlyGivenNames x
       first
         | (refine good_cut (q := q) x ?cv ?ck
            case' ck => (intro hx; clear_value x)
            case' cv => (unfold x; clear x))
         | (refine good_cut_fst (q := q) x ?cv ?ck
            case' ck => (intro hx; clear_value x)
            case' cv => (unfold x; clear x))
         | (refine good_cut_snd (q := q) x ?cv ?ck
            case' ck => (intro hx; clear_value x)
            case' cv => (unfold x; clear x))
         | skip)
    | split
    | with_reducible apply good_mk
    | with_reducible rfl

theorem opDesaturation_keeps {q : List Instr} (n : Nat) (s : State) (h : Good q s) : Good q (opDesaturation n s) := by
  unfold opDesaturation
  repeat' first
    | with_reducible assumption
    | intro _
    | with_reducible apply good_ite
    | with_reducible apply State.desat_keeps
    | split
    | with_reducible apply good_mk
    | with_reducible rfl

theorem opActiveShort_keeps {q : List Instr} (s : State) (h : Good q s) : Good q (opActiveShort s) := by
  unfold opActiveShort
  repeat' first
    | with_reducible assumption
    | intro _
    | with_reducible apply good_ite
    | with_reducible apply State.put_keeps
    | with_reducible apply State.dieEdge_keeps
    | with_reducible apply State.advanceReal_keeps
    | with_reducible apply good_forAll
    | (extract_lets +onlyGivenNames x
       first
         | (refine good_cut (q := q) x ?cv ?ck
            case' ck => (intro hx; clear_value x)
            case' cv => (unfold x; clear x))
         | (refine good_cut_fst (q := q) x ?cv ?ck
            case' ck => (intro hx; clear_value x)
            case' cv => (unfold x; clear x))
         | (refine good_cut_snd (q := q) x ?cv ?ck
            case' ck => (intro hx; clear_value x)
            case' cv => (unfold x; clear x))
         | skip)
    | split
    | with_reducible apply good_mk
    | with_reducible rfl

theorem State.pwmCommit_keeps {q : List Instr} (s : State) (h : Good q s) : Good q (State.pwmCommit s) := by
  unfold State.pwmCommit
  repeat' first
    | with_reducible assumption
    | intro _
    | with_reducible apply State.dutyCommit_keeps
    | with_reducible apply State.benFollow_keeps
    | with_reducible apply good_forAll

theorem State.legSwitch_keeps {q : List Instr} (l : Nat) (ref : Bool) (s : State) (h : Good q s) : Good q (State.legSwitch l ref s) := by
  unfold State.legSwitch
  repeat' first
    | with_reducible assumption
    | intro _
    | with_reducible apply good_ite
    | with_reducible apply State.dieCmd_keeps
    | (extract_lets +onlyGivenNames x
       first
         | (refine good_cut (q := q) x ?cv ?ck
            case' ck => (intro hx; clear_value x)
            case' cv => (unfold x; clear x))
         | (refine good_cut_fst (q := q) x ?cv ?ck
            case' ck => (intro hx; clear_value x)
            case' cv => (unfold x; clear x))
         | (refine good_cut_snd (q := q) x ?cv ?ck
            case' ck => (intro hx; clear_value x)
            case' cv => (unfold x; clear x))
         | skip)
    | with_reducible apply good_mk
    | split
    | with_reducible rfl

theorem State.setRef_keeps {q : List Instr} (l : Nat) (ref : Bool) (s : State) (h : Good q s) : Good q (State.setRef l ref s) := by
  unfold State.setRef
  repeat' first
    | with_reducible assumption
    | intro _
    | with_reducible apply good_ite
    | with_reducible apply State.legSwitch_keeps
    | with_reducible apply State.dieCmd_keeps
    | with_reducible apply State.chop_keeps
    | (extract_lets +onlyGivenNames x
       first
         | (refine good_cut (q := q) x ?cv ?ck
            case' ck => (intro hx; clear_value x)
            case' cv => (unfold x; clear x))
         | (refine good_cut_fst (q := q) x ?cv ?ck
            case' ck => (intro hx; clear_value x)
            case' cv => (unfold x; clear x))
         | (refine good_cut_snd (q := q) x ?cv ?ck
            case' ck => (intro hx; clear_value x)
            case' cv => (unfold x; clear x))
         | skip)
    | with_reducible apply good_mk
    | split
    | with_reducible rfl

theorem opLegReferenceChange_keeps {q : List Instr} (l : Nat) (t : Nat) (s : State) (h : Good q s) : Good q (opLegReferenceChange l t s) := by
  unfold opLegReferenceChange
  repeat' first
    | with_reducible assumption
    | intro _
    | with_reducible apply State.advance_keeps
    | with_reducible apply State.setRef_keeps

theorem opDeadTimeExpiry_keeps {q : List Instr} (l : Nat) (s : State) (h : Good q s) : Good q (opDeadTimeExpiry l s) := by
  unfold opDeadTimeExpiry
  repeat' first
    | with_reducible assumption
    | intro _
    | with_reducible apply State.advanceReal_keeps
    | with_reducible apply State.dieCmd_keeps
    | (extract_lets +onlyGivenNames x
       first
         | (refine good_cut (q := q) x ?cv ?ck
            case' ck => (intro hx; clear_value x)
            case' cv => (unfold x; clear x))
         | (refine good_cut_fst (q := q) x ?cv ?ck
            case' ck => (intro hx; clear_value x)
            case' cv => (unfold x; clear x))
         | (refine good_cut_snd (q := q) x ?cv ?ck
            case' ck => (intro hx; clear_value x)
            case' cv => (unfold x; clear x))
         | skip)
    | split
    | with_reducible apply good_mk
    | with_reducible rfl

theorem State.loadCompare_keeps {q : List Instr} (s : State) (h : Good q s) : Good q (State.loadCompare s) := by
  unfold State.loadCompare
  repeat' first
    | with_reducible assumption
    | intro _
    | with_reducible apply good_forAll
    | (extract_lets +onlyGivenNames x
       first
         | (refine good_cut (q := q) x ?cv ?ck
            case' ck => (intro hx; clear_value x)
            case' cv => (unfold x; clear x))
         | (refine good_cut_fst (q := q) x ?cv ?ck
            case' ck => (intro hx; clear_value x)
            case' cv => (unfold x; clear x))
         | (refine good_cut_snd (q := q) x ?cv ?ck
            case' ck => (intro hx; clear_value x)
            case' cv => (unfold x; clear x))
         | skip)
    | with_reducible apply good_mk
    | with_reducible rfl

theorem State.peakLoad_keeps {q : List Instr} (n : Nat) (s : State) (h : Good q s) : Good q (State.peakLoad n s) := by
  unfold State.peakLoad
  repeat' first
    | with_reducible assumption
    | intro _
    | with_reducible apply good_ite
    | with_reducible apply State.dieTransfer_keeps

theorem State.follow_keeps {q : List Instr} (s : State) (h : Good q s) : Good q (State.follow s) := by
  unfold State.follow
  repeat' first
    | with_reducible assumption
    | intro _
    | with_reducible apply good_ite
    | with_reducible apply State.legSwitch_keeps
    | with_reducible apply State.dieCmd_keeps
    | with_reducible apply good_forAll
    | (extract_lets +onlyGivenNames x
       first
         | (refine good_cut (q := q) x ?cv ?ck
            case' ck => (intro hx; clear_value x)
            case' cv => (unfold x; clear x))
         | (refine good_cut_fst (q := q) x ?cv ?ck
            case' ck => (intro hx; clear_value x)
            case' cv => (unfold x; clear x))
         | (refine good_cut_snd (q := q) x ?cv ?ck
            case' ck => (intro hx; clear_value x)
            case' cv => (unfold x; clear x))
         | skip)
    | split
    | with_reducible apply good_mk
    | with_reducible rfl

theorem opCarrierPeak_keeps {q : List Instr} (s : State) (h : Good q s) : Good q (opCarrierPeak s) := by
  unfold opCarrierPeak
  repeat' first
    | with_reducible assumption
    | intro _
    | with_reducible apply good_ite
    | with_reducible apply State.advance_keeps
    | with_reducible apply State.put_keeps
    | with_reducible apply State.peakLoad_keeps
    | with_reducible apply State.loadCompare_keeps
    | with_reducible apply State.setRef_keeps
    | with_reducible apply State.dieCmd_keeps
    | with_reducible apply State.benFollow_keeps
    | with_reducible apply State.follow_keeps
    | with_reducible apply State.chop_keeps
    | with_reducible apply good_forAll
    | split
    | (extract_lets +onlyGivenNames x
       first
         | (refine good_cut (q := q) x ?cv ?ck
            case' ck => (intro hx; clear_value x)
            case' cv => (unfold x; clear x))
         | (refine good_cut_fst (q := q) x ?cv ?ck
            case' ck => (intro hx; clear_value x)
            case' cv => (unfold x; clear x))
         | (refine good_cut_snd (q := q) x ?cv ?ck
            case' ck => (intro hx; clear_value x)
            case' cv => (unfold x; clear x))
         | skip)
    | with_reducible apply good_mk
    | with_reducible rfl

theorem opCarrierValley_keeps {q : List Instr} (s : State) (h : Good q s) : Good q (opCarrierValley s) := by
  unfold opCarrierValley
  repeat' first
    | with_reducible assumption
    | intro _
    | with_reducible apply good_ite
    | with_reducible apply State.put_keeps
    | with_reducible apply State.chopCount_keeps
    | with_reducible apply State.advance_keeps
    | with_reducible apply State.chop_keeps
    | (extract_lets +onlyGivenNames x
       first
         | (refine good_cut (q := q) x ?cv ?ck
            case' ck => (intro hx; clear_value x)
            case' cv => (unfold x; clear x))
         | (refine good_cut_fst (q := q) x ?cv ?ck
            case' ck => (intro hx; clear_value x)
            case' cv => (unfold x; clear x))
         | (refine good_cut_snd (q := q) x ?cv ?ck
            case' ck => (intro hx; clear_value x)
            case' cv => (unfold x; clear x))
         | skip)
    | with_reducible apply good_mk
    | split
    | with_reducible rfl

theorem opChopperCapReached_keeps {q : List Instr} (s : State) (h : Good q s) : Good q (opChopperCapReached s) := by
  unfold opChopperCapReached
  repeat' first
    | with_reducible assumption
    | intro _
    | with_reducible apply good_ite
    | with_reducible apply State.advanceReal_keeps
    | with_reducible apply State.chopCount_keeps
    | with_reducible apply State.put_keeps
    | with_reducible apply State.chop_keeps
    | (extract_lets +onlyGivenNames x
       first
         | (refine good_cut (q := q) x ?cv ?ck
            case' ck => (intro hx; clear_value x)
            case' cv => (unfold x; clear x))
         | (refine good_cut_fst (q := q) x ?cv ?ck
            case' ck => (intro hx; clear_value x)
            case' cv => (unfold x; clear x))
         | (refine good_cut_snd (q := q) x ?cv ?ck
            case' ck => (intro hx; clear_value x)
            case' cv => (unfold x; clear x))
         | skip)
    | split
    | with_reducible apply good_mk
    | with_reducible rfl

theorem opGdrvLoad_keeps {q : List Instr} (n : Nat) (s : State) (h : Good q s) : Good q (opGdrvLoad n s) := by
  unfold opGdrvLoad
  repeat' first
    | with_reducible assumption
    | intro _
    | with_reducible apply good_ite
    | with_reducible apply State.upDie_keeps
    | with_reducible apply State.dieTransfer_keeps

theorem State.takeCp_keeps {q : List Instr} (v : Nat) (s : State) (h : Good q s) : Good q (State.takeCp v s) := by
  unfold State.takeCp
  repeat' first
    | with_reducible assumption
    | intro _
    | with_reducible apply good_ite
    | with_reducible apply State.put_keeps
    | (extract_lets +onlyGivenNames x
       first
         | (refine good_cut (q := q) x ?cv ?ck
            case' ck => (intro hx; clear_value x)
            case' cv => (unfold x; clear x))
         | (refine good_cut_fst (q := q) x ?cv ?ck
            case' ck => (intro hx; clear_value x)
            case' cv => (unfold x; clear x))
         | (refine good_cut_snd (q := q) x ?cv ?ck
            case' ck => (intro hx; clear_value x)
            case' cv => (unfold x; clear x))
         | skip)
    | with_reducible apply good_mk
    | split
    | with_reducible rfl

theorem opGdrvCpWrite_keeps {q : List Instr} (v : Nat) (s : State) (h : Good q s) : Good q (opGdrvCpWrite v s) := by
  unfold opGdrvCpWrite
  repeat' first
    | with_reducible assumption
    | intro _
    | with_reducible apply good_ite
    | with_reducible apply State.put_keeps
    | with_reducible apply State.takeCp_keeps

theorem opGdrvDtWrite_keeps {q : List Instr} (v : Nat) (s : State) (h : Good q s) : Good q (opGdrvDtWrite v s) := by
  unfold opGdrvDtWrite
  repeat' first
    | with_reducible assumption
    | intro _
    | with_reducible apply good_ite
    | with_reducible apply State.put_keeps

theorem opGdrvBindWrite_keeps {q : List Instr} (k : Nat) (v : Nat) (s : State) (h : Good q s) : Good q (opGdrvBindWrite k v s) := by
  unfold opGdrvBindWrite
  repeat' first
    | with_reducible assumption
    | intro _
    | with_reducible apply good_ite
    | with_reducible apply State.put_keeps

theorem opGdrvDutyWrite_keeps {q : List Instr} (k : Nat) (v : Nat) (s : State) (h : Good q s) : Good q (opGdrvDutyWrite k v s) := by
  unfold opGdrvDutyWrite
  repeat' first
    | with_reducible assumption
    | intro _
    | with_reducible apply good_ite
    | with_reducible apply State.put_keeps

theorem opSvbenWrite_keeps {q : List Instr} (v : Bool) (s : State) (h : Good q s) : Good q (opSvbenWrite v s) := by
  unfold opSvbenWrite
  repeat' first
    | with_reducible assumption
    | intro _
    | with_reducible apply good_ite
    | with_reducible apply State.put_keeps
    | with_reducible apply State.benFollow_keeps

theorem State.auxMode_keeps {q : List Instr} (v : Bool) (s : State) (h : Good q s) : Good q (State.auxMode v s) := by
  unfold State.auxMode
  repeat' first
    | with_reducible assumption
    | intro _
    | with_reducible apply good_ite
    | with_reducible apply State.put_keeps
    | with_reducible apply State.dieCmd_keeps

theorem opDlnkChbindWrite_keeps {q : List Instr} (v : Nat) (s : State) (h : Good q s) : Good q (opDlnkChbindWrite v s) := by
  unfold opDlnkChbindWrite
  repeat' first
    | with_reducible assumption
    | intro _
    | with_reducible apply good_ite
    | with_reducible apply State.put_keeps

theorem State.chDuty_keeps {q : List Instr} (v : Nat) (s : State) (h : Good q s) : Good q (State.chDuty v s) := by
  unfold State.chDuty
  repeat' first
    | with_reducible assumption
    | intro _
    | with_reducible apply good_ite
    | with_reducible apply State.put_keeps

theorem State.hysteresis_keeps {q : List Instr} (s : State) (h : Good q s) : Good q (State.hysteresis s) := by
  unfold State.hysteresis
  repeat' first
    | with_reducible assumption
    | intro _
    | with_reducible apply good_ite
    | with_reducible apply State.put_keeps

theorem State.cmpApply_keeps {q : List Instr} (on : Bool) (off : Bool) (trip : Bool) (s : State) (h : Good q s) : Good q (State.cmpApply on off trip s) := by
  unfold State.cmpApply
  repeat' first
    | with_reducible assumption
    | intro _
    | with_reducible apply good_ite
    | with_reducible apply State.put_keeps
    | with_reducible apply State.hysteresis_keeps
    | with_reducible apply State.umbraEnter_keeps
    | with_reducible apply State.raise_keeps
    | with_reducible apply State.bump_keeps
    | with_reducible apply State.chop_keeps

theorem opDlnkComparatorChange_keeps {q : List Instr} (von : Nat) (voff : Nat) (vtrip : Nat) (s : State) (h : Good q s) : Good q (opDlnkComparatorChange von voff vtrip s) := by
  unfold opDlnkComparatorChange
  repeat' first
    | with_reducible assumption
    | intro _
    | with_reducible apply good_ite
    | with_reducible apply State.cmp_keeps
    | with_reducible apply State.cmpApply_keeps
    | (extract_lets +onlyGivenNames x
       first
         | (refine good_cut (q := q) x ?cv ?ck
            case' ck => (intro hx; clear_value x)
            case' cv => (unfold x; clear x))
         | (refine good_cut_fst (q := q) x ?cv ?ck
            case' ck => (intro hx; clear_value x)
            case' cv => (unfold x; clear x))
         | (refine good_cut_snd (q := q) x ?cv ?ck
            case' ck => (intro hx; clear_value x)
            case' cv => (unfold x; clear x))
         | skip)
    | split
    | with_reducible apply good_mk
    | with_reducible rfl

theorem State.dlnkSample_keeps {q : List Instr} (v : Nat) (te : Nat) (s : State) (h : Good q s) : Good q (State.dlnkSample v te s) := by
  unfold State.dlnkSample
  repeat' first
    | with_reducible assumption
    | intro _
    | with_reducible apply good_ite
    | with_reducible apply State.put_keeps
    | with_reducible apply State.level_keeps
    | (extract_lets +onlyGivenNames x
       first
         | (refine good_cut (q := q) x ?cv ?ck
            case' ck => (intro hx; clear_value x)
            case' cv => (unfold x; clear x))
         | (refine good_cut_fst (q := q) x ?cv ?ck
            case' ck => (intro hx; clear_value x)
            case' cv => (unfold x; clear x))
         | (refine good_cut_snd (q := q) x ?cv ?ck
            case' ck => (intro hx; clear_value x)
            case' cv => (unfold x; clear x))
         | skip)
    | split
    | with_reducible apply good_mk
    | with_reducible rfl

theorem State.thermalLevels_keeps {q : List Instr} (s : State) (h : Good q s) : Good q (State.thermalLevels s) := by
  unfold State.thermalLevels
  repeat' first
    | with_reducible assumption
    | intro _
    | with_reducible apply good_ite
    | with_reducible apply State.put_keeps
    | with_reducible apply State.level_keeps
    | with_reducible apply State.warn_keeps
    | (extract_lets +onlyGivenNames x
       first
         | (refine good_cut (q := q) x ?cv ?ck
            case' ck => (intro hx; clear_value x)
            case' cv => (unfold x; clear x))
         | (refine good_cut_fst (q := q) x ?cv ?ck
            case' ck => (intro hx; clear_value x)
            case' cv => (unfold x; clear x))
         | (refine good_cut_snd (q := q) x ?cv ?ck
            case' ck => (intro hx; clear_value x)
            case' cv => (unfold x; clear x))
         | skip)
    | with_reducible apply good_mk
    | split
    | with_reducible rfl

theorem State.dlnkTick_keeps {q : List Instr} (s : State) (h : Good q s) : Good q (State.dlnkTick s) := by
  unfold State.dlnkTick
  repeat' first
    | with_reducible assumption
    | intro _
    | with_reducible apply good_ite
    | with_reducible apply State.chopCount_keeps
    | with_reducible apply State.put_keeps
    | with_reducible apply State.thermalLevels_keeps
    | (extract_lets +onlyGivenNames x
       first
         | (refine good_cut (q := q) x ?cv ?ck
            case' ck => (intro hx; clear_value x)
            case' cv => (unfold x; clear x))
         | (refine good_cut_fst (q := q) x ?cv ?ck
            case' ck => (intro hx; clear_value x)
            case' cv => (unfold x; clear x))
         | (refine good_cut_snd (q := q) x ?cv ?ck
            case' ck => (intro hx; clear_value x)
            case' cv => (unfold x; clear x))
         | skip)
    | split
    | with_reducible apply good_mk
    | with_reducible rfl

theorem State.setTheta_keeps {q : List Instr} (mk : Nat) (s : State) (h : Good q s) : Good q (State.setTheta mk s) := by
  unfold State.setTheta
  repeat' first
    | with_reducible assumption
    | intro _
    | with_reducible apply State.put_keeps
    | with_reducible apply State.thermalLevels_keeps
    | (extract_lets +onlyGivenNames x
       first
         | (refine good_cut (q := q) x ?cv ?ck
            case' ck => (intro hx; clear_value x)
            case' cv => (unfold x; clear x))
         | (refine good_cut_fst (q := q) x ?cv ?ck
            case' ck => (intro hx; clear_value x)
            case' cv => (unfold x; clear x))
         | (refine good_cut_snd (q := q) x ?cv ?ck
            case' ck => (intro hx; clear_value x)
            case' cv => (unfold x; clear x))
         | skip)
    | with_reducible apply good_mk
    | with_reducible rfl

end Sys2Proof.Machine
end

