-- ==== Sys2Proof/Laws/KeepsAnalog.lean ====
section
/-! SUPPORT. Laws/KeepsAnalog.lean: every operation of Machine/Analog.lean keeps `Good`. -/

namespace Sys2Proof.Machine

theorem opAoutSrcWrite_keeps {q : List Instr} (n : Nat) (v : Nat) (s : State) (h : Good q s) : Good q (opAoutSrcWrite n v s) := by
  unfold opAoutSrcWrite
  repeat' first
    | with_reducible assumption
    | intro _
    | with_reducible apply good_ite
    | with_reducible apply State.put_keeps
    | with_reducible apply State.aoRefresh_keeps

theorem opAoutCodeWrite_keeps {q : List Instr} (n : Nat) (v : Nat) (s : State) (h : Good q s) : Good q (opAoutCodeWrite n v s) := by
  unfold opAoutCodeWrite
  repeat' first
    | with_reducible assumption
    | intro _
    | with_reducible apply good_ite
    | with_reducible apply State.put_keeps
    | with_reducible apply State.aoFree_keeps
    | with_reducible apply State.aoRequest_keeps
    | (extract_lets +onlyGivenNames x
       first
         | (refine good_cut (q := q) x ?cv ?ck
            case' ck => (intro hx; clear_value x)
            case' cv => (unfold x; clear x))
         | (refine good_cut_fst (q := q) x ?cv ?ck
            case' ck => (intro hx; clear_value x)
            case' cv => (unfold x; clear x))
         | (refine good_cut_snd (q := q) x ?cv ?ck
            case' ck => (intro hx; clear_value x)
            case' cv => (unfold x; clear x))
         | skip)
    | split

theorem State.aoFb_keeps {q : List Instr} (n : Nat) (v : Nat) (s : State) (h : Good q s) : Good q (State.aoFb n v s) := by
  unfold State.aoFb
  repeat' first
    | with_reducible assumption
    | intro _
    | with_reducible apply good_ite
    | with_reducible apply State.put_keeps
    | with_reducible apply State.aoRefresh_keeps

theorem opDacLatch_keeps {q : List Instr} (n : Nat) (s : State) (h : Good q s) : Good q (opDacLatch n s) := by
  unfold opDacLatch
  repeat' first
    | with_reducible assumption
    | intro _
    | with_reducible apply good_ite
    | with_reducible apply State.advanceReal_keeps
    | with_reducible apply State.aoLatch_keeps
    | (extract_lets +onlyGivenNames x
       first
         | (refine good_cut (q := q) x ?cv ?ck
            case' ck => (intro hx; clear_value x)
            case' cv => (unfold x; clear x))
         | (refine good_cut_fst (q := q) x ?cv ?ck
            case' ck => (intro hx; clear_value x)
            case' cv => (unfold x; clear x))
         | (refine good_cut_snd (q := q) x ?cv ?ck
            case' ck => (intro hx; clear_value x)
            case' cv => (unfold x; clear x))
         | skip)
    | split
    | with_reducible apply good_mk
    | with_reducible rfl

theorem State.aoCommit_keeps {q : List Instr} (committed : List Nat) (n : Nat) (s : State) (h : Good q s) : Good q (State.aoCommit committed n s) := by
  unfold State.aoCommit
  repeat' first
    | with_reducible assumption
    | intro _
    | with_reducible apply good_ite
    | with_reducible apply State.aoFree_keeps
    | with_reducible apply State.aoRequest_keeps
    | (extract_lets +onlyGivenNames x
       first
         | (refine good_cut (q := q) x ?cv ?ck
            case' ck => (intro hx; clear_value x)
            case' cv => (unfold x; clear x))
         | (refine good_cut_fst (q := q) x ?cv ?ck
            case' ck => (intro hx; clear_value x)
            case' cv => (unfold x; clear x))
         | (refine good_cut_snd (q := q) x ?cv ?ck
            case' ck => (intro hx; clear_value x)
            case' cv => (unfold x; clear x))
         | skip)
    | split
    | with_reducible apply good_mk
    | with_reducible rfl

theorem opWaveArm_keeps {q : List Instr} (k : Nat) (s : State) (h : Good q s) : Good q (opWaveArm k s) := by
  unfold opWaveArm
  repeat' first
    | with_reducible assumption
    | intro _
    | with_reducible apply good_ite
    | with_reducible apply State.put_keeps
    | with_reducible apply State.raise_keeps
    | with_reducible apply State.upAo_keeps
    | with_reducible apply State.waveTrigger_keeps
    | (extract_lets +onlyGivenNames x
       first
         | (refine good_cut (q := q) x ?cv ?ck
            case' ck => (intro hx; clear_value x)
            case' cv => (unfold x; clear x))
         | (refine good_cut_fst (q := q) x ?cv ?ck
            case' ck => (intro hx; clear_value x)
            case' cv => (unfold x; clear x))
         | (refine good_cut_snd (q := q) x ?cv ?ck
            case' ck => (intro hx; clear_value x)
            case' cv => (unfold x; clear x))
         | skip)
    | split
    | with_reducible apply good_mk
    | with_reducible rfl

theorem opWaveStop_keeps {q : List Instr} (k : Nat) (s : State) (h : Good q s) : Good q (opWaveStop k s) := by
  unfold opWaveStop
  repeat' first
    | with_reducible assumption
    | intro _
    | with_reducible apply State.waveStop_keeps

theorem State.wavePass_keeps {q : List Instr} (k : Nat) (s : State) (h : Good q s) : Good q (State.wavePass k s) := by
  unfold State.wavePass
  repeat' first
    | with_reducible assumption
    | intro _
    | with_reducible apply good_ite
    | with_reducible apply State.setWv_keeps
    | with_reducible apply State.put_keeps
    | with_reducible apply State.raise_keeps
    | with_reducible apply State.upAo_keeps
    | (extract_lets +onlyGivenNames x
       first
         | (refine good_cut (q := q) x ?cv ?ck
            case' ck => (intro hx; clear_value x)
            case' cv => (unfold x; clear x))
         | (refine good_cut_fst (q := q) x ?cv ?ck
            case' ck => (intro hx; clear_value x)
            case' cv => (unfold x; clear x))
         | (refine good_cut_snd (q := q) x ?cv ?ck
            case' ck => (intro hx; clear_value x)
            case' cv => (unfold x; clear x))
         | skip)
    | split
    | with_reducible apply good_mk
    | with_reducible rfl

theorem opWaveSample_keeps {q : List Instr} (k : Nat) (s : State) (h : Good q s) : Good q (opWaveSample k s) := by
  unfold opWaveSample
  repeat' first
    | with_reducible assumption
    | intro _
    | with_reducible apply good_ite
    | with_reducible apply good_ite_fst
    | with_reducible apply good_ite_snd
    | with_reducible apply State.advance_keeps
    | with_reducible apply State.setWv_keeps
    | with_reducible apply State.waveRead_keeps
    | with_reducible apply State.waveStop_keeps
    | with_reducible apply State.put_keeps
    | with_reducible apply State.raise_keeps
    | with_reducible apply State.aoFree_keeps
    | with_reducible apply State.aoRequest_keeps
    | with_reducible apply State.wavePass_keeps
    | (extract_lets +onlyGivenNames x
       first
         | (refine good_cut (q := q) x ?cv ?ck
            case' ck => (intro hx; clear_value x)
            case' cv => (unfold x; clear x))
         | (refine good_cut_fst (q := q) x ?cv ?ck
            case' ck => (intro hx; clear_value x)
            case' cv => (unfold x; clear x))
         | (refine good_cut_snd (q := q) x ?cv ?ck
            case' ck => (intro hx; clear_value x)
            case' cv => (unfold x; clear x))
         | skip)
    | split
    | with_reducible apply good_mk
    | with_reducible rfl

end Sys2Proof.Machine
end

