-- ==== Sys2Proof/Laws/KeepsField.lean ====
section
/-! SUPPORT. Laws/KeepsField.lean: every operation of Machine/Field.lean keeps `Good`. -/

namespace Sys2Proof.Machine

theorem State.diCount_keeps {q : List Instr} (n : Nat) (s : State) (h : Good q s) : Good q (State.diCount n s) := by
  unfold State.diCount
  repeat' first
    | with_reducible assumption
    | intro _
    | with_reducible apply good_ite
    | with_reducible apply State.wrapUp_keeps

theorem State.diChange_keeps {q : List Instr} (n : Nat) (s : State) (h : Good q s) : Good q (State.diChange n s) := by
  unfold State.diChange
  repeat' first
    | with_reducible assumption
    | intro _
    | with_reducible apply good_ite
    | with_reducible apply State.putBit_keeps
    | with_reducible apply State.diCount_keeps
    | with_reducible apply State.raise_keeps
    | (extract_lets +onlyGivenNames x
       first
         | (refine good_cut (q := q) x ?cv ?ck
            case' ck => (intro hx; clear_value x)
            case' cv => (unfold x; clear x))
         | (refine good_cut_fst (q := q) x ?cv ?ck
            case' ck => (intro hx; clear_value x)
            case' cv => (unfold x; clear x))
         | (refine good_cut_snd (q := q) x ?cv ?ck
            case' ck => (intro hx; clear_value x)
            case' cv => (unfold x; clear x))
         | skip)
    | split
    | with_reducible apply good_mk
    | with_reducible rfl

theorem State.diSamples_keeps {q : List Instr} (raw : Nat) (k : Nat) (s : State) (h : Good q s) : Good q (State.diSamples raw k s) := by
  unfold State.diSamples
  repeat' first
    | with_reducible assumption
    | intro _
    | with_reducible apply good_ite
    | with_reducible apply State.put_keeps
    | with_reducible apply good_foldl
    | with_reducible apply good_foldl_fst
    | with_reducible apply good_foldl_snd
    | (extract_lets +onlyGivenNames x
       first
         | (refine good_cut (q := q) x ?cv ?ck
            case' ck => (intro hx; clear_value x)
            case' cv => (unfold x; clear x))
         | (refine good_cut_fst (q := q) x ?cv ?ck
            case' ck => (intro hx; clear_value x)
            case' cv => (unfold x; clear x))
         | (refine good_cut_snd (q := q) x ?cv ?ck
            case' ck => (intro hx; clear_value x)
            case' cv => (unfold x; clear x))
         | skip)
    | split
    | with_reducible apply good_mk
    | with_reducible rfl

theorem State.diRun_keeps {q : List Instr} (raw n k : Nat) (s : State) (h : Good q s) : Good q (State.diRun raw n k s) := by
  induction n generalizing k s with
  | zero => exact h
  | succ n ih =>
    simp only [State.diRun]
    repeat' first
      | exact h
      | apply good_ite
      | exact State.diSamples_keeps _ _ _ h
      | exact ih _ _ (good_forAll (fun x s hs => State.diChange_keeps x s hs) (State.advance_keeps _ _ (State.diSamples_keeps _ _ _ h)))
      | split

theorem State.diLevels_keeps {q : List Instr} (raw k : Nat) (s : State) (h : Good q s) : Good q (State.diLevels raw k s) :=
  good_ite h (State.put_keeps _ _ _ _ _ (State.diRun_keeps _ _ _ _ h))

theorem opDiDebouncedChange_keeps {q : List Instr} (a t : Nat) (raw : Nat) (s : State) (h : Good q s) : Good q (opDiDebouncedChange a t raw s) :=
  good_ite (good_mk (State.advance_keeps _ _ h) (Eq.refl _) (Eq.refl _) (Eq.refl _) (Eq.refl _) (Eq.refl _) (Eq.refl _))
    (State.advance_keeps _ _ (State.diLevels_keeps _ _ _ (State.diLevels_keeps _ _ _ h)))

theorem State.dioLive_keeps {q : List Instr} (s : State) (op : State → State) (hfop : ∀ x0, Good q x0 → Good q (op x0)) (h : Good q s) : Good q (State.dioLive s op) := by
  unfold State.dioLive
  repeat' first
    | with_reducible assumption
    | intro _
    | with_reducible apply good_ite
    | with_reducible apply hfop
    | split

theorem opDiTypeWrite_keeps {q : List Instr} (v : Nat) (s : State) (h : Good q s) : Good q (opDiTypeWrite v s) := by
  unfold opDiTypeWrite
  repeat' first
    | with_reducible assumption
    | intro _
    | with_reducible apply State.put_keeps
    | with_reducible apply State.wbForget_keeps

theorem State.diWben_keeps {q : List Instr} (v : Nat) (s : State) (h : Good q s) : Good q (State.diWben v s) := by
  unfold State.diWben
  repeat' first
    | with_reducible assumption
    | intro _
    | with_reducible apply State.put_keeps
    | with_reducible apply State.wbForget_keeps

theorem opWireBreakChange_keeps {q : List Instr} (n : Nat) (broken : Bool) (s : State) (h : Good q s) : Good q (opWireBreakChange n broken s) := by
  unfold opWireBreakChange
  repeat' first
    | with_reducible assumption
    | intro _
    | with_reducible apply good_ite
    | with_reducible apply State.dioFault_keeps
    | split
    | with_reducible apply good_mk
    | with_reducible rfl

theorem opDioIbindWrite_keeps {q : List Instr} (v : Nat) (s : State) (h : Good q s) : Good q (opDioIbindWrite v s) := by
  unfold opDioIbindWrite
  repeat' first
    | with_reducible assumption
    | intro _
    | with_reducible apply good_ite
    | with_reducible apply State.put_keeps

theorem opDoSourceWrite_keeps {q : List Instr} (k : Nat) (v : Nat) (s : State) (h : Good q s) : Good q (opDoSourceWrite k v s) := by
  unfold opDoSourceWrite
  repeat' first
    | with_reducible assumption
    | intro _
    | with_reducible apply good_ite
    | with_reducible apply State.put_keeps
    | with_reducible apply State.doRefresh_keeps

theorem opDoSvWrite_keeps {q : List Instr} (v : Nat) (s : State) (h : Good q s) : Good q (opDoSvWrite v s) := by
  unfold opDoSvWrite
  repeat' first
    | with_reducible assumption
    | intro _
    | with_reducible apply good_ite
    | with_reducible apply State.put_keeps
    | with_reducible apply State.doRefresh_keeps
    | (extract_lets +onlyGivenNames x
       first
         | (refine good_cut (q := q) x ?cv ?ck
            case' ck => (intro hx; clear_value x)
            case' cv => (unfold x; clear x))
         | (refine good_cut_fst (q := q) x ?cv ?ck
            case' ck => (intro hx; clear_value x)
            case' cv => (unfold x; clear x))
         | (refine good_cut_snd (q := q) x ?cv ?ck
            case' ck => (intro hx; clear_value x)
            case' cv => (unfold x; clear x))
         | skip)
    | with_reducible apply good_mk
    | split
    | with_reducible rfl

theorem State.doFb_keeps {q : List Instr} (v : Nat) (s : State) (h : Good q s) : Good q (State.doFb v s) := by
  unfold State.doFb
  repeat' first
    | with_reducible assumption
    | intro _
    | with_reducible apply State.put_keeps
    | with_reducible apply State.doRefresh_keeps

theorem State.doCommit_keeps {q : List Instr} (committed : List Nat) (s : State) (h : Good q s) : Good q (State.doCommit committed s) := by
  unfold State.doCommit
  repeat' first
    | with_reducible assumption
    | intro _
    | with_reducible apply good_ite
    | with_reducible apply State.doRefresh_keeps
    | with_reducible apply good_foldl
    | with_reducible apply good_foldl_fst
    | with_reducible apply good_foldl_snd
    | (extract_lets +onlyGivenNames x
       first
         | (refine good_cut (q := q) x ?cv ?ck
            case' ck => (intro hx; clear_value x)
            case' cv => (unfold x; clear x))
         | (refine good_cut_fst (q := q) x ?cv ?ck
            case' ck => (intro hx; clear_value x)
            case' cv => (unfold x; clear x))
         | (refine good_cut_snd (q := q) x ?cv ?ck
            case' ck => (intro hx; clear_value x)
            case' cv => (unfold x; clear x))
         | skip)
    | split
    | with_reducible apply good_mk
    | with_reducible rfl

theorem opDoOverload_keeps {q : List Instr} (k : Nat) (s : State) (h : Good q s) : Good q (opDoOverload k s) := by
  unfold opDoOverload
  repeat' first
    | with_reducible assumption
    | intro _
    | with_reducible apply good_ite
    | with_reducible apply State.dioFault_keeps
    | split
    | with_reducible apply good_mk
    | with_reducible rfl

theorem opDoThermalShutdown_keeps {q : List Instr} (k : Nat) (s : State) (h : Good q s) : Good q (opDoThermalShutdown k s) := by
  unfold opDoThermalShutdown
  repeat' first
    | with_reducible assumption
    | intro _
    | with_reducible apply good_ite
    | with_reducible apply State.dioFault_keeps
    | split
    | with_reducible apply good_mk
    | with_reducible rfl

theorem opDioClr_keeps {q : List Instr} (hot : Nat) (s : State) (h : Good q s) : Good q (opDioClr hot s) := by
  unfold opDioClr
  repeat' first
    | with_reducible assumption
    | intro _
    | with_reducible apply good_ite
    | with_reducible apply State.dioClear_keeps

theorem State.dioCtl_keeps {q : List Instr} (v : Nat) (s : State) (h : Good q s) : Good q (State.dioCtl v s) := by
  unfold State.dioCtl
  repeat' first
    | with_reducible assumption
    | intro _
    | with_reducible apply good_ite
    | with_reducible apply State.put_keeps
    | split
    | with_reducible apply good_mk
    | with_reducible rfl

theorem opDioAutoclr_keeps {q : List Instr} (hot : Nat) (s : State) (h : Good q s) : Good q (opDioAutoclr hot s) := by
  unfold opDioAutoclr
  repeat' first
    | with_reducible assumption
    | intro _
    | with_reducible apply good_ite
    | with_reducible apply opDioClr_keeps
    | with_reducible apply State.advance_keeps
    | (extract_lets +onlyGivenNames x
       first
         | (refine good_cut (q := q) x ?cv ?ck
            case' ck => (intro hx; clear_value x)
            case' cv => (unfold x; clear x))
         | (refine good_cut_fst (q := q) x ?cv ?ck
            case' ck => (intro hx; clear_value x)
            case' cv => (unfold x; clear x))
         | (refine good_cut_snd (q := q) x ?cv ?ck
            case' ck => (intro hx; clear_value x)
            case' cv => (unfold x; clear x))
         | skip)
    | split
    | with_reducible apply good_mk
    | with_reducible rfl

theorem opVfldUndervoltage_keeps {q : List Instr} (uv : Bool) (s : State) (h : Good q s) : Good q (opVfldUndervoltage uv s) := by
  unfold opVfldUndervoltage
  repeat' first
    | with_reducible assumption
    | intro _
    | with_reducible apply good_ite
    | with_reducible apply State.put_keeps
    | with_reducible apply State.level_keeps
    | with_reducible apply State.dioFault_keeps
    | split

theorem opVfldCutoff_keeps {q : List Instr} (off : Bool) (s : State) (h : Good q s) : Good q (opVfldCutoff off s) := by
  unfold opVfldCutoff
  repeat' first
    | with_reducible assumption
    | intro _
    | (extract_lets +onlyGivenNames x
       first
         | (refine good_cut (q := q) x ?cv ?ck
            case' ck => (intro hx; clear_value x)
            case' cv => (unfold x; clear x))
         | (refine good_cut_fst (q := q) x ?cv ?ck
            case' ck => (intro hx; clear_value x)
            case' cv => (unfold x; clear x))
         | (refine good_cut_snd (q := q) x ?cv ?ck
            case' ck => (intro hx; clear_value x)
            case' cv => (unfold x; clear x))
         | skip)
    | with_reducible apply good_mk
    | with_reducible rfl

theorem State.walkStart_keeps {q : List Instr} (hot : Nat) (s : State) (h : Good q s) : Good q (State.walkStart hot s) := by
  unfold State.walkStart
  repeat' first
    | with_reducible assumption
    | intro _
    | with_reducible apply State.put_keeps
    | with_reducible apply State.dioClear_keeps
    | with_reducible apply State.doRefresh_keeps
    | (extract_lets +onlyGivenNames x
       first
         | (refine good_cut (q := q) x ?cv ?ck
            case' ck => (intro hx; clear_value x)
            case' cv => (unfold x; clear x))
         | (refine good_cut_fst (q := q) x ?cv ?ck
            case' ck => (intro hx; clear_value x)
            case' cv => (unfold x; clear x))
         | (refine good_cut_snd (q := q) x ?cv ?ck
            case' ck => (intro hx; clear_value x)
            case' cv => (unfold x; clear x))
         | skip)
    | split
    | with_reducible apply good_mk
    | with_reducible rfl

theorem opWalkGo_keeps {q : List Instr} (hot : Nat) (s : State) (h : Good q s) : Good q (opWalkGo hot s) := by
  unfold opWalkGo
  repeat' first
    | with_reducible assumption
    | intro _
    | with_reducible apply good_ite
    | with_reducible apply State.put_keeps
    | with_reducible apply State.walkStart_keeps
    | (extract_lets +onlyGivenNames x
       first
         | (refine good_cut (q := q) x ?cv ?ck
            case' ck => (intro hx; clear_value x)
            case' cv => (unfold x; clear x))
         | (refine good_cut_fst (q := q) x ?cv ?ck
            case' ck => (intro hx; clear_value x)
            case' cv => (unfold x; clear x))
         | (refine good_cut_snd (q := q) x ?cv ?ck
            case' ck => (intro hx; clear_value x)
            case' cv => (unfold x; clear x))
         | skip)
    | with_reducible apply good_mk
    | split
    | with_reducible rfl

theorem opWalkAbort_keeps {q : List Instr} (s : State) (h : Good q s) : Good q (opWalkAbort s) := by
  unfold opWalkAbort
  repeat' first
    | with_reducible assumption
    | intro _
    | with_reducible apply good_ite
    | with_reducible apply State.walkEnd_keeps

theorem opWalkStepEnd_keeps {q : List Instr} (hot : Nat) (s : State) (h : Good q s) : Good q (opWalkStepEnd hot s) := by
  unfold opWalkStepEnd
  repeat' first
    | with_reducible assumption
    | intro _
    | with_reducible apply good_ite
    | with_reducible apply State.advance_keeps
    | with_reducible apply State.put_keeps
    | with_reducible apply State.putBit_keeps
    | with_reducible apply State.raise_keeps
    | with_reducible apply State.walkEnd_keeps
    | with_reducible apply State.dioClear_keeps
    | with_reducible apply State.walkStart_keeps
    | (extract_lets +onlyGivenNames x
       first
         | (refine good_cut (q := q) x ?cv ?ck
            case' ck => (intro hx; clear_value x)
            case' cv => (unfold x; clear x))
         | (refine good_cut_fst (q := q) x ?cv ?ck
            case' ck => (intro hx; clear_value x)
            case' cv => (unfold x; clear x))
         | (refine good_cut_snd (q := q) x ?cv ?ck
            case' ck => (intro hx; clear_value x)
            case' cv => (unfold x; clear x))
         | skip)
    | split
    | with_reducible apply good_mk
    | with_reducible rfl

end Sys2Proof.Machine
end

