-- ==== Sys2Proof/Laws/KeepsLife.lean ====
section
/-! SUPPORT. Laws/KeepsLife.lean: every operation of Machine/Life.lean keeps `Good`. -/

namespace Sys2Proof.Machine

theorem State.lifeRegs_keeps {q : List Instr} (s : State) (h : Good q s) : Good q (State.lifeRegs s) := by
  unfold State.lifeRegs
  repeat' first
    | with_reducible assumption
    | intro _
    | with_reducible apply State.put_keeps
    | with_reducible apply good_forAll

theorem State.lifeBlock_keeps {q : List Instr} (s : State) (h : Good q s) : Good q (State.lifeBlock s) := by
  unfold State.lifeBlock
  repeat' first
    | with_reducible assumption
    | intro _
    | with_reducible apply State.put_keeps

theorem State.lifeNote_keeps {q : List Instr} (k : Nat) (pay : Nat) (s : State) (h : Good q s) : Good q (State.lifeNote k pay s) := by
  unfold State.lifeNote
  repeat' first
    | with_reducible assumption
    | intro _
    | with_reducible apply good_ite
    | with_reducible apply good_ite_fst
    | with_reducible apply good_ite_snd
    | (extract_lets +onlyGivenNames x
       first
         | (refine good_cut (q := q) x ?cv ?ck
            case' ck => (intro hx; clear_value x)
            case' cv => (unfold x; clear x))
         | (refine good_cut_fst (q := q) x ?cv ?ck
            case' ck => (intro hx; clear_value x)
            case' cv => (unfold x; clear x))
         | (refine good_cut_snd (q := q) x ?cv ?ck
            case' ck => (intro hx; clear_value x)
            case' cv => (unfold x; clear x))
         | skip)
    | with_reducible apply good_mk
    | split
    | with_reducible rfl

theorem State.lifeCross_keeps {q : List Instr} (f : Fam) (n : Int) (src : Option Nat) (s : State) (h : Good q s) : Good q (State.lifeCross f n src s) := by
  unfold State.lifeCross
  repeat' first
    | with_reducible assumption
    | intro _
    | with_reducible apply good_ite
    | with_reducible apply State.put_keeps
    | with_reducible apply State.warn_keeps
    | with_reducible apply State.lifeNote_keeps
    | (extract_lets +onlyGivenNames x
       first
         | (refine good_cut (q := q) x ?cv ?ck
            case' ck => (intro hx; clear_value x)
            case' cv => (unfold x; clear x))
         | (refine good_cut_fst (q := q) x ?cv ?ck
            case' ck => (intro hx; clear_value x)
            case' cv => (unfold x; clear x))
         | (refine good_cut_snd (q := q) x ?cv ?ck
            case' ck => (intro hx; clear_value x)
            case' cv => (unfold x; clear x))
         | skip)
    | split

theorem State.derate_keeps {q : List Instr} (s : State) (h : Good q s) : Good q (State.derate s) := by
  unfold State.derate
  repeat' first
    | with_reducible assumption
    | intro _
    | with_reducible apply State.lifeCross_keeps
    | with_reducible apply State.lifeBlock_keeps
    | (extract_lets +onlyGivenNames x
       first
         | (refine good_cut (q := q) x ?cv ?ck
            case' ck => (intro hx; clear_value x)
            case' cv => (unfold x; clear x))
         | (refine good_cut_fst (q := q) x ?cv ?ck
            case' ck => (intro hx; clear_value x)
            case' cv => (unfold x; clear x))
         | (refine good_cut_snd (q := q) x ?cv ?ck
            case' ck => (intro hx; clear_value x)
            case' cv => (unfold x; clear x))
         | skip)
    | with_reducible apply good_mk
    | with_reducible rfl

theorem State.lifeStore_keeps {q : List Instr} (s : State) (h : Good q s) : Good q (State.lifeStore s) := by
  unfold State.lifeStore
  repeat' first
    | with_reducible assumption
    | intro _
    | with_reducible apply good_ite
    | with_reducible apply State.keepWait_keeps
    | (extract_lets +onlyGivenNames x
       first
         | (refine good_cut (q := q) x ?cv ?ck
            case' ck => (intro hx; clear_value x)
            case' cv => (unfold x; clear x))
         | (refine good_cut_fst (q := q) x ?cv ?ck
            case' ck => (intro hx; clear_value x)
            case' cv => (unfold x; clear x))
         | (refine good_cut_snd (q := q) x ?cv ?ck
            case' ck => (intro hx; clear_value x)
            case' cv => (unfold x; clear x))
         | skip)
    | with_reducible apply good_mk
    | with_reducible rfl

theorem State.clearOverrides_keeps {q : List Instr} (s : State) (h : Good q s) : Good q (State.clearOverrides s) := by
  unfold State.clearOverrides
  repeat' first
    | with_reducible assumption
    | intro _
    | with_reducible apply good_ite
    | with_reducible apply State.keepWait_keeps
    | (extract_lets +onlyGivenNames x
       first
         | (refine good_cut (q := q) x ?cv ?ck
            case' ck => (intro hx; clear_value x)
            case' cv => (unfold x; clear x))
         | (refine good_cut_fst (q := q) x ?cv ?ck
            case' ck => (intro hx; clear_value x)
            case' cv => (unfold x; clear x))
         | (refine good_cut_snd (q := q) x ?cv ?ck
            case' ck => (intro hx; clear_value x)
            case' cv => (unfold x; clear x))
         | skip)
    | with_reducible apply good_mk
    | with_reducible rfl

theorem State.countCycle_keeps {q : List Instr} (k : Nat) (a : Nat) (b : Nat) (half : Bool) (s : State) (h : Good q s) : Good q (State.countCycle k a b half s) := by
  unfold State.countCycle
  repeat' first
    | with_reducible assumption
    | intro _
    | (extract_lets +onlyGivenNames x
       first
         | (refine good_cut (q := q) x ?cv ?ck
            case' ck => (intro hx; clear_value x)
            case' cv => (unfold x; clear x))
         | (refine good_cut_fst (q := q) x ?cv ?ck
            case' ck => (intro hx; clear_value x)
            case' cv => (unfold x; clear x))
         | (refine good_cut_snd (q := q) x ?cv ?ck
            case' ck => (intro hx; clear_value x)
            case' cv => (unfold x; clear x))
         | skip)
    | with_reducible apply good_mk
    | with_reducible rfl

theorem State.reversal_keeps {q : List Instr} (k : Nat) (p : Nat) (s : State) (h : Good q s) : Good q (State.reversal k p s) := by
  unfold State.reversal
  repeat' first
    | with_reducible assumption
    | intro _
    | (extract_lets +onlyGivenNames x
       first
         | (refine good_cut (q := q) x ?cv ?ck
            case' ck => (intro hx; clear_value x)
            case' cv => (unfold x; clear x))
         | (refine good_cut_fst (q := q) x ?cv ?ck
            case' ck => (intro hx; clear_value x)
            case' cv => (unfold x; clear x))
         | (refine good_cut_snd (q := q) x ?cv ?ck
            case' ck => (intro hx; clear_value x)
            case' cv => (unfold x; clear x))
         | skip)
    | with_reducible apply good_ite
    | with_reducible apply State.countCycle_keeps
    | with_reducible apply State.wrapUp_keeps
    | with_reducible apply good_forAll
    | split
    | with_reducible apply good_mk
    | with_reducible rfl

theorem State.lifePoint_keeps {q : List Instr} (k : Nat) (p : Nat) (s : State) (h : Good q s) : Good q (State.lifePoint k p s) := by
  unfold State.lifePoint
  repeat' first
    | with_reducible assumption
    | intro _
    | with_reducible apply good_ite
    | with_reducible apply good_ite_fst
    | with_reducible apply good_ite_snd
    | with_reducible apply State.reversal_keeps
    | (extract_lets +onlyGivenNames x
       first
         | (refine good_cut (q := q) x ?cv ?ck
            case' ck => (intro hx; clear_value x)
            case' cv => (unfold x; clear x))
         | (refine good_cut_fst (q := q) x ?cv ?ck
            case' ck => (intro hx; clear_value x)
            case' cv => (unfold x; clear x))
         | (refine good_cut_snd (q := q) x ?cv ?ck
            case' ck => (intro hx; clear_value x)
            case' cv => (unfold x; clear x))
         | skip)
    | split
    | with_reducible apply good_mk
    | with_reducible rfl

theorem State.flush_keeps {q : List Instr} (s : State) (h : Good q s) : Good q (State.flush s) := by
  unfold State.flush
  repeat' first
    | with_reducible assumption
    | intro _
    | with_reducible apply good_ite
    | with_reducible apply good_ite_fst
    | with_reducible apply good_ite_snd
    | with_reducible apply State.countCycle_keeps
    | with_reducible apply State.lifeRegs_keeps
    | with_reducible apply good_forAll
    | (extract_lets +onlyGivenNames x
       first
         | (refine good_cut (q := q) x ?cv ?ck
            case' ck => (intro hx; clear_value x)
            case' cv => (unfold x; clear x))
         | (refine good_cut_fst (q := q) x ?cv ?ck
            case' ck => (intro hx; clear_value x)
            case' cv => (unfold x; clear x))
         | (refine good_cut_snd (q := q) x ?cv ?ck
            case' ck => (intro hx; clear_value x)
            case' cv => (unfold x; clear x))
         | skip)
    | split
    | with_reducible apply good_mk
    | with_reducible rfl

theorem State.lifeCurrent_keeps {q : List Instr} (n : Nat) (data : Nat) (te : Nat) (s : State) (h : Good q s) : Good q (State.lifeCurrent n data te s) := by
  unfold State.lifeCurrent
  repeat' first
    | with_reducible assumption
    | intro _
    | (extract_lets +onlyGivenNames x
       first
         | (refine good_cut (q := q) x ?cv ?ck
            case' ck => (intro hx; clear_value x)
            case' cv => (unfold x; clear x))
         | (refine good_cut_fst (q := q) x ?cv ?ck
            case' ck => (intro hx; clear_value x)
            case' cv => (unfold x; clear x))
         | (refine good_cut_snd (q := q) x ?cv ?ck
            case' ck => (intro hx; clear_value x)
            case' cv => (unfold x; clear x))
         | skip)
    | with_reducible apply good_mk
    | with_reducible rfl

theorem State.lifeOnState_keeps {q : List Instr} (k : Nat) (data : Nat) (t0 : Nat) (te : Nat) (s : State) (h : Good q s) : Good q (State.lifeOnState k data t0 te s) := by
  unfold State.lifeOnState
  dsimp only
  split
  · refine good_ite ?_ h
    split
    · exact ⟨h.queue, h.mem, h.back, h.work, h.nor, h.arr, h.snap, h.brick, h.fifo, h.logq, h.ram, h.farm⟩
    · exact h
  · exact h

theorem State.lifeSample_keeps {q : List Instr} (n : Nat) (data : Nat) (t0 : Nat) (te : Nat) (s : State) (h : Good q s) : Good q (State.lifeSample n data t0 te s) := by
  unfold State.lifeSample
  repeat' first
    | with_reducible assumption
    | intro _
    | with_reducible apply good_ite
    | with_reducible apply State.lifeCurrent_keeps
    | with_reducible apply State.lifeOnState_keeps
    | with_reducible apply State.put_keeps
    | split
    | with_reducible apply good_mk
    | with_reducible rfl

theorem State.lifeTick_keeps {q : List Instr} (t : Nat) (s : State) (h : Good q s) : Good q (State.lifeTick t s) := by
  unfold State.lifeTick
  repeat' first
    | with_reducible assumption
    | intro _
    | with_reducible apply good_ite
    | with_reducible apply good_ite_fst
    | with_reducible apply good_ite_snd
    | with_reducible apply State.put_keeps
    | with_reducible apply State.lifePoint_keeps
    | with_reducible apply State.warn_keeps
    | with_reducible apply State.lifeRegs_keeps
    | with_reducible apply State.derate_keeps
    | with_reducible apply good_forAll
    | split
    | (extract_lets +onlyGivenNames x
       first
         | (refine good_cut (q := q) x ?cv ?ck
            case' ck => (intro hx; clear_value x)
            case' cv => (unfold x; clear x))
         | (refine good_cut_fst (q := q) x ?cv ?ck
            case' ck => (intro hx; clear_value x)
            case' cv => (unfold x; clear x))
         | (refine good_cut_snd (q := q) x ?cv ?ck
            case' ck => (intro hx; clear_value x)
            case' cv => (unfold x; clear x))
         | skip)
    | with_reducible apply good_mk
    | with_reducible rfl

theorem State.xferStart_keeps {q : List Instr} (k : Nat) (s : State) (h : Good q s) : Good q (State.xferStart k s) := by
  unfold State.xferStart
  repeat' first
    | with_reducible assumption
    | intro _
    | with_reducible apply State.put_keeps
    | (extract_lets +onlyGivenNames x
       first
         | (refine good_cut (q := q) x ?cv ?ck
            case' ck => (intro hx; clear_value x)
            case' cv => (unfold x; clear x))
         | (refine good_cut_fst (q := q) x ?cv ?ck
            case' ck => (intro hx; clear_value x)
            case' cv => (unfold x; clear x))
         | (refine good_cut_snd (q := q) x ?cv ?ck
            case' ck => (intro hx; clear_value x)
            case' cv => (unfold x; clear x))
         | skip)
    | with_reducible apply good_mk
    | with_reducible rfl

theorem State.xferFail_keeps {q : List Instr} (err : Nat) (s : State) (h : Good q s) : Good q (State.xferFail err s).1 := by
  unfold State.xferFail
  repeat' first
    | with_reducible assumption
    | intro _
    | (extract_lets +onlyGivenNames x
       first
         | (refine good_cut (q := q) x ?cv ?ck
            case' ck => (intro hx; clear_value x)
            case' cv => (unfold x; clear x))
         | (refine good_cut_fst (q := q) x ?cv ?ck
            case' ck => (intro hx; clear_value x)
            case' cv => (unfold x; clear x))
         | (refine good_cut_snd (q := q) x ?cv ?ck
            case' ck => (intro hx; clear_value x)
            case' cv => (unfold x; clear x))
         | skip)
    | with_reducible apply good_ite
    | with_reducible apply good_ite_fst
    | with_reducible apply good_ite_snd
    | with_reducible apply State.put_keeps
    | with_reducible apply State.bump_keeps
    | with_reducible apply State.xferEnd_keeps
    | with_reducible apply good_mk
    | split
    | with_reducible rfl

theorem opBrickRead_keeps {q : List Instr} (s : State) (h : Good q s) : Good q (opBrickRead s) := by
  unfold opBrickRead
  repeat' first
    | with_reducible assumption
    | intro _
    | with_reducible apply good_ite
    | with_reducible apply State.xferStart_keeps
    | split

theorem opBrickTransferRetry_keeps {q : List Instr} (s : State) (h : Good q s) : Good q (opBrickTransferRetry s) := by
  unfold opBrickTransferRetry
  repeat' first
    | with_reducible assumption
    | intro _
    | with_reducible apply good_ite
    | with_reducible apply State.xferStart_keeps

theorem State.selectCopy_keeps {q : List Instr} (d : List Byte) (c : Nat) (s : State) (h : Good q s) : Good q (State.selectCopy d c s) := by
  unfold State.selectCopy
  repeat' first
    | with_reducible assumption
    | intro _
    | with_reducible apply good_ite
    | with_reducible apply State.put_keeps
    | (extract_lets +onlyGivenNames x
       first
         | (refine good_cut (q := q) x ?cv ?ck
            case' ck => (intro hx; clear_value x)
            case' cv => (unfold x; clear x))
         | (refine good_cut_fst (q := q) x ?cv ?ck
            case' ck => (intro hx; clear_value x)
            case' cv => (unfold x; clear x))
         | (refine good_cut_snd (q := q) x ?cv ?ck
            case' ck => (intro hx; clear_value x)
            case' cv => (unfold x; clear x))
         | skip)
    | with_reducible apply good_mk
    | split
    | with_reducible rfl

theorem State.swapOut_keeps {q : List Instr} (s : State) (h : Good q s) : Good q (State.swapOut s) := by
  unfold State.swapOut
  repeat' first
    | with_reducible assumption
    | intro _
    | with_reducible apply good_ite
    | with_reducible apply State.put_keeps
    | with_reducible apply State.note_keeps
    | with_reducible apply State.clearOverrides_keeps
    | with_reducible apply State.lifeBlock_keeps
    | with_reducible apply good_foldl
    | with_reducible apply good_foldl_fst
    | with_reducible apply good_foldl_snd
    | (extract_lets +onlyGivenNames x
       first
         | (refine good_cut (q := q) x ?cv ?ck
            case' ck => (intro hx; clear_value x)
            case' cv => (unfold x; clear x))
         | (refine good_cut_fst (q := q) x ?cv ?ck
            case' ck => (intro hx; clear_value x)
            case' cv => (unfold x; clear x))
         | (refine good_cut_snd (q := q) x ?cv ?ck
            case' ck => (intro hx; clear_value x)
            case' cv => (unfold x; clear x))
         | skip)
    | with_reducible apply good_mk
    | with_reducible rfl

/-- A change of the brick block that leaves its memory alone. -/
theorem good_brick {q : List Instr} {s : State} (b : BrickSt) (h : Good q s) (h1 : b.mem = s.brick.mem) : Good q { s with brick := b } :=
  ⟨h.queue, h.mem, h.back, h.work, h.nor, h.arr, h.snap, h1 ▸ h.brick, h.fifo, h.logq, h.ram, h.farm⟩

theorem State.select_keeps {q : List Instr} (d : List Byte) (s : State) (h : Good q s) : Good q (State.select d s) := by
  unfold State.select
  extract_lets +onlyGivenNames swap s1 src s2
  have h1 : Good q s1 := good_ite (State.swapOut_keeps _ h) h
  have h2 : Good q s2 :=
    ⟨h1.queue, h1.mem, h1.back, h1.work, h1.nor, h1.arr, h1.snap, cellsWf_cellsPut _ _ _ h1.brick, h1.fifo, h1.logq, h1.ram, h1.farm⟩
  clear_value s2
  refine good_ite ?_ ?_
  · exact State.lifeBlock_keeps _ (State.put_keeps _ _ _ _ _ (State.put_keeps _ _ _ _ _ (State.put_keeps _ _ _ _ _ (State.put_keeps _ _ _ _ _ h2))))
  · extract_lets +onlyGivenNames s0 b2 s3 s4 s5
    have h3 : Good q s3 := good_brick _ h2 (by rfl)
    have h5 : Good q s5 := good_forAll (fun k s hs => State.put_keeps _ _ _ _ _ hs) (State.put_keeps _ _ _ _ _ (State.put_keeps _ _ _ _ _ h3))
    clear_value s5
    split
    · extract_lets +onlyGivenNames u1 u2 u3 u4 u5 u6
      have h1 : Good q u1 := State.put_keeps _ _ _ _ _ (State.put_keeps _ _ _ _ _ h5)
      have h3 : Good q u3 := State.put_keeps _ _ _ _ _ (good_brick _ h1 (by rfl))
      have h5 : Good q u5 := good_ite (State.put_keeps _ _ _ _ _ (good_brick _ h3 (by rfl))) h3
      clear_value u5
      have h6 : Good q u6 := State.lifeBlock_keeps _ (State.lifeRegs_keeps _ h5)
      exact good_ite (State.lifeStore_keeps _ h6) h6
    · next c _ =>
      extract_lets +onlyGivenNames u1 u2 u3 u4 u5
      have h2 : Good q u2 := State.selectCopy_keeps _ _ _ (good_brick _ h5 (by rfl))
      clear_value u2
      have h4 : Good q u4 := good_brick _ h2 (by rfl)
      have h6 : Good q u5 := State.lifeBlock_keeps _ (State.lifeRegs_keeps _ (State.put_keeps _ _ _ _ _ h4))
      exact good_ite (State.lifeStore_keeps _ h6) h6

theorem opBrickReadComplete_keeps {q : List Instr} (err : Nat) (d : List Byte) (s : State) (h : Good q s) : Good q (opBrickReadComplete err d s) := by
  unfold opBrickReadComplete
  repeat' first
    | with_reducible assumption
    | intro _
    | (extract_lets +onlyGivenNames x
       first
         | (refine good_cut (q := q) x ?cv ?ck
            case' ck => (intro hx; clear_value x)
            case' cv => (unfold x; clear x))
         | (refine good_cut_fst (q := q) x ?cv ?ck
            case' ck => (intro hx; clear_value x)
            case' cv => (unfold x; clear x))
         | (refine good_cut_snd (q := q) x ?cv ?ck
            case' ck => (intro hx; clear_value x)
            case' cv => (unfold x; clear x))
         | skip)
    | with_reducible apply good_ite
    | with_reducible apply good_ite_fst
    | with_reducible apply good_ite_snd
    | with_reducible apply State.put_keeps
    | with_reducible apply State.xferFail_keeps
    | with_reducible apply State.select_keeps
    | with_reducible apply State.xferEnd_keeps
    | with_reducible apply good_mk
    | split
    | with_reducible rfl

theorem State.brickPut_keeps {q : List Instr} (o : Nat) (l : List Byte) (s : State) (h : Good q s) : Good q (State.brickPut o l s) := by
  exact ⟨h.queue, h.mem, h.back, h.work, h.nor, h.arr, h.snap, cellsWf_cellsPut _ _ _ h.brick, h.fifo, h.logq, h.ram, h.farm⟩

theorem opBrickWb_keeps {q : List Instr} (s : State) (h : Good q s) : Good q (opBrickWb s) := by
  unfold opBrickWb
  repeat' first
    | with_reducible assumption
    | intro _
    | with_reducible apply good_ite
    | with_reducible apply State.xferStart_keeps
    | split

theorem opWriteBackInterval_keeps {q : List Instr} (s : State) (h : Good q s) : Good q (opWriteBackInterval s) := by
  unfold opWriteBackInterval
  repeat' first
    | with_reducible assumption
    | intro _
    | with_reducible apply opBrickWb_keeps
    | with_reducible apply State.advance_keeps

theorem State.wbEnd_keeps {q : List Instr} (s : State) (h : Good q s) : Good q (State.wbEnd s) := by
  unfold State.wbEnd
  repeat' first
    | with_reducible assumption
    | intro _
    | with_reducible apply State.xferEnd_keeps
    | with_reducible apply State.lifeStore_keeps
    | (extract_lets +onlyGivenNames x
       first
         | (refine good_cut (q := q) x ?cv ?ck
            case' ck => (intro hx; clear_value x)
            case' cv => (unfold x; clear x))
         | (refine good_cut_fst (q := q) x ?cv ?ck
            case' ck => (intro hx; clear_value x)
            case' cv => (unfold x; clear x))
         | (refine good_cut_snd (q := q) x ?cv ?ck
            case' ck => (intro hx; clear_value x)
            case' cv => (unfold x; clear x))
         | skip)
    | with_reducible apply good_mk
    | with_reducible rfl

theorem opWriteBackComplete_keeps {q : List Instr} (err : Nat) (id : List Byte) (bad : Nat) (s : State) (h : Good q s) : Good q (opWriteBackComplete err id bad s) := by
  unfold opWriteBackComplete
  repeat' first
    | with_reducible assumption
    | intro _
    | (extract_lets +onlyGivenNames x
       first
         | (refine good_cut (q := q) x ?cv ?ck
            case' ck => (intro hx; clear_value x)
            case' cv => (unfold x; clear x))
         | (refine good_cut_fst (q := q) x ?cv ?ck
            case' ck => (intro hx; clear_value x)
            case' cv => (unfold x; clear x))
         | (refine good_cut_snd (q := q) x ?cv ?ck
            case' ck => (intro hx; clear_value x)
            case' cv => (unfold x; clear x))
         | skip)
    | with_reducible apply good_ite
    | with_reducible apply good_ite_fst
    | with_reducible apply good_ite_snd
    | with_reducible apply State.put_keeps
    | with_reducible apply State.warn_keeps
    | with_reducible apply State.wbEnd_keeps
    | with_reducible apply State.xferFail_keeps
    | with_reducible apply State.swapOut_keeps
    | with_reducible apply State.xferStart_keeps
    | with_reducible apply State.bump_keeps
    | with_reducible apply State.free_keeps
    | with_reducible apply State.brickPut_keeps
    | with_reducible apply good_mk
    | split
    | with_reducible rfl

theorem State.brickWarning_keeps {q : List Instr} (s : State) (h : Good q s) : Good q (State.brickWarning s) := by
  unfold State.brickWarning
  repeat' first
    | with_reducible assumption
    | intro _
    | with_reducible apply good_ite
    | with_reducible apply State.flush_keeps
    | with_reducible apply State.lifeStore_keeps
    | split

theorem State.brickPowerFail_keeps {q : List Instr} (cycle : Bool) (s : State) (h : Good q s) : Good q (State.brickPowerFail cycle s) := by
  unfold State.brickPowerFail
  repeat' first
    | with_reducible assumption
    | intro _
    | with_reducible apply good_ite
    | with_reducible apply State.xferEnd_keeps
    | with_reducible apply State.brickPut_keeps
    | (extract_lets +onlyGivenNames x
       first
         | (refine good_cut (q := q) x ?cv ?ck
            case' ck => (intro hx; clear_value x)
            case' cv => (unfold x; clear x))
         | (refine good_cut_fst (q := q) x ?cv ?ck
            case' ck => (intro hx; clear_value x)
            case' cv => (unfold x; clear x))
         | (refine good_cut_snd (q := q) x ?cv ?ck
            case' ck => (intro hx; clear_value x)
            case' cv => (unfold x; clear x))
         | skip)
    | split

theorem State.lifeInit_keeps {q : List Instr} (d : Nat) (s : State) (h : Good q s) : Good q (State.lifeInit d s) := by
  unfold State.lifeInit
  repeat' first
    | with_reducible assumption
    | intro _
    | with_reducible apply good_ite
    | with_reducible apply good_ite_fst
    | with_reducible apply good_ite_snd
    | with_reducible apply State.free_keeps
    | with_reducible apply State.brickPut_keeps
    | with_reducible apply State.put_keeps
    | with_reducible apply State.lifeRegs_keeps
    | with_reducible apply State.lifeBlock_keeps
    | (extract_lets +onlyGivenNames x
       first
         | (refine good_cut (q := q) x ?cv ?ck
            case' ck => (intro hx; clear_value x)
            case' cv => (unfold x; clear x))
         | (refine good_cut_fst (q := q) x ?cv ?ck
            case' ck => (intro hx; clear_value x)
            case' cv => (unfold x; clear x))
         | (refine good_cut_snd (q := q) x ?cv ?ck
            case' ck => (intro hx; clear_value x)
            case' cv => (unfold x; clear x))
         | skip)
    | split
    | with_reducible apply good_mk
    | with_reducible rfl

theorem State.takeBrick_keeps {q : List Instr} (d : List Byte) (s : State) (h : Good q s) : Good q (State.takeBrick d s) := by
  unfold State.takeBrick
  repeat' first
    | with_reducible assumption
    | intro _
    | with_reducible apply good_ite
    | with_reducible apply State.put_keeps
    | with_reducible apply State.lifeRegs_keeps
    | with_reducible apply State.lifeBlock_keeps
    | with_reducible apply State.lifeStore_keeps
    | with_reducible apply good_forAll
    | (extract_lets +onlyGivenNames x
       first
         | (refine good_cut (q := q) x ?cv ?ck
            case' ck => (intro hx; clear_value x)
            case' cv => (unfold x; clear x))
         | (refine good_cut_fst (q := q) x ?cv ?ck
            case' ck => (intro hx; clear_value x)
            case' cv => (unfold x; clear x))
         | (refine good_cut_snd (q := q) x ?cv ?ck
            case' ck => (intro hx; clear_value x)
            case' cv => (unfold x; clear x))
         | skip)
    | with_reducible apply good_mk
    | with_reducible rfl

end Sys2Proof.Machine
end

