-- ==== Sys2Proof/Laws/KeepsProgram.lean ====
section
/-! SUPPORT. Laws/KeepsProgram.lean: every operation of Machine/Program.lean keeps `Good`. -/

namespace Sys2Proof.Machine

theorem opDecCheck_keeps {q : List Instr} (e : Nat) (s : State) (h : Good q s) : Good q (opDecCheck e s) := by
  unfold opDecCheck
  repeat' first
    | with_reducible assumption
    | intro _
    | with_reducible apply State.put_keeps
    | with_reducible apply good_forAll

theorem opDecCheckComplete_keeps {q : List Instr} (e : Nat) (s : State) (h : Good q s) : Good q (opDecCheckComplete e s) := by
  unfold opDecCheckComplete
  repeat' first
    | with_reducible assumption
    | intro _
    | with_reducible apply good_ite
    | with_reducible apply good_ite_fst
    | with_reducible apply good_ite_snd
    | with_reducible apply State.eccRead_keeps
    | with_reducible apply State.put_keeps
    | with_reducible apply State.disarm_keeps
    | with_reducible apply good_foldl
    | with_reducible apply good_foldl_fst
    | with_reducible apply good_foldl_snd
    | (extract_lets +onlyGivenNames x
       first
         | (refine good_cut (q := q) x ?cv ?ck
            case' ck => (intro hx; clear_value x)
            case' cv => (unfold x; clear x))
         | (refine good_cut_fst (q := q) x ?cv ?ck
            case' ck => (intro hx; clear_value x)
            case' cv => (unfold x; clear x))
         | (refine good_cut_snd (q := q) x ?cv ?ck
            case' ck => (intro hx; clear_value x)
            case' cv => (unfold x; clear x))
         | skip)
    | split
    | with_reducible apply good_mk
    | with_reducible rfl

theorem State.decExchange_keeps {q : List Instr} (e : Nat) (s : State) (h : Good q s) : Good q (State.decExchange e s) := by
  unfold State.decExchange
  repeat' first
    | with_reducible assumption
    | intro _
    | with_reducible apply State.put_keeps

theorem opDecActivate_keeps {q : List Instr} (e : Nat) (s : State) (h : Good q s) : Good q (opDecActivate e s) := by
  unfold opDecActivate
  repeat' first
    | with_reducible assumption
    | intro _
    | with_reducible apply good_ite
    | with_reducible apply State.put_keeps
    | with_reducible apply State.cancelSwitch_keeps
    | with_reducible apply State.decExchange_keeps
    | with_reducible apply good_forAll
    | (extract_lets +onlyGivenNames x
       first
         | (refine good_cut (q := q) x ?cv ?ck
            case' ck => (intro hx; clear_value x)
            case' cv => (unfold x; clear x))
         | (refine good_cut_fst (q := q) x ?cv ?ck
            case' ck => (intro hx; clear_value x)
            case' cv => (unfold x; clear x))
         | (refine good_cut_snd (q := q) x ?cv ?ck
            case' ck => (intro hx; clear_value x)
            case' cv => (unfold x; clear x))
         | skip)
    | split

theorem opDecArm_keeps {q : List Instr} (e : Nat) (s : State) (h : Good q s) : Good q (opDecArm e s) := by
  unfold opDecArm
  repeat' first
    | with_reducible assumption
    | intro _
    | with_reducible apply good_ite
    | with_reducible apply State.put_keeps
    | with_reducible apply State.cancelSwitch_keeps
    | with_reducible apply good_forAll

theorem opDecDisarm_keeps {q : List Instr} (e : Nat) (s : State) (h : Good q s) : Good q (opDecDisarm e s) := by
  unfold opDecDisarm
  repeat' first
    | with_reducible assumption
    | intro _
    | with_reducible apply good_ite
    | with_reducible apply State.put_keeps
    | with_reducible apply State.cancelSwitch_keeps
    | with_reducible apply good_forAll

theorem opPrgCheck_keeps {q : List Instr} (e : Nat) (s : State) (h : Good q s) : Good q (opPrgCheck e s) := by
  unfold opPrgCheck
  repeat' first
    | with_reducible assumption
    | intro _
    | with_reducible apply good_ite
    | with_reducible apply State.put_keeps

theorem opPrgCheckComplete_keeps {q : List Instr} (e : Nat) (s : State) (h : Good q s) : Good q (opPrgCheckComplete e s) := by
  unfold opPrgCheckComplete
  repeat' first
    | with_reducible assumption
    | intro _
    | with_reducible apply good_ite
    | with_reducible apply good_ite_fst
    | with_reducible apply good_ite_snd
    | with_reducible apply State.eccRead_keeps
    | with_reducible apply State.put_keeps
    | with_reducible apply State.prgErr_keeps
    | with_reducible apply State.upPrg_keeps
    | with_reducible apply good_foldl
    | with_reducible apply good_foldl_fst
    | with_reducible apply good_foldl_snd
    | (extract_lets +onlyGivenNames x
       first
         | (refine good_cut (q := q) x ?cv ?ck
            case' ck => (intro hx; clear_value x)
            case' cv => (unfold x; clear x))
         | (refine good_cut_fst (q := q) x ?cv ?ck
            case' ck => (intro hx; clear_value x)
            case' cv => (unfold x; clear x))
         | (refine good_cut_snd (q := q) x ?cv ?ck
            case' ck => (intro hx; clear_value x)
            case' cv => (unfold x; clear x))
         | skip)
    | split
    | with_reducible apply good_mk
    | with_reducible rfl

theorem opPrgSched_keeps {q : List Instr} (e : Nat) (s : State) (h : Good q s) : Good q (opPrgSched e s) := by
  unfold opPrgSched
  repeat' first
    | with_reducible assumption
    | intro _
    | with_reducible apply State.put_keeps
    | with_reducible apply State.prgErr_keeps
    | with_reducible apply State.upPrg_keeps
    | (extract_lets +onlyGivenNames x
       first
         | (refine good_cut (q := q) x ?cv ?ck
            case' ck => (intro hx; clear_value x)
            case' cv => (unfold x; clear x))
         | (refine good_cut_fst (q := q) x ?cv ?ck
            case' ck => (intro hx; clear_value x)
            case' cv => (unfold x; clear x))
         | (refine good_cut_snd (q := q) x ?cv ?ck
            case' ck => (intro hx; clear_value x)
            case' cv => (unfold x; clear x))
         | skip)
    | split

theorem opPrgCancel_keeps {q : List Instr} (e : Nat) (s : State) (h : Good q s) : Good q (opPrgCancel e s) := by
  unfold opPrgCancel
  repeat' first
    | with_reducible assumption
    | intro _
    | with_reducible apply State.unschedule_keeps

theorem State.setDesc_keeps {q : List Instr} (n : Nat) (d : Desc) (s : State) (h : Good q s) : Good q (State.setDesc n d s) := by
  unfold State.setDesc
  repeat' first
    | with_reducible assumption
    | intro _
    | with_reducible apply State.put_keeps
    | with_reducible apply State.putBits_keeps

theorem State.taskSwitched_keeps {q : List Instr} (old : Desc) (n : Nat) (s : State) (h : Good q s) : Good q (State.taskSwitched old n s) := by
  unfold State.taskSwitched
  repeat' first
    | with_reducible assumption
    | intro _
    | with_reducible apply good_ite
    | with_reducible apply State.upT_keeps
    | (extract_lets +onlyGivenNames x
       first
         | (refine good_cut (q := q) x ?cv ?ck
            case' ck => (intro hx; clear_value x)
            case' cv => (unfold x; clear x))
         | (refine good_cut_fst (q := q) x ?cv ?ck
            case' ck => (intro hx; clear_value x)
            case' cv => (unfold x; clear x))
         | (refine good_cut_snd (q := q) x ?cv ?ck
            case' ck => (intro hx; clear_value x)
            case' cv => (unfold x; clear x))
         | skip)
    | with_reducible apply good_mk
    | with_reducible rfl

theorem State.switchStep_keeps {q : List Instr} (e : Nat) (s : State) (h : Good q s) : Good q (State.switchStep e s) := by
  unfold State.switchStep
  repeat' first
    | with_reducible assumption
    | intro _
    | with_reducible apply good_ite
    | with_reducible apply good_ite_fst
    | with_reducible apply good_ite_snd
    | with_reducible apply State.put_keeps
    | with_reducible apply State.decExchange_keeps
    | with_reducible apply State.setDesc_keeps
    | with_reducible apply State.taskSwitched_keeps
    | with_reducible apply State.upE_keeps
    | with_reducible apply State.zeroMem_keeps
    | with_reducible apply State.zeroUnowned_keeps
    | with_reducible apply State.mirrorJoin_keeps
    | with_reducible apply State.upPrg_keeps
    | with_reducible apply good_forAll
    | with_reducible apply good_foldl
    | with_reducible apply good_foldl_fst
    | with_reducible apply good_foldl_snd
    | (extract_lets +onlyGivenNames x
       first
         | (refine good_cut (q := q) x ?cv ?ck
            case' ck => (intro hx; clear_value x)
            case' cv => (unfold x; clear x))
         | (refine good_cut_fst (q := q) x ?cv ?ck
            case' ck => (intro hx; clear_value x)
            case' cv => (unfold x; clear x))
         | (refine good_cut_snd (q := q) x ?cv ?ck
            case' ck => (intro hx; clear_value x)
            case' cv => (unfold x; clear x))
         | skip)
    | split
    | with_reducible apply good_mk
    | with_reducible rfl

theorem State.switchGroup_keeps {q : List Instr} (l : List Nat) (s : State) (h : Good q s) : Good q (State.switchGroup l s) := by
  unfold State.switchGroup
  repeat' first
    | with_reducible assumption
    | intro _
    | with_reducible apply good_ite
    | with_reducible apply State.upPrg_keeps
    | with_reducible apply State.switchStep_keeps
    | with_reducible apply good_forAll
    | (extract_lets +onlyGivenNames x
       first
         | (refine good_cut (q := q) x ?cv ?ck
            case' ck => (intro hx; clear_value x)
            case' cv => (unfold x; clear x))
         | (refine good_cut_fst (q := q) x ?cv ?ck
            case' ck => (intro hx; clear_value x)
            case' cv => (unfold x; clear x))
         | (refine good_cut_snd (q := q) x ?cv ?ck
            case' ck => (intro hx; clear_value x)
            case' cv => (unfold x; clear x))
         | skip)
    | with_reducible apply good_mk
    | with_reducible rfl

theorem State.copyPut_keeps {q : List Instr} (l : List Byte) (bad : Bool) (dst : Nat) (s : State) (h : Good q s) : Good q (State.copyPut l bad dst s) := by
  unfold State.copyPut
  repeat' first
    | with_reducible assumption
    | intro _
    | with_reducible apply good_ite
    | with_reducible apply State.putWords_keeps
    | with_reducible apply State.setEcc_keeps
    | with_reducible apply State.stored_keeps
    | (extract_lets +onlyGivenNames x
       first
         | (refine good_cut (q := q) x ?cv ?ck
            case' ck => (intro hx; clear_value x)
            case' cv => (unfold x; clear x))
         | (refine good_cut_fst (q := q) x ?cv ?ck
            case' ck => (intro hx; clear_value x)
            case' cv => (unfold x; clear x))
         | (refine good_cut_snd (q := q) x ?cv ?ck
            case' ck => (intro hx; clear_value x)
            case' cv => (unfold x; clear x))
         | skip)
    | split

theorem State.copyWord_keeps {q : List Instr} (src : Nat) (dst : List Nat) (s : State) (h : Good q s) : Good q (State.copyWord src dst s) := by
  unfold State.copyWord
  repeat' first
    | with_reducible assumption
    | intro _
    | with_reducible apply good_ite
    | with_reducible apply good_ite_fst
    | with_reducible apply good_ite_snd
    | with_reducible apply State.eccRead_keeps
    | with_reducible apply State.copyPut_keeps
    | with_reducible apply good_forAll
    | (extract_lets +onlyGivenNames x
       first
         | (refine good_cut (q := q) x ?cv ?ck
            case' ck => (intro hx; clear_value x)
            case' cv => (unfold x; clear x))
         | (refine good_cut_fst (q := q) x ?cv ?ck
            case' ck => (intro hx; clear_value x)
            case' cv => (unfold x; clear x))
         | (refine good_cut_snd (q := q) x ?cv ?ck
            case' ck => (intro hx; clear_value x)
            case' cv => (unfold x; clear x))
         | skip)

theorem State.runEntry_keeps {q : List Instr} (c : CopyEnt) (s : State) (h : Good q s) : Good q (State.runEntry c s) := by
  unfold State.runEntry
  repeat' first
    | with_reducible assumption
    | intro _
    | with_reducible apply good_ite
    | with_reducible apply State.copyWord_keeps
    | with_reducible apply State.copyPut_keeps
    | with_reducible apply good_forAll
    | (extract_lets +onlyGivenNames x
       first
         | (refine good_cut (q := q) x ?cv ?ck
            case' ck => (intro hx; clear_value x)
            case' cv => (unfold x; clear x))
         | (refine good_cut_fst (q := q) x ?cv ?ck
            case' ck => (intro hx; clear_value x)
            case' cv => (unfold x; clear x))
         | (refine good_cut_snd (q := q) x ?cv ?ck
            case' ck => (intro hx; clear_value x)
            case' cv => (unfold x; clear x))
         | skip)
    | split
    | with_reducible apply good_mk
    | with_reducible rfl

theorem State.listEntry_keeps {q : List Instr} (i : Image) (o : Nat) (p : CopyEnt × Nat) (s : State) (h : Good q s) : Good q (State.listEntry i o p s) := by
  unfold State.listEntry
  repeat' first
    | with_reducible assumption
    | intro _
    | with_reducible apply good_ite
    | with_reducible apply good_ite_fst
    | with_reducible apply good_ite_snd
    | with_reducible apply State.runEntry_keeps
    | with_reducible apply State.eccRead_keeps
    | (extract_lets +onlyGivenNames x
       first
         | (refine good_cut (q := q) x ?cv ?ck
            case' ck => (intro hx; clear_value x)
            case' cv => (unfold x; clear x))
         | (refine good_cut_fst (q := q) x ?cv ?ck
            case' ck => (intro hx; clear_value x)
            case' cv => (unfold x; clear x))
         | (refine good_cut_snd (q := q) x ?cv ?ck
            case' ck => (intro hx; clear_value x)
            case' cv => (unfold x; clear x))
         | skip)
    | split
    | with_reducible apply good_mk
    | with_reducible rfl

theorem State.runLists_keeps {q : List Instr} (e : Nat) (s : State) (h : Good q s) : Good q (State.runLists e s) := by
  unfold State.runLists
  repeat' first
    | with_reducible assumption
    | intro _
    | with_reducible apply good_ite
    | with_reducible apply State.listEntry_keeps
    | with_reducible apply good_forAll
    | (extract_lets +onlyGivenNames x
       first
         | (refine good_cut (q := q) x ?cv ?ck
            case' ck => (intro hx; clear_value x)
            case' cv => (unfold x; clear x))
         | (refine good_cut_fst (q := q) x ?cv ?ck
            case' ck => (intro hx; clear_value x)
            case' cv => (unfold x; clear x))
         | (refine good_cut_snd (q := q) x ?cv ?ck
            case' ck => (intro hx; clear_value x)
            case' cv => (unfold x; clear x))
         | skip)

theorem State.switchDone_keeps {q : List Instr} (e : Nat) (s : State) (h : Good q s) : Good q (State.switchDone e s) := by
  unfold State.switchDone
  repeat' first
    | with_reducible assumption
    | intro _
    | with_reducible apply good_ite
    | with_reducible apply State.put_keeps
    | with_reducible apply State.unschedule_keeps
    | with_reducible apply State.wrapUp_keeps
    | with_reducible apply State.upPrg_keeps
    | with_reducible apply State.note_keeps
    | (extract_lets +onlyGivenNames x
       first
         | (refine good_cut (q := q) x ?cv ?ck
            case' ck => (intro hx; clear_value x)
            case' cv => (unfold x; clear x))
         | (refine good_cut_fst (q := q) x ?cv ?ck
            case' ck => (intro hx; clear_value x)
            case' cv => (unfold x; clear x))
         | (refine good_cut_snd (q := q) x ?cv ?ck
            case' ck => (intro hx; clear_value x)
            case' cv => (unfold x; clear x))
         | skip)
    | with_reducible apply good_mk
    | with_reducible rfl

theorem State.stepFive_keeps {q : List Instr} (s : State) (h : Good q s) : Good q (State.stepFive s) := by
  unfold State.stepFive
  repeat' first
    | with_reducible assumption
    | intro _
    | with_reducible apply good_ite
    | with_reducible apply State.outRefresh_keeps
    | (extract_lets +onlyGivenNames x
       first
         | (refine good_cut (q := q) x ?cv ?ck
            case' ck => (intro hx; clear_value x)
            case' cv => (unfold x; clear x))
         | (refine good_cut_fst (q := q) x ?cv ?ck
            case' ck => (intro hx; clear_value x)
            case' cv => (unfold x; clear x))
         | (refine good_cut_snd (q := q) x ?cv ?ck
            case' ck => (intro hx; clear_value x)
            case' cv => (unfold x; clear x))
         | skip)
    | split
    | with_reducible apply good_mk
    | with_reducible rfl

theorem opProgramSwitchComplete_keeps {q : List Instr} (e : Nat) (s : State) (h : Good q s) : Good q (opProgramSwitchComplete e s) := by
  unfold opProgramSwitchComplete
  repeat' first
    | with_reducible assumption
    | intro _
    | with_reducible apply good_ite
    | with_reducible apply State.advance_keeps
    | with_reducible apply State.switchDone_keeps
    | with_reducible apply State.runLists_keeps
    | with_reducible apply State.seqLatchEnd_keeps
    | with_reducible apply State.stepFive_keeps
    | with_reducible apply good_forAll
    | (extract_lets +onlyGivenNames x
       first
         | (refine good_cut (q := q) x ?cv ?ck
            case' ck => (intro hx; clear_value x)
            case' cv => (unfold x; clear x))
         | (refine good_cut_fst (q := q) x ?cv ?ck
            case' ck => (intro hx; clear_value x)
            case' cv => (unfold x; clear x))
         | (refine good_cut_snd (q := q) x ?cv ?ck
            case' ck => (intro hx; clear_value x)
            case' cv => (unfold x; clear x))
         | skip)
    | split

theorem opPrgSwitchnow_keeps {q : List Instr} (e : Nat) (s : State) (h : Good q s) : Good q (opPrgSwitchnow e s) := by
  unfold opPrgSwitchnow
  repeat' first
    | with_reducible assumption
    | intro _
    | with_reducible apply good_ite
    | with_reducible apply State.prgErr_keeps
    | with_reducible apply State.switchStep_keeps
    | with_reducible apply State.upPrg_keeps
    | (extract_lets +onlyGivenNames x
       first
         | (refine good_cut (q := q) x ?cv ?ck
            case' ck => (intro hx; clear_value x)
            case' cv => (unfold x; clear x))
         | (refine good_cut_fst (q := q) x ?cv ?ck
            case' ck => (intro hx; clear_value x)
            case' cv => (unfold x; clear x))
         | (refine good_cut_snd (q := q) x ?cv ?ck
            case' ck => (intro hx; clear_value x)
            case' cv => (unfold x; clear x))
         | skip)
    | split
    | with_reducible apply good_mk
    | with_reducible rfl

theorem State.refuseGroup_keeps {q : List Instr} (l : List Nat) (c : Nat) (sub : Nat) (idx : Nat) (s : State) (h : Good q s) : Good q (State.refuseGroup l c sub idx s) := by
  unfold State.refuseGroup
  repeat' first
    | with_reducible assumption
    | intro _
    | with_reducible apply State.put_keeps
    | with_reducible apply State.prgErr_keeps
    | with_reducible apply State.unschedule_keeps
    | with_reducible apply good_forAll

theorem State.groupTick_keeps {q : List Instr} (handover : Bool) (l : List Nat) (s : State) (h : Good q s) : Good q (State.groupTick handover l s) := by
  unfold State.groupTick
  repeat' first
    | with_reducible assumption
    | intro _
    | with_reducible apply good_ite
    | with_reducible apply State.refuseGroup_keeps
    | with_reducible apply State.switchGroup_keeps
    | with_reducible apply State.upPrg_keeps
    | with_reducible apply State.put_keeps
    | with_reducible apply good_forAll
    | (extract_lets +onlyGivenNames x
       first
         | (refine good_cut (q := q) x ?cv ?ck
            case' ck => (intro hx; clear_value x)
            case' cv => (unfold x; clear x))
         | (refine good_cut_fst (q := q) x ?cv ?ck
            case' ck => (intro hx; clear_value x)
            case' cv => (unfold x; clear x))
         | (refine good_cut_snd (q := q) x ?cv ?ck
            case' ck => (intro hx; clear_value x)
            case' cv => (unfold x; clear x))
         | skip)
    | split
    | with_reducible apply good_mk
    | with_reducible rfl

theorem State.prgTick_keeps {q : List Instr} (a : Nat) (handover : Bool) (s : State) (h : Good q s) : Good q (State.prgTick a handover s) := by
  unfold State.prgTick
  repeat' first
    | with_reducible assumption
    | intro _
    | with_reducible apply good_ite
    | with_reducible apply State.switchStep_keeps
    | with_reducible apply State.groupTick_keeps
    | with_reducible apply good_forAll
    | (extract_lets +onlyGivenNames x
       first
         | (refine good_cut (q := q) x ?cv ?ck
            case' ck => (intro hx; clear_value x)
            case' cv => (unfold x; clear x))
         | (refine good_cut_fst (q := q) x ?cv ?ck
            case' ck => (intro hx; clear_value x)
            case' cv => (unfold x; clear x))
         | (refine good_cut_snd (q := q) x ?cv ?ck
            case' ck => (intro hx; clear_value x)
            case' cv => (unfold x; clear x))
         | skip)

theorem opSwitchWaitRefused_keeps {q : List Instr} (e : Nat) (s : State) (h : Good q s) : Good q (opSwitchWaitRefused e s) := by
  unfold opSwitchWaitRefused
  repeat' first
    | with_reducible assumption
    | intro _
    | with_reducible apply good_ite
    | with_reducible apply good_ite_fst
    | with_reducible apply good_ite_snd
    | with_reducible apply State.refuseGroup_keeps
    | (extract_lets +onlyGivenNames x
       first
         | (refine good_cut (q := q) x ?cv ?ck
            case' ck => (intro hx; clear_value x)
            case' cv => (unfold x; clear x))
         | (refine good_cut_fst (q := q) x ?cv ?ck
            case' ck => (intro hx; clear_value x)
            case' cv => (unfold x; clear x))
         | (refine good_cut_snd (q := q) x ?cv ?ck
            case' ck => (intro hx; clear_value x)
            case' cv => (unfold x; clear x))
         | skip)
    | split

end Sys2Proof.Machine
end

