-- ==== Sys2Proof/Laws/KeepsSense.lean ====
section
/-! SUPPORT. Laws/KeepsSense.lean: every operation of Machine/Sense.lean keeps `Good`. -/

namespace Sys2Proof.Machine

theorem State.upAdc_keeps {q : List Instr} (s : State) (n : Nat) (f : AdcSt → AdcSt) (h : Good q s) : Good q (State.upAdc s n f) := by
  unfold State.upAdc
  repeat' first
    | with_reducible assumption
    | intro _
    | with_reducible apply good_mk
    | with_reducible rfl

theorem State.fifoPut_keeps {q : List Instr} (n : Nat) (w : Nat) (s : State) (h : Good q s) : Good q (State.fifoPut n w s) := by
  unfold State.fifoPut
  repeat' first
    | with_reducible assumption
    | intro _
    | with_reducible apply good_ite
    | with_reducible apply State.upAdc_keeps
    | with_reducible apply State.bufStore_keeps
    | with_reducible apply State.put_keeps
    | with_reducible apply State.bump_keeps
    | with_reducible apply State.raise_keeps
    | (extract_lets +onlyGivenNames x
       first
         | (refine good_cut (q := q) x ?cv ?ck
            case' ck => (intro hx; clear_value x)
            case' cv => (unfold x; clear x))
         | (refine good_cut_fst (q := q) x ?cv ?ck
            case' ck => (intro hx; clear_value x)
            case' cv => (unfold x; clear x))
         | (refine good_cut_snd (q := q) x ?cv ?ck
            case' ck => (intro hx; clear_value x)
            case' cv => (unfold x; clear x))
         | skip)
    | split
    | with_reducible apply good_mk
    | with_reducible rfl

theorem State.adcDeliver_keeps {q : List Instr} (n : Nat) (w : Nat) (t0 : Nat) (te : Nat) (s : State) (h : Good q s) : Good q (State.adcDeliver n w t0 te s) := by
  unfold State.adcDeliver
  repeat' first
    | with_reducible assumption
    | intro _
    | with_reducible apply good_ite
    | with_reducible apply good_ite_fst
    | with_reducible apply good_ite_snd
    | with_reducible apply State.put_keeps
    | with_reducible apply State.putBit_keeps
    | with_reducible apply State.bump_keeps
    | with_reducible apply State.upAdc_keeps
    | with_reducible apply State.img_keeps
    | with_reducible apply State.dlnkSample_keeps
    | with_reducible apply State.raise_keeps
    | with_reducible apply State.fifoPut_keeps
    | with_reducible apply State.lifeSample_keeps
    | (extract_lets +onlyGivenNames x
       first
         | (refine good_cut (q := q) x ?cv ?ck
            case' ck => (intro hx; clear_value x)
            case' cv => (unfold x; clear x))
         | (refine good_cut_fst (q := q) x ?cv ?ck
            case' ck => (intro hx; clear_value x)
            case' cv => (unfold x; clear x))
         | (refine good_cut_snd (q := q) x ?cv ?ck
            case' ck => (intro hx; clear_value x)
            case' cv => (unfold x; clear x))
         | skip)
    | split
    | with_reducible apply good_mk
    | with_reducible rfl

theorem State.adcChange_keeps {q : List Instr} (n : Nat) (s : State) (h : Good q s) : Good q (State.adcChange n s) := by
  unfold State.adcChange
  repeat' first
    | with_reducible assumption
    | intro _
    | with_reducible apply State.upAdc_keeps

theorem State.adcSample_keeps {q : List Instr} (n : Nat) (t : Nat) (vin : Int) (s : State) (h : Good q s) : Good q (State.adcSample n t vin s) := by
  unfold State.adcSample
  repeat' first
    | with_reducible assumption
    | intro _
    | with_reducible apply good_ite
    | with_reducible apply State.upAdc_keeps
    | with_reducible apply State.adcDeliver_keeps
    | (extract_lets +onlyGivenNames x
       first
         | (refine good_cut (q := q) x ?cv ?ck
            case' ck => (intro hx; clear_value x)
            case' cv => (unfold x; clear x))
         | (refine good_cut_fst (q := q) x ?cv ?ck
            case' ck => (intro hx; clear_value x)
            case' cv => (unfold x; clear x))
         | (refine good_cut_snd (q := q) x ?cv ?ck
            case' ck => (intro hx; clear_value x)
            case' cv => (unfold x; clear x))
         | skip)
    | split
    | with_reducible apply good_mk
    | with_reducible rfl

theorem opAdcWindowEnd_keeps {q : List Instr} (n : Nat) (t : Nat) (vin : Int) (unstable : Bool) (s : State) (h : Good q s) : Good q (opAdcWindowEnd n t vin unstable s) := by
  unfold opAdcWindowEnd
  repeat' first
    | with_reducible assumption
    | intro _
    | with_reducible apply good_ite
    | with_reducible apply State.advance_keeps
    | with_reducible apply State.adcSample_keeps
    | with_reducible apply State.upAdc_keeps
    | with_reducible apply State.adcChange_keeps
    | (extract_lets +onlyGivenNames x
       first
         | (refine good_cut (q := q) x ?cv ?ck
            case' ck => (intro hx; clear_value x)
            case' cv => (unfold x; clear x))
         | (refine good_cut_fst (q := q) x ?cv ?ck
            case' ck => (intro hx; clear_value x)
            case' cv => (unfold x; clear x))
         | (refine good_cut_snd (q := q) x ?cv ?ck
            case' ck => (intro hx; clear_value x)
            case' cv => (unfold x; clear x))
         | skip)
    | split

theorem opSadcCfgWrite_keeps {q : List Instr} (n : Nat) (k : Nat) (v : Nat) (s : State) (h : Good q s) : Good q (opSadcCfgWrite n k v s) := by
  unfold opSadcCfgWrite
  repeat' first
    | with_reducible assumption
    | intro _
    | with_reducible apply good_ite
    | with_reducible apply State.put_keeps
    | with_reducible apply State.upAdc_keeps
    | (extract_lets +onlyGivenNames x
       first
         | (refine good_cut (q := q) x ?cv ?ck
            case' ck => (intro hx; clear_value x)
            case' cv => (unfold x; clear x))
         | (refine good_cut_fst (q := q) x ?cv ?ck
            case' ck => (intro hx; clear_value x)
            case' cv => (unfold x; clear x))
         | (refine good_cut_snd (q := q) x ?cv ?ck
            case' ck => (intro hx; clear_value x)
            case' cv => (unfold x; clear x))
         | skip)
    | split
    | with_reducible apply good_mk
    | with_reducible rfl

theorem opSadcImgWrite_keeps {q : List Instr} (v : Nat) (s : State) (h : Good q s) : Good q (opSadcImgWrite v s) := by
  unfold opSadcImgWrite
  repeat' first
    | with_reducible assumption
    | intro _
    | with_reducible apply good_ite
    | with_reducible apply State.put_keeps

theorem opSadcFifoPop_keeps {q : List Instr} (n : Nat) (s : State) (h : Good q s) : Good q (opSadcFifoPop n s) := by
  unfold opSadcFifoPop
  repeat' first
    | with_reducible assumption
    | intro _
    | with_reducible apply good_ite
    | with_reducible apply State.bufRead_keeps
    | with_reducible apply State.upAdc_keeps
    | with_reducible apply State.put_keeps
    | (extract_lets +onlyGivenNames x
       first
         | (refine good_cut (q := q) x ?cv ?ck
            case' ck => (intro hx; clear_value x)
            case' cv => (unfold x; clear x))
         | (refine good_cut_fst (q := q) x ?cv ?ck
            case' ck => (intro hx; clear_value x)
            case' cv => (unfold x; clear x))
         | (refine good_cut_snd (q := q) x ?cv ?ck
            case' ck => (intro hx; clear_value x)
            case' cv => (unfold x; clear x))
         | skip)
    | split
    | with_reducible apply good_mk
    | with_reducible rfl

theorem State.adcTaken_keeps {q : List Instr} (t : Nat) (n : Nat) (s : State) (h : Good q s) : Good q (State.adcTaken t n s) := by
  unfold State.adcTaken
  repeat' first
    | with_reducible assumption
    | intro _
    | with_reducible apply good_ite
    | with_reducible apply State.upAdc_keeps

theorem State.ocThresholds_keeps {q : List Instr} (s : State) (h : Good q s) : Good q (State.ocThresholds s) := by
  unfold State.ocThresholds
  repeat' first
    | with_reducible assumption
    | intro _
    | with_reducible apply good_ite
    | with_reducible apply State.put_keeps
    | with_reducible apply good_forAll

theorem State.ocApply_keeps {q : List Instr} (k : Nat) (v : Nat) (s : State) (h : Good q s) : Good q (State.ocApply k v s) := by
  unfold State.ocApply
  repeat' first
    | with_reducible assumption
    | intro _
    | with_reducible apply good_ite
    | with_reducible apply State.putBit_keeps
    | with_reducible apply State.raise_keeps
    | with_reducible apply State.setBen_keeps
    | (extract_lets +onlyGivenNames x
       first
         | (refine good_cut (q := q) x ?cv ?ck
            case' ck => (intro hx; clear_value x)
            case' cv => (unfold x; clear x))
         | (refine good_cut_fst (q := q) x ?cv ?ck
            case' ck => (intro hx; clear_value x)
            case' cv => (unfold x; clear x))
         | (refine good_cut_snd (q := q) x ?cv ?ck
            case' ck => (intro hx; clear_value x)
            case' cv => (unfold x; clear x))
         | skip)
    | split
    | with_reducible apply good_mk
    | with_reducible rfl

theorem opOvercurrentComparatorChange_keeps {q : List Instr} (k : Nat) (v : Nat) (s : State) (h : Good q s) : Good q (opOvercurrentComparatorChange k v s) := by
  unfold opOvercurrentComparatorChange
  repeat' first
    | with_reducible assumption
    | intro _
    | with_reducible apply good_ite
    | with_reducible apply State.ocApply_keeps
    | split
    | with_reducible apply good_mk
    | with_reducible rfl

theorem opOcLatchClear_keeps {q : List Instr} (m : Nat) (s : State) (h : Good q s) : Good q (opOcLatchClear m s) := by
  unfold opOcLatchClear
  repeat' first
    | with_reducible assumption
    | intro _
    | with_reducible apply State.put_keeps

theorem State.ocWrite_keeps {q : List Instr} (k : Nat) (v : Nat) (s : State) (h : Good q s) : Good q (State.ocWrite k v s) := by
  unfold State.ocWrite
  repeat' first
    | with_reducible assumption
    | intro _
    | with_reducible apply good_ite
    | with_reducible apply State.put_keeps
    | with_reducible apply State.ocThresholds_keeps
    | with_reducible apply State.putBit_keeps

theorem opRollRequest_keeps {q : List Instr} (c : Nat) (s : State) (h : Good q s) : Good q (opRollRequest c s) := by
  unfold opRollRequest
  repeat' first
    | with_reducible assumption
    | intro _
    | with_reducible apply good_ite
    | with_reducible apply State.put_keeps
    | with_reducible apply State.raise_keeps
    | with_reducible apply State.desat_keeps
    | with_reducible apply State.cmp_keeps
    | with_reducible apply State.hysteresis_keeps
    | with_reducible apply State.chop_keeps
    | (extract_lets +onlyGivenNames x
       first
         | (refine good_cut (q := q) x ?cv ?ck
            case' ck => (intro hx; clear_value x)
            case' cv => (unfold x; clear x))
         | (refine good_cut_fst (q := q) x ?cv ?ck
            case' ck => (intro hx; clear_value x)
            case' cv => (unfold x; clear x))
         | (refine good_cut_snd (q := q) x ?cv ?ck
            case' ck => (intro hx; clear_value x)
            case' cv => (unfold x; clear x))
         | skip)
    | split
    | with_reducible apply good_mk
    | with_reducible rfl

theorem State.rollDeferred_keeps {q : List Instr} (c : Nat) (r : RollSt) (s : State) (h : Good q s) : Good q (State.rollDeferred c r s) := by
  unfold State.rollDeferred
  extract_lets s1 s2
  have h1 : Good q s1 := good_ite (State.desat_keeps _ _ h) h
  have h2 : Good q s2 := by
    unfold s2
    split
    · exact State.cmpApply_keeps _ _ _ _ h1
    · exact good_ite (State.chop_keeps _ (State.hysteresis_keeps _ h1)) h1
  split
  · exact State.ocApply_keeps _ _ _ h2
  · exact h2

theorem opRollCheckpoint_keeps {q : List Instr} (out : Bool) (s : State) (h : Good q s) : Good q (opRollCheckpoint out s) := by
  unfold opRollCheckpoint
  repeat' first
    | with_reducible assumption
    | intro _
    | with_reducible apply good_ite
    | with_reducible apply State.advanceReal_keeps
    | with_reducible apply State.rollEnd_keeps
    | with_reducible apply State.rollDeferred_keeps
    | (extract_lets +onlyGivenNames x
       first
         | (refine good_cut (q := q) x ?cv ?ck
            case' ck => (intro hx; clear_value x)
            case' cv => (unfold x; clear x))
         | (refine good_cut_fst (q := q) x ?cv ?ck
            case' ck => (intro hx; clear_value x)
            case' cv => (unfold x; clear x))
         | (refine good_cut_snd (q := q) x ?cv ?ck
            case' ck => (intro hx; clear_value x)
            case' cv => (unfold x; clear x))
         | skip)
    | split
    | with_reducible apply good_mk
    | with_reducible rfl

end Sys2Proof.Machine
end

