-- ==== Sys2Proof/Laws/KeepsPower.lean ====
section
/-! SUPPORT. Laws/KeepsPower.lean: every operation of Machine/Power.lean keeps `Good`. -/

namespace Sys2Proof.Machine

theorem State.afterReset_keeps {q : List Instr} (sys : Bool) (s : State) (h : Good q s) : Good q (State.afterReset sys s) := by
  unfold State.afterReset
  extract_lets +onlyGivenNames t
  have h1 : Good q t := good_ite h (State.keepAbandon_keeps _ _ h)
  clear_value t
  exact ⟨h1.queue, h1.mem, h1.back, h1.work, h1.nor, h1.arr, cellsWf_nil _, h1.brick, by rfl, Nat.zero_le _, Nat.zero_le _, by rfl⟩

theorem State.latchCause_keeps {q : List Instr} (c : Nat) (s : State) (h : Good q s) : Good q (State.latchCause c s) := by
  unfold State.latchCause
  repeat' first
    | with_reducible assumption
    | intro _
    | (extract_lets +onlyGivenNames x
       first
         | (refine good_cut (q := q) x ?cv ?ck
            case' ck => (intro hx; clear_value x)
            case' cv => (unfold x; clear x))
         | (refine good_cut_fst (q := q) x ?cv ?ck
            case' ck => (intro hx; clear_value x)
            case' cv => (unfold x; clear x))
         | (refine good_cut_snd (q := q) x ?cv ?ck
            case' ck => (intro hx; clear_value x)
            case' cv => (unfold x; clear x))
         | skip)
    | with_reducible apply good_mk
    | with_reducible rfl

theorem State.stepOne_keeps {q : List Instr} (s : State) (h : Good q s) : Good q (State.stepOne s) := by
  unfold State.stepOne
  repeat' first
    | with_reducible assumption
    | intro _
    | with_reducible apply State.put_keeps
    | (extract_lets +onlyGivenNames x
       first
         | (refine good_cut (q := q) x ?cv ?ck
            case' ck => (intro hx; clear_value x)
            case' cv => (unfold x; clear x))
         | (refine good_cut_fst (q := q) x ?cv ?ck
            case' ck => (intro hx; clear_value x)
            case' cv => (unfold x; clear x))
         | (refine good_cut_snd (q := q) x ?cv ?ck
            case' ck => (intro hx; clear_value x)
            case' cv => (unfold x; clear x))
         | skip)
    | with_reducible apply good_mk
    | with_reducible rfl

theorem State.powerReset_keeps {q : List Instr} (c : Nat) (p : Phase) (s : State) (h : Good q s) : Good q (State.powerReset c p s) := by
  unfold State.powerReset
  repeat' first
    | with_reducible assumption
    | intro _
    | with_reducible apply State.afterReset_keeps
    | with_reducible apply State.latchCause_keeps
    | (extract_lets +onlyGivenNames x
       first
         | (refine good_cut (q := q) x ?cv ?ck
            case' ck => (intro hx; clear_value x)
            case' cv => (unfold x; clear x))
         | (refine good_cut_fst (q := q) x ?cv ?ck
            case' ck => (intro hx; clear_value x)
            case' cv => (unfold x; clear x))
         | (refine good_cut_snd (q := q) x ?cv ?ck
            case' ck => (intro hx; clear_value x)
            case' cv => (unfold x; clear x))
         | skip)
    | with_reducible apply good_mk
    | with_reducible rfl

theorem State.systemReset_keeps {q : List Instr} (c : Nat) (s : State) (h : Good q s) : Good q (State.systemReset c s) := by
  unfold State.systemReset
  repeat' first
    | with_reducible assumption
    | intro _
    | with_reducible apply State.put_keeps
    | with_reducible apply State.afterReset_keeps
    | with_reducible apply State.latchCause_keeps
    | with_reducible apply State.stepOne_keeps
    | with_reducible apply State.bump_keeps

theorem State.commandReset_keeps {q : List Instr} (c : Nat) (s : State) (h : Good q s) : Good q (State.commandReset c s) := by
  unfold State.commandReset
  repeat' first
    | with_reducible assumption
    | intro _
    | with_reducible apply good_ite
    | with_reducible apply State.systemReset_keeps
    | with_reducible apply State.handOver_keeps

theorem State.wake_keeps {q : List Instr} (c : Nat) (s : State) (h : Good q s) : Good q (State.wake c s) := by
  unfold State.wake
  repeat' first
    | with_reducible assumption
    | intro _
    | with_reducible apply good_ite
    | with_reducible apply State.systemReset_keeps
    | with_reducible apply State.stepOne_keeps
    | with_reducible apply State.powerReset_keeps

theorem opPowerFailWarningStart_keeps {q : List Instr} (cycle : Bool) (s : State) (h : Good q s) : Good q (opPowerFailWarningStart cycle s) := by
  unfold opPowerFailWarningStart
  repeat' first
    | with_reducible assumption
    | intro _
    | with_reducible apply good_ite
    | with_reducible apply State.put_keeps
    | with_reducible apply State.level_keeps
    | with_reducible apply State.keepWarning_keeps
    | with_reducible apply State.brickWarning_keeps
    | with_reducible apply State.keepSettle_keeps
    | with_reducible apply State.brickPowerFail_keeps
    | (extract_lets +onlyGivenNames x
       first
         | (refine good_cut (q := q) x ?cv ?ck
            case' ck => (intro hx; clear_value x)
            case' cv => (unfold x; clear x))
         | (refine good_cut_fst (q := q) x ?cv ?ck
            case' ck => (intro hx; clear_value x)
            case' cv => (unfold x; clear x))
         | (refine good_cut_snd (q := q) x ?cv ?ck
            case' ck => (intro hx; clear_value x)
            case' cv => (unfold x; clear x))
         | skip)
    | split
    | with_reducible apply good_mk
    | with_reducible rfl

theorem opPowerFailWarningEnd_keeps {q : List Instr} (s : State) (h : Good q s) : Good q (opPowerFailWarningEnd s) := by
  unfold opPowerFailWarningEnd
  repeat' first
    | with_reducible assumption
    | intro _
    | with_reducible apply good_ite
    | with_reducible apply State.put_keeps
    | with_reducible apply State.keepWarningEnd_keeps
    | with_reducible apply State.level_keeps

theorem opSupplyWindowChange_keeps {q : List Instr} (k : Nat) (out : Bool) (mv : Nat) (s : State) (h : Good q s) : Good q (opSupplyWindowChange k out mv s) := by
  unfold opSupplyWindowChange
  repeat' first
    | with_reducible assumption
    | intro _
    | with_reducible apply good_ite
    | with_reducible apply State.put_keeps
    | with_reducible apply State.putBit_keeps
    | with_reducible apply State.level_keeps

theorem opPowerOnResetAssert_keeps {q : List Instr} (s : State) (h : Good q s) : Good q (opPowerOnResetAssert s) := by
  unfold opPowerOnResetAssert
  repeat' first
    | with_reducible assumption
    | intro _
    | with_reducible apply good_ite
    | with_reducible apply State.powerReset_keeps
    | split

theorem State.coldStart_keeps {q : List Instr} (s : State) (h : Good q s) : Good q (State.coldStart s) := by
  unfold State.coldStart
  repeat' first
    | with_reducible assumption
    | intro _
    | with_reducible apply good_ite
    | with_reducible apply good_ite_fst
    | with_reducible apply good_ite_snd
    | with_reducible apply State.free_keeps
    | with_reducible apply State.put_keeps
    | with_reducible apply good_mk
    | (extract_lets +onlyGivenNames x
       first
         | (refine good_cut (q := q) x ?cv ?ck
            case' ck => (intro hx; clear_value x)
            case' cv => (unfold x; clear x))
         | (refine good_cut_fst (q := q) x ?cv ?ck
            case' ck => (intro hx; clear_value x)
            case' cv => (unfold x; clear x))
         | (refine good_cut_snd (q := q) x ?cv ?ck
            case' ck => (intro hx; clear_value x)
            case' cv => (unfold x; clear x))
         | skip)
    | with_reducible rfl
    | rfl

theorem opPowerOnResetRelease_keeps {q : List Instr} (cold : Bool) (mv : Nat) (s : State) (h : Good q s) : Good q (opPowerOnResetRelease cold mv s) := by
  unfold opPowerOnResetRelease
  repeat' first
    | with_reducible assumption
    | intro _
    | with_reducible apply good_ite
    | with_reducible apply State.put_keeps
    | with_reducible apply State.coldStart_keeps
    | with_reducible apply State.stepOne_keeps

theorem State.refFault_keeps {q : List Instr} (s : State) (h : Good q s) : Good q (State.refFault s) := by
  unfold State.refFault
  repeat' first
    | with_reducible assumption
    | intro _
    | with_reducible apply State.put_keeps
    | with_reducible apply State.raise_keeps

theorem opPllLock_keeps {q : List Instr} (xok : Bool) (s : State) (h : Good q s) : Good q (opPllLock xok s) := by
  unfold opPllLock
  repeat' first
    | with_reducible assumption
    | intro _
    | with_reducible apply good_ite
    | with_reducible apply State.put_keeps
    | with_reducible apply State.refFault_keeps
    | with_reducible apply State.level_keeps
    | with_reducible apply good_forAll
    | (extract_lets +onlyGivenNames x
       first
         | (refine good_cut (q := q) x ?cv ?ck
            case' ck => (intro hx; clear_value x)
            case' cv => (unfold x; clear x))
         | (refine good_cut_fst (q := q) x ?cv ?ck
            case' ck => (intro hx; clear_value x)
            case' cv => (unfold x; clear x))
         | (refine good_cut_snd (q := q) x ?cv ?ck
            case' ck => (intro hx; clear_value x)
            case' cv => (unfold x; clear x))
         | skip)
    | with_reducible apply good_mk
    | split
    | with_reducible rfl

theorem State.svRelease_keeps {q : List Instr} (s : State) (h : Good q s) : Good q (State.svRelease s) := by
  unfold State.svRelease
  repeat' first
    | with_reducible assumption
    | intro _
    | with_reducible apply good_ite
    | with_reducible apply State.setEng_keeps
    | with_reducible apply State.haltNow_keeps
    | (extract_lets +onlyGivenNames x
       first
         | (refine good_cut (q := q) x ?cv ?ck
            case' ck => (intro hx; clear_value x)
            case' cv => (unfold x; clear x))
         | (refine good_cut_fst (q := q) x ?cv ?ck
            case' ck => (intro hx; clear_value x)
            case' cv => (unfold x; clear x))
         | (refine good_cut_snd (q := q) x ?cv ?ck
            case' ck => (intro hx; clear_value x)
            case' cv => (unfold x; clear x))
         | skip)
    | split
    | with_reducible apply good_mk
    | with_reducible rfl

theorem opSramInitComplete_keeps {q : List Instr} (s : State) (h : Good q s) : Good q (opSramInitComplete s) := by
  unfold opSramInitComplete
  refine good_ite h ?_
  have h1 : Good q { s with mem := [], back := [], work := [], m := { s.m with ecc := [], init := false, held := [] } } :=
    ⟨h.queue, cellsWf_nil _, cellsWf_nil _, cellsWf_nil _, h.nor, h.arr, h.snap, h.brick, h.fifo, h.logq, h.ram, h.farm⟩
  exact State.svRelease_keeps _ (State.put_keeps _ _ _ _ _ (State.put_keeps _ _ _ _ _
    (good_forAll (fun d s hs => State.memWrite_keeps d.req d.addr d.bytes s hs) h1)))

theorem opTemperatureSample_keeps {q : List Instr} (t : Int) (s : State) (h : Good q s) : Good q (opTemperatureSample t s) := by
  unfold opTemperatureSample
  repeat' first
    | with_reducible assumption
    | intro _
    | with_reducible apply good_ite
    | with_reducible apply State.put_keeps
    | with_reducible apply State.powerReset_keeps
    | with_reducible apply State.level_keeps
    | (extract_lets +onlyGivenNames x
       first
         | (refine good_cut (q := q) x ?cv ?ck
            case' ck => (intro hx; clear_value x)
            case' cv => (unfold x; clear x))
         | (refine good_cut_fst (q := q) x ?cv ?ck
            case' ck => (intro hx; clear_value x)
            case' cv => (unfold x; clear x))
         | (refine good_cut_snd (q := q) x ?cv ?ck
            case' ck => (intro hx; clear_value x)
            case' cv => (unfold x; clear x))
         | skip)
    | with_reducible apply good_mk
    | split
    | with_reducible rfl

theorem State.domRegs_keeps {q : List Instr} (n : Nat) (s : State) (h : Good q s) : Good q (State.domRegs n s) := by
  unfold State.domRegs
  repeat' first
    | with_reducible assumption
    | intro _
    | with_reducible apply good_ite
    | (extract_lets +onlyGivenNames x
       first
         | (refine good_cut (q := q) x ?cv ?ck
            case' ck => (intro hx; clear_value x)
            case' cv => (unfold x; clear x))
         | (refine good_cut_fst (q := q) x ?cv ?ck
            case' ck => (intro hx; clear_value x)
            case' cv => (unfold x; clear x))
         | (refine good_cut_snd (q := q) x ?cv ?ck
            case' ck => (intro hx; clear_value x)
            case' cv => (unfold x; clear x))
         | skip)
    | with_reducible apply good_mk
    | with_reducible rfl

/-- Reflect's own reset leaves no snapshot. -/
theorem State.domOn_keeps {q : List Instr} (n : Nat) (s : State) (h : Good q s) : Good q (State.domOn n s) := by
  unfold State.domOn
  repeat' first
    | with_reducible assumption
    | intro _
    | with_reducible apply good_ite
    | with_reducible apply good_ite_fst
    | with_reducible apply good_ite_snd
    | with_reducible apply State.domRegs_keeps
    | with_reducible apply State.setEng_keeps
    | with_reducible apply State.upPrg_keeps
    | with_reducible apply State.doRefresh_keeps
    | with_reducible apply State.dioFault_keeps
    | with_reducible apply State.img_keeps
    | with_reducible apply State.put_keeps
    | with_reducible apply State.upDie_keeps
    | split
    | exact good_rfl RflSt.reset (State.domRegs_keeps _ _ h) (cellsWf_nil _)
    | with_reducible apply good_mk
    | (extract_lets +onlyGivenNames x
       first
         | (refine good_cut (q := q) x ?cv ?ck
            case' ck => (intro hx; clear_value x)
            case' cv => (unfold x; clear x))
         | (refine good_cut_fst (q := q) x ?cv ?ck
            case' ck => (intro hx; clear_value x)
            case' cv => (unfold x; clear x))
         | (refine good_cut_snd (q := q) x ?cv ?ck
            case' ck => (intro hx; clear_value x)
            case' cv => (unfold x; clear x))
         | skip)
    | with_reducible rfl
    | rfl

theorem State.putDom_keeps {q : List Instr} (n : Nat) (v : Bool) (s : State) (h : Good q s) : Good q (State.putDom n v s) := by
  unfold State.putDom
  repeat' first
    | with_reducible assumption
    | intro _
    | with_reducible apply good_ite
    | with_reducible apply State.putBit_keeps

theorem opDomainSwitch_keeps {q : List Instr} (n : Nat) (off : Bool) (s : State) (h : Good q s) : Good q (opDomainSwitch n off s) := by
  unfold opDomainSwitch
  repeat' first
    | with_reducible assumption
    | intro _
    | with_reducible apply good_ite
    | with_reducible apply State.put_keeps
    | with_reducible apply State.putDom_keeps
    | with_reducible apply State.domOn_keeps

theorem opReferenceFault_keeps {q : List Instr} (s : State) (h : Good q s) : Good q (opReferenceFault s) := by
  unfold opReferenceFault
  repeat' first
    | with_reducible assumption
    | intro _
    | with_reducible apply good_ite
    | with_reducible apply State.deviceFault_keeps
    | with_reducible apply State.refFault_keeps
    | (extract_lets +onlyGivenNames x
       first
         | (refine good_cut (q := q) x ?cv ?ck
            case' ck => (intro hx; clear_value x)
            case' cv => (unfold x; clear x))
         | (refine good_cut_fst (q := q) x ?cv ?ck
            case' ck => (intro hx; clear_value x)
            case' cv => (unfold x; clear x))
         | (refine good_cut_snd (q := q) x ?cv ?ck
            case' ck => (intro hx; clear_value x)
            case' cv => (unfold x; clear x))
         | skip)
    | with_reducible apply good_mk
    | split
    | with_reducible rfl

theorem opDieLinkLoss_keeps {q : List Instr} (s : State) (h : Good q s) : Good q (opDieLinkLoss s) := by
  unfold opDieLinkLoss
  repeat' first
    | with_reducible assumption
    | intro _
    | with_reducible apply good_ite
    | with_reducible apply State.keepAbandon_keeps
    | with_reducible apply State.deviceFault_keeps
    | with_reducible apply State.put_keeps
    | with_reducible apply State.xferEnd_keeps
    | (extract_lets +onlyGivenNames x
       first
         | (refine good_cut (q := q) x ?cv ?ck
            case' ck => (intro hx; clear_value x)
            case' cv => (unfold x; clear x))
         | (refine good_cut_fst (q := q) x ?cv ?ck
            case' ck => (intro hx; clear_value x)
            case' cv => (unfold x; clear x))
         | (refine good_cut_snd (q := q) x ?cv ?ck
            case' ck => (intro hx; clear_value x)
            case' cv => (unfold x; clear x))
         | skip)
    | split
    | with_reducible apply good_mk
    | with_reducible rfl

theorem opNrstLow_keeps {q : List Instr} (s : State) (h : Good q s) : Good q (opNrstLow s) := by
  unfold opNrstLow
  repeat' first
    | with_reducible assumption
    | intro _
    | with_reducible apply State.wake_keeps
    | with_reducible apply State.systemReset_keeps
    | split

theorem opRstCmd_keeps {q : List Instr} (v : Nat) (s : State) (h : Good q s) : Good q (opRstCmd v s) := by
  unfold opRstCmd
  repeat' first
    | with_reducible assumption
    | intro _
    | with_reducible apply good_ite
    | with_reducible apply State.advance_keeps
    | with_reducible apply State.commandReset_keeps
    | split
    | with_reducible apply good_mk
    | with_reducible rfl

theorem opRstEng_keeps {q : List Instr} (m : Nat) (s : State) (h : Good q s) : Good q (opRstEng m s) := by
  unfold opRstEng
  repeat' first
    | with_reducible assumption
    | intro _
    | with_reducible apply good_ite
    | with_reducible apply State.put_keeps
    | with_reducible apply State.engineReset_keeps
    | with_reducible apply State.stopEngine_keeps
    | with_reducible apply good_forAll

theorem opAutoReset_keeps {q : List Instr} (s : State) (h : Good q s) : Good q (opAutoReset s) := by
  unfold opAutoReset
  repeat' first
    | with_reducible assumption
    | intro _
    | with_reducible apply good_ite
    | with_reducible apply State.advanceReal_keeps
    | with_reducible apply State.systemReset_keeps
    | split
    | with_reducible apply good_mk
    | with_reducible rfl

theorem opBootcfgStore_keeps {q : List Instr} (s : State) (h : Good q s) : Good q (opBootcfgStore s) := by
  unfold opBootcfgStore
  repeat' first
    | with_reducible assumption
    | intro _
    | with_reducible apply good_ite
    | with_reducible apply State.keepWait_keeps
    | with_reducible apply State.keepSettle_keeps

theorem State.standbyStart_keeps {q : List Instr} (s : State) (h : Good q s) : Good q (State.standbyStart s) := by
  unfold State.standbyStart
  repeat' first
    | with_reducible assumption
    | intro _
    | with_reducible apply good_ite
    | with_reducible apply State.flush_keeps
    | with_reducible apply opBrickWb_keeps
    | with_reducible apply State.keepSettle_keeps
    | with_reducible apply State.saveRequest_keeps
    | (extract_lets +onlyGivenNames x
       first
         | (refine good_cut (q := q) x ?cv ?ck
            case' ck => (intro hx; clear_value x)
            case' cv => (unfold x; clear x))
         | (refine good_cut_fst (q := q) x ?cv ?ck
            case' ck => (intro hx; clear_value x)
            case' cv => (unfold x; clear x))
         | (refine good_cut_snd (q := q) x ?cv ?ck
            case' ck => (intro hx; clear_value x)
            case' cv => (unfold x; clear x))
         | skip)
    | with_reducible apply good_mk
    | split
    | with_reducible rfl

theorem State.modeReason_keeps {q : List Instr} (r : Nat) (s : State) (h : Good q s) : Good q (State.modeReason r s) := by
  unfold State.modeReason
  repeat' first
    | with_reducible assumption
    | intro _
    | with_reducible apply good_ite
    | with_reducible apply State.put_keeps
    | with_reducible apply State.recordErr_keeps
    | (extract_lets +onlyGivenNames x
       first
         | (refine good_cut (q := q) x ?cv ?ck
            case' ck => (intro hx; clear_value x)
            case' cv => (unfold x; clear x))
         | (refine good_cut_fst (q := q) x ?cv ?ck
            case' ck => (intro hx; clear_value x)
            case' cv => (unfold x; clear x))
         | (refine good_cut_snd (q := q) x ?cv ?ck
            case' ck => (intro hx; clear_value x)
            case' cv => (unfold x; clear x))
         | skip)
    | split
    | with_reducible apply good_mk
    | with_reducible rfl

theorem opModeRequest_keeps {q : List Instr} (m : Nat) (s : State) (h : Good q s) : Good q (opModeRequest m s) := by
  unfold opModeRequest
  repeat' first
    | with_reducible assumption
    | intro _
    | with_reducible apply good_ite
    | with_reducible apply State.put_keeps
    | with_reducible apply State.modeReason_keeps
    | with_reducible apply State.standbyStart_keeps
    | (extract_lets +onlyGivenNames x
       first
         | (refine good_cut (q := q) x ?cv ?ck
            case' ck => (intro hx; clear_value x)
            case' cv => (unfold x; clear x))
         | (refine good_cut_fst (q := q) x ?cv ?ck
            case' ck => (intro hx; clear_value x)
            case' cv => (unfold x; clear x))
         | (refine good_cut_snd (q := q) x ?cv ?ck
            case' ck => (intro hx; clear_value x)
            case' cv => (unfold x; clear x))
         | skip)
    | split
    | with_reducible apply good_mk
    | with_reducible rfl

theorem State.powerDown_keeps {q : List Instr} (s : State) (h : Good q s) : Good q (State.powerDown s) := by
  unfold State.powerDown
  repeat' first
    | with_reducible assumption
    | intro _
    | with_reducible apply good_ite
    | with_reducible apply State.afterReset_keeps
    | with_reducible apply good_mk
    | with_reducible rfl

theorem opStandbyEntry_keeps {q : List Instr} (s : State) (h : Good q s) : Good q (opStandbyEntry s) := by
  unfold opStandbyEntry
  repeat' first
    | with_reducible assumption
    | intro _
    | with_reducible apply good_ite
    | with_reducible apply opBrickWb_keeps
    | with_reducible apply State.flush_keeps
    | with_reducible apply State.handOver_keeps
    | with_reducible apply State.setReleased_keeps
    | with_reducible apply State.put_keeps
    | with_reducible apply State.haltNow_keeps
    | with_reducible apply State.powerDown_keeps
    | with_reducible apply good_forAll
    | (extract_lets +onlyGivenNames x
       first
         | (refine good_cut (q := q) x ?cv ?ck
            case' ck => (intro hx; clear_value x)
            case' cv => (unfold x; clear x))
         | (refine good_cut_fst (q := q) x ?cv ?ck
            case' ck => (intro hx; clear_value x)
            case' cv => (unfold x; clear x))
         | (refine good_cut_snd (q := q) x ?cv ?ck
            case' ck => (intro hx; clear_value x)
            case' cv => (unfold x; clear x))
         | skip)
    | split
    | with_reducible apply good_mk
    | with_reducible rfl

theorem opCountdownExpiry_keeps {q : List Instr} (s : State) (h : Good q s) : Good q (opCountdownExpiry s) := by
  unfold opCountdownExpiry
  repeat' first
    | with_reducible assumption
    | intro _
    | with_reducible apply good_ite
    | with_reducible apply State.cyclesPass_keeps
    | with_reducible apply State.put_keeps
    | with_reducible apply State.raise_keeps
    | with_reducible apply State.wake_keeps
    | split
    | (extract_lets +onlyGivenNames x
       first
         | (refine good_cut (q := q) x ?cv ?ck
            case' ck => (intro hx; clear_value x)
            case' cv => (unfold x; clear x))
         | (refine good_cut_fst (q := q) x ?cv ?ck
            case' ck => (intro hx; clear_value x)
            case' cv => (unfold x; clear x))
         | (refine good_cut_snd (q := q) x ?cv ?ck
            case' ck => (intro hx; clear_value x)
            case' cv => (unfold x; clear x))
         | skip)
    | with_reducible apply good_mk
    | with_reducible rfl

end Sys2Proof.Machine
end

