-- ==== Sys2Proof/Laws/KeepsReflect.lean ====
section
/-! SUPPORT. Laws/KeepsReflect.lean: every operation of Machine/Reflect.lean keeps `Good`. -/

namespace Sys2Proof.Machine

theorem State.ownPins_keeps {q : List Instr} (v : Bool) (s : State) (h : Good q s) : Good q (State.ownPins v s) := by
  unfold State.ownPins
  repeat' first
    | with_reducible assumption
    | intro _
    | with_reducible apply good_ite
    | with_reducible apply State.put_keeps
    | with_reducible apply State.setReleased_keeps
    | with_reducible apply State.outRefresh_keeps
    | (extract_lets +onlyGivenNames x
       first
         | (refine good_cut (q := q) x ?cv ?ck
            case' ck => (intro hx; clear_value x)
            case' cv => (unfold x; clear x))
         | (refine good_cut_fst (q := q) x ?cv ?ck
            case' ck => (intro hx; clear_value x)
            case' cv => (unfold x; clear x))
         | (refine good_cut_snd (q := q) x ?cv ?ck
            case' ck => (intro hx; clear_value x)
            case' cv => (unfold x; clear x))
         | skip)
    | split
    | with_reducible rfl

theorem State.enginesHeld_keeps {q : List Instr} (s : State) (h : Good q s) : Good q (State.enginesHeld s) := by
  unfold State.enginesHeld
  repeat' first
    | with_reducible assumption
    | intro _
    | with_reducible apply good_ite
    | with_reducible apply State.stopEngine_keeps
    | with_reducible apply good_forAll
    | (extract_lets +onlyGivenNames x
       first
         | (refine good_cut (q := q) x ?cv ?ck
            case' ck => (intro hx; clear_value x)
            case' cv => (unfold x; clear x))
         | (refine good_cut_fst (q := q) x ?cv ?ck
            case' ck => (intro hx; clear_value x)
            case' cv => (unfold x; clear x))
         | (refine good_cut_snd (q := q) x ?cv ?ck
            case' ck => (intro hx; clear_value x)
            case' cv => (unfold x; clear x))
         | skip)

theorem State.shadowIdle_keeps {q : List Instr} (s : State) (h : Good q s) : Good q (State.shadowIdle s) := by
  unfold State.shadowIdle
  repeat' first
    | with_reducible assumption
    | intro _
    | with_reducible apply good_ite
    | with_reducible apply State.enginesHeld_keeps
    | with_reducible apply State.ownPins_keeps
    | with_reducible apply State.put_keeps
    | with_reducible apply State.conflict_keeps
    | (extract_lets +onlyGivenNames x
       first
         | (refine good_cut (q := q) x ?cv ?ck
            case' ck => (intro hx; clear_value x)
            case' cv => (unfold x; clear x))
         | (refine good_cut_fst (q := q) x ?cv ?ck
            case' ck => (intro hx; clear_value x)
            case' cv => (unfold x; clear x))
         | (refine good_cut_snd (q := q) x ?cv ?ck
            case' ck => (intro hx; clear_value x)
            case' cv => (unfold x; clear x))
         | skip)
    | split
    | with_reducible apply good_mk
    | with_reducible rfl

theorem State.leadStart_keeps {q : List Instr} (s : State) (h : Good q s) : Good q (State.leadStart s) := by
  unfold State.leadStart
  repeat' first
    | with_reducible assumption
    | intro _
    | with_reducible apply good_ite
    | with_reducible apply State.put_keeps
    | with_reducible apply State.release_keeps
    | (extract_lets +onlyGivenNames x
       first
         | (refine good_cut (q := q) x ?cv ?ck
            case' ck => (intro hx; clear_value x)
            case' cv => (unfold x; clear x))
         | (refine good_cut_fst (q := q) x ?cv ?ck
            case' ck => (intro hx; clear_value x)
            case' cv => (unfold x; clear x))
         | (refine good_cut_snd (q := q) x ?cv ?ck
            case' ck => (intro hx; clear_value x)
            case' cv => (unfold x; clear x))
         | skip)
    | with_reducible apply good_mk
    | with_reducible rfl

theorem State.brickTaken_keeps {q : List Instr} (s : State) (h : Good q s) : Good q (State.brickTaken s) := by
  unfold State.brickTaken
  repeat' first
    | with_reducible assumption
    | intro _
    | with_reducible apply opBrickRead_keeps
    | (extract_lets +onlyGivenNames x
       first
         | (refine good_cut (q := q) x ?cv ?ck
            case' ck => (intro hx; clear_value x)
            case' cv => (unfold x; clear x))
         | (refine good_cut_fst (q := q) x ?cv ?ck
            case' ck => (intro hx; clear_value x)
            case' cv => (unfold x; clear x))
         | (refine good_cut_snd (q := q) x ?cv ?ck
            case' ck => (intro hx; clear_value x)
            case' cv => (unfold x; clear x))
         | skip)
    | with_reducible apply good_mk
    | with_reducible rfl

theorem State.ownStart_keeps {q : List Instr} (s : State) (h : Good q s) : Good q (State.ownStart s) := by
  unfold State.ownStart
  repeat' first
    | with_reducible assumption
    | intro _
    | with_reducible apply good_ite
    | with_reducible apply State.shadowIdle_keeps
    | with_reducible apply State.conflict_keeps
    | with_reducible apply State.ownPins_keeps
    | split
    | with_reducible rfl

theorem opRflCfgWrite_keeps {q : List Instr} (v : Nat) (s : State) (h : Good q s) : Good q (opRflCfgWrite v s) := by
  unfold opRflCfgWrite
  repeat' first
    | with_reducible refine good_rfl RflSt.reset ?_ (cellsWf_nil _)
    | with_reducible assumption
    | intro _
    | (extract_lets +onlyGivenNames x
       first
         | (refine good_cut (q := q) x ?cv ?ck
            case' ck => (intro hx; clear_value x)
            case' cv => (unfold x; clear x))
         | (refine good_cut_fst (q := q) x ?cv ?ck
            case' ck => (intro hx; clear_value x)
            case' cv => (unfold x; clear x))
         | (refine good_cut_snd (q := q) x ?cv ?ck
            case' ck => (intro hx; clear_value x)
            case' cv => (unfold x; clear x))
         | skip)
    | with_reducible apply good_ite
    | with_reducible apply State.put_keeps
    | with_reducible apply State.ownStart_keeps
    | with_reducible apply State.ownPins_keeps
    | with_reducible apply good_mk
    | split
    | with_reducible rfl

theorem opOwnershipClaim_keeps {q : List Instr} (s : State) (h : Good q s) : Good q (opOwnershipClaim s) := by
  unfold opOwnershipClaim
  repeat' first
    | with_reducible assumption
    | intro _
    | (extract_lets +onlyGivenNames x
       first
         | (refine good_cut (q := q) x ?cv ?ck
            case' ck => (intro hx; clear_value x)
            case' cv => (unfold x; clear x))
         | (refine good_cut_fst (q := q) x ?cv ?ck
            case' ck => (intro hx; clear_value x)
            case' cv => (unfold x; clear x))
         | (refine good_cut_snd (q := q) x ?cv ?ck
            case' ck => (intro hx; clear_value x)
            case' cv => (unfold x; clear x))
         | skip)
    | with_reducible apply good_ite
    | with_reducible apply State.put_keeps
    | with_reducible apply State.shadowIdle_keeps
    | with_reducible apply good_mk
    | split
    | with_reducible rfl

theorem State.claimed_keeps {q : List Instr} (s : State) (h : Good q s) : Good q (State.claimed s) := by
  unfold State.claimed
  repeat' first
    | with_reducible assumption
    | intro _
    | with_reducible apply State.brickTaken_keeps
    | with_reducible apply State.ownPins_keeps
    | with_reducible apply State.leadStart_keeps
    | with_reducible rfl

theorem opOwnershipSample_keeps {q : List Instr} (s : State) (h : Good q s) : Good q (opOwnershipSample s) := by
  unfold opOwnershipSample
  repeat' first
    | with_reducible assumption
    | intro _
    | with_reducible apply good_ite
    | with_reducible apply State.claimed_keeps
    | with_reducible apply State.shadowIdle_keeps
    | (extract_lets +onlyGivenNames x
       first
         | (refine good_cut (q := q) x ?cv ?ck
            case' ck => (intro hx; clear_value x)
            case' cv => (unfold x; clear x))
         | (refine good_cut_fst (q := q) x ?cv ?ck
            case' ck => (intro hx; clear_value x)
            case' cv => (unfold x; clear x))
         | (refine good_cut_snd (q := q) x ?cv ?ck
            case' ck => (intro hx; clear_value x)
            case' cv => (unfold x; clear x))
         | skip)
    | with_reducible apply good_mk
    | split
    | with_reducible rfl

theorem opOwnInChange_keeps {q : List Instr} (high : Bool) (s : State) (h : Good q s) : Good q (opOwnInChange high s) := by
  unfold opOwnInChange
  repeat' first
    | with_reducible assumption
    | intro _
    | with_reducible apply good_ite
    | with_reducible apply State.put_keeps
    | with_reducible apply State.conflict_keeps
    | with_reducible apply State.claimed_keeps
    | with_reducible apply State.ownPins_keeps
    | with_reducible apply opBrickRead_keeps
    | (extract_lets +onlyGivenNames x
       first
         | (refine good_cut (q := q) x ?cv ?ck
            case' ck => (intro hx; clear_value x)
            case' cv => (unfold x; clear x))
         | (refine good_cut_fst (q := q) x ?cv ?ck
            case' ck => (intro hx; clear_value x)
            case' cv => (unfold x; clear x))
         | (refine good_cut_snd (q := q) x ?cv ?ck
            case' ck => (intro hx; clear_value x)
            case' cv => (unfold x; clear x))
         | skip)
    | with_reducible apply good_mk
    | split
    | with_reducible rfl

theorem opOwnershipConflict_keeps {q : List Instr} (s : State) (h : Good q s) : Good q (opOwnershipConflict s) := by
  unfold opOwnershipConflict
  repeat' first
    | with_reducible assumption
    | intro _
    | with_reducible apply good_ite
    | with_reducible apply State.conflict_keeps
    | with_reducible apply State.shadowIdle_keeps
    | (extract_lets +onlyGivenNames x
       first
         | (refine good_cut (q := q) x ?cv ?ck
            case' ck => (intro hx; clear_value x)
            case' cv => (unfold x; clear x))
         | (refine good_cut_fst (q := q) x ?cv ?ck
            case' ck => (intro hx; clear_value x)
            case' cv => (unfold x; clear x))
         | (refine good_cut_snd (q := q) x ?cv ?ck
            case' ck => (intro hx; clear_value x)
            case' cv => (unfold x; clear x))
         | skip)
    | with_reducible apply good_mk
    | split
    | with_reducible rfl

theorem opLinkUp_keeps {q : List Instr} (s : State) (h : Good q s) : Good q (opLinkUp s) := by
  unfold opLinkUp
  repeat' first
    | with_reducible assumption
    | intro _
    | with_reducible apply good_ite
    | with_reducible apply State.put_keeps
    | with_reducible apply State.conflict_keeps
    | with_reducible apply State.level_keeps
    | split
    | with_reducible rfl

theorem opLinkDown_keeps {q : List Instr} (s : State) (h : Good q s) : Good q (opLinkDown s) := by
  unfold opLinkDown
  repeat' first
    | with_reducible assumption
    | intro _
    | with_reducible apply State.put_keeps
    | with_reducible apply State.conflict_keeps
    | with_reducible apply State.level_keeps
    | with_reducible rfl

theorem opReleaseOrderedSet_keeps {q : List Instr} (s : State) (h : Good q s) : Good q (opReleaseOrderedSet s) := by
  unfold opReleaseOrderedSet
  repeat' first
    | with_reducible assumption
    | intro _
    | with_reducible apply State.conflict_keeps
    | (extract_lets +onlyGivenNames x
       first
         | (refine good_cut (q := q) x ?cv ?ck
            case' ck => (intro hx; clear_value x)
            case' cv => (unfold x; clear x))
         | (refine good_cut_fst (q := q) x ?cv ?ck
            case' ck => (intro hx; clear_value x)
            case' cv => (unfold x; clear x))
         | (refine good_cut_snd (q := q) x ?cv ?ck
            case' ck => (intro hx; clear_value x)
            case' cv => (unfold x; clear x))
         | skip)
    | with_reducible apply good_mk
    | with_reducible rfl

theorem State.commitNamed_keeps {q : List Instr} (l : List Nat) (s : State) (h : Good q s) : Good q (State.commitNamed l s).1 := by
  unfold State.commitNamed
  repeat' first
    | with_reducible assumption
    | intro _
    | with_reducible apply good_ite
    | with_reducible apply good_ite_fst
    | with_reducible apply good_ite_snd
    | with_reducible apply State.complete_keeps
    | with_reducible apply State.upT_keeps
    | with_reducible apply State.countCommits_keeps
    | with_reducible apply State.commitTask_keeps
    | with_reducible apply good_foldl
    | with_reducible apply good_foldl_fst
    | with_reducible apply good_foldl_snd
    | (extract_lets +onlyGivenNames x
       first
         | (refine good_cut (q := q) x ?cv ?ck
            case' ck => (intro hx; clear_value x)
            case' cv => (unfold x; clear x))
         | (refine good_cut_fst (q := q) x ?cv ?ck
            case' ck => (intro hx; clear_value x)
            case' cv => (unfold x; clear x))
         | (refine good_cut_snd (q := q) x ?cv ?ck
            case' ck => (intro hx; clear_value x)
            case' cv => (unfold x; clear x))
         | skip)
    | split
    | with_reducible apply good_mk
    | with_reducible rfl

theorem State.outCommit_keeps {q : List Instr} (l : List Nat) (s : State) (h : Good q s) : Good q (State.outCommit l s) := by
  unfold State.outCommit
  repeat' first
    | with_reducible assumption
    | intro _
    | with_reducible apply State.chop_keeps
    | with_reducible apply State.doCommit_keeps
    | with_reducible apply State.aoCommit_keeps
    | with_reducible apply State.pwmCommit_keeps
    | with_reducible apply good_forAll
    | with_reducible rfl

theorem opTakeover_keeps {q : List Instr} (s : State) (h : Good q s) : Good q (opTakeover s) := by
  unfold opTakeover
  repeat' first
    | with_reducible assumption
    | intro _
    | with_reducible apply good_ite
    | with_reducible apply good_ite_fst
    | with_reducible apply good_ite_snd
    | with_reducible apply State.release_keeps
    | with_reducible apply State.ownPins_keeps
    | with_reducible apply State.commitNamed_keeps
    | with_reducible apply State.outCommit_keeps
    | with_reducible apply State.brickTaken_keeps
    | with_reducible apply State.conflict_keeps
    | (extract_lets +onlyGivenNames x
       first
         | (refine good_cut (q := q) x ?cv ?ck
            case' ck => (intro hx; clear_value x)
            case' cv => (unfold x; clear x))
         | (refine good_cut_fst (q := q) x ?cv ?ck
            case' ck => (intro hx; clear_value x)
            case' cv => (unfold x; clear x))
         | (refine good_cut_snd (q := q) x ?cv ?ck
            case' ck => (intro hx; clear_value x)
            case' cv => (unfold x; clear x))
         | skip)
    | split
    | with_reducible apply good_mk
    | with_reducible rfl

theorem State.intoRecord_keeps {q : List Instr} (n : Nat) (idx : Nat) (f : RecvRec → RecvRec) (r : RecvRec) (put : RecvRec → State → State) (s : State) (hfput : ∀ x0 x1, Good q x1 → Good q (put x0 x1)) (h : Good q s) : Good q (State.intoRecord n idx f r put s) := by
  unfold State.intoRecord
  repeat' first
    | with_reducible assumption
    | intro _
    | with_reducible apply good_ite
    | with_reducible apply hfput
    | with_reducible apply State.put_keeps
    | (extract_lets +onlyGivenNames x
       first
         | (refine good_cut (q := q) x ?cv ?ck
            case' ck => (intro hx; clear_value x)
            case' cv => (unfold x; clear x))
         | (refine good_cut_fst (q := q) x ?cv ?ck
            case' ck => (intro hx; clear_value x)
            case' cv => (unfold x; clear x))
         | (refine good_cut_snd (q := q) x ?cv ?ck
            case' ck => (intro hx; clear_value x)
            case' cv => (unfold x; clear x))
         | skip)
    | with_reducible apply good_mk
    | with_reducible rfl

theorem State.record_keeps {q : List Instr} (seq : Nat) (idx : Nat) (f : RecvRec → RecvRec) (s : State) (h : Good q s) : Good q (State.record seq idx f s) := by
  unfold State.record
  repeat' first
    | with_reducible assumption
    | intro _
    | with_reducible apply good_ite
    | with_reducible apply State.intoRecord_keeps
    | (extract_lets +onlyGivenNames x
       first
         | (refine good_cut (q := q) x ?cv ?ck
            case' ck => (intro hx; clear_value x)
            case' cv => (unfold x; clear x))
         | (refine good_cut_fst (q := q) x ?cv ?ck
            case' ck => (intro hx; clear_value x)
            case' cv => (unfold x; clear x))
         | (refine good_cut_snd (q := q) x ?cv ?ck
            case' ck => (intro hx; clear_value x)
            case' cv => (unfold x; clear x))
         | skip)
    | split
    | with_reducible apply good_mk
    | with_reducible rfl

theorem opHead_keeps {q : List Instr} (seq : Nat) (idx : Nat) (d : List Byte) (s : State) (h : Good q s) : Good q (opHead seq idx d s) := by
  unfold opHead
  repeat' first
    | with_reducible assumption
    | intro _
    | with_reducible apply good_ite
    | with_reducible apply State.record_keeps
    | with_reducible apply State.conflict_keeps
    | (extract_lets +onlyGivenNames x
       first
         | (refine good_cut (q := q) x ?cv ?ck
            case' ck => (intro hx; clear_value x)
            case' cv => (unfold x; clear x))
         | (refine good_cut_fst (q := q) x ?cv ?ck
            case' ck => (intro hx; clear_value x)
            case' cv => (unfold x; clear x))
         | (refine good_cut_snd (q := q) x ?cv ?ck
            case' ck => (intro hx; clear_value x)
            case' cv => (unfold x; clear x))
         | skip)
    | with_reducible apply good_mk
    | split
    | with_reducible rfl

theorem opImage_keeps {q : List Instr} (seq : Nat) (idx : Nat) (d : List Byte) (s : State) (h : Good q s) : Good q (opImage seq idx d s) := by
  unfold opImage
  repeat' first
    | with_reducible assumption
    | intro _
    | with_reducible apply State.record_keeps
    | with_reducible apply good_foldl
    | with_reducible apply good_foldl_fst
    | with_reducible apply good_foldl_snd
    | with_reducible rfl

theorem opRel_keeps {q : List Instr} (seq : Nat) (idx : Nat) (d : List Byte) (s : State) (h : Good q s) : Good q (opRel seq idx d s) := by
  unfold opRel
  repeat' first
    | with_reducible assumption
    | intro _
    | with_reducible apply State.record_keeps
    | with_reducible rfl

theorem opCtrl_keeps {q : List Instr} (seq : Nat) (idx : Nat) (d : List Byte) (s : State) (h : Good q s) : Good q (opCtrl seq idx d s) := by
  unfold opCtrl
  repeat' first
    | with_reducible assumption
    | intro _
    | with_reducible apply State.record_keeps
    | with_reducible rfl

theorem opEndFrame_keeps {q : List Instr} (seq : Nat) (idx : Nat) (d : List Byte) (s : State) (h : Good q s) : Good q (opEndFrame seq idx d s) := by
  unfold opEndFrame
  repeat' first
    | with_reducible assumption
    | intro _
    | with_reducible apply State.record_keeps
    | (extract_lets +onlyGivenNames x
       first
         | (refine good_cut (q := q) x ?cv ?ck
            case' ck => (intro hx; clear_value x)
            case' cv => (unfold x; clear x))
         | (refine good_cut_fst (q := q) x ?cv ?ck
            case' ck => (intro hx; clear_value x)
            case' cv => (unfold x; clear x))
         | (refine good_cut_snd (q := q) x ?cv ?ck
            case' ck => (intro hx; clear_value x)
            case' cv => (unfold x; clear x))
         | skip)
    | with_reducible rfl

theorem State.farTake_keeps {q : List Instr} (e : Nat) (x : Nat × Nat) (s : State) (h : Good q s) : Good q (State.farTake e x s) := by
  unfold State.farTake
  repeat' first
    | with_reducible assumption
    | intro _
    | with_reducible apply good_ite
    | with_reducible apply good_ite_fst
    | with_reducible apply good_ite_snd
    | with_reducible apply State.upE_keeps
    | with_reducible apply State.farLand_keeps
    | (extract_lets +onlyGivenNames x
       first
         | (refine good_cut (q := q) x ?cv ?ck
            case' ck => (intro hx; clear_value x)
            case' cv => (unfold x; clear x))
         | (refine good_cut_fst (q := q) x ?cv ?ck
            case' ck => (intro hx; clear_value x)
            case' cv => (unfold x; clear x))
         | (refine good_cut_snd (q := q) x ?cv ?ck
            case' ck => (intro hx; clear_value x)
            case' cv => (unfold x; clear x))
         | skip)
    | split
    | with_reducible apply good_mk
    | with_reducible rfl

theorem State.farFlow_keeps {q : List Instr} (s : State) (h : Good q s) : Good q (State.farFlow s) := by
  unfold State.farFlow
  repeat' first
    | with_reducible assumption
    | intro _
    | with_reducible apply good_ite
    | with_reducible apply good_ite_fst
    | with_reducible apply good_ite_snd
    | with_reducible apply State.put_keeps
    | with_reducible apply good_foldl
    | with_reducible apply good_foldl_fst
    | with_reducible apply good_foldl_snd
    | (extract_lets +onlyGivenNames x
       first
         | (refine good_cut (q := q) x ?cv ?ck
            case' ck => (intro hx; clear_value x)
            case' cv => (unfold x; clear x))
         | (refine good_cut_fst (q := q) x ?cv ?ck
            case' ck => (intro hx; clear_value x)
            case' cv => (unfold x; clear x))
         | (refine good_cut_snd (q := q) x ?cv ?ck
            case' ck => (intro hx; clear_value x)
            case' cv => (unfold x; clear x))
         | skip)
    | split
    | with_reducible apply good_mk
    | with_reducible rfl

theorem opFar_keeps {q : List Instr} (seq : Nat) (idx : Nat) (d : List Byte) (s : State) (h : Good q s) : Good q (opFar seq idx d s) := by
  unfold opFar
  repeat' first
    | with_reducible assumption
    | intro _
    | with_reducible apply good_ite
    | with_reducible apply State.record_keeps
    | with_reducible apply State.put_keeps
    | with_reducible apply State.farTake_keeps
    | with_reducible apply State.farFlow_keeps
    | with_reducible apply good_forAll
    | with_reducible apply good_foldl
    | with_reducible apply good_foldl_fst
    | with_reducible apply good_foldl_snd
    | (extract_lets +onlyGivenNames x
       first
         | (refine good_cut (q := q) x ?cv ?ck
            case' ck => (intro hx; clear_value x)
            case' cv => (unfold x; clear x))
         | (refine good_cut_fst (q := q) x ?cv ?ck
            case' ck => (intro hx; clear_value x)
            case' cv => (unfold x; clear x))
         | (refine good_cut_snd (q := q) x ?cv ?ck
            case' ck => (intro hx; clear_value x)
            case' cv => (unfold x; clear x))
         | skip)
    | split
    | with_reducible apply good_mk
    | with_reducible rfl

theorem opReflectFrameCrcError_keeps {q : List Instr} (s : State) (h : Good q s) : Good q (opReflectFrameCrcError s) := by
  unfold opReflectFrameCrcError
  repeat' first
    | with_reducible assumption
    | intro _
    | with_reducible apply good_ite
    | with_reducible apply State.bump_keeps
    | with_reducible apply good_mk
    | with_reducible rfl

theorem opNakOrderedSet_keeps {q : List Instr} (seq : Nat) (idx : Nat) (s : State) (h : Good q s) : Good q (opNakOrderedSet seq idx s) := by
  unfold opNakOrderedSet
  repeat' first
    | with_reducible assumption
    | intro _
    | with_reducible apply good_ite
    | with_reducible apply State.qRead_keeps
    | with_reducible apply State.bump_keeps
    | (extract_lets +onlyGivenNames x
       first
         | (refine good_cut (q := q) x ?cv ?ck
            case' ck => (intro hx; clear_value x)
            case' cv => (unfold x; clear x))
         | (refine good_cut_fst (q := q) x ?cv ?ck
            case' ck => (intro hx; clear_value x)
            case' cv => (unfold x; clear x))
         | (refine good_cut_snd (q := q) x ?cv ?ck
            case' ck => (intro hx; clear_value x)
            case' cv => (unfold x; clear x))
         | skip)
    | split
    | with_reducible apply good_mk
    | with_reducible rfl

theorem State.blockRead_keeps {q : List Instr} (b : Nat) (s : State) (h : Good q s) : Good q (State.blockRead b s).1 := by
  unfold State.blockRead
  repeat' first
    | with_reducible assumption
    | intro _
    | with_reducible apply good_ite
    | with_reducible apply good_ite_fst
    | with_reducible apply good_ite_snd
    | with_reducible apply State.check_keeps
    | with_reducible apply State.eccRead_keeps
    | (extract_lets +onlyGivenNames x
       first
         | (refine good_cut (q := q) x ?cv ?ck
            case' ck => (intro hx; clear_value x)
            case' cv => (unfold x; clear x))
         | (refine good_cut_fst (q := q) x ?cv ?ck
            case' ck => (intro hx; clear_value x)
            case' cv => (unfold x; clear x))
         | (refine good_cut_snd (q := q) x ?cv ?ck
            case' ck => (intro hx; clear_value x)
            case' cv => (unfold x; clear x))
         | skip)
    | split

theorem State.sweptCrc_keeps {q : List Instr} (s : State) (h : Good q s) : Good q (State.sweptCrc s).1 := by
  unfold State.sweptCrc
  repeat' first
    | with_reducible assumption
    | intro _
    | with_reducible apply good_ite
    | with_reducible apply good_ite_fst
    | with_reducible apply good_ite_snd
    | with_reducible apply State.blockRead_keeps
    | with_reducible apply good_foldl
    | with_reducible apply good_foldl_fst
    | with_reducible apply good_foldl_snd
    | (extract_lets +onlyGivenNames x
       first
         | (refine good_cut (q := q) x ?cv ?ck
            case' ck => (intro hx; clear_value x)
            case' cv => (unfold x; clear x))
         | (refine good_cut_fst (q := q) x ?cv ?ck
            case' ck => (intro hx; clear_value x)
            case' cv => (unfold x; clear x))
         | (refine good_cut_snd (q := q) x ?cv ?ck
            case' ck => (intro hx; clear_value x)
            case' cv => (unfold x; clear x))
         | skip)

theorem State.snapBlock_keeps {q : List Instr} (b : Nat) (at_ : Nat) (s : State) (h : Good q s) : Good q (State.snapBlock b at_ s).1 := by
  unfold State.snapBlock
  repeat' first
    | with_reducible assumption
    | intro _
    | with_reducible apply good_ite
    | with_reducible apply good_ite_fst
    | with_reducible apply good_ite_snd
    | with_reducible apply State.blockRead_keeps
    | (extract_lets +onlyGivenNames x
       first
         | (refine good_cut (q := q) x ?cv ?ck
            case' ck => (intro hx; clear_value x)
            case' cv => (unfold x; clear x))
         | (refine good_cut_fst (q := q) x ?cv ?ck
            case' ck => (intro hx; clear_value x)
            case' cv => (unfold x; clear x))
         | (refine good_cut_snd (q := q) x ?cv ?ck
            case' ck => (intro hx; clear_value x)
            case' cv => (unfold x; clear x))
         | skip)
    | split

theorem State.sendPage_keeps {q : List Instr} (p : Nat) (mask : Nat) (s : State) (h : Good q s) : Good q (State.sendPage p mask s).1 := by
  unfold State.sendPage
  repeat' first
    | with_reducible assumption
    | intro _
    | (extract_lets +onlyGivenNames x
       first
         | (refine good_cut (q := q) x ?cv ?ck
            case' ck => (intro hx; clear_value x)
            case' cv => (unfold x; clear x))
         | (refine good_cut_fst (q := q) x ?cv ?ck
            case' ck => (intro hx; clear_value x)
            case' cv => (unfold x; clear x))
         | (refine good_cut_snd (q := q) x ?cv ?ck
            case' ck => (intro hx; clear_value x)
            case' cv => (unfold x; clear x))
         | skip)
    | with_reducible apply State.snapBlock_keeps
    | with_reducible apply State.rflSend_keeps
    | with_reducible apply good_foldl
    | with_reducible apply good_foldl_fst
    | with_reducible apply good_foldl_snd
    | with_reducible apply good_mk
    | with_reducible rfl

theorem State.rejoinFail_keeps {q : List Instr} (reason : Nat) (s : State) (h : Good q s) : Good q (State.rejoinFail reason s) := by
  unfold State.rejoinFail
  repeat' first
    | with_reducible assumption
    | intro _
    | with_reducible apply good_ite
    | with_reducible apply State.put_keeps
    | with_reducible apply State.raise_keeps
    | (extract_lets +onlyGivenNames x
       first
         | (refine good_cut (q := q) x ?cv ?ck
            case' ck => (intro hx; clear_value x)
            case' cv => (unfold x; clear x))
         | (refine good_cut_fst (q := q) x ?cv ?ck
            case' ck => (intro hx; clear_value x)
            case' cv => (unfold x; clear x))
         | (refine good_cut_snd (q := q) x ?cv ?ck
            case' ck => (intro hx; clear_value x)
            case' cv => (unfold x; clear x))
         | skip)
    | split
    | with_reducible apply good_mk
    | with_reducible rfl

theorem State.sendHello_keeps {q : List Instr} (s : State) (h : Good q s) : Good q (State.sendHello s) := by
  unfold State.sendHello
  repeat' first
    | with_reducible assumption
    | intro _
    | with_reducible apply State.rflSend_keeps
    | with_reducible rfl

theorem State.roundsStart_keeps {q : List Instr} (s : State) (h : Good q s) : Good q (State.roundsStart s) := by
  unfold State.roundsStart
  repeat' first
    | with_reducible assumption
    | intro _
    | with_reducible apply good_ite
    | with_reducible apply State.put_keeps
    | (extract_lets +onlyGivenNames x
       first
         | (refine good_cut (q := q) x ?cv ?ck
            case' ck => (intro hx; clear_value x)
            case' cv => (unfold x; clear x))
         | (refine good_cut_fst (q := q) x ?cv ?ck
            case' ck => (intro hx; clear_value x)
            case' cv => (unfold x; clear x))
         | (refine good_cut_snd (q := q) x ?cv ?ck
            case' ck => (intro hx; clear_value x)
            case' cv => (unfold x; clear x))
         | skip)
    | with_reducible apply good_mk
    | with_reducible rfl

theorem opHello_keeps {q : List Instr} (items : List Nat) (s : State) (h : Good q s) : Good q (opHello items s) := by
  unfold opHello
  repeat' first
    | with_reducible assumption
    | intro _
    | with_reducible apply good_ite
    | with_reducible apply State.sendHello_keeps
    | with_reducible apply State.rejoinFail_keeps
    | with_reducible apply State.roundsStart_keeps
    | with_reducible apply State.put_keeps
    | (extract_lets +onlyGivenNames x
       first
         | (refine good_cut (q := q) x ?cv ?ck
            case' ck => (intro hx; clear_value x)
            case' cv => (unfold x; clear x))
         | (refine good_cut_fst (q := q) x ?cv ?ck
            case' ck => (intro hx; clear_value x)
            case' cv => (unfold x; clear x))
         | (refine good_cut_snd (q := q) x ?cv ?ck
            case' ck => (intro hx; clear_value x)
            case' cv => (unfold x; clear x))
         | skip)
    | split
    | with_reducible apply good_mk
    | with_reducible rfl

theorem State.rejoinStart_keeps {q : List Instr} (s : State) (h : Good q s) : Good q (State.rejoinStart s) := by
  unfold State.rejoinStart
  repeat' first
    | with_reducible assumption
    | intro _
    | with_reducible apply good_ite
    | with_reducible apply State.enginesHeld_keeps
    | with_reducible apply State.sendHello_keeps
    | with_reducible apply State.put_keeps
    | (extract_lets +onlyGivenNames x
       first
         | (refine good_cut (q := q) x ?cv ?ck
            case' ck => (intro hx; clear_value x)
            case' cv => (unfold x; clear x))
         | (refine good_cut_fst (q := q) x ?cv ?ck
            case' ck => (intro hx; clear_value x)
            case' cv => (unfold x; clear x))
         | (refine good_cut_snd (q := q) x ?cv ?ck
            case' ck => (intro hx; clear_value x)
            case' cv => (unfold x; clear x))
         | skip)
    | split
    | with_reducible apply good_mk
    | with_reducible rfl

theorem opRflRejoin_keeps {q : List Instr} (s : State) (h : Good q s) : Good q (opRflRejoin s) := by
  unfold opRflRejoin
  repeat' first
    | with_reducible assumption
    | intro _
    | with_reducible apply State.rejoinStart_keeps
    | with_reducible rfl

theorem opRejoinRetry_keeps {q : List Instr} (s : State) (h : Good q s) : Good q (opRejoinRetry s) := by
  unfold opRejoinRetry
  repeat' first
    | with_reducible assumption
    | intro _
    | with_reducible apply good_ite
    | with_reducible apply State.advance_keeps
    | with_reducible apply State.rejoinStart_keeps
    | (extract_lets +onlyGivenNames x
       first
         | (refine good_cut (q := q) x ?cv ?ck
            case' ck => (intro hx; clear_value x)
            case' cv => (unfold x; clear x))
         | (refine good_cut_fst (q := q) x ?cv ?ck
            case' ck => (intro hx; clear_value x)
            case' cv => (unfold x; clear x))
         | (refine good_cut_snd (q := q) x ?cv ?ck
            case' ck => (intro hx; clear_value x)
            case' cv => (unfold x; clear x))
         | skip)
    | split
    | with_reducible apply good_mk
    | with_reducible rfl

theorem opRejoinFailure_keeps {q : List Instr} (s : State) (h : Good q s) : Good q (opRejoinFailure s) := by
  unfold opRejoinFailure
  repeat' first
    | with_reducible assumption
    | intro _
    | with_reducible apply good_ite
    | with_reducible apply State.rejoinFail_keeps
    | (extract_lets +onlyGivenNames x
       first
         | (refine good_cut (q := q) x ?cv ?ck
            case' ck => (intro hx; clear_value x)
            case' cv => (unfold x; clear x))
         | (refine good_cut_fst (q := q) x ?cv ?ck
            case' ck => (intro hx; clear_value x)
            case' cv => (unfold x; clear x))
         | (refine good_cut_snd (q := q) x ?cv ?ck
            case' ck => (intro hx; clear_value x)
            case' cv => (unfold x; clear x))
         | skip)
    | split
    | with_reducible rfl

theorem opSyncTurn_keeps {q : List Instr} (s : State) (h : Good q s) : Good q (opSyncTurn s) := by
  unfold opSyncTurn
  repeat' first
    | with_reducible assumption
    | intro _
    | with_reducible apply good_ite
    | split
    | with_reducible apply good_mk
    | with_reducible rfl

theorem State.applyPage_keeps {q : List Instr} (g : PageIn) (s : State) (h : Good q s) : Good q (State.applyPage g s) := by
  unfold State.applyPage
  repeat' first
    | with_reducible assumption
    | intro _
    | with_reducible apply good_ite
    | with_reducible apply good_ite_fst
    | with_reducible apply good_ite_snd
    | with_reducible apply State.check_keeps
    | with_reducible apply State.loseLocks_keeps
    | with_reducible apply State.putWords_keeps
    | with_reducible apply State.setEcc_keeps
    | with_reducible apply State.stopFollowing_keeps
    | with_reducible apply State.rejoinFail_keeps
    | with_reducible apply good_forAll
    | with_reducible apply good_foldl
    | with_reducible apply good_foldl_fst
    | with_reducible apply good_foldl_snd
    | (extract_lets +onlyGivenNames x
       first
         | (refine good_cut (q := q) x ?cv ?ck
            case' ck => (intro hx; clear_value x)
            case' cv => (unfold x; clear x))
         | (refine good_cut_fst (q := q) x ?cv ?ck
            case' ck => (intro hx; clear_value x)
            case' cv => (unfold x; clear x))
         | (refine good_cut_snd (q := q) x ?cv ?ck
            case' ck => (intro hx; clear_value x)
            case' cv => (unfold x; clear x))
         | skip)
    | split

theorem opPage_keeps {q : List Instr} (seq : Nat) (idx : Nat) (d : List Byte) (bad : List Nat) (s : State) (h : Good q s) : Good q (opPage seq idx d bad s) := by
  unfold opPage
  repeat' first
    | with_reducible assumption
    | intro _
    | (extract_lets +onlyGivenNames x
       first
         | (refine good_cut (q := q) x ?cv ?ck
            case' ck => (intro hx; clear_value x)
            case' cv => (unfold x; clear x))
         | (refine good_cut_fst (q := q) x ?cv ?ck
            case' ck => (intro hx; clear_value x)
            case' cv => (unfold x; clear x))
         | (refine good_cut_snd (q := q) x ?cv ?ck
            case' ck => (intro hx; clear_value x)
            case' cv => (unfold x; clear x))
         | skip)
    | with_reducible apply good_ite
    | with_reducible apply State.record_keeps
    | with_reducible apply State.applyPage_keeps
    | with_reducible apply good_mk
    | split
    | with_reducible rfl

theorem State.takeEng_keeps {q : List Instr} (b : List Byte) (e : Nat) (s : State) (h : Good q s) : Good q (State.takeEng b e s) := by
  unfold State.takeEng
  repeat' first
    | with_reducible assumption
    | intro _
    | with_reducible apply good_ite
    | with_reducible apply good_ite_fst
    | with_reducible apply good_ite_snd
    | with_reducible apply State.upE_keeps
    | with_reducible apply State.put_keeps
    | with_reducible apply good_foldl
    | with_reducible apply good_foldl_fst
    | with_reducible apply good_foldl_snd
    | (extract_lets +onlyGivenNames x
       first
         | (refine good_cut (q := q) x ?cv ?ck
            case' ck => (intro hx; clear_value x)
            case' cv => (unfold x; clear x))
         | (refine good_cut_fst (q := q) x ?cv ?ck
            case' ck => (intro hx; clear_value x)
            case' cv => (unfold x; clear x))
         | (refine good_cut_snd (q := q) x ?cv ?ck
            case' ck => (intro hx; clear_value x)
            case' cv => (unfold x; clear x))
         | skip)
    | with_reducible apply good_mk
    | with_reducible rfl

theorem State.takeTask_keeps {q : List Instr} (b : List Byte) (n : Nat) (s : State) (h : Good q s) : Good q (State.takeTask b n s) := by
  unfold State.takeTask
  repeat' first
    | with_reducible assumption
    | intro _
    | with_reducible apply good_ite
    | with_reducible apply State.put_keeps
    | with_reducible apply State.putBits_keeps
    | with_reducible apply State.upT_keeps
    | (extract_lets +onlyGivenNames x
       first
         | (refine good_cut (q := q) x ?cv ?ck
            case' ck => (intro hx; clear_value x)
            case' cv => (unfold x; clear x))
         | (refine good_cut_fst (q := q) x ?cv ?ck
            case' ck => (intro hx; clear_value x)
            case' cv => (unfold x; clear x))
         | (refine good_cut_snd (q := q) x ?cv ?ck
            case' ck => (intro hx; clear_value x)
            case' cv => (unfold x; clear x))
         | skip)
    | split
    | with_reducible apply good_mk
    | with_reducible rfl

theorem State.takeShed_keeps {q : List Instr} (b : List Byte) (e : Nat) (s : State) (h : Good q s) : Good q (State.takeShed b e s) := by
  unfold State.takeShed
  repeat' first
    | with_reducible assumption
    | intro _
    | with_reducible apply good_ite
    | with_reducible apply State.put_keeps
    | (extract_lets +onlyGivenNames x
       first
         | (refine good_cut (q := q) x ?cv ?ck
            case' ck => (intro hx; clear_value x)
            case' cv => (unfold x; clear x))
         | (refine good_cut_fst (q := q) x ?cv ?ck
            case' ck => (intro hx; clear_value x)
            case' cv => (unfold x; clear x))
         | (refine good_cut_snd (q := q) x ?cv ?ck
            case' ck => (intro hx; clear_value x)
            case' cv => (unfold x; clear x))
         | skip)
    | split
    | with_reducible apply good_mk
    | with_reducible rfl

theorem State.takeState_keeps {q : List Instr} (d : List Byte) (s : State) (h : Good q s) : Good q (State.takeState d s) := by
  unfold State.takeState
  repeat' first
    | with_reducible assumption
    | intro _
    | with_reducible apply good_ite
    | with_reducible apply State.takeEng_keeps
    | with_reducible apply State.takeTask_keeps
    | with_reducible apply State.takeShed_keeps
    | with_reducible apply good_forAll
    | (extract_lets +onlyGivenNames x
       first
         | (refine good_cut (q := q) x ?cv ?ck
            case' ck => (intro hx; clear_value x)
            case' cv => (unfold x; clear x))
         | (refine good_cut_fst (q := q) x ?cv ?ck
            case' ck => (intro hx; clear_value x)
            case' cv => (unfold x; clear x))
         | (refine good_cut_snd (q := q) x ?cv ?ck
            case' ck => (intro hx; clear_value x)
            case' cv => (unfold x; clear x))
         | skip)

theorem opState_keeps {q : List Instr} (seq : Nat) (idx : Nat) (d : List Byte) (s : State) (h : Good q s) : Good q (opState seq idx d s) := by
  unfold opState
  repeat' first
    | with_reducible assumption
    | intro _
    | with_reducible apply State.record_keeps
    | with_reducible rfl

theorem State.repairStart_keeps {q : List Instr} (s : State) (h : Good q s) : Good q (State.repairStart s) := by
  unfold State.repairStart
  repeat' first
    | with_reducible assumption
    | intro _
    | (extract_lets +onlyGivenNames x
       first
         | (refine good_cut (q := q) x ?cv ?ck
            case' ck => (intro hx; clear_value x)
            case' cv => (unfold x; clear x))
         | (refine good_cut_fst (q := q) x ?cv ?ck
            case' ck => (intro hx; clear_value x)
            case' cv => (unfold x; clear x))
         | (refine good_cut_snd (q := q) x ?cv ?ck
            case' ck => (intro hx; clear_value x)
            case' cv => (unfold x; clear x))
         | skip)
    | with_reducible apply good_mk
    | with_reducible rfl

theorem State.digestCompare_keeps {q : List Instr} (s : State) (h : Good q s) : Good q (State.digestCompare s) := by
  unfold State.digestCompare
  repeat' first
    | with_reducible assumption
    | intro _
    | with_reducible apply good_ite
    | with_reducible apply State.wrapUp_keeps
    | with_reducible apply State.raise_keeps
    | with_reducible apply State.bump_keeps
    | with_reducible apply State.stopFollowing_keeps
    | with_reducible apply State.repairStart_keeps
    | (extract_lets +onlyGivenNames x
       first
         | (refine good_cut (q := q) x ?cv ?ck
            case' ck => (intro hx; clear_value x)
            case' cv => (unfold x; clear x))
         | (refine good_cut_fst (q := q) x ?cv ?ck
            case' ck => (intro hx; clear_value x)
            case' cv => (unfold x; clear x))
         | (refine good_cut_snd (q := q) x ?cv ?ck
            case' ck => (intro hx; clear_value x)
            case' cv => (unfold x; clear x))
         | skip)
    | split
    | with_reducible apply good_mk
    | with_reducible rfl

theorem opDigest_keeps {q : List Instr} (a : Nat) (crc : Nat) (s : State) (h : Good q s) : Good q (opDigest a crc s) := by
  unfold opDigest
  repeat' first
    | with_reducible assumption
    | intro _
    | with_reducible apply good_ite
    | with_reducible apply good_ite_fst
    | with_reducible apply good_ite_snd
    | with_reducible apply State.digestCompare_keeps
    | (extract_lets +onlyGivenNames x
       first
         | (refine good_cut (q := q) x ?cv ?ck
            case' ck => (intro hx; clear_value x)
            case' cv => (unfold x; clear x))
         | (refine good_cut_fst (q := q) x ?cv ?ck
            case' ck => (intro hx; clear_value x)
            case' cv => (unfold x; clear x))
         | (refine good_cut_snd (q := q) x ?cv ?ck
            case' ck => (intro hx; clear_value x)
            case' cv => (unfold x; clear x))
         | skip)
    | with_reducible apply good_mk
    | split
    | with_reducible rfl

theorem opDigestComplete_keeps {q : List Instr} (s : State) (h : Good q s) : Good q (opDigestComplete s) := by
  unfold opDigestComplete
  repeat' first
    | with_reducible assumption
    | intro _
    | with_reducible apply State.digestCompare_keeps
    | with_reducible apply State.rflSend_keeps
    | (extract_lets +onlyGivenNames x
       first
         | (refine good_cut (q := q) x ?cv ?ck
            case' ck => (intro hx; clear_value x)
            case' cv => (unfold x; clear x))
         | (refine good_cut_fst (q := q) x ?cv ?ck
            case' ck => (intro hx; clear_value x)
            case' cv => (unfold x; clear x))
         | (refine good_cut_snd (q := q) x ?cv ?ck
            case' ck => (intro hx; clear_value x)
            case' cv => (unfold x; clear x))
         | skip)
    | split
    | with_reducible apply good_mk
    | with_reducible rfl

theorem opRflRepair_keeps {q : List Instr} (s : State) (h : Good q s) : Good q (opRflRepair s) := by
  unfold opRflRepair
  repeat' first
    | with_reducible assumption
    | intro _
    | with_reducible apply good_ite
    | with_reducible apply State.put_keeps
    | with_reducible apply State.repairStart_keeps
    | split
    | with_reducible rfl

theorem opStatus_keeps {q : List Instr} (role : Nat) (disc : Nat) (reports : List Nat) (s : State) (h : Good q s) : Good q (opStatus role disc reports s) := by
  unfold opStatus
  repeat' first
    | with_reducible assumption
    | intro _
    | with_reducible apply good_ite
    | with_reducible apply good_ite_fst
    | with_reducible apply good_ite_snd
    | with_reducible apply State.put_keeps
    | (extract_lets +onlyGivenNames x
       first
         | (refine good_cut (q := q) x ?cv ?ck
            case' ck => (intro hx; clear_value x)
            case' cv => (unfold x; clear x))
         | (refine good_cut_fst (q := q) x ?cv ?ck
            case' ck => (intro hx; clear_value x)
            case' cv => (unfold x; clear x))
         | (refine good_cut_snd (q := q) x ?cv ?ck
            case' ck => (intro hx; clear_value x)
            case' cv => (unfold x; clear x))
         | skip)
    | with_reducible apply good_mk
    | split
    | with_reducible rfl

theorem opLogFrame_keeps {q : List Instr} (time : Nat) (code : Nat) (data : Nat) (cls : Nat) (s : State) (h : Good q s) : Good q (opLogFrame time code data cls s) := by
  unfold opLogFrame
  repeat' first
    | with_reducible assumption
    | intro _
    | with_reducible apply good_ite
    | with_reducible apply State.logPut_keeps

theorem opBrickFrame_keeps {q : List Instr} (d : List Byte) (s : State) (h : Good q s) : Good q (opBrickFrame d s) := by
  unfold opBrickFrame
  repeat' first
    | with_reducible assumption
    | intro _
    | with_reducible apply good_ite
    | with_reducible apply State.takeBrick_keeps
    | split
    | with_reducible rfl

theorem State.setCount_keeps {q : List Instr} (e : Nat) (n : Nat) (s : State) (h : Good q s) : Good q (State.setCount e n s) := by
  unfold State.setCount
  repeat' first
    | with_reducible assumption
    | intro _
    | with_reducible apply good_ite
    | with_reducible apply State.put_keeps
    | with_reducible apply good_mk
    | with_reducible rfl

theorem State.turnBegin_keeps {q : List Instr} (e : Nat) (s : State) (h : Good q s) : Good q (State.turnBegin e s) := by
  unfold State.turnBegin
  repeat' first
    | with_reducible assumption
    | intro _
    | with_reducible apply good_ite
    | with_reducible apply State.setCount_keeps
    | (extract_lets +onlyGivenNames x
       first
         | (refine good_cut (q := q) x ?cv ?ck
            case' ck => (intro hx; clear_value x)
            case' cv => (unfold x; clear x))
         | (refine good_cut_fst (q := q) x ?cv ?ck
            case' ck => (intro hx; clear_value x)
            case' cv => (unfold x; clear x))
         | (refine good_cut_snd (q := q) x ?cv ?ck
            case' ck => (intro hx; clear_value x)
            case' cv => (unfold x; clear x))
         | skip)
    | split
    | with_reducible apply good_mk
    | with_reducible rfl

theorem State.turnCatch_keeps {q : List Instr} (e : Nat) (s : State) (h : Good q s) : Good q (State.turnCatch e s) := by
  unfold State.turnCatch
  repeat' first
    | with_reducible assumption
    | intro _
    | with_reducible apply good_ite
    | with_reducible apply State.turnBegin_keeps
    | with_reducible apply State.seqLatchEnd_keeps
    | (extract_lets +onlyGivenNames x
       first
         | (refine good_cut (q := q) x ?cv ?ck
            case' ck => (intro hx; clear_value x)
            case' cv => (unfold x; clear x))
         | (refine good_cut_fst (q := q) x ?cv ?ck
            case' ck => (intro hx; clear_value x)
            case' cv => (unfold x; clear x))
         | (refine good_cut_snd (q := q) x ?cv ?ck
            case' ck => (intro hx; clear_value x)
            case' cv => (unfold x; clear x))
         | skip)
    | split

theorem State.relDrop_keeps {q : List Instr} (r : RelEnt) (s : State) (h : Good q s) : Good q (State.relDrop r s) := by
  unfold State.relDrop
  repeat' first
    | with_reducible assumption
    | intro _
    | with_reducible apply good_ite
    | (extract_lets +onlyGivenNames x
       first
         | (refine good_cut (q := q) x ?cv ?ck
            case' ck => (intro hx; clear_value x)
            case' cv => (unfold x; clear x))
         | (refine good_cut_fst (q := q) x ?cv ?ck
            case' ck => (intro hx; clear_value x)
            case' cv => (unfold x; clear x))
         | (refine good_cut_snd (q := q) x ?cv ?ck
            case' ck => (intro hx; clear_value x)
            case' cv => (unfold x; clear x))
         | skip)
    | split
    | with_reducible apply good_mk
    | with_reducible rfl

theorem opShadowRelRelease_keeps {q : List Instr} (e : Nat) (s : State) (h : Good q s) : Good q (opShadowRelRelease e s) := by
  unfold opShadowRelRelease
  repeat' first
    | with_reducible assumption
    | intro _
    | with_reducible apply good_ite
    | with_reducible apply good_ite_fst
    | with_reducible apply good_ite_snd
    | with_reducible apply State.turnCatch_keeps
    | with_reducible apply State.relDrop_keeps
    | with_reducible apply State.setCount_keeps
    | with_reducible apply State.upT_keeps
    | with_reducible apply State.consider_keeps
    | with_reducible apply State.raise_keeps
    | (extract_lets +onlyGivenNames x
       first
         | (refine good_cut (q := q) x ?cv ?ck
            case' ck => (intro hx; clear_value x)
            case' cv => (unfold x; clear x))
         | (refine good_cut_fst (q := q) x ?cv ?ck
            case' ck => (intro hx; clear_value x)
            case' cv => (unfold x; clear x))
         | (refine good_cut_snd (q := q) x ?cv ?ck
            case' ck => (intro hx; clear_value x)
            case' cv => (unfold x; clear x))
         | skip)
    | split
    | with_reducible apply good_mk
    | with_reducible rfl

theorem State.discardAfter_keeps {q : List Instr} (a : Nat) (n : Nat) (s : State) (h : Good q s) : Good q (State.discardAfter a n s) := by
  unfold State.discardAfter
  repeat' first
    | with_reducible assumption
    | intro _
    | with_reducible apply good_ite
    | with_reducible apply State.upT_keeps
    | with_reducible apply State.reloadWork_keeps
    | with_reducible apply State.engIdle_keeps
    | (extract_lets +onlyGivenNames x
       first
         | (refine good_cut (q := q) x ?cv ?ck
            case' ck => (intro hx; clear_value x)
            case' cv => (unfold x; clear x))
         | (refine good_cut_fst (q := q) x ?cv ?ck
            case' ck => (intro hx; clear_value x)
            case' cv => (unfold x; clear x))
         | (refine good_cut_snd (q := q) x ?cv ?ck
            case' ck => (intro hx; clear_value x)
            case' cv => (unfold x; clear x))
         | skip)
    | split
    | with_reducible apply good_mk
    | with_reducible rfl

theorem opSwitchover_keeps {q : List Instr} (s : State) (h : Good q s) : Good q (opSwitchover s) := by
  unfold opSwitchover
  refine good_ite h (good_ite (State.stopFollowing_keeps _ _ h) ?_)
  extract_lets t u w
  have h1 : Good q t := by
    unfold t
    split
    · exact good_ite h (good_forAll (fun n s hs => State.discardAfter_keeps _ _ _ hs) h)
    · exact h
  have h2 : Good q u := State.leadStart_keeps _ h1
  exact State.raise_keeps _ _ _ (good_mk h2 (Eq.refl _) (Eq.refl _) (Eq.refl _) (Eq.refl _) (Eq.refl _) (Eq.refl _))

theorem opRflStop_keeps {q : List Instr} (s : State) (h : Good q s) : Good q (opRflStop s) := by
  unfold opRflStop
  repeat' first
    | with_reducible assumption
    | intro _
    | with_reducible apply good_ite
    | with_reducible apply State.put_keeps
    | with_reducible apply State.stopFollowing_keeps
    | split
    | with_reducible rfl

theorem opRflSwap_keeps {q : List Instr} (s : State) (h : Good q s) : Good q (opRflSwap s) := by
  unfold opRflSwap
  repeat' first
    | with_reducible assumption
    | intro _
    | with_reducible apply good_ite
    | with_reducible apply State.put_keeps
    | (extract_lets +onlyGivenNames x
       first
         | (refine good_cut (q := q) x ?cv ?ck
            case' ck => (intro hx; clear_value x)
            case' cv => (unfold x; clear x))
         | (refine good_cut_fst (q := q) x ?cv ?ck
            case' ck => (intro hx; clear_value x)
            case' cv => (unfold x; clear x))
         | (refine good_cut_snd (q := q) x ?cv ?ck
            case' ck => (intro hx; clear_value x)
            case' cv => (unfold x; clear x))
         | skip)
    | with_reducible apply good_mk
    | split
    | with_reducible rfl

theorem opRflCancel_keeps {q : List Instr} (s : State) (h : Good q s) : Good q (opRflCancel s) := by
  unfold opRflCancel
  repeat' first
    | with_reducible assumption
    | intro _
    | (extract_lets +onlyGivenNames x
       first
         | (refine good_cut (q := q) x ?cv ?ck
            case' ck => (intro hx; clear_value x)
            case' cv => (unfold x; clear x))
         | (refine good_cut_fst (q := q) x ?cv ?ck
            case' ck => (intro hx; clear_value x)
            case' cv => (unfold x; clear x))
         | (refine good_cut_snd (q := q) x ?cv ?ck
            case' ck => (intro hx; clear_value x)
            case' cv => (unfold x; clear x))
         | skip)
    | with_reducible apply good_mk
    | with_reducible rfl

theorem opRoleSwap_keeps {q : List Instr} (s : State) (h : Good q s) : Good q (opRoleSwap s) := by
  unfold opRoleSwap
  repeat' first
    | with_reducible assumption
    | intro _
    | with_reducible apply good_ite
    | (extract_lets +onlyGivenNames x
       first
         | (refine good_cut (q := q) x ?cv ?ck
            case' ck => (intro hx; clear_value x)
            case' cv => (unfold x; clear x))
         | (refine good_cut_fst (q := q) x ?cv ?ck
            case' ck => (intro hx; clear_value x)
            case' cv => (unfold x; clear x))
         | (refine good_cut_snd (q := q) x ?cv ?ck
            case' ck => (intro hx; clear_value x)
            case' cv => (unfold x; clear x))
         | skip)
    | split
    | with_reducible apply good_mk
    | with_reducible rfl

theorem State.swapOutLead_keeps {q : List Instr} (s : State) (h : Good q s) : Good q (State.swapOutLead s) := by
  unfold State.swapOutLead
  repeat' first
    | with_reducible assumption
    | intro _
    | with_reducible apply good_ite
    | with_reducible apply State.handOver_keeps
    | with_reducible apply State.put_keeps
    | with_reducible apply State.conflict_keeps
    | (extract_lets +onlyGivenNames x
       first
         | (refine good_cut (q := q) x ?cv ?ck
            case' ck => (intro hx; clear_value x)
            case' cv => (unfold x; clear x))
         | (refine good_cut_fst (q := q) x ?cv ?ck
            case' ck => (intro hx; clear_value x)
            case' cv => (unfold x; clear x))
         | (refine good_cut_snd (q := q) x ?cv ?ck
            case' ck => (intro hx; clear_value x)
            case' cv => (unfold x; clear x))
         | skip)
    | with_reducible apply good_mk
    | with_reducible rfl

theorem State.sendEnd_keeps {q : List Instr} (names : List Nat) (cyc : Nat) (s : State) (h : Good q s) : Good q (State.sendEnd names cyc s) := by
  unfold State.sendEnd
  repeat' first
    | with_reducible assumption
    | intro _
    | with_reducible apply good_ite
    | with_reducible apply State.rflSend_keeps
    | with_reducible apply State.put_keeps
    | (extract_lets +onlyGivenNames x
       first
         | (refine good_cut (q := q) x ?cv ?ck
            case' ck => (intro hx; clear_value x)
            case' cv => (unfold x; clear x))
         | (refine good_cut_fst (q := q) x ?cv ?ck
            case' ck => (intro hx; clear_value x)
            case' cv => (unfold x; clear x))
         | (refine good_cut_snd (q := q) x ?cv ?ck
            case' ck => (intro hx; clear_value x)
            case' cv => (unfold x; clear x))
         | skip)
    | with_reducible apply good_mk
    | with_reducible rfl

theorem State.sendHead_keeps {q : List Instr} (flags : Nat) (s : State) (h : Good q s) : Good q (State.sendHead flags s) := by
  unfold State.sendHead
  repeat' first
    | with_reducible assumption
    | intro _
    | with_reducible apply State.rflSend_keeps
    | with_reducible apply good_forAll
    | (extract_lets +onlyGivenNames x
       first
         | (refine good_cut (q := q) x ?cv ?ck
            case' ck => (intro hx; clear_value x)
            case' cv => (unfold x; clear x))
         | (refine good_cut_fst (q := q) x ?cv ?ck
            case' ck => (intro hx; clear_value x)
            case' cv => (unfold x; clear x))
         | (refine good_cut_snd (q := q) x ?cv ?ck
            case' ck => (intro hx; clear_value x)
            case' cv => (unfold x; clear x))
         | skip)
    | with_reducible apply good_mk
    | with_reducible rfl

theorem State.roundEnd_keeps {q : List Instr} (s : State) (h : Good q s) : Good q (State.roundEnd s) := by
  unfold State.roundEnd
  repeat' first
    | with_reducible assumption
    | intro _
    | with_reducible apply good_ite
    | with_reducible apply State.put_keeps
    | with_reducible apply State.wrapUp_keeps
    | (extract_lets +onlyGivenNames x
       first
         | (refine good_cut (q := q) x ?cv ?ck
            case' ck => (intro hx; clear_value x)
            case' cv => (unfold x; clear x))
         | (refine good_cut_fst (q := q) x ?cv ?ck
            case' ck => (intro hx; clear_value x)
            case' cv => (unfold x; clear x))
         | (refine good_cut_snd (q := q) x ?cv ?ck
            case' ck => (intro hx; clear_value x)
            case' cv => (unfold x; clear x))
         | skip)
    | split
    | with_reducible apply good_mk
    | with_reducible rfl

theorem State.roundPage_keeps {q : List Instr} (s : State) (h : Good q s) : Good q (State.roundPage s) := by
  unfold State.roundPage
  repeat' first
    | with_reducible assumption
    | intro _
    | with_reducible apply good_ite
    | with_reducible apply good_ite_fst
    | with_reducible apply good_ite_snd
    | with_reducible apply State.sendPage_keeps
    | with_reducible apply State.rejoinFail_keeps
    | (extract_lets +onlyGivenNames x
       first
         | (refine good_cut (q := q) x ?cv ?ck
            case' ck => (intro hx; clear_value x)
            case' cv => (unfold x; clear x))
         | (refine good_cut_fst (q := q) x ?cv ?ck
            case' ck => (intro hx; clear_value x)
            case' cv => (unfold x; clear x))
         | (refine good_cut_snd (q := q) x ?cv ?ck
            case' ck => (intro hx; clear_value x)
            case' cv => (unfold x; clear x))
         | skip)
    | split
    | with_reducible apply good_mk
    | with_reducible rfl

theorem State.sendSync_keeps {q : List Instr} (s : State) (h : Good q s) : Good q (State.sendSync s) := by
  unfold State.sendSync
  have h1 : Good q (State.forAll (chunks 4096 4 s.stateBlock) (fun l s => s.rflSend 8 l) s) :=
    good_forAll (fun l t ht => State.rflSend_keeps 8 l t [] ht) h
  generalize State.forAll (chunks 4096 4 s.stateBlock) (fun l s => s.rflSend 8 l) s = t at h1
  have h2 : Good q (t.rfl.dirty.foldl (fun (r : State × Bool) (p : Nat × Nat) => let q := r.1.sendPage p.1 p.2; (q.1, r.2 && q.2)) (t, true)).1 :=
    good_foldl_fst (fun r x hr => State.sendPage_keeps x.1 x.2 _ hr) h1
  dsimp only at h2 ⊢
  generalize t.rfl.dirty.foldl _ (t, true) = r at h2
  exact good_ite (State.put_keeps _ _ _ _ _ (good_mk h2 (Eq.refl _) (Eq.refl _) (Eq.refl _) (Eq.refl _) (Eq.refl _) (Eq.refl _))) (State.rejoinFail_keeps _ _ h2)

theorem State.repairPage_keeps {q : List Instr} (s : State) (h : Good q s) : Good q (State.repairPage s) := by
  unfold State.repairPage
  repeat' first
    | with_reducible assumption
    | intro _
    | with_reducible apply good_ite
    | with_reducible apply good_ite_fst
    | with_reducible apply good_ite_snd
    | with_reducible apply State.sendPage_keeps
    | (extract_lets +onlyGivenNames x
       first
         | (refine good_cut (q := q) x ?cv ?ck
            case' ck => (intro hx; clear_value x)
            case' cv => (unfold x; clear x))
         | (refine good_cut_fst (q := q) x ?cv ?ck
            case' ck => (intro hx; clear_value x)
            case' cv => (unfold x; clear x))
         | (refine good_cut_snd (q := q) x ?cv ?ck
            case' ck => (intro hx; clear_value x)
            case' cv => (unfold x; clear x))
         | skip)
    | split
    | with_reducible apply good_mk
    | with_reducible rfl

theorem State.sendPages_keeps {q : List Instr} (s : State) (h : Good q s) : Good q (State.sendPages s) := by
  unfold State.sendPages
  repeat' first
    | with_reducible assumption
    | intro _
    | with_reducible apply good_ite
    | with_reducible apply good_ite_fst
    | with_reducible apply good_ite_snd
    | with_reducible apply State.sendSync_keeps
    | with_reducible apply State.roundPage_keeps
    | with_reducible apply State.roundEnd_keeps
    | with_reducible apply State.repairPage_keeps
    | with_reducible apply State.sendPage_keeps
    | with_reducible apply good_forAll
    | split
    | with_reducible apply good_mk
    | (extract_lets +onlyGivenNames x
       first
         | (refine good_cut (q := q) x ?cv ?ck
            case' ck => (intro hx; clear_value x)
            case' cv => (unfold x; clear x))
         | (refine good_cut_fst (q := q) x ?cv ?ck
            case' ck => (intro hx; clear_value x)
            case' cv => (unfold x; clear x))
         | (refine good_cut_snd (q := q) x ?cv ?ck
            case' ck => (intro hx; clear_value x)
            case' cv => (unfold x; clear x))
         | skip)
    | with_reducible rfl
    | rfl

end Sys2Proof.Machine
end

