-- ==== Sys2Proof/Laws/KeepsPorts.lean ====
section
/-! SUPPORT. Laws/KeepsPorts.lean: every operation of Machine/Ports.lean keeps `Good`. -/

namespace Sys2Proof.Machine

theorem State.upPort_keeps {q : List Instr} (s : State) (p : Nat) (f : PortSt → PortSt) (h : Good q s) : Good q (State.upPort s p f) := by
  unfold State.upPort
  repeat' first
    | with_reducible assumption
    | intro _
    | with_reducible apply good_mk
    | with_reducible rfl

theorem State.portErr_keeps {q : List Instr} (p : Nat) (code : Nat) (s : State) (h : Good q s) : Good q (State.portErr p code s) := by
  unfold State.portErr
  repeat' first
    | with_reducible assumption
    | intro _
    | with_reducible apply State.put_keeps
    | with_reducible apply State.raise_keeps

theorem State.portDrop_keeps {q : List Instr} (p : Nat) (code : Nat) (s : State) (h : Good q s) : Good q (State.portDrop p code s) := by
  unfold State.portDrop
  repeat' first
    | with_reducible assumption
    | intro _
    | with_reducible apply good_ite
    | with_reducible apply State.bump_keeps
    | with_reducible apply State.portErr_keeps

theorem State.partnerLost_keeps {q : List Instr} (p : Nat) (s : State) (h : Good q s) : Good q (State.partnerLost p s) := by
  unfold State.partnerLost
  repeat' first
    | with_reducible assumption
    | intro _
    | with_reducible apply State.put_keeps
    | with_reducible apply State.level_keeps

theorem State.partnerHeard_keeps {q : List Instr} (p : Nat) (s : State) (h : Good q s) : Good q (State.partnerHeard p s) := by
  unfold State.partnerHeard
  repeat' first
    | with_reducible assumption
    | intro _
    | with_reducible apply good_ite
    | with_reducible apply State.put_keeps
    | with_reducible apply State.wrapUp_keeps
    | with_reducible apply State.upPort_keeps
    | with_reducible apply State.level_keeps

theorem State.portGo_keeps {q : List Instr} (p : Nat) (s : State) (h : Good q s) : Good q (State.portGo p s) := by
  unfold State.portGo
  repeat' first
    | with_reducible assumption
    | intro _
    | with_reducible apply good_ite
    | with_reducible apply State.upPort_keeps
    | (extract_lets +onlyGivenNames x
       first
         | (refine good_cut (q := q) x ?cv ?ck
            case' ck => (intro hx; clear_value x)
            case' cv => (unfold x; clear x))
         | (refine good_cut_fst (q := q) x ?cv ?ck
            case' ck => (intro hx; clear_value x)
            case' cv => (unfold x; clear x))
         | (refine good_cut_snd (q := q) x ?cv ?ck
            case' ck => (intro hx; clear_value x)
            case' cv => (unfold x; clear x))
         | skip)
    | split

theorem State.portSend_keeps {q : List Instr} (p : Nat) (svc : Nat) (udp : Nat) (b : List Byte) (tok : Bool) (s : State) (h : Good q s) : Good q (State.portSend p svc udp b tok s).1 := by
  unfold State.portSend
  repeat' first
    | with_reducible assumption
    | intro _
    | with_reducible apply good_ite
    | with_reducible apply good_ite_fst
    | with_reducible apply good_ite_snd
    | with_reducible apply State.upPort_keeps
    | with_reducible apply State.svc_keeps
    | with_reducible apply State.qStore_keeps
    | with_reducible apply State.portGo_keeps
    | with_reducible apply State.portDrop_keeps
    | split
    | with_reducible apply good_mk
    | (extract_lets +onlyGivenNames x
       first
         | (refine good_cut (q := q) x ?cv ?ck
            case' ck => (intro hx; clear_value x)
            case' cv => (unfold x; clear x))
         | (refine good_cut_fst (q := q) x ?cv ?ck
            case' ck => (intro hx; clear_value x)
            case' cv => (unfold x; clear x))
         | (refine good_cut_snd (q := q) x ?cv ?ck
            case' ck => (intro hx; clear_value x)
            case' cv => (unfold x; clear x))
         | skip)
    | with_reducible rfl
    | rfl

theorem State.canState_keeps {q : List Instr} (p : Nat) (s : State) (h : Good q s) : Good q (State.canState p s) := by
  unfold State.canState
  repeat' first
    | with_reducible assumption
    | intro _
    | with_reducible apply good_ite
    | with_reducible apply State.put_keeps
    | with_reducible apply State.portErr_keeps

theorem State.cutDone_keeps {q : List Instr} (p : Nat) (m : TxMsg) (s : State) (h : Good q s) : Good q (State.cutDone p m s) := by
  unfold State.cutDone
  repeat' first
    | with_reducible assumption
    | intro _
    | with_reducible apply good_ite
    | with_reducible apply good_ite_fst
    | with_reducible apply good_ite_snd
    | with_reducible apply State.free_keeps
    | with_reducible apply State.upPort_keeps
    | with_reducible apply State.put_keeps
    | with_reducible apply State.canState_keeps
    | with_reducible apply State.portGo_keeps
    | (extract_lets +onlyGivenNames x
       first
         | (refine good_cut (q := q) x ?cv ?ck
            case' ck => (intro hx; clear_value x)
            case' cv => (unfold x; clear x))
         | (refine good_cut_fst (q := q) x ?cv ?ck
            case' ck => (intro hx; clear_value x)
            case' cv => (unfold x; clear x))
         | (refine good_cut_snd (q := q) x ?cv ?ck
            case' ck => (intro hx; clear_value x)
            case' cv => (unfold x; clear x))
         | skip)
    | with_reducible apply good_mk
    | with_reducible rfl

theorem State.txDone_keeps {q : List Instr} (p : Nat) (s : State) (h : Good q s) : Good q (State.txDone p s) := by
  unfold State.txDone
  repeat' first
    | with_reducible assumption
    | intro _
    | with_reducible apply good_ite
    | with_reducible apply State.qRead_keeps
    | with_reducible apply State.cutDone_keeps
    | with_reducible apply State.upPort_keeps
    | with_reducible apply State.put_keeps
    | with_reducible apply State.canState_keeps
    | with_reducible apply State.wrapUp_keeps
    | with_reducible apply State.raise_keeps
    | with_reducible apply State.portGo_keeps
    | split
    | with_reducible apply good_mk
    | (extract_lets +onlyGivenNames x
       first
         | (refine good_cut (q := q) x ?cv ?ck
            case' ck => (intro hx; clear_value x)
            case' cv => (unfold x; clear x))
         | (refine good_cut_fst (q := q) x ?cv ?ck
            case' ck => (intro hx; clear_value x)
            case' cv => (unfold x; clear x))
         | (refine good_cut_snd (q := q) x ?cv ?ck
            case' ck => (intro hx; clear_value x)
            case' cv => (unfold x; clear x))
         | skip)
    | with_reducible rfl
    | rfl

theorem State.portRecv_keeps {q : List Instr} (p : Nat) (udp : Nat) (m : List Byte) (s : State) (h : Good q s) : Good q (State.portRecv p udp m s) := by
  unfold State.portRecv
  repeat' first
    | with_reducible assumption
    | intro _
    | with_reducible apply good_ite
    | with_reducible apply State.portDrop_keeps
    | with_reducible apply State.upPort_keeps
    | with_reducible apply State.qStore_keeps
    | (extract_lets +onlyGivenNames x
       first
         | (refine good_cut (q := q) x ?cv ?ck
            case' ck => (intro hx; clear_value x)
            case' cv => (unfold x; clear x))
         | (refine good_cut_fst (q := q) x ?cv ?ck
            case' ck => (intro hx; clear_value x)
            case' cv => (unfold x; clear x))
         | (refine good_cut_snd (q := q) x ?cv ?ck
            case' ck => (intro hx; clear_value x)
            case' cv => (unfold x; clear x))
         | skip)
    | split
    | with_reducible apply good_mk
    | with_reducible rfl

theorem State.arpAsk_keeps {q : List Instr} (p : Nat) (s : State) (h : Good q s) : Good q (State.arpAsk p s) := by
  unfold State.arpAsk
  repeat' first
    | with_reducible assumption
    | intro _
    | with_reducible apply State.upPort_keeps

theorem State.arpIn_keeps {q : List Instr} (p : Nat) (d : List Byte) (s : State) (h : Good q s) : Good q (State.arpIn p d s) := by
  unfold State.arpIn
  repeat' first
    | with_reducible assumption
    | intro _
    | with_reducible apply good_ite
    | with_reducible apply State.put_keeps
    | with_reducible apply State.upPort_keeps
    | with_reducible apply State.portGo_keeps

theorem opArpRefresh_keeps {q : List Instr} (p : Nat) (s : State) (h : Good q s) : Good q (opArpRefresh p s) := by
  unfold opArpRefresh
  repeat' first
    | with_reducible assumption
    | intro _
    | with_reducible apply good_ite
    | with_reducible apply State.put_keeps
    | with_reducible apply State.portErr_keeps
    | with_reducible apply State.upPort_keeps
    | with_reducible apply State.arpAsk_keeps

theorem State.icmpIn_keeps {q : List Instr} (p : Nat) (mac : List Byte) (src : Nat) (d : List Byte) (s : State) (h : Good q s) : Good q (State.icmpIn p mac src d s) := by
  unfold State.icmpIn
  repeat' first
    | with_reducible assumption
    | intro _
    | with_reducible apply good_ite
    | with_reducible apply State.upPort_keeps
    | (extract_lets +onlyGivenNames x
       first
         | (refine good_cut (q := q) x ?cv ?ck
            case' ck => (intro hx; clear_value x)
            case' cv => (unfold x; clear x))
         | (refine good_cut_fst (q := q) x ?cv ?ck
            case' ck => (intro hx; clear_value x)
            case' cv => (unfold x; clear x))
         | (refine good_cut_snd (q := q) x ?cv ?ck
            case' ck => (intro hx; clear_value x)
            case' cv => (unfold x; clear x))
         | skip)
    | split
    | with_reducible apply good_mk
    | with_reducible rfl

theorem State.udpIn_keeps {q : List Instr} (p : Nat) (src : Nat) (u : List Byte) (s : State) (h : Good q s) : Good q (State.udpIn p src u s) := by
  unfold State.udpIn
  repeat' first
    | with_reducible assumption
    | intro _
    | with_reducible apply good_ite
    | with_reducible apply State.portDrop_keeps
    | with_reducible apply State.portRecv_keeps

theorem State.ipIn_keeps {q : List Instr} (p : Nat) (mac : List Byte) (d : List Byte) (s : State) (h : Good q s) : Good q (State.ipIn p mac d s) := by
  unfold State.ipIn
  repeat' first
    | with_reducible assumption
    | intro _
    | with_reducible apply good_ite
    | with_reducible apply State.udpIn_keeps
    | with_reducible apply State.icmpIn_keeps
    | (extract_lets +onlyGivenNames x
       first
         | (refine good_cut (q := q) x ?cv ?ck
            case' ck => (intro hx; clear_value x)
            case' cv => (unfold x; clear x))
         | (refine good_cut_fst (q := q) x ?cv ?ck
            case' ck => (intro hx; clear_value x)
            case' cv => (unfold x; clear x))
         | (refine good_cut_snd (q := q) x ?cv ?ck
            case' ck => (intro hx; clear_value x)
            case' cv => (unfold x; clear x))
         | skip)
    | split

theorem State.frameIn_keeps {q : List Instr} (p : Nat) (f : List Byte) (s : State) (h : Good q s) : Good q (State.frameIn p f s) := by
  unfold State.frameIn
  repeat' first
    | with_reducible assumption
    | intro _
    | with_reducible apply good_ite
    | with_reducible apply State.portErr_keeps
    | with_reducible apply State.raise_keeps
    | with_reducible apply State.arpIn_keeps
    | with_reducible apply State.ipIn_keeps
    | (extract_lets +onlyGivenNames x
       first
         | (refine good_cut (q := q) x ?cv ?ck
            case' ck => (intro hx; clear_value x)
            case' cv => (unfold x; clear x))
         | (refine good_cut_fst (q := q) x ?cv ?ck
            case' ck => (intro hx; clear_value x)
            case' cv => (unfold x; clear x))
         | (refine good_cut_snd (q := q) x ?cv ?ck
            case' ck => (intro hx; clear_value x)
            case' cv => (unfold x; clear x))
         | skip)
    | split
    | with_reducible apply good_mk
    | with_reducible rfl

theorem opEthernetFrameReceived_keeps {q : List Instr} (p : Nat) (f : List Byte) (s : State) (h : Good q s) : Good q (opEthernetFrameReceived p f s) := by
  unfold opEthernetFrameReceived
  repeat' first
    | with_reducible assumption
    | intro _
    | with_reducible apply State.frameIn_keeps

theorem opArpRequestReceived_keeps {q : List Instr} (p : Nat) (f : List Byte) (s : State) (h : Good q s) : Good q (opArpRequestReceived p f s) := by
  unfold opArpRequestReceived
  repeat' first
    | with_reducible assumption
    | intro _
    | with_reducible apply good_ite
    | with_reducible apply State.frameIn_keeps

theorem opIcmpEchoRequest_keeps {q : List Instr} (p : Nat) (f : List Byte) (s : State) (h : Good q s) : Good q (opIcmpEchoRequest p f s) := by
  unfold opIcmpEchoRequest
  repeat' first
    | with_reducible assumption
    | intro _
    | with_reducible apply good_ite
    | with_reducible apply State.frameIn_keeps

theorem opPhyLinkPoll_keeps {q : List Instr} (p : Nat) (up : Bool) (s : State) (h : Good q s) : Good q (opPhyLinkPoll p up s) := by
  unfold opPhyLinkPoll
  repeat' first
    | with_reducible assumption
    | intro _
    | with_reducible apply good_ite
    | with_reducible apply State.put_keeps
    | with_reducible apply State.portGo_keeps
    | with_reducible apply State.portErr_keeps
    | with_reducible apply State.partnerLost_keeps
    | (extract_lets +onlyGivenNames x
       first
         | (refine good_cut (q := q) x ?cv ?ck
            case' ck => (intro hx; clear_value x)
            case' cv => (unfold x; clear x))
         | (refine good_cut_fst (q := q) x ?cv ?ck
            case' ck => (intro hx; clear_value x)
            case' cv => (unfold x; clear x))
         | (refine good_cut_snd (q := q) x ?cv ?ck
            case' ck => (intro hx; clear_value x)
            case' cv => (unfold x; clear x))
         | skip)
    | split

theorem State.reasmPut_keeps {q : List Instr} (p : Nat) (cls : Nat) (r : Option Reasm) (s : State) (h : Good q s) : Good q (State.reasmPut p cls r s) := by
  unfold State.reasmPut
  repeat' first
    | with_reducible assumption
    | intro _
    | with_reducible apply State.upPort_keeps

theorem State.segment_keeps {q : List Instr} (p : Nat) (cls : Nat) (low : Nat) (b : List Byte) (seg : List Byte) (nxt : Nat) (s : State) (h : Good q s) : Good q (State.segment p cls low b seg nxt s) := by
  unfold State.segment
  repeat' first
    | with_reducible assumption
    | intro _
    | with_reducible apply good_ite
    | with_reducible apply State.portRecv_keeps
    | with_reducible apply State.reasmPut_keeps
    | with_reducible apply State.portDrop_keeps

theorem opCanFrameReceived_keeps {q : List Instr} (p : Nat) (id : Nat) (ext : Bool) (fd : Bool) (d : List Byte) (s : State) (h : Good q s) : Good q (opCanFrameReceived p id ext fd d s) := by
  unfold opCanFrameReceived
  repeat' first
    | with_reducible assumption
    | intro _
    | with_reducible apply good_ite
    | with_reducible apply good_ite_fst
    | with_reducible apply good_ite_snd
    | with_reducible apply State.put_keeps
    | with_reducible apply State.free_keeps
    | with_reducible apply State.canState_keeps
    | with_reducible apply State.portDrop_keeps
    | with_reducible apply State.raise_keeps
    | with_reducible apply State.segment_keeps
    | with_reducible apply State.reasmPut_keeps
    | (extract_lets +onlyGivenNames x
       first
         | (refine good_cut (q := q) x ?cv ?ck
            case' ck => (intro hx; clear_value x)
            case' cv => (unfold x; clear x))
         | (refine good_cut_fst (q := q) x ?cv ?ck
            case' ck => (intro hx; clear_value x)
            case' cv => (unfold x; clear x))
         | (refine good_cut_snd (q := q) x ?cv ?ck
            case' ck => (intro hx; clear_value x)
            case' cv => (unfold x; clear x))
         | skip)
    | split

theorem opCanReassemblyTimeout_keeps {q : List Instr} (p : Nat) (cls : Nat) (s : State) (h : Good q s) : Good q (opCanReassemblyTimeout p cls s) := by
  unfold opCanReassemblyTimeout
  repeat' first
    | with_reducible assumption
    | intro _
    | with_reducible apply good_ite
    | with_reducible apply State.portDrop_keeps
    | with_reducible apply State.reasmPut_keeps

theorem opCanBusError_keeps {q : List Instr} (p : Nat) (tx : Bool) (heavy : Bool) (crc : Bool) (s : State) (h : Good q s) : Good q (opCanBusError p tx heavy crc s) := by
  unfold opCanBusError
  repeat' first
    | with_reducible assumption
    | intro _
    | with_reducible apply good_ite
    | with_reducible apply State.put_keeps
    | with_reducible apply State.portErr_keeps
    | with_reducible apply State.partnerLost_keeps
    | with_reducible apply State.upPort_keeps
    | with_reducible apply State.canState_keeps
    | with_reducible apply State.bump_keeps

theorem State.canFresh_keeps {q : List Instr} (p : Nat) (s : State) (h : Good q s) : Good q (State.canFresh p s) := by
  unfold State.canFresh
  repeat' first
    | with_reducible assumption
    | intro _
    | with_reducible apply State.put_keeps

theorem opCanBusOffRecovery_keeps {q : List Instr} (p : Nat) (s : State) (h : Good q s) : Good q (opCanBusOffRecovery p s) := by
  unfold opCanBusOffRecovery
  repeat' first
    | with_reducible assumption
    | intro _
    | with_reducible apply good_ite
    | with_reducible apply State.portGo_keeps
    | with_reducible apply State.canFresh_keeps

theorem opPartnerLost_keeps {q : List Instr} (p : Nat) (s : State) (h : Good q s) : Good q (opPartnerLost p s) := by
  unfold opPartnerLost
  repeat' first
    | with_reducible assumption
    | intro _
    | with_reducible apply good_ite
    | with_reducible apply State.partnerLost_keeps
    | with_reducible apply State.advance_keeps

theorem opFpEnWrite_keeps {q : List Instr} (p : Nat) (en : Bool) (s : State) (h : Good q s) : Good q (opFpEnWrite p en s) := by
  unfold opFpEnWrite
  repeat' first
    | with_reducible assumption
    | intro _
    | with_reducible apply good_ite
    | with_reducible apply State.put_keeps
    | with_reducible apply State.upPort_keeps
    | with_reducible apply State.canFresh_keeps
    | with_reducible apply State.arpAsk_keeps
    | (extract_lets +onlyGivenNames x
       first
         | (refine good_cut (q := q) x ?cv ?ck
            case' ck => (intro hx; clear_value x)
            case' cv => (unfold x; clear x))
         | (refine good_cut_fst (q := q) x ?cv ?ck
            case' ck => (intro hx; clear_value x)
            case' cv => (unfold x; clear x))
         | (refine good_cut_snd (q := q) x ?cv ?ck
            case' ck => (intro hx; clear_value x)
            case' cv => (unfold x; clear x))
         | skip)
    | split
    | with_reducible apply good_mk
    | with_reducible rfl

theorem State.rmapWrite_keeps {q : List Instr} (p : Nat) (k : Nat) (op : State → State) (s : State) (hfop : ∀ x0, Good q x0 → Good q (op x0)) (h : Good q s) : Good q (State.rmapWrite p k op s) := by
  unfold State.rmapWrite
  repeat' first
    | with_reducible assumption
    | intro _
    | with_reducible apply good_ite
    | with_reducible apply hfop
    | with_reducible apply State.put_keeps
    | with_reducible apply State.upPort_keeps
    | (extract_lets +onlyGivenNames x
       first
         | (refine good_cut (q := q) x ?cv ?ck
            case' ck => (intro hx; clear_value x)
            case' cv => (unfold x; clear x))
         | (refine good_cut_fst (q := q) x ?cv ?ck
            case' ck => (intro hx; clear_value x)
            case' cv => (unfold x; clear x))
         | (refine good_cut_snd (q := q) x ?cv ?ck
            case' ck => (intro hx; clear_value x)
            case' cv => (unfold x; clear x))
         | skip)
    | split
    | with_reducible apply good_mk
    | with_reducible rfl

theorem rmapA_keeps {q : List Instr} (p : Nat) (k : Nat) (v : Nat) (s : State) (h : Good q s) : Good q (rmapA p k v s) := by
  unfold rmapA
  repeat' first
    | with_reducible assumption
    | intro _
    | with_reducible apply good_ite
    | with_reducible apply State.put_keeps
    | (extract_lets +onlyGivenNames x
       first
         | (refine good_cut (q := q) x ?cv ?ck
            case' ck => (intro hx; clear_value x)
            case' cv => (unfold x; clear x))
         | (refine good_cut_fst (q := q) x ?cv ?ck
            case' ck => (intro hx; clear_value x)
            case' cv => (unfold x; clear x))
         | (refine good_cut_snd (q := q) x ?cv ?ck
            case' ck => (intro hx; clear_value x)
            case' cv => (unfold x; clear x))
         | skip)
    | split

theorem rmapB_keeps {q : List Instr} (p : Nat) (k : Nat) (v : Nat) (s : State) (h : Good q s) : Good q (rmapB p k v s) := by
  unfold rmapB
  repeat' first
    | with_reducible assumption
    | intro _
    | with_reducible apply good_ite
    | with_reducible apply State.put_keeps
    | (extract_lets +onlyGivenNames x
       first
         | (refine good_cut (q := q) x ?cv ?ck
            case' ck => (intro hx; clear_value x)
            case' cv => (unfold x; clear x))
         | (refine good_cut_fst (q := q) x ?cv ?ck
            case' ck => (intro hx; clear_value x)
            case' cv => (unfold x; clear x))
         | (refine good_cut_snd (q := q) x ?cv ?ck
            case' ck => (intro hx; clear_value x)
            case' cv => (unfold x; clear x))
         | skip)
    | split

end Sys2Proof.Machine
end

