-- ==== Sys2Proof/Laws/KeepsCrypto.lean ====
section
/-! SUPPORT. Laws/KeepsCrypto.lean: every operation of Machine/Crypto.lean keeps `Good`. -/

namespace Sys2Proof.Machine

theorem State.setKey_keeps {q : List Instr} (k : Nat) (v : List Byte) (s : State) (h : Good q s) : Good q (State.setKey k v s) := by
  unfold State.setKey
  repeat' first
    | with_reducible assumption
    | intro _
    | (extract_lets +onlyGivenNames x
       first
         | (refine good_cut (q := q) x ?cv ?ck
            case' ck => (intro hx; clear_value x)
            case' cv => (unfold x; clear x))
         | (refine good_cut_fst (q := q) x ?cv ?ck
            case' ck => (intro hx; clear_value x)
            case' cv => (unfold x; clear x))
         | (refine good_cut_snd (q := q) x ?cv ?ck
            case' ck => (intro hx; clear_value x)
            case' cv => (unfold x; clear x))
         | skip)
    | with_reducible apply good_mk
    | with_reducible rfl

theorem State.jobDone_keeps {q : List Instr} (s : State) (h : Good q s) : Good q (State.jobDone s) := by
  unfold State.jobDone
  repeat' first
    | with_reducible assumption
    | intro _
    | with_reducible apply State.wrapUp_keeps

theorem State.jobRead_keeps {q : List Instr} (y1 : Nat) (y2 : Nat) (y3 : Nat) (y4 : State) (h : Good q y4) : Good q (State.jobRead y1 y2 y3 y4).1 := by
  induction y1 generalizing y2 y3 y4 with
  | zero => exact h
  | succ k ih =>
    simp only [State.jobRead]
    repeat' first
      | with_reducible assumption
      | intro _
      | with_reducible apply good_ite_fst
      | with_reducible apply good_ite
      | with_reducible apply ih
      | with_reducible apply State.check_keeps
      | with_reducible apply State.memRead_keeps

theorem State.jobWrite_keeps {q : List Instr} (y1 : Nat) (y2 : Nat) (y3 : List Byte) (y4 : State) (h : Good q y4) : Good q (State.jobWrite y1 y2 y3 y4).1 := by
  induction y1 generalizing y2 y3 y4 with
  | zero => exact h
  | succ k ih =>
    simp only [State.jobWrite]
    repeat' first
      | with_reducible assumption
      | intro _
      | with_reducible apply good_ite_fst
      | with_reducible apply good_ite
      | with_reducible apply ih
      | with_reducible apply State.check_keeps
      | with_reducible apply State.memWrite_keeps

theorem State.runJob_keeps {q : List Instr} (w0 : Nat) (msg : Nat) (len : Nat) (res : Nat) (s : State) (h : Good q s) : Good q (State.runJob w0 msg len res s).1 := by
  unfold State.runJob
  repeat' first
    | with_reducible assumption
    | intro _
    | with_reducible apply good_ite
    | with_reducible apply good_ite_fst
    | with_reducible apply good_ite_snd
    | with_reducible apply State.jobRead_keeps
    | with_reducible apply State.setKey_keeps
    | with_reducible apply State.jobWrite_keeps
    | (extract_lets +onlyGivenNames x
       first
         | (refine good_cut (q := q) x ?cv ?ck
            case' ck => (intro hx; clear_value x)
            case' cv => (unfold x; clear x))
         | (refine good_cut_fst (q := q) x ?cv ?ck
            case' ck => (intro hx; clear_value x)
            case' cv => (unfold x; clear x))
         | (refine good_cut_snd (q := q) x ?cv ?ck
            case' ck => (intro hx; clear_value x)
            case' cv => (unfold x; clear x))
         | skip)
    | split

theorem State.svJob_keeps {q : List Instr} (a : Nat) (s : State) (h : Good q s) : Good q (State.svJob a s) := by
  unfold State.svJob
  repeat' first
    | with_reducible assumption
    | intro _
    | with_reducible apply good_ite
    | with_reducible apply good_ite_fst
    | with_reducible apply good_ite_snd
    | with_reducible apply State.jobRead_keeps
    | with_reducible apply State.runJob_keeps
    | with_reducible apply State.jobWrite_keeps
    | with_reducible apply State.jobDone_keeps
    | with_reducible apply State.raise_keeps
    | (extract_lets +onlyGivenNames x
       first
         | (refine good_cut (q := q) x ?cv ?ck
            case' ck => (intro hx; clear_value x)
            case' cv => (unfold x; clear x))
         | (refine good_cut_fst (q := q) x ?cv ?ck
            case' ck => (intro hx; clear_value x)
            case' cv => (unfold x; clear x))
         | (refine good_cut_snd (q := q) x ?cv ?ck
            case' ck => (intro hx; clear_value x)
            case' cv => (unfold x; clear x))
         | skip)
    | split

theorem opCryptoSubmit_keeps {q : List Instr} (a : Nat) (s : State) (h : Good q s) : Good q (opCryptoSubmit a s) := by
  unfold opCryptoSubmit
  repeat' first
    | with_reducible assumption
    | intro _
    | with_reducible apply good_ite
    | with_reducible apply good_ite_fst
    | with_reducible apply good_ite_snd
    | with_reducible apply State.jobWrite_keeps
    | with_reducible apply State.jobDone_keeps
    | with_reducible apply State.svJob_keeps
    | with_reducible apply State.qStore_keeps
    | with_reducible apply State.upE_keeps
    | (extract_lets +onlyGivenNames x
       first
         | (refine good_cut (q := q) x ?cv ?ck
            case' ck => (intro hx; clear_value x)
            case' cv => (unfold x; clear x))
         | (refine good_cut_fst (q := q) x ?cv ?ck
            case' ck => (intro hx; clear_value x)
            case' cv => (unfold x; clear x))
         | (refine good_cut_snd (q := q) x ?cv ?ck
            case' ck => (intro hx; clear_value x)
            case' cv => (unfold x; clear x))
         | skip)
    | split
    | with_reducible apply good_mk
    | with_reducible rfl

theorem State.mapUnsent_keeps {q : List Instr} (j : CmJob) (s : State) (h : Good q s) : Good q (State.mapUnsent j s) := by
  unfold State.mapUnsent
  repeat' first
    | with_reducible assumption
    | intro _
    | with_reducible apply good_ite
    | with_reducible apply State.put_keeps
    | (extract_lets +onlyGivenNames x
       first
         | (refine good_cut (q := q) x ?cv ?ck
            case' ck => (intro hx; clear_value x)
            case' cv => (unfold x; clear x))
         | (refine good_cut_fst (q := q) x ?cv ?ck
            case' ck => (intro hx; clear_value x)
            case' cv => (unfold x; clear x))
         | (refine good_cut_snd (q := q) x ?cv ?ck
            case' ck => (intro hx; clear_value x)
            case' cv => (unfold x; clear x))
         | skip)
    | split
    | with_reducible apply good_mk
    | with_reducible rfl

theorem State.mapJob_keeps {q : List Instr} (j : CmJob) (s : State) (h : Good q s) : Good q (State.mapJob j s) := by
  unfold State.mapJob
  repeat' first
    | with_reducible assumption
    | intro _
    | with_reducible apply good_ite
    | with_reducible apply good_ite_fst
    | with_reducible apply good_ite_snd
    | with_reducible apply State.jobDone_keeps
    | with_reducible apply State.portSend_keeps
    | with_reducible apply State.mapUnsent_keeps
    | split

theorem opCryptoJobComplete_keeps {q : List Instr} (s : State) (h : Good q s) : Good q (opCryptoJobComplete s) := by
  unfold opCryptoJobComplete
  repeat' first
    | with_reducible assumption
    | intro _
    | with_reducible apply good_ite
    | with_reducible apply State.qRead_keeps
    | with_reducible apply State.mapJob_keeps
    | with_reducible apply State.svJob_keeps
    | with_reducible apply State.qStore_keeps
    | with_reducible apply State.upE_keeps
    | (extract_lets +onlyGivenNames x
       first
         | (refine good_cut (q := q) x ?cv ?ck
            case' ck => (intro hx; clear_value x)
            case' cv => (unfold x; clear x))
         | (refine good_cut_fst (q := q) x ?cv ?ck
            case' ck => (intro hx; clear_value x)
            case' cv => (unfold x; clear x))
         | (refine good_cut_snd (q := q) x ?cv ?ck
            case' ck => (intro hx; clear_value x)
            case' cv => (unfold x; clear x))
         | skip)
    | split
    | with_reducible apply good_mk
    | with_reducible rfl

theorem opCryptoKeydata_keeps {q : List Instr} (v : Nat) (s : State) (h : Good q s) : Good q (opCryptoKeydata v s) := by
  unfold opCryptoKeydata
  repeat' first
    | with_reducible assumption
    | intro _
    | with_reducible apply good_ite
    | with_reducible apply State.put_keeps
    | with_reducible apply State.setKey_keeps

theorem opCryptoKeyclr_keeps {q : List Instr} (m : Nat) (s : State) (h : Good q s) : Good q (opCryptoKeyclr m s) := by
  unfold opCryptoKeyclr
  repeat' first
    | with_reducible assumption
    | intro _
    | (extract_lets +onlyGivenNames x
       first
         | (refine good_cut (q := q) x ?cv ?ck
            case' ck => (intro hx; clear_value x)
            case' cv => (unfold x; clear x))
         | (refine good_cut_fst (q := q) x ?cv ?ck
            case' ck => (intro hx; clear_value x)
            case' cv => (unfold x; clear x))
         | (refine good_cut_snd (q := q) x ?cv ?ck
            case' ck => (intro hx; clear_value x)
            case' cv => (unfold x; clear x))
         | skip)
    | with_reducible apply good_mk
    | with_reducible rfl

theorem State.rng_keeps {q : List Instr} (s : State) (h : Good q s) : Good q (State.rng s).2 := by
  unfold State.rng
  repeat' first
    | with_reducible assumption
    | intro _
    | (extract_lets +onlyGivenNames x
       first
         | (refine good_cut (q := q) x ?cv ?ck
            case' ck => (intro hx; clear_value x)
            case' cv => (unfold x; clear x))
         | (refine good_cut_fst (q := q) x ?cv ?ck
            case' ck => (intro hx; clear_value x)
            case' cv => (unfold x; clear x))
         | (refine good_cut_snd (q := q) x ?cv ?ck
            case' ck => (intro hx; clear_value x)
            case' cv => (unfold x; clear x))
         | skip)
    | with_reducible apply good_mk
    | with_reducible rfl

theorem State.nonce_keeps {q : List Instr} (s : State) (h : Good q s) : Good q (State.nonce s).2 := by
  unfold State.nonce
  repeat' first
    | with_reducible assumption
    | intro _
    | with_reducible apply State.rng_keeps
    | with_reducible apply good_foldl
    | with_reducible apply good_foldl_fst
    | with_reducible apply good_foldl_snd

theorem opCryptoRngRead_keeps {q : List Instr} (s : State) (h : Good q s) : Good q (opCryptoRngRead s) := by
  unfold opCryptoRngRead
  repeat' first
    | with_reducible assumption
    | intro _
    | with_reducible apply State.rng_keeps

end Sys2Proof.Machine
end

