-- ==== Sys2Proof/Laws/KeepsUpd.lean ====
section
/-! SUPPORT. Laws/KeepsUpd.lean: every operation of Machine/Upd.lean keeps `Good`. -/

namespace Sys2Proof.Machine

theorem State.bankTouched_keeps {q : List Instr} (b : Nat) (s : State) (h : Good q s) : Good q (State.bankTouched b s) := by
  unfold State.bankTouched
  repeat' first
    | with_reducible assumption
    | intro _
    | with_reducible apply good_ite
    | with_reducible apply State.put_keeps
    | (extract_lets +onlyGivenNames x
       first
         | (refine good_cut (q := q) x ?cv ?ck
            case' ck => (intro hx; clear_value x)
            case' cv => (unfold x; clear x))
         | (refine good_cut_fst (q := q) x ?cv ?ck
            case' ck => (intro hx; clear_value x)
            case' cv => (unfold x; clear x))
         | (refine good_cut_snd (q := q) x ?cv ?ck
            case' ck => (intro hx; clear_value x)
            case' cv => (unfold x; clear x))
         | skip)
    | with_reducible apply good_mk
    | split
    | with_reducible rfl

theorem State.norErase_keeps {q : List Instr} (a : Nat) (n : Nat) (s : State) (h : Good q s) : Good q (State.norErase a n s) := by
  exact ⟨h.queue, h.mem, h.back, h.work, cellsWf_filter _ _ h.nor, h.arr, h.snap, h.brick, h.fifo, h.logq, h.ram, h.farm⟩

theorem State.norProgram_keeps {q : List Instr} (a : Nat) (d : List Byte) (s : State) (h : Good q s) : Good q (State.norProgram a d s) := by
  unfold State.norProgram
  repeat' first
    | with_reducible assumption
    | intro _
    | with_reducible apply State.setNor_keeps

theorem State.putFbuf_keeps {q : List Instr} (o : Nat) (d : List Byte) (s : State) (h : Good q s) : Good q (State.putFbuf o d s) := by
  unfold State.putFbuf
  repeat' first
    | with_reducible assumption
    | intro _
    | with_reducible apply good_ite
    | with_reducible apply State.bufStore_keeps
    | with_reducible apply good_mk
    | with_reducible rfl

theorem State.updErr_keeps {q : List Instr} (code : Nat) (s : State) (h : Good q s) : Good q (State.updErr code s) := by
  unfold State.updErr
  repeat' first
    | with_reducible assumption
    | intro _
    | with_reducible apply State.put_keeps

theorem State.flashStart_keeps {q : List Instr} (op : Nat) (a : Nat) (len : Nat) (s : State) (h : Good q s) : Good q (State.flashStart op a len s) := by
  unfold State.flashStart
  repeat' first
    | with_reducible assumption
    | intro _
    | with_reducible apply good_ite
    | with_reducible apply good_ite_fst
    | with_reducible apply good_ite_snd
    | with_reducible apply State.put_keeps
    | with_reducible apply State.updErr_keeps
    | with_reducible apply State.bankTouched_keeps
    | (extract_lets +onlyGivenNames x
       first
         | (refine good_cut (q := q) x ?cv ?ck
            case' ck => (intro hx; clear_value x)
            case' cv => (unfold x; clear x))
         | (refine good_cut_fst (q := q) x ?cv ?ck
            case' ck => (intro hx; clear_value x)
            case' cv => (unfold x; clear x))
         | (refine good_cut_snd (q := q) x ?cv ?ck
            case' ck => (intro hx; clear_value x)
            case' cv => (unfold x; clear x))
         | skip)
    | split
    | with_reducible apply good_mk
    | with_reducible rfl

theorem opFlashOperationComplete_keeps {q : List Instr} (ok : Bool) (s : State) (h : Good q s) : Good q (opFlashOperationComplete ok s) := by
  unfold opFlashOperationComplete
  repeat' first
    | with_reducible assumption
    | intro _
    | with_reducible apply good_ite
    | with_reducible apply State.put_keeps
    | with_reducible apply State.bufRead_keeps
    | with_reducible apply State.norProgram_keeps
    | with_reducible apply State.updErr_keeps
    | with_reducible apply State.norErase_keeps
    | (extract_lets +onlyGivenNames x
       first
         | (refine good_cut (q := q) x ?cv ?ck
            case' ck => (intro hx; clear_value x)
            case' cv => (unfold x; clear x))
         | (refine good_cut_fst (q := q) x ?cv ?ck
            case' ck => (intro hx; clear_value x)
            case' cv => (unfold x; clear x))
         | (refine good_cut_snd (q := q) x ?cv ?ck
            case' ck => (intro hx; clear_value x)
            case' cv => (unfold x; clear x))
         | skip)
    | split
    | with_reducible apply good_mk
    | with_reducible rfl

theorem opUpdSectorErase_keeps {q : List Instr} (a : Nat) (s : State) (h : Good q s) : Good q (opUpdSectorErase a s) := by
  unfold opUpdSectorErase
  repeat' first
    | with_reducible assumption
    | intro _
    | with_reducible apply State.put_keeps
    | with_reducible apply State.flashStart_keeps

theorem opUpdBlockErase_keeps {q : List Instr} (a : Nat) (s : State) (h : Good q s) : Good q (opUpdBlockErase a s) := by
  unfold opUpdBlockErase
  repeat' first
    | with_reducible assumption
    | intro _
    | with_reducible apply State.put_keeps
    | with_reducible apply State.flashStart_keeps

theorem opUpdProgram_keeps {q : List Instr} (a : Nat) (d : List Byte) (s : State) (h : Good q s) : Good q (opUpdProgram a d s) := by
  unfold opUpdProgram
  repeat' first
    | with_reducible assumption
    | intro _
    | with_reducible apply good_ite
    | with_reducible apply State.putFbuf_keeps
    | with_reducible apply State.put_keeps
    | with_reducible apply State.flashStart_keeps
    | split

theorem opUpdCrc_keeps {q : List Instr} (a : Nat) (n : Nat) (s : State) (h : Good q s) : Good q (opUpdCrc a n s) := by
  unfold opUpdCrc
  repeat' first
    | with_reducible assumption
    | intro _
    | with_reducible apply State.put_keeps
    | with_reducible apply State.flashStart_keeps

theorem State.bootWrite_keeps {q : List Instr} (pref : Nat) (prev : Nat) (limit : Nat) (confirmed : Bool) (s : State) (h : Good q s) : Good q (State.bootWrite pref prev limit confirmed s) := by
  unfold State.bootWrite
  repeat' first
    | with_reducible assumption
    | intro _
    | with_reducible apply good_ite
    | with_reducible apply State.norProgram_keeps
    | with_reducible apply State.norErase_keeps

theorem State.bootConfirm_keeps {q : List Instr} (s : State) (h : Good q s) : Good q (State.bootConfirm s) := by
  unfold State.bootConfirm
  repeat' first
    | with_reducible assumption
    | intro _
    | with_reducible apply State.put_keeps
    | with_reducible apply State.norProgram_keeps
    | split

theorem State.bootTry_keeps {q : List Instr} (s : State) (h : Good q s) : Good q (State.bootTry s) := by
  unfold State.bootTry
  repeat' first
    | with_reducible assumption
    | intro _
    | with_reducible apply State.norProgram_keeps
    | (extract_lets +onlyGivenNames x
       first
         | (refine good_cut (q := q) x ?cv ?ck
            case' ck => (intro hx; clear_value x)
            case' cv => (unfold x; clear x))
         | (refine good_cut_fst (q := q) x ?cv ?ck
            case' ck => (intro hx; clear_value x)
            case' cv => (unfold x; clear x))
         | (refine good_cut_snd (q := q) x ?cv ?ck
            case' ck => (intro hx; clear_value x)
            case' cv => (unfold x; clear x))
         | skip)
    | split

end Sys2Proof.Machine
end

