-- ==== Sys2Proof/Laws/KeepsDebug.lean ====
section
/-! SUPPORT. Laws/KeepsDebug.lean: every operation of Machine/Debug.lean keeps `Good`. -/

namespace Sys2Proof.Machine

theorem State.halt1_keeps {q : List Instr} (e : Nat) (force : Bool) (s : State) (h : Good q s) : Good q (State.halt1 e force s) := by
  unfold State.halt1
  repeat' first
    | with_reducible assumption
    | intro _
    | with_reducible apply good_ite
    | with_reducible apply State.haltRequest_keeps
    | with_reducible apply State.stopFollowing_keeps
    | with_reducible apply State.outRefresh_keeps
    | with_reducible apply State.crossTrigger_keeps

theorem opHaltRequest_keeps {q : List Instr} (mask : Nat) (force : Bool) (s : State) (h : Good q s) : Good q (opHaltRequest mask force s) := by
  unfold opHaltRequest
  repeat' first
    | with_reducible assumption
    | intro _
    | with_reducible apply State.halt1_keeps
    | with_reducible apply good_forAll

theorem State.unhalt_keeps {q : List Instr} (e : Nat) (s : State) (h : Good q s) : Good q (State.unhalt e s) := by
  unfold State.unhalt
  repeat' first
    | with_reducible assumption
    | intro _
    | with_reducible apply good_ite
    | with_reducible apply State.svWatch_keeps
    | with_reducible apply State.putBit_keeps
    | with_reducible apply State.put_keeps
    | with_reducible apply State.upE_keeps
    | (extract_lets +onlyGivenNames x
       first
         | (refine good_cut (q := q) x ?cv ?ck
            case' ck => (intro hx; clear_value x)
            case' cv => (unfold x; clear x))
         | (refine good_cut_fst (q := q) x ?cv ?ck
            case' ck => (intro hx; clear_value x)
            case' cv => (unfold x; clear x))
         | (refine good_cut_snd (q := q) x ?cv ?ck
            case' ck => (intro hx; clear_value x)
            case' cv => (unfold x; clear x))
         | skip)
    | split
    | with_reducible apply good_mk
    | with_reducible rfl

theorem State.resume1_keeps {q : List Instr} (e : Nat) (s : State) (h : Good q s) : Good q (State.resume1 e s) := by
  unfold State.resume1
  repeat' first
    | with_reducible assumption
    | intro _
    | with_reducible apply good_ite
    | with_reducible apply State.unhalt_keeps
    | (extract_lets +onlyGivenNames x
       first
         | (refine good_cut (q := q) x ?cv ?ck
            case' ck => (intro hx; clear_value x)
            case' cv => (unfold x; clear x))
         | (refine good_cut_fst (q := q) x ?cv ?ck
            case' ck => (intro hx; clear_value x)
            case' cv => (unfold x; clear x))
         | (refine good_cut_snd (q := q) x ?cv ?ck
            case' ck => (intro hx; clear_value x)
            case' cv => (unfold x; clear x))
         | skip)
    | split

theorem opResumeRequest_keeps {q : List Instr} (mask : Nat) (s : State) (h : Good q s) : Good q (opResumeRequest mask s) := by
  unfold opResumeRequest
  repeat' first
    | with_reducible assumption
    | intro _
    | with_reducible apply State.outRefresh_keeps
    | with_reducible apply State.resume1_keeps
    | with_reducible apply good_forAll

theorem State.step1_keeps {q : List Instr} (e : Nat) (s : State) (h : Good q s) : Good q (State.step1 e s) := by
  unfold State.step1
  repeat' first
    | with_reducible assumption
    | intro _
    | with_reducible apply good_ite
    | with_reducible apply State.put_keeps
    | with_reducible apply State.upE_keeps
    | (extract_lets +onlyGivenNames x
       first
         | (refine good_cut (q := q) x ?cv ?ck
            case' ck => (intro hx; clear_value x)
            case' cv => (unfold x; clear x))
         | (refine good_cut_fst (q := q) x ?cv ?ck
            case' ck => (intro hx; clear_value x)
            case' cv => (unfold x; clear x))
         | (refine good_cut_snd (q := q) x ?cv ?ck
            case' ck => (intro hx; clear_value x)
            case' cv => (unfold x; clear x))
         | skip)
    | split
    | with_reducible apply good_mk
    | with_reducible rfl

theorem opStepRequest_keeps {q : List Instr} (mask : Nat) (s : State) (h : Good q s) : Good q (opStepRequest mask s) := by
  unfold opStepRequest
  repeat' first
    | with_reducible assumption
    | intro _
    | with_reducible apply State.step1_keeps
    | with_reducible apply good_forAll

theorem State.haltReq_keeps {q : List Instr} (v : Nat) (s : State) (h : Good q s) : Good q (State.haltReq v s) := by
  unfold State.haltReq
  repeat' first
    | with_reducible assumption
    | intro _
    | with_reducible apply opStepRequest_keeps
    | with_reducible apply opResumeRequest_keeps
    | with_reducible apply opHaltRequest_keeps

theorem State.portSet_keeps {q : List Instr} (e : Nat) (bank : Nat) (p : Nat) (v : Nat) (s : State) (h : Good q s) : Good q (State.portSet e bank p v s) := by
  unfold State.portSet
  repeat' first
    | with_reducible assumption
    | intro _
    | with_reducible apply good_ite
    | with_reducible apply State.upE_keeps
    | (extract_lets +onlyGivenNames x
       first
         | (refine good_cut (q := q) x ?cv ?ck
            case' ck => (intro hx; clear_value x)
            case' cv => (unfold x; clear x))
         | (refine good_cut_fst (q := q) x ?cv ?ck
            case' ck => (intro hx; clear_value x)
            case' cv => (unfold x; clear x))
         | (refine good_cut_snd (q := q) x ?cv ?ck
            case' ck => (intro hx; clear_value x)
            case' cv => (unfold x; clear x))
         | skip)
    | split

theorem opEeDataWrite_keeps {q : List Instr} (e : Nat) (v : Nat) (s : State) (h : Good q s) : Good q (opEeDataWrite e v s) := by
  unfold opEeDataWrite
  repeat' first
    | with_reducible assumption
    | intro _
    | with_reducible apply State.portSet_keeps

theorem State.lantCtl_keeps {q : List Instr} (v : Nat) (s : State) (h : Good q s) : Good q (State.lantCtl v s) := by
  unfold State.lantCtl
  repeat' first
    | with_reducible assumption
    | intro _
    | with_reducible apply good_ite
    | with_reducible apply State.put_keeps
    | with_reducible apply State.outRefresh_keeps
    | with_reducible apply State.haltAwait_keeps
    | with_reducible apply good_forAll

theorem State.debugEnd_keeps {q : List Instr} (s : State) (h : Good q s) : Good q (State.debugEnd s) := by
  unfold State.debugEnd
  repeat' first
    | with_reducible assumption
    | intro _
    | with_reducible apply good_ite
    | with_reducible apply State.put_keeps
    | with_reducible apply opResumeRequest_keeps
    | with_reducible apply good_forAll

theorem State.emuEnd_keeps {q : List Instr} (s : State) (h : Good q s) : Good q (State.emuEnd s) := by
  unfold State.emuEnd
  repeat' first
    | with_reducible assumption
    | intro _
    | with_reducible apply good_ite
    | with_reducible apply State.powerDown_keeps
    | split

theorem State.wireClose_keeps {q : List Instr} (s : State) (h : Good q s) : Good q (State.wireClose s) := by
  unfold State.wireClose
  repeat' first
    | with_reducible assumption
    | intro _
    | with_reducible apply good_ite
    | with_reducible apply State.put_keeps
    | with_reducible apply State.emuEnd_keeps
    | with_reducible apply State.debugEnd_keeps
    | (extract_lets +onlyGivenNames x
       first
         | (refine good_cut (q := q) x ?cv ?ck
            case' ck => (intro hx; clear_value x)
            case' cv => (unfold x; clear x))
         | (refine good_cut_fst (q := q) x ?cv ?ck
            case' ck => (intro hx; clear_value x)
            case' cv => (unfold x; clear x))
         | (refine good_cut_snd (q := q) x ?cv ?ck
            case' ck => (intro hx; clear_value x)
            case' cv => (unfold x; clear x))
         | skip)
    | with_reducible apply good_mk
    | split
    | with_reducible rfl

theorem State.debugReset_keeps {q : List Instr} (s : State) (h : Good q s) : Good q (State.debugReset s) := by
  unfold State.debugReset
  repeat' first
    | with_reducible assumption
    | intro _
    | with_reducible apply good_ite
    | with_reducible apply good_ite_fst
    | with_reducible apply good_ite_snd
    | with_reducible apply opResumeRequest_keeps
    | with_reducible apply State.wireClose_keeps
    | (extract_lets +onlyGivenNames x
       first
         | (refine good_cut (q := q) x ?cv ?ck
            case' ck => (intro hx; clear_value x)
            case' cv => (unfold x; clear x))
         | (refine good_cut_fst (q := q) x ?cv ?ck
            case' ck => (intro hx; clear_value x)
            case' cv => (unfold x; clear x))
         | (refine good_cut_snd (q := q) x ?cv ?ck
            case' ck => (intro hx; clear_value x)
            case' cv => (unfold x; clear x))
         | skip)
    | with_reducible apply good_mk
    | with_reducible rfl

end Sys2Proof.Machine
end

