-- ==== Sys2Proof/Laws/KeepsView.lean ====
section
/-! SUPPORT. Laws/KeepsView.lean: every operation of Machine/View.lean keeps `Good`. -/

namespace Sys2Proof.Machine

theorem State.regSide_keeps {q : List Instr} (a : Nat) (s : State) (h : Good q s) : Good q (State.regSide a s) := by
  unfold State.regSide
  repeat' first
    | with_reducible assumption
    | intro _
    | with_reducible apply good_ite
    | with_reducible apply State.latchHi_keeps
    | with_reducible apply opRtcSecRead_keeps
    | with_reducible apply State.put_keeps
    | with_reducible apply opSadcFifoPop_keeps
    | with_reducible apply opCryptoRngRead_keeps
    | (extract_lets +onlyGivenNames x
       first
         | (refine good_cut (q := q) x ?cv ?ck
            case' ck => (intro hx; clear_value x)
            case' cv => (unfold x; clear x))
         | (refine good_cut_fst (q := q) x ?cv ?ck
            case' ck => (intro hx; clear_value x)
            case' cv => (unfold x; clear x))
         | (refine good_cut_snd (q := q) x ?cv ?ck
            case' ck => (intro hx; clear_value x)
            case' cv => (unfold x; clear x))
         | skip)
    | split
    | with_reducible apply good_mk
    | with_reducible rfl

theorem State.bufSide_keeps {q : List Instr} (a : Nat) (s : State) (h : Good q s) : Good q (State.bufSide a s) := by
  unfold State.bufSide
  repeat' first
    | with_reducible assumption
    | intro _
    | with_reducible apply good_ite
    | with_reducible apply State.bufRead_keeps
    | split

theorem State.regRead_keeps {q : List Instr} (quiet : Bool) (r : Nat) (a : Nat) (s : State) (h : Good q s) : Good q (State.regRead quiet r a s).1 := by
  unfold State.regRead
  repeat' first
    | with_reducible assumption
    | intro _
    | with_reducible apply good_ite
    | with_reducible apply good_ite_fst
    | with_reducible apply good_ite_snd
    | with_reducible apply State.bufSide_keeps
    | with_reducible apply State.regSide_keeps
    | (extract_lets +onlyGivenNames x
       first
         | (refine good_cut (q := q) x ?cv ?ck
            case' ck => (intro hx; clear_value x)
            case' cv => (unfold x; clear x))
         | (refine good_cut_fst (q := q) x ?cv ?ck
            case' ck => (intro hx; clear_value x)
            case' cv => (unfold x; clear x))
         | (refine good_cut_snd (q := q) x ?cv ?ck
            case' ck => (intro hx; clear_value x)
            case' cv => (unfold x; clear x))
         | skip)
    | split

end Sys2Proof.Machine
end

