-- ==== Sys2Proof/Laws/KeepsRegWrite.lean ====
section
/-! SUPPORT. Laws/KeepsRegWrite.lean: every operation of Machine/RegWrite.lean keeps `Good`. -/

namespace Sys2Proof.Machine

theorem State.fieldWrite_keeps {q : List Instr} (v : Nat) (p : Fam × Nat × Nat) (s : State) (h : Good q s) : Good q (State.fieldWrite v p s) := by
  unfold State.fieldWrite
  repeat' first
    | with_reducible assumption
    | intro _
    | with_reducible apply good_ite
    | with_reducible apply State.put_keeps
    | (extract_lets +onlyGivenNames x
       first
         | (refine good_cut (q := q) x ?cv ?ck
            case' ck => (intro hx; clear_value x)
            case' cv => (unfold x; clear x))
         | (refine good_cut_fst (q := q) x ?cv ?ck
            case' ck => (intro hx; clear_value x)
            case' cv => (unfold x; clear x))
         | (refine good_cut_snd (q := q) x ?cv ?ck
            case' ck => (intro hx; clear_value x)
            case' cv => (unfold x; clear x))
         | skip)
    | split

theorem State.fieldsWrite_keeps {q : List Instr} (a : Nat) (v : Nat) (skip : List Fam) (s : State) (h : Good q s) : Good q (State.fieldsWrite a v skip s) := by
  unfold State.fieldsWrite
  repeat' first
    | with_reducible assumption
    | intro _
    | with_reducible apply State.fieldWrite_keeps
    | with_reducible apply good_foldl

theorem State.ifBit_keeps {q : List Instr} (v : Nat) (b : Nat) (f : State → State) (s : State) (hff : ∀ x0, Good q x0 → Good q (f x0)) (h : Good q s) : Good q (State.ifBit v b f s) := by
  unfold State.ifBit
  repeat' first
    | with_reducible assumption
    | intro _
    | with_reducible apply good_ite
    | with_reducible apply hff

theorem State.domWrite_keeps {q : List Instr} (lo : Nat) (v : Nat) (s : State) (h : Good q s) : Good q (State.domWrite lo v s) := by
  unfold State.domWrite
  repeat' first
    | with_reducible assumption
    | intro _
    | with_reducible apply good_ite
    | with_reducible apply opDomainSwitch_keeps
    | with_reducible apply good_forAll

theorem State.sysWrite_keeps {q : List Instr} (ps : Nat) (o : Nat) (a : Nat) (v : Nat) (s : State) (h : Good q s) : Good q (State.sysWrite ps o a v s) := by
  unfold State.sysWrite
  repeat' first
    | with_reducible assumption
    | intro _
    | with_reducible apply opEccInject_keeps
    | with_reducible apply opModeRequest_keeps
    | with_reducible apply State.ifBit_keeps
    | with_reducible apply opBootcfgStore_keeps
    | with_reducible apply State.fieldsWrite_keeps
    | with_reducible apply State.domWrite_keeps
    | with_reducible apply opRstCmd_keeps
    | with_reducible apply opRstEng_keeps
    | split

theorem State.timeWrite_keeps {q : List Instr} (r : Nat) (ps : Nat) (o : Nat) (a : Nat) (v : Nat) (s : State) (h : Good q s) : Good q (State.timeWrite r ps o a v s) := by
  unfold State.timeWrite
  repeat' first
    | with_reducible assumption
    | intro _
    | with_reducible apply good_ite
    | with_reducible apply State.turnEn_keeps
    | with_reducible apply State.chop_keeps
    | with_reducible apply opTurnPeriodWrite_keeps
    | with_reducible apply opTurnPhaseWrite_keeps
    | with_reducible apply State.fieldsWrite_keeps
    | with_reducible apply State.discChange_keeps
    | with_reducible apply State.ifBit_keeps
    | with_reducible apply opTimeSetcmdGo_keeps
    | with_reducible apply opRtcSetgo_keeps
    | with_reducible apply opCountdownEnable_keeps
    | with_reducible apply opGlintRequest_keeps
    | with_reducible apply opLastWordCopy_keeps
    | (extract_lets +onlyGivenNames x
       first
         | (refine good_cut (q := q) x ?cv ?ck
            case' ck => (intro hx; clear_value x)
            case' cv => (unfold x; clear x))
         | (refine good_cut_fst (q := q) x ?cv ?ck
            case' ck => (intro hx; clear_value x)
            case' cv => (unfold x; clear x))
         | (refine good_cut_snd (q := q) x ?cv ?ck
            case' ck => (intro hx; clear_value x)
            case' cv => (unfold x; clear x))
         | skip)
    | split
    | with_reducible apply good_mk
    | with_reducible rfl

theorem State.shedWrite_keeps {q : List Instr} (e : Nat) (v : Nat) (s : State) (h : Good q s) : Good q (State.shedWrite e v s) := by
  unfold State.shedWrite
  repeat' first
    | with_reducible assumption
    | intro _
    | with_reducible apply good_ite
    | with_reducible apply State.put_keeps
    | with_reducible apply opTskShedClear_keeps

theorem State.tskWrite_keeps {q : List Instr} (o : Nat) (a : Nat) (v : Nat) (s : State) (h : Good q s) : Good q (State.tskWrite o a v s) := by
  unfold State.tskWrite
  repeat' first
    | with_reducible assumption
    | intro _
    | with_reducible apply good_ite
    | with_reducible apply opTskDescriptorWrite_keeps
    | with_reducible apply State.control_keeps
    | with_reducible apply State.shedWrite_keeps
    | with_reducible apply State.ifBit_keeps
    | with_reducible apply opTskClrstat_keeps
    | with_reducible apply State.fieldsWrite_keeps

theorem State.leWrite_keeps {q : List Instr} (e : Nat) (o : Nat) (a : Nat) (v : Nat) (s : State) (h : Good q s) : Good q (State.leWrite e o a v s) := by
  unfold State.leWrite
  repeat' first
    | with_reducible assumption
    | intro _
    | with_reducible apply good_ite
    | with_reducible apply State.ifBit_keeps
    | with_reducible apply opPrgCheck_keeps
    | with_reducible apply opPrgSched_keeps
    | with_reducible apply opPrgCancel_keeps
    | with_reducible apply opPrgSwitchnow_keeps
    | with_reducible apply State.put_keeps
    | with_reducible apply State.inactiveWritten_keeps
    | with_reducible apply opDecCheck_keeps
    | with_reducible apply opDecActivate_keeps
    | with_reducible apply opDecArm_keeps
    | with_reducible apply opDecDisarm_keeps
    | with_reducible apply State.fieldsWrite_keeps
    | split

theorem State.excWrite_keeps {q : List Instr} (o : Nat) (a : Nat) (v : Nat) (m : Nat) (s : State) (h : Good q s) : Good q (State.excWrite o a v m s) := by
  unfold State.excWrite
  repeat' first
    | with_reducible assumption
    | intro _
    | with_reducible apply good_ite
    | with_reducible apply opMirrorWrite_keeps
    | with_reducible apply State.fieldsWrite_keeps
    | with_reducible apply State.ifBit_keeps
    | with_reducible apply opExcCmdPenleave_keeps
    | with_reducible apply opExcCmdPenenter_keeps
    | with_reducible apply opExcCmdRelease_keeps
    | with_reducible apply opExcCmdEnter_keeps
    | with_reducible apply State.ocThresholds_keeps
    | with_reducible apply opSvWatchdogKick_keeps

theorem State.evtWrite_keeps {q : List Instr} (o : Nat) (a : Nat) (v : Nat) (s : State) (h : Good q s) : Good q (State.evtWrite o a v s) := by
  unfold State.evtWrite
  repeat' first
    | with_reducible assumption
    | intro _
    | with_reducible apply good_ite
    | with_reducible apply opEvtInject_keeps
    | with_reducible apply opEvtPendClear_keeps
    | with_reducible apply opEvtEnaWrite_keeps
    | with_reducible apply State.put_keeps
    | with_reducible apply State.fieldsWrite_keeps
    | split

theorem State.chkWrite_keeps {q : List Instr} (o : Nat) (a : Nat) (v : Nat) (s : State) (h : Good q s) : Good q (State.chkWrite o a v s) := by
  unfold State.chkWrite
  repeat' first
    | with_reducible assumption
    | intro _
    | with_reducible apply good_ite
    | with_reducible apply State.ifBit_keeps
    | with_reducible apply opChkDiscard_keeps
    | with_reducible apply opChkCommit_keeps
    | with_reducible apply State.fieldsWrite_keeps

theorem State.keepWrite_keeps {q : List Instr} (o : Nat) (a : Nat) (v : Nat) (s : State) (h : Good q s) : Good q (State.keepWrite o a v s) := by
  unfold State.keepWrite
  repeat' first
    | with_reducible assumption
    | intro _
    | with_reducible apply good_ite
    | with_reducible apply State.keepCtl_keeps
    | with_reducible apply State.ifBit_keeps
    | with_reducible apply opKeepUnlock_keeps
    | with_reducible apply opKeepRelock_keeps
    | with_reducible apply State.put_keeps
    | with_reducible apply State.retainWrite_keeps
    | with_reducible apply opRingRead_keeps
    | with_reducible apply opRingWrite_keeps
    | with_reducible apply opRingDefine_keeps
    | with_reducible apply opRingUndefine_keeps
    | with_reducible apply State.keepSettle_keeps
    | with_reducible apply opScInc_keeps
    | with_reducible apply opScSet_keeps
    | with_reducible apply opRecStore_keeps
    | with_reducible apply State.bufRead_keeps
    | with_reducible apply opRecFind_keeps
    | with_reducible apply opRecDrop_keeps
    | with_reducible apply State.putRecBuf_keeps
    | with_reducible apply State.fieldsWrite_keeps
    | (extract_lets +onlyGivenNames x
       first
         | (refine good_cut (q := q) x ?cv ?ck
            case' ck => (intro hx; clear_value x)
            case' cv => (unfold x; clear x))
         | (refine good_cut_fst (q := q) x ?cv ?ck
            case' ck => (intro hx; clear_value x)
            case' cv => (unfold x; clear x))
         | (refine good_cut_snd (q := q) x ?cv ?ck
            case' ck => (intro hx; clear_value x)
            case' cv => (unfold x; clear x))
         | skip)
    | split
    | with_reducible apply good_mk
    | with_reducible rfl

theorem State.goodPages_keeps {q : List Instr} (s : State) (h : Good q s) : Good q (State.goodPages s).2 := by
  unfold State.goodPages
  repeat' first
    | with_reducible assumption
    | intro _
    | with_reducible apply good_ite
    | with_reducible apply good_ite_fst
    | with_reducible apply good_ite_snd
    | with_reducible apply State.free_keeps
    | with_reducible apply good_foldl
    | with_reducible apply good_foldl_fst
    | with_reducible apply good_foldl_snd

theorem State.logWrite1_keeps {q : List Instr} (o : Nat) (a : Nat) (v : Nat) (s : State) (h : Good q s) : Good q (State.logWrite1 o a v s) := by
  unfold State.logWrite1
  repeat' first
    | with_reducible assumption
    | intro _
    | with_reducible apply good_ite
    | with_reducible apply good_ite_fst
    | with_reducible apply good_ite_snd
    | with_reducible apply State.put_keeps
    | with_reducible apply State.ifBit_keeps
    | with_reducible apply opLogUnpin_keeps
    | with_reducible apply State.fieldsWrite_keeps
    | with_reducible apply State.goodPages_keeps
    | with_reducible apply opLogClrbad_keeps
    | with_reducible apply opLogAppend_keeps

theorem State.rflWrite_keeps {q : List Instr} (o : Nat) (a : Nat) (v : Nat) (s : State) (h : Good q s) : Good q (State.rflWrite o a v s) := by
  unfold State.rflWrite
  repeat' first
    | with_reducible assumption
    | intro _
    | with_reducible apply good_ite
    | with_reducible apply opRflCfgWrite_keeps
    | with_reducible apply State.ifBit_keeps
    | with_reducible apply opRflRepair_keeps
    | with_reducible apply opRflCancel_keeps
    | with_reducible apply opRflSwap_keeps
    | with_reducible apply opRflStop_keeps
    | with_reducible apply opRflRejoin_keeps
    | with_reducible apply State.fieldsWrite_keeps

theorem State.fpField_keeps {q : List Instr} (f : Fam) (p : Nat) (x : Nat) (s : State) (h : Good q s) : Good q (State.fpField f p x s) := by
  unfold State.fpField
  repeat' first
    | with_reducible assumption
    | intro _
    | with_reducible apply good_ite
    | with_reducible apply State.put_keeps
    | split

theorem State.fpWrite_keeps {q : List Instr} (p : Nat) (o : Nat) (a : Nat) (v : Nat) (s : State) (h : Good q s) : Good q (State.fpWrite p o a v s) := by
  unfold State.fpWrite
  repeat' first
    | with_reducible assumption
    | intro _
    | with_reducible apply good_ite
    | with_reducible apply good_ite_fst
    | with_reducible apply good_ite_snd
    | with_reducible apply State.fpField_keeps
    | with_reducible apply State.put_keeps
    | with_reducible apply opFpEnWrite_keeps
    | with_reducible apply State.fieldsWrite_keeps
    | with_reducible apply State.rmapWrite_keeps
    | with_reducible apply rmapA_keeps
    | with_reducible apply rmapB_keeps
    | with_reducible apply good_foldl
    | with_reducible apply good_foldl_fst
    | with_reducible apply good_foldl_snd
    | (extract_lets +onlyGivenNames x
       first
         | (refine good_cut (q := q) x ?cv ?ck
            case' ck => (intro hx; clear_value x)
            case' cv => (unfold x; clear x))
         | (refine good_cut_fst (q := q) x ?cv ?ck
            case' ck => (intro hx; clear_value x)
            case' cv => (unfold x; clear x))
         | (refine good_cut_snd (q := q) x ?cv ?ck
            case' ck => (intro hx; clear_value x)
            case' cv => (unfold x; clear x))
         | skip)
    | split

theorem State.gdWrite_keeps {q : List Instr} (n : Nat) (o : Nat) (a : Nat) (v : Nat) (s : State) (h : Good q s) : Good q (State.gdWrite n o a v s) := by
  unfold State.gdWrite
  repeat' first
    | with_reducible assumption
    | intro _
    | with_reducible apply good_ite
    | with_reducible apply State.loadPend_keeps
    | with_reducible apply State.fieldsWrite_keeps
    | with_reducible apply opUvloExit_keeps
    | with_reducible apply opGdrvEnWrite_keeps
    | with_reducible apply State.ifBit_keeps
    | with_reducible apply opGdrvFclr_keeps
    | with_reducible apply opGdrvLoad_keeps

theorem State.pwmWrite_keeps {q : List Instr} (o : Nat) (a : Nat) (v : Nat) (s : State) (h : Good q s) : Good q (State.pwmWrite o a v s) := by
  unfold State.pwmWrite
  repeat' first
    | with_reducible assumption
    | intro _
    | with_reducible apply good_ite
    | with_reducible apply opSvbenWrite_keeps
    | with_reducible apply opGdrvCpWrite_keeps
    | with_reducible apply opGdrvDtWrite_keeps
    | with_reducible apply opGdrvDutyWrite_keeps
    | with_reducible apply opGdrvBindWrite_keeps
    | with_reducible apply State.auxMode_keeps
    | with_reducible apply State.fieldsWrite_keeps
    | split

theorem State.dlnkWrite_keeps {q : List Instr} (o : Nat) (a : Nat) (v : Nat) (s : State) (h : Good q s) : Good q (State.dlnkWrite o a v s) := by
  unfold State.dlnkWrite
  repeat' first
    | with_reducible assumption
    | intro _
    | with_reducible apply good_ite
    | with_reducible apply State.chop_keeps
    | with_reducible apply State.fieldsWrite_keeps
    | with_reducible apply State.chDuty_keeps
    | with_reducible apply opDlnkChbindWrite_keeps
    | with_reducible apply State.setTheta_keeps
    | with_reducible apply opRollRequest_keeps

theorem State.sadcWrite_keeps {q : List Instr} (o : Nat) (a : Nat) (v : Nat) (s : State) (h : Good q s) : Good q (State.sadcWrite o a v s) := by
  unfold State.sadcWrite
  repeat' first
    | with_reducible assumption
    | intro _
    | with_reducible apply good_ite
    | with_reducible apply opSadcImgWrite_keeps
    | with_reducible apply State.fieldsWrite_keeps
    | with_reducible apply opOcLatchClear_keeps
    | with_reducible apply State.ocWrite_keeps
    | with_reducible apply opSadcCfgWrite_keeps

theorem State.aoWrite_keeps {q : List Instr} (o : Nat) (a : Nat) (v : Nat) (s : State) (h : Good q s) : Good q (State.aoWrite o a v s) := by
  unfold State.aoWrite
  repeat' first
    | with_reducible assumption
    | intro _
    | with_reducible apply good_ite
    | with_reducible apply opAoutSrcWrite_keeps
    | with_reducible apply opAoutCodeWrite_keeps
    | with_reducible apply State.aoFb_keeps
    | with_reducible apply State.fieldsWrite_keeps
    | split

theorem State.waveWrite_keeps {q : List Instr} (o : Nat) (a : Nat) (v : Nat) (s : State) (h : Good q s) : Good q (State.waveWrite o a v s) := by
  unfold State.waveWrite
  repeat' first
    | with_reducible assumption
    | intro _
    | with_reducible apply good_ite
    | with_reducible apply State.fieldsWrite_keeps
    | with_reducible apply State.ifBit_keeps
    | with_reducible apply opWaveStop_keeps
    | with_reducible apply opWaveArm_keeps

theorem State.dioWrite_keeps {q : List Instr} (o : Nat) (a : Nat) (v : Nat) (s : State) (h : Good q s) : Good q (State.dioWrite o a v s) := by
  unfold State.dioWrite
  repeat' first
    | with_reducible assumption
    | intro _
    | with_reducible apply good_ite
    | with_reducible apply good_ite_fst
    | with_reducible apply good_ite_snd
    | with_reducible apply State.free_keeps
    | with_reducible apply State.dioCtl_keeps
    | with_reducible apply State.ifBit_keeps
    | with_reducible apply opDioClr_keeps
    | with_reducible apply opDiTypeWrite_keeps
    | with_reducible apply State.diWben_keeps
    | with_reducible apply opDioIbindWrite_keeps
    | with_reducible apply opDoSvWrite_keeps
    | with_reducible apply State.doFb_keeps
    | with_reducible apply State.fieldsWrite_keeps
    | with_reducible apply opWalkGo_keeps
    | with_reducible apply opWalkAbort_keeps
    | with_reducible apply opDoSourceWrite_keeps
    | (extract_lets +onlyGivenNames x
       first
         | (refine good_cut (q := q) x ?cv ?ck
            case' ck => (intro hx; clear_value x)
            case' cv => (unfold x; clear x))
         | (refine good_cut_fst (q := q) x ?cv ?ck
            case' ck => (intro hx; clear_value x)
            case' cv => (unfold x; clear x))
         | (refine good_cut_snd (q := q) x ?cv ?ck
            case' ck => (intro hx; clear_value x)
            case' cv => (unfold x; clear x))
         | skip)
    | split

theorem State.lantWrite_keeps {q : List Instr} (hook : BusHook → State → State) (r : Nat) (o : Nat) (a : Nat) (v : Nat) (s : State) (hfhook : ∀ x0 x1, Good q x1 → Good q (hook x0 x1)) (h : Good q s) : Good q (State.lantWrite hook r o a v s) := by
  unfold State.lantWrite
  repeat' first
    | with_reducible assumption
    | intro _
    | with_reducible apply good_ite
    | with_reducible apply good_ite_fst
    | with_reducible apply good_ite_snd
    | with_reducible apply State.put_keeps
    | with_reducible apply State.lantCtl_keeps
    | with_reducible apply State.haltReq_keeps
    | with_reducible apply State.ifBit_keeps
    | with_reducible apply State.fieldsWrite_keeps
    | with_reducible apply opEeDataWrite_keeps
    | with_reducible apply hfhook
    | (extract_lets +onlyGivenNames x
       first
         | (refine good_cut (q := q) x ?cv ?ck
            case' ck => (intro hx; clear_value x)
            case' cv => (unfold x; clear x))
         | (refine good_cut_fst (q := q) x ?cv ?ck
            case' ck => (intro hx; clear_value x)
            case' cv => (unfold x; clear x))
         | (refine good_cut_snd (q := q) x ?cv ?ck
            case' ck => (intro hx; clear_value x)
            case' cv => (unfold x; clear x))
         | skip)
    | with_reducible apply good_mk
    | split
    | with_reducible rfl

theorem State.updWrite_keeps {q : List Instr} (o : Nat) (a : Nat) (v : Nat) (s : State) (h : Good q s) : Good q (State.updWrite o a v s) := by
  unfold State.updWrite
  repeat' first
    | with_reducible assumption
    | intro _
    | with_reducible apply good_ite
    | with_reducible apply State.fieldsWrite_keeps
    | with_reducible apply State.flashStart_keeps
    | with_reducible apply State.putFbuf_keeps
    | (extract_lets +onlyGivenNames x
       first
         | (refine good_cut (q := q) x ?cv ?ck
            case' ck => (intro hx; clear_value x)
            case' cv => (unfold x; clear x))
         | (refine good_cut_fst (q := q) x ?cv ?ck
            case' ck => (intro hx; clear_value x)
            case' cv => (unfold x; clear x))
         | (refine good_cut_snd (q := q) x ?cv ?ck
            case' ck => (intro hx; clear_value x)
            case' cv => (unfold x; clear x))
         | skip)
    | split
    | with_reducible apply good_mk
    | with_reducible rfl

theorem State.upDma_keeps {q : List Instr} (s : State) (a : Nat) (f : DmaSt → DmaSt) (h : Good q s) : Good q (State.upDma s a f) := by
  unfold State.upDma
  repeat' first
    | with_reducible assumption
    | intro _
    | (extract_lets +onlyGivenNames x
       first
         | (refine good_cut (q := q) x ?cv ?ck
            case' ck => (intro hx; clear_value x)
            case' cv => (unfold x; clear x))
         | (refine good_cut_fst (q := q) x ?cv ?ck
            case' ck => (intro hx; clear_value x)
            case' cv => (unfold x; clear x))
         | (refine good_cut_snd (q := q) x ?cv ?ck
            case' ck => (intro hx; clear_value x)
            case' cv => (unfold x; clear x))
         | skip)
    | with_reducible apply good_mk
    | with_reducible rfl

theorem State.dmaEnd_keeps {q : List Instr} (a : Nat) (s : State) (h : Good q s) : Good q (State.dmaEnd a s) := by
  unfold State.dmaEnd
  repeat' first
    | with_reducible assumption
    | intro _
    | with_reducible apply State.put_keeps
    | with_reducible apply State.upDma_keeps

theorem opDmaStop_keeps {q : List Instr} (a : Nat) (s : State) (h : Good q s) : Good q (opDmaStop a s) := by
  unfold opDmaStop
  repeat' first
    | with_reducible assumption
    | intro _
    | with_reducible apply good_ite
    | with_reducible apply State.dmaEnd_keeps
    | with_reducible apply State.upDma_keeps

theorem State.dmaWrite_keeps {q : List Instr} (hook : BusHook → State → State) (n : Nat) (o : Nat) (a : Nat) (v : Nat) (s : State) (hfhook : ∀ x0 x1, Good q x1 → Good q (hook x0 x1)) (h : Good q s) : Good q (State.dmaWrite hook n o a v s) := by
  unfold State.dmaWrite
  repeat' first
    | with_reducible assumption
    | intro _
    | with_reducible apply good_ite
    | with_reducible apply State.fieldsWrite_keeps
    | with_reducible apply opDmaStop_keeps
    | with_reducible apply hfhook

theorem State.cryptoWrite_keeps {q : List Instr} (o : Nat) (a : Nat) (v : Nat) (s : State) (h : Good q s) : Good q (State.cryptoWrite o a v s) := by
  unfold State.cryptoWrite
  repeat' first
    | with_reducible assumption
    | intro _
    | with_reducible apply good_ite
    | with_reducible apply opCryptoSubmit_keeps
    | with_reducible apply opCryptoKeydata_keeps
    | with_reducible apply opCryptoKeyclr_keeps
    | with_reducible apply State.fieldsWrite_keeps

theorem State.brickWrite_keeps {q : List Instr} (o : Nat) (a : Nat) (v : Nat) (s : State) (h : Good q s) : Good q (State.brickWrite o a v s) := by
  unfold State.brickWrite
  repeat' first
    | with_reducible assumption
    | intro _
    | with_reducible apply good_ite
    | with_reducible apply State.ifBit_keeps
    | with_reducible apply opBrickWb_keeps
    | with_reducible apply opBrickRead_keeps
    | with_reducible apply State.fieldsWrite_keeps

theorem State.blockWrite_keeps {q : List Instr} (hook : BusHook → State → State) (r : Nat) (a : Nat) (v : Nat) (m : Nat) (s : State) (hfhook : ∀ x0 x1, Good q x1 → Good q (hook x0 x1)) (h : Good q s) : Good q (State.blockWrite hook r a v m s) := by
  unfold State.blockWrite
  repeat' first
    | with_reducible assumption
    | intro _
    | with_reducible apply good_ite
    | with_reducible apply State.sysWrite_keeps
    | with_reducible apply State.timeWrite_keeps
    | with_reducible apply State.tskWrite_keeps
    | with_reducible apply State.leWrite_keeps
    | with_reducible apply State.excWrite_keeps
    | with_reducible apply State.evtWrite_keeps
    | with_reducible apply State.chkWrite_keeps
    | with_reducible apply State.keepWrite_keeps
    | with_reducible apply State.logWrite1_keeps
    | with_reducible apply State.rflWrite_keeps
    | with_reducible apply State.fpWrite_keeps
    | with_reducible apply State.gdWrite_keeps
    | with_reducible apply State.pwmWrite_keeps
    | with_reducible apply State.dlnkWrite_keeps
    | with_reducible apply State.sadcWrite_keeps
    | with_reducible apply State.aoWrite_keeps
    | with_reducible apply State.waveWrite_keeps
    | with_reducible apply State.dioWrite_keeps
    | with_reducible apply State.lantWrite_keeps
    | with_reducible apply State.updWrite_keeps
    | with_reducible apply State.dmaWrite_keeps
    | with_reducible apply State.cryptoWrite_keeps
    | with_reducible apply State.brickWrite_keeps
    | with_reducible apply State.fieldsWrite_keeps

theorem State.regWrite_keeps {q : List Instr} (hook : BusHook → State → State) (r : Nat) (a : Nat) (v : Nat) (m : Nat) (s : State) (hfhook : ∀ x0 x1, Good q x1 → Good q (hook x0 x1)) (h : Good q s) : Good q (State.regWrite hook r a v m s).1 := by
  unfold State.regWrite
  repeat' first
    | with_reducible assumption
    | intro _
    | with_reducible apply good_ite
    | with_reducible apply good_ite_fst
    | with_reducible apply good_ite_snd
    | with_reducible apply hfhook
    | with_reducible apply State.put_keeps
    | with_reducible apply State.blockWrite_keeps
    | (extract_lets +onlyGivenNames x
       first
         | (refine good_cut (q := q) x ?cv ?ck
            case' ck => (intro hx; clear_value x)
            case' cv => (unfold x; clear x))
         | (refine good_cut_fst (q := q) x ?cv ?ck
            case' ck => (intro hx; clear_value x)
            case' cv => (unfold x; clear x))
         | (refine good_cut_snd (q := q) x ?cv ?ck
            case' ck => (intro hx; clear_value x)
            case' cv => (unfold x; clear x))
         | skip)
    | split

end Sys2Proof.Machine
end

