-- ==== Sys2Proof/Laws/KeepsBus.lean ====
section
/-! SUPPORT. Laws/KeepsBus.lean: every operation of Machine/Bus.lean keeps `Good`. -/

namespace Sys2Proof.Machine

theorem State.holdHi_keeps {q : List Instr} (a : Nat) (v : Nat) (s : State) (h : Good q s) : Good q (State.holdHi a v s) := by
  unfold State.holdHi
  repeat' first
    | with_reducible assumption
    | intro _
    | (extract_lets +onlyGivenNames x
       first
         | (refine good_cut (q := q) x ?cv ?ck
            case' ck => (intro hx; clear_value x)
            case' cv => (unfold x; clear x))
         | (refine good_cut_fst (q := q) x ?cv ?ck
            case' ck => (intro hx; clear_value x)
            case' cv => (unfold x; clear x))
         | (refine good_cut_snd (q := q) x ?cv ?ck
            case' ck => (intro hx; clear_value x)
            case' cv => (unfold x; clear x))
         | skip)
    | with_reducible apply good_mk
    | with_reducible rfl

theorem State.dropHi_keeps {q : List Instr} (a : Nat) (s : State) (h : Good q s) : Good q (State.dropHi a s) := by
  unfold State.dropHi
  repeat' first
    | with_reducible assumption
    | intro _
    | (extract_lets +onlyGivenNames x
       first
         | (refine good_cut (q := q) x ?cv ?ck
            case' ck => (intro hx; clear_value x)
            case' cv => (unfold x; clear x))
         | (refine good_cut_fst (q := q) x ?cv ?ck
            case' ck => (intro hx; clear_value x)
            case' cv => (unfold x; clear x))
         | (refine good_cut_snd (q := q) x ?cv ?ck
            case' ck => (intro hx; clear_value x)
            case' cv => (unfold x; clear x))
         | skip)
    | with_reducible apply good_mk
    | with_reducible rfl

theorem good_quiet {q : List Instr} (a x : Nat) (s : State) (r : State × Nat × Nat) (b1 b2 : Bool) (o : Option Nat) (h : Good q s)
    (h1 : Good q r.1) : Good q (if b1 then (s, 0, 5) else if r.2.2 ≠ 0 then r else if b2 then (s.holdHi (a + 4) x, r.2.1, 0)
      else match o with
        | some v => (s.dropHi a, v, 0)
        | none => r).1 := by
  refine good_ite_fst h (good_ite_fst h1 (good_ite_fst (State.holdHi_keeps _ _ _ h) ?_))
  cases o with
  | some v => exact State.dropHi_keeps _ _ h
  | none => exact h1

theorem State.quietRead_keeps {q : List Instr} (a : Nat) (s : State) (h : Good q s) : Good q (State.quietRead a s).1 := by
  exact good_quiet a ((s.regSide a).rawWord (a + 4)) s (s.regRead true 7 a) (noQuiet a) (quietPair a) (Store.find a s.lan.hi) h
    (State.regRead_keeps true 7 a s h)

theorem State.slotRead_keeps {q : List Instr} (quiet : Bool) (r : Nat) (a : Nat) (n : Nat) (s : State) (h : Good q s) : Good q (State.slotRead quiet r a n s).1 := by
  unfold State.slotRead
  repeat' first
    | with_reducible assumption
    | intro _
    | with_reducible apply good_ite
    | with_reducible apply good_ite_fst
    | with_reducible apply good_ite_snd
    | with_reducible apply State.quietRead_keeps
    | with_reducible apply State.regRead_keeps
    | with_reducible apply good_foldl
    | with_reducible apply good_foldl_fst

theorem State.targetRead_keeps {q : List Instr} (quiet : Bool) (r : Nat) (a : Nat) (n : Nat) (s : State) (h : Good q s) : Good q (State.targetRead quiet r a n s).1 := by
  unfold State.targetRead
  repeat' first
    | with_reducible assumption
    | intro _
    | (extract_lets +onlyGivenNames x
       first
         | (refine good_cut (q := q) x ?cv ?ck
            case' ck => (intro hx; clear_value x)
            case' cv => (unfold x; clear x))
         | (refine good_cut_fst (q := q) x ?cv ?ck
            case' ck => (intro hx; clear_value x)
            case' cv => (unfold x; clear x))
         | (refine good_cut_snd (q := q) x ?cv ?ck
            case' ck => (intro hx; clear_value x)
            case' cv => (unfold x; clear x))
         | skip)
    | with_reducible apply good_ite
    | with_reducible apply good_ite_fst
    | with_reducible apply good_ite_snd
    | with_reducible apply State.slotRead_keeps
    | with_reducible apply State.eccRead_keeps
    | with_reducible apply State.memRead_keeps

theorem State.busRead_keeps {q : List Instr} (loud : Bool) (r : Nat) (a : Nat) (n : Nat) (s : State) (h : Good q s) : Good q (State.busRead loud r a n s).1 := by
  unfold State.busRead
  repeat' first
    | with_reducible assumption
    | intro _
    | with_reducible apply good_ite
    | with_reducible apply good_ite_fst
    | with_reducible apply good_ite_snd
    | with_reducible apply State.check_keeps
    | with_reducible apply State.targetRead_keeps

theorem State.slotWrite_keeps {q : List Instr} (hook : BusHook → State → State) (r : Nat) (a : Nat) (l : List Byte) (s : State) (hfhook : ∀ x0 x1, Good q x1 → Good q (hook x0 x1)) (h : Good q s) : Good q (State.slotWrite hook r a l s).1 := by
  unfold State.slotWrite
  repeat' first
    | with_reducible assumption
    | intro _
    | with_reducible apply good_ite
    | with_reducible apply good_ite_fst
    | with_reducible apply good_ite_snd
    | with_reducible apply State.regWrite_keeps
    | with_reducible apply hfhook
    | with_reducible apply good_foldl
    | with_reducible apply good_foldl_fst

theorem State.targetWrite_keeps {q : List Instr} (hook : BusHook → State → State) (r : Nat) (a : Nat) (l : List Byte) (s : State) (hfhook : ∀ x0 x1, Good q x1 → Good q (hook x0 x1)) (h : Good q s) : Good q (State.targetWrite hook r a l s).1 := by
  unfold State.targetWrite
  repeat' first
    | with_reducible assumption
    | intro _
    | with_reducible apply good_ite
    | with_reducible apply good_ite_fst
    | with_reducible apply good_ite_snd
    | with_reducible apply hfhook
    | with_reducible apply State.slotWrite_keeps
    | with_reducible apply State.windowWrite_keeps
    | with_reducible apply State.defer_keeps
    | with_reducible apply State.eccWrite_keeps
    | with_reducible apply State.memWrite_keeps
    | (extract_lets +onlyGivenNames x
       first
         | (refine good_cut (q := q) x ?cv ?ck
            case' ck => (intro hx; clear_value x)
            case' cv => (unfold x; clear x))
         | (refine good_cut_fst (q := q) x ?cv ?ck
            case' ck => (intro hx; clear_value x)
            case' cv => (unfold x; clear x))
         | (refine good_cut_snd (q := q) x ?cv ?ck
            case' ck => (intro hx; clear_value x)
            case' cv => (unfold x; clear x))
         | skip)
    | split

theorem State.busWriteWith_keeps {q : List Instr} (hook : BusHook → State → State) (r : Nat) (a : Nat) (l : List Byte) (s : State) (hfhook : ∀ x0 x1, Good q x1 → Good q (hook x0 x1)) (h : Good q s) : Good q (State.busWriteWith hook r a l s).1 := by
  unfold State.busWriteWith
  repeat' first
    | with_reducible assumption
    | intro _
    | with_reducible apply good_ite
    | with_reducible apply good_ite_fst
    | with_reducible apply good_ite_snd
    | with_reducible apply State.targetWrite_keeps
    | with_reducible apply State.check_keeps

theorem State.dmaErr_keeps {q : List Instr} (a : Nat) (code : Nat) (addr : Nat) (s : State) (h : Good q s) : Good q (State.dmaErr a code addr s) := by
  unfold State.dmaErr
  repeat' first
    | with_reducible assumption
    | intro _
    | with_reducible apply State.put_keeps
    | with_reducible apply State.bump_keeps
    | with_reducible apply State.raise_keeps
    | with_reducible apply State.dmaEnd_keeps

theorem State.dmaCheck_keeps {q : List Instr} (a : Nat) (kind : Nat) (addr : Nat) (len : Nat) (s : State) (h : Good q s) : Good q (State.dmaCheck a kind addr len s).1 := by
  unfold State.dmaCheck
  repeat' first
    | with_reducible assumption
    | intro _
    | with_reducible apply good_ite
    | with_reducible apply good_ite_fst
    | with_reducible apply good_ite_snd
    | with_reducible apply State.check_keeps
    | with_reducible apply State.violation_keeps
    | (extract_lets +onlyGivenNames x
       first
         | (refine good_cut (q := q) x ?cv ?ck
            case' ck => (intro hx; clear_value x)
            case' cv => (unfold x; clear x))
         | (refine good_cut_fst (q := q) x ?cv ?ck
            case' ck => (intro hx; clear_value x)
            case' cv => (unfold x; clear x))
         | (refine good_cut_snd (q := q) x ?cv ?ck
            case' ck => (intro hx; clear_value x)
            case' cv => (unfold x; clear x))
         | skip)
    | split
    | with_reducible apply good_mk
    | with_reducible rfl

theorem State.dmaFetch_keeps {q : List Instr} (a : Nat) (addr : Nat) (s : State) (h : Good q s) : Good q (State.dmaFetch a addr s) := by
  unfold State.dmaFetch
  repeat' first
    | with_reducible assumption
    | intro _
    | with_reducible apply good_ite
    | with_reducible apply good_ite_fst
    | with_reducible apply good_ite_snd
    | with_reducible apply State.put_keeps
    | with_reducible apply State.busRead_keeps
    | with_reducible apply State.dmaErr_keeps
    | with_reducible apply State.upDma_keeps

theorem opDmaStart_keeps {q : List Instr} (a : Nat) (s : State) (h : Good q s) : Good q (opDmaStart a s) := by
  unfold opDmaStart
  repeat' first
    | with_reducible assumption
    | intro _
    | with_reducible apply good_ite
    | with_reducible apply State.put_keeps
    | with_reducible apply State.dmaFetch_keeps

theorem opDmaDisable_keeps {q : List Instr} (a : Nat) (s : State) (h : Good q s) : Good q (opDmaDisable a s) := by
  unfold opDmaDisable
  repeat' first
    | with_reducible assumption
    | intro _
    | with_reducible apply State.put_keeps
    | with_reducible apply opDmaStop_keeps

theorem State.dmaPut_keeps {q : List Instr} (hook : BusHook → State → State) (a : Nat) (da : Nat) (l : List Byte) (s : State) (hfhook : ∀ x0 x1, Good q x1 → Good q (hook x0 x1)) (h : Good q s) : Good q (State.dmaPut hook a da l s).1 := by
  unfold State.dmaPut
  repeat' first
    | with_reducible assumption
    | intro _
    | with_reducible apply good_ite
    | with_reducible apply good_ite_fst
    | with_reducible apply good_ite_snd
    | with_reducible apply hfhook
    | with_reducible apply State.dmaCheck_keeps
    | with_reducible apply State.targetWrite_keeps
    | with_reducible apply State.eccReport_keeps
    | (extract_lets +onlyGivenNames x
       first
         | (refine good_cut (q := q) x ?cv ?ck
            case' ck => (intro hx; clear_value x)
            case' cv => (unfold x; clear x))
         | (refine good_cut_fst (q := q) x ?cv ?ck
            case' ck => (intro hx; clear_value x)
            case' cv => (unfold x; clear x))
         | (refine good_cut_snd (q := q) x ?cv ?ck
            case' ck => (intro hx; clear_value x)
            case' cv => (unfold x; clear x))
         | skip)
    | split
    | with_reducible apply good_mk
    | with_reducible rfl

theorem State.dmaNext_keeps {q : List Instr} (a : Nat) (ctl : Nat) (next : Nat) (s : State) (h : Good q s) : Good q (State.dmaNext a ctl next s) := by
  unfold State.dmaNext
  repeat' first
    | with_reducible assumption
    | intro _
    | with_reducible apply good_ite
    | with_reducible apply State.wrapUp_keeps
    | with_reducible apply State.raise_keeps
    | with_reducible apply State.dmaEnd_keeps
    | with_reducible apply State.dmaFetch_keeps

theorem State.dmaBurst_keeps {q : List Instr} (hook : BusHook → State → State) (a : Nat) (s : State) (hfhook : ∀ x0 x1, Good q x1 → Good q (hook x0 x1)) (h : Good q s) : Good q (State.dmaBurst hook a s) := by
  unfold State.dmaBurst
  repeat' first
    | with_reducible assumption
    | intro _
    | with_reducible apply good_ite
    | with_reducible apply good_ite_fst
    | with_reducible apply good_ite_snd
    | with_reducible apply hfhook
    | with_reducible apply State.dmaCheck_keeps
    | with_reducible apply State.targetRead_keeps
    | with_reducible apply State.dmaPut_keeps
    | with_reducible apply State.dmaErr_keeps
    | with_reducible apply State.upDma_keeps
    | with_reducible apply State.dmaNext_keeps
    | with_reducible apply State.dmaEnd_keeps
    | (extract_lets +onlyGivenNames x
       first
         | (refine good_cut (q := q) x ?cv ?ck
            case' ck => (intro hx; clear_value x)
            case' cv => (unfold x; clear x))
         | (refine good_cut_fst (q := q) x ?cv ?ck
            case' ck => (intro hx; clear_value x)
            case' cv => (unfold x; clear x))
         | (refine good_cut_snd (q := q) x ?cv ?ck
            case' ck => (intro hx; clear_value x)
            case' cv => (unfold x; clear x))
         | skip)
    | split
    | with_reducible apply good_mk
    | with_reducible rfl

theorem State.accGo_keeps {q : List Instr} (hook : BusHook → State → State) (s : State) (hfhook : ∀ x0 x1, Good q x1 → Good q (hook x0 x1)) (h : Good q s) : Good q (State.accGo hook s) := by
  unfold State.accGo
  repeat' first
    | with_reducible assumption
    | intro _
    | with_reducible apply good_ite
    | with_reducible apply good_ite_fst
    | with_reducible apply good_ite_snd
    | with_reducible apply State.put_keeps
    | with_reducible apply State.busWriteWith_keeps
    | with_reducible apply State.busRead_keeps

theorem State.busHook_keeps {q : List Instr} (y1 : Nat) (y2 : BusHook) (y3 : State) (h : Good q y3) : Good q (State.busHook y1 y2 y3) := by
  induction y1 generalizing y2 y3 with
  | zero => exact h
  | succ k ih =>
    cases y2 with
    | accGo => exact State.accGo_keeps _ _ (fun x s hs => ih x s hs) h
    | dmaGo a => exact opDmaStart_keeps _ _ h

theorem State.busWrite_keeps {q : List Instr} (r : Nat) (a : Nat) (l : List Byte) (s : State) (h : Good q s) : Good q (State.busWrite r a l s).1 := by
  unfold State.busWrite
  repeat' first
    | with_reducible assumption
    | intro _
    | with_reducible apply State.busWriteWith_keeps
    | with_reducible apply State.busHook_keeps

theorem opDmaBurstComplete_keeps {q : List Instr} (a : Nat) (s : State) (h : Good q s) : Good q (opDmaBurstComplete a s) := by
  unfold opDmaBurstComplete
  repeat' first
    | with_reducible assumption
    | intro _
    | with_reducible apply State.dmaBurst_keeps
    | with_reducible apply State.busHook_keeps

theorem opAccGo_keeps {q : List Instr} (s : State) (h : Good q s) : Good q (opAccGo s) := by
  unfold opAccGo
  repeat' first
    | with_reducible assumption
    | intro _
    | with_reducible apply State.accGo_keeps
    | with_reducible apply State.busHook_keeps

theorem opRegisterWrite_keeps {q : List Instr} (r : Nat) (a : Nat) (v : Nat) (s : State) (h : Good q s) : Good q (opRegisterWrite r a v s) := by
  unfold opRegisterWrite
  repeat' first
    | with_reducible assumption
    | intro _
    | with_reducible apply good_ite
    | with_reducible apply good_ite_fst
    | with_reducible apply good_ite_snd
    | with_reducible apply State.busWrite_keeps

theorem State.farAccess_keeps {q : List Instr} (e : Nat) (f : FarReq) (answered : Bool) (s : State) (h : Good q s) : Good q (State.farAccess e f answered s).1 := by
  unfold State.farAccess
  repeat' first
    | with_reducible assumption
    | intro _
    | with_reducible apply good_ite
    | with_reducible apply good_ite_fst
    | with_reducible apply good_ite_snd
    | with_reducible apply State.targetWrite_keeps
    | with_reducible apply State.busHook_keeps
    | with_reducible apply State.targetRead_keeps

theorem State.farEnd_keeps {q : List Instr} (e : Nat) (fl : Flight) (f : FarReq) (answered : Bool) (s : State) (h : Good q s) : Good q (State.farEnd e fl f answered s) := by
  unfold State.farEnd
  repeat' first
    | with_reducible assumption
    | intro _
    | with_reducible apply good_ite
    | with_reducible apply good_ite_fst
    | with_reducible apply good_ite_snd
    | with_reducible apply State.put_keeps
    | with_reducible apply State.farTake_keeps
    | with_reducible apply State.settle_keeps
    | with_reducible apply State.upE_keeps
    | with_reducible apply State.farAccess_keeps
    | with_reducible apply State.farLand_keeps
    | with_reducible apply State.rflSend_keeps
    | (extract_lets +onlyGivenNames x
       first
         | (refine good_cut (q := q) x ?cv ?ck
            case' ck => (intro hx; clear_value x)
            case' cv => (unfold x; clear x))
         | (refine good_cut_fst (q := q) x ?cv ?ck
            case' ck => (intro hx; clear_value x)
            case' cv => (unfold x; clear x))
         | (refine good_cut_snd (q := q) x ?cv ?ck
            case' ck => (intro hx; clear_value x)
            case' cv => (unfold x; clear x))
         | skip)
    | split
    | with_reducible apply good_mk
    | with_reducible rfl

theorem State.svFarEnd_keeps {q : List Instr} (fl : Flight) (f : FarReq) (answered : Bool) (s : State) (h : Good q s) : Good q (State.svFarEnd fl f answered s) := by
  unfold State.svFarEnd
  repeat' first
    | with_reducible assumption
    | intro _
    | with_reducible apply good_ite
    | with_reducible apply good_ite_fst
    | with_reducible apply good_ite_snd
    | with_reducible apply State.upE_keeps
    | with_reducible apply State.farAccess_keeps
    | with_reducible apply State.svEnd_keeps
    | with_reducible apply State.fillLine_keeps
    | with_reducible apply good_forAll
    | (extract_lets +onlyGivenNames x
       first
         | (refine good_cut (q := q) x ?cv ?ck
            case' ck => (intro hx; clear_value x)
            case' cv => (unfold x; clear x))
         | (refine good_cut_fst (q := q) x ?cv ?ck
            case' ck => (intro hx; clear_value x)
            case' cv => (unfold x; clear x))
         | (refine good_cut_snd (q := q) x ?cv ?ck
            case' ck => (intro hx; clear_value x)
            case' cv => (unfold x; clear x))
         | skip)
    | split
    | with_reducible apply good_mk
    | with_reducible rfl

theorem opFarAccessComplete_keeps {q : List Instr} (e : Nat) (answered : Bool) (s : State) (h : Good q s) : Good q (opFarAccessComplete e answered s) := by
  unfold opFarAccessComplete
  repeat' first
    | with_reducible assumption
    | intro _
    | with_reducible apply good_ite
    | with_reducible apply State.upE_keeps
    | with_reducible apply State.svFarEnd_keeps
    | with_reducible apply State.farEnd_keeps
    | with_reducible apply State.mirrorFar_keeps
    | (extract_lets +onlyGivenNames x
       first
         | (refine good_cut (q := q) x ?cv ?ck
            case' ck => (intro hx; clear_value x)
            case' cv => (unfold x; clear x))
         | (refine good_cut_fst (q := q) x ?cv ?ck
            case' ck => (intro hx; clear_value x)
            case' cv => (unfold x; clear x))
         | (refine good_cut_snd (q := q) x ?cv ?ck
            case' ck => (intro hx; clear_value x)
            case' cv => (unfold x; clear x))
         | skip)
    | split
    | with_reducible apply good_mk
    | with_reducible rfl

theorem State.farDue_keeps {q : List Instr} (e : Nat) (s : State) (h : Good q s) : Good q (State.farDue e s) := by
  unfold State.farDue
  repeat' first
    | with_reducible assumption
    | intro _
    | with_reducible apply good_ite
    | with_reducible apply opFarAccessComplete_keeps
    | with_reducible apply State.turnCatch_keeps
    | with_reducible apply good_foldl
    | with_reducible apply good_foldl_fst
    | with_reducible apply good_foldl_snd
    | (extract_lets +onlyGivenNames x
       first
         | (refine good_cut (q := q) x ?cv ?ck
            case' ck => (intro hx; clear_value x)
            case' cv => (unfold x; clear x))
         | (refine good_cut_fst (q := q) x ?cv ?ck
            case' ck => (intro hx; clear_value x)
            case' cv => (unfold x; clear x))
         | (refine good_cut_snd (q := q) x ?cv ?ck
            case' ck => (intro hx; clear_value x)
            case' cv => (unfold x; clear x))
         | skip)
    | split

end Sys2Proof.Machine
end

