-- ==== Sys2Proof/Laws/KeepsMsg.lean ====
section
/-! SUPPORT. Laws/KeepsMsg.lean: every operation of Machine/Msg.lean keeps `Good`. -/

namespace Sys2Proof.Machine

theorem State.upSess_keeps {q : List Instr} (i : Nat) (f : Sess → Sess) (s : State) (h : Good q s) : Good q (State.upSess i f s) := by
  unfold State.upSess
  repeat' first
    | with_reducible assumption
    | intro _
    | split
    | with_reducible apply good_mk
    | with_reducible rfl

theorem State.sessClose_keeps {q : List Instr} (i : Nat) (s : State) (h : Good q s) : Good q (State.sessClose i s) := by
  unfold State.sessClose
  repeat' first
    | with_reducible assumption
    | intro _
    | with_reducible apply good_ite
    | with_reducible apply State.debugEnd_keeps
    | (extract_lets +onlyGivenNames x
       first
         | (refine good_cut (q := q) x ?cv ?ck
            case' ck => (intro hx; clear_value x)
            case' cv => (unfold x; clear x))
         | (refine good_cut_fst (q := q) x ?cv ?ck
            case' ck => (intro hx; clear_value x)
            case' cv => (unfold x; clear x))
         | (refine good_cut_snd (q := q) x ?cv ?ck
            case' ck => (intro hx; clear_value x)
            case' cv => (unfold x; clear x))
         | skip)
    | with_reducible apply good_mk
    | split
    | with_reducible rfl

theorem State.sessPut_keeps {q : List Instr} (i : Nat) (svc : Nat) (flags : Nat) (udp : Nat) (body : List Byte) (tok : Bool) (s : State) (h : Good q s) : Good q (State.sessPut i svc flags udp body tok s).1 := by
  unfold State.sessPut
  repeat' first
    | with_reducible assumption
    | intro _
    | with_reducible apply good_ite
    | with_reducible apply good_ite_fst
    | with_reducible apply good_ite_snd
    | with_reducible apply State.portSend_keeps
    | with_reducible apply State.upSess_keeps
    | split

theorem State.rekeySend_keeps {q : List Instr} (i : Nat) (s : State) (h : Good q s) : Good q (State.rekeySend i s) := by
  unfold State.rekeySend
  repeat' first
    | with_reducible assumption
    | intro _
    | with_reducible apply good_ite
    | with_reducible apply good_ite_fst
    | with_reducible apply good_ite_snd
    | with_reducible apply State.nonce_keeps
    | with_reducible apply State.sessPut_keeps
    | with_reducible apply State.upSess_keeps
    | (extract_lets +onlyGivenNames x
       first
         | (refine good_cut (q := q) x ?cv ?ck
            case' ck => (intro hx; clear_value x)
            case' cv => (unfold x; clear x))
         | (refine good_cut_fst (q := q) x ?cv ?ck
            case' ck => (intro hx; clear_value x)
            case' cv => (unfold x; clear x))
         | (refine good_cut_snd (q := q) x ?cv ?ck
            case' ck => (intro hx; clear_value x)
            case' cv => (unfold x; clear x))
         | skip)
    | split

theorem State.seqGuard_keeps {q : List Instr} (i : Nat) (s : State) (h : Good q s) : Good q (State.seqGuard i s) := by
  unfold State.seqGuard
  repeat' first
    | with_reducible assumption
    | intro _
    | with_reducible apply good_ite
    | with_reducible apply State.sessClose_keeps
    | with_reducible apply State.rekeySend_keeps
    | split

theorem State.sessSend_keeps {q : List Instr} (i : Nat) (svc : Nat) (flags : Nat) (udp : Nat) (body : List Byte) (s : State) (h : Good q s) : Good q (State.sessSend i svc flags udp body s) := by
  unfold State.sessSend
  repeat' first
    | with_reducible assumption
    | intro _
    | with_reducible apply State.seqGuard_keeps
    | with_reducible apply State.sessPut_keeps

theorem State.sessReply_keeps {q : List Instr} (i : Nat) (svc : Nat) (seq : Nat) (udp : Nat) (status : Nat) (data : List Byte) (s : State) (h : Good q s) : Good q (State.sessReply i svc seq udp status data s) := by
  unfold State.sessReply
  repeat' first
    | with_reducible assumption
    | intro _
    | with_reducible apply good_ite
    | with_reducible apply State.sessSend_keeps

theorem State.popFront_keeps {q : List Instr} (p : Nat) (s : State) (h : Good q s) : Good q (State.popFront p s) := by
  unfold State.popFront
  repeat' first
    | with_reducible assumption
    | intro _
    | with_reducible apply good_ite
    | with_reducible apply good_ite_fst
    | with_reducible apply good_ite_snd
    | with_reducible apply State.qRead_keeps
    | with_reducible apply State.upPort_keeps
    | (extract_lets +onlyGivenNames x
       first
         | (refine good_cut (q := q) x ?cv ?ck
            case' ck => (intro hx; clear_value x)
            case' cv => (unfold x; clear x))
         | (refine good_cut_fst (q := q) x ?cv ?ck
            case' ck => (intro hx; clear_value x)
            case' cv => (unfold x; clear x))
         | (refine good_cut_snd (q := q) x ?cv ?ck
            case' ck => (intro hx; clear_value x)
            case' cv => (unfold x; clear x))
         | skip)
    | with_reducible apply good_mk
    | with_reducible rfl

theorem State.msgAccept_keeps {q : List Instr} (p : Nat) (m : Msg) (s : State) (h : Good q s) : Good q (State.msgAccept p m s).1 := by
  unfold State.msgAccept
  split
  · exact State.portDrop_keeps _ _ _ h
  · dsimp only
    split
    · exact State.portDrop_keeps _ _ _ h
    · exact good_ite_fst (State.portDrop_keeps _ _ _ h) (good_ite_fst (State.portDrop_keeps _ _ _ h)
        (State.upSess_keeps _ _ _ (State.partnerHeard_keeps _ _ h)))

theorem State.serveFront_keeps {q : List Instr} (p : Nat) (want : Msg → Bool) (f : Nat → Sess → Msg → State → State) (s : State) (hff : ∀ x0 x1 x2 x3, Good q x3 → Good q (f x0 x1 x2 x3)) (h : Good q s) : Good q (State.serveFront p want f s) := by
  unfold State.serveFront
  split
  · exact h
  · split
    · exact h
    · next m _ =>
      refine good_ite h ?_
      have h1 := State.msgAccept_keeps p m _ (State.popFront_keeps p s h)
      generalize State.msgAccept p m (s.popFront p) = r at h1
      obtain ⟨t, o⟩ := r
      cases o with
      | none => exact h1
      | some i =>
        dsimp only
        split
        · exact h1
        · exact State.seqGuard_keeps _ _ (hff _ _ _ _ h1)

end Sys2Proof.Machine
end

