-- ==== Sys2Proof/Laws/KeepsDict.lean ====
section
/-! SUPPORT. Laws/KeepsDict.lean: every operation of Machine/Dict.lean keeps `Good`. -/

namespace Sys2Proof.Machine

theorem State.entryLook_keeps {q : List Instr} (x : Entry) (f : Nat) (m : Nat) (s : State) (h : Good q s) : Good q (State.entryLook x f m s) := by
  unfold State.entryLook
  repeat' first
    | with_reducible assumption
    | intro _
    | with_reducible apply good_ite
    | with_reducible apply good_ite_fst
    | with_reducible apply good_ite_snd
    | with_reducible apply State.memRead_keeps
    | split
    | with_reducible apply good_mk
    | with_reducible rfl

theorem State.watched_keeps {q : List Instr} (op : State → State) (s : State) (hfop : ∀ x0, Good q x0 → Good q (op x0)) (h : Good q s) : Good q (State.watched op s).1 := by
  unfold State.watched
  repeat' first
    | with_reducible assumption
    | intro _
    | with_reducible apply State.put_keeps
    | with_reducible apply hfop
    | with_reducible apply good_foldl

theorem State.tskAhead_keeps {q : List Instr} (a : Nat) (s : State) (h : Good q s) : Good q (State.tskAhead a s) := by
  unfold State.tskAhead
  repeat' first
    | with_reducible assumption
    | intro _
    | with_reducible apply good_ite
    | with_reducible apply good_ite_fst
    | with_reducible apply good_ite_snd
    | with_reducible apply State.regWrite_keeps
    | with_reducible apply State.busHook_keeps
    | with_reducible apply State.put_keeps
    | with_reducible apply good_foldl
    | with_reducible apply good_foldl_fst
    | with_reducible apply good_foldl_snd
    | (extract_lets +onlyGivenNames x
       first
         | (refine good_cut (q := q) x ?cv ?ck
            case' ck => (intro hx; clear_value x)
            case' cv => (unfold x; clear x))
         | (refine good_cut_fst (q := q) x ?cv ?ck
            case' ck => (intro hx; clear_value x)
            case' cv => (unfold x; clear x))
         | (refine good_cut_snd (q := q) x ?cv ?ck
            case' ck => (intro hx; clear_value x)
            case' cv => (unfold x; clear x))
         | skip)

theorem State.segWrite_keeps {q : List Instr} (t : Nat) (g : Seg) (k : Nat) (v : Int) (s : State) (h : Good q s) : Good q (State.segWrite t g k v s).1 := by
  unfold State.segWrite
  extract_lets r a l go tsk judge x
  have hgo : ∀ u, Good q u → Good q (go u) := fun u hu => State.regWrite_keeps _ _ _ _ _ _ (fun b w hw => State.busHook_keeps _ b w hw) hu
  have hj : Good q judge := good_ite (State.tskAhead_keeps _ _ h) h
  have hx : Good q x.1 := State.watched_keeps _ _ hgo hj
  clear_value x judge tsk go
  exact good_ite_fst h (good_ite_fst (good_ite (State.put_keeps _ _ _ _ _ h) hx) (good_ite_fst (State.defer_keeps _ _ h) hx))

theorem State.fwPut_keeps {q : List Instr} (p : Param) (f : Nat) (d : List Byte) (s : State) (h : Good q s) : Good q (State.fwPut p f d s) := by
  unfold State.fwPut
  repeat' first
    | with_reducible assumption
    | intro _
    | with_reducible apply good_ite
    | (extract_lets +onlyGivenNames x
       first
         | (refine good_cut (q := q) x ?cv ?ck
            case' ck => (intro hx; clear_value x)
            case' cv => (unfold x; clear x))
         | (refine good_cut_fst (q := q) x ?cv ?ck
            case' ck => (intro hx; clear_value x)
            case' cv => (unfold x; clear x))
         | (refine good_cut_snd (q := q) x ?cv ?ck
            case' ck => (intro hx; clear_value x)
            case' cv => (unfold x; clear x))
         | skip)
    | with_reducible apply good_mk
    | split
    | with_reducible rfl

theorem State.canRates_keeps {q : List Instr} (k : Nat) (s : State) (h : Good q s) : Good q (State.canRates k s) := by
  unfold State.canRates
  repeat' first
    | with_reducible assumption
    | intro _
    | with_reducible apply good_ite
    | with_reducible apply State.put_keeps

theorem State.refuse_keeps {q : List Instr} (b : Bool) (s : State) (h : Good q s) : Good q (State.refuse b s).1 := by
  unfold State.refuse
  repeat' first
    | with_reducible assumption

theorem State.roleKey_keeps {q : List Instr} (r : Nat) (f : Nat) (d : List Byte) (s : State) (h : Good q s) : Good q (State.roleKey r f d s) := by
  unfold State.roleKey
  repeat' first
    | with_reducible assumption
    | intro _
    | with_reducible apply State.setKey_keeps

theorem State.edgeAck_keeps {q : List Instr} (m : Nat) (s : State) (h : Good q s) : Good q (State.edgeAck m s) := by
  unfold State.edgeAck
  repeat' first
    | with_reducible assumption
    | intro _
    | (extract_lets +onlyGivenNames x
       first
         | (refine good_cut (q := q) x ?cv ?ck
            case' ck => (intro hx; clear_value x)
            case' cv => (unfold x; clear x))
         | (refine good_cut_fst (q := q) x ?cv ?ck
            case' ck => (intro hx; clear_value x)
            case' cv => (unfold x; clear x))
         | (refine good_cut_snd (q := q) x ?cv ?ck
            case' ck => (intro hx; clear_value x)
            case' cv => (unfold x; clear x))
         | skip)
    | with_reducible apply good_mk
    | with_reducible rfl

theorem State.statClear_keeps {q : List Instr} (s : State) (h : Good q s) : Good q (State.statClear s) := by
  unfold State.statClear
  repeat' first
    | with_reducible assumption
    | intro _
    | with_reducible apply State.put_keeps
    | (extract_lets +onlyGivenNames x
       first
         | (refine good_cut (q := q) x ?cv ?ck
            case' ck => (intro hx; clear_value x)
            case' cv => (unfold x; clear x))
         | (refine good_cut_fst (q := q) x ?cv ?ck
            case' ck => (intro hx; clear_value x)
            case' cv => (unfold x; clear x))
         | (refine good_cut_snd (q := q) x ?cv ?ck
            case' ck => (intro hx; clear_value x)
            case' cv => (unfold x; clear x))
         | skip)
    | with_reducible apply good_mk
    | with_reducible rfl

theorem State.ringParam_keeps {q : List Instr} (f : Nat) (d : List Byte) (s : State) (h : Good q s) : Good q (State.ringParam f d s).1 := by
  unfold State.ringParam
  repeat' first
    | with_reducible assumption
    | intro _
    | with_reducible apply good_ite
    | with_reducible apply good_ite_fst
    | with_reducible apply good_ite_snd
    | with_reducible apply State.watched_keeps
    | with_reducible apply opRingUndefine_keeps
    | with_reducible apply opRingDefine_keeps
    | with_reducible apply State.put_keeps
    | with_reducible apply good_foldl
    | with_reducible apply good_foldl_fst
    | with_reducible apply good_foldl_snd
    | (extract_lets +onlyGivenNames x
       first
         | (refine good_cut (q := q) x ?cv ?ck
            case' ck => (intro hx; clear_value x)
            case' cv => (unfold x; clear x))
         | (refine good_cut_fst (q := q) x ?cv ?ck
            case' ck => (intro hx; clear_value x)
            case' cv => (unfold x; clear x))
         | (refine good_cut_snd (q := q) x ?cv ?ck
            case' ck => (intro hx; clear_value x)
            case' cv => (unfold x; clear x))
         | skip)
    | split

theorem State.armParam_keeps {q : List Instr} (k : Nat) (s : State) (h : Good q s) : Good q (State.armParam k s).1 := by
  unfold State.armParam
  repeat' first
    | with_reducible assumption
    | intro _
    | with_reducible apply good_ite
    | with_reducible apply good_ite_fst
    | with_reducible apply good_ite_snd
    | with_reducible apply State.put_keeps
    | with_reducible apply opWaveArm_keeps

theorem State.excWrite1_keeps {q : List Instr} (v : Nat) (op : State → State) (s : State) (hfop : ∀ x0, Good q x0 → Good q (op x0)) (h : Good q s) : Good q (State.excWrite1 v op s).1 := by
  unfold State.excWrite1
  repeat' first
    | with_reducible assumption
    | intro _
    | with_reducible apply good_ite
    | with_reducible apply good_ite_fst
    | with_reducible apply good_ite_snd
    | with_reducible apply hfop
    | with_reducible apply State.defer_keeps
    | with_reducible apply State.watched_keeps
    | (extract_lets +onlyGivenNames x
       first
         | (refine good_cut (q := q) x ?cv ?ck
            case' ck => (intro hx; clear_value x)
            case' cv => (unfold x; clear x))
         | (refine good_cut_fst (q := q) x ?cv ?ck
            case' ck => (intro hx; clear_value x)
            case' cv => (unfold x; clear x))
         | (refine good_cut_snd (q := q) x ?cv ?ck
            case' ck => (intro hx; clear_value x)
            case' cv => (unfold x; clear x))
         | skip)
    | split

theorem State.specialWrite_keeps {q : List Instr} (p : Param) (e : Nat) (x : List Byte) (s : State) (h : Good q s) : Good q (State.specialWrite p e x s).1 := by
  unfold State.specialWrite
  repeat' first
    | with_reducible assumption
    | intro _
    | with_reducible apply good_ite
    | with_reducible apply good_ite_fst
    | with_reducible apply good_ite_snd
    | with_reducible apply opModeRequest_keeps
    | with_reducible apply State.refuse_keeps
    | with_reducible apply State.statClear_keeps
    | with_reducible apply State.watched_keeps
    | with_reducible apply opTimeSetcmdGo_keeps
    | with_reducible apply State.put64_keeps
    | with_reducible apply opGlintRequest_keeps
    | with_reducible apply State.sessClose_keeps
    | with_reducible apply State.roleKey_keeps
    | with_reducible apply opRollRequest_keeps
    | with_reducible apply State.lifeBlock_keeps
    | with_reducible apply State.lifeInit_keeps
    | with_reducible apply opOcLatchClear_keeps
    | with_reducible apply State.regWrite_keeps
    | with_reducible apply State.busHook_keeps
    | with_reducible apply opRingDefine_keeps
    | with_reducible apply opRingWrite_keeps
    | with_reducible apply opScInc_keeps
    | with_reducible apply opRflSwap_keeps
    | with_reducible apply State.edgeAck_keeps
    | with_reducible apply State.excWrite1_keeps
    | with_reducible apply opExcCmdRelease_keeps
    | with_reducible apply opExcCmdPenenter_keeps
    | with_reducible apply opExcCmdPenleave_keeps
    | with_reducible apply State.fwPut_keeps
    | (extract_lets +onlyGivenNames x
       first
         | (refine good_cut (q := q) x ?cv ?ck
            case' ck => (intro hx; clear_value x)
            case' cv => (unfold x; clear x))
         | (refine good_cut_fst (q := q) x ?cv ?ck
            case' ck => (intro hx; clear_value x)
            case' cv => (unfold x; clear x))
         | (refine good_cut_snd (q := q) x ?cv ?ck
            case' ck => (intro hx; clear_value x)
            case' cv => (unfold x; clear x))
         | skip)
    | split
    | with_reducible apply good_mk
    | with_reducible rfl

theorem State.afterWrite_keeps {q : List Instr} (num : Nat) (e : Nat) (s : State) (h : Good q s) : Good q (State.afterWrite num e s) := by
  unfold State.afterWrite
  repeat' first
    | with_reducible assumption
    | intro _
    | with_reducible apply good_ite
    | with_reducible apply opGdrvLoad_keeps

theorem State.elemWrite_keeps {q : List Instr} (p : Param) (e : Nat) (x : List Byte) (s : State) (h : Good q s) : Good q (State.elemWrite p e x s).1 := by
  unfold State.elemWrite
  repeat' first
    | with_reducible assumption
    | intro _
    | with_reducible apply good_ite
    | with_reducible apply good_ite_fst
    | with_reducible apply good_ite_snd
    | with_reducible apply State.armParam_keeps
    | with_reducible apply State.specialWrite_keeps
    | with_reducible apply State.canRates_keeps
    | with_reducible apply State.segWrite_keeps
    | with_reducible apply State.afterWrite_keeps
    | (extract_lets +onlyGivenNames x
       first
         | (refine good_cut (q := q) x ?cv ?ck
            case' ck => (intro hx; clear_value x)
            case' cv => (unfold x; clear x))
         | (refine good_cut_fst (q := q) x ?cv ?ck
            case' ck => (intro hx; clear_value x)
            case' cv => (unfold x; clear x))
         | (refine good_cut_snd (q := q) x ?cv ?ck
            case' ck => (intro hx; clear_value x)
            case' cv => (unfold x; clear x))
         | skip)
    | split
    | with_reducible apply good_mk
    | with_reducible rfl

theorem State.elemsWrite_keeps {q : List Instr} (p : Param) (s0 : State) (y3 : Nat) (y4 : List (List Byte)) (y5 : State) (h : Good q s0) (h2 : Good q y5) : Good q (State.elemsWrite p s0 y3 y4 y5).1 := by
  induction y4 generalizing y3 y5 with
  | nil => exact h2
  | cons x r ih =>
    have h1 := State.elemWrite_keeps p y3 x y5 h2
    have h0 := State.elemWrite_keeps p y3 x s0 h
    simp only [State.elemsWrite]
    split
    · next s' he => exact ih _ _ (good_of_eq h1 he)
    · exact good_ite h h0

theorem State.rawWrite_keeps {q : List Instr} (f : Nat) (d : List Byte) (s : State) (h : Good q s) : Good q (State.rawWrite f d s).1 := by
  unfold State.rawWrite
  repeat' first
    | with_reducible assumption
    | intro _
    | with_reducible apply good_ite
    | with_reducible apply good_ite_fst
    | with_reducible apply good_ite_snd
    | with_reducible apply State.put_keeps
    | with_reducible apply State.watched_keeps
    | with_reducible apply State.regWrite_keeps
    | with_reducible apply State.busHook_keeps
    | (extract_lets +onlyGivenNames x
       first
         | (refine good_cut (q := q) x ?cv ?ck
            case' ck => (intro hx; clear_value x)
            case' cv => (unfold x; clear x))
         | (refine good_cut_fst (q := q) x ?cv ?ck
            case' ck => (intro hx; clear_value x)
            case' cv => (unfold x; clear x))
         | (refine good_cut_snd (q := q) x ?cv ?ck
            case' ck => (intro hx; clear_value x)
            case' cv => (unfold x; clear x))
         | skip)
    | split

theorem State.devWrite_keeps {q : List Instr} (p : Param) (f : Nat) (d : List Byte) (s : State) (h : Good q s) : Good q (State.devWrite p f d s).1 := by
  unfold State.devWrite
  repeat' first
    | with_reducible assumption
    | intro _
    | with_reducible apply good_ite
    | with_reducible apply good_ite_fst
    | with_reducible apply good_ite_snd
    | with_reducible apply State.rawWrite_keeps
    | with_reducible apply State.ringParam_keeps
    | with_reducible apply State.elemsWrite_keeps
    | split

end Sys2Proof.Machine
end

