-- ==== Sys2Proof/Laws/KeepsEngineCmds.lean ====
section
/-! SUPPORT. Laws/KeepsEngineCmds.lean: every operation of Machine/EngineCmds.lean keeps `Good`. -/

namespace Sys2Proof.Machine

theorem opBundleIssue_keeps {q : List Instr} (e : Nat) (s : State) (h : Good q s) : Good q (opBundleIssue e s) := by
  unfold opBundleIssue
  repeat' first
    | with_reducible assumption
    | intro _
    | with_reducible apply good_ite
    | with_reducible apply State.farDue_keeps
    | with_reducible apply State.bundle_keeps

theorem State.single_keeps {q : List Instr} (e : Nat) (p : Nat) (v : Nat) (s : State) (h : Good q s) : Good q (State.single e p v s) := by
  unfold State.single
  repeat' first
    | with_reducible assumption
    | intro _
    | with_reducible apply good_ite
    | with_reducible apply State.farDue_keeps
    | with_reducible apply State.oneMove_keeps

theorem opLand_keeps {q : List Instr} (e : Nat) (us : List UnitId) (s : State) (h : Good q s) : Good q (opLand e us s) := by
  unfold opLand
  repeat' first
    | with_reducible assumption
    | intro _
    | with_reducible apply good_ite
    | with_reducible apply State.farDue_keeps
    | with_reducible apply State.landFirst_keeps

theorem opInstanceComplete_keeps {q : List Instr} (n : Nat) (s : State) (h : Good q s) : Good q (opInstanceComplete n s) := by
  unfold opInstanceComplete
  repeat' first
    | with_reducible assumption
    | intro _
    | with_reducible apply good_ite
    | with_reducible apply State.upE_keeps
    | with_reducible apply State.farDue_keeps
    | with_reducible apply State.instanceComplete_keeps
    | with_reducible apply State.turnCatch_keeps
    | with_reducible apply good_foldl
    | with_reducible apply good_foldl_fst
    | with_reducible apply good_foldl_snd
    | (extract_lets +onlyGivenNames x
       first
         | (refine good_cut (q := q) x ?cv ?ck
            case' ck => (intro hx; clear_value x)
            case' cv => (unfold x; clear x))
         | (refine good_cut_fst (q := q) x ?cv ?ck
            case' ck => (intro hx; clear_value x)
            case' cv => (unfold x; clear x))
         | (refine good_cut_snd (q := q) x ?cv ?ck
            case' ck => (intro hx; clear_value x)
            case' cv => (unfold x; clear x))
         | skip)
    | with_reducible apply good_mk
    | with_reducible rfl

theorem opLockFault_keeps {q : List Instr} (e : Nat) (s : State) (h : Good q s) : Good q (opLockFault e s) := by
  unfold opLockFault
  repeat' first
    | with_reducible assumption
    | intro _
    | with_reducible apply good_ite
    | with_reducible apply State.spend_keeps
    | with_reducible apply State.raiseFault_keeps
    | (extract_lets +onlyGivenNames x
       first
         | (refine good_cut (q := q) x ?cv ?ck
            case' ck => (intro hx; clear_value x)
            case' cv => (unfold x; clear x))
         | (refine good_cut_fst (q := q) x ?cv ?ck
            case' ck => (intro hx; clear_value x)
            case' cv => (unfold x; clear x))
         | (refine good_cut_snd (q := q) x ?cv ?ck
            case' ck => (intro hx; clear_value x)
            case' cv => (unfold x; clear x))
         | skip)
    | split

end Sys2Proof.Machine
end

