-- ==== Sys2Proof/Laws/KeepsServe.lean ====
section
/-! SUPPORT. Laws/KeepsServe.lean: every operation of Machine/Serve.lean keeps `Good`. -/

namespace Sys2Proof.Machine

theorem State.storePush_keeps {q : List Instr} (num : Nat) (d : List Byte) (s : State) (h : Good q s) : Good q (State.storePush num d s).1 := by
  unfold State.storePush
  repeat' first
    | with_reducible assumption
    | intro _
    | with_reducible apply good_ite
    | with_reducible apply good_ite_fst
    | with_reducible apply good_ite_snd
    | with_reducible apply State.keepStore_keeps
    | split
    | with_reducible apply good_mk
    | with_reducible rfl

theorem State.storeMark_keeps {q : List Instr} (num : Nat) (d : List Byte) (s : State) (h : Good q s) : Good q (State.storeMark num d s) := by
  unfold State.storeMark
  repeat' first
    | with_reducible assumption
    | intro _
    | with_reducible apply good_ite
    | split
    | with_reducible apply good_mk
    | with_reducible rfl

theorem State.storeStatus_keeps {q : List Instr} (num : Nat) (d : List Byte) (s : State) (h : Good q s) : Good q (State.storeStatus num d s).1 := by
  unfold State.storeStatus
  repeat' first
    | with_reducible assumption
    | intro _
    | with_reducible apply good_ite
    | with_reducible apply good_ite_fst
    | with_reducible apply good_ite_snd
    | with_reducible apply State.warn_keeps
    | split

theorem State.answer_keeps {q : List Instr} (r : DictReq) (st : Nat) (d : List Byte) (s : State) (h : Good q s) : Good q (State.answer r st d s) := by
  unfold State.answer
  repeat' first
    | with_reducible assumption
    | intro _
    | with_reducible apply good_ite
    | with_reducible apply State.sessReply_keeps
    | split

theorem State.serveWrite_keeps {q : List Instr} (r : DictReq) (p : Param) (s : State) (h : Good q s) : Good q (State.serveWrite r p s).1 := by
  unfold State.serveWrite
  repeat' first
    | with_reducible assumption
    | intro _
    | with_reducible apply good_ite
    | with_reducible apply good_ite_fst
    | with_reducible apply good_ite_snd
    | with_reducible apply State.answer_keeps
    | with_reducible apply State.devWrite_keeps
    | with_reducible apply State.control_keeps
    | with_reducible apply State.storeMark_keeps
    | with_reducible apply State.storePush_keeps
    | (extract_lets +onlyGivenNames x
       first
         | (refine good_cut (q := q) x ?cv ?ck
            case' ck => (intro hx; clear_value x)
            case' cv => (unfold x; clear x))
         | (refine good_cut_fst (q := q) x ?cv ?ck
            case' ck => (intro hx; clear_value x)
            case' cv => (unfold x; clear x))
         | (refine good_cut_snd (q := q) x ?cv ?ck
            case' ck => (intro hx; clear_value x)
            case' cv => (unfold x; clear x))
         | skip)
    | split
    | with_reducible apply good_mk
    | with_reducible rfl

theorem State.serveReq_keeps {q : List Instr} (r : DictReq) (s : State) (h : Good q s) : Good q (State.serveReq r s).1 := by
  unfold State.serveReq
  repeat' first
    | with_reducible assumption
    | intro _
    | with_reducible apply good_ite
    | with_reducible apply good_ite_fst
    | with_reducible apply good_ite_snd
    | with_reducible apply State.answer_keeps
    | with_reducible apply State.serveWrite_keeps
    | with_reducible apply State.defer_keeps
    | (extract_lets +onlyGivenNames x
       first
         | (refine good_cut (q := q) x ?cv ?ck
            case' ck => (intro hx; clear_value x)
            case' cv => (unfold x; clear x))
         | (refine good_cut_fst (q := q) x ?cv ?ck
            case' ck => (intro hx; clear_value x)
            case' cv => (unfold x; clear x))
         | (refine good_cut_snd (q := q) x ?cv ?ck
            case' ck => (intro hx; clear_value x)
            case' cv => (unfold x; clear x))
         | skip)
    | split
    | with_reducible apply good_mk
    | with_reducible rfl

theorem State.serveRoom_keeps {q : List Instr} (r : DictReq) (s : State) (h : Good q s) : Good q (State.serveRoom r s).1 := by
  unfold State.serveRoom
  repeat' first
    | with_reducible assumption
    | intro _
    | with_reducible apply good_ite
    | with_reducible apply good_ite_fst
    | with_reducible apply good_ite_snd
    | with_reducible apply State.storePush_keeps
    | (extract_lets +onlyGivenNames x
       first
         | (refine good_cut (q := q) x ?cv ?ck
            case' ck => (intro hx; clear_value x)
            case' cv => (unfold x; clear x))
         | (refine good_cut_fst (q := q) x ?cv ?ck
            case' ck => (intro hx; clear_value x)
            case' cv => (unfold x; clear x))
         | (refine good_cut_snd (q := q) x ?cv ?ck
            case' ck => (intro hx; clear_value x)
            case' cv => (unfold x; clear x))
         | skip)
    | split
    | with_reducible apply good_mk
    | with_reducible rfl

theorem State.settleReqs_keeps {q : List Instr} (kept : List DictReq) (y2 : List DictReq) (y3 : State) (h : Good q y3) : Good q (State.settleReqs kept y2 y3).1 := by
  induction y2 generalizing kept y3 with
  | nil => exact h
  | cons r l ih =>
    simp only [State.settleReqs]
    refine good_ite_fst (ih _ _ h) (ih _ _ ?_)
    cases r.wait with
    | turn => exact State.serveReq_keeps _ _ h
    | room => exact State.serveRoom_keeps _ _ h
    | store m =>
      dsimp only
      exact good_ite_fst (State.answer_keeps _ _ _ _ (State.storeStatus_keeps _ _ _ h)) h
    | _ => exact h

theorem State.settleStores_keeps {q : List Instr} (y1 : List (Nat × List Byte)) (y2 : State) (h : Good q y2) : Good q (State.settleStores y1 y2).1 := by
  induction y1 generalizing y2 with
  | nil => exact h
  | cons x l ih =>
    simp only [State.settleStores]
    exact good_ite_fst (ih _ (State.storePush_keeps _ _ _ h)) h

theorem State.dictSettle_keeps {q : List Instr} (s : State) (h : Good q s) : Good q (State.dictSettle s) := by
  unfold State.dictSettle
  repeat' first
    | with_reducible assumption
    | intro _
    | with_reducible apply good_ite
    | with_reducible apply good_ite_fst
    | with_reducible apply good_ite_snd
    | with_reducible apply State.keepSettle_keeps
    | with_reducible apply State.settleStores_keeps
    | with_reducible apply State.settleReqs_keeps
    | (extract_lets +onlyGivenNames x
       first
         | (refine good_cut (q := q) x ?cv ?ck
            case' ck => (intro hx; clear_value x)
            case' cv => (unfold x; clear x))
         | (refine good_cut_fst (q := q) x ?cv ?ck
            case' ck => (intro hx; clear_value x)
            case' cv => (unfold x; clear x))
         | (refine good_cut_snd (q := q) x ?cv ?ck
            case' ck => (intro hx; clear_value x)
            case' cv => (unfold x; clear x))
         | skip)
    | split
    | with_reducible apply good_mk
    | with_reducible rfl

theorem State.enqueue_keeps {q : List Instr} (r : DictReq) (s : State) (h : Good q s) : Good q (State.enqueue r s) := by
  unfold State.enqueue
  repeat' first
    | with_reducible assumption
    | intro _
    | with_reducible apply good_ite
    | with_reducible apply State.answer_keeps
    | with_reducible apply State.dictSettle_keeps
    | (extract_lets +onlyGivenNames x
       first
         | (refine good_cut (q := q) x ?cv ?ck
            case' ck => (intro hx; clear_value x)
            case' cv => (unfold x; clear x))
         | (refine good_cut_fst (q := q) x ?cv ?ck
            case' ck => (intro hx; clear_value x)
            case' cv => (unfold x; clear x))
         | (refine good_cut_snd (q := q) x ?cv ?ck
            case' ck => (intro hx; clear_value x)
            case' cv => (unfold x; clear x))
         | skip)
    | with_reducible apply good_mk
    | split
    | with_reducible rfl

theorem State.readRequest_keeps {q : List Instr} (i : Nat) (x : Sess) (m : Msg) (s : State) (h : Good q s) : Good q (State.readRequest i x m s) := by
  unfold State.readRequest
  repeat' first
    | with_reducible assumption
    | intro _
    | with_reducible apply good_ite
    | with_reducible apply State.answer_keeps
    | with_reducible apply State.enqueue_keeps
    | (extract_lets +onlyGivenNames x
       first
         | (refine good_cut (q := q) x ?cv ?ck
            case' ck => (intro hx; clear_value x)
            case' cv => (unfold x; clear x))
         | (refine good_cut_fst (q := q) x ?cv ?ck
            case' ck => (intro hx; clear_value x)
            case' cv => (unfold x; clear x))
         | (refine good_cut_snd (q := q) x ?cv ?ck
            case' ck => (intro hx; clear_value x)
            case' cv => (unfold x; clear x))
         | skip)
    | split

theorem State.refusalShown_keeps {q : List Instr} (num : Nat) (s : State) (h : Good q s) : Good q (State.refusalShown num s) := by
  unfold State.refusalShown
  repeat' first
    | with_reducible assumption
    | intro _
    | with_reducible apply good_ite
    | with_reducible apply State.put_keeps
    | split

theorem State.writeRequest_keeps {q : List Instr} (i : Nat) (x : Sess) (m : Msg) (s : State) (h : Good q s) : Good q (State.writeRequest i x m s) := by
  unfold State.writeRequest
  repeat' first
    | with_reducible assumption
    | intro _
    | with_reducible apply good_ite
    | with_reducible apply State.answer_keeps
    | with_reducible apply State.refusalShown_keeps
    | with_reducible apply State.enqueue_keeps
    | (extract_lets +onlyGivenNames x
       first
         | (refine good_cut (q := q) x ?cv ?ck
            case' ck => (intro hx; clear_value x)
            case' cv => (unfold x; clear x))
         | (refine good_cut_fst (q := q) x ?cv ?ck
            case' ck => (intro hx; clear_value x)
            case' cv => (unfold x; clear x))
         | (refine good_cut_snd (q := q) x ?cv ?ck
            case' ck => (intro hx; clear_value x)
            case' cv => (unfold x; clear x))
         | skip)
    | split
    | with_reducible apply good_mk
    | with_reducible rfl

theorem opIsailRead_keeps {q : List Instr} (p : Nat) (s : State) (h : Good q s) : Good q (opIsailRead p s) := by
  unfold opIsailRead
  repeat' first
    | with_reducible assumption
    | intro _
    | with_reducible apply good_ite
    | with_reducible apply State.serveFront_keeps
    | with_reducible apply State.svc_keeps
    | with_reducible apply State.readRequest_keeps
    | (extract_lets +onlyGivenNames x
       first
         | (refine good_cut (q := q) x ?cv ?ck
            case' ck => (intro hx; clear_value x)
            case' cv => (unfold x; clear x))
         | (refine good_cut_fst (q := q) x ?cv ?ck
            case' ck => (intro hx; clear_value x)
            case' cv => (unfold x; clear x))
         | (refine good_cut_snd (q := q) x ?cv ?ck
            case' ck => (intro hx; clear_value x)
            case' cv => (unfold x; clear x))
         | skip)
    | split

theorem opIsailWrite_keeps {q : List Instr} (p : Nat) (s : State) (h : Good q s) : Good q (opIsailWrite p s) := by
  unfold opIsailWrite
  repeat' first
    | with_reducible assumption
    | intro _
    | with_reducible apply good_ite
    | with_reducible apply State.serveFront_keeps
    | with_reducible apply State.svc_keeps
    | with_reducible apply State.writeRequest_keeps
    | (extract_lets +onlyGivenNames x
       first
         | (refine good_cut (q := q) x ?cv ?ck
            case' ck => (intro hx; clear_value x)
            case' cv => (unfold x; clear x))
         | (refine good_cut_fst (q := q) x ?cv ?ck
            case' ck => (intro hx; clear_value x)
            case' cv => (unfold x; clear x))
         | (refine good_cut_snd (q := q) x ?cv ?ck
            case' ck => (intro hx; clear_value x)
            case' cv => (unfold x; clear x))
         | skip)
    | split

theorem State.reqApplied_keeps {q : List Instr} (r : DictReq) (s : State) (h : Good q s) : Good q (State.reqApplied r s).1 := by
  unfold State.reqApplied
  repeat' first
    | with_reducible assumption
    | intro _
    | with_reducible apply good_ite
    | with_reducible apply good_ite_fst
    | with_reducible apply good_ite_snd
    | with_reducible apply State.answer_keeps
    | with_reducible apply State.entryLook_keeps
    | with_reducible apply State.storeMark_keeps
    | (extract_lets +onlyGivenNames x
       first
         | (refine good_cut (q := q) x ?cv ?ck
            case' ck => (intro hx; clear_value x)
            case' cv => (unfold x; clear x))
         | (refine good_cut_fst (q := q) x ?cv ?ck
            case' ck => (intro hx; clear_value x)
            case' cv => (unfold x; clear x))
         | (refine good_cut_snd (q := q) x ?cv ?ck
            case' ck => (intro hx; clear_value x)
            case' cv => (unfold x; clear x))
         | skip)
    | split
    | with_reducible apply good_mk
    | with_reducible rfl

theorem State.throughReqs_keeps {q : List Instr} (f : DictReq → State → State × Option DictReq) (s : State)
    (hf : ∀ r s, Good q s → Good q (f r s).1) (h : Good q s) : Good q (State.throughReqs f s) := by
  unfold State.throughReqs
  extract_lets a
  have ha : Good q a.1 := good_foldl_fst (fun r x hr => hf _ _ hr) h
  exact good_mk ha (Eq.refl _) (Eq.refl _) (Eq.refl _) (Eq.refl _) (Eq.refl _) (Eq.refl _)

theorem State.dictApplied_keeps {q : List Instr} (s : State) (h : Good q s) : Good q (State.dictApplied s) := by
  unfold State.dictApplied
  repeat' first
    | with_reducible assumption
    | intro _
    | with_reducible apply good_ite
    | with_reducible apply good_ite_fst
    | with_reducible apply good_ite_snd
    | with_reducible apply State.throughReqs_keeps
    | with_reducible apply State.reqApplied_keeps
    | with_reducible apply State.storeMark_keeps
    | with_reducible apply good_foldl
    | with_reducible apply good_foldl_fst
    | with_reducible apply good_foldl_snd
    | (extract_lets +onlyGivenNames x
       first
         | (refine good_cut (q := q) x ?cv ?ck
            case' ck => (intro hx; clear_value x)
            case' cv => (unfold x; clear x))
         | (refine good_cut_fst (q := q) x ?cv ?ck
            case' ck => (intro hx; clear_value x)
            case' cv => (unfold x; clear x))
         | (refine good_cut_snd (q := q) x ?cv ?ck
            case' ck => (intro hx; clear_value x)
            case' cv => (unfold x; clear x))
         | skip)
    | with_reducible apply good_mk
    | with_reducible rfl

theorem State.reqLatched_keeps {q : List Instr} (r : DictReq) (s : State) (h : Good q s) : Good q (State.reqLatched r s).1 := by
  unfold State.reqLatched
  repeat' first
    | with_reducible assumption
    | intro _
    | with_reducible apply good_ite
    | with_reducible apply good_ite_fst
    | with_reducible apply good_ite_snd
    | with_reducible apply State.answer_keeps
    | split
    | with_reducible apply good_mk
    | with_reducible rfl

theorem State.dictLatchEnd_keeps {q : List Instr} (s : State) (h : Good q s) : Good q (State.dictLatchEnd s) := by
  unfold State.dictLatchEnd
  extract_lets t due
  have ht : Good q t := State.dictSettle_keeps _ (State.throughReqs_keeps _ _ (fun r u hu => State.reqLatched_keeps r u hu) h)
  exact good_mk ht (Eq.refl _) (Eq.refl _) (Eq.refl _) (Eq.refl _) (Eq.refl _) (Eq.refl _)

theorem State.svCatchUp_keeps {q : List Instr} (s : State) (h : Good q s) : Good q (State.svCatchUp s) := by
  unfold State.svCatchUp
  repeat' first
    | with_reducible assumption
    | intro _
    | with_reducible apply good_ite
    | with_reducible apply State.dictLatchEnd_keeps
    | split
    | with_reducible apply good_mk
    | with_reducible rfl

theorem opUserReadTaken_keeps {q : List Instr} (s : State) (h : Good q s) : Good q (opUserReadTaken s) := by
  unfold opUserReadTaken
  repeat' first
    | with_reducible assumption
    | intro _
    | with_reducible apply good_ite
    | with_reducible apply State.entryLook_keeps
    | with_reducible apply State.answer_keeps
    | with_reducible apply State.svCatchUp_keeps
    | with_reducible apply State.dictSettle_keeps
    | with_reducible apply good_foldl
    | with_reducible apply good_foldl_fst
    | with_reducible apply good_foldl_snd
    | (extract_lets +onlyGivenNames x
       first
         | (refine good_cut (q := q) x ?cv ?ck
            case' ck => (intro hx; clear_value x)
            case' cv => (unfold x; clear x))
         | (refine good_cut_fst (q := q) x ?cv ?ck
            case' ck => (intro hx; clear_value x)
            case' cv => (unfold x; clear x))
         | (refine good_cut_snd (q := q) x ?cv ?ck
            case' ck => (intro hx; clear_value x)
            case' cv => (unfold x; clear x))
         | skip)
    | split
    | with_reducible apply good_mk
    | with_reducible rfl

theorem State.writeAll_keeps {q : List Instr} (dev : List (Param × List Byte)) (user : List (UEntry × List Byte)) (s : State) (h : Good q s) : Good q (State.writeAll dev user s).1 := by
  unfold State.writeAll
  repeat' first
    | with_reducible assumption
    | intro _
    | with_reducible apply good_ite
    | with_reducible apply good_ite_fst
    | with_reducible apply good_ite_snd
    | with_reducible apply State.devWrite_keeps
    | with_reducible apply State.defer_keeps
    | with_reducible apply State.put_keeps
    | with_reducible apply good_foldl
    | with_reducible apply good_foldl_fst
    | with_reducible apply good_foldl_snd
    | (extract_lets +onlyGivenNames x
       first
         | (refine good_cut (q := q) x ?cv ?ck
            case' ck => (intro hx; clear_value x)
            case' cv => (unfold x; clear x))
         | (refine good_cut_fst (q := q) x ?cv ?ck
            case' ck => (intro hx; clear_value x)
            case' cv => (unfold x; clear x))
         | (refine good_cut_snd (q := q) x ?cv ?ck
            case' ck => (intro hx; clear_value x)
            case' cv => (unfold x; clear x))
         | skip)
    | split
    | with_reducible apply good_mk
    | with_reducible rfl

theorem State.cmdReply_keeps {q : List Instr} (i : Nat) (m : Msg) (st : Nat) (d : List Byte) (s : State) (h : Good q s) : Good q (State.cmdReply i m st d s) := by
  unfold State.cmdReply
  repeat' first
    | with_reducible assumption
    | intro _
    | with_reducible apply State.sessReply_keeps

theorem State.dictCmd_keeps {q : List Instr} (roles : List Nat) (f : List Nat → State → State × Nat) (i : Nat) (x : Sess) (m : Msg) (s : State) (hff : ∀ x0 x1, Good q x1 → Good q (f x0 x1).1) (h : Good q s) : Good q (State.dictCmd roles f i x m s) := by
  unfold State.dictCmd
  repeat' first
    | with_reducible assumption
    | intro _
    | with_reducible apply good_ite
    | with_reducible apply State.cmdReply_keeps
    | with_reducible apply State.dictSettle_keeps
    | with_reducible apply hff
    | (extract_lets +onlyGivenNames x
       first
         | (refine good_cut (q := q) x ?cv ?ck
            case' ck => (intro hx; clear_value x)
            case' cv => (unfold x; clear x))
         | (refine good_cut_fst (q := q) x ?cv ?ck
            case' ck => (intro hx; clear_value x)
            case' cv => (unfold x; clear x))
         | (refine good_cut_snd (q := q) x ?cv ?ck
            case' ck => (intro hx; clear_value x)
            case' cv => (unfold x; clear x))
         | skip)
    | split

theorem State.dictFront_keeps {q : List Instr} (p : Nat) (code : Nat) (f : Nat → Sess → Msg → State → State) (s : State) (hff : ∀ x0 x1 x2 x3, Good q x3 → Good q (f x0 x1 x2 x3)) (h : Good q s) : Good q (State.dictFront p code f s) := by
  unfold State.dictFront
  repeat' first
    | with_reducible assumption
    | intro _
    | with_reducible apply good_ite
    | with_reducible apply hff
    | with_reducible apply State.serveFront_keeps
    | split

theorem opStoreGroup_keeps {q : List Instr} (p : Nat) (s : State) (h : Good q s) : Good q (opStoreGroup p s) := by
  unfold opStoreGroup
  repeat' first
    | with_reducible assumption
    | intro _
    | with_reducible apply good_ite
    | with_reducible apply State.dictFront_keeps
    | with_reducible apply State.dictCmd_keeps
    | with_reducible apply State.entryLook_keeps
    | with_reducible apply good_foldl
    | with_reducible apply good_foldl_fst
    | with_reducible apply good_foldl_snd
    | (extract_lets +onlyGivenNames x
       first
         | (refine good_cut (q := q) x ?cv ?ck
            case' ck => (intro hx; clear_value x)
            case' cv => (unfold x; clear x))
         | (refine good_cut_fst (q := q) x ?cv ?ck
            case' ck => (intro hx; clear_value x)
            case' cv => (unfold x; clear x))
         | (refine good_cut_snd (q := q) x ?cv ?ck
            case' ck => (intro hx; clear_value x)
            case' cv => (unfold x; clear x))
         | skip)
    | with_reducible apply good_mk
    | with_reducible rfl

theorem opDefaultsGroup_keeps {q : List Instr} (p : Nat) (s : State) (h : Good q s) : Good q (opDefaultsGroup p s) := by
  unfold opDefaultsGroup
  repeat' first
    | with_reducible assumption
    | intro _
    | with_reducible apply good_ite
    | with_reducible apply good_ite_fst
    | with_reducible apply good_ite_snd
    | with_reducible apply State.dictFront_keeps
    | with_reducible apply State.dictCmd_keeps
    | with_reducible apply State.writeAll_keeps
    | (extract_lets +onlyGivenNames x
       first
         | (refine good_cut (q := q) x ?cv ?ck
            case' ck => (intro hx; clear_value x)
            case' cv => (unfold x; clear x))
         | (refine good_cut_fst (q := q) x ?cv ?ck
            case' ck => (intro hx; clear_value x)
            case' cv => (unfold x; clear x))
         | (refine good_cut_snd (q := q) x ?cv ?ck
            case' ck => (intro hx; clear_value x)
            case' cv => (unfold x; clear x))
         | skip)
    | split
    | with_reducible apply good_mk
    | with_reducible rfl

theorem opReloadGroup_keeps {q : List Instr} (p : Nat) (s : State) (h : Good q s) : Good q (opReloadGroup p s) := by
  unfold opReloadGroup
  repeat' first
    | with_reducible assumption
    | intro _
    | with_reducible apply good_ite
    | with_reducible apply State.dictFront_keeps
    | with_reducible apply State.dictCmd_keeps
    | with_reducible apply State.writeAll_keeps
    | (extract_lets +onlyGivenNames x
       first
         | (refine good_cut (q := q) x ?cv ?ck
            case' ck => (intro hx; clear_value x)
            case' cv => (unfold x; clear x))
         | (refine good_cut_fst (q := q) x ?cv ?ck
            case' ck => (intro hx; clear_value x)
            case' cv => (unfold x; clear x))
         | (refine good_cut_snd (q := q) x ?cv ?ck
            case' ck => (intro hx; clear_value x)
            case' cv => (unfold x; clear x))
         | skip)

theorem State.batchApply_keeps {q : List Instr} (s : State) (h : Good q s) : Good q (State.batchApply s) := by
  unfold State.batchApply
  repeat' first
    | with_reducible assumption
    | intro _
    | with_reducible apply State.devWrite_keeps
    | with_reducible apply good_foldl
    | with_reducible apply good_foldl_fst
    | with_reducible apply good_foldl_snd
    | (extract_lets +onlyGivenNames x
       first
         | (refine good_cut (q := q) x ?cv ?ck
            case' ck => (intro hx; clear_value x)
            case' cv => (unfold x; clear x))
         | (refine good_cut_fst (q := q) x ?cv ?ck
            case' ck => (intro hx; clear_value x)
            case' cv => (unfold x; clear x))
         | (refine good_cut_snd (q := q) x ?cv ?ck
            case' ck => (intro hx; clear_value x)
            case' cv => (unfold x; clear x))
         | skip)
    | split
    | with_reducible apply good_mk
    | with_reducible rfl

theorem State.bindStage_keeps {q : List Instr} (t : List Byte) (s : State) (h : Good q s) : Good q (State.bindStage t s) := by
  unfold State.bindStage
  repeat' first
    | with_reducible assumption
    | intro _
    | (extract_lets +onlyGivenNames x
       first
         | (refine good_cut (q := q) x ?cv ?ck
            case' ck => (intro hx; clear_value x)
            case' cv => (unfold x; clear x))
         | (refine good_cut_fst (q := q) x ?cv ?ck
            case' ck => (intro hx; clear_value x)
            case' cv => (unfold x; clear x))
         | (refine good_cut_snd (q := q) x ?cv ?ck
            case' ck => (intro hx; clear_value x)
            case' cv => (unfold x; clear x))
         | skip)
    | split
    | with_reducible apply good_mk
    | with_reducible rfl

theorem State.bindSwitch_keeps {q : List Instr} (s : State) (h : Good q s) : Good q (State.bindSwitch s) := by
  unfold State.bindSwitch
  repeat' first
    | with_reducible assumption
    | intro _
    | with_reducible apply good_ite
    | with_reducible apply State.keepWait_keeps
    | with_reducible apply good_foldl
    | with_reducible apply good_foldl_fst
    | with_reducible apply good_foldl_snd
    | (extract_lets +onlyGivenNames x
       first
         | (refine good_cut (q := q) x ?cv ?ck
            case' ck => (intro hx; clear_value x)
            case' cv => (unfold x; clear x))
         | (refine good_cut_fst (q := q) x ?cv ?ck
            case' ck => (intro hx; clear_value x)
            case' cv => (unfold x; clear x))
         | (refine good_cut_snd (q := q) x ?cv ?ck
            case' ck => (intro hx; clear_value x)
            case' cv => (unfold x; clear x))
         | skip)
    | split
    | with_reducible apply good_mk
    | with_reducible rfl

theorem State.bindFresh_keeps {q : List Instr} (s : State) (h : Good q s) : Good q (State.bindFresh s) := by
  unfold State.bindFresh
  repeat' first
    | with_reducible assumption
    | intro _
    | with_reducible apply good_ite
    | with_reducible apply good_ite_fst
    | with_reducible apply good_ite_snd
    | with_reducible apply State.storeWords_keeps
    | with_reducible apply good_foldl
    | with_reducible apply good_foldl_fst
    | with_reducible apply good_foldl_snd
    | (extract_lets +onlyGivenNames x
       first
         | (refine good_cut (q := q) x ?cv ?ck
            case' ck => (intro hx; clear_value x)
            case' cv => (unfold x; clear x))
         | (refine good_cut_fst (q := q) x ?cv ?ck
            case' ck => (intro hx; clear_value x)
            case' cv => (unfold x; clear x))
         | (refine good_cut_snd (q := q) x ?cv ?ck
            case' ck => (intro hx; clear_value x)
            case' cv => (unfold x; clear x))
         | skip)
    | split
    | with_reducible apply good_mk
    | with_reducible rfl

theorem State.bindTick_keeps {q : List Instr} (switched : Bool) (s : State) (h : Good q s) : Good q (State.bindTick switched s) := by
  unfold State.bindTick
  repeat' first
    | with_reducible assumption
    | intro _
    | with_reducible apply good_ite
    | with_reducible apply State.bindFresh_keeps
    | with_reducible apply State.bindSwitch_keeps
    | (extract_lets +onlyGivenNames x
       first
         | (refine good_cut (q := q) x ?cv ?ck
            case' ck => (intro hx; clear_value x)
            case' cv => (unfold x; clear x))
         | (refine good_cut_fst (q := q) x ?cv ?ck
            case' ck => (intro hx; clear_value x)
            case' cv => (unfold x; clear x))
         | (refine good_cut_snd (q := q) x ?cv ?ck
            case' ck => (intro hx; clear_value x)
            case' cv => (unfold x; clear x))
         | skip)
    | split

theorem State.resetListAdd_keeps {q : List Instr} (g : Nat) (s : State) (h : Good q s) : Good q (State.resetListAdd g s) := by
  unfold State.resetListAdd
  repeat' first
    | with_reducible assumption
    | intro _
    | with_reducible apply good_ite
    | with_reducible apply State.keepWait_keeps
    | (extract_lets +onlyGivenNames x
       first
         | (refine good_cut (q := q) x ?cv ?ck
            case' ck => (intro hx; clear_value x)
            case' cv => (unfold x; clear x))
         | (refine good_cut_fst (q := q) x ?cv ?ck
            case' ck => (intro hx; clear_value x)
            case' cv => (unfold x; clear x))
         | (refine good_cut_snd (q := q) x ?cv ?ck
            case' ck => (intro hx; clear_value x)
            case' cv => (unfold x; clear x))
         | skip)

theorem State.oddGroups_keeps {q : List Instr} (nums : List Nat) (s : State) (h : Good q s) : Good q (State.oddGroups nums s).1 := by
  unfold State.oddGroups
  repeat' first
    | with_reducible assumption
    | intro _
    | with_reducible apply good_ite
    | with_reducible apply good_ite_fst
    | with_reducible apply good_ite_snd
    | with_reducible apply State.warn_keeps
    | with_reducible apply State.resetListAdd_keeps
    | with_reducible apply good_foldl
    | with_reducible apply good_foldl_fst
    | with_reducible apply good_foldl_snd
    | (extract_lets +onlyGivenNames x
       first
         | (refine good_cut (q := q) x ?cv ?ck
            case' ck => (intro hx; clear_value x)
            case' cv => (unfold x; clear x))
         | (refine good_cut_fst (q := q) x ?cv ?ck
            case' ck => (intro hx; clear_value x)
            case' cv => (unfold x; clear x))
         | (refine good_cut_snd (q := q) x ?cv ?ck
            case' ck => (intro hx; clear_value x)
            case' cv => (unfold x; clear x))
         | skip)
    | split
    | with_reducible apply good_mk
    | with_reducible rfl

theorem State.bindLoad_keeps {q : List Instr} (s : State) (h : Good q s) : Good q (State.bindLoad s) := by
  unfold State.bindLoad
  repeat' first
    | with_reducible assumption
    | intro _
    | with_reducible apply good_ite
    | with_reducible apply good_ite_fst
    | with_reducible apply good_ite_snd
    | with_reducible apply State.check_keeps
    | with_reducible apply State.oddGroups_keeps
    | with_reducible apply State.storeWords_keeps
    | with_reducible apply State.note_keeps
    | with_reducible apply good_foldl
    | with_reducible apply good_foldl_fst
    | with_reducible apply good_foldl_snd
    | (extract_lets +onlyGivenNames x
       first
         | (refine good_cut (q := q) x ?cv ?ck
            case' ck => (intro hx; clear_value x)
            case' cv => (unfold x; clear x))
         | (refine good_cut_fst (q := q) x ?cv ?ck
            case' ck => (intro hx; clear_value x)
            case' cv => (unfold x; clear x))
         | (refine good_cut_snd (q := q) x ?cv ?ck
            case' ck => (intro hx; clear_value x)
            case' cv => (unfold x; clear x))
         | skip)
    | split
    | with_reducible apply good_mk
    | with_reducible rfl

theorem State.loadOne_keeps {q : List Instr} (p : Param) (d : List Byte) (s : State) (h : Good q s) : Good q (State.loadOne p d s) := by
  unfold State.loadOne
  repeat' first
    | with_reducible assumption
    | intro _
    | with_reducible apply good_ite
    | with_reducible apply good_ite_fst
    | with_reducible apply good_ite_snd
    | with_reducible apply State.devWrite_keeps

theorem State.loadDefaults_keeps {q : List Instr} (l : List Param) (s : State) (h : Good q s) : Good q (State.loadDefaults l s) :=
  good_foldl (fun u p hu => State.loadOne_keeps p _ u hu) h

theorem State.loadKept_keeps {q : List Instr} (odd : List Nat) (l : List Param) (s : State) (h : Good q s) : Good q (State.loadKept odd l s) :=
  good_foldl (fun u p hu => good_ite (State.note_keeps _ _ _ (State.loadOne_keeps p _ u hu)) (State.loadOne_keeps p _ u hu)) h

theorem State.lackNote_keeps {q : List Instr} (odd : List Nat) (n : Nat) (s : State) (h : Good q s) : Good q (State.lackNote odd n s) := by
  unfold State.lackNote
  repeat' first
    | with_reducible assumption
    | intro _
    | with_reducible apply good_ite
    | with_reducible apply State.note_keeps
    | split

theorem State.loadCounts_keeps {q : List Instr} (odd : List Nat) (s : State) (h : Good q s) : Good q (State.loadCounts odd s) := by
  unfold State.loadCounts
  repeat' first
    | with_reducible assumption
    | intro _
    | with_reducible apply good_ite
    | with_reducible apply State.lackNote_keeps
    | with_reducible apply State.put_keeps
    | (extract_lets +onlyGivenNames x
       first
         | (refine good_cut (q := q) x ?cv ?ck
            case' ck => (intro hx; clear_value x)
            case' cv => (unfold x; clear x))
         | (refine good_cut_fst (q := q) x ?cv ?ck
            case' ck => (intro hx; clear_value x)
            case' cv => (unfold x; clear x))
         | (refine good_cut_snd (q := q) x ?cv ?ck
            case' ck => (intro hx; clear_value x)
            case' cv => (unfold x; clear x))
         | skip)
    | split
    | with_reducible apply good_mk
    | with_reducible rfl

theorem State.loadKeys_keeps {q : List Instr} (s : State) (h : Good q s) : Good q (State.loadKeys s) := by
  unfold State.loadKeys
  repeat' first
    | with_reducible assumption
    | intro _
    | with_reducible apply good_ite
    | with_reducible apply State.setKey_keeps
    | with_reducible apply good_foldl
    | with_reducible apply good_foldl_fst
    | with_reducible apply good_foldl_snd
    | (extract_lets +onlyGivenNames x
       first
         | (refine good_cut (q := q) x ?cv ?ck
            case' ck => (intro hx; clear_value x)
            case' cv => (unfold x; clear x))
         | (refine good_cut_fst (q := q) x ?cv ?ck
            case' ck => (intro hx; clear_value x)
            case' cv => (unfold x; clear x))
         | (refine good_cut_snd (q := q) x ?cv ?ck
            case' ck => (intro hx; clear_value x)
            case' cv => (unfold x; clear x))
         | skip)
    | split
    | with_reducible apply good_mk
    | with_reducible rfl

theorem State.loadLife_keeps {q : List Instr} (odd : List Nat) (s : State) (h : Good q s) : Good q (State.loadLife odd s) := by
  unfold State.loadLife
  repeat' first
    | with_reducible assumption
    | intro _
    | with_reducible apply good_ite
    | with_reducible apply State.lackNote_keeps
    | (extract_lets +onlyGivenNames x
       first
         | (refine good_cut (q := q) x ?cv ?ck
            case' ck => (intro hx; clear_value x)
            case' cv => (unfold x; clear x))
         | (refine good_cut_fst (q := q) x ?cv ?ck
            case' ck => (intro hx; clear_value x)
            case' cv => (unfold x; clear x))
         | (refine good_cut_snd (q := q) x ?cv ?ck
            case' ck => (intro hx; clear_value x)
            case' cv => (unfold x; clear x))
         | skip)
    | split
    | with_reducible apply good_mk
    | with_reducible rfl

theorem State.dictLoad_keeps {q : List Instr} (s : State) (h : Good q s) : Good q (State.dictLoad s) := by
  unfold State.dictLoad
  extract_lets o
  have ho : Good q o.1 := State.oddGroups_keeps _ _ (State.loadDefaults_keeps _ _ h)
  exact State.dictSettle_keeps _ (State.loadLife_keeps _ _ (State.loadKeys_keeps _ (State.loadCounts_keeps _ _ (State.loadKept_keeps _ _ _ ho))))

theorem State.hoursTick_keeps {q : List Instr} (s : State) (h : Good q s) : Good q (State.hoursTick s) := by
  unfold State.hoursTick
  repeat' first
    | with_reducible assumption
    | intro _
    | with_reducible apply good_ite
    | with_reducible apply good_ite_fst
    | with_reducible apply good_ite_snd
    | (extract_lets +onlyGivenNames x
       first
         | (refine good_cut (q := q) x ?cv ?ck
            case' ck => (intro hx; clear_value x)
            case' cv => (unfold x; clear x))
         | (refine good_cut_fst (q := q) x ?cv ?ck
            case' ck => (intro hx; clear_value x)
            case' cv => (unfold x; clear x))
         | (refine good_cut_snd (q := q) x ?cv ?ck
            case' ck => (intro hx; clear_value x)
            case' cv => (unfold x; clear x))
         | skip)
    | with_reducible apply good_mk
    | split
    | with_reducible rfl

theorem State.policyDrop_keeps {q : List Instr} (s : State) (h : Good q s) : Good q (State.policyDrop s) := by
  unfold State.policyDrop
  repeat' first
    | with_reducible assumption
    | intro _
    | with_reducible apply good_ite
    | with_reducible apply opExcCmdPenleave_keeps
    | (extract_lets +onlyGivenNames x
       first
         | (refine good_cut (q := q) x ?cv ?ck
            case' ck => (intro hx; clear_value x)
            case' cv => (unfold x; clear x))
         | (refine good_cut_fst (q := q) x ?cv ?ck
            case' ck => (intro hx; clear_value x)
            case' cv => (unfold x; clear x))
         | (refine good_cut_snd (q := q) x ?cv ?ck
            case' ck => (intro hx; clear_value x)
            case' cv => (unfold x; clear x))
         | skip)
    | split
    | with_reducible apply good_mk
    | with_reducible rfl

theorem State.policyPen_keeps {q : List Instr} (s : State) (h : Good q s) : Good q (State.policyPen s) := by
  unfold State.policyPen
  repeat' first
    | with_reducible assumption
    | intro _
    | with_reducible apply good_ite
    | with_reducible apply opExcCmdPenenter_keeps
    | (extract_lets +onlyGivenNames x
       first
         | (refine good_cut (q := q) x ?cv ?ck
            case' ck => (intro hx; clear_value x)
            case' cv => (unfold x; clear x))
         | (refine good_cut_fst (q := q) x ?cv ?ck
            case' ck => (intro hx; clear_value x)
            case' cv => (unfold x; clear x))
         | (refine good_cut_snd (q := q) x ?cv ?ck
            case' ck => (intro hx; clear_value x)
            case' cv => (unfold x; clear x))
         | skip)
    | split
    | with_reducible apply good_mk
    | with_reducible rfl

theorem State.policyHold_keeps {q : List Instr} (s : State) (h : Good q s) : Good q (State.policyHold s) := by
  unfold State.policyHold
  repeat' first
    | with_reducible assumption
    | intro _
    | with_reducible apply good_ite
    | with_reducible apply opModeRequest_keeps
    | with_reducible apply good_mk
    | with_reducible rfl

theorem opPolicyAction_keeps {q : List Instr} (k : Nat) (s : State) (h : Good q s) : Good q (opPolicyAction k s) := by
  unfold opPolicyAction
  repeat' first
    | with_reducible assumption
    | intro _
    | with_reducible apply good_ite
    | with_reducible apply State.policyDrop_keeps
    | with_reducible apply State.noteFor_keeps
    | with_reducible apply State.policyPen_keeps
    | with_reducible apply opExcCmdEnter_keeps
    | with_reducible apply State.policyHold_keeps
    | with_reducible apply good_foldl
    | with_reducible apply good_foldl_fst
    | with_reducible apply good_foldl_snd
    | (extract_lets +onlyGivenNames x
       first
         | (refine good_cut (q := q) x ?cv ?ck
            case' ck => (intro hx; clear_value x)
            case' cv => (unfold x; clear x))
         | (refine good_cut_fst (q := q) x ?cv ?ck
            case' ck => (intro hx; clear_value x)
            case' cv => (unfold x; clear x))
         | (refine good_cut_snd (q := q) x ?cv ?ck
            case' ck => (intro hx; clear_value x)
            case' cv => (unfold x; clear x))
         | skip)
    | split
    | with_reducible apply good_mk
    | with_reducible rfl

theorem State.policyTick_keeps {q : List Instr} (s : State) (h : Good q s) : Good q (State.policyTick s) := by
  unfold State.policyTick
  repeat' first
    | with_reducible assumption
    | intro _
    | with_reducible apply good_ite
    | with_reducible apply State.policyDrop_keeps
    | with_reducible apply State.policyPen_keeps
    | with_reducible apply State.policyHold_keeps
    | (extract_lets +onlyGivenNames x
       first
         | (refine good_cut (q := q) x ?cv ?ck
            case' ck => (intro hx; clear_value x)
            case' cv => (unfold x; clear x))
         | (refine good_cut_fst (q := q) x ?cv ?ck
            case' ck => (intro hx; clear_value x)
            case' cv => (unfold x; clear x))
         | (refine good_cut_snd (q := q) x ?cv ?ck
            case' ck => (intro hx; clear_value x)
            case' cv => (unfold x; clear x))
         | skip)
    | split
    | with_reducible apply good_mk
    | with_reducible rfl

end Sys2Proof.Machine
end

