-- ==== Sys2Proof/Laws/KeepsServices.lean ====
section
/-! SUPPORT. Laws/KeepsServices.lean: every operation of Machine/Services.lean keeps `Good`. -/

namespace Sys2Proof.Machine

theorem State.openFailed_keeps {q : List Instr} (p : Nat) (s : State) (h : Good q s) : Good q (State.openFailed p s) := by
  unfold State.openFailed
  repeat' first
    | with_reducible assumption
    | intro _
    | with_reducible apply good_ite
    | with_reducible apply State.put_keeps
    | with_reducible apply State.portDrop_keeps
    | with_reducible apply State.warn_keeps
    | with_reducible apply State.portErr_keeps
    | with_reducible apply State.upPort_keeps

theorem State.openReply_keeps {q : List Instr} (p : Nat) (udp : Nat) (st : Nat) (sid : Nat) (key : List Byte) (d : List Byte) (s : State) (h : Good q s) : Good q (State.openReply p udp st sid key d s) := by
  unfold State.openReply
  repeat' first
    | with_reducible assumption
    | intro _
    | with_reducible apply State.portSend_keeps

theorem State.freshId_keeps {q : List Instr} (s : State) (h : Good q s) : Good q (State.freshId s).2 := by
  unfold State.freshId
  repeat' first
    | with_reducible assumption
    | intro _
    | with_reducible apply good_ite
    | with_reducible apply good_ite_fst
    | with_reducible apply good_ite_snd
    | with_reducible apply State.rng_keeps

theorem State.openGrant_keeps {q : List Instr} (p : Nat) (r : Nat) (udp : Nat) (i : Nat) (key : List Byte) (nc : List Byte) (s : State) (h : Good q s) : Good q (State.openGrant p r udp i key nc s) := by
  unfold State.openGrant
  repeat' first
    | with_reducible assumption
    | intro _
    | with_reducible apply State.freshId_keeps
    | with_reducible apply State.nonce_keeps
    | with_reducible apply State.setKey_keeps
    | with_reducible apply State.openReply_keeps
    | (extract_lets +onlyGivenNames x
       first
         | (refine good_cut (q := q) x ?cv ?ck
            case' ck => (intro hx; clear_value x)
            case' cv => (unfold x; clear x))
         | (refine good_cut_fst (q := q) x ?cv ?ck
            case' ck => (intro hx; clear_value x)
            case' cv => (unfold x; clear x))
         | (refine good_cut_snd (q := q) x ?cv ?ck
            case' ck => (intro hx; clear_value x)
            case' cv => (unfold x; clear x))
         | skip)
    | with_reducible apply good_mk
    | with_reducible rfl

theorem opOpenSession_keeps {q : List Instr} (p : Nat) (s : State) (h : Good q s) : Good q (opOpenSession p s) := by
  unfold opOpenSession
  repeat' first
    | with_reducible assumption
    | intro _
    | with_reducible apply good_ite
    | with_reducible apply State.popFront_keeps
    | with_reducible apply State.openFailed_keeps
    | with_reducible apply State.partnerHeard_keeps
    | with_reducible apply State.warn_keeps
    | with_reducible apply State.openReply_keeps
    | with_reducible apply State.openGrant_keeps
    | (extract_lets +onlyGivenNames x
       first
         | (refine good_cut (q := q) x ?cv ?ck
            case' ck => (intro hx; clear_value x)
            case' cv => (unfold x; clear x))
         | (refine good_cut_fst (q := q) x ?cv ?ck
            case' ck => (intro hx; clear_value x)
            case' cv => (unfold x; clear x))
         | (refine good_cut_snd (q := q) x ?cv ?ck
            case' ck => (intro hx; clear_value x)
            case' cv => (unfold x; clear x))
         | skip)
    | split

theorem opOpenLockoutEnd_keeps {q : List Instr} (p : Nat) (s : State) (h : Good q s) : Good q (opOpenLockoutEnd p s) := by
  unfold opOpenLockoutEnd
  repeat' first
    | with_reducible assumption
    | intro _
    | with_reducible apply good_ite
    | with_reducible apply State.put_keeps
    | with_reducible apply State.advance_keeps

theorem opCloseSession_keeps {q : List Instr} (p : Nat) (s : State) (h : Good q s) : Good q (opCloseSession p s) := by
  unfold opCloseSession
  repeat' first
    | with_reducible assumption
    | intro _
    | with_reducible apply State.serveFront_keeps
    | with_reducible apply State.sessClose_keeps
    | with_reducible apply State.sessReply_keeps

theorem opKeepAlive_keeps {q : List Instr} (p : Nat) (s : State) (h : Good q s) : Good q (opKeepAlive p s) := by
  unfold opKeepAlive
  repeat' first
    | with_reducible assumption
    | intro _
    | with_reducible apply State.serveFront_keeps

theorem opSessionIdleTimeout_keeps {q : List Instr} (i : Nat) (s : State) (h : Good q s) : Good q (opSessionIdleTimeout i s) := by
  unfold opSessionIdleTimeout
  repeat' first
    | with_reducible assumption
    | intro _
    | with_reducible apply State.sessClose_keeps
    | with_reducible apply State.advance_keeps
    | split

theorem State.rekeyed_keeps {q : List Instr} (i : Nat) (mine : List Byte) (theirs : List Byte) (s : State) (h : Good q s) : Good q (State.rekeyed i mine theirs s) := by
  unfold State.rekeyed
  repeat' first
    | with_reducible assumption
    | intro _
    | with_reducible apply good_ite
    | with_reducible apply State.setKey_keeps
    | with_reducible apply State.upSess_keeps
    | (extract_lets +onlyGivenNames x
       first
         | (refine good_cut (q := q) x ?cv ?ck
            case' ck => (intro hx; clear_value x)
            case' cv => (unfold x; clear x))
         | (refine good_cut_fst (q := q) x ?cv ?ck
            case' ck => (intro hx; clear_value x)
            case' cv => (unfold x; clear x))
         | (refine good_cut_snd (q := q) x ?cv ?ck
            case' ck => (intro hx; clear_value x)
            case' cv => (unfold x; clear x))
         | skip)
    | with_reducible apply good_mk
    | with_reducible rfl

theorem opRekeySession_keeps {q : List Instr} (p : Nat) (s : State) (h : Good q s) : Good q (opRekeySession p s) := by
  unfold opRekeySession
  repeat' first
    | with_reducible assumption
    | intro _
    | with_reducible apply good_ite
    | with_reducible apply good_ite_fst
    | with_reducible apply good_ite_snd
    | with_reducible apply State.serveFront_keeps
    | with_reducible apply State.rekeyed_keeps
    | with_reducible apply State.sessReply_keeps
    | with_reducible apply State.nonce_keeps
    | (extract_lets +onlyGivenNames x
       first
         | (refine good_cut (q := q) x ?cv ?ck
            case' ck => (intro hx; clear_value x)
            case' cv => (unfold x; clear x))
         | (refine good_cut_fst (q := q) x ?cv ?ck
            case' ck => (intro hx; clear_value x)
            case' cv => (unfold x; clear x))
         | (refine good_cut_snd (q := q) x ?cv ?ck
            case' ck => (intro hx; clear_value x)
            case' cv => (unfold x; clear x))
         | skip)
    | split

theorem opRekeyOldKeyExpiry_keeps {q : List Instr} (i : Nat) (s : State) (h : Good q s) : Good q (opRekeyOldKeyExpiry i s) := by
  unfold opRekeyOldKeyExpiry
  repeat' first
    | with_reducible assumption
    | intro _
    | with_reducible apply good_ite
    | with_reducible apply State.upSess_keeps
    | with_reducible apply State.advance_keeps
    | split

theorem opMapMessage_keeps {q : List Instr} (p : Nat) (s : State) (h : Good q s) : Good q (opMapMessage p s) := by
  unfold opMapMessage
  repeat' first
    | with_reducible assumption
    | intro _
    | with_reducible apply good_ite
    | with_reducible apply State.serveFront_keeps
    | with_reducible apply State.portDrop_keeps
    | with_reducible apply State.upPort_keeps

theorem opSubscribe_keeps {q : List Instr} (op : Nat) (p : Nat) (f : Nat → Sess → Msg → State → State) (s : State) (hff : ∀ x0 x1 x2 x3, Good q x3 → Good q (f x0 x1 x2 x3)) (h : Good q s) : Good q (opSubscribe op p f s) := by
  unfold opSubscribe
  repeat' first
    | with_reducible assumption
    | intro _
    | with_reducible apply State.serveFront_keeps

theorem opSubscribeCreate_keeps {q : List Instr} (p : Nat) (s : State) (h : Good q s) : Good q (opSubscribeCreate p s) := by
  unfold opSubscribeCreate
  repeat' first
    | with_reducible assumption
    | intro _
    | with_reducible apply good_ite
    | with_reducible apply opSubscribe_keeps
    | with_reducible apply State.sessReply_keeps
    | with_reducible apply State.upSess_keeps
    | (extract_lets +onlyGivenNames x
       first
         | (refine good_cut (q := q) x ?cv ?ck
            case' ck => (intro hx; clear_value x)
            case' cv => (unfold x; clear x))
         | (refine good_cut_fst (q := q) x ?cv ?ck
            case' ck => (intro hx; clear_value x)
            case' cv => (unfold x; clear x))
         | (refine good_cut_snd (q := q) x ?cv ?ck
            case' ck => (intro hx; clear_value x)
            case' cv => (unfold x; clear x))
         | skip)
    | split
    | with_reducible apply good_mk
    | with_reducible rfl

theorem opSubscribeDelete_keeps {q : List Instr} (p : Nat) (s : State) (h : Good q s) : Good q (opSubscribeDelete p s) := by
  unfold opSubscribeDelete
  repeat' first
    | with_reducible assumption
    | intro _
    | with_reducible apply good_ite
    | with_reducible apply opSubscribe_keeps
    | with_reducible apply State.sessReply_keeps
    | with_reducible apply State.upSess_keeps

theorem opSubscribeNotifications_keeps {q : List Instr} (p : Nat) (s : State) (h : Good q s) : Good q (opSubscribeNotifications p s) := by
  unfold opSubscribeNotifications
  repeat' first
    | with_reducible assumption
    | intro _
    | with_reducible apply good_ite
    | with_reducible apply opSubscribe_keeps
    | with_reducible apply State.sessReply_keeps
    | with_reducible apply State.upSess_keeps

theorem opSubscribeList_keeps {q : List Instr} (p : Nat) (s : State) (h : Good q s) : Good q (opSubscribeList p s) := by
  unfold opSubscribeList
  repeat' first
    | with_reducible assumption
    | intro _
    | with_reducible apply opSubscribe_keeps
    | with_reducible apply State.sessReply_keeps

theorem State.mapLook_keeps {q : List Instr} (s : State) (b : List Byte) (h : Good q s) : Good q (State.mapLook s b) := by
  unfold State.mapLook
  repeat' first
    | with_reducible assumption
    | intro _
    | with_reducible apply good_ite
    | with_reducible apply State.entryLook_keeps
    | with_reducible apply good_foldl
    | with_reducible apply good_foldl_fst
    | with_reducible apply good_foldl_snd
    | (extract_lets +onlyGivenNames x
       first
         | (refine good_cut (q := q) x ?cv ?ck
            case' ck => (intro hx; clear_value x)
            case' cv => (unfold x; clear x))
         | (refine good_cut_fst (q := q) x ?cv ?ck
            case' ck => (intro hx; clear_value x)
            case' cv => (unfold x; clear x))
         | (refine good_cut_snd (q := q) x ?cv ?ck
            case' ck => (intro hx; clear_value x)
            case' cv => (unfold x; clear x))
         | skip)
    | split
    | with_reducible apply good_mk
    | with_reducible rfl

theorem State.pubSess_keeps {q : List Instr} (due : PubMap → Bool) (i : Nat) (s : State) (h : Good q s) : Good q (State.pubSess due i s) := by
  unfold State.pubSess
  repeat' first
    | with_reducible assumption
    | intro _
    | with_reducible apply good_ite
    | with_reducible apply good_ite_fst
    | with_reducible apply good_ite_snd
    | with_reducible apply State.mapLook_keeps
    | with_reducible apply State.upSess_keeps
    | with_reducible apply good_foldl
    | with_reducible apply good_foldl_fst
    | with_reducible apply good_foldl_snd
    | (extract_lets +onlyGivenNames x
       first
         | (refine good_cut (q := q) x ?cv ?ck
            case' ck => (intro hx; clear_value x)
            case' cv => (unfold x; clear x))
         | (refine good_cut_fst (q := q) x ?cv ?ck
            case' ck => (intro hx; clear_value x)
            case' cv => (unfold x; clear x))
         | (refine good_cut_snd (q := q) x ?cv ?ck
            case' ck => (intro hx; clear_value x)
            case' cv => (unfold x; clear x))
         | skip)
    | split
    | with_reducible apply good_mk
    | with_reducible rfl

theorem State.pubWork_keeps {q : List Instr} (due : PubMap → Bool) (s : State) (h : Good q s) : Good q (State.pubWork due s) := by
  unfold State.pubWork
  repeat' first
    | with_reducible assumption
    | intro _
    | with_reducible apply good_ite
    | with_reducible apply State.pubSess_keeps
    | with_reducible apply State.seqGuard_keeps
    | with_reducible apply good_foldl
    | with_reducible apply good_foldl_fst
    | with_reducible apply good_foldl_snd
    | (extract_lets +onlyGivenNames x
       first
         | (refine good_cut (q := q) x ?cv ?ck
            case' ck => (intro hx; clear_value x)
            case' cv => (unfold x; clear x))
         | (refine good_cut_fst (q := q) x ?cv ?ck
            case' ck => (intro hx; clear_value x)
            case' cv => (unfold x; clear x))
         | (refine good_cut_snd (q := q) x ?cv ?ck
            case' ck => (intro hx; clear_value x)
            case' cv => (unfold x; clear x))
         | skip)

theorem State.upMaps_keeps {q : List Instr} (f : PubMap → PubMap) (s : State) (h : Good q s) : Good q (State.upMaps f s) := by
  unfold State.upMaps
  repeat' first
    | with_reducible assumption
    | intro _
    | with_reducible apply good_ite
    | with_reducible apply good_ite_fst
    | with_reducible apply good_ite_snd
    | (extract_lets +onlyGivenNames x
       first
         | (refine good_cut (q := q) x ?cv ?ck
            case' ck => (intro hx; clear_value x)
            case' cv => (unfold x; clear x))
         | (refine good_cut_fst (q := q) x ?cv ?ck
            case' ck => (intro hx; clear_value x)
            case' cv => (unfold x; clear x))
         | (refine good_cut_snd (q := q) x ?cv ?ck
            case' ck => (intro hx; clear_value x)
            case' cv => (unfold x; clear x))
         | skip)
    | with_reducible apply good_mk
    | with_reducible rfl

theorem State.pubPrep_keeps {q : List Instr} (s : State) (h : Good q s) : Good q (State.pubPrep s) := by
  unfold State.pubPrep
  repeat' first
    | with_reducible assumption
    | intro _
    | with_reducible apply good_ite
    | with_reducible apply State.upMaps_keeps
    | with_reducible apply State.pubWork_keeps
    | (extract_lets +onlyGivenNames x
       first
         | (refine good_cut (q := q) x ?cv ?ck
            case' ck => (intro hx; clear_value x)
            case' cv => (unfold x; clear x))
         | (refine good_cut_fst (q := q) x ?cv ?ck
            case' ck => (intro hx; clear_value x)
            case' cv => (unfold x; clear x))
         | (refine good_cut_snd (q := q) x ?cv ?ck
            case' ck => (intro hx; clear_value x)
            case' cv => (unfold x; clear x))
         | skip)
    | split
    | with_reducible apply good_mk
    | with_reducible rfl

theorem State.pubLate_keeps {q : List Instr} (s : State) (h : Good q s) : Good q (State.pubLate s) := by
  unfold State.pubLate
  repeat' first
    | with_reducible assumption
    | intro _
    | with_reducible apply good_ite
    | with_reducible apply good_ite_fst
    | with_reducible apply good_ite_snd
    | with_reducible apply State.put_keeps
    | with_reducible apply State.pubWork_keeps
    | with_reducible apply State.upMaps_keeps
    | with_reducible apply good_foldl
    | with_reducible apply good_foldl_fst
    | with_reducible apply good_foldl_snd
    | (extract_lets +onlyGivenNames x
       first
         | (refine good_cut (q := q) x ?cv ?ck
            case' ck => (intro hx; clear_value x)
            case' cv => (unfold x; clear x))
         | (refine good_cut_fst (q := q) x ?cv ?ck
            case' ck => (intro hx; clear_value x)
            case' cv => (unfold x; clear x))
         | (refine good_cut_snd (q := q) x ?cv ?ck
            case' ck => (intro hx; clear_value x)
            case' cv => (unfold x; clear x))
         | skip)
    | split
    | with_reducible apply good_mk
    | with_reducible rfl

theorem State.pubCommit_keeps {q : List Instr} (s : State) (h : Good q s) : Good q (State.pubCommit s) := by
  unfold State.pubCommit
  repeat' first
    | with_reducible assumption
    | intro _
    | with_reducible apply good_ite
    | with_reducible apply good_ite_fst
    | with_reducible apply good_ite_snd
    | with_reducible apply State.upSess_keeps
    | with_reducible apply State.qStore_keeps
    | with_reducible apply good_foldl
    | with_reducible apply good_foldl_fst
    | with_reducible apply good_foldl_snd
    | (extract_lets +onlyGivenNames x
       first
         | (refine good_cut (q := q) x ?cv ?ck
            case' ck => (intro hx; clear_value x)
            case' cv => (unfold x; clear x))
         | (refine good_cut_fst (q := q) x ?cv ?ck
            case' ck => (intro hx; clear_value x)
            case' cv => (unfold x; clear x))
         | (refine good_cut_snd (q := q) x ?cv ?ck
            case' ck => (intro hx; clear_value x)
            case' cv => (unfold x; clear x))
         | skip)
    | split
    | with_reducible apply good_mk
    | with_reducible rfl

theorem State.pubDrop_keeps {q : List Instr} (s : State) (h : Good q s) : Good q (State.pubDrop s) := by
  unfold State.pubDrop
  repeat' first
    | with_reducible assumption
    | intro _
    | with_reducible apply good_ite
    | with_reducible apply good_ite_fst
    | with_reducible apply good_ite_snd
    | (extract_lets +onlyGivenNames x
       first
         | (refine good_cut (q := q) x ?cv ?ck
            case' ck => (intro hx; clear_value x)
            case' cv => (unfold x; clear x))
         | (refine good_cut_fst (q := q) x ?cv ?ck
            case' ck => (intro hx; clear_value x)
            case' cv => (unfold x; clear x))
         | (refine good_cut_snd (q := q) x ?cv ?ck
            case' ck => (intro hx; clear_value x)
            case' cv => (unfold x; clear x))
         | skip)
    | with_reducible apply good_mk
    | with_reducible rfl

theorem State.notePut_keeps {q : List Instr} (i : Nat) (n : NoteSt) (body : List Byte) (s : State) (h : Good q s) : Good q (State.notePut i n body s).1 := by
  unfold State.notePut
  repeat' first
    | with_reducible assumption
    | intro _
    | with_reducible apply good_ite
    | with_reducible apply good_ite_fst
    | with_reducible apply good_ite_snd
    | with_reducible apply State.sessPut_keeps
    | split

theorem State.upNote_keeps {q : List Instr} (i : Nat) (kind : Nat) (src : Nat) (f : NoteSt → Option NoteSt) (s : State) (h : Good q s) : Good q (State.upNote i kind src f s) := by
  unfold State.upNote
  repeat' first
    | with_reducible assumption
    | intro _
    | with_reducible apply good_ite
    | with_reducible apply State.upSess_keeps

theorem opNotifySend_keeps {q : List Instr} (i : Nat) (kind : Nat) (src : Nat) (s : State) (h : Good q s) : Good q (opNotifySend i kind src s) := by
  unfold opNotifySend
  repeat' first
    | with_reducible assumption
    | intro _
    | with_reducible apply good_ite
    | with_reducible apply good_ite_fst
    | with_reducible apply good_ite_snd
    | with_reducible apply State.notePut_keeps
    | with_reducible apply State.seqGuard_keeps
    | with_reducible apply State.upNote_keeps
    | split

theorem opNotifyAck_keeps {q : List Instr} (p : Nat) (s : State) (h : Good q s) : Good q (opNotifyAck p s) := by
  unfold opNotifyAck
  repeat' first
    | with_reducible assumption
    | intro _
    | with_reducible apply good_ite
    | with_reducible apply State.serveFront_keeps
    | with_reducible apply State.upSess_keeps

theorem opNotifyRepeat_keeps {q : List Instr} (i : Nat) (kind : Nat) (src : Nat) (s : State) (h : Good q s) : Good q (opNotifyRepeat i kind src s) := by
  unfold opNotifyRepeat
  repeat' first
    | with_reducible assumption
    | intro _
    | with_reducible apply good_ite
    | with_reducible apply good_ite_fst
    | with_reducible apply good_ite_snd
    | with_reducible apply State.note_keeps
    | with_reducible apply State.upNote_keeps
    | with_reducible apply State.notePut_keeps
    | with_reducible apply State.seqGuard_keeps
    | split

theorem State.setBulk_keeps {q : List Instr} (i : Nat) (b : Option BulkSt) (s : State) (h : Good q s) : Good q (State.setBulk i b s) := by
  unfold State.setBulk
  repeat' first
    | with_reducible assumption
    | intro _
    | with_reducible apply State.upSess_keeps

theorem State.bulkErase_keeps {q : List Instr} (num : Nat) (s : State) (h : Good q s) : Good q (State.bulkErase num s) := by
  unfold State.bulkErase
  repeat' first
    | with_reducible assumption
    | intro _
    | with_reducible apply good_ite
    | with_reducible apply State.norErase_keeps
    | with_reducible apply State.bankTouched_keeps

theorem opBulkWriteStart_keeps {q : List Instr} (p : Nat) (s : State) (h : Good q s) : Good q (opBulkWriteStart p s) := by
  unfold opBulkWriteStart
  repeat' first
    | with_reducible assumption
    | intro _
    | with_reducible apply good_ite
    | with_reducible apply good_ite_fst
    | with_reducible apply good_ite_snd
    | with_reducible apply State.serveFront_keeps
    | with_reducible apply State.sessReply_keeps
    | with_reducible apply State.bulkErase_keeps
    | with_reducible apply State.setBulk_keeps
    | (extract_lets +onlyGivenNames x
       first
         | (refine good_cut (q := q) x ?cv ?ck
            case' ck => (intro hx; clear_value x)
            case' cv => (unfold x; clear x))
         | (refine good_cut_fst (q := q) x ?cv ?ck
            case' ck => (intro hx; clear_value x)
            case' cv => (unfold x; clear x))
         | (refine good_cut_snd (q := q) x ?cv ?ck
            case' ck => (intro hx; clear_value x)
            case' cv => (unfold x; clear x))
         | skip)
    | split

theorem State.bulkDone_keeps {q : List Instr} (b : BulkSt) (s : State) (h : Good q s) : Good q (State.bulkDone b s) := by
  unfold State.bulkDone
  repeat' first
    | with_reducible assumption
    | intro _
    | with_reducible apply good_ite
    | with_reducible apply good_ite_fst
    | with_reducible apply good_ite_snd
    | with_reducible apply State.storeWords_keeps
    | with_reducible apply State.bindStage_keeps
    | with_reducible apply State.check_keeps
    | with_reducible apply State.norErase_keeps
    | with_reducible apply State.norProgram_keeps
    | (extract_lets +onlyGivenNames x
       first
         | (refine good_cut (q := q) x ?cv ?ck
            case' ck => (intro hx; clear_value x)
            case' cv => (unfold x; clear x))
         | (refine good_cut_fst (q := q) x ?cv ?ck
            case' ck => (intro hx; clear_value x)
            case' cv => (unfold x; clear x))
         | (refine good_cut_snd (q := q) x ?cv ?ck
            case' ck => (intro hx; clear_value x)
            case' cv => (unfold x; clear x))
         | skip)
    | split

theorem opBulkWriteSegment_keeps {q : List Instr} (p : Nat) (s : State) (h : Good q s) : Good q (opBulkWriteSegment p s) := by
  unfold opBulkWriteSegment
  repeat' first
    | with_reducible assumption
    | intro _
    | with_reducible apply good_ite
    | with_reducible apply State.serveFront_keeps
    | with_reducible apply State.sessReply_keeps
    | with_reducible apply State.bankTouched_keeps
    | with_reducible apply State.norProgram_keeps
    | with_reducible apply State.setBulk_keeps
    | with_reducible apply State.bulkDone_keeps
    | (extract_lets +onlyGivenNames x
       first
         | (refine good_cut (q := q) x ?cv ?ck
            case' ck => (intro hx; clear_value x)
            case' cv => (unfold x; clear x))
         | (refine good_cut_fst (q := q) x ?cv ?ck
            case' ck => (intro hx; clear_value x)
            case' cv => (unfold x; clear x))
         | (refine good_cut_snd (q := q) x ?cv ?ck
            case' ck => (intro hx; clear_value x)
            case' cv => (unfold x; clear x))
         | skip)
    | split
    | with_reducible apply good_mk
    | with_reducible rfl

theorem State.bulkPump_keeps {q : List Instr} (i : Nat) (y2 : Nat) (y3 : State) (h : Good q y3) : Good q (State.bulkPump i y2 y3) := by
  induction y2 generalizing y3 with
  | zero => exact h
  | succ n ih =>
    simp only [State.bulkPump]
    split
    · exact h
    · exact good_ite h (good_ite (ih _ (State.setBulk_keeps _ _ _ (State.sessPut_keeps _ _ _ _ _ _ _ h))) (State.sessPut_keeps _ _ _ _ _ _ _ h))

theorem State.bulkResume_keeps {q : List Instr} (p : Nat) (s : State) (h : Good q s) : Good q (State.bulkResume p s) := by
  unfold State.bulkResume
  repeat' first
    | with_reducible assumption
    | intro _
    | with_reducible apply good_ite
    | with_reducible apply good_ite_fst
    | with_reducible apply good_ite_snd
    | with_reducible apply State.bulkPump_keeps
    | with_reducible apply State.seqGuard_keeps
    | with_reducible apply good_foldl
    | with_reducible apply good_foldl_fst
    | with_reducible apply good_foldl_snd
    | (extract_lets +onlyGivenNames x
       first
         | (refine good_cut (q := q) x ?cv ?ck
            case' ck => (intro hx; clear_value x)
            case' cv => (unfold x; clear x))
         | (refine good_cut_fst (q := q) x ?cv ?ck
            case' ck => (intro hx; clear_value x)
            case' cv => (unfold x; clear x))
         | (refine good_cut_snd (q := q) x ?cv ?ck
            case' ck => (intro hx; clear_value x)
            case' cv => (unfold x; clear x))
         | skip)
    | split
    | with_reducible apply good_mk
    | with_reducible rfl

theorem opTransmitDone_keeps {q : List Instr} (p : Nat) (s : State) (h : Good q s) : Good q (opTransmitDone p s) := by
  unfold opTransmitDone
  repeat' first
    | with_reducible assumption
    | intro _
    | with_reducible apply good_ite
    | with_reducible apply State.txDone_keeps
    | with_reducible apply State.bulkResume_keeps

theorem opBulkReadStart_keeps {q : List Instr} (p : Nat) (s : State) (h : Good q s) : Good q (opBulkReadStart p s) := by
  unfold opBulkReadStart
  repeat' first
    | with_reducible assumption
    | intro _
    | with_reducible apply good_ite
    | with_reducible apply State.serveFront_keeps
    | with_reducible apply State.sessReply_keeps
    | with_reducible apply State.setBulk_keeps
    | with_reducible apply State.bulkPump_keeps

theorem opBulkAck_keeps {q : List Instr} (p : Nat) (s : State) (h : Good q s) : Good q (opBulkAck p s) := by
  unfold opBulkAck
  repeat' first
    | with_reducible assumption
    | intro _
    | with_reducible apply good_ite
    | with_reducible apply State.serveFront_keeps
    | with_reducible apply State.svc_keeps
    | with_reducible apply State.setBulk_keeps
    | with_reducible apply State.bulkPump_keeps
    | (extract_lets +onlyGivenNames x
       first
         | (refine good_cut (q := q) x ?cv ?ck
            case' ck => (intro hx; clear_value x)
            case' cv => (unfold x; clear x))
         | (refine good_cut_fst (q := q) x ?cv ?ck
            case' ck => (intro hx; clear_value x)
            case' cv => (unfold x; clear x))
         | (refine good_cut_snd (q := q) x ?cv ?ck
            case' ck => (intro hx; clear_value x)
            case' cv => (unfold x; clear x))
         | skip)
    | split
    | with_reducible apply good_mk
    | with_reducible rfl

theorem opBulkAbort_keeps {q : List Instr} (p : Nat) (s : State) (h : Good q s) : Good q (opBulkAbort p s) := by
  unfold opBulkAbort
  repeat' first
    | with_reducible assumption
    | intro _
    | with_reducible apply good_ite
    | with_reducible apply State.serveFront_keeps
    | with_reducible apply State.setBulk_keeps
    | with_reducible apply State.sessReply_keeps
    | with_reducible apply State.svc_keeps
    | (extract_lets +onlyGivenNames x
       first
         | (refine good_cut (q := q) x ?cv ?ck
            case' ck => (intro hx; clear_value x)
            case' cv => (unfold x; clear x))
         | (refine good_cut_fst (q := q) x ?cv ?ck
            case' ck => (intro hx; clear_value x)
            case' cv => (unfold x; clear x))
         | (refine good_cut_snd (q := q) x ?cv ?ck
            case' ck => (intro hx; clear_value x)
            case' cv => (unfold x; clear x))
         | skip)
    | split

theorem opBulkTimeout_keeps {q : List Instr} (i : Nat) (s : State) (h : Good q s) : Good q (opBulkTimeout i s) := by
  unfold opBulkTimeout
  repeat' first
    | with_reducible assumption
    | intro _
    | with_reducible apply State.setBulk_keeps
    | with_reducible apply State.advance_keeps
    | split

theorem opUnknownService_keeps {q : List Instr} (p : Nat) (s : State) (h : Good q s) : Good q (opUnknownService p s) := by
  unfold opUnknownService
  repeat' first
    | with_reducible assumption
    | intro _
    | with_reducible apply good_ite
    | with_reducible apply State.popFront_keeps
    | with_reducible apply State.portDrop_keeps
    | with_reducible apply State.serveFront_keeps
    | with_reducible apply State.claimed_keeps
    | with_reducible apply State.svc_keeps
    | with_reducible apply State.upSess_keeps
    | with_reducible apply State.sessReply_keeps
    | (extract_lets +onlyGivenNames x
       first
         | (refine good_cut (q := q) x ?cv ?ck
            case' ck => (intro hx; clear_value x)
            case' cv => (unfold x; clear x))
         | (refine good_cut_fst (q := q) x ?cv ?ck
            case' ck => (intro hx; clear_value x)
            case' cv => (unfold x; clear x))
         | (refine good_cut_snd (q := q) x ?cv ?ck
            case' ck => (intro hx; clear_value x)
            case' cv => (unfold x; clear x))
         | skip)
    | split
    | with_reducible apply good_mk
    | with_reducible rfl

end Sys2Proof.Machine
end

