-- ==== Sys2Proof/Laws/KeepsUpdate.lean ====
section
/-! SUPPORT. Laws/KeepsUpdate.lean: every operation of Machine/Update.lean keeps `Good`. -/

namespace Sys2Proof.Machine

theorem opUpdateCmd_keeps {q : List Instr} (code : Nat) (p : Nat) (f : List Byte → State → State × Nat × List Byte) (s : State) (hff : ∀ x0 x1, Good q x1 → Good q (f x0 x1).1) (h : Good q s) : Good q (opUpdateCmd code p f s) := by
  unfold opUpdateCmd
  repeat' first
    | with_reducible assumption
    | intro _
    | with_reducible apply good_ite
    | with_reducible apply State.serveFront_keeps
    | with_reducible apply State.cmdReply_keeps
    | with_reducible apply hff

theorem State.updDone_keeps {q : List Instr} (d : List Byte) (s : State) (h : Good q s) : Good q (State.updDone d s).1 := by
  unfold State.updDone
  repeat' first
    | with_reducible assumption

theorem State.updRefused_keeps {q : List Instr} (code : Nat) (s : State) (h : Good q s) : Good q (State.updRefused code s).1 := by
  unfold State.updRefused
  repeat' first
    | with_reducible assumption
    | intro _
    | with_reducible apply State.put_keeps

theorem State.fwVerify_keeps {q : List Instr} (s : State) (h : Good q s) : Good q (State.fwVerify s).1 := by
  unfold State.fwVerify
  repeat' first
    | with_reducible assumption
    | intro _
    | with_reducible apply good_ite
    | with_reducible apply good_ite_fst
    | with_reducible apply good_ite_snd
    | with_reducible apply State.updRefused_keeps
    | with_reducible apply State.raise_keeps
    | with_reducible apply State.updDone_keeps
    | (extract_lets +onlyGivenNames x
       first
         | (refine good_cut (q := q) x ?cv ?ck
            case' ck => (intro hx; clear_value x)
            case' cv => (unfold x; clear x))
         | (refine good_cut_fst (q := q) x ?cv ?ck
            case' ck => (intro hx; clear_value x)
            case' cv => (unfold x; clear x))
         | (refine good_cut_snd (q := q) x ?cv ?ck
            case' ck => (intro hx; clear_value x)
            case' cv => (unfold x; clear x))
         | skip)
    | split
    | with_reducible apply good_mk
    | with_reducible rfl

theorem State.fwDryrun_keeps {q : List Instr} (s : State) (h : Good q s) : Good q (State.fwDryrun s).1 := by
  unfold State.fwDryrun
  repeat' first
    | with_reducible assumption
    | intro _
    | with_reducible apply good_ite
    | with_reducible apply good_ite_fst
    | with_reducible apply good_ite_snd
    | with_reducible apply State.updDone_keeps
    | (extract_lets +onlyGivenNames x
       first
         | (refine good_cut (q := q) x ?cv ?ck
            case' ck => (intro hx; clear_value x)
            case' cv => (unfold x; clear x))
         | (refine good_cut_fst (q := q) x ?cv ?ck
            case' ck => (intro hx; clear_value x)
            case' cv => (unfold x; clear x))
         | (refine good_cut_snd (q := q) x ?cv ?ck
            case' ck => (intro hx; clear_value x)
            case' cv => (unfold x; clear x))
         | skip)
    | split
    | with_reducible apply good_mk
    | with_reducible rfl

theorem State.fwSchedule_keeps {q : List Instr} (d : List Byte) (s : State) (h : Good q s) : Good q (State.fwSchedule d s).1 := by
  unfold State.fwSchedule
  repeat' first
    | with_reducible assumption
    | intro _
    | with_reducible apply good_ite
    | with_reducible apply good_ite_fst
    | with_reducible apply good_ite_snd
    | with_reducible apply State.put_keeps
    | with_reducible apply State.updRefused_keeps
    | with_reducible apply State.updDone_keeps
    | with_reducible apply State.put64_keeps
    | (extract_lets +onlyGivenNames x
       first
         | (refine good_cut (q := q) x ?cv ?ck
            case' ck => (intro hx; clear_value x)
            case' cv => (unfold x; clear x))
         | (refine good_cut_fst (q := q) x ?cv ?ck
            case' ck => (intro hx; clear_value x)
            case' cv => (unfold x; clear x))
         | (refine good_cut_snd (q := q) x ?cv ?ck
            case' ck => (intro hx; clear_value x)
            case' cv => (unfold x; clear x))
         | skip)
    | split
    | with_reducible apply good_mk
    | with_reducible rfl

theorem State.fwCancel_keeps {q : List Instr} (s : State) (h : Good q s) : Good q (State.fwCancel s).1 := by
  unfold State.fwCancel
  repeat' first
    | with_reducible assumption
    | intro _
    | with_reducible apply State.put_keeps
    | with_reducible apply State.updDone_keeps
    | (extract_lets +onlyGivenNames x
       first
         | (refine good_cut (q := q) x ?cv ?ck
            case' ck => (intro hx; clear_value x)
            case' cv => (unfold x; clear x))
         | (refine good_cut_fst (q := q) x ?cv ?ck
            case' ck => (intro hx; clear_value x)
            case' cv => (unfold x; clear x))
         | (refine good_cut_snd (q := q) x ?cv ?ck
            case' ck => (intro hx; clear_value x)
            case' cv => (unfold x; clear x))
         | skip)
    | with_reducible apply good_mk
    | with_reducible rfl

theorem State.resetSoon_keeps {q : List Instr} (s : State) (h : Good q s) : Good q (State.resetSoon s) := by
  unfold State.resetSoon
  repeat' first
    | with_reducible assumption
    | intro _
    | (extract_lets +onlyGivenNames x
       first
         | (refine good_cut (q := q) x ?cv ?ck
            case' ck => (intro hx; clear_value x)
            case' cv => (unfold x; clear x))
         | (refine good_cut_fst (q := q) x ?cv ?ck
            case' ck => (intro hx; clear_value x)
            case' cv => (unfold x; clear x))
         | (refine good_cut_snd (q := q) x ?cv ?ck
            case' ck => (intro hx; clear_value x)
            case' cv => (unfold x; clear x))
         | skip)
    | with_reducible apply good_mk
    | with_reducible rfl

theorem State.fwActivate_keeps {q : List Instr} (d : List Byte) (s : State) (h : Good q s) : Good q (State.fwActivate d s).1 := by
  unfold State.fwActivate
  repeat' first
    | with_reducible assumption
    | intro _
    | with_reducible apply good_ite
    | with_reducible apply good_ite_fst
    | with_reducible apply good_ite_snd
    | with_reducible apply State.updRefused_keeps
    | with_reducible apply State.updDone_keeps
    | with_reducible apply State.resetSoon_keeps
    | with_reducible apply State.bootWrite_keeps

theorem State.fwRollback_keeps {q : List Instr} (d : List Byte) (s : State) (h : Good q s) : Good q (State.fwRollback d s).1 := by
  unfold State.fwRollback
  repeat' first
    | with_reducible assumption
    | intro _
    | with_reducible apply good_ite
    | with_reducible apply good_ite_fst
    | with_reducible apply good_ite_snd
    | with_reducible apply State.updRefused_keeps
    | with_reducible apply State.updDone_keeps
    | with_reducible apply State.resetSoon_keeps
    | with_reducible apply State.bootWrite_keeps

theorem opFwVerify_keeps {q : List Instr} (p : Nat) (s : State) (h : Good q s) : Good q (opFwVerify p s) := by
  unfold opFwVerify
  repeat' first
    | with_reducible assumption
    | intro _
    | with_reducible apply opUpdateCmd_keeps
    | with_reducible apply State.fwVerify_keeps

theorem opFwDryrun_keeps {q : List Instr} (p : Nat) (s : State) (h : Good q s) : Good q (opFwDryrun p s) := by
  unfold opFwDryrun
  repeat' first
    | with_reducible assumption
    | intro _
    | with_reducible apply opUpdateCmd_keeps
    | with_reducible apply State.fwDryrun_keeps

theorem opFwSchedule_keeps {q : List Instr} (p : Nat) (s : State) (h : Good q s) : Good q (opFwSchedule p s) := by
  unfold opFwSchedule
  repeat' first
    | with_reducible assumption
    | intro _
    | with_reducible apply opUpdateCmd_keeps
    | with_reducible apply State.fwSchedule_keeps

theorem opFwCancel_keeps {q : List Instr} (p : Nat) (s : State) (h : Good q s) : Good q (opFwCancel p s) := by
  unfold opFwCancel
  repeat' first
    | with_reducible assumption
    | intro _
    | with_reducible apply opUpdateCmd_keeps
    | with_reducible apply State.fwCancel_keeps

theorem opFwActivate_keeps {q : List Instr} (p : Nat) (s : State) (h : Good q s) : Good q (opFwActivate p s) := by
  unfold opFwActivate
  repeat' first
    | with_reducible assumption
    | intro _
    | with_reducible apply opUpdateCmd_keeps
    | with_reducible apply State.fwActivate_keeps

theorem opFwConfirm_keeps {q : List Instr} (p : Nat) (s : State) (h : Good q s) : Good q (opFwConfirm p s) := by
  unfold opFwConfirm
  repeat' first
    | with_reducible assumption
    | intro _
    | with_reducible apply opUpdateCmd_keeps
    | with_reducible apply State.updDone_keeps
    | with_reducible apply State.bootConfirm_keeps

theorem opFwRollback_keeps {q : List Instr} (p : Nat) (s : State) (h : Good q s) : Good q (opFwRollback p s) := by
  unfold opFwRollback
  repeat' first
    | with_reducible assumption
    | intro _
    | with_reducible apply opUpdateCmd_keeps
    | with_reducible apply State.fwRollback_keeps

theorem opFwClearResetList_keeps {q : List Instr} (p : Nat) (s : State) (h : Good q s) : Good q (opFwClearResetList p s) := by
  unfold opFwClearResetList
  repeat' first
    | with_reducible assumption
    | intro _
    | with_reducible apply good_ite
    | with_reducible apply opUpdateCmd_keeps
    | with_reducible apply State.keepWait_keeps
    | with_reducible apply State.keepSettle_keeps
    | with_reducible apply State.updDone_keeps
    | (extract_lets +onlyGivenNames x
       first
         | (refine good_cut (q := q) x ?cv ?ck
            case' ck => (intro hx; clear_value x)
            case' cv => (unfold x; clear x))
         | (refine good_cut_fst (q := q) x ?cv ?ck
            case' ck => (intro hx; clear_value x)
            case' cv => (unfold x; clear x))
         | (refine good_cut_snd (q := q) x ?cv ?ck
            case' ck => (intro hx; clear_value x)
            case' cv => (unfold x; clear x))
         | skip)

theorem State.freeBytes_keeps {q : List Instr} (y1 : Nat) (y2 : State) (h : Good q y2) : Good q (State.freeBytes y1 y2).2 := by
  induction y1 generalizing y2 with
  | zero => exact h
  | succ n ih => exact ih _ (State.free_keeps _ h)

theorem State.recordWrite_keeps {q : List Instr} (s : State) (h : Good q s) : Good q (State.recordWrite s) := by
  unfold State.recordWrite
  repeat' first
    | with_reducible assumption
    | intro _
    | with_reducible apply good_ite
    | with_reducible apply good_ite_fst
    | with_reducible apply good_ite_snd
    | with_reducible apply State.free_keeps
    | with_reducible apply State.freeBytes_keeps
    | with_reducible apply State.cleanLine_keeps
    | with_reducible apply State.storeWords_keeps
    | with_reducible apply good_forAll
    | (extract_lets +onlyGivenNames x
       first
         | (refine good_cut (q := q) x ?cv ?ck
            case' ck => (intro hx; clear_value x)
            case' cv => (unfold x; clear x))
         | (refine good_cut_fst (q := q) x ?cv ?ck
            case' ck => (intro hx; clear_value x)
            case' cv => (unfold x; clear x))
         | (refine good_cut_snd (q := q) x ?cv ?ck
            case' ck => (intro hx; clear_value x)
            case' cv => (unfold x; clear x))
         | skip)
    | with_reducible apply good_mk
    | with_reducible rfl

theorem State.recordRead_keeps {q : List Instr} (s : State) (h : Good q s) : Good q (State.recordRead s).1 := by
  unfold State.recordRead
  repeat' first
    | with_reducible assumption
    | intro _
    | with_reducible apply good_ite
    | with_reducible apply good_ite_fst
    | with_reducible apply good_ite_snd
    | with_reducible apply State.memRead_keeps
    | (extract_lets +onlyGivenNames x
       first
         | (refine good_cut (q := q) x ?cv ?ck
            case' ck => (intro hx; clear_value x)
            case' cv => (unfold x; clear x))
         | (refine good_cut_fst (q := q) x ?cv ?ck
            case' ck => (intro hx; clear_value x)
            case' cv => (unfold x; clear x))
         | (refine good_cut_snd (q := q) x ?cv ?ck
            case' ck => (intro hx; clear_value x)
            case' cv => (unfold x; clear x))
         | skip)

theorem State.groupReset_keeps {q : List Instr} (old : Nat) (g : Nat) (s : State) (h : Good q s) : Good q (State.groupReset old g s) := by
  unfold State.groupReset
  repeat' first
    | with_reducible assumption
    | intro _
    | with_reducible apply good_ite
    | with_reducible apply good_ite_fst
    | with_reducible apply good_ite_snd
    | with_reducible apply State.devWrite_keeps
    | with_reducible apply State.keepWait_keeps
    | with_reducible apply State.resetListAdd_keeps
    | with_reducible apply State.warn_keeps
    | with_reducible apply good_foldl
    | with_reducible apply good_foldl_fst
    | with_reducible apply good_foldl_snd
    | (extract_lets +onlyGivenNames x
       first
         | (refine good_cut (q := q) x ?cv ?ck
            case' ck => (intro hx; clear_value x)
            case' cv => (unfold x; clear x))
         | (refine good_cut_fst (q := q) x ?cv ?ck
            case' ck => (intro hx; clear_value x)
            case' cv => (unfold x; clear x))
         | (refine good_cut_snd (q := q) x ?cv ?ck
            case' ck => (intro hx; clear_value x)
            case' cv => (unfold x; clear x))
         | skip)
    | with_reducible apply good_mk
    | with_reducible rfl

theorem State.handoverSessions_keeps {q : List Instr} (all : Bool) (s : State) (h : Good q s) : Good q (State.handoverSessions all s) := by
  unfold State.handoverSessions
  repeat' first
    | with_reducible assumption
    | intro _
    | with_reducible apply State.sessClose_keeps
    | with_reducible apply good_foldl

theorem opHandoverComplete_keeps {q : List Instr} (s : State) (h : Good q s) : Good q (opHandoverComplete s) := by
  unfold opHandoverComplete
  repeat' first
    | with_reducible assumption
    | intro _
    | with_reducible apply good_ite
    | with_reducible apply good_ite_fst
    | with_reducible apply good_ite_snd
    | with_reducible apply State.recordRead_keeps
    | with_reducible apply State.put_keeps
    | with_reducible apply State.warn_keeps
    | with_reducible apply State.handoverSessions_keeps
    | with_reducible apply State.groupReset_keeps
    | with_reducible apply State.raise_keeps
    | with_reducible apply State.bootWrite_keeps
    | with_reducible apply State.upE_keeps
    | with_reducible apply State.note_keeps
    | with_reducible apply State.dictSettle_keeps
    | with_reducible apply good_foldl
    | with_reducible apply good_foldl_fst
    | with_reducible apply good_foldl_snd
    | (extract_lets +onlyGivenNames x
       first
         | (refine good_cut (q := q) x ?cv ?ck
            case' ck => (intro hx; clear_value x)
            case' cv => (unfold x; clear x))
         | (refine good_cut_fst (q := q) x ?cv ?ck
            case' ck => (intro hx; clear_value x)
            case' cv => (unfold x; clear x))
         | (refine good_cut_snd (q := q) x ?cv ?ck
            case' ck => (intro hx; clear_value x)
            case' cv => (unfold x; clear x))
         | skip)
    | split
    | with_reducible apply good_mk
    | with_reducible rfl

theorem opConfirmationTime_keeps {q : List Instr} (s : State) (h : Good q s) : Good q (opConfirmationTime s) := by
  unfold opConfirmationTime
  repeat' first
    | with_reducible assumption
    | intro _
    | with_reducible apply good_ite
    | with_reducible apply State.bootConfirm_keeps

end Sys2Proof.Machine
end

