-- ==== Sys2Proof/Laws/KeepsLantern.lean ====
section
/-! SUPPORT. Laws/KeepsLantern.lean: every operation of Machine/Lantern.lean keeps `Good`. -/

namespace Sys2Proof.Machine

theorem State.lanSend_keeps {q : List Instr} (st : Nat) (tag : Nat) (d : List Byte) (s : State) (h : Good q s) : Good q (State.lanSend st tag d s) := by
  unfold State.lanSend
  repeat' first
    | with_reducible assumption
    | intro _
    | with_reducible apply good_ite
    | with_reducible apply State.put_keeps
    | (extract_lets +onlyGivenNames x
       first
         | (refine good_cut (q := q) x ?cv ?ck
            case' ck => (intro hx; clear_value x)
            case' cv => (unfold x; clear x))
         | (refine good_cut_fst (q := q) x ?cv ?ck
            case' ck => (intro hx; clear_value x)
            case' cv => (unfold x; clear x))
         | (refine good_cut_snd (q := q) x ?cv ?ck
            case' ck => (intro hx; clear_value x)
            case' cv => (unfold x; clear x))
         | skip)
    | with_reducible apply good_mk
    | split
    | with_reducible rfl

theorem State.lanServe_keeps {q : List Instr} (c : Nat) (fr : List Byte) (f : Nat → List Byte → State → State) (s : State) (hff : ∀ x0 x1 x2, Good q x2 → Good q (f x0 x1 x2)) (h : Good q s) : Good q (State.lanServe c fr f s) := by
  unfold State.lanServe
  repeat' first
    | with_reducible assumption
    | intro _
    | with_reducible apply good_ite
    | with_reducible apply State.lanSend_keeps
    | with_reducible apply hff
    | (extract_lets +onlyGivenNames x
       first
         | (refine good_cut (q := q) x ?cv ?ck
            case' ck => (intro hx; clear_value x)
            case' cv => (unfold x; clear x))
         | (refine good_cut_fst (q := q) x ?cv ?ck
            case' ck => (intro hx; clear_value x)
            case' cv => (unfold x; clear x))
         | (refine good_cut_snd (q := q) x ?cv ?ck
            case' ck => (intro hx; clear_value x)
            case' cv => (unfold x; clear x))
         | skip)
    | split
    | with_reducible apply good_mk
    | with_reducible rfl

theorem opWakePattern_keeps {q : List Instr} (s : State) (h : Good q s) : Good q (opWakePattern s) := by
  unfold opWakePattern
  repeat' first
    | with_reducible assumption
    | intro _
    | with_reducible apply good_ite
    | with_reducible apply good_ite_fst
    | with_reducible apply good_ite_snd
    | with_reducible apply State.put_keeps
    | with_reducible apply State.nonce_keeps
    | with_reducible apply State.lanSend_keeps
    | (extract_lets +onlyGivenNames x
       first
         | (refine good_cut (q := q) x ?cv ?ck
            case' ck => (intro hx; clear_value x)
            case' cv => (unfold x; clear x))
         | (refine good_cut_fst (q := q) x ?cv ?ck
            case' ck => (intro hx; clear_value x)
            case' cv => (unfold x; clear x))
         | (refine good_cut_snd (q := q) x ?cv ?ck
            case' ck => (intro hx; clear_value x)
            case' cv => (unfold x; clear x))
         | skip)
    | with_reducible apply good_mk
    | split
    | with_reducible rfl

theorem State.lanAuth_keeps {q : List Instr} (tag : Nat) (d : List Byte) (s : State) (h : Good q s) : Good q (State.lanAuth tag d s) := by
  unfold State.lanAuth
  repeat' first
    | with_reducible assumption
    | intro _
    | with_reducible apply good_ite
    | with_reducible apply State.put_keeps
    | with_reducible apply State.warn_keeps
    | with_reducible apply State.lanSend_keeps
    | (extract_lets +onlyGivenNames x
       first
         | (refine good_cut (q := q) x ?cv ?ck
            case' ck => (intro hx; clear_value x)
            case' cv => (unfold x; clear x))
         | (refine good_cut_fst (q := q) x ?cv ?ck
            case' ck => (intro hx; clear_value x)
            case' cv => (unfold x; clear x))
         | (refine good_cut_snd (q := q) x ?cv ?ck
            case' ck => (intro hx; clear_value x)
            case' cv => (unfold x; clear x))
         | skip)
    | with_reducible apply good_mk
    | split
    | with_reducible rfl

theorem opLanternOpen_keeps {q : List Instr} (f : List Byte) (s : State) (h : Good q s) : Good q (opLanternOpen f s) := by
  unfold opLanternOpen
  repeat' first
    | with_reducible assumption
    | intro _
    | with_reducible apply good_ite
    | with_reducible apply good_ite_fst
    | with_reducible apply good_ite_snd
    | with_reducible apply State.lanServe_keeps
    | with_reducible apply State.lanSend_keeps
    | with_reducible apply State.lanAuth_keeps
    | (extract_lets +onlyGivenNames x
       first
         | (refine good_cut (q := q) x ?cv ?ck
            case' ck => (intro hx; clear_value x)
            case' cv => (unfold x; clear x))
         | (refine good_cut_fst (q := q) x ?cv ?ck
            case' ck => (intro hx; clear_value x)
            case' cv => (unfold x; clear x))
         | (refine good_cut_snd (q := q) x ?cv ?ck
            case' ck => (intro hx; clear_value x)
            case' cv => (unfold x; clear x))
         | skip)
    | with_reducible apply good_mk
    | split
    | with_reducible rfl

theorem State.lanWaiting_keeps {q : List Instr} (s : State) (h : Good q s) : Good q (State.lanWaiting s) := by
  unfold State.lanWaiting
  repeat' first
    | with_reducible assumption
    | intro _
    | with_reducible apply good_ite
    | with_reducible apply State.lanAuth_keeps
    | (extract_lets +onlyGivenNames x
       first
         | (refine good_cut (q := q) x ?cv ?ck
            case' ck => (intro hx; clear_value x)
            case' cv => (unfold x; clear x))
         | (refine good_cut_fst (q := q) x ?cv ?ck
            case' ck => (intro hx; clear_value x)
            case' cv => (unfold x; clear x))
         | (refine good_cut_snd (q := q) x ?cv ?ck
            case' ck => (intro hx; clear_value x)
            case' cv => (unfold x; clear x))
         | skip)
    | split
    | with_reducible apply good_mk
    | with_reducible rfl

theorem opLanternLockoutEnd_keeps {q : List Instr} (s : State) (h : Good q s) : Good q (opLanternLockoutEnd s) := by
  unfold opLanternLockoutEnd
  repeat' first
    | with_reducible assumption
    | intro _
    | with_reducible apply good_ite
    | with_reducible apply State.put_keeps
    | with_reducible apply State.advance_keeps

theorem opLanternClose_keeps {q : List Instr} (f : List Byte) (s : State) (h : Good q s) : Good q (opLanternClose f s) := by
  unfold opLanternClose
  repeat' first
    | with_reducible assumption
    | intro _
    | with_reducible apply State.lanServe_keeps
    | with_reducible apply State.wireClose_keeps
    | with_reducible apply State.lanSend_keeps

theorem opLanternIdleTimeout_keeps {q : List Instr} (s : State) (h : Good q s) : Good q (opLanternIdleTimeout s) := by
  unfold opLanternIdleTimeout
  repeat' first
    | with_reducible assumption
    | intro _
    | with_reducible apply good_ite
    | with_reducible apply State.wireClose_keeps
    | with_reducible apply State.advance_keeps

theorem opLanternPing_keeps {q : List Instr} (f : List Byte) (s : State) (h : Good q s) : Good q (opLanternPing f s) := by
  unfold opLanternPing
  repeat' first
    | with_reducible assumption
    | intro _
    | with_reducible apply State.lanServe_keeps
    | with_reducible apply State.lanSend_keeps

theorem opLanternBreak_keeps {q : List Instr} (s : State) (h : Good q s) : Good q (opLanternBreak s) := by
  unfold opLanternBreak
  repeat' first
    | with_reducible assumption

theorem opLanternInvalidCell_keeps {q : List Instr} (s : State) (h : Good q s) : Good q (opLanternInvalidCell s) := by
  unfold opLanternInvalidCell
  repeat' first
    | with_reducible assumption
    | intro _
    | with_reducible apply good_ite
    | with_reducible apply State.put_keeps

theorem opLanternFrameTimeout_keeps {q : List Instr} (s : State) (h : Good q s) : Good q (opLanternFrameTimeout s) := by
  unfold opLanternFrameTimeout
  repeat' first
    | with_reducible assumption
    | intro _
    | with_reducible apply good_ite
    | with_reducible apply State.put_keeps

theorem opLanternFrameError_keeps {q : List Instr} (f : List Byte) (s : State) (h : Good q s) : Good q (opLanternFrameError f s) := by
  unfold opLanternFrameError
  repeat' first
    | with_reducible assumption
    | intro _
    | with_reducible apply good_ite
    | with_reducible apply State.lanSend_keeps
    | (extract_lets +onlyGivenNames x
       first
         | (refine good_cut (q := q) x ?cv ?ck
            case' ck => (intro hx; clear_value x)
            case' cv => (unfold x; clear x))
         | (refine good_cut_fst (q := q) x ?cv ?ck
            case' ck => (intro hx; clear_value x)
            case' cv => (unfold x; clear x))
         | (refine good_cut_snd (q := q) x ?cv ?ck
            case' ck => (intro hx; clear_value x)
            case' cv => (unfold x; clear x))
         | skip)
    | split
    | with_reducible apply good_mk
    | with_reducible rfl

theorem State.lanReads_keeps {q : List Instr} (y1 : Nat) (y2 : Bool) (y3 : Nat) (y4 : Nat) (y5 : State) (h : Good q y5) : Good q (State.lanReads y1 y2 y3 y4 y5).1 := by
  induction y1 generalizing y4 y5 with
  | zero => exact h
  | succ k ih =>
    simp only [State.lanReads]
    exact good_ite_fst (State.busRead_keeps _ _ _ _ _ h) (ih _ _ (State.busRead_keeps _ _ _ _ _ h))

theorem State.lanWrites_keeps {q : List Instr} (y1 : Nat) (y2 : Nat) (y3 : Nat) (y4 : List Byte) (y5 : State) (h : Good q y5) : Good q (State.lanWrites y1 y2 y3 y4 y5).1 := by
  induction y1 generalizing y3 y4 y5 with
  | zero => exact h
  | succ k ih =>
    simp only [State.lanWrites]
    exact good_ite_fst (State.busWrite_keeps _ _ _ _ h) (ih _ _ _ (State.busWrite_keeps _ _ _ _ h))

theorem opLanternRead_keeps {q : List Instr} (f : List Byte) (s : State) (h : Good q s) : Good q (opLanternRead f s) := by
  unfold opLanternRead
  repeat' first
    | with_reducible assumption
    | intro _
    | with_reducible apply State.lanServe_keeps
    | with_reducible apply State.lanReads_keeps
    | with_reducible apply State.lanSend_keeps

theorem opLanternWrite_keeps {q : List Instr} (f : List Byte) (s : State) (h : Good q s) : Good q (opLanternWrite f s) := by
  unfold opLanternWrite
  repeat' first
    | with_reducible assumption
    | intro _
    | with_reducible apply State.lanServe_keeps
    | with_reducible apply State.lanWrites_keeps
    | with_reducible apply State.lanSend_keeps

theorem opLanternReset_keeps {q : List Instr} (f : List Byte) (s : State) (h : Good q s) : Good q (opLanternReset f s) := by
  unfold opLanternReset
  repeat' first
    | with_reducible assumption
    | intro _
    | with_reducible apply good_ite
    | with_reducible apply good_ite_fst
    | with_reducible apply good_ite_snd
    | with_reducible apply State.lanServe_keeps
    | with_reducible apply State.lanSend_keeps
    | with_reducible apply State.busWrite_keeps
    | with_reducible apply State.debugReset_keeps
    | (extract_lets +onlyGivenNames x
       first
         | (refine good_cut (q := q) x ?cv ?ck
            case' ck => (intro hx; clear_value x)
            case' cv => (unfold x; clear x))
         | (refine good_cut_fst (q := q) x ?cv ?ck
            case' ck => (intro hx; clear_value x)
            case' cv => (unfold x; clear x))
         | (refine good_cut_snd (q := q) x ?cv ?ck
            case' ck => (intro hx; clear_value x)
            case' cv => (unfold x; clear x))
         | skip)
    | with_reducible apply good_mk
    | split
    | with_reducible rfl

theorem opLanternSysrst_keeps {q : List Instr} (s : State) (h : Good q s) : Good q (opLanternSysrst s) := by
  unfold opLanternSysrst
  repeat' first
    | with_reducible assumption
    | intro _
    | with_reducible apply State.advance_keeps
    | with_reducible apply State.commandReset_keeps
    | (extract_lets +onlyGivenNames x
       first
         | (refine good_cut (q := q) x ?cv ?ck
            case' ck => (intro hx; clear_value x)
            case' cv => (unfold x; clear x))
         | (refine good_cut_fst (q := q) x ?cv ?ck
            case' ck => (intro hx; clear_value x)
            case' cv => (unfold x; clear x))
         | (refine good_cut_snd (q := q) x ?cv ?ck
            case' ck => (intro hx; clear_value x)
            case' cv => (unfold x; clear x))
         | skip)
    | split
    | with_reducible apply good_mk
    | with_reducible rfl

theorem State.monPush_keeps {q : List Instr} (r : MonReq) (s : State) (h : Good q s) : Good q (State.monPush r s) := by
  unfold State.monPush
  repeat' first
    | with_reducible assumption
    | intro _
    | with_reducible apply good_ite
    | with_reducible apply State.qStore_keeps
    | with_reducible apply good_mk
    | with_reducible rfl

theorem opLanternMonitor_keeps {q : List Instr} (f : List Byte) (s : State) (h : Good q s) : Good q (opLanternMonitor f s) := by
  unfold opLanternMonitor
  repeat' first
    | with_reducible assumption
    | intro _
    | with_reducible apply good_ite
    | with_reducible apply State.lanServe_keeps
    | with_reducible apply State.lanSend_keeps
    | with_reducible apply State.monPush_keeps
    | (extract_lets +onlyGivenNames x
       first
         | (refine good_cut (q := q) x ?cv ?ck
            case' ck => (intro hx; clear_value x)
            case' cv => (unfold x; clear x))
         | (refine good_cut_fst (q := q) x ?cv ?ck
            case' ck => (intro hx; clear_value x)
            case' cv => (unfold x; clear x))
         | (refine good_cut_snd (q := q) x ?cv ?ck
            case' ck => (intro hx; clear_value x)
            case' cv => (unfold x; clear x))
         | skip)
    | split

theorem opLanternMonpoll_keeps {q : List Instr} (f : List Byte) (s : State) (h : Good q s) : Good q (opLanternMonpoll f s) := by
  unfold opLanternMonpoll
  repeat' first
    | with_reducible assumption
    | intro _
    | with_reducible apply good_ite
    | with_reducible apply State.lanServe_keeps
    | with_reducible apply State.lanSend_keeps
    | (extract_lets +onlyGivenNames x
       first
         | (refine good_cut (q := q) x ?cv ?ck
            case' ck => (intro hx; clear_value x)
            case' cv => (unfold x; clear x))
         | (refine good_cut_fst (q := q) x ?cv ?ck
            case' ck => (intro hx; clear_value x)
            case' cv => (unfold x; clear x))
         | (refine good_cut_snd (q := q) x ?cv ?ck
            case' ck => (intro hx; clear_value x)
            case' cv => (unfold x; clear x))
         | skip)
    | split
    | with_reducible apply good_mk
    | with_reducible rfl

theorem State.monReply_keeps {q : List Instr} (q_ : MonReq) (st : Nat) (d : List Byte) (s : State) (h : Good q s) : Good q (State.monReply q_ st d s) := by
  unfold State.monReply
  repeat' first
    | with_reducible assumption
    | intro _
    | with_reducible apply State.sessReply_keeps
    | (extract_lets +onlyGivenNames x
       first
         | (refine good_cut (q := q) x ?cv ?ck
            case' ck => (intro hx; clear_value x)
            case' cv => (unfold x; clear x))
         | (refine good_cut_fst (q := q) x ?cv ?ck
            case' ck => (intro hx; clear_value x)
            case' cv => (unfold x; clear x))
         | (refine good_cut_snd (q := q) x ?cv ?ck
            case' ck => (intro hx; clear_value x)
            case' cv => (unfold x; clear x))
         | skip)
    | split
    | with_reducible apply good_mk
    | with_reducible rfl

theorem State.monTake_keeps {q : List Instr} (p : Nat) (code : Nat) (s : State) (h : Good q s) : Good q (State.monTake p code s) := by
  unfold State.monTake
  repeat' first
    | with_reducible assumption
    | intro _
    | with_reducible apply good_ite
    | with_reducible apply State.serveFront_keeps
    | with_reducible apply State.cmdReply_keeps
    | with_reducible apply State.upSess_keeps
    | with_reducible apply State.monPush_keeps
    | (extract_lets +onlyGivenNames x
       first
         | (refine good_cut (q := q) x ?cv ?ck
            case' ck => (intro hx; clear_value x)
            case' cv => (unfold x; clear x))
         | (refine good_cut_fst (q := q) x ?cv ?ck
            case' ck => (intro hx; clear_value x)
            case' cv => (unfold x; clear x))
         | (refine good_cut_snd (q := q) x ?cv ?ck
            case' ck => (intro hx; clear_value x)
            case' cv => (unfold x; clear x))
         | skip)
    | split
    | with_reducible apply good_mk
    | with_reducible rfl

/-- A monitor row keeps what its own command keeps. -/
theorem State.monitor_keeps {q : List Instr} (code : Nat) (p : Fin 7) (n : Option Nat) (f : List Byte → State → State × Nat × List Byte) (s : State) (hff : ∀ x0 x1, Good q x1 → Good q (f x0 x1).1) (h : Good q s) : Good q (State.monitor code p n f s) := by
  unfold State.monitor
  refine good_ite (State.monTake_keeps _ _ _ h) (good_ite h ?_)
  split
  · exact h
  · next r t _ =>
    refine good_ite h ?_
    extract_lets +onlyGivenNames s1 l s2
    have h2 : Good q s2 := good_mk (State.qRead_keeps _ _ _ _ _ h) (Eq.refl _) (Eq.refl _) (Eq.refl _) (Eq.refl _) (Eq.refl _) (Eq.refl _)
    clear_value s2
    exact good_ite (State.monReply_keeps _ _ _ _ h2) (State.monReply_keeps _ _ _ _ (hff _ _ h2))

theorem State.monOwned_keeps {q : List Instr} (f : State → State × Nat × List Byte) (s : State) (hff : ∀ x0, Good q x0 → Good q (f x0).1) (h : Good q s) : Good q (State.monOwned f s).1 := by
  unfold State.monOwned
  repeat' first
    | with_reducible assumption
    | intro _
    | with_reducible apply good_ite
    | with_reducible apply good_ite_fst
    | with_reducible apply good_ite_snd
    | with_reducible apply hff

theorem opMonRead_keeps {q : List Instr} (p : Fin 7) (s : State) (h : Good q s) : Good q (opMonRead p s) := by
  unfold opMonRead
  repeat' first
    | with_reducible assumption
    | intro _
    | with_reducible apply good_ite
    | with_reducible apply good_ite_fst
    | with_reducible apply good_ite_snd
    | with_reducible apply State.monitor_keeps
    | with_reducible apply State.lanReads_keeps

theorem opMonWrite_keeps {q : List Instr} (p : Fin 7) (s : State) (h : Good q s) : Good q (opMonWrite p s) := by
  unfold opMonWrite
  repeat' first
    | with_reducible assumption
    | intro _
    | with_reducible apply good_ite
    | with_reducible apply good_ite_fst
    | with_reducible apply good_ite_snd
    | with_reducible apply State.monitor_keeps
    | with_reducible apply State.lanWrites_keeps

theorem opMonitorHalt_keeps {q : List Instr} (p : Fin 7) (s : State) (h : Good q s) : Good q (opMonitorHalt p s) := by
  unfold opMonitorHalt
  repeat' first
    | with_reducible assumption
    | intro _
    | with_reducible apply good_ite
    | with_reducible apply good_ite_fst
    | with_reducible apply good_ite_snd
    | with_reducible apply State.monitor_keeps
    | with_reducible apply State.monOwned_keeps
    | with_reducible apply opHaltRequest_keeps

theorem opMonitorResume_keeps {q : List Instr} (p : Fin 7) (s : State) (h : Good q s) : Good q (opMonitorResume p s) := by
  unfold opMonitorResume
  repeat' first
    | with_reducible assumption
    | intro _
    | with_reducible apply good_ite
    | with_reducible apply good_ite_fst
    | with_reducible apply good_ite_snd
    | with_reducible apply State.monitor_keeps
    | with_reducible apply State.monOwned_keeps
    | with_reducible apply opResumeRequest_keeps

theorem opMonitorStep_keeps {q : List Instr} (p : Fin 7) (s : State) (h : Good q s) : Good q (opMonitorStep p s) := by
  unfold opMonitorStep
  repeat' first
    | with_reducible assumption
    | intro _
    | with_reducible apply good_ite
    | with_reducible apply good_ite_fst
    | with_reducible apply good_ite_snd
    | with_reducible apply State.monitor_keeps
    | with_reducible apply State.monOwned_keeps
    | with_reducible apply opStepRequest_keeps

theorem opMonStateRead_keeps {q : List Instr} (p : Fin 7) (s : State) (h : Good q s) : Good q (opMonStateRead p s) := by
  unfold opMonStateRead
  repeat' first
    | with_reducible assumption
    | intro _
    | with_reducible apply good_ite
    | with_reducible apply good_ite_fst
    | with_reducible apply good_ite_snd
    | with_reducible apply State.monitor_keeps

theorem opMonStateWrite_keeps {q : List Instr} (p : Fin 7) (s : State) (h : Good q s) : Good q (opMonStateWrite p s) := by
  unfold opMonStateWrite
  repeat' first
    | with_reducible assumption
    | intro _
    | with_reducible apply good_ite
    | with_reducible apply good_ite_fst
    | with_reducible apply good_ite_snd
    | with_reducible apply State.monitor_keeps
    | with_reducible apply State.portSet_keeps

theorem opMonBreak_keeps {q : List Instr} (p : Fin 7) (s : State) (h : Good q s) : Good q (opMonBreak p s) := by
  unfold opMonBreak
  repeat' first
    | with_reducible assumption
    | intro _
    | with_reducible apply good_ite
    | with_reducible apply good_ite_fst
    | with_reducible apply good_ite_snd
    | with_reducible apply State.monitor_keeps
    | with_reducible apply State.monOwned_keeps
    | with_reducible apply State.lanWrites_keeps

theorem opMonSession_keeps {q : List Instr} (p : Fin 7) (s : State) (h : Good q s) : Good q (opMonSession p s) := by
  unfold opMonSession
  repeat' first
    | with_reducible assumption
    | intro _
    | with_reducible apply good_ite
    | with_reducible apply good_ite_fst
    | with_reducible apply good_ite_snd
    | with_reducible apply State.put_keeps
    | with_reducible apply State.monitor_keeps
    | with_reducible apply State.monOwned_keeps
    | with_reducible apply State.lantCtl_keeps

theorem opMonitorReset_keeps {q : List Instr} (p : Fin 7) (s : State) (h : Good q s) : Good q (opMonitorReset p s) := by
  unfold opMonitorReset
  repeat' first
    | with_reducible assumption
    | intro _
    | with_reducible apply State.monitor_keeps
    | with_reducible apply State.monOwned_keeps
    | (extract_lets +onlyGivenNames x
       first
         | (refine good_cut (q := q) x ?cv ?ck
            case' ck => (intro hx; clear_value x)
            case' cv => (unfold x; clear x))
         | (refine good_cut_fst (q := q) x ?cv ?ck
            case' ck => (intro hx; clear_value x)
            case' cv => (unfold x; clear x))
         | (refine good_cut_snd (q := q) x ?cv ?ck
            case' ck => (intro hx; clear_value x)
            case' cv => (unfold x; clear x))
         | skip)
    | with_reducible apply good_mk
    | with_reducible rfl

theorem opMonStartMode_keeps {q : List Instr} (p : Fin 7) (s : State) (h : Good q s) : Good q (opMonStartMode p s) := by
  unfold opMonStartMode
  repeat' first
    | with_reducible assumption
    | intro _
    | with_reducible apply good_ite
    | with_reducible apply good_ite_fst
    | with_reducible apply good_ite_snd
    | with_reducible apply State.put_keeps
    | with_reducible apply State.monitor_keeps
    | with_reducible apply opBootcfgStore_keeps

theorem opMonitorStatus_keeps {q : List Instr} (p : Fin 7) (s : State) (h : Good q s) : Good q (opMonitorStatus p s) := by
  unfold opMonitorStatus
  repeat' first
    | with_reducible assumption
    | intro _
    | with_reducible apply State.monitor_keeps

theorem State.recallDone_keeps {q : List Instr} (s : State) (h : Good q s) : Good q (State.recallDone s) := by
  unfold State.recallDone
  repeat' first
    | with_reducible assumption
    | intro _
    | with_reducible apply good_ite
    | with_reducible apply State.put_keeps
    | with_reducible apply State.lanWaiting_keeps
    | with_reducible apply opKeepRecallComplete_keeps

end Sys2Proof.Machine
end

