-- ==== Sys2Proof/Laws/KeepsTick.lean ====
section
/-! SUPPORT. Laws/KeepsTick.lean: every operation of Machine/Tick.lean keeps `Good`. -/

namespace Sys2Proof.Machine

theorem State.penBit_keeps {q : List Instr} (f : Fam) (scope : Nat) (v : Bool) (s : State) (h : Good q s) : Good q (State.penBit f scope v s) := by
  unfold State.penBit
  repeat' first
    | with_reducible assumption
    | intro _
    | with_reducible apply good_ite
    | with_reducible apply State.put_keeps
    | with_reducible apply State.raise_keeps

theorem State.penEffect_keeps {q : List Instr} (s : State) (h : Good q s) : Good q (State.penEffect s) := by
  unfold State.penEffect
  repeat' first
    | with_reducible assumption
    | intro _
    | with_reducible apply good_ite
    | with_reducible apply State.ocThresholds_keeps
    | with_reducible apply State.takeCp_keeps
    | (extract_lets +onlyGivenNames x
       first
         | (refine good_cut (q := q) x ?cv ?ck
            case' ck => (intro hx; clear_value x)
            case' cv => (unfold x; clear x))
         | (refine good_cut_fst (q := q) x ?cv ?ck
            case' ck => (intro hx; clear_value x)
            case' cv => (unfold x; clear x))
         | (refine good_cut_snd (q := q) x ?cv ?ck
            case' ck => (intro hx; clear_value x)
            case' cv => (unfold x; clear x))
         | skip)
    | split

theorem State.penTick_keeps {q : List Instr} (s : State) (h : Good q s) : Good q (State.penTick s) := by
  unfold State.penTick
  repeat' first
    | with_reducible assumption
    | intro _
    | with_reducible apply good_ite
    | with_reducible apply State.penEffect_keeps
    | with_reducible apply State.penBit_keeps
    | with_reducible apply State.put_keeps
    | with_reducible apply State.engPen_keeps
    | with_reducible apply State.chop_keeps
    | with_reducible apply good_forAll
    | (extract_lets +onlyGivenNames x
       first
         | (refine good_cut (q := q) x ?cv ?ck
            case' ck => (intro hx; clear_value x)
            case' cv => (unfold x; clear x))
         | (refine good_cut_fst (q := q) x ?cv ?ck
            case' ck => (intro hx; clear_value x)
            case' cv => (unfold x; clear x))
         | (refine good_cut_snd (q := q) x ?cv ?ck
            case' ck => (intro hx; clear_value x)
            case' cv => (unfold x; clear x))
         | skip)
    | split

theorem State.releaseTick_keeps {q : List Instr} (s : State) (h : Good q s) : Good q (State.releaseTick s) := by
  unfold State.releaseTick
  repeat' first
    | with_reducible assumption
    | intro _
    | with_reducible apply good_ite
    | with_reducible apply State.umbraRelease_keeps
    | with_reducible apply good_forAll
    | (extract_lets +onlyGivenNames x
       first
         | (refine good_cut (q := q) x ?cv ?ck
            case' ck => (intro hx; clear_value x)
            case' cv => (unfold x; clear x))
         | (refine good_cut_fst (q := q) x ?cv ?ck
            case' ck => (intro hx; clear_value x)
            case' cv => (unfold x; clear x))
         | (refine good_cut_snd (q := q) x ?cv ?ck
            case' ck => (intro hx; clear_value x)
            case' cv => (unfold x; clear x))
         | skip)
    | with_reducible apply good_mk
    | with_reducible rfl

theorem State.scopeTick_keeps {q : List Instr} (s : State) (h : Good q s) : Good q (State.scopeTick s) := by
  unfold State.scopeTick
  repeat' first
    | with_reducible assumption
    | intro _
    | with_reducible apply good_ite
    | with_reducible apply State.releaseTick_keeps
    | with_reducible apply State.penTick_keeps

theorem State.headScopes_keeps {q : List Instr} (w : Nat) (s : State) (h : Good q s) : Good q (State.headScopes w s) := by
  unfold State.headScopes
  repeat' first
    | with_reducible assumption
    | intro _
    | with_reducible apply good_ite
    | with_reducible apply State.setUmbraFlag_keeps
    | with_reducible apply State.raise_keeps
    | with_reducible apply State.deviceDark_keeps
    | with_reducible apply State.deviceLight_keeps
    | with_reducible apply State.put_keeps
    | with_reducible apply State.powerDark_keeps
    | with_reducible apply State.powerRelease_keeps
    | with_reducible apply State.outRefresh_keeps
    | with_reducible apply State.penBit_keeps
    | with_reducible apply State.engPen_keeps
    | with_reducible apply State.penEffect_keeps
    | with_reducible apply good_forAll
    | (extract_lets +onlyGivenNames x
       first
         | (refine good_cut (q := q) x ?cv ?ck
            case' ck => (intro hx; clear_value x)
            case' cv => (unfold x; clear x))
         | (refine good_cut_fst (q := q) x ?cv ?ck
            case' ck => (intro hx; clear_value x)
            case' cv => (unfold x; clear x))
         | (refine good_cut_snd (q := q) x ?cv ?ck
            case' ck => (intro hx; clear_value x)
            case' cv => (unfold x; clear x))
         | skip)
    | split

theorem State.enterHold_keeps {q : List Instr} (s : State) (h : Good q s) : Good q (State.enterHold s) := by
  unfold State.enterHold
  repeat' first
    | with_reducible assumption
    | intro _
    | with_reducible apply good_ite
    | with_reducible apply State.stopEngine_keeps
    | with_reducible apply State.bridgeDark_keeps
    | with_reducible apply State.dieCmd_keeps
    | with_reducible apply State.shedTick_keeps
    | with_reducible apply State.put_keeps
    | with_reducible apply State.outRefresh_keeps
    | with_reducible apply State.raise_keeps
    | with_reducible apply good_forAll
    | (extract_lets +onlyGivenNames x
       first
         | (refine good_cut (q := q) x ?cv ?ck
            case' ck => (intro hx; clear_value x)
            case' cv => (unfold x; clear x))
         | (refine good_cut_fst (q := q) x ?cv ?ck
            case' ck => (intro hx; clear_value x)
            case' cv => (unfold x; clear x))
         | (refine good_cut_snd (q := q) x ?cv ?ck
            case' ck => (intro hx; clear_value x)
            case' cv => (unfold x; clear x))
         | skip)
    | split
    | with_reducible apply good_mk
    | with_reducible rfl

theorem State.enginesRun_keeps {q : List Instr} (s : State) (h : Good q s) : Good q (State.enginesRun s) := by
  unfold State.enginesRun
  repeat' first
    | with_reducible assumption
    | intro _
    | with_reducible apply good_ite
    | with_reducible apply State.upE_keeps
    | with_reducible apply good_forAll
    | (extract_lets +onlyGivenNames x
       first
         | (refine good_cut (q := q) x ?cv ?ck
            case' ck => (intro hx; clear_value x)
            case' cv => (unfold x; clear x))
         | (refine good_cut_fst (q := q) x ?cv ?ck
            case' ck => (intro hx; clear_value x)
            case' cv => (unfold x; clear x))
         | (refine good_cut_snd (q := q) x ?cv ?ck
            case' ck => (intro hx; clear_value x)
            case' cv => (unfold x; clear x))
         | skip)
    | split
    | with_reducible apply good_mk
    | with_reducible rfl

theorem State.enterRun_keeps {q : List Instr} (s : State) (h : Good q s) : Good q (State.enterRun s) := by
  unfold State.enterRun
  repeat' first
    | with_reducible assumption
    | intro _
    | with_reducible apply good_ite
    | with_reducible apply State.put_keeps
    | with_reducible apply State.upT_keeps
    | with_reducible apply State.bridgeOff_keeps
    | with_reducible apply State.enginesRun_keeps
    | with_reducible apply State.outRefresh_keeps
    | with_reducible apply State.shedTick_keeps
    | with_reducible apply State.raise_keeps
    | with_reducible apply good_forAll
    | (extract_lets +onlyGivenNames x
       first
         | (refine good_cut (q := q) x ?cv ?ck
            case' ck => (intro hx; clear_value x)
            case' cv => (unfold x; clear x))
         | (refine good_cut_fst (q := q) x ?cv ?ck
            case' ck => (intro hx; clear_value x)
            case' cv => (unfold x; clear x))
         | (refine good_cut_snd (q := q) x ?cv ?ck
            case' ck => (intro hx; clear_value x)
            case' cv => (unfold x; clear x))
         | skip)
    | split
    | with_reducible apply good_mk
    | with_reducible rfl

theorem State.modeTick_keeps {q : List Instr} (s : State) (h : Good q s) : Good q (State.modeTick s) := by
  unfold State.modeTick
  repeat' first
    | with_reducible assumption
    | intro _
    | with_reducible apply good_ite
    | with_reducible apply State.put_keeps
    | with_reducible apply State.modeReason_keeps
    | with_reducible apply State.enterRun_keeps
    | with_reducible apply State.enterHold_keeps
    | with_reducible apply State.standbyStart_keeps
    | (extract_lets +onlyGivenNames x
       first
         | (refine good_cut (q := q) x ?cv ?ck
            case' ck => (intro hx; clear_value x)
            case' cv => (unfold x; clear x))
         | (refine good_cut_fst (q := q) x ?cv ?ck
            case' ck => (intro hx; clear_value x)
            case' cv => (unfold x; clear x))
         | (refine good_cut_snd (q := q) x ?cv ?ck
            case' ck => (intro hx; clear_value x)
            case' cv => (unfold x; clear x))
         | skip)
    | split
    | with_reducible apply good_mk
    | with_reducible rfl

theorem State.excWord_keeps {q : List Instr} (v : Nat) (s : State) (h : Good q s) : Good q (State.excWord v s) := by
  unfold State.excWord
  repeat' first
    | with_reducible assumption
    | intro _
    | with_reducible apply State.ifBit_keeps
    | with_reducible apply State.excPenleave_keeps
    | with_reducible apply State.excPenenter_keeps
    | with_reducible apply State.excRelease_keeps
    | with_reducible apply State.excEnter_keeps

theorem State.mirrorStore_keeps {q : List Instr} (num : Nat) (d : List Byte) (s : State) (h : Good q s) : Good q (State.mirrorStore num d s) := by
  unfold State.mirrorStore
  repeat' first
    | with_reducible assumption
    | intro _
    | with_reducible apply good_ite
    | with_reducible apply State.keepWait_keeps
    | with_reducible apply State.keepSettle_keeps
    | with_reducible apply State.note_keeps
    | split

theorem State.ctrlApply_keeps {q : List Instr} (c : CtrlEnt) (s : State) (h : Good q s) : Good q (State.ctrlApply c s) := by
  unfold State.ctrlApply
  repeat' first
    | with_reducible assumption
    | intro _
    | with_reducible apply good_ite
    | with_reducible apply good_ite_fst
    | with_reducible apply good_ite_snd
    | with_reducible apply State.eccWrite_keeps
    | with_reducible apply State.storeWords_keeps
    | with_reducible apply State.excWord_keeps
    | with_reducible apply State.descWrite_keeps
    | with_reducible apply State.shedWrite_keeps
    | with_reducible apply State.mirrorStore_keeps
    | (extract_lets +onlyGivenNames x
       first
         | (refine good_cut (q := q) x ?cv ?ck
            case' ck => (intro hx; clear_value x)
            case' cv => (unfold x; clear x))
         | (refine good_cut_fst (q := q) x ?cv ?ck
            case' ck => (intro hx; clear_value x)
            case' cv => (unfold x; clear x))
         | (refine good_cut_snd (q := q) x ?cv ?ck
            case' ck => (intro hx; clear_value x)
            case' cv => (unfold x; clear x))
         | skip)
    | split

theorem State.ctrlTake_keeps {q : List Instr} (l : List CtrlEnt) (s : State) (h : Good q s) : Good q (State.ctrlTake l s) := by
  unfold State.ctrlTake
  repeat' first
    | with_reducible assumption
    | intro _
    | with_reducible apply good_ite
    | with_reducible apply State.ctrlApply_keeps
    | with_reducible apply State.switchGroup_keeps
    | with_reducible apply good_forAll
    | (extract_lets +onlyGivenNames x
       first
         | (refine good_cut (q := q) x ?cv ?ck
            case' ck => (intro hx; clear_value x)
            case' cv => (unfold x; clear x))
         | (refine good_cut_fst (q := q) x ?cv ?ck
            case' ck => (intro hx; clear_value x)
            case' cv => (unfold x; clear x))
         | (refine good_cut_snd (q := q) x ?cv ?ck
            case' ck => (intro hx; clear_value x)
            case' cv => (unfold x; clear x))
         | skip)
    | split

theorem State.dwRead_keeps {q : List Instr} (s : State) (h : Good q s) : Good q (State.dwRead s) := by
  unfold State.dwRead
  repeat' first
    | with_reducible assumption
    | intro _
    | with_reducible apply good_ite
    | with_reducible apply good_ite_fst
    | with_reducible apply good_ite_snd
    | with_reducible apply State.qRead_keeps
    | with_reducible apply good_foldl
    | with_reducible apply good_foldl_fst
    | with_reducible apply good_foldl_snd
    | (extract_lets +onlyGivenNames x
       first
         | (refine good_cut (q := q) x ?cv ?ck
            case' ck => (intro hx; clear_value x)
            case' cv => (unfold x; clear x))
         | (refine good_cut_fst (q := q) x ?cv ?ck
            case' ck => (intro hx; clear_value x)
            case' cv => (unfold x; clear x))
         | (refine good_cut_snd (q := q) x ?cv ?ck
            case' ck => (intro hx; clear_value x)
            case' cv => (unfold x; clear x))
         | skip)

theorem State.dwApply_keeps {q : List Instr} (s : State) (h : Good q s) : Good q (State.dwApply s) := by
  unfold State.dwApply
  repeat' first
    | with_reducible assumption
    | intro _
    | with_reducible apply good_ite
    | with_reducible apply State.dwRead_keeps
    | with_reducible apply State.ctrlApply_keeps
    | with_reducible apply State.scopeTick_keeps
    | with_reducible apply good_forAll
    | (extract_lets +onlyGivenNames x
       first
         | (refine good_cut (q := q) x ?cv ?ck
            case' ck => (intro hx; clear_value x)
            case' cv => (unfold x; clear x))
         | (refine good_cut_fst (q := q) x ?cv ?ck
            case' ck => (intro hx; clear_value x)
            case' cv => (unfold x; clear x))
         | (refine good_cut_snd (q := q) x ?cv ?ck
            case' ck => (intro hx; clear_value x)
            case' cv => (unfold x; clear x))
         | skip)
    | split
    | with_reducible apply good_mk
    | with_reducible rfl

theorem State.dwLast_keeps {q : List Instr} (s : State) (h : Good q s) : Good q (State.dwLast s) := by
  unfold State.dwLast
  repeat' first
    | with_reducible assumption
    | intro _
    | with_reducible apply good_ite
    | with_reducible apply State.dwRead_keeps
    | with_reducible apply State.ctrlApply_keeps
    | with_reducible apply good_forAll
    | (extract_lets +onlyGivenNames x
       first
         | (refine good_cut (q := q) x ?cv ?ck
            case' ck => (intro hx; clear_value x)
            case' cv => (unfold x; clear x))
         | (refine good_cut_fst (q := q) x ?cv ?ck
            case' ck => (intro hx; clear_value x)
            case' cv => (unfold x; clear x))
         | (refine good_cut_snd (q := q) x ?cv ?ck
            case' ck => (intro hx; clear_value x)
            case' cv => (unfold x; clear x))
         | skip)
    | with_reducible apply good_mk
    | with_reducible rfl

theorem State.inputEcc_keeps {q : List Instr} (src : Nat) (dst : Nat) (s : State) (h : Good q s) : Good q (State.inputEcc src dst s) := by
  unfold State.inputEcc
  repeat' first
    | with_reducible assumption
    | intro _
    | with_reducible apply good_ite
    | with_reducible apply good_ite_fst
    | with_reducible apply good_ite_snd
    | with_reducible apply State.put_keeps
    | with_reducible apply good_foldl
    | with_reducible apply good_foldl_fst
    | with_reducible apply good_foldl_snd
    | (extract_lets +onlyGivenNames x
       first
         | (refine good_cut (q := q) x ?cv ?ck
            case' ck => (intro hx; clear_value x)
            case' cv => (unfold x; clear x))
         | (refine good_cut_fst (q := q) x ?cv ?ck
            case' ck => (intro hx; clear_value x)
            case' cv => (unfold x; clear x))
         | (refine good_cut_snd (q := q) x ?cv ?ck
            case' ck => (intro hx; clear_value x)
            case' cv => (unfold x; clear x))
         | skip)
    | with_reducible apply good_mk
    | with_reducible rfl

theorem State.backOpen_keeps {q : List Instr} (s : State) (h : Good q s) : Good q (State.backOpen s) := by
  refine ⟨h.queue, h.mem, ?_, h.work, h.nor, h.arr, h.snap, h.brick, h.fifo, h.logq, h.ram, h.farm⟩
  refine cellsWf_shift _ _ (cellsWf_filter _ _ h.mem) fun c hc => ?_
  have := (List.mem_filter.1 hc).2
  simp only [Bool.and_eq_true, decide_eq_true_eq] at this
  exact this.1

theorem State.latchPut_keeps {q : List Instr} (a : Nat) (l : List Byte) (s : State) (h : Good q s) : Good q (State.latchPut a l s) := by
  unfold State.latchPut
  repeat' first
    | with_reducible assumption
    | intro _
    | with_reducible apply good_ite
    | with_reducible apply good_ite_fst
    | with_reducible apply good_ite_snd
    | with_reducible apply State.eccWrite_keeps

theorem State.putTag_keeps {q : List Instr} (iw : Bool) (n : Nat) (tag : Nat) (s : State) (h : Good q s) : Good q (State.putTag iw n tag s) := by
  unfold State.putTag
  repeat' first
    | with_reducible assumption
    | intro _
    | with_reducible apply good_ite
    | with_reducible apply State.latchPut_keeps
    | (extract_lets +onlyGivenNames x
       first
         | (refine good_cut (q := q) x ?cv ?ck
            case' ck => (intro hx; clear_value x)
            case' cv => (unfold x; clear x))
         | (refine good_cut_fst (q := q) x ?cv ?ck
            case' ck => (intro hx; clear_value x)
            case' cv => (unfold x; clear x))
         | (refine good_cut_snd (q := q) x ?cv ?ck
            case' ck => (intro hx; clear_value x)
            case' cv => (unfold x; clear x))
         | skip)
    | split

theorem State.latchDi_keeps {q : List Instr} (s : State) (h : Good q s) : Good q (State.latchDi s) := by
  unfold State.latchDi
  repeat' first
    | with_reducible assumption
    | intro _
    | with_reducible apply good_ite
    | with_reducible apply State.latchPut_keeps
    | with_reducible apply State.putTag_keeps
    | with_reducible apply good_forAll
    | (extract_lets +onlyGivenNames x
       first
         | (refine good_cut (q := q) x ?cv ?ck
            case' ck => (intro hx; clear_value x)
            case' cv => (unfold x; clear x))
         | (refine good_cut_fst (q := q) x ?cv ?ck
            case' ck => (intro hx; clear_value x)
            case' cv => (unfold x; clear x))
         | (refine good_cut_snd (q := q) x ?cv ?ck
            case' ck => (intro hx; clear_value x)
            case' cv => (unfold x; clear x))
         | skip)
    | split

theorem State.latchAdc_keeps {q : List Instr} (t : Nat) (s : State) (h : Good q s) : Good q (State.latchAdc t s) := by
  unfold State.latchAdc
  repeat' first
    | with_reducible assumption
    | intro _
    | with_reducible apply good_ite
    | with_reducible apply good_ite_fst
    | with_reducible apply good_ite_snd
    | with_reducible apply State.latchPut_keeps
    | with_reducible apply State.putTag_keeps
    | with_reducible apply State.adcTaken_keeps
    | with_reducible apply good_forAll
    | (extract_lets +onlyGivenNames x
       first
         | (refine good_cut (q := q) x ?cv ?ck
            case' ck => (intro hx; clear_value x)
            case' cv => (unfold x; clear x))
         | (refine good_cut_fst (q := q) x ?cv ?ck
            case' ck => (intro hx; clear_value x)
            case' cv => (unfold x; clear x))
         | (refine good_cut_snd (q := q) x ?cv ?ck
            case' ck => (intro hx; clear_value x)
            case' cv => (unfold x; clear x))
         | skip)
    | split
    | with_reducible apply good_mk
    | with_reducible rfl

theorem State.latchMap_keeps {q : List Instr} (p : Nat) (k : Nat) (s : State) (h : Good q s) : Good q (State.latchMap p k s) := by
  unfold State.latchMap
  repeat' first
    | with_reducible assumption
    | intro _
    | with_reducible apply good_ite
    | with_reducible apply State.putTag_keeps
    | with_reducible apply State.upPort_keeps
    | with_reducible apply State.latchPut_keeps
    | with_reducible apply good_forAll
    | (extract_lets +onlyGivenNames x
       first
         | (refine good_cut (q := q) x ?cv ?ck
            case' ck => (intro hx; clear_value x)
            case' cv => (unfold x; clear x))
         | (refine good_cut_fst (q := q) x ?cv ?ck
            case' ck => (intro hx; clear_value x)
            case' cv => (unfold x; clear x))
         | (refine good_cut_snd (q := q) x ?cv ?ck
            case' ck => (intro hx; clear_value x)
            case' cv => (unfold x; clear x))
         | skip)
    | split
    | with_reducible apply good_mk
    | with_reducible rfl

theorem State.latchS_keeps {q : List Instr} (stretched : Bool) (s : State) (h : Good q s) : Good q (State.latchS stretched s) := by
  unfold State.latchS
  repeat' first
    | with_reducible assumption
    | intro _
    | with_reducible apply good_ite
    | with_reducible apply good_ite_fst
    | with_reducible apply good_ite_snd
    | with_reducible apply State.latchPut_keeps
    | (extract_lets +onlyGivenNames x
       first
         | (refine good_cut (q := q) x ?cv ?ck
            case' ck => (intro hx; clear_value x)
            case' cv => (unfold x; clear x))
         | (refine good_cut_fst (q := q) x ?cv ?ck
            case' ck => (intro hx; clear_value x)
            case' cv => (unfold x; clear x))
         | (refine good_cut_snd (q := q) x ?cv ?ck
            case' ck => (intro hx; clear_value x)
            case' cv => (unfold x; clear x))
         | skip)
    | split

theorem State.latchOwn_keeps {q : List Instr} (t : Nat) (s : State) (h : Good q s) : Good q (State.latchOwn t s) := by
  unfold State.latchOwn
  repeat' first
    | with_reducible assumption
    | intro _
    | with_reducible apply State.latchAdc_keeps
    | with_reducible apply State.latchDi_keeps
    | with_reducible apply State.latchMap_keeps
    | with_reducible apply good_forAll

theorem State.latchTick_keeps {q : List Instr} (t : Nat) (stretched : Bool) (s : State) (h : Good q s) : Good q (State.latchTick t stretched s) := by
  unfold State.latchTick
  repeat' first
    | with_reducible assumption
    | intro _
    | with_reducible apply State.latchS_keeps
    | with_reducible apply State.latchOwn_keeps

theorem State.imageSwap_keeps {q : List Instr} (s : State) (h : Good q s) : Good q (State.imageSwap s) := by
  exact ⟨h.queue, cellsWf_foldl_cellPut _ _ _ _ (cellsWf_filter _ _ h.mem), h.back, h.work, h.nor, h.arr, h.snap, h.brick, h.fifo, h.logq, h.ram, h.farm⟩

theorem State.leadTick_keeps {q : List Instr} (names : List Nat) (s : State) (h : Good q s) : Good q (State.leadTick names s) := by
  unfold State.leadTick
  repeat' first
    | with_reducible assumption
    | intro _
    | with_reducible apply good_ite
    | with_reducible apply State.put_keeps
    | with_reducible apply State.sendEnd_keeps
    | (extract_lets +onlyGivenNames x
       first
         | (refine good_cut (q := q) x ?cv ?ck
            case' ck => (intro hx; clear_value x)
            case' cv => (unfold x; clear x))
         | (refine good_cut_fst (q := q) x ?cv ?ck
            case' ck => (intro hx; clear_value x)
            case' cv => (unfold x; clear x))
         | (refine good_cut_snd (q := q) x ?cv ?ck
            case' ck => (intro hx; clear_value x)
            case' cv => (unfold x; clear x))
         | skip)
    | split
    | with_reducible apply good_mk
    | with_reducible rfl

theorem State.swapTick_keeps {q : List Instr} (a : Nat) (s : State) (h : Good q s) : Good q (State.swapTick a s) := by
  unfold State.swapTick
  repeat' first
    | with_reducible assumption
    | intro _
    | with_reducible apply good_ite
    | with_reducible apply State.put_keeps
    | (extract_lets +onlyGivenNames x
       first
         | (refine good_cut (q := q) x ?cv ?ck
            case' ck => (intro hx; clear_value x)
            case' cv => (unfold x; clear x))
         | (refine good_cut_fst (q := q) x ?cv ?ck
            case' ck => (intro hx; clear_value x)
            case' cv => (unfold x; clear x))
         | (refine good_cut_snd (q := q) x ?cv ?ck
            case' ck => (intro hx; clear_value x)
            case' cv => (unfold x; clear x))
         | skip)
    | split
    | with_reducible apply good_mk
    | with_reducible rfl

theorem State.digestGot_keeps {q : List Instr} (a : Nat) (ok : Bool) (crc : Nat) (s : State) (h : Good q s) : Good q (State.digestGot a ok crc s) := by
  unfold State.digestGot
  repeat' first
    | with_reducible assumption
    | intro _
    | with_reducible apply good_ite
    | with_reducible apply State.stopFollowing_keeps
    | with_reducible apply State.rejoinFail_keeps
    | (extract_lets +onlyGivenNames x
       first
         | (refine good_cut (q := q) x ?cv ?ck
            case' ck => (intro hx; clear_value x)
            case' cv => (unfold x; clear x))
         | (refine good_cut_fst (q := q) x ?cv ?ck
            case' ck => (intro hx; clear_value x)
            case' cv => (unfold x; clear x))
         | (refine good_cut_snd (q := q) x ?cv ?ck
            case' ck => (intro hx; clear_value x)
            case' cv => (unfold x; clear x))
         | skip)
    | split
    | with_reducible apply good_mk
    | with_reducible rfl

theorem State.digestTake_keeps {q : List Instr} (a : Nat) (s : State) (h : Good q s) : Good q (State.digestTake a s) := by
  rw [State.digestTake]
  exact State.digestGot_keeps _ _ _ _ (State.sweptCrc_keeps s h)

theorem State.leadRecord_keeps {q : List Instr} (s : State) (h : Good q s) : Good q (State.leadRecord s) := by
  unfold State.leadRecord
  refine good_ite (good_mk h (Eq.refl _) (Eq.refl _) (Eq.refl _) (Eq.refl _) (Eq.refl _) (Eq.refl _)) (good_ite (good_mk h (Eq.refl _) (Eq.refl _) (Eq.refl _) (Eq.refl _) (Eq.refl _) (Eq.refl _)) ?_)
  extract_lets dig _ s1 mode s2 s3 _ s4 _ s5 s6
  have h1 : Good q s1 := good_ite (good_mk h (Eq.refl _) (Eq.refl _) (Eq.refl _) (Eq.refl _) (Eq.refl _) (Eq.refl _)) h
  have h2 : Good q s2 := State.sendHead_keeps _ _ h1
  have h3 : Good q s3 := good_forAll (fun _ _ h => State.rflSend_keeps _ _ _ _ h) h2
  have h4 : Good q s4 := good_mk h3 (Eq.refl _) (Eq.refl _) (Eq.refl _) (Eq.refl _) (Eq.refl _) (Eq.refl _)
  have h5 : Good q s5 := good_ite (State.rflSend_keeps _ _ _ _ (good_mk h4 (Eq.refl _) (Eq.refl _) (Eq.refl _) (Eq.refl _) (Eq.refl _) (Eq.refl _))) h4
  have h6 : Good q s6 := State.sendPages_keeps _ h5
  exact good_ite (State.digestTake_keeps _ _ h6) h6

theorem State.discCompare_keeps {q : List Instr} (s : State) (h : Good q s) : Good q (State.discCompare s) := by
  unfold State.discCompare
  extract_lets l hit persist r0 s1 lim long s2 s3
  have h1 : Good q s1 := good_mk h (Eq.refl _) (Eq.refl _) (Eq.refl _) (Eq.refl _) (Eq.refl _) (Eq.refl _)
  have h2 : Good q s2 := good_ite (State.warn_keeps _ _ _ h1) h1
  have h3 : Good q s3 := State.put_keeps _ _ _ _ _ h2
  clear_value s3 hit
  split
  · exact h3
  · exact State.raise_keeps _ _ _ (State.bump_keeps _ _ _ _ (good_mk h3 (Eq.refl _) (Eq.refl _) (Eq.refl _) (Eq.refl _) (Eq.refl _) (Eq.refl _)))

theorem State.sendStatus_keeps {q : List Instr} (s : State) (h : Good q s) : Good q (State.sendStatus s) := by
  unfold State.sendStatus
  repeat' first
    | with_reducible assumption
    | intro _
    | with_reducible apply good_ite
    | with_reducible apply State.rflSend_keeps
    | (extract_lets +onlyGivenNames x
       first
         | (refine good_cut (q := q) x ?cv ?ck
            case' ck => (intro hx; clear_value x)
            case' cv => (unfold x; clear x))
         | (refine good_cut_fst (q := q) x ?cv ?ck
            case' ck => (intro hx; clear_value x)
            case' cv => (unfold x; clear x))
         | (refine good_cut_snd (q := q) x ?cv ?ck
            case' ck => (intro hx; clear_value x)
            case' cv => (unfold x; clear x))
         | skip)
    | with_reducible apply good_mk
    | split
    | with_reducible rfl

theorem State.latchRecord_keeps {q : List Instr} (r : RecvRec) (s : State) (h : Good q s) : Good q (State.latchRecord r s) := by
  unfold State.latchRecord
  repeat' first
    | with_reducible assumption
    | intro _
    | with_reducible apply good_ite
    | with_reducible apply good_ite_fst
    | with_reducible apply good_ite_snd
    | with_reducible apply State.latchPut_keeps
    | with_reducible apply good_foldl
    | with_reducible apply good_foldl_fst
    | with_reducible apply good_foldl_snd
    | (extract_lets +onlyGivenNames x
       first
         | (refine good_cut (q := q) x ?cv ?ck
            case' ck => (intro hx; clear_value x)
            case' cv => (unfold x; clear x))
         | (refine good_cut_fst (q := q) x ?cv ?ck
            case' ck => (intro hx; clear_value x)
            case' cv => (unfold x; clear x))
         | (refine good_cut_snd (q := q) x ?cv ?ck
            case' ck => (intro hx; clear_value x)
            case' cv => (unfold x; clear x))
         | skip)
    | split

theorem State.snapshot_keeps {q : List Instr} (t : Nat) (s : State) (h : Good q s) : Good q (State.snapshot t s) := by
  unfold State.snapshot
  have h1 : Good q ({ s with back := s.rfl.snap }.latchOwn t) := State.latchOwn_keeps _ _
    ⟨h.queue, h.mem, h.snap, h.work, h.nor, h.arr, h.snap, h.brick, h.fifo, h.logq, h.ram, h.farm⟩
  generalize { s with back := s.rfl.snap }.latchOwn t = u at h1
  exact ⟨h1.queue, h1.mem, h.back, h1.work, h1.nor, h1.arr, h1.back, h1.brick, h1.fifo, h1.logq, h1.ram, h1.farm⟩

theorem State.ctrlScopes_keeps {q : List Instr} (r : RecvRec) (s : State) (h : Good q s) : Good q (State.ctrlScopes r s) := by
  unfold State.ctrlScopes
  repeat' first
    | with_reducible assumption
    | intro _
    | with_reducible apply good_ite
    | with_reducible apply State.ctrlTake_keeps
    | with_reducible apply State.umbraRelease_keeps
    | with_reducible apply State.headScopes_keeps
    | with_reducible apply good_forAll
    | (extract_lets +onlyGivenNames x
       first
         | (refine good_cut (q := q) x ?cv ?ck
            case' ck => (intro hx; clear_value x)
            case' cv => (unfold x; clear x))
         | (refine good_cut_fst (q := q) x ?cv ?ck
            case' ck => (intro hx; clear_value x)
            case' cv => (unfold x; clear x))
         | (refine good_cut_snd (q := q) x ?cv ?ck
            case' ck => (intro hx; clear_value x)
            case' cv => (unfold x; clear x))
         | skip)
    | with_reducible apply good_mk
    | with_reducible rfl

theorem State.snapStart_keeps {q : List Instr} (s : State) (h : Good q s) : Good q (State.snapStart s) := good_rfl _ h h.back

theorem State.turnStart_keeps {q : List Instr} (r : RecvRec) (fin : EndRec) (sync : Bool) (s : State) (h : Good q s) : Good q (State.turnStart r fin sync s) := by
  unfold State.turnStart
  extract_lets hd r0 s1 s2 s3 s4 s5 s6 s6b s7 mine r1 s9 s10 s11 s12
  have h1 : Good q s1 := State.farFlow_keeps _ (good_mk h (Eq.refl _) (Eq.refl _) (Eq.refl _) (Eq.refl _) (Eq.refl _) (Eq.refl _))
  have h2 : Good q s2 := State.put_keeps _ _ _ _ _ (State.put_keeps _ _ _ _ _ h1)
  clear_value s1
  have h3 : Good q s3 := good_forAll (fun x t ht => State.upE_keeps _ _ _ ht) h2
  clear_value s2
  have h4 : Good q s4 := good_ite (State.enterHold_keeps _ h3) h3
  clear_value s3
  have h5 : Good q s5 := good_ite (State.enterRun_keeps _ h4) h4
  clear_value s4
  have h6 : Good q s6 := good_ite (State.takeState_keeps _ _ h5) h5
  clear_value s5
  have h6b : Good q s6b := good_ite (State.enginesRun_keeps _ h6) h6
  clear_value s6
  have h7 : Good q s7 := good_ite (State.stopFollowing_keeps _ _ h6b) (State.ctrlScopes_keeps _ _ h6b)
  clear_value s7
  have h9 : Good q s9 := good_mk h7 (Eq.refl _) (Eq.refl _) (Eq.refl _) (Eq.refl _) (Eq.refl _) (Eq.refl _)
  clear_value mine
  have h10 : Good q s10 := good_forAll (fun x t ht => State.applyPage_keeps _ _ ht) h9
  clear_value s9
  have h11 : Good q s11 := State.seqTick_keeps _ _ (State.seqStart_keeps _ (State.discCompare_keeps _ (State.latchRecord_keeps _ _ h10)))
  clear_value s11
  have h12 : Good q s12 := good_ite (State.digestTake_keeps _ _ h11) h11
  exact good_ite h10 (State.sendStatus_keeps _ h12)

theorem State.missTick_keeps {q : List Instr} (s : State) (h : Good q s) : Good q (State.missTick s) := by
  unfold State.missTick
  repeat' first
    | with_reducible assumption
    | intro _
    | with_reducible apply State.put_keeps
    | with_reducible apply State.raise_keeps
    | with_reducible apply State.bump_keeps

theorem State.swapIn_keeps {q : List Instr} (r : RecvRec) (fin : EndRec) (s : State) (h : Good q s) : Good q (State.swapIn r fin s) := by
  unfold State.swapIn
  repeat' first
    | with_reducible assumption
    | intro _
    | with_reducible apply good_ite
    | with_reducible apply good_ite_fst
    | with_reducible apply good_ite_snd
    | with_reducible apply State.commitNamed_keeps
    | with_reducible apply State.outCommit_keeps
    | with_reducible apply State.stopFollowing_keeps
    | with_reducible apply State.release_keeps
    | with_reducible apply State.upE_keeps
    | with_reducible apply State.ctrlScopes_keeps
    | with_reducible apply State.leadStart_keeps
    | with_reducible apply State.put_keeps
    | with_reducible apply good_forAll
    | split
    | with_reducible apply good_mk
    | (extract_lets +onlyGivenNames x
       first
         | (refine good_cut (q := q) x ?cv ?ck
            case' ck => (intro hx; clear_value x)
            case' cv => (unfold x; clear x))
         | (refine good_cut_fst (q := q) x ?cv ?ck
            case' ck => (intro hx; clear_value x)
            case' cv => (unfold x; clear x))
         | (refine good_cut_snd (q := q) x ?cv ?ck
            case' ck => (intro hx; clear_value x)
            case' cv => (unfold x; clear x))
         | skip)
    | with_reducible rfl
    | rfl

theorem State.tickStart_keeps {q : List Instr} (t : Nat) (s : State) (h : Good q s) : Good q (State.tickStart t s) := by
  unfold State.tickStart
  repeat' first
    | with_reducible assumption
    | intro _
    | with_reducible apply good_ite
    | with_reducible apply State.advance_keeps
    | with_reducible apply State.utilTick_keeps
    | with_reducible apply State.put_keeps
    | with_reducible apply State.upE_keeps
    | with_reducible apply State.backOpen_keeps
    | with_reducible apply good_forAll
    | split
    | (extract_lets +onlyGivenNames x
       first
         | (refine good_cut (q := q) x ?cv ?ck
            case' ck => (intro hx; clear_value x)
            case' cv => (unfold x; clear x))
         | (refine good_cut_fst (q := q) x ?cv ?ck
            case' ck => (intro hx; clear_value x)
            case' cv => (unfold x; clear x))
         | (refine good_cut_snd (q := q) x ?cv ?ck
            case' ck => (intro hx; clear_value x)
            case' cv => (unfold x; clear x))
         | skip)
    | with_reducible apply good_mk
    | with_reducible rfl

theorem State.tickEvents_keeps {q : List Instr} (s : State) (h : Good q s) : Good q (State.tickEvents s) := by
  unfold State.tickEvents
  repeat' first
    | with_reducible assumption
    | intro _
    | with_reducible apply good_ite
    | with_reducible apply State.seqStart_keeps
    | with_reducible apply State.raise_keeps
    | with_reducible apply State.put_keeps
    | split
    | (extract_lets +onlyGivenNames x
       first
         | (refine good_cut (q := q) x ?cv ?ck
            case' ck => (intro hx; clear_value x)
            case' cv => (unfold x; clear x))
         | (refine good_cut_fst (q := q) x ?cv ?ck
            case' ck => (intro hx; clear_value x)
            case' cv => (unfold x; clear x))
         | (refine good_cut_snd (q := q) x ?cv ?ck
            case' ck => (intro hx; clear_value x)
            case' cv => (unfold x; clear x))
         | skip)
    | with_reducible apply good_mk
    | with_reducible rfl

theorem State.svTick_keeps {q : List Instr} (s : State) (h : Good q s) : Good q (State.svTick s) := by
  unfold State.svTick
  repeat' first
    | with_reducible assumption
    | intro _
    | with_reducible apply good_ite
    | with_reducible apply State.batchApply_keeps
    | with_reducible apply State.hoursTick_keeps
    | with_reducible apply State.policyTick_keeps

theorem State.switchTick_keeps {q : List Instr} (a : Nat) (s : State) (h : Good q s) : Good q (State.switchTick a s) := by
  unfold State.switchTick
  repeat' first
    | with_reducible assumption
    | intro _
    | with_reducible apply good_ite
    | with_reducible apply State.prgTick_keeps
    | with_reducible apply State.bindTick_keeps
    | with_reducible apply State.recordWrite_keeps
    | (extract_lets +onlyGivenNames x
       first
         | (refine good_cut (q := q) x ?cv ?ck
            case' ck => (intro hx; clear_value x)
            case' cv => (unfold x; clear x))
         | (refine good_cut_fst (q := q) x ?cv ?ck
            case' ck => (intro hx; clear_value x)
            case' cv => (unfold x; clear x))
         | (refine good_cut_snd (q := q) x ?cv ?ck
            case' ck => (intro hx; clear_value x)
            case' cv => (unfold x; clear x))
         | skip)
    | split
    | with_reducible apply good_mk
    | with_reducible rfl

theorem State.ownTick_keeps {q : List Instr} (t : Nat) (a : Nat) (stretched : Bool) (s : State) (h : Good q s) : Good q (State.ownTick t a stretched s) := by
  unfold State.ownTick
  extract_lets was s1 run c s2 w r0 s3 s4 s5 s6
  have h1 : Good q s1 := State.penTick_keeps _ (State.modeTick_keeps _ (State.releaseTick_keeps _ h))
  clear_value s1
  have hc : Good q c.1 := good_ite_fst (State.commitImages_keeps _ h1) h1
  clear_value c
  have h2 : Good q s2 := good_ite (State.pubCommit_keeps _ (State.outCommit_keeps _ _ hc)) (State.pubDrop_keeps _ hc)
  clear_value s2
  have h3 : Good q s3 := good_mk h2 (Eq.refl _) (Eq.refl _) (Eq.refl _) (Eq.refl _) (Eq.refl _) (Eq.refl _)
  clear_value s3
  have h4 : Good q s4 := good_ite (State.swapTick_keeps _ _ (State.leadTick_keeps _ _ h3)) h3
  clear_value s4
  have h5 : Good q s5 := State.dwApply_keeps _ (State.svTick_keeps _ (State.switchTick_keeps _ _ h4))
  clear_value s5
  have h6 : Good q s6 := State.latchTick_keeps _ _ _ h5
  clear_value s6
  exact good_ite (good_mk h6 (Eq.refl _) (Eq.refl _) (Eq.refl _) (Eq.refl _) (Eq.refl _) (Eq.refl _)) (State.seqTick_keeps _ _ h6)

theorem State.rejoinTick_keeps {q : List Instr} (a : Nat) (s : State) (h : Good q s) : Good q (State.rejoinTick a s) := by
  unfold State.rejoinTick
  split
  · exact h
  · next r _ =>
    extract_lets +onlyGivenNames more img
    clear_value img
    refine good_ite (good_ite ?_ (State.rejoinFail_keeps _ _ h)) (good_ite (State.rejoinFail_keeps _ _ h)
      (good_mk h (Eq.refl _) (Eq.refl _) (Eq.refl _) (Eq.refl _) (Eq.refl _) (Eq.refl _)))
    split
    · exact State.rejoinFail_keeps _ _ h
    · have h1 := State.raise_keeps 252 0 _ (State.conflict_keeps _ (State.put_keeps _ R.RFL_STAT_REJ 0 0 0 (State.put_keeps _ R.RFL_STAT_ROLE 2 0 0
        (State.snapStart_keeps _ h))))
      exact State.turnStart_keeps _ _ _ _ (good_rfl _ h1 h1.snap)

theorem State.shadowTick_keeps {q : List Instr} (t : Nat) (a : Nat) (stretched : Bool) (s : State) (h : Good q s) : Good q (State.shadowTick t a stretched s) := by
  unfold State.shadowTick
  extract_lets l r0 s1 swaps s2
  have h0 : ∀ x : ExcSt, Good q { s with exc := x } := fun x => good_mk h (Eq.refl _) (Eq.refl _) (Eq.refl _) (Eq.refl _) (Eq.refl _) (Eq.refl _)
  have h1 : Good q s1 := good_forAll (fun x t ht => State.umbraRelease_keeps _ _ ht) (h0 _)
  clear_value s1 swaps
  have h2 : Good q s2 := State.pubDrop_keeps _ (State.svTick_keeps _ (good_ite h1 (State.snapshot_keeps _ _ h1)))
  clear_value s2
  split
  · next r fin _ _ =>
    refine good_ite (State.missTick_keeps _ (State.bindTick_keeps _ _ h2)) (good_ite (State.stopFollowing_keeps _ _ h2) (good_ite (State.stopFollowing_keeps _ _ h2)
      (good_ite (State.stopFollowing_keeps _ _ h2) (good_ite ?_ ?_))))
    · have h3 := State.swapIn_keeps r fin s2 h2
      dsimp only
      generalize s2.swapIn r fin = u at h3
      exact good_ite (State.seqTick_keeps _ _ (State.seqStart_keeps _ (State.latchTick_keeps _ _ _ h3))) h3
    · have h3 := State.commitNamed_keeps fin.names s2 h2
      generalize s2.commitNamed fin.names = c at h3
      have h4 := State.outCommit_keeps c.2 c.1 h3
      exact State.bindTick_keeps _ _ (State.turnStart_keeps _ _ _ _ h4)
  · exact State.missTick_keeps _ (State.bindTick_keeps _ _ h2)

theorem State.roleTick_keeps {q : List Instr} (t a : Nat) (b : Bool) {s : State} (h : Good q s) : Good q (s.roleTick t a b) := by
  have ho := State.ownTick_keeps t a b s h
  exact good_ite (State.snapStart_keeps _ (State.latchTick_keeps _ _ _ (State.swapOutLead_keeps _ (State.dwLast_keeps _ (State.leadTick_keeps _ _ h)))))
    (good_ite (State.shadowTick_keeps _ _ _ _ h) (good_ite (State.rejoinTick_keeps _ _ ho) ho))

theorem State.waveTick_keeps {q : List Instr} {s : State} (h : Good q s) : Good q s.waveTick :=
  good_forAll (fun x t ht => State.waveTrigger_keeps _ _ ht) h

theorem State.fixNext_keeps {q : List Instr} (t : Nat) (st : Option (Int × Bool)) {s : State} (h : Good q s) : Good q (s.fixNext t st) := by
  have h5 : Good q ((s.put R.GDRV_PWM_CTL_RUN 1).put R.SYS_BOOTSTAT_STEP 10) := State.put_keeps _ _ _ _ _ (State.put_keeps _ _ _ _ _ h)
  unfold State.fixNext
  dsimp only
  split
  · exact State.farmStep_keeps _ _ _ h5
  · exact State.setNextTick_keeps _ _ h5

theorem State.owedTick_keeps {q : List Instr} {s : State} (h : Good q s) : Good q s.owedTick := by
  unfold State.owedTick
  extract_lets r1 s7 r2
  have h7 : Good q s7 := good_ite (State.raise_keeps _ _ _ (good_mk h (Eq.refl _) (Eq.refl _) (Eq.refl _) (Eq.refl _) (Eq.refl _) (Eq.refl _))) h
  clear_value s7
  refine good_ite (State.raise_keeps _ _ _ (good_time _ h7 ?_)) h7
  exact h7.farm

theorem opTick_keeps {q : List Instr} (s : State) (h : Good q s) : Good q (opTick s) := by
  unfold opTick
  split
  · exact h
  · refine good_ite h ?_
    extract_lets s1 step
    have h1 : Good q s1 := State.tickEvents_keeps _ (State.tickStart_keeps _ _ (State.pubLate_keeps _ (State.svCatchUp_keeps _ h)))
    clear_value s1
    exact State.dictSettle_keeps _ (State.keepLevel_keeps _ (State.owedTick_keeps (State.fixNext_keeps _ _ (State.waveTick_keeps
      (State.dictApplied_keeps _ (State.roleTick_keeps _ _ _ (State.lifeTick_keeps _ _ (State.dlnkTick_keeps _ h1))))))))

/-- Every service of the list keeps `Good`. -/
theorem portServices_keeps {q : List Instr} : ∀ op ∈ portServices, ∀ p s, Good q s → Good q (op p s) := by
  intro op hop p s h
  rcases List.mem_append.mp hop with hop | hop
  · rcases List.mem_append.mp hop with hop | hop <;>
      simp only [List.mem_cons, List.not_mem_nil, or_false] at hop
    · rcases hop with rfl | rfl | rfl | rfl | rfl | rfl | rfl | rfl | rfl | rfl | rfl | rfl | rfl | rfl | rfl | rfl | rfl | rfl | rfl | rfl
      · exact opOpenSession_keeps p s h
      · exact opCloseSession_keeps p s h
      · exact opKeepAlive_keeps p s h
      · exact opRekeySession_keeps p s h
      · exact opMapMessage_keeps p s h
      · exact opSubscribeCreate_keeps p s h
      · exact opSubscribeDelete_keeps p s h
      · exact opSubscribeNotifications_keeps p s h
      · exact opSubscribeList_keeps p s h
      · exact opNotifyAck_keeps p s h
      · exact opBulkWriteStart_keeps p s h
      · exact opBulkWriteSegment_keeps p s h
      · exact opBulkReadStart_keeps p s h
      · exact opBulkAck_keeps p s h
      · exact opBulkAbort_keeps p s h
      · exact opIsailRead_keeps p s h
      · exact opIsailWrite_keeps p s h
      · exact opStoreGroup_keeps p s h
      · exact opDefaultsGroup_keeps p s h
      · exact opReloadGroup_keeps p s h
    · rcases hop with rfl | rfl | rfl | rfl | rfl | rfl | rfl | rfl | rfl
      · exact opFwVerify_keeps p s h
      · exact opFwDryrun_keeps p s h
      · exact opFwSchedule_keeps p s h
      · exact opFwCancel_keeps p s h
      · exact opFwActivate_keeps p s h
      · exact opFwConfirm_keeps p s h
      · exact opFwRollback_keeps p s h
      · exact opFwClearResetList_keeps p s h
      · exact opUnknownService_keeps p s h
  · obtain ⟨i, -, rfl⟩ := List.mem_map.mp hop
    exact State.monTake_keeps p _ s h

theorem monServices_keeps {q : List Instr} : ∀ op ∈ monServices, ∀ s, Good q s → Good q (op s) := by
  intro op hop s h
  simp only [monServices, List.mem_cons, List.not_mem_nil, or_false] at hop
  rcases hop with rfl | rfl | rfl | rfl | rfl | rfl | rfl | rfl | rfl | rfl | rfl | rfl
  · exact opMonRead_keeps 6 s h
  · exact opMonWrite_keeps 6 s h
  · exact opMonitorHalt_keeps 6 s h
  · exact opMonitorResume_keeps 6 s h
  · exact opMonitorStep_keeps 6 s h
  · exact opMonStateRead_keeps 6 s h
  · exact opMonStateWrite_keeps 6 s h
  · exact opMonBreak_keeps 6 s h
  · exact opMonSession_keeps 6 s h
  · exact opMonitorReset_keeps 6 s h
  · exact opMonStartMode_keeps 6 s h
  · exact opMonitorStatus_keeps 6 s h

/-- A fold over services that each keep `Good`. -/
theorem good_services {q : List Instr} {l : List α} {f : State → α → State} {s : State} (hf : ∀ x ∈ l, ∀ t, Good q t → Good q (f t x)) (h : Good q s) :
    Good q (l.foldl f s) := by
  induction l generalizing s with
  | nil => exact h
  | cons x r ih => exact ih (fun y hy => hf y (List.mem_cons_of_mem _ hy)) (hf x List.mem_cons_self _ h)

theorem State.serveOne_keeps {q : List Instr} (p : Nat) (s : State) (h : Good q s) : Good q (State.serveOne p s) :=
  good_ite h (good_services (fun op hop _ ht => good_ite (portServices_keeps op hop _ _ ht) ht) h)

theorem State.servePorts_keeps {q : List Instr} (old : List (List (Nat × List Byte))) (k : Nat) (s : State) (h : Good q s) : Good q (State.servePorts old k s) := by
  induction k generalizing s with
  | zero => exact h
  | succ k ih => exact good_ite h (ih _ (good_forAll (fun p t ht => State.serveOne_keeps p t ht) h))

theorem State.serveMon_keeps {q : List Instr} (s : State) (h : Good q s) : Good q (State.serveMon s) :=
  good_ite h (good_services (fun op hop _ ht => good_ite (monServices_keeps op hop _ ht) ht) h)

theorem State.svServe_keeps {q : List Instr} (s : State) (h : Good q s) : Good q (State.svServe s) :=
  good_ite h (State.serveMon_keeps _ (State.servePorts_keeps _ _ _ h))

theorem State.svLatchEnd_keeps {q : List Instr} {s : State} (h : Good q s) : Good q s.svLatchEnd :=
  good_ite h (good_ite (good_mk h (Eq.refl _) (Eq.refl _) (Eq.refl _) (Eq.refl _) (Eq.refl _) (Eq.refl _))
    (State.svServe_keeps _ (State.dictLatchEnd_keeps _ h)))

theorem State.latchedIn_keeps {q : List Instr} {s : State} (h : Good q s) : Good q s.latchedIn := by
  unfold State.latchedIn
  extract_lets s1 s2
  have h1 : Good q s1 := good_ite (State.leadRecord_keeps _ h) h
  clear_value s1
  have h2 : Good q s2 := State.raise_keeps _ _ _ (State.imageSwap_keeps _ h1)
  clear_value s2
  exact good_rfl _ h2 h2.snap

theorem State.turnsBegin_keeps {q : List Instr} (s : State) (h : Good q s) : Good q (State.turnsBegin s) := by
  unfold State.turnsBegin
  repeat' first
    | with_reducible assumption
    | intro _
    | with_reducible apply good_ite
    | with_reducible apply State.turnBegin_keeps
    | with_reducible apply good_forAll
    | split

theorem opLatchEnd_keeps {q : List Instr} (s : State) (h : Good q s) : Good q (opLatchEnd s) :=
  good_ite h (State.svLatchEnd_keeps (State.pubPrep_keeps _ (State.stepFive_keeps _ (State.seqLatchEnd_keeps _ (State.turnsBegin_keeps _
    (State.latchedIn_keeps (State.advance_keeps _ _ h)))))))

end Sys2Proof.Machine
end

