-- ==== Sys2Proof/Laws/KeepsStartup.lean ====
section
/-! SUPPORT. Laws/KeepsStartup.lean: every operation of Machine/Startup.lean keeps `Good`. -/

namespace Sys2Proof.Machine

theorem State.bootcfgLoad_keeps {q : List Instr} (s : State) (h : Good q s) : Good q (State.bootcfgLoad s) := by
  unfold State.bootcfgLoad
  repeat' first
    | with_reducible assumption
    | intro _
    | with_reducible apply State.put_keeps

theorem State.svStart_keeps {q : List Instr} (b : Nat) (h_ : FwHeader) (s : State) (h : Good q s) : Good q (State.svStart b h_ s) := by
  unfold State.svStart
  repeat' first
    | with_reducible assumption
    | intro _
    | with_reducible apply State.put_keeps
    | with_reducible apply State.upE_keeps
    | with_reducible apply State.dictLoad_keeps
    | with_reducible apply State.bootcfgLoad_keeps
    | (extract_lets +onlyGivenNames x
       first
         | (refine good_cut (q := q) x ?cv ?ck
            case' ck => (intro hx; clear_value x)
            case' cv => (unfold x; clear x))
         | (refine good_cut_fst (q := q) x ?cv ?ck
            case' ck => (intro hx; clear_value x)
            case' cv => (unfold x; clear x))
         | (refine good_cut_snd (q := q) x ?cv ?ck
            case' ck => (intro hx; clear_value x)
            case' cv => (unfold x; clear x))
         | skip)
    | with_reducible apply good_mk
    | with_reducible rfl

theorem opSvFirmwareStart_keeps {q : List Instr} (s : State) (h : Good q s) : Good q (opSvFirmwareStart s) := by
  unfold opSvFirmwareStart
  repeat' first
    | with_reducible assumption
    | intro _
    | with_reducible apply good_ite
    | with_reducible apply State.put_keeps
    | with_reducible apply State.bootTry_keeps
    | with_reducible apply State.svStart_keeps
    | (extract_lets +onlyGivenNames x
       first
         | (refine good_cut (q := q) x ?cv ?ck
            case' ck => (intro hx; clear_value x)
            case' cv => (unfold x; clear x))
         | (refine good_cut_fst (q := q) x ?cv ?ck
            case' ck => (intro hx; clear_value x)
            case' cv => (unfold x; clear x))
         | (refine good_cut_snd (q := q) x ?cv ?ck
            case' ck => (intro hx; clear_value x)
            case' cv => (unfold x; clear x))
         | skip)
    | split

theorem State.programLoad_keeps {q : List Instr} (e : Nat) (s : State) (h : Good q s) : Good q (State.programLoad e s) := by
  unfold State.programLoad
  repeat' first
    | with_reducible assumption
    | intro _
    | with_reducible apply good_ite
    | with_reducible apply good_ite_fst
    | with_reducible apply good_ite_snd
    | with_reducible apply State.storeWords_keeps
    | with_reducible apply opPrgCheckComplete_keeps
    | with_reducible apply opPrgCheck_keeps
    | with_reducible apply State.put_keeps
    | with_reducible apply State.inactiveWritten_keeps
    | with_reducible apply opProgramSwitchComplete_keeps
    | with_reducible apply opPrgSwitchnow_keeps
    | (extract_lets +onlyGivenNames x
       first
         | (refine good_cut (q := q) x ?cv ?ck
            case' ck => (intro hx; clear_value x)
            case' cv => (unfold x; clear x))
         | (refine good_cut_fst (q := q) x ?cv ?ck
            case' ck => (intro hx; clear_value x)
            case' cv => (unfold x; clear x))
         | (refine good_cut_snd (q := q) x ?cv ?ck
            case' ck => (intro hx; clear_value x)
            case' cv => (unfold x; clear x))
         | skip)
    | split
    | with_reducible apply good_mk
    | with_reducible rfl

theorem State.fallbackTell_keeps {q : List Instr} (s : State) (h : Good q s) : Good q (State.fallbackTell s) := by
  unfold State.fallbackTell
  repeat' first
    | with_reducible assumption
    | intro _
    | with_reducible apply good_ite
    | with_reducible apply State.bootWrite_keeps
    | with_reducible apply State.warn_keeps
    | with_reducible apply State.raise_keeps

theorem opStartUpEnd_keeps {q : List Instr} (s : State) (h : Good q s) : Good q (opStartUpEnd s) := by
  unfold opStartUpEnd
  refine good_ite h ?_
  extract_lets s1 s2 r0 s3 s4 s5 s6 s7 s8 r1 s9 s10 r2 s11
  have h1 : Good q s1 := good_forAll (fun e t ht => State.programLoad_keeps _ _ ht) h
  clear_value s1
  have h2 : Good q s2 := State.put_keeps _ _ _ _ _ (State.retainRestore_keeps _ (State.bindLoad_keeps _ h1))
  clear_value s2
  have h3 : Good q s3 := good_mk h2 (Eq.refl _) (Eq.refl _) (Eq.refl _) (Eq.refl _) (Eq.refl _) (Eq.refl _)
  clear_value s3
  have h4 : Good q s4 := State.put_keeps _ _ _ _ _ (State.turnEn_keeps _ _ (State.loadFarm_keeps _ h3))
  clear_value s4
  have h5 : Good q s5 := State.logMsg_keeps _ _ _ _ (State.logMsg_keeps _ _ _ _ h4)
  clear_value s5
  have h6 : Good q s6 := State.ownStart_keeps _ (State.keepOwed_keeps _ h5)
  clear_value s6
  have h7 : Good q s7 := State.fallbackTell_keeps _ (good_ite (opBrickRead_keeps _ h6) h6)
  clear_value s7
  have h8 : Good q s8 := good_forAll (fun e t ht => State.haltNow_keeps _ _ _ _ _ ht) h7
  clear_value s8
  have h9 : Good q s9 := good_ite (State.deviceFault_keeps _ _ (good_mk h8 (Eq.refl _) (Eq.refl _) (Eq.refl _) (Eq.refl _) (Eq.refl _) (Eq.refl _))) h8
  clear_value s9
  have h10 : Good q s10 := good_ite (opModeRequest_keeps _ _ h9) h9
  clear_value s10
  have h11 : Good q s11 := good_ite (State.raise_keeps _ _ _ (good_mk h10 (Eq.refl _) (Eq.refl _) (Eq.refl _) (Eq.refl _) (Eq.refl _) (Eq.refl _))) h10
  exact State.dictSettle_keeps _ (State.keepSettle_keeps _ h11)

end Sys2Proof.Machine
end

