-- ==== Sys2Proof/Laws/StateUp.lean ====
section
/-! SUPPORT. Laws/StateUp.lean: the updates of a die, an output, a converter channel, a program bank, a port and a DMA channel: what each leaves
alone, true by `rfl`, and what the unit reads as after it. -/

namespace Sys2Proof.Machine

@[simp] theorem State.upDie_flds (s : State) (n : Nat) (f : DieSt → DieSt) : (s.upDie n f).flds = s.flds := Eq.refl _
@[simp] theorem State.upDie_mem (s : State) (n : Nat) (f : DieSt → DieSt) : (s.upDie n f).mem = s.mem := Eq.refl _
@[simp] theorem State.upDie_back (s : State) (n : Nat) (f : DieSt → DieSt) : (s.upDie n f).back = s.back := Eq.refl _
@[simp] theorem State.upDie_work (s : State) (n : Nat) (f : DieSt → DieSt) : (s.upDie n f).work = s.work := Eq.refl _
@[simp] theorem State.upDie_nor (s : State) (n : Nat) (f : DieSt → DieSt) : (s.upDie n f).nor = s.nor := Eq.refl _
@[simp] theorem State.upDie_arr (s : State) (n : Nat) (f : DieSt → DieSt) : (s.upDie n f).arr = s.arr := Eq.refl _
@[simp] theorem State.upDie_m (s : State) (n : Nat) (f : DieSt → DieSt) : (s.upDie n f).m = s.m := Eq.refl _
@[simp] theorem State.upDie_time (s : State) (n : Nat) (f : DieSt → DieSt) : (s.upDie n f).time = s.time := Eq.refl _
@[simp] theorem State.upDie_seq (s : State) (n : Nat) (f : DieSt → DieSt) : (s.upDie n f).seq = s.seq := Eq.refl _
@[simp] theorem State.upDie_evt (s : State) (n : Nat) (f : DieSt → DieSt) : (s.upDie n f).evt = s.evt := Eq.refl _
@[simp] theorem State.upDie_exc (s : State) (n : Nat) (f : DieSt → DieSt) : (s.upDie n f).exc = s.exc := Eq.refl _
@[simp] theorem State.upDie_engs (s : State) (n : Nat) (f : DieSt → DieSt) : (s.upDie n f).engs = s.engs := Eq.refl _
@[simp] theorem State.upDie_log (s : State) (n : Nat) (f : DieSt → DieSt) : (s.upDie n f).log = s.log := Eq.refl _
@[simp] theorem State.upDie_phase (s : State) (n : Nat) (f : DieSt → DieSt) : (s.upDie n f).phase = s.phase := Eq.refl _
@[simp] theorem State.upDie_rfl (s : State) (n : Nat) (f : DieSt → DieSt) : (s.upDie n f).rfl = s.rfl := Eq.refl _
@[simp] theorem State.upDie_pwm (s : State) (n : Nat) (f : DieSt → DieSt) : (s.upDie n f).pwm = s.pwm := Eq.refl _
@[simp] theorem State.upDie_dlnk (s : State) (n : Nat) (f : DieSt → DieSt) : (s.upDie n f).dlnk = s.dlnk := Eq.refl _
@[simp] theorem State.upDie_dio (s : State) (n : Nat) (f : DieSt → DieSt) : (s.upDie n f).dio = s.dio := Eq.refl _
@[simp] theorem State.upDie_ao (s : State) (n : Nat) (f : DieSt → DieSt) : (s.upDie n f).ao = s.ao := Eq.refl _
@[simp] theorem State.upDie_wave (s : State) (n : Nat) (f : DieSt → DieSt) : (s.upDie n f).wave = s.wave := Eq.refl _
@[simp] theorem State.upDie_prg (s : State) (n : Nat) (f : DieSt → DieSt) : (s.upDie n f).prg = s.prg := Eq.refl _
@[simp] theorem State.upDie_keep (s : State) (n : Nat) (f : DieSt → DieSt) : (s.upDie n f).keep = s.keep := Eq.refl _
@[simp] theorem State.upDie_brick (s : State) (n : Nat) (f : DieSt → DieSt) : (s.upDie n f).brick = s.brick := Eq.refl _
@[simp] theorem State.upDie_adc (s : State) (n : Nat) (f : DieSt → DieSt) : (s.upDie n f).adc = s.adc := Eq.refl _
@[simp] theorem State.upDie_pwr (s : State) (n : Nat) (f : DieSt → DieSt) : (s.upDie n f).pwr = s.pwr := Eq.refl _
@[simp] theorem State.upDie_upd (s : State) (n : Nat) (f : DieSt → DieSt) : (s.upDie n f).upd = s.upd := Eq.refl _
@[simp] theorem State.upDie_ports (s : State) (n : Nat) (f : DieSt → DieSt) : (s.upDie n f).ports = s.ports := Eq.refl _
@[simp] theorem State.upDie_sess (s : State) (n : Nat) (f : DieSt → DieSt) : (s.upDie n f).sess = s.sess := Eq.refl _
@[simp] theorem State.upDie_crypto (s : State) (n : Nat) (f : DieSt → DieSt) : (s.upDie n f).crypto = s.crypto := Eq.refl _
@[simp] theorem State.upDie_lan (s : State) (n : Nat) (f : DieSt → DieSt) : (s.upDie n f).lan = s.lan := Eq.refl _
@[simp] theorem State.upDie_dict (s : State) (n : Nat) (f : DieSt → DieSt) : (s.upDie n f).dict = s.dict := Eq.refl _
@[simp] theorem State.upDie_freeCtr (s : State) (n : Nat) (f : DieSt → DieSt) : (s.upDie n f).freeCtr = s.freeCtr := Eq.refl _
@[simp] theorem State.upDie_pending (s : State) (n : Nat) (f : DieSt → DieSt) : (s.upDie n f).pending = s.pending := Eq.refl _
@[simp] theorem State.upDie_get (s : State) (n : Nat) (f : DieSt → DieSt) (g : Fam) (y z : Nat) : (s.upDie n f).get g y z = s.get g y z := Eq.refl _
@[simp] theorem State.die_upDie_same (s : State) (n : Nat) (f : DieSt → DieSt) : (s.upDie n f).die n = f (s.die n) := by
  simp [State.die, State.upDie, Store.getD, Store.find_put_same]
theorem State.die_upDie_ne (s : State) {n n' : Nat} (h : n ≠ n') (f : DieSt → DieSt) : (s.upDie n f).die n' = s.die n' := by
  simp [State.die, State.upDie, Store.getD, Store.find_put_ne h]

@[simp] theorem State.upAo_flds (s : State) (n : Nat) (f : AoSt → AoSt) : (s.upAo n f).flds = s.flds := Eq.refl _
@[simp] theorem State.upAo_mem (s : State) (n : Nat) (f : AoSt → AoSt) : (s.upAo n f).mem = s.mem := Eq.refl _
@[simp] theorem State.upAo_back (s : State) (n : Nat) (f : AoSt → AoSt) : (s.upAo n f).back = s.back := Eq.refl _
@[simp] theorem State.upAo_work (s : State) (n : Nat) (f : AoSt → AoSt) : (s.upAo n f).work = s.work := Eq.refl _
@[simp] theorem State.upAo_nor (s : State) (n : Nat) (f : AoSt → AoSt) : (s.upAo n f).nor = s.nor := Eq.refl _
@[simp] theorem State.upAo_arr (s : State) (n : Nat) (f : AoSt → AoSt) : (s.upAo n f).arr = s.arr := Eq.refl _
@[simp] theorem State.upAo_m (s : State) (n : Nat) (f : AoSt → AoSt) : (s.upAo n f).m = s.m := Eq.refl _
@[simp] theorem State.upAo_time (s : State) (n : Nat) (f : AoSt → AoSt) : (s.upAo n f).time = s.time := Eq.refl _
@[simp] theorem State.upAo_seq (s : State) (n : Nat) (f : AoSt → AoSt) : (s.upAo n f).seq = s.seq := Eq.refl _
@[simp] theorem State.upAo_evt (s : State) (n : Nat) (f : AoSt → AoSt) : (s.upAo n f).evt = s.evt := Eq.refl _
@[simp] theorem State.upAo_exc (s : State) (n : Nat) (f : AoSt → AoSt) : (s.upAo n f).exc = s.exc := Eq.refl _
@[simp] theorem State.upAo_engs (s : State) (n : Nat) (f : AoSt → AoSt) : (s.upAo n f).engs = s.engs := Eq.refl _
@[simp] theorem State.upAo_log (s : State) (n : Nat) (f : AoSt → AoSt) : (s.upAo n f).log = s.log := Eq.refl _
@[simp] theorem State.upAo_phase (s : State) (n : Nat) (f : AoSt → AoSt) : (s.upAo n f).phase = s.phase := Eq.refl _
@[simp] theorem State.upAo_rfl (s : State) (n : Nat) (f : AoSt → AoSt) : (s.upAo n f).rfl = s.rfl := Eq.refl _
@[simp] theorem State.upAo_dies (s : State) (n : Nat) (f : AoSt → AoSt) : (s.upAo n f).dies = s.dies := Eq.refl _
@[simp] theorem State.upAo_pwm (s : State) (n : Nat) (f : AoSt → AoSt) : (s.upAo n f).pwm = s.pwm := Eq.refl _
@[simp] theorem State.upAo_dlnk (s : State) (n : Nat) (f : AoSt → AoSt) : (s.upAo n f).dlnk = s.dlnk := Eq.refl _
@[simp] theorem State.upAo_dio (s : State) (n : Nat) (f : AoSt → AoSt) : (s.upAo n f).dio = s.dio := Eq.refl _
@[simp] theorem State.upAo_wave (s : State) (n : Nat) (f : AoSt → AoSt) : (s.upAo n f).wave = s.wave := Eq.refl _
@[simp] theorem State.upAo_prg (s : State) (n : Nat) (f : AoSt → AoSt) : (s.upAo n f).prg = s.prg := Eq.refl _
@[simp] theorem State.upAo_keep (s : State) (n : Nat) (f : AoSt → AoSt) : (s.upAo n f).keep = s.keep := Eq.refl _
@[simp] theorem State.upAo_brick (s : State) (n : Nat) (f : AoSt → AoSt) : (s.upAo n f).brick = s.brick := Eq.refl _
@[simp] theorem State.upAo_adc (s : State) (n : Nat) (f : AoSt → AoSt) : (s.upAo n f).adc = s.adc := Eq.refl _
@[simp] theorem State.upAo_pwr (s : State) (n : Nat) (f : AoSt → AoSt) : (s.upAo n f).pwr = s.pwr := Eq.refl _
@[simp] theorem State.upAo_upd (s : State) (n : Nat) (f : AoSt → AoSt) : (s.upAo n f).upd = s.upd := Eq.refl _
@[simp] theorem State.upAo_ports (s : State) (n : Nat) (f : AoSt → AoSt) : (s.upAo n f).ports = s.ports := Eq.refl _
@[simp] theorem State.upAo_sess (s : State) (n : Nat) (f : AoSt → AoSt) : (s.upAo n f).sess = s.sess := Eq.refl _
@[simp] theorem State.upAo_crypto (s : State) (n : Nat) (f : AoSt → AoSt) : (s.upAo n f).crypto = s.crypto := Eq.refl _
@[simp] theorem State.upAo_lan (s : State) (n : Nat) (f : AoSt → AoSt) : (s.upAo n f).lan = s.lan := Eq.refl _
@[simp] theorem State.upAo_dict (s : State) (n : Nat) (f : AoSt → AoSt) : (s.upAo n f).dict = s.dict := Eq.refl _
@[simp] theorem State.upAo_freeCtr (s : State) (n : Nat) (f : AoSt → AoSt) : (s.upAo n f).freeCtr = s.freeCtr := Eq.refl _
@[simp] theorem State.upAo_pending (s : State) (n : Nat) (f : AoSt → AoSt) : (s.upAo n f).pending = s.pending := Eq.refl _
@[simp] theorem State.upAo_get (s : State) (n : Nat) (f : AoSt → AoSt) (g : Fam) (y z : Nat) : (s.upAo n f).get g y z = s.get g y z := Eq.refl _
@[simp] theorem State.aoSt_upAo_same (s : State) (n : Nat) (f : AoSt → AoSt) : (s.upAo n f).aoSt n = f (s.aoSt n) := by
  simp [State.aoSt, State.upAo, Store.getD, Store.find_put_same]
theorem State.aoSt_upAo_ne (s : State) {n n' : Nat} (h : n ≠ n') (f : AoSt → AoSt) : (s.upAo n f).aoSt n' = s.aoSt n' := by
  simp [State.aoSt, State.upAo, Store.getD, Store.find_put_ne h]

@[simp] theorem State.upAdc_flds (s : State) (n : Nat) (f : AdcSt → AdcSt) : (s.upAdc n f).flds = s.flds := Eq.refl _
@[simp] theorem State.upAdc_mem (s : State) (n : Nat) (f : AdcSt → AdcSt) : (s.upAdc n f).mem = s.mem := Eq.refl _
@[simp] theorem State.upAdc_back (s : State) (n : Nat) (f : AdcSt → AdcSt) : (s.upAdc n f).back = s.back := Eq.refl _
@[simp] theorem State.upAdc_work (s : State) (n : Nat) (f : AdcSt → AdcSt) : (s.upAdc n f).work = s.work := Eq.refl _
@[simp] theorem State.upAdc_nor (s : State) (n : Nat) (f : AdcSt → AdcSt) : (s.upAdc n f).nor = s.nor := Eq.refl _
@[simp] theorem State.upAdc_arr (s : State) (n : Nat) (f : AdcSt → AdcSt) : (s.upAdc n f).arr = s.arr := Eq.refl _
@[simp] theorem State.upAdc_m (s : State) (n : Nat) (f : AdcSt → AdcSt) : (s.upAdc n f).m = s.m := Eq.refl _
@[simp] theorem State.upAdc_time (s : State) (n : Nat) (f : AdcSt → AdcSt) : (s.upAdc n f).time = s.time := Eq.refl _
@[simp] theorem State.upAdc_seq (s : State) (n : Nat) (f : AdcSt → AdcSt) : (s.upAdc n f).seq = s.seq := Eq.refl _
@[simp] theorem State.upAdc_evt (s : State) (n : Nat) (f : AdcSt → AdcSt) : (s.upAdc n f).evt = s.evt := Eq.refl _
@[simp] theorem State.upAdc_exc (s : State) (n : Nat) (f : AdcSt → AdcSt) : (s.upAdc n f).exc = s.exc := Eq.refl _
@[simp] theorem State.upAdc_engs (s : State) (n : Nat) (f : AdcSt → AdcSt) : (s.upAdc n f).engs = s.engs := Eq.refl _
@[simp] theorem State.upAdc_log (s : State) (n : Nat) (f : AdcSt → AdcSt) : (s.upAdc n f).log = s.log := Eq.refl _
@[simp] theorem State.upAdc_phase (s : State) (n : Nat) (f : AdcSt → AdcSt) : (s.upAdc n f).phase = s.phase := Eq.refl _
@[simp] theorem State.upAdc_rfl (s : State) (n : Nat) (f : AdcSt → AdcSt) : (s.upAdc n f).rfl = s.rfl := Eq.refl _
@[simp] theorem State.upAdc_dies (s : State) (n : Nat) (f : AdcSt → AdcSt) : (s.upAdc n f).dies = s.dies := Eq.refl _
@[simp] theorem State.upAdc_pwm (s : State) (n : Nat) (f : AdcSt → AdcSt) : (s.upAdc n f).pwm = s.pwm := Eq.refl _
@[simp] theorem State.upAdc_dlnk (s : State) (n : Nat) (f : AdcSt → AdcSt) : (s.upAdc n f).dlnk = s.dlnk := Eq.refl _
@[simp] theorem State.upAdc_dio (s : State) (n : Nat) (f : AdcSt → AdcSt) : (s.upAdc n f).dio = s.dio := Eq.refl _
@[simp] theorem State.upAdc_ao (s : State) (n : Nat) (f : AdcSt → AdcSt) : (s.upAdc n f).ao = s.ao := Eq.refl _
@[simp] theorem State.upAdc_wave (s : State) (n : Nat) (f : AdcSt → AdcSt) : (s.upAdc n f).wave = s.wave := Eq.refl _
@[simp] theorem State.upAdc_prg (s : State) (n : Nat) (f : AdcSt → AdcSt) : (s.upAdc n f).prg = s.prg := Eq.refl _
@[simp] theorem State.upAdc_keep (s : State) (n : Nat) (f : AdcSt → AdcSt) : (s.upAdc n f).keep = s.keep := Eq.refl _
@[simp] theorem State.upAdc_brick (s : State) (n : Nat) (f : AdcSt → AdcSt) : (s.upAdc n f).brick = s.brick := Eq.refl _
@[simp] theorem State.upAdc_pwr (s : State) (n : Nat) (f : AdcSt → AdcSt) : (s.upAdc n f).pwr = s.pwr := Eq.refl _
@[simp] theorem State.upAdc_upd (s : State) (n : Nat) (f : AdcSt → AdcSt) : (s.upAdc n f).upd = s.upd := Eq.refl _
@[simp] theorem State.upAdc_ports (s : State) (n : Nat) (f : AdcSt → AdcSt) : (s.upAdc n f).ports = s.ports := Eq.refl _
@[simp] theorem State.upAdc_sess (s : State) (n : Nat) (f : AdcSt → AdcSt) : (s.upAdc n f).sess = s.sess := Eq.refl _
@[simp] theorem State.upAdc_crypto (s : State) (n : Nat) (f : AdcSt → AdcSt) : (s.upAdc n f).crypto = s.crypto := Eq.refl _
@[simp] theorem State.upAdc_lan (s : State) (n : Nat) (f : AdcSt → AdcSt) : (s.upAdc n f).lan = s.lan := Eq.refl _
@[simp] theorem State.upAdc_dict (s : State) (n : Nat) (f : AdcSt → AdcSt) : (s.upAdc n f).dict = s.dict := Eq.refl _
@[simp] theorem State.upAdc_freeCtr (s : State) (n : Nat) (f : AdcSt → AdcSt) : (s.upAdc n f).freeCtr = s.freeCtr := Eq.refl _
@[simp] theorem State.upAdc_pending (s : State) (n : Nat) (f : AdcSt → AdcSt) : (s.upAdc n f).pending = s.pending := Eq.refl _
@[simp] theorem State.upAdc_get (s : State) (n : Nat) (f : AdcSt → AdcSt) (g : Fam) (y z : Nat) : (s.upAdc n f).get g y z = s.get g y z := Eq.refl _
@[simp] theorem State.adcCh_upAdc_same (s : State) (n : Nat) (f : AdcSt → AdcSt) : (s.upAdc n f).adcCh n = f (s.adcCh n) := by
  simp [State.adcCh, State.upAdc, Store.getD, Store.find_put_same]
theorem State.adcCh_upAdc_ne (s : State) {n n' : Nat} (h : n ≠ n') (f : AdcSt → AdcSt) : (s.upAdc n f).adcCh n' = s.adcCh n' := by
  simp [State.adcCh, State.upAdc, Store.getD, Store.find_put_ne h]

@[simp] theorem State.upPrg_flds (s : State) (e : Nat) (f : PrgSt → PrgSt) : (s.upPrg e f).flds = s.flds := Eq.refl _
@[simp] theorem State.upPrg_mem (s : State) (e : Nat) (f : PrgSt → PrgSt) : (s.upPrg e f).mem = s.mem := Eq.refl _
@[simp] theorem State.upPrg_back (s : State) (e : Nat) (f : PrgSt → PrgSt) : (s.upPrg e f).back = s.back := Eq.refl _
@[simp] theorem State.upPrg_work (s : State) (e : Nat) (f : PrgSt → PrgSt) : (s.upPrg e f).work = s.work := Eq.refl _
@[simp] theorem State.upPrg_nor (s : State) (e : Nat) (f : PrgSt → PrgSt) : (s.upPrg e f).nor = s.nor := Eq.refl _
@[simp] theorem State.upPrg_arr (s : State) (e : Nat) (f : PrgSt → PrgSt) : (s.upPrg e f).arr = s.arr := Eq.refl _
@[simp] theorem State.upPrg_m (s : State) (e : Nat) (f : PrgSt → PrgSt) : (s.upPrg e f).m = s.m := Eq.refl _
@[simp] theorem State.upPrg_time (s : State) (e : Nat) (f : PrgSt → PrgSt) : (s.upPrg e f).time = s.time := Eq.refl _
@[simp] theorem State.upPrg_seq (s : State) (e : Nat) (f : PrgSt → PrgSt) : (s.upPrg e f).seq = s.seq := Eq.refl _
@[simp] theorem State.upPrg_evt (s : State) (e : Nat) (f : PrgSt → PrgSt) : (s.upPrg e f).evt = s.evt := Eq.refl _
@[simp] theorem State.upPrg_exc (s : State) (e : Nat) (f : PrgSt → PrgSt) : (s.upPrg e f).exc = s.exc := Eq.refl _
@[simp] theorem State.upPrg_engs (s : State) (e : Nat) (f : PrgSt → PrgSt) : (s.upPrg e f).engs = s.engs := Eq.refl _
@[simp] theorem State.upPrg_log (s : State) (e : Nat) (f : PrgSt → PrgSt) : (s.upPrg e f).log = s.log := Eq.refl _
@[simp] theorem State.upPrg_phase (s : State) (e : Nat) (f : PrgSt → PrgSt) : (s.upPrg e f).phase = s.phase := Eq.refl _
@[simp] theorem State.upPrg_rfl (s : State) (e : Nat) (f : PrgSt → PrgSt) : (s.upPrg e f).rfl = s.rfl := Eq.refl _
@[simp] theorem State.upPrg_dies (s : State) (e : Nat) (f : PrgSt → PrgSt) : (s.upPrg e f).dies = s.dies := Eq.refl _
@[simp] theorem State.upPrg_pwm (s : State) (e : Nat) (f : PrgSt → PrgSt) : (s.upPrg e f).pwm = s.pwm := Eq.refl _
@[simp] theorem State.upPrg_dlnk (s : State) (e : Nat) (f : PrgSt → PrgSt) : (s.upPrg e f).dlnk = s.dlnk := Eq.refl _
@[simp] theorem State.upPrg_dio (s : State) (e : Nat) (f : PrgSt → PrgSt) : (s.upPrg e f).dio = s.dio := Eq.refl _
@[simp] theorem State.upPrg_ao (s : State) (e : Nat) (f : PrgSt → PrgSt) : (s.upPrg e f).ao = s.ao := Eq.refl _
@[simp] theorem State.upPrg_wave (s : State) (e : Nat) (f : PrgSt → PrgSt) : (s.upPrg e f).wave = s.wave := Eq.refl _
@[simp] theorem State.upPrg_keep (s : State) (e : Nat) (f : PrgSt → PrgSt) : (s.upPrg e f).keep = s.keep := Eq.refl _
@[simp] theorem State.upPrg_brick (s : State) (e : Nat) (f : PrgSt → PrgSt) : (s.upPrg e f).brick = s.brick := Eq.refl _
@[simp] theorem State.upPrg_adc (s : State) (e : Nat) (f : PrgSt → PrgSt) : (s.upPrg e f).adc = s.adc := Eq.refl _
@[simp] theorem State.upPrg_pwr (s : State) (e : Nat) (f : PrgSt → PrgSt) : (s.upPrg e f).pwr = s.pwr := Eq.refl _
@[simp] theorem State.upPrg_upd (s : State) (e : Nat) (f : PrgSt → PrgSt) : (s.upPrg e f).upd = s.upd := Eq.refl _
@[simp] theorem State.upPrg_ports (s : State) (e : Nat) (f : PrgSt → PrgSt) : (s.upPrg e f).ports = s.ports := Eq.refl _
@[simp] theorem State.upPrg_sess (s : State) (e : Nat) (f : PrgSt → PrgSt) : (s.upPrg e f).sess = s.sess := Eq.refl _
@[simp] theorem State.upPrg_crypto (s : State) (e : Nat) (f : PrgSt → PrgSt) : (s.upPrg e f).crypto = s.crypto := Eq.refl _
@[simp] theorem State.upPrg_lan (s : State) (e : Nat) (f : PrgSt → PrgSt) : (s.upPrg e f).lan = s.lan := Eq.refl _
@[simp] theorem State.upPrg_dict (s : State) (e : Nat) (f : PrgSt → PrgSt) : (s.upPrg e f).dict = s.dict := Eq.refl _
@[simp] theorem State.upPrg_freeCtr (s : State) (e : Nat) (f : PrgSt → PrgSt) : (s.upPrg e f).freeCtr = s.freeCtr := Eq.refl _
@[simp] theorem State.upPrg_pending (s : State) (e : Nat) (f : PrgSt → PrgSt) : (s.upPrg e f).pending = s.pending := Eq.refl _
@[simp] theorem State.upPrg_get (s : State) (e : Nat) (f : PrgSt → PrgSt) (g : Fam) (y z : Nat) : (s.upPrg e f).get g y z = s.get g y z := Eq.refl _
@[simp] theorem State.prgSt_upPrg_same (s : State) (e : Nat) (f : PrgSt → PrgSt) : (s.upPrg e f).prgSt e = f (s.prgSt e) := by
  simp [State.prgSt, State.upPrg, Store.getD, Store.find_put_same]
theorem State.prgSt_upPrg_ne (s : State) {e e' : Nat} (h : e ≠ e') (f : PrgSt → PrgSt) : (s.upPrg e f).prgSt e' = s.prgSt e' := by
  simp [State.prgSt, State.upPrg, Store.getD, Store.find_put_ne h]

@[simp] theorem State.upPort_flds (s : State) (p : Nat) (f : PortSt → PortSt) : (s.upPort p f).flds = s.flds := Eq.refl _
@[simp] theorem State.upPort_mem (s : State) (p : Nat) (f : PortSt → PortSt) : (s.upPort p f).mem = s.mem := Eq.refl _
@[simp] theorem State.upPort_back (s : State) (p : Nat) (f : PortSt → PortSt) : (s.upPort p f).back = s.back := Eq.refl _
@[simp] theorem State.upPort_work (s : State) (p : Nat) (f : PortSt → PortSt) : (s.upPort p f).work = s.work := Eq.refl _
@[simp] theorem State.upPort_nor (s : State) (p : Nat) (f : PortSt → PortSt) : (s.upPort p f).nor = s.nor := Eq.refl _
@[simp] theorem State.upPort_arr (s : State) (p : Nat) (f : PortSt → PortSt) : (s.upPort p f).arr = s.arr := Eq.refl _
@[simp] theorem State.upPort_m (s : State) (p : Nat) (f : PortSt → PortSt) : (s.upPort p f).m = s.m := Eq.refl _
@[simp] theorem State.upPort_time (s : State) (p : Nat) (f : PortSt → PortSt) : (s.upPort p f).time = s.time := Eq.refl _
@[simp] theorem State.upPort_seq (s : State) (p : Nat) (f : PortSt → PortSt) : (s.upPort p f).seq = s.seq := Eq.refl _
@[simp] theorem State.upPort_evt (s : State) (p : Nat) (f : PortSt → PortSt) : (s.upPort p f).evt = s.evt := Eq.refl _
@[simp] theorem State.upPort_exc (s : State) (p : Nat) (f : PortSt → PortSt) : (s.upPort p f).exc = s.exc := Eq.refl _
@[simp] theorem State.upPort_engs (s : State) (p : Nat) (f : PortSt → PortSt) : (s.upPort p f).engs = s.engs := Eq.refl _
@[simp] theorem State.upPort_log (s : State) (p : Nat) (f : PortSt → PortSt) : (s.upPort p f).log = s.log := Eq.refl _
@[simp] theorem State.upPort_phase (s : State) (p : Nat) (f : PortSt → PortSt) : (s.upPort p f).phase = s.phase := Eq.refl _
@[simp] theorem State.upPort_rfl (s : State) (p : Nat) (f : PortSt → PortSt) : (s.upPort p f).rfl = s.rfl := Eq.refl _
@[simp] theorem State.upPort_dies (s : State) (p : Nat) (f : PortSt → PortSt) : (s.upPort p f).dies = s.dies := Eq.refl _
@[simp] theorem State.upPort_pwm (s : State) (p : Nat) (f : PortSt → PortSt) : (s.upPort p f).pwm = s.pwm := Eq.refl _
@[simp] theorem State.upPort_dlnk (s : State) (p : Nat) (f : PortSt → PortSt) : (s.upPort p f).dlnk = s.dlnk := Eq.refl _
@[simp] theorem State.upPort_dio (s : State) (p : Nat) (f : PortSt → PortSt) : (s.upPort p f).dio = s.dio := Eq.refl _
@[simp] theorem State.upPort_ao (s : State) (p : Nat) (f : PortSt → PortSt) : (s.upPort p f).ao = s.ao := Eq.refl _
@[simp] theorem State.upPort_wave (s : State) (p : Nat) (f : PortSt → PortSt) : (s.upPort p f).wave = s.wave := Eq.refl _
@[simp] theorem State.upPort_prg (s : State) (p : Nat) (f : PortSt → PortSt) : (s.upPort p f).prg = s.prg := Eq.refl _
@[simp] theorem State.upPort_keep (s : State) (p : Nat) (f : PortSt → PortSt) : (s.upPort p f).keep = s.keep := Eq.refl _
@[simp] theorem State.upPort_brick (s : State) (p : Nat) (f : PortSt → PortSt) : (s.upPort p f).brick = s.brick := Eq.refl _
@[simp] theorem State.upPort_adc (s : State) (p : Nat) (f : PortSt → PortSt) : (s.upPort p f).adc = s.adc := Eq.refl _
@[simp] theorem State.upPort_pwr (s : State) (p : Nat) (f : PortSt → PortSt) : (s.upPort p f).pwr = s.pwr := Eq.refl _
@[simp] theorem State.upPort_upd (s : State) (p : Nat) (f : PortSt → PortSt) : (s.upPort p f).upd = s.upd := Eq.refl _
@[simp] theorem State.upPort_sess (s : State) (p : Nat) (f : PortSt → PortSt) : (s.upPort p f).sess = s.sess := Eq.refl _
@[simp] theorem State.upPort_crypto (s : State) (p : Nat) (f : PortSt → PortSt) : (s.upPort p f).crypto = s.crypto := Eq.refl _
@[simp] theorem State.upPort_lan (s : State) (p : Nat) (f : PortSt → PortSt) : (s.upPort p f).lan = s.lan := Eq.refl _
@[simp] theorem State.upPort_dict (s : State) (p : Nat) (f : PortSt → PortSt) : (s.upPort p f).dict = s.dict := Eq.refl _
@[simp] theorem State.upPort_freeCtr (s : State) (p : Nat) (f : PortSt → PortSt) : (s.upPort p f).freeCtr = s.freeCtr := Eq.refl _
@[simp] theorem State.upPort_pending (s : State) (p : Nat) (f : PortSt → PortSt) : (s.upPort p f).pending = s.pending := Eq.refl _
@[simp] theorem State.upPort_get (s : State) (p : Nat) (f : PortSt → PortSt) (g : Fam) (y z : Nat) : (s.upPort p f).get g y z = s.get g y z := Eq.refl _
@[simp] theorem State.port_upPort_same (s : State) (p : Nat) (f : PortSt → PortSt) : (s.upPort p f).port p = f (s.port p) := by
  simp [State.port, State.upPort, Store.getD, Store.find_put_same]
theorem State.port_upPort_ne (s : State) {p p' : Nat} (h : p ≠ p') (f : PortSt → PortSt) : (s.upPort p f).port p' = s.port p' := by
  simp [State.port, State.upPort, Store.getD, Store.find_put_ne h]

@[simp] theorem State.upDma_flds (s : State) (a : Nat) (f : DmaSt → DmaSt) : (s.upDma a f).flds = s.flds := Eq.refl _
@[simp] theorem State.upDma_mem (s : State) (a : Nat) (f : DmaSt → DmaSt) : (s.upDma a f).mem = s.mem := Eq.refl _
@[simp] theorem State.upDma_back (s : State) (a : Nat) (f : DmaSt → DmaSt) : (s.upDma a f).back = s.back := Eq.refl _
@[simp] theorem State.upDma_work (s : State) (a : Nat) (f : DmaSt → DmaSt) : (s.upDma a f).work = s.work := Eq.refl _
@[simp] theorem State.upDma_nor (s : State) (a : Nat) (f : DmaSt → DmaSt) : (s.upDma a f).nor = s.nor := Eq.refl _
@[simp] theorem State.upDma_arr (s : State) (a : Nat) (f : DmaSt → DmaSt) : (s.upDma a f).arr = s.arr := Eq.refl _
@[simp] theorem State.upDma_time (s : State) (a : Nat) (f : DmaSt → DmaSt) : (s.upDma a f).time = s.time := Eq.refl _
@[simp] theorem State.upDma_seq (s : State) (a : Nat) (f : DmaSt → DmaSt) : (s.upDma a f).seq = s.seq := Eq.refl _
@[simp] theorem State.upDma_evt (s : State) (a : Nat) (f : DmaSt → DmaSt) : (s.upDma a f).evt = s.evt := Eq.refl _
@[simp] theorem State.upDma_exc (s : State) (a : Nat) (f : DmaSt → DmaSt) : (s.upDma a f).exc = s.exc := Eq.refl _
@[simp] theorem State.upDma_engs (s : State) (a : Nat) (f : DmaSt → DmaSt) : (s.upDma a f).engs = s.engs := Eq.refl _
@[simp] theorem State.upDma_log (s : State) (a : Nat) (f : DmaSt → DmaSt) : (s.upDma a f).log = s.log := Eq.refl _
@[simp] theorem State.upDma_phase (s : State) (a : Nat) (f : DmaSt → DmaSt) : (s.upDma a f).phase = s.phase := Eq.refl _
@[simp] theorem State.upDma_rfl (s : State) (a : Nat) (f : DmaSt → DmaSt) : (s.upDma a f).rfl = s.rfl := Eq.refl _
@[simp] theorem State.upDma_dies (s : State) (a : Nat) (f : DmaSt → DmaSt) : (s.upDma a f).dies = s.dies := Eq.refl _
@[simp] theorem State.upDma_pwm (s : State) (a : Nat) (f : DmaSt → DmaSt) : (s.upDma a f).pwm = s.pwm := Eq.refl _
@[simp] theorem State.upDma_dlnk (s : State) (a : Nat) (f : DmaSt → DmaSt) : (s.upDma a f).dlnk = s.dlnk := Eq.refl _
@[simp] theorem State.upDma_dio (s : State) (a : Nat) (f : DmaSt → DmaSt) : (s.upDma a f).dio = s.dio := Eq.refl _
@[simp] theorem State.upDma_ao (s : State) (a : Nat) (f : DmaSt → DmaSt) : (s.upDma a f).ao = s.ao := Eq.refl _
@[simp] theorem State.upDma_wave (s : State) (a : Nat) (f : DmaSt → DmaSt) : (s.upDma a f).wave = s.wave := Eq.refl _
@[simp] theorem State.upDma_prg (s : State) (a : Nat) (f : DmaSt → DmaSt) : (s.upDma a f).prg = s.prg := Eq.refl _
@[simp] theorem State.upDma_keep (s : State) (a : Nat) (f : DmaSt → DmaSt) : (s.upDma a f).keep = s.keep := Eq.refl _
@[simp] theorem State.upDma_brick (s : State) (a : Nat) (f : DmaSt → DmaSt) : (s.upDma a f).brick = s.brick := Eq.refl _
@[simp] theorem State.upDma_adc (s : State) (a : Nat) (f : DmaSt → DmaSt) : (s.upDma a f).adc = s.adc := Eq.refl _
@[simp] theorem State.upDma_pwr (s : State) (a : Nat) (f : DmaSt → DmaSt) : (s.upDma a f).pwr = s.pwr := Eq.refl _
@[simp] theorem State.upDma_upd (s : State) (a : Nat) (f : DmaSt → DmaSt) : (s.upDma a f).upd = s.upd := Eq.refl _
@[simp] theorem State.upDma_ports (s : State) (a : Nat) (f : DmaSt → DmaSt) : (s.upDma a f).ports = s.ports := Eq.refl _
@[simp] theorem State.upDma_sess (s : State) (a : Nat) (f : DmaSt → DmaSt) : (s.upDma a f).sess = s.sess := Eq.refl _
@[simp] theorem State.upDma_crypto (s : State) (a : Nat) (f : DmaSt → DmaSt) : (s.upDma a f).crypto = s.crypto := Eq.refl _
@[simp] theorem State.upDma_lan (s : State) (a : Nat) (f : DmaSt → DmaSt) : (s.upDma a f).lan = s.lan := Eq.refl _
@[simp] theorem State.upDma_dict (s : State) (a : Nat) (f : DmaSt → DmaSt) : (s.upDma a f).dict = s.dict := Eq.refl _
@[simp] theorem State.upDma_freeCtr (s : State) (a : Nat) (f : DmaSt → DmaSt) : (s.upDma a f).freeCtr = s.freeCtr := Eq.refl _
@[simp] theorem State.upDma_pending (s : State) (a : Nat) (f : DmaSt → DmaSt) : (s.upDma a f).pending = s.pending := Eq.refl _
@[simp] theorem State.upDma_get (s : State) (a : Nat) (f : DmaSt → DmaSt) (g : Fam) (y z : Nat) : (s.upDma a f).get g y z = s.get g y z := Eq.refl _
@[simp] theorem State.dma_upDma_same (s : State) (a : Nat) (f : DmaSt → DmaSt) : (s.upDma a f).dma a = f (s.dma a) := by
  simp [State.dma, State.upDma, Store.getD, Store.find_put_same]
theorem State.dma_upDma_ne (s : State) {a a' : Nat} (h : a ≠ a') (f : DmaSt → DmaSt) : (s.upDma a f).dma a' = s.dma a' := by
  simp [State.dma, State.upDma, Store.getD, Store.find_put_ne h]

end Sys2Proof.Machine
end

