-- ==== Sys2Proof/Tests/Slice0.lean ====
section
/-! SUPPORT. Tests/Slice0.lean: the model's own tests: a term that each well-formedness check refuses, a state that meets the premises of each
statement (`wit_…`), and a few values of the spec. -/

namespace Sys2Proof.Machine

set_option Elab.async false

/-! ## States for the tests: reset, with a few fields changed -/

/-- The unit is up, in Run. -/
def tUp : State := { State.reset.put R.SYS_MODE_MODE 0 with phase := .up }

/-- An instance in a state. -/
def tInst (st : InstSt) : Inst :=
  { st := st, order := 1, budget := 1000, charged := 10, ticks := 0, relTurn := 7, relTick := 100, relClk := 200, late := false,
    warned := false, doneAt := 0, nest := [], floor := none }

/-- An instance of task 3 runs on engine `e`, with a few operands set. -/
def tRun (e : Nat) : State :=
  (((tUp.put R.TSK_CFG_ENG e 3).put R.TSK_CFG_PRIO 5 3).setTask 3 { TaskSt.reset with enabled := true, inst := some (tInst .running) }).upE e
    fun x => { x with live := true, stop := .none, pc := 100, priv := 2, task := some 3, ports := [(0x0C0, 7#32), (0x0E0, 7#32), (0x0F0, 7#32), (0x100, 7#32)] }

/-- The same, with a pair on the branch stack. -/
def tBr (e : Nat) : State := (tRun e).upE e fun x => { x with branch := [(true, 1)] }

/-- Region 0 lets every requester read and write the whole address space, and a few operands are set. -/
def tMem : State :=
  let s := ((tRun 0).setMem 0x02000004 [0x81#8, 0x92#8, 0xA3#8, 0xF4#8]).upE 0 fun x => x.setPort 0x181 0xCAFE8001#32
  let c : Store Nat := [R.CHK_RG_CFG_EN, R.CHK_RG_CFG_SIZE, R.CHK_RG_ACC0_LE0, R.CHK_RG_ACC1_SV].foldl
    (fun t f => Store.put (f.key 0 0) (if f = R.CHK_RG_CFG_EN then 1 else if f = R.CHK_RG_CFG_SIZE then 32 else 0x3F) t) []
  { s with m := { s.m with chk := c } }

/-- CSP stands in the engine's own part of memory, with room for a frame. -/
def tCsp : State := tMem.upE 0 fun x => { x with csp := 0xE0000400#32, cspLo := 0xE0000100#32, cspHi := 0xE0000800#32 }
/-- A handler runs above its frame. -/
def tFrame : State := (tCsp.setMem 0xE0000400 (leBytes 4 123 ++ leBytes 4 (4 + 8 + 16 + 32 * 77))).upE 0 fun x => { x with priv := 1 }
/-- Macro 5 has three micro-moves. -/
def tMac : State := (tRun 0).setMem ((tRun 0).decActive 0 + 0x100 + 20) (leBytes 4 3)
def tMacRun : MacroRun := { entry := 5, k := 0, n := 3, temps := List.replicate 8 0#32, trig := 100, q0 := 0#32, until_ := 0, after := 0, arg := 0 }
/-- It runs, with a first micro-move. -/
def tMac2 (w : Nat) : State := (tMac.setMem (tMac.decActive 0 + 0x200 + 128 * 5) (leBytes 4 w)).upE 0 fun x => { x with mac := some tMacRun }
/-- A dirty line of SV's data cache. -/
def tLine : State :=
  let s := (tRun 4).put R.RFL_STAT_ROLE 0
  { s with m := { s.m with dcache := [(0x02100020 / 32, ⟨List.replicate 32 7#8, true⟩)] } }

/-- PPS steers the farm time; the last edge was accepted at 1 µs. -/
def tPps : State :=
  let s := ((tUp.put R.TIME_CTL_DISC 1).put R.TIME_CTL_EDGE 0)
  { s with time := { s.time with lastEdge := some (1000, 0), stepped := 0, farm := 1000 } }
/-- A far load and a far store. -/
def rLoad : FarReq := { store := false, addr := 0x1000C004, size := 4, signed := false, data := 0#32, priv := 2, task := none, waits := false }
def rStore : FarReq := { rLoad with store := true, addr := 0x00000004, data := 9#32 }
def fLoad : Flight := { Flight.plain .far 64 [] with far := some rLoad }
def fStore : Flight := { Flight.plain .far 64 [] with far := some rStore }
/-- An engine has one far access in flight. -/
def tFar (f : Flight) : State := (tRun 0).upE 0 fun x => { x with flights := [f] }
/-- Hold, with the first tick due. -/
def tTick : State := { tUp.put R.SYS_MODE_MODE 1 with time := { tUp.time with nextTick := some 1000000 } }
/-- Within a latch. -/
def tLatch : State := { tTick with seq := { tTick.seq with inLatch := true, latchAt := 1002000 } }
/-- Engine 0 is idle; an instance of task 3 is ready. -/
def tReady : State := ((tRun 0).upE 0 fun x => { x with live := false, task := none }).upI 3 fun _ => tInst .ready
/-- Task 3 runs; a ready instance of task 4 has a higher priority. -/
def tTwo : State := (tRun 0).setTask 4 { TaskSt.reset with enabled := true, inst := some (tInst .ready) }
/-- Agent 1 is busy with a descriptor. -/
def tDma (d : Nat × Nat × Nat × Nat) : State := (tUp.put R.DMA_STAT_BUSY 1 1).upDma 1 fun x => { x with desc := some d }
/-- The same, every access permitted. -/
def tDmaAll : State :=
  let c : Store Nat := [R.CHK_RG_CFG_EN, R.CHK_RG_CFG_SIZE, R.CHK_RG_ACC0_LE0, R.CHK_RG_ACC1_SV, R.CHK_RG_ACC1_DMA].foldl
    (fun t f => Store.put (f.key 0 0) (if f = R.CHK_RG_CFG_EN then 1 else if f = R.CHK_RG_CFG_SIZE then 32 else 0x3F) t) []
  let s := (tDma (0x02000004, 0x02000100, 1 + 2 ^ 26, 0)).setMem 0x02000004 [0x81#8]
  { s with m := { s.m with chk := c } }
/-- An empty decode table, well made, in the staging half of engine 2, under check. -/
def tTable : State :=
  let h := 0x05014000
  { tUp.put R.LE_DEC_STAT_BUSY 1 2 with
    mem := [(h + 4, 1#8), (h + 8, BitVec.ofNat 8 3032437921), (h + 9, BitVec.ofNat 8 (3032437921 / 256)), (h + 10, BitVec.ofNat 8 (3032437921 / 65536)),
            (h + 11, BitVec.ofNat 8 (3032437921 / 16777216))] ++ (List.range 2048).map fun k => (h + 0x203 + 4 * k, 0xC0#8) }
/-- A program image of one bundle with an empty record in the inactive bank of engine 2, under check. -/
def tImage : State :=
  let b := 0x01280000
  ((tUp.put R.LE_PRG_STAT_BUSY 1 2).put R.LE_PRG_REC_OFS 8 2).setMem (b + 8)
    (leBytes 4 1 ++ leBytes 4 77 ++ leBytes 4 0 ++ leBytes 4 1 ++ leBytes 4 1696784233 ++ leBytes 16 0 ++ leBytes 4 0x40 ++ leBytes 8 0 ++ leBytes 4 76706002)
/-- A following Shadow that assembles a record. -/
def tShadow (r : RecvRec) : State :=
  let s := ((tUp.put R.RFL_STAT_ROLE 2).put R.RFL_STAT_LINK 1).put R.RFL_CFG_MODE 1
  { s with rfl := { s.rfl with cur := some r, release := true } }
/-- A Shadow that does not follow, and has sent HELLO. -/
def tHello : State := (((tUp.put R.RFL_STAT_LINK 1).put R.RFL_CFG_MODE 1).put R.RFL_STAT_ROLE 3).put R.RFL_STAT_REJ 1
/-- A message in session 9, its trailer made with a key of 32 bytes or of zeros. -/
def mMsg (good : Bool) (svc flags : Nat) (body : List Byte) : Msg :=
  let c := msgHeader svc flags 9 5 body.length ++ body
  { udp := 7, svc := svc, flags := flags, sid := 9, seq := 5, body := body, covered := c,
    trail := if good then trailer (List.replicate 32 5#8) c else List.replicate 16 0#8 }
def sess9 : Sess :=
  { id := 9, role := 3, port := 1, epoch := false, rx := 4, tx := 2, old := none, rekey := none, last := 0, rekeyAt := 0, maps := [], evs := 0,
    trigs := 0, notes := [], bulk := none, mon := false }
/-- Session 3 is open on port 1, whose first waiting message is `m`. -/
def tMsg (m : Msg) : State :=
  let s := (((tUp.put R.FP_CFG_EN 1 1).put R.FP_STAT_LINK 1 1).put R.FP_STAT_ARPOK 1 1).upPort 1 fun q => { q with rx := [(7, m.covered ++ m.trail)] }
  { s.setKey 7 (List.replicate 32 5#8) with sess := [(3, sess9)] }
def note1 : NoteSt := { kind := 0, src := 100, count := 1, pay := 3, first := 4, last := 5, sent := none, tries := 0 }
/-- An OPEN of role 2, whose key is stored, on port 1. -/
def mOpen : Msg :=
  let c := msgHeader 0x10 0 0 5 20 ++ [2#8] ++ List.replicate 19 1#8
  { mMsg false 0x10 0 ([2#8] ++ List.replicate 19 1#8) with sid := 0, covered := c }
def tOpen : State :=
  let d := recBytes 0x210012 0 true true (List.replicate 32 6#8)
  { (tMsg mOpen).setKey 2 (List.replicate 32 6#8) with arr := d.zipIdx.map fun p => (0x3C000 + p.2, p.1) }
/-- Policy trigger 5 has occurred; its action is device Umbra. -/
def tTrig : State :=
  { tUp with dict := { tUp.dict with edge := 32, vals := Store.put 0x710001 (List.replicate 5 0#8 ++ [4#8] ++ List.replicate 10 0#8) tUp.dict.vals } }
def bulk1 : BulkSt := { write := true, pnum := 0x410010, elem := 0, total := 65536, crc := 0, acked := 0, sent := 0, data := [], at_ := 5 }
def tx1 : TxMsg := { svc := 5, udp := 7, bytes := [1#8], token := false, busy := true, cut := false }
/-- An ARP request for the address 5 on port 1, whose own address it is. -/
def fArp : List Byte :=
  let b := List.replicate 6 0xFF#8 ++ List.replicate 6 2#8 ++ [8#8, 6#8] ++ arpBytes 1 (List.replicate 6 2#8) 6 (List.replicate 6 0#8) 5 ++ List.replicate 18 0#8
  b ++ leBytes 4 (crc32 b)
def tEth : State := (tUp.put R.FP_CFG_EN 1 1).put R.FP_OWN_ID 5 1
/-- Die 1 has its supplies and its channel. -/
def tDie : State := { ((tUp.put R.GD_STAT_VDDGOK 1 1).put R.GD_STAT_VEEGOK 1 1).put R.GD_STAT_CHOK 1 1 with pwr := { tUp.pwr with upAt := 0 } }
def roll1 : RollSt := { comp := 0x12, step := 1, start := 0, status := 0, desat := false, cmp := none, oc := none }
/-- The thermal-limit condition caps the chopper, which conducts since 0. -/
def tCap : State :=
  let s := (tUp.put R.GDRV_PWM_CTL_RUN 1).put R.DLNK_STAT_THL 1
  { s with dlnk := { s.dlnk with onSince := some 0 } }
/-- The idle condition of Rolls holds. -/
def tRoll : State := tUp
/-- Channel `k` of the waveform engine may be armed. -/
def tWave (k : Nat) : State := ((tUp.put R.WAVE_CH_LEN_L 2 k).put R.WAVE_CH_DIV_D 200 k).put R.AOUT_CH_CFG_SRC 3 k
/-- K0 is raw; a request waits at the head of the Keep queue. -/
def tKeep : State := { tUp.put R.KEEP_STAT_RECALL 0 with keep := { tUp.keep with raw := 1 } }
def tHead (q : KeepReq) : State := { tUp.put R.KEEP_STAT_RECALL 0 with keep := { tUp.keep with queue := [q] } }
/-- Ring 1 is defined: rows from 32, 4 slots, default 9. -/
def tRing : State :=
  let h := leBytes 2 32 ++ leBytes 2 4 ++ leBytes 4 0 ++ leBytes 8 9 ++ List.replicate 12 0#8
  (tUp.put R.KEEP_STAT_RECALL 0).setArr 0x20020 (h ++ leBytes 4 (crc32 h))
/-- Its first slot holds 5; a write waits. -/
def tRingW : State :=
  let d := leBytes 8 5 ++ leBytes 4 1
  { tRing.setArr (0x20000 + 32 * 32) (d ++ leBytes 4 (crc32 d)) with keep := { tUp.keep with queue := [.ringWrite 1 11] } }
/-- Group 0 of counter 3 has base 7, and an INC waits. -/
def tCount : State :=
  let h := leBytes 4 7 ++ leBytes 4 0
  ((tHead (.scInc 3)).setArr 0x30300 (h ++ leBytes 4 (crc32 h))).setArr 0x30320 [0xFE#8]
/-- Step 4 of start-up, without an image. -/
def tBoot : State := { State.reset with phase := .starting }.put R.SYS_BOOTSTAT_STEP 4
/-- A wire session, authenticated or not. -/
def tLan : State := { tUp.put R.KEEP_STAT_RECALL 0 with lan := { tUp.lan with wire := 2 } }
def tLan1 : State := { tLan with lan := { tLan.lan with wire := 1 } }
/-- A monitor request waits. -/
def tMon (q : MonReq) : State := { tUp with lan := { tUp.lan with queue := [q] } }
/-- A good flash of 16 MiB. -/
def tFlash : State := (tUp.put R.UPD_FINFO_OK 1).put R.UPD_FINFO_MIB 16
def tFlashOp (o : Nat × Nat × Nat) : State := { tFlash.put R.UPD_STAT_BUSY 1 with upd := { tFlash.upd with op := some o } }
/-- On trial long enough. -/
def tTrial : State := { tUp.put R.UPD_BOOT_TRIAL 1 with time := { tUp.time with real := 601000000000 } }
/-- A header in bank 1, and a handover to it that is due to complete. -/
def hdr0 : FwHeader := { key := 0, version := 0, compat := 0, len := 256, boot := 0, hand := 0, fmt := 0, fmtMin := 0, groups := List.replicate 129 0 }
def tHand : State :=
  let s := tUp.setNor 0x580000 ([0x59#8, 0x52#8, 0x46#8, 0x57#8, 1#8] ++ List.replicate 11 0#8 ++ [0#8, 1#8] ++ List.replicate 238 0#8)
  { s with upd := { s.upd with hand := true } }
/-- A record of key 5 in K5, and a FIND for it. -/
def tRec5 : State :=
  let s := tUp.setArr 0x3C000 (recBytes 5 0 true true [9#8])
  { s with keep := { s.keep with find := some (true, 5) } }
/-- A pair is its first part and a second part that is known. -/
theorem pair_eq {α β : Type} {x : α × β} {r : β} (h : x.2 = r) : x = (x.1, r) := by rw [← h]

/-! ## Well-formedness -/

theorem test_wf_ppsEdge : Instr.wf (.ppsEdge (2 ^ 64) false) = false := by decide
theorem test_wf_glintCaptureComplete : Instr.wf (.glintCaptureComplete 21) = false := by decide
theorem test_wf_dlnkComparatorChange : Instr.wf (.dlnkComparatorChange 0 0 4096001) = false := by decide
theorem test_wf_hiLatchingRead : Instr.wf (.hiLatchingRead 0x10005008) = false := by decide
theorem test_wf_eventOccurrence : Instr.wf (.eventOccurrence 3 true 65536) = false := by decide
theorem test_wf_evtInject : Instr.wf (.evtInject 512 0) = false := by decide
theorem test_wf_eccWriteBack : Instr.wf (.eccWriteBack 2) = false := by decide
theorem test_wf_scrubStep : Instr.wf (.scrubStep 256) = false := by decide
theorem test_wf_eccInject : Instr.wf (.eccInject 0 4) = false := by decide
theorem test_wf_nakOrderedSet : Instr.wf (.nakOrderedSet 0 65536) = false := by decide
theorem test_wf_headFrame : Instr.wf (.headFrame 65536 0 []) = false := by decide
theorem test_wf_imageFrame : Instr.wf (.imageFrame 65536 0 []) = false := by decide
theorem test_wf_relFrame : Instr.wf (.relFrame 65536 0 []) = false := by decide
theorem test_wf_farFrame : Instr.wf (.farFrame 65536 0 []) = false := by decide
theorem test_wf_ctrlFrame : Instr.wf (.ctrlFrame 65536 0 []) = false := by decide
theorem test_wf_endFrame : Instr.wf (.endFrame 65536 0 []) = false := by decide
theorem test_wf_pageFrame : Instr.wf (.pageFrame 0 0 [] [0]) = false := by decide
theorem test_wf_stateFrame : Instr.wf (.stateFrame 65536 0 []) = false := by decide
theorem test_wf_digestFrame : Instr.wf (.digestFrame (2 ^ 32) 0) = false := by decide
theorem test_wf_statusFrame : Instr.wf (.statusFrame 1 0 []) = false := by decide
theorem test_wf_helloFrame : Instr.wf (.helloFrame []) = false := by decide
theorem test_wf_logFrame : Instr.wf (.logFrame 0 65536 0 0) = false := by decide
theorem test_wf_brickFrame : Instr.wf (.brickFrame []) = false := by decide
theorem test_wf_canFrameReceived : Instr.wf (.canFrameReceived 2 (2 ^ 29) true true []) = false := by decide
theorem test_wf_canReassemblyTimeout : Instr.wf (.canReassemblyTimeout 2 32) = false := by decide
theorem test_wf_notifySend : Instr.wf (.notifySend 0 1 16) = false := by decide
theorem test_wf_notifyRepeat : Instr.wf (.notifyRepeat 0 0 288) = false := by decide
theorem test_wf_cryptoSubmit : Instr.wf (.cryptoSubmit (2 ^ 32)) = false := by decide
theorem test_wf_cryptoKeyclr : Instr.wf (.cryptoKeyclr (2 ^ 24)) = false := by decide
theorem test_wf_plateauExit : Instr.wf (.plateauExit 0 (2 ^ 64)) = false := by decide
theorem test_wf_legReferenceChange : Instr.wf (.legReferenceChange 0 (2 ^ 64)) = false := by decide
theorem test_wf_brickReadComplete : Instr.wf (.brickReadComplete 0 (List.replicate 1025 0#8)) = false := by decide +kernel
theorem test_wf_writeBackComplete : Instr.wf (.writeBackComplete 0 (List.replicate 21 0#8) 0) = false := by decide
theorem test_wf_adcWindowEnd : Instr.wf (.adcWindowEnd 0 (2 ^ 64) 0 false) = false := by decide
theorem test_wf_ocLatchClear : Instr.wf (.ocLatchClear 8) = false := by decide
theorem test_wf_diDebouncedChange : Instr.wf (.diDebouncedChange 0 (2 ^ 64) 0#32) = false := by decide
theorem test_wf_dioClr : Instr.wf (.dioClr 65536) = false := by decide
theorem test_wf_dioAutoclr : Instr.wf (.dioAutoclr 65536) = false := by decide
theorem test_wf_walkGo : Instr.wf (.walkGo 65536) = false := by decide
theorem test_wf_walkStepEnd : Instr.wf (.walkStepEnd 65536) = false := by decide
theorem test_wf_keepWindowWrite : Instr.wf (.keepWindowWrite 0x20000000 []) = false := by decide
theorem test_wf_keepRequestServed : Instr.wf (.keepRequestServed 256) = false := by decide
theorem test_wf_ringWrite : Instr.wf (.ringWrite 0 (2 ^ 64)) = false := by decide
theorem test_wf_ringDefine : Instr.wf (.ringDefine 0 65536 0 0) = false := by decide
theorem test_wf_recStore : Instr.wf (.recStore true 0#32 (List.replicate 2049 0#8)) = false := by decide +kernel
theorem test_wf_keepUnlock : Instr.wf (.keepUnlock 0 true (2 ^ 64)) = false := by decide
theorem test_wf_logAppend : Instr.wf (.logAppend 65536 0 0 false) = false := by decide
theorem test_wf_logClrbad : Instr.wf (.logClrbad [256]) = false := by decide
theorem test_wf_supplyWindowChange : Instr.wf (.supplyWindowChange 0 true 65536) = false := by decide
theorem test_wf_powerOnResetRelease : Instr.wf (.powerOnResetRelease true 65536) = false := by decide
theorem test_wf_temperatureSample : Instr.wf (.temperatureSample 4096) = false := by decide
theorem test_wf_rstEng : Instr.wf (.rstEng 16) = false := by decide
theorem test_wf_modeRequest : Instr.wf (.modeRequest 4) = false := by decide
theorem test_wf_lanternOpen : Instr.wf (.lanternOpen []) = false := by decide
theorem test_wf_lanternClose : Instr.wf (.lanternClose []) = false := by decide
theorem test_wf_lanternPing : Instr.wf (.lanternPing []) = false := by decide
theorem test_wf_lanternRead : Instr.wf (.lanternRead []) = false := by decide
theorem test_wf_lanternWrite : Instr.wf (.lanternWrite []) = false := by decide
theorem test_wf_lanternMonitor : Instr.wf (.lanternMonitor []) = false := by decide
theorem test_wf_lanternMonpoll : Instr.wf (.lanternMonpoll []) = false := by decide
theorem test_wf_lanternReset : Instr.wf (.lanternReset []) = false := by decide
theorem test_wf_updSectorErase : Instr.wf (.updSectorErase (2 ^ 32)) = false := by decide
theorem test_wf_updBlockErase : Instr.wf (.updBlockErase (2 ^ 32)) = false := by decide
theorem test_wf_updProgram : Instr.wf (.updProgram 0 []) = false := by decide
theorem test_wf_updCrc : Instr.wf (.updCrc 0 (2 ^ 32)) = false := by decide
theorem test_wf_registerWrite : Instr.wf (.registerWrite 0 2 0#32) = false := by decide

/-! ## The premises of the statements are met -/

theorem wit_AluResults :
    (∃ (e : Fin 5) (v : Word) (s : State), s.plain e = true) ∧
    (∃ (e : Fin 5) (v : Word) (s : State), s.plain e = true) ∧
    (∃ (e : Fin 5) (v : Word) (s : State), s.plain e = true) :=
  ⟨⟨0, 5#32, tRun 0, by decide +kernel⟩,
   ⟨0, 5#32, tRun 0, by decide +kernel⟩,
   ⟨0, 5#32, tRun 0, by decide +kernel⟩⟩

theorem wit_MultiplyResults : ∃ (e : Fin 5) (v : Word) (s : State), s.plain e = true :=
  ⟨0, 5#32, tRun 0, by decide +kernel⟩

theorem wit_DivideResults : ∃ (e : Fin 5) (v : Word) (s : State), s.plain e = true :=
  ⟨0, 5#32, tRun 0, by decide +kernel⟩

theorem wit_FloatResults : ∃ (e : Fin 5) (v : Word) (s : State), s.plain e = true :=
  ⟨0, 5#32, tRun 0, by decide +kernel⟩

theorem wit_BitUnit :
    (∃ (e : Fin 4) (v : Word) (o : Nat) (s : State), s.plain e = true ∧ imgOfs v.toNat = some o ∧ (s.retireBoth e).eccClear ((s.retireBoth e).imgCopy e o) (0x03000000 + o) 1 = true) ∧
    (∃ (e : Fin 4) (v : Word) (o : Nat) (s : State), s.plain e = true ∧ imgOfs v.toNat = some o ∧ (s.retireBoth e).eccClear ((s.retireBoth e).imgCopy e o) (0x03000000 + o) 1 = true ∧ (s.retireBoth e).imgMayWrite e v.toNat o 1 = true) ∧
    (∃ (e : Fin 5) (v : Word) (s : State), s.plain e = true) ∧
    (∃ (e : Fin 5) (v : Word) (s : State), s.plain e = true) ∧
    (∃ (e : Fin 5) (v : Word) (a : Bool) (c : Nat) (l : List (Bool × Nat)) (s : State), s.plain e = true ∧ ((s.retireBoth e).eng e).branch = (a, c) :: l) ∧
    (∃ (e : Fin 5) (v : Word) (s : State), s.plain e = true ∧ ((s.retireBoth e).eng e).branch = []) :=
  ⟨⟨0, 0x10008#32, 0x801, tRun 0, by decide +kernel⟩,
   ⟨0, 0x20008#32, 0x1001, tRun 0, by decide +kernel⟩,
   ⟨0, 5#32, tRun 0, by decide +kernel⟩,
   ⟨0, 5#32, tRun 0, by decide +kernel⟩,
   ⟨0, 0#32, true, 1, [], tBr 0, by decide +kernel⟩,
   ⟨0, 5#32, tRun 0, by decide +kernel⟩⟩

theorem wit_TimersAndBranches :
    (∃ (e : Fin 4) (v : Word) (s : State), s.plain e = true ∧ ((s.retireBoth e).eng e).port 0x140 < 0xC0000000#32) ∧
    (∃ (e : Fin 4) (v : Word) (s : State), s.plain e = true) ∧
    (∃ (e : Fin 4) (v : Word) (s : State), s.plain e = true ∧ 0xC0000000#32 ≤ ((s.retireBoth e).eng e).port 0x140) ∧
    (∃ (e : Fin 5) (v : Word) (s : State), s.plain e = true) :=
  ⟨⟨0, 0x101#32, tRun 0, by decide +kernel⟩,
   ⟨0, 0x101#32, tRun 0, by decide +kernel⟩,
   ⟨0, 0x101#32, (tRun 0).upE 0 fun x => x.setPort 0x140 0xC0000001#32, by decide +kernel⟩,
   ⟨0, 5#32, tRun 0, by decide +kernel⟩⟩

theorem wit_NearAccesses :
    (∃ (e : Fin 4) (v : Word) (s : State), s.plain e = true ∧ (s.retireBoth e).nearOk e 0 ((v.toNat + (((s.retireBoth e).eng e).port 0x180).toNat) % 2 ^ 32) 4 = true) ∧
    (∃ (e : Fin 4) (v : Word) (s : State), s.plain e = true ∧ (s.retireBoth e).nearOk e 0 ((v.toNat + (((s.retireBoth e).eng e).port 0x180).toNat) % 2 ^ 32) 2 = true) ∧
    (∃ (e : Fin 4) (v : Word) (s : State), s.plain e = true ∧ (s.retireBoth e).nearOk e 0 ((v.toNat + (((s.retireBoth e).eng e).port 0x180).toNat) % 2 ^ 32) 2 = true) ∧
    (∃ (e : Fin 4) (v : Word) (s : State), s.plain e = true ∧ (s.retireBoth e).nearOk e 0 ((v.toNat + (((s.retireBoth e).eng e).port 0x180).toNat) % 2 ^ 32) 1 = true) ∧
    (∃ (e : Fin 4) (v : Word) (s : State), s.plain e = true ∧ (s.retireBoth e).nearOk e 0 ((v.toNat + (((s.retireBoth e).eng e).port 0x180).toNat) % 2 ^ 32) 1 = true) ∧
    (∃ (e : Fin 4) (v : Word) (s : State), s.plain e = true ∧ (s.retireBoth e).nearOk e 1 ((v.toNat + (((s.retireBoth e).eng e).port 0x180).toNat) % 2 ^ 32) 4 = true ∧ ((s.retireBoth e).mem) = s.mem) ∧
    (∃ (e : Fin 4) (v : Word) (s : State), s.plain e = true ∧ (s.retireBoth e).nearOk e 1 ((v.toNat + (((s.retireBoth e).eng e).port 0x180).toNat) % 2 ^ 32) 2 = true ∧ ((s.retireBoth e).mem) = s.mem) ∧
    (∃ (e : Fin 4) (v : Word) (s : State), s.plain e = true ∧ (s.retireBoth e).nearOk e 1 ((v.toNat + (((s.retireBoth e).eng e).port 0x180).toNat) % 2 ^ 32) 1 = true ∧ ((s.retireBoth e).mem) = s.mem) :=
  ⟨⟨0, 0x02000004#32, tMem, by decide +kernel⟩,
   ⟨0, 0x02000004#32, tMem, by decide +kernel⟩,
   ⟨0, 0x02000004#32, tMem, by decide +kernel⟩,
   ⟨0, 0x02000004#32, tMem, by decide +kernel⟩,
   ⟨0, 0x02000004#32, tMem, by decide +kernel⟩,
   ⟨0, 0x02000004#32, tMem, by decide +kernel⟩,
   ⟨0, 0x02000004#32, tMem, by decide +kernel⟩,
   ⟨0, 0x02000004#32, tMem, by decide +kernel⟩⟩

theorem wit_ImageAccesses :
    (∃ (e : Fin 4) (v : Word) (o : Nat) (s : State), s.plain e = true ∧ v.toNat % 8 = 0 ∧ imgOfs v.toNat = some o ∧ o % 4 = 0 ∧ (s.retireBoth e).imgClear o 4 = true ∧ (s.retireBoth e).unwatched e = true) ∧
    (∃ (e : Fin 4) (v : Word) (o : Nat) (s : State), s.plain e = true ∧ v.toNat % 8 = 0 ∧ imgOfs v.toNat = some o ∧ o % 2 = 0 ∧ (s.retireBoth e).imgClear o 2 = true ∧ (s.retireBoth e).unwatched e = true) ∧
    (∃ (e : Fin 4) (v : Word) (o : Nat) (s : State), s.plain e = true ∧ v.toNat % 8 = 0 ∧ imgOfs v.toNat = some o ∧ o % 2 = 0 ∧ (s.retireBoth e).imgClear o 2 = true ∧ (s.retireBoth e).unwatched e = true) ∧
    (∃ (e : Fin 4) (v : Word) (o : Nat) (s : State), s.plain e = true ∧ v.toNat % 8 = 0 ∧ imgOfs v.toNat = some o ∧ o % 1 = 0 ∧ (s.retireBoth e).imgClear o 1 = true ∧ (s.retireBoth e).unwatched e = true) ∧
    (∃ (e : Fin 4) (v : Word) (o : Nat) (s : State), s.plain e = true ∧ v.toNat % 8 = 0 ∧ imgOfs v.toNat = some o ∧ o % 4 = 0 ∧ (s.retireBoth e).imgMayWrite e v.toNat o 4 = true ∧ (s.retireBoth e).eccClear ((s.retireBoth e).imgCopy e o) (0x03000000 + o) 4 = true ∧ (s.retireBoth e).m.inject.isNone = true ∧ (s.retireBoth e).unwatched e = true) ∧
    (∃ (e : Fin 4) (v : Word) (o : Nat) (s : State), s.plain e = true ∧ v.toNat % 8 = 0 ∧ imgOfs v.toNat = some o ∧ o % 2 = 0 ∧ (s.retireBoth e).imgMayWrite e v.toNat o 2 = true ∧ (s.retireBoth e).eccClear ((s.retireBoth e).imgCopy e o) (0x03000000 + o) 2 = true ∧ (s.retireBoth e).m.inject.isNone = true ∧ (s.retireBoth e).unwatched e = true) ∧
    (∃ (e : Fin 4) (v : Word) (o : Nat) (s : State), s.plain e = true ∧ v.toNat % 8 = 0 ∧ imgOfs v.toNat = some o ∧ o % 1 = 0 ∧ (s.retireBoth e).imgMayWrite e v.toNat o 1 = true ∧ (s.retireBoth e).eccClear ((s.retireBoth e).imgCopy e o) (0x03000000 + o) 1 = true ∧ (s.retireBoth e).m.inject.isNone = true ∧ (s.retireBoth e).unwatched e = true) ∧
    (∃ (e : Fin 4) (v : Word) (o : Nat) (s : State), s.plain e = true ∧ v.toNat % 8 = 0 ∧ imgOfs v.toNat = some o ∧ o % 4 = 0 ∧ (s.retireBoth e).imgMayWrite e v.toNat o 1 = false) :=
  ⟨⟨0, 0x40020#32, 0x5004, tRun 0, by decide +kernel⟩,
   ⟨0, 0x40020#32, 0x5004, tRun 0, by decide +kernel⟩,
   ⟨0, 0x40020#32, 0x5004, tRun 0, by decide +kernel⟩,
   ⟨0, 0x20008#32, 0x1001, tRun 0, by decide +kernel⟩,
   ⟨0, 0x20020#32, 0x1004, tRun 0, by decide +kernel⟩,
   ⟨0, 0x20020#32, 0x1004, tRun 0, by decide +kernel⟩,
   ⟨0, 0x20020#32, 0x1004, tRun 0, by decide +kernel⟩,
   ⟨0, 0x40020#32, 0x5004, tRun 0, by decide +kernel⟩⟩

theorem wit_SystemUnit :
    (∃ (e : Fin 5) (v : Word) (s : State), s.plain e = true ∧ (e.val < 4 ∨ (s.retireBoth e).m.wbuf = [])) ∧
    (∃ (e : Fin 5) (v : Word) (s : State), s.plain e = true) ∧
    (∃ (e : Fin 5) (v : Word) (s : State), s.plain e = true ∧ ((s.retireBoth e).eng e).priv < 2 ∧ v.toNat % 64 = 0) ∧
    (∃ (e : Fin 5) (v : Word) (s : State), s.plain e = true ∧ ((s.retireBoth e).eng e).priv < 2 ∧ v.toNat % 64 ≠ 0) ∧
    (∃ (v : Word) (s : State), s.plain 4 = true) ∧
    (∃ (v : Word) (s : State), s.plain 4 = true ∧ ((Store.find (v.toNat / 32) (s.retireBoth 4).m.dcache).map fun c => c.dirty).getD false = false) ∧
    (∃ (v : Word) (c : CacheLine) (s : State), s.plain 4 = true ∧ Store.find (v.toNat / 32) (s.retireBoth 4).m.dcache = some c ∧ c.dirty = true ∧ c.data.length = 32 ∧ ((s.retireBoth 4).judge 4 0 1 (32 * (v.toNat / 32))).ok = true ∧ inRange (32 * (v.toNat / 32)) 0x02100000 0x100000 = true ∧ (s.retireBoth 4).get R.RFL_STAT_ROLE = 0 ∧ (s.retireBoth 4).eccClear 0 (32 * (v.toNat / 32)) 32 = true ∧ (s.retireBoth 4).m.inject = none ∧ (s.retireBoth 4).m.init = false) :=
  ⟨⟨0, 5#32, tRun 0, by decide +kernel⟩,
   ⟨0, 5#32, tRun 0, by decide +kernel⟩,
   ⟨1, 0xE0004000#32, (tRun 1).upE 1 fun x => { x with priv := 1 }, by decide +kernel⟩,
   ⟨1, 0xE0004001#32, (tRun 1).upE 1 fun x => { x with priv := 1 }, by decide +kernel⟩,
   ⟨0x02100020#32, tRun 4, by decide +kernel⟩,
   ⟨0x02100020#32, tRun 4, by decide +kernel⟩,
   ⟨0x02100020#32, ⟨List.replicate 32 7#8, true⟩, tLine, by decide +kernel⟩⟩

theorem wit_CallsAndReturns :
    (∃ (e : Fin 4) (v : Word) (n : Nat) (i : Inst) (s : State), s.plain e = true ∧ ((s.retireBoth e).eng e) = s.eng e ∧ ((s.retireBoth e).eng e).task = some n ∧ ((s.retireBoth e).task n).inst = some i ∧ ((s.retireBoth e).eng e).nest = [] ∧ ((s.retireBoth e).eng e).lock = none ∧ ((s.retireBoth e).eng e).branch = [] ∧ ((s.retireBoth e).eng e).flights = []) ∧
    (∃ (n : Fin 48) (i : Inst) (s : State), (s.task n).inst = some i ∧ i.st = .ended ∧ (s.eng (s.tEng n)).flights = [] ∧ s.caughtUp (s.tEng n) = true) ∧
    (∃ (e : Fin 4) (v : Word) (s : State), s.plain e = true ∧ ((s.retireBoth e).eng e) = s.eng e ∧ ((s.retireBoth e).eng e).flights = [] ∧ ((s.retireBoth e).eng e).lock = none ∧ (s.retireBoth e).cspOk e = true ∧ ((s.retireBoth e).judge e 1 1 (((s.retireBoth e).eng e).csp.toNat - 64)).ok = true ∧ (s.retireBoth e).eccClear 0 (((s.retireBoth e).eng e).csp.toNat - 64) 64 = true ∧ (s.retireBoth e).m.inject = none ∧ (s.retireBoth e).m.init = false) ∧
    (∃ (e : Fin 4) (v : Word) (s : State), s.plain e = true ∧ ((s.retireBoth e).eng e).lock.isSome = true) ∧
    (∃ (e : Fin 4) (v : Word) (s : State), s.plain e = true ∧ ((s.retireBoth e).eng e).priv = 1 ∧ ((s.retireBoth e).judge e 1 0 ((s.retireBoth e).eng e).csp.toNat).ok = true ∧ (s.retireBoth e).eccClear 0 ((s.retireBoth e).eng e).csp.toNat 64 = true ∧ (arrayOf ((s.retireBoth e).eng e).csp.toNat).isSome = true ∧ (s.retireBoth e).m.init = false ∧ ((s.retireBoth e).eng e).flights = []) :=
  ⟨⟨0, 0#32, 3, tInst .running, tRun 0, by decide +kernel⟩,
   ⟨3, tInst .ended, tUp.setTask 3 { TaskSt.reset with inst := some (tInst .ended) }, by decide +kernel⟩,
   ⟨0, 9#32, tCsp, by decide +kernel⟩,
   ⟨0, 9#32, (tRun 0).upE 0 fun x => { x with lock := some ⟨0x02000000, 3, false⟩ }, by decide +kernel⟩,
   ⟨0, 9#32, tFrame, by decide +kernel⟩⟩

theorem wit_LocksAndMacros :
    (∃ (e : Fin 4) (v : Word) (s : State), s.plain e = true ∧ ((s.retireBoth e).eng e).lock = none ∧ (s.retireBoth e).nearOk e 0 v.toNat 4 = true) ∧
    (∃ (e : Fin 4) (v : Word) (l : LockSt) (s : State), s.plain e = true ∧ ((s.retireBoth e).eng e).lock = some l ∧ l.lost = false ∧ ((s.retireBoth e).eng e).broken = false ∧ l.addr = v.toNat ∧ (s.retireBoth e).nearOk e 1 v.toNat 4 = true) ∧
    (∃ (e : Fin 4) (v : Word) (l : LockSt) (s : State), s.plain e = true ∧ ((s.retireBoth e).eng e).lock = some l ∧ (l.lost = true ∨ ((s.retireBoth e).eng e).broken = true ∨ l.addr ≠ v.toNat) ∧ (s.retireBoth e).unwatched e = true) ∧
    (∃ (e : Fin 4) (v : Word) (l : LockSt) (s : State), s.plain e = true ∧ ((s.retireBoth e).eng e).lock = some l) ∧
    (∃ (e : Fin 4) (l : LockSt) (s : State), s.canIssue e = true ∧ (s.eng e).lock = some l ∧ l.count = 16) ∧
    (∃ (e : Fin 4) (n : Fin 64) (v : Word) (s : State), s.plain e = true ∧ ((s.retireBoth e).eng e).lock = none ∧ (s.retireBoth e).eccClear 0 ((s.retireBoth e).decActive e + 0x100 + 4 * n) 4 = true ∧ 0 < ((s.retireBoth e).mw ((s.retireBoth e).decActive e + 0x100 + 4 * n) % 64)) ∧
    (∃ (e : Fin 4) (m : MacroRun) (s : State), ((s.farDue e).eng e).mac = some m ∧ (s.farDue e).mirrorOf e = none ∧ m.k + 1 < m.n ∧ ((s.farDue e).retireBoth e).eccClear 0 (((s.farDue e).retireBoth e).decActive e + 0x200 + 128 * m.entry + 4 * m.k) 4 = true ∧ (slotMove (((s.farDue e).retireBoth e).mw (((s.farDue e).retireBoth e).decActive e + 0x200 + 128 * m.entry + 4 * m.k))).passes (((s.farDue e).retireBoth e).eng e).acc = false) ∧
    (∃ (e : Fin 4) (m : MacroRun) (s : State), ((s.farDue e).eng e).mac = some m ∧ (s.farDue e).mirrorOf e = none ∧ m.k + 1 < m.n ∧ ((s.farDue e).retireBoth e).eccClear 0 (((s.farDue e).retireBoth e).decActive e + 0x200 + 128 * m.entry + 4 * m.k) 4 = true ∧ (slotMove (((s.farDue e).retireBoth e).mw (((s.farDue e).retireBoth e).decActive e + 0x200 + 128 * m.entry + 4 * m.k))).passes (((s.farDue e).retireBoth e).eng e).acc = true ∧ 0x250 ≤ (slotMove (((s.farDue e).retireBoth e).mw (((s.farDue e).retireBoth e).decActive e + 0x200 + 128 * m.entry + 4 * m.k))).dst ∧ (slotMove (((s.farDue e).retireBoth e).mw (((s.farDue e).retireBoth e).decActive e + 0x200 + 128 * m.entry + 4 * m.k))).dst < 0x258) ∧
    (∃ (e : Fin 4) (m : MacroRun) (s : State), ((s.farDue e).eng e).mac = some m ∧ (s.farDue e).mirrorOf e = none ∧ m.k + 1 < m.n ∧ ((s.farDue e).retireBoth e).eccClear 0 (((s.farDue e).retireBoth e).decActive e + 0x200 + 128 * m.entry + 4 * m.k) 4 = true ∧ (slotMove (((s.farDue e).retireBoth e).mw (((s.farDue e).retireBoth e).decActive e + 0x200 + 128 * m.entry + 4 * m.k))).passes (((s.farDue e).retireBoth e).eng e).acc = true ∧ portKind false (slotMove (((s.farDue e).retireBoth e).mw (((s.farDue e).retireBoth e).decActive e + 0x200 + 128 * m.entry + 4 * m.k))).dst = .operand) ∧
    (∃ (e : Fin 4) (f : Fin 4) (m : MacroRun) (s : State), ((s.farDue e).eng e).mac = some m ∧ (s.farDue e).mirrorOf e = some f.val ∧ (s.farDue e).secondary e = false) ∧
    (∃ (e : Fin 4) (s : State), ((s.farDue e).secondary e = true ∨ ((s.farDue e).eng e).mac = none)) :=
  ⟨⟨0, 0x02000004#32, tMem, by decide +kernel⟩,
   ⟨0, 0x02000004#32, ⟨0x02000004, 3, false⟩, tMem.upE 0 fun x => { x with lock := some ⟨0x02000004, 3, false⟩ }, by decide +kernel⟩,
   ⟨0, 0x02000008#32, ⟨0x02000004, 3, false⟩, tMem.upE 0 fun x => { x with lock := some ⟨0x02000004, 3, false⟩ }, by decide +kernel⟩,
   ⟨0, 0#32, ⟨0x02000004, 3, false⟩, tMem.upE 0 fun x => { x with lock := some ⟨0x02000004, 3, false⟩ }, by decide +kernel⟩,
   ⟨0, ⟨0x02000004, 16, false⟩, tMem.upE 0 fun x => { x with lock := some ⟨0x02000004, 16, false⟩ }, by decide +kernel⟩,
   ⟨0, 5, 77#32, tMac, by decide +kernel⟩,
   ⟨0, tMacRun, tMac2 0xC0000000, by decide +kernel⟩,
   ⟨0, tMacRun, tMac2 (0x251 * 2 ^ 18 + 0x20000005), by decide +kernel⟩,
   ⟨0, tMacRun, tMac2 (0xC0 * 2 ^ 18 + 0x20000005), by decide +kernel⟩,
   ⟨0, 1, tMacRun, (tMac2 (0xC0 * 2 ^ 18 + 0x20000005)).put R.EXC_CTL_MIR01 1, by decide +kernel⟩,
   ⟨1, tUp, by decide +kernel⟩⟩

theorem wit_BundlesAndResults :
    (∃ (e : Fin 4) (s : State), s.canIssue e = true ∧ s.farReady e = false ∧ s.breakHit e = none ∧ s.eccClear 0 (0x01000000 + e.val * 0x100000 + s.get R.LE_PRG_STAT_ACT e * 0x80000 + 8 * (s.eng e).pc) 8 = true) ∧
    (∃ (s : State), s.canIssue 4 = true ∧ s.farReady 4 = false ∧ s.breakHit 4 = none) ∧
    (∃ (e : Fin 4) (s : State), s.plain e = true ∧ s.breakHit e = none ∧ s.eccClear 0 (0x01000000 + e.val * 0x100000 + s.get R.LE_PRG_STAT_ACT e * 0x80000 + 8 * (s.eng e).pc) 8 = true ∧ 0xC0 ≤ (s.mb ((0x01000000 + e.val * 0x100000 + s.get R.LE_PRG_STAT_ACT e * 0x80000 + 8 * (s.eng e).pc) + 3)).toNat ∧ 0xC0 ≤ (s.mb ((0x01000000 + e.val * 0x100000 + s.get R.LE_PRG_STAT_ACT e * 0x80000 + 8 * (s.eng e).pc) + 7)).toNat) ∧
    (∃ (e : Fin 5) (v : Word) (s : State), s.plain e = true) ∧
    (∃ (e : Fin 5) (f : Flight) (s : State), s.mirrorOf e = none ∧ (s.eng e).flights.all (fun g => g.far.isNone && g.ev.isNone) = true) ∧
    (∃ (e : Fin 5) (f : Flight) (s : State), s.mirrorOf e = none ∧ (s.eng e).flights.all (fun g => g.far.isNone && g.ev.isNone) = true ∧ (s.eng e).flights.find? (fun g => pipelined.contains g.unit) = some f) ∧
    (∃ (e : Fin 5) (f : Flight) (s : State), s.mirrorOf e = none ∧ (s.eng e).flights.all (fun g => g.far.isNone && g.ev.isNone) = true ∧ (s.eng e).flights.find? (fun g => g.unit == .div) = some f) ∧
    (∃ (e : Fin 5) (f : Flight) (s : State), s.mirrorOf e = none ∧ (s.eng e).flights.all (fun g => g.far.isNone && g.ev.isNone) = true ∧ (s.eng e).flights.find? (fun g => g.unit == .fpuDiv) = some f) ∧
    (∃ (f : Flight) (x : Eng) (a : Nat) (w : Word), f.far = none ∧ f.outs = [(a, w)] ∧ a ≠ 0x134) ∧
    (∃ (f : Flight) (x : Eng) (a : Nat) (w : Word), f.far = none ∧ f.outs = [(a, w)] ∧ a ≠ 0x134 ∧ f.unit ≠ .fpuAdd ∧ f.unit ≠ .fpuDiv ∧ f.acc = some true) ∧
    (∃ (f : Flight) (x : Eng) (a : Nat) (w : Word), f.far = none ∧ f.outs = [(a, w)] ∧ a ≠ 0x134 ∧ (f.unit = .fpuAdd ∨ f.unit = .fpuDiv) ∧ f.clr = false) :=
  ⟨⟨0, tRun 0, by decide +kernel⟩,
   ⟨(tRun 4).upE 4 fun x => { x with priv := 0 }, by decide +kernel⟩,
   ⟨0, (tRun 0).setMem (0x01000000 + 800) (List.replicate 8 0xFF#8), by decide +kernel⟩,
   ⟨0, 5#32, tRun 0, by decide +kernel⟩,
   ⟨0, Flight.plain .alu 9 [(0x0D8, 5)], (tRun 0).upE 0 fun x => { x with flights := [Flight.plain .alu 9 [(0x0D8, 5)]] }, by decide +kernel⟩,
   ⟨0, Flight.plain .alu 9 [(0x0D8, 5)], (tRun 0).upE 0 fun x => { x with flights := [Flight.plain .alu 9 [(0x0D8, 5)]] }, by decide +kernel⟩,
   ⟨0, Flight.plain .div 9 [(0x108, 5)], (tRun 0).upE 0 fun x => { x with flights := [Flight.plain .div 9 [(0x108, 5)]] }, by decide +kernel⟩,
   ⟨0, Flight.plain .fpuDiv 9 [(0x132, 5)], (tRun 0).upE 0 fun x => { x with flights := [Flight.plain .fpuDiv 9 [(0x132, 5)]] }, by decide +kernel⟩,
   ⟨Flight.plain .alu 9 [(0x0D8, 5)], Eng.reset 0, 0x0D8, 5#32, by decide +kernel⟩,
   ⟨{ Flight.plain .alu 9 [(0x0D8, 5)] with acc := some true }, Eng.reset 0, 0x0D8, 5#32, by decide +kernel⟩,
   ⟨Flight.plain .fpuAdd 9 [(0x130, 5)], Eng.reset 0, 0x130, 5#32, by decide +kernel⟩⟩

theorem wit_Events :
    (∃ (t : Nat) (b : Bool) (s : State), s.phase = .up ∧ s.is R.TIME_CTL_DISC = true ∧ s.is R.TIME_CTL_EDGE = b) ∧
    (∃ (b : Bool) (e : Int) (s : State), s.phase = .up ∧ s.is R.TIME_CTL_DISC = true ∧ s.is R.TIME_CTL_EDGE = b ∧ s.edgeInterval.all (fun i => 999500000 ≤ i && i ≤ 1000500000) = true ∧ e = phaseError ((s.now : Int) - toSigned 32 (s.get R.TIME_OFFSET_NS))) ∧
    (∃ (t : Nat) (b : Bool) (s : State), (s.phase ≠ .up ∨ s.is R.TIME_CTL_DISC = false ∨ s.is R.TIME_CTL_EDGE ≠ b)) ∧
    (∃ (a : Nat) (r : Nat) (s : State), s.phase = .up ∧ s.time.lastEdge = some (a, r)) ∧
    (∃ (src : Fin 288) (pay : Nat) (s : State), s.monitored src = true ∧ evLevel src = false ∧ src.val ≠ 15 ∧ s.evt.fifo.length < 255 ∧ s.quiet src = true) ∧
    (∃ (src : Fin 288) (cond : Bool) (pay : Nat) (s : State), s.monitored src = true ∧ evLevel src = true) ∧
    (∃ (o : Occ) (l : List Occ) (s : State), s.evt.fifo = o :: l ∧ s.evPend o.src = true ∧ s.evLoge o.src = false ∧ s.eccClear 5 (16 * s.evt.head) 16 = true) ∧
    (∃ (o : Occ) (l : List Occ) (s : State), s.evt.fifo = o :: l ∧ s.evPend o.src = false ∧ s.evLoge o.src = false ∧ s.eccClear 5 (16 * s.evt.head) 16 = true) ∧
    (∃ (w : Fin 9) (v : Word) (s : State), (List.range 32).all (fun b => !s.evLvl (32 * w + b)) = true) ∧
    (∃ (w : Fin 9) (k : Fin 32) (v : Word) (s : State), evLevel (32 * w + k) = true ∧ s.evLvl (32 * w + k) = true ∧ bit ((List.range 32).foldl (fun m b => if evNmi (32 * w + b) then setBit m b true else if evReserved (32 * w + b) then setBit m b false else m) v.toNat) k = true ∧ bit (s.get R.EVT_ENA_E w) k = false ∧ (∀ b : Nat, b < 32 → b ≠ k.val → s.evLvl (32 * w + b) = false)) ∧
    (∃ (src : Nat) (pay : Nat) (s : State), src < 512 ∧ pay < 65536) :=
  ⟨⟨500000000, false, tPps, by decide +kernel⟩,
   ⟨false, 1000, { tPps with time := { tPps.time with farm := 1000001000 } }, by decide +kernel⟩,
   ⟨500000000, true, tPps, by decide +kernel⟩,
   ⟨1000, 0, tPps, by decide +kernel⟩,
   ⟨100, 1, tUp.put R.EVT_ENA_E 0xFFFFFFFF 3, by decide +kernel⟩,
   ⟨4, true, 1, tUp, by decide +kernel⟩,
   ⟨⟨100, 5, 1, false⟩, [], { tUp.put R.EVT_PEND_P 16 3 with evt := { tUp.evt with fifo := [⟨100, 5, 1, false⟩] } }, by decide +kernel⟩,
   ⟨⟨100, 5, 1, false⟩, [], { tUp with evt := { tUp.evt with fifo := [⟨100, 5, 1, false⟩] } }, by decide +kernel⟩,
   ⟨3, 5#32, tUp, by decide +kernel⟩,
   ⟨0, 4, 16#32, (tUp.put R.EVT_ENA_E 0 0).put R.EVT_LVL_L 16 0, by decide +kernel⟩,
   ⟨100, 1, tUp, by decide +kernel⟩⟩

theorem wit_TurnPeriodRule :
    (∃ (v : Word) (s : State), v.toNat < 2 ^ 24 ∧ (s.inRun = true ∨ ¬(5000 ≤ v.toNat ∧ v.toNat ≤ 10000000 ∧ 100000000 % v.toNat = 0 ∧ s.get R.TURN_PHASE_PHI < v.toNat))) ∧
    (∃ (v : Word) (s : State), s.inRun = false ∧ 5000 ≤ v.toNat ∧ v.toNat ≤ 10000000 ∧ 100000000 % v.toNat = 0 ∧ s.get R.TURN_PHASE_PHI < v.toNat) ∧
    (∃ (v : Word) (s : State), v.toNat < 2 ^ 24 ∧ (s.inRun = true ∨ ¬v.toNat < s.get R.TURN_PERIOD_P)) ∧
    (∃ (v : Word) (s : State), v.toNat < 2 ^ 24 ∧ s.inRun = false ∧ v.toNat < s.get R.TURN_PERIOD_P) :=
  ⟨⟨7#32, State.reset, by decide +kernel⟩,
   ⟨5000#32, State.reset, by decide +kernel⟩,
   ⟨0xFFFFFF#32, State.reset, by decide +kernel⟩,
   ⟨7#32, State.reset, by decide +kernel⟩⟩

theorem wit_ClockAndGlint :
    (∃ (s : State), s.get R.RTC_SEC_S = 2 ^ 32 - 1 ∧ s.get R.RTC_SUB_SS < 32768 ∧ s.time.cd0 < 1000000000 ∧ s.time.glint = none) ∧
    (∃ (v : Nat) (s : State), v = s.get R.TIME_SET_LO_T + 2 ^ 32 * s.get R.TIME_SET_HI_T ∧ (s.get R.TIME_STAT_STATE = 1 ∨ s.get R.TIME_STAT_STATE = 2)) ∧
    (∃ (v : Nat) (s : State), v = s.get R.TIME_SET_LO_T + 2 ^ 32 * s.get R.TIME_SET_HI_T ∧ v % 1000000000 = 0 ∧ (s.get R.TIME_STAT_STATE = 0 ∨ s.get R.TIME_STAT_STATE = 3)) ∧
    (∃ (n : Nat) (s : State), s.phase = .up) ∧
    (∃ (s : State), s.phase ≠ .up) ∧
    (∃ (s : State), s.is R.RTC_CDN_CTL_EN = true) ∧
    (∃ (s : State), s.is R.RTC_CDN_CTL_EN = false) ∧
    (∃ (s : State), s.time.glint = none) ∧
    (∃ (g : Nat) (s : State), s.time.glint = some g) ∧
    (∃ (g : Nat) (d : Nat) (s : State), s.time.glint = some g) :=
  ⟨⟨tUp.put R.RTC_SEC_S (2 ^ 32 - 1), by decide +kernel⟩,
   ⟨0, tUp.put R.TIME_STAT_STATE 2, by decide +kernel⟩,
   ⟨0, tUp, by decide +kernel⟩,
   ⟨5, tUp, by decide +kernel⟩,
   ⟨{ tUp with phase := .standby }, by decide +kernel⟩,
   ⟨tUp.put R.RTC_CDN_CTL_EN 1, by decide +kernel⟩,
   ⟨tUp, by decide +kernel⟩,
   ⟨tUp, by decide +kernel⟩,
   ⟨500, { tUp with time := { tUp.time with glint := some 500 } }, by decide +kernel⟩,
   ⟨500, 3, { tUp with time := { tUp.time with glint := some 500 } }, by decide +kernel⟩⟩

theorem wit_FarAccesses :
    (∃ (e : Fin 4) (ans : Bool) (fl : Flight) (f : FarReq) (s : State), s.secondary e = false ∧ (s.eng e).flights.find? (fun f => f.far.isSome) = some fl ∧ fl.far = some f ∧ f.waits = false) ∧
    (∃ (e : Fin 4) (f : FarReq) (v : Nat) (st : Nat) (s : State), s.mirrorOf e = none ∧ (f.task = none ∨ f.task = (s.eng e).task)) ∧
    (∃ (e : Fin 4) (fl : Flight) (f : FarReq) (s : State), (s.eng e).flights.find? (fun f => f.far.isSome) = some fl ∧ fl.far = some f ∧ s.mirrorOf e = none ∧ (f.task = none ∨ f.task = (s.eng e).task) ∧ f.waits = false ∧ s.lead = false) ∧
    (∃ (e : Fin 4) (ans : Bool) (fl : Flight) (f : FarReq) (s : State), s.secondary e = false ∧ (s.eng e).flights.find? (fun f => f.far.isSome) = some fl ∧ fl.far = some f ∧ f.waits = true ∧ s.rfl.farq.getD e [] = []) ∧
    (∃ (e : Fin 4) (ans : Bool) (fl : Flight) (f : FarReq) (x : Nat × Nat) (l : List (Nat × Nat)) (s : State), s.secondary e = false ∧ (s.eng e).flights.find? (fun f => f.far.isSome) = some fl ∧ fl.far = some f ∧ f.waits = true ∧ s.rfl.farq.getD e [] = x :: l) ∧
    (∃ (ans : Bool) (fl : Flight) (f : FarReq) (s : State), (s.eng 4).flights.find? (fun f => f.far.isSome) = some fl ∧ fl.far = some f) ∧
    (∃ (e : Fin 5) (ans : Bool) (s : State), (s.eng e).flights.find? (fun f => f.far.isSome) = none) :=
  ⟨⟨0, true, fLoad, rLoad, tFar fLoad, by decide +kernel⟩,
   ⟨0, rLoad, 5, 1, tUp, by decide +kernel⟩,
   ⟨0, fStore, rStore, tFar fStore, by decide +kernel⟩,
   ⟨0, true, { fLoad with far := some { rLoad with waits := true } }, { rLoad with waits := true }, tFar { fLoad with far := some { rLoad with waits := true } }, by decide +kernel⟩,
   ⟨0, true, { fLoad with far := some { rLoad with waits := true } }, { rLoad with waits := true }, (1, 5), [], { tFar { fLoad with far := some { rLoad with waits := true } } with rfl := { tUp.rfl with farq := [(0, [(1, 5)])] } }, by decide +kernel⟩,
   ⟨true, fLoad, rLoad, (tRun 4).upE 4 fun x => { x with flights := [fLoad] }, by decide +kernel⟩,
   ⟨1, true, tUp, by decide +kernel⟩⟩

theorem wit_TickAndLatch :
    (∃ (t : Nat) (s : State), s.time.nextTick = some t ∧ s.phase = .up ∧ s.seq.inLatch = false) ∧
    (∃ (p : Nat) (phi : Nat) (x : Nat), 0 < p ∧ 10 * phi ≤ x) ∧
    (∃ (s : State), s.seq.inLatch = true) ∧
    (∃ (s : State), s.seq.inLatch = false) ∧
    (∃ (s : State), (s.time.nextTick = none ∨ s.phase ≠ .up ∨ s.seq.inLatch = true)) :=
  ⟨⟨1000000, tTick, by decide +kernel⟩,
   ⟨25000, 7, 1000000, by decide +kernel⟩,
   ⟨tLatch, by decide +kernel⟩,
   ⟨tTick, by decide +kernel⟩,
   ⟨tLatch, by decide +kernel⟩⟩

theorem wit_Dispatching :
    (∃ (e : Fin 4) (n : Nat) (i : Inst) (s : State), s.canTake e = true ∧ (s.eng e).live = false ∧ s.nextTask e = some (n, i)) ∧
    (∃ (e : Fin 4) (s : State), (s.canTake e = false ∨ (s.eng e).live = true ∨ s.nextTask e = none)) ∧
    (∃ (e : Fin 4) (n : Nat) (h : Nat) (i : Inst) (j : Inst) (s : State), s.canTake e = true ∧ (s.eng e).lock = none ∧ (s.eng e).task = some n ∧ s.nextTask e = some (h, j) ∧ (s.task n).inst = some i) ∧
    (∃ (e : Fin 4) (s : State), (s.canTake e = false ∨ (s.eng e).lock.isSome = true ∨ (s.eng e).task = none ∨ s.nextTask e = none)) ∧
    (∃ (e : Fin 4) (r : Nat) (s : State), s.canTake e = true ∧ (s.eng e).lock = none ∧ ((s.eng e).live = false ∨ (s.eng e).priv = 2) ∧ s.nextRoute e = some r) ∧
    (∃ (r : Nat) (s : State), (s.eng 4).stop = .none ∧ s.halted 4 = false ∧ s.svRequest = some r) ∧
    (∃ (n : Fin 48) (i : Inst) (s : State), (s.task n).inst = some i ∧ i.budget ≤ i.charged ∧ i.open = true ∧ i.st ≠ .ended) ∧
    (∃ (n : Fin 48) (i : Inst) (a : Nat) (s : State), (s.task n).inst = some i ∧ i.open = true ∧ s.halted (s.tEng n) = false ∧ a = s.get R.TSK_CFG_ABORT n * (if s.is R.TSK_CFG_TRIG n then 1 else s.tPeriod n)) ∧
    (∃ (e : Fin 4) (s : State), s.inRun = true ∧ s.seq.shedTick.contains e.val = true ∧ s.seq.endTick.contains e.val = false ∧ s.get R.TSK_SHED_K e ≠ 0 ∧ s.is R.TSK_SHED_ACTIVE e = false ∧ bit (s.get R.EXC_STAT_EPEN) e = false) ∧
    (∃ (e : Fin 4) (s : State), s.inRun = true ∧ s.is R.TSK_SHED_ACTIVE e = true ∧ s.seq.endTick.contains e.val = true ∧ s.seq.shedTick.contains e.val = false ∧ bit (s.get R.EXC_STAT_EPEN) e = true ∧ s.is R.EXC_STAT_DPEN = false) :=
  ⟨⟨0, 3, tInst .ready, tReady, by decide +kernel⟩,
   ⟨1, tUp, by decide +kernel⟩,
   ⟨0, 3, 4, tInst .running, tInst .ready, tTwo, by decide +kernel⟩,
   ⟨1, tUp, by decide +kernel⟩,
   ⟨0, 100, (tRun 0).upE 0 fun x => { x with routes := [100] }, by decide +kernel⟩,
   ⟨8, ((tRun 4).put R.EVT_PEND_P 256), by decide +kernel⟩,
   ⟨3, { tInst .running with charged := 2000 }, (tRun 0).upI 3 fun i => { i with charged := 2000 }, by decide +kernel⟩,
   ⟨3, tInst .running, 0, tRun 0, by decide +kernel⟩,
   ⟨1, { (tUp.put R.TSK_SHED_K 5 1).put R.SYS_MODE_MODE 0 with seq := { tUp.seq with shedTick := [1] } }, by decide +kernel⟩,
   ⟨1, { ((tUp.put R.TSK_SHED_ACTIVE 1 1).put R.EXC_STAT_EPEN 2).put R.SYS_MODE_MODE 0 with seq := { tUp.seq with endTick := [1] } }, by decide +kernel⟩⟩

theorem wit_TasksAndScopes :
    (∃ (n : Fin 48) (v : Word) (s : State), s.inRun = false) ∧
    (∃ (n : Fin 48) (v : Word) (s : State), s.inRun = true ∧ s.lead = false) ∧
    (∃ (n : Fin 48) (v : Word) (s : State), (s.lead && s.inRun) = false) ∧
    (∃ (n : Fin 48) (k : Fin 10) (en : Bool) (v : Word) (s : State), s.lead = true ∧ s.inRun = true) ∧
    (∃ (n : Fin 48) (en : Bool) (s : State), (s.lead && s.inRun) = false) ∧
    (∃ (k : Fin 8) (s : State), (s.lead && s.inRun) = false) ∧
    (∃ (k : Fin 8) (s : State), (s.lead && s.inRun) = false) ∧
    (∃ (k : Fin 8) (s : State), (s.lead && s.inRun) = false) ∧
    (∃ (k : Fin 8) (s : State), s.lead = true ∧ s.inRun = true) :=
  ⟨⟨3, 77#32, State.reset, by decide +kernel⟩,
   ⟨3, 77#32, tRun 1, by decide +kernel⟩,
   ⟨3, 77#32, tUp, by decide +kernel⟩,
   ⟨3, 1, true, 77#32, (tRun 1).put R.RFL_STAT_ROLE 1, by decide +kernel⟩,
   ⟨3, true, tUp, by decide +kernel⟩,
   ⟨5, tUp.put R.EXC_STAT_EUMB 2, by decide +kernel⟩,
   ⟨1, tUp, by decide +kernel⟩,
   ⟨1, tUp, by decide +kernel⟩,
   ⟨1, (tRun 1).put R.RFL_STAT_ROLE 1, by decide +kernel⟩⟩

theorem wit_WatchdogsAndEcc :
    (∃ (e : Fin 4) (s : State), s.holdsWork e = true ∧ (s.following = false ∨ (s.eng e).stalled = false)) ∧
    (∃ (e : Fin 4) (s : State), (s.holdsWork e = false ∨ (s.following = true ∧ (s.eng e).stalled = true))) ∧
    (∃ (t : Nat) (s : State), s.exc.autoRst = some t) ∧
    (∃ (s : State), s.exc.autoRst = none) ∧
    (∃ (a : Bool) (b : Bool) (s : State), s.inRun = true) ∧
    (∃ (a : Bool) (b : Bool) (s : State), s.inRun = false) ∧
    (∃ (c : Nat) (base : Nat) (size : Nat) (s : State), arraySpan c = some (base, size) ∧ s.is R.SYS_ECC_CTL_SCRUB = true ∧ s.phase = .up) ∧
    (∃ (c : Nat) (s : State), (arraySpan c = none ∨ s.is R.SYS_ECC_CTL_SCRUB = false ∨ s.phase ≠ .up)) ∧
    (∃ (array : Nat) (mode : Nat) (s : State), array < 256 ∧ mode < 4) ∧
    (∃ (lantern : Bool) (s : State), s.is R.RTC_BKSTAT_LWBUSY = false) ∧
    (∃ (lantern : Bool) (s : State), s.is R.RTC_BKSTAT_LWBUSY = true) :=
  ⟨⟨1, tRun 1, by decide +kernel⟩,
   ⟨1, tUp, by decide +kernel⟩,
   ⟨5, { tUp with exc := { tUp.exc with autoRst := some 5 } }, by decide +kernel⟩,
   ⟨tUp, by decide +kernel⟩,
   ⟨true, false, tUp, by decide +kernel⟩,
   ⟨true, true, tUp.put R.SYS_MODE_MODE 1, by decide +kernel⟩,
   ⟨0x20, 0x02000000, 0x40000, tUp.put R.SYS_ECC_CTL_SCRUB 1, by decide +kernel⟩,
   ⟨1, tUp, by decide +kernel⟩,
   ⟨0, 1, tUp, by decide +kernel⟩,
   ⟨true, tUp, by decide +kernel⟩,
   ⟨true, tUp.put R.RTC_BKSTAT_LWBUSY 1, by decide +kernel⟩⟩

theorem wit_DmaAndChecker :
    (∃ (a : Fin 4) (src : Nat) (dst : Nat) (ctl : Nat) (next : Nat) (s : State), (s.dma a).desc = some (src, dst, ctl, next) ∧ s.is R.DMA_STAT_WAITTRIG a = false) ∧
    (∃ (a : Fin 4) (s : State), ((s.dma a).desc = none ∨ s.is R.DMA_STAT_WAITTRIG a = true)) ∧
    (∃ (s : State), s.chkBad = none) ∧
    (∃ (c : Nat) (i : Nat) (s : State), s.chkBad = some (c, i)) :=
  ⟨⟨1, 0x02000004, 0x02000100, 1 + 2 ^ 26, 0, tDmaAll, by decide +kernel⟩,
   ⟨1, tUp, by decide +kernel⟩,
   ⟨tUp, by decide +kernel⟩,
   ⟨1, 0, (tUp.put R.CHK_RG_CFG_EN 1).put R.CHK_RG_CFG_SIZE 7, by decide +kernel⟩⟩

theorem wit_OnlineEdit :
    (∃ (e : Fin 4) (s : State), s.is R.LE_DEC_STAT_BUSY e = true) ∧
    (∃ (e : Fin 4) (s : State), s.is R.LE_DEC_STAT_BUSY e = false) ∧
    (∃ (e : Fin 4) (s : State), s.mirrorOf e = none) ∧
    (∃ (e : Fin 4) (f : Nat) (s : State), s.mirrorOf e = some f) ∧
    (∃ (e : Fin 4) (s : State), s.is R.LE_PRG_STAT_BUSY e = true) ∧
    (∃ (e : Fin 4) (s : State), s.is R.LE_PRG_STAT_BUSY e = false) ∧
    (∃ (e : Fin 4) (c : Nat) (s : State), (if s.is R.LE_PRG_STAT_IVALID e = false then some 0x10 else if s.get R.LE_PRG_AT_LO_A e + 2 ^ 32 * s.get R.LE_PRG_AT_HI_A e < s.seq.abs + 2 then some 0x11 else none) = some c) ∧
    (∃ (e : Fin 4) (c : Nat) (s : State), s.schedErr e (s.get R.LE_PRG_AT_LO_A e + 2 ^ 32 * s.get R.LE_PRG_AT_HI_A e) = some c) ∧
    (∃ (e : Fin 4) (s : State), s.schedErr e (s.get R.LE_PRG_AT_LO_A e + 2 ^ 32 * s.get R.LE_PRG_AT_HI_A e) = none) ∧
    (∃ (e : Fin 4) (s : State), (s.prgSt e).switching = true) ∧
    (∃ (e : Fin 4) (s : State), (s.prgSt e).switching = false) ∧
    (∃ (e : Fin 4) (a : Nat) (s : State), (s.prgSt e).at_ = some a ∧ (s.group a).any (fun f => s.get R.LE_PRG_BUD_WAIT f < (s.prgSt e).waited) = true ∧ (s.group a).all s.switchIdle = false) ∧
    (∃ (e : Fin 4) (a : Nat) (k : Nat) (n : Nat) (s : State), (s.prgSt e).at_ = some a ∧ (s.group a).any (fun f => s.get R.LE_PRG_BUD_WAIT f < (s.prgSt e).waited) = true ∧ (s.group a).all s.switchIdle = true ∧ tableErr (s.tableAfter (s.group a)) s.shedCfg = some (k, n)) ∧
    (∃ (e : Fin 4) (a : Nat) (s : State), (s.prgSt e).at_ = some a ∧ (s.group a).any (fun f => s.get R.LE_PRG_BUD_WAIT f < (s.prgSt e).waited) = false) ∧
    (∃ (e : Fin 4) (s : State), (s.prgSt e).at_ = none) :=
  ⟨⟨2, tUp.put R.LE_DEC_STAT_BUSY 1 2, by decide +kernel⟩,
   ⟨2, tUp, by decide +kernel⟩,
   ⟨2, tUp.put R.LE_DEC_STAT_SVALID 1 2, by decide +kernel⟩,
   ⟨0, 1, (tUp.put R.EXC_CTL_MIR01 1), by decide +kernel⟩,
   ⟨2, tImage, by decide +kernel⟩,
   ⟨2, tUp, by decide +kernel⟩,
   ⟨2, 0x10, tUp, by decide +kernel⟩,
   ⟨2, 0x10, tUp, by decide +kernel⟩,
   ⟨2, (tUp.put R.LE_PRG_STAT_IVALID 1 2).put R.LE_PRG_AT_LO_A 100 2, by decide +kernel⟩,
   ⟨2, { tLatch.upPrg 2 fun p => { p with switching := true } with seq := tLatch.seq }, by decide +kernel⟩,
   ⟨2, tUp, by decide +kernel⟩,
   ⟨0, 5, (tRun 0).upPrg 0 fun p => { p with at_ := some 5, waited := 70000 }, by decide +kernel⟩,
   ⟨2, 5, 8, 0, (tUp.put R.TSK_SHED_K 1 1).upPrg 2 fun p => { p with at_ := some 5, waited := 70000 }, by decide +kernel⟩,
   ⟨2, 5, tUp.upPrg 2 fun p => { p with at_ := some 5 }, by decide +kernel⟩,
   ⟨2, tUp, by decide +kernel⟩⟩

theorem wit_PairOwnership :
    (∃ (s : State), s.is R.RFL_CFG_MODE = true ∧ s.get R.RFL_STAT_ROLE = 0 ∧ s.phase = .up ∧ s.rfl.claim = false ∧ s.rfl.waitOwn = false) ∧
    (∃ (s : State), (s.is R.RFL_CFG_MODE = false ∨ s.get R.RFL_STAT_ROLE ≠ 0 ∨ s.phase ≠ .up ∨ s.rfl.claim = true ∨ s.rfl.waitOwn = true)) ∧
    (∃ (s : State), s.is R.RFL_STAT_OWN = true ∧ s.is R.RFL_STAT_OWNIN = true ∧ s.is R.RFL_CFG_MODE = true) ∧
    (∃ (s : State), (s.is R.RFL_STAT_OWN = false ∨ s.is R.RFL_STAT_OWNIN = false ∨ s.is R.RFL_CFG_MODE = false)) :=
  ⟨⟨tUp.put R.RFL_CFG_MODE 1, by decide +kernel⟩,
   ⟨tUp, by decide +kernel⟩,
   ⟨((tUp.put R.RFL_STAT_OWN 1).put R.RFL_STAT_OWNIN 1).put R.RFL_CFG_MODE 1, by decide +kernel⟩,
   ⟨tUp, by decide +kernel⟩⟩

theorem wit_TurnRecords :
    (∃ (seq : Nat) (idx : Nat) (d : List Byte) (s : State), s.listens = true) ∧
    (∃ (seq : Nat) (idx : Nat) (d : List Byte) (s : State), s.listens = true) ∧
    (∃ (seq : Nat) (idx : Nat) (d : List Byte) (bad : List Nat) (s : State), s.listens = true) ∧
    (∃ (seq : Nat) (idx : Nat) (d : List Byte) (bad : List Nat) (s : State), s.listens = false) ∧
    (∃ (a : Nat) (x : Nat) (s : State), (s.lead = true ∨ s.following = true)) ∧
    (∃ (a : Nat) (x : Nat) (s : State), s.lead = false ∧ s.following = false) ∧
    (∃ (e : Fin 4) (c : RecvRec) (r : RelEnt) (s : State), (s.turnCatch e).rfl.cur = some c ∧ ((s.turnCatch e).rfl.relOld.find? fun r => (s.turnCatch e).tEng r.task == e).or (if (s.turnCatch e).rfl.behind.contains e then none else c.rel.find? fun r => (s.turnCatch e).tEng r.task == e) = some r ∧ (s.turnCatch e).following = true ∧ r.task < 48 ∧ ((s.turnCatch e).timeIdle e = true ∨ r.ofs ≤ (s.turnCatch e).count e)) ∧
    (∃ (e : Fin 4) (s : State), (s.turnCatch e).relNow e = none) ∧
    (∃ (e : Fin 4) (s : State), s.following = false) ∧
    (∃ (l : List Nat) (s : State), s.is R.RFL_STAT_LINK = true ∧ s.is R.RFL_CFG_MODE = true ∧ (s.lead = true ∨ s.get R.RFL_STAT_ROLE = 3)) ∧
    (∃ (l : List Nat) (s : State), (s.is R.RFL_STAT_LINK = false ∨ s.is R.RFL_CFG_MODE = false ∨ (s.lead = false ∧ s.get R.RFL_STAT_ROLE ≠ 3))) :=
  ⟨⟨7, 3, leBytes 8 (16 + 4 * 2 ^ 32) ++ leBytes 4 9 ++ List.replicate 66 1#8, tShadow (RecvRec.fresh 7), by decide +kernel⟩,
   ⟨7, 3, [1#8, 0#8, 9#8, 0#8, 0#8, 0#8], tShadow (RecvRec.fresh 7), by decide +kernel⟩,
   ⟨7, 3, leBytes 16 0, [], tShadow (RecvRec.fresh 7), by decide +kernel⟩,
   ⟨7, 3, [1#8], [], tUp, by decide +kernel⟩,
   ⟨5, 6, { tUp.put R.RFL_STAT_ROLE 1 with rfl := { tUp.rfl with digOwn := some (5, 6) } }, by decide +kernel⟩,
   ⟨5, 6, tUp, by decide +kernel⟩,
   ⟨0, { RecvRec.fresh 7 with rel := [⟨3, 5, 6⟩] }, ⟨3, 5, 6⟩, tShadow { RecvRec.fresh 7 with rel := [⟨3, 5, 6⟩] }, by decide +kernel⟩,
   ⟨1, tUp, by decide +kernel⟩,
   ⟨1, tUp, by decide +kernel⟩,
   ⟨([1, 1, 1] ++ tHello.helloItems.drop 3), tHello, by decide +kernel⟩,
   ⟨[], tUp, by decide +kernel⟩⟩

theorem wit_PairCommands :
    (∃ (s : State), s.following = true ∧ s.get R.RFL_CFG_M ≤ s.get R.RFL_STAT_MISSED) ∧
    (∃ (s : State), (s.following = false ∨ s.get R.RFL_STAT_MISSED < s.get R.RFL_CFG_M)) ∧
    (∃ (t : Nat) (s : State), s.rfl.retryAt = some t) ∧
    (∃ (s : State), s.rfl.retryAt = none) ∧
    (∃ (w : Nat) (s : State), s.rfl.swap = some w) ∧
    (∃ (s : State), s.rfl.swap = none) :=
  ⟨⟨(tShadow (RecvRec.fresh 7)).put R.RFL_STAT_MISSED 9, by decide +kernel⟩,
   ⟨tUp, by decide +kernel⟩,
   ⟨5000, { tHello with rfl := { tHello.rfl with retryAt := some 5000 } }, by decide +kernel⟩,
   ⟨tUp, by decide +kernel⟩,
   ⟨1, { (tUp.put R.RFL_STAT_ROLE 1).put R.RFL_STAT_READY 1 with rfl := { tUp.rfl with swap := some 1 } }, by decide +kernel⟩,
   ⟨tUp, by decide +kernel⟩⟩

theorem wit_Sessions :
    (∃ (p : Fin 6) (m : Msg) (s : State), s.fronts p m = true ∧ m.svc = 0x1E ∧ m.isReply = false) ∧
    (∃ (p : Fin 6) (s : State), (s.halted 4 = true ∨ s.upd.hand = true ∨ s.front p = none)) ∧
    (∃ (p : Fin 6) (m : Msg) (s : State), s.fronts p m = true ∧ m.svc = 0x10 ∧ m.isReply = false ∧ m.sid = 0) ∧
    (∃ (p : Fin 6) (m : Msg) (s : State), s.fronts p m = true ∧ m.svc = 0x12 ∧ m.isReply = false) ∧
    (∃ (p : Fin 6) (m : Msg) (s : State), s.fronts p m = true ∧ m.svc = 0x11 ∧ m.isReply = false) ∧
    (∃ (p : Fin 6) (m : Msg) (s : State), s.fronts p m = true ∧ m.svc = 0x11 ∧ m.isReply = true) ∧
    (∃ (p : Fin 6) (m : Msg) (s : State), s.fronts p m = true ∧ m.isReply = false ∧ (m.svc = 9 ∨ 0x20 ≤ m.svc)) :=
  ⟨⟨1, mMsg false 0x1E 0 [], tMsg (mMsg false 0x1E 0 []), by decide +kernel⟩,
   ⟨1, tUp.put R.LANT_HALTST_HALTED 16, by decide +kernel⟩,
   ⟨1, mOpen, tOpen, by decide +kernel⟩,
   ⟨1, (mMsg false 0x12 0 ([])), tMsg (mMsg false 0x12 0 ([])), by decide +kernel⟩,
   ⟨1, (mMsg false 0x11 0 (List.replicate 16 1#8)), tMsg (mMsg false 0x11 0 (List.replicate 16 1#8)), by decide +kernel⟩,
   ⟨1, (mMsg true 0x11 1 []), tMsg (mMsg true 0x11 1 []), by decide +kernel⟩,
   ⟨1, mMsg false 9 0 [], tMsg (mMsg false 9 0 []), by decide +kernel⟩⟩

theorem wit_DictionaryMessages :
    (∃ (p : Fin 6) (m : Msg) (s : State), s.fronts p m = true ∧ m.svc = 5 ∧ m.isReply = false ∧ s.reqTurn p = true) ∧
    (∃ (p : Fin 6) (m : Msg) (s : State), s.fronts p m = true ∧ m.svc = 4 ∧ m.isReply = false ∧ s.reqTurn p = true) ∧
    (∃ (i : Nat) (x : Sess) (m : Msg) (u : State), m.body.length < 8) ∧
    (∃ (i : Nat) (x : Sess) (m : Msg) (u : State), m.body.length ≠ 8) ∧
    (∃ (p : Fin 6) (m : Msg) (s : State), s.fronts p m = true ∧ m.svc = 3 ∧ m.isReply = false ∧ 4 ≤ m.body.length ∧ leAt m.body 0 2 = 0x0101 ∧ s.reqTurn p = true) ∧
    (∃ (p : Fin 6) (m : Msg) (s : State), s.fronts p m = true ∧ m.svc = 3 ∧ m.isReply = false ∧ 4 ≤ m.body.length ∧ leAt m.body 0 2 = 0x0102 ∧ s.reqTurn p = true) ∧
    (∃ (p : Fin 6) (m : Msg) (s : State), s.fronts p m = true ∧ m.svc = 3 ∧ m.isReply = false ∧ 4 ≤ m.body.length ∧ leAt m.body 0 2 = 0x0103 ∧ s.reqTurn p = true) ∧
    (∃ (k : Fin 16) (s : State), s.phase = .up ∧ s.halted 4 = false ∧ s.upd.hand = false) ∧
    (∃ (k : Fin 16) (s : State), (s.phase ≠ .up ∨ s.halted 4 = true ∨ s.upd.hand = true)) ∧
    (∃ (p : Fin 6) (s : State), s.reqTurn p = false) :=
  ⟨⟨1, (mMsg false 5 0 ([1#8, 0#8, 0x20#8, 0#8, 0#8, 1#8, 0#8, 0#8])), tMsg (mMsg false 5 0 ([1#8, 0#8, 0x20#8, 0#8, 0#8, 1#8, 0#8, 0#8])), by decide +kernel⟩,
   ⟨1, (mMsg false 4 0 ([1#8, 0#8, 0x20#8, 0#8, 0#8, 1#8, 0#8, 0#8])), tMsg (mMsg false 4 0 ([1#8, 0#8, 0x20#8, 0#8, 0#8, 1#8, 0#8, 0#8])), by decide +kernel⟩,
   ⟨3, sess9, mMsg false 4 0 [1#8], tUp, by decide +kernel⟩,
   ⟨3, sess9, mMsg false 4 0 [1#8], tUp, by decide +kernel⟩,
   ⟨1, (mMsg false 3 0 ([1#8, 1#8, 0#8, 0#8, 0xFF#8])), tMsg (mMsg false 3 0 ([1#8, 1#8, 0#8, 0#8, 0xFF#8])), by decide +kernel⟩,
   ⟨1, (mMsg false 3 0 ([2#8, 1#8, 0#8, 0#8, 0x71#8])), tMsg (mMsg false 3 0 ([2#8, 1#8, 0#8, 0#8, 0x71#8])), by decide +kernel⟩,
   ⟨1, (mMsg false 3 0 ([3#8, 1#8, 0#8, 0#8, 0x71#8])), tMsg (mMsg false 3 0 ([3#8, 1#8, 0#8, 0#8, 0x71#8])), by decide +kernel⟩,
   ⟨5, tTrig, by decide +kernel⟩,
   ⟨5, tUp.put R.LANT_HALTST_HALTED 16, by decide +kernel⟩,
   ⟨2, ((tMsg (mMsg false 5 0 ([1#8, 0#8, 0x20#8, 0#8, 0#8, 1#8, 0#8, 0#8]))).upPort 1 fun q => { q with rxAt := [5] }).upPort 2 fun q => { q with rx := [(7, [])], rxAt := [6] }, by decide +kernel⟩⟩

theorem wit_MapsAndBulk :
    (∃ (p : Fin 6) (m : Msg) (s : State), s.fronts p m = true ∧ m.svc = 1 ∧ m.isReply = false) ∧
    (∃ (p : Fin 6) (m : Msg) (s : State), s.fronts p m = true ∧ m.svc = 6 ∧ m.isReply = false ∧ leAt m.body 0 1 = 1 ∧ m.body ≠ []) ∧
    (∃ (p : Fin 6) (m : Msg) (s : State), s.fronts p m = true ∧ m.svc = 6 ∧ m.isReply = false ∧ leAt m.body 0 1 = 2 ∧ m.body ≠ []) ∧
    (∃ (p : Fin 6) (m : Msg) (s : State), s.fronts p m = true ∧ m.svc = 6 ∧ m.isReply = false ∧ leAt m.body 0 1 = 3 ∧ m.body ≠ []) ∧
    (∃ (p : Fin 6) (m : Msg) (s : State), s.fronts p m = true ∧ m.svc = 6 ∧ m.isReply = false ∧ leAt m.body 0 1 = 4 ∧ m.body ≠ []) ∧
    (∃ (p : Fin 6) (m : Msg) (s : State), s.fronts p m = true ∧ m.svc = 2 ∧ m.isReply = true) ∧
    (∃ (j : Fin 16) (k : Fin 2) (src : Nat) (x : Sess) (n : NoteSt) (s : State), Store.find j.val s.sess = some x ∧ x.notes.find? (fun n => n.kind == k.val && n.src == src) = some n) ∧
    (∃ (j : Fin 16) (k : Fin 2) (src : Nat) (x : Sess) (n : NoteSt) (s : State), Store.find j.val s.sess = some x ∧ x.notes.find? (fun n => n.kind == k.val && n.src == src) = some n) ∧
    (∃ (j : Fin 16) (k : Fin 2) (src : Nat) (s : State), (∀ x ∈ Store.find j.val s.sess, x.notes.find? (fun n => n.kind == k.val && n.src == src) = none)) ∧
    (∃ (p : Fin 6) (m : Msg) (s : State), s.fronts p m = true ∧ m.svc = 7 ∧ m.isReply = false ∧ 4 ≤ m.body.length ∧ leAt m.body 0 1 = 0) ∧
    (∃ (p : Fin 6) (m : Msg) (s : State), s.fronts p m = true ∧ m.svc = 7 ∧ m.isReply = false ∧ 4 ≤ m.body.length ∧ leAt m.body 0 1 = 1) ∧
    (∃ (p : Fin 6) (m : Msg) (s : State), s.fronts p m = true ∧ m.svc = 8 ∧ m.isReply = false ∧ 4 ≤ m.body.length ∧ leAt m.body 0 1 = 0) ∧
    (∃ (p : Fin 6) (m : Msg) (s : State), s.fronts p m = true ∧ m.svc = 8 ∧ m.isReply = false ∧ 4 ≤ m.body.length ∧ leAt m.body 0 1 = 3) ∧
    (∃ (p : Fin 6) (m : Msg) (s : State), s.fronts p m = true ∧ m.svc = 8 ∧ m.isReply = true) ∧
    (∃ (p : Fin 6) (m : Msg) (s : State), s.fronts p m = true ∧ m.isReply = false ∧ (m.svc = 7 ∨ m.svc = 8) ∧ 4 ≤ m.body.length ∧ leAt m.body 0 1 = 2) ∧
    (∃ (p : Fin 6) (s : State), (s.halted 4 = true ∨ s.upd.hand = true ∨ s.front p = none)) :=
  ⟨⟨1, (mMsg false 1 0 (List.replicate 16 1#8)), tMsg (mMsg false 1 0 (List.replicate 16 1#8)), by decide +kernel⟩,
   ⟨1, (mMsg false 6 0 (1#8 :: [3#8, 1#8, 0#8, 1#8, 0#8, 0#8, 0#8, 1#8, 0#8, 0#8, 0#8, 4#8, 0#8, 0#8, 0#8])), tMsg (mMsg false 6 0 (1#8 :: [3#8, 1#8, 0#8, 1#8, 0#8, 0#8, 0#8, 1#8, 0#8, 0#8, 0#8, 4#8, 0#8, 0#8, 0#8])), by decide +kernel⟩,
   ⟨1, (mMsg false 6 0 ([2#8, 3#8, 0#8, 0#8, 0#8])), tMsg (mMsg false 6 0 ([2#8, 3#8, 0#8, 0#8, 0#8])), by decide +kernel⟩,
   ⟨1, (mMsg false 6 0 (3#8 :: List.replicate 43 0#8)), tMsg (mMsg false 6 0 (3#8 :: List.replicate 43 0#8)), by decide +kernel⟩,
   ⟨1, (mMsg false 6 0 ([4#8])), tMsg (mMsg false 6 0 ([4#8])), by decide +kernel⟩,
   ⟨1, mMsg false 2 1 [], tMsg (mMsg false 2 1 []), by decide +kernel⟩,
   ⟨3, 0, 100, { sess9 with notes := [note1] }, note1, { tMsg (mMsg false 9 0 []) with sess := [(3, { sess9 with notes := [note1] })] }, by decide +kernel⟩,
   ⟨3, 0, 100, { sess9 with notes := [{ note1 with sent := some (2, [1#8]) }] }, { note1 with sent := some (2, [1#8]) }, { tMsg (mMsg false 9 0 []) with sess := [(3, { sess9 with notes := [{ note1 with sent := some (2, [1#8]) }] })] }, by decide +kernel⟩,
   ⟨3, 0, 100, tUp, by decide +kernel⟩,
   ⟨1, (mMsg false 7 0 ([0#8, 0#8, 0#8, 0#8, 0x10#8, 0#8, 0x41#8, 0#8] ++ leBytes 8 65536)), tMsg (mMsg false 7 0 ([0#8, 0#8, 0#8, 0#8, 0x10#8, 0#8, 0x41#8, 0#8] ++ leBytes 8 65536)), by decide +kernel⟩,
   ⟨1, (mMsg false 7 0 ([1#8, 0#8, 0#8, 0#8, 0#8, 0#8, 0#8, 0#8, 5#8])), tMsg (mMsg false 7 0 ([1#8, 0#8, 0#8, 0#8, 0#8, 0#8, 0#8, 0#8, 5#8])), by decide +kernel⟩,
   ⟨1, (mMsg false 8 0 ([0#8, 0#8, 0#8, 0#8, 0x10#8, 0#8, 0x41#8, 0#8] ++ leBytes 4 0 ++ leBytes 4 3)), tMsg (mMsg false 8 0 ([0#8, 0#8, 0#8, 0#8, 0x10#8, 0#8, 0x41#8, 0#8] ++ leBytes 4 0 ++ leBytes 4 3)), by decide +kernel⟩,
   ⟨1, (mMsg false 8 0 ([3#8, 0#8, 0#8, 0#8, 0#8, 0#8, 0#8, 0#8])), tMsg (mMsg false 8 0 ([3#8, 0#8, 0#8, 0#8, 0#8, 0#8, 0#8, 0#8])), by decide +kernel⟩,
   ⟨1, (mMsg false 8 1 ([0#8, 0#8, 0#8, 0#8, 0x14#8, 0#8, 0#8, 0#8, 0#8, 0#8, 0#8, 0#8])), tMsg (mMsg false 8 1 ([0#8, 0#8, 0#8, 0#8, 0x14#8, 0#8, 0#8, 0#8, 0#8, 0#8, 0#8, 0#8])), by decide +kernel⟩,
   ⟨1, mMsg false 8 0 [2#8, 0#8, 0#8, 0#8], tMsg (mMsg false 8 0 [2#8, 0#8, 0#8, 0#8]), by decide +kernel⟩,
   ⟨1, tUp, by decide +kernel⟩⟩

theorem wit_FieldPorts :
    (∃ (p : Fin 6) (f : List Byte) (s : State), isCan p = false ∧ s.is R.FP_CFG_EN p = true) ∧
    (∃ (p : Fin 6) (f : List Byte) (s : State), (isCan p = true ∨ s.is R.FP_CFG_EN p = false)) ∧
    (∃ (p : Fin 6) (f : List Byte) (s : State), beNat (slice f 12 2) = 0x0806) ∧
    (∃ (p : Fin 6) (f : List Byte) (s : State), beNat (slice f 12 2) ≠ 0x0806) ∧
    (∃ (p : Fin 6) (f : List Byte) (s : State), beNat (slice f 12 2) = 0x0800 ∧ leAt f 23 1 = 1) ∧
    (∃ (p : Fin 6) (f : List Byte) (s : State), (beNat (slice f 12 2) ≠ 0x0800 ∨ leAt f 23 1 ≠ 1)) ∧
    (∃ (p : Fin 6) (m : TxMsg) (s : State), (s.port p).tx.find? TxMsg.busy = some m) ∧
    (∃ (p : Fin 6) (s : State), (s.port p).tx.find? TxMsg.busy = none) ∧
    (∃ (p : Fin 6) (s : State), s.is R.FP_CFG_EN p = false) ∧
    (∃ (p : Fin 6) (s : State), s.is R.FP_CFG_EN p = true) ∧
    (∃ (p : Fin 6) (id : Nat) (ext : Bool) (fd : Bool) (d : List Byte) (s : State), (isCan p = false ∨ s.is R.FP_CFG_EN p = false ∨ s.is R.FP_STAT_BUSOFF p = true ∨ ext = false ∨ fd = false)) ∧
    (∃ (p : Fin 6) (id : Nat) (d : List Byte) (s : State), isCan p = true ∧ s.is R.FP_CFG_EN p = true ∧ s.is R.FP_STAT_BUSOFF p = false) :=
  ⟨⟨1, fArp, tEth, by decide +kernel⟩,
   ⟨1, [], tUp, by decide +kernel⟩,
   ⟨1, fArp, tEth, by decide +kernel⟩,
   ⟨1, [], tUp, by decide +kernel⟩,
   ⟨1, List.replicate 12 0#8 ++ [8#8, 0#8] ++ List.replicate 9 0#8 ++ [1#8], tUp, by decide +kernel⟩,
   ⟨1, [], tUp, by decide +kernel⟩,
   ⟨1, tx1, tUp.upPort 1 fun q => { q with tx := [tx1] }, by decide +kernel⟩,
   ⟨1, tUp, by decide +kernel⟩,
   ⟨1, tUp.put R.FP_CFG_EN 0 1, by decide +kernel⟩,
   ⟨1, tEth, by decide +kernel⟩,
   ⟨2, 5, true, false, [], tUp, by decide +kernel⟩,
   ⟨2, 0, [1#8], tUp.put R.FP_CFG_EN 1 2, by decide +kernel⟩⟩

theorem wit_CryptoAccelerator :
    (∃ (m : Nat) (k : Nat) (s : State), k < 24) ∧
    (∃ (j : CmJob) (r : List CmJob) (s : State), s.crypto.cm = j :: r) ∧
    (∃ (a : Nat) (r : List Nat) (s : State), s.crypto.cm = [] ∧ s.crypto.sv = a :: r) ∧
    (∃ (s : State), s.crypto.cm = [] ∧ s.crypto.sv = []) :=
  ⟨⟨6, 2, tUp.setKey 2 (List.replicate 32 5#8), by decide +kernel⟩,
   ⟨{ sess := 3, seq := 4, bytes := [] }, [], { tUp with crypto := { tUp.crypto with cm := [{ sess := 3, seq := 4, bytes := [] }] } }, by decide +kernel⟩,
   ⟨0x02000000, [], { tUp with crypto := { tUp.crypto with sv := [0x02000000] } }, by decide +kernel⟩,
   ⟨tUp, by decide +kernel⟩⟩

theorem wit_DriveDies :
    (∃ (n : Fin 8) (c : DieMsg) (t : Nat) (l : List (DieMsg × Nat)) (s : State), (s.die n).cmds = (c, t) :: l) ∧
    (∃ (n : Fin 8) (s : State), (s.die n).cmds = []) :=
  ⟨⟨1, .edge .on, 80, [], tUp.upDie 1 fun d => { d with cmds := [(.edge .on, 80)] }, by decide +kernel⟩,
   ⟨1, tUp, by decide +kernel⟩⟩

theorem wit_PwmAndChopper :
    (∃ (k : Fin 5) (v : Word) (s : State), s.inRun = true) ∧
    (∃ (k : Fin 5) (v : Word) (s : State), s.inRun = false ∧ k = 3) ∧
    (∃ (k : Fin 5) (v : Word) (s : State), s.inRun = false ∧ k ≠ 3) ∧
    (∃ (k : Fin 4) (v : Word) (s : State), s.is R.GDRV_BIND_EN (if k = 3 then 4 else k) = false) ∧
    (∃ (k : Fin 4) (v : Word) (s : State), s.is R.GDRV_BIND_EN (if k = 3 then 4 else k) = true) ∧
    (∃ (l : Fin 3) (d : Nat) (t : Nat) (s : State), Store.find l.val s.pwm.dead = some (d, t)) ∧
    (∃ (l : Fin 3) (s : State), Store.find l.val s.pwm.dead = none) ∧
    (∃ (s : State), s.is R.GDRV_PWM_CTL_RUN = true) ∧
    (∃ (s : State), s.is R.GDRV_PWM_CTL_RUN = false) ∧
    (∃ (s : State), s.is R.GDRV_PWM_CTL_RUN = true) :=
  ⟨⟨1, 0x8005#32, tUp, by decide +kernel⟩,
   ⟨3, 0x8005#32, State.reset, by decide +kernel⟩,
   ⟨1, 0x8005#32, State.reset, by decide +kernel⟩,
   ⟨1, 0x10001#32, tUp, by decide +kernel⟩,
   ⟨1, 5#32, tUp.put R.GDRV_BIND_EN 1 1, by decide +kernel⟩,
   ⟨1, 3, 2000, { tUp with pwm := { tUp.pwm with dead := [(1, 3, 2000)] } }, by decide +kernel⟩,
   ⟨1, tUp, by decide +kernel⟩,
   ⟨tUp.put R.GDRV_PWM_CTL_RUN 1, by decide +kernel⟩,
   ⟨tUp, by decide +kernel⟩,
   ⟨tUp.put R.GDRV_PWM_CTL_RUN 1, by decide +kernel⟩⟩

theorem wit_ComparatorRolls :
    (∃ (c : Fin 32) (st : Nat) (s : State), s.rollRefused c = some st) ∧
    (∃ (c : Fin 32) (s : State), s.rollRefused c = none) ∧
    (∃ (out : Bool) (r : RollSt) (s : State), s.dlnk.roll = some r) ∧
    (∃ (out : Bool) (s : State), s.dlnk.roll = none) :=
  ⟨⟨31, 0x14, tUp, by decide +kernel⟩,
   ⟨0x12, tRoll, by decide +kernel⟩,
   ⟨true, roll1, { tUp with dlnk := { tUp.dlnk with roll := some roll1 } }, by decide +kernel⟩,
   ⟨true, tUp, by decide +kernel⟩⟩

theorem wit_BrickTransfers :
    (∃ (err : Fin 4) (d : List Byte) (s : State), s.brick.xfer = 1 ∧ s.brick.waitRetry = false) ∧
    (∃ (err : Fin 4) (d : List Byte) (s : State), (s.brick.xfer ≠ 1 ∨ s.brick.waitRetry = true)) ∧
    (∃ (err : Fin 8) (id : List Byte) (bad : Fin 3) (s : State), s.brick.xfer = 2 ∧ s.brick.waitRetry = false) ∧
    (∃ (err : Fin 8) (id : List Byte) (bad : Fin 3) (s : State), (s.brick.xfer ≠ 2 ∨ s.brick.waitRetry = true)) :=
  ⟨⟨1, [], { tUp with brick := { tUp.brick with xfer := 1 } }, by decide +kernel⟩,
   ⟨1, [], tUp, by decide +kernel⟩,
   ⟨7, [], 0, { tUp with brick := { tUp.brick with xfer := 2 } }, by decide +kernel⟩,
   ⟨0, [], 0, tUp, by decide +kernel⟩⟩

theorem wit_AnalogOutputs :
    (∃ (n : Fin 8) (c : Nat) (s : State), (s.aoSt n).wait = some c) ∧
    (∃ (n : Fin 8) (s : State), (s.aoSt n).wait = none) ∧
    (∃ (k : Fin 8) (e : Nat) (s : State), s.armErr k = some e) ∧
    (∃ (k : Fin 8) (s : State), s.armErr k = none) :=
  ⟨⟨1, 9, tUp.upAo 1 fun a => { a with wait := some 9, last := some 100 }, by decide +kernel⟩,
   ⟨1, tUp, by decide +kernel⟩,
   ⟨1, 1, tUp, by decide +kernel⟩,
   ⟨5, tWave 5, by decide +kernel⟩⟩

theorem wit_DigitalFieldIo :
    (∃ (raw : Nat) (f : Nat) (k : Nat) (s : State), ((List.range 32).all fun n => match s.diIn raw n with | some d => decide (k < d) | none => true) = true) ∧
    (∃ (raw : Nat) (f : Nat) (k : Nat) (n : Nat) (s : State), n < 32 ∧ bit raw n ≠ bit (s.get R.DIO_DI_STATE_S) n ∧ ((List.range 32).all fun m => m == n || bit raw m == bit (s.get R.DIO_DI_STATE_S) m) = true ∧ (max 1 (s.get R.DIO_DB_US n - s.dio.cnt.getD n 0)) ≤ k) ∧
    (∃ (raw : Nat) (k : Nat) (n : Nat) (s : State), n < 32) ∧
    (∃ (hot : Nat) (w : WalkStep) (r : List WalkStep) (s : State), s.dio.walk = w :: r) ∧
    (∃ (hot : Nat) (s : State), s.dio.walk = []) :=
  ⟨⟨0, 0, 5, tUp, by decide +kernel⟩,
   ⟨32, 0, 5000, 5, tUp, by decide +kernel⟩,
   ⟨0, 5, 5, tUp, by decide +kernel⟩,
   ⟨0, .out 3, [.inp 5], { tUp with dio := { tUp.dio with walk := [.out 3, .inp 5] } }, by decide +kernel⟩,
   ⟨0, tUp, by decide +kernel⟩⟩

theorem wit_KeepQueueAndLog : ∃ (b : Nat) (s : State), s.keep.cut = none :=
  ⟨1, tUp, by decide +kernel⟩

theorem wit_RingsAndCounters :
    (∃ (r : Fin 32) (v : Nat) (s : State), s.keep.cut = none) ∧
    (∃ (c : Nat) (g : Nat) (x : Nat) (q : Nat) (i : Nat) (l : List Nat) (s : State), s.keep.cut = none ∧ s.scActive c = some (g, x, q) ∧ s.scBits c g = i :: l) ∧
    (∃ (c : Nat) (g : Nat) (x : Nat) (q : Nat) (v : Nat) (s : State), s.scActive c = some (g, x, q)) ∧
    (∃ (c : Nat) (g : Nat) (x : Nat) (q : Nat) (v : Nat) (s : State), s.scActive c = some (g, x, q) ∧ s.scBits c g = []) ∧
    (∃ (c : Nat) (v : Nat) (s : State), s.scActive c = none) :=
  ⟨⟨3, 5, tUp, by decide +kernel⟩,
   ⟨3, 0, 7, 0, 1, (List.range 256).drop 2, tCount, by decide +kernel⟩,
   ⟨3, 0, 7, 0, 5, tCount, by decide +kernel⟩,
   ⟨3, 0, 7, 0, 5, tCount.setArr 0x30320 (List.replicate 32 0#8), by decide +kernel⟩,
   ⟨3, 5, tUp, by decide +kernel⟩⟩

theorem wit_ModeRequests :
    (∃ (m : Nat) (r : Nat) (s : State), m < 3 ∧ s.modeRefused m = some r) ∧
    (∃ (m : Nat) (s : State), m < 3 ∧ s.modeRefused m = none) ∧
    (∃ (m : Nat) (s : State), 3 ≤ m) :=
  ⟨⟨2, 0x13, tUp, by decide +kernel⟩,
   ⟨1, tUp, by decide +kernel⟩,
   ⟨3, tUp, by decide +kernel⟩⟩

theorem wit_LanternFrames : ∃ (f : List Byte) (d : List Byte) (tag : Nat) (s : State), lanParse f = some (0x01, tag, d) ∧ lanWellFormed 0x01 d = true ∧ s.wireUp = true :=
  ⟨lanFrame 0x01 9 (List.replicate 16 0#8), (List.replicate 16 0#8), 9, tLan1, by decide +kernel⟩

theorem wit_MonitorRequests :
    (∃ (p : Fin 6) (m : Msg) (s : State), s.fronts p m = true) ∧
    (∃ (s : State), (fun (c : Nat) => s.halted 4 || s.upd.hand || match s.lan.queue with | [] => true | q :: _ => q.code != c) 0x0201 = true) ∧
    (∃ (s : State), (fun (c : Nat) => s.halted 4 || s.upd.hand || match s.lan.queue with | [] => true | q :: _ => q.code != c) 0x0202 = true) ∧
    (∃ (s : State), (fun (c : Nat) => s.halted 4 || s.upd.hand || match s.lan.queue with | [] => true | q :: _ => q.code != c) 0x0203 = true) ∧
    (∃ (s : State), (fun (c : Nat) => s.halted 4 || s.upd.hand || match s.lan.queue with | [] => true | q :: _ => q.code != c) 0x0204 = true) ∧
    (∃ (s : State), (fun (c : Nat) => s.halted 4 || s.upd.hand || match s.lan.queue with | [] => true | q :: _ => q.code != c) 0x0205 = true) ∧
    (∃ (s : State), (fun (c : Nat) => s.halted 4 || s.upd.hand || match s.lan.queue with | [] => true | q :: _ => q.code != c) 0x0206 = true) ∧
    (∃ (s : State), (fun (c : Nat) => s.halted 4 || s.upd.hand || match s.lan.queue with | [] => true | q :: _ => q.code != c) 0x0207 = true) ∧
    (∃ (s : State), (fun (c : Nat) => s.halted 4 || s.upd.hand || match s.lan.queue with | [] => true | q :: _ => q.code != c) 0x0208 = true) ∧
    (∃ (s : State), (fun (c : Nat) => s.halted 4 || s.upd.hand || match s.lan.queue with | [] => true | q :: _ => q.code != c) 0x0209 = true) ∧
    (∃ (s : State), (fun (c : Nat) => s.halted 4 || s.upd.hand || match s.lan.queue with | [] => true | q :: _ => q.code != c) 0x020A = true) ∧
    (∃ (s : State), (fun (c : Nat) => s.halted 4 || s.upd.hand || match s.lan.queue with | [] => true | q :: _ => q.code != c) 0x020B = true) ∧
    (∃ (s : State), (fun (c : Nat) => s.halted 4 || s.upd.hand || match s.lan.queue with | [] => true | q :: _ => q.code != c) 0x020C = true) ∧
    (∃ (q : MonReq) (l : List MonReq) (s : State), s.halted 4 = false ∧ s.upd.hand = false ∧ s.lan.queue = q :: l ∧ q.code = 0x0201) ∧
    (∃ (q : MonReq) (l : List MonReq) (s : State), s.halted 4 = false ∧ s.upd.hand = false ∧ s.lan.queue = q :: l ∧ q.code = 0x0202) ∧
    (∃ (q : MonReq) (l : List MonReq) (s : State), s.halted 4 = false ∧ s.upd.hand = false ∧ s.lan.queue = q :: l ∧ q.code = 0x0203) ∧
    (∃ (q : MonReq) (l : List MonReq) (s : State), s.halted 4 = false ∧ s.upd.hand = false ∧ s.lan.queue = q :: l ∧ q.code = 0x0204) ∧
    (∃ (q : MonReq) (l : List MonReq) (s : State), s.halted 4 = false ∧ s.upd.hand = false ∧ s.lan.queue = q :: l ∧ q.code = 0x0205) ∧
    (∃ (q : MonReq) (l : List MonReq) (s : State), s.halted 4 = false ∧ s.upd.hand = false ∧ s.lan.queue = q :: l ∧ q.code = 0x0206) ∧
    (∃ (q : MonReq) (l : List MonReq) (s : State), s.halted 4 = false ∧ s.upd.hand = false ∧ s.lan.queue = q :: l ∧ q.code = 0x0207) ∧
    (∃ (q : MonReq) (l : List MonReq) (s : State), s.halted 4 = false ∧ s.upd.hand = false ∧ s.lan.queue = q :: l ∧ q.code = 0x0208) ∧
    (∃ (q : MonReq) (l : List MonReq) (s : State), s.halted 4 = false ∧ s.upd.hand = false ∧ s.lan.queue = q :: l ∧ q.code = 0x0209) ∧
    (∃ (q : MonReq) (l : List MonReq) (s : State), s.halted 4 = false ∧ s.upd.hand = false ∧ s.lan.queue = q :: l ∧ q.code = 0x020A) ∧
    (∃ (q : MonReq) (l : List MonReq) (s : State), s.halted 4 = false ∧ s.upd.hand = false ∧ s.lan.queue = q :: l ∧ q.code = 0x020B) ∧
    (∃ (q : MonReq) (l : List MonReq) (s : State), s.halted 4 = false ∧ s.upd.hand = false ∧ s.lan.queue = q :: l ∧ q.code = 0x020C) :=
  ⟨⟨1, mMsg false 3 0 [1#8, 2#8, 0#8, 0#8], tMsg (mMsg false 3 0 [1#8, 2#8, 0#8, 0#8]), by decide +kernel⟩,
   ⟨tUp, by decide +kernel⟩,
   ⟨tUp, by decide +kernel⟩,
   ⟨tUp, by decide +kernel⟩,
   ⟨tUp, by decide +kernel⟩,
   ⟨tUp, by decide +kernel⟩,
   ⟨tUp, by decide +kernel⟩,
   ⟨tUp, by decide +kernel⟩,
   ⟨tUp, by decide +kernel⟩,
   ⟨tUp, by decide +kernel⟩,
   ⟨tUp, by decide +kernel⟩,
   ⟨tUp, by decide +kernel⟩,
   ⟨tUp, by decide +kernel⟩,
   ⟨{ from_ := none, code := 0x0201, arg := [0#8, 0#8, 0#8, 2#8, 4#8, 2#8, 0#8, 0#8] }, [], tMon { from_ := none, code := 0x0201, arg := [0#8, 0#8, 0#8, 2#8, 4#8, 2#8, 0#8, 0#8] }, by decide +kernel⟩,
   ⟨{ from_ := none, code := 0x0202, arg := [0#8, 0#8, 0#8, 2#8, 1#8, 2#8, 0#8, 0#8, 5#8, 6#8] }, [], tMon { from_ := none, code := 0x0202, arg := [0#8, 0#8, 0#8, 2#8, 1#8, 2#8, 0#8, 0#8, 5#8, 6#8] }, by decide +kernel⟩,
   ⟨{ from_ := none, code := 0x0203, arg := [3#8, 1#8] }, [], tMon { from_ := none, code := 0x0203, arg := [3#8, 1#8] }, by decide +kernel⟩,
   ⟨{ from_ := none, code := 0x0204, arg := [3#8] }, [], tMon { from_ := none, code := 0x0204, arg := [3#8] }, by decide +kernel⟩,
   ⟨{ from_ := none, code := 0x0205, arg := [3#8] }, [], tMon { from_ := none, code := 0x0205, arg := [3#8] }, by decide +kernel⟩,
   ⟨{ from_ := none, code := 0x0206, arg := [1#8, 0#8, 0#8, 1#8, 2#8] }, [], tMon { from_ := none, code := 0x0206, arg := [1#8, 0#8, 0#8, 1#8, 2#8] }, by decide +kernel⟩,
   ⟨{ from_ := none, code := 0x0207, arg := [1#8, 0#8, 0#8, 1#8, 2#8, 3#8, 4#8, 5#8] }, [], tMon { from_ := none, code := 0x0207, arg := [1#8, 0#8, 0#8, 1#8, 2#8, 3#8, 4#8, 5#8] }, by decide +kernel⟩,
   ⟨{ from_ := none, code := 0x0208, arg := [1#8, 2#8, 4#8, 5#8, 6#8, 7#8] }, [], tMon { from_ := none, code := 0x0208, arg := [1#8, 2#8, 4#8, 5#8, 6#8, 7#8] }, by decide +kernel⟩,
   ⟨{ from_ := none, code := 0x0209, arg := [1#8, 3#8, 7#8, 0#8, 9#8] }, [], tMon { from_ := none, code := 0x0209, arg := [1#8, 3#8, 7#8, 0#8, 9#8] }, by decide +kernel⟩,
   ⟨{ from_ := none, code := 0x020A, arg := [] }, [], tMon { from_ := none, code := 0x020A, arg := [] }, by decide +kernel⟩,
   ⟨{ from_ := none, code := 0x020B, arg := [0#8, 0#8, 0#8] }, [], tMon { from_ := none, code := 0x020B, arg := [0#8, 0#8, 0#8] }, by decide +kernel⟩,
   ⟨{ from_ := none, code := 0x020C, arg := [] }, [], tMon { from_ := none, code := 0x020C, arg := [] }, by decide +kernel⟩⟩

theorem wit_FirmwareReplacement :
    (∃ (p : Fin 6) (m : Msg) (s : State), s.fronts p m = true ∧ isCmd 0x0701 m = true) ∧
    (∃ (p : Fin 6) (m : Msg) (s : State), s.fronts p m = true ∧ isCmd 0x0702 m = true) ∧
    (∃ (p : Fin 6) (m : Msg) (s : State), s.fronts p m = true ∧ isCmd 0x0703 m = true) ∧
    (∃ (p : Fin 6) (m : Msg) (s : State), s.fronts p m = true ∧ isCmd 0x0704 m = true) ∧
    (∃ (p : Fin 6) (m : Msg) (s : State), s.fronts p m = true ∧ isCmd 0x0705 m = true) ∧
    (∃ (p : Fin 6) (m : Msg) (s : State), s.fronts p m = true ∧ isCmd 0x0706 m = true) ∧
    (∃ (p : Fin 6) (m : Msg) (s : State), s.fronts p m = true ∧ isCmd 0x0707 m = true) ∧
    (∃ (p : Fin 6) (m : Msg) (s : State), s.fronts p m = true ∧ isCmd 0x0708 m = true) ∧
    (∃ (n : FwHeader) (s : State), s.header s.otherBank = some n) ∧
    (∃ (s : State), s.header s.otherBank = none) :=
  ⟨⟨1, mMsg false 3 0 [1#8, 7#8, 0#8, 0#8], tMsg (mMsg false 3 0 [1#8, 7#8, 0#8, 0#8]), by decide +kernel⟩,
   ⟨1, mMsg false 3 0 [2#8, 7#8, 0#8, 0#8], tMsg (mMsg false 3 0 [2#8, 7#8, 0#8, 0#8]), by decide +kernel⟩,
   ⟨1, mMsg false 3 0 [3#8, 7#8, 0#8, 0#8], tMsg (mMsg false 3 0 [3#8, 7#8, 0#8, 0#8]), by decide +kernel⟩,
   ⟨1, mMsg false 3 0 [4#8, 7#8, 0#8, 0#8], tMsg (mMsg false 3 0 [4#8, 7#8, 0#8, 0#8]), by decide +kernel⟩,
   ⟨1, mMsg false 3 0 [5#8, 7#8, 0#8, 0#8], tMsg (mMsg false 3 0 [5#8, 7#8, 0#8, 0#8]), by decide +kernel⟩,
   ⟨1, mMsg false 3 0 [6#8, 7#8, 0#8, 0#8], tMsg (mMsg false 3 0 [6#8, 7#8, 0#8, 0#8]), by decide +kernel⟩,
   ⟨1, mMsg false 3 0 [7#8, 7#8, 0#8, 0#8], tMsg (mMsg false 3 0 [7#8, 7#8, 0#8, 0#8]), by decide +kernel⟩,
   ⟨1, mMsg false 3 0 [8#8, 7#8, 0#8, 0#8], tMsg (mMsg false 3 0 [8#8, 7#8, 0#8, 0#8]), by decide +kernel⟩,
   ⟨hdr0, tHand, by decide +kernel⟩,
   ⟨tUp, by decide +kernel⟩⟩

theorem wit_TurnAndModeEffects :
    (∃ (t : Nat) (s : State), s.time.nextTick = some t ∧ s.phase = .up ∧ s.seq.inLatch = false) ∧
    (∃ (t : Nat) (s : State), s.time.nextTick = some t ∧ s.phase = .up ∧ s.seq.inLatch = false ∧ 0 < ((((s.svCatchUp.pubLate.tickStart t).tickEvents.dlnkTick.lifeTick t).roleTick t (s.svCatchUp.pubLate.tickStart t).tickEvents.seq.abs ((s.svCatchUp.pubLate.tickStart t).tickEvents.stepDue t).isSome).dictApplied.waveTick).period ∧ 10 * ((((s.svCatchUp.pubLate.tickStart t).tickEvents.dlnkTick.lifeTick t).roleTick t (s.svCatchUp.pubLate.tickStart t).tickEvents.seq.abs ((s.svCatchUp.pubLate.tickStart t).tickEvents.stepDue t).isSome).dictApplied.waveTick).get R.TURN_PHASE_PHI ≤ t) ∧
    (∃ (s : State), s.seq.inLatch = true ∧ s.inv = true) ∧
    (∃ (s : State), s.seq.inLatch = true ∧ s.inv = true ∧ ((if ({ ((if (s.advance s.seq.latchAt).lead then (s.advance s.seq.latchAt).leadRecord else (s.advance s.seq.latchAt)).imageSwap.raise 17 ((if (s.advance s.seq.latchAt).lead then (s.advance s.seq.latchAt).leadRecord else (s.advance s.seq.latchAt)).get R.TURN_COUNT_COUNT)) with rfl := { ((if (s.advance s.seq.latchAt).lead then (s.advance s.seq.latchAt).leadRecord else (s.advance s.seq.latchAt)).imageSwap.raise 17 ((if (s.advance s.seq.latchAt).lead then (s.advance s.seq.latchAt).leadRecord else (s.advance s.seq.latchAt)).get R.TURN_COUNT_COUNT)).rfl with latchT := ((if (s.advance s.seq.latchAt).lead then (s.advance s.seq.latchAt).leadRecord else (s.advance s.seq.latchAt)).imageSwap.raise 17 ((if (s.advance s.seq.latchAt).lead then (s.advance s.seq.latchAt).leadRecord else (s.advance s.seq.latchAt)).get R.TURN_COUNT_COUNT)).time.real } }).following then [0, 1, 2, 3].foldl (fun q e => State.turnBegin e q) ({ ((if (s.advance s.seq.latchAt).lead then (s.advance s.seq.latchAt).leadRecord else (s.advance s.seq.latchAt)).imageSwap.raise 17 ((if (s.advance s.seq.latchAt).lead then (s.advance s.seq.latchAt).leadRecord else (s.advance s.seq.latchAt)).get R.TURN_COUNT_COUNT)) with rfl := { ((if (s.advance s.seq.latchAt).lead then (s.advance s.seq.latchAt).leadRecord else (s.advance s.seq.latchAt)).imageSwap.raise 17 ((if (s.advance s.seq.latchAt).lead then (s.advance s.seq.latchAt).leadRecord else (s.advance s.seq.latchAt)).get R.TURN_COUNT_COUNT)).rfl with latchT := ((if (s.advance s.seq.latchAt).lead then (s.advance s.seq.latchAt).leadRecord else (s.advance s.seq.latchAt)).imageSwap.raise 17 ((if (s.advance s.seq.latchAt).lead then (s.advance s.seq.latchAt).leadRecord else (s.advance s.seq.latchAt)).get R.TURN_COUNT_COUNT)).time.real } }) else ({ ((if (s.advance s.seq.latchAt).lead then (s.advance s.seq.latchAt).leadRecord else (s.advance s.seq.latchAt)).imageSwap.raise 17 ((if (s.advance s.seq.latchAt).lead then (s.advance s.seq.latchAt).leadRecord else (s.advance s.seq.latchAt)).get R.TURN_COUNT_COUNT)) with rfl := { ((if (s.advance s.seq.latchAt).lead then (s.advance s.seq.latchAt).leadRecord else (s.advance s.seq.latchAt)).imageSwap.raise 17 ((if (s.advance s.seq.latchAt).lead then (s.advance s.seq.latchAt).leadRecord else (s.advance s.seq.latchAt)).get R.TURN_COUNT_COUNT)).rfl with latchT := ((if (s.advance s.seq.latchAt).lead then (s.advance s.seq.latchAt).leadRecord else (s.advance s.seq.latchAt)).imageSwap.raise 17 ((if (s.advance s.seq.latchAt).lead then (s.advance s.seq.latchAt).leadRecord else (s.advance s.seq.latchAt)).get R.TURN_COUNT_COUNT)).time.real } }))).inRun = false) ∧
    (∃ (m : Nat) (s : State), s.following = false ∧ s.phase ≠ .standby) ∧
    (∃ (m : Nat) (s : State), s.following = false ∧ s.phase ≠ .standby ∧ m = 1 ∧ (s.inRun = false ∨ ((∀ e < 4, (s.prgSt e).at_ = none) ∧ s.upd.at_ = none))) ∧
    (∃ (m : Nat) (s : State), s.following = false ∧ s.phase ≠ .standby ∧ m = 2 ∧ s.is R.TURN_CTL_EN = true ∧ s.inRun = true ∧ (s.inRun = false ∨ ((∀ e < 4, (s.prgSt e).at_ = none) ∧ s.upd.at_ = none))) ∧
    (∃ (m : Nat) (s : State), s.following = false ∧ s.phase ≠ .standby ∧ m = 0 ∧ s.tableCheck = none ∧ s.get R.GDRV_CP_CP ≠ 0 ∧ s.period % s.get R.GDRV_CP_CP = 0 ∧ (∀ n < 48, s.is R.TSK_CFG_EN n = true → (s.prgSt (s.tEng n)).loaded = true) ∧ s.is R.TURN_CTL_EN = true ∧ (s.get R.EXC_STAT_DEVCAUSE = 0 ∨ 6 ≤ s.get R.EXC_STAT_DEVCAUSE) ∧ bit (s.get R.EXC_UCSET_DEV) 1 = false) ∧
    (∃ (s : State), s.keep.waits = [] ∧ s.keep.pfail = false ∧ s.keep.late = [] ∧ (∀ r ∈ s.keep.queue.head?, r ≠ .save none) ∧ s.keepLen < 60 ∧ s.keepBytes + 1 ≤ 15360 ∧ s.log.queue = [] ∧ s.log.lostSince = 0) ∧
    (∃ (s : State), s.pwr.standby = true ∧ s.inRun = false ∧ s.phase = .up ∧ s.brick.xfer = 0 ∧ s.pwr.wbDue = false ∧ s.keepLen = 0) ∧
    (∃ (r : Fin 8) (v : Word) (s : State), (fun a : Nat => (s.judge r (s.reqPriv r) 1 a).ok = true) 0x10004010) ∧
    (∃ (r : Fin 8) (v : Word) (s : State), (fun a : Nat => (s.judge r (s.reqPriv r) 1 a).ok = true) 0x1002100C) ∧
    (∃ (r : Fin 8) (v : Word) (s : State), (fun a : Nat => (s.judge r (s.reqPriv r) 1 a).ok = true) 0x1002B000 ∧ s.pwr.linkLost = false ∧ s.domGone 42 = false) ∧
    (∃ (r : Fin 8) (v : Word) (s : State), (fun a : Nat => (s.judge r (s.reqPriv r) 1 a).ok = true) 0x1000400C) :=
  ⟨⟨1000000, tTick, by decide +kernel⟩,
   ⟨1000000, tTick, by decide +kernel⟩,
   ⟨tLatch, by decide +kernel⟩,
   ⟨tLatch, by decide +kernel⟩,
   ⟨1, tTick, by decide +kernel⟩,
   ⟨1, tTick, by decide +kernel⟩,
   ⟨2, tUp.put R.TURN_CTL_EN 1, by decide +kernel⟩,
   ⟨0, tTick.put R.TURN_CTL_EN 1, by decide +kernel⟩,
   ⟨tUp, by decide +kernel⟩,
   ⟨{ tTick with pwr := { tTick.pwr with standby := true } }, by decide +kernel⟩,
   ⟨4, 5#32, tUp, by decide +kernel⟩,
   ⟨4, 5#32, tUp, by decide +kernel⟩,
   ⟨4, 5#32, tUp, by decide +kernel⟩,
   ⟨4, 5#32, tUp, by decide +kernel⟩⟩

theorem wit_StepKeepsInvariant : ∃ (s t : State), s.inv = true ∧ step s = .next t :=
  ⟨State.reset, _, by decide +kernel, rfl⟩

theorem wit_CommandsLeaveTheQueue : ∃ (c : Instr) (s t : State), s.inv = true ∧ exec c s = .next t :=
  ⟨.walkAbort, State.reset, _, by decide +kernel, rfl⟩

theorem wit_EmptyQueue : ∃ (s : State), s.pending = [] :=
  ⟨State.reset, by decide +kernel⟩

theorem wit_MemoryBytes :
    (∃ (a b : Nat) (l : List Byte) (s : State), (b < a ∨ a + l.length ≤ b)) ∧
    (∃ (a : Nat) (l : List Byte) (v : Word) (s : State), Memory.wf s = true) :=
  ⟨⟨4, 9, [1#8, 2#8], tUp, by decide +kernel⟩,
   ⟨4, [1#8], 5#32, tUp, by decide +kernel⟩⟩

theorem wit_UnitFrame : ∃ (c : Instr) (e : Fin 5) (v : Word) (s t : State), c ∈ [Instr.aluAdd e v, Instr.aluSub e v, Instr.aluAnd e v, Instr.aluOr e v, Instr.aluXor e v, Instr.aluAndn e v, Instr.aluShl e v, Instr.aluShr e v, Instr.aluSar e v, Instr.aluRol e v, Instr.aluMin e v, Instr.aluMax e v, Instr.aluMinu e v, Instr.aluMaxu e v, Instr.aluAdds e v, Instr.aluSubs e v, Instr.aluAbs e v, Instr.aluNeg e v, Instr.aluSxt e v, Instr.aluClz e v, Instr.cmpEq e v, Instr.cmpNe e v, Instr.cmpLt e v, Instr.cmpLe e v, Instr.cmpGt e v, Instr.cmpGe e v, Instr.cmpLtu e v, Instr.cmpGeu e v, Instr.cmpEqa e v, Instr.cmpLta e v, Instr.cmpLea e v, Instr.cmpLtua e v, Instr.cmpLeua e v, Instr.mulMuls e v, Instr.mulMulu e v, Instr.mulMulq31 e v, Instr.divDivs e v, Instr.divDivu e v] ∧ s.plain e = true ∧ ((s.eng e).dueAt (s.eng e).cyc).all (fun f => f.ev.isNone) = true ∧ exec c s = .next t :=
  ⟨.aluAdd 0 5#32, 0, 5#32, tRun 0, _, by simp, by decide +kernel, by decide +kernel, rfl⟩

theorem wit_RegisterFrame : ∃ (c : Instr) (k : Nat) (n : Fin 16) (p : Fin 8) (b : Bool) (v : Word) (s t : State), c ∈ [Instr.ocLatchClear k, Instr.sadcFifoPop n, Instr.sadcImgWrite v, Instr.dioIbindWrite v, Instr.waveStop p, Instr.vfldCutoff b, Instr.passwordBlockEnd, Instr.recFind b v, Instr.logUnpin, Instr.gdrvDtWrite v, Instr.gdrvCpWrite v, Instr.gdrvLoad p, Instr.millerClampEngage p, Instr.lanternInvalidCell, Instr.lanternFrameTimeout, Instr.lanternBreak, Instr.logAppend k k 5 b, Instr.dlnkChbindWrite v] ∧ exec c s = .next t :=
  ⟨.vfldCutoff true, 0, 0, 0, true, 0, State.reset, _, by simp, rfl⟩

theorem wit_SlotFields : ∃ (g d i p : Nat) (acc : Bool), g < 4 ∧ d < 2048 ∧ i < 2 ^ 18 ∧ p < 2048 :=
  ⟨2, 5, 77, 0x0C0, true, by decide +kernel⟩

theorem wit_ControlEntriesRoundTrip : ∃ (l : List CtrlEnt), (∀ c ∈ l, c.addr < 2 ^ 32 ∧ c.kind < 256 ∧ c.data.length < 65536 ∧ c.req = 6) :=
  ⟨[{ addr := 0x02000000, kind := 1, data := [1#8, 2#8, 3#8, 4#8, 5#8] }], by decide +kernel⟩

/-! ## Values that the spec gives -/

/-- The invariant holds at reset. -/
theorem test_reset_inv : State.reset.inv = true := by decide +kernel
/-- The check values of CRC-32 (04, R125) and CRC-16/CCITT-FALSE (25, R596). -/
theorem test_crc32 : crc32 [0x31#8, 0x32#8, 0x33#8, 0x34#8, 0x35#8, 0x36#8, 0x37#8, 0x38#8, 0x39#8] = 0xCBF43926 := by decide +kernel
theorem test_crc16 : crc16 [0x31#8, 0x32#8, 0x33#8, 0x34#8, 0x35#8, 0x36#8, 0x37#8, 0x38#8, 0x39#8] = 0x29B1 := by decide +kernel
/-- The word of a valid sample of channel 3 of value -1 (18, R460). -/
theorem test_sampleWord : sampleWord 3 0 (-1) = 0x83FFFFFF := by decide
/-- An empty macro slot moves nothing; a port move has its fields (03, R59). -/
theorem test_slot : slotMove 0x03080001 = { guard := 0, src := .port 1, dst := 0x0C2, raw := 0x03080001 } := by decide
/-- A turn period is given in 10 ns (02, R37): 250 µs at reset. -/
theorem test_period : State.reset.period = 25000 := by decide +kernel
/-- A carrier period of 62.5 µs divides the reset period and is taken; one of an odd count is not (15, R405). -/
theorem test_carrierPeriod : State.reset.inRun = false ∧ 25000 % 6250 = 0 := by decide +kernel
/-- The window of the Keep store wraps in its page (21, R512). -/
theorem test_wrapPage : wrapPage 0x1FE 3 = 0x101 := by decide

end Sys2Proof.Machine
end

section
/-! PROOFS. Words as bytes, the bytes of the memories (O55), and the writes of registers (O47). -/

namespace Sys2Proof.Machine

/-! ## Words as bytes (00, R6) -/

@[simp] theorem leBytes_length (n x : Nat) : (leBytes n x).length = n := by
  induction n generalizing x with
  | zero => rfl
  | succ n ih => simp [leBytes, ih]

/-- `n` low-byte-first bytes spell the number cut to `n` bytes. -/
theorem leNat_leBytes (n x : Nat) : leNat (leBytes n x) = x % 256 ^ n := by
  induction n generalizing x with
  | zero => simp [leBytes, leNat, Nat.mod_one]
  | succ n ih =>
    have hsplit : x % 256 ^ (n + 1) = x % 256 + 256 * (x / 256 % 256 ^ n) := by rw [Nat.pow_succ', Nat.mod_mul]
    rw [leBytes, leNat, ih, BitVec.toNat_ofNat, hsplit]

theorem leNat_leBytes_word (v : Word) : leNat (leBytes 4 v.toNat) = v.toNat := by
  rw [leNat_leBytes]
  exact Nat.mod_eq_of_lt v.isLt

/-! ## The bytes of the memories -/

theorem State.norBytes_setNor_out (s : State) (a a' n : Nat) (l : List Byte) (h : a' + n ≤ a ∨ a + l.length ≤ a') :
    (s.setNor a l).norBytes a' n = s.norBytes a' n :=
  cellsGet_cellsPut_out 0xFF#8 a a' n l s.nor h

theorem State.arrBytes_setArr_out (s : State) (a a' n : Nat) (l : List Byte) (h : a' + n ≤ a ∨ a + l.length ≤ a') :
    (s.setArr a l).arrBytes a' n = s.arrBytes a' n :=
  cellsGet_cellsPut_out 0xFF#8 a a' n l s.arr h

/-- A store keeps the canonical form: only the SRAM's cells change. -/
theorem State.wf_setMem (s : State) (a : Nat) (l : List Byte) (h : Memory.wf s = true) : Memory.wf (s.setMem a l) = true := by
  simp only [Memory.wf, Bool.and_eq_true] at h ⊢
  obtain ⟨⟨⟨⟨⟨⟨hmem, hback⟩, hwork⟩, hnor⟩, harr⟩, hsnap⟩, hbrick⟩ := h
  exact ⟨⟨⟨⟨⟨⟨cellsWf_cellsPut 0#8 a l hmem, hback⟩, hwork⟩, hnor⟩, harr⟩, hsnap⟩, hbrick⟩

theorem State.mw_setMem_word (s : State) (a : Nat) (v : Word) : (s.setMem a (leBytes 4 v.toNat)).mw a = v.toNat := by
  have hread : (s.setMem a (leBytes 4 v.toNat)).mbs a 4 = leBytes 4 v.toNat := by
    simpa using s.mbs_setMem_same a (leBytes 4 v.toNat)
  rw [State.mw, hread, leNat_leBytes_word]

/-- Settles O55: each memory is a table of cells, so the laws of the cells give every clause. -/
theorem memoryBytes : Obligations.MemoryBytes := by
  unfold Obligations.MemoryBytes
  refine ⟨fun a b l s h => ?_, fun a l v s h => ?_⟩
  · have hout : b + 1 ≤ a ∨ a + l.length ≤ b := h
    exact ⟨s.mb_setMem_out a b l h, s.norBytes_setNor_out a b 1 l hout, s.arrBytes_setArr_out a b 1 l hout⟩
  · exact ⟨s.mbs_setMem_same a l, s.wf_setMem a l h, s.mw_setMem_word a v⟩

/-! ## A write of one whole register word -/

theorem inRange_iff (a lo n : Nat) : inRange a lo n = true ↔ lo ≤ a ∧ a < lo + n := by
  simp [inRange]

theorem slotWords_word {a : Nat} (h : a % 4 = 0) : slotWords a 4 = [a] := by
  simp [slotWords, h]

/-- Four bytes at a word's own address are its value, all lanes enabled. -/
theorem laneWord_word (a : Nat) (b0 b1 b2 b3 : Byte) : laneWord a [b0, b1, b2, b3] a = (leNat [b0, b1, b2, b3], 0xFFFFFFFF) := by
  have hlanes : List.range 4 = [0, 1, 2, 3] := rfl
  have hin : ∀ i < 4, a ≤ a + i ∧ a + i < a + [b0, b1, b2, b3].length := by simp
  rw [laneWord, hlanes]
  simp only [List.foldl_cons, List.foldl_nil, if_pos (hin 0 (by decide)), if_pos (hin 1 (by decide)), if_pos (hin 2 (by decide)),
    if_pos (hin 3 (by decide)), Nat.add_sub_cancel_left]
  refine Prod.mk.injEq .. ▸ ⟨?_, by decide⟩
  simp [leNat]
  omega

theorem laneWord_leBytes (a : Nat) (v : Word) : laneWord a (leBytes 4 v.toNat) a = (v.toNat, 0xFFFFFFFF) :=
  (laneWord_word a _ _ _ _).trans (congrArg (·, 0xFFFFFFFF) (leNat_leBytes_word v))

/-- With all lanes enabled nothing of the old word stays. -/
theorem State.mergeWord_word (s : State) (a : Nat) (v : Word) : s.mergeWord a v.toNat 0xFFFFFFFF = v.toNat := by
  have hv : v.toNat &&& 0xFFFFFFFF = v.toNat :=
    (Nat.and_two_pow_sub_one_eq_mod v.toNat 32).trans (Nat.mod_eq_of_lt v.isLt)
  simp [State.mergeWord, hv]

/-- A whole word is refused by the target, refused for want of room, or taken by its block. -/
theorem State.regWrite_word (hook : BusHook → State → State) (r a : Nat) (v : Word) (s : State) :
    (s.regWrite hook r a v.toNat 0xFFFFFFFF).1 =
      if s.writeStop r a v.toNat ≠ 0 then s
      else if s.ctrlFull a then s.put R.RFL_STAT_DWFULL 1
      else s.blockWrite hook r a v.toNat 0xFFFFFFFF := by
  simp only [State.regWrite, State.mergeWord_word]
  split
  · rfl
  · split <;> rfl

/-- A permitted write of an aligned word in the register slots is the write of that one register. -/
theorem State.targetWrite_registerWord (hook : BusHook → State → State) (r : Nat) {a : Nat} (v : Word) (s : State)
    (ha : inRange a 0x10000000 0x60000 = true) (h4 : a % 4 = 0) :
    (s.targetWrite hook r a (leBytes 4 v.toNat)).1 = (s.regWrite hook r a v.toNat 0xFFFFFFFF).1 := by
  rw [State.targetWrite, if_pos ha, State.slotWrite, leBytes_length, slotWords_word h4, List.foldl_cons, List.foldl_nil]
  simp only [laneWord_leBytes, ha, if_true]

/-- The verdict on a word that a requester writes: Lantern's writes to the checker's own block are not judged (25, R606). -/
def State.checkWord (r a : Nat) (s : State) : State × Bool :=
  if r = 7 ∧ inRange a 0x1000E000 0x1000 = true then (s, true) else s.check r 1 a 4

/-- A word on the bus is judged first; one that is not permitted leaves what the verdict leaves. -/
theorem State.busWriteWith_word (hook : BusHook → State → State) (r a : Nat) (v : Word) (s : State) :
    (s.busWriteWith hook r a (leBytes 4 v.toNat)).1 =
      if (s.checkWord r a).2 = false then (s.checkWord r a).1
      else ((s.checkWord r a).1.targetWrite hook r a (leBytes 4 v.toNat)).1 := by
  unfold State.busWriteWith State.checkWord
  rw [leBytes_length]
  by_cases hchk : r = 7 ∧ inRange a 0x1000E000 0x1000 = true
  · simp [hchk]
  · cases hok : (s.check r 1 a 4).2 <;> simp [hchk, hok]

/-- Settles O47: a word that reaches the bus is judged, then written whole to its register. -/
theorem registerWrites : Obligations.RegisterWrites := by
  unfold Obligations.RegisterWrites
  intro r a v s x
  have h7 : r = 7 ↔ (r : Nat) = 7 := Fin.ext_iff
  have hx : x = s.checkWord r a := by simp only [x, State.checkWord, h7]
  have hexec : exec (.registerWrite r a v) s = .next (opRegisterWrite r a v.toNat s) := rfl
  rw [hexec, opRegisterWrite, State.busWrite, State.busWriteWith_word, ← hx]
  by_cases ha : inRange a 0x10000000 0x60000 = true ∧ a % 4 = 0
  · have hin := (inRange_iff _ _ _).1 ha.1
    have hslot : ¬ (a < 0x10000000 ∨ 0x10060000 ≤ a ∨ a % 4 ≠ 0) := by omega
    rw [if_pos ha, if_neg hslot, State.targetWrite_registerWord _ _ v _ ha.1 ha.2, State.regWrite_word]
    cases x.2 <;> simp
  · have hslot : a < 0x10000000 ∨ 0x10060000 ≤ a ∨ a % 4 ≠ 0 := by
      rw [inRange_iff] at ha; omega
    rw [if_neg ha, if_pos hslot]

end Sys2Proof.Machine
end

section
/-! PROOFS. The fields of a slot (O58). -/

namespace Sys2Proof.Machine

/-! ## Words made of slot fields (03, R59) -/

/-- The number whose slot fields are a guard, the bit I, a destination and the 18 low bits. -/
def slotWord (g : Nat) (i : Bool) (d n : Nat) : Nat := 2 ^ 30 * g + 2 ^ 29 * b2n i + 2 ^ 18 * d + n

theorem slotWord_imm (g d n : Nat) : slotWord g true d n = 2 ^ 30 * g + 2 ^ 29 + 2 ^ 18 * d + n := rfl

theorem slotWord_port (g d n : Nat) : slotWord g false d n = 2 ^ 30 * g + 2 ^ 18 * d + n := rfl

theorem b2n_le_one (b : Bool) : b2n b ≤ 1 := by
  cases b <;> decide

theorem bits_slotWord_guard {g d n : Nat} (i : Bool) (hg : g < 4) (hd : d < 2048) (hn : n < 2 ^ 18) : bits (slotWord g i d n) 30 2 = g := by
  have hi := b2n_le_one i
  rw [bits, slotWord]
  omega

theorem bits_slotWord_dst {g d n : Nat} (i : Bool) (hd : d < 2048) (hn : n < 2 ^ 18) : bits (slotWord g i d n) 18 11 = d := by
  rw [bits, slotWord]
  omega

/-- A field within the 18 low bits is that field of the low bits alone. -/
theorem bits_slotWord_low {g d n lsb width : Nat} (i : Bool) (h : lsb + width ≤ 18) : bits (slotWord g i d n) lsb width = bits n lsb width := by
  have hsplit : slotWord g i d n = n + 2 ^ lsb * (2 ^ width * (2 ^ (18 - (lsb + width)) * (2 ^ 12 * g + 2 ^ 11 * b2n i + d))) := by
    rw [← Nat.mul_assoc, ← Nat.mul_assoc, ← Nat.pow_add, ← Nat.pow_add, Nat.add_sub_cancel' h, slotWord]
    omega
  rw [bits, hsplit, Nat.add_mul_div_left _ _ (Nat.two_pow_pos lsb), Nat.add_mul_mod_self_left, bits]

theorem bit_slotWord {g d n : Nat} (i : Bool) (hd : d < 2048) (hn : n < 2 ^ 18) : bit (slotWord g i d n) 29 = i := by
  have hdiv : slotWord g i d n / 2 ^ 29 % 2 = b2n i := by
    have hi := b2n_le_one i
    rw [slotWord]
    omega
  rw [bit, Nat.testBit_eq_decide_div_mod_eq, hdiv]
  cases i <;> decide

/-- A number below `2 ^ width` is its own lowest field. -/
theorem bits_zero_of_lt {n width : Nat} (h : n < 2 ^ width) : bits n 0 width = n := by
  rw [bits, Nat.pow_zero, Nat.div_one, Nat.mod_eq_of_lt h]

/-- The move of a slot word has the fields that the word is made of. -/
theorem slotMove_slotWord {g d n : Nat} (i : Bool) (hg : g < 4) (hd : d < 2048) (hn : n < 2 ^ 18) :
    slotMove (slotWord g i d n) = { guard := g, src := if i then .imm n else .port (bits n 0 11), dst := d, raw := slotWord g i d n } := by
  rw [slotMove, bits_slotWord_guard i hg hd hn, bit_slotWord i hd hn, bits_slotWord_low i (by decide), bits_slotWord_low i (by decide),
    bits_zero_of_lt hn, bits_slotWord_dst i hd hn]

/-! ## Legality and guards (03, R60, R61) -/

/-- A slot with a port is legal when bits 17 to 11 are 0: nothing else of its encoding is checked. -/
theorem Move.illegal_port_false {g p d w : Nat} (h : bits w 11 7 = 0) : ({ guard := g, src := .port p, dst := d, raw := w } : Move).illegal = false := by
  simp [Move.illegal, h]

theorem Move.passes_iff (m : Move) (acc : Bool) :
    m.passes acc = true ↔ m.guard = 0 ∨ (m.guard = 1 ∧ acc = true) ∨ (m.guard = 2 ∧ acc = false) := by
  simp [Move.passes, or_assoc]

/-- Settles O58: the fields of a slot word do not overlap, so each is read back as it was put in. -/
theorem slotFields : Obligations.SlotFields := by
  unfold Obligations.SlotFields
  intro g d i p acc hg hd hi hp
  have hport11 : p < 2 ^ 11 := hp
  have hlow : p < 2 ^ 18 := by omega
  have himm := slotMove_slotWord true hg hd hi
  have hport := slotMove_slotWord false hg hd hlow
  have hclean : bits (slotWord g false d p) 11 7 = 0 := by
    rw [bits_slotWord_low false (by decide), bits, Nat.div_eq_of_lt hport11, Nat.zero_mod]
  rw [bits_zero_of_lt hport11] at hport
  rw [← slotWord_imm, ← slotWord_port, himm, hport]
  exact ⟨rfl, rfl, Move.illegal_port_false hclean, Move.passes_iff _ acc⟩

end Sys2Proof.Machine
end

section
/-! PROOFS. The bundle of an engine that is behind, against O12 (03, R64; 12, R303). -/

namespace Sys2Proof.Machine

/-- A following Shadow in Run. Engine 0 stands at an empty bundle after 600 cycles of a turn that took the Lead 500: the next turn has not started
on it, and starts with the next bundle. -/
def behindShadow : State :=
  let s := (((State.reset.put R.SYS_MODE_MODE 0).put R.RFL_CFG_MODE 1).put R.RFL_STAT_LINK 1).put R.RFL_STAT_ROLE 2
  let s := (s.setMem 0x01000000 (leBytes 4 0xC0000000 ++ leBytes 4 0xC0000000)).upE 0 fun x => { x with live := true, stop := .none, cyc := 600 }
  { s with phase := .up, rfl := { s.rfl with last := some { cyc := [500, 0, 0, 0], fars := [], names := [] }, behind := [0] } }

/-- BUNDLE_ISSUE starts the turn on the engine before it issues. -/
theorem opBundleIssue_behindShadow : (opBundleIssue 0 behindShadow).rfl.behind = [] := by
  decide +kernel

/-- The issue of the bundle alone leaves the engine behind. -/
theorem issue_behindShadow : (behindShadow.issue 0 [slotMove 0xC0000000, slotMove 0xC0000000]).rfl.behind = [0] := by
  decide +kernel

/-- The two slots of its bundle are empty. -/
theorem bundle_behindShadow :
    let a := 0x01000000 + (0 : Fin 4).val * 0x100000 + behindShadow.get R.LE_PRG_STAT_ACT (0 : Fin 4) * 0x80000 + 8 * (behindShadow.eng (0 : Fin 4)).pc
    behindShadow.eccClear 0 a 8 = true ∧ leNat (behindShadow.mbs a 4) = 0xC0000000 ∧ leNat (behindShadow.mbs (a + 4) 4) = 0xC0000000 := by
  decide +kernel

/-- Refutes O12: its first clause leaves out an engine that is behind. Before such an engine issues, the turn starts on it (12, R303), so more
changes than the issue of the bundle does. -/
theorem not_bundlesAndResults : ¬ Obligations.BundlesAndResults := by
  unfold Obligations.BundlesAndResults
  rintro ⟨hbundle, -⟩
  obtain ⟨hclear, hlow, hhigh⟩ := bundle_behindShadow
  have hissue := hbundle 0 behindShadow (by decide +kernel) (by decide +kernel) (by decide +kernel) hclear
  rw [hlow, hhigh] at hissue
  have hsame : opBundleIssue 0 behindShadow = behindShadow.issue 0 [slotMove 0xC0000000, slotMove 0xC0000000] := Host.Outcome.next.inj hissue
  have hstill := issue_behindShadow
  rw [← hsame, opBundleIssue_behindShadow] at hstill
  exact absurd hstill (by decide)

end Sys2Proof.Machine
end

section
/-! PROOFS. Dispatch, preemption, event entries, budget and abort limits, and shedding (O18). -/

namespace Sys2Proof.Machine

/-! ## Fields that stand apart (00, R3) -/

/-- Fields at different bits of their registers are different fields, whatever the registers. -/
theorem Fam.key_ne_of_lsb {f g : Fam} (hf : f.lsb < 32) (hg : g.lsb < 32) (h : f.lsb ≠ g.lsb) (i j i' j' : Nat) : f.key i j ≠ g.key i' j' := by
  simp only [Fam.key]
  omega

/-! ## Dispatch (06, R153, R154) -/

/-- The primary of a Mirror pair takes work for both; its secondary takes none. -/
theorem State.secondary_of_canTake {s : State} {e : Nat} (he : e < 4) (h : s.canTake e = true) : s.secondary e = false := by
  simp only [State.canTake, Bool.and_eq_true] at h
  obtain ⟨-, hsec⟩ := h
  simpa [he] using hsec

theorem State.dispatch_eq_self {s : State} {e : Nat} (h : s.canTake e = false ∨ (s.eng e).live = true ∨ s.nextTask e = none) :
    s.dispatch e = s := by
  unfold State.dispatch
  rcases h with h | h | h
  · simp [h]
  · simp [h]
  · rw [h]
    exact ite_self s

/-- A context record that is readable is loaded, and its task runs. -/
theorem State.dispatch_loaded {s : State} {e n : Nat} {i : Inst} (hcan : s.canTake e = true) (hidle : (s.eng e).live = false)
    (hnext : s.nextTask e = some (n, i)) (hload : (((s.settle e).spin e 24).loadCtx e n).2 = none) :
    s.dispatch e = ((((s.settle e).spin e 24).loadCtx e n).1.upI n fun i => { i with st := .running }).mirrorLoad e := by
  simp [State.dispatch, hcan, hidle, hnext, hload]

/-- A context record with an uncorrectable word is an engine fault. -/
theorem State.dispatch_unreadable {s : State} {e n a : Nat} {i : Inst} (hcan : s.canTake e = true) (hidle : (s.eng e).live = false)
    (hnext : s.nextTask e = some (n, i)) (hload : (((s.settle e).spin e 24).loadCtx e n).2 = some a) :
    s.dispatch e = (((s.settle e).spin e 24).loadCtx e n).1.engineFault e 0x42 a 0 := by
  simp [State.dispatch, hcan, hidle, hnext, hload]

/-! ## Preemption (06, R153; 03, R82) -/

theorem State.preempt_eq_self {s : State} {e : Nat}
    (h : s.canTake e = false ∨ (s.eng e).lock.isSome = true ∨ (s.eng e).task = none ∨ s.nextTask e = none) : s.preempt e = s := by
  unfold State.preempt
  rcases h with h | h | h | h
  · simp [h]
  · simp [h]
  · simp [h]
  · rw [h]
    cases (s.eng e).task <;> simp

/-- Outside locked sequences the task on the engine is compared with the first that waits, by priority alone. -/
theorem State.preempt_of_nextTask {s : State} {e n h : Nat} {j : Inst} (hcan : s.canTake e = true) (hlock : (s.eng e).lock = none)
    (htask : (s.eng e).task = some n) (hnext : s.nextTask e = some (h, j)) :
    s.preempt e =
      if s.get R.TSK_CFG_PRIO h < s.get R.TSK_CFG_PRIO n then
        let u := (s.settle e).paired e (State.saveCtx e n)
        if (u.eng e).stop ≠ .none then u
        else State.dispatch e (((u.upI n fun i => { i with st := .preempted, nest := (u.eng e).nest, floor := (u.eng e).floor }).upE e
          fun x => { x with live := false, task := none, nest := [], floor := none, branch := [], rets := [] }).mirrorJoin e)
      else s := by
  simp only [State.preempt, hcan, hlock, htask, hnext, Option.isSome_none, Bool.not_true, Bool.or_self, Bool.false_eq_true, if_false, bne_iff_ne]

/-! ## Event entries (08, R206, R207) -/

theorem State.routedEntry_of_nextRoute {s : State} {e r : Nat} (he : e < 4) (hcan : s.canTake e = true) (hlock : (s.eng e).lock = none)
    (hpriv : (s.eng e).live = false ∨ (s.eng e).priv = 2) (hroute : s.nextRoute e = some r) :
    s.routedEntry e = (s.upE e fun x => { x with routes := x.routes.filter (· != r) }).paired e (State.excEntry e 2 r (s.eng e).pc false) := by
  have hsv : e ≠ 4 := Nat.ne_of_lt he
  have hfree : ((s.eng e).live && (s.eng e).priv != 2) = false := by
    rcases hpriv with h | h <;> simp [h]
  simp [State.routedEntry, hsv, hcan, State.secondary_of_canTake he hcan, hlock, hfree, hroute]

theorem State.routedEntry_sv (s : State) : s.routedEntry 4 = s.svEventEntry := Eq.refl _

theorem State.svEventEntry_of_request {s : State} {r : Nat} (hstop : (s.eng 4).stop = .none) (hhalt : s.halted 4 = false)
    (hreq : s.svRequest = some r) :
    s.svEventEntry =
      if (if evNmi r then (s.eng 4).nest.any fun f => s.mw (f.frame + 8) == 2 && evNmi (s.mw (f.frame + 12))
          else !(s.eng 4).nest.isEmpty) = true then s
      else s.excEntry 4 2 r (s.eng 4).pc false := by
  simp only [State.svEventEntry, hstop, hhalt, hreq, bne_self_eq_false, Bool.or_self, Bool.false_eq_true, if_false]

/-! ## Budget and abort limits (06, R157, R158) -/

/-- Once its budget is used up a task is aborted or warned, unless it is in the middle of micro-moves. -/
theorem State.budgetOut_of_spent {s : State} {n : Nat} {i : Inst} (hinst : (s.task n).inst = some i) (hspent : i.budget ≤ i.charged)
    (hopen : i.open = true) :
    s.budgetOut n =
      if (s.eng (s.tEng n)).task = some n ∧ (s.eng (s.tEng n)).mac.isSome then s
      else if s.is R.TSK_CFG_BACT n = false then s.taskFault n 0x30 i.charged (s.eng (s.tEng n)).pc
      else if i.warned then s else ((s.upI n fun i => { i with warned := true }).put R.TSK_ST_BEXH 1 n).warn 2 n := by
  simp only [State.budgetOut, hinst, hopen, Nat.not_lt.2 hspent, decide_false, Bool.not_true, Bool.or_self, Bool.false_eq_true, if_false]
  cases s.is R.TSK_CFG_BACT n <;> rfl

theorem State.abortDue_iff {s : State} {n : Nat} {i : Inst} (hinst : (s.task n).inst = some i) (hopen : i.open = true)
    (hhalt : s.halted (s.tEng n) = false) : s.abortDue n = true ↔ ¬ (s.abortTicks n = 0 ∨ i.ticks < s.abortTicks n) := by
  simp [State.abortDue, hinst, hopen, hhalt]

theorem opAbortLimit_of_open {s : State} {n : Nat} {i : Inst} (hinst : (s.task n).inst = some i) (hopen : i.open = true)
    (hhalt : s.halted (s.tEng n) = false) :
    opAbortLimit n s = if s.abortTicks n = 0 ∨ i.ticks < s.abortTicks n then s else s.taskFault n 0x31 i.ticks (s.eng (s.tEng n)).pc := by
  simp only [opAbortLimit, hinst, State.abortDue_iff hinst hopen hhalt, ite_not]

/-! ## Shedding (06, R162, R163; 07, R196) -/

theorem opShedStart_eq (e : Nat) (s : State) :
    let u := { s with seq := { s.seq with shedTick := s.seq.shedTick.filter (· != e) } }
    opShedStart e s =
      if s.inRun = true ∧ s.seq.shedTick.contains e = true ∧ s.get R.TSK_SHED_K e ≠ 0 ∧ s.is R.TSK_SHED_ACTIVE e = false then
        ({ u with seq := { u.seq with clean := Store.put e 0 u.seq.clean } }.put R.TSK_SHED_ACTIVE 1 e).engPen e
      else u := by
  simp only [opShedStart, Bool.and_eq_true, bne_iff_ne, Bool.not_eq_true', and_assoc]

theorem opShedEnd_eq (e : Nat) (s : State) :
    let u := { s with seq := { s.seq with endTick := s.seq.endTick.filter (· != e) } }
    opShedEnd e s =
      if s.inRun = true ∧ s.is R.TSK_SHED_ACTIVE e = true ∧ s.seq.endTick.contains e = true then
        ({ u with seq := { u.seq with shedClear := u.seq.shedClear.filter (· != e) } }.put R.TSK_SHED_ACTIVE 0 e).engPen e
      else u := by
  simp only [opShedEnd, Bool.and_eq_true, and_assoc]

/-- An engine that shows ACTIVE sheds unless its end is due. -/
theorem State.shedding_of_active {s : State} {e : Nat} (hact : s.is R.TSK_SHED_ACTIVE e = true) (hend : s.seq.endTick.contains e = false) :
    s.shedding e = true := by
  simp only [State.shedding, hact, hend, if_true, Bool.not_false, Bool.true_or]

/-- An engine that does not show ACTIVE sheds when its begin is due, or when the device is in Penumbra. -/
theorem State.not_shedding {s : State} {e : Nat} (hact : s.is R.TSK_SHED_ACTIVE e = false) (hstart : s.seq.shedTick.contains e = false)
    (hpen : s.is R.EXC_STAT_DPEN = false) : s.shedding e = false := by
  simp only [State.shedding, hact, hstart, hpen, Bool.false_eq_true, if_false, Bool.false_and, Bool.or_self]

/-- Where the flag EPEN differs from shedding it follows it, with EV 10. -/
theorem State.engPen_of_ne {s : State} {e : Nat} (h : bit (s.get R.EXC_STAT_EPEN) e ≠ s.shedding e) :
    s.engPen e = (s.putBit R.EXC_STAT_EPEN e (s.shedding e)).raise 10 (4 + e + 256 * b2n (s.shedding e)) := by
  simp only [State.engPen, beq_iff_eq, if_neg h]

/-- ACTIVE stands apart from the flags of `EXC.STAT`. -/
theorem State.get_epen_putActive (s : State) (v e : Nat) : (s.put R.TSK_SHED_ACTIVE v e).get R.EXC_STAT_EPEN = s.get R.EXC_STAT_EPEN :=
  s.get_put_ne _ _ v e 0 0 0 (Fam.key_ne_of_lsb (by decide) (by decide) (by decide) _ _ _ _)

theorem State.is_dpen_putActive (s : State) (v e : Nat) : (s.put R.TSK_SHED_ACTIVE v e).is R.EXC_STAT_DPEN = s.is R.EXC_STAT_DPEN :=
  s.is_put_ne _ _ v e 0 0 0 (Fam.key_ne_of_lsb (by decide) (by decide) (by decide) _ _ _ _)

theorem State.engPen_begin {s : State} {e : Nat} (hend : s.seq.endTick.contains e = false) (hpen : bit (s.get R.EXC_STAT_EPEN) e = false) :
    (s.put R.TSK_SHED_ACTIVE 1 e).engPen e = ((s.put R.TSK_SHED_ACTIVE 1 e).putBit R.EXC_STAT_EPEN e true).raise 10 (4 + e + 256) := by
  have hshed : (s.put R.TSK_SHED_ACTIVE 1 e).shedding e = true := State.shedding_of_active (s.is_put_same _ 1 e 0) hend
  rw [State.engPen_of_ne (by simp [hshed, s.get_epen_putActive, hpen]), hshed]
  rfl

theorem State.engPen_end {s : State} {e : Nat} (hstart : s.seq.shedTick.contains e = false) (hpen : bit (s.get R.EXC_STAT_EPEN) e = true)
    (hdev : s.is R.EXC_STAT_DPEN = false) :
    (s.put R.TSK_SHED_ACTIVE 0 e).engPen e = ((s.put R.TSK_SHED_ACTIVE 0 e).putBit R.EXC_STAT_EPEN e false).raise 10 (4 + e) := by
  have hshed : (s.put R.TSK_SHED_ACTIVE 0 e).shedding e = false :=
    State.not_shedding (s.is_put_same _ 0 e 0) hstart ((s.is_dpen_putActive 0 e).trans hdev)
  rw [State.engPen_of_ne (by simp [hshed, s.get_epen_putActive, hpen]), hshed]
  rfl

/-- Settles O18: each command is one case distinction on the state before it, which the lemmas above name; a field that the command writes stands apart
from those it then reads. -/
theorem dispatching : Obligations.Dispatching := by
  unfold Obligations.Dispatching
  refine ⟨?dispatch, ?noDispatch, ?preempt, ?noPreempt, ?route, ?svEvent, ?budget, ?abort, ?shedStart, ?shedStarts, ?shedEnd, ?shedEnds, ?shedClear⟩
  case dispatch =>
    intro e n i s r hcan hidle hnext
    refine congrArg Host.Outcome.next ?_
    cases hload : r.2 with
    | none => exact State.dispatch_loaded hcan hidle hnext hload
    | some a => exact State.dispatch_unreadable hcan hidle hnext hload
  case noDispatch => exact fun e s h => congrArg Host.Outcome.next (State.dispatch_eq_self h)
  case preempt => exact fun e n h i j s hcan hlock htask hnext _ => congrArg Host.Outcome.next (State.preempt_of_nextTask hcan hlock htask hnext)
  case noPreempt => exact fun e s h => congrArg Host.Outcome.next (State.preempt_eq_self h)
  case route =>
    exact fun e r s hcan hlock hpriv hroute => congrArg Host.Outcome.next (State.routedEntry_of_nextRoute e.isLt hcan hlock hpriv hroute)
  case svEvent =>
    exact fun r s hstop hhalt hreq => congrArg Host.Outcome.next (State.svEventEntry_of_request hstop hhalt hreq)
  case budget =>
    exact fun n i s hinst hspent hopen _ => congrArg Host.Outcome.next (State.budgetOut_of_spent hinst hspent hopen)
  case abort =>
    rintro n i a s hinst hopen hhalt rfl
    exact congrArg Host.Outcome.next (opAbortLimit_of_open hinst hopen hhalt)
  case shedStart => exact fun e s => congrArg Host.Outcome.next (opShedStart_eq e s)
  case shedStarts =>
    intro e s hrun hmark hend hk hact hpen
    refine congrArg Host.Outcome.next ((opShedStart_eq e s).trans ?_)
    rw [if_pos ⟨hrun, hmark, hk, hact⟩]
    exact State.engPen_begin hend hpen
  case shedEnd => exact fun e s => congrArg Host.Outcome.next (opShedEnd_eq e s)
  case shedEnds =>
    intro e s hrun hact hmark hstart hpen hdev
    refine congrArg Host.Outcome.next ((opShedEnd_eq e s).trans ?_)
    rw [if_pos ⟨hrun, hact, hmark⟩]
    exact State.engPen_end hstart hpen hdev
  case shedClear => exact fun e s => rfl

end Sys2Proof.Machine
end

section
/-! PROOFS. Descriptor words, enables, statistics and scope commands (O19). -/

namespace Sys2Proof.Machine

/-! ## Fields of a descriptor (06, R146, R170) -/

/-- Descriptors stand 64 bytes apart, so fields at different offsets of them are different fields, whatever the tasks. -/
theorem Fam.key_ne_of_offset {f g : Fam} (hf : f.s1 = 64 ∧ f.s2 = 0 ∧ f.lsb < 32) (hg : g.s1 = 64 ∧ g.s2 = 0 ∧ g.lsb < 32)
    (h : f.base % 64 / 4 ≠ g.base % 64 / 4) (i j i' j' : Nat) : f.key i j ≠ g.key i' j' := by
  obtain ⟨hf1, hf2, hfl⟩ := hf
  obtain ⟨hg1, hg2, hgl⟩ := hg
  simp only [Fam.key, Fam.addr, hf1, hf2, hg1, hg2, Nat.zero_mul]
  omega

/-- A register above `SYS.MODE` is another one. -/
theorem Fam.key_ne_mode {f : Fam} (h : R.SYS_MODE_MODE.base < f.base) (i j : Nat) : f.key i j ≠ R.SYS_MODE_MODE.key 0 0 := by
  have hmode : R.SYS_MODE_MODE.key 0 0 = R.SYS_MODE_MODE.base * 32 := rfl
  have hbase : f.base ≤ f.addr i j := Nat.le_trans (Nat.le_add_right ..) (Nat.le_add_right ..)
  rw [hmode, Fam.key]
  omega

theorem State.inRun_put {f : Fam} (h : R.SYS_MODE_MODE.base < f.base) (s : State) (v i j : Nat) : (s.put f v i j).inRun = s.inRun := by
  rw [State.inRun, State.get_put_ne s f R.SYS_MODE_MODE v i j 0 0 (Fam.key_ne_mode h i j), State.inRun]

/-- Cut to the field's width or not, the same value is written. -/
theorem State.put_bits_zero (s : State) (f : Fam) (v i j : Nat) : s.put f (bits v 0 f.width) i j = s.put f v i j := by
  rw [State.put, bits, Nat.pow_zero, Nat.div_one, Nat.mod_mod, State.put]

theorem bits_one_mod_ne_zero (v k : Nat) : (bits v k 1 % 2 ^ 1 != 0) = bit v k := by
  rw [bits, Nat.mod_mod, bit, Nat.testBit_eq_decide_div_mod_eq]
  rcases Nat.mod_two_eq_zero_or_one (v / 2 ^ k) with h | h <;> simp [h]

theorem b2n_mod_ne_zero (b : Bool) : (b2n b % 2 ^ 1 != 0) = b := by
  cases b <;> rfl

/-- Two reasons for one answer are one reason. -/
theorem ite_else_ite_same {α : Sort u} (p q : Prop) [Decidable p] [Decidable q] (a b : α) :
    (if p then a else if q then a else b) = if p ∨ q then a else b := by
  by_cases hp : p
  · rw [if_pos hp, if_pos (Or.inl hp)]
  · simp only [hp, if_false, false_or]

/-! ## Several fields of one register from one word -/

@[simp] theorem State.putBits_nil (s : State) (v i : Nat) : s.putBits [] v i = s := Eq.refl _

@[simp] theorem State.putBits_cons (s : State) (f : Fam) (fs : List Fam) (v i : Nat) :
    s.putBits (f :: fs) v i = (s.put f (bits v f.lsb f.width) i).putBits fs v i := Eq.refl _

/-- Only the register fields change. -/
theorem State.putBits_eq (s : State) (fs : List Fam) (v i : Nat) : s.putBits fs v i = { s with flds := (s.putBits fs v i).flds } := by
  induction fs generalizing s with
  | nil => exact Eq.refl _
  | cons f fs ih => exact ih _

@[simp] theorem State.putBits_mem (s : State) (fs : List Fam) (v i : Nat) : (s.putBits fs v i).mem = s.mem := by rw [State.putBits_eq]
@[simp] theorem State.putBits_engs (s : State) (fs : List Fam) (v i : Nat) : (s.putBits fs v i).engs = s.engs := by rw [State.putBits_eq]
@[simp] theorem State.putBits_seq (s : State) (fs : List Fam) (v i : Nat) : (s.putBits fs v i).seq = s.seq := by rw [State.putBits_eq]
@[simp] theorem State.putBits_task (s : State) (fs : List Fam) (v i n : Nat) : (s.putBits fs v i).task n = s.task n := by
  rw [State.task, State.putBits_seq, State.task]

/-- A field that stands apart from all that are written keeps its value. -/
theorem State.get_putBits_ne {fs : List Fam} {g : Fam} {i i' : Nat} (h : ∀ f ∈ fs, f.key i 0 ≠ g.key i' 0) (s : State) (v : Nat) :
    (s.putBits fs v i).get g i' = s.get g i' := by
  induction fs generalizing s with
  | nil => exact Eq.refl _
  | cons f fs ih =>
    obtain ⟨hf, hfs⟩ := List.forall_mem_cons.1 h
    rw [State.putBits_cons, ih hfs, State.get_put_ne s f g _ i 0 i' 0 hf]

theorem State.inRun_putBits {fs : List Fam} (h : ∀ f ∈ fs, R.SYS_MODE_MODE.base < f.base) (s : State) (v i : Nat) :
    (s.putBits fs v i).inRun = s.inRun := by
  rw [State.inRun, State.get_putBits_ne (fun f hf => Fam.key_ne_mode (h f hf) i 0), State.inRun]

/-! ## Control writes (12, R305) -/

theorem State.control_apart {s : State} (h : (s.lead && s.inRun) = false) (a v : Nat) (op : State → State) : s.control a v op = op s := by
  simp [State.control, h]

theorem State.control_lead {s : State} (hlead : s.lead = true) (hrun : s.inRun = true) (a v : Nat) (op : State → State) :
    s.control a v op = (s.defer { addr := a, kind := 1, data := leBytes 4 v }).1 := by
  simp [State.control, hlead, hrun]

theorem descAddr_eq (n k : Nat) : descAddr n k = 0x10007000 + 64 * n + 4 * k := by
  simp [descAddr, Fam.addr, R.TSK_CFG_EN, fld1]

/-! ## Words of a descriptor (06, R146) -/

theorem State.holdOnly_hold {s : State} (h : s.inRun = false) (fs : List Fam) (v n : Nat) : s.holdOnly fs v n = s.putBits fs v n := by
  simp [State.holdOnly, h]

theorem State.holdOnly_run {s : State} (h : s.inRun = true) (fs : List Fam) (v n : Nat) : s.holdOnly fs v n = s.put R.TSK_STAT_CFGREF 1 := by
  simp [State.holdOnly, h]

theorem State.holdRefused_hold {s : State} (h : s.inRun = false) (fs : List Fam) (v n : Nat) : s.holdRefused fs v n = false := by
  simp [State.holdRefused, h]

/-- In Run the word is refused exactly when it changes one of the fields. -/
theorem State.holdRefused_run {s : State} (h : s.inRun = true) (fs : List Fam) (v n : Nat) :
    s.holdRefused fs v n = true ↔ ¬ ∀ f ∈ fs, bits v f.lsb f.width = s.get f n := by
  simp [State.holdRefused, h]

/-- The sequencer's enable follows EN. -/
theorem State.applyEn_eq {s : State} {n : Nat} {b : Bool} (h : s.is R.TSK_CFG_EN n = b) :
    s.applyEn n = if (s.task n).enabled = b then s else s.upT n fun t => { t with enabled := b } := by
  simp [State.applyEn, h]

/-- The fields that only Hold admits, SLOT only with a slot that exists. -/
def holdFields (slot : Nat) : List Fam := cfgHold.filter fun f => f ≠ R.TSK_CFG_SLOT ∨ slot < 12

theorem holdFields_eq (slot : Nat) : holdFields slot = if 12 ≤ slot then [R.TSK_CFG_ENG, R.TSK_CFG_PRIO, R.TSK_CFG_TRIG] else cfgHold := by
  by_cases h : slot < 12
  · rw [if_neg (Nat.not_le.2 h)]
    simp [holdFields, h]
  · rw [if_pos (Nat.not_lt.1 h)]
    simp only [holdFields, h, or_false]
    decide

theorem key_ne_en_of_mem_holdFields {slot : Nat} {f : Fam} (h : f ∈ holdFields slot) (n : Nat) : f.key n 0 ≠ R.TSK_CFG_EN.key n 0 := by
  have hlsb : ∀ g ∈ cfgHold, g.lsb < 32 ∧ g.lsb ≠ R.TSK_CFG_EN.lsb := by decide
  obtain ⟨hlt, hne⟩ := hlsb f (List.mem_filter.1 h).1
  exact Fam.key_ne_of_lsb hlt (by decide) hne _ _ _ _

/-- After a first word EN is that word's bit 0. -/
theorem State.is_en_putBits_config (s : State) (v n slot : Nat) :
    ((s.putBits cfgFree v n).putBits (holdFields slot) v n).is R.TSK_CFG_EN n = bit v 0 := by
  have hrest : ∀ f ∈ [R.TSK_CFG_SHEDDABLE, R.TSK_CFG_BACT, R.TSK_CFG_ABORT], f.key n 0 ≠ R.TSK_CFG_EN.key n 0 := by
    have hlsb : ∀ f ∈ [R.TSK_CFG_SHEDDABLE, R.TSK_CFG_BACT, R.TSK_CFG_ABORT], f.lsb < 32 ∧ f.lsb ≠ R.TSK_CFG_EN.lsb := by decide
    exact fun f hf => Fam.key_ne_of_lsb (hlsb f hf).1 (by decide) (hlsb f hf).2 _ _ _ _
  rw [State.is, State.get_putBits_ne fun f hf => key_ne_en_of_mem_holdFields hf n, cfgFree, State.putBits_cons, State.get_putBits_ne hrest,
    State.get_put_same]
  exact bits_one_mod_ne_zero v 0

theorem State.descWrite_config_hold {s : State} (h : s.inRun = false) (n v : Nat) :
    let u := (s.putBits cfgFree v n).putBits (holdFields (bits v 3 4)) v n
    s.descWrite n 0 v =
      if bit v 0 = true ∧ s.domOff (2 + bits v 1 2) = true then s.put R.TSK_STAT_CFGREF 1
      else if (s.task n).enabled = bit v 0 then u else u.upT n fun t => { t with enabled := bit v 0 } := by
  have hrun : (s.putBits cfgFree v n).inRun = false := (State.inRun_putBits (by decide) s v n).trans h
  simp only [State.descWrite, Bool.and_eq_true, State.holdRefused_hold h, hrun, Bool.false_eq_true, if_false, ← holdFields_eq,
    State.applyEn_eq (s.is_en_putBits_config v n _), State.putBits_task]

theorem State.descWrite_config_run {s : State} (h : s.inRun = true) (n v : Nat) :
    s.descWrite n 0 v =
      if (bit v 0 = true ∧ s.domOff (2 + bits v 1 2) = true) ∨ ¬ ∀ f ∈ cfgHold, bits v f.lsb f.width = s.get f n then s.put R.TSK_STAT_CFGREF 1
      else s.putBits cfgFree v n := by
  have hrun : (s.putBits cfgFree v n).inRun = true := (State.inRun_putBits (by decide) s v n).trans h
  simp only [State.descWrite, Bool.and_eq_true, State.holdRefused_run h, hrun, if_true, ite_else_ite_same]

/-- Except on a Lead in Run a descriptor word is written at once. -/
theorem exec_tskDescriptorWrite_apart {s : State} (h : (s.lead && s.inRun) = false) (n : Fin 48) (v : Word) (k : Fin 10) :
    exec (.tskDescriptorWrite n k v) s = .next (s.descWrite n k v.toNat) :=
  congrArg Host.Outcome.next (State.control_apart h _ _ _)

/-- A range in Hold: START is taken, COUNT if the area holds it. -/
theorem State.holdOnly_range {s : State} (h : s.inRun = false) (start count : Fam) (max v n : Nat) :
    s.holdOnly (if max < bits v count.lsb count.width then [start] else [start, count]) v n =
      if max < bits v count.lsb count.width then s.put start (bits v start.lsb start.width) n
      else (s.put start (bits v start.lsb start.width) n).put count (bits v count.lsb count.width) n := by
  rw [State.holdOnly_hold h]
  split <;> rfl

/-! ## Enables (06, R164) -/

theorem State.taskEnable_eq (n : Nat) (en : Bool) (s : State) :
    let u := s.put R.TSK_CFG_EN (b2n en) n
    s.taskEnable n en =
      if en = true ∧ s.domOff (2 + s.tEng n) = true then s.put R.TSK_STAT_CFGREF 1
      else if s.inRun = true ∨ (s.task n).enabled = en then u else u.upT n fun t => { t with enabled := en } := by
  have hen : (s.put R.TSK_CFG_EN (b2n en) n).is R.TSK_CFG_EN n = en := by
    rw [State.is, State.get_put_same]
    exact b2n_mod_ne_zero en
  simp only [State.taskEnable, Bool.and_eq_true, State.inRun_put (show _ < R.TSK_CFG_EN.base by decide), State.applyEn_eq hen, ite_else_ite_same,
    State.put_task]

/-! ## Statistics (06, R170) -/

/-- What CLRSTAT clears of a task. -/
def statFields : List Fam := [R.TSK_CNT_OVR, R.TSK_CNT_GREJ, R.TSK_WCET_CYC, R.TSK_LAST_CYC]

theorem opTskClrstat_eq (s : State) : opTskClrstat s = State.forAll (List.range 48) (fun n s => s.putBits statFields 0 n) s := rfl

theorem State.get_put_zero {s : State} {g : Fam} {i' j' : Nat} (h : s.get g i' j' = 0) (f : Fam) (i j : Nat) :
    (s.put f 0 i j).get g i' j' = 0 := by
  by_cases hkey : f.key i j = g.key i' j'
  · simp [State.get, State.put, hkey, Store.getD, Store.find_put_same]
  · exact (s.get_put_ne f g 0 i j i' j' hkey).trans h

theorem State.get_putBits_zero {s : State} {g : Fam} {i' : Nat} (h : s.get g i' = 0) (fs : List Fam) (i : Nat) :
    (s.putBits fs 0 i).get g i' = 0 := by
  induction fs generalizing s with
  | nil => exact h
  | cons f fs ih =>
    rw [State.putBits_cons, bits, Nat.zero_div, Nat.zero_mod]
    exact ih (State.get_put_zero h f i 0)

/-- Fields written with the word 0 read 0. -/
theorem State.get_putBits_zero_of_mem {fs : List Fam} {g : Fam} (h : g ∈ fs) (s : State) (i : Nat) : (s.putBits fs 0 i).get g i = 0 := by
  induction fs generalizing s with
  | nil => exact absurd h List.not_mem_nil
  | cons f fs ih =>
    rw [State.putBits_cons, bits, Nat.zero_div, Nat.zero_mod]
    rcases List.mem_cons.1 h with rfl | hfs
    · exact State.get_putBits_zero (by rw [State.get_put_same, Nat.zero_mod]) fs i
    · exact ih hfs _

/-- What a step establishes for its index and no step undoes holds of every index after the pass. -/
theorem State.forAll_establishes {P : α → State → Prop} {f : α → State → State} (hself : ∀ x s, P x (f x s))
    (hkeep : ∀ x y s, P x s → P x (f y s)) {l : List α} {x : α} (hx : x ∈ l) (s : State) : P x (State.forAll l f s) := by
  induction l generalizing s with
  | nil => exact absurd hx List.not_mem_nil
  | cons y r ih =>
    rcases List.mem_cons.1 hx with rfl | hr
    · exact State.forAll_keeps (fun y s => hkeep x y s) r (hself x s)
    · exact ih hr _

theorem opTskClrstat_clears (s : State) {n : Nat} (hn : n < 48) {f : Fam} (hf : f ∈ statFields) : (opTskClrstat s).get f n = 0 :=
  State.forAll_establishes (P := fun n t => t.get f n = 0) (fun n t => t.get_putBits_zero_of_mem hf n)
    (fun _ y _ h => State.get_putBits_zero h statFields y) (List.mem_range.2 hn) s

/-- A word of the descriptor that holds no statistics keeps its value. -/
theorem opTskClrstat_get {g : Fam} (hg : g.s1 = 64 ∧ g.s2 = 0 ∧ g.lsb < 32) (hoff : ∀ f ∈ statFields, f.base % 64 / 4 ≠ g.base % 64 / 4)
    (s : State) (n : Nat) : (opTskClrstat s).get g n = s.get g n := by
  have hstat : ∀ f ∈ statFields, f.s1 = 64 ∧ f.s2 = 0 ∧ f.lsb < 32 := by decide
  rw [opTskClrstat_eq]
  refine State.forAll_keeps (P := fun t => t.get g n = s.get g n) (fun i t h => ?_) (List.range 48) (Eq.refl _)
  rw [State.get_putBits_ne (fun f hf => Fam.key_ne_of_offset (hstat f hf) hg (hoff f hf) i 0 n 0), h]

theorem opTskClrstat_frame (s : State) : (opTskClrstat s).mem = s.mem ∧ (opTskClrstat s).engs = s.engs ∧ (opTskClrstat s).seq = s.seq := by
  rw [opTskClrstat_eq]
  exact State.forAll_keeps (P := fun t => t.mem = s.mem ∧ t.engs = s.engs ∧ t.seq = s.seq) (fun i t h => by simpa using h) (List.range 48)
    ⟨Eq.refl _, Eq.refl _, Eq.refl _⟩

/-! ## Scopes (07, R190-R196) -/

/-- A scope below the device that is in Umbra only takes the further cause of a command. -/
theorem State.umbraEnter_of_umbra {s : State} {k : Nat} (hk : k ≠ 0) (h : s.umbraFlag k = true) : s.umbraEnter k 2 = s.addCause k 2 false := by
  simp [State.umbraEnter, h, hk]

theorem State.excEnter_eq (s : State) (k : Nat) :
    s.excEnter k =
      if k = 3 then s else if k = 0 then s.deviceFault 6 else if s.umbraFlag k then s.addCause k 2 false else s.umbraEnter k 2 := by
  unfold State.excEnter
  by_cases hdev : k = 0
  · simp only [hdev, if_true]
  · simp only [if_neg hdev]
    split
    · rfl
    · split
      · next hflag => exact State.umbraEnter_of_umbra hdev hflag
      · rfl

theorem State.excRelease_eq (s : State) (k : Nat) :
    s.excRelease k =
      if k = 3 || !s.umbraFlag k then s
      else if s.causePresent k then s.put R.EXC_STAT_RELERR 1 else { s with exc := { s.exc with releases := s.exc.releases ++ [k] } } := by
  unfold State.excRelease State.releaseOk
  cases s.causePresent k <;> rfl

theorem State.excPenenter_eq (s : State) (k : Nat) :
    s.excPenenter k =
      { s with exc := { s.exc with dCmd := s.exc.dCmd || k = 0, bCmd := s.exc.bCmd || k = 1, cCmd := s.exc.cCmd || k = 2 } } := by
  unfold State.excPenenter
  rcases k with _ | _ | _ | k <;> simp

theorem State.excPenleave_eq (s : State) (k : Nat) :
    s.excPenleave k =
      { s with exc := { s.exc with dCmd := s.exc.dCmd && k ≠ 0, bCmd := s.exc.bCmd && k ≠ 1, cCmd := s.exc.cCmd && k ≠ 2 } } := by
  unfold State.excPenleave
  rcases k with _ | _ | _ | k <;> simp

/-- Settles O19: a control write of a Lead in Run is deferred, any other takes effect by the laws of its word, of the enable or of its scope. -/
theorem tasksAndScopes : Obligations.TasksAndScopes := by
  unfold Obligations.TasksAndScopes
  refine ⟨?hold, ?run, ?both, ?leadTask, ?enable, ?clrstat, ?enter, ?release, ?penumbra, ?leadScope⟩
  case hold =>
    intro n v s q x u w p hhold
    have hop := exec_tskDescriptorWrite_apart (s := s) (by rw [hhold, Bool.and_false]) n v
    refine ⟨(hop 0).trans ?_, (hop 1).trans ?_, (hop 2).trans ?_, (hop 8).trans ?_, (hop 9).trans ?_⟩
    · exact congrArg Host.Outcome.next (State.descWrite_config_hold hhold n x)
    · exact congrArg Host.Outcome.next ((State.holdOnly_hold hhold _ _ _).trans (s.put_bits_zero R.TSK_TRG_W _ n 0))
    · exact congrArg Host.Outcome.next (State.holdOnly_hold hhold _ _ _)
    · exact congrArg (Host.Outcome.next ∘ q) (State.holdOnly_range hhold R.TSK_QRNG_START R.TSK_QRNG_COUNT 2048 x n)
    · exact congrArg (Host.Outcome.next ∘ q) (State.holdOnly_range hhold R.TSK_WRNG_START R.TSK_WRNG_COUNT 4096 x n)
  case run =>
    intro n v s u x hrun hlead
    have hop := exec_tskDescriptorWrite_apart (s := s) (by rw [hlead, Bool.false_and]) n v
    refine ⟨(hop 0).trans ?_, (hop 1).trans ?_, (hop 2).trans ?_, (hop 8).trans ?_, (hop 9).trans ?_⟩
    · exact congrArg Host.Outcome.next (State.descWrite_config_run hrun n x)
    · exact congrArg Host.Outcome.next (State.holdOnly_run hrun _ _ _)
    · exact congrArg Host.Outcome.next (State.holdOnly_run hrun _ _ _)
    · exact congrArg (Host.Outcome.next ∘ State.zeroUnowned) (State.holdOnly_run hrun _ _ _)
    · exact congrArg (Host.Outcome.next ∘ State.zeroUnowned) (State.holdOnly_run hrun _ _ _)
  case both =>
    intro n v s x hapart
    have hop := exec_tskDescriptorWrite_apart (s := s) hapart n v
    refine ⟨hop 3, hop 4, fun k hk => (hop k).trans ?_⟩
    rcases List.mem_cons.1 hk with rfl | hk
    · rfl
    rcases List.mem_cons.1 hk with rfl | hk
    · rfl
    · rw [List.mem_singleton.1 hk]
      rfl
  case leadTask =>
    intro n k en v s hlead hrun
    refine ⟨?_, ?_⟩
    · rw [← descAddr_eq]
      exact congrArg Host.Outcome.next (State.control_lead hlead hrun _ _ _)
    · rw [← Nat.add_zero (0x10007000 + 64 * n.val), ← Nat.mul_zero 4, ← descAddr_eq]
      exact congrArg Host.Outcome.next (State.control_lead hlead hrun _ _ _)
  case enable =>
    exact fun n en s hapart => congrArg Host.Outcome.next ((State.control_apart hapart _ _ _).trans (State.taskEnable_eq n en s))
  case clrstat =>
    intro s
    obtain ⟨hmem, hengs, hseq⟩ := opTskClrstat_frame s
    refine ⟨opTskClrstat s, rfl, fun n hn => ?_, hmem, hengs, hseq, fun n _ => ?_⟩
    · have hclear : ∀ f ∈ statFields, (opTskClrstat s).get f n = 0 := fun f hf => opTskClrstat_clears s hn hf
      simpa [statFields] using hclear
    · exact ⟨opTskClrstat_get (by decide) (by decide) s n, opTskClrstat_get (by decide) (by decide) s n⟩
  case enter =>
    intro k s hapart
    have h3 : k = 3 ↔ (k : Nat) = 3 := Fin.ext_iff
    have h0 : k = 0 ↔ (k : Nat) = 0 := Fin.ext_iff
    simp only [h3, h0]
    exact congrArg Host.Outcome.next ((State.control_apart hapart _ _ _).trans (s.excEnter_eq k))
  case release =>
    intro k s hapart
    have h3 : k = 3 ↔ (k : Nat) = 3 := Fin.ext_iff
    simp only [h3]
    exact congrArg Host.Outcome.next ((State.control_apart hapart _ _ _).trans (s.excRelease_eq k))
  case penumbra =>
    intro k s hapart
    have h0 : k = 0 ↔ (k : Nat) = 0 := Fin.ext_iff
    have h1 : k = 1 ↔ (k : Nat) = 1 := Fin.ext_iff
    have h2 : k = 2 ↔ (k : Nat) = 2 := Fin.ext_iff
    simp only [h0, h1, h2, ne_eq]
    exact ⟨congrArg Host.Outcome.next ((State.control_apart hapart _ _ _).trans (s.excPenenter_eq k)),
      congrArg Host.Outcome.next ((State.control_apart hapart _ _ _).trans (s.excPenleave_eq k))⟩
  case leadScope =>
    intro k s c hlead hrun
    exact ⟨congrArg Host.Outcome.next (State.control_lead hlead hrun _ _ _), congrArg Host.Outcome.next (State.control_lead hlead hrun _ _ _),
      congrArg Host.Outcome.next (State.control_lead hlead hrun _ _ _), congrArg Host.Outcome.next (State.control_lead hlead hrun _ _ _)⟩

end Sys2Proof.Machine
end

section
/-! PROOFS. Watchdogs, Mirror pairs, error correction and last words (O20). -/

namespace Sys2Proof.Machine

/-! ## Watchdogs (07, R182-R185) -/

theorem opEngineWatchdogExpiry_of_work {s : State} {e : Nat} (hwork : s.holdsWork e = true)
    (hfar : s.following = false ∨ (s.eng e).stalled = false) :
    let u := s.advanceReal ((s.eng e).wdAt + 1000 * s.get R.EXC_CFG_WDT e)
    opEngineWatchdogExpiry e s = ((u.engineFault e 0x51 0 (u.eng e).pc).put R.EXC_FAULT_WDTEXP 1 e).engineReset e := by
  have hcond : ¬ (!s.holdsWork e || (s.following && (s.eng e).stalled)) = true := by rcases hfar with h | h <;> simp [hwork, h]
  exact if_neg hcond

theorem opEngineWatchdogExpiry_of_no_work {s : State} {e : Nat}
    (h : s.holdsWork e = false ∨ (s.following = true ∧ (s.eng e).stalled = true)) :
    opEngineWatchdogExpiry e s = s.upE e fun x => { x with wdAt := s.time.real } := by
  have hcond : (!s.holdsWork e || (s.following && (s.eng e).stalled)) = true := by simpa using h
  exact if_pos hcond

/-- A kick always records whether it prepares the next one; only 0xA5 after a prepared one restarts the count. -/
theorem opSvWatchdogKick_eq (v : Byte) (s : State) :
    let u := s.put R.EXC_SVWDT_KICK v.toNat
    let x := { s.exc with kick := decide (v = 0x5A#8) }
    opSvWatchdogKick v.toNat s =
      if v = 0xA5#8 ∧ s.exc.kick = true then { u with exc := { x with svAt := s.time.real, svHeld := s.exc.svHeld.map fun _ => 0 } }
      else { u with exc := x } := by
  have hprep : (v.toNat == 0x5A) = decide (v = 0x5A#8) := Bool.eq_iff_iff.2 (by simp [BitVec.toNat_eq])
  have hgo : (v.toNat == 0xA5 && s.exc.kick) = true ↔ v = 0xA5#8 ∧ s.exc.kick = true := by simp [BitVec.toNat_eq]
  rw [opSvWatchdogKick, hprep]
  by_cases h : v = 0xA5#8 ∧ s.exc.kick = true
  · simp only [hgo.2 h, if_pos h, if_true]
  · simp only [Bool.eq_false_iff.2 (mt hgo.1 h), if_neg h, Bool.false_eq_true, if_false]

theorem opSvWatchdogExpiry_eq (s : State) :
    opSvWatchdogExpiry s =
      if s.halted 4 = true ∨ (s.eng 4).stop ≠ .none then s
      else (s.advanceReal (s.exc.svAt + 1000000 * s.get R.EXC_SVWDT_MS)).deviceFault 2 := by
  simp only [opSvWatchdogExpiry, Bool.or_eq_true, bne_iff_ne]

/-! ## The reset after a device fault (07, R193) -/

theorem opAutoReset_of_some {s : State} {t : Nat} (h : s.exc.autoRst = some t) :
    opAutoReset s =
      if s.phase = .up ∨ s.phase = .starting then (s.advanceReal (t + 1000000 * s.get R.EXC_CTL_ARDELAY)).systemReset 6 else s := by
  simp only [opAutoReset, h, Bool.or_eq_true, beq_iff_eq]

theorem opAutoReset_of_none {s : State} (h : s.exc.autoRst = none) : opAutoReset s = s := by
  simp only [opAutoReset, h]

/-! ## Mirror pairs (07, R186) -/

/-- A pair that is cleared only loses its bit; one that is set needs equal tables and both domains, and starts from reset. -/
theorem State.mirrorPair_eq (f : Fam) (a b : Nat) (v : Bool) (s : State) :
    s.mirrorPair f a b v =
      if s.is f = v then s
      else if v = false then s.put f 0
      else if s.sameTables a b = false ∨ s.domOff (2 + a) = true ∨ s.domOff (2 + b) = true then s.put R.EXC_STAT_MIRERR 1
      else ((s.put f 1).engineReset a).engineReset b := by
  unfold State.mirrorPair
  cases v with
  | false => simp [b2n]
  | true => simp [b2n, or_assoc]

theorem opMirrorWrite_run {s : State} (h : s.inRun = true) (a b : Bool) : opMirrorWrite a b s = s.put R.EXC_STAT_MIRERR 1 :=
  if_pos h

theorem opMirrorWrite_hold {s : State} (h : s.inRun = false) (a b : Bool) :
    opMirrorWrite a b s = (s.mirrorPair R.EXC_CTL_MIR01 0 1 a).mirrorPair R.EXC_CTL_MIR23 2 3 b :=
  if_neg (by simp [h])

/-! ## The scrubber (09, R225) -/

/-- The scrubber's dealing with one word: a correctable error is reported and corrected, an uncorrectable one only reported. -/
def State.scrubWord (s : State) (k : Nat) : State :=
  if s.m.ecc.getD k 0 = 0 then s else if s.m.ecc.getD k 0 = 1 then (s.eccReport 8 k 1).setEcc k 0 else s.eccReport 8 k 2

theorem opScrubStep_of_span {c base size : Nat} {s : State} (hspan : arraySpan c = some (base, size)) (hon : s.is R.SYS_ECC_CTL_SCRUB = true)
    (hup : s.phase = .up) :
    let w := ((arrayOf base).map Prod.snd).getD 4
    let p := s.m.scrub.getD c 0
    let u := State.forAll (s.scrubKeys c base w p) (fun k u => u.scrubWord k) s
    let done := if u.m.scrubDone.contains c then u.m.scrubDone else u.m.scrubDone ++ [c]
    opScrubStep c s =
      if w * (p + 1) < size then { u with m := { u.m with scrub := Store.put c (p + 1) u.m.scrub } }
      else if ∀ a ∈ arrayCodes, a ∈ done then
        { u with m := { u.m with scrub := Store.put c 0 u.m.scrub, scrubDone := [] } }.wrapUp R.SYS_ECC_STAT_PASS
      else { u with m := { u.m with scrub := Store.put c 0 u.m.scrub, scrubDone := done } } := by
  have hcond : (!s.is R.SYS_ECC_CTL_SCRUB || s.phase != .up) = false := by simp [hon, hup]
  simp only [opScrubStep, hspan, hcond, Bool.false_eq_true, if_false, List.all_eq_true, List.contains_iff_mem, State.scrubWord]

/-- An unlisted array, a disabled scrubber, and a device that is not up. -/
theorem opScrubStep_eq_self {c : Nat} {s : State} (h : arraySpan c = none ∨ s.is R.SYS_ECC_CTL_SCRUB = false ∨ s.phase ≠ .up) :
    opScrubStep c s = s := by
  unfold opScrubStep
  split
  · rfl
  · next base size hspan =>
    have hcond : (!s.is R.SYS_ECC_CTL_SCRUB || s.phase != .up) = true := by simpa [hspan] using h
    exact if_pos hcond

/-! ## Injection (09, R226) -/

theorem opEccInject_eq {array mode : Nat} (harray : array < 256) (hmode : mode < 4) (s : State) :
    opEccInject array mode s =
      if !arrayCode array then s.put R.SYS_ECC_STAT_INJERR 1
      else if mode = 3 then s
      else if mode = 0 then { s with m := { s.m with inject := none } }.put R.SYS_ECC_INJ_ARMED 0
      else (({ s with m := { s.m with inject := some (array, mode) } }.put R.SYS_ECC_INJ_ARRAY array).put R.SYS_ECC_INJ_MODE mode).put
        R.SYS_ECC_INJ_ARMED 1 := by
  rw [opEccInject, Nat.mod_eq_of_lt harray, Nat.mod_eq_of_lt hmode]

/-! ## Last words (09, R234) -/

theorem opLastWordCopy_busy {s : State} (h : s.is R.RTC_BKSTAT_LWBUSY = true) (lantern : Bool) :
    opLastWordCopy lantern s = s.put R.RTC_BKSTAT_LWOVW 1 :=
  if_pos h

/-- The copy begins: LWBUSY stands for 2 µs, and a last word that nobody has taken counts as overwritten. -/
def State.lastWordStart (s : State) : State :=
  let b := { s.put R.RTC_BKSTAT_LWBUSY 1 with time := { s.time with lwUntil := s.time.real + 2000 } }
  if s.is R.RTC_BKSTAT_LWVALID then b.put R.RTC_BKSTAT_LWOVW 1 else b

theorem State.now_lastWordStart (s : State) : s.lastWordStart.now = s.now := by
  unfold State.lastWordStart
  split <;> rfl

/-- The copy begins without a change of the registers that it reads. -/
theorem State.get_lastWordStart (s : State) {f : Fam} {i j : Nat} (hbusy : R.RTC_BKSTAT_LWBUSY.key 0 0 ≠ f.key i j)
    (hovw : R.RTC_BKSTAT_LWOVW.key 0 0 ≠ f.key i j) : s.lastWordStart.get f i j = s.get f i j := by
  have hstart := s.get_put_ne _ f 1 0 0 i j hbusy
  unfold State.lastWordStart
  split
  · exact (State.get_put_ne _ _ f 1 0 0 i j hovw).trans hstart
  · exact hstart

theorem opLastWordCopy_free {s : State} (h : s.is R.RTC_BKSTAT_LWBUSY = false) (lantern : Bool) :
    opLastWordCopy lantern s =
      ((((s.lastWordStart.put R.RTC_LW_V
        (s.get R.RTC_LWS0_CODE + (if lantern then 0x10000 else 0) + 2 ^ 24 * ((s.get R.RTC_LW_V 0 / 2 ^ 24 % 256 + 1) % 256)) 0).put
        R.RTC_LW_V s.now 1).put R.RTC_LW_V (s.now / 2 ^ 32) 2).put R.RTC_LW_V (s.get R.RTC_LWS1_DATA) 3).put R.RTC_BKSTAT_LWVALID 1 := by
  have hvalid := s.is_put_ne R.RTC_BKSTAT_LWBUSY R.RTC_BKSTAT_LWVALID 1 0 0 0 0 (by decide)
  have hseq := s.get_put_ne R.RTC_BKSTAT_LWBUSY R.RTC_LW_V 1 0 0 0 0 (by decide)
  have hcode : s.lastWordStart.get R.RTC_LWS0_CODE = s.get R.RTC_LWS0_CODE := s.get_lastWordStart (by decide) (by decide)
  have hdata : s.lastWordStart.get R.RTC_LWS1_DATA = s.get R.RTC_LWS1_DATA := s.get_lastWordStart (by decide) (by decide)
  rw [← hcode, ← hdata, ← hseq, ← s.now_lastWordStart, State.lastWordStart, ← hvalid]
  exact if_neg (by simp [h])

/-- Settles O20: each command is one case distinction on the state before it. What needs more than that is the copy of a last word, whose registers
stand apart from the LWBUSY and LWOVW that it sets first. -/
theorem watchdogsAndEcc : Obligations.WatchdogsAndEcc := by
  unfold Obligations.WatchdogsAndEcc
  refine ⟨?expiry, ?restart, ?kick, ?svExpiry, ?reset, ?noReset, ?mirrorRun, ?mirrorHold, ?writeBack, ?scrub, ?noScrub, ?inject, ?lastWord,
    ?lastWordBusy⟩
  case expiry => exact fun e s hwork hfar => congrArg Host.Outcome.next (opEngineWatchdogExpiry_of_work hwork hfar)
  case restart => exact fun e s h => congrArg Host.Outcome.next (opEngineWatchdogExpiry_of_no_work h)
  case kick => exact fun v s => congrArg Host.Outcome.next (opSvWatchdogKick_eq v s)
  case svExpiry => exact fun s => congrArg Host.Outcome.next (opSvWatchdogExpiry_eq s)
  case reset => exact fun t s h => congrArg Host.Outcome.next (opAutoReset_of_some h)
  case noReset => exact fun s h => congrArg Host.Outcome.next (opAutoReset_of_none h)
  case mirrorRun => exact fun a b s h => congrArg Host.Outcome.next (opMirrorWrite_run h a b)
  case mirrorHold =>
    intro a b s m hhold
    have hpair : ∀ f x y v u, State.mirrorPair f x y v u = m f x y v u := State.mirrorPair_eq
    exact congrArg Host.Outcome.next ((opMirrorWrite_hold hhold a b).trans (by rw [hpair, hpair]))
  case writeBack => exact fun a s => rfl
  case scrub =>
    intro c base size s w p u done hspan hon hup
    exact congrArg Host.Outcome.next (opScrubStep_of_span hspan hon hup)
  case noScrub => exact fun c s h => congrArg Host.Outcome.next (opScrubStep_eq_self h)
  case inject => exact fun array mode s harray hmode => congrArg Host.Outcome.next (opEccInject_eq harray hmode s)
  case lastWord =>
    intro lantern s b u h
    exact congrArg Host.Outcome.next (opLastWordCopy_free h lantern)
  case lastWordBusy => exact fun lantern s h => congrArg Host.Outcome.next (opLastWordCopy_busy h lantern)

end Sys2Proof.Machine
end

section
/-! PROOFS. What CHK_DISCARD writes, against O21 (10, R260). -/

namespace Sys2Proof.Machine

/-! ## The fields of the set-up stand apart -/

/-- The fields of the set-up with each of their indices. -/
def chkCells : List (Fam × Nat) := chkFields.flatMap fun p => (List.range p.2).map fun i => (p.1, i)

theorem mem_chkCells {p : Fam × Nat} (hp : p ∈ chkFields) {i : Nat} (hi : i < p.2) : (p.1, i) ∈ chkCells :=
  List.mem_flatMap.2 ⟨p, hp, List.mem_map.2 ⟨i, List.mem_range.2 hi, rfl⟩⟩

/-- Enough for two families, each with its number of elements, to share no field: another place in the word, another word of the 16 bytes of a
region, or registers that end before the other's begin. -/
def Fam.Apart (p q : Fam × Nat) : Prop :=
  p.1.lsb ≠ q.1.lsb ∨ (p.1.s1 % 16 = 0 ∧ q.1.s1 % 16 = 0 ∧ p.1.base % 16 ≠ q.1.base % 16) ∨ p.1.base + p.1.s1 * (p.2 - 1) < q.1.base

theorem Fam.key_ne_of_apart {p q : Fam × Nat} (hp : p.1.lsb < 32) (hq : q.1.lsb < 32) (h : Fam.Apart p q) {i j : Nat} (hi : i < p.2) :
    p.1.key i 0 ≠ q.1.key j 0 := by
  simp only [Fam.key, Fam.addr, Nat.mul_zero, Nat.add_zero]
  rcases h with hlsb | ⟨hps, hqs, hbase⟩ | hend
  · omega
  · have hpi : p.1.s1 * i % 16 = 0 := by simp [Nat.mul_mod, hps]
    have hqj : q.1.s1 * j % 16 = 0 := by simp [Nat.mul_mod, hqs]
    omega
  · have hpi : p.1.s1 * i ≤ p.1.s1 * (p.2 - 1) := Nat.mul_le_mul_left _ (by omega)
    omega

/-- Two elements of a family stand apart where the family has a step. -/
theorem Fam.key_ne_of_lt {f : Fam} (hstep : 0 < f.s1) {i j : Nat} (h : i < j) : f.key i 0 ≠ f.key j 0 := by
  have hmul : f.s1 * i < f.s1 * j := Nat.mul_lt_mul_of_pos_left h hstep
  simp only [Fam.key, Fam.addr]
  omega

theorem chkFields_lsb_lt : ∀ p ∈ chkFields, p.1.lsb < 32 := by decide

/-- A field without a step stands alone. -/
theorem chkFields_step : ∀ p ∈ chkFields, p.2 = 1 ∨ 0 < p.1.s1 := by decide

theorem chkFields_apart : chkFields.Pairwise Fam.Apart := by
  unfold Fam.Apart
  decide

/-- No two elements of the set-up are one register field. -/
theorem chkCells_pairwise_key_ne : chkCells.Pairwise fun a b => a.1.key a.2 0 ≠ b.1.key b.2 0 := by
  refine List.pairwise_flatMap.2 ⟨fun p hp => List.pairwise_map.2 ?within, chkFields_apart.imp_of_mem ?between⟩
  case within =>
    refine List.pairwise_lt_range.imp_of_mem fun {i j} hi hj hlt => ?_
    rcases chkFields_step p hp with hone | hstep
    · have := List.mem_range.1 hj
      omega
    · exact Fam.key_ne_of_lt hstep hlt
  case between =>
    intro p q hp hq hapart a ha b hb
    obtain ⟨i, hi, rfl⟩ := List.mem_map.1 ha
    obtain ⟨j, -, rfl⟩ := List.mem_map.1 hb
    exact Fam.key_ne_of_apart (chkFields_lsb_lt p hp) (chkFields_lsb_lt q hq) hapart (List.mem_range.1 hi)

/-! ## The discard -/

/-- One element of the pending set-up takes what is in force. -/
def State.discardCell (s : State) (c : Fam × Nat) : State := s.put c.1 (s.act c.1 c.2) c.2

theorem opChkDiscard_eq_foldl (s : State) : opChkDiscard s = chkCells.foldl State.discardCell s := by
  simp only [opChkDiscard, chkCells, List.foldl_flatMap, List.foldl_map, State.discardCell]

/-- What is in force does not hang on the registers. -/
theorem State.act_discardCell (s : State) (c : Fam × Nat) (f : Fam) (i : Nat) : (s.discardCell c).act f i = s.act f i := Eq.refl _

theorem State.get_foldl_discardCell_ne {f : Fam} {i : Nat} {l : List (Fam × Nat)} (h : ∀ c ∈ l, f.key i 0 ≠ c.1.key c.2 0) (s : State) :
    (l.foldl State.discardCell s).get f i = s.get f i := by
  induction l generalizing s with
  | nil => exact Eq.refl _
  | cons c l ih =>
    obtain ⟨hc, hl⟩ := List.forall_mem_cons.1 h
    rw [List.foldl_cons, ih hl, State.discardCell, State.get_put_ne _ _ _ _ _ _ _ _ hc.symm]

/-- Each element that is taken over reads as the value in force, cut to the field's width. -/
theorem State.get_foldl_discardCell {l : List (Fam × Nat)} (hl : l.Pairwise fun a b => a.1.key a.2 0 ≠ b.1.key b.2 0) {c : Fam × Nat} (hc : c ∈ l)
    (s : State) : (l.foldl State.discardCell s).get c.1 c.2 = s.act c.1 c.2 % 2 ^ c.1.width := by
  induction l generalizing s with
  | nil => exact absurd hc List.not_mem_nil
  | cons d l ih =>
    obtain ⟨hd, hl⟩ := List.pairwise_cons.1 hl
    rcases List.mem_cons.1 hc with rfl | hmem
    · rw [List.foldl_cons, State.get_foldl_discardCell_ne hd, State.discardCell, State.get_put_same]
    · rw [List.foldl_cons, ih hl hmem, State.act_discardCell]

/-- A discard gives each field of the set-up the value in force, cut to the field's width (10, R260): the value itself exactly where it fits. -/
theorem get_opChkDiscard {p : Fam × Nat} (hp : p ∈ chkFields) {i : Nat} (hi : i < p.2) (s : State) :
    (opChkDiscard s).get p.1 i = s.act p.1 i % 2 ^ p.1.width := by
  rw [opChkDiscard_eq_foldl, State.get_foldl_discardCell chkCells_pairwise_key_ne (mem_chkCells hp hi)]

/-! ## The refutation -/

/-- A state whose set-up in force holds 4 in the two bits of the DMA agents' privilege. -/
def wideActive : State := { State.reset with m := { MemSt.reset with chk := [(R.CHK_RQPRIV_DMA.key 0 0, 4)] } }

theorem act_wideActive : wideActive.act R.CHK_RQPRIV_DMA 0 = 4 := by decide

/-- Refutes O21: its last clause speaks of every state, and a value in force that is wider than its field cannot be read back from it. The discard
writes 4 to the two bits of CHK.RQPRIV.DMA, which then read 0. -/
theorem not_dmaAndChecker : ¬ Obligations.DmaAndChecker := by
  unfold Obligations.DmaAndChecker
  rintro ⟨-, -, -, -, -, -, -, hdiscard⟩
  have hmem : (R.CHK_RQPRIV_DMA, 1) ∈ chkFields := List.mem_cons_self
  obtain ⟨t, hexec, -, -, -, hget⟩ := hdiscard wideActive
  obtain rfl : opChkDiscard wideActive = t := Host.Outcome.next.inj hexec
  have hwide : (opChkDiscard wideActive).get R.CHK_RQPRIV_DMA 0 = 4 := (hget _ hmem 0 Nat.zero_lt_one).trans act_wideActive
  have hcut : (opChkDiscard wideActive).get R.CHK_RQPRIV_DMA 0 = 0 := by
    rw [get_opChkDiscard hmem Nat.zero_lt_one, act_wideActive]
    rfl
  exact absurd (hwide.symm.trans hcut) (by decide)

end Sys2Proof.Machine
end

section
/-! PROOFS. The entries of a CTRL frame (O59). -/

namespace Sys2Proof.Machine

/-! ## Fields of a byte string (12, R297) -/

/-- What stands behind `l` and before `r` is the slice from the length of `l` on. -/
theorem slice_append_append (l m r : List α) : slice (l ++ (m ++ r)) l.length m.length = m := by
  rw [slice, List.drop_left, List.take_left]

/-- A number that fits its `n` bytes reads back from between any two strings. -/
theorem leAt_append_leBytes {x n : Nat} (h : x < 256 ^ n) (l r : List Byte) : leAt (l ++ (leBytes n x ++ r)) l.length n = x := by
  have hslice := slice_append_append l (leBytes n x) r
  rw [leBytes_length] at hslice
  rw [leAt, hslice, leNat_leBytes, Nat.mod_eq_of_lt h]

theorem le_pad4 (n : Nat) : n ≤ pad4 n := by
  unfold pad4 ceilDiv
  omega

/-! ## One entry -/

/-- The header of an entry: address, length, kind and a byte of 0. -/
def CtrlEnt.header (c : CtrlEnt) : List Byte := leBytes 4 c.addr ++ (leBytes 2 c.data.length ++ (leBytes 1 c.kind ++ [0#8]))

/-- The bytes of 0 that fill the data of an entry up to a whole word. -/
def CtrlEnt.padding (c : CtrlEnt) : List Byte := List.replicate (pad4 c.data.length - c.data.length) 0#8

theorem ctrlBytes_append (c : CtrlEnt) (r : List Byte) : ctrlBytes c ++ r = c.header ++ (c.data ++ (c.padding ++ r)) := by
  simp only [ctrlBytes, CtrlEnt.header, CtrlEnt.padding, List.append_assoc]

@[simp] theorem CtrlEnt.header_length (c : CtrlEnt) : c.header.length = 8 := by
  simp [CtrlEnt.header]

theorem ctrlBytes_length (c : CtrlEnt) : (ctrlBytes c).length = 8 + pad4 c.data.length := by
  have hpad := le_pad4 c.data.length
  have hsum := congrArg List.length (ctrlBytes_append c [])
  simp only [List.append_nil, List.length_append, CtrlEnt.header_length, CtrlEnt.padding, List.length_replicate] at hsum
  omega

/-- An entry whose fields fit a CTRL frame, from the Reflect engine. -/
def CtrlEnt.Fits (c : CtrlEnt) : Prop := c.addr < 2 ^ 32 ∧ c.kind < 256 ∧ c.data.length < 65536 ∧ c.req = 6

/-- The first entry of a payload reads back, and reading goes on behind it. -/
theorem ctrlEntries_ctrlBytes_append {c : CtrlEnt} (h : c.Fits) (k : Nat) (r : List Byte) :
    ctrlEntries (k + 1) (ctrlBytes c ++ r) = c :: ctrlEntries k r := by
  obtain ⟨haddr, hkind, hlen, hreq⟩ := h
  have hroom : ¬ (ctrlBytes c ++ r).length < 8 := by
    rw [List.length_append, ctrlBytes_length]
    omega
  have hn : leAt (ctrlBytes c ++ r) 4 2 = c.data.length := by
    simpa [ctrlBytes] using leAt_append_leBytes (n := 2) hlen (leBytes 4 c.addr) _
  have ha : leAt (ctrlBytes c ++ r) 0 4 = c.addr := by
    simpa [ctrlBytes] using leAt_append_leBytes (n := 4) haddr [] _
  have hk : leAt (ctrlBytes c ++ r) 6 1 = c.kind := by
    simpa [ctrlBytes] using leAt_append_leBytes (n := 1) hkind (leBytes 4 c.addr ++ leBytes 2 c.data.length) _
  have hd : slice (ctrlBytes c ++ r) 8 c.data.length = c.data := by
    rw [ctrlBytes_append, ← c.header_length, slice_append_append]
  have hrest : (ctrlBytes c ++ r).drop (8 + pad4 c.data.length) = r := by
    rw [← ctrlBytes_length, List.drop_left]
  simp only [ctrlEntries, if_neg hroom, hn, ha, hk, hd, hrest]
  rw [← hreq]

/-! ## All entries -/

theorem ctrlEntries_nil (k : Nat) : ctrlEntries k [] = [] := by
  cases k <;> rfl

/-- Reading needs one turn for each entry, and stops where the payload ends. -/
theorem ctrlEntries_flatMap_ctrlBytes {l : List CtrlEnt} (h : ∀ c ∈ l, c.Fits) {k : Nat} (hk : l.length ≤ k) :
    ctrlEntries k (l.flatMap ctrlBytes) = l := by
  induction l generalizing k with
  | nil => exact ctrlEntries_nil k
  | cons c l ih =>
    obtain ⟨hc, hl⟩ := List.forall_mem_cons.1 h
    obtain ⟨j, rfl⟩ := Nat.exists_eq_succ_of_ne_zero (Nat.ne_of_gt (Nat.lt_of_lt_of_le (Nat.succ_pos _) hk))
    rw [List.flatMap_cons, ctrlEntries_ctrlBytes_append hc, ih hl (Nat.le_of_succ_le_succ hk)]

/-- Each entry takes at least the 8 bytes of its header. -/
theorem length_le_flatMap_ctrlBytes (l : List CtrlEnt) : l.length ≤ (l.flatMap ctrlBytes).length / 8 := by
  induction l with
  | nil => exact Nat.zero_le _
  | cons c l ih =>
    rw [List.flatMap_cons, List.length_append, ctrlBytes_length, List.length_cons]
    omega

/-- Settles O59, by induction on the entries: the fields of the first one read back, and reading goes on where its padding ends. -/
theorem controlEntriesRoundTrip : Obligations.ControlEntriesRoundTrip := by
  unfold Obligations.ControlEntriesRoundTrip
  exact fun l h => ctrlEntries_flatMap_ctrlBytes h (length_le_flatMap_ctrlBytes l)

end Sys2Proof.Machine
end

section
/-! PROOFS. Switchover, rejoin and role swap (O25). -/

namespace Sys2Proof.Machine

/-! ## Switchover (12, R308) -/

/-- Without the END of the turn last started, the instances that were released after its start are discarded. -/
def State.discardUnended (s : State) : State :=
  match s.rfl.cur with
  | some c => if c.fin = none then State.forAll (List.range 48) (State.discardAfter (leAt (c.head.getD []) 0 8)) s else s
  | none => s

theorem opSwitchover_of_missed {s : State} (hfollow : s.following = true) (hmissed : s.get R.RFL_CFG_M ≤ s.get R.RFL_STAT_MISSED) :
    let u := s.discardUnended
    opSwitchover s =
      if s.is R.RFL_STAT_OWN then { u.leadStart with rfl := { u.leadStart.rfl with fresh := true } }.raise 249 0 else s.stopFollowing 0x10 := by
  intro u
  have hu : u = match s.rfl.cur with
      | some c => if c.fin.isSome then s else State.forAll (List.range 48) (State.discardAfter (leAt (c.head.getD []) 0 8)) s
      | none => s := by
    simp only [u, State.discardUnended]
    cases s.rfl.cur with
    | none => rfl
    | some c => cases hfin : c.fin <;> simp [hfin]
  rw [opSwitchover, if_neg (by simp [hfollow, hmissed]), hu]
  cases s.is R.RFL_STAT_OWN <;> rfl

theorem opSwitchover_eq_self {s : State} (h : s.following = false ∨ s.get R.RFL_STAT_MISSED < s.get R.RFL_CFG_M) : opSwitchover s = s :=
  if_pos (by simpa using h)

/-! ## Rejoin (12, R309, R311, R313, R316, R317) -/

/-- A rejoin has begun: HELLO is sent, and nothing of earlier records is kept. -/
def State.rejoinBegun (s : State) : State :=
  let u := s.sendHello.put R.RFL_STAT_REJ 1
  { u with rfl := { u.rfl with retryAt := none, cur := none, nxt := none, skipped := none, staged := [], image := [], owed := 0 } }

theorem State.rejoinStart_eq (s : State) :
    s.rejoinStart =
      if s.is R.RFL_STAT_LINK = true ∧ (s.get R.RFL_STAT_ROLE = 3 ∨ (s.lead = true ∧ s.is R.RFL_STAT_READY = false)) then
        (if s.lead then s else s.enginesHeld).rejoinBegun
      else s.put R.RFL_STAT_CMDERR 1 := by
  simp only [State.rejoinStart, State.rejoinBegun, Bool.and_eq_true, Bool.or_eq_true, beq_iff_eq, Bool.not_eq_true']

theorem State.lead_of_role_shadow {s : State} (h : s.get R.RFL_STAT_ROLE = 3) : s.lead = false := by
  simp [State.lead, h]

/-- On a Shadow with the link up a rejoin starts with its engines held. -/
theorem State.rejoinStart_shadow {s : State} (hrole : s.get R.RFL_STAT_ROLE = 3) (hlink : s.is R.RFL_STAT_LINK = true) :
    s.rejoinStart = s.enginesHeld.rejoinBegun := by
  rw [State.rejoinStart_eq, if_pos ⟨hlink, .inl hrole⟩, State.lead_of_role_shadow hrole]
  rfl

/-- The retry takes place at its time `t`, in the state `u` to which the clocks have come then. -/
theorem opRejoinRetry_of_some {s u : State} {t : Nat} (h : s.rfl.retryAt = some t) (hu : s.advance t = u) :
    opRejoinRetry s =
      if u.get R.RFL_STAT_ROLE = 3 ∧ u.is R.RFL_STAT_LINK = true then u.enginesHeld.rejoinBegun
      else { u with rfl := { u.rfl with
        retryAt := if u.get R.RFL_STAT_ROLE = 3 then some (u.now + u.get R.RFL_SWLIM_RETRY * 1000000000) else none } } := by
  simp only [opRejoinRetry, h, hu, beq_iff_eq]
  split
  · next hready => exact State.rejoinStart_shadow hready.1 hready.2
  · rfl

theorem opRejoinRetry_of_none {s : State} (h : s.rfl.retryAt = none) : opRejoinRetry s = s := by
  simp only [opRejoinRetry, h]

theorem opRejoinFailure_eq (s : State) :
    let j := s.get R.RFL_STAT_REJ
    opRejoinFailure s =
      if s.lead = true ∧ j = 3 ∧ s.get R.RFL_SWEEP_WAIT ≤ s.rfl.idleWait then s.rejoinFail 0x22
      else if s.lead = true ∧ (j = 2 ∨ j = 3) ∧ s.get R.RFL_SWLIM_LIMIT ≤ s.rfl.turns then s.rejoinFail 0x20 else s := by
  simp only [opRejoinFailure, Bool.and_eq_true, Bool.or_eq_true, beq_iff_eq, decide_eq_true_eq, and_assoc]

theorem opSyncTurn_eq (s : State) :
    opSyncTurn s =
      if s.lead = true ∧ s.get R.RFL_STAT_REJ = 3 ∧ s.allIdle = true then { s with rfl := { s.rfl with sync := true } } else s := by
  simp only [opSyncTurn, Bool.and_eq_true, beq_iff_eq, and_assoc]

/-! ## Role swap (12, R310) -/

theorem opRflSwap_eq (s : State) :
    let w := s.get R.RFL_SWAPAT_LO_A + 2 ^ 32 * s.get R.RFL_SWAPAT_HI_A
    opRflSwap s =
      if s.lead = true ∧ s.is R.RFL_STAT_READY = true ∧ s.seq.abs + 2 ≤ w ∧ (s.get R.RFL_STAT_REJ = 0 ∨ s.get R.RFL_STAT_REJ = 5)
          ∧ ((List.range 4).all fun e => !s.is R.LE_PRG_STAT_SCHEDULED e) = true ∧ s.pwr.want ≠ some 1 ∧ s.pwr.want ≠ some 2
      then { s with rfl := { s.rfl with swap := some w, swapWait := 0 } } else s.put R.RFL_STAT_CMDERR 1 := by
  intro w
  have hrefuse : (!s.lead || !s.is R.RFL_STAT_READY || decide (w < s.seq.abs + 2) || (s.get R.RFL_STAT_REJ != 0 && s.get R.RFL_STAT_REJ != 5) ||
        (List.range 4).any (fun e => s.is R.LE_PRG_STAT_SCHEDULED e) || s.pwr.want == some 1 || s.pwr.want == some 2) = true ↔
      ¬ (s.lead = true ∧ s.is R.RFL_STAT_READY = true ∧ s.seq.abs + 2 ≤ w ∧ (s.get R.RFL_STAT_REJ = 0 ∨ s.get R.RFL_STAT_REJ = 5)
          ∧ ((List.range 4).all fun e => !s.is R.LE_PRG_STAT_SCHEDULED e) = true ∧ s.pwr.want ≠ some 1 ∧ s.pwr.want ≠ some 2) := by
    rw [← Bool.not_eq_false]
    refine not_congr ?_
    simp only [Bool.or_eq_false_iff, Bool.and_eq_false_iff, Bool.not_eq_false', Bool.not_eq_true', decide_eq_false_iff_not, Nat.not_lt,
      bne_eq_false_iff_eq, beq_eq_false_iff_ne, List.any_eq_false, List.all_eq_true, Bool.not_eq_true, and_assoc, w]
  simp only [opRflSwap, State.get64]
  exact (ite_congr (propext hrefuse) (fun _ => rfl) fun _ => rfl).trans (ite_not ..)

theorem opRoleSwap_of_some {s : State} {w : Nat} (h : s.rfl.swap = some w) :
    opRoleSwap s =
      if s.lead = true ∧ s.is R.RFL_STAT_READY = true ∧ w ≤ s.seq.abs + 1 ∧ s.allIdle = true then
        { s with rfl := { s.rfl with swap := none, swapWait := 0, swapAt := some (s.seq.abs + 1) } }
      else s := by
  simp only [opRoleSwap, h, Bool.and_eq_true, decide_eq_true_eq, and_assoc]

theorem opRoleSwap_of_none {s : State} (h : s.rfl.swap = none) : opRoleSwap s = s := by
  simp only [opRoleSwap, h]

/-- Settles O25: each command is one case distinction on the state before it; a retry that finds link and role is a rejoin of a Shadow. -/
theorem pairCommands : Obligations.PairCommands := by
  unfold Obligations.PairCommands
  refine ⟨?switch, ?noSwitch, ?stop, ?rejoin, ?retry, ?noRetry, ?failure, ?sync, ?swap, ?roles, ?noRoles⟩
  case switch =>
    intro s u hfollow hmissed
    have hu : u = s.discardUnended := rfl
    clear_value u
    subst hu
    exact congrArg Host.Outcome.next (opSwitchover_of_missed hfollow hmissed)
  case noSwitch => exact fun s h => congrArg Host.Outcome.next (opSwitchover_eq_self h)
  case stop => exact fun s => ⟨rfl, rfl, rfl⟩
  case rejoin =>
    intro s u
    exact congrArg Host.Outcome.next s.rejoinStart_eq
  case retry =>
    intro t s u h hretry
    have hu : s.advance t = u := rfl
    have hh : h = u.enginesHeld.sendHello.put R.RFL_STAT_REJ 1 := rfl
    clear_value h u
    subst hh
    exact congrArg Host.Outcome.next (opRejoinRetry_of_some hretry hu)
  case noRetry => exact fun s h => congrArg Host.Outcome.next (opRejoinRetry_of_none h)
  case failure => exact fun s => congrArg Host.Outcome.next (opRejoinFailure_eq s)
  case sync => exact fun s => congrArg Host.Outcome.next (opSyncTurn_eq s)
  case swap => exact fun s => congrArg Host.Outcome.next (opRflSwap_eq s)
  case roles => exact fun w s h => congrArg Host.Outcome.next (opRoleSwap_of_some h)
  case noRoles => exact fun s h => congrArg Host.Outcome.next (opRoleSwap_of_none h)

end Sys2Proof.Machine
end

section
/-! PROOFS. Turn records and forwarded frames (O24). -/

namespace Sys2Proof.Machine

/-! ## A frame goes into its record (12, R296, R299) -/

/-- The record with a frame of sequence `n` and index `idx`, whose payload is added by `f`. -/
def RecvRec.withFrame (n idx : Nat) (f : RecvRec → RecvRec) (r : RecvRec) : RecvRec := f { r with seq := n, idx := r.idx ++ [idx] }

/-- The frames still owed once one of index `idx` has come for the record: one that leaves no gap is a frame that was owed. -/
def State.owedAfter (s : State) (idx : Nat) (r : RecvRec) : Nat :=
  if s.rfl.owed ≠ 0 ∧ (List.range idx).all r.idx.contains = true then s.rfl.owed - 1 else s.rfl.owed

/-- The frame begins the next record; `k` is the record that has given way so far. -/
def State.recordBegun (n idx : Nat) (f : RecvRec → RecvRec) (k : Option RecvRec) (s : State) : State :=
  { s with rfl := { s.rfl with nxt := some ((RecvRec.fresh n).withFrame n idx f), owed := s.owedAfter idx (RecvRec.fresh n), skipped := k } }

/-- What a frame does to the records of a unit that listens. -/
def State.recordTaken (n idx : Nat) (f : RecvRec → RecvRec) (s : State) : State :=
  match s.rfl.nxt, s.rfl.cur with
  | some r, _ =>
    if n = r.seq then { s with rfl := { s.rfl with nxt := some (r.withFrame n idx f), owed := s.owedAfter idx r } }
    else if seqNewer n r.seq then s.recordBegun n idx f (some r) else s
  | none, some r =>
    if n = r.seq then { s with rfl := { s.rfl with cur := some (r.withFrame n idx f), owed := s.owedAfter idx r } }
    else if seqNewer n r.seq then s.recordBegun n idx f s.rfl.skipped else s
  | none, none => s.recordBegun n idx f s.rfl.skipped

theorem State.owed_sub_again (s : State) (idx : Nat) (r : RecvRec) :
    s.rfl.owed - b2n (s.rfl.owed != 0 && (List.range idx).all r.idx.contains) = s.owedAfter idx r := by
  simp only [State.owedAfter, b2n, Bool.and_eq_true, bne_iff_ne]
  split <;> rfl

theorem State.intoRecord_eq (n idx : Nat) (f : RecvRec → RecvRec) (r : RecvRec) (put : RecvRec → State → State) (s : State) :
    s.intoRecord n idx f r put = put (r.withFrame n idx f) { s with rfl := { s.rfl with owed := s.owedAfter idx r } } := by
  rw [State.intoRecord, State.owed_sub_again]
  rfl

theorem State.record_of_listens {s : State} (h : s.listens = true) (n idx : Nat) (f : RecvRec → RecvRec) :
    s.record n idx f = s.recordTaken n idx f := by
  simp only [State.record, h, State.recordTaken, State.recordBegun, State.intoRecord_eq, Bool.not_true, Bool.false_eq_true, if_false]
  cases s.rfl.nxt with
  | some r => rfl
  | none => cases s.rfl.cur <;> rfl

theorem State.record_of_not_listens {s : State} (h : s.listens = false) (n idx : Nat) (f : RecvRec → RecvRec) : s.record n idx f = s := by
  simp only [State.record, h, Bool.not_false, if_true]

/-- Whether a unit listens does not hang on its records. -/
theorem State.listens_recordTaken (n idx : Nat) (f : RecvRec → RecvRec) (s : State) : (s.recordTaken n idx f).listens = s.listens := by
  unfold State.recordTaken
  split
  · split
    · rfl
    · split <;> rfl
  · split
    · rfl
    · split <;> rfl
  · rfl

theorem opHead_of_listens {s : State} (h : s.listens = true) (seq idx : Nat) (d : List Byte) :
    let u := s.recordTaken (seq % 65536) idx fun r => { r with head := some d }
    opHead seq idx d s = { u with rfl := { u.rfl with release := false } }.conflict := by
  simp only [opHead, State.record_of_listens h, State.listens_recordTaken, h, if_true]

theorem opHead_of_not_listens {s : State} (h : s.listens = false) (seq idx : Nat) (d : List Byte) : opHead seq idx d s = s := by
  simp only [opHead, State.record_of_not_listens h, h, Bool.false_eq_true, if_false]

/-- An engine that stalls for a far value takes the first that waits for it (12, R304). -/
def State.farStalled (s : State) (e : Nat) : State :=
  match (s.eng e).stalled, s.rfl.farq.getD e [] with
  | true, x :: r => ({ s with rfl := { s.rfl with farq := Store.put e r s.rfl.farq } }).farTake e x
  | _, _ => s

/-- The values of a FAR frame, behind those that the record has for their engines. -/
def farEntries (d : List Byte) (r : RecvRec) : RecvRec :=
  { r with far := (entries 6 d).foldl (fun t e => Store.put (leAt e 0 1) (t.getD (leAt e 0 1) [] ++ [(leAt e 1 1 % 16, leAt e 2 4)]) t) r.far }

theorem opFar_of_listens {s : State} (h : s.listens = true) (seq idx : Nat) (d : List Byte) :
    opFar seq idx d s = [0, 1, 2, 3].foldl State.farStalled (s.recordTaken (seq % 65536) idx (farEntries d)).farFlow :=
  congrArg (fun u : State => [0, 1, 2, 3].foldl State.farStalled u.farFlow) (State.record_of_listens h (seq % 65536) idx (farEntries d))

theorem opPage_of_listens {s : State} (h : s.listens = true) (seq idx : Nat) (d : List Byte) (bad : List Nat) :
    let p : PageIn := { turn := leAt d 4 4, page := leAt d 0 2, mask := leAt d 8 8, data := d.drop 16, bad := bad }
    let z := s.recordTaken (seq % 65536) idx id
    let u := if p.page + 1 = sweptPages ∧ z.rfl.repair.isSome = true then { z with rfl := { z.rfl with repair := none, repaired := true } } else z
    opPage seq idx d bad s = if u.following then { u with rfl := { u.rfl with staged := u.rfl.staged ++ [p] } } else u.applyPage p := by
  simp only [opPage, h, State.record_of_listens h, Bool.not_true, Bool.false_eq_true, if_false, Bool.and_eq_true, beq_iff_eq]

theorem opPage_of_not_listens {s : State} (h : s.listens = false) (seq idx : Nat) (d : List Byte) (bad : List Nat) : opPage seq idx d bad s = s :=
  if_pos (by simp [h])

/-! ## Frames with a bad CRC, and frames sent again (12, R296) -/

theorem opReflectFrameCrcError_eq (s : State) :
    opReflectFrameCrcError s =
      { s with rfl := { s.rfl with naks := s.rfl.naks + 1, owed := if s.listens then s.rfl.owed + 1 else s.rfl.owed } }.bump R.RFL_CNT_RETRY := by
  unfold opReflectFrameCrcError
  cases s.listens <;> rfl

/-! ## Status and the forwarded frames (12, R283, R297, R319) -/

theorem opStatus_eq (role disc : Nat) (l : List Nat) (s : State) :
    let r := fun e => (e, l.getD (3 * e) 0, l.getD (3 * e + 1) 0, l.getD (3 * e + 2) 0)
    let u := { s with rfl := { s.rfl with statusSeen := true, disc := disc, reports := [r 0, r 1, r 2, r 3] } }.put R.RFL_STAT_READY (b2n (role == 2))
    opStatus role disc l s =
      if s.lead = false then s else if role = 2 ∧ s.get R.RFL_STAT_REJ = 4 then u.put R.RFL_STAT_REJ 0 else u := by
  intro r u
  have hrej : u.get R.RFL_STAT_REJ = s.get R.RFL_STAT_REJ := State.get_put_ne _ _ _ _ _ _ _ _ (by decide)
  rw [← hrej]
  simp only [opStatus, Bool.not_eq_true']
  rfl

/-- Bit 0 of a number that is set anew stands for what is added to twice the half of it. -/
theorem setBit_zero (x : Nat) (b : Bool) : setBit x 0 b = 2 * (x / 2) + b2n b := by
  have hsplit := Nat.div_add_mod x 2
  cases b with
  | false =>
    simp only [setBit, b2n, Nat.testBit_zero, decide_eq_true_eq, Bool.false_eq_true, if_false]
    split <;> omega
  | true =>
    have hone := Nat.div_add_mod (x ||| 1) 2
    rw [Nat.or_div_two, Nat.or_mod_two_eq_one.2 (.inr rfl)] at hone
    simpa [setBit, b2n] using hone.symm

theorem opLogFrame_eq (time code data cls : Nat) (s : State) :
    opLogFrame time code data cls s =
      s.logPut false { time := time, kind := 0, code := code % 65536,
                       data := 2 * (data % 65536 / 2) + (if s.is R.RFL_CFG_UNIT then 0 else 1), cls := cls % 5, pin := false, origin := true,
                       copy := false, ramOnly := false } := by
  rw [opLogFrame, setBit_zero]
  cases s.is R.RFL_CFG_UNIT <;> rfl

/-! ## Digests (12, R307) -/

/-- The digests that were compared are done with. -/
def State.digestsDone (s : State) : State := { s with rfl := { s.rfl with digOwn := none, digPeer := none, repaired := false } }

/-- The partner's digest is compared with the own one of the same turn. -/
theorem State.digestCompare_of_peer {s : State} {a x : Nat} (h : s.rfl.digPeer = some (a, x)) :
    let w := (s.digestsDone.bump R.RFL_DIGSTAT_MISMATCH).raise 251 0
    s.digestCompare =
      match s.rfl.digOwn with
      | none => s
      | some (b, y) =>
        if b ≠ a then s
        else if y = x then s.digestsDone.wrapUp R.RFL_DIGSTAT_MATCH
        else if w.following = true ∧ s.rfl.repaired = true then w.stopFollowing 0x15 else w.repairStart := by
  simp only [State.digestCompare, h, Bool.and_eq_true]
  cases s.rfl.digOwn <;> rfl

theorem opDigest_of_paired {s : State} (h : s.lead = true ∨ s.following = true) (a x : Nat) :
    opDigest a x s = { s with rfl := { s.rfl with digPeer := some (a, x) } }.digestCompare :=
  if_pos (by simpa using h)

theorem opDigest_of_alone {s : State} (hlead : s.lead = false) (hfollow : s.following = false) (a x : Nat) : opDigest a x s = s :=
  if_neg (by simp [hlead, hfollow])

theorem opDigestComplete_eq (s : State) :
    opDigestComplete s =
      match s.rfl.digRun with
      | none => s
      | some (a, x) =>
        ({ s with rfl := { s.rfl with digRun := none, digOwn := some (a, x) } }.rflSend 9 (leBytes 8 a ++ leBytes 8 x)).digestCompare := by
  unfold opDigestComplete
  cases s.rfl.digRun <;> rfl

/-! ## Releases on a following Shadow (12, R303) -/

theorem State.relNow_of_found {s : State} {e : Nat} {c : RecvRec} {r : RelEnt} (hcur : s.rfl.cur = some c)
    (hfind : (s.rfl.relOld.find? fun r => s.tEng r.task == e).or
      (if s.rfl.behind.contains e then none else c.rel.find? fun r => s.tEng r.task == e) = some r)
    (hfollow : s.following = true) (htask : r.task < 48) (hdue : s.timeIdle e = true ∨ r.ofs ≤ s.count e) : s.relNow e = some r := by
  simp only [State.relNow, hcur, Option.bind_some, hfind, hfollow, htask, decide_true, Bool.true_and]
  exact if_pos (by simpa using hdue)

theorem State.relDrop_of_cur {s : State} {c : RecvRec} (hcur : s.rfl.cur = some c) (r : RelEnt) :
    s.relDrop r =
      if s.rfl.relOld.contains r then { s with rfl := { s.rfl with relOld := s.rfl.relOld.erase r } }
      else { s with rfl := { s.rfl with cur := some { c with rel := c.rel.erase r } } } := by
  simp only [State.relDrop, hcur, Option.map_some]

/-- What stands beside the releases stays. -/
theorem State.relDrop_frame (r : RelEnt) (s : State) :
    (s.relDrop r).engs = s.engs ∧ (s.relDrop r).rfl.turnT = s.rfl.turnT ∧ (s.relDrop r).rfl.timeline = s.rfl.timeline := by
  unfold State.relDrop
  split <;> exact ⟨Eq.refl _, Eq.refl _, Eq.refl _⟩

theorem State.count_relDrop (r : RelEnt) (s : State) (e : Nat) : (s.relDrop r).count e = s.count e := by
  obtain ⟨hengs, -, htime⟩ := s.relDrop_frame r
  simp only [State.count, State.eng, hengs, htime]

/-- A release that is due goes off the records; its task is considered, with the instant of the release on the Lead as its guard's reference. -/
theorem opShadowRelRelease_of_due {s t u : State} {e : Nat} {r : RelEnt} (ht : s.turnCatch e = t) (hnow : t.relNow e = some r)
    (hu : t.relDrop r = u) :
    let q := (({ u with rfl := { u.rfl with timeline := Store.put e (max r.ofs (u.count e), (u.eng e).cyc) u.rfl.timeline } }).upT r.task
      fun x => { x with guard := some (t.rfl.turnT / 2 ^ 32 * 2 ^ 32 + r.ts) }).consider r.task
    opShadowRelRelease e s = match q.2 with | some n => q.1.raise n.1 n.2 | none => q.1 := by
  obtain ⟨-, hturn, -⟩ := t.relDrop_frame r
  have hcount := t.count_relDrop r e
  rw [hu] at hturn hcount
  rw [hcount, ← hturn]
  simp only [opShadowRelRelease, ht, hnow, hu]
  rfl

theorem opShadowRelRelease_of_none {s : State} {e : Nat} (h : (s.turnCatch e).relNow e = none) : opShadowRelRelease e s = s.turnCatch e := by
  simp only [opShadowRelRelease, h]

theorem State.relNow_of_not_following {s : State} (h : s.following = false) (e : Nat) : s.relNow e = none := by
  simp only [State.relNow, h, Bool.false_and, Bool.false_eq_true, if_false]
  split <;> rfl

theorem State.turnCatch_of_not_following {s : State} (h : s.following = false) (e : Nat) : s.turnCatch e = s :=
  if_pos (by simp [State.caughtUp, h])

theorem opShadowRelRelease_of_not_following {s : State} (h : s.following = false) (e : Nat) : opShadowRelRelease e s = s := by
  have hcatch := State.turnCatch_of_not_following h e
  rw [opShadowRelRelease_of_none (hcatch.symm ▸ State.relNow_of_not_following h e), hcatch]

/-! ## HELLO (12, R312) -/

theorem opHello_of_paired {s : State} (hlink : s.is R.RFL_STAT_LINK = true) (hmode : s.is R.RFL_CFG_MODE = true)
    (hrole : s.lead = true ∨ s.get R.RFL_STAT_ROLE = 3) (l : List Nat) :
    let u := if s.get R.RFL_STAT_REJ = 1 then s else s.sendHello
    opHello l s =
      match helloErr u.helloItems l with
      | some n => u.rejoinFail n
      | none => if u.lead then u.roundsStart else ({ u with rfl := { u.rfl with peer := l } }.put R.RFL_STAT_REJ 2).put R.RFL_STAT_REASON 0 := by
  have hpair : (s.lead || s.get R.RFL_STAT_ROLE == 3) = true := by
    rw [Bool.or_eq_true, beq_iff_eq]
    exact hrole
  exact if_neg (by simp only [hlink, hmode, hpair, Bool.not_true, Bool.or_self, Bool.false_eq_true, not_false_eq_true])

theorem opHello_eq_self {s : State}
    (h : s.is R.RFL_STAT_LINK = false ∨ s.is R.RFL_CFG_MODE = false ∨ (s.lead = false ∧ s.get R.RFL_STAT_ROLE ≠ 3)) (l : List Nat) :
    opHello l s = s :=
  if_pos (by simpa [or_assoc] using h)

/-- Settles O24: on a unit that listens a frame goes into its record by one law, whatever its type, and on one that does not nothing changes; every other
command is one case distinction on the state before it. -/
theorem turnRecords : Obligations.TurnRecords := by
  unfold Obligations.TurnRecords
  refine ⟨?frames, ?far, ?page, ?deaf, ?badCrc, ?nak, ?status, ?log, ?brick, ?digest, ?alone, ?complete, ?release, ?noRelease, ?notFollowing, ?hello,
    ?noHello⟩
  case frames =>
    intro seq idx d s n a o w m h hlisten
    have hm : ∀ f, m f = s.recordTaken n idx f := fun f => rfl
    have hrec := fun f => (State.record_of_listens hlisten n idx f).trans (hm f).symm
    exact ⟨congrArg Host.Outcome.next (opHead_of_listens hlisten seq idx d), congrArg Host.Outcome.next (hrec _), congrArg Host.Outcome.next (hrec _),
      congrArg Host.Outcome.next (hrec _), congrArg Host.Outcome.next (hrec _), congrArg Host.Outcome.next (hrec _)⟩
  case far =>
    intro seq idx d s n a o w m g t hlisten
    exact congrArg Host.Outcome.next (opFar_of_listens hlisten seq idx d)
  case page =>
    intro seq idx d bad s n a o w m p z u hlisten
    exact congrArg Host.Outcome.next (opPage_of_listens hlisten seq idx d bad)
  case deaf =>
    intro seq idx d bad s h
    have hrec := State.record_of_not_listens h (seq % 65536) idx
    exact ⟨congrArg Host.Outcome.next (opHead_of_not_listens h seq idx d), congrArg Host.Outcome.next (hrec _), congrArg Host.Outcome.next (hrec _),
      congrArg Host.Outcome.next (hrec _), congrArg Host.Outcome.next (hrec _), congrArg Host.Outcome.next (hrec _),
      congrArg Host.Outcome.next (opPage_of_not_listens h seq idx d bad)⟩
  case badCrc => exact fun s => congrArg Host.Outcome.next (opReflectFrameCrcError_eq s)
  case nak => exact fun seq idx s => rfl
  case status => exact fun role disc l s => congrArg Host.Outcome.next (opStatus_eq role disc l s)
  case log => exact fun time code data cls s => congrArg Host.Outcome.next (opLogFrame_eq time code data cls s)
  case brick => exact fun d s => rfl
  case digest =>
    intro a x s k v w h
    exact congrArg Host.Outcome.next ((opDigest_of_paired h a x).trans (State.digestCompare_of_peer rfl))
  case alone => exact fun a x s hlead hfollow => congrArg Host.Outcome.next (opDigest_of_alone hlead hfollow a x)
  case complete => exact fun s => congrArg Host.Outcome.next (opDigestComplete_eq s)
  case release =>
    intro e c r s t u q hcur hfind hfollow htask hdue
    have hnow := State.relNow_of_found hcur hfind hfollow htask hdue
    exact congrArg Host.Outcome.next (opShadowRelRelease_of_due rfl hnow (State.relDrop_of_cur hcur r))
  case noRelease =>
    intro e s t h
    exact congrArg Host.Outcome.next (opShadowRelRelease_of_none h)
  case notFollowing => exact fun e s h => congrArg Host.Outcome.next (opShadowRelRelease_of_not_following h e)
  case hello => exact fun l s hlink hmode hrole => congrArg Host.Outcome.next (opHello_of_paired hlink hmode hrole l)
  case noHello => exact fun l s h => congrArg Host.Outcome.next (opHello_eq_self h l)

end Sys2Proof.Machine
end

section
/-! PROOFS. What the pins, the log and the events leave alone: the record of the turn in hand (for O23). -/

namespace Sys2Proof.Machine

/-- Indices in turn keep the record of the turn in hand where each of them does. -/
theorem State.forAll_cur {f : α → State → State} (hf : ∀ x s, (f x s).rfl.cur = s.rfl.cur) (l : List α) (s : State) :
    (State.forAll l f s).rfl.cur = s.rfl.cur :=
  State.forAll_keeps (P := fun t => t.rfl.cur = s.rfl.cur) (fun x t h => (hf x t).trans h) l (Eq.refl _)

theorem State.ite_cur {c : Prop} [Decidable c] {a b : State} {r : Option RecvRec} (ha : a.rfl.cur = r) (hb : b.rfl.cur = r) :
    (if c then a else b).rfl.cur = r := by
  split
  · exact ha
  · exact hb

theorem State.fst_ite_cur {c : Prop} [Decidable c] {a b : State × α} {r : Option RecvRec} (ha : a.1.rfl.cur = r) (hb : b.1.rfl.cur = r) :
    (if c then a else b).1.rfl.cur = r := by
  split
  · exact ha
  · exact hb

/-! ## Memory words and queues (09, R220; 23, R553) -/

@[simp] theorem State.eccStore_rfl (key : Nat) (s : State) : (s.eccStore key).rfl = s.rfl := by
  unfold State.eccStore
  split
  · split <;> rfl
  · rfl

@[simp] theorem State.bufStore_cur (a n : Nat) (s : State) : (State.bufStore a n s).rfl.cur = s.rfl.cur := by
  unfold State.bufStore
  split
  · rfl
  · exact State.forAll_cur (fun _ _ => by simp) _ s

@[simp] theorem State.qStore_cur (k n : Nat) (s : State) : (s.qStore k n).rfl.cur = s.rfl.cur :=
  State.bufStore_cur ..

@[simp] theorem State.markDirty_cur (work : Bool) (a n : Nat) (s : State) : (s.markDirty work a n).rfl.cur = s.rfl.cur := by
  unfold State.markDirty
  split
  · exact State.forAll_cur (fun _ _ => by rfl) _ s
  · rfl

theorem State.cachePut_rfl (a : Nat) (b : Byte) (s : State) : (s.cachePut a b).rfl = s.rfl := by
  unfold State.cachePut
  split <;> rfl

@[simp] theorem State.setCopy_cur (s : State) (copy a : Nat) (l : List Byte) : (s.setCopy copy a l).rfl.cur = s.rfl.cur := by
  have hcache := State.forAll_cur (fun (p : Nat × Byte) (t : State) => congrArg RflSt.cur (t.cachePut_rfl (a + p.1) p.2))
  exact State.ite_cur (Eq.refl _) (State.ite_cur (State.markDirty_cur ..) (State.ite_cur (hcache _ s) (State.markDirty_cur ..)))

@[simp] theorem State.putWords_cur (copy a : Nat) (l : List Byte) (s : State) : (s.putWords copy a l).rfl.cur = s.rfl.cur := by
  rw [State.putWords, State.forAll_cur (fun _ _ => by simp), State.setCopy_cur]

/-! ## The log and the link (22, R546; 12, R296) -/

@[simp] theorem State.keepPush_cur (r : KeepReq) (s : State) : (s.keepPush r).rfl.cur = s.rfl.cur :=
  State.qStore_cur ..

@[simp] theorem State.logPump_cur (k : Nat) (s : State) : (State.logPump k s).rfl.cur = s.rfl.cur := by
  induction k generalizing s with
  | zero => rfl
  | succ k ih =>
    unfold State.logPump
    split
    · rfl
    · split
      · rw [ih, State.keepPush_cur]
      · rfl

@[simp] theorem State.logQueue_cur (ramOnly : Bool) (e : LogEntry) (s : State) : (s.logQueue ramOnly e).rfl.cur = s.rfl.cur := by
  simp only [State.logQueue]
  split
  · rfl
  · rw [State.logPump_cur, State.qStore_cur]
    rfl

@[simp] theorem State.logLost_cur (s : State) : s.logLost.rfl.cur = s.rfl.cur := by
  unfold State.logLost
  split
  · rfl
  · exact State.logQueue_cur ..

@[simp] theorem State.logPut_cur (s : State) (sv : Bool) (e : LogEntry) : (s.logPut sv e).rfl.cur = s.rfl.cur := by
  exact State.ite_cur (Eq.refl _) (State.ite_cur (by simp) (by simp))

@[simp] theorem State.warn_cur (s : State) (k data : Nat) : (s.warn k data).rfl.cur = s.rfl.cur := State.logPut_cur ..

@[simp] theorem State.note_cur (s : State) (k data : Nat) : (s.note k data).rfl.cur = s.rfl.cur := State.logPut_cur ..

@[simp] theorem State.eccCount_cur (req key st : Nat) (s : State) : (s.eccCount req key st).rfl.cur = s.rfl.cur := by
  unfold State.eccCount
  split <;> simp

@[simp] theorem State.rflSend_cur (type : Nat) (d : List Byte) (s : State) (bad : List Nat) : (s.rflSend type d bad).rfl.cur = s.rfl.cur := by
  unfold State.rflSend
  split
  · rfl
  · dsimp only
    split <;> simp

/-! ## Releases and events (06, R150-R160; 08, R199-R207) -/

@[simp] theorem State.release_cur (s : State) (n : Nat) : (s.release n).rfl.cur = s.rfl.cur := by
  have hidle : ∀ (c : Bool) (e : Nat) (f : Eng → Eng) (t : State), (if c then t.upE e f else t).rfl.cur = t.rfl.cur :=
    fun _ _ _ _ => State.ite_cur (Eq.refl _) (Eq.refl _)
  have hword : ∀ (req key st : Nat) (t : State), (if st = 0 then t else t.eccCount req key st).rfl.cur = t.rfl.cur :=
    fun _ _ _ _ => State.ite_cur (Eq.refl _) (State.eccCount_cur ..)
  refine State.ite_cur ((hword ..).trans ?entered) ((State.setCopy_cur ..).trans ((hword ..).trans ?entered))
  exact (State.putWords_cur ..).trans (hidle ..)

@[simp] theorem State.overrun_cur (s : State) (n : Nat) : (s.overrun n).rfl.cur = s.rfl.cur := by
  simp [State.overrun]

@[simp] theorem State.consider_cur (s : State) (n : Nat) : (s.consider n).1.rfl.cur = s.rfl.cur := by
  exact State.fst_ite_cur (Eq.refl _) (State.fst_ite_cur (State.overrun_cur ..) (State.release_cur ..))

@[simp] theorem State.guardPass_cur (s : State) (n time : Nat) : (s.guardPass n time).1.rfl.cur = s.rfl.cur :=
  State.fst_ite_cur (Eq.refl _) (Eq.refl _)

@[simp] theorem State.taskEvent_cur (s : State) (o : Occ) (n : Nat) : (s.taskEvent o n).1.rfl.cur = s.rfl.cur := by
  have hsent : ∀ (t : State) (d : List Byte),
      (if !t.lead then t else if t.seq.inLatch then { t with rfl := { t.rfl with rels := t.rfl.rels ++ [d] } } else t.rflSend 3 d).rfl.cur =
        t.rfl.cur :=
    fun _ _ => State.ite_cur (Eq.refl _) (State.ite_cur (Eq.refl _) (State.rflSend_cur ..))
  refine State.fst_ite_cur (State.fst_ite_cur ?_ (State.guardPass_cur ..)) (Eq.refl _)
  rw [State.consider_cur, hsent, State.guardPass_cur]

@[simp] theorem State.taskEvents_cur (s : State) (o : Occ) : (s.taskEvents o).1.rfl.cur = s.rfl.cur := by
  unfold State.taskEvents
  refine List.foldlRecOn (motive := fun r : State × List (Nat × Nat) => r.1.rfl.cur = s.rfl.cur) _ _ (Eq.refl _) fun r hr n _ => ?_
  exact (State.taskEvent_cur ..).trans hr

theorem State.waveTrigger_cur (k : Nat) (s : State) : (s.waveTrigger k).rfl.cur = s.rfl.cur :=
  State.ite_cur (Eq.refl _) (State.ite_cur (Eq.refl _) (Eq.refl _))

@[simp] theorem State.waveEvent_cur (src : Nat) (s : State) : (s.waveEvent src).rfl.cur = s.rfl.cur :=
  State.forAll_cur State.waveTrigger_cur _ s

@[simp] theorem State.dmaEvent_cur (src : Nat) (s : State) : (s.dmaEvent src).rfl.cur = s.rfl.cur :=
  State.forAll_cur (fun _ _ => by rfl) _ s

@[simp] theorem State.routeEvent_cur (s : State) (src : Nat) : (s.routeEvent src).rfl.cur = s.rfl.cur :=
  State.ite_cur (State.ite_cur (Eq.refl _) (Eq.refl _)) (Eq.refl _)

@[simp] theorem State.eventPut_cur (o : Occ) (s : State) : (s.eventPut o).rfl.cur = s.rfl.cur :=
  State.forAll_cur (fun _ _ => by simp) _ _

@[simp] theorem State.eventLoser_cur (o : Occ) (s : State) : (s.eventLoser o).1.rfl.cur = s.rfl.cur := by
  unfold State.eventLoser
  split
  · split <;> simp
  · rfl

@[simp] theorem State.offer_cur (s : State) (o : Occ) : (s.offer o).1.rfl.cur = s.rfl.cur := by
  refine State.fst_ite_cur (Eq.refl _) (State.fst_ite_cur (State.ite_cur (Eq.refl _) (State.eventPut_cur ..))
    (State.fst_ite_cur ?_ (State.eventPut_cur ..)))
  exact State.eventLoser_cur ..

@[simp] theorem State.present_cur (k : Nat) (o : Occ) (s : State) : (State.present k o s).rfl.cur = s.rfl.cur := by
  induction k generalizing o s with
  | zero => exact State.offer_cur ..
  | succ k ih =>
    have hreleased : (if s.following then (s, []) else s.taskEvents o).1.rfl.cur = s.rfl.cur :=
      State.fst_ite_cur (Eq.refl _) (State.taskEvents_cur ..)
    have hall := fun l t => State.forAll_cur (f := fun (x : Nat × Nat) (s : State) =>
      State.present k { src := x.1, time := s.now, pay := x.2, inj := false } s) (fun _ _ => ih _ _) l t
    exact State.ite_cur (by simp [ih, hall, hreleased]) (by simp [hall, hreleased])

@[simp] theorem State.raise_cur (src pay : Nat) (s : State) : (s.raise src pay).rfl.cur = s.rfl.cur := by
  unfold State.raise
  split <;> simp

@[simp] theorem State.level_cur (src : Nat) (cond : Bool) (pay : Nat) (s : State) : (s.level src cond pay).rfl.cur = s.rfl.cur := by
  exact State.ite_cur (Eq.refl _) (State.ite_cur (by simp) (by simp))

/-! ## The outputs (12, R290; 15, R409; 19, R479; 20, R501) -/

@[simp] theorem State.doRefresh_cur (s : State) : s.doRefresh.rfl.cur = s.rfl.cur := by
  refine State.forAll_cur (fun k t => ?_) _ s
  dsimp only
  split <;> rfl

@[simp] theorem State.wbForget_cur (s : State) : s.wbForget.rfl.cur = s.rfl.cur := by
  simp [State.wbForget, State.dioFault]

@[simp] theorem State.walkEnd_cur (st : Nat) (s : State) : (s.walkEnd st).rfl.cur = s.rfl.cur := by
  unfold State.walkEnd
  split <;> simp

theorem State.aoRefresh_cur (n : Nat) (s : State) : (s.aoRefresh n).rfl.cur = s.rfl.cur :=
  State.ite_cur (State.ite_cur (State.ite_cur (Eq.refl _) (Eq.refl _)) (Eq.refl _)) (Eq.refl _)

theorem State.dutyLapse_rfl (l : Nat) (s : State) : (s.dutyLapse l).rfl = s.rfl := by
  unfold State.dutyLapse
  split
  · rfl
  · split <;> rfl

theorem State.dieCmd_rfl (n : Nat) (e : Edge) (s : State) : (s.dieCmd n e).rfl = s.rfl := by
  unfold State.dieCmd
  split <;> rfl

theorem State.bridgeOff_cur (e : Edge) (s : State) : (s.bridgeOff e).rfl.cur = s.rfl.cur := by
  rw [State.bridgeOff, State.bridgeCmd, State.forAll_cur fun n t => congrArg RflSt.cur (t.dieCmd_rfl n e)]

theorem State.setBen_cur (v : Bool) (s : State) : (s.setBen v).rfl.cur = s.rfl.cur := by
  refine State.ite_cur (Eq.refl _) (State.ite_cur (Eq.refl _) (State.ite_cur (Eq.refl _) ?_))
  rw [State.bridgeOff_cur, State.put_rfl]

@[simp] theorem State.benLapse_cur (s : State) : s.benLapse.rfl.cur = s.rfl.cur := by
  unfold State.benLapse
  dsimp only
  split
  · exact State.setBen_cur ..
  · rfl

@[simp] theorem State.chop_rfl (s : State) : s.chop.rfl = s.rfl := by
  unfold State.chop State.chopAs
  dsimp only
  split
  · rfl
  · rw [State.dieCmd_rfl]

@[simp] theorem State.outRefresh_cur (s : State) : s.outRefresh.rfl.cur = s.rfl.cur := by
  have hao := fun t => State.forAll_cur State.aoRefresh_cur (List.range 8) t
  have hduty := fun t => State.forAll_cur (fun l (u : State) => congrArg RflSt.cur (u.dutyLapse_rfl l)) (List.range 5) t
  simp only [State.outRefresh, State.chop_rfl, State.benLapse_cur, hduty, hao, State.doRefresh_cur]
  split <;> simp

/-- Driving the pins again ends no walk and no transfer. -/
theorem State.setReleased_false_cur (s : State) : (s.setReleased false).rfl.cur = s.rfl.cur := by
  have hpins := State.forAll_cur (fun n (u : State) => (Eq.refl _ : (u.put R.GD_STAT_RELEASED (b2n false) n).rfl.cur = u.rfl.cur)) (List.range 8) s
  simp only [State.setReleased, Bool.false_eq_true, if_false]
  split
  · exact hpins
  · exact hpins

/-- A unit that takes its pins keeps the record of the turn in hand (12, R290, R292). -/
theorem State.ownPins_true_cur (s : State) : (s.ownPins true).rfl.cur = s.rfl.cur := by
  simp only [State.ownPins, if_true, State.outRefresh_cur, Bool.not_true, State.setReleased_false_cur, State.put_rfl]

end Sys2Proof.Machine
end

section
/-! PROOFS. Pair settings, ownership of the pins, and the link (O23). -/

namespace Sys2Proof.Machine

/-! ## Settings (12, R286) -/

/-- The settings that a write always takes: EN, AUTOREJOIN, and the legal values of M and CLAIMWAIT. -/
def State.rflCfgFree (x : Nat) (s : State) : State :=
  let a := (s.put R.RFL_CFG_EN (b2n (bit x 0))).put R.RFL_CFG_AUTOREJOIN (b2n (bit x 3))
  let b := if 1 ≤ bits x 4 4 ∧ bits x 4 4 ≤ 8 then a.put R.RFL_CFG_M (bits x 4 4) else a
  if bits x 8 8 = 0 then b else b.put R.RFL_CFG_CLAIMWAIT (bits x 8 8)

theorem opRflCfgWrite_eq (x : Nat) (s : State) :
    let c := s.rflCfgFree x
    let d := (c.put R.RFL_CFG_MODE (b2n (bit x 1))).put R.RFL_CFG_UNIT (b2n (bit x 2))
    opRflCfgWrite x s =
      if b2n (bit x 1) = s.get R.RFL_CFG_MODE ∧ b2n (bit x 2) = s.get R.RFL_CFG_UNIT then c
      else if s.inRun = true ∨ s.is R.RFL_STAT_LINK = true then c.put R.RFL_STAT_CFGERR 1
      else if s.is R.RFL_CFG_MODE = bit x 1 ∨ d.phase ≠ .up then d
      else if s.is R.RFL_CFG_MODE then ({ d with rfl := RflSt.reset }.put R.RFL_STAT_ROLE 0).ownStart else (d.ownPins false).ownStart := by
  intro c d
  have hrefuse : (!(!s.inRun && !s.is R.RFL_STAT_LINK)) = true ↔ s.inRun = true ∨ s.is R.RFL_STAT_LINK = true := by
    rw [Bool.not_and, Bool.not_not, Bool.not_not, Bool.or_eq_true]
  simp only [opRflCfgWrite, hrefuse, Bool.and_eq_true, Bool.or_eq_true, beq_iff_eq, bne_iff_ne]
  rfl

/-! ## The claim (12, R288) -/

theorem opOwnershipClaim_eq (s : State) :
    opOwnershipClaim s =
      if s.is R.RFL_CFG_MODE = false ∨ s.get R.RFL_STAT_ROLE ≠ 0 ∨ s.phase ≠ .up ∨ s.rfl.claim = true ∨ s.rfl.waitOwn = true then s
      else if s.is R.RFL_STAT_OWNIN then s.shadowIdle
      else { s with rfl := { s.rfl with claim := true } }.put R.RFL_STAT_OWN 1 := by
  simp only [opOwnershipClaim, Bool.or_eq_true, Bool.not_eq_true', bne_iff_ne, or_assoc]

theorem opOwnershipSample_eq (s : State) :
    opOwnershipSample s =
      if s.rfl.claim = false then s
      else if s.is R.RFL_STAT_OWNIN = false then s.claimed
      else if s.is R.RFL_CFG_UNIT then s.shadowIdle else { s with rfl := { s.rfl with claim := false, waitOwn := true } } := by
  simp only [opOwnershipSample, Bool.not_eq_true']

/-! ## OWN_IN (12, R287, R288, R293) -/

/-- OWN_IN is seen at a level; where it is low the lines do not both assert any more. -/
def State.ownInSeen (h : Bool) (s : State) : State :=
  let v := s.put R.RFL_STAT_OWNIN (b2n h)
  if h then v else { v with rfl := { v.rfl with both := false } }

/-- OWN_IN stands apart from the role and from the mode. -/
theorem State.ownInSeen_frame (h : Bool) (s : State) :
    (s.ownInSeen h).phase = s.phase ∧ (s.ownInSeen h).rfl.waitOwn = s.rfl.waitOwn ∧
      (s.ownInSeen h).get R.RFL_STAT_ROLE = s.get R.RFL_STAT_ROLE ∧ (s.ownInSeen h).is R.RFL_CFG_MODE = s.is R.RFL_CFG_MODE := by
  have hrole := s.get_put_ne R.RFL_STAT_OWNIN R.RFL_STAT_ROLE (b2n h) 0 0 0 0 (by decide)
  have hmode := s.is_put_ne R.RFL_STAT_OWNIN R.RFL_CFG_MODE (b2n h) 0 0 0 0 (by decide)
  cases h <;> exact ⟨Eq.refl _, Eq.refl _, hrole, hmode⟩

theorem opOwnInChange_eq (h : Bool) (s : State) :
    let u := s.ownInSeen h
    let o := (u.ownPins (!h)).conflict
    opOwnInChange h s =
      if s.phase ≠ .up then u
      else if s.rfl.waitOwn = true ∧ h = false then u.claimed.conflict
      else if s.get R.RFL_STAT_ROLE = 0 ∧ s.is R.RFL_CFG_MODE = false then (if h = false ∧ o.brick.id = [] then opBrickRead o else o)
      else u.conflict := by
  intro u o
  obtain ⟨hphase, hwait, hrole, hmode⟩ := s.ownInSeen_frame h
  rw [← hphase, ← hwait, ← hrole, ← hmode]
  have hop : opOwnInChange h s =
      if (u.phase != .up) = true then u
      else if (u.rfl.waitOwn && !h) = true then u.claimed.conflict
      else if u.get R.RFL_STAT_ROLE = 0 ∧ (!u.is R.RFL_CFG_MODE) = true then (if (!h && o.brick.id.isEmpty) = true then opBrickRead o else o)
      else u.conflict := rfl
  simp only [hop, bne_iff_ne, Bool.and_eq_true, Bool.not_eq_true', List.isEmpty_iff]
  rfl

/-! ## Both lines asserted (12, R293) -/

theorem opOwnershipConflict_eq (s : State) :
    let u := ({ s with rfl := { s.rfl with both := true } }).conflict
    opOwnershipConflict s =
      if s.is R.RFL_STAT_OWN = false ∨ s.is R.RFL_STAT_OWNIN = false ∨ s.is R.RFL_CFG_MODE = false then s
      else if u.is R.RFL_CFG_UNIT then u.shadowIdle else u := by
  simp only [opOwnershipConflict, Bool.or_eq_true, Bool.not_eq_true', or_assoc]

/-! ## Taking the pins (12, R292) -/

/-- The tasks that END of the turn in hand names; none before it has come. -/
def State.namesNow (s : State) : List Nat :=
  match s.rfl.cur with
  | some r => match r.fin with
    | some f => f.names
    | none => []
  | none => []

theorem State.namesNow_eq (s : State) : s.namesNow = ((s.rfl.cur.bind RecvRec.fin).map EndRec.names).getD [] := by
  unfold State.namesNow
  cases s.rfl.cur with
  | none => rfl
  | some r => cases hfin : r.fin <;> simp [hfin]

theorem State.mayTake_iff (s : State) : s.mayTake = true ↔ s.following = true ∨ (s.lead = true ∧ s.rfl.taking = true) := by
  simp only [State.mayTake, Bool.or_eq_true, Bool.and_eq_true]

/-- When the pins may be taken: they are the unit's to take and it has not got them, OWN_IN is low, and RELEASE has come or the link is down. -/
def State.TakesPins (s : State) : Prop :=
  (s.following = true ∨ (s.lead = true ∧ s.rfl.taking = true)) ∧ s.is R.RFL_STAT_OWN = false ∧ s.is R.RFL_STAT_OWNIN = false ∧
    (s.rfl.release = true ∨ s.is R.RFL_STAT_LINK = false)

theorem State.takeover_refused_iff (s : State) :
    (!s.mayTake || s.is R.RFL_STAT_OWNIN || !(s.rfl.release || !s.is R.RFL_STAT_LINK) || s.is R.RFL_STAT_OWN) = true ↔ ¬ s.TakesPins := by
  rw [State.TakesPins, ← s.mayTake_iff, ← Bool.not_eq_false]
  refine not_congr ?_
  simp only [Bool.or_eq_false_iff, Bool.not_eq_false', Bool.or_eq_true, Bool.not_eq_true']
  exact ⟨fun ⟨⟨⟨hmay, hin⟩, hrel⟩, hown⟩ => ⟨hmay, hown, hin, hrel⟩, fun ⟨hmay, hown, hin, hrel⟩ => ⟨⟨⟨hmay, hin⟩, hrel⟩, hown⟩⟩

theorem opTakeover_eq (s : State) :
    let c := ({ s with rfl := { s.rfl with taking := false } }.ownPins true).commitNamed s.namesNow
    opTakeover s =
      if (s.following = true ∨ (s.lead = true ∧ s.rfl.taking = true)) ∧ s.is R.RFL_STAT_OWN = false ∧ s.is R.RFL_STAT_OWNIN = false ∧
          (s.rfl.release = true ∨ s.is R.RFL_STAT_LINK = false) then
        ((c.1.outCommit c.2).brickTaken).conflict
      else s := by
  intro c
  have hcur := ({ s with rfl := { s.rfl with taking := false } } : State).ownPins_true_cur
  simp only [opTakeover, s.takeover_refused_iff, ite_not, hcur, State.TakesPins]
  rw [← s.namesNow_eq]

/-- Settles O23: each command is one case distinction on the state before it. OWN_IN stands apart from what its change then asks for, and a takeover
reads the END of the running record after the pins are driven, which keeps that record. -/
theorem pairOwnership : Obligations.PairOwnership := by
  unfold Obligations.PairOwnership
  refine ⟨?settings, ?claim, ?noClaim, ?sample, ?ownIn, ?conflict, ?noConflict, ?link, ?takeover⟩
  case settings => exact fun v s => congrArg Host.Outcome.next (opRflCfgWrite_eq v.toNat s)
  case claim =>
    intro s hmode hrole hphase hclaim hwait
    exact congrArg Host.Outcome.next ((opOwnershipClaim_eq s).trans (if_neg (by simp [hmode, hrole, hphase, hclaim, hwait])))
  case noClaim => exact fun s h => congrArg Host.Outcome.next ((opOwnershipClaim_eq s).trans (if_pos h))
  case sample => exact fun s => congrArg Host.Outcome.next (opOwnershipSample_eq s)
  case ownIn => exact fun h s => congrArg Host.Outcome.next (opOwnInChange_eq h s)
  case conflict =>
    intro s u hown hin hmode
    exact congrArg Host.Outcome.next ((opOwnershipConflict_eq s).trans (if_neg (by simp [hown, hin, hmode])))
  case noConflict => exact fun s h => congrArg Host.Outcome.next ((opOwnershipConflict_eq s).trans (if_pos h))
  case link => exact fun s => ⟨rfl, rfl, rfl⟩
  case takeover =>
    intro s l c
    exact congrArg Host.Outcome.next (opTakeover_eq s)

end Sys2Proof.Machine
end
section
/-! PROOFS. A STORE in a session of a role that is none of the four, against O27 (13, R345; 14, R368). -/

namespace Sys2Proof.Machine

/-! ## The message at the front of a port (13, R337; 14, R364) -/

/-- A command serves the message at the front of its port where the message is one of its own. -/
theorem State.serveFront_of_fronts {s : State} {p : Nat} {m : Msg} {want : Msg → Bool} (f : Nat → Sess → Msg → State → State)
    (hfront : s.fronts p m = true) (hwant : want m = true) : s.serveFront p want f = s.served p m fun i x u => f i x m u := by
  simp only [State.fronts, Bool.and_eq_true, decide_eq_true_eq, Bool.not_eq_true', Option.bind_eq_some_iff] at hfront
  obtain ⟨⟨⟨q, hq, hparse⟩, hhalt⟩, hhand⟩ := hfront
  simp only [State.serveFront, hq, hparse, hwant, hhalt, hhand, Bool.not_true, Bool.or_self, Bool.false_eq_true, if_false]
  rfl

/-- A message that its session accepts is served there. -/
theorem State.served_of_accept {s u : State} {p i : Nat} {m : Msg} {x : Sess} (f : Nat → Sess → State → State)
    (haccept : (s.popFront p).msgAccept p m = (u, some i)) (hsess : Store.find i u.sess = some x) : s.served p m f = (f i x u).seqGuard i := by
  simp only [State.served, haccept, hsess]

/-! ## Commands of the dictionary (13, R345) -/

/-- The oldest request at all ports, where it is the command of this code, is served. -/
theorem State.dictFront_of_fronts {s : State} {p code : Nat} {m : Msg} (f : Nat → Sess → Msg → State → State) (hfront : s.fronts p m = true)
    (hcmd : isCmd code m = true) (hturn : s.reqTurn p = true) : s.dictFront p code f = s.served p m fun i x u => f i x m u :=
  (if_pos hturn).trans (State.serveFront_of_fronts f hfront hcmd)

/-- A command is answered with 2 in a session whose role is not among its roles. -/
theorem State.dictCmd_of_role_not_mem {roles : List Nat} {x : Sess} (f : List Nat → State → State × Nat) (i : Nat) (m : Msg) (s : State)
    (hrole : roles.contains x.role = false) : s.dictCmd roles f i x m = s.cmdReply i m 2 [] :=
  if_pos (by rw [hrole]; rfl)

/-! ## The refutation -/

/-- A STORE without its argument. -/
def bareStore : Msg := mMsg true 3 0 [1#8, 1#8, 0#8, 0#8]

/-- It waits at port 1, alone; its session has role 4, and R368 has the roles 0 to 3. -/
def roleFour : State := { tMsg bareStore with sess := [(3, { sess9 with role := 4 })] }

/-- The session has accepted it. -/
def roleFourTaken : State := ((roleFour.popFront 1).msgAccept 1 bareStore).1

theorem msgAccept_roleFour : (roleFour.popFront 1).msgAccept 1 bareStore = (roleFourTaken, some 3) :=
  pair_eq (by decide +kernel)

theorem session_roleFourTaken : ∃ x, Store.find 3 roleFourTaken.sess = some x ∧ x.role = 4 :=
  Option.map_eq_some_iff.1 (by decide +kernel)

/-- The status byte of the reply that was sent last on port 1 (14, R362, R366). -/
def State.lastStatus (s : State) : Option Byte := (s.port 1).tx.getLast?.map fun t => t.bytes.getD 20 0#8

theorem lastStatus_roleRefused : ((roleFourTaken.cmdReply 3 bareStore 2 []).seqGuard 3).lastStatus = some 2#8 := by
  decide +kernel

theorem lastStatus_wrongLength : ((roleFourTaken.cmdReply 3 bareStore 9 []).seqGuard 3).lastStatus = some 9#8 := by
  decide +kernel

/-- Refutes O27: its clauses of STORE, DEFAULTS and RELOAD speak of every state and refuse the roles below 2 or 3, where R345 names the roles that may
give the command. In a session of role 4, a STORE without its argument is refused for its role, with 2, and the clause has it refused for its length,
with 9. -/
theorem not_dictionaryMessages : ¬ Obligations.DictionaryMessages := by
  unfold Obligations.DictionaryMessages
  rintro ⟨-, -, -, hstore, -⟩
  obtain ⟨x, hsess, hrole⟩ := session_roleFourTaken
  have hfront : roleFour.fronts 1 bareStore = true := by decide +kernel
  have hturn : roleFour.reqTurn 1 = true := by decide +kernel
  have hcmd : isCmd 0x0101 bareStore = true := by decide
  have hmodel : opStoreGroup 1 roleFour = (roleFourTaken.cmdReply 3 bareStore 2 []).seqGuard 3 := by
    rw [opStoreGroup, State.dictFront_of_fronts _ hfront hcmd hturn, State.served_of_accept _ msgAccept_roleFour hsess,
      State.dictCmd_of_role_not_mem _ _ _ _ (by rw [hrole]; rfl)]
  have hclause : opStoreGroup 1 roleFour = (roleFourTaken.cmdReply 3 bareStore 9 []).seqGuard 3 := by
    have hexec := Host.Outcome.next.inj (hstore 1 bareStore roleFour hfront (by decide) (by decide) (by decide) (by decide) hturn)
    refine hexec.trans ((State.served_of_accept _ msgAccept_roleFour hsess).trans ?_)
    rw [if_neg (by omega), if_pos (by decide)]
  have hstatus : some 2#8 = some 9#8 :=
    lastStatus_roleRefused.symm.trans ((congrArg State.lastStatus (hmodel.symm.trans hclause)).trans lastStatus_wrongLength)
  exact absurd hstatus (by decide)

end Sys2Proof.Machine
end

section
/-! PROOFS. The crypto accelerator (O30). -/

namespace Sys2Proof.Machine

/-! ## Keys (14, R385) -/

/-- What a table holds for a key once the entries of some keys are dropped. -/
theorem Store.find_filter_key (c : Nat → Bool) (k : Nat) (t : Store α) :
    Store.find k (t.filter fun e => c e.1) = if c k then Store.find k t else none := by
  induction t with
  | nil => simp
  | cons e r ih =>
    obtain ⟨j, v⟩ := e
    by_cases hj : j = k
    · subst hj
      cases hc : c j <;> simp [Store.find, hc, ih]
    · cases hc : c j <;> simp [Store.find, hc, hj, ih]

/-- KEYCLR leaves zeroes in the slots that it names, and every other slot as it is. -/
theorem key_opCryptoKeyclr (m : Nat) (s : State) {k : Nat} (hk : k < 24) :
    (opCryptoKeyclr m s).key k = if bit m k then List.replicate 32 0#8 else s.key k := by
  have hslot : bit (m % 2 ^ 24) k = bit m k := by 
    rw [bit, Nat.testBit_mod_two_pow, decide_eq_true hk, Bool.true_and, bit]
  simp only [State.key, opCryptoKeyclr, Store.getD, Store.find_filter_key (fun j => !bit (m % 2 ^ 24) j), hslot]
  cases bit m k <;> rfl

/-! ## Jobs (14, R384, R386; 23, R561) -/

/-- At an aligned address inside memory a descriptor is bad by its form alone. -/
theorem State.submitBad_of_aligned {s : State} {a : Nat} (hplace : jobPlace a = true) (halign : a % 32 = 0) :
    s.submitBad a = !jobValid (leNat (s.mbs a 4)) := by
  have hbase : a / 32 * 32 = a := by omega
  simp [State.submitBad, hplace, halign, hbase]

theorem opCryptoSubmit_eq (a : Nat) (s : State) :
    opCryptoSubmit a s =
      if jobPlace a = false then s.jobDone
      else if a % 32 ≠ 0 then (s.jobWrite 5 (a / 32 * 32 + 16) (leBytes 4 0x11)).1.jobDone
      else if jobValid (leNat (s.mbs a 4)) = false then s.svJob a
      else if s.crypto.sv.length < 8 then { s with crypto := { s.crypto with sv := s.crypto.sv ++ [a] } }.qStore 14 32
      else { s with crypto := { s.crypto with wait := some a } }.upE 4 fun x => { x with stalled := true } := by
  unfold opCryptoSubmit
  cases hplace : jobPlace a with
  | false => simp
  | true =>
    by_cases halign : a % 32 = 0
    · simp [State.submitBad_of_aligned hplace halign, halign]
    · simp [halign]

theorem opCryptoJobComplete_of_commit {j : CmJob} {r : List CmJob} {s : State} (hcm : s.crypto.cm = j :: r) :
    opCryptoJobComplete s = { s.qRead 15 (r.length + 1) 0 j.bytes.length with crypto := { s.crypto with cm := r } }.mapJob j := by
  simp only [opCryptoJobComplete, hcm]

/-- A job of SV is served where the commit hardware has none, and the store that waited enters the queue. -/
theorem opCryptoJobComplete_of_sv {a : Nat} {r : List Nat} {s u : State} (hcm : s.crypto.cm = []) (hsv : s.crypto.sv = a :: r)
    (hu : { s.qRead 14 (r.length + 1) 0 32 with crypto := { s.crypto with sv := r } }.svJob a = u) :
    opCryptoJobComplete s = match u.crypto.wait with
      | none => u
      | some b =>
        ({ u with crypto := { u.crypto with sv := u.crypto.sv ++ [b], wait := none } }.qStore 14 32).upE 4 fun x => { x with stalled := false } := by
  subst hu
  simp only [opCryptoJobComplete, hcm, hsv] <;> rfl

theorem opCryptoJobComplete_idle {s : State} (hcm : s.crypto.cm = []) (hsv : s.crypto.sv = []) : opCryptoJobComplete s = s := by
  simp only [opCryptoJobComplete, hcm, hsv]

/-- Settles O30: a submitted descriptor is judged by its place, its address and its form in turn, and a completed job is that of the first queue which
holds one. -/
theorem cryptoAccelerator : Obligations.CryptoAccelerator := by
  unfold Obligations.CryptoAccelerator
  refine ⟨fun v s => rfl, ?clear, fun s => rfl, ?submit, ?commit, ?sv, ?idle⟩
  case clear =>
    intro m k s hk
    refine ⟨opCryptoKeyclr m s, rfl, ?_, rfl, rfl⟩
    simpa only [hk, and_true] using key_opCryptoKeyclr m s hk
  case submit => exact fun a s => congrArg Host.Outcome.next (opCryptoSubmit_eq a s)
  case commit => exact fun j r s hcm => congrArg Host.Outcome.next (opCryptoJobComplete_of_commit hcm)
  case sv =>
    intro a r s u hcm hsv
    have hu : { s.qRead 14 (r.length + 1) 0 32 with crypto := { s.crypto with sv := r } }.svJob a = u := rfl
    clear_value u
    exact congrArg Host.Outcome.next (opCryptoJobComplete_of_sv hcm hsv hu)
  case idle => exact fun s hcm hsv => congrArg Host.Outcome.next (opCryptoJobComplete_idle hcm hsv)

end Sys2Proof.Machine
end

section
/-! PROOFS. Ethernet and CAN ports (O29). -/

namespace Sys2Proof.Machine

/-! ## Ethernet (14, R354, R355, R379) -/

theorem State.frameIn_enabled {s : State} {p : Nat} (f : List Byte) (heth : isCan p = false) (hen : s.is R.FP_CFG_EN p = true) :
    let n := f.length - 4
    let u := s.raise (224 + 4 * p) f.length
    s.frameIn p f =
      if 64 ≤ f.length ∧ f.length ≤ 1518 ∧ leAt f n 4 ≠ crc32 (f.take n) then s.portErr p 1
      else match s.frameType p f with
        | none => s
        | some t => if t = 0x0806 then u.arpIn p (slice f 14 (n - 14)) else if t = 0x0800 then u.ipIn p (slice f 6 6) (slice f 14 (n - 14)) else u := by
  exact if_neg (by simp [heth, hen])

theorem State.frameIn_eq_self {s : State} {p : Nat} (f : List Byte) (h : isCan p = true ∨ s.is R.FP_CFG_EN p = false) : s.frameIn p f = s :=
  if_pos (by simpa using h)

theorem opArpRefresh_eq (p : Nat) (s : State) :
    opArpRefresh p s =
      if isCan p = true ∨ s.is R.FP_CFG_EN p = false then s
      else if 3 ≤ (s.port p).tries then
        ((s.put R.FP_STAT_ARPOK 0 p).upPort p fun q => { q with tries := 0, dead := true, tx := [] }).portErr p 0x0C
      else s.arpAsk p := by
  simp only [opArpRefresh, Bool.or_eq_true, Bool.not_eq_true']

theorem opPhyLinkPoll_eq (p : Nat) (up : Bool) (s : State) :
    let u := s.put R.FP_STAT_LINK (b2n up) p
    opPhyLinkPoll p up s =
      if isCan p = true ∨ s.domGone (20 + p) = true then s
      else if up then u.portGo p else (if s.is R.FP_STAT_LINK p then u.portErr p 0x0B else u).partnerLost p := by
  simp only [opPhyLinkPoll, Bool.or_eq_true]

theorem opPartnerLost_eq (p : Nat) (s : State) :
    opPartnerLost p s =
      if s.get R.FP_LOSSTO_MS p = 0 ∨ s.is R.FP_STAT_PLOST p = true then s
      else (s.advance ((s.port p).lastOk + s.get R.FP_LOSSTO_MS p * 1000000)).partnerLost p := by
  simp only [opPartnerLost, Bool.or_eq_true, decide_eq_true_eq]

/-! ## The transmit queue (14, R356, R382) -/

theorem State.txDone_of_none {s : State} {p : Nat} (h : (s.port p).tx.find? TxMsg.busy = none) : s.txDone p = s := by
  simp only [State.txDone, h]

/-- The message that was being sent leaves the queue; `r` is the state once its entry has been read. -/
theorem State.txDone_of_some {s r : State} {p : Nat} {m : TxMsg} (h : (s.port p).tx.find? TxMsg.busy = some m)
    (hr : s.qRead (6 + p) (s.port p).tx.length ((s.port p).tx.findIdx TxMsg.busy) (16 + m.bytes.length) = r) :
    let l := if isCan p then r.canFrames p m.bytes else [r.udpFrame p m.udp m.bytes]
    let u := r.upPort p fun q => { q with tx := q.tx.filter fun x => !x.busy, out := l, ident := (q.ident + 1) % 65536 }
    let v := if isCan p then (u.put R.FP_CANERR_TEC (u.get R.FP_CANERR_TEC p - l.length) p).canState p else u
    s.txDone p = if m.cut then r.cutDone p m else ((v.wrapUp R.FP_CNT0_TX p).raise (225 + 4 * p) 0).portGo p := by
  intro l u v
  simp only [State.txDone, h, hr]
  rfl

/-! ## Enabling and disabling (14, R381) -/

theorem opFpEnWrite_enable {s : State} {p : Nat} (h : s.is R.FP_CFG_EN p = false) :
    let v := s.put R.FP_CFG_EN 1 p
    let u := v.upPort p fun q => { q with rx := [], rxAt := [], tx := q.tx.filter TxMsg.busy, reasm := [], tries := 0, dead := false, lastOk := v.now }
    opFpEnWrite p true s = if isCan p then u.canFresh p else (u.put R.FP_STAT_ARPOK 0 p).arpAsk p := by
  intro v u
  rw [opFpEnWrite, if_neg (by simp [h])]
  rfl

theorem opFpEnWrite_disable {s : State} {p : Nat} (h : s.is R.FP_CFG_EN p = true) :
    let u := (s.put R.FP_CFG_EN 0 p).upPort p fun q =>
      { q with rx := [], rxAt := [], reasm := [],
               tx := (q.tx.filter TxMsg.busy).map fun m => { m with cut := isCan p && decide (64 < m.bytes.length) } }
    opFpEnWrite p false s = if isCan p then u.put R.FP_STAT_LINK 0 p else u := by
  intro u
  rw [opFpEnWrite, if_neg (by simp [h])]
  rfl

theorem opFpEnWrite_eq_self {s : State} {p : Nat} {en : Bool} (h : s.is R.FP_CFG_EN p = en) : opFpEnWrite p en s = s :=
  if_pos (by simpa using h)

/-! ## CAN FD (14, R357, R359-R361) -/

theorem opCanFrameReceived_eq_self {s : State} {p : Nat} {ext fd : Bool} (id : Nat) (d : List Byte)
    (h : isCan p = false ∨ s.is R.FP_CFG_EN p = false ∨ s.is R.FP_STAT_BUSOFF p = true ∨ ext = false ∨ fd = false) :
    opCanFrameReceived p id ext fd d s = s :=
  if_pos (by simpa [or_assoc] using h)

/-- A frame that the port receives: it is for another node, or from a stranger, or a segment of the partner's message. -/
theorem opCanFrameReceived_of_on {s : State} {p : Nat} (id : Nat) (d : List Byte) (hcan : isCan p = true) (hen : s.is R.FP_CFG_EN p = true)
    (hon : s.is R.FP_STAT_BUSOFF p = false) :
    let n := s.get R.FP_CANERR_REC p
    let g := if 127 < n then s.free else (0, s)
    let u := (g.2.put R.FP_CANERR_REC (if 127 < n then 119 + g.1 % 9 else n - 1) p).canState p
    let c := bits id 24 5
    let i := bits id 3 5
    let k := bits id 0 3
    let v := u.raise (224 + 4 * p) d.length
    opCanFrameReceived p id true true d s =
      if bits id 8 8 ≠ s.get R.FP_OWN_ID p % 256 then u
      else if bits id 16 8 ≠ u.get R.FP_PARTNER_ID p % 256 then u.portDrop p 0x0D
      else match Store.find c (v.port p).reasm with
        | none => if i = 0 then v.segment p c k [] d 1 else v.portDrop p 7
        | some r =>
          if i = 0 then ((v.reasmPut p c none).portDrop p 7).segment p c k [] d 1
          else if i = r.nxt ∧ k = r.low then v.segment p c k r.bytes d (i + 1)
          else (v.reasmPut p c none).portDrop p 7 := by
  exact if_neg (by simp [hcan, hen, hon])

theorem opCanBusError_eq (p : Nat) (tx heavy crc : Bool) (s : State) :
    let u := if crc = true ∧ tx = false then s.portErr p 1 else s
    let off := (((s.put R.FP_CANERR_TEC 255 p).put R.FP_STAT_BUSOFF 1 p).put R.FP_STAT_LINK 0 p).upPort p
      fun q => { q with tx := q.tx.map fun m => { m with busy := false } }
    opCanBusError p tx heavy crc s =
      if isCan p = false ∨ s.is R.FP_CFG_EN p = false ∨ s.is R.FP_STAT_BUSOFF p = true then s
      else if tx = false then (u.bump R.FP_CANERR_REC p (if heavy then 8 else 1)).canState p
      else if s.get R.FP_CANERR_TEC p + 8 ≤ 255 then (s.put R.FP_CANERR_TEC (s.get R.FP_CANERR_TEC p + 8) p).canState p
      else (off.portErr p 0x0A).partnerLost p := by
  intro u off
  have hidle : (!isCan p || !s.is R.FP_CFG_EN p || s.is R.FP_STAT_BUSOFF p) = true ↔
      isCan p = false ∨ s.is R.FP_CFG_EN p = false ∨ s.is R.FP_STAT_BUSOFF p = true := by
    simp [or_assoc]
  rw [opCanBusError]
  refine ite_congr (propext hidle) (fun _ => rfl) fun _ => ?_
  cases tx with
  | false => cases crc <;> rfl
  | true =>
    by_cases hoff : s.get R.FP_CANERR_TEC p + 8 ≤ 255
    · simp [hoff, Nat.not_lt.2 hoff]
    · simp [hoff, Nat.not_le.1 hoff, off]

theorem opCanBusOffRecovery_eq (p : Nat) (s : State) :
    opCanBusOffRecovery p s =
      if isCan p = true ∧ s.is R.FP_CFG_EN p = true ∧ s.is R.FP_STAT_BUSOFF p = true ∧ s.is R.FP_CFG_AUTOREC p = true then (s.canFresh p).portGo p
      else s := by
  simp only [opCanBusOffRecovery, Bool.and_eq_true, and_assoc]

/-- Settles O29: each command is one case distinction on the port before it; the frame that carries ARP or an echo request is received as any other. -/
theorem fieldPorts : Obligations.FieldPorts := by
  unfold Obligations.FieldPorts
  refine ⟨?frame, ?noFrame, ?arp, ?icmp, ?refresh, ?sent, ?nothingSent, ?link, ?lost, ?enable, ?disable, ?noCan, ?can, fun p cls s => rfl, ?busError,
    ?recovery⟩
  case frame => exact fun p f s heth hen => congrArg Host.Outcome.next (State.frameIn_enabled f heth hen)
  case noFrame => exact fun p f s h => congrArg Host.Outcome.next (State.frameIn_eq_self f h)
  case arp => exact fun p f s => ⟨fun h => congrArg Host.Outcome.next (if_pos h), fun h => congrArg Host.Outcome.next (if_neg h)⟩
  case icmp =>
    refine fun p f s => ⟨fun h => congrArg Host.Outcome.next (if_pos h), fun h => congrArg Host.Outcome.next (if_neg fun hecho => ?_)⟩
    exact h.elim (absurd hecho.1) (absurd hecho.2)
  case refresh => exact fun p s => congrArg Host.Outcome.next (opArpRefresh_eq p s)
  case sent =>
    intro p m s r l u v hbusy
    have hr : s.qRead (6 + p) (s.port p).tx.length ((s.port p).tx.findIdx TxMsg.busy) (16 + m.bytes.length) = r := rfl
    clear_value r
    exact congrArg (fun t => Host.Outcome.next (State.bulkResume p t)) (State.txDone_of_some hbusy hr)
  case nothingSent => exact fun p s hbusy => congrArg (fun t => Host.Outcome.next (State.bulkResume p t)) (State.txDone_of_none hbusy)
  case link => exact fun p up s => congrArg Host.Outcome.next (opPhyLinkPoll_eq p up s)
  case lost => exact fun p s => congrArg Host.Outcome.next (opPartnerLost_eq p s)
  case enable => exact fun p s hoff => ⟨congrArg Host.Outcome.next (opFpEnWrite_enable hoff), congrArg Host.Outcome.next (opFpEnWrite_eq_self hoff)⟩
  case disable => exact fun p s hon => ⟨congrArg Host.Outcome.next (opFpEnWrite_disable hon), congrArg Host.Outcome.next (opFpEnWrite_eq_self hon)⟩
  case noCan => exact fun p id ext fd d s h => congrArg Host.Outcome.next (opCanFrameReceived_eq_self id d h)
  case can => exact fun p id d s hcan hen hon => congrArg Host.Outcome.next (opCanFrameReceived_of_on id d hcan hen hon)
  case busError => exact fun p tx heavy crc s => congrArg Host.Outcome.next (opCanBusError_eq p tx heavy crc s)
  case recovery => exact fun p s => congrArg Host.Outcome.next (opCanBusOffRecovery_eq p s)

end Sys2Proof.Machine
end

section
/-! PROOFS. A repeated NOTIFY in a session that holds two notifications of one source, against O28 (14, R377). -/

namespace Sys2Proof.Machine

/-- A notification that waits for its acknowledgement, after so many repeats. -/
def sentNote (tries : Nat) : NoteSt := { note1 with count := 0, sent := some (2, [1#8]), tries := tries }

/-- Session 3 holds two notifications of EV 100, sent again 0 and 2 times. -/
def twinNotes : State := { State.reset with sess := [(3, { sess9 with notes := [sentNote 0, sentNote 2] })] }

/-- How often each notification of a session has been sent again. -/
def State.repeats (s : State) (j : Nat) : Option (List Nat) := (Store.find j s.sess).map fun x => x.notes.map NoteSt.tries

/-- NOTIFY_REPEAT counts a repeat for each notification by its own count. -/
theorem repeats_opNotifyRepeat_twinNotes : (opNotifyRepeat 3 0 100 twinNotes).repeats 3 = some [1, 3] := by
  decide +kernel

/-- Every notification of EV 100 in session 3 takes the count of the first one, one more. -/
def twinNotesAlike : State :=
  let q := twinNotes.notePut 3 (sentNote 0) [1#8]
  (q.1.upNote 3 0 100 fun w => some { w with sent := some (q.2, [1#8]), tries := (sentNote 0).tries + 1 }).seqGuard 3

theorem repeats_twinNotesAlike : twinNotesAlike.repeats 3 = some [1, 1] := by
  decide +kernel

/-- Refutes O28: its clause of NOTIFY_REPEAT speaks of every state and gives every notification of a source the repeats of the first, one more. In a
session that holds two notifications of one source, the command counts each of them by itself. (`noteAdd` keeps one notification per source, but the
clause does not ask for a state in which that holds.) -/
theorem not_mapsAndBulk : ¬ Obligations.MapsAndBulk := by
  unfold Obligations.MapsAndBulk
  rintro ⟨-, -, -, -, -, -, -, hrepeat, -⟩
  have hclause : opNotifyRepeat 3 0 100 twinNotes = twinNotesAlike :=
    Host.Outcome.next.inj (hrepeat 3 0 100 { sess9 with notes := [sentNote 0, sentNote 2] } (sentNote 0) twinNotes rfl rfl)
  have hcounts : some [1, 3] = some [1, 1] :=
    repeats_opNotifyRepeat_twinNotes.symm.trans ((congrArg (State.repeats · 3) hclause).trans repeats_twinNotesAlike)
  exact absurd hcounts (by decide)

end Sys2Proof.Machine
end

section
/-! PROOFS. What a read of a queue leaves alone, whatever errors it reports: sessions, keys, stored records and lockouts (for O26). -/

namespace Sys2Proof.Machine

/-- What an OPEN and the checks of a message are judged by (14, R364, R368-R370): sessions, keys, the array of Keep, and the ports in lockout. -/
abbrev Access := Store Sess × CryptoSt × List Host.Cell × (Nat → Bool)

/-- What a state has of it. -/
def State.access (s : State) : Access := (s.sess, s.crypto, s.arr, fun p => s.is R.FP_STAT_LOCKOUT p)

/-- A field at another bit of its register is no LOCKOUT. -/
theorem access_put {f : Fam} (hf : f.lsb < 32 ∧ f.lsb ≠ R.FP_STAT_LOCKOUT.lsb) (s : State) (v i j : Nat) : (s.put f v i j).access = s.access := by
  have hlock : ∀ p, (s.put f v i j).is R.FP_STAT_LOCKOUT p = s.is R.FP_STAT_LOCKOUT p :=
    fun p => State.is_put_ne s f _ v i j p 0 (Fam.key_ne_of_lsb (g := R.FP_STAT_LOCKOUT) hf.1 (by decide) hf.2 i j p 0)
  simp only [State.access, hlock, State.put_sess, State.put_crypto, State.put_arr]

theorem access_ite {c : Prop} [Decidable c] {a b s : State} (ha : a.access = s.access) (hb : b.access = s.access) :
    (if c then a else b).access = s.access := by
  rw [apply_ite State.access, ha, hb, ite_self]

theorem access_fst_ite {c : Prop} [Decidable c] {a b : State × α} {s : State} (ha : a.1.access = s.access) (hb : b.1.access = s.access) :
    (if c then a else b).1.access = s.access := by
  rw [apply_ite Prod.fst]
  exact access_ite ha hb

theorem access_forAll {f : α → State → State} (hf : ∀ x s, (f x s).access = s.access) (l : List α) (s : State) :
    (State.forAll l f s).access = s.access :=
  State.forAll_keeps (P := fun t => t.access = s.access) (fun x t h => (hf x t).trans h) l rfl

/-! ## Memory words and queues (09, R220; 23, R553) -/

theorem access_eccStore (key : Nat) (s : State) : (s.eccStore key).access = s.access := by
  unfold State.eccStore
  split
  · exact access_ite (access_put (f := R.SYS_ECC_INJ_ARMED) (by decide) { s with m := { s.m with inject := none } } 0 0 0) rfl
  · rfl

theorem access_bufStore (a n : Nat) (s : State) : (State.bufStore a n s).access = s.access :=
  access_ite rfl (access_forAll (fun _ _ => access_eccStore ..) _ s)

theorem access_qStore (k n : Nat) (s : State) : (s.qStore k n).access = s.access := access_bufStore ..

theorem access_markDirty (work : Bool) (a n : Nat) (s : State) : (s.markDirty work a n).access = s.access :=
  access_ite (access_forAll (fun _ _ => by rfl) _ s) rfl

theorem access_cachePut (a : Nat) (b : Byte) (s : State) : (s.cachePut a b).access = s.access := by
  unfold State.cachePut
  split <;> rfl

theorem access_setCopy (s : State) (copy a : Nat) (l : List Byte) : (s.setCopy copy a l).access = s.access := by
  have hcache := access_forAll (fun (p : Nat × Byte) (t : State) => access_cachePut (a + p.1) p.2 t)
  exact access_ite rfl (access_ite (access_markDirty ..) (access_ite (hcache _ s) (access_markDirty ..)))

theorem access_putWords (copy a : Nat) (l : List Byte) (s : State) : (s.putWords copy a l).access = s.access :=
  (access_forAll (fun _ _ => access_eccStore ..) _ _).trans (access_setCopy ..)

/-! ## The log and the link (22, R546; 12, R296) -/

theorem access_keepPush (r : KeepReq) (s : State) : (s.keepPush r).access = s.access := by
  have hseq : ∀ t : State, (t.wrapUp R.KEEP_QSEQ_N).access = t.access := fun t => access_put (by decide) ..
  exact (access_qStore ..).trans (hseq _)

theorem access_logPump (k : Nat) (s : State) : (State.logPump k s).access = s.access := by
  induction k generalizing s with
  | zero => rfl
  | succ k ih =>
    unfold State.logPump
    split
    · rfl
    · exact access_ite ((ih _).trans (access_keepPush ..)) rfl

theorem access_logQueue (ramOnly : Bool) (e : LogEntry) (s : State) : (s.logQueue ramOnly e).access = s.access := by
  have hlog : ∀ (t : State) (l : LogSt), ({ t with log := l } : State).access = t.access := fun _ _ => rfl
  have hseq : (s.wrapUp R.LOG_SEQ_N).access = s.access := access_put (by decide) ..
  exact access_ite ((hlog ..).trans hseq) ((access_logPump ..).trans ((access_qStore ..).trans ((hlog ..).trans ((hlog ..).trans hseq))))

theorem access_logLost (s : State) : s.logLost.access = s.access :=
  access_ite rfl (access_logQueue ..)

theorem access_logPut (s : State) (sv : Bool) (e : LogEntry) : (s.logPut sv e).access = s.access := by
  have hqueue : ∀ b, (s.logLost.logQueue b e).access = s.access := fun b => (access_logQueue ..).trans (access_logLost s)
  exact access_ite rfl (access_ite ((access_put (f := R.LOG_LOST_N) (by decide) ..).trans (hqueue _)) (hqueue _))

theorem access_eccCount (req key st : Nat) (s : State) : (s.eccCount req key st).access = s.access := by
  unfold State.eccCount State.note State.bump
  refine access_ite ?_ ?_
  · rw [access_logPut, access_put, access_put, access_put, access_put] <;> decide
  · rw [access_put, access_put, access_put, access_put] <;> decide

theorem access_rflSend (type : Nat) (d : List Byte) (s : State) (bad : List Nat) : (s.rflSend type d bad).access = s.access :=
  access_ite rfl (access_ite (access_logPut ..) (access_qStore ..))

/-! ## Releases and events (06, R150-R160; 08, R199-R207) -/

theorem access_release (s : State) (n : Nat) : (s.release n).access = s.access := by
  have hidle : ∀ (c : Bool) (e : Nat) (f : Eng → Eng) (t : State), (if c then t.upE e f else t).access = t.access :=
    fun _ _ _ _ => access_ite rfl rfl
  have hword : ∀ (req key st : Nat) (t : State), (if st = 0 then t else t.eccCount req key st).access = t.access :=
    fun _ _ _ _ => access_ite rfl (access_eccCount ..)
  refine access_ite ((hword ..).trans ?entered) ((access_setCopy ..).trans ((hword ..).trans ?entered))
  exact (access_putWords ..).trans (hidle ..)

theorem access_overrun (s : State) (n : Nat) : (s.overrun n).access = s.access := by
  have hcount : ((s.bump R.TSK_CNT_OVR n).bump R.TSK_ST_CONSEC n).access = s.access :=
    (access_put (by decide) ..).trans (access_put (by decide) ..)
  exact (access_logPut ..).trans hcount

theorem access_consider (s : State) (n : Nat) : (s.consider n).1.access = s.access :=
  access_fst_ite rfl (access_fst_ite (access_overrun ..) (access_release ..))

theorem access_guardPass (s : State) (n time : Nat) : (s.guardPass n time).1.access = s.access :=
  access_fst_ite (access_put (f := R.TSK_CNT_GREJ) (by decide) ..) rfl

theorem access_taskEvent (s : State) (o : Occ) (n : Nat) : (s.taskEvent o n).1.access = s.access := by
  have hsent : ∀ (t : State) (d : List Byte),
      (if !t.lead then t else if t.seq.inLatch then { t with rfl := { t.rfl with rels := t.rfl.rels ++ [d] } } else t.rflSend 3 d).access = t.access :=
    fun _ _ => access_ite rfl (access_ite rfl (access_rflSend ..))
  refine access_fst_ite (access_fst_ite ?_ (access_guardPass ..)) rfl
  exact (access_consider ..).trans ((hsent ..).trans (access_guardPass ..))

theorem access_taskEvents (s : State) (o : Occ) : (s.taskEvents o).1.access = s.access := by
  unfold State.taskEvents
  exact List.foldlRecOn (motive := fun r : State × List (Nat × Nat) => r.1.access = s.access) _ _ rfl
    fun r hr n _ => (access_taskEvent ..).trans hr

theorem access_waveTrigger (k : Nat) (s : State) : (s.waveTrigger k).access = s.access := by
  have hstart : ((s.put R.WAVE_CH_STAT_STATE 2 k).put R.WAVE_CH_PASS_DONE 0 k).access = s.access :=
    (access_put (by decide) ..).trans (access_put (by decide) ..)
  exact access_ite hstart (access_ite (access_put (f := R.WAVE_CH_STAT_MISS) (by decide) ..) rfl)

theorem access_waveEvent (src : Nat) (s : State) : (s.waveEvent src).access = s.access :=
  access_forAll access_waveTrigger _ s

theorem access_dmaEvent (src : Nat) (s : State) : (s.dmaEvent src).access = s.access :=
  access_forAll (fun _ _ => access_put (f := R.DMA_STAT_WAITTRIG) (by decide) ..) _ s

theorem access_routeEvent (s : State) (src : Nat) : (s.routeEvent src).access = s.access :=
  access_ite (access_ite (access_put (f := R.EVT_STAT_RTDROP) (by decide) ..) rfl) rfl

theorem access_eventPut (o : Occ) (s : State) : (s.eventPut o).access = s.access :=
  access_forAll (fun _ _ => access_bufStore ..) _ _

theorem access_eventLoser (o : Occ) (s : State) : (s.eventLoser o).1.access = s.access := by
  unfold State.eventLoser
  split
  · exact access_fst_ite (access_eventPut ..) rfl
  · rfl

theorem access_offer (s : State) (o : Occ) : (s.offer o).1.access = s.access := by
  have hlost : ((s.bump R.EVT_LOST_N).put R.EVT_STAT_OVF 1).access = s.access :=
    (access_put (by decide) ..).trans (access_put (by decide) ..)
  exact access_fst_ite rfl (access_fst_ite (access_ite rfl (access_eventPut ..))
    (access_fst_ite ((access_eventLoser ..).trans hlost) (access_eventPut ..)))

theorem access_present (k : Nat) (o : Occ) (s : State) : (State.present k o s).access = s.access := by
  induction k generalizing o s with
  | zero => exact access_offer ..
  | succ k ih =>
    have hreleased : (if s.following then (s, []) else s.taskEvents o).1.access = s.access :=
      access_fst_ite rfl (access_taskEvents ..)
    have hall := access_forAll (f := fun (x : Nat × Nat) (s : State) => State.present k { src := x.1, time := s.now, pay := x.2, inj := false } s)
      fun _ _ => ih _ _
    simp only [State.present, apply_ite State.access, ih, hall, access_offer, access_routeEvent, access_waveEvent, access_dmaEvent, hreleased, ite_self]

theorem access_raise (src pay : Nat) (s : State) : (s.raise src pay).access = s.access :=
  access_ite (access_present ..) rfl

/-! ## A message leaves its queue (09, R221, R222; 14, R364) -/

theorem access_eccRead (req copy a n : Nat) (s : State) : (s.eccRead req copy a n).1.access = s.access := by
  unfold State.eccRead
  split
  · rfl
  · refine List.foldlRecOn (motive := fun r : State × Option Nat => r.1.access = s.access) _ _ rfl fun r hr x _ => ?_
    dsimp only
    split
    · exact hr
    · exact ((access_raise ..).trans (access_eccCount ..)).trans hr

theorem access_popFront (p : Nat) (s : State) : (s.popFront p).access = s.access := by
  have hread : ∀ k len i n, (s.qRead k len i n).access = s.access := fun k len i n => access_ite rfl (access_eccRead ..)
  exact hread ..

/-- A message leaves its queue, and every session stays as it is. -/
@[simp] theorem State.popFront_sess (p : Nat) (s : State) : (s.popFront p).sess = s.sess :=
  congrArg Prod.fst (access_popFront p s)

@[simp] theorem State.popFront_key (p : Nat) (s : State) (k : Nat) : (s.popFront p).key k = s.key k :=
  congrArg (fun a : Access => a.2.1.keys.getD k (List.replicate 32 0#8)) (access_popFront p s)

@[simp] theorem State.popFront_lockout (p : Nat) (s : State) (q : Nat) : (s.popFront p).is R.FP_STAT_LOCKOUT q = s.is R.FP_STAT_LOCKOUT q :=
  congrFun (congrArg (fun a : Access => a.2.2.2) (access_popFront p s)) q

@[simp] theorem State.popFront_arr (p : Nat) (s : State) : (s.popFront p).arr = s.arr :=
  congrArg (fun a : Access => a.2.2.1) (access_popFront p s)

end Sys2Proof.Machine
end

section
/-! PROOFS. Message checks and session messages (O26). -/

namespace Sys2Proof.Machine

/-! ## The message at the front of a port (14, R364; 25, R607; 26, R635) -/

theorem State.fronts_iff {s : State} {p : Nat} {m : Msg} :
    s.fronts p m = true ↔ (∃ udp raw, s.front p = some (udp, raw) ∧ parseMsg udp raw = some m) ∧ s.halted 4 = false ∧ s.upd.hand = false := by
  simp only [State.fronts, Bool.and_eq_true, decide_eq_true_eq, Bool.not_eq_true', Option.bind_eq_some_iff, Prod.exists, and_assoc]

/-- A command serves the message at the front of its port, where the message is one of its own, by what it does for this message. -/
theorem State.serveFront_eq_served {s : State} {p : Nat} {m : Msg} {want : Msg → Bool} {f : Nat → Sess → Msg → State → State}
    {g : Nat → Sess → State → State} (hfront : s.fronts p m = true) (hwant : want m = true) (hfg : ∀ i x u, f i x m u = g i x u) :
    s.serveFront p want f = s.served p m g := by
  have hg : (fun i x u => f i x m u) = g := funext fun i => funext fun x => funext (hfg i x)
  rw [State.serveFront_of_fronts f hfront hwant, hg]

/-- With no message, while SV is halted and while it hands over, no message is taken. -/
theorem State.serveFront_eq_self {s : State} {p : Nat} (want : Msg → Bool) (f : Nat → Sess → Msg → State → State)
    (h : s.halted 4 = true ∨ s.upd.hand = true ∨ s.front p = none) : s.serveFront p want f = s := by
  unfold State.serveFront
  split
  · rfl
  · next udp raw hsome =>
    split
    · rfl
    · rw [hsome] at h
      exact if_pos (by simpa [or_assoc] using Or.inr h)

/-- Nor is a request of the dictionary, whose turn it may be. -/
theorem requestFront_eq_self {s : State} {p : Nat} (want : Msg → Bool) (f : Nat → Sess → Msg → State → State)
    (h : s.halted 4 = true ∨ s.upd.hand = true ∨ s.front p = none) : (if s.reqTurn p then s.serveFront p want f else s) = s := by
  rw [State.serveFront_eq_self want f h, ite_self]

/-! ## The checks of a message (14, R364, R365, R371, R373) -/

/-- The key that EPOCH selects in session `i`, which is `x`, and the last sequence under it; no key where the old one is gone. -/
def State.msgKey (s : State) (m : Msg) (i : Nat) (x : Sess) : Option (List Byte × Nat) :=
  if bit m.flags 1 = x.epoch then some (s.key (4 + i), x.rx) else x.old

/-- A message that has passed the checks in session `i`, which was `x`, under the key `k`. -/
def State.accepted (s : State) (p : Nat) (m : Msg) (i : Nat) (x : Sess) (k : List Byte) : State :=
  let v := s.partnerHeard p
  v.upSess i fun y =>
    if bit m.flags 1 = x.epoch then { y with rx := m.seq, last := v.now, old := none } else { y with old := some (k, m.seq), last := v.now }

/-- A message is discarded by the first check that it fails: its session, its key and trailer, its sequence. -/
theorem State.msgAccept_eq (p : Nat) (m : Msg) (u : State) :
    u.msgAccept p m = match u.sess.find? fun x => x.2.id == m.sid && x.2.port == p with
      | none => (u.portDrop p 5, none)
      | some (i, x) => match u.msgKey m i x with
        | none => (u.portDrop p 3, none)
        | some (k, n) =>
          if trailer k m.covered ≠ m.trail then (u.portDrop p 3, none)
          else if m.seq ≤ n then (u.portDrop p 4, none)
          else (u.accepted p m i x k, some i) := by
  simp only [State.msgAccept, State.msgKey, State.accepted, beq_iff_eq] <;> rfl

/-- The sequences of a session that is closed need no watch. -/
theorem State.seqGuard_of_none {s : State} {i : Nat} (h : Store.find i s.sess = none) : s.seqGuard i = s := by
  simp only [State.seqGuard, h]

/-- What follows the checks of a message that asks for nothing: the sequences of the session that accepted it are watched. -/
def afterChecks : State × Option Nat → State
  | (u, none) => u
  | (u, some i) => u.seqGuard i

theorem served_idle (s : State) (p : Nat) (m : Msg) : s.served p m (fun _ _ u => u) = afterChecks ((s.popFront p).msgAccept p m) := by
  rw [State.served]
  generalize (s.popFront p).msgAccept p m = r
  obtain ⟨u, i⟩ := r
  cases i with
  | none => rfl
  | some i =>
    dsimp only [afterChecks]
    cases hsess : Store.find i u.sess with
    | none => exact (State.seqGuard_of_none hsess).symm
    | some x => rfl

/-- Taking the message from its queue changes no key. -/
theorem State.popFront_msgKey (s : State) (p : Nat) (m : Msg) (i : Nat) (x : Sess) : (s.popFront p).msgKey m i x = s.msgKey m i x := by
  simp only [State.msgKey, State.popFront_key]

theorem opKeepAlive_of_fronts {s : State} {p : Nat} {m : Msg} (hfront : s.fronts p m = true) (hsvc : m.svc = 0x1E) (hreq : m.isReply = false) :
    let u := s.popFront p
    opKeepAlive p s = match s.sess.find? fun x => x.2.id == m.sid && x.2.port == p with
      | none => u.portDrop p 5
      | some (i, x) => match s.msgKey m i x with
        | none => u.portDrop p 3
        | some (k, n) =>
          if trailer k m.covered ≠ m.trail then u.portDrop p 3 else if m.seq ≤ n then u.portDrop p 4 else (u.accepted p m i x k).seqGuard i := by
  intro u
  have hserved : opKeepAlive p s = s.served p m fun _ _ u => u := State.serveFront_of_fronts _ hfront (by simp [hsvc, hreq])
  rw [hserved, served_idle, State.msgAccept_eq, State.popFront_sess]
  cases s.sess.find? fun x => x.2.id == m.sid && x.2.port == p with
  | none => rfl
  | some r =>
    obtain ⟨i, x⟩ := r
    simp only [State.popFront_msgKey]
    cases s.msgKey m i x with
    | none => rfl
    | some r =>
      obtain ⟨k, n⟩ := r
      exact (apply_ite afterChecks ..).trans (ite_congr rfl (fun _ => rfl) fun _ => apply_ite afterChecks ..)

/-! ## Opening a session (14, R368-R370, R372) -/

/-- The records of a half are read from the array alone (21, R525). -/
theorem walkRecs_congr {s t : State} (h : t.arr = s.arr) (base size k o : Nat) : t.walkRecs base size k o = s.walkRecs base size k o := by
  have hbytes : ∀ o n, t.arrBytes o n = s.arrBytes o n := fun _ _ => by rw [State.arrBytes, h, State.arrBytes]
  induction k generalizing o with
  | zero => rfl
  | succ k ih =>
    dsimp only [State.walkRecs, State.arrNat]
    simp only [hbytes, ih]

/-- So is the newest record of a key. -/
theorem recOf_congr {s t : State} (h : t.arr = s.arr) (k5 : Bool) (key : Nat) : t.recOf k5 key = s.recOf k5 key := by
  have hhalf : ∀ k, t.half k5 k = s.half k5 k := fun _ => walkRecs_congr h ..
  have hactive : t.activeHalf k5 = s.activeHalf k5 := by rw [State.activeHalf, hhalf, hhalf, State.activeHalf]
  have hrecs : t.recs k5 = s.recs k5 := by rw [State.recs, hactive, State.recs]; simp only [hhalf]
  rw [State.recOf, hrecs, State.recOf]

/-- Taking the message from its queue changes no record, so no role key. -/
theorem popFront_openKey (s : State) (p q r : Nat) : (s.popFront p).openKey q r = s.openKey q r := by
  rw [State.openKey, State.roleStored, recOf_congr (s.popFront_arr p), State.popFront_key, State.openKey, State.roleStored]

/-- An OPEN whose trailer has been verified under the key `k`, in the state in which it has been heard. -/
def State.openVerified (w : State) (p : Nat) (m : Msg) (k : List Byte) : State :=
  let r := leAt m.body 0 1
  if bit (w.get R.FP_CFG_ROLES p) r = false then w.openReply p m.udp 0x13 0 k []
  else match (List.range 16).find? (fun i => (Store.find i w.sess).isNone) with
    | none => w.openReply p m.udp 0x12 0 k []
    | some i =>
      if w.get R.FP_CFG_MAXSESS p ≤ (w.portSess p).length then w.openReply p m.udp 0x12 0 k [] else w.openGrant p r m.udp i k (slice m.body 4 16)

theorem udp_of_parseMsg {udp : Nat} {raw : List Byte} {m : Msg} (h : parseMsg udp raw = some m) : udp = m.udp := by
  simp only [parseMsg, Option.ite_none_right_eq_some, Option.some.injEq] at h
  rw [← h.2]

/-- An OPEN is judged by the lockout, its form, its role's key and its trailer in turn. -/
theorem opOpenSession_of_fronts {s : State} {p : Nat} {m : Msg} (hfront : s.fronts p m = true) (hsvc : m.svc = 0x10) (hreq : m.isReply = false)
    (hsid : m.sid = 0) :
    let u := s.popFront p
    let r := leAt m.body 0 1
    let v := u.partnerHeard p
    opOpenSession p s =
      if s.is R.FP_STAT_LOCKOUT p then u
      else if m.body.length ≠ 20 ∨ 3 < r then u.openFailed p
      else match s.openKey p r with
        | none => u.openFailed p
        | some (k, e) => if trailer k m.covered ≠ m.trail then u.openFailed p else (if e then v.warn 7 p else v).openVerified p m k := by
  intro u r v
  obtain ⟨⟨udp, raw, hraw, hparse⟩, hhalt, hhand⟩ := State.fronts_iff.1 hfront
  obtain rfl := udp_of_parseMsg hparse
  have hown : ¬ (m.svc ≠ 0x10 ∨ m.isReply = true ∨ m.sid ≠ 0 ∨ s.halted 4 = true ∨ s.upd.hand = true) := by
    simp [hsvc, hreq, hsid, hhalt, hhand]
  simp only [opOpenSession, hraw, hparse]
  rw [if_neg hown]
  refine ite_congr (by rw [State.popFront_lockout]) (fun _ => rfl) fun _ => ite_congr rfl (fun _ => rfl) fun _ => ?_
  rw [popFront_openKey]
  rcases s.openKey p r with _ | ⟨k, e⟩
  case none => rfl
  case some =>
    refine ite_congr rfl (fun _ => rfl) fun _ => ?_
    simp only [State.openVerified, Bool.not_eq_true'] <;> rfl

theorem opOpenSession_eq_self {s : State} {p : Nat} (h : s.halted 4 = true ∨ s.upd.hand = true ∨ s.front p = none) : opOpenSession p s = s := by
  unfold opOpenSession
  split
  · rfl
  · next udp raw hsome =>
    split
    · rfl
    · rw [hsome] at h
      exact if_pos (by simpa using Or.inr (Or.inr (Or.inr h)))

/-! ## Closing and rekeying a session, and unknown services (14, R364, R371, R373) -/

theorem opRekeySession_of_reply {s : State} {p : Nat} {m : Msg} (hfront : s.fronts p m = true) (hsvc : m.svc = 0x11) (hreply : m.isReply = true) :
    opRekeySession p s = s.served p m fun i x u => match x.rekey with
      | some (n, k) => if leAt m.body 0 4 = n ∧ leAt m.body 4 1 = 0 ∧ m.body.length = 24 then u.rekeyed i k (m.body.drop 8) else u
      | none => u :=
  State.serveFront_eq_served hfront (by simp [hsvc]) fun _ _ _ => if_pos hreply

theorem opRekeySession_of_request {s : State} {p : Nat} {m : Msg} (hfront : s.fronts p m = true) (hsvc : m.svc = 0x11) (hreq : m.isReply = false) :
    opRekeySession p s = s.served p m fun i _ u =>
      if m.body.length ≠ 16 then u.sessReply i 0x11 m.seq m.udp 9 []
      else (u.nonce.2.sessReply i 0x11 m.seq m.udp 0 u.nonce.1).rekeyed i m.body u.nonce.1 :=
  State.serveFront_eq_served hfront (by simp [hsvc]) fun _ _ _ => if_neg (by simp [hreq])

/-- No command serves a request of these services. -/
theorem Msg.claimed_of_unknown {m : Msg} (hreq : m.isReply = false) (hsvc : m.svc = 9 ∨ 0x20 ≤ m.svc) : m.claimed = false := by
  have hne : ∀ k, k ≠ 9 → k < 0x20 → (m.svc == k) = false := fun k h9 h20 => by simp; omega
  simp [Msg.claimed, hreq, hne]

theorem opUnknownService_of_fronts {s : State} {p : Nat} {m : Msg} (hfront : s.fronts p m = true) (hreq : m.isReply = false)
    (hsvc : m.svc = 9 ∨ 0x20 ≤ m.svc) : opUnknownService p s = s.served p m fun i _ u => u.sessReply i m.svc m.seq m.udp 0x10 [] := by
  obtain ⟨⟨udp, raw, hraw, hparse⟩, -, -⟩ := State.fronts_iff.1 hfront
  have hne : ∀ k, k ≠ 9 → k < 0x20 → m.svc ≠ k := fun k h9 h20 => by omega
  simp only [opUnknownService, hraw, hparse]
  refine State.serveFront_eq_served hfront (by rw [Msg.claimed_of_unknown hreq hsvc]; rfl) fun i x u => ?_
  simp [hreq, Sess.bulkCount, hne]

theorem opUnknownService_eq_self {s : State} {p : Nat} (h : s.halted 4 = true ∨ s.upd.hand = true ∨ s.front p = none) : opUnknownService p s = s := by
  unfold opUnknownService
  split
  · rfl
  · next udp raw hsome =>
    split
    · rw [hsome] at h
      exact if_pos (by simpa using h)
    · exact State.serveFront_eq_self _ _ h

/-- Settles O26: what is taken from a queue leaves sessions, keys and lockouts as they are, so the checks of a message judge by the state before it. -/
theorem sessions : Obligations.Sessions := by
  unfold Obligations.Sessions
  refine ⟨?keepAlive, ?idle, ?opening, ?closing, ?rekeyAsked, ?rekeyAnswered, ?unknown, fun p s => rfl, fun j s => rfl, fun j s => rfl⟩
  case keepAlive => exact fun p m s hfront hsvc hreq => congrArg Host.Outcome.next (opKeepAlive_of_fronts hfront hsvc hreq)
  case idle =>
    intro p s h
    have hidle : ∀ {t : State}, t = s → (Host.Outcome.next t : Host.Outcome State Fault Refusal) = .next s := fun ht => congrArg Host.Outcome.next ht
    have hserve := fun want f => hidle (State.serveFront_eq_self want f h)
    have hrequest := fun want f => hidle (requestFront_eq_self want f h)
    exact ⟨hserve _ _, hrequest _ _, hrequest _ _, hrequest _ _, hrequest _ _, hrequest _ _, hserve _ _, hserve _ _, hidle (opUnknownService_eq_self h),
      hserve _ _, hidle (opOpenSession_eq_self h)⟩
  case opening =>
    exact fun p m s hfront hsvc hreq hsid => congrArg Host.Outcome.next (opOpenSession_of_fronts hfront hsvc hreq hsid)
  case closing =>
    exact fun p m s hfront hsvc hreq =>
      congrArg Host.Outcome.next (State.serveFront_of_fronts _ hfront (by simp [hsvc, hreq]))
  case rekeyAsked => exact fun p m s hfront hsvc hreq => congrArg Host.Outcome.next (opRekeySession_of_request hfront hsvc hreq)
  case rekeyAnswered => exact fun p m s hfront hsvc hreply => congrArg Host.Outcome.next (opRekeySession_of_reply hfront hsvc hreply)
  case unknown => exact fun p m s hfront hreq hsvc => congrArg Host.Outcome.next (opUnknownService_of_fronts hfront hreq hsvc)

end Sys2Proof.Machine
end

section
/-! PROOFS. The soft-off after a desaturation, against O31 (15, R402). -/

namespace Sys2Proof.Machine

/-- GD7 is enabled and on; its edge began at crystal time 0, which is now, and it has no blanking time. -/
def onDie : State := (State.reset.upDie 7 fun d => { d with en := true }).put R.GD_STAT_ON 1 7

/-- The state that O31 gives for a desaturation of that die: its soft-off starts at the detection. -/
def desatAtOnce : State :=
  (((((onDie.put R.GD_STAT_DESATL 1 7).bump R.GD_CNT_DESCNT 7).dieEdge 7 .soft).raise 172 0).shortLost 7).channelFault 7

theorem start_desatAtOnce : (desatAtOnce.die 7).start = 0 := by
  decide +kernel

/-- The model starts the soft-off 20 ns after the detection, at crystal time 0. -/
theorem start_opDesaturation_onDie : ((opDesaturation 7 onDie).die 7).start = 20 := by
  decide +kernel

/-- The die is on and enabled, and its blanking and filter time are over. -/
theorem onDie_detects : onDie.is R.GD_STAT_ON 7 = true ∧ (onDie.die 7).en = true ∧
    (onDie.die 7).start + 10 * ((onDie.die 7).copy.getD 18 0 + (onDie.die 7).copy.getD 20 0) ≤ onDie.time.real := by
  decide +kernel

/-- Refutes O31: its clause of DESATURATION speaks of every state and starts the soft-off at the detection itself, where R402 starts it 20 ns later, and
the model with it. For `onDie`, whose desaturation is taken up, the clause gives a profile with another start than the one that the command answers. -/
theorem not_driveDies : ¬ Obligations.DriveDies := by
  unfold Obligations.DriveDies
  rintro ⟨-, -, -, -, -, -, -, -, -, -, -, hdesat, -⟩
  have hclause : opDesaturation 7 onDie = desatAtOnce :=
    (Host.Outcome.next.inj (hdesat 7 onDie)).trans (if_pos onDie_detects)
  have hstart : 20 = 0 := start_opDesaturation_onDie.symm.trans ((congrArg (fun s => (s.die 7).start) hclause).trans start_desatAtOnce)
  exact absurd hstart (by decide)

end Sys2Proof.Machine
end

section
/-! PROOFS. The carrier, duties and bindings, the chopper's cap and the DC-link comparators (O32). -/

namespace Sys2Proof.Machine

/-! ## Writes of the carrier's registers (15, R405, R406, R408, R409) -/

theorem State.cpOk_iff (s : State) (v : Nat) : s.cpOk v = true ↔ v % 2 = 0 ∧ 1000 ≤ v ∧ v ≤ 200000 ∧ s.period % v = 0 := by
  simp [State.cpOk, and_assoc]

/-- CP stands apart from the flag that the carrier runs. -/
theorem State.carrier_putCp (s : State) (v : Nat) : (s.put R.GDRV_CP_CP v).carrier = s.carrier :=
  s.is_put_ne _ _ v 0 0 0 0 (by decide)

theorem opGdrvCpWrite_eq (v : Nat) (s : State) :
    let x := v % 2 ^ 18
    let u := s.put R.GDRV_CP_CP x
    opGdrvCpWrite v s =
      if s.inRun = false ∧ x % 2 = 0 ∧ 1000 ≤ x ∧ x ≤ 200000 ∧ s.period % x = 0 then
        if s.carrier then { u with pwm := { s.pwm with cpNext := some x } } else u.put R.GDRV_CPACT_CP x
      else s.put R.GDRV_STAT_CPERR 1 := by
  intro x u
  have htake : u.takeCp x = if s.carrier then { u with pwm := { s.pwm with cpNext := some x } } else u.put R.GDRV_CPACT_CP x := by
    rw [State.takeCp, s.carrier_putCp x]
    rfl
  have haccepts : (s.inRun || !s.cpOk x) = true ↔ ¬ (s.inRun = false ∧ x % 2 = 0 ∧ 1000 ≤ x ∧ x ≤ 200000 ∧ s.period % x = 0) := by
    rw [← s.cpOk_iff x]
    cases s.inRun <;> simp
  rw [← htake, ← ite_not]
  exact ite_congr (propext haccepts) (fun _ => rfl) fun _ => rfl

/-- BIND3 holds a bit of the image, for the bridge enable. -/
theorem opGdrvBindWrite_enable {s : State} (v : Nat) (h : s.inRun = false) :
    opGdrvBindWrite 3 v s = (s.put R.GDRV_BIND3_BIT v).put R.GDRV_BIND_EN (bits v 15 1) 3 :=
  if_neg (by simp [h])

/-- The other bindings hold a word of it, for a duty. -/
theorem opGdrvBindWrite_duty {s : State} {k : Nat} (v : Nat) (h : s.inRun = false) (hk : k ≠ 3) :
    opGdrvBindWrite k v s = (s.put R.GDRV_BIND_WORD v k).put R.GDRV_BIND_EN (bits v 15 1) k := by
  simp [opGdrvBindWrite, h, hk]

/-- The duty of GD7 is bound by BIND4, that of a bridge leg by the leg's own entry. -/
theorem State.isSome_dutyBound (s : State) (k : Fin 4) : (s.dutyBound k).isSome = s.is R.GDRV_BIND_EN (if k = 3 then 4 else k) := by
  have hbridge : (k : Nat) ≠ 4 := Nat.ne_of_lt k.isLt
  have haux : (k : Nat) = 3 ↔ k = 3 := (Fin.ext_iff (b := 3)).symm
  rw [State.dutyBound, if_neg hbridge]
  simp only [haux]
  cases s.is R.GDRV_BIND_EN (if k = 3 then 4 else k) <;> rfl

theorem opGdrvDutyWrite_bound {s : State} {k : Fin 4} (v : Nat) (h : s.is R.GDRV_BIND_EN (if k = 3 then 4 else k) = true) :
    opGdrvDutyWrite k v s = s.put R.GDRV_STAT_BINDREF 1 :=
  if_pos ((s.isSome_dutyBound k).trans h)

theorem opGdrvDutyWrite_unbound {s : State} {k : Fin 4} (v : Nat) (h : s.is R.GDRV_BIND_EN (if k = 3 then 4 else k) = false) :
    opGdrvDutyWrite k v s = (if 0x10000 < v % 2 ^ 17 then s.put R.GDRV_STAT_DUTYSAT 1 else s).put (dutyField k) v :=
  if_neg (by simp [s.isSome_dutyBound k, h])

/-! ## Legs (15, R408) -/

/-- At the end of its dead time a leg's switch gets its on command, or is noted as skipped. -/
theorem opDeadTimeExpiry_of_some {s : State} {l d t : Nat} (h : Store.find l s.pwm.dead = some (d, t)) :
    let u := s.advanceReal t
    let v := { u with pwm := { u.pwm with dead := Store.del l u.pwm.dead } }
    opDeadTimeExpiry l s =
      if v.longEnough l = false then { v with pwm := { v.pwm with skip := v.pwm.skip ++ [l] } }
      else if u.released d then v else v.upDie d fun x => { x with cmds := x.cmds ++ [(.edge .on, u.time.real + 80)] } := by
  intro u v
  rw [opDeadTimeExpiry, h]
  change (if v.longEnough l = true then v.dieCmd d .on else _) = _
  cases v.longEnough l <;> rfl

theorem opDeadTimeExpiry_of_none {s : State} {l : Nat} (h : Store.find l s.pwm.dead = none) : opDeadTimeExpiry l s = s := by
  rw [opDeadTimeExpiry, h]

/-! ## Valley, cap and peak (15, R405, R406, R410; 16, R422; 18, R469) -/

theorem opCarrierValley_running {s : State} (h : s.carrier = true) :
    let u := (s.advance (s.nextPos 0)).chopCount
    opCarrierValley s = ({ u with dlnk := { u.dlnk with capNs := 0 } }.put R.DLNK_STAT_CAPPED (b2n (u.chopCap == some 0))).chop :=
  if_neg (by simp [h])

theorem opCarrierValley_stopped {s : State} (h : s.carrier = false) : opCarrierValley s = s := if_pos (by simp [h])

theorem opCarrierPeak_stopped {s : State} (h : s.carrier = false) : opCarrierPeak s = s := if_pos (by simp [h])

/-- Once GD6 has been on for the cap's time in this period, the chopper is held off. -/
theorem opChopperCapReached_eq (s : State) :
    opChopperCapReached s = match s.chopCap with
      | none => s
      | some c =>
        if s.carrier = false then s
        else (fun u : State => if c ≤ u.dlnk.capNs then (u.put R.DLNK_STAT_CAPPED 1).chop else u)
          (match s.dlnk.onSince with | some t => (s.advanceReal (t + (c - s.dlnk.capNs))).chopCount | none => s) := by
  unfold opChopperCapReached
  cases s.chopCap with
  | none => rfl
  | some c => exact ite_congr (propext (by simp)) (fun _ => rfl) fun _ => rfl

/-- A carrier period that waits for the peak is taken up (15, R405, R411). -/
def State.peakPeriod (s : State) : State :=
  match s.pwm.cpNext with
  | some c => { s with pwm := { s.pwm with cpNext := none } }.put R.GDRV_CPACT_CP c
  | none => s

/-- Dead time, least on time and chopper mode are taken up (15, R408; 16, R421). -/
def State.peakTimes (s : State) : State :=
  { s with pwm := { s.pwm with dt := s.get R.GDRV_DT_DT, minpw := s.get R.GDRV_DT_MINPW, chmode := s.get R.DLNK_CTL_CHMODE } }

/-- Settings that wait, compare values and references are taken up (15, R399, R406, R407). -/
def State.peakRefs (s : State) : State :=
  (List.range 5).foldl (fun t k => t.setRef k (t.refNow k t.now)) ((List.range 8).foldl (fun t n => t.peakLoad n) s.loadCompare)

/-- GD7 is due its on command (15, R412). -/
def State.auxDue (s : State) : Bool :=
  s.is R.GDRV_AUXCTL_MODE && !s.dark 0 && s.legRef 3 && !s.is R.GD_STAT_ON 7 && !s.edgeSent 7

/-- With the overcurrent latches cleared their hold ends (18, R469). -/
def State.peakUnhold (s : State) : State := if s.get R.SADC_OCSTAT_LATCH = 0 then { s with pwm := { s.pwm with ocHold := false } } else s

/-- Bridge enable, bridge and chopper follow (15, R410; 16, R421). -/
def State.peakFollow (s : State) : State :=
  (if s.is R.GDRV_PWM_CTL_BEN || !s.benAsked || s.get R.SADC_OCSTAT_LATCH != 0 || s.is R.LIFE_STAT_BLOCK then s else s.benFollow).follow.chop

/-- What a peak takes up, before GD7 is switched. -/
def State.peakTaken (s : State) : State := (s.advance (s.nextPos (s.cpact / 2))).peakPeriod.peakTimes.peakRefs

theorem opCarrierPeak_eq {s : State} (h : s.carrier = true) :
    opCarrierPeak s =
      if s.peakTaken.auxDue then (s.peakTaken.dieCmd 7 .on).peakUnhold.peakFollow else s.peakTaken.peakUnhold.peakFollow := by
  rw [opCarrierPeak, if_neg (by simp [h])]
  exact apply_ite (fun s : State => s.peakUnhold.peakFollow) ..

/-! ## Comparators of the DC link (16, R416, R417, R420) -/

/-- The outputs take effect together; a rising TRIP trips where TRIPEN is set. -/
theorem State.cmpApply_eq (on off trip : Bool) (s : State) :
    let u := (((s.put R.DLNK_STAT_CMPON (b2n on)).put R.DLNK_STAT_CMPOFF (b2n off)).put R.DLNK_STAT_CMPTRIP (b2n trip)).hysteresis
    s.cmpApply on off trip =
      if trip = true ∧ s.is R.DLNK_STAT_CMPTRIP = false ∧ u.is R.DLNK_CTL_TRIPEN = true then
        ((((u.put R.DLNK_STAT_TRIPL 1).bump R.DLNK_CNT_TRIPS).raise 177 0).umbraEnter 1 4).chop
      else u.chop := by
  intro u
  refine (apply_ite State.chop ..).trans (ite_congr (propext ?_) (fun _ => Eq.refl _) fun _ => Eq.refl _)
  simp [and_assoc, u]

theorem State.onCode_eq (s : State) :
    s.onCode = if s.is R.DLNK_CTL_ONSRC then s.aoCodeAt 4 (s.time.real - 50) else s.get R.DLNK_THON_K := by
  rw [State.onCode]
  cases s.is R.DLNK_CTL_ONSRC <;> rfl

theorem opDlnkComparatorChange_eq_self {s : State} (von voff vtrip : Nat) (h : s.pwr.linkLost = true ∨ s.phase ≠ .up) :
    opDlnkComparatorChange von voff vtrip s = s :=
  if_pos (by simpa using h)

/-- What the comparators would show at these voltages: ON, OFF and TRIP. -/
def State.cmpSeen (von voff vtrip : Nat) (s : State) : Bool × Bool × Bool :=
  (cmpLevel (s.is R.DLNK_STAT_CMPON) 16384 s.onCode von, cmpLevel (s.is R.DLNK_STAT_CMPOFF) 16384 (s.get R.DLNK_THOFF_K) voff,
    cmpLevel (s.is R.DLNK_STAT_CMPTRIP) 16384 (s.get R.DLNK_THTRIP_K) vtrip)

theorem opDlnkComparatorChange_of_noRoll {s : State} (von voff vtrip : Nat) (h : ¬ (s.pwr.linkLost = true ∨ s.phase ≠ .up))
    (hroll : s.dlnk.roll = none) :
    let c := s.cmpSeen von voff vtrip
    opDlnkComparatorChange von voff vtrip s = s.cmpApply c.1 c.2.1 c.2.2 := by
  rw [opDlnkComparatorChange, if_neg (by simpa using h), hroll]
  rfl

/-- The comparator under Roll keeps its output, and what it would show waits for the end of its Roll. -/
theorem opDlnkComparatorChange_of_roll {s : State} {r : RollSt} (von voff vtrip : Nat) (h : ¬ (s.pwr.linkLost = true ∨ s.phase ≠ .up))
    (hroll : s.dlnk.roll = some r) :
    let c := s.cmpSeen von voff vtrip
    opDlnkComparatorChange von voff vtrip s =
      (if 0x10 ≤ r.comp ∧ r.comp ≤ 0x12 then { s with dlnk := { s.dlnk with roll := some { r with cmp := some c } } } else s).cmpApply
        (if r.comp = 0x10 then s.is R.DLNK_STAT_CMPON else c.1) (if r.comp = 0x11 then s.is R.DLNK_STAT_CMPOFF else c.2.1)
        (if r.comp = 0x12 then s.is R.DLNK_STAT_CMPTRIP else c.2.2) := by
  intro c
  have hfields : ∀ (p : Prop) [Decidable p] (x : DlnkSt) (f : Fam), (if p then { s with dlnk := x } else s).is f = s.is f :=
    fun p _ x f => by split <;> rfl
  rw [opDlnkComparatorChange, if_neg (by simpa using h), hroll]
  simp only [hfields]
  rfl

/-- Settles O32: each command is one case distinction on the state before it. A peak is taken up in stages, of which only the last two depend on whether
GD7 is switched; the comparators' outputs are those that `cmpSeen` gives, but for the one under Roll. -/
theorem pwmAndChopper : Obligations.PwmAndChopper := by
  unfold Obligations.PwmAndChopper
  refine ⟨?period, ?deadTime, ?bindings, ?duty, ?boundDuty, fun en s => rfl, fun v s => rfl, fun l t s => rfl, ?onCommand, ?noOnCommand, ?valley, ?cap,
    ?noCarrier, ?peak, ?comparators⟩
  case period => exact fun v s => congrArg Host.Outcome.next (opGdrvCpWrite_eq v.toNat s)
  case deadTime => exact fun v s => rfl
  case bindings =>
    intro k v s
    refine ⟨fun hrun => congrArg Host.Outcome.next (if_pos hrun), fun hhold hk => ?_, fun hhold hk => ?_⟩
    · subst hk
      exact congrArg Host.Outcome.next (opGdrvBindWrite_enable v.toNat hhold)
    · exact congrArg Host.Outcome.next (opGdrvBindWrite_duty v.toNat hhold fun h => hk (Fin.ext h))
  case duty => exact fun k v s h => congrArg Host.Outcome.next (opGdrvDutyWrite_unbound v.toNat h)
  case boundDuty => exact fun k v s h => congrArg Host.Outcome.next (opGdrvDutyWrite_bound v.toNat h)
  case onCommand => exact fun l d t s h => congrArg Host.Outcome.next (opDeadTimeExpiry_of_some h)
  case noOnCommand => exact fun l s h => congrArg Host.Outcome.next (opDeadTimeExpiry_of_none h)
  case valley => exact fun s h => congrArg Host.Outcome.next (opCarrierValley_running h)
  case cap => exact fun s => congrArg Host.Outcome.next (opChopperCapReached_eq s)
  case noCarrier =>
    exact fun s h => ⟨congrArg Host.Outcome.next (opCarrierValley_stopped h), congrArg Host.Outcome.next (opCarrierPeak_stopped h)⟩
  case peak =>
    intro s x a w l u z f hrun
    refine congrArg Host.Outcome.next ((opCarrierPeak_eq hrun).trans ?_)
    have ha : a = x.peakPeriod := by clear_value x; rfl
    have hu : u = a.peakTimes.peakRefs := by clear_value a; rfl
    have htaken : u = s.peakTaken := by rw [hu, ha]; rfl
    clear_value u
    rw [← htaken]
    rfl
  case comparators =>
    intro von voff vtrip s k cmp on off trip act
    refine congrArg Host.Outcome.next ?_
    have hseen : s.cmpSeen von voff vtrip = (on, off, trip) := by
      rw [State.cmpSeen, s.onCode_eq]
      rfl
    have hact : ∀ t a b c, State.cmpApply a b c t = act t a b c := fun t a b c => t.cmpApply_eq a b c
    clear_value act on off trip
    split
    · next h => exact opDlnkComparatorChange_eq_self von voff vtrip h
    · next h =>
      split
      · next hroll => rw [opDlnkComparatorChange_of_noRoll von voff vtrip h hroll, hseen, hact]
      · next r hroll => rw [opDlnkComparatorChange_of_roll von voff vtrip h hroll, hseen, hact]

end Sys2Proof.Machine
end

section
/-! PROOFS. What no reported error and no event touches: the memory below the engines' own blocks, the flash unit, the mark of a Keep request cut off,
crystal time, and the undervoltage bit of the field supply (for O36, O39, O41, O46). -/

namespace Sys2Proof.Machine

/-- Two distinctions on the same condition, put differently, are the same where their branches are. -/
theorem ite_congr_iff {p q : Prop} [Decidable p] [Decidable q] {x y u v : α} (h : p ↔ q) (hx : x = u) (hy : y = v) :
    (if p then x else y) = if q then u else v := ite_congr (propext h) (fun _ => hx) fun _ => hy

abbrev Calm := (Nat → Byte) × UpdSt × Option (Nat × Nat) × Nat × Bool

/-- What a state has of it; the blocks of the engines, where releases write, begin at 0xE0000000 (09, R213). -/
def State.calm (s : State) : Calm := (fun a => if a < 0xE0000000 then s.mb a else 0#8, s.upd, s.keep.cut, s.time.real, s.is R.DIO_STAT_UV)

/-- A field at another bit of its register is not the undervoltage bit. -/
theorem calm_put {f : Fam} (hf : f.lsb < 32 ∧ f.lsb ≠ R.DIO_STAT_UV.lsb) (s : State) (v i j : Nat) : (s.put f v i j).calm = s.calm :=
  congrArg (fun b => (s.calm.1, s.upd, s.keep.cut, s.time.real, b))
    (State.is_put_ne s f _ v i j 0 0 (Fam.key_ne_of_lsb (g := R.DIO_STAT_UV) hf.1 (by decide) hf.2 i j 0 0))

theorem calm_ite {c : Prop} [Decidable c] {a b s : State} (ha : a.calm = s.calm) (hb : b.calm = s.calm) : (if c then a else b).calm = s.calm := by
  rw [apply_ite State.calm, ha, hb, ite_self]

theorem calm_fst_ite {c : Prop} [Decidable c] {a b : State × α} {s : State} (ha : a.1.calm = s.calm) (hb : b.1.calm = s.calm) :
    (if c then a else b).1.calm = s.calm := by
  rw [apply_ite Prod.fst]
  exact calm_ite ha hb

theorem calm_forAll {f : α → State → State} (hf : ∀ x s, (f x s).calm = s.calm) (l : List α) (s : State) : (State.forAll l f s).calm = s.calm :=
  State.forAll_keeps (P := fun t => t.calm = s.calm) (fun x t h => (hf x t).trans h) l rfl

/-! ## Memory words and queues (09, R220; 23, R553) -/

theorem calm_eccStore (key : Nat) (s : State) : (s.eccStore key).calm = s.calm := by
  unfold State.eccStore
  split
  · exact calm_ite (calm_put (f := R.SYS_ECC_INJ_ARMED) (by decide) { s with m := { s.m with inject := none } } 0 0 0) rfl
  · rfl

theorem calm_bufStore (a n : Nat) (s : State) : (State.bufStore a n s).calm = s.calm :=
  calm_ite rfl (calm_forAll (fun _ _ => calm_eccStore ..) _ s)

theorem calm_qStore (k n : Nat) (s : State) : (s.qStore k n).calm = s.calm := calm_bufStore ..

theorem calm_markDirty (work : Bool) (a n : Nat) (s : State) : (s.markDirty work a n).calm = s.calm :=
  calm_ite (calm_forAll (fun _ _ => by rfl) _ s) rfl

/-- A store into the engines' own blocks. -/
theorem calm_setCopy {a : Nat} (ha : 0xE0000000 ≤ a) (l : List Byte) (s : State) : (s.setCopy 0 a l).calm = s.calm := by
  have hset : (s.setMem a l).calm = s.calm := by
    have hmb : (fun x => if x < 0xE0000000 then (s.setMem a l).mb x else 0#8) = fun x => if x < 0xE0000000 then s.mb x else 0#8 := by
      funext x
      exact ite_congr rfl (fun hx => s.mb_setMem_out a x l (.inl (Nat.lt_of_lt_of_le hx ha))) fun _ => rfl
    exact congrArg (fun m => (m, s.upd, s.keep.cut, s.time.real, s.is R.DIO_STAT_UV)) hmb
  exact (calm_markDirty ..).trans hset

theorem calm_putWords {a : Nat} (ha : 0xE0000000 ≤ a) (l : List Byte) (s : State) : (s.putWords 0 a l).calm = s.calm :=
  (calm_forAll (fun _ _ => calm_eccStore ..) _ _).trans (calm_setCopy ha l s)

/-! ## The log and the link (22, R546; 12, R296) -/

theorem calm_keepPush (r : KeepReq) (s : State) : (s.keepPush r).calm = s.calm := by
  have hqueued : ∀ k : KeepSt, k.cut = s.keep.cut → (({ s with keep := k } : State).wrapUp R.KEEP_QSEQ_N).calm = s.calm :=
    fun k hk => (calm_put (by decide) ..).trans (congrArg (fun c => (s.calm.1, s.upd, c, s.time.real, s.is R.DIO_STAT_UV)) hk)
  refine (calm_qStore ..).trans (hqueued _ ?_)
  split <;> rfl

theorem calm_logPump (k : Nat) (s : State) : (State.logPump k s).calm = s.calm := by
  induction k generalizing s with
  | zero => rfl
  | succ k ih =>
    unfold State.logPump
    split
    · rfl
    · exact calm_ite ((ih _).trans (calm_keepPush ..)) rfl

theorem calm_logQueue (ramOnly : Bool) (e : LogEntry) (s : State) : (s.logQueue ramOnly e).calm = s.calm := by
  have hlog : ∀ (t : State) (l : LogSt), ({ t with log := l } : State).calm = t.calm := fun _ _ => rfl
  have hseq : (s.wrapUp R.LOG_SEQ_N).calm = s.calm := calm_put (by decide) ..
  exact calm_ite ((hlog ..).trans hseq) ((calm_logPump ..).trans ((calm_qStore ..).trans ((hlog ..).trans ((hlog ..).trans hseq))))

theorem calm_logLost (s : State) : s.logLost.calm = s.calm := calm_ite rfl (calm_logQueue ..)

theorem calm_logPut (s : State) (sv : Bool) (e : LogEntry) : (s.logPut sv e).calm = s.calm := by
  have hqueue : ∀ b, (s.logLost.logQueue b e).calm = s.calm := fun b => (calm_logQueue ..).trans (calm_logLost s)
  exact calm_ite rfl (calm_ite ((calm_put (f := R.LOG_LOST_N) (by decide) ..).trans (hqueue _)) (hqueue _))

theorem calm_warn (s : State) (k d : Nat) : (s.warn k d).calm = s.calm := calm_logPut ..

theorem calm_eccCount (req key st : Nat) (s : State) : (s.eccCount req key st).calm = s.calm := by
  unfold State.eccCount State.note State.bump
  refine calm_ite ?_ ?_
  · rw [calm_logPut, calm_put, calm_put, calm_put, calm_put] <;> decide
  · rw [calm_put, calm_put, calm_put, calm_put] <;> decide

theorem calm_rflSend (type : Nat) (d : List Byte) (s : State) (bad : List Nat) : (s.rflSend type d bad).calm = s.calm :=
  calm_ite rfl (calm_ite (calm_logPut ..) (calm_qStore ..))

/-! ## Releases and events (06, R150-R160; 08, R199-R207) -/

theorem le_ctxAddr (s : State) (n : Nat) : 0xE0000000 ≤ s.ctxAddr n := by
  unfold State.ctxAddr privBase
  omega

theorem calm_release (s : State) (n : Nat) : (s.release n).calm = s.calm := by
  have hidle : ∀ (c : Bool) (e : Nat) (f : Eng → Eng) (t : State), (if c then t.upE e f else t).calm = t.calm := fun _ _ _ _ => calm_ite rfl rfl
  have hword : ∀ (req key st : Nat) (t : State), (if st = 0 then t else t.eccCount req key st).calm = t.calm :=
    fun _ _ _ _ => calm_ite rfl (calm_eccCount ..)
  have hctx := le_ctxAddr s n
  refine calm_ite ((hword ..).trans ?entered) ((calm_setCopy (Nat.le_add_right_of_le hctx) ..).trans ((hword ..).trans ?entered))
  exact (calm_putWords hctx ..).trans (hidle ..)

theorem calm_overrun (s : State) (n : Nat) : (s.overrun n).calm = s.calm := by
  have hcount : ((s.bump R.TSK_CNT_OVR n).bump R.TSK_ST_CONSEC n).calm = s.calm := (calm_put (by decide) ..).trans (calm_put (by decide) ..)
  exact (calm_logPut ..).trans hcount

theorem calm_consider (s : State) (n : Nat) : (s.consider n).1.calm = s.calm :=
  calm_fst_ite rfl (calm_fst_ite (calm_overrun ..) (calm_release ..))

theorem calm_guardPass (s : State) (n time : Nat) : (s.guardPass n time).1.calm = s.calm :=
  calm_fst_ite (calm_put (f := R.TSK_CNT_GREJ) (by decide) ..) rfl

theorem calm_taskEvent (s : State) (o : Occ) (n : Nat) : (s.taskEvent o n).1.calm = s.calm := by
  have hsent : ∀ (t : State) (d : List Byte),
      (if !t.lead then t else if t.seq.inLatch then { t with rfl := { t.rfl with rels := t.rfl.rels ++ [d] } } else t.rflSend 3 d).calm = t.calm :=
    fun _ _ => calm_ite rfl (calm_ite rfl (calm_rflSend ..))
  refine calm_fst_ite (calm_fst_ite ?_ (calm_guardPass ..)) rfl
  exact (calm_consider ..).trans ((hsent ..).trans (calm_guardPass ..))

theorem calm_taskEvents (s : State) (o : Occ) : (s.taskEvents o).1.calm = s.calm := by
  unfold State.taskEvents
  exact List.foldlRecOn (motive := fun r : State × List (Nat × Nat) => r.1.calm = s.calm) _ _ rfl fun r hr n _ => (calm_taskEvent ..).trans hr

theorem calm_waveTrigger (k : Nat) (s : State) : (s.waveTrigger k).calm = s.calm :=
  have hstart : ((s.put R.WAVE_CH_STAT_STATE 2 k).put R.WAVE_CH_PASS_DONE 0 k).calm = s.calm := (calm_put (by decide) ..).trans (calm_put (by decide) ..)
  calm_ite hstart (calm_ite (calm_put (f := R.WAVE_CH_STAT_MISS) (by decide) ..) rfl)

theorem calm_waveEvent (src : Nat) (s : State) : (s.waveEvent src).calm = s.calm := calm_forAll calm_waveTrigger _ s

theorem calm_dmaEvent (src : Nat) (s : State) : (s.dmaEvent src).calm = s.calm := 
  calm_forAll (fun _ _ => calm_put (f := R.DMA_STAT_WAITTRIG) (by decide) ..) _ s

theorem calm_routeEvent (s : State) (src : Nat) : (s.routeEvent src).calm = s.calm :=
  calm_ite (calm_ite (calm_put (f := R.EVT_STAT_RTDROP) (by decide) ..) rfl) rfl

theorem calm_eventPut (o : Occ) (s : State) : (s.eventPut o).calm = s.calm := calm_forAll (fun _ _ => calm_bufStore ..) _ _

theorem calm_eventLoser (o : Occ) (s : State) : (s.eventLoser o).1.calm = s.calm := by
  unfold State.eventLoser
  split
  · exact calm_fst_ite (calm_eventPut ..) rfl
  · rfl

theorem calm_offer (s : State) (o : Occ) : (s.offer o).1.calm = s.calm := by
  have hlost : ((s.bump R.EVT_LOST_N).put R.EVT_STAT_OVF 1).calm = s.calm := (calm_put (by decide) ..).trans (calm_put (by decide) ..)
  exact calm_fst_ite rfl (calm_fst_ite (calm_ite rfl (calm_eventPut ..)) (calm_fst_ite ((calm_eventLoser ..).trans hlost) (calm_eventPut ..)))

theorem calm_present (k : Nat) (o : Occ) (s : State) : (State.present k o s).calm = s.calm := by
  induction k generalizing o s with
  | zero => exact calm_offer ..
  | succ k ih =>
    have hreleased : (if s.following then (s, []) else s.taskEvents o).1.calm = s.calm := calm_fst_ite rfl (calm_taskEvents ..)
    have hall := calm_forAll (f := fun (x : Nat × Nat) (s : State) => State.present k { src := x.1, time := s.now, pay := x.2, inj := false } s)
      fun _ _ => ih _ _
    simp only [State.present, apply_ite State.calm, ih, hall, calm_offer, calm_routeEvent, calm_waveEvent, calm_dmaEvent, hreleased, ite_self]

theorem calm_raise (src pay : Nat) (s : State) : (s.raise src pay).calm = s.calm := calm_ite (calm_present ..) rfl

theorem calm_level (src : Nat) (cond : Bool) (pay : Nat) (s : State) : (s.level src cond pay).calm = s.calm := by
  have hlevel : ∀ (b : Bool) (i j : Nat), (s.putBit R.EVT_LVL_L i b j).calm = s.calm := fun b i j => calm_put (by decide) ..
  exact calm_ite rfl (calm_ite ((calm_raise ..).trans (hlevel ..)) (hlevel ..))

/-! ## Reads through ECC (09, R221, R222) -/

theorem calm_eccRead (req copy a n : Nat) (s : State) : (s.eccRead req copy a n).1.calm = s.calm := by
  unfold State.eccRead
  split
  · rfl
  · refine List.foldlRecOn (motive := fun r : State × Option Nat => r.1.calm = s.calm) _ _ rfl fun r hr x _ => ?_
    dsimp only
    split
    · exact hr
    · exact ((calm_raise ..).trans (calm_eccCount ..)).trans hr

theorem calm_bufRead (a n : Nat) (s : State) : (s.bufRead a n).calm = s.calm := calm_ite rfl (calm_eccRead ..)

theorem calm_memRead (req a n : Nat) (s : State) : (s.memRead req a n).1.calm = s.calm :=
  calm_fst_ite rfl (calm_fst_ite rfl (calm_fst_ite rfl (calm_fst_ite (calm_eccRead ..) (calm_eccRead ..))))

/-- Bytes below the engines' own blocks are part of what stays. -/
theorem State.mbs_of_calm {s t : State} (h : t.calm = s.calm) {a n : Nat} (han : a + n ≤ 0xE0000000) : t.mbs a n = s.mbs a n := by
  have hmb : ∀ x < 0xE0000000, t.mb x = s.mb x := fun x hx => by
    simpa [State.calm, hx] using congrFun (congrArg Prod.fst h) x
  unfold State.mbs
  induction n generalizing a with
  | zero => exact Eq.refl _
  | succ n ih => exact (congrArg (List.cons · _) (hmb a (by omega))).trans (congrArg (List.cons _) (ih (by omega)))

theorem State.upd_of_calm {s t : State} (h : t.calm = s.calm) : t.upd = s.upd := congrArg (fun c : Calm => c.2.1) h

theorem State.cut_of_calm {s t : State} (h : t.calm = s.calm) : t.keep.cut = s.keep.cut := congrArg (fun c : Calm => c.2.2.1) h

theorem State.real_of_calm {s t : State} (h : t.calm = s.calm) : t.time.real = s.time.real := congrArg (fun c : Calm => c.2.2.2.1) h

theorem State.uv_of_calm {s t : State} (h : t.calm = s.calm) : t.is R.DIO_STAT_UV = s.is R.DIO_STAT_UV := congrArg (fun c : Calm => c.2.2.2.2) h

end Sys2Proof.Machine
end

section
/-! PROOFS. Comparator Rolls (O33). -/

namespace Sys2Proof.Machine

/-! ## Requests and checks (16, R427-R431) -/

theorem opRollRequest_refused {s : State} {c st : Nat} (h : s.rollRefused c = some st) :
    opRollRequest c s = ((s.put R.DLNK_ROLLST_COMP c).put R.DLNK_ROLLST_STATUS st).raise 182 (c + 256 * st) := by
  rw [opRollRequest, h]

/-- An accepted Roll is at its first check, taken at the present crystal time. -/
def State.rollStart (c : Nat) (s : State) : State :=
  { (s.put R.DLNK_ROLLST_BUSY 1).put R.DLNK_ROLLST_COMP c with
    dlnk := { s.dlnk with roll := some { comp := c, step := 1, start := s.time.real, status := 0, desat := false, cmp := none, oc := none } } }

theorem opRollRequest_accepted {s : State} {c : Nat} (h : s.rollRefused c = none) :
    opRollRequest c s = if c = 0x10 then (s.rollStart c).hysteresis.chop else s.rollStart c := by
  rw [opRollRequest, h]
  rfl

theorem opRollCheckpoint_eq_self {s : State} (out : Bool) (h : s.dlnk.roll = none) : opRollCheckpoint out s = s := by
  rw [opRollCheckpoint, h]

theorem opRollCheckpoint_of_roll {s : State} {r : RollSt} (out : Bool) (h : s.dlnk.roll = some r) :
    let u := s.advanceReal (r.start + 1000 * r.step)
    let st := if r.status = 0 ∧ out ≠ decide (r.step = 2) then r.step else r.status
    opRollCheckpoint out s =
      if r.step < 3 then { u with dlnk := { u.dlnk with roll := some { r with step := r.step + 1, status := st } } }
      else (u.rollEnd r.comp st).rollDeferred r.comp r := by
  rw [opRollCheckpoint, h]
  exact Eq.refl _

/-- Settles O33: a request is refused or starts its Roll, a check finds one or not, and each of the four is a case of the operation. -/
theorem comparatorRolls : Obligations.ComparatorRolls := by
  unfold Obligations.ComparatorRolls
  refine ⟨?refused, ?accepted, ?check, ?noRoll⟩
  case refused => exact fun c st s h => congrArg Host.Outcome.next (opRollRequest_refused h)
  case accepted =>
    intro c s u h
    refine congrArg Host.Outcome.next ((opRollRequest_accepted h).trans (ite_congr (propext ?_) (fun _ => rfl) fun _ => rfl))
    exact (Fin.ext_iff (a := c) (b := 0x10)).symm
  case check =>
    intro out r s u st h
    exact congrArg Host.Outcome.next (opRollCheckpoint_of_roll out h)
  case noRoll => exact fun out s h => congrArg Host.Outcome.next (opRollCheckpoint_eq_self out h)

end Sys2Proof.Machine
end

section
/-! PROOFS. Reads and write-backs of the brick memory (O34). -/

namespace Sys2Proof.Machine

/-! ## Start of a transfer (17, R436, R440, R448) -/

theorem State.brickFree_iff (s : State) : s.brickFree = true ↔ s.is R.BRICK_CTL_EN = true ∧ s.released 0 = false ∧ s.brick.xfer = 0 := by
  simp [State.brickFree, and_assoc]

theorem State.lifeKnown_iff (s : State) : s.lifeKnown = true ↔ s.is R.BRICK_STAT_IDVALID = true ∧ s.is R.LIFE_STAT_NOREC = false := by
  simp [State.lifeKnown]

theorem opBrickRead_eq (s : State) :
    opBrickRead s = if s.is R.BRICK_CTL_EN = true ∧ s.released 0 = false ∧ s.brick.xfer = 0 then s.xferStart 1 else s :=
  ite_congr (propext s.brickFree_iff) (fun _ => rfl) fun _ => rfl

theorem opBrickWb_eq (s : State) :
    opBrickWb s =
      if (s.is R.BRICK_CTL_EN = true ∧ s.released 0 = false ∧ s.brick.xfer = 0) ∧ s.is R.BRICK_STAT_IDVALID = true ∧ s.is R.LIFE_STAT_NOREC = false then
        s.xferStart 2
      else s :=
  ite_congr (propext (by rw [Bool.and_eq_true, s.brickFree_iff, s.lifeKnown_iff])) (fun _ => rfl) fun _ => rfl

theorem opWriteBackInterval_eq (s : State) :
    opWriteBackInterval s = opBrickWb (s.advance (s.brick.wbAt + s.get R.LIFE_CTL_WBINT * 1000000000)) := by
  rw [opWriteBackInterval]

/-! ## Link errors (17, R436) -/

/-- A link error is counted; without an answer the memory is absent. -/
def State.linkError (e : Nat) (s : State) : State :=
  if e = 1 then (s.bump R.BRICK_ERRCNT_LINK).put R.BRICK_STAT_PRESENT 0 else s.bump R.BRICK_ERRCNT_LINK

/-- The transfer waits 10 ms for its retry. -/
def State.xferPause (s : State) : State := { s with brick := { s.brick with failed := true, waitRetry := true } }.put R.BRICK_STAT_BUSY 0

@[simp] theorem State.linkError_brick (e : Nat) (s : State) : (s.linkError e).brick = s.brick := by
  unfold State.linkError
  split <;> rfl

/-- The first link error makes the transfer wait, the second ends it. -/
theorem State.xferFail_eq (e : Nat) (s : State) :
    s.xferFail e = if s.brick.failed then ((s.linkError e).xferEnd.put R.BRICK_STAT_ERR e, true) else ((s.linkError e).xferPause, false) := by
  rw [← s.linkError_brick e]
  rfl

/-! ## Completion (17, R440, R448, R451) -/

theorem opBrickReadComplete_eq_self {s : State} (err : Nat) (d : List Byte) (h : s.brick.xfer ≠ 1 ∨ s.brick.waitRetry = true) :
    opBrickReadComplete err d s = s :=
  if_pos h

theorem opBrickReadComplete_good {s : State} (d : List Byte) (h : ¬ (s.brick.xfer ≠ 1 ∨ s.brick.waitRetry = true)) :
    opBrickReadComplete 0 d s = (s.xferEnd.put R.BRICK_STAT_PRESENT 1).select d :=
  if_neg h

theorem opBrickReadComplete_error {s : State} {err : Nat} (d : List Byte) (h : ¬ (s.brick.xfer ≠ 1 ∨ s.brick.waitRetry = true)) (herr : err ≠ 0) :
    let x := (s.linkError (err % 4)).xferEnd.put R.BRICK_STAT_ERR (err % 4)
    opBrickReadComplete err d s = if s.brick.failed then { x with brick := { x.brick with frameDue := true } } else (s.linkError (err % 4)).xferPause := by
  rw [opBrickReadComplete, if_neg h, if_pos herr, s.xferFail_eq]
  cases s.brick.failed <;> rfl

theorem opWriteBackComplete_eq_self {s : State} (err : Nat) (id : List Byte) (bad : Nat) (h : s.brick.xfer ≠ 2 ∨ s.brick.waitRetry = true) :
    opWriteBackComplete err id bad s = s :=
  if_pos h

/-- The write-cycle error (R448). -/
theorem opWriteBackComplete_cycle {s : State} (id : List Byte) (bad : Nat) (h : ¬ (s.brick.xfer ≠ 2 ∨ s.brick.waitRetry = true)) :
    opWriteBackComplete 7 id bad s = ((s.wbEnd.put R.BRICK_STAT_ERR 7).put R.LIFE_STAT_WBERR 1).warn 7 7 := by
  rw [opWriteBackComplete, if_neg h, if_pos rfl]

theorem opWriteBackComplete_error {s : State} {err : Nat} (id : List Byte) (bad : Nat) (h : ¬ (s.brick.xfer ≠ 2 ∨ s.brick.waitRetry = true))
    (hcycle : err ≠ 7) (herr : err ≠ 0) :
    opWriteBackComplete err id bad s =
      if s.brick.failed then ((s.linkError (err % 4)).xferEnd.put R.BRICK_STAT_ERR (err % 4)).wbEnd.put R.LIFE_STAT_WBERR 1
      else (s.linkError (err % 4)).xferPause := by
  rw [opWriteBackComplete, if_neg h, if_neg hcycle, if_pos herr, s.xferFail_eq]
  cases s.brick.failed <;> rfl

/-- Without a link error: another brick was met, both copies read back wrong, or a copy is written. -/
theorem opWriteBackComplete_reached {s : State} (id : List Byte) (bad : Nat) (h : ¬ (s.brick.xfer ≠ 2 ∨ s.brick.waitRetry = true)) :
    let p := (s.put R.BRICK_STAT_PRESENT 1).bump R.BRICK_ERRCNT_VERIFY 0 (min bad 2)
    let c := if p.is R.BRICK_STAT_LIFEVALID then 1 - p.get R.BRICK_STAT_COPY else 1
    let k := p.get R.BRICK_WCNT_N + 1
    let w := (((p.free.2.brickPut (0x100 + 0x60 * c) (p.free.2.copyImage k p.free.1)).put R.BRICK_STAT_COPY c).put R.BRICK_WCNT_N k).put
      R.BRICK_STAT_LIFEVALID 1
    opWriteBackComplete 0 id bad s =
      if id ≠ s.serial ++ leBytes 4 (s.get R.BRICK_IDCRC_C) then s.wbEnd.swapOut.xferStart 1
      else if 2 ≤ bad then ((p.wbEnd.put R.BRICK_STAT_ERR 6).put R.LIFE_STAT_WBERR 1).warn 7 6
      else { w with brick := { w.brick with wbs := w.brick.wbs + 1, dsOld := w.brick.ds } }.wbEnd :=
  if_neg h

/-- Settles O34: a transfer starts under the named conditions; its completion is that of a link error, of the write-cycle error, or of one that reached
the memory. -/
theorem brickTransfers : Obligations.BrickTransfers := by
  unfold Obligations.BrickTransfers
  refine ⟨?start, ?read, ?noRead, ?writeBack, ?noWriteBack⟩
  case start =>
    exact fun s => ⟨congrArg Host.Outcome.next (opBrickRead_eq s), congrArg Host.Outcome.next (opBrickWb_eq s), rfl, congrArg Host.Outcome.next (opWriteBackInterval_eq s)⟩
  case read =>
    intro err d s f u n x hxfer hwait
    have hrun : ¬ (s.brick.xfer ≠ 1 ∨ s.brick.waitRetry = true) := by simp [hxfer, hwait]
    refine congrArg Host.Outcome.next ?_
    by_cases herr : err = 0
    · subst herr
      exact opBrickReadComplete_good d hrun
    · have hval : (err : Nat) % 4 = err := Nat.mod_eq_of_lt err.isLt
      have hu : s.linkError err = u := ite_congr (propext (Fin.ext_iff (a := err) (b := 1)).symm) (fun _ => rfl) fun _ => rfl
      have hcomplete := opBrickReadComplete_error d hrun fun h => herr (Fin.ext h)
      rw [hval, hu] at hcomplete
      exact hcomplete.trans (if_neg herr).symm
  case noRead => exact fun err d s h => congrArg Host.Outcome.next (opBrickReadComplete_eq_self err d h)
  case writeBack =>
    intro err id bad s e f u n x g p c k w hxfer hwait
    have hrun : ¬ (s.brick.xfer ≠ 2 ∨ s.brick.waitRetry = true) := by simp [hxfer, hwait]
    refine congrArg Host.Outcome.next ?_
    by_cases hcycle : err = 7
    · subst hcycle
      exact opWriteBackComplete_cycle id bad hrun
    by_cases herr : err = 0
    · subst herr
      exact opWriteBackComplete_reached id bad hrun
    · exact (opWriteBackComplete_error id bad hrun (fun h => hcycle (Fin.ext h)) fun h => herr (Fin.ext h)).trans
        ((if_neg hcycle).trans (if_pos herr)).symm
  case noWriteBack => exact fun err id bad s h => congrArg Host.Outcome.next (opWriteBackComplete_eq_self err id bad h)

end Sys2Proof.Machine
end

section
/-! PROOFS. Sense converters and overcurrent comparators (O35). -/

namespace Sys2Proof.Machine

/-! ## Samples (18, R458-R464) -/

theorem State.senseDark_iff (s : State) : s.senseDark = true ↔ s.phase ≠ .up ∨ s.pwr.linkLost = true := by
  simp [State.senseDark]

/-- An enabled channel delivers its sample, a disabled one none. -/
theorem State.adcSample_eq (n t : Nat) (vin : Int) (s : State) :
    let c := s.adcCh n
    let x := rawOf c.mux c.gain vin - toSigned 24 (s.get R.SADC_CH_OFS_OFS n)
    let r := if c.bad ≠ 0 then c.why else if x < -8388607 ∨ 8388607 < x then 4 else 0
    s.adcSample n t vin =
      if c.en then (s.upAdc n fun a => { a with bad := a.bad - 1 }).adcDeliver n (sampleWord n r x) (t - 150 * c.osr) t else s := by
  simp only [State.adcSample, decide_eq_true_eq]
  cases (s.adcCh n).en <;> rfl

theorem opAdcWindowEnd_eq (n t : Nat) (vin : Int) (un : Bool) (s : State) :
    let u := s.advance t
    let w := u.adcSample n t vin
    opAdcWindowEnd n t vin un s =
      if s.phase ≠ .up ∨ s.pwr.linkLost = true then s
      else if (u.adcCh n).endsAt t = false then u
      else (if un = true ∧ (w.adcCh n).en = true then w.upAdc n fun c => c.mark 3 3 else w).adcChange n := by
  intro u w
  refine ite_congr (propext s.senseDark_iff) (fun _ => rfl) fun _ => ite_congr (propext (by simp [u])) (fun _ => rfl) fun _ => ?_
  exact congrArg (State.adcChange n) (ite_congr (propext (by simp [u, w])) (fun _ => rfl) fun _ => rfl)

/-! ## The FIFO (18, R466) -/

theorem opSadcFifoPop_eq (n : Nat) (s : State) :
    let r := if (s.adcCh n).fifo = [] then s else s.bufRead (bufAdc n (s.adcCh n).head) 4
    let u := r.upAdc n fun c => { c with fifo := c.fifo.drop 1, head := (c.head + min 1 c.fifo.length) % 32 }
    opSadcFifoPop n s = u.put R.SADC_FSTAT_FILL (u.adcCh n).fifo.length n := by
  simp only [opSadcFifoPop, List.isEmpty_iff]

/-! ## Overcurrent comparators (18, R468, R469; 16, R431) -/

/-- An inactive comparator does nothing; one that rises raises its event, and trips where trips are enabled and the pins driven. -/
theorem State.ocApply_eq (k v : Nat) (s : State) :
    let now := cmpLevel (bit (s.get R.SADC_OCSTAT_CMP) k) 32768 (s.get R.SADC_OC_THACT k) v
    let w := s.putBit R.SADC_OCSTAT_CMP k now
    let u := w.raise (192 + k) 0
    s.ocApply k v =
      if s.is R.SADC_OC_EN k = false then s
      else if now = false ∨ bit (s.get R.SADC_OCSTAT_CMP) k = true then w
      else if u.is R.SADC_OCCTL_TRIPEN = true ∧ u.released 0 = false then
        (({ u with pwm := { u.pwm with ocHold := true } }).putBit R.SADC_OCSTAT_LATCH k true).setBen false
      else u := by
  intro now w u
  refine ite_congr (propext (by simp)) (fun _ => Eq.refl _) fun _ => ite_congr (propext ?_) (fun _ => Eq.refl _) fun _ => ?_
  · rw [Bool.or_eq_true, Bool.not_eq_true', or_comm]
  · refine Eq.trans (ite_congr_iff ?_ (Eq.refl _) (Eq.refl _)) (ite_not ..)
    simp [u, w, now, Decidable.imp_iff_not_or]

theorem opOvercurrentComparatorChange_eq (k v : Nat) (s : State) :
    opOvercurrentComparatorChange k v s =
      if s.phase ≠ .up ∨ s.pwr.linkLost = true then s
      else match s.dlnk.roll with
        | some r => if r.comp = 0x18 + k then { s with dlnk := { s.dlnk with roll := some { r with oc := some v } } } else s.ocApply k v
        | none => s.ocApply k v :=
  ite_congr (propext s.senseDark_iff) (fun _ => rfl) fun _ => rfl

/-- Settles O35: each command is one case distinction on the state before it; the word of a sample is that of `sampleWord`, a comparator's output that of
`cmpLevel`. -/
theorem senseConverters : Obligations.SenseConverters := by
  unfold Obligations.SenseConverters
  refine ⟨?window, ?settings, ?image, ?fifo, ?overcurrent, ?latch⟩
  case window =>
    intro n t vin un s u c x r w
    have hw : u.adcSample n t vin = w := u.adcSample_eq n t vin
    refine congrArg Host.Outcome.next ((opAdcWindowEnd_eq n t vin un s).trans ?_)
    rw [← hw]
  case settings => exact fun n v s => ⟨rfl, rfl, rfl⟩
  case image => exact fun v s => rfl
  case fifo => exact fun n s => congrArg Host.Outcome.next (opSadcFifoPop_eq n s)
  case overcurrent =>
    intro k v s now w u a
    have ha : s.ocApply k v = a := s.ocApply_eq k v
    refine congrArg Host.Outcome.next ((opOvercurrentComparatorChange_eq k v s).trans ?_)
    rw [ha] <;> rfl
  case latch => exact fun m s => rfl

end Sys2Proof.Machine
end

section
/-! PROOFS. Analogue outputs and the waveform engine (O36). -/

namespace Sys2Proof.Machine

/-- Of two families that step alike, the one that begins lower stays below at every index. -/
theorem Fam.key_lt_of_base_lt {f g : Fam} (hbase : f.base < g.base) (hstep : f.s1 ≤ g.s1) (hlsb : f.lsb < 32) (i : Nat) : f.key i 0 < g.key i 0 := by
  have hmul : f.s1 * i ≤ g.s1 * i := Nat.mul_le_mul_right i hstep
  simp only [Fam.key, Fam.addr, Nat.mul_zero]
  omega

/-! ## Codes and latches (19, R474, R475, R477, R480) -/

/-- CODE stands apart from the source that decides whether it is taken. -/
theorem opAoutCodeWrite_eq (n v : Nat) (s : State) :
    let c := if n < 4 then v % 65536 else v % 4096
    let u := s.put R.AOUT_CH_CODE_C c n
    opAoutCodeWrite n v s = if s.get R.AOUT_CH_CFG_SRC n = 2 then (u.aoFree n).aoRequest n c u.time.real else u.put R.AOUT_STAT_BINDREF 1 := by
  intro c u
  have hsrc : u.get R.AOUT_CH_CFG_SRC n = s.get R.AOUT_CH_CFG_SRC n :=
    s.get_put_ne _ _ c n 0 n 0 (Nat.ne_of_gt (Fam.key_lt_of_base_lt (f := R.AOUT_CH_CFG_SRC) (g := R.AOUT_CH_CODE_C) (by decide) (by decide) (by decide) n))
  rw [← hsrc]
  rfl

theorem opDacLatch_of_some {s : State} {n c : Nat} (h : (s.aoSt n).wait = some c) :
    let u := s.advanceReal (s.aoSt n).due
    opDacLatch n s = (u.aoLoad n c u.time.real).upAo n fun a => { a with last := some u.time.real, wait := none } := by
  rw [opDacLatch, h]
  exact Eq.refl _

theorem opDacLatch_of_none {s : State} {n : Nat} (h : (s.aoSt n).wait = none) : opDacLatch n s = s := by
  rw [opDacLatch, h]

/-! ## ARM and STOP (19, R485-R487) -/

theorem opWaveArm_refused {s : State} {k e : Nat} (h : s.armErr k = some e) : opWaveArm k s = (s.put R.WAVE_CH_STAT_ERR e k).raise 216 k := by
  rw [opWaveArm, h]

theorem opWaveArm_accepted {s : State} {k : Nat} (h : s.armErr k = none) :
    let u := (s.put R.WAVE_CH_STAT_STATE 1 k).upAo k fun a => { a with armed := true }
    opWaveArm k s = if s.get R.WAVE_CH_CTL_TRIG k = 0 then u.waveTrigger k else u := by
  intro u
  have htrig : u.get R.WAVE_CH_CTL_TRIG k = s.get R.WAVE_CH_CTL_TRIG k :=
    s.get_put_ne _ _ 1 k 0 k 0 (Nat.ne_of_gt (Fam.key_lt_of_base_lt (f := R.WAVE_CH_CTL_TRIG) (g := R.WAVE_CH_STAT_STATE) (by decide) (by decide) (by decide) k))
  rw [opWaveArm, h, ← htrig]

/-- ARM is accepted where none of its checks fails (R486). -/
theorem State.armErr_eq_none_iff (s : State) (k : Nat) :
    s.armErr k = none ↔
      0 < s.get R.WAVE_CH_LEN_L k ∧ s.get R.WAVE_CH_START_S k + s.get R.WAVE_CH_LEN_L k ≤ 32768 ∧
      (if k < 4 then 50 else 200) ≤ s.get R.WAVE_CH_DIV_D k ∧ s.get R.WAVE_CH_CTL_TRIG k ≠ 3 ∧ evReserved (s.get R.WAVE_CH_CTL_EVSRC k) = false ∧
      s.get R.AOUT_CH_CFG_SRC k = 3 ∧ s.aoFallback k = false ∧ s.get R.WAVE_CH_STAT_STATE k ≠ 1 ∧ s.get R.WAVE_CH_STAT_STATE k ≠ 2 := by
  have hcheck : ∀ (p : Prop) [Decidable p] (e : Nat) (x : Option Nat), (if p then some e else x) = none ↔ ¬ p ∧ x = none := fun p _ e x => by
    split <;> simp [*]
  simp only [State.armErr, hcheck, not_or, Nat.pos_iff_ne_zero, Nat.not_lt, Decidable.not_not, Bool.not_eq_true, and_true, ne_eq, and_assoc]

theorem opWaveStop_eq (k : Nat) (s : State) :
    let u := s.put R.WAVE_CH_STAT_STATE 0 k
    opWaveStop k s = if s.get R.AOUT_CH_CFG_SRC k = 3 then u.upAo k fun a => { a with wait := none } else u := by
  intro u
  have hsrc : u.get R.AOUT_CH_CFG_SRC k = s.get R.AOUT_CH_CFG_SRC k :=
    s.get_put_ne _ _ 0 k 0 k 0 (Nat.ne_of_gt (Fam.key_lt_of_base_lt (f := R.AOUT_CH_CFG_SRC) (g := R.WAVE_CH_STAT_STATE) (by decide) (by decide) (by decide) k))
  rw [← hsrc]
  rfl

/-! ## Samples (19, R484, R487) -/

/-- The bytes of a sample are those of the waveform RAM, which the report of an error leaves alone. -/
theorem State.waveRead_eq (k : Nat) (s : State) :
    let a := 0x06000000 + 2 * ((s.get R.WAVE_CH_START_S k + (s.wv k).j) % 32768)
    let e := s.eccRead 10 0 a 2
    s.waveRead k = (e.1, if e.2.isSome then [0#8, 0#8] else e.1.mbs a 2, if e.2.isSome then 3 else 0) := by
  intro a e
  have hbytes : e.1.mbs a 2 = s.mbs a 2 := State.mbs_of_calm (calm_eccRead 10 0 a 2 s) (by simp only [a]; omega)
  rw [hbytes]
  change (if e.2.isSome then (e.1, [0#8, 0#8], 3) else (e.1, s.mbs a 2, 0)) = _
  cases e.2.isSome <;> rfl

theorem opWaveSample_eq_self {s : State} {k : Nat} (h : s.get R.WAVE_CH_STAT_STATE k ≠ 2) : opWaveSample k s = s := if_pos h

/-- The next sample: the one that was read ahead, or one that is read now. -/
def State.waveNext (k : Nat) (s : State) : State × List Byte × Nat :=
  match (s.wv k).pre with
  | some x => (s.setWv k { s.wv k with pre := none }, x.1, x.2)
  | none => s.waveRead k

theorem opWaveSample_playing {s : State} {k : Nat} (h : s.get R.WAVE_CH_STAT_STATE k = 2) :
    let u := s.advance (s.waveAt k)
    let r := u.waveNext k
    let v := if r.1.get R.AOUT_CH_CFG_SRC k = 3 then
      (if (r.1.aoSt k).armed then r.1.aoFree k else r.1).aoRequest k (aoCode k (leNat r.2.1)) r.1.time.real else r.1
    opWaveSample k s =
      if r.2.2 ≠ 0 then ((r.1.waveStop k).put R.WAVE_CH_STAT_ERR 6 k).raise 216 k
      else (v.put R.WAVE_CH_STAT_POS ((u.get R.WAVE_CH_START_S k + (u.wv k).j) % 32768) k).wavePass k :=
  if_neg (not_not_intro h)

/-- Settles O36: each command is one case distinction; of a sample, the bytes of the waveform RAM are those before its errors are reported. -/
theorem analogOutputs : Obligations.AnalogOutputs := by
  unfold Obligations.AnalogOutputs
  refine ⟨?writes, ?latch, ?noLatch, ?refused, ?armed, fun k s => s.armErr_eq_none_iff k, ?stop, ?sample⟩
  case writes => exact fun n v s => ⟨rfl, congrArg Host.Outcome.next (opAoutCodeWrite_eq n v.toNat s)⟩
  case latch => exact fun n c s => fun h => congrArg Host.Outcome.next (opDacLatch_of_some h)
  case noLatch => exact fun n s h => congrArg Host.Outcome.next (opDacLatch_of_none h)
  case refused => exact fun k e s h => congrArg Host.Outcome.next (opWaveArm_refused h)
  case armed => exact fun k s => fun h => congrArg Host.Outcome.next (opWaveArm_accepted h)
  case stop => exact fun k s => congrArg Host.Outcome.next (opWaveStop_eq k s)
  case sample =>
    intro k s w u i e r v
    refine congrArg Host.Outcome.next ?_
    split
    · next h => exact opWaveSample_eq_self h
    · next h =>
      have hnext : u.waveNext k = r := by
        rw [State.waveNext, u.waveRead_eq k] <;> rfl
      refine (opWaveSample_playing (Decidable.not_not.mp h)).trans ?_
      have hu : s.advance (s.waveAt k) = u := rfl
      rw [hu, hnext]

end Sys2Proof.Machine
end

section
/-! PROOFS. Digital inputs, outputs and the walk test (O37). -/

namespace Sys2Proof.Machine

/-! ## Time that passes (02, R27, R47) -/

theorem State.rtcPass_eq (n : Nat) (s : State) : ∃ fl, s.rtcPass n = { s with flds := fl } := by
  unfold State.rtcPass
  dsimp only
  split
  · exact ⟨_, Eq.refl _⟩
  · split <;> split <;> exact ⟨_, Eq.refl _⟩

theorem State.cyclesRun_eq (k : Nat) (s : State) : ∃ fl ti, s.cyclesRun k = { s with flds := fl, time := ti } := by
  have hword : ∀ t : State, ∃ fl, t.lwPass = { t with flds := fl } := fun t => by
    unfold State.lwPass
    split <;> exact ⟨_, Eq.refl _⟩
  obtain ⟨fl, hw⟩ := hword _
  obtain ⟨gl, hr⟩ := State.rtcPass_eq _ _
  exact ⟨gl, _, hr.trans (by rw [hw])⟩

theorem State.cyclesPass_eq (k : Nat) (s : State) : ∃ fl ti, s.cyclesPass k = { s with flds := fl, time := ti } := by
  unfold State.cyclesPass
  split
  · split
    · obtain ⟨fl, ti, h⟩ := s.cyclesRun_eq _
      obtain ⟨gl, tj, hg⟩ := State.cyclesRun_eq _ _
      exact ⟨gl, tj, hg.trans (by rw [h, State.glintTake])⟩
    · exact s.cyclesRun_eq _
  · exact s.cyclesRun_eq _

/-- The passing of time touches registers and clocks only. -/
theorem State.advance_eq (s : State) (t : Nat) : ∃ fl ti, s.advance t = { s with flds := fl, time := ti } := by
  unfold State.advance
  split
  · exact s.cyclesPass_eq _
  · exact ⟨s.flds, s.time, Eq.refl _⟩

@[simp] theorem State.advance_dio (s : State) (t : Nat) : (s.advance t).dio = s.dio := by
  obtain ⟨fl, ti, h⟩ := s.advance_eq t
  rw [h]

/-! ## The supply of the block (20, R503) -/

theorem State.dioLive_eq (s : State) (op : State → State) : s.dioLive op = if s.phase = .up ∨ s.phase = .starting then op s else s :=
  ite_congr (propext (by simp)) (fun _ => Eq.refl _) fun _ => Eq.refl _

/-! ## Sampling (20, R491, R492) -/

theorem lt_foldl_min {k a : Nat} {l : List Nat} : k < l.foldl min a ↔ k < a ∧ ∀ d ∈ l, k < d := by
  induction l generalizing a with
  | nil => simp
  | cons d r ih =>
    rw [List.foldl_cons, ih, List.forall_mem_cons, ← and_assoc]
    exact and_congr_left fun _ => by omega

/-- Up to `k` samples in which no input is to change only count. -/
theorem State.diRun_of_noChange {raw f k : Nat} {s : State}
    (h : ((List.range 32).all fun n => match s.diIn raw n with | some d => decide (k < d) | none => true) = true) :
    State.diRun raw (f + 1) k s = s.diSamples raw k := by
  refine if_pos (lt_foldl_min.mpr ⟨Nat.lt_succ_self k, fun d hd => ?_⟩)
  obtain ⟨n, hn, hdue⟩ := List.mem_filterMap.mp hd
  have := List.all_eq_true.mp h n hn
  rw [hdue] at this
  exact of_decide_eq_true this

theorem State.diIn_of_eq {s : State} {raw n : Nat} (h : bit raw n = bit (s.get R.DIO_DI_STATE_S) n) : s.diIn raw n = none :=
  if_pos (beq_iff_eq.mpr h)

theorem State.diIn_of_ne {s : State} {raw n : Nat} (h : bit raw n ≠ bit (s.get R.DIO_DI_STATE_S) n) :
    s.diIn raw n = some (max 1 (s.get R.DIO_DB_US n - s.dio.cnt.getD n 0)) :=
  if_neg (mt beq_iff_eq.mp h)

theorem filterMap_eq_of_mem {f g : α → Option β} {l : List α} (h : ∀ x ∈ l, f x = g x) : l.filterMap f = l.filterMap g := by
  induction l with
  | nil => rfl
  | cons x l ih => rw [List.filterMap_cons, List.filterMap_cons, h x List.mem_cons_self, ih fun y hy => h y (List.mem_cons_of_mem x hy)]

/-- Of the inputs, one is the `n`-th. -/
theorem filter_beq_range : ∀ n < 32, (List.range 32).filter (· == n) = [n] := by decide

/-- With one input that differs, the next change is its own. -/
theorem State.diRun_of_single {raw f k n d : Nat} {s : State} (hn : n < 32) (hd : s.diIn raw n = some d)
    (hothers : ∀ m < 32, m ≠ n → s.diIn raw m = none) (hk : d ≤ k) :
    State.diRun raw (f + 1) k s = State.diRun raw f (k - d) (((s.diSamples raw d).advance (s.diSamples raw d).dio.seen).diChange n) := by
  have hin : ∀ m ∈ List.range 32, s.diIn raw m = if m == n then some d else none := fun m hm => by
    by_cases h : m = n
    · simp [h, hd]
    · simp [h, hothers m (List.mem_range.mp hm) h]
  have hsingle : (List.range 32).filter (· == n) = [n] := filter_beq_range n hn
  have hdues : (List.range 32).filterMap (fun m => s.diIn raw m) = [d] := by
    rw [filterMap_eq_of_mem hin, ← List.filterMap_filter, hsingle]
    rfl
  have hdue : (List.range 32).filter (fun m => s.diIn raw m == some d) = [n] := by
    rw [← hsingle]
    refine List.filter_congr fun m hm => ?_
    rw [hin m hm]
    cases m == n <;> simp
  have hnext : ((List.range 32).filterMap fun m => s.diIn raw m).foldl min (k + 1) = d := by
    rw [hdues]
    exact Nat.min_eq_right (Nat.le_succ_of_le hk)
  rw [State.diRun]
  simp only [hnext, hdue, if_neg (Nat.not_lt.mpr hk)]
  exact Eq.refl _

/-! ## Counters of the inputs (20, R491) -/

/-- A fold whose steps each set one key leaves at `n` what the step of `n` puts there. -/
theorem Store.find_foldl_of_mem {f : Store α → Nat → Store α} {n : Nat} {c : Option α} {l : List Nat} (hn : n ∈ l)
    (hother : ∀ m t, m ≠ n → Store.find n (f t m) = Store.find n t) (hself : ∀ t, Store.find n (f t n) = c) (t : Store α) :
    Store.find n (l.foldl f t) = c := by
  have hkept : ∀ (l : List Nat) (t : Store α), Store.find n t = c → Store.find n (l.foldl f t) = c := fun l t ht =>
    List.foldlRecOn (motive := fun t => Store.find n t = c) l f ht fun t ht m _ => by
      by_cases hm : m = n
      · exact hm ▸ hself t
      · exact (hother m t hm).trans ht
  obtain ⟨a, b, rfl⟩ := List.append_of_mem hn
  rw [List.foldl_append, List.foldl_cons]
  exact hkept b _ (hself _)

theorem State.getD_diSamples_cnt (raw k : Nat) {n : Nat} (hn : n < 32) (s : State) :
    (s.diSamples raw k).dio.cnt.getD n 0 = if bit raw n = bit (s.get R.DIO_DI_STATE_S) n then 0 else s.dio.cnt.getD n 0 + k := by
  have hfind : Store.find n (s.diSamples raw k).dio.cnt = if (s.diIn raw n).isSome then some (s.dio.cnt.getD n 0 + k) else none := by
    refine Store.find_foldl_of_mem (f := fun t n => if (s.diIn raw n).isSome then Store.put n (s.dio.cnt.getD n 0 + k) t else Store.del n t)
      (List.mem_range.mpr hn) (fun m t hm => ?_) (fun t => ?_) _
    · split
      · exact Store.find_put_ne hm ..
      · exact Store.find_del_ne hm ..
    · split
      · exact Store.find_put_same ..
      · exact Store.find_del_same ..
  rw [Store.getD, hfind]
  by_cases h : bit raw n = bit (s.get R.DIO_DI_STATE_S) n
  · simp [State.diIn_of_eq h, h]
  · simp [State.diIn_of_ne h, h]

/-! ## Latches and the walk test (20, R498, R504-R506) -/

/-- CLR has no effect during a walk and while the pins are released. -/
theorem opDioClr_eq (hot : Nat) (s : State) :
    opDioClr hot s = if s.dio.walk = [] ∧ s.pinsReleased = false then s.dioClear hot else s :=
  (ite_congr_iff (by simp [Decidable.imp_iff_not_or]) rfl rfl).trans (ite_not ..)

theorem opDoThermalShutdown_eq (k : Nat) (s : State) :
    opDoThermalShutdown k s =
      if s.pinsReleased = false ∧ s.domGone 34 = false then { s with dio := { s.dio with thm := setBit s.dio.thm k true } }.dioFault else s :=
  (ite_congr_iff (by simp [Decidable.imp_iff_not_or]) rfl rfl).trans (ite_not ..)

theorem State.walkRefused_iff (s : State) :
    s.walkRefused = true ↔ s.inRun = true ∨ s.pinsReleased = true ∨ s.dio.walk ≠ [] ∨ s.get R.DIO_WALK_DWELL = 0 ∨
      s.get R.DIO_WALK_IMASK_M &&& (2 ^ 32 - 1 - s.get R.DIO_DI_TYPE_T) ≠ 0 := by
  simp [State.walkRefused, or_assoc]

theorem State.walkEnd_eq (st : Nat) (s : State) :
    s.walkEnd st = if s.dio.walk = [] then s else (({ s with dio := { s.dio with walk := [] } }.put R.DIO_WALK_STATE st).doRefresh).wbForget :=
  ite_congr_iff List.isEmpty_iff (Eq.refl _) (Eq.refl _)

theorem opWalkStepEnd_eq_self {s : State} (hot : Nat) (h : s.dio.walk = []) : opWalkStepEnd hot s = s := by
  rw [opWalkStepEnd, h]

/-- Settles O37: a command of the block acts while it has its supply; each then is one case distinction. Of the inputs, the run to the next change of a
debounced state is that of `diRun`. -/
theorem digitalFieldIo : Obligations.DigitalFieldIo := by
  unfold Obligations.DigitalFieldIo
  refine ⟨?inputs, fun raw f k s h => State.diRun_of_noChange h, ?change, fun raw k n s hn => s.getD_diSamples_cnt raw k hn, ?binding, ?wire, ?outputs,
    ?doSv, ?clear, ?field, ?walkGo, ?walkStep, ?noWalk⟩
  case inputs =>
    intro a t raw s z n k u f
    refine congrArg Host.Outcome.next ((s.dioLive_eq _).trans (ite_congr rfl (fun _ => ?_) fun _ => rfl))
    have hdio : { u with dio := { u.dio with seen := t / 1000 * 1000 } } = { u with dio := { s.dio with seen := t / 1000 * 1000 } } := by
      rw [s.advance_dio]
    exact (ite_congr (propext (by simp)) (fun _ => hdio.symm) fun _ => rfl)
  case change =>
    intro raw f k n s d u w v x hn hne hothers hk
    have hrest : ∀ m < 32, m ≠ n → s.diIn raw m = none := fun m hm hmn =>
      State.diIn_of_eq (by simpa [hmn] using List.all_eq_true.mp hothers m (List.mem_range.mpr hm))
    exact State.diRun_of_single hn (State.diIn_of_ne hne) hrest hk
  case binding =>
    exact fun v s => ⟨congrArg Host.Outcome.next (s.dioLive_eq _), congrArg Host.Outcome.next (s.dioLive_eq _)⟩
  case wire =>
    intro n b s z
    refine congrArg Host.Outcome.next ((s.dioLive_eq _).trans (ite_congr rfl (fun _ => ?_) fun _ => rfl))
    exact ite_congr (propext (by simp)) (fun _ => rfl) fun _ => rfl
  case outputs =>
    intro k v s z b
    refine ⟨congrArg Host.Outcome.next (s.dioLive_eq _), congrArg Host.Outcome.next ((s.dioLive_eq _).trans ?_),
      congrArg Host.Outcome.next ((s.dioLive_eq _).trans ?_)⟩
    · exact congrArg z (ite_congr_iff (by simp) rfl rfl)
    · exact congrArg z (opDoThermalShutdown_eq k s)
  case doSv => exact fun v s => congrArg Host.Outcome.next (s.dioLive_eq _)
  case clear =>
    intro hot s z c u
    have hclr : ∀ t, opDioClr hot t = c t := opDioClr_eq hot
    refine ⟨congrArg Host.Outcome.next ((s.dioLive_eq _).trans (congrArg z (hclr s))), congrArg Host.Outcome.next ((s.dioLive_eq _).trans ?_)⟩
    rw [opDioAutoclr, hclr]
  case field => exact fun v s => ⟨rfl, rfl, congrArg Host.Outcome.next (s.walkEnd_eq 3)⟩
  case walkGo =>
    intro hot s w
    refine congrArg Host.Outcome.next ((s.dioLive_eq _).trans ((ite_not ..).symm.trans ?_))
    exact ite_congr rfl (fun _ => rfl) fun _ => ite_congr_iff s.walkRefused_iff rfl rfl
  case walkStep =>
    intro hot w r s long u f v hwalk
    refine congrArg Host.Outcome.next ?_
    rw [opWalkStepEnd, hwalk] <;> rfl
  case noWalk =>
    exact fun hot s h => congrArg Host.Outcome.next (opWalkStepEnd_eq_self hot h)

end Sys2Proof.Machine
end

section
/-! PROOFS. The Keep write queue and the log commands (O38). -/

namespace Sys2Proof.Machine

/-! ## Entering the queue (21, R512, R516, R530) -/

theorem opKeepWindowWrite_eq (a : Nat) (d : List Byte) (s : State) :
    let o := a - 0x20000000
    opKeepWindowWrite a d s =
      if inRange a 0x20000000 0x40000 = false ∨ d = [] ∨ 256 < d.length ∨ s.is R.KEEP_STAT_RECALL = true ∨ s.keepRaw (keepPart o) = false ∨
        bit (s.get R.KEEP_LOCKST_WR) (keepPart o) = true ∨ s.keep.pfail = true then s
      else if s.keepRoom (.raw o d) then (s.keepPush (.raw o d)).keepSettle else s.put R.KEEP_STAT_QREF 1 := by
  intro o
  by_cases hin : inRange a 0x20000000 0x40000 = true
  · have hrefused : (d.isEmpty || 256 < d.length || s.is R.KEEP_STAT_RECALL || !s.keepRaw (keepPart o) || bit (s.get R.KEEP_LOCKST_WR) (keepPart o) ||
        s.keep.pfail) = true ↔ inRange a 0x20000000 0x40000 = false ∨ d = [] ∨ 256 < d.length ∨ s.is R.KEEP_STAT_RECALL = true ∨
        s.keepRaw (keepPart o) = false ∨ bit (s.get R.KEEP_LOCKST_WR) (keepPart o) = true ∨ s.keep.pfail = true := by
      simp [hin, or_assoc]
    rw [opKeepWindowWrite, if_pos hin, State.windowWrite, apply_ite Prod.fst, apply_ite Prod.fst, ← ite_congr_iff hrefused rfl rfl]
    cases s.keepRoom (.raw o d) <;> rfl
  · rw [opKeepWindowWrite, if_neg hin, if_pos (.inl (eq_false_of_ne_true hin))]

theorem State.saveRequest_eq (s : State) :
    s.saveRequest =
      if s.is R.KEEP_RT_STAT_READY = true ∧ s.keepRaw 0 = false ∧ s.keepRoom (.save none) = true then (s.put R.KEEP_RT_STAT_READY 0).keepPush (.save none)
      else (s.put R.KEEP_RT_STAT_INCOMPLETE 1).raise 258 0 :=
  (ite_congr_iff (by simp [Decidable.imp_iff_not_or, or_assoc]) (Eq.refl _) (Eq.refl _)).trans (ite_not ..)

theorem opKeepSave_eq (s : State) :
    s.keepOpen opKeepSave =
      if s.is R.KEEP_STAT_RECALL then s
      else if s.is R.KEEP_RT_STAT_READY = true ∧ s.keepRaw 0 = false ∧ s.keepRoom (.save none) = true then
        ((s.put R.KEEP_RT_STAT_READY 0).keepPush (.save none)).keepSettle
      else ((s.put R.KEEP_RT_STAT_INCOMPLETE 1).raise 258 0).keepSettle := by
  refine ite_congr rfl (fun _ => rfl) fun _ => ?_
  rw [opKeepSave, s.saveRequest_eq, apply_ite State.keepSettle]

/-! ## Serving the head (21, R517, R530) -/

/-- The request at the head is read and leaves the queue; WSEQ counts it. -/
def State.keepTake (q : KeepReq) (s : State) : State := ((s.keepRead q).keepSetHead []).wrapUp R.KEEP_WSEQ_N

theorem State.keepNext_of_head {s : State} {q : KeepReq} (fail : Nat) (h : s.keepHead = some q) :
    s.keepNext fail = ((s.keepTake q).keepServe q fail).keepSettle := by
  rw [State.keepNext, h]
  exact Eq.refl _

theorem opKeepRequestServed_eq (fail : Nat) (s : State) :
    (opKeepRequestServed fail s).dictSettle = match s.keepHead with
      | some q => if s.is R.KEEP_STAT_RECALL = true ∨ s.pwr.linkLost = true then s.dictSettle
        else (((s.keepTake q).keepServe q fail).keepSettle).dictSettle
      | none => s.dictSettle := by
  unfold opKeepRequestServed
  rw [apply_ite State.dictSettle, ite_congr_iff (Bool.or_eq_true ..).to_iff rfl rfl]
  cases h : s.keepHead with
  | none => simp only [State.keepNext, h, ite_self]
  | some q => rw [s.keepNext_of_head fail h]

/-- A save or a bank erase completes where one is at the head, and the link is up. -/
theorem opRetainSaveComplete_of_save {s : State} {st : Option (List (Nat × Nat) × List Byte)} (h : s.keepHead = some (.save st)) :
    opRetainSaveComplete s = if s.pwr.linkLost then s else ((s.keepTake (.save st)).saveServe (st.getD ([], []))).keepSettle := by
  rw [opRetainSaveComplete, h, s.keepNext_of_head 0 h]
  rfl

theorem opRetainSaveComplete_eq_self {s : State} (h : ∀ st, s.keepHead ≠ some (.save st)) : opRetainSaveComplete s = s := by
  unfold opRetainSaveComplete
  split
  · rfl
  · split
    · next st hst => exact absurd hst (h st)
    · rfl

theorem opRetainBankEraseComplete_of_erase {s : State} {b : Nat} (h : s.keepHead = some (.eraseBank b)) :
    opRetainBankEraseComplete s = if s.pwr.linkLost then s else ((s.keepTake (.eraseBank b)).bankErased b).keepSettle := by
  rw [opRetainBankEraseComplete, h, s.keepNext_of_head 0 h]
  rfl

theorem opRetainBankEraseComplete_eq_self {s : State} (h : ∀ b, s.keepHead ≠ some (.eraseBank b)) : opRetainBankEraseComplete s = s := by
  unfold opRetainBankEraseComplete
  split
  · rfl
  · split
    · next b hb => exact absurd hb (h b)
    · rfl

/-! ## The bank erase (21, R517) -/

theorem calm_wearUp (row : Nat) (s : State) : (s.wearUp row).calm = s.calm :=
  have hmax : ∀ (t : State) (n k : Nat), (t.put R.KEEP_WEAR_N n k).calm = t.calm := fun t n k => calm_put (by decide) ..
  calm_ite rfl (calm_ite ((calm_warn ..).trans ((calm_put (by decide) ..).trans (hmax ..))) (hmax ..))

/-- Erasing rows for a request that is not cut off leaves it so. -/
theorem State.cut_eraseRows {s : State} (h : s.keep.cut = none) (row n : Nat) : (s.eraseRows row n).keep.cut = none := by
  have hwear := calm_forAll fun i t => calm_wearUp (row + i) t
  refine (State.cut_of_calm (hwear _ _)).trans ?_
  simp [h]

theorem State.cutOff_of_none {s : State} (h : s.keep.cut = none) : s.cutOff = false := by
  rw [State.cutOff, h]

theorem State.bankErased_of_none {s : State} (h : s.keep.cut = none) (b : Nat) :
    let u := s.eraseRows (1024 * b) 1024
    s.bankErased b = { u with keep := { u.keep with readyBank := b } }.put R.KEEP_RT_STAT_READY 1 :=
  if_neg (by simp [State.cutOff_of_none (s.cut_eraseRows h (1024 * b) 1024)])

/-! ## The log's commands (22, R545, R548, R550) -/

theorem opLogAppend_eq (code data cls : Nat) (pin : Bool) (s : State) :
    opLogAppend code data cls pin s =
      if cls ≤ 4 then s.logAdd true (s.message (code % 65536) (data % 65536) cls pin) else s.put R.LOG_STAT_APERR 1 :=
  (ite_congr_iff (by omega) rfl rfl).trans (ite_not ..)

/-- The slots that begin the rows of the bad pages. -/
def State.badRows (s : State) : List Nat := s.log.bad.flatMap fun p => (List.range 8).map fun i => 32 * p + 4 * i

/-- The pinned entries of the bad pages, copied in front of a time mark. -/
def State.badCopied (s : State) : State :=
  let kept := (s.badRows.flatMap s.rowCopies).map LogItem.put
  if kept.isEmpty = true ∨ s.is R.LOG_STAT_FAILED = true then s else s.logWrite logSteps false false (kept ++ [.put (markAt (s.now / 1000))])

theorem opLogClrbad_eq (good : List Nat) (s : State) :
    let e := State.forAll s.badRows (fun n t => t.clearRow n) s.badCopied
    let u := { e with log := { e.log with bad := e.log.bad.filter fun p => !good.contains p } }
    opLogClrbad good s = if s.inRun then s else (u.mapStore.logMsg 5 0 0).keepSettle := by
  intro e u
  have hcopied : s.badCopied = _ := ite_congr_iff (Bool.or_eq_true ..).to_iff.symm rfl rfl
  simp only [u, e, hcopied]
  rfl

/-- Settles O38: a command is refused, or enters the queue, or serves the request at its head; what the head's service does is that of its kind. -/
theorem keepQueueAndLog : Obligations.KeepQueueAndLog := by
  unfold Obligations.KeepQueueAndLog
  refine ⟨?window, ?save, ?served, ?saved, ?erased, fun b s h => s.bankErased_of_none h b, ?append, ?clrbad⟩
  case window => exact fun a d s => congrArg Host.Outcome.next (opKeepWindowWrite_eq a d s)
  case save => exact fun s => congrArg Host.Outcome.next (opKeepSave_eq s)
  case served => exact fun fail s => congrArg Host.Outcome.next (opKeepRequestServed_eq fail s)
  case saved =>
    intro s u
    refine congrArg Host.Outcome.next ?_
    split
    · next st h => rw [opRetainSaveComplete_of_save h, apply_ite State.dictSettle] <;> rfl
    · next h => rw [opRetainSaveComplete_eq_self fun st => h st]
  case erased =>
    intro s u
    refine congrArg Host.Outcome.next ?_
    split
    · next b h => rw [opRetainBankEraseComplete_of_erase h, apply_ite State.dictSettle] <;> rfl
    · next h => rw [opRetainBankEraseComplete_eq_self fun b => h b]
  case append =>
    exact fun c d cl p s => ⟨congrArg Host.Outcome.next (ite_congr rfl (fun _ => rfl) fun _ => opLogAppend_eq c d cl p s), rfl⟩
  case clrbad =>
    intro good s rows kept c e u map
    refine congrArg Host.Outcome.next ?_
    have hc : c = s.badCopied := rfl
    rw [State.logOpen, opLogClrbad_eq, ite_else_ite_same, ← hc]
    rfl

end Sys2Proof.Machine
end

section
/-! PROOFS. Wear rings, spread counters, records and passwords (O39). -/

namespace Sys2Proof.Machine

/-! ## Rings (21, R520, R521, R528, R530) -/

/-- A request of an unlocked partition enters the queue, or sets the error where the partition is raw or there is no room. -/
theorem State.ringCmd_eq (q : KeepReq) (s : State) :
    s.ringCmd q = if bit (s.get R.KEEP_LOCKST_WR) 2 then s
      else if s.keepRaw 2 = true ∨ s.keepRoom q = false then s.put R.KEEP_RING_STAT_ERR 1 else s.keepPush q :=
  ite_congr (Eq.refl _) (fun _ => Eq.refl _) fun _ => ite_congr_iff (by simp) (Eq.refl _) (Eq.refl _)

/-- RING_SEL stands apart from the locks; the array and its rings are those before it. -/
theorem opRingRead_eq (r : Nat) (s : State) :
    let a := s.put R.KEEP_RING_SEL_R r
    opRingRead r s = if bit (s.get R.KEEP_LOCKST_RD) 2 then a else match a.ring r with
      | none => a.put R.KEEP_RING_STAT_ERR 1
      | some (row, n, d) => let u := (a.put R.KEEP_RING_CFG_ROW row).put R.KEEP_RING_CFG_SLOTS n; match u.ringNewest row n with
        | some (_, v, q) => ((u.put64 R.KEEP_RING_VAL_LO_V R.KEEP_RING_VAL_HI_V v).put R.KEEP_RING_STAT_EMPTY 0).put R.KEEP_RING_SEQ_N q
        | none => ((u.put64 R.KEEP_RING_VAL_LO_V R.KEEP_RING_VAL_HI_V d).put R.KEEP_RING_STAT_EMPTY 1).put R.KEEP_RING_SEQ_N 0 := by
  intro a
  have hlock : a.get R.KEEP_LOCKST_RD = s.get R.KEEP_LOCKST_RD := s.get_put_ne _ _ r 0 0 0 0 (by decide)
  rw [← hlock] <;> rfl

/-- Ring `k` has rows of the span of `n` slots from `row` on. -/
def State.ringMeets (s : State) (row n k : Nat) : Bool :=
  match s.ring k with
  | some (a, m, _) => decide (row < a + m / 2) && decide (a < row + n / 2)
  | none => false

theorem State.ringDefOk_eq (s : State) (r row n : Nat) :
    s.ringDefOk r row n = (!s.inRun && !s.keepRaw 2 && n % 2 == 0 && decide (4 ≤ n) && decide (n ≤ 256) && decide (32 ≤ row) &&
      decide (row + n / 2 ≤ 2048) && (List.range 32).all fun k => k == r || !s.ringMeets row n k) := by
  refine congrArg (and _) (congrArg (List.all _) (funext fun k => congrArg (or _) ?_))
  unfold State.ringMeets
  cases s.ring k <;> exact Eq.refl _

/-- A definition is refused in Run, for a raw partition, for illegal rows or slots, and where another ring has its rows (R520). -/
theorem State.ringDefOk_eq_false_iff (s : State) (r row n : Nat) :
    s.ringDefOk r row n = false ↔
      s.inRun = true ∨ s.keepRaw 2 = true ∨ n % 2 ≠ 0 ∨ n < 4 ∨ 256 < n ∨ row < 32 ∨ 2048 < row + n / 2 ∨
      ((List.range 32).any fun k => k != r && s.ringMeets row n k) = true := by
  have hmeets : ((List.range 32).all fun k => k == r || !s.ringMeets row n k) = !(List.range 32).any fun k => k != r && s.ringMeets row n k := by
    rw [List.all_eq_not_any_not]
    simp [bne]
  rw [s.ringDefOk_eq, hmeets]
  simp only [Bool.and_eq_false_iff, Bool.not_eq_false', beq_eq_false_iff_ne, decide_eq_false_iff_not, Nat.not_le, or_assoc]

/-- An accepted definition has passed the check of the partition. -/
theorem opRingDefine_eq (r row n d : Nat) (s : State) :
    opRingDefine r row n d s =
      if s.ringDefOk r row n = false then s.put R.KEEP_RING_STAT_ERR 1
      else if bit (s.get R.KEEP_LOCKST_WR) 2 then s
      else if s.keepRoom (.ringDefine r row n (d % 2 ^ 64)) = false then s.put R.KEEP_RING_STAT_ERR 1
      else s.keepPush (.ringDefine r row n (d % 2 ^ 64)) := by
  rw [opRingDefine, State.ringCmd_eq]
  cases hok : s.ringDefOk r row n with
  | false => rfl
  | true =>
    have hraw : s.keepRaw 2 = false := by
      cases hkeep : s.keepRaw 2 with
      | false => rfl
      | true => simp [s.ringDefOk_eq, hkeep] at hok
    simp [hraw]

/-! ## A ring write is served (21, R521) -/

theorem calm_slotError (r : Nat) (s : State) : (s.slotError r).calm = s.calm := calm_raise ..

theorem State.prog_of_none {s : State} (h : s.keep.cut = none) (o : Nat) (d : List Byte) : s.prog o d = s.setArr o d := by
  rw [State.prog, h]

/-- The slot that follows the newest, with the sequence that follows its own. -/
theorem State.ringServe_of_none {s : State} (h : s.keep.cut = none) (r v : Nat) :
    s.ringServe r v false = match s.ring r with
      | none => s.put R.KEEP_RING_STAT_ERR 1
      | some (row, n, _) => let p := s.ringNewest row n; let t := match p with | some (j, _, _) => (j + 1) % n | none => 0
        let x := if s.slotBad (slotOfs row t) then s.slotError r else s
        let i := if t % 2 = 1 ∧ x.erasedAt (slotOfs row t) 16 = false then (t + 1) % n else t
        let u := if i % 2 = 0 then x.eraseRows (0x1000 + row + i / 2) 1 else x
        let d := leBytes 8 v ++ leBytes 4 (match p with | some (_, _, q) => q + 1 | none => 1)
        u.setArr (slotOfs row i) (d ++ leBytes 4 (crc32 d)) := by
  cases hring : s.ring r with
  | none => rw [State.ringServe, hring]
  | some p =>
    obtain ⟨row, n, dflt⟩ := p
    rw [State.ringServe, hring]
    simp only [Bool.not_eq_true', Bool.false_eq_true, if_false]
    refine State.prog_of_none ?_ _ _
    have hfound : ∀ c : Bool, (if c then s.slotError r else s).keep.cut = none := fun c => by
      split
      · exact (State.cut_of_calm (calm_slotError r s)).trans h
      · exact h
    have herased : ∀ (c : Prop) [Decidable c] (i k : Nat) (u : State), u.keep.cut = none → (if c then u.eraseRows i k else u).keep.cut = none :=
      fun c _ i k u hu => by
        split
        · exact State.cut_eraseRows hu i k
        · exact hu
    exact herased _ _ _ _ (hfound _)

/-! ## Counters (21, R523, R528, R530) -/

theorem State.scCmd_eq (q : KeepReq) (s : State) :
    s.scCmd q = if bit (s.get R.KEEP_LOCKST_WR) 3 then s
      else if s.keepRaw 3 = true ∨ s.keepRoom q = false then s.put R.KEEP_SC_STAT_ERR 1 else s.keepPush q :=
  ite_congr (Eq.refl _) (fun _ => Eq.refl _) fun _ => ite_congr_iff (by simp) (Eq.refl _) (Eq.refl _)

theorem opScSet_eq (c : Nat) (v : Word) (s : State) : opScSet c v.toNat s = s.scCmd (.scSet c v.toNat) := by
  rw [opScSet, Nat.mod_eq_of_lt v.isLt]

/-- INC clears the lowest bit of the active group that is left. -/
theorem State.scIncServe_bit {s : State} (h : s.keep.cut = none) {c g x q i : Nat} {l : List Nat} (hact : s.scActive c = some (g, x, q))
    (hbits : s.scBits c g = i :: l) :
    let o := 0x30000 + 256 * c + 64 * g + 32 + i / 8
    s.scIncServe c = s.setArr o [BitVec.ofNat 8 (setBit (s.arrNat o 1) (i % 8) false)] := by
  rw [State.scIncServe, hact]
  simp only [hbits]
  exact State.prog_of_none h _ _

/-- The group after the active one takes over, at INC where no bit is left and at SET. -/
theorem State.scIncServe_next {s : State} {c g x q : Nat} (hact : s.scActive c = some (g, x, q)) (hbits : s.scBits c g = []) :
    s.scIncServe c = ((s.scHeader c ((q + 1) % 4) ((x + 256) % 2 ^ 32) (q + 1)).scBit c ((q + 1) % 4) 0).scErase c ((q + 2) % 4) := by
  rw [State.scIncServe, hact]
  simp only [hbits]

theorem State.scSetServe_next {s : State} {c g x q : Nat} (v : Nat) (hact : s.scActive c = some (g, x, q)) :
    s.scSetServe c v = (s.scHeader c ((q + 1) % 4) v (q + 1)).scErase c ((q + 2) % 4) := by
  rw [State.scSetServe, hact]

theorem State.scServe_first {s : State} {c : Nat} (v : Nat) (hact : s.scActive c = none) :
    s.scIncServe c = (s.scHeader c 0 0 0).scBit c 0 0 ∧ s.scSetServe c v = s.scHeader c 0 v 0 :=
  ⟨by rw [State.scIncServe, hact], by rw [State.scSetServe, hact]⟩

/-! ## Records and passwords (21, R526, R528, R529, R535, R536) -/

/-- A hidden key is found as little as one without a record. -/
theorem opRecFindComplete_eq (s : State) :
    let u := { s with keep := { s.keep with find := none } }.put R.KEEP_REC_STAT_BUSY 0
    opRecFindComplete s = match s.keep.find with
      | none => s
      | some (k5, key) => if hiddenKey key then u.put R.KEEP_REC_STAT_FOUND 0 else match u.recOf k5 key with
        | some r => ((u.putRecBuf 0 r.data).put R.KEEP_REC_LEN_L r.len).put R.KEEP_REC_STAT_FOUND 1
        | none => u.put R.KEEP_REC_STAT_FOUND 0 := by
  intro u
  unfold opRecFindComplete
  cases s.keep.find with
  | none => rfl
  | some p =>
    obtain ⟨k5, key⟩ := p
    dsimp only
    cases hiddenKey key <;> rfl

theorem opKeepUnlock_eq (k : Nat) (w : Bool) (pw : Nat) (s : State) :
    let u := { s with keep := { s.keep with mism := s.keep.mism + 1 } }.raise 261 k
    opKeepUnlock k w pw s =
      if s.is R.KEEP_LOCKST_PWBLOCK = true ∨ 4 < k then s
      else if s.password k w = pw % 2 ^ 64 then
        { s with keep := { s.keep with mism := 0 } }.putBit (if w then R.KEEP_LOCKST_WR else R.KEEP_LOCKST_RD) k false
      else if 7 ≤ s.keep.mism then u.put R.KEEP_LOCKST_PWBLOCK 1 else u :=
  ite_congr_iff (by simp) rfl (ite_congr rfl (fun _ => rfl) fun _ => ite_congr_iff (by omega) rfl rfl)

theorem opKeepRelock_eq (k : Nat) (s : State) :
    opKeepRelock k s =
      if s.is R.KEEP_LOCKST_PWBLOCK = true ∨ 4 < k then s
      else (s.putBit R.KEEP_LOCKST_RD k (s.password k false != 0)).putBit R.KEEP_LOCKST_WR k (s.password k true != 0) :=
  ite_congr_iff (by simp) rfl rfl

/-! ## Recall (21, R532; 24, R585) -/

theorem State.recallDone_eq (s : State) :
    let y := (opKeepRecallComplete s).lanWaiting
    s.recallDone = if y.phase = .starting ∧ y.get R.SYS_BOOTSTAT_STEP = 3 ∧ y.is R.KEEP_STAT_RECALL = false then y.put R.SYS_BOOTSTAT_STEP 4 else y :=
  ite_congr_iff (by simp [and_assoc]) (Eq.refl _) (Eq.refl _)

theorem opKeepRecallComplete_eq_self {s : State} (h : s.is R.KEEP_STAT_RECALL = false) : opKeepRecallComplete s = s := if_pos (by simp [h])

theorem opKeepRecallComplete_of_linkLost {s : State} (h : s.is R.KEEP_STAT_RECALL = true) (hlost : s.pwr.linkLost = true) :
    opKeepRecallComplete s = ((s.put R.KEEP_STAT_RECALL 0).put R.LOG_STAT_RECALL 0).logFail 0 :=
  (if_neg (by simp [h])).trans (if_pos hlost)

/-- Keys, wear, halves and log have been taken up. -/
def State.recallTaken (s : State) : State := s.recallKeys.recallWear.eraseUnsealed.recallLog

/-- The uncorrectable words met, counted by partition. -/
def crcCounts (l : List (Nat × Nat)) : Store Nat :=
  (l.filter fun (p : Nat × Nat) => p.1 == 259).foldl (fun (t : Store Nat) (p : Nat × Nat) => Store.put p.2 (satAdd 8 (t.getD p.2 0) 1) t) []

/-- What was found is owed, and recall is over. -/
def State.recallNoted (s : State) : State :=
  let l := s.recallFound
  let u := { s with keep := { s.keep with owed := l, crcErr := crcCounts l } }.put R.KEEP_STAT_RECALL 0
  if l.any (fun (p : Nat × Nat) => p.1 == 258) then u.put R.KEEP_RT_STAT_INCOMPLETE 1 else u

/-- The newest complete bank is shown. -/
def State.bankNoted (s : State) : State :=
  match s.newestBank with
  | some b => s.put R.KEEP_RT_STAT_BANK b
  | none => s

theorem opKeepRecallComplete_of_recall {s : State} (h : s.is R.KEEP_STAT_RECALL = true) (hlost : s.pwr.linkLost = false) :
    opKeepRecallComplete s = s.recallTaken.recallNoted.bankNoted := by
  rw [opKeepRecallComplete, if_neg (by simp [h]), if_neg (by simp [hlost])]
  unfold State.bankNoted State.recallNoted State.recallTaken crcCounts
  rfl

/-- The steps of recall once keys, wear, halves and log have been taken up, in one. -/
theorem State.bankNoted_recallNoted (a : State) :
    let l := a.recallFound
    let crc := (l.filter fun (p : Nat × Nat) => p.1 == 259).foldl (fun (t : Store Nat) (p : Nat × Nat) => Store.put p.2 (satAdd 8 (t.getD p.2 0) 1) t) []
    let u := { a with keep := { a.keep with owed := l, crcErr := crc } }.put R.KEEP_STAT_RECALL 0
    let w := if l.any (fun (p : Nat × Nat) => p.1 == 258) then u.put R.KEEP_RT_STAT_INCOMPLETE 1 else u
    a.recallNoted.bankNoted = match w.newestBank with | some b => w.put R.KEEP_RT_STAT_BANK b | none => w := by
  unfold State.bankNoted State.recallNoted crcCounts
  rfl

/-- Settles O39: a command enters the queue of its partition or is refused; the request served is one case distinction on what the array holds. -/
theorem ringsAndCounters : Obligations.RingsAndCounters := by
  unfold Obligations.RingsAndCounters
  refine ⟨?ringRead, ?ringWrite, ?ringDefine, ?ringUndefine, ?ringServed, ?counters, ?increment, ?nextGroup, ?firstGroup, ?records, ?find, ?passwords,
    ?recalled⟩
  case ringRead => exact fun r s => congrArg Host.Outcome.next (ite_congr rfl (fun _ => rfl) fun _ => opRingRead_eq r s)
  case ringWrite =>
    intro r v s q
    refine congrArg Host.Outcome.next (ite_congr rfl (fun _ => rfl) fun _ => congrArg State.keepSettle (ite_congr rfl (fun _ => rfl) fun _ => ?_))
    exact State.ringCmd_eq q s
  case ringDefine =>
    intro r row n d s q
    refine congrArg Host.Outcome.next (ite_congr rfl (fun _ => rfl) fun _ => congrArg State.keepSettle ?_)
    exact (opRingDefine_eq r row n d s).trans (ite_congr_iff (s.ringDefOk_eq_false_iff r row n) rfl rfl)
  case ringUndefine =>
    exact fun r s => congrArg Host.Outcome.next (ite_congr rfl (fun _ => rfl) fun _ => congrArg State.keepSettle (State.ringCmd_eq _ s))
  case ringServed => exact fun r v s h => State.ringServe_of_none h r v
  case counters =>
    intro c v s e
    refine ⟨congrArg Host.Outcome.next (ite_congr rfl (fun _ => rfl) fun _ => congrArg State.keepSettle (State.scCmd_eq _ s)),
      congrArg Host.Outcome.next (ite_congr rfl (fun _ => rfl) fun _ => congrArg State.keepSettle ?_)⟩
    exact (opScSet_eq c v s).trans (State.scCmd_eq _ s)
  case increment => exact fun c g x q i l s h hact hbits => State.scIncServe_bit h hact hbits
  case nextGroup => exact fun c g x q v s hact => ⟨State.scIncServe_next hact, State.scSetServe_next v hact⟩
  case firstGroup => exact fun c v s hact => State.scServe_first v hact
  case records => exact fun k5 h d s => ⟨rfl, rfl, rfl⟩
  case find => exact fun s => congrArg Host.Outcome.next (opRecFindComplete_eq s)
  case passwords =>
    intro k w pw s u
    refine ⟨congrArg Host.Outcome.next ?_, congrArg Host.Outcome.next ?_, rfl⟩
    · rw [State.keepOpen, opKeepUnlock_eq, ite_else_ite_same] <;> rfl
    · rw [State.keepOpen, opKeepRelock_eq, ite_else_ite_same] <;> rfl
  case recalled =>
    intro s a l u w x y
    have hx : opKeepRecallComplete s = x := by
      by_cases h : s.is R.KEEP_STAT_RECALL = true
      · refine Eq.trans ?_ (if_pos h).symm
        by_cases hlost : s.pwr.linkLost = true
        · exact (opKeepRecallComplete_of_linkLost h hlost).trans (if_pos hlost).symm
        · exact (opKeepRecallComplete_of_recall h (eq_false_of_ne_true hlost)).trans (a.bankNoted_recallNoted.trans (if_neg hlost).symm)
      · exact (opKeepRecallComplete_eq_self (eq_false_of_ne_true h)).trans (if_neg h).symm
    refine congrArg Host.Outcome.next (s.recallDone_eq.trans ?_)
    rw [hx]

end Sys2Proof.Machine
end

section
/-! PROOFS. Supplies, temperature, domains, reference and link (O40). -/
namespace Sys2Proof.Machine

theorem opPowerFailWarningStart_eq (cy : Bool) (s : State) :
    let want := if s.pwr.standby then none else s.pwr.want
    let u := { s with pwr := { s.pwr with standby := false, wbDue := false, want := want } }.put R.SYS_MODEREQ_PEND (b2n want.isSome)
    opPowerFailWarningStart cy s = if s.is R.PWR_STAT_PFW = false ∧ (s.phase = .up ∨ (s.phase = .starting ∧ 2 ≤ s.get R.SYS_BOOTSTAT_STEP)) then
      ((((u.put R.PWR_STAT_PFW 1).level 0 true 0).keepWarning).brickWarning.keepSettle).brickPowerFail cy else s := by
  intro want u
  refine Eq.trans ?_ (ite_not ..)
  refine ite_congr_iff ?_ rfl rfl
  simp only [Bool.or_eq_true, Bool.not_eq_true', Bool.or_eq_false_iff, beq_eq_false_iff_ne, Bool.and_eq_false_iff, decide_eq_false_iff_not]
  grind

/-- Above its limit a temperature is taken as high, 5 K below it as not, and between them as before. -/
theorem tempAbove_eq (t : Int) (l : Nat) (on : Bool) :
    tempAbove t l on = if (16 * l : Int) ≤ t then true else if t ≤ 16 * ((l : Int) - 5) then false else on := by
  rw [tempAbove]
  push_cast
  rfl

theorem opTemperatureSample_eq (t : Int) (s : State) :
    let w := tempAbove t (s.get R.PWR_CTL_TJWARN) (s.is R.PWR_STAT_TJW)
    let c := tempAbove t (s.get R.PWR_CTL_TJCRIT) (s.is R.PWR_STAT_TJC)
    let r := s.powerReset 3 .reset
    opTemperatureSample t s = if s.phase = .up ∨ s.phase = .starting then
        (if 2400 ≤ t then { r with pwr := { r.pwr with hot := true } }
         else ((((s.put R.PWR_TEMP_T (ofSigned 16 t)).put R.PWR_STAT_TJW (b2n w)).put R.PWR_STAT_TJC (b2n c)).level 5 w (ofSigned 16 (t / 16))).level 6 c (ofSigned 16 (t / 16)))
      else if t < 2160 then { s with pwr := { s.pwr with hot := false } } else s :=
  ite_congr_iff (by simp [or_comm]) rfl rfl

theorem opDomainSwitch_eq (n : Nat) (off : Bool) (s : State) :
    opDomainSwitch n off s = if s.domOff n = off then s else if off = false then (s.putDom n false).domOn n
      else if s.domMayGo n then s.putDom n true else s.put R.PWR_STAT_DOMERR 1 := by
  refine ite_congr_iff beq_iff_eq rfl ?_
  cases off <;> rfl

theorem opReferenceFault_eq (s : State) :
    opReferenceFault s = if s.is R.CLK_STAT_RCREF then s else if s.phase = .up then s.refFault.deviceFault 5
      else if s.phase = .starting then { s with pwr := { s.pwr with refDue := true } }.refFault else s :=
  ite_congr rfl (fun _ => rfl) fun _ => ite_congr_iff beq_iff_eq rfl (ite_congr_iff beq_iff_eq rfl rfl)

theorem opDieLinkLoss_eq (s : State) :
    let u := (s.keepAbandon 4).deviceFault 4
    opDieLinkLoss s = if s.pwr.linkLost = true ∨ ¬ (s.phase = .up ∨ s.phase = .starting) then s
      else ({ u with pwr := { u.pwr with linkLost := true } }.put R.DLNK_STAT_CMPTRIP 1).xferEnd :=
  ite_congr_iff (by simp) rfl rfl

/-- Settles O40: each command is one distinction on the phase of the device and on what it shows. -/
theorem suppliesAndDomains : Obligations.SuppliesAndDomains := by
  unfold Obligations.SuppliesAndDomains
  refine ⟨?warning, ?supply, ?temperature, ?domain, ?reference, ?link⟩
  case warning => exact fun cy s => ⟨congrArg Host.Outcome.next (opPowerFailWarningStart_eq cy s), rfl⟩
  case supply => exact fun k out mv s => rfl
  case temperature =>
    intro t s a w c r
    refine congrArg Host.Outcome.next ((opTemperatureSample_eq t s).trans ?_)
    simp only [tempAbove_eq]
    rfl
  case domain => exact fun n off s => congrArg Host.Outcome.next (opDomainSwitch_eq n off s)
  case reference => exact fun s => congrArg Host.Outcome.next (opReferenceFault_eq s)
  case link => exact fun s => congrArg Host.Outcome.next (opDieLinkLoss_eq s)

end Sys2Proof.Machine
end

section
/-! PROOFS. Resets and the steps of start-up (O41). -/
namespace Sys2Proof.Machine

theorem opPowerOnResetRelease_eq (cold : Bool) (mv : Nat) (s : State) :
    opPowerOnResetRelease cold mv s = if (s.phase = .off ∨ s.phase = .reset) ∧ s.pwr.hot = false then
      ((if cold then s.coldStart else s).put R.PWR_VBAK_MV mv).stepOne else s := by
  refine Eq.trans (ite_congr_iff ?_ rfl rfl) (ite_not ..)
  cases s.phase <;> simp

/-- The write of the second key after the first resets the device, 10 µs later; any other write notes the first key or drops it. -/
theorem opRstCmd_eq (v : Byte) (s : State) :
    let u := s.advance (s.now + 10000)
    opRstCmd v.toNat s = if s.halted 4 = true ∨ (s.eng 4).stop ≠ .none then s
      else if s.pwr.key = true ∧ v = 0x3C#8 then (if u.get R.RFL_STAT_ROLE = 1 then u.handOver else u).systemReset 5
      else { s with pwr := { s.pwr with key := v == 0xC3#8 } } := by
  intro u
  have hkey : ∀ k : Byte, (v.toNat % 256 == k.toNat) = (v == k) := fun k => by
    rw [Nat.mod_eq_of_lt v.isLt, Bool.beq_eq_decide_eq, Bool.beq_eq_decide_eq]
    exact decide_eq_decide.mpr BitVec.toNat_inj
  unfold opRstCmd
  refine ite_congr_iff (by simp) rfl ?_
  rw [show (v.toNat % 256 == 0x3C) = _ from hkey 0x3C#8, show (v.toNat % 256 == 0xC3) = _ from hkey 0xC3#8]
  exact ite_congr_iff (by simp) rfl rfl

theorem opRstEng_eq (m : Nat) (s : State) :
    opRstEng m s = State.forAll ((List.range 4).filter (bit m)) (fun e t =>
      if t.umbra (4 + e) = true ∨ t.halted e = true then (t.stopEngine e (t.eng e).stop).engineReset e else t.put R.RST_STAT_ENGERR 1) s := by
  have hstep : ∀ (e : Nat) (t : State), (if t.umbra (4 + e) || t.halted e then (t.stopEngine e (t.eng e).stop).engineReset e else t.put R.RST_STAT_ENGERR 1) =
      if t.umbra (4 + e) = true ∨ t.halted e = true then (t.stopEngine e (t.eng e).stop).engineReset e else t.put R.RST_STAT_ENGERR 1 :=
    fun e t => ite_congr_iff (by simp) rfl rfl
  simp only [opRstEng, hstep]
  rfl

/-- A bank that was asked for and passes has no reason; `q` is the reason of the one passed over. -/
theorem fbReason_eq (spent other : Bool) (q : Nat) :
    (if !(spent || other) then 0 else if spent then 2 else q) = if spent then 2 else if other then q else 0 := by
  cases spent <;> cases other <;> rfl

/-- SV starts in bank `b`, where its header is a good one. -/
def State.svStarted (b : Nat) (h : Option FwHeader) (s : State) : State :=
  match h with
  | none => s
  | some h => s.svStart b h

theorem opSvFirmwareStart_eq (s : State) :
    let r := s.bootRec
    let spent := !r.confirmed && decide (r.limit ≤ r.used)
    let u := if !r.confirmed && !spent then s.bootTry else s
    let order := if spent then [r.prev] else [r.pref, r.prev]
    let told := fun (b : Nat) => ((u.put R.UPD_BOOT_FALLBACK (b2n (spent || b != r.pref))).put R.UPD_BOOT_FBREASON
      (if spent then 2 else if b != r.pref then (u.bankPick order).2 else 0)).put R.UPD_BOOT_TRIAL (b2n (!r.confirmed && !(spent || b != r.pref)))
    opSvFirmwareStart s = if s.phase ≠ .starting ∨ s.get R.SYS_BOOTSTAT_STEP ≠ 4 ∨ s.halted 4 = true then s else match (u.bankPick order).1 with
      | none => (u.put R.SYS_BOOTSTAT_STEP 5).put R.SYS_BOOTSTAT_ERR 1
      | some b => match u.header b with
        | none => told b
        | some h => (told b).svStart b h := by
  intro r spent u order told
  refine ite_congr_iff (by simp [or_assoc]) rfl ?_
  change (match (u.bankPick order).1 with | none => _ | some b => _) = _
  cases (u.bankPick order).1 with
  | none => rfl
  | some b =>
    have htold : ((u.put R.UPD_BOOT_FALLBACK (b2n (spent || b != r.pref))).put R.UPD_BOOT_FBREASON
        (if !(spent || b != r.pref) then 0 else if spent then 2 else (u.bankPick order).2)).put R.UPD_BOOT_TRIAL
          (b2n (!r.confirmed && !(spent || b != r.pref))) = told b := by rw [fbReason_eq]
    exact congrArg (fun t => State.svStarted b (t.header b) t) htold

/-- A power-fail warning that stands is taken up. -/
def State.pfailNoted (s : State) : State :=
  if s.is R.PWR_STAT_PFW then { s.level 0 true 0 with keep := { (s.level 0 true 0).keep with pfail := true } } else s

/-- Settles O41: each step of start-up is one distinction on the phase and the step it follows. -/
theorem resetsAndStartup : Obligations.ResetsAndStartup := by
  unfold Obligations.ResetsAndStartup
  refine ⟨?assert, ?release, ?nrst, ?command, ?engines, ?pll, ?sram, ?firmware, ?finish⟩
  case assert =>
    intro s
    refine congrArg Host.Outcome.next ?_
    unfold opPowerOnResetAssert
    cases s.phase <;> rfl
  case release => exact fun cold mv s => congrArg Host.Outcome.next (opPowerOnResetRelease_eq cold mv s)
  case nrst =>
    intro s
    refine congrArg Host.Outcome.next ?_
    unfold opNrstLow
    cases s.phase <;> rfl
  case command => exact fun v s => congrArg Host.Outcome.next (opRstCmd_eq v s)
  case engines => exact fun m s => congrArg Host.Outcome.next (opRstEng_eq m s)
  case pll =>
    intro x s a b c d e v
    have hv : e.level 129 (d.is R.DIO_STAT_UV) 0 = v := congrArg (fun b => e.level 129 b 0) (State.uv_of_calm (calm_level ..)).symm
    exact congrArg Host.Outcome.next (ite_congr_iff (by simp) rfl (congrArg State.pfailNoted hv))
  case sram =>
    intro s a b c u
    exact congrArg Host.Outcome.next (ite_congr_iff (by simp) rfl rfl)
  case firmware => exact fun s => congrArg Host.Outcome.next (opSvFirmwareStart_eq s)
  case finish =>
    intro s a b l c d f g h
    exact congrArg Host.Outcome.next (ite_congr_iff (by simp [or_assoc]) rfl rfl)

end Sys2Proof.Machine
end

section
/-! PROOFS. Halt, resume, step and the ports of a halted engine (O43). -/
namespace Sys2Proof.Machine

/-- The condition under which a request passes an engine by. -/
theorem or_lt_and_iff (b c : Bool) (e : Nat) : (b || (decide (e < 4) && c)) = true ↔ b = true ∨ (e < 4 ∧ c = true) := by simp

theorem not_or_lt_and_iff (b c : Bool) (e : Nat) : (!b || (decide (e < 4) && c)) = true ↔ b = false ∨ (e < 4 ∧ c = true) := by simp

theorem State.halt1_eq (e : Nat) (f : Bool) (s : State) :
    let u := (s.stopFollowing 0x1F).haltRequest e 1 f
    s.halt1 e f = if s.halted e = true ∨ (e < 4 ∧ s.secondary e = true) then s else if u.halted e then (u.crossTrigger e).outRefresh else u :=
  ite_congr_iff (or_lt_and_iff ..) (Eq.refl _) (Eq.refl _)

@[simp] theorem State.svWatch_time (b : Bool) (s : State) : (s.svWatch b).time = s.time := by
  unfold State.svWatch
  cases b
  · cases s.exc.svHeld <;> rfl
  · rfl

/-- What is in flight, far accesses due at once. -/
def Eng.landed (x : Eng) : List Flight := x.flights.map fun f => if f.far.isSome then { f with due := min f.due x.cyc } else f

/-- The instant of a restart is that of the request. -/
theorem State.unhalt_eq (e : Nat) (s : State) :
    let a := (((if e = 4 then s.svWatch false else s).putBit R.LANT_HALTST_HALTED e false).putBit R.LANT_HALTST_PENDING e false).put R.LANT_E_WHY_REASON 0 e
    let b := (a.put R.LANT_E_WHY_INDEX 0 e).put R.LANT_E_WHY_DEFER 0 e
    s.unhalt e = b.upE e fun x => { x with skip := true, stepping := false, wdAt := s.time.real, flights := x.landed } := by
  intro a b
  have htime : b.time.real = s.time.real := by
    change (if e = 4 then s.svWatch false else s).time.real = s.time.real
    split
    · exact congrArg TimeSt.real (s.svWatch_time false)
    · exact Eq.refl _
  rw [← htime]
  exact Eq.refl _

/-- A resumed engine restarts, and its secondary with it. -/
theorem State.resume1_eq {d : Nat → State → State} (hd : ∀ e t, State.unhalt e t = d e t) (e : Nat) (s : State) :
    s.resume1 e = if s.halted e = false ∨ (e < 4 ∧ s.secondary e = true) then s else match (d e s).mirrorOf e with
      | some k => d k (d e s)
      | none => d e s := by
  obtain rfl : State.unhalt = d := funext fun e => funext (hd e)
  exact ite_congr_iff (not_or_lt_and_iff ..) (Eq.refl _) (Eq.refl _)

theorem State.step1_eq (e : Nat) (s : State) :
    s.step1 e = if s.halted e = false ∨ (e < 4 ∧ s.secondary e = true) then s
      else if e = 4 ∨ (s.eng e).live = true ∨ s.waiting e ≠ [] then s.upE e fun x => { x with stepping := true, skip := true, flights := x.landed } else s.put R.LANT_STAT_STEPERR 1 := by
  refine ite_congr_iff (not_or_lt_and_iff ..) (Eq.refl _) ?_
  refine Eq.trans (ite_congr_iff ?_ (Eq.refl _) (Eq.refl _)) (ite_not ..)
  simp [State.canStep, and_assoc]

theorem word_toNat (v : Word) : word v.toNat = v := BitVec.ofNat_toNat ..

theorem State.portSet_eq (e b p : Nat) (v : Word) (s : State) :
    s.portSet e b p v.toNat = if s.halted e = false then s else match portKind (e == 4) p with
      | .reg => s.upE e fun x => { (if b ≤ 12 then { x with gbank := b } else x).setG (e == 4) p v with gbank := x.gbank }
      | .operand => s.upE e fun x => if p = 0x1F0 then { x with upper := some (v.toNat % 2 ^ 14) } else x.setPort p v
      | .result => s
      | .trigger => s
      | .reserved => s := by
  refine ite_congr_iff (by simp) (Eq.refl _) ?_
  rw [word_toNat]
  cases portKind (e == 4) p <;> rfl

/-- Settles O43: a request acts on each engine of its mask in turn. -/
theorem engineDebug : Obligations.EngineDebug := by
  unfold Obligations.EngineDebug
  refine ⟨?halt, ?resume, ?step, ?deferred, ?data⟩
  case halt =>
    intro m f s g
    exact congrArg (fun h => Host.Outcome.next (State.forAll ((List.range 5).filter (bit m)) h s)) (funext fun e => funext fun t => t.halt1_eq e f)
  case resume =>
    intro m s a b c
    have hc : ∀ (e : Nat) (t : State), t.unhalt e = c e t := fun e t => t.unhalt_eq e
    refine congrArg (fun h => Host.Outcome.next (State.forAll ((List.range 5).filter (bit m)) h s).outRefresh) (funext fun e => funext fun t => ?_)
    exact t.resume1_eq hc e
  case step =>
    intro m s
    exact congrArg (fun h => Host.Outcome.next (State.forAll ((List.range 5).filter (bit m)) h s)) (funext fun e => funext fun t => t.step1_eq e)
  case deferred => exact fun e s => congrArg Host.Outcome.next (ite_congr_iff (by simp) rfl rfl)
  case data =>
    intro e v s p b
    have he : (e == 4) = (e.val == 4) := by revert e; decide
    refine congrArg Host.Outcome.next ((s.portSet_eq e b p v).trans ?_)
    rw [he] <;> rfl

end Sys2Proof.Machine
end

section
/-! PROOFS. Lantern sessions, frames and accesses (O44). -/
namespace Sys2Proof.Machine

/-! ## Frames (25, R594, R597, R598) -/

/-- A frame is served by what its command does, or passed by; `lacks` says that the session is not what the command needs. -/
theorem State.lanServe_eq {c : Nat} {s : State} {lacks : Prop} [Decidable lacks] (hlacks : (s.lan.wire = 0 ∨ (3 < c ∧ s.lan.wire ≠ 2)) ↔ lacks)
    (fr : List Byte) (g : Nat → List Byte → State → State) :
    let v := { s with lan := { s.lan with last := s.now } }
    s.lanServe c fr g = match lanParse fr with
      | some (c', tag, d) => if s.wireUp = false ∨ c' ≠ c ∨ lanWellFormed c' d = false then s else if lacks then v.lanSend 2 tag [] else g tag d v
      | none => s := by
  intro v
  unfold State.lanServe
  cases hup : s.wireUp with
  | false => cases lanParse fr <;> rfl
  | true =>
    refine (if_neg (by simp)).trans ?_
    cases lanParse fr with
    | none => rfl
    | some p =>
      obtain ⟨c', tag, d⟩ := p
      refine ite_congr_iff ?_ (Eq.refl _) (ite_congr_iff hlacks (Eq.refl _) (Eq.refl _))
      by_cases hc : c' = c <;> simp [hc]

/-- OPEN, CLOSE and PING need an open session. -/
theorem State.lanServe_of_le {c : Nat} (hc : c ≤ 3) (fr : List Byte) (g : Nat → List Byte → State → State) (s : State) :
    let v := { s with lan := { s.lan with last := s.now } }
    s.lanServe c fr g = match lanParse fr with
      | some (c', tag, d) => if s.wireUp = false ∨ c' ≠ c ∨ lanWellFormed c' d = false then s else if s.lan.wire = 0 then v.lanSend 2 tag [] else g tag d v
      | none => s :=
  State.lanServe_eq (by omega) fr g

/-- The other commands need an authenticated one. -/
theorem State.lanServe_of_lt {c : Nat} (hc : 3 < c) (fr : List Byte) (g : Nat → List Byte → State → State) (s : State) :
    let v := { s with lan := { s.lan with last := s.now } }
    s.lanServe c fr g = match lanParse fr with
      | some (c', tag, d) => if s.wireUp = false ∨ c' ≠ c ∨ lanWellFormed c' d = false then s else if s.lan.wire ≠ 2 then v.lanSend 2 tag [] else g tag d v
      | none => s :=
  State.lanServe_eq (by omega) fr g

theorem opLanternOpen_eq {f d : List Byte} {tag : Nat} {s : State} (hparse : lanParse f = some (0x01, tag, d)) (hwell : lanWellFormed 0x01 d = true)
    (hup : s.wireUp = true) :
    let v := { s with lan := { s.lan with last := s.now } }
    opLanternOpen f s = if s.lan.wire = 0 then v.lanSend 2 tag [] else if s.is R.LANT_STAT_LOCKOUT then v.lanSend 8 tag []
      else if s.is R.KEEP_STAT_RECALL then { v with lan := { v.lan with waits := some (tag, d) } } else v.lanAuth tag d := by
  intro v
  rw [opLanternOpen, State.lanServe_of_le (by decide), hparse]
  exact if_neg (by simp [hup, hwell])

/-! ## Instants and errors (25, R594-R597, R599) -/

theorem opWakePattern_eq (s : State) :
    let n := s.nonce
    opWakePattern s = if s.wireUp = true ∧ s.is R.LANT_STAT_LOCKOUT = false ∧ s.lan.wire = 0 then
      ({ n.2 with lan := { n.2.lan with wire := 1, nonce := n.1, last := s.now, waits := none } }.put R.LANT_STAT_WIRE 1).lanSend 0x80 0 (uidBytes ++ n.1) else s := by
  intro n
  refine Eq.trans (ite_congr_iff ?_ rfl rfl) (ite_not ..)
  cases s.wireUp <;> cases s.is R.LANT_STAT_LOCKOUT <;> simp

theorem opLanternFrameError_eq (f : List Byte) (s : State) :
    let v := { s with lan := { s.lan with last := s.now } }
    opLanternFrameError f s = if s.wireUp = false then s else match lanParse f with
      | none => s.lanSend 1 0 []
      | some (c, tag, d) => if lanWellFormed c d then s else v.lanSend 7 tag [] :=
  ite_congr_iff (by simp) rfl rfl

theorem opLanternIdleTimeout_eq (s : State) :
    opLanternIdleTimeout s = if s.lan.wire ≠ 0 ∧ s.get R.LANT_CTL_IDLETO ≠ 0 then
      (s.advance (s.lan.last + s.get R.LANT_CTL_IDLETO * 1000000000)).wireClose else s :=
  (ite_congr_iff (by rw [Decidable.not_and_iff_not_or_not, Decidable.not_not, Decidable.not_not]) rfl rfl).trans (ite_not ..)

/-- Settles O44: a frame is one distinction on its command and its session, an instant one on what is open. -/
theorem lanternFrames : Obligations.LanternFrames := by
  unfold Obligations.LanternFrames
  refine ⟨?wake, ?openFrame, ?judged, ?close, ?ping, ?read, ?write, ?monitor, ?monpoll, ?reset, ?errors, ?instants⟩
  case wake => exact fun s => congrArg Host.Outcome.next (opWakePattern_eq s)
  case openFrame => exact fun f d tag s hparse hwell hup => congrArg Host.Outcome.next (opLanternOpen_eq hparse hwell hup)
  case judged => exact fun d tag s => rfl
  case close => exact fun f s => congrArg Host.Outcome.next (State.lanServe_of_le (by decide) f _ s)
  case ping => exact fun f s => congrArg Host.Outcome.next (State.lanServe_of_le (by decide) f _ s)
  case read => exact fun f s => congrArg Host.Outcome.next (State.lanServe_of_lt (by decide) f _ s)
  case write => exact fun f s => congrArg Host.Outcome.next (State.lanServe_of_lt (by decide) f _ s)
  case monitor => exact fun f s => congrArg Host.Outcome.next (State.lanServe_of_lt (by decide) f _ s)
  case monpoll => exact fun f s => congrArg Host.Outcome.next (State.lanServe_of_lt (by decide) f _ s)
  case reset => exact fun f s => congrArg Host.Outcome.next (State.lanServe_of_lt (by decide) f _ s)
  case errors => exact fun f s => ⟨rfl, rfl, rfl, congrArg Host.Outcome.next (opLanternFrameError_eq f s)⟩
  case instants =>
    intro s
    refine ⟨congrArg Host.Outcome.next (opLanternIdleTimeout_eq s), rfl, congrArg Host.Outcome.next ?_, rfl⟩
    unfold opLanternSysrst
    cases s.lan.rst <;> rfl

end Sys2Proof.Machine
end

section
/-! PROOFS. Requests of the Serys monitor (O45). -/
namespace Sys2Proof.Machine

/-! ## A monitor row (25, R592, R593, R621; 23, R562) -/

/-- The message at the front is served where it is one of the command's own, and left otherwise. -/
theorem State.serveFront_eq_ite {s : State} {p : Nat} {m : Msg} (want : Msg → Bool) (f : Nat → Sess → Msg → State → State) (hfront : s.fronts p m = true) :
    s.serveFront p want f = if want m then s.served p m fun i x u => f i x m u else s := by
  by_cases hwant : want m = true
  · rw [if_pos hwant, State.serveFront_of_fronts f hfront hwant]
  · rw [if_neg hwant]
    obtain ⟨⟨udp, raw, hraw, hparse⟩, -, -⟩ := State.fronts_iff.mp hfront
    rw [State.serveFront, hraw]
    dsimp only
    rw [hparse]
    exact if_pos (by simp [hwant])

@[simp] theorem State.upSess_lan (i : Nat) (f : Sess → Sess) (s : State) : (s.upSess i f).lan = s.lan := by
  unfold State.upSess
  cases Store.find i s.sess <;> rfl

/-- A monitor command of a session enters the queue, or is answered. -/
theorem State.monitor_of_fronts {s : State} {p : Fin 6} {m : Msg} (c : Nat) (n : Option Nat) (f : List Byte → State → State × Nat × List Byte)
    (hfront : s.fronts p m = true) :
    s.monitor c p.castSucc n f = if isCmd c m then s.served p m fun i x u =>
        if x.role ≠ 3 then u.cmdReply i m 2 []
        else if 8 ≤ u.lan.queue.length then (u.upSess i fun y => { y with mon := true }).cmdReply i m 7 []
        else (u.upSess i fun y => { y with mon := true }).monPush { from_ := some (i, m.seq, m.udp), code := c, arg := m.body.drop 4 }
      else s :=
  (if_pos p.isLt).trans ((State.serveFront_eq_ite (isCmd c) _ hfront).trans (ite_congr_iff Iff.rfl
    (congrArg (s.served p m) (funext fun i => funext fun x => funext fun u =>
      ite_congr_iff Iff.rfl (Eq.refl _) (ite_congr_iff (by rw [State.upSess_lan]) (Eq.refl _) (Eq.refl _)))) (Eq.refl _)))

/-- SV serves nothing while it is halted or hands over, nor a request of another code than that at the head. -/
theorem State.monitor_of_idle {s : State} {c : Nat} (n : Option Nat) (f : List Byte → State → State × Nat × List Byte)
    (hidle : (s.halted 4 || s.upd.hand || match s.lan.queue with | [] => true | q :: _ => q.code != c) = true) : s.monitor c 6 n f = s := by
  refine (if_neg (by decide)).trans ?_
  by_cases hsv : (s.halted 4 || s.upd.hand) = true
  · exact if_pos hsv
  · refine (if_neg hsv).trans ?_
    rw [eq_false_of_ne_true hsv, Bool.false_or] at hidle
    revert hidle
    cases s.lan.queue with
    | nil => exact fun _ => Eq.refl _
    | cons q l => exact fun hcode => if_pos (by simpa using hcode)

/-- The answer of a request. -/
def monAnswer (q : MonReq) (r : State × Nat × List Byte) : State := r.1.monReply q r.2.1 r.2.2

/-- The request at the head has been taken. -/
def State.monTaken (q : MonReq) (l : List MonReq) (s : State) : State :=
  { s.qRead 18 (l.length + 1) 0 (8 + q.arg.length) with lan := { (s.qRead 18 (l.length + 1) 0 (8 + q.arg.length)).lan with queue := l } }

section
variable {s v : State} {q : MonReq} {l : List MonReq} {c : Nat} {d : List Byte}

theorem State.monitor_of_head (hhalt : s.halted 4 = false) (hhand : s.upd.hand = false) (hqueue : s.lan.queue = q :: l) (hcode : q.code = c)
    (hv : s.monTaken q l = v) (hd : q.arg = d) (f : List Byte → State → State × Nat × List Byte) : s.monitor c 6 none f = monAnswer q (f d v) := by
  subst hv hd
  refine (if_neg (by decide)).trans ((if_neg (by simp [hhalt, hhand])).trans ?_)
  rw [hqueue]
  exact (if_neg (fun h => h hcode)).trans (if_neg Bool.false_ne_true)

/-- A request that has a length of its own. -/
theorem State.monitor_of_head_length (n : Nat) (hhalt : s.halted 4 = false) (hhand : s.upd.hand = false) (hqueue : s.lan.queue = q :: l)
    (hcode : q.code = c) (hv : s.monTaken q l = v) (hd : q.arg = d) (f : List Byte → State → State × Nat × List Byte) :
    s.monitor c 6 (some n) f = if d.length ≠ n then v.monReply q 9 [] else monAnswer q (f d v) := by
  subst hv hd
  refine (if_neg (by decide)).trans ((if_neg (by simp [hhalt, hhand])).trans ?_)
  rw [hqueue]
  exact (if_neg (fun h => h hcode)).trans (ite_congr_iff bne_iff_ne (Eq.refl _) (Eq.refl _))

end

/-! ## The commands -/

theorem monAnswer_owned (q : MonReq) (f : State → State × Nat × List Byte) (v : State) :
    monAnswer q (State.monOwned f v) = if v.is R.LANT_STAT_ATT then v.monReply q 6 [] else monAnswer q (f v) := apply_ite ..

theorem monAnswer_ite (q : MonReq) {c d : Prop} [Decidable c] [Decidable d] (h : c ↔ d) (a b : State × Nat × List Byte) :
    monAnswer q (if c then a else b) = if d then monAnswer q a else monAnswer q b := (apply_ite ..).trans (ite_congr_iff h rfl rfl)

/-- A check is the last before the answer. -/
theorem monAnswer_check (q : MonReq) {c d : Prop} [Decidable c] [Decidable d] (h : c ↔ d) (v w : State) (k st : Nat) (a b : List Byte) :
    monAnswer q (if c then (v, k, a) else (w, st, b)) = if d then v.monReply q k a else w.monReply q st b := monAnswer_ite q h _ _

theorem bit_four_iff {m : Nat} (hm : ¬ 32 ≤ m) : bit m 4 = true ↔ 16 ≤ m := by
  rw [bit, Nat.testBit_eq_decide_div_mod_eq, decide_eq_true_eq]
  omega

theorem bit_zero_of_le_one {m : Nat} (hm : ¬ 1 < m) : bit m 0 = (m == 1) := by
  obtain rfl | rfl : m = 0 ∨ m = 1 := by omega
  · rfl
  · rfl

theorem not_selBank_iff (b : Nat) : (!selBank b) = true ↔ 12 < b ∧ b ≠ 15 := by simp [selBank]

theorem monAnswer_halt (q : MonReq) (m f : Nat) (v : State) :
    monAnswer q (if 32 ≤ m ∨ 1 < f then (v, 5, []) else if bit m 4 then (v, 6, []) else (opHaltRequest m (bit f 0) v, 0, [])) =
      if 32 ≤ m ∨ 1 < f then v.monReply q 5 [] else if 16 ≤ m then v.monReply q 6 [] else (opHaltRequest m (f == 1) v).monReply q 0 [] := by
  refine (apply_ite ..).trans (ite_congr rfl (fun _ => rfl) fun h => ?_)
  obtain ⟨hm, hf⟩ := not_or.mp h
  rw [bit_zero_of_le_one hf]
  exact monAnswer_ite q (bit_four_iff hm) _ _

theorem monAnswer_step (q : MonReq) (m : Nat) (v : State) :
    monAnswer q (if 32 ≤ m then (v, 5, []) else if bit m 4 then (v, 6, []) else (opStepRequest m v, 0, [])) =
      if 32 ≤ m then v.monReply q 5 [] else if 16 ≤ m then v.monReply q 6 [] else (opStepRequest m v).monReply q 0 [] :=
  (apply_ite ..).trans (ite_congr rfl (fun _ => rfl) fun hm => monAnswer_ite q (bit_four_iff hm) _ _)

/-- The start-up mode, as it is answered (24, R587). -/
def State.startMode (s : State) : List Byte := [BitVec.ofNat 8 (s.get R.SYS_BOOTCFG_STARTRUN), BitVec.ofNat 8 (s.get R.SYS_BOOTCFG_HOLDAFT)]

/-- START MODE reads with 0 and writes with 1. -/
theorem monAnswer_startMode (q : MonReq) (k a b : Nat) (v w : State) :
    monAnswer q (if 1 < k then (v, 5, []) else if k = 0 then (v, 0, v.startMode) else if 1 < a ∨ 1 < b then (v, 5, []) else (w, 0, w.startMode)) =
      if k = 0 then v.monReply q 0 v.startMode else if k = 1 ∧ a ≤ 1 ∧ b ≤ 1 then w.monReply q 0 w.startMode else v.monReply q 5 [] := by
  by_cases h0 : k = 0
  · rw [if_neg (by omega), if_pos h0, if_pos h0]
    rfl
  · by_cases h1 : k = 1
    · rw [if_neg (by omega), if_neg h0, if_neg h0]
      refine (monAnswer_ite q (d := ¬ (k = 1 ∧ a ≤ 1 ∧ b ≤ 1)) (by omega) _ _).trans (ite_not ..)
    · rw [if_pos (by omega), if_neg h0, if_neg (fun h => h1 h.1)]
      rfl

/-- Settles O45: a port's command enters the queue; the request at the head is answered by what its own command does. -/
theorem monitorRequests : Obligations.MonitorRequests := by
  unfold Obligations.MonitorRequests
  refine ⟨?ports, ?idle, ?read, ?write, ?halt, ?resume, ?step, ?stateRead, ?stateWrite, ?brk, ?session, ?reset, ?startMode, ?status⟩
  case ports =>
    intro p m s r hfront
    have h : ∀ c n f, Host.Outcome.next (s.monitor c p.castSucc n f) = (.next (r c) : Host.Outcome State Fault Refusal) :=
      fun c n f => congrArg Host.Outcome.next (State.monitor_of_fronts c n f hfront)
    exact ⟨h .., h .., h .., h .., h .., h .., h .., h .., h .., h .., h .., h ..⟩
  case idle =>
    intro s idle
    have h : ∀ c n f, idle c = true → Host.Outcome.next (s.monitor c 6 n f) = (.next s : Host.Outcome State Fault Refusal) :=
      fun c n f hidle => congrArg Host.Outcome.next (State.monitor_of_idle n f hidle)
    exact ⟨h _ _ _, h _ _ _, h _ _ _, h _ _ _, h _ _ _, h _ _ _, h _ _ _, h _ _ _, h _ _ _, h _ _ _, h _ _ _, h _ _ _⟩
  case read =>
    intro q l s u v d r hhalt hhand hqueue hcode
    refine congrArg Host.Outcome.next ((State.monitor_of_head_length 8 hhalt hhand hqueue hcode (v := v) rfl (d := d) rfl _).trans (ite_congr_iff Iff.rfl rfl ?_))
    exact monAnswer_check q (by simp) _ _ _ _ _ _
  case write =>
    intro q l s u v d r n hhalt hhand hqueue hcode
    refine congrArg Host.Outcome.next ((State.monitor_of_head hhalt hhand hqueue hcode (v := v) rfl (d := d) rfl _).trans ?_)
    refine (monAnswer_ite q Iff.rfl _ _).trans (ite_congr_iff Iff.rfl rfl ?_)
    refine (monAnswer_ite q (by simp) _ _).trans (ite_congr_iff Iff.rfl rfl ?_)
    refine (monAnswer_ite q Iff.rfl _ _).trans (ite_congr_iff Iff.rfl rfl ?_)
    exact monAnswer_check q (Bool.and_eq_true ..).to_iff _ _ _ _ _ _
  case halt =>
    intro q l s u v d hhalt hhand hqueue hcode
    refine congrArg Host.Outcome.next ((State.monitor_of_head_length 2 hhalt hhand hqueue hcode (v := v) rfl (d := d) rfl _).trans (ite_congr_iff Iff.rfl rfl ?_))
    exact (monAnswer_owned ..).trans (ite_congr_iff Iff.rfl rfl (monAnswer_halt ..))
  case resume =>
    intro q l s u v d hhalt hhand hqueue hcode
    refine congrArg Host.Outcome.next ((State.monitor_of_head_length 1 hhalt hhand hqueue hcode (v := v) rfl (d := d) rfl _).trans (ite_congr_iff Iff.rfl rfl ?_))
    exact (monAnswer_owned ..).trans (ite_congr_iff Iff.rfl rfl (monAnswer_check q Iff.rfl _ _ _ _ _ _))
  case step =>
    intro q l s u v d hhalt hhand hqueue hcode
    refine congrArg Host.Outcome.next ((State.monitor_of_head_length 1 hhalt hhand hqueue hcode (v := v) rfl (d := d) rfl _).trans (ite_congr_iff Iff.rfl rfl ?_))
    exact (monAnswer_owned ..).trans (ite_congr_iff Iff.rfl rfl (monAnswer_step ..))
  case stateRead =>
    intro q l s u v d e g hhalt hhand hqueue hcode
    refine congrArg Host.Outcome.next ((State.monitor_of_head_length 5 hhalt hhand hqueue hcode (v := v) rfl (d := d) rfl _).trans (ite_congr_iff Iff.rfl rfl ?_))
    exact monAnswer_check q (or_congr_right (or_congr_left (not_selBank_iff _))) _ _ _ _ _ _
  case stateWrite =>
    intro q l s u v d hhalt hhand hqueue hcode
    refine congrArg Host.Outcome.next ((State.monitor_of_head_length 8 hhalt hhand hqueue hcode (v := v) rfl (d := d) rfl _).trans (ite_congr_iff Iff.rfl rfl ?_))
    exact monAnswer_check q (or_congr_right (or_congr_left (not_selBank_iff _))) _ _ _ _ _ _
  case brk =>
    intro q l s u v d a r hhalt hhand hqueue hcode
    refine congrArg Host.Outcome.next ((State.monitor_of_head hhalt hhand hqueue hcode (v := v) rfl (d := d) rfl _).trans ?_)
    refine (monAnswer_owned ..).trans (ite_congr_iff Iff.rfl rfl ?_)
    refine (monAnswer_ite q ?_ _ _).trans (ite_congr_iff Iff.rfl rfl (monAnswer_check q Iff.rfl _ _ _ _ _ _))
    omega
  case session =>
    intro q l s u v d hhalt hhand hqueue hcode
    refine congrArg Host.Outcome.next ((State.monitor_of_head_length 5 hhalt hhand hqueue hcode (v := v) rfl (d := d) rfl _).trans (ite_congr_iff Iff.rfl rfl ?_))
    exact (monAnswer_owned ..).trans (ite_congr_iff Iff.rfl rfl (monAnswer_check q Iff.rfl _ _ _ _ _ _))
  case reset =>
    intro q l s u v d hhalt hhand hqueue hcode
    refine congrArg Host.Outcome.next ((State.monitor_of_head_length 0 hhalt hhand hqueue hcode (v := v) rfl (d := d) rfl _).trans (ite_congr_iff Iff.rfl rfl ?_))
    exact monAnswer_owned ..
  case startMode =>
    intro q l s u v d w r hhalt hhand hqueue hcode
    refine congrArg Host.Outcome.next ((State.monitor_of_head_length 3 hhalt hhand hqueue hcode (v := v) rfl (d := d) rfl _).trans (ite_congr_iff Iff.rfl rfl ?_))
    change monAnswer q (if 1 < leAt d 0 1 then (v, 5, []) else if leAt d 0 1 = 0 then (v, 0, v.startMode)
      else if 1 < leAt d 1 1 ∨ 1 < leAt d 2 1 then (v, 5, []) else (w, 0, w.startMode)) = _
    exact monAnswer_startMode ..
  case status =>
    intro q l s u v d hhalt hhand hqueue hcode
    exact congrArg Host.Outcome.next (State.monitor_of_head_length 0 hhalt hhand hqueue hcode (v := v) rfl (d := d) rfl _)

end Sys2Proof.Machine
end

section
/-! PROOFS. Flash operations, update commands and the handover (O46). -/
namespace Sys2Proof.Machine

/-! ## Flash operations (26, R623, R625, R630) -/

/-- What refuses an operation, in its order; else it runs, and a write to the other bank makes it unverified. -/
def State.flashGo (own off : Bool) (op a n : Nat) (s : State) : State :=
  if s.upd.op.isSome then s.put R.UPD_STAT_OPERR 1
  else if s.get R.UPD_FINFO_OK = 0 then s.updErr 5
  else if off then s.updErr 6
  else if op ≠ 4 ∧ own = true then s.updErr 0x16
  else if s.get R.UPD_FINFO_MIB * 0x100000 < a + n then s.updErr 3
  else
    let t := if op = 4 then s else match bankOf a with | some b => s.bankTouched b | none => s
    { t with upd := { t.upd with op := some (op, a, n) } }.put R.UPD_STAT_BUSY 1

/-- `off`: an erase that is not aligned, a program across a page. -/
theorem State.flashStart_eq {op len : Nat} (hop : op ≠ 0 ∧ op ≤ 4) {a n : Nat} (hn : opSpan op len = n) {off : Bool}
    (hoff : ((op != 4 && op != 3 && a % n != 0) || (op == 3 && decide (256 < a % 256 + n))) = off) (s : State) :
    s.flashStart op a len = s.flashGo (decide (bankOf a = some (s.get R.UPD_BOOT_BANK))) off op a n := by
  subst hn hoff
  refine (if_neg (by omega)).trans (ite_congr (Eq.refl _) (fun _ => Eq.refl _) fun _ => ?_)
  refine ite_congr_iff (by simp [State.is]) (Eq.refl _) (ite_congr (Eq.refl _) (fun _ => Eq.refl _) fun _ => ?_)
  exact ite_congr_iff (by simp) (Eq.refl _) (Eq.refl _)

theorem mod_pow32_mod (a : Nat) {n : Nat} (hn : n ∣ 2 ^ 32) : a % 2 ^ 32 % n = a % n := Nat.mod_mod_of_dvd a hn

theorem opUpdSectorErase_eq (a : Nat) (s : State) :
    let t := s.put R.UPD_FADDR_A a
    opUpdSectorErase a s = t.flashGo (decide (bankOf (a % 2 ^ 32) = some (t.get R.UPD_BOOT_BANK))) (a % 0x1000 != 0) 1 (a % 2 ^ 32) 0x1000 := by
  refine State.flashStart_eq (n := 0x1000) (by decide) rfl ?_ _
  rw [mod_pow32_mod a (by decide)]
  simp

theorem opUpdBlockErase_eq (a : Nat) (s : State) :
    let t := s.put R.UPD_FADDR_A a
    opUpdBlockErase a s = t.flashGo (decide (bankOf (a % 2 ^ 32) = some (t.get R.UPD_BOOT_BANK))) (a % 0x10000 != 0) 2 (a % 2 ^ 32) 0x10000 := by
  refine State.flashStart_eq (n := 0x10000) (by decide) rfl ?_ _
  rw [mod_pow32_mod a (by decide)]
  simp

theorem opUpdProgram_eq (a : Nat) (d : List Byte) (s : State) :
    let t := (s.putFbuf 0 d).put R.UPD_FADDR_A a
    opUpdProgram a d s = if d = [] ∨ 256 < d.length then s
      else t.flashGo (decide (bankOf (a % 2 ^ 32) = some (t.get R.UPD_BOOT_BANK))) (decide (256 < a % 256 + d.length)) 3 (a % 2 ^ 32) d.length := by
  refine ite_congr_iff (by simp) rfl (State.flashStart_eq (n := d.length) (by decide) rfl ?_ _)
  rw [mod_pow32_mod a (n := 256) (by decide)]
  simp

/-- The registers of a CRC stand apart from the table of the flash. -/
theorem State.get_crcSet {f : Fam} (hf : R.UPD_CRC_LEN_N.base < f.base) (a n : Nat) (s : State) :
    ((s.put R.UPD_FADDR_A a).put R.UPD_CRC_LEN_N n).get f = s.get f := by
  have hlen := Fam.key_lt_of_base_lt hf (Nat.zero_le _) (by decide) 0
  have haddr := Fam.key_lt_of_base_lt (f := R.UPD_FADDR_A) (Nat.lt_trans (by decide) hf) (Nat.zero_le _) (by decide) 0
  rw [State.get_put_ne _ _ _ _ _ _ _ _ (Nat.ne_of_lt hlen), State.get_put_ne _ _ _ _ _ _ _ _ (Nat.ne_of_lt haddr)]

theorem opUpdCrc_eq (a n : Nat) (s : State) :
    let t := (s.put R.UPD_FADDR_A a).put R.UPD_CRC_LEN_N n
    opUpdCrc a n s = if s.upd.op.isSome then t.put R.UPD_STAT_OPERR 1 else if s.get R.UPD_FINFO_OK = 0 then t.updErr 5
      else if s.get R.UPD_FINFO_MIB * 0x100000 < a % 2 ^ 32 + n % 2 ^ 32 then t.updErr 3
      else { t with upd := { t.upd with op := some (4, a % 2 ^ 32, n % 2 ^ 32) } }.put R.UPD_STAT_BUSY 1 := by
  intro t
  have hok : t.get R.UPD_FINFO_OK = s.get R.UPD_FINFO_OK := State.get_crcSet (by decide) a n s
  have hmib : t.get R.UPD_FINFO_MIB = s.get R.UPD_FINFO_MIB := State.get_crcSet (by decide) a n s
  refine (State.flashStart_eq (off := false) (by decide) rfl rfl _).trans ?_
  rw [← hok, ← hmib]
  refine ite_congr rfl (fun _ => rfl) fun _ => ite_congr rfl (fun _ => rfl) fun _ => ?_
  exact (if_neg Bool.false_ne_true).trans (if_neg fun h => h.1 rfl)

@[simp] theorem State.fbuf_bufRead (a n k : Nat) (s : State) : (s.bufRead a n).fbuf k = s.fbuf k :=
  congrArg (fun u : UpdSt => cellsGet 0#8 u.fbuf 0 k) (State.upd_of_calm (calm_bufRead a n s))

theorem opFlashOperationComplete_of_op {s : State} {op a n : Nat} (hop : s.upd.op = some (op, a, n)) (ok : Bool) :
    let u := { s with upd := { s.upd with op := none } }.put R.UPD_STAT_BUSY 0
    let v := u.bufRead bufFlash n
    opFlashOperationComplete ok s = if op = 4 then u.put R.UPD_CRC_VAL_C (crc32 (u.norBytes a n)) else if op ≠ 3 then u.norErase a n
      else if ok = true ∧ (v.norProgram a (v.fbuf n)).norBytes a n = v.fbuf n then v.norProgram a (v.fbuf n) else (v.norProgram a (v.fbuf n)).updErr 4 := by
  intro u v
  have hfbuf : u.fbuf n = v.fbuf n := (State.fbuf_bufRead ..).symm
  rw [opFlashOperationComplete, hop]
  refine ite_congr rfl (fun _ => rfl) fun _ => Eq.trans ?_ (ite_not ..).symm
  refine ite_congr rfl (fun _ => ?_) fun _ => rfl
  change (if ok && (v.norProgram a (u.fbuf n)).norBytes a n == v.fbuf n then v.norProgram a (u.fbuf n) else (v.norProgram a (u.fbuf n)).updErr 4) = _
  rw [hfbuf]
  exact ite_congr_iff (by rw [Bool.and_eq_true, beq_iff_eq]) rfl rfl

theorem opConfirmationTime_eq (s : State) :
    opConfirmationTime s = if s.phase = .up ∧ s.is R.UPD_BOOT_TRIAL = true ∧ s.upd.since + s.fwNat 0x700008 2 600 * 1000000000 ≤ s.time.real then s.bootConfirm else s :=
  ite_congr_iff (by simp [and_assoc]) rfl rfl

/-! ## Update commands (26, R631, R633, R634, R641-R643, R646) -/

/-- The answer of an update command. -/
def updAnswer (i : Nat) (m : Msg) (q : State × Nat × List Byte) : State := q.1.cmdReply i m q.2.1 q.2.2

theorem opUpdateCmd_of_fronts {s : State} {p : Nat} {m : Msg} {c : Nat} (hfront : s.fronts p m = true) (hcmd : isCmd c m = true)
    {f : List Byte → State → State × Nat × List Byte} {g : Nat → State → State} (hfg : ∀ i u, updAnswer i m (f (m.body.drop 4) u) = g i u) :
    opUpdateCmd c p f s = s.served p m fun i x u => if x.role ≠ 3 then u.cmdReply i m 2 [] else g i u :=
  State.serveFront_eq_served hfront hcmd fun i _ u => ite_congr rfl (fun _ => rfl) fun _ => hfg i u

theorem updAnswer_ite (i : Nat) (m : Msg) {c d : Prop} [Decidable c] [Decidable d] (h : c ↔ d) (a b : State × Nat × List Byte) :
    updAnswer i m (if c then a else b) = if d then updAnswer i m a else updAnswer i m b := (apply_ite ..).trans (ite_congr_iff h rfl rfl)

theorem State.fwVerify_eq (i : Nat) (m : Msg) (u : State) :
    updAnswer i m u.fwVerify = match u.header u.otherBank with
      | none => ((u.raise 268 u.otherBank).put R.UPD_STAT_ERR 1).cmdReply i m 6 [BitVec.ofNat 8 1]
      | some h => if u.headerCrc u.otherBank h.len then ({ u with upd := { u.upd with verified := setBit u.upd.verified u.otherBank true } }.raise 267 u.otherBank).cmdReply i m 0 []
        else ((u.raise 268 u.otherBank).put R.UPD_STAT_ERR 2).cmdReply i m 6 [BitVec.ofNat 8 2] := by
  unfold State.fwVerify
  dsimp only
  cases u.header u.otherBank with
  | none => rfl
  | some h => exact updAnswer_ite i m Iff.rfl _ _

theorem State.fwDryrun_eq (i : Nat) (m : Msg) (u : State) : updAnswer i m u.fwDryrun = u.fwDryrun.1.cmdReply i m 0 u.fwDryrun.2.2 := by
  have hdone : u.fwDryrun.2.1 = 0 := by
    unfold State.fwDryrun
    dsimp only
    cases u.header (u.get R.UPD_BOOT_BANK) <;> cases u.header u.otherBank <;> rfl
  rw [updAnswer, hdone]

theorem State.fwSchedule_eq (i : Nat) (m : Msg) (u : State) :
    updAnswer i m (u.fwSchedule (m.body.drop 4)) = if m.body.length ≠ 12 then u.cmdReply i m 9 [] else match u.scheduleErr (leNat (m.body.drop 4)) with
      | some c => (u.put R.UPD_STAT_ERR c).cmdReply i m 6 [BitVec.ofNat 8 c]
      | none => (({ u with upd := { u.upd with at_ := some (leNat (m.body.drop 4)) } }.put64 R.UPD_AT_LO_A R.UPD_AT_HI_A (leNat (m.body.drop 4))).put R.UPD_CTL_HOSCHED 1).cmdReply i m 0 [] := by
  refine (updAnswer_ite i m ?_ _ _).trans (ite_congr_iff Iff.rfl (Eq.refl _) ?_)
  · rw [List.length_drop]
    omega
  · cases u.scheduleErr (leNat (m.body.drop 4)) <;> rfl

/-- The firmware of bank `b` has the compatibility number of the one that executes. -/
def State.compatWith (b : Nat) (u : State) : Bool :=
  match u.header (u.get R.UPD_BOOT_BANK), u.header b with
  | some r, some n => r.compat == n.compat
  | _, _ => false

/-- A bank is taken over by reset unless the pair would part and the request does not say so. -/
theorem updAnswer_pair (i : Nat) (m : Msg) (equal : Bool) (k : Nat) (u : State) (w : State × Nat × List Byte) :
    updAnswer i m (if u.pairMember && !equal && k != 1 then u.updRefused 0x17 else w) =
      if u.pairMember = true ∧ equal = false ∧ k ≠ 1 then (u.put R.UPD_STAT_ERR 0x17).cmdReply i m 6 [BitVec.ofNat 8 0x17] else updAnswer i m w :=
  updAnswer_ite i m (by simp [and_assoc]) _ _

theorem State.fwActivate_eq (i : Nat) (m : Msg) (u : State) :
    updAnswer i m (u.fwActivate (m.body.drop 4)) = if bit u.upd.verified u.otherBank = false then (u.put R.UPD_STAT_ERR 0x10).cmdReply i m 6 [BitVec.ofNat 8 0x10]
      else if u.pairMember = true ∧ u.compatWith u.otherBank = false ∧ leAt (m.body.drop 4) 0 1 ≠ 1 then (u.put R.UPD_STAT_ERR 0x17).cmdReply i m 6 [BitVec.ofNat 8 0x17]
      else ((u.bootWrite u.otherBank (u.get R.UPD_BOOT_BANK) (u.fwNat 0x700009 1 3) false).resetSoon).cmdReply i m 0 [] :=
  (updAnswer_ite i m (by simp) _ _).trans (ite_congr_iff Iff.rfl (Eq.refl _) (updAnswer_pair ..))

theorem State.fwRollback_eq (i : Nat) (m : Msg) (u : State) :
    updAnswer i m (u.fwRollback (m.body.drop 4)) = if u.header u.bootRec.prev = none then (u.put R.UPD_STAT_ERR 1).cmdReply i m 6 [BitVec.ofNat 8 1]
      else if u.pairMember = true ∧ u.compatWith u.bootRec.prev = false ∧ leAt (m.body.drop 4) 0 1 ≠ 1 then (u.put R.UPD_STAT_ERR 0x17).cmdReply i m 6 [BitVec.ofNat 8 0x17]
      else ((u.bootWrite u.bootRec.prev (1 - u.bootRec.prev) (u.fwNat 0x700009 1 3) true).resetSoon).cmdReply i m 0 [] :=
  (updAnswer_ite i m Option.isNone_iff_eq_none _ _).trans (ite_congr_iff Iff.rfl (Eq.refl _) (updAnswer_pair ..))

/-! ## The handover (26, R635, R641) -/

theorem State.recordRead_real (s : State) : s.recordRead.1.time.real = s.time.real := State.real_of_calm (calm_memRead ..)

/-- The bank of the header `n` executes from the instant `t` on, on trial; no handover waits. -/
def State.tookOver (t : Nat) (n : FwHeader) (s : State) : State :=
  let u := (s.recordRead.1.put R.UPD_BOOT_BANK s.otherBank).put R.UPD_BOOT_TRIAL 1
  { u with upd := { u.upd with at_ := none, hand := false, done := true, since := t, compat := n.compat } }.put R.UPD_CTL_HOSCHED 0

/-- The groups whose versions differ; none where the record does not pass. -/
def State.handGain (n : FwHeader) (s : State) : List Nat :=
  if recordOk s.recordRead.2 n then (List.range 129).filter fun g => leAt (slice s.recordRead.2 0x10 129) g 1 != n.groups.getD g 0 else []

/-- What is carried over into the state `v` of the new bank. -/
def State.handKept (s : State) (n : FwHeader) (v : State) : State :=
  (if recordOk s.recordRead.2 n then v else
    { v with dict := { v.dict with vals := v.dict.vals.filter (fun x => params.any fun p => p.num == x.1 && p.pers == 1), batch := [], reqs := [],
                                   edge := 0, hits := [], acted := 0, pen := false } }.warn 6 0).handoverSessions
    (!recordOk s.recordRead.2 n || (s.handGain n).contains 0x21)

/-- The groups are reset, the events and the record follow. -/
def State.handEnd (s : State) (n : FwHeader) (w : State) : State :=
  let x := (s.handGain n).foldl (fun (t : State) (g : Nat) => t.groupReset (leAt (slice s.recordRead.2 0x10 129) g 1) (if g = 128 then 0xF0 else g)) w
  let y := if (s.handGain n).isEmpty then x.raise 269 0 else (x.raise 269 0).raise 271 (s.handGain n).length
  let z := y.bootWrite s.otherBank (s.get R.UPD_BOOT_BANK) (y.fwNat 0x700009 1 3) false
  ((z.upE 4 fun x => { x with pc := 0x30000000 + svBank s.otherBank + n.hand }).note 6 s.otherBank).dictSettle

/-- A handover to the bank of header `h`. -/
def State.handTo (h : Option FwHeader) (s : State) : State :=
  match h with
  | none => s
  | some n => s.handEnd n (s.handKept n (s.tookOver s.recordRead.1.time.real n))

theorem opHandoverComplete_eq (s : State) :
    opHandoverComplete s = if s.upd.hand = false then s else s.handTo (s.header s.otherBank) := by
  refine ite_congr_iff (by simp) rfl ?_
  change (match s.header s.otherBank with | none => s | some n => _) = _
  cases s.header s.otherBank with
  | none => rfl
  | some n =>
    unfold State.handTo State.handEnd State.handKept State.handGain State.tookOver
    rfl

theorem opHandoverComplete_of_none {s : State} (h : s.header s.otherBank = none) : opHandoverComplete s = s := by
  rw [opHandoverComplete_eq, h]
  exact ite_self _

theorem opHandoverComplete_of_some {s : State} {n : FwHeader} (h : s.header s.otherBank = some n) :
    opHandoverComplete s = if s.upd.hand = false then s else s.handEnd n (s.handKept n (s.tookOver s.time.real n)) := by
  rw [opHandoverComplete_eq, h, ← s.recordRead_real]
  exact Eq.refl _

/-- Settles O46: a flash operation is refused or runs, a command is answered by what it does, a handover is one sequence from the record on. -/
theorem firmwareReplacement : Obligations.FirmwareReplacement := by
  unfold Obligations.FirmwareReplacement
  refine ⟨?start, ?crc, ?complete, ?confirmation, ?verify, ?dryrun, ?schedule, ?cancel, ?activate, ?confirm, ?rollback, ?clear, ?handover, ?noHeader⟩
  case start =>
    intro a d s err own run go
    exact ⟨congrArg Host.Outcome.next (opUpdSectorErase_eq a s), congrArg Host.Outcome.next (opUpdBlockErase_eq a s),
      congrArg Host.Outcome.next (opUpdProgram_eq a d s)⟩
  case crc => exact fun a n s => congrArg Host.Outcome.next (opUpdCrc_eq a n s)
  case complete =>
    intro ok s u
    refine congrArg Host.Outcome.next ?_
    cases hop : s.upd.op with
    | none => rw [opFlashOperationComplete, hop]
    | some p =>
      obtain ⟨op, a, n⟩ := p
      exact opFlashOperationComplete_of_op hop ok
  case confirmation => exact fun s => congrArg Host.Outcome.next (opConfirmationTime_eq s)
  case verify =>
    exact fun p m s hfront hcmd => congrArg Host.Outcome.next (opUpdateCmd_of_fronts hfront hcmd fun i u => State.fwVerify_eq i m u)
  case dryrun =>
    exact fun p m s hfront hcmd => congrArg Host.Outcome.next (opUpdateCmd_of_fronts hfront hcmd fun i u => State.fwDryrun_eq i m u)
  case schedule =>
    exact fun p m s hfront hcmd => congrArg Host.Outcome.next (opUpdateCmd_of_fronts hfront hcmd fun i u => State.fwSchedule_eq i m u)
  case cancel => exact fun p m s hfront hcmd => congrArg Host.Outcome.next (opUpdateCmd_of_fronts hfront hcmd fun i u => rfl)
  case activate =>
    exact fun p m s hfront hcmd => congrArg Host.Outcome.next (opUpdateCmd_of_fronts hfront hcmd fun i u => State.fwActivate_eq i m u)
  case confirm => exact fun p m s hfront hcmd => congrArg Host.Outcome.next (opUpdateCmd_of_fronts hfront hcmd fun i u => rfl)
  case rollback =>
    exact fun p m s hfront hcmd => congrArg Host.Outcome.next (opUpdateCmd_of_fronts hfront hcmd fun i u => State.fwRollback_eq i m u)
  case clear => exact fun p m s hfront hcmd => congrArg Host.Outcome.next (opUpdateCmd_of_fronts hfront hcmd fun i u => rfl)
  case handover =>
    intro n s u good v drop old gain w x y z h
    have hy : y = if gain.isEmpty then x.raise 269 0 else (x.raise 269 0).raise 271 gain.length := ite_congr_iff List.isEmpty_iff.symm rfl rfl
    refine congrArg Host.Outcome.next ((opHandoverComplete_of_some h).trans (ite_congr_iff Iff.rfl rfl ?_))
    have hw : s.handKept n (s.tookOver s.time.real n) = w := rfl
    have hz : z = y.bootWrite s.otherBank (s.get R.UPD_BOOT_BANK) (y.fwNat 0x700009 1 3) false := rfl
    rw [hw, hz, hy]
    rfl
  case noHeader => exact fun s h => congrArg Host.Outcome.next (opHandoverComplete_of_none h)

end Sys2Proof.Machine
end

section
/-! PROOFS. Every command answers a next state and leaves the waiting commands alone (O49, O50, O51). -/

namespace Sys2Proof.Machine

/-- Every command answers a next state, and what it does to the machine touches no waiting command and keeps the invariant's parts. -/
theorem exec_completes (c : Instr) (s : State) : ∃ t, exec c s = .next t ∧ ∀ q, Good q s → Good q t := by
  cases c with
  | tick => exact ⟨_, rfl, fun _ h => opTick_keeps (h := h) ..⟩
  | latchEnd => exact ⟨_, rfl, fun _ h => opLatchEnd_keeps (h := h) ..⟩
  | ppsEdge => exact ⟨_, rfl, fun _ h => opPpsEdge_keeps (h := h) ..⟩
  | ppsLoss => exact ⟨_, rfl, fun _ h => opPpsLoss_keeps (h := h) ..⟩
  | timeSetcmdGo => exact ⟨_, rfl, fun _ h => opTimeSetcmdGo_keeps (h := h) ..⟩
  | turnPeriodWrite => exact ⟨_, rfl, fun _ h => opTurnPeriodWrite_keeps (h := h) ..⟩
  | turnPhaseWrite => exact ⟨_, rfl, fun _ h => opTurnPhaseWrite_keeps (h := h) ..⟩
  | rtcSync => exact ⟨_, rfl, fun _ h => opRtcSync_keeps (h := h) ..⟩
  | rtcSetgo => exact ⟨_, rfl, fun _ h => opRtcSetgo_keeps (h := h) ..⟩
  | rtcSecRead => exact ⟨_, rfl, fun _ h => opRtcSecRead_keeps (h := h) ..⟩
  | hiLatchingRead => exact ⟨_, rfl, fun _ h => State.latchHi_keeps (h := h) ..⟩
  | countdownEnable => exact ⟨_, rfl, fun _ h => opCountdownEnable_keeps (h := h) ..⟩
  | countdownExpiry => exact ⟨_, rfl, fun _ h => opCountdownExpiry_keeps (h := h) ..⟩
  | glintRequest => exact ⟨_, rfl, fun _ h => opGlintRequest_keeps (h := h) ..⟩
  | glintCaptureComplete => exact ⟨_, rfl, fun _ h => opGlintCaptureComplete_keeps (h := h) ..⟩
  | bundleIssue => exact ⟨_, rfl, fun _ h => opBundleIssue_keeps (h := h) ..⟩
  | immHi | buLd | buLdn | buAnd | buAndn | buOr | buOrn | buXor | buSt | buStn | buSet | buRst | buPush | buPop | buNot | buAccw | buRedge
  | buFedge | aluAdd | aluSub | aluAnd | aluOr | aluXor | aluAndn | aluShl | aluShr | aluSar | aluRol | aluMin | aluMax | aluMinu | aluMaxu
  | aluAdds | aluSubs | aluAbs | aluNeg | aluSxt | aluClz | cmpEq | cmpNe | cmpLt | cmpLe | cmpGt | cmpGe | cmpLtu | cmpGeu | cmpEqa
  | cmpLta | cmpLea | cmpLtua | cmpLeua | mulMuls | mulMulu | mulMulq31 | divDivs | divDivu | fpuFadd | fpuFsub | fpuFmul | fpuFdiv
  | fpuFsqrt | fpuFcmp | fpuFtoi | fpuItof | fpuDadd | fpuDsub | fpuDmul | fpuDdiv | fpuDsqrt | fpuDcmp | fpuDtoi | fpuItod | fpuFtod
  | fpuDtof | fpuFclr | tmrTon | tmrTof | tmrTp | tmrReset | lsuLd32 | lsuLd16s | lsuLd16u | lsuLd8s | lsuLd8u | lsuSt32 | lsuSt16 | lsuSt8
  | imgRd32 | imgRd16s | imgRd16u | imgRd8u | imgWr32 | imgWr16 | imgWr8 | pcJmp | pcRel | pcCall | pcCallr | pcRet | sysYield | sysCall
  | sysEret | sysSync | sysEvt | sysSetcsp | sysSetcspLo | sysSetcspHi | lockOpen | lockSt | lockEnd | macroT | svcIcinv | svcDcclean
  | svcDcinv | svcDcflush => exact ⟨_, rfl, fun _ h => State.single_keeps (h := h) ..⟩
  | pipelinedResult | divResult | fpuDivideResult => exact ⟨_, rfl, fun _ h => opLand_keeps (h := h) ..⟩
  | farAccessComplete => exact ⟨_, rfl, fun _ h => opFarAccessComplete_keeps (h := h) ..⟩
  | lockFault => exact ⟨_, rfl, fun _ h => opLockFault_keeps (h := h) ..⟩
  | microMove => exact ⟨_, rfl, fun _ h => State.microMove_keeps _ _ (State.farDue_keeps _ _ h)⟩
  | eventOccurrence => exact ⟨_, rfl, fun _ h => opEventOccurrence_keeps (h := h) ..⟩
  | eventRecordUpdate => exact ⟨_, rfl, fun _ h => opEventRecordUpdate_keeps (h := h) ..⟩
  | routedEventEntry => exact ⟨_, rfl, fun _ h => State.routedEntry_keeps (h := h) ..⟩
  | evtPendClear => exact ⟨_, rfl, fun _ h => opEvtPendClear_keeps (h := h) ..⟩
  | evtEnaWrite => exact ⟨_, rfl, fun _ h => opEvtEnaWrite_keeps (h := h) ..⟩
  | evtInject => exact ⟨_, rfl, fun _ h => opEvtInject_keeps (h := h) ..⟩
  | taskDispatch => exact ⟨_, rfl, fun _ h => State.dispatch_keeps (h := h) ..⟩
  | preemption => exact ⟨_, rfl, fun _ h => State.preempt_keeps (h := h) ..⟩
  | instanceComplete => exact ⟨_, rfl, fun _ h => opInstanceComplete_keeps (h := h) ..⟩
  | budgetExhausted => exact ⟨_, rfl, fun _ h => State.budgetOut_keeps (h := h) ..⟩
  | abortLimit => exact ⟨_, rfl, fun _ h => opAbortLimit_keeps (h := h) ..⟩
  | shedStart => exact ⟨_, rfl, fun _ h => opShedStart_keeps (h := h) ..⟩
  | shedEnd => exact ⟨_, rfl, fun _ h => opShedEnd_keeps (h := h) ..⟩
  | tskDescriptorWrite => exact ⟨_, rfl, fun _ h => opTskDescriptorWrite_keeps (h := h) ..⟩
  | taskEnableWrite => exact ⟨_, rfl, fun _ h => opTaskEnableWrite_keeps (h := h) ..⟩
  | tskClrstat => exact ⟨_, rfl, fun _ h => opTskClrstat_keeps (h := h) ..⟩
  | tskShedClear => exact ⟨_, rfl, fun _ h => opTskShedClear_keeps (h := h) ..⟩
  | excCmdEnter => exact ⟨_, rfl, fun _ h => opExcCmdEnter_keeps (h := h) ..⟩
  | excCmdRelease => exact ⟨_, rfl, fun _ h => opExcCmdRelease_keeps (h := h) ..⟩
  | excCmdPenenter => exact ⟨_, rfl, fun _ h => opExcCmdPenenter_keeps (h := h) ..⟩
  | excCmdPenleave => exact ⟨_, rfl, fun _ h => opExcCmdPenleave_keeps (h := h) ..⟩
  | engineWatchdogExpiry => exact ⟨_, rfl, fun _ h => opEngineWatchdogExpiry_keeps (h := h) ..⟩
  | svWatchdogKick => exact ⟨_, rfl, fun _ h => opSvWatchdogKick_keeps (h := h) ..⟩
  | svWatchdogExpiry => exact ⟨_, rfl, fun _ h => opSvWatchdogExpiry_keeps (h := h) ..⟩
  | mirrorWrite => exact ⟨_, rfl, fun _ h => opMirrorWrite_keeps (h := h) ..⟩
  | autoReset => exact ⟨_, rfl, fun _ h => opAutoReset_keeps (h := h) ..⟩
  | eccWriteBack => exact ⟨_, rfl, fun _ h => opEccWriteBack_keeps (h := h) ..⟩
  | scrubStep => exact ⟨_, rfl, fun _ h => opScrubStep_keeps (h := h) ..⟩
  | eccInject => exact ⟨_, rfl, fun _ h => opEccInject_keeps (h := h) ..⟩
  | lastWordCopy => exact ⟨_, rfl, fun _ h => opLastWordCopy_keeps (h := h) ..⟩
  | dmaStart => exact ⟨_, rfl, fun _ h => opDmaStart_keeps (h := h) ..⟩
  | dmaStop => exact ⟨_, rfl, fun _ h => opDmaStop_keeps (h := h) ..⟩
  | dmaDisable => exact ⟨_, rfl, fun _ h => opDmaDisable_keeps (h := h) ..⟩
  | dmaBurstComplete => exact ⟨_, rfl, fun _ h => opDmaBurstComplete_keeps (h := h) ..⟩
  | chkCommit => exact ⟨_, rfl, fun _ h => opChkCommit_keeps (h := h) ..⟩
  | chkDiscard => exact ⟨_, rfl, fun _ h => opChkDiscard_keeps (h := h) ..⟩
  | prgCheck => exact ⟨_, rfl, fun _ h => opPrgCheck_keeps (h := h) ..⟩
  | prgCheckComplete => exact ⟨_, rfl, fun _ h => opPrgCheckComplete_keeps (h := h) ..⟩
  | prgSched => exact ⟨_, rfl, fun _ h => opPrgSched_keeps (h := h) ..⟩
  | prgCancel => exact ⟨_, rfl, fun _ h => opPrgCancel_keeps (h := h) ..⟩
  | prgSwitchnow => exact ⟨_, rfl, fun _ h => opPrgSwitchnow_keeps (h := h) ..⟩
  | programSwitchComplete => exact ⟨_, rfl, fun _ h => opProgramSwitchComplete_keeps (h := h) ..⟩
  | switchWaitRefused => exact ⟨_, rfl, fun _ h => opSwitchWaitRefused_keeps (h := h) ..⟩
  | decCheck => exact ⟨_, rfl, fun _ h => opDecCheck_keeps (h := h) ..⟩
  | decCheckComplete => exact ⟨_, rfl, fun _ h => opDecCheckComplete_keeps (h := h) ..⟩
  | decActivate => exact ⟨_, rfl, fun _ h => opDecActivate_keeps (h := h) ..⟩
  | decArm => exact ⟨_, rfl, fun _ h => opDecArm_keeps (h := h) ..⟩
  | decDisarm => exact ⟨_, rfl, fun _ h => opDecDisarm_keeps (h := h) ..⟩
  | rflCfgWrite => exact ⟨_, rfl, fun _ h => opRflCfgWrite_keeps (h := h) ..⟩
  | ownershipClaim => exact ⟨_, rfl, fun _ h => opOwnershipClaim_keeps (h := h) ..⟩
  | ownershipSample => exact ⟨_, rfl, fun _ h => opOwnershipSample_keeps (h := h) ..⟩
  | takeover => exact ⟨_, rfl, fun _ h => opTakeover_keeps (h := h) ..⟩
  | ownershipConflict => exact ⟨_, rfl, fun _ h => opOwnershipConflict_keeps (h := h) ..⟩
  | linkUp => exact ⟨_, rfl, fun _ h => opLinkUp_keeps (h := h) ..⟩
  | linkDown => exact ⟨_, rfl, fun _ h => opLinkDown_keeps (h := h) ..⟩
  | releaseOrderedSet => exact ⟨_, rfl, fun _ h => opReleaseOrderedSet_keeps (h := h) ..⟩
  | nakOrderedSet => exact ⟨_, rfl, fun _ h => opNakOrderedSet_keeps (h := h) ..⟩
  | reflectFrameCrcError => exact ⟨_, rfl, fun _ h => opReflectFrameCrcError_keeps (h := h) ..⟩
  | headFrame => exact ⟨_, rfl, fun _ h => opHead_keeps (h := h) ..⟩
  | imageFrame => exact ⟨_, rfl, fun _ h => opImage_keeps (h := h) ..⟩
  | relFrame => exact ⟨_, rfl, fun _ h => opRel_keeps (h := h) ..⟩
  | farFrame => exact ⟨_, rfl, fun _ h => opFar_keeps (h := h) ..⟩
  | ctrlFrame => exact ⟨_, rfl, fun _ h => opCtrl_keeps (h := h) ..⟩
  | endFrame => exact ⟨_, rfl, fun _ h => opEndFrame_keeps (h := h) ..⟩
  | pageFrame => exact ⟨_, rfl, fun _ h => opPage_keeps (h := h) ..⟩
  | stateFrame => exact ⟨_, rfl, fun _ h => opState_keeps (h := h) ..⟩
  | digestFrame => exact ⟨_, rfl, fun _ h => opDigest_keeps (h := h) ..⟩
  | statusFrame => exact ⟨_, rfl, fun _ h => opStatus_keeps (h := h) ..⟩
  | helloFrame => exact ⟨_, rfl, fun _ h => opHello_keeps (h := h) ..⟩
  | logFrame => exact ⟨_, rfl, fun _ h => opLogFrame_keeps (h := h) ..⟩
  | brickFrame => exact ⟨_, rfl, fun _ h => opBrickFrame_keeps (h := h) ..⟩
  | shadowRelRelease => exact ⟨_, rfl, fun _ h => opShadowRelRelease_keeps (h := h) ..⟩
  | switchover => exact ⟨_, rfl, fun _ h => opSwitchover_keeps (h := h) ..⟩
  | digestComplete => exact ⟨_, rfl, fun _ h => opDigestComplete_keeps (h := h) ..⟩
  | rflRejoin => exact ⟨_, rfl, fun _ h => opRflRejoin_keeps (h := h) ..⟩
  | rflStop => exact ⟨_, rfl, fun _ h => opRflStop_keeps (h := h) ..⟩
  | rflSwap => exact ⟨_, rfl, fun _ h => opRflSwap_keeps (h := h) ..⟩
  | rflCancel => exact ⟨_, rfl, fun _ h => opRflCancel_keeps (h := h) ..⟩
  | rflRepair => exact ⟨_, rfl, fun _ h => opRflRepair_keeps (h := h) ..⟩
  | roleSwap => exact ⟨_, rfl, fun _ h => opRoleSwap_keeps (h := h) ..⟩
  | syncTurn => exact ⟨_, rfl, fun _ h => opSyncTurn_keeps (h := h) ..⟩
  | rejoinFailure => exact ⟨_, rfl, fun _ h => opRejoinFailure_keeps (h := h) ..⟩
  | rejoinRetry => exact ⟨_, rfl, fun _ h => opRejoinRetry_keeps (h := h) ..⟩
  | isailRead => exact ⟨_, rfl, fun _ h => opIsailRead_keeps (h := h) ..⟩
  | isailWrite => exact ⟨_, rfl, fun _ h => opIsailWrite_keeps (h := h) ..⟩
  | userReadTaken => exact ⟨_, rfl, fun _ h => opUserReadTaken_keeps (h := h) ..⟩
  | storeGroup => exact ⟨_, rfl, fun _ h => opStoreGroup_keeps (h := h) ..⟩
  | defaultsGroup => exact ⟨_, rfl, fun _ h => opDefaultsGroup_keeps (h := h) ..⟩
  | reloadGroup => exact ⟨_, rfl, fun _ h => opReloadGroup_keeps (h := h) ..⟩
  | policyAction => exact ⟨_, rfl, fun _ h => opPolicyAction_keeps (h := h) ..⟩
  | ethernetFrameReceived => exact ⟨_, rfl, fun _ h => opEthernetFrameReceived_keeps (h := h) ..⟩
  | arpRequestReceived => exact ⟨_, rfl, fun _ h => opArpRequestReceived_keeps (h := h) ..⟩
  | arpRefresh => exact ⟨_, rfl, fun _ h => opArpRefresh_keeps (h := h) ..⟩
  | icmpEchoRequest => exact ⟨_, rfl, fun _ h => opIcmpEchoRequest_keeps (h := h) ..⟩
  | phyLinkPoll => exact ⟨_, rfl, fun _ h => opPhyLinkPoll_keeps (h := h) ..⟩
  | canFrameReceived => exact ⟨_, rfl, fun _ h => opCanFrameReceived_keeps (h := h) ..⟩
  | canReassemblyTimeout => exact ⟨_, rfl, fun _ h => opCanReassemblyTimeout_keeps (h := h) ..⟩
  | canBusOffRecovery => exact ⟨_, rfl, fun _ h => opCanBusOffRecovery_keeps (h := h) ..⟩
  | transmitDone => exact ⟨_, rfl, fun _ h => opTransmitDone_keeps (h := h) ..⟩
  | mapMessage => exact ⟨_, rfl, fun _ h => opMapMessage_keeps (h := h) ..⟩
  | notifyAck => exact ⟨_, rfl, fun _ h => opNotifyAck_keeps (h := h) ..⟩
  | notifySend => exact ⟨_, rfl, fun _ h => opNotifySend_keeps (h := h) ..⟩
  | notifyRepeat => exact ⟨_, rfl, fun _ h => opNotifyRepeat_keeps (h := h) ..⟩
  | subscribeCreate => exact ⟨_, rfl, fun _ h => opSubscribeCreate_keeps (h := h) ..⟩
  | subscribeDelete => exact ⟨_, rfl, fun _ h => opSubscribeDelete_keeps (h := h) ..⟩
  | subscribeNotifications => exact ⟨_, rfl, fun _ h => opSubscribeNotifications_keeps (h := h) ..⟩
  | subscribeList => exact ⟨_, rfl, fun _ h => opSubscribeList_keeps (h := h) ..⟩
  | bulkWriteStart => exact ⟨_, rfl, fun _ h => opBulkWriteStart_keeps (h := h) ..⟩
  | bulkWriteSegment => exact ⟨_, rfl, fun _ h => opBulkWriteSegment_keeps (h := h) ..⟩
  | bulkReadStart => exact ⟨_, rfl, fun _ h => opBulkReadStart_keeps (h := h) ..⟩
  | bulkAck => exact ⟨_, rfl, fun _ h => opBulkAck_keeps (h := h) ..⟩
  | bulkAbort => exact ⟨_, rfl, fun _ h => opBulkAbort_keeps (h := h) ..⟩
  | bulkTimeout => exact ⟨_, rfl, fun _ h => opBulkTimeout_keeps (h := h) ..⟩
  | openSession => exact ⟨_, rfl, fun _ h => opOpenSession_keeps (h := h) ..⟩
  | rekeySession => exact ⟨_, rfl, fun _ h => opRekeySession_keeps (h := h) ..⟩
  | closeSession => exact ⟨_, rfl, fun _ h => opCloseSession_keeps (h := h) ..⟩
  | keepAlive => exact ⟨_, rfl, fun _ h => opKeepAlive_keeps (h := h) ..⟩
  | unknownService => exact ⟨_, rfl, fun _ h => opUnknownService_keeps (h := h) ..⟩
  | sessionIdleTimeout => exact ⟨_, rfl, fun _ h => opSessionIdleTimeout_keeps (h := h) ..⟩
  | openLockoutEnd => exact ⟨_, rfl, fun _ h => opOpenLockoutEnd_keeps (h := h) ..⟩
  | rekeyOldKeyExpiry => exact ⟨_, rfl, fun _ h => opRekeyOldKeyExpiry_keeps (h := h) ..⟩
  | partnerLost => exact ⟨_, rfl, fun _ h => opPartnerLost_keeps (h := h) ..⟩
  | fpEnWrite => exact ⟨_, rfl, fun _ h => opFpEnWrite_keeps (h := h) ..⟩
  | cryptoSubmit => exact ⟨_, rfl, fun _ h => opCryptoSubmit_keeps (h := h) ..⟩
  | cryptoJobComplete => exact ⟨_, rfl, fun _ h => opCryptoJobComplete_keeps (h := h) ..⟩
  | cryptoKeydata => exact ⟨_, rfl, fun _ h => opCryptoKeydata_keeps (h := h) ..⟩
  | cryptoKeyclr => exact ⟨_, rfl, fun _ h => opCryptoKeyclr_keeps (h := h) ..⟩
  | cryptoRngRead => exact ⟨_, rfl, fun _ h => opCryptoRngRead_keeps (h := h) ..⟩
  | gateEdgeCommand => exact ⟨_, rfl, fun _ h => opGateEdgeCommand_keeps (h := h) ..⟩
  | phaseAEnd => exact ⟨_, rfl, fun _ h => opPhaseAEnd_keeps (h := h) ..⟩
  | plateauExit => exact ⟨_, rfl, fun _ h => opPlateauExit_keeps (h := h) ..⟩
  | plateauTimeout => exact ⟨_, rfl, fun _ h => opPlateauTimeout_keeps (h := h) ..⟩
  | desaturation => exact ⟨_, rfl, fun _ h => opDesaturation_keeps (h := h) ..⟩
  | uvloEntry => exact ⟨_, rfl, fun _ h => opUvloEntry_keeps (h := h) ..⟩
  | uvloExit => exact ⟨_, rfl, fun _ h => opUvloExit_keeps (h := h) ..⟩
  | dieChannelLoss => exact ⟨_, rfl, fun _ h => opDieChannelLoss_keeps (h := h) ..⟩
  | coreChannelLoss => exact ⟨_, rfl, fun _ h => opCoreChannelLoss_keeps (h := h) ..⟩
  | dieConfigTransferComplete => exact ⟨_, rfl, fun _ h => opDieConfigTransferComplete_keeps (h := h) ..⟩
  | gdrvEnWrite => exact ⟨_, rfl, fun _ h => opGdrvEnWrite_keeps (h := h) ..⟩
  | gdrvLoad => exact ⟨_, rfl, fun _ h => opGdrvLoad_keeps (h := h) ..⟩
  | gdrvFclr => exact ⟨_, rfl, fun _ h => opGdrvFclr_keeps (h := h) ..⟩
  | activeShort => exact ⟨_, rfl, fun _ h => opActiveShort_keeps (h := h) ..⟩
  | carrierPeak => exact ⟨_, rfl, fun _ h => opCarrierPeak_keeps (h := h) ..⟩
  | carrierValley => exact ⟨_, rfl, fun _ h => opCarrierValley_keeps (h := h) ..⟩
  | legReferenceChange => exact ⟨_, rfl, fun _ h => opLegReferenceChange_keeps (h := h) ..⟩
  | deadTimeExpiry => exact ⟨_, rfl, fun _ h => opDeadTimeExpiry_keeps (h := h) ..⟩
  | gdrvCpWrite => exact ⟨_, rfl, fun _ h => opGdrvCpWrite_keeps (h := h) ..⟩
  | gdrvDtWrite => exact ⟨_, rfl, fun _ h => opGdrvDtWrite_keeps (h := h) ..⟩
  | gdrvBindWrite => exact ⟨_, rfl, fun _ h => opGdrvBindWrite_keeps (h := h) ..⟩
  | gdrvDutyWrite => exact ⟨_, rfl, fun _ h => opGdrvDutyWrite_keeps (h := h) ..⟩
  | svbenWrite => exact ⟨_, rfl, fun _ h => opSvbenWrite_keeps (h := h) ..⟩
  | dlnkComparatorChange => exact ⟨_, rfl, fun _ h => opDlnkComparatorChange_keeps (h := h) ..⟩
  | chopperCapReached => exact ⟨_, rfl, fun _ h => opChopperCapReached_keeps (h := h) ..⟩
  | dlnkChbindWrite => exact ⟨_, rfl, fun _ h => opDlnkChbindWrite_keeps (h := h) ..⟩
  | rollRequest => exact ⟨_, rfl, fun _ h => opRollRequest_keeps (h := h) ..⟩
  | rollCheckpoint => exact ⟨_, rfl, fun _ h => opRollCheckpoint_keeps (h := h) ..⟩
  | brickRead => exact ⟨_, rfl, fun _ h => opBrickRead_keeps (h := h) ..⟩
  | brickReadComplete => exact ⟨_, rfl, fun _ h => opBrickReadComplete_keeps (h := h) ..⟩
  | brickWb => exact ⟨_, rfl, fun _ h => opBrickWb_keeps (h := h) ..⟩
  | writeBackInterval => exact ⟨_, rfl, fun _ h => opWriteBackInterval_keeps (h := h) ..⟩
  | writeBackComplete => exact ⟨_, rfl, fun _ h => opWriteBackComplete_keeps (h := h) ..⟩
  | brickTransferRetry => exact ⟨_, rfl, fun _ h => opBrickTransferRetry_keeps (h := h) ..⟩
  | adcWindowEnd => exact ⟨_, rfl, fun _ h => opAdcWindowEnd_keeps (h := h) ..⟩
  | sadcCfgWrite => exact ⟨_, rfl, fun _ h => opSadcCfgWrite_keeps (h := h) ..⟩
  | sadcImgWrite => exact ⟨_, rfl, fun _ h => opSadcImgWrite_keeps (h := h) ..⟩
  | sadcFifoPop => exact ⟨_, rfl, fun _ h => opSadcFifoPop_keeps (h := h) ..⟩
  | overcurrentComparatorChange => exact ⟨_, rfl, fun _ h => opOvercurrentComparatorChange_keeps (h := h) ..⟩
  | ocLatchClear => exact ⟨_, rfl, fun _ h => opOcLatchClear_keeps (h := h) ..⟩
  | aoutSrcWrite => exact ⟨_, rfl, fun _ h => opAoutSrcWrite_keeps (h := h) ..⟩
  | aoutCodeWrite => exact ⟨_, rfl, fun _ h => opAoutCodeWrite_keeps (h := h) ..⟩
  | dacLatch => exact ⟨_, rfl, fun _ h => opDacLatch_keeps (h := h) ..⟩
  | waveArm => exact ⟨_, rfl, fun _ h => opWaveArm_keeps (h := h) ..⟩
  | waveStop => exact ⟨_, rfl, fun _ h => opWaveStop_keeps (h := h) ..⟩
  | waveSample => exact ⟨_, rfl, fun _ h => opWaveSample_keeps (h := h) ..⟩
  | diDebouncedChange => exact ⟨_, rfl, fun _ h => State.dioLive_keeps _ _ (fun _ h => opDiDebouncedChange_keeps (h := h) ..) h⟩
  | diTypeWrite => exact ⟨_, rfl, fun _ h => State.dioLive_keeps _ _ (fun _ h => opDiTypeWrite_keeps (h := h) ..) h⟩
  | wireBreakChange => exact ⟨_, rfl, fun _ h => State.dioLive_keeps _ _ (fun _ h => opWireBreakChange_keeps (h := h) ..) h⟩
  | dioIbindWrite => exact ⟨_, rfl, fun _ h => State.dioLive_keeps _ _ (fun _ h => opDioIbindWrite_keeps (h := h) ..) h⟩
  | doSourceWrite => exact ⟨_, rfl, fun _ h => State.dioLive_keeps _ _ (fun _ h => opDoSourceWrite_keeps (h := h) ..) h⟩
  | doSvWrite => exact ⟨_, rfl, fun _ h => State.dioLive_keeps _ _ (fun _ h => opDoSvWrite_keeps (h := h) ..) h⟩
  | doOverload => exact ⟨_, rfl, fun _ h => State.dioLive_keeps _ _ (fun _ h => opDoOverload_keeps (h := h) ..) h⟩
  | doThermalShutdown => exact ⟨_, rfl, fun _ h => State.dioLive_keeps _ _ (fun _ h => opDoThermalShutdown_keeps (h := h) ..) h⟩
  | dioClr => exact ⟨_, rfl, fun _ h => State.dioLive_keeps _ _ (fun _ h => opDioClr_keeps (h := h) ..) h⟩
  | dioAutoclr => exact ⟨_, rfl, fun _ h => State.dioLive_keeps _ _ (fun _ h => opDioAutoclr_keeps (h := h) ..) h⟩
  | vfldUndervoltage => exact ⟨_, rfl, fun _ h => opVfldUndervoltage_keeps (h := h) ..⟩
  | walkGo => exact ⟨_, rfl, fun _ h => State.dioLive_keeps _ _ (fun _ h => opWalkGo_keeps (h := h) ..) h⟩
  | walkAbort => exact ⟨_, rfl, fun _ h => opWalkAbort_keeps (h := h) ..⟩
  | walkStepEnd => exact ⟨_, rfl, fun _ h => opWalkStepEnd_keeps (h := h) ..⟩
  | keepWindowWrite => exact ⟨_, rfl, fun _ h => opKeepWindowWrite_keeps (h := h) ..⟩
  | keepRequestServed => exact ⟨_, rfl, fun _ h => State.dictSettle_keeps _ (opKeepRequestServed_keeps (h := h) ..)⟩
  | keepSave => exact ⟨_, rfl, fun _ h => State.keepOpen_keeps _ _ (fun _ h => opKeepSave_keeps (h := h) ..) h⟩
  | retainSaveComplete => exact ⟨_, rfl, fun _ h => State.dictSettle_keeps _ (opRetainSaveComplete_keeps (h := h) ..)⟩
  | retainBankEraseComplete => exact ⟨_, rfl, fun _ h => State.dictSettle_keeps _ (opRetainBankEraseComplete_keeps (h := h) ..)⟩
  | ringRead => exact ⟨_, rfl, fun _ h => State.keepOpen_keeps _ _ (fun _ h => opRingRead_keeps (h := h) ..) h⟩
  | ringWrite => exact ⟨_, rfl, fun _ h => State.keepOpen_keeps _ _ (fun _ h => State.keepSettle_keeps _ (opRingWrite_keeps (h := h) ..)) h⟩
  | ringDefine => exact ⟨_, rfl, fun _ h => State.keepOpen_keeps _ _ (fun _ h => State.keepSettle_keeps _ (opRingDefine_keeps (h := h) ..)) h⟩
  | ringUndefine => exact ⟨_, rfl, fun _ h => State.keepOpen_keeps _ _ (fun _ h => State.keepSettle_keeps _ (opRingUndefine_keeps (h := h) ..)) h⟩
  | scInc => exact ⟨_, rfl, fun _ h => State.keepOpen_keeps _ _ (fun _ h => State.keepSettle_keeps _ (opScInc_keeps (h := h) ..)) h⟩
  | scSet => exact ⟨_, rfl, fun _ h => State.keepOpen_keeps _ _ (fun _ h => State.keepSettle_keeps _ (opScSet_keeps (h := h) ..)) h⟩
  | recStore => exact ⟨_, rfl, fun _ h => State.keepOpen_keeps _ _ (fun _ h => State.keepSettle_keeps _ (opRecStore_keeps (h := h) ..)) h⟩
  | recFind => exact ⟨_, rfl, fun _ h => State.keepOpen_keeps _ _ (fun _ h => opRecFind_keeps (h := h) ..) h⟩
  | recFindComplete => exact ⟨_, rfl, fun _ h => opRecFindComplete_keeps (h := h) ..⟩
  | recDrop => exact ⟨_, rfl, fun _ h => State.keepOpen_keeps _ _ (fun _ h => State.keepSettle_keeps _ (opRecDrop_keeps (h := h) ..)) h⟩
  | keepUnlock => exact ⟨_, rfl, fun _ h => State.keepOpen_keeps _ _ (fun _ h => opKeepUnlock_keeps (h := h) ..) h⟩
  | keepRelock => exact ⟨_, rfl, fun _ h => State.keepOpen_keeps _ _ (fun _ h => opKeepRelock_keeps (h := h) ..) h⟩
  | passwordBlockEnd => exact ⟨_, rfl, fun _ h => opPasswordBlockEnd_keeps (h := h) ..⟩
  | keepRecallComplete => exact ⟨_, rfl, fun _ h => State.recallDone_keeps (h := h) ..⟩
  | logAppend => exact ⟨_, rfl, fun _ h => State.logOpen_keeps _ _ (fun _ h => opLogAppend_keeps (h := h) ..) h⟩
  | logUnpin => exact ⟨_, rfl, fun _ h => State.logOpen_keeps _ _ (fun _ h => opLogUnpin_keeps (h := h) ..) h⟩
  | logClrbad => exact ⟨_, rfl, fun _ h => State.logOpen_keeps _ _ (fun _ h => opLogClrbad_keeps (h := h) ..) h⟩
  | powerFailWarningStart => exact ⟨_, rfl, fun _ h => opPowerFailWarningStart_keeps (h := h) ..⟩
  | powerFailWarningEnd => exact ⟨_, rfl, fun _ h => opPowerFailWarningEnd_keeps (h := h) ..⟩
  | supplyWindowChange => exact ⟨_, rfl, fun _ h => opSupplyWindowChange_keeps (h := h) ..⟩
  | powerOnResetAssert => exact ⟨_, rfl, fun _ h => opPowerOnResetAssert_keeps (h := h) ..⟩
  | powerOnResetRelease => exact ⟨_, rfl, fun _ h => opPowerOnResetRelease_keeps (h := h) ..⟩
  | sramInitComplete => exact ⟨_, rfl, fun _ h => opSramInitComplete_keeps (h := h) ..⟩
  | svFirmwareStart => exact ⟨_, rfl, fun _ h => opSvFirmwareStart_keeps (h := h) ..⟩
  | startUpEnd => exact ⟨_, rfl, fun _ h => opStartUpEnd_keeps (h := h) ..⟩
  | temperatureSample => exact ⟨_, rfl, fun _ h => opTemperatureSample_keeps (h := h) ..⟩
  | domainSwitch => exact ⟨_, rfl, fun _ h => opDomainSwitch_keeps (h := h) ..⟩
  | referenceFault => exact ⟨_, rfl, fun _ h => opReferenceFault_keeps (h := h) ..⟩
  | dieLinkLoss => exact ⟨_, rfl, fun _ h => opDieLinkLoss_keeps (h := h) ..⟩
  | nrstLow => exact ⟨_, rfl, fun _ h => opNrstLow_keeps (h := h) ..⟩
  | rstCmd => exact ⟨_, rfl, fun _ h => opRstCmd_keeps (h := h) ..⟩
  | rstEng => exact ⟨_, rfl, fun _ h => opRstEng_keeps (h := h) ..⟩
  | bootcfgStore => exact ⟨_, rfl, fun _ h => opBootcfgStore_keeps (h := h) ..⟩
  | modeRequest => exact ⟨_, rfl, fun _ h => opModeRequest_keeps (h := h) ..⟩
  | standbyEntry => exact ⟨_, rfl, fun _ h => opStandbyEntry_keeps (h := h) ..⟩
  | wakePattern => exact ⟨_, rfl, fun _ h => opWakePattern_keeps (h := h) ..⟩
  | lanternOpen => exact ⟨_, rfl, fun _ h => opLanternOpen_keeps (h := h) ..⟩
  | lanternClose => exact ⟨_, rfl, fun _ h => opLanternClose_keeps (h := h) ..⟩
  | lanternPing => exact ⟨_, rfl, fun _ h => opLanternPing_keeps (h := h) ..⟩
  | lanternRead => exact ⟨_, rfl, fun _ h => opLanternRead_keeps (h := h) ..⟩
  | lanternWrite => exact ⟨_, rfl, fun _ h => opLanternWrite_keeps (h := h) ..⟩
  | lanternMonitor => exact ⟨_, rfl, fun _ h => opLanternMonitor_keeps (h := h) ..⟩
  | lanternMonpoll => exact ⟨_, rfl, fun _ h => opLanternMonpoll_keeps (h := h) ..⟩
  | lanternReset => exact ⟨_, rfl, fun _ h => opLanternReset_keeps (h := h) ..⟩
  | lanternBreak => exact ⟨_, rfl, fun _ h => opLanternBreak_keeps (h := h) ..⟩
  | lanternFrameTimeout => exact ⟨_, rfl, fun _ h => opLanternFrameTimeout_keeps (h := h) ..⟩
  | lanternIdleTimeout => exact ⟨_, rfl, fun _ h => opLanternIdleTimeout_keeps (h := h) ..⟩
  | accGo => exact ⟨_, rfl, fun _ h => opAccGo_keeps (h := h) ..⟩
  | haltRequest => exact ⟨_, rfl, fun _ h => opHaltRequest_keeps (h := h) ..⟩
  | deferredHalt => exact ⟨_, rfl, fun _ h => State.deferredHalt_keeps (h := h) ..⟩
  | resumeRequest => exact ⟨_, rfl, fun _ h => opResumeRequest_keeps (h := h) ..⟩
  | stepRequest => exact ⟨_, rfl, fun _ h => opStepRequest_keeps (h := h) ..⟩
  | lanternSysrst => exact ⟨_, rfl, fun _ h => opLanternSysrst_keeps (h := h) ..⟩
  | eeDataWrite => exact ⟨_, rfl, fun _ h => opEeDataWrite_keeps (h := h) ..⟩
  | monRead => exact ⟨_, rfl, fun _ h => opMonRead_keeps (h := h) ..⟩
  | monWrite => exact ⟨_, rfl, fun _ h => opMonWrite_keeps (h := h) ..⟩
  | monitorHalt => exact ⟨_, rfl, fun _ h => opMonitorHalt_keeps (h := h) ..⟩
  | monitorResume => exact ⟨_, rfl, fun _ h => opMonitorResume_keeps (h := h) ..⟩
  | monitorStep => exact ⟨_, rfl, fun _ h => opMonitorStep_keeps (h := h) ..⟩
  | monStateRead => exact ⟨_, rfl, fun _ h => opMonStateRead_keeps (h := h) ..⟩
  | monStateWrite => exact ⟨_, rfl, fun _ h => opMonStateWrite_keeps (h := h) ..⟩
  | monBreak => exact ⟨_, rfl, fun _ h => opMonBreak_keeps (h := h) ..⟩
  | monSession => exact ⟨_, rfl, fun _ h => opMonSession_keeps (h := h) ..⟩
  | monitorReset => exact ⟨_, rfl, fun _ h => opMonitorReset_keeps (h := h) ..⟩
  | monStartMode => exact ⟨_, rfl, fun _ h => opMonStartMode_keeps (h := h) ..⟩
  | monitorStatus => exact ⟨_, rfl, fun _ h => opMonitorStatus_keeps (h := h) ..⟩
  | updSectorErase => exact ⟨_, rfl, fun _ h => opUpdSectorErase_keeps (h := h) ..⟩
  | updBlockErase => exact ⟨_, rfl, fun _ h => opUpdBlockErase_keeps (h := h) ..⟩
  | updProgram => exact ⟨_, rfl, fun _ h => opUpdProgram_keeps (h := h) ..⟩
  | updCrc => exact ⟨_, rfl, fun _ h => opUpdCrc_keeps (h := h) ..⟩
  | flashOperationComplete => exact ⟨_, rfl, fun _ h => opFlashOperationComplete_keeps (h := h) ..⟩
  | fwVerify => exact ⟨_, rfl, fun _ h => opFwVerify_keeps (h := h) ..⟩
  | fwDryrun => exact ⟨_, rfl, fun _ h => opFwDryrun_keeps (h := h) ..⟩
  | fwSchedule => exact ⟨_, rfl, fun _ h => opFwSchedule_keeps (h := h) ..⟩
  | fwCancel => exact ⟨_, rfl, fun _ h => opFwCancel_keeps (h := h) ..⟩
  | fwActivate => exact ⟨_, rfl, fun _ h => opFwActivate_keeps (h := h) ..⟩
  | fwConfirm => exact ⟨_, rfl, fun _ h => opFwConfirm_keeps (h := h) ..⟩
  | fwRollback => exact ⟨_, rfl, fun _ h => opFwRollback_keeps (h := h) ..⟩
  | fwClearResetList => exact ⟨_, rfl, fun _ h => opFwClearResetList_keeps (h := h) ..⟩
  | handoverComplete => exact ⟨_, rfl, fun _ h => opHandoverComplete_keeps (h := h) ..⟩
  | confirmationTime => exact ⟨_, rfl, fun _ h => opConfirmationTime_keeps (h := h) ..⟩
  | registerWrite => exact ⟨_, rfl, fun _ h => opRegisterWrite_keeps (h := h) ..⟩
  | ownInChange => exact ⟨_, rfl, fun _ h => opOwnInChange_keeps (h := h) ..⟩
  | canBusError => exact ⟨_, rfl, fun _ h => opCanBusError_keeps (h := h) ..⟩
  | millerClampEngage => exact ⟨_, rfl, fun _ h => opMillerClampEngage_keeps (h := h) ..⟩
  | vfldCutoff => exact ⟨_, rfl, fun _ h => opVfldCutoff_keeps (h := h) ..⟩
  | pllLock => exact ⟨_, rfl, fun _ h => opPllLock_keeps (h := h) ..⟩
  | lanternInvalidCell => exact ⟨_, rfl, fun _ h => opLanternInvalidCell_keeps (h := h) ..⟩
  | lanternFrameError => exact ⟨_, rfl, fun _ h => opLanternFrameError_keeps (h := h) ..⟩
  | lanternLockoutEnd => exact ⟨_, rfl, fun _ h => opLanternLockoutEnd_keeps (h := h) ..⟩
  | rtcWrap => exact ⟨_, rfl, fun _ h => opRtcWrap_keeps (h := h) ..⟩
  | driveChannelReturn => exact ⟨_, rfl, fun _ h => opDriveChannelReturn_keeps (h := h) ..⟩

/-- Settles O49: the parts of the invariant and the queue of waiting commands are kept together. -/
theorem commandsLeaveTheQueue : Obligations.CommandsLeaveTheQueue := by
  unfold Obligations.CommandsLeaveTheQueue
  intro c s t hinv hexec
  obtain ⟨u, hnext, hkeeps⟩ := exec_completes c s
  have htu : t = u := Host.Outcome.next.inj (hexec.symm.trans hnext)
  exact htu ▸ good_iff.mp (hkeeps s.pending (good_iff.mpr ⟨rfl, hinv⟩))

/-- Settles O50: every arm of `exec` is a `next`. -/
theorem everyCommandCompletes : Obligations.EveryCommandCompletes := by
  unfold Obligations.EveryCommandCompletes
  intro c s
  obtain ⟨t, hnext, -⟩ := exec_completes c s
  exact ⟨t, hnext⟩

/-- Settles O51: `step` runs the front command on the state with the rest of the queue. -/
theorem frontCommand : Obligations.FrontCommand := by
  unfold Obligations.FrontCommand
  exact fun c l s => rfl

end Sys2Proof.Machine
end
